-- ==== Sys2Proof/Word.lean ====
section
/-!
DEFINITION. The word types. A register is a 32-bit word (R9); memory and streams are bytes.
-/
namespace Sys2Proof

/-- A register word. -/
abbrev Word := BitVec 32

/-- A byte of memory, of a frame or of a message. -/
abbrev Byte := BitVec 8

end Sys2Proof
end

