-- ==== Sys2Proof/Machine/RegMap.lean ====
section
/-!
DEFINITION. The register map: every field map of the specification's register pages as data (offset, array count and
stride, and for each field its place, access code, the boundary at which a committed value comes into force, and
its reset value), and the table windows' entry layouts. Reserved bits are those no field names (R9, R10, R424, R451).
-/
namespace Sys2Proof.Machine

/-- The access codes of Table 0.4 (R9). -/
inductive Access where
  | rw | ro | wo | w1c | w1s | rwa
  deriving DecidableEq, Repr

/-- The boundaries at which committed values come into force (R428 and the pages' chapters). `hub` is
the commit itself. -/
inductive Boundary where
  /-- in force from the commit -/
  | hub
  /-- the engine's next transmit frame -/
  | txFrame
  /-- the next common transmit multiframe -/
  | multiframe
  /-- the engine's next received frame with MFAS = 0; of receive keys, the course's next frame received -/
  | rxFrame
  /-- the next codeword boundary -/
  | codeword
  /-- the next pilot boundary -/
  | pilot
  /-- the next transform-block boundary -/
  | block
  /-- the next relay lane frame tick -/
  | tick
  /-- the next course frame boundary -/
  | courseFrame
  /-- the entry to PREP of a relighting commit, or the commit itself in DARK -/
  | relight
  /-- the next item boundary of each queue; of the request engine, its next request -/
  | item
  /-- within 1 ms of the commit -/
  | ms
  deriving DecidableEq, Repr

/-- One field of a register or of a table entry word: its place, its access code, its boundary, and its reset value
`rst + inst × rstInst + index × rstIdx`. -/
structure FieldSpec where
  lsb : Nat
  width : Nat
  acc : Access
  bnd : Boundary
  rst : Int
  rstInst : Int
  rstIdx : Int
  deriving DecidableEq, Repr

/-- A register, or an array of `count` registers `stride` bytes apart. -/
structure RegSpec where
  off : Nat
  count : Nat
  stride : Nat
  fields : List FieldSpec
  deriving DecidableEq, Repr

/-- Tables 1.6, 1.7. -/
def page00E : List RegSpec :=
  [⟨0x040, 220, 4, [⟨0, 10, .ro, .hub, 0, 0, 0⟩,
      ⟨10, 10, .ro, .hub, 0, 0, 0⟩,
      ⟨30, 1, .w1c, .hub, 0, 0, 0⟩,
      ⟨31, 1, .w1c, .hub, 0, 0, 0⟩]⟩,
   ⟨0x3B0, 1, 4, [⟨0, 1, .wo, .hub, 0, 0, 0⟩]⟩]

/-- Table 1.14. -/
def page00F : List RegSpec :=
  [⟨0x040, 1, 4, [⟨0, 5, .ro, .hub, 0, 0, 0⟩]⟩,
   ⟨0x044, 1, 4, [⟨0, 5, .ro, .hub, 0, 0, 0⟩]⟩,
   ⟨0x048, 1, 4, [⟨0, 5, .ro, .hub, 0, 0, 0⟩]⟩,
   ⟨0x04C, 1, 4, [⟨0, 5, .rw, .hub, 0, 0, 0⟩]⟩,
   ⟨0x050, 1, 4, [⟨0, 16, .ro, .hub, 0, 0, 0⟩,
      ⟨16, 16, .ro, .hub, 0, 0, 0⟩]⟩,
   ⟨0x054, 1, 4, [⟨0, 16, .ro, .hub, 1600, 0, 0⟩,
      ⟨16, 16, .rwa, .hub, 1600, 0, 0⟩]⟩,
   ⟨0x058, 1, 4, [⟨0, 5, .ro, .hub, 16, 0, 0⟩,
      ⟨8, 5, .rwa, .hub, 4, 0, 0⟩]⟩]

/-- Table 2.10. -/
def pages100 : List RegSpec :=
  [⟨0x040, 1, 4, [⟨0, 1, .rw, .hub, 0, 0, 0⟩,
      ⟨1, 1, .rwa, .relight, 0, 0, 0⟩]⟩,
   ⟨0x044, 1, 4, [⟨0, 3, .ro, .hub, 0, 0, 0⟩,
      ⟨3, 1, .ro, .hub, 0, 0, 0⟩,
      ⟨4, 1, .ro, .hub, 0, 0, 0⟩,
      ⟨16, 16, .ro, .hub, 0, 0, 0⟩]⟩,
   ⟨0x048, 1, 4, [⟨0, 1, .w1c, .hub, 0, 0, 0⟩,
      ⟨1, 1, .w1c, .hub, 0, 0, 0⟩,
      ⟨2, 1, .w1c, .hub, 0, 0, 0⟩,
      ⟨3, 1, .w1c, .hub, 0, 0, 0⟩,
      ⟨4, 1, .w1c, .hub, 0, 0, 0⟩,
      ⟨5, 1, .w1c, .hub, 0, 0, 0⟩,
      ⟨6, 1, .w1c, .hub, 0, 0, 0⟩,
      ⟨7, 1, .w1c, .hub, 0, 0, 0⟩]⟩]

/-- Table 2.11. -/
def pages101 : List RegSpec :=
  [⟨0x040, 1, 4, [⟨0, 2, .rwa, .relight, 2, 0, 0⟩,
      ⟨8, 6, .rwa, .relight, 63, 0, 0⟩,
      ⟨16, 10, .rwa, .relight, 650, 0, 0⟩]⟩,
   ⟨0x044, 1, 4, [⟨0, 10, .rwa, .relight, 640, 0, 0⟩]⟩,
   ⟨0x048, 1, 4, [⟨0, 28, .ro, .hub, 0, 0, 0⟩]⟩,
   ⟨0x04C, 1, 4, [⟨0, 16, .ro, .hub, 0, 0, 0⟩]⟩]

/-- Table 2.12. -/
def pages102 : List RegSpec :=
  [⟨0x040, 1, 4, [⟨0, 13, .rw, .hub, 100, 0, 0⟩,
      ⟨16, 7, .rw, .hub, 10, 0, 0⟩]⟩,
   ⟨0x044, 1, 4, [⟨0, 13, .ro, .hub, 0, 0, 0⟩]⟩]

/-- Table 2.13. -/
def pages103 : List RegSpec :=
  [⟨0x040, 1, 4, [⟨0, 5, .rwa, .txFrame, 5, 0, 0⟩]⟩,
   ⟨0x044, 1, 4, [⟨0, 8, .rwa, .txFrame, 64, 0, 0⟩]⟩,
   ⟨0x048, 1, 4, [⟨0, 15, .rwa, .hub, 32767, -2, 0⟩,
      ⟨16, 15, .rwa, .hub, 32766, -2, 0⟩]⟩]

/-- Table 2.14. -/
def pages104 : List RegSpec :=
  [⟨0x040, 1, 4, [⟨0, 1, .rwa, .txFrame, 1, 0, 0⟩,
      ⟨1, 1, .rwa, .txFrame, 1, 0, 0⟩,
      ⟨2, 1, .rwa, .hub, 0, 0, 0⟩,
      ⟨3, 1, .rwa, .hub, 0, 0, 0⟩]⟩,
   ⟨0x044, 1, 4, [⟨0, 1, .ro, .hub, 0, 0, 0⟩,
      ⟨1, 1, .ro, .hub, 0, 0, 0⟩,
      ⟨2, 1, .ro, .hub, 0, 0, 0⟩,
      ⟨3, 1, .ro, .hub, 0, 0, 0⟩,
      ⟨8, 8, .ro, .hub, 0, 0, 0⟩]⟩,
   ⟨0x048, 4, 4, [⟨0, 12, .rwa, .txFrame, 0, 0, 0⟩]⟩,
   ⟨0x058, 1, 4, [⟨0, 12, .rw, .hub, 0, 0, 0⟩]⟩,
   ⟨0x05C, 1, 4, [⟨0, 18, .rw, .hub, 0, 0, 0⟩]⟩]

/-- Table 2.15. -/
def pages105 : List RegSpec :=
  [⟨0x040, 1, 4, [⟨0, 10, .rwa, .txFrame, 256, 0, 0⟩]⟩,
   ⟨0x044, 1, 4, [⟨0, 32, .ro, .hub, 0, 0, 0⟩]⟩,
   ⟨0x048, 1, 4, [⟨0, 16, .rw, .hub, 1024, 0, 0⟩,
      ⟨31, 1, .wo, .hub, 0, 0, 0⟩]⟩,
   ⟨0x04C, 1, 4, [⟨0, 1, .rwa, .txFrame, 1, 0, 0⟩,
      ⟨1, 1, .ro, .hub, 0, 0, 0⟩]⟩]

/-- Table 3.5. -/
def pages108 : List RegSpec :=
  [⟨0x040, 1, 4, [⟨0, 1, .rw, .hub, 0, 0, 0⟩]⟩,
   ⟨0x044, 1, 4, [⟨0, 2, .rwa, .block, 2, 0, 0⟩,
      ⟨8, 6, .rwa, .block, 63, 0, 0⟩,
      ⟨16, 10, .rwa, .block, 650, 0, 0⟩]⟩,
   ⟨0x048, 1, 4, [⟨0, 10, .rwa, .block, 640, 0, 0⟩]⟩,
   ⟨0x04C, 1, 4, [⟨0, 28, .ro, .hub, 0, 0, 0⟩]⟩,
   ⟨0x050, 1, 4, [⟨0, 1, .ro, .hub, 0, 0, 0⟩,
      ⟨1, 1, .ro, .hub, 0, 0, 0⟩,
      ⟨2, 19, .ro, .hub, 0, 0, 0⟩]⟩]

/-- Table 3.6. -/
def pages109 : List RegSpec :=
  [⟨0x040, 4, 4, [⟨0, 8, .ro, .hub, 0, 0, 0⟩]⟩,
   ⟨0x050, 1, 4, [⟨0, 32, .ro, .hub, 0, 0, 0⟩]⟩,
   ⟨0x054, 1, 4, [⟨0, 16, .rw, .hub, 1024, 0, 0⟩,
      ⟨31, 1, .wo, .hub, 0, 0, 0⟩]⟩]

/-- Table 3.7. -/
def pages10A : List RegSpec :=
  [⟨0x040, 4, 4, [⟨0, 12, .rwa, .block, 0, 0, 0⟩]⟩,
   ⟨0x050, 1, 4, [⟨0, 1, .rwa, .block, 1, 0, 0⟩,
      ⟨1, 1, .rwa, .block, 1, 0, 0⟩]⟩,
   ⟨0x054, 1, 4, [⟨0, 1, .ro, .hub, 0, 0, 0⟩,
      ⟨1, 1, .ro, .hub, 0, 0, 0⟩,
      ⟨2, 1, .ro, .hub, 0, 0, 0⟩,
      ⟨8, 8, .ro, .hub, 0, 0, 0⟩]⟩,
   ⟨0x058, 2, 4, [⟨0, 16, .ro, .hub, 0, 0, 0⟩,
      ⟨16, 16, .ro, .hub, 0, 0, 0⟩]⟩]

/-- Table 3.8. -/
def pages10B : List RegSpec :=
  [⟨0x040, 1, 4, [⟨0, 2, .rwa, .block, 0, 0, 0⟩,
      ⟨4, 2, .rwa, .block, 0, 0, 0⟩,
      ⟨8, 3, .rwa, .block, 2, 0, 0⟩]⟩,
   ⟨0x044, 1, 4, [⟨0, 2, .ro, .hub, 0, 0, 0⟩,
      ⟨4, 2, .ro, .hub, 0, 0, 0⟩,
      ⟨8, 1, .ro, .hub, 0, 0, 0⟩,
      ⟨9, 1, .ro, .hub, 0, 0, 0⟩,
      ⟨10, 1, .ro, .hub, 0, 0, 0⟩,
      ⟨16, 16, .ro, .hub, 0, 0, 0⟩]⟩]

/-- Table 3.9. -/
def pages10C : List RegSpec :=
  [⟨0x040, 1, 4, [⟨0, 20, .rwa, .block, 0, 0, 0⟩,
      ⟨20, 1, .rwa, .block, 0, 0, 0⟩]⟩,
   ⟨0x044, 1, 4, [⟨0, 18, .rwa, .block, 193400, 0, 0⟩]⟩,
   ⟨0x048, 1, 4, [⟨0, 20, .ro, .hub, 0, 0, 0⟩]⟩,
   ⟨0x04C, 1, 4, [⟨0, 19, .ro, .hub, 0, 0, 0⟩]⟩]

/-- Table 3.10. -/
def pages10D : List RegSpec :=
  [⟨0x040, 1, 4, [⟨0, 32, .ro, .hub, 0, 0, 0⟩]⟩,
   ⟨0x044, 1, 4, [⟨0, 32, .ro, .hub, 0, 0, 0⟩]⟩,
   ⟨0x048, 1, 4, [⟨0, 32, .ro, .hub, 0, 0, 0⟩]⟩]

/-- Table 3.11. -/
def pages10E : List RegSpec :=
  [⟨0x040, 1, 4, [⟨0, 1, .w1s, .hub, 0, 0, 0⟩,
      ⟨1, 1, .wo, .hub, 0, 0, 0⟩,
      ⟨2, 1, .rw, .hub, 0, 0, 0⟩,
      ⟨4, 4, .rw, .hub, 6, 0, 0⟩,
      ⟨8, 11, .rw, .hub, 1024, 0, 0⟩]⟩,
   ⟨0x044, 1, 4, [⟨0, 1, .ro, .hub, 0, 0, 0⟩,
      ⟨1, 1, .ro, .hub, 0, 0, 0⟩,
      ⟨8, 8, .ro, .hub, 0, 0, 0⟩,
      ⟨16, 16, .ro, .hub, 0, 0, 0⟩]⟩]

/-- Table 3.12. -/
def page10F : List RegSpec :=
  [⟨0x040, 1, 4, [⟨0, 5, .rwa, .hub, 2, 0, 0⟩,
      ⟨8, 1, .rwa, .hub, 0, 0, 0⟩]⟩,
   ⟨0x044, 1, 4, [⟨0, 28, .ro, .hub, 0, 0, 0⟩]⟩,
   ⟨0x048, 1, 4, [⟨0, 28, .rw, .hub, 0, 0, 0⟩]⟩,
   ⟨0x04C, 1, 4, [⟨0, 28, .ro, .hub, 0, 0, 0⟩]⟩,
   ⟨0x050, 1, 4, [⟨0, 31, .ro, .hub, 0, 0, 0⟩]⟩,
   ⟨0x054, 1, 4, [⟨0, 2, .rw, .hub, 0, 0, 0⟩,
      ⟨2, 1, .wo, .hub, 0, 0, 0⟩,
      ⟨3, 1, .rw, .hub, 0, 0, 0⟩,
      ⟨8, 5, .rw, .hub, 0, 0, 0⟩,
      ⟨16, 5, .rw, .hub, 0, 0, 0⟩]⟩,
   ⟨0x058, 1, 4, [⟨0, 32, .rw, .hub, 0, 0, 0⟩]⟩,
   ⟨0x05C, 1, 4, [⟨0, 32, .rw, .hub, 0, 0, 0⟩]⟩]

/-- Table 4.9. -/
def pages110 : List RegSpec :=
  [⟨0x040, 1, 4, [⟨0, 2, .rwa, .hub, 1, 0, 0⟩,
      ⟨2, 1, .rw, .hub, 0, 0, 0⟩,
      ⟨3, 1, .wo, .hub, 0, 0, 0⟩,
      ⟨4, 1, .rwa, .pilot, 1, 0, 0⟩,
      ⟨5, 1, .rwa, .pilot, 1, 0, 0⟩]⟩,
   ⟨0x044, 1, 4, [⟨0, 4, .rwa, .pilot, 10, 0, 0⟩,
      ⟨4, 4, .rwa, .pilot, 13, 0, 0⟩,
      ⟨8, 4, .rwa, .pilot, 6, 0, 0⟩,
      ⟨12, 4, .rwa, .pilot, 12, 0, 0⟩]⟩,
   ⟨0x048, 1, 4, [⟨0, 1, .ro, .hub, 0, 0, 0⟩,
      ⟨1, 1, .ro, .hub, 0, 0, 0⟩,
      ⟨2, 1, .ro, .hub, 0, 0, 0⟩,
      ⟨8, 16, .ro, .hub, 0, 0, 0⟩]⟩,
   ⟨0x04C, 1, 4, [⟨0, 32, .ro, .hub, 0, 0, 0⟩]⟩,
   ⟨0x050, 1, 4, [⟨0, 32, .ro, .hub, 0, 0, 0⟩]⟩]

/-- Table 4.10. -/
def pages111 : List RegSpec :=
  [⟨0x040, 1, 4, [⟨0, 1, .wo, .hub, 0, 0, 0⟩,
      ⟨1, 1, .ro, .hub, 0, 0, 0⟩]⟩,
   ⟨0x044, 1, 4, [⟨0, 10, .rw, .hub, 0, 0, 0⟩]⟩,
   ⟨0x048, 1, 4, [⟨0, 16, .ro, .hub, 0, 0, 0⟩,
      ⟨16, 16, .ro, .hub, 0, 0, 0⟩]⟩]

/-- Table 4.11. -/
def pages112 : List RegSpec :=
  [⟨0x040, 1, 4, [⟨0, 7, .rwa, .pilot, 32, 0, 0⟩,
      ⟨7, 2, .rwa, .pilot, 1, 0, 0⟩,
      ⟨9, 3, .rwa, .pilot, 2, 0, 0⟩,
      ⟨12, 1, .rwa, .pilot, 1, 0, 0⟩]⟩,
   ⟨0x044, 1, 4, [⟨0, 1, .ro, .hub, 0, 0, 0⟩,
      ⟨1, 1, .ro, .hub, 0, 0, 0⟩,
      ⟨2, 1, .ro, .hub, 0, 0, 0⟩]⟩,
   ⟨0x048, 1, 4, [⟨0, 20, .ro, .hub, 0, 0, 0⟩]⟩,
   ⟨0x04C, 1, 4, [⟨0, 32, .ro, .hub, 0, 0, 0⟩]⟩,
   ⟨0x050, 1, 4, [⟨0, 16, .rw, .hub, 1, 0, 0⟩,
      ⟨31, 1, .wo, .hub, 0, 0, 0⟩]⟩,
   ⟨0x054, 1, 4, [⟨0, 16, .ro, .hub, 0, 0, 0⟩]⟩,
   ⟨0x058, 1, 4, [⟨0, 22, .ro, .hub, 0, 0, 0⟩]⟩]

/-- Table 4.12. -/
def pages113 : List RegSpec :=
  [⟨0x040, 1, 4, [⟨0, 15, .rwa, .hub, 32767, -2, 0⟩,
      ⟨16, 15, .rwa, .hub, 32766, -2, 0⟩]⟩,
   ⟨0x044, 1, 4, [⟨0, 1, .ro, .hub, 0, 0, 0⟩,
      ⟨1, 1, .ro, .hub, 0, 0, 0⟩,
      ⟨2, 1, .ro, .hub, 0, 0, 0⟩,
      ⟨8, 8, .ro, .hub, 0, 0, 0⟩]⟩,
   ⟨0x048, 1, 4, [⟨0, 8, .rwa, .pilot, 64, 0, 0⟩]⟩]

/-- Table 4.13. -/
def pages114 : List RegSpec :=
  [⟨0x040, 1, 4, [⟨0, 8, .rw, .hub, 0, 0, 0⟩,
      ⟨8, 1, .rw, .hub, 1, 0, 0⟩,
      ⟨9, 1, .rwa, .pilot, 0, 0, 0⟩,
      ⟨10, 1, .wo, .hub, 0, 0, 0⟩,
      ⟨11, 1, .wo, .hub, 0, 0, 0⟩]⟩,
   ⟨0x044, 1, 4, [⟨0, 4, .ro, .hub, 0, 0, 0⟩,
      ⟨8, 4, .ro, .hub, 0, 0, 0⟩,
      ⟨16, 8, .ro, .hub, 0, 0, 0⟩]⟩,
   ⟨0x048, 1, 4, [⟨0, 8, .rw, .hub, 8, 0, 0⟩]⟩,
   ⟨0x04C, 1, 4, [⟨0, 14, .rw, .hub, 1000, 0, 0⟩]⟩,
   ⟨0x050, 1, 4, [⟨0, 16, .rwa, .pilot, -3200, 0, 0⟩,
      ⟨16, 16, .rwa, .pilot, 3200, 0, 0⟩]⟩,
   ⟨0x054, 1, 4, [⟨0, 24, .ro, .hub, 0, 0, 0⟩]⟩,
   ⟨0x058, 1, 4, [⟨0, 32, .ro, .hub, 0, 0, 0⟩]⟩]

/-- Table 4.14. -/
def pages115 : List RegSpec :=
  [⟨0x040, 1, 4, [⟨0, 10, .rw, .hub, 100, 0, 0⟩,
      ⟨16, 10, .rw, .hub, 220, 0, 0⟩]⟩,
   ⟨0x044, 1, 4, [⟨0, 32, .ro, .hub, 0, 0, 0⟩]⟩,
   ⟨0x048, 1, 4, [⟨0, 16, .ro, .hub, 0, 0, 0⟩,
      ⟨16, 1, .ro, .hub, 0, 0, 0⟩]⟩,
   ⟨0x04C, 1, 4, [⟨0, 20, .ro, .hub, 0, 0, 0⟩,
      ⟨20, 1, .ro, .hub, 0, 0, 0⟩]⟩,
   ⟨0x050, 1, 4, [⟨0, 16, .ro, .hub, 0, 0, 0⟩,
      ⟨16, 16, .ro, .hub, 0, 0, 0⟩]⟩,
   ⟨0x054, 1, 4, [⟨0, 16, .ro, .hub, 0, 0, 0⟩,
      ⟨16, 16, .ro, .hub, 0, 0, 0⟩]⟩,
   ⟨0x058, 1, 4, [⟨0, 16, .ro, .hub, 0, 0, 0⟩,
      ⟨16, 1, .ro, .hub, 0, 0, 0⟩]⟩,
   ⟨0x05C, 1, 4, [⟨0, 16, .rw, .hub, 692, 0, 0⟩,
      ⟨16, 16, .rw, .hub, 30, 0, 0⟩]⟩]

/-- Table 5.7. -/
def pages118 : List RegSpec :=
  [⟨0x040, 1, 4, [⟨0, 5, .rwa, .codeword, 16, 0, 0⟩,
      ⟨8, 5, .rwa, .codeword, 8, 0, 0⟩,
      ⟨16, 1, .rwa, .codeword, 1, 0, 0⟩]⟩,
   ⟨0x044, 1, 4, [⟨0, 5, .ro, .hub, 16, 0, 0⟩,
      ⟨8, 4, .ro, .hub, 0, 0, 0⟩,
      ⟨12, 1, .ro, .hub, 0, 0, 0⟩]⟩,
   ⟨0x048, 1, 4, [⟨0, 32, .ro, .hub, 275251200, 0, 0⟩]⟩,
   ⟨0x04C, 1, 4, [⟨0, 8, .ro, .hub, 1, 0, 0⟩]⟩]

/-- Table 5.8. -/
def pages119 : List RegSpec :=
  [⟨0x040, 1, 4, [⟨0, 3, .ro, .hub, 0, 0, 0⟩,
      ⟨3, 1, .ro, .hub, 0, 0, 0⟩,
      ⟨4, 3, .ro, .hub, 0, 0, 0⟩]⟩,
   ⟨0x044, 1, 4, [⟨0, 32, .ro, .hub, 0, 0, 0⟩]⟩,
   ⟨0x048, 1, 4, [⟨0, 16, .ro, .hub, 0, 0, 0⟩,
      ⟨31, 1, .wo, .hub, 0, 0, 0⟩]⟩]

/-- Table 5.9. -/
def pages11A : List RegSpec :=
  [⟨0x040, 1, 4, [⟨0, 1, .wo, .hub, 0, 0, 0⟩,
      ⟨1, 1, .wo, .hub, 0, 0, 0⟩]⟩,
   ⟨0x044, 1, 4, [⟨0, 32, .ro, .hub, 0, 0, 0⟩]⟩,
   ⟨0x048, 1, 4, [⟨0, 32, .ro, .hub, 0, 0, 0⟩]⟩,
   ⟨0x04C, 1, 4, [⟨0, 32, .ro, .hub, 0, 0, 0⟩]⟩,
   ⟨0x050, 1, 4, [⟨0, 32, .ro, .hub, 0, 0, 0⟩]⟩,
   ⟨0x054, 1, 4, [⟨0, 32, .ro, .hub, 0, 0, 0⟩]⟩,
   ⟨0x058, 1, 4, [⟨0, 32, .ro, .hub, 0, 0, 0⟩]⟩,
   ⟨0x05C, 1, 4, [⟨0, 32, .ro, .hub, 0, 0, 0⟩]⟩]

/-- Table 5.10. -/
def pages11B : List RegSpec :=
  [⟨0x040, 1, 4, [⟨0, 32, .ro, .hub, 0, 0, 0⟩]⟩,
   ⟨0x044, 1, 4, [⟨0, 32, .ro, .hub, 0, 0, 0⟩]⟩,
   ⟨0x048, 1, 4, [⟨0, 32, .ro, .hub, 0, 0, 0⟩]⟩,
   ⟨0x04C, 1, 4, [⟨0, 32, .ro, .hub, 0, 0, 0⟩]⟩,
   ⟨0x050, 1, 4, [⟨0, 32, .ro, .hub, 0, 0, 0⟩]⟩,
   ⟨0x054, 1, 4, [⟨0, 32, .ro, .hub, 0, 0, 0⟩]⟩,
   ⟨0x058, 1, 4, [⟨0, 1, .ro, .hub, 0, 0, 0⟩,
      ⟨1, 1, .ro, .hub, 0, 0, 0⟩,
      ⟨8, 8, .ro, .hub, 0, 0, 0⟩]⟩]

/-- Table 5.11. -/
def pages11C : List RegSpec :=
  [⟨0x040, 1, 4, [⟨0, 1, .rwa, .pilot, 1, 0, 0⟩,
      ⟨8, 8, .rwa, .codeword, 32, 0, 0⟩]⟩,
   ⟨0x044, 1, 4, [⟨0, 8, .ro, .hub, 0, 0, 0⟩,
      ⟨8, 1, .ro, .hub, 0, 0, 0⟩]⟩]

/-- Table 5.12. -/
def pages11D : List RegSpec :=
  [⟨0x040, 1, 4, [⟨0, 32, .rwa, .hub, 51539608, 0, 0⟩]⟩,
   ⟨0x044, 1, 4, [⟨0, 32, .rwa, .hub, 42949673, 0, 0⟩]⟩,
   ⟨0x048, 1, 4, [⟨0, 16, .rw, .hub, 256, 0, 0⟩]⟩]

/-- Table 6.8. -/
def pages200 : List RegSpec :=
  [⟨0x040, 1, 4, [⟨0, 1, .rwa, .multiframe, 0, 0, 0⟩]⟩,
   ⟨0x044, 1, 4, [⟨0, 16, .rwa, .txFrame, 65535, 0, 0⟩,
      ⟨16, 16, .rwa, .hub, 65535, 0, 0⟩]⟩,
   ⟨0x048, 1, 4, [⟨0, 3, .ro, .hub, 0, 0, 0⟩,
      ⟨3, 1, .ro, .hub, 0, 0, 0⟩,
      ⟨4, 1, .ro, .hub, 1, 0, 0⟩,
      ⟨8, 4, .ro, .hub, 0, 0, 0⟩]⟩,
   ⟨0x04C, 1, 4, [⟨0, 8, .ro, .hub, 0, 0, 0⟩,
      ⟨8, 8, .ro, .hub, 0, 0, 0⟩]⟩,
   ⟨0x050, 1, 4, [⟨0, 32, .ro, .hub, 0, 0, 0⟩]⟩,
   ⟨0x054, 1, 4, [⟨0, 32, .ro, .hub, 0, 0, 0⟩]⟩,
   ⟨0x058, 1, 4, [⟨0, 32, .ro, .hub, 0, 0, 0⟩]⟩,
   ⟨0x05C, 1, 4, [⟨0, 32, .ro, .hub, 0, 0, 0⟩]⟩,
   ⟨0x060, 1, 4, [⟨0, 16, .ro, .hub, 0, 0, 0⟩,
      ⟨31, 1, .wo, .hub, 0, 0, 0⟩]⟩]

/-- Table 6.9. -/
def page240 : List RegSpec :=
  [⟨0x040, 1, 4, [⟨0, 3, .rw, .hub, 0, 0, 0⟩]⟩,
   ⟨0x044, 1, 4, [⟨0, 10, .rw, .hub, 0, 0, 0⟩,
      ⟨31, 1, .rw, .hub, 0, 0, 0⟩]⟩,
   ⟨0x048, 1, 4, [⟨0, 1, .wo, .hub, 0, 0, 0⟩,
      ⟨1, 1, .wo, .hub, 0, 0, 0⟩]⟩,
   ⟨0x050, 16, 4, [⟨0, 32, .rw, .hub, 0, 0, 0⟩]⟩,
   ⟨0x090, 1, 4, [⟨0, 17, .ro, .hub, 0, 0, 0⟩]⟩]

/-- Table 6.13. -/
def page241 : List RegSpec :=
  [⟨0x040, 16, 4, [⟨0, 32, .w1c, .hub, 0, 0, 0⟩]⟩,
   ⟨0x080, 16, 4, [⟨0, 32, .ro, .hub, 0, 0, 0⟩]⟩,
   ⟨0x0C0, 16, 4, [⟨0, 32, .ro, .hub, 0, 0, 0⟩]⟩]

/-- Table 7.7. -/
def page280 : List RegSpec :=
  [⟨0x040, 1, 4, [⟨0, 2, .rw, .hub, 0, 0, 0⟩]⟩,
   ⟨0x044, 1, 4, [⟨0, 8, .rw, .hub, 0, 0, 0⟩,
      ⟨31, 1, .rw, .hub, 0, 0, 0⟩]⟩,
   ⟨0x048, 1, 4, [⟨0, 1, .wo, .hub, 0, 0, 0⟩,
      ⟨1, 1, .wo, .hub, 0, 0, 0⟩]⟩,
   ⟨0x050, 16, 4, [⟨0, 32, .rw, .hub, 0, 0, 0⟩]⟩,
   ⟨0x090, 1, 4, [⟨0, 32, .ro, .hub, 0, 0, 0⟩]⟩,
   ⟨0x094, 1, 4, [⟨0, 7, .ro, .hub, 0, 0, 0⟩,
      ⟨16, 11, .ro, .hub, 0, 0, 0⟩]⟩,
   ⟨0x098, 1, 4, [⟨0, 32, .ro, .hub, 0, 0, 0⟩]⟩,
   ⟨0x0A0, 8, 4, [⟨0, 32, .w1c, .hub, 0, 0, 0⟩]⟩,
   ⟨0x0C0, 8, 4, [⟨0, 32, .ro, .hub, 0, 0, 0⟩]⟩]

/-- Table 8.8. -/
def pages2C0 : List RegSpec :=
  [⟨0x040, 1, 4, [⟨0, 3, .rwa, .hub, 0, 0, 0⟩,
      ⟨3, 1, .rwa, .hub, 0, 0, 0⟩]⟩,
   ⟨0x044, 1, 4, [⟨0, 1, .rw, .hub, 0, 0, 0⟩,
      ⟨1, 1, .rwa, .hub, 0, 0, 0⟩,
      ⟨16, 14, .rwa, .hub, 9216, 0, 0⟩]⟩,
   ⟨0x048, 1, 4, [⟨0, 1, .ro, .hub, 0, 0, 0⟩,
      ⟨1, 1, .ro, .hub, 0, 0, 0⟩,
      ⟨2, 1, .ro, .hub, 0, 0, 0⟩,
      ⟨3, 1, .ro, .hub, 0, 0, 0⟩,
      ⟨4, 1, .ro, .hub, 0, 0, 0⟩,
      ⟨5, 1, .ro, .hub, 0, 0, 0⟩]⟩,
   ⟨0x04C, 1, 4, [⟨0, 1, .wo, .hub, 0, 0, 0⟩,
      ⟨1, 1, .wo, .hub, 0, 0, 0⟩]⟩,
   ⟨0x050, 1, 4, [⟨0, 32, .ro, .hub, 0, 0, 0⟩]⟩,
   ⟨0x054, 1, 4, [⟨0, 32, .ro, .hub, 0, 0, 0⟩]⟩,
   ⟨0x058, 1, 4, [⟨0, 32, .ro, .hub, 0, 0, 0⟩]⟩,
   ⟨0x05C, 1, 4, [⟨0, 32, .ro, .hub, 0, 0, 0⟩]⟩,
   ⟨0x060, 1, 4, [⟨0, 32, .ro, .hub, 0, 0, 0⟩]⟩,
   ⟨0x064, 1, 4, [⟨0, 32, .ro, .hub, 0, 0, 0⟩]⟩,
   ⟨0x068, 1, 4, [⟨0, 32, .ro, .hub, 0, 0, 0⟩]⟩,
   ⟨0x06C, 1, 4, [⟨0, 32, .ro, .hub, 0, 0, 0⟩]⟩,
   ⟨0x070, 1, 4, [⟨0, 32, .ro, .hub, 0, 0, 0⟩]⟩,
   ⟨0x074, 1, 4, [⟨0, 32, .ro, .hub, 0, 0, 0⟩]⟩,
   ⟨0x078, 1, 4, [⟨0, 32, .ro, .hub, 0, 0, 0⟩]⟩,
   ⟨0x07C, 1, 4, [⟨0, 32, .ro, .hub, 0, 0, 0⟩]⟩] ++
  [⟨0x080, 1, 4, [⟨0, 32, .ro, .hub, 0, 0, 0⟩]⟩,
   ⟨0x084, 1, 4, [⟨0, 32, .ro, .hub, 0, 0, 0⟩]⟩,
   ⟨0x088, 1, 4, [⟨0, 32, .ro, .hub, 0, 0, 0⟩]⟩,
   ⟨0x08C, 1, 4, [⟨0, 32, .ro, .hub, 0, 0, 0⟩]⟩,
   ⟨0x090, 1, 4, [⟨0, 16, .rw, .hub, 16, 0, 0⟩]⟩]

/-- Table 8.9. -/
def page300 : List RegSpec :=
  [⟨0x040, 1, 4, [⟨0, 16, .ro, .hub, 0, 0, 0⟩,
      ⟨16, 3, .ro, .hub, 1, 0, 0⟩]⟩,
   ⟨0x044, 1, 4, [⟨0, 16, .ro, .hub, 0, 0, 0⟩]⟩,
   ⟨0x048, 1, 4, [⟨0, 7, .rwa, .hub, 56, 0, 0⟩,
      ⟨8, 4, .rwa, .hub, 3, 0, 0⟩,
      ⟨12, 3, .rwa, .hub, 1, 0, 0⟩,
      ⟨15, 1, .rwa, .hub, 0, 0, 0⟩]⟩,
   ⟨0x04C, 1, 4, [⟨0, 16, .rwa, .hub, 0, 0, 0⟩,
      ⟨16, 2, .rwa, .hub, 1, 0, 0⟩,
      ⟨18, 5, .rwa, .hub, 0, 0, 0⟩]⟩,
   ⟨0x050, 1, 4, [⟨0, 7, .rwa, .hub, 48, 0, 0⟩]⟩,
   ⟨0x054, 1, 4, [⟨0, 16, .ro, .hub, 685, 0, 0⟩]⟩,
   ⟨0x058, 4, 4, [⟨0, 16, .ro, .hub, 0, 0, 0⟩,
      ⟨16, 12, .ro, .hub, 0, 0, 0⟩,
      ⟨31, 1, .ro, .hub, 0, 0, 0⟩]⟩]

/-- Table 8.10. -/
def page301 : List RegSpec :=
  [⟨0x040, 1, 4, [⟨0, 3, .rw, .hub, 0, 0, 0⟩]⟩,
   ⟨0x044, 1, 4, [⟨0, 20, .rw, .hub, 0, 0, 0⟩,
      ⟨20, 1, .rw, .hub, 0, 0, 0⟩,
      ⟨31, 1, .rw, .hub, 0, 0, 0⟩]⟩,
   ⟨0x048, 1, 4, [⟨0, 1, .wo, .hub, 0, 0, 0⟩,
      ⟨1, 1, .wo, .hub, 0, 0, 0⟩]⟩,
   ⟨0x050, 36, 4, [⟨0, 32, .rw, .hub, 0, 0, 0⟩]⟩,
   ⟨0x0E0, 1, 4, [⟨0, 32, .rw, .hub, 0, 0, 0⟩]⟩,
   ⟨0x0E4, 1, 4, [⟨0, 21, .rw, .hub, 0, 0, 0⟩]⟩,
   ⟨0x0E8, 1, 4, [⟨0, 3, .rw, .hub, 0, 0, 0⟩,
      ⟨3, 1, .rw, .hub, 0, 0, 0⟩,
      ⟨4, 1, .wo, .hub, 0, 0, 0⟩,
      ⟨5, 1, .ro, .hub, 0, 0, 0⟩,
      ⟨6, 1, .ro, .hub, 0, 0, 0⟩]⟩,
   ⟨0x0EC, 1, 4, [⟨0, 21, .ro, .hub, 0, 0, 0⟩]⟩]

/-- Table 8.12. -/
def page302 : List RegSpec :=
  [⟨0x040, 1, 4, [⟨0, 1, .wo, .hub, 0, 0, 0⟩,
      ⟨1, 1, .wo, .hub, 0, 0, 0⟩]⟩,
   ⟨0x044, 1, 4, [⟨0, 32, .ro, .hub, 0, 0, 0⟩]⟩,
   ⟨0x048, 1, 4, [⟨0, 32, .ro, .hub, 0, 0, 0⟩]⟩,
   ⟨0x04C, 1, 4, [⟨0, 32, .ro, .hub, 0, 0, 0⟩]⟩,
   ⟨0x050, 1, 4, [⟨0, 32, .ro, .hub, 0, 0, 0⟩]⟩,
   ⟨0x054, 1, 4, [⟨0, 32, .ro, .hub, 0, 0, 0⟩]⟩,
   ⟨0x058, 1, 4, [⟨0, 32, .ro, .hub, 0, 0, 0⟩]⟩,
   ⟨0x05C, 1, 4, [⟨0, 32, .ro, .hub, 0, 0, 0⟩]⟩,
   ⟨0x060, 1, 4, [⟨0, 32, .ro, .hub, 0, 0, 0⟩]⟩,
   ⟨0x064, 1, 4, [⟨0, 32, .ro, .hub, 0, 0, 0⟩]⟩,
   ⟨0x068, 1, 4, [⟨0, 32, .ro, .hub, 0, 0, 0⟩]⟩,
   ⟨0x06C, 1, 4, [⟨0, 32, .ro, .hub, 0, 0, 0⟩]⟩,
   ⟨0x070, 1, 4, [⟨0, 32, .ro, .hub, 0, 0, 0⟩]⟩,
   ⟨0x074, 1, 4, [⟨0, 32, .ro, .hub, 0, 0, 0⟩]⟩,
   ⟨0x078, 1, 4, [⟨0, 32, .ro, .hub, 0, 0, 0⟩]⟩]

/-- Table 8.12. -/
def page303 : List RegSpec :=
  [⟨0x040, 1, 4, [⟨0, 1, .rw, .hub, 0, 0, 0⟩,
      ⟨1, 1, .wo, .hub, 0, 0, 0⟩,
      ⟨2, 1, .ro, .hub, 0, 0, 0⟩,
      ⟨3, 1, .ro, .hub, 0, 0, 0⟩,
      ⟨4, 1, .ro, .hub, 0, 0, 0⟩,
      ⟨5, 1, .ro, .hub, 0, 0, 0⟩]⟩,
   ⟨0x044, 1, 4, [⟨0, 32, .rw, .hub, 0, 0, 0⟩]⟩,
   ⟨0x048, 1, 4, [⟨0, 32, .rw, .hub, 0, 0, 0⟩]⟩,
   ⟨0x04C, 1, 4, [⟨0, 16, .ro, .hub, 0, 0, 0⟩,
      ⟨16, 16, .ro, .hub, 0, 0, 0⟩]⟩]

/-- Table 9.7. -/
def page340 : List RegSpec :=
  [⟨0x040, 1, 4, [⟨0, 2, .rw, .hub, 0, 0, 0⟩,
      ⟨2, 1, .wo, .hub, 0, 0, 0⟩]⟩,
   ⟨0x044, 1, 4, [⟨0, 1, .ro, .hub, 0, 0, 0⟩,
      ⟨1, 2, .ro, .hub, 0, 0, 0⟩,
      ⟨4, 4, .ro, .hub, 0, 0, 0⟩,
      ⟨16, 16, .ro, .hub, 0, 0, 0⟩]⟩,
   ⟨0x048, 1, 4, [⟨0, 16, .ro, .hub, 0, 0, 0⟩,
      ⟨16, 16, .ro, .hub, 0, 0, 0⟩]⟩,
   ⟨0x04C, 1, 4, [⟨0, 20, .ro, .hub, 0, 0, 0⟩]⟩,
   ⟨0x050, 8, 4, [⟨0, 32, .rw, .hub, 0, 0, 0⟩]⟩]

/-- Table 9.9. -/
def page341 : List RegSpec :=
  [⟨0x040, 1, 4, [⟨0, 3, .rw, .hub, 0, 0, 0⟩]⟩,
   ⟨0x044, 1, 4, [⟨0, 16, .rw, .hub, 0, 0, 0⟩,
      ⟨31, 1, .rw, .hub, 0, 0, 0⟩]⟩,
   ⟨0x048, 1, 4, [⟨0, 1, .wo, .hub, 0, 0, 0⟩,
      ⟨1, 1, .wo, .hub, 0, 0, 0⟩]⟩,
   ⟨0x050, 64, 4, [⟨0, 32, .rw, .hub, 0, 0, 0⟩]⟩]

/-- Table 9.11. -/
def page342 : List RegSpec :=
  [⟨0x040, 1, 4, [⟨0, 1, .wo, .hub, 0, 0, 0⟩,
      ⟨1, 1, .wo, .hub, 0, 0, 0⟩]⟩,
   ⟨0x044, 1, 4, [⟨0, 32, .ro, .hub, 0, 0, 0⟩]⟩,
   ⟨0x048, 1, 4, [⟨0, 32, .ro, .hub, 0, 0, 0⟩]⟩,
   ⟨0x04C, 1, 4, [⟨0, 32, .ro, .hub, 0, 0, 0⟩]⟩,
   ⟨0x050, 1, 4, [⟨0, 32, .ro, .hub, 0, 0, 0⟩]⟩,
   ⟨0x054, 1, 4, [⟨0, 32, .ro, .hub, 0, 0, 0⟩]⟩,
   ⟨0x058, 1, 4, [⟨0, 32, .ro, .hub, 0, 0, 0⟩]⟩,
   ⟨0x05C, 1, 4, [⟨0, 32, .ro, .hub, 0, 0, 0⟩]⟩,
   ⟨0x060, 1, 4, [⟨0, 32, .ro, .hub, 0, 0, 0⟩]⟩,
   ⟨0x064, 1, 4, [⟨0, 32, .ro, .hub, 0, 0, 0⟩]⟩,
   ⟨0x068, 1, 4, [⟨0, 32, .ro, .hub, 0, 0, 0⟩]⟩,
   ⟨0x06C, 1, 4, [⟨0, 32, .ro, .hub, 0, 0, 0⟩]⟩,
   ⟨0x070, 1, 4, [⟨0, 32, .ro, .hub, 0, 0, 0⟩]⟩,
   ⟨0x074, 1, 4, [⟨0, 24, .ro, .hub, 0, 0, 0⟩]⟩]

/-- Table 10.7. -/
def page290 : List RegSpec :=
  [⟨0x040, 8, 4, [⟨0, 32, .wo, .hub, 0, 0, 0⟩]⟩,
   ⟨0x060, 1, 4, [⟨0, 11, .rw, .hub, 0, 0, 0⟩,
      ⟨11, 2, .rw, .hub, 0, 0, 0⟩,
      ⟨16, 1, .wo, .hub, 0, 0, 0⟩,
      ⟨17, 1, .wo, .hub, 0, 0, 0⟩,
      ⟨18, 1, .wo, .hub, 0, 0, 0⟩,
      ⟨19, 1, .wo, .hub, 0, 0, 0⟩]⟩,
   ⟨0x064, 1, 4, [⟨0, 11, .rw, .hub, 0, 0, 0⟩]⟩,
   ⟨0x068, 1, 4, [⟨0, 2, .ro, .hub, 0, 0, 0⟩,
      ⟨2, 2, .ro, .hub, 0, 0, 0⟩,
      ⟨4, 1, .ro, .hub, 0, 0, 0⟩,
      ⟨8, 24, .ro, .hub, 0, 0, 0⟩]⟩,
   ⟨0x06C, 1, 4, [⟨0, 32, .ro, .hub, 0, 0, 0⟩]⟩,
   ⟨0x070, 1, 4, [⟨0, 32, .ro, .hub, 0, 0, 0⟩]⟩,
   ⟨0x074, 1, 4, [⟨0, 16, .ro, .hub, 0, 0, 0⟩]⟩,
   ⟨0x078, 1, 4, [⟨0, 12, .ro, .hub, 2048, 0, 0⟩,
      ⟨16, 12, .ro, .hub, 0, 0, 0⟩]⟩]

/-- Table 10.8. -/
def page291 : List RegSpec :=
  [⟨0x040, 1, 4, [⟨0, 1, .rw, .hub, 0, 0, 0⟩]⟩,
   ⟨0x044, 1, 4, [⟨0, 9, .rw, .hub, 0, 0, 0⟩,
      ⟨31, 1, .rw, .hub, 0, 0, 0⟩]⟩,
   ⟨0x048, 1, 4, [⟨0, 1, .wo, .hub, 0, 0, 0⟩,
      ⟨1, 1, .wo, .hub, 0, 0, 0⟩]⟩,
   ⟨0x050, 12, 4, [⟨0, 32, .rw, .hub, 0, 0, 0⟩]⟩,
   ⟨0x080, 1, 4, [⟨0, 9, .rw, .hub, 0, 0, 0⟩,
      ⟨9, 1, .wo, .hub, 0, 0, 0⟩]⟩,
   ⟨0x0C0, 16, 4, [⟨0, 32, .ro, .hub, 0, 0, 0⟩]⟩]

/-- Table 10.11. -/
def page292 : List RegSpec :=
  [⟨0x040, 1, 4, [⟨0, 1, .rw, .hub, 0, 0, 0⟩]⟩,
   ⟨0x044, 1, 4, [⟨0, 32, .rw, .hub, 0, 0, 0⟩]⟩,
   ⟨0x048, 1, 4, [⟨0, 13, .rw, .hub, 16, 0, 0⟩]⟩,
   ⟨0x04C, 1, 4, [⟨0, 12, .rw, .hub, 0, 0, 0⟩]⟩,
   ⟨0x050, 1, 4, [⟨0, 12, .ro, .hub, 0, 0, 0⟩]⟩,
   ⟨0x054, 1, 4, [⟨0, 32, .ro, .hub, 0, 0, 0⟩]⟩,
   ⟨0x058, 1, 4, [⟨0, 32, .ro, .hub, 0, 0, 0⟩]⟩]

/-- Table 10.11. -/
def page293 : List RegSpec :=
  [⟨0x040, 1, 4, [⟨0, 1, .rwa, .courseFrame, 0, 0, 0⟩,
      ⟨1, 1, .rwa, .item, 1, 0, 0⟩,
      ⟨2, 1, .rwa, .item, 1, 0, 0⟩]⟩,
   ⟨0x044, 1, 4, [⟨0, 32, .ro, .hub, 0, 0, 0⟩]⟩,
   ⟨0x048, 1, 4, [⟨0, 32, .ro, .hub, 0, 0, 0⟩]⟩,
   ⟨0x04C, 1, 4, [⟨0, 32, .ro, .hub, 0, 0, 0⟩]⟩]

/-- Table 11.11. -/
def page0A0 : List RegSpec :=
  [⟨0x040, 1, 4, [⟨0, 1, .rw, .hub, 1, 0, 0⟩,
      ⟨1, 1, .rw, .hub, 1, 0, 0⟩]⟩,
   ⟨0x044, 1, 4, [⟨0, 5, .rwa, .hub, 5, 0, 0⟩,
      ⟨5, 1, .rwa, .hub, 0, 0, 0⟩,
      ⟨16, 11, .rwa, .hub, 0, 0, 0⟩]⟩,
   ⟨0x048, 1, 4, [⟨0, 8, .rwa, .hub, 100, 0, 0⟩,
      ⟨8, 8, .rwa, .hub, 60, 0, 0⟩]⟩,
   ⟨0x04C, 1, 4, [⟨0, 14, .rwa, .hub, 1000, 0, 0⟩]⟩,
   ⟨0x050, 1, 4, [⟨0, 12, .rw, .hub, 10, 0, 0⟩]⟩,
   ⟨0x054, 1, 4, [⟨0, 16, .rw, .hub, 10, 0, 0⟩]⟩,
   ⟨0x058, 4, 4, [⟨0, 32, .rwa, .hub, 0, 0, 0⟩]⟩,
   ⟨0x068, 1, 4, [⟨0, 8, .ro, .hub, 0, 0, 0⟩,
      ⟨8, 8, .ro, .hub, 0, 0, 0⟩]⟩]

/-- Table 11.12. -/
def page0A1 : List RegSpec :=
  [⟨0x040, 1, 4, [⟨0, 2, .rw, .hub, 0, 0, 0⟩]⟩,
   ⟨0x044, 1, 4, [⟨0, 7, .rw, .hub, 0, 0, 0⟩,
      ⟨31, 1, .rw, .hub, 0, 0, 0⟩]⟩,
   ⟨0x048, 1, 4, [⟨0, 1, .wo, .hub, 0, 0, 0⟩,
      ⟨1, 1, .wo, .hub, 0, 0, 0⟩]⟩,
   ⟨0x050, 12, 4, [⟨0, 32, .rw, .hub, 0, 0, 0⟩]⟩]

/-- Table 11.15. -/
def page0A2 : List RegSpec :=
  [⟨0x040, 1, 4, [⟨0, 1, .wo, .hub, 0, 0, 0⟩,
      ⟨1, 1, .wo, .hub, 0, 0, 0⟩]⟩,
   ⟨0x044, 1, 4, [⟨0, 32, .ro, .hub, 0, 0, 0⟩]⟩,
   ⟨0x048, 1, 4, [⟨0, 32, .ro, .hub, 0, 0, 0⟩]⟩,
   ⟨0x04C, 1, 4, [⟨0, 32, .ro, .hub, 0, 0, 0⟩]⟩,
   ⟨0x050, 1, 4, [⟨0, 32, .ro, .hub, 0, 0, 0⟩]⟩,
   ⟨0x054, 1, 4, [⟨0, 32, .ro, .hub, 0, 0, 0⟩]⟩,
   ⟨0x058, 1, 4, [⟨0, 32, .ro, .hub, 0, 0, 0⟩]⟩,
   ⟨0x05C, 1, 4, [⟨0, 32, .ro, .hub, 0, 0, 0⟩]⟩,
   ⟨0x060, 1, 4, [⟨0, 32, .ro, .hub, 0, 0, 0⟩]⟩,
   ⟨0x064, 1, 4, [⟨0, 32, .ro, .hub, 0, 0, 0⟩]⟩,
   ⟨0x068, 1, 4, [⟨0, 32, .ro, .hub, 0, 0, 0⟩]⟩,
   ⟨0x06C, 1, 4, [⟨0, 32, .ro, .hub, 0, 0, 0⟩]⟩,
   ⟨0x070, 1, 4, [⟨0, 32, .ro, .hub, 0, 0, 0⟩]⟩,
   ⟨0x074, 1, 4, [⟨0, 32, .ro, .hub, 0, 0, 0⟩]⟩,
   ⟨0x078, 1, 4, [⟨0, 32, .ro, .hub, 0, 0, 0⟩]⟩,
   ⟨0x07C, 1, 4, [⟨0, 32, .ro, .hub, 0, 0, 0⟩]⟩] ++
  [⟨0x080, 1, 4, [⟨0, 32, .ro, .hub, 0, 0, 0⟩]⟩,
   ⟨0x084, 1, 4, [⟨0, 32, .ro, .hub, 0, 0, 0⟩]⟩,
   ⟨0x088, 1, 4, [⟨0, 32, .ro, .hub, 0, 0, 0⟩]⟩,
   ⟨0x08C, 1, 4, [⟨0, 32, .ro, .hub, 0, 0, 0⟩]⟩]

/-- Table 11.16. -/
def pages0A8 : List RegSpec :=
  [⟨0x040, 1, 4, [⟨0, 7, .rwa, .hub, 4, 13, 0⟩,
      ⟨8, 6, .rwa, .hub, 0, 1, 0⟩,
      ⟨16, 6, .rwa, .hub, 15, 0, 0⟩]⟩,
   ⟨0x044, 1, 4, [⟨0, 13, .rwa, .hub, 512, 0, 0⟩]⟩,
   ⟨0x048, 1, 4, [⟨0, 12, .rw, .hub, 0, 0, 0⟩,
      ⟨12, 1, .rw, .hub, 0, 0, 0⟩,
      ⟨13, 1, .rw, .hub, 0, 0, 0⟩,
      ⟨14, 1, .wo, .hub, 0, 0, 0⟩]⟩,
   ⟨0x04C, 1, 4, [⟨0, 1, .ro, .hub, 0, 0, 0⟩,
      ⟨1, 3, .ro, .hub, 0, 0, 0⟩,
      ⟨4, 4, .ro, .hub, 0, 0, 0⟩,
      ⟨8, 16, .ro, .hub, 0, 0, 0⟩]⟩,
   ⟨0x800, 512, 4, [⟨0, 32, .rw, .hub, 0, 0, 0⟩]⟩]

/-- Table 12.9. -/
def page090 : List RegSpec :=
  [⟨0x040, 1, 4, [⟨0, 5, .rwa, .ms, 0, 0, 0⟩,
      ⟨5, 1, .rwa, .ms, 0, 0, 0⟩,
      ⟨6, 1, .rwa, .ms, 1, 0, 0⟩,
      ⟨7, 1, .rwa, .ms, 0, 0, 0⟩,
      ⟨8, 3, .rwa, .ms, 2, 0, 0⟩,
      ⟨11, 1, .rwa, .ms, 1, 0, 0⟩]⟩,
   ⟨0x044, 1, 4, [⟨0, 3, .ro, .hub, 7, 0, 0⟩,
      ⟨3, 1, .ro, .hub, 0, 0, 0⟩,
      ⟨4, 5, .ro, .hub, 31, 0, 0⟩,
      ⟨12, 4, .ro, .hub, 15, 0, 0⟩]⟩,
   ⟨0x048, 1, 4, [⟨0, 32, .ro, .hub, 0, 0, 0⟩]⟩,
   ⟨0x04C, 1, 4, [⟨0, 32, .ro, .hub, 0, 0, 0⟩]⟩,
   ⟨0x050, 1, 4, [⟨0, 8, .rwa, .ms, 4, 0, 0⟩,
      ⟨8, 16, .rwa, .ms, 100, 0, 0⟩]⟩,
   ⟨0x054, 1, 4, [⟨0, 12, .rwa, .ms, 300, 0, 0⟩,
      ⟨12, 8, .rwa, .ms, 2, 0, 0⟩,
      ⟨20, 4, .rwa, .ms, 7, 0, 0⟩]⟩,
   ⟨0x058, 1, 4, [⟨0, 17, .rwa, .ms, 86400, 0, 0⟩]⟩,
   ⟨0x05C, 1, 4, [⟨0, 17, .ro, .hub, 0, 0, 0⟩,
      ⟨17, 1, .ro, .hub, 0, 0, 0⟩]⟩,
   ⟨0x060, 1, 4, [⟨0, 24, .ro, .hub, 0, 0, 0⟩,
      ⟨24, 1, .ro, .hub, 0, 0, 0⟩]⟩,
   ⟨0x064, 1, 4, [⟨0, 8, .rwa, .ms, 10, 0, 0⟩,
      ⟨8, 8, .rwa, .ms, 50, 0, 0⟩,
      ⟨16, 8, .rwa, .ms, 20, 0, 0⟩]⟩,
   ⟨0x068, 1, 4, [⟨0, 14, .rwa, .ms, 50, 0, 0⟩]⟩,
   ⟨0x06C, 1, 4, [⟨0, 17, .w1c, .hub, 0, 0, 0⟩]⟩,
   ⟨0x070, 1, 4, [⟨0, 5, .rw, .hub, 0, 0, 0⟩,
      ⟨5, 1, .wo, .hub, 0, 0, 0⟩,
      ⟨6, 1, .wo, .hub, 0, 0, 0⟩]⟩]

/-- Table 12.10. -/
def page091 : List RegSpec :=
  [⟨0x040, 1, 4, [⟨0, 2, .rw, .hub, 0, 0, 0⟩]⟩,
   ⟨0x044, 1, 4, [⟨0, 9, .rw, .hub, 0, 0, 0⟩,
      ⟨31, 1, .rw, .hub, 0, 0, 0⟩]⟩,
   ⟨0x048, 1, 4, [⟨0, 1, .wo, .hub, 0, 0, 0⟩,
      ⟨1, 1, .wo, .hub, 0, 0, 0⟩]⟩,
   ⟨0x050, 8, 4, [⟨0, 32, .rw, .hub, 0, 0, 0⟩]⟩]

/-- Table 12.12. -/
def page092 : List RegSpec :=
  [⟨0x040, 1, 4, [⟨0, 3, .rwa, .ms, 0, 0, 0⟩,
      ⟨3, 2, .rwa, .ms, 0, 0, 0⟩]⟩,
   ⟨0x044, 1, 4, [⟨0, 20, .rwa, .ms, 1000, 0, 0⟩]⟩,
   ⟨0x048, 1, 4, [⟨0, 1, .wo, .hub, 0, 0, 0⟩,
      ⟨1, 1, .wo, .hub, 0, 0, 0⟩,
      ⟨2, 1, .wo, .hub, 0, 0, 0⟩,
      ⟨3, 1, .wo, .hub, 0, 0, 0⟩,
      ⟨4, 1, .wo, .hub, 0, 0, 0⟩,
      ⟨5, 1, .wo, .hub, 0, 0, 0⟩,
      ⟨6, 1, .wo, .hub, 0, 0, 0⟩]⟩,
   ⟨0x04C, 1, 4, [⟨0, 30, .ro, .hub, 0, 0, 0⟩]⟩,
   ⟨0x050, 1, 4, [⟨0, 16, .ro, .hub, 0, 0, 0⟩]⟩,
   ⟨0x054, 1, 4, [⟨0, 32, .ro, .hub, 0, 0, 0⟩]⟩,
   ⟨0x058, 1, 4, [⟨0, 16, .ro, .hub, 0, 0, 0⟩]⟩,
   ⟨0x05C, 1, 4, [⟨0, 30, .rw, .hub, 0, 0, 0⟩]⟩,
   ⟨0x060, 1, 4, [⟨0, 32, .rw, .hub, 0, 0, 0⟩]⟩,
   ⟨0x064, 1, 4, [⟨0, 16, .rw, .hub, 0, 0, 0⟩]⟩,
   ⟨0x068, 1, 4, [⟨0, 32, .rw, .hub, 0, 0, 0⟩]⟩,
   ⟨0x06C, 1, 4, [⟨0, 32, .ro, .hub, 0, 0, 0⟩]⟩,
   ⟨0x070, 1, 4, [⟨0, 32, .ro, .hub, 0, 0, 0⟩]⟩,
   ⟨0x074, 1, 4, [⟨0, 32, .ro, .hub, 0, 0, 0⟩]⟩,
   ⟨0x078, 1, 4, [⟨0, 32, .ro, .hub, 0, 0, 0⟩]⟩,
   ⟨0x07C, 1, 4, [⟨0, 20, .rw, .hub, 10000, 0, 0⟩]⟩]

/-- Table 12.13. -/
def page093 : List RegSpec :=
  [⟨0x040, 1, 4, [⟨0, 2, .rw, .hub, 0, 0, 0⟩,
      ⟨2, 3, .rw, .hub, 0, 0, 0⟩,
      ⟨5, 3, .rw, .hub, 0, 0, 0⟩,
      ⟨8, 2, .rw, .hub, 0, 0, 0⟩,
      ⟨10, 1, .wo, .hub, 0, 0, 0⟩,
      ⟨11, 1, .ro, .hub, 0, 0, 0⟩,
      ⟨12, 1, .ro, .hub, 0, 0, 0⟩,
      ⟨13, 1, .ro, .hub, 0, 0, 0⟩]⟩,
   ⟨0x044, 1, 4, [⟨0, 32, .rw, .hub, 0, 0, 0⟩]⟩,
   ⟨0x048, 1, 4, [⟨0, 32, .rw, .hub, 0, 0, 0⟩]⟩,
   ⟨0x04C, 1, 4, [⟨0, 32, .ro, .hub, 0, 0, 0⟩]⟩,
   ⟨0x050, 8, 8, [⟨0, 32, .ro, .hub, 0, 0, 0⟩]⟩,
   ⟨0x054, 8, 8, [⟨0, 32, .ro, .hub, 0, 0, 0⟩]⟩,
   ⟨0x090, 1, 4, [⟨0, 16, .ro, .hub, 280, 0, 0⟩]⟩]

/-- Table 12.13. -/
def page094 : List RegSpec :=
  [⟨0x040, 1, 4, [⟨0, 1, .rwa, .ms, 0, 0, 0⟩,
      ⟨1, 1, .rwa, .ms, 1, 0, 0⟩,
      ⟨2, 8, .rwa, .ms, 24, 0, 0⟩,
      ⟨10, 5, .rwa, .ms, 4, 0, 0⟩,
      ⟨15, 6, .rwa, .ms, 0, 0, 0⟩]⟩,
   ⟨0x044, 1, 4, [⟨0, 3, .ro, .hub, 0, 0, 0⟩]⟩,
   ⟨0x048, 1, 4, [⟨0, 32, .ro, .hub, 0, 0, 0⟩]⟩,
   ⟨0x04C, 1, 4, [⟨0, 32, .ro, .hub, 0, 0, 0⟩]⟩]

/-- Table 13.9. -/
def page0B0 : List RegSpec :=
  [⟨0x040, 1, 4, [⟨0, 9, .rwa, .hub, 80, 0, 0⟩,
      ⟨9, 1, .rwa, .hub, 1, 0, 0⟩]⟩,
   ⟨0x044, 1, 4, [⟨0, 12, .rwa, .hub, 3600, 0, 0⟩,
      ⟨12, 1, .wo, .hub, 0, 0, 0⟩]⟩,
   ⟨0x048, 1, 4, [⟨0, 1, .ro, .hub, 0, 0, 0⟩,
      ⟨1, 1, .ro, .hub, 0, 0, 0⟩,
      ⟨8, 8, .ro, .hub, 0, 0, 0⟩]⟩,
   ⟨0x04C, 1, 4, [⟨0, 32, .ro, .hub, 0, 0, 0⟩]⟩,
   ⟨0x050, 1, 4, [⟨0, 32, .ro, .hub, 0, 0, 0⟩]⟩,
   ⟨0x054, 1, 4, [⟨0, 32, .rw, .hub, 0, 0, 0⟩]⟩]

/-- Table 13.10. -/
def page0B1 : List RegSpec :=
  [⟨0x040, 1, 4, [⟨0, 5, .rw, .hub, 0, 0, 0⟩]⟩,
   ⟨0x044, 1, 4, [⟨0, 1, .wo, .hub, 0, 0, 0⟩]⟩,
   ⟨0x050, 8, 4, [⟨0, 32, .ro, .hub, 0, 0, 0⟩]⟩]

/-- Table 13.12. -/
def page0B2 : List RegSpec :=
  [⟨0x040, 8, 4, [⟨0, 1, .rwa, .hub, 0, 0, 0⟩,
      ⟨1, 1, .wo, .hub, 0, 0, 0⟩,
      ⟨2, 1, .rwa, .hub, 1, 0, 0⟩]⟩,
   ⟨0x060, 8, 4, [⟨0, 1, .ro, .hub, 0, 0, 0⟩,
      ⟨1, 1, .ro, .hub, 0, 0, 0⟩,
      ⟨2, 1, .ro, .hub, 0, 0, 0⟩,
      ⟨3, 1, .ro, .hub, 0, 0, 0⟩,
      ⟨4, 1, .ro, .hub, 0, 0, 0⟩,
      ⟨5, 1, .ro, .hub, 0, 0, 0⟩,
      ⟨8, 4, .ro, .hub, 0, 0, 0⟩]⟩,
   ⟨0x080, 1, 4, [⟨0, 3, .rw, .hub, 0, 0, 0⟩,
      ⟨3, 1, .rw, .hub, 0, 0, 0⟩,
      ⟨4, 1, .wo, .hub, 0, 0, 0⟩,
      ⟨5, 1, .wo, .hub, 0, 0, 0⟩,
      ⟨6, 2, .ro, .hub, 0, 0, 0⟩,
      ⟨8, 1, .ro, .hub, 0, 0, 0⟩,
      ⟨9, 1, .ro, .hub, 0, 0, 0⟩,
      ⟨10, 1, .ro, .hub, 0, 0, 0⟩,
      ⟨11, 4, .ro, .hub, 0, 0, 0⟩]⟩,
   ⟨0x084, 4, 4, [⟨0, 32, .rw, .hub, 0, 0, 0⟩]⟩]

/-- Table 13.13. -/
def page0B8 : List RegSpec :=
  [⟨0x040, 1, 4, [⟨0, 1, .rw, .hub, 1, 0, 0⟩,
      ⟨1, 3, .rwa, .hub, 4, 0, 0⟩,
      ⟨4, 1, .rwa, .hub, 0, 0, 0⟩,
      ⟨5, 1, .wo, .hub, 0, 0, 0⟩,
      ⟨6, 1, .wo, .hub, 0, 0, 0⟩,
      ⟨7, 1, .wo, .hub, 0, 0, 0⟩]⟩,
   ⟨0x044, 1, 4, [⟨0, 31, .rwa, .hub, 16383, 0, 0⟩,
      ⟨31, 1, .ro, .hub, 1, 0, 0⟩]⟩,
   ⟨0x048, 1, 4, [⟨0, 31, .rwa, .hub, 262143, 0, 0⟩,
      ⟨31, 1, .ro, .hub, 1, 0, 0⟩]⟩,
   ⟨0x04C, 1, 4, [⟨0, 8, .rwa, .hub, 32, 0, 0⟩,
      ⟨8, 16, .rwa, .hub, 200, 0, 0⟩]⟩,
   ⟨0x050, 1, 4, [⟨0, 1, .ro, .hub, 0, 0, 0⟩,
      ⟨1, 1, .ro, .hub, 0, 0, 0⟩,
      ⟨2, 1, .ro, .hub, 0, 0, 0⟩,
      ⟨3, 1, .ro, .hub, 0, 0, 0⟩,
      ⟨4, 1, .ro, .hub, 0, 0, 0⟩,
      ⟨5, 1, .ro, .hub, 0, 0, 0⟩,
      ⟨6, 1, .ro, .hub, 0, 0, 0⟩,
      ⟨16, 16, .ro, .hub, 0, 0, 0⟩]⟩,
   ⟨0x054, 1, 4, [⟨0, 13, .ro, .hub, 0, 0, 0⟩]⟩,
   ⟨0x058, 1, 4, [⟨0, 31, .ro, .hub, 0, 0, 0⟩]⟩,
   ⟨0x05C, 1, 4, [⟨0, 32, .rw, .hub, 0, 0, 0⟩]⟩,
   ⟨0x060, 1, 4, [⟨0, 24, .rw, .hub, 1500000, 0, 0⟩]⟩,
   ⟨0x064, 1, 4, [⟨0, 32, .ro, .hub, 0, 0, 0⟩]⟩]

/-- Table 13.14. -/
def page0B9 : List RegSpec :=
  [⟨0x040, 32, 4, [⟨0, 16, .ro, .hub, 0, 0, 0⟩,
      ⟨16, 1, .ro, .hub, 0, 0, 0⟩,
      ⟨17, 1, .ro, .hub, 0, 0, 0⟩]⟩,
   ⟨0x0C0, 32, 4, [⟨0, 16, .ro, .hub, 0, 0, 0⟩,
      ⟨16, 1, .ro, .hub, 0, 0, 0⟩,
      ⟨17, 1, .ro, .hub, 0, 0, 0⟩]⟩]

/-- Table 14.6. -/
def page380 : List RegSpec :=
  [⟨0x040, 1, 4, [⟨0, 6, .ro, .hub, 0, 0, 0⟩,
      ⟨6, 1, .ro, .hub, 0, 0, 0⟩,
      ⟨7, 1, .ro, .hub, 0, 0, 0⟩,
      ⟨8, 7, .ro, .hub, 0, 0, 0⟩,
      ⟨15, 1, .ro, .hub, 0, 0, 0⟩]⟩,
   ⟨0x044, 1, 4, [⟨0, 1, .wo, .hub, 0, 0, 0⟩,
      ⟨16, 16, .rw, .hub, 200, 0, 0⟩]⟩,
   ⟨0x048, 1, 4, [⟨0, 32, .ro, .hub, 0, 0, 0⟩]⟩,
   ⟨0x04C, 1, 4, [⟨0, 2, .rw, .hub, 0, 0, 0⟩]⟩,
   ⟨0x050, 1, 4, [⟨0, 9, .rw, .hub, 0, 0, 0⟩,
      ⟨31, 1, .rw, .hub, 0, 0, 0⟩]⟩,
   ⟨0x054, 1, 4, [⟨0, 1, .wo, .hub, 0, 0, 0⟩,
      ⟨1, 1, .wo, .hub, 0, 0, 0⟩]⟩,
   ⟨0x058, 1, 4, [⟨0, 32, .rw, .hub, 0, 0, 0⟩]⟩]

/-- Table 14.8. -/
def pages381 : List RegSpec :=
  [⟨0x040, 1, 4, [⟨0, 1, .ro, .hub, 0, 0, 0⟩,
      ⟨1, 1, .ro, .hub, 0, 0, 0⟩,
      ⟨2, 6, .ro, .hub, 0, 0, 0⟩,
      ⟨8, 1, .ro, .hub, 0, 0, 0⟩]⟩,
   ⟨0x044, 1, 4, [⟨0, 32, .rw, .hub, 0, 0, 0⟩]⟩,
   ⟨0x048, 1, 4, [⟨0, 32, .ro, .hub, 0, 0, 0⟩]⟩,
   ⟨0x04C, 1, 4, [⟨0, 16, .rw, .hub, 16, 0, 0⟩]⟩]

/-- Table 14.9. -/
def laneBlock : List RegSpec :=
  [⟨0x000, 1, 4, [⟨0, 1, .rw, .hub, 0, 0, 0⟩,
      ⟨1, 2, .rw, .hub, 0, 0, 0⟩]⟩,
   ⟨0x004, 1, 4, [⟨0, 5, .rw, .hub, 0, 0, 0⟩,
      ⟨8, 5, .rw, .hub, -4, 0, 0⟩,
      ⟨16, 6, .rw, .hub, 52, 0, 0⟩,
      ⟨24, 5, .rw, .hub, -6, 0, 0⟩]⟩,
   ⟨0x008, 1, 4, [⟨0, 1, .ro, .hub, 1, 0, 0⟩,
      ⟨1, 1, .ro, .hub, 1, 0, 0⟩,
      ⟨2, 1, .ro, .hub, 0, 0, 0⟩,
      ⟨3, 1, .ro, .hub, 0, 0, 0⟩,
      ⟨4, 1, .ro, .hub, 0, 0, 0⟩,
      ⟨5, 1, .ro, .hub, 0, 0, 0⟩,
      ⟨6, 1, .ro, .hub, 0, 0, 0⟩]⟩,
   ⟨0x00C, 1, 4, [⟨0, 8, .rw, .hub, 60, 0, 0⟩,
      ⟨8, 8, .rw, .hub, 10, 0, 0⟩]⟩,
   ⟨0x010, 1, 4, [⟨0, 16, .ro, .hub, 0, 0, 0⟩,
      ⟨16, 16, .ro, .hub, 0, 0, 0⟩]⟩,
   ⟨0x014, 1, 4, [⟨0, 32, .ro, .hub, 0, 0, 0⟩]⟩,
   ⟨0x018, 1, 4, [⟨0, 16, .ro, .hub, 0, 0, 0⟩]⟩,
   ⟨0x01C, 1, 4, [⟨0, 32, .ro, .hub, 0, 0, 0⟩]⟩,
   ⟨0x020, 1, 4, [⟨0, 32, .ro, .hub, 0, 0, 0⟩]⟩,
   ⟨0x024, 1, 4, [⟨0, 32, .ro, .hub, 0, 0, 0⟩]⟩,
   ⟨0x028, 1, 4, [⟨0, 32, .ro, .hub, 0, 0, 0⟩]⟩]

/-- Table 14.10. -/
def knaefBlock : List RegSpec :=
  [⟨0x000, 1, 4, [⟨0, 3, .rw, .hub, 0, 0, 0⟩,
      ⟨3, 1, .rw, .hub, 0, 0, 0⟩,
      ⟨4, 3, .rw, .hub, 0, 0, 0⟩,
      ⟨7, 1, .rw, .hub, 0, 0, 0⟩,
      ⟨8, 1, .rw, .hub, 0, 0, 0⟩,
      ⟨9, 1, .wo, .hub, 0, 0, 0⟩,
      ⟨10, 1, .wo, .hub, 0, 0, 0⟩,
      ⟨11, 3, .rw, .hub, 0, 0, 0⟩]⟩,
   ⟨0x004, 1, 4, [⟨0, 1, .ro, .hub, 0, 0, 0⟩,
      ⟨1, 1, .w1c, .hub, 0, 0, 0⟩]⟩,
   ⟨0x008, 1, 4, [⟨0, 32, .ro, .hub, 0, 0, 0⟩]⟩,
   ⟨0x00C, 1, 4, [⟨0, 32, .ro, .hub, 0, 0, 0⟩]⟩,
   ⟨0x010, 1, 4, [⟨0, 32, .ro, .hub, 0, 0, 0⟩]⟩,
   ⟨0x014, 1, 4, [⟨0, 32, .rw, .hub, 0, 0, 0⟩]⟩,
   ⟨0x018, 1, 4, [⟨0, 32, .rw, .hub, 0, 0, 0⟩]⟩]

/-- Table 15.7. -/
def page040 : List RegSpec :=
  [⟨0x040, 1, 4, [⟨0, 1, .ro, .hub, 0, 0, 0⟩,
      ⟨1, 3, .ro, .hub, 0, 0, 0⟩,
      ⟨4, 3, .ro, .hub, 0, 0, 0⟩]⟩,
   ⟨0x044, 1, 4, [⟨0, 16, .ro, .hub, 0, 0, 0⟩,
      ⟨16, 16, .ro, .hub, 0, 0, 0⟩]⟩,
   ⟨0x048, 1, 4, [⟨0, 16, .ro, .hub, 0, 0, 0⟩,
      ⟨16, 16, .ro, .hub, 0, 0, 0⟩]⟩]

/-- Table 15.8. -/
def page041 : List RegSpec :=
  [⟨0x040, 1, 4, [⟨0, 21, .rw, .hub, 0, 0, 0⟩]⟩,
   ⟨0x044, 1, 4, [⟨0, 21, .ro, .hub, 0, 0, 0⟩]⟩,
   ⟨0x048, 1, 4, [⟨0, 1, .wo, .hub, 0, 0, 0⟩,
      ⟨1, 2, .ro, .hub, 0, 0, 0⟩]⟩]

/-- Table 15.9. -/
def page042 : List RegSpec :=
  [⟨0x040, 32, 4, [⟨0, 1, .rwa, .item, 1, 0, 0⟩,
      ⟨1, 1, .rwa, .item, 0, 0, 0⟩,
      ⟨2, 1, .rwa, .item, 0, 0, 0⟩,
      ⟨3, 3, .rwa, .item, 3, 0, 0⟩,
      ⟨6, 1, .rwa, .item, 0, 0, 0⟩,
      ⟨7, 2, .rwa, .item, 0, 0, 0⟩,
      ⟨12, 20, .rwa, .item, 8192, 0, 0⟩]⟩,
   ⟨0x0C0, 32, 8, [⟨0, 20, .rwa, .item, 6144, 0, 0⟩]⟩,
   ⟨0x0C4, 32, 8, [⟨0, 20, .rwa, .item, 4096, 0, 0⟩]⟩,
   ⟨0x1C0, 32, 8, [⟨0, 32, .rwa, .item, 16777216, 0, 1048576⟩]⟩,
   ⟨0x1C4, 32, 8, [⟨0, 12, .rwa, .item, 63, 0, 0⟩,
      ⟨12, 3, .rwa, .item, 5, 0, 0⟩]⟩]

/-- Table 15.10. -/
def page043 : List RegSpec :=
  [⟨0x040, 32, 4, [⟨0, 32, .ro, .hub, 0, 0, 0⟩]⟩,
   ⟨0x0C0, 32, 4, [⟨0, 1, .wo, .hub, 0, 0, 0⟩,
      ⟨1, 1, .wo, .hub, 0, 0, 0⟩,
      ⟨2, 1, .wo, .hub, 0, 0, 0⟩,
      ⟨16, 16, .wo, .hub, 0, 0, 0⟩]⟩,
   ⟨0x140, 32, 4, [⟨0, 1, .ro, .hub, 0, 0, 0⟩,
      ⟨1, 1, .ro, .hub, 0, 0, 0⟩,
      ⟨2, 1, .ro, .hub, 0, 0, 0⟩,
      ⟨4, 12, .ro, .hub, 0, 0, 0⟩,
      ⟨16, 16, .ro, .hub, 0, 0, 0⟩]⟩,
   ⟨0x1C0, 32, 4, [⟨0, 20, .ro, .hub, 0, 0, 0⟩,
      ⟨20, 12, .ro, .hub, 0, 0, 0⟩]⟩,
   ⟨0x240, 32, 4, [⟨0, 32, .ro, .hub, 0, 0, 0⟩]⟩,
   ⟨0x2C0, 1, 4, [⟨0, 10, .rw, .hub, 40, 0, 0⟩]⟩,
   ⟨0x2C4, 1, 4, [⟨0, 5, .rw, .hub, 0, 0, 0⟩,
      ⟨5, 3, .rw, .hub, 0, 0, 0⟩,
      ⟨8, 1, .wo, .hub, 0, 0, 0⟩,
      ⟨16, 14, .rw, .hub, 0, 0, 0⟩]⟩,
   ⟨0x2C8, 1, 4, [⟨0, 32, .rw, .hub, 0, 0, 0⟩]⟩,
   ⟨0x2CC, 1, 4, [⟨0, 1, .ro, .hub, 0, 0, 0⟩,
      ⟨1, 3, .ro, .hub, 0, 0, 0⟩]⟩]

/-- Table 15.11. -/
def page001 : List RegSpec :=
  [⟨0x040, 1, 4, [⟨0, 1, .rw, .hub, 0, 0, 0⟩]⟩,
   ⟨0x044, 1, 4, [⟨0, 1, .ro, .hub, 0, 0, 0⟩,
      ⟨1, 1, .ro, .hub, 0, 0, 0⟩,
      ⟨2, 1, .ro, .hub, 0, 0, 0⟩,
      ⟨3, 1, .ro, .hub, 0, 0, 0⟩,
      ⟨4, 1, .ro, .hub, 0, 0, 0⟩,
      ⟨5, 1, .ro, .hub, 0, 0, 0⟩]⟩,
   ⟨0x048, 1, 4, [⟨0, 32, .ro, .hub, 0, 0, 0⟩]⟩,
   ⟨0x04C, 1, 4, [⟨0, 32, .ro, .hub, 0, 0, 0⟩]⟩,
   ⟨0x050, 1, 4, [⟨0, 32, .ro, .hub, 0, 0, 0⟩]⟩,
   ⟨0x054, 1, 4, [⟨0, 32, .ro, .hub, 0, 0, 0⟩]⟩,
   ⟨0x058, 16, 4, [⟨0, 32, .ro, .hub, 0, 0, 0⟩]⟩,
   ⟨0x098, 16, 4, [⟨0, 32, .rw, .hub, 0, 0, 0⟩]⟩,
   ⟨0x0D8, 1, 4, [⟨0, 31, .ro, .hub, 0, 0, 0⟩]⟩,
   ⟨0x0DC, 1, 4, [⟨0, 16, .ro, .hub, 0, 0, 0⟩]⟩,
   ⟨0x0E0, 1, 4, [⟨0, 1, .wo, .hub, 0, 0, 0⟩,
      ⟨8, 7, .ro, .hub, 0, 0, 0⟩]⟩,
   ⟨0x0E4, 16, 4, [⟨0, 32, .ro, .hub, 0, 0, 0⟩]⟩,
   ⟨0x124, 16, 4, [⟨0, 32, .rw, .hub, 0, 0, 0⟩]⟩,
   ⟨0x164, 1, 4, [⟨0, 30, .ro, .hub, 0, 0, 0⟩]⟩,
   ⟨0x168, 1, 4, [⟨0, 16, .ro, .hub, 0, 0, 0⟩]⟩,
   ⟨0x16C, 1, 4, [⟨0, 32, .ro, .hub, 0, 0, 0⟩]⟩] ++
  [⟨0x170, 1, 4, [⟨0, 16, .ro, .hub, 0, 0, 0⟩]⟩,
   ⟨0x180, 64, 4, [⟨0, 1, .ro, .hub, 0, 0, 0⟩,
      ⟨1, 1, .ro, .hub, 0, 0, 0⟩,
      ⟨2, 1, .ro, .hub, 0, 0, 0⟩,
      ⟨3, 1, .ro, .hub, 0, 0, 0⟩]⟩,
   ⟨0x280, 1, 4, [⟨0, 6, .rw, .hub, 0, 0, 0⟩]⟩,
   ⟨0x284, 16, 4, [⟨0, 32, .ro, .hub, 0, 0, 0⟩]⟩,
   ⟨0x2C4, 1, 4, [⟨0, 32, .ro, .hub, 0, 0, 0⟩]⟩,
   ⟨0x2C8, 1, 4, [⟨0, 32, .ro, .hub, 0, 0, 0⟩]⟩]

/-- Table 16.2. -/
def page020 : List RegSpec :=
  [⟨0x040, 1, 4, [⟨0, 32, .ro, .hub, 0, 0, 0⟩]⟩,
   ⟨0x044, 1, 4, [⟨0, 32, .ro, .hub, 0, 0, 0⟩]⟩,
   ⟨0x048, 1, 4, [⟨0, 4, .ro, .hub, 0, 0, 0⟩]⟩,
   ⟨0x04C, 1, 4, [⟨0, 5, .rw, .hub, 0, 0, 0⟩,
      ⟨5, 5, .rw, .hub, 0, 0, 0⟩,
      ⟨10, 1, .wo, .hub, 0, 0, 0⟩]⟩,
   ⟨0x050, 1, 4, [⟨0, 32, .ro, .hub, 0, 0, 0⟩]⟩,
   ⟨0x080, 32, 4, [⟨0, 14, .rw, .hub, 0, 0, 0⟩]⟩]

/-- Table 16.6. -/
def page030 : List RegSpec :=
  [⟨0x040, 1, 4, [⟨0, 1, .rw, .hub, 0, 0, 0⟩,
      ⟨1, 1, .wo, .hub, 0, 0, 0⟩]⟩,
   ⟨0x044, 1, 4, [⟨0, 1, .rw, .hub, 0, 0, 0⟩]⟩,
   ⟨0x048, 1, 4, [⟨0, 13, .rw, .hub, 0, 0, 0⟩,
      ⟨31, 1, .rw, .hub, 0, 0, 0⟩]⟩,
   ⟨0x04C, 1, 4, [⟨0, 1, .wo, .hub, 0, 0, 0⟩,
      ⟨1, 1, .wo, .hub, 0, 0, 0⟩]⟩,
   ⟨0x050, 4, 4, [⟨0, 32, .rw, .hub, 0, 0, 0⟩]⟩,
   ⟨0x060, 1, 4, [⟨0, 32, .ro, .hub, 0, 0, 0⟩]⟩]

/-- Table 16.8. -/
def page031 : List RegSpec :=
  [⟨0x040, 256, 4, [⟨0, 32, .w1c, .hub, 0, 0, 0⟩]⟩]

/-- Table 16.8. -/
def page032 : List RegSpec :=
  [⟨0x040, 8, 4, [⟨0, 32, .rw, .hub, 0, 0, 0⟩]⟩]

/-- Table 17.9. -/
def page002 : List RegSpec :=
  [⟨0x040, 1, 4, [⟨0, 1, .rw, .hub, 0, 0, 0⟩,
      ⟨1, 1, .rw, .hub, 0, 0, 0⟩]⟩,
   ⟨0x044, 1, 4, [⟨0, 3, .ro, .hub, 0, 0, 0⟩,
      ⟨3, 4, .ro, .hub, 0, 0, 0⟩,
      ⟨7, 3, .ro, .hub, 0, 0, 0⟩,
      ⟨10, 1, .ro, .hub, 0, 0, 0⟩,
      ⟨11, 1, .ro, .hub, 0, 0, 0⟩]⟩,
   ⟨0x048, 1, 4, [⟨0, 8, .rwa, .ms, 50, 0, 0⟩]⟩,
   ⟨0x04C, 1, 4, [⟨0, 17, .w1c, .hub, 0, 0, 0⟩]⟩,
   ⟨0x050, 1, 4, [⟨0, 16, .ro, .hub, 0, 0, 0⟩]⟩]

/-- Table 17.10. -/
def page004 : List RegSpec :=
  [⟨0x040, 1, 4, [⟨0, 1, .ro, .hub, 0, 0, 0⟩,
      ⟨1, 1, .ro, .hub, 0, 0, 0⟩,
      ⟨2, 4, .ro, .hub, 0, 0, 0⟩,
      ⟨6, 1, .ro, .hub, 0, 0, 0⟩,
      ⟨7, 1, .ro, .hub, 0, 0, 0⟩,
      ⟨8, 1, .ro, .hub, 0, 0, 0⟩]⟩,
   ⟨0x044, 1, 4, [⟨0, 32, .ro, .hub, 0, 0, 0⟩]⟩]

/-- Table 17.11. -/
def page010 : List RegSpec :=
  [⟨0x040, 1, 4, [⟨0, 10, .rwa, .ms, 200, 0, 0⟩,
      ⟨10, 10, .rwa, .ms, 220, 0, 0⟩,
      ⟨20, 10, .rwa, .ms, 240, 0, 0⟩]⟩,
   ⟨0x044, 1, 4, [⟨0, 10, .rwa, .ms, 190, 0, 0⟩,
      ⟨10, 10, .rwa, .ms, 210, 0, 0⟩]⟩,
   ⟨0x048, 1, 4, [⟨0, 10, .rwa, .ms, 100, 0, 0⟩,
      ⟨10, 13, .rwa, .ms, 1000, 0, 0⟩,
      ⟨23, 5, .rwa, .ms, 6, 0, 0⟩,
      ⟨31, 1, .wo, .hub, 0, 0, 0⟩]⟩,
   ⟨0x04C, 1, 4, [⟨0, 8, .rwa, .ms, 15, 0, 0⟩]⟩,
   ⟨0x050, 1, 4, [⟨0, 1, .ro, .hub, 0, 0, 0⟩,
      ⟨1, 1, .ro, .hub, 0, 0, 0⟩,
      ⟨2, 1, .ro, .hub, 0, 0, 0⟩,
      ⟨3, 4, .ro, .hub, 0, 0, 0⟩,
      ⟨7, 6, .ro, .hub, 0, 0, 0⟩,
      ⟨16, 16, .ro, .hub, 0, 0, 0⟩]⟩,
   ⟨0x054, 1, 4, [⟨0, 32, .ro, .hub, 0, 0, 0⟩]⟩,
   ⟨0x058, 1, 4, [⟨0, 4, .ro, .hub, 0, 0, 0⟩]⟩]

/-- Table 17.12. -/
def page011 : List RegSpec :=
  [⟨0x040, 36, 4, [⟨0, 16, .ro, .hub, 0, 0, 0⟩,
      ⟨16, 1, .ro, .hub, 0, 0, 0⟩,
      ⟨17, 2, .ro, .hub, 0, 0, 0⟩]⟩]

/-- Table 17.13. -/
def page018 : List RegSpec :=
  [⟨0x040, 1, 4, [⟨0, 1, .rwa, .ms, 1, 0, 0⟩,
      ⟨1, 1, .rwa, .ms, 0, 0, 0⟩,
      ⟨2, 1, .rwa, .ms, 0, 0, 0⟩,
      ⟨3, 1, .rwa, .ms, 0, 0, 0⟩]⟩,
   ⟨0x044, 1, 4, [⟨0, 24, .rw, .hub, 0, 0, 0⟩]⟩,
   ⟨0x048, 1, 4, [⟨0, 3, .ro, .hub, 0, 0, 0⟩,
      ⟨3, 5, .ro, .hub, 0, 0, 0⟩,
      ⟨8, 3, .ro, .hub, 0, 0, 0⟩]⟩,
   ⟨0x04C, 1, 4, [⟨0, 1, .ro, .hub, 0, 0, 0⟩,
      ⟨1, 1, .ro, .hub, 0, 0, 0⟩,
      ⟨16, 16, .ro, .hub, 0, 0, 0⟩]⟩]

/-- Table 18.6. -/
def page080 : List RegSpec :=
  [⟨0x040, 1, 4, [⟨0, 16, .rw, .hub, 1000, 0, 0⟩,
      ⟨16, 1, .rw, .hub, 0, 0, 0⟩]⟩,
   ⟨0x044, 1, 4, [⟨0, 32, .ro, .hub, 0, 0, 0⟩]⟩,
   ⟨0x048, 1, 4, [⟨0, 32, .ro, .hub, 0, 0, 0⟩]⟩,
   ⟨0x04C, 1, 4, [⟨0, 32, .ro, .hub, 0, 0, 0⟩]⟩,
   ⟨0x050, 1, 4, [⟨0, 32, .ro, .hub, 0, 0, 0⟩]⟩,
   ⟨0x054, 1, 4, [⟨0, 6, .ro, .hub, 0, 0, 0⟩]⟩,
   ⟨0x058, 1, 4, [⟨0, 6, .rw, .hub, 0, 0, 0⟩]⟩,
   ⟨0x05C, 4, 4, [⟨0, 32, .ro, .hub, 0, 0, 0⟩]⟩]

/-- Table 18.8. -/
def page081 : List RegSpec :=
  [⟨0x040, 1, 4, [⟨0, 1, .rw, .hub, 0, 0, 0⟩,
      ⟨1, 1, .wo, .hub, 0, 0, 0⟩,
      ⟨2, 1, .wo, .hub, 0, 0, 0⟩,
      ⟨3, 1, .ro, .hub, 0, 0, 0⟩,
      ⟨4, 1, .ro, .hub, 0, 0, 0⟩,
      ⟨8, 5, .rw, .hub, 20, 0, 0⟩]⟩,
   ⟨0x044, 1, 4, [⟨0, 31, .rw, .hub, 0, 0, 0⟩]⟩,
   ⟨0x048, 1, 4, [⟨0, 31, .rw, .hub, 0, 0, 0⟩]⟩,
   ⟨0x04C, 1, 4, [⟨0, 31, .ro, .hub, 0, 0, 0⟩]⟩,
   ⟨0x050, 1, 4, [⟨0, 32, .ro, .hub, 0, 0, 0⟩]⟩,
   ⟨0x054, 1, 4, [⟨0, 32, .ro, .hub, 0, 0, 0⟩]⟩,
   ⟨0x058, 1, 4, [⟨0, 32, .ro, .hub, 0, 0, 0⟩]⟩,
   ⟨0x05C, 1, 4, [⟨0, 32, .ro, .hub, 0, 0, 0⟩]⟩,
   ⟨0x060, 1, 4, [⟨0, 31, .ro, .hub, 0, 0, 0⟩]⟩]

/-- Table 18.9. -/
def page082 : List RegSpec :=
  [⟨0x040, 1, 4, [⟨0, 1, .rw, .hub, 0, 0, 0⟩,
      ⟨1, 1, .wo, .hub, 0, 0, 0⟩,
      ⟨2, 1, .wo, .hub, 0, 0, 0⟩]⟩,
   ⟨0x044, 1, 4, [⟨0, 13, .rw, .hub, 0, 0, 0⟩]⟩,
   ⟨0x048, 1, 4, [⟨0, 32, .rw, .hub, 0, 0, 0⟩]⟩,
   ⟨0x04C, 1, 4, [⟨0, 32, .rw, .hub, 0, 0, 0⟩]⟩,
   ⟨0x050, 1, 4, [⟨0, 8, .rw, .hub, 0, 0, 0⟩]⟩]

/-- Table 18.9. -/
def page083 : List RegSpec :=
  [⟨0x040, 1, 4, [⟨0, 1, .rw, .hub, 0, 0, 0⟩,
      ⟨1, 1, .wo, .hub, 0, 0, 0⟩]⟩,
   ⟨0x044, 1, 4, [⟨0, 9, .ro, .hub, 0, 0, 0⟩,
      ⟨16, 8, .ro, .hub, 0, 0, 0⟩,
      ⟨24, 8, .ro, .hub, 0, 0, 0⟩]⟩,
   ⟨0x048, 1, 4, [⟨0, 32, .ro, .hub, 0, 0, 0⟩]⟩,
   ⟨0x04C, 1, 4, [⟨0, 32, .ro, .hub, 0, 0, 0⟩]⟩,
   ⟨0x050, 1, 4, [⟨0, 16, .ro, .hub, 0, 0, 0⟩]⟩]

/-- Table 18.10. -/
def page070 : List RegSpec :=
  [⟨0x040, 1, 4, [⟨0, 1, .wo, .hub, 0, 0, 0⟩,
      ⟨1, 1, .wo, .hub, 0, 0, 0⟩]⟩,
   ⟨0x044, 1, 4, [⟨0, 1, .ro, .hub, 0, 0, 0⟩,
      ⟨1, 2, .ro, .hub, 0, 0, 0⟩,
      ⟨3, 1, .ro, .hub, 0, 0, 0⟩]⟩,
   ⟨0x048, 3, 4, [⟨0, 32, .rw, .hub, 0, 0, 0⟩]⟩,
   ⟨0x054, 3, 4, [⟨0, 32, .w1s, .hub, 0, 0, 0⟩]⟩,
   ⟨0x060, 1, 4, [⟨0, 16, .ro, .hub, 0, 0, 0⟩,
      ⟨16, 16, .ro, .hub, 0, 0, 0⟩]⟩]

/-- Table 18.10. -/
def page071 : List RegSpec :=
  [⟨0x040, 1, 4, [⟨0, 7, .rw, .hub, 0, 0, 0⟩]⟩,
   ⟨0x044, 1, 4, [⟨0, 3, .ro, .hub, 0, 0, 0⟩,
      ⟨3, 1, .ro, .hub, 0, 0, 0⟩,
      ⟨4, 1, .ro, .hub, 0, 0, 0⟩,
      ⟨5, 1, .ro, .hub, 0, 0, 0⟩]⟩,
   ⟨0x048, 1, 4, [⟨0, 32, .ro, .hub, 0, 0, 0⟩]⟩,
   ⟨0x04C, 1, 4, [⟨0, 32, .ro, .hub, 0, 0, 0⟩]⟩,
   ⟨0x050, 1, 4, [⟨0, 7, .ro, .hub, 0, 0, 0⟩]⟩]

/-- Table 18.10. -/
def page072 : List RegSpec :=
  [⟨0x040, 1, 4, [⟨0, 7, .rw, .hub, 0, 0, 0⟩,
      ⟨7, 1, .wo, .hub, 0, 0, 0⟩]⟩,
   ⟨0x044, 1, 4, [⟨0, 32, .rw, .hub, 0, 0, 0⟩]⟩,
   ⟨0x048, 1, 4, [⟨0, 32, .rw, .hub, 0, 0, 0⟩]⟩,
   ⟨0x04C, 4, 4, [⟨0, 32, .ro, .hub, 0, 0, 0⟩]⟩]

/-- Table 19.7. -/
def page000 : List RegSpec :=
  [⟨0x040, 1, 4, [⟨0, 8, .ro, .hub, 0, 0, 0⟩,
      ⟨8, 8, .ro, .hub, 0, 0, 0⟩]⟩,
   ⟨0x044, 1, 4, [⟨0, 1, .ro, .hub, 0, 0, 0⟩,
      ⟨1, 1, .ro, .hub, 0, 0, 0⟩,
      ⟨2, 1, .ro, .hub, 0, 0, 0⟩,
      ⟨3, 1, .ro, .hub, 0, 0, 0⟩,
      ⟨4, 1, .ro, .hub, 0, 0, 0⟩]⟩,
   ⟨0x048, 1, 4, [⟨0, 3, .ro, .hub, 0, 0, 0⟩,
      ⟨3, 1, .ro, .hub, 0, 0, 0⟩,
      ⟨4, 3, .ro, .hub, 0, 0, 0⟩]⟩,
   ⟨0x04C, 1, 4, [⟨0, 3, .rw, .hub, 0, 0, 0⟩,
      ⟨3, 1, .wo, .hub, 0, 0, 0⟩,
      ⟨16, 16, .rw, .hub, 0, 0, 0⟩]⟩,
   ⟨0x050, 1, 4, [⟨0, 32, .ro, .hub, 0, 0, 0⟩]⟩,
   ⟨0x054, 1, 4, [⟨0, 32, .ro, .hub, 0, 0, 0⟩]⟩,
   ⟨0x058, 1, 4, [⟨0, 32, .ro, .hub, 0, 0, 0⟩]⟩,
   ⟨0x05C, 1, 4, [⟨0, 32, .ro, .hub, 0, 0, 0⟩]⟩,
   ⟨0x060, 1, 4, [⟨0, 32, .ro, .hub, 0, 0, 0⟩]⟩,
   ⟨0x064, 1, 4, [⟨0, 6, .ro, .hub, 0, 0, 0⟩]⟩]

/-- Table 19.8. -/
def page060 : List RegSpec :=
  [⟨0x040, 1, 4, [⟨0, 1, .ro, .hub, 0, 0, 0⟩,
      ⟨1, 1, .ro, .hub, 0, 0, 0⟩,
      ⟨8, 8, .ro, .hub, 0, 0, 0⟩,
      ⟨16, 3, .ro, .hub, 0, 0, 0⟩]⟩,
   ⟨0x044, 1, 4, [⟨0, 7, .ro, .hub, 0, 0, 0⟩,
      ⟨8, 7, .ro, .hub, 0, 0, 0⟩]⟩,
   ⟨0x048, 1, 4, [⟨0, 1, .wo, .hub, 0, 0, 0⟩]⟩,
   ⟨0x04C, 1, 4, [⟨0, 1, .wo, .hub, 0, 0, 0⟩,
      ⟨1, 1, .ro, .hub, 0, 0, 0⟩,
      ⟨2, 1, .ro, .hub, 0, 0, 0⟩,
      ⟨3, 1, .ro, .hub, 0, 0, 0⟩]⟩,
   ⟨0x050, 1, 4, [⟨0, 32, .rw, .hub, 0, 0, 0⟩]⟩,
   ⟨0x054, 1, 4, [⟨0, 32, .rw, .hub, 0, 0, 0⟩]⟩,
   ⟨0x058, 16, 4, [⟨0, 32, .ro, .hub, 0, 0, 0⟩]⟩,
   ⟨0x098, 16, 4, [⟨0, 32, .rw, .hub, 0, 0, 0⟩]⟩]

/-- Table 19.9. -/
def page061 : List RegSpec :=
  [⟨0x040, 1, 4, [⟨0, 1, .wo, .hub, 0, 0, 0⟩,
      ⟨1, 1, .ro, .hub, 0, 0, 0⟩,
      ⟨2, 1, .ro, .hub, 0, 0, 0⟩,
      ⟨3, 1, .ro, .hub, 0, 0, 0⟩]⟩,
   ⟨0x044, 1, 4, [⟨0, 32, .rw, .hub, 0, 0, 0⟩]⟩,
   ⟨0x048, 8, 4, [⟨0, 32, .rw, .hub, 0, 0, 0⟩]⟩,
   ⟨0x068, 1, 4, [⟨0, 1, .wo, .hub, 0, 0, 0⟩,
      ⟨1, 1, .wo, .hub, 0, 0, 0⟩]⟩,
   ⟨0x06C, 1, 4, [⟨0, 32, .rw, .hub, 0, 0, 0⟩]⟩,
   ⟨0x070, 1, 4, [⟨0, 13, .rw, .hub, 0, 0, 0⟩]⟩,
   ⟨0x074, 1, 4, [⟨0, 1, .wo, .hub, 0, 0, 0⟩,
      ⟨1, 1, .wo, .hub, 0, 0, 0⟩,
      ⟨2, 1, .ro, .hub, 0, 0, 0⟩,
      ⟨3, 1, .ro, .hub, 0, 0, 0⟩,
      ⟨4, 1, .ro, .hub, 0, 0, 0⟩]⟩,
   ⟨0x078, 1, 4, [⟨0, 32, .rw, .hub, 0, 0, 0⟩]⟩,
   ⟨0x07C, 1, 4, [⟨0, 32, .ro, .hub, 0, 0, 0⟩]⟩]

/-- Table 19.10. -/
def page062 : List RegSpec :=
  [⟨0x040, 1, 4, [⟨0, 3, .rw, .hub, 0, 0, 0⟩,
      ⟨3, 1, .wo, .hub, 0, 0, 0⟩]⟩,
   ⟨0x044, 1, 4, [⟨0, 1, .ro, .hub, 0, 0, 0⟩,
      ⟨1, 1, .ro, .hub, 0, 0, 0⟩,
      ⟨2, 1, .ro, .hub, 0, 0, 0⟩,
      ⟨8, 8, .ro, .hub, 0, 0, 0⟩]⟩,
   ⟨0x048, 1, 4, [⟨0, 8, .rw, .hub, 0, 0, 0⟩]⟩,
   ⟨0x04C, 1, 4, [⟨0, 32, .ro, .hub, 0, 0, 0⟩]⟩]

/-- The registers of a block shifted to a base within its page. -/
def shiftRegs (base : Nat) (l : List RegSpec) : List RegSpec :=
  l.map fun r => { r with off := r.off + base }

/-- The four lane blocks of a relay port (R417). -/
def relayLaneBlocks : List RegSpec :=
  shiftRegs 0x080 laneBlock ++ shiftRegs 0x0C0 laneBlock ++ shiftRegs 0x100 laneBlock ++ shiftRegs 0x140 laneBlock

/-- The eight PRBS blocks of one Knaef page (R413). -/
def knaefPage : List RegSpec :=
  shiftRegs 0x040 knaefBlock ++ shiftRegs 0x080 knaefBlock ++ shiftRegs 0x0C0 knaefBlock ++ shiftRegs 0x100 knaefBlock ++
  shiftRegs 0x140 knaefBlock ++ shiftRegs 0x180 knaefBlock ++ shiftRegs 0x1C0 knaefBlock ++ shiftRegs 0x200 knaefBlock

/-- The block registers of a page (Table 15.12) and the page's instance number; none for a page that has none. -/
def pageRegs (page : Nat) : Nat × List RegSpec :=
  if page < 0x100 then
    match page with
    | 0x000 => (0, page000)
    | 0x001 => (0, page001)
    | 0x002 => (0, page002)
    | 0x004 => (0, page004)
    | 0x00E => (0, page00E)
    | 0x00F => (0, page00F)
    | 0x010 => (0, page010)
    | 0x011 => (0, page011)
    | 0x018 => (0, page018)
    | 0x020 => (0, page020)
    | 0x030 => (0, page030)
    | 0x031 => (0, page031)
    | 0x032 => (0, page032)
    | 0x040 => (0, page040)
    | 0x041 => (0, page041)
    | 0x042 => (0, page042)
    | 0x043 => (0, page043)
    | 0x060 => (0, page060)
    | 0x061 => (0, page061)
    | 0x062 => (0, page062)
    | 0x070 => (0, page070)
    | 0x071 => (0, page071)
    | 0x072 => (0, page072)
    | 0x080 => (0, page080)
    | 0x081 => (0, page081)
    | 0x082 => (0, page082)
    | 0x083 => (0, page083)
    | 0x090 => (0, page090)
    | 0x091 => (0, page091)
    | 0x092 => (0, page092)
    | 0x093 => (0, page093)
    | 0x094 => (0, page094)
    | 0x0A0 => (0, page0A0)
    | 0x0A1 => (0, page0A1)
    | 0x0A2 => (0, page0A2)
    | 0x0B0 => (0, page0B0)
    | 0x0B1 => (0, page0B1)
    | 0x0B2 => (0, page0B2)
    | 0x0B8 => (0, page0B8)
    | 0x0B9 => (0, page0B9)
    | 0x0A8 => (0, pages0A8)
    | 0x0A9 => (1, pages0A8)
    | 0x0AA => (2, pages0A8)
    | 0x0AB => (3, pages0A8)
    | 0x0AC => (4, pages0A8)
    | 0x0AD => (5, pages0A8)
    | 0x0AE => (6, pages0A8)
    | 0x0AF => (7, pages0A8)
    | _ => (0, [])
  else if page < 0x200 then
    if page = 0x10F then (0, page10F) else
    let n := (page - 0x100) / 32
    match page % 32 with
    | 0x00 => (n, pages100)
    | 0x01 => (n, pages101)
    | 0x02 => (n, pages102)
    | 0x03 => (n, pages103)
    | 0x04 => (n, pages104)
    | 0x05 => (n, pages105)
    | 0x08 => (n, pages108)
    | 0x09 => (n, pages109)
    | 0x0A => (n, pages10A)
    | 0x0B => (n, pages10B)
    | 0x0C => (n, pages10C)
    | 0x0D => (n, pages10D)
    | 0x0E => (n, pages10E)
    | 0x10 => (n, pages110)
    | 0x11 => (n, pages111)
    | 0x12 => (n, pages112)
    | 0x13 => (n, pages113)
    | 0x14 => (n, pages114)
    | 0x15 => (n, pages115)
    | 0x18 => (n, pages118)
    | 0x19 => (n, pages119)
    | 0x1A => (n, pages11A)
    | 0x1B => (n, pages11B)
    | 0x1C => (n, pages11C)
    | 0x1D => (n, pages11D)
    | _ => (0, [])
  else if page < 0x240 then (if page % 8 = 0 then ((page - 0x200) / 8, pages200) else (0, []))
  else if 0x2C0 ≤ page ∧ page < 0x300 then (page - 0x2C0, pages2C0 ++ shiftRegs 0x200 laneBlock)
  else if 0x381 ≤ page ∧ page < 0x385 then (page - 0x381, pages381 ++ relayLaneBlocks)
  else if 0x390 ≤ page ∧ page < 0x39A then (page - 0x390, knaefPage)
  else match page with
    | 0x240 => (0, page240)
    | 0x241 => (0, page241)
    | 0x280 => (0, page280)
    | 0x290 => (0, page290)
    | 0x291 => (0, page291)
    | 0x292 => (0, page292)
    | 0x293 => (0, page293)
    | 0x300 => (0, page300)
    | 0x301 => (0, page301)
    | 0x302 => (0, page302)
    | 0x303 => (0, page303)
    | 0x340 => (0, page340)
    | 0x341 => (0, page341)
    | 0x342 => (0, page342)
    | 0x380 => (0, page380)
    | _ => (0, [])

/-- A table window's table: the page of its window, its TBL_SEL code, its number in the cell space, its entries (in
each of two banks where it is banked), and the fields of each entry word. -/
structure TableSpec where
  page : Nat
  code : Nat
  id : Nat
  count : Nat
  banked : Bool
  words : List (List FieldSpec)
  deriving DecidableEq, Repr

/-- MAP: table 0 of page 0x240. -/
def tableMAP : TableSpec :=
  ⟨0x240, 0, 0, 512, false,
   [[⟨0, 1, .rwa, .multiframe, 0, 0, 0⟩, ⟨1, 1, .rwa, .multiframe, 1, 0, 0⟩, ⟨2, 1, .rwa, .multiframe, 0, 0, 0⟩, ⟨3, 1, .rwa, .multiframe, 0, 0, 0⟩, ⟨4, 2, .rwa, .multiframe, 0, 0, 0⟩, ⟨6, 7, .rwa, .multiframe, 0, 0, 0⟩],
    [⟨0, 8, .rwa, .multiframe, 10, 0, 0⟩]]⟩

/-- SLOT: table 1 of page 0x240. -/
def tableSLOT : TableSpec :=
  ⟨0x240, 1, 1, 512, false,
   [[⟨0, 1, .rwa, .multiframe, 0, 0, 0⟩, ⟨1, 9, .rwa, .multiframe, 0, 0, 0⟩, ⟨10, 7, .rwa, .multiframe, 0, 0, 0⟩]]⟩

/-- TTI_EXP: table 2 of page 0x240. -/
def tableTTIEXP : TableSpec :=
  ⟨0x240, 2, 2, 512, false,
   [[⟨0, 32, .rw, .hub, 0, 0, 0⟩],
    [⟨0, 32, .rw, .hub, 0, 0, 0⟩],
    [⟨0, 32, .rw, .hub, 0, 0, 0⟩],
    [⟨0, 32, .rw, .hub, 0, 0, 0⟩],
    [⟨0, 32, .rw, .hub, 0, 0, 0⟩],
    [⟨0, 32, .rw, .hub, 0, 0, 0⟩],
    [⟨0, 32, .rw, .hub, 0, 0, 0⟩],
    [⟨0, 32, .rw, .hub, 0, 0, 0⟩],
    [⟨0, 32, .rw, .hub, 0, 0, 0⟩],
    [⟨0, 32, .rw, .hub, 0, 0, 0⟩],
    [⟨0, 32, .rw, .hub, 0, 0, 0⟩],
    [⟨0, 32, .rw, .hub, 0, 0, 0⟩],
    [⟨0, 32, .rw, .hub, 0, 0, 0⟩],
    [⟨0, 32, .rw, .hub, 0, 0, 0⟩],
    [⟨0, 32, .rw, .hub, 0, 0, 0⟩],
    [⟨0, 32, .rw, .hub, 0, 0, 0⟩]]⟩

/-- TTI_TX: table 3 of page 0x240. -/
def tableTTITX : TableSpec :=
  ⟨0x240, 3, 3, 512, false,
   [[⟨0, 32, .rw, .hub, 0, 0, 0⟩],
    [⟨0, 32, .rw, .hub, 0, 0, 0⟩],
    [⟨0, 32, .rw, .hub, 0, 0, 0⟩],
    [⟨0, 32, .rw, .hub, 0, 0, 0⟩],
    [⟨0, 32, .rw, .hub, 0, 0, 0⟩],
    [⟨0, 32, .rw, .hub, 0, 0, 0⟩],
    [⟨0, 32, .rw, .hub, 0, 0, 0⟩],
    [⟨0, 32, .rw, .hub, 0, 0, 0⟩],
    [⟨0, 32, .rw, .hub, 0, 0, 0⟩],
    [⟨0, 32, .rw, .hub, 0, 0, 0⟩],
    [⟨0, 32, .rw, .hub, 0, 0, 0⟩],
    [⟨0, 32, .rw, .hub, 0, 0, 0⟩],
    [⟨0, 32, .rw, .hub, 0, 0, 0⟩],
    [⟨0, 32, .rw, .hub, 0, 0, 0⟩],
    [⟨0, 32, .rw, .hub, 0, 0, 0⟩],
    [⟨0, 32, .rw, .hub, 0, 0, 0⟩]]⟩

/-- TTI_ACC: table 4 of page 0x240. -/
def tableTTIACC : TableSpec :=
  ⟨0x240, 4, 4, 512, false,
   [[⟨0, 32, .ro, .hub, 0, 0, 0⟩],
    [⟨0, 32, .ro, .hub, 0, 0, 0⟩],
    [⟨0, 32, .ro, .hub, 0, 0, 0⟩],
    [⟨0, 32, .ro, .hub, 0, 0, 0⟩],
    [⟨0, 32, .ro, .hub, 0, 0, 0⟩],
    [⟨0, 32, .ro, .hub, 0, 0, 0⟩],
    [⟨0, 32, .ro, .hub, 0, 0, 0⟩],
    [⟨0, 32, .ro, .hub, 0, 0, 0⟩],
    [⟨0, 32, .ro, .hub, 0, 0, 0⟩],
    [⟨0, 32, .ro, .hub, 0, 0, 0⟩],
    [⟨0, 32, .ro, .hub, 0, 0, 0⟩],
    [⟨0, 32, .ro, .hub, 0, 0, 0⟩],
    [⟨0, 32, .ro, .hub, 0, 0, 0⟩],
    [⟨0, 32, .ro, .hub, 0, 0, 0⟩],
    [⟨0, 32, .ro, .hub, 0, 0, 0⟩],
    [⟨0, 32, .ro, .hub, 0, 0, 0⟩]]⟩

/-- CRSTAT: table 5 of page 0x240. -/
def tableCRSTAT : TableSpec :=
  ⟨0x240, 5, 5, 512, false,
   [[⟨0, 1, .ro, .hub, 0, 0, 0⟩, ⟨1, 1, .ro, .hub, 0, 0, 0⟩, ⟨2, 1, .ro, .hub, 0, 0, 0⟩, ⟨3, 1, .ro, .hub, 0, 0, 0⟩, ⟨4, 1, .ro, .hub, 0, 0, 0⟩, ⟨5, 1, .ro, .hub, 0, 0, 0⟩, ⟨6, 1, .ro, .hub, 0, 0, 0⟩, ⟨7, 1, .ro, .hub, 0, 0, 0⟩, ⟨8, 1, .ro, .hub, 0, 0, 0⟩, ⟨9, 1, .ro, .hub, 0, 0, 0⟩, ⟨10, 1, .ro, .hub, 0, 0, 0⟩],
    [⟨0, 18, .ro, .hub, 0, 0, 0⟩],
    [⟨0, 32, .ro, .hub, 0, 0, 0⟩],
    [⟨0, 32, .ro, .hub, 0, 0, 0⟩],
    [⟨0, 16, .ro, .hub, 0, 0, 0⟩, ⟨16, 16, .ro, .hub, 0, 0, 0⟩],
    [⟨0, 32, .ro, .hub, 0, 0, 0⟩],
    [⟨0, 32, .ro, .hub, 0, 0, 0⟩],
    [⟨0, 32, .ro, .hub, 0, 0, 0⟩]]⟩

/-- SR_TX: table 6 of page 0x240. -/
def tableSRTX : TableSpec :=
  ⟨0x240, 6, 6, 512, false,
   [[⟨0, 32, .ro, .hub, 0, 0, 0⟩]]⟩

/-- PAIR: table 0 of page 0x280. -/
def tablePAIR : TableSpec :=
  ⟨0x280, 0, 7, 256, false,
   [[⟨0, 1, .rwa, .hub, 0, 0, 0⟩, ⟨1, 2, .rwa, .hub, 1, 0, 0⟩, ⟨3, 9, .rwa, .hub, 0, 0, 0⟩, ⟨12, 9, .rwa, .hub, 0, 0, 0⟩, ⟨21, 1, .rwa, .hub, 0, 0, 0⟩, ⟨22, 1, .rwa, .hub, 1, 0, 0⟩, ⟨23, 1, .rwa, .hub, 1, 0, 0⟩],
    [⟨0, 15, .rwa, .hub, 7808, 0, 0⟩],
    [⟨0, 7, .rwa, .hub, 0, 0, 0⟩, ⟨8, 10, .rwa, .hub, 300, 0, 0⟩]]⟩

/-- PSTAT: table 1 of page 0x280. -/
def tablePSTAT : TableSpec :=
  ⟨0x280, 1, 8, 256, false,
   [[⟨0, 3, .ro, .hub, 0, 0, 0⟩, ⟨3, 1, .ro, .hub, 0, 0, 0⟩, ⟨4, 1, .ro, .hub, 0, 0, 0⟩, ⟨5, 1, .ro, .hub, 0, 0, 0⟩, ⟨6, 1, .ro, .hub, 0, 0, 0⟩, ⟨7, 1, .ro, .hub, 0, 0, 0⟩, ⟨8, 1, .ro, .hub, 0, 0, 0⟩, ⟨9, 1, .ro, .hub, 0, 0, 0⟩, ⟨10, 4, .ro, .hub, 0, 0, 0⟩, ⟨14, 4, .ro, .hub, 0, 0, 0⟩, ⟨18, 1, .ro, .hub, 0, 0, 0⟩, ⟨19, 1, .ro, .hub, 0, 0, 0⟩, ⟨20, 2, .ro, .hub, 0, 0, 0⟩],
    [⟨0, 32, .ro, .hub, 0, 0, 0⟩],
    [⟨0, 32, .ro, .hub, 0, 0, 0⟩],
    [⟨0, 32, .ro, .hub, 0, 0, 0⟩],
    [⟨0, 32, .ro, .hub, 0, 0, 0⟩],
    [⟨0, 32, .ro, .hub, 0, 0, 0⟩],
    [⟨0, 32, .ro, .hub, 0, 0, 0⟩],
    [⟨0, 32, .ro, .hub, 0, 0, 0⟩],
    [⟨0, 32, .ro, .hub, 0, 0, 0⟩],
    [⟨0, 32, .ro, .hub, 0, 0, 0⟩],
    [⟨0, 10, .ro, .hub, 0, 0, 0⟩]]⟩

/-- CMD: table 2 of page 0x280. -/
def tableCMD : TableSpec :=
  ⟨0x280, 2, 9, 256, false,
   [[⟨0, 4, .wo, .hub, 0, 0, 0⟩]]⟩

/-- EXACT: table 0 of page 0x301. -/
def tableEXACT : TableSpec :=
  ⟨0x301, 0, 10, 1048576, false,
   [[⟨0, 32, .rw, .hub, 0, 0, 0⟩],
    [⟨0, 32, .rw, .hub, 0, 0, 0⟩],
    [⟨0, 32, .rw, .hub, 0, 0, 0⟩],
    [⟨0, 32, .rw, .hub, 0, 0, 0⟩],
    [⟨0, 32, .rw, .hub, 0, 0, 0⟩],
    [⟨0, 32, .rw, .hub, 0, 0, 0⟩],
    [⟨0, 32, .rw, .hub, 0, 0, 0⟩],
    [⟨0, 32, .rw, .hub, 0, 0, 0⟩],
    [⟨0, 32, .rw, .hub, 0, 0, 0⟩],
    [⟨0, 32, .rw, .hub, 0, 0, 0⟩],
    [⟨0, 8, .rw, .hub, 0, 0, 0⟩, ⟨8, 1, .rw, .hub, 0, 0, 0⟩, ⟨9, 1, .rw, .hub, 0, 0, 0⟩],
    [⟨0, 16, .rw, .hub, 0, 0, 0⟩, ⟨16, 16, .rw, .hub, 0, 0, 0⟩],
    [⟨0, 16, .rw, .hub, 0, 0, 0⟩, ⟨16, 2, .rw, .hub, 0, 0, 0⟩, ⟨18, 5, .rw, .hub, 0, 0, 0⟩, ⟨23, 1, .rw, .hub, 0, 0, 0⟩, ⟨24, 1, .rw, .hub, 0, 0, 0⟩],
    [⟨0, 12, .rw, .hub, 0, 0, 0⟩]]⟩

/-- WILD: table 1 of page 0x301. -/
def tableWILD : TableSpec :=
  ⟨0x301, 1, 11, 16384, false,
   [[⟨0, 32, .rw, .hub, 0, 0, 0⟩],
    [⟨0, 32, .rw, .hub, 0, 0, 0⟩],
    [⟨0, 32, .rw, .hub, 0, 0, 0⟩],
    [⟨0, 32, .rw, .hub, 0, 0, 0⟩],
    [⟨0, 32, .rw, .hub, 0, 0, 0⟩],
    [⟨0, 32, .rw, .hub, 0, 0, 0⟩],
    [⟨0, 32, .rw, .hub, 0, 0, 0⟩],
    [⟨0, 32, .rw, .hub, 0, 0, 0⟩],
    [⟨0, 32, .rw, .hub, 0, 0, 0⟩],
    [⟨0, 32, .rw, .hub, 0, 0, 0⟩],
    [⟨0, 32, .rw, .hub, 0, 0, 0⟩],
    [⟨0, 32, .rw, .hub, 0, 0, 0⟩],
    [⟨0, 32, .rw, .hub, 0, 0, 0⟩],
    [⟨0, 32, .rw, .hub, 0, 0, 0⟩],
    [⟨0, 32, .rw, .hub, 0, 0, 0⟩],
    [⟨0, 32, .rw, .hub, 0, 0, 0⟩]] ++
   [[⟨0, 32, .rw, .hub, 0, 0, 0⟩],
    [⟨0, 32, .rw, .hub, 0, 0, 0⟩],
    [⟨0, 32, .rw, .hub, 0, 0, 0⟩],
    [⟨0, 32, .rw, .hub, 0, 0, 0⟩],
    [⟨0, 32, .rw, .hub, 0, 0, 0⟩],
    [⟨0, 32, .rw, .hub, 0, 0, 0⟩],
    [⟨0, 32, .rw, .hub, 0, 0, 0⟩],
    [⟨0, 32, .rw, .hub, 0, 0, 0⟩],
    [⟨0, 32, .rw, .hub, 0, 0, 0⟩],
    [⟨0, 32, .rw, .hub, 0, 0, 0⟩],
    [⟨0, 32, .rw, .hub, 0, 0, 0⟩],
    [⟨0, 32, .rw, .hub, 0, 0, 0⟩],
    [⟨0, 32, .rw, .hub, 0, 0, 0⟩],
    [⟨0, 32, .rw, .hub, 0, 0, 0⟩],
    [⟨0, 32, .rw, .hub, 0, 0, 0⟩],
    [⟨0, 32, .rw, .hub, 0, 0, 0⟩]] ++
   [[⟨0, 8, .rw, .hub, 0, 0, 0⟩, ⟨8, 1, .rw, .hub, 0, 0, 0⟩, ⟨9, 1, .rw, .hub, 0, 0, 0⟩],
    [⟨0, 16, .rw, .hub, 0, 0, 0⟩, ⟨16, 16, .rw, .hub, 0, 0, 0⟩],
    [⟨0, 16, .rw, .hub, 0, 0, 0⟩, ⟨16, 2, .rw, .hub, 0, 0, 0⟩, ⟨18, 5, .rw, .hub, 0, 0, 0⟩, ⟨23, 1, .rw, .hub, 0, 0, 0⟩, ⟨24, 1, .rw, .hub, 0, 0, 0⟩],
    [⟨0, 12, .rw, .hub, 0, 0, 0⟩]]⟩

/-- EDIT: table 2 of page 0x301. -/
def tableEDIT : TableSpec :=
  ⟨0x301, 2, 12, 4096, true,
   [[⟨0, 32, .rw, .hub, 0, 0, 0⟩],
    [⟨0, 32, .rw, .hub, 0, 0, 0⟩],
    [⟨0, 32, .rw, .hub, 0, 0, 0⟩],
    [⟨0, 32, .rw, .hub, 0, 0, 0⟩],
    [⟨0, 32, .rw, .hub, 0, 0, 0⟩],
    [⟨0, 32, .rw, .hub, 0, 0, 0⟩],
    [⟨0, 32, .rw, .hub, 0, 0, 0⟩],
    [⟨0, 32, .rw, .hub, 0, 0, 0⟩],
    [⟨0, 32, .rw, .hub, 0, 0, 0⟩],
    [⟨0, 32, .rw, .hub, 0, 0, 0⟩],
    [⟨0, 32, .rw, .hub, 0, 0, 0⟩],
    [⟨0, 32, .rw, .hub, 0, 0, 0⟩],
    [⟨0, 32, .rw, .hub, 0, 0, 0⟩],
    [⟨0, 32, .rw, .hub, 0, 0, 0⟩],
    [⟨0, 32, .rw, .hub, 0, 0, 0⟩],
    [⟨0, 32, .rw, .hub, 0, 0, 0⟩]]⟩

/-- PRECLASS: table 3 of page 0x301. -/
def tablePRECLASS : TableSpec :=
  ⟨0x301, 3, 13, 65536, false,
   [[⟨0, 32, .rw, .hub, 0, 0, 0⟩],
    [⟨0, 32, .rw, .hub, 0, 0, 0⟩],
    [⟨0, 32, .rw, .hub, 0, 0, 0⟩],
    [⟨0, 32, .rw, .hub, 0, 0, 0⟩],
    [⟨0, 32, .rw, .hub, 0, 0, 0⟩],
    [⟨0, 15, .rw, .hub, 0, 0, 0⟩],
    [⟨0, 32, .rw, .hub, 0, 0, 0⟩],
    [⟨0, 1, .rw, .hub, 0, 0, 0⟩, ⟨8, 24, .rw, .hub, 0, 0, 0⟩]]⟩

/-- PORT_DEFAULT: table 4 of page 0x301. -/
def tablePORTDEFAULT : TableSpec :=
  ⟨0x301, 4, 14, 64, true,
   [[⟨0, 16, .rw, .hub, 0, 0, 0⟩, ⟨16, 2, .rw, .hub, 0, 0, 0⟩, ⟨18, 5, .rw, .hub, 0, 0, 0⟩, ⟨23, 1, .rw, .hub, 0, 0, 0⟩, ⟨24, 1, .rw, .hub, 0, 0, 0⟩],
    [⟨0, 12, .rw, .hub, 0, 0, 0⟩]]⟩

/-- TEMPLATE: table 5 of page 0x301. -/
def tableTEMPLATE : TableSpec :=
  ⟨0x301, 5, 15, 256, true,
   [[⟨0, 32, .rw, .hub, 0, 0, 0⟩],
    [⟨0, 32, .rw, .hub, 0, 0, 0⟩],
    [⟨0, 32, .rw, .hub, 0, 0, 0⟩],
    [⟨0, 32, .rw, .hub, 0, 0, 0⟩],
    [⟨0, 32, .rw, .hub, 0, 0, 0⟩],
    [⟨0, 32, .rw, .hub, 0, 0, 0⟩],
    [⟨0, 32, .rw, .hub, 0, 0, 0⟩],
    [⟨0, 32, .rw, .hub, 0, 0, 0⟩],
    [⟨0, 32, .rw, .hub, 0, 0, 0⟩],
    [⟨0, 32, .rw, .hub, 0, 0, 0⟩],
    [⟨0, 32, .rw, .hub, 0, 0, 0⟩],
    [⟨0, 32, .rw, .hub, 0, 0, 0⟩],
    [⟨0, 32, .rw, .hub, 0, 0, 0⟩],
    [⟨0, 32, .rw, .hub, 0, 0, 0⟩],
    [⟨0, 32, .rw, .hub, 0, 0, 0⟩],
    [⟨0, 32, .rw, .hub, 0, 0, 0⟩]] ++
   [[⟨0, 7, .rw, .hub, 0, 0, 0⟩]]⟩

/-- FLOW: table 0 of page 0x341. -/
def tableFLOW : TableSpec :=
  ⟨0x341, 0, 16, 65536, false,
   [[⟨0, 16, .ro, .hub, 0, 0, 0⟩, ⟨16, 2, .ro, .hub, 0, 0, 0⟩, ⟨18, 1, .ro, .hub, 0, 0, 0⟩, ⟨19, 1, .ro, .hub, 0, 0, 0⟩, ⟨20, 2, .ro, .hub, 0, 0, 0⟩, ⟨22, 6, .ro, .hub, 0, 0, 0⟩],
    [⟨0, 9, .ro, .hub, 0, 0, 0⟩, ⟨16, 6, .ro, .hub, 0, 0, 0⟩],
    [⟨0, 16, .ro, .hub, 0, 0, 0⟩],
    [⟨0, 32, .ro, .hub, 0, 0, 0⟩],
    [⟨0, 15, .ro, .hub, 0, 0, 0⟩, ⟨16, 15, .ro, .hub, 0, 0, 0⟩],
    [⟨0, 24, .ro, .hub, 0, 0, 0⟩],
    [⟨0, 6, .ro, .hub, 0, 0, 0⟩, ⟨6, 6, .ro, .hub, 0, 0, 0⟩, ⟨16, 9, .ro, .hub, 0, 0, 0⟩],
    [⟨0, 32, .ro, .hub, 0, 0, 0⟩],
    [⟨0, 1, .ro, .hub, 0, 0, 0⟩, ⟨1, 1, .ro, .hub, 0, 0, 0⟩, ⟨2, 1, .ro, .hub, 0, 0, 0⟩],
    [⟨0, 20, .ro, .hub, 0, 0, 0⟩],
    [⟨0, 16, .ro, .hub, 0, 0, 0⟩, ⟨16, 16, .ro, .hub, 0, 0, 0⟩],
    [],
    [],
    [],
    [],
    []] ++
   [[⟨0, 32, .ro, .hub, 0, 0, 0⟩],
    [⟨0, 32, .ro, .hub, 0, 0, 0⟩],
    [⟨0, 32, .ro, .hub, 0, 0, 0⟩],
    [⟨0, 32, .ro, .hub, 0, 0, 0⟩],
    [⟨0, 32, .ro, .hub, 0, 0, 0⟩],
    [⟨0, 32, .ro, .hub, 0, 0, 0⟩],
    [],
    [],
    [⟨0, 32, .ro, .hub, 0, 0, 0⟩],
    [⟨0, 32, .ro, .hub, 0, 0, 0⟩],
    [⟨0, 32, .ro, .hub, 0, 0, 0⟩],
    [⟨0, 32, .ro, .hub, 0, 0, 0⟩],
    [⟨0, 32, .ro, .hub, 0, 0, 0⟩],
    [⟨0, 32, .ro, .hub, 0, 0, 0⟩],
    [⟨0, 32, .ro, .hub, 0, 0, 0⟩],
    [⟨0, 32, .ro, .hub, 0, 0, 0⟩]] ++
   [[⟨0, 32, .ro, .hub, 0, 0, 0⟩]]⟩

/-- CRS_CFG: table 1 of page 0x341. -/
def tableCRSCFG : TableSpec :=
  ⟨0x341, 1, 17, 512, false,
   [[⟨0, 14, .rw, .hub, 1522, 0, 0⟩],
    [⟨0, 20, .ro, .hub, 0, 0, 0⟩],
    [⟨0, 20, .ro, .hub, 0, 0, 0⟩]]⟩

/-- PORT_CFG: table 2 of page 0x341. -/
def tablePORTCFG : TableSpec :=
  ⟨0x341, 2, 18, 64, false,
   [[⟨0, 14, .rw, .hub, 1522, 0, 0⟩],
    [⟨0, 20, .ro, .hub, 0, 0, 0⟩]]⟩

/-- BEQ: table 3 of page 0x341. -/
def tableBEQ : TableSpec :=
  ⟨0x341, 3, 19, 2304, false,
   [[⟨0, 20, .rw, .hub, 65536, 0, 0⟩],
    [⟨0, 32, .ro, .hub, 0, 0, 0⟩]]⟩

/-- PUNT: table 4 of page 0x341. -/
def tablePUNT : TableSpec :=
  ⟨0x341, 4, 20, 32, false,
   [[⟨0, 20, .rw, .hub, 100, 0, 0⟩, ⟨20, 12, .rw, .hub, 64, 0, 0⟩],
    [⟨0, 32, .ro, .hub, 0, 0, 0⟩]]⟩

/-- CKEY: table 0 of page 0x291. -/
def tableCKEY : TableSpec :=
  ⟨0x291, 0, 21, 512, false,
   [[⟨0, 11, .rwa, .courseFrame, 0, 0, 0⟩, ⟨11, 11, .rwa, .courseFrame, 0, 0, 0⟩, ⟨22, 1, .rwa, .courseFrame, 0, 0, 0⟩],
    [⟨0, 11, .rwa, .rxFrame, 0, 0, 0⟩, ⟨11, 11, .rwa, .rxFrame, 0, 0, 0⟩],
    [⟨0, 16, .rwa, .courseFrame, 4096, 0, 0⟩, ⟨16, 16, .rwa, .courseFrame, 1024, 0, 0⟩]]⟩

/-- CSTAT: table 1 of page 0x291. -/
def tableCSTAT : TableSpec :=
  ⟨0x291, 1, 22, 512, false,
   [[⟨0, 1, .ro, .hub, 0, 0, 0⟩, ⟨1, 1, .ro, .hub, 0, 0, 0⟩, ⟨2, 1, .ro, .hub, 0, 0, 0⟩, ⟨3, 1, .ro, .hub, 0, 0, 0⟩],
    [⟨0, 32, .ro, .hub, 0, 0, 0⟩],
    [⟨0, 32, .ro, .hub, 0, 0, 0⟩],
    [⟨0, 32, .ro, .hub, 0, 0, 0⟩],
    [⟨0, 32, .ro, .hub, 0, 0, 0⟩],
    [⟨0, 32, .ro, .hub, 0, 0, 0⟩],
    [⟨0, 32, .ro, .hub, 0, 0, 0⟩],
    [⟨0, 32, .ro, .hub, 0, 0, 0⟩],
    [⟨0, 32, .ro, .hub, 0, 0, 0⟩],
    [⟨0, 32, .ro, .hub, 0, 0, 0⟩],
    [⟨0, 32, .ro, .hub, 0, 0, 0⟩],
    [⟨0, 32, .ro, .hub, 0, 0, 0⟩]]⟩

/-- LISTEN: table 0 of page 0x0A1. -/
def tableLISTEN : TableSpec :=
  ⟨0x0A1, 0, 23, 128, false,
   [[⟨0, 7, .rw, .hub, 0, 0, 0⟩, ⟨8, 6, .rw, .hub, 0, 0, 0⟩, ⟨16, 1, .rw, .hub, 0, 0, 0⟩]]⟩

/-- NBR: table 1 of page 0x0A1. -/
def tableNBR : TableSpec :=
  ⟨0x0A1, 1, 24, 128, false,
   [[⟨0, 1, .ro, .hub, 0, 0, 0⟩, ⟨1, 4, .ro, .hub, 0, 0, 0⟩, ⟨8, 7, .ro, .hub, 0, 0, 0⟩, ⟨16, 6, .ro, .hub, 0, 0, 0⟩, ⟨24, 1, .ro, .hub, 0, 0, 0⟩],
    [⟨0, 32, .ro, .hub, 0, 0, 0⟩],
    [⟨0, 32, .ro, .hub, 0, 0, 0⟩],
    [⟨0, 32, .ro, .hub, 0, 0, 0⟩],
    [⟨0, 32, .ro, .hub, 0, 0, 0⟩],
    [⟨0, 32, .ro, .hub, 0, 0, 0⟩],
    [⟨0, 32, .ro, .hub, 0, 0, 0⟩],
    [⟨0, 32, .ro, .hub, 0, 0, 0⟩],
    [⟨0, 32, .ro, .hub, 0, 0, 0⟩],
    [⟨0, 32, .ro, .hub, 0, 0, 0⟩],
    [⟨0, 16, .ro, .hub, 0, 0, 0⟩, ⟨16, 16, .ro, .hub, 0, 0, 0⟩],
    [⟨0, 8, .ro, .hub, 0, 0, 0⟩]]⟩

/-- NBR_EXP: table 2 of page 0x0A1. -/
def tableNBREXP : TableSpec :=
  ⟨0x0A1, 2, 25, 8, false,
   [[⟨0, 1, .rw, .hub, 0, 0, 0⟩],
    [⟨0, 32, .rw, .hub, 0, 0, 0⟩],
    [⟨0, 32, .rw, .hub, 0, 0, 0⟩]]⟩

/-- REF: table 0 of page 0x091. -/
def tableREF : TableSpec :=
  ⟨0x091, 0, 26, 17, false,
   [[⟨0, 1, .rwa, .ms, 0, 0, 0⟩, ⟨1, 4, .rwa, .ms, 15, 0, 0⟩, ⟨5, 1, .rwa, .ms, 0, 0, 0⟩, ⟨6, 4, .rwa, .ms, 15, 0, 0⟩, ⟨10, 5, .rwa, .ms, 0, 0, 0⟩],
    [⟨0, 32, .rwa, .ms, 10000000, 0, 0⟩],
    [⟨0, 24, .rwa, .ms, 0, 0, 0⟩],
    [],
    [⟨0, 1, .ro, .hub, 0, 0, 0⟩, ⟨1, 1, .ro, .hub, 0, 0, 0⟩, ⟨2, 1, .ro, .hub, 0, 0, 0⟩, ⟨3, 1, .ro, .hub, 0, 0, 0⟩, ⟨4, 1, .ro, .hub, 0, 0, 0⟩, ⟨5, 1, .ro, .hub, 0, 0, 0⟩, ⟨6, 4, .ro, .hub, 15, 0, 0⟩],
    [⟨0, 32, .ro, .hub, 0, 0, 0⟩],
    [⟨0, 32, .ro, .hub, 0, 0, 0⟩]]⟩

/-- OUT: table 1 of page 0x091. -/
def tableOUT : TableSpec :=
  ⟨0x091, 1, 27, 8, false,
   [[⟨0, 2, .rwa, .ms, 0, 0, 0⟩, ⟨4, 4, .rwa, .ms, 0, 0, 0⟩],
    [⟨0, 32, .rwa, .ms, 10000000, 0, 0⟩],
    [⟨0, 24, .rwa, .ms, 0, 0, 0⟩],
    [⟨0, 20, .rwa, .ms, 100000, 0, 0⟩]]⟩

/-- CTS: table 2 of page 0x091. -/
def tableCTS : TableSpec :=
  ⟨0x091, 2, 28, 512, false,
   [[⟨0, 1, .ro, .hub, 0, 0, 0⟩],
    [⟨0, 32, .ro, .hub, 0, 0, 0⟩],
    [⟨0, 32, .ro, .hub, 0, 0, 0⟩],
    [⟨0, 32, .ro, .hub, 0, 0, 0⟩],
    [⟨0, 32, .ro, .hub, 0, 0, 0⟩],
    [⟨0, 32, .ro, .hub, 0, 0, 0⟩]]⟩

/-- RTX: table 0 of page 0x380. -/
def tableRTX : TableSpec :=
  ⟨0x380, 0, 29, 64, false,
   [[⟨0, 2, .rwa, .tick, 0, 0, 0⟩, ⟨2, 9, .rwa, .tick, 0, 0, 0⟩, ⟨11, 7, .rwa, .tick, 0, 0, 0⟩, ⟨18, 6, .rwa, .tick, 0, 0, 0⟩]]⟩

/-- RRX: table 1 of page 0x380. -/
def tableRRX : TableSpec :=
  ⟨0x380, 1, 30, 64, false,
   [[⟨0, 2, .rwa, .tick, 0, 0, 0⟩, ⟨2, 9, .rwa, .tick, 0, 0, 0⟩, ⟨11, 7, .rwa, .tick, 0, 0, 0⟩]]⟩

/-- RCRS: table 2 of page 0x380. -/
def tableRCRS : TableSpec :=
  ⟨0x380, 2, 31, 512, false,
   [[⟨0, 1, .rwa, .tick, 0, 0, 0⟩, ⟨1, 1, .rwa, .tick, 0, 0, 0⟩, ⟨2, 1, .rwa, .tick, 0, 0, 0⟩, ⟨3, 7, .rwa, .tick, 0, 0, 0⟩, ⟨10, 6, .rwa, .tick, 1, 0, 0⟩, ⟨16, 1, .ro, .hub, 0, 0, 0⟩]]⟩

/-- CNT_CFG: table 0 of page 0x030. -/
def tableCNTCFG : TableSpec :=
  ⟨0x030, 0, 32, 8192, false,
   [[⟨0, 2, .rwa, .hub, 0, 0, 0⟩, ⟨2, 1, .rwa, .hub, 0, 0, 0⟩, ⟨3, 1, .rwa, .hub, 0, 0, 0⟩, ⟨4, 1, .rwa, .hub, 0, 0, 0⟩, ⟨5, 10, .rwa, .hub, 0, 0, 0⟩, ⟨15, 3, .rwa, .hub, 0, 0, 0⟩, ⟨18, 3, .rwa, .hub, 0, 0, 0⟩, ⟨21, 2, .rwa, .hub, 0, 0, 0⟩, ⟨23, 8, .rwa, .hub, 0, 0, 0⟩],
    [⟨0, 8, .rwa, .hub, 0, 0, 0⟩, ⟨8, 8, .rwa, .hub, 0, 0, 0⟩, ⟨16, 9, .rwa, .hub, 0, 0, 0⟩, ⟨25, 1, .rwa, .hub, 0, 0, 0⟩, ⟨26, 1, .rwa, .hub, 0, 0, 0⟩, ⟨27, 1, .rwa, .hub, 0, 0, 0⟩],
    [⟨0, 32, .rwa, .hub, 0, 0, 0⟩],
    [⟨0, 32, .rwa, .hub, 0, 0, 0⟩]]⟩

/-- PVALUE: table 1 of page 0x030. -/
def tablePVALUE : TableSpec :=
  ⟨0x030, 1, 33, 8192, false,
   [[⟨0, 32, .rw, .hub, 0, 0, 0⟩],
    [⟨0, 16, .rw, .hub, 0, 0, 0⟩]]⟩

/-- COLREC: table 0 of page 0x0B1. -/
def tableCOLREC : TableSpec :=
  ⟨0x0B1, 0, 34, 32, false,
   [[⟨0, 1, .ro, .hub, 0, 0, 0⟩, ⟨1, 1, .ro, .hub, 0, 0, 0⟩, ⟨2, 1, .ro, .hub, 0, 0, 0⟩, ⟨3, 1, .ro, .hub, 0, 0, 0⟩, ⟨4, 2, .ro, .hub, 0, 0, 0⟩, ⟨16, 16, .ro, .hub, 0, 0, 0⟩],
    [⟨0, 32, .ro, .hub, 0, 0, 0⟩],
    [⟨0, 32, .ro, .hub, 0, 0, 0⟩],
    [⟨0, 16, .ro, .hub, 0, 0, 0⟩, ⟨16, 1, .ro, .hub, 0, 0, 0⟩, ⟨17, 1, .ro, .hub, 0, 0, 0⟩],
    [⟨0, 32, .ro, .hub, 0, 0, 0⟩],
    [⟨0, 32, .ro, .hub, 0, 0, 0⟩],
    [⟨0, 32, .ro, .hub, 0, 0, 0⟩],
    [⟨0, 32, .ro, .hub, 0, 0, 0⟩]]⟩

/-- MLOG: table 0 of page 0x080. -/
def tableMLOG : TableSpec :=
  ⟨0x080, 0, 35, 64, false,
   [[⟨0, 1, .ro, .hub, 0, 0, 0⟩, ⟨1, 1, .ro, .hub, 0, 0, 0⟩, ⟨2, 1, .ro, .hub, 0, 0, 0⟩, ⟨3, 1, .ro, .hub, 0, 0, 0⟩, ⟨4, 7, .ro, .hub, 0, 0, 0⟩, ⟨11, 4, .ro, .hub, 0, 0, 0⟩],
    [⟨0, 31, .ro, .hub, 0, 0, 0⟩],
    [⟨0, 2, .ro, .hub, 0, 0, 0⟩, ⟨2, 4, .ro, .hub, 0, 0, 0⟩, ⟨6, 1, .ro, .hub, 0, 0, 0⟩, ⟨7, 5, .ro, .hub, 0, 0, 0⟩, ⟨12, 17, .ro, .hub, 0, 0, 0⟩],
    [⟨0, 32, .ro, .hub, 0, 0, 0⟩]]⟩

/-- Every table window's tables. -/
def allTables : List TableSpec :=
  [tableMAP,
   tableSLOT,
   tableTTIEXP,
   tableTTITX,
   tableTTIACC,
   tableCRSTAT,
   tableSRTX,
   tablePAIR,
   tablePSTAT,
   tableCMD,
   tableEXACT,
   tableWILD,
   tableEDIT,
   tablePRECLASS,
   tablePORTDEFAULT,
   tableTEMPLATE,
   tableFLOW,
   tableCRSCFG,
   tablePORTCFG,
   tableBEQ,
   tablePUNT,
   tableCKEY,
   tableCSTAT,
   tableLISTEN,
   tableNBR,
   tableNBREXP,
   tableREF,
   tableOUT,
   tableCTS,
   tableRTX,
   tableRRX,
   tableRCRS,
   tableCNTCFG,
   tablePVALUE,
   tableCOLREC,
   tableMLOG]

/-- The table that TBL_SEL code `code` names in the window of page `page`. -/
def tableAt (page code : Nat) : Option TableSpec :=
  allTables.find? fun t => t.page = page ∧ t.code = code

/-- The table of cell-space number `id`. -/
def tableById (id : Nat) : Option TableSpec := allTables[id]?

end Sys2Proof.Machine
end

