-- ==== Sys2Proof/Syntax.lean ====
section
/-!
DEFINITION. The commands of the block, one constructor per row of the specification's table of operations and events. The
table gives no operands: the operands here are what the block receives with the command (an index, a written value, a
received frame's contents, the outcome of a measurement).
-/
namespace Sys2Proof


/-- A received column of a line frame (R159): its overhead block and its payload, each with the worst mark of its bytes: 0 CLEAN, 1 CORRECTED,
2 FAILED (R147). -/
structure Column where
  overhead : List Byte
  ohMark : Nat
  payload : List Byte
  mark : Nat
  deriving DecidableEq, Repr

/-- Where the two computations of the cipher on a received copy have differed (R300, R301): nowhere, at the tag check, or at the decryption. -/
inductive CheckAt where
  | nowhere
  | tag
  | decryption
  deriving DecidableEq, Repr

/-- A received bit as the soft demapper sees it (R139). `label`: the value received in its real dimension, in 1/1,024 of half the points' spacing, and which bit of the
label it is. `amplitude`: an amplitude bit of PCS-64QAM, the matcher block it comes from, and which of that block's k bits it is. -/
inductive SoftBit where
  | label (y : Int) (bit : Nat)
  | amplitude (block bit : Nat)
  deriving DecidableEq, Repr

/-- A position's answers in a collection (R446): EPOCH, DIGEST_EPOCH and D of the first round. -/
structure FirstAnswer where
  epoch : Nat
  digestEpoch : Nat
  digest : List Byte
  deriving DecidableEq, Repr

/-- The answers of one assigned position: none where it did not answer in time. -/
structure CollectAnswer where
  pos : Nat
  first : Option FirstAnswer
  second : Option Nat
  deriving DecidableEq, Repr

/-- A header layer as the microcode recorded it (R242): its start, its length, and its IP version, 0 where it is no IP header. -/
structure Layer where
  start : Nat
  length : Nat
  ip : Nat
  deriving DecidableEq, Repr

/-- An operation of the ALU class (Table 8.2). -/
inductive AluOp where
  | add
  | sub
  | and
  | or
  | xor
  | shiftLeft
  | shiftRight
  | equal
  | less
  deriving DecidableEq, Repr

/-- A number in an instruction: given there, or held by one of the 16 registers. -/
inductive Src where
  | imm (v : Nat)
  | reg (r : Fin 16)
  deriving DecidableEq, Repr

/-- A microcode instruction as a thread issues it, by its class (Table 8.2). EXTRACT loads `count` + 1 bytes, KEY appends `bits` + 1 bits; a branch is taken where its register is 0, or is
not; LAYER tells whether the layer is an IPv4 or IPv6 header, 0 for neither; RESULT takes a register, or with none the last lookup result. -/
inductive ParseInsn where
  | extract (dst : Fin 16) (offset : Src) (count : Fin 8)
  | alu (op : AluOp) (dst a : Fin 16) (b : Src)
  | branch (r : Fin 16) (ifZero : Bool)
  | layer (start length : Src) (ip : Nat)
  | key (r : Fin 16) (bits : Fin 64)
  | lookupEm (profile : Byte)
  | lookupWc (profile : Byte)
  | flag (frag len : Bool)
  | result (r : Option (Fin 16))
  | recirc
  | finish
  deriving DecidableEq, Repr

/-- Where a memory word lies (Table 18.7): HBM or SRAM, its 64-byte unit, and its place in the stacks or its array row. -/
structure MemRef where
  sram : Bool
  addr : BitVec 31
  stack : BitVec 2
  channel : BitVec 4
  pc : BitVec 1
  bank : BitVec 5
  row : BitVec 17
  deriving DecidableEq, Repr

/-- A consumer of poisoned data (Table 18.2). -/
inductive Consumer where
  | parallax
  | egress
  | capture (engine : Fin 8)
  | hostRead
  | queueItem (q : Fin 32)
  | request
  | keyStore (slot : BitVec 11)
  | ruleTable
  | flowContext
  | chordMemory
  | skewStore
  | firmware
  | microcode (bank : Fin 2)
  deriving DecidableEq, Repr

/-- A value that belongs to the event of a command and that the block finds from its own state: the command carries nothing for it. -/
inductive Found where
  | found
  deriving DecidableEq, Repr

/-- What happens to the PCIe link and its function (R418, R419, R447, R457): the link up or down; an error that AER logs; a write of the power state, of the MSI-X control bits, or of an
entry of the MSI-X table. -/
inductive PcieChange where
  | up
  | down
  | error (correctable : Bool)
  | power (d3hot : Bool)
  | msixControl (enable masked : Bool)
  | msixEntry (entry : Fin 2048) (addr : BitVec 64) (data : BitVec 32) (masked : Bool)
  deriving DecidableEq, Repr

/-- What background tracking of a class has come to: the lanes' offsets and gains, and the other values (R362, R368). -/
structure LineTracked where
  lanes : List (Int × Int)
  others : List Int
  deriving DecidableEq, Repr

/-- A state of the PTP servo with PTP_CFG.EN = 1 (R348). -/
inductive PtpServo where
  | listening | acquiring | locked | holdover
  deriving DecidableEq, Repr

/-- The device's own timestamps of a PTP exchange, 2^-16 ns (Table 12.5): its receipt of the Sync and its sending of the Delay_Req. -/
structure PtpStamps where
  sync : Int
  delayReq : Int
  deriving DecidableEq, Repr

/-- What a 1 ms window of the front end has come to beside its levels: the samples out of range, and the IQ estimates that tracking has reached, gain in 0.001 dB and
phase in 0.001° (R77, R80). -/
structure FrontWindow where
  count : Nat
  gainX : Int
  phaseX : Int
  gainY : Int
  phaseY : Int
  deriving DecidableEq, Repr

/-- The frequency offset that an engine's carrier loop has estimated, in 0.1 MHz (R115). -/
structure FreqEstimate where
  engine : Fin 8
  offset : Int
  deriving DecidableEq, Repr

/-- The phase at which an engine's running alignment search has passed; none, where a phase carried over HOLD is confirmed (R151). -/
structure PhaseFound where
  engine : Fin 8
  phase : Option Nat
  deriving DecidableEq, Repr

/-- The levels of SYNC and INFO that a relay lane has received at two positions exactly 71,680 symbols apart (R396). -/
structure LaneHeads where
  lane : Fin 4
  first : List Nat
  second : List Nat
  deriving DecidableEq, Repr

/-- A latch register of an event group (R424, R455): GRP_LATCH[g] of page 0x021, or EV_LATCH of a page's header. -/
inductive LatchRef where
  | group (g : Fin 32)
  | header (page : BitVec 12)
  deriving DecidableEq, Repr

/-- An access to the shared-memory window (R429): a read of some bytes, with whether memory integrity marked them as poisoned, or a write. -/
inductive WinAccess where
  | read (off : BitVec 30) (count : BitVec 13) (poisoned : Bool)
  | write (off : BitVec 30) (bytes : List Byte)
  deriving DecidableEq, Repr

/-- The table windows, by block: pages 0x091, 0x0A1, 0x240, 0x280, 0x291, 0x301, 0x341, 0x380, 0x030 and 0x0B1 (R562). -/
inductive TblWindow where
  | sidereal | drone | course | parallax | cipher | parse | sched | relay | perf | collim
  deriving DecidableEq, Repr

/-- A link of the chain as the head finds it (R409, R410): the KEY_ID and the relay port of the device at either end. -/
structure ChainLink where
  keyA : BitVec 64
  portA : Fin 4
  keyB : BitVec 64
  portB : Fin 4
  deriving DecidableEq, Repr

/-- A JTAG instruction (R533): those of IEEE 1149.1 that work in every state, and those that reach the scan chains and the test engine. -/
inductive JtagInstr where
  | bypass | idcode | samplePreload | extest | scan | testEngine
  deriving DecidableEq, Repr

/-- What the test of a BIST block has come to: whether it reached its target, whether its signature or march was right, the patterns reached, and the first
failing address and bit (R505). -/
structure BlockOutcome where
  block : Fin 76
  complete : Bool
  ok : Bool
  patterns : Word
  addr : Word
  bit : BitVec 7
  deriving DecidableEq, Repr

/-- What a start-up step has come to (Table 17.4): whether BOOT_EPOCH could be read and stored (step 2); the blocks' tests and the spare SRAM rows in use (step 3); the HBM
channels whose training fails, bit 16s + c, and the repair candidates that find no spare row (step 4); and the stored Collimation copies that read back wrong, by
2 × record + copy (step 5). -/
structure StepResult where
  stored : Bool
  blocks : List BlockOutcome
  failed : BitVec 64
  noSpare : List Nat
  badCopies : List Nat
  spares : Nat
  deriving DecidableEq, Repr


/-- The commands of the block: one constructor per row of the table of operations and events. -/
inductive Instr where
  /-- REGISTER_WRITE (R20): A host or relay write to a register field that has no row of its own takes effect in the block's domain, with reserved-bit, access-code and refusal handling. -/
  | registerWrite (page off : BitVec 12) (v : Word)
  /-- PERST_N_RELEASE (R476): The rising edge of PERST_N samples the straps and moves the device from FINDER_ONLY to STARTING, quick or cold. -/
  | perstNRelease (large head : Bool)
  /-- PERST_N_ASSERT (R63): Assertion of PERST_N takes the device to FINDER_ONLY after lit engines complete a fast ramp-down, keeping the thermal shed request. -/
  | perstNAssert
  /-- XQ_OVERFLOW (R19): A clock fault overflows or underflows a dual-clock queue, setting its flag, raising E-00.16 and failing the path it serves. -/
  | xqOverflow (q : Fin 220)
  /-- XQ_HWM_CLEAR (R9): A write of XQ.HWM_CLEAR.ALL sets every HWM field to its queue's current fill. -/
  | xqHwmClear (v : Word)
  /-- SHED_REQ_HOST_WRITE (R33): A host write of SHED.REQ_HOST forces the written shed steps. -/
  | shedReqHostWrite (v : Word)
  /-- PARSE_BE_SHARE_STEP (R31): Every 10 ms under shed step 4, or after its release, the best-effort parse share moves by 1/16 toward its floor or toward 16/16. -/
  | parseBeShareStep
  /-- TX_ENABLE_WRITE (R60): A write of TX_CTRL.ENABLE = 1 starts PREP from DARK, reverses a normal ramp-down, or is refused while a TX_FAULT bit is set. -/
  | txEnableWrite (n : Fin 8)
  /-- TX_DISABLE_WRITE (R60): A write of TX_CTRL.ENABLE = 0 ends PREP in DARK or starts a normal ramp-down. -/
  | txDisableWrite (n : Fin 8)
  /-- TX_FAULT_CLEAR (R61): A W1C write clears TX_FAULT bits, except those that persist until power cycle or start-up. -/
  | txFaultClear (n : Fin 8) (v : Word)
  /-- PREP_COMPLETE (R60): Transmit PLL locked, coefficients loaded and pipeline full move the engine from PREP to RAMP_UP. -/
  | prepComplete (n : Fin 8)
  /-- PREP_TIMEOUT (R60): 50 ms in PREP ends it in DARK with FAULT.PREP_TIMEOUT. -/
  | prepTimeout (n : Fin 8)
  /-- TX_PLL_UNLOCK (R62): Transmit PLL loss of lock mutes the engine under analog fade, or ends PREP in DARK, with FAULT.PLL_UNLOCK. -/
  | txPllUnlock (n : Fin 8)
  /-- MUTE_FADE_COMPLETE (R62): The analog fade completes 1–2 ms after MUTED entry and the engine goes DARK. -/
  | muteFadeComplete (n : Fin 8)
  /-- RAMP_UP_COMPLETE (R57): The ramp reaches p = 1 and the engine becomes LIT. -/
  | rampUpComplete (n : Fin 8)
  /-- RAMP_DOWN_COMPLETE (R60): The ramp reaches p = 0 and the engine goes to DARK, or to PREP with new settings when a relight is pending. -/
  | rampDownComplete (n : Fin 8)
  /-- CLIP_WINDOW_END (R56): At the end of each 1 ms window E-1n.03 is raised if clipped samples exceeded the threshold. -/
  | clipWindowEnd (n : Fin 8) (clipped : Nat)
  /-- TX_CLIP_CLEAR (R56): A write of TX_CLIP_THR.CLEAR sets TX_CLIP_CNT to 0. -/
  | txClipClear (n : Fin 8) (threshold : BitVec 16)
  /-- TX_PD_DATA_WRITE (R53): A write of TX_PD_DATA stores a shadow-bank coefficient at INDEX and advances INDEX. -/
  | txPdDataWrite (n : Fin 8) (v : Word)
  /-- BOUNDARY_APPLY (R428): At a field's named boundary (frame, multiframe, codeword, pilot, block or tick) committed values take effect. -/
  | boundaryApply (page : BitVec 12) (bnd : Machine.Boundary)
  /-- COMMIT_PENDING_END (R428): A PENDING page returns to OPEN when all values are in force or 2 ms have passed. -/
  | commitPendingEnd (page : BitVec 12)
  /-- RX_ENABLE_WRITE (R75): A write of RX_CTRL.ENABLE = 1 reads the front-end data, fixes W and D_head and starts the sampling PLL if ADC calibration is valid. -/
  | rxEnableWrite (n : Fin 8)
  /-- RX_DISABLE_WRITE (R125): A write of RX_CTRL.ENABLE = 0 stops the receive front and sends acquisition to IDLE. -/
  | rxDisableWrite (n : Fin 8)
  /-- SAMP_PLL_LOCK (R75): The sampling PLL locks, PLL_LOCK rises, E-1n.08 is raised and acquisition moves to WAIT_SIGNAL. -/
  | sampPllLock (n : Fin 8)
  /-- SAMP_PLL_LOCK_TIMEOUT (R75): The PLL not locked 10 ms after start raises E-1n.08 once and retries lock every 10 ms. -/
  | sampPllLockTimeout (n : Fin 8)
  /-- SAMP_PLL_UNLOCK (R76): Loss of sampling PLL lock stops samples, sends acquisition to WAIT_SAMPLES and affects courses as an internal fault. -/
  | sampPllUnlock (n : Fin 8)
  /-- OVR_WINDOW_END (R77): At the end of each 1 ms window E-1n.13 is raised if overrange samples exceeded the threshold. -/
  | ovrWindowEnd (n : Fin 8) (window : FrontWindow) (rms0 rms1 rms2 rms3 : Byte)
  /-- RX_OVR_CLEAR (R77): A write of RX_OVR_THR.CLEAR sets RX_OVR_CNT to 0. -/
  | rxOvrClear (n : Fin 8) (v : Word)
  /-- TR_LOCK_SET (R83): Timing-recovery phase error within ±1/16 symbol for 10 µs sets TR_LOCK and moves TIMING to EQ_CONVERGE. -/
  | trLockSet (n : Fin 8) (freq : Found)
  /-- TR_LOCK_CLEAR (R83): Phase error outside ±1/4 symbol for 2 µs clears TR_LOCK and loses lock with cause 10. -/
  | trLockClear (n : Fin 8)
  /-- TR_HOLD_ENTER (R84): Detector gain below 10 % holds the loop increments and sets TR_HOLD. -/
  | trHoldEnter (n : Fin 8)
  /-- TR_HOLD_RESUME (R84): Detector gain recovering within 100 µs resumes the loop from the held values. -/
  | trHoldResume (n : Fin 8)
  /-- TR_HOLD_TIMEOUT (R84): A hold lasting 100 µs clears TR_LOCK. -/
  | trHoldTimeout (n : Fin 8)
  /-- CAP_FIRE (R93): A write of CAP_TRIG.FIRE with SOURCE 0 triggers capture on armed engines at TIME plus 1 µs. -/
  | capFire (v : Word)
  /-- CAP_EVENT_TRIGGER (R93): A rising raw pulse of the selected event triggers capture with SOURCE 1. -/
  | capEventTrigger
  /-- CAP_TENABLE_WRITE (R93): A write of TENABLE = 1 extends the trigger seconds to 48 bits and arms the time trigger, or is refused if under 1 µs ahead. -/
  | capTenableWrite (v : Word)
  /-- CAP_TIME_TRIGGER (R93): TIME reaching the programmed trigger time triggers capture with SOURCE 2 and clears TENABLE. -/
  | capTimeTrigger
  /-- CAP_ARM (R94): A write of RX_CAP_CTRL.ARM arms the engine for the next trigger. -/
  | capArm (n : Fin 8) (v : Word)
  /-- CAP_DISARM (R97): A write of DISARM disarms the engine, truncates a run in progress and clears MISSED. -/
  | capDisarm (n : Fin 8) (v : Word)
  /-- CAP_START (R93): At the first sample instant at or after T_s each triggered engine starts its capture. -/
  | capStart (n : Fin 8) (late : Nat)
  /-- CAP_SNAPSHOT_COMPLETE (R92): A snapshot's sample instants are all staged and its drain to HBM begins. -/
  | capSnapshotComplete (n : Fin 8) (samples : List Byte) (overrange : Found)
  /-- CAP_DECIM_RECORD_END (R92): A decimated run completes a record of 1,048,576 sample instants. -/
  | capDecimRecordEnd (n : Fin 8) (samples : List Byte) (overrange : Found) (next : Nat)
  /-- CAP_DRAIN_COMPLETE (R96): A record finishes draining to HBM with its header and CRC, raising E-1n.14. -/
  | capDrainComplete (n : Fin 8) (poisoned : Bool)
  /-- SIGNAL_PRESENT (R121): RMS level above threshold in 10 consecutive 1 µs windows declares signal present. -/
  | signalPresent (n : Fin 8)
  /-- SIGNAL_LOS (R121): RMS level below threshold in 4 consecutive windows declares LOS, sending LOCKED to HOLD or an acquiring state to BACKOFF. -/
  | signalLos (n : Fin 8)
  /-- FREQ_SEARCH_DONE (R115): FREQ_SEARCH finds Δf within ±5.2 GHz and moves to CD_SEARCH or TIMING, or to BACKOFF beyond it. -/
  | freqSearchDone (n : Fin 8) (offset : Int)
  /-- ACQ_STATE_LIMIT (R125): An acquisition state reaching its time limit ends the attempt in BACKOFF with its cause. -/
  | acqStateLimit (n : Fin 8)
  /-- CD_SEARCH_DONE (R123): The dispersion sweep ends with a D found and applied, or without one to BACKOFF cause 2. -/
  | cdSearchDone (n : Fin 8) (found : Option Int)
  /-- EQ_CONVERGED (R108): ESNR above 3 dB and stable for 20 µs sets CONVERGED and moves to PILOT_SYNC. -/
  | eqConverged (n : Fin 8) (esnr : BitVec 16)
  /-- PILOT_SYNC_DONE (R113): The pilot seed search ends in order, swapped, or mismatched with E-1n.22 and BACKOFF cause 6. -/
  | pilotSyncDone (n : Fin 8) (s0 s1 : BitVec 15)
  /-- CARRIER_LOCKED (R125): Phase lock with 4 windows within PILOT_LOSS moves CARRIER_LOCK or FAST_REACQ to LOCKED, writes ACQ_TIME and raises E-1n.16. -/
  | carrierLocked (n : Fin 8)
  /-- EQ_DEGENERACY (R107): Output correlation above 0.9 over 2 µs re-initialises yy and yx and sends a LOCKED engine to EQ_CONVERGE. -/
  | eqDegeneracy (n : Fin 8)
  /-- PILOT_LOSS (R114): Errored pilot fraction above threshold in 4 windows loses lock with cause 12 to PILOT_SYNC. -/
  | pilotLoss (n : Fin 8) (frac : Byte)
  /-- FREQ_OUT_OF_RANGE (R115): Δf leaving ±5.2 GHz while LOCKED loses lock with cause 13 to FREQ_SEARCH. -/
  | freqOutOfRange (e : FreqEstimate)
  /-- HOLD_EXPIRED (R125): ACQ_HOLD.TIME_US elapsing in HOLD ends in BACKOFF with cause 8. -/
  | holdExpired (n : Fin 8)
  /-- BACKOFF_EXPIRED (R125): 1 ms in BACKOFF returns to WAIT_SIGNAL, or enters FAILED when tries are exhausted. -/
  | backoffExpired (n : Fin 8)
  /-- ACQ_RETRY (R126): A write of ACQ_CTRL.RETRY leaves FAILED for WAIT_SIGNAL, or is counted in another state. -/
  | acqRetry (n : Fin 8) (v : Word)
  /-- ACQ_CNT_CLR (R126): A write of ACQ_CTRL.CNT_CLR sets ACQ_FAIL_CNT to 0. -/
  | acqCntClr (n : Fin 8) (v : Word)
  /-- EQ_RESET (R106): A write of EQ_CTRL.RESET resets the taps and degeneracy count and sends a LOCKED engine to EQ_CONVERGE. -/
  | eqReset (n : Fin 8) (v : Word)
  /-- TAP_CENTROID_SHIFT (R103): A centroid more than 0.5 tap off-centre for 10 µs shifts the taps and the timing phase at the next pilot boundary. -/
  | tapCentroidShift (n : Fin 8)
  /-- DFE_AUTO_SWITCH (R111): ESNR crossing S_min switches the decision-feedback stage off or on at a pilot boundary. -/
  | dfeAutoSwitch (n : Fin 8) (esnr : BitVec 16)
  /-- CYCLE_SLIP (R117): Blind and pilot phase differing by a multiple of π/2 in two windows corrects the phase and counts a slip. -/
  | cycleSlip (n : Fin 8)
  /-- SLIP_WINDOW_END (R117): At the end of each 1 ms window E-1n.20 is raised if slips exceeded the threshold. -/
  | slipWindowEnd (n : Fin 8) (slips : Found)
  /-- CR_SLIP_CLEAR (R117): A write of CR_SLIP_THR.CLEAR sets CR_SLIP_CNT to 0. -/
  | crSlipClear (n : Fin 8) (v : Word)
  /-- TWIN_AID_FALLBACK (R120): Partner leaving LOCKED or a failed aid condition falls back to own pilots within one window and raises E-1n.23. -/
  | twinAidFallback (n : Fin 8)
  /-- TWIN_AID_RESUME (R120): The twin phase aid resumes once its conditions have held for 100 µs. -/
  | twinAidResume (n : Fin 8) (skew : Int)
  /-- LINE_ARRIVAL_STEP (R563): A step in signal arrival time is taken by timing recovery, pilot loss or chord alignment loss depending on its size. -/
  | lineArrivalStep (n : Fin 8) (withinQuarter : Bool) (symbols : Nat)
  /-- OPM_WINDOW_END (R127): An estimate window ends, publishing estimates and window BER results or clearing VALID, and incrementing OPM_SEQ. -/
  | opmWindowEnd (n : Fin 8) (esnr : BitVec 16) (residual : Int) (dgdMean dgdPeak sopMean sopPeak : BitVec 16)
  /-- CODEWORD_DECODE (R141): An inner codeword is decoded by layered min-sum up to ITER_EFF iterations and its counters updated. -/
  | codewordDecode (n : Fin 8) (w : Fin 4) (group : List SoftBit) (blocks : List (List Int))
  /-- STAIRCASE_BLOCK_VERDICT (R147): A staircase block leaves the decoder at its fixed instant with verdict CLEAN, CORRECTED or FAILED. -/
  | staircaseBlockVerdict (n : Fin 8) (changed nonzero : Found)
  /-- ITER_EFF_STEP (R145): Every 10 ms, or at the codeword boundary after a trigger, ITER_EFF moves by 2 toward its floor or maximum, raising E-1n.28. -/
  | iterEffStep (n : Fin 8)
  /-- ALIGN_PHASE_CONFIRMED (R152): A matcher, codeword or staircase phase is confirmed and alignment moves on, reaching ALIGNED with E-1n.30. -/
  | alignPhaseConfirmed (f : PhaseFound)
  /-- ALIGN_SEARCH_LIMIT (R152): An alignment search reaching its limit, or twin walk-off beyond ±1 µs, enters RETRY_WAIT with its cause. -/
  | alignSearchLimit (n : Fin 8) (walkOff : Bool)
  /-- ALIGN_LOSS (R152): Unsatisfied-check fraction at least 0.48 over 256 codewords leaves ALIGNED with cause 5. -/
  | alignLoss (n : Fin 8)
  /-- ALIGN_RETRY_EXPIRED (R152): 100 µs in RETRY_WAIT restarts the alignment search. -/
  | alignRetryExpired (n : Fin 8)
  /-- ALIGN_FAIL_CLEAR (R153): A write of ALIGN_TIME.CLEAR sets ALIGN_FAIL_CNT to 0. -/
  | alignFailClear (n : Fin 8)
  /-- FEC_SNAP_TAKE (R154): A write of FEC_SNAP.TAKE copies all chord counters at one codeword boundary, clearing after the copy when CLEAR is also set. -/
  | fecSnapTake (n : Fin 8) (clear : Bool)
  /-- FEC_SNAP_CLEAR (R154): A write of FEC_SNAP.CLEAR alone zeroes the running counters and keeps the copy. -/
  | fecSnapClear (n : Fin 8)
  /-- FRAME_TICK (R161): At each 1.28 µs PACE tick every engine and relay lane starts a frame, filling, encrypting and sending each course frame with its overhead. -/
  | frameTick (fails : List (Fin 512))
  /-- RX_FRAME (R163): A line frame received in ALIGNED has its column overheads checked and its blocks passed to course extraction. -/
  | rxFrame (n : Fin 8) (mfas columns : Found) (arrived seen : Nat) (front back : Found)
  /-- COURSE_FRAME_REBUILD (R170): Once every member has delivered serial s the course frame is rebuilt, given a verdict, checked and delivered, withheld or passed to protection. -/
  | courseFrameRebuild (c : Fin 512) (serial : BitVec 48) (arrived : Nat) (checkFail : CheckAt) (poison : Bool)
  /-- SKEW_MAX_EXPIRED (R172): The latest member not arriving SKEW_MAX_US after the earliest discards the frame, declaring LOA after 8. -/
  | skewMaxExpired (c : Fin 512) (serial : BitVec 48)
  /-- FR_CANDIDATE_PASS (R180): A bit position passes the header test in all columns and is tracked as a candidate. -/
  | frCandidatePass (n : Fin 8) (pos : Nat) (mfas : Found)
  /-- FR_CANDIDATE_CONFIRM (R182): A candidate passing at p, p+F and p+2F is confirmed, reaching ALIGNED or AMBIGUOUS. -/
  | frCandidateConfirm (n : Fin 8) (pos : Nat)
  /-- FR_CANDIDATE_FAIL (R182): Every tracked candidate failing returns alignment to SEARCH. -/
  | frCandidateFail (n : Fin 8) (pos : Nat)
  /-- FR_AMBIG_RESOLVE (R182): After 64 further frames AMBIGUOUS ends in ALIGNED or SEARCH. -/
  | frAmbigResolve (n : Fin 8)
  /-- FR_HEADER_MISS_OOF (R182): Five consecutive header misses in ALIGNED enter OOF. -/
  | frHeaderMissOof (n : Fin 8)
  /-- FR_OOF_RECOVER (R182): Two good frames at the old position, or a new confirmed position, return OOF to ALIGNED. -/
  | frOofRecover (n : Fin 8)
  /-- LOF_DECLARE (R184): OOF lasting 3 ms declares LOF. -/
  | lofDeclare (n : Fin 8)
  /-- LOF_CLEAR (R184): ALIGNED lasting 3 ms clears LOF. -/
  | lofClear (n : Fin 8)
  /-- TBL_OP_READ (R562): A TBL_OP READ copies the selected entry of a table window to TBL_DATA and advances an auto-increment index. -/
  | tblOpRead (w : TblWindow) (v : Word)
  /-- TBL_OP_WRITE (R562): A TBL_OP WRITE copies TBL_DATA to the entry or its shadow under the table's own rules. -/
  | tblOpWrite (w : TblWindow) (v : Word) (collided : Bool)
  /-- PARALLAX_DECISION (R207): At D(s) the slot is read and the frame chosen or withheld, and path contribution and pair state updated. -/
  | parallaxDecision (p : BitVec 8) (instant : Found) (poison : Option MemRef)
  /-- PARALLAX_RELEASE (R201): At R(s) the chosen course frame is released to decryption. -/
  | parallaxRelease (p : BitVec 8) (checkFail : Bool)
  /-- PARALLAX_ACQUIRE_END (R208): ACQUIRE ends in MERGED when both paths deliver a serial, or SINGLE after BUDGET_FR + 4 frames with one. -/
  | parallaxAcquireEnd (p : BitVec 8)
  /-- PARALLAX_LOST_TIMEOUT (R208): 1 s in LOST without a valid copy drops the grid and returns to ACQUIRE. -/
  | parallaxLostTimeout (p : BitVec 8)
  /-- PROT_HOLDOFF_EXPIRED (R214): A local SF or SD lasting HOLDOFF × 100 ms becomes a request. -/
  | protHoldoffExpired (p : BitVec 8)
  /-- SELECTOR_MOVE (R219): The 1+1 selector moves at a course frame boundary to the course of the highest request, never repeating a serial. -/
  | selectorMove (p : BitVec 8)
  /-- WTR_EXPIRED (R216): WTR_S seconds after SF and SD clear on A, WTR ends in NR with E-20.11. -/
  | wtrExpired (p : BitVec 8)
  /-- CMD_LO (R220): Command LO locks out protection at the pair's next frame boundary. -/
  | cmdLo (p : BitVec 8)
  /-- CMD_FS (R220): Command FS forces the switch to B at the next frame boundary. -/
  | cmdFs (p : BitVec 8)
  /-- CMD_MS (R220): Command MS manually switches to B, refused in Parallax mode or with SF or SD present. -/
  | cmdMs (p : BitVec 8)
  /-- CMD_MS_W (R220): Command MS-W manually switches to A, refused in Parallax mode or with SF or SD present. -/
  | cmdMsW (p : BitVec 8)
  /-- CMD_CLEAR (R220): Command CLEAR ends LO, FS, MS and MS-W. -/
  | cmdClear (p : BitVec 8)
  /-- CMD_REGRID (R220): Command REGRID drops the grid and sends a Parallax pair to ACQUIRE, refused in 1+1 mode. -/
  | cmdRegrid (p : BitVec 8)
  /-- CMD_ZERO_PSTAT (R220): Command 7 zeroes the pair's PSTAT counters. -/
  | cmdZeroPstat (p : BitVec 8)
  /-- CLIENT_FRAME_RECEIVE (R229): A client frame received by the MAC is checked, pre-classified, policed and placed in its group's inlet or dropped. -/
  | clientFrameReceive (p : Fin 64) (frame : List Byte)
  /-- CLIENT_LINK_CHANGE (R230): A change of PCS alignment, hi_ser or fault changes LINK_UP and fault signalling and raises the lane event. -/
  | clientLinkChange (p : Fin 64) (aligned hiSer localFault remoteFault : Bool)
  /-- CLIENT_ERR_WINDOW_END (R256): At the end of each 1 ms window the lane error event is raised if errors exceeded ERR_THR. -/
  | clientErrWindowEnd (p : Fin 64) (corrected uncorrectable symbols : Nat)
  /-- PARSE_START (R240): A free thread takes the oldest inlet packet, reserved first, once its first 256 bytes have arrived. -/
  | parseStart (g : Fin 16)
  /-- LOOKUP_RESULT (R245): An exact or wildcard lookup result arrives 40 or 24 cycles after issue and the thread becomes ready. -/
  | lookupResult (g : Fin 16) (n : Fin 64) (profile key : Found) (code : List ParseInsn) (poison : Bool)
  /-- PARSE_PASS_END (R248): A pass ends with its result, edit program and possible second pass, passing the packet to flow, drop or punt. -/
  | parsePassEnd (g : Fin 16) (n : Fin 64) (cycles layers deep frag len result : Found) (code : List ParseInsn) (poison : Bool)
  /-- REORDER_RELEASE (R241): A port's packets of one class leave the reorder stage in sequence, tombstones releasing their numbers. -/
  | reorderRelease (p : Fin 64) (reserved poison : Bool)
  /-- UCODE_LOAD (R255): A write of UCODE_CTRL.LOAD clears the bank's VALID and starts loading an image from the window. -/
  | ucodeLoad (v : Word)
  /-- UCODE_LOAD_COMPLETE (R255): A microcode load ends with the image verified and VALID set, or VERIFY_FAIL, raising E-26.14. -/
  | ucodeLoadComplete
  /-- BULK_LOAD_GO (R254): A write of LOAD_CTRL.GO starts applying bulk records to a parse table. -/
  | bulkLoadGo (v : Word)
  /-- BULK_LOAD_RECORD (R254): One bulk-load record is applied under the table write rules, stopping the load on refusal. -/
  | bulkLoadRecord
  /-- BULK_LOAD_COMPLETE (R254): A bulk load ends complete with E-26.12 or stopped on error with E-26.13. -/
  | bulkLoadComplete
  /-- CNT_SNAP_TAKE (R562): A write of CNT_SNAP.TAKE copies all counters of the page at one instant, clearing after the copy when CLEAR is also set. -/
  | cntSnapTake (page : BitVec 12) (v : Word)
  /-- CNT_SNAP_CLEAR (R562): A write of CNT_SNAP.CLEAR alone zeroes the running counters and keeps the copy. -/
  | cntSnapClear (page : BitVec 12) (v : Word)
  /-- ADMIT (R265): A GO with OP 1 runs the admission checks on ADM_DATA, refusing with a cause or accepting for the next frame boundary. -/
  | flowAdmit (v : Word)
  /-- ADMIT_APPLY (R265): At the first course frame boundary after acceptance the flow context, quota and PRECLASS entry are written. -/
  | admitApply
  /-- REMOVE (R266): A GO with OP 2 invalidates the PRECLASS entry and sets the flow DRAINING. -/
  | remove (v : Word)
  /-- REMOVE_COMPLETE (R266): Once the flow's queued packets have left the quota is freed and the context cleared. -/
  | removeComplete
  /-- ZERO_FLOW_COUNTERS (R266): A GO with OP 3 zeroes the flow's counters. -/
  | zeroFlowCounters (v : Word)
  /-- EGRESS_PACKET_ARRIVE (R272): A packet reaching the egress stage is dropped, queued, or held for its DET release instant. -/
  | egressPacketArrive
  /-- DET_RELEASE (R272): At T_rel a held DET packet is released to its port. -/
  | detRelease (p : Fin 64)
  /-- EGRESS_PORT_SERVE (R271): A free egress port starts the next packet: DET at release, then BOUNDED, then best effort. -/
  | egressPortServe (p : Fin 64) (delta : Fin 201) (poison : Bool)
  /-- KEY_LOAD (R285): KEY_CTRL.LOAD moves the staged key into the slot as READY with a KCV, or is refused while in service. -/
  | keyLoad (v : Word)
  /-- KEY_ERASE (R285): KEY_CTRL.ERASE sets the slot to EMPTY, or is refused while in service. -/
  | keyErase (v : Word)
  /-- KEY_ZEROISE (R287): KEY_CTRL.ZEROISE clears the slot within 1 µs and stops its users. -/
  | keyZeroise (v : Word)
  /-- KEY_ZEROISE_ALL (R287): KEY_CTRL.ZEROISE_ALL zeroises every key slot. -/
  | keyZeroiseAll (v : Word)
  /-- REKEY (R293): A write of REKEY.GO triggers a key switch, or is refused when the other slot is not READY. -/
  | rekey (v : Word)
  /-- REQ_TAIL_WRITE (R431): A write of REQ_TAIL advances the host producer index of the request ring. -/
  | reqTailWrite (v : Word)
  /-- REQ_TAKE (R296): The request engine takes the next Drone or host request whose OWN is set and starts it. -/
  | reqTake
  /-- RING_OWN_TIMEOUT (R431): An entry covered by the tail still reading OWN = 0 after 1 µs halts the ring with E-03.11. -/
  | ringOwnTimeout
  /-- REQ_COMPLETE (R298): A request completes with its status, zeroing output on failure and clearing OWN. -/
  | reqComplete (poisoned checkFail : Bool)
  /-- DRONE_SEND (R310): A write of DR_TX_CTRL.SEND queues the host message, or is ignored while busy or over length. -/
  | droneSend (n : Fin 8) (v : Word)
  /-- BEACON_DUE (R321): The beacon interval with random extension elapses and a beacon is due. -/
  | beaconDue (n : Fin 8)
  /-- DRONE_BURST_START (R309): With the engine LIT and EN set a due beacon or message starts its burst. -/
  | droneBurstStart (n : Fin 8)
  /-- DRONE_BURST_COMPLETE (R308): A burst finishes its ramp-down and completes with E-08.09. -/
  | droneBurstComplete (n : Fin 8)
  /-- DRONE_BURST_CUT (R309): A burst is cut when the engine enters DARK or MUTED or EN becomes 0, with E-08.10. -/
  | droneBurstCut (n : Fin 8)
  /-- DRONE_DETECT (R313): Despread power above threshold in 2 windows declares a detection assigned to a finger under R314. -/
  | droneDetect (path : Fin 16) (entry : Fin 8) (power freq : Int) (known : Bool)
  /-- AFC_FREEZE (R315): 16 symbols after detection the finger's AFC freezes and phase tracking starts. -/
  | afcFreeze (path : Fin 16) (finger : Fin 4)
  /-- FINGER_SYNC_FOUND (R316): The sync word found moves the finger to BODY and stamps the sync time. -/
  | fingerSyncFound (path : Fin 16) (finger : Fin 4) (symbols : Word)
  /-- FINGER_ACQ_TIMEOUT (R316): 64 symbols without sync free the finger as a false detection. -/
  | fingerAcqTimeout (path : Fin 16) (finger : Fin 4)
  /-- FINGER_HEADER_DECODED (R316): The decoded header with bad HCRC or length frees the finger with HDR_ERR. -/
  | fingerHeaderDecoded (path : Fin 16) (finger : Fin 4) (header : List Byte)
  /-- FINGER_BODY_END (R317): The body ends and the burst is delivered by TYPE or counted as a CRC error. -/
  | fingerBodyEnd (path : Fin 16) (finger : Fin 4) (payload : List Byte) (crc : Word)
  /-- DRONE_FALSE_WINDOW_END (R316): Each second E-08.04 is raised if false detections on a path exceeded FALSE_PER_S. -/
  | droneFalseWindowEnd (path : Fin 16)
  /-- BEACON_VERIFY (R322): The Finder verifies a queued beacon's signature, fields and counter and updates the neighbour table. -/
  | beaconVerify
  /-- NBR_AGE_EXPIRED (R323): A neighbour entry not refreshed for AGE_S is removed with E-08.01. -/
  | nbrAgeExpired (e : Fin 128)
  /-- EXP_MISSING_TIMEOUT (R324): No entry holding the expected KEY_ID for AGE_S sets EXP_MISSING with E-08.03. -/
  | expMissingTimeout (n : Fin 8)
  /-- REF_MONITOR_UPDATE (R332): Every second the reference monitors update, qualifying or disqualifying references and reselecting. -/
  | refMonitorUpdate (tref : BitVec 4) (offsets : List Int) (freq : Found) (phase : Int)
  /-- REF_ACTIVITY_LOSS (R332): No edge within 2.5 nominal periods fails a reference's activity monitor. -/
  | refActivityLoss (r : Fin 17)
  /-- REF_AGREE_UPDATE (R335): Every second pairs of equal rank update agreement and DISSENT or DISAGREE marks. -/
  | refAgreeUpdate
  /-- ESMC_PDU_RECEIVE (R334): An ESMC PDU on the reference's queue sets its QL_EFF. -/
  | esmcPduReceive (r : Fin 17) (pdu : List Byte)
  /-- ESMC_TIMEOUT (R334): 5 s without a PDU sets QL_EFF to DNU. -/
  | esmcTimeout (r : Fin 17)
  /-- DPLL_LOCK_ACHIEVED (R341): The lock criterion held for LOCK_S moves the DPLL from ACQUIRE to LOCKED. -/
  | dpllLockAchieved
  /-- DPLL_LOCK_LOST (R342): Phase error or time offset out of tolerance for 1 s returns the DPLL to ACQUIRE. -/
  | dpllLockLost
  /-- HIST_VALID_SET (R343): LOCKED without break for HIST_MIN_S sets HIST_VALID. -/
  | histValidSet
  /-- HOLDOVER_EXPIRE (R342): The holdover timer reaching LIMIT_S enters HOLDOVER_EXPIRED. -/
  | holdoverExpire
  /-- XO_CHECK (R345): Every second XO_IN is compared with FXTAL and XO_STAT.FAIL set beyond ±20 ppm. -/
  | xoCheck (ppb : Int)
  /-- XO_IN_LOSS (R345): Loss of XO_IN stops the hub clocks and loses the device. -/
  | xoInLoss
  /-- TIME_SNAP (R346): TIME_CMD.SNAP latches TIME and the Finder FTIME. -/
  | timeSnap
  /-- TIME_SET (R346): TIME_CMD.SET loads TIME_SET into TIME, moving PACE only under R329. -/
  | timeSet
  /-- TIME_STEP (R346): TIME_CMD.STEP adds TIME_ADJ at once, or is refused when PACE_OFFSET would overflow. -/
  | timeStep
  /-- TIME_SLEW (R346): TIME_CMD.SLEW starts adding TIME_ADJ at MAX_PPB, replacing any slew under way. -/
  | timeSlew
  /-- TIME_SLEW_DONE (R328): The commanded slew amount has been added. -/
  | timeSlewDone
  /-- TIME_TOD (R346): TIME_CMD.TOD sets the seconds of the next 1PPS edge, refused unless SRC = 2. -/
  | timeTod
  /-- TIME_ALIGN (R353): TIME_CMD.ALIGN slews PACE at ALIGN_PPB to remove PACE_OFFSET. -/
  | timeAlign
  /-- TIME_ALIGN_JUMP (R353): TIME_CMD.ALIGN with ALIGN_JUMP jumps PACE at its next second, restarting transmit frames. -/
  | timeAlignJump
  /-- ALIGN_COMPLETE (R353): PACE_OFFSET reaches 0 and E-07.07 is raised. -/
  | alignComplete
  /-- PTP_EVENT_MESSAGE (R348): A PTP event message on the service queue updates the servo and TIME. -/
  | ptpEventMessage (servo : PtpServo) (sync follow resp : List Byte) (own : PtpStamps)
  /-- REF_RESET_SPAN (R333): REF_CMD.RESET_SPAN lets a reference requalify after a span failure. -/
  | refResetSpan (v : Word)
  /-- REF_RESET_DISSENT (R336): REF_CMD.RESET_DISSENT clears the reference's DISSENT mark. -/
  | refResetDissent (v : Word)
  /-- CAL_PIN_LOOP (R358): CAL_CTRL OP 1 measures the output and input pin delays through a loop cable. -/
  | calPinLoop (v : Word)
  /-- CAL_TX_MARK (R358): CAL_CTRL OP 2 sends the transmit mark each PACE second and stores TX_GD_ANALOG from TX_MARK_PS. -/
  | calTxMark (v : Word)
  /-- CAL_RX_LOOP (R358): CAL_CTRL OP 3 measures the receive loop and stores RX_GD_ANALOG. -/
  | calRxLoop (v : Word)
  /-- CAL_COMPLETE (R358): A commissioning operation ends DONE or FAIL with E-07.10. -/
  | calComplete (measured t : Int)
  /-- LCAL_FG_RUN (R363): A write of FG_RUN starts a foreground pass of each idle converter class, or is refused. -/
  | lcalFgRun (n : Fin 8) (v : Word)
  /-- LCAL_FG_COMPLETE (R364): A foreground pass completes, setting its valid bit, or fails with FG_CAUSE, with E-09.00. -/
  | lcalFgComplete (n : Fin 8) (dac : Bool) (cause : Fin 3) (lanes : List (Int × Int)) (values : List Int) (t : Int)
  /-- LCAL_BG_COMPLETE (R368): A background convergence pass completes and its result is applied, possibly setting DRIFT. -/
  | lcalBgComplete (n : Fin 8) (dac : Bool) (values : LineTracked) (drift : Bool) (t : Int)
  /-- LCAL_SYS_GO (R366): LCAL_SYS.GO starts a three-step system calibration of one class of one engine. -/
  | lcalSysGo (v : Word) (sums : List Int) (t : Int)
  /-- LCAL_SYS_STEP_DONE (R366): STEP_DONE ends the current step, averaging or driving its stimulus, and advances or finishes. -/
  | lcalSysStepDone (v : Word) (sums : List Int) (t : Int)
  /-- LCAL_SYS_TIMEOUT (R367): No STEP_DONE within 60 s fails the system calibration with cause 4. -/
  | lcalSysTimeout
  /-- HK_SCAN_START (R370): Both housekeeping converters start a scan at the same FINDER cycle. -/
  | hkScanStart
  /-- HK_SCAN_END (R371): At scan end the reference readings are compared, entries written and rails judged. -/
  | hkScanEnd (codes0 codes1 : List Nat)
  /-- HK_CAL_REQUEST (R374): A write of CAL0 or CAL1 starts a housekeeping calibration, one converter at a time. -/
  | hkCalRequest (v : Word)
  /-- HK_CAL_COMPLETE (R374): A housekeeping calibration ends with E-09.08. -/
  | hkCalComplete (ok : Bool) (offset gain t : Int)
  /-- HK_CLEAR_FAULT (R372): A write of HK_CTRL.CLEAR_FAULT releases latched converter faults. -/
  | hkClearFault (v : Word)
  /-- COL_STORE_DUE (R378): STORE_MIN_S after its last store a DIRTY record is stored. -/
  | colStoreDue (r : Fin 27)
  /-- COL_FLUSH (R378): A write of COL_STORE.FLUSH stores every DIRTY record. -/
  | colFlush (v : Word)
  /-- COL_STORE_COMPLETE (R376): A record store writes and verifies the older copy, raising E-09.01. -/
  | colStoreComplete (ok : Bool)
  /-- RERUN_CHECK (R380): A 1 s temperature mean beyond RERUN_DEG from T_RUN starts a re-run of the record. -/
  | rerunCheck (r : Fin 27) (t : Found)
  /-- TIMING_RERUN_COMPLETE (R381): A replica delay measurement completes and updates RUNS, LAST_S and T_RUN. -/
  | timingRerunComplete (r : Fin 27) (replicas : List Int) (t : Int)
  /-- LANE_LOS_DECLARE (R388): Receiver amplitude below LOS_MV for 1 µs declares lane LOS. -/
  | laneLosDeclare (x : Fin 80)
  /-- LANE_LOS_CLEAR (R388): Amplitude above LOS_MV + HYST_MV for 10 µs clears lane LOS. -/
  | laneLosClear (x : Fin 80)
  /-- LANE_LOL_DECLARE (R388): The CDR leaving lock declares lane LOL within 2 µs. -/
  | laneLolDeclare (x : Fin 80)
  /-- LANE_LOL_CLEAR (R388): 10 µs in lock clears lane LOL. -/
  | laneLolClear (x : Fin 80)
  /-- LANE_ADAPT_DONE (R387): Receiver adaptation converges and ADAPT_DONE sets. -/
  | laneAdaptDone (x : Fin 80)
  /-- LANE_TXEQ_WRITE (R387): A write of LANE_TXEQ sets the transmit FIR, or is ignored when the taps sum above 63. -/
  | laneTxeqWrite (x : Fin 80) (v : Word)
  /-- LANE_LP_ENTER (R389): A write of LANE_CTRL.LP = 1 puts the lane into deep low power. -/
  | laneLpEnter (x : Fin 80)
  /-- LANE_LP_EXIT (R389): A write of LP = 0 starts the exit from low power. -/
  | laneLpExit (x : Fin 80)
  /-- LANE_READY (R389): The low-power exit completes with CDR locked and READY set. -/
  | laneReady (x : Fin 80)
  /-- LANE_LOOPBACK_SET (R390): A write of LANE_CTRL.LB selects or removes a loopback within 1 µs. -/
  | laneLoopbackSet (x : Fin 80) (lb : BitVec 2)
  /-- RELAY_LANE_FRAME_RECEIVE (R391): A relay lane frame is received, destuffed, descrambled and its blocks, channel bytes and timing field used or forwarded. -/
  | relayLaneFrameReceive (p l : Fin 4) (levels : List Nat) (arr : Int) (seen : Nat)
  /-- RELAY_SYNC_FOUND (R396): SYNC with valid INFO at two positions one frame apart brings the lane into frame sync. -/
  | relaySyncFound (p : Fin 4) (heads : LaneHeads)
  /-- RELAY_SYNC_LOST (R396): Four bad lane frames lose sync, dropping LINK and TRANSIT_OK. -/
  | relaySyncLost (p l : Fin 4)
  /-- RELAY_ERR_WINDOW_END (R397): At the end of each 1 ms window E-28.16 is raised if block errors exceeded RL_ERR_THR. -/
  | relayErrWindowEnd (p : Fin 4)
  /-- DCH_SEGMENT_RECEIVE (R404): A data-channel segment is checked and forwarded, delivered or discarded. -/
  | dchSegmentReceive (p : Fin 4) (raw : List Byte)
  /-- MGMT_ACCESS (R405): A BAR0 access to a non-head position is sent as a management message along its route. -/
  | mgmtAccess (pos : BitVec 6) (read : Bool) (off : BitVec 24) (value : Word)
  /-- MGMT_REPLY (R405): The reply to a management access returns and completes the host access. -/
  | mgmtReply (pos : BitVec 6) (seq : Byte) (data : List Word)
  /-- MGMT_TIMEOUT (R405): No reply within MGMT_TMO completes a read with all ones, loses a write and raises E-28.20. -/
  | mgmtTimeout (pos : BitVec 6) (seq : Byte)
  /-- BULK_ACCESS (R406): A BAR2 access to a non-head device travels as a bulk message, refused for capture under shed step 1. -/
  | bulkAccess (pos : BitVec 6) (access : WinAccess) (seq : Byte)
  /-- NEIGHBOUR_SEGMENT_SEND (R409): Every 1 ms a neighbour segment is sent on each port with LINK. -/
  | neighbourSegmentSend
  /-- DISCOVERY_START (R410): 100 ms after the head's first port reaches LINK, position assignment starts. -/
  | discoveryStart
  /-- CHAIN_REDISCOVER (R410): A write of CHAIN_CTRL.REDISCOVER restarts position assignment on the head. -/
  | chainRediscover (v : Word)
  /-- POSITION_ASSIGN_COMPLETE (R410): Assignment completes, COUNT is set, E-28.18 raised and the completion message sent. -/
  | positionAssignComplete (links : List ChainLink)
  /-- FLEET_COMPLETION_MSG (R410): A non-head device receives the head's completion message with COUNT and fleet mode. -/
  | fleetCompletionMsg (p : Fin 4) (pos : BitVec 6) (large : Bool) (ring : List (Fin 4))
  /-- CHAIN_JOIN (R411): A device joining later receives its former or lowest free position with E-28.17. -/
  | chainJoin (key : BitVec 64) (links : List ChainLink)
  /-- CHAIN_DEPART (R411): A departed device's position is reserved and E-28.17 raised. -/
  | chainDepart (key : BitVec 64) (links : List ChainLink)
  /-- PRBS_GEN_ENABLE (R413): Setting GEN_EN sends the selected pattern in place of coded traffic. -/
  | prbsGenEnable (k : Fin 80) (v : Word)
  /-- PRBS_CHK_ENABLE (R414): Setting CHK_EN starts the checker seeding from received bits. -/
  | prbsChkEnable (k : Fin 80) (v : Word)
  /-- PRBS_CNT_CLR (R414): A write of CNT_CLR zeroes PRBS_ERR and PRBS_BITS. -/
  | prbsCntClr (k : Fin 80) (v : Word) (late : Nat)
  /-- PRBS_INJ_ONE (R415): A write of INJ_ONE inverts one generated bit, ignored without GEN_EN. -/
  | prbsInjOne (k : Fin 80) (v : Word)
  /-- PRBS_INJ_RATE (R415): A write of INJ_RATE sets periodic error injection, ignored without GEN_EN. -/
  | prbsInjRate (k : Fin 80) (v : Word)
  /-- PRBS_LOCK (R414): 256 consecutive error-free bits set LOCK. -/
  | prbsLock (k : Fin 80)
  /-- PRBS_LOCK_LOST (R414): 64 wrong bits in 256 drop LOCK, set LOCK_LOST, raise E-28.25 and reseed. -/
  | prbsLockLost (k : Fin 80) (bits errs : Nat)
  /-- PCIE_LINK_CHANGE (R418): PCIe link up, down, speed or width changes with E-03.06. -/
  | pcieLinkChange (change : PcieChange) (speed : Fin 5) (width : Fin 3)
  /-- PCIE_FUNCTION_RESET (R421): An FLR, hot reset or link down resets only the PCIe function. -/
  | pcieFunctionReset
  /-- PCIE_POISONED_WRITE (R422): A poisoned write TLP is discarded and counted with E-03.07. -/
  | pciePoisonedWrite
  /-- SHADOW_ARM (R561): SHADOW_CTL.ARM arms an OPEN page for a group commit. -/
  | shadowArm (page : BitVec 12) (v : Word)
  /-- SHADOW_COMMIT (R426): SHADOW_CTL.COMMIT checks the page against its chapter's rules and accepts it to PENDING or refuses it. -/
  | shadowCommit (page : BitVec 12) (v : Word)
  /-- SHADOW_DISARM (R561): SHADOW_CTL.DISARM returns an ARMED page to OPEN. -/
  | shadowDisarm (page : BitVec 12) (v : Word)
  /-- COMMIT_ALL (R427): COMMIT_ALL.GO commits every ARMED page as one group, all or none. -/
  | commitAll (v : Word)
  /-- SHADOW_DISCARD (R424): CTRL.DISCARD loads every shadow copy with its effective value on an OPEN page. -/
  | shadowDiscard (page : BitVec 12) (v : Word)
  /-- CLR_VIOL (R424): CTRL.CLR_VIOL zeroes the page's VIOLATION_COUNT. -/
  | clrViol (page : BitVec 12) (v : Word)
  /-- WIN_BASE_WRITE (R429): A write of WIN_BASE moves the shared-memory aperture for later BAR2 accesses. -/
  | winBaseWrite (v : Word)
  /-- BAR2_WINDOW_ACCESS (R429): A BAR2 access to this device's window reads or writes HBM under the aperture rules. -/
  | bar2WindowAccess (access : WinAccess)
  /-- QUEUE_ITEM_ARRIVE (R433): An item from a producer enters its service queue or is refused when it does not fit. -/
  | queueItemArrive (q : Fin 32) (poisoned : Bool) (bytes : List Byte)
  /-- Q_POP (R435): A read of Q_POP pops the highest-priority item into a landing slot, stalls, or returns a code. -/
  | qPop (q : Fin 32)
  /-- Q_POP_STALL_EXPIRE (R437): A stalled pop with no item by STALL_US completes with EMPTY. -/
  | qPopStallExpire (q : Fin 32)
  /-- Q_MARK (R436): Q_CTL.MARK records the next SEQ as the mark. -/
  | qMark (q : Fin 32) (v : Word)
  /-- Q_REWIND (R436): Q_CTL.REWIND returns held items from the mark to the waiting items. -/
  | qRewind (q : Fin 32) (v : Word)
  /-- Q_RELEASE (R436): Q_CTL.RELEASE frees held items up to SEQ and their space. -/
  | qRelease (q : Fin 32) (v : Word)
  /-- Q_PUSH (R439): Q_PUSH.GO starts copying bytes from the window into a queue. -/
  | qPush (v : Word)
  /-- Q_PUSH_COMPLETE (R439): A push completes with its result and E-03.04. -/
  | qPushComplete
  /-- DIGEST_UPDATE_COMPLETE (R443): Recomputation of chunks, leaves and D completes, DIGEST_EPOCH reaches EPOCH and E-03.08 is raised. -/
  | digestUpdateComplete
  /-- CHAIN_COLLECT (R446): COLLECT.GO on the head starts a two-round collection of every position's digest. -/
  | chainCollect (v : Word)
  /-- COLLECT_QUERY (R446): A device answers a collection query with EPOCH, DIGEST_EPOCH and D taken in one cycle. -/
  | collectQuery
  /-- CHAIN_COLLECT_COMPLETE (R446): The collection completes with CHAIN_DIGEST, validity and match, raising E-03.09. -/
  | chainCollectComplete (answers : List CollectAnswer)
  /-- EV_LATCH_CLEAR (R454): A W1C write to an event latch clears it and resends the vector message if its input stays at 1. -/
  | evLatchClear (latch : LatchRef) (v : Word)
  /-- VEC_HOLDOFF_EXPIRE (R457): The hold-off of a vector ends and a pending message is sent if the input is still 1. -/
  | vecHoldoffExpire (k : Fin 32)
  /-- EV_FORCE (R460): EV_FORCE.GO raises the named source in the next HUB cycle and increments FORCED. -/
  | evForce (v : Word)
  /-- PERF_VALUE_READ (R467): A read of VALUE_LO latches the counter's high word and chained partner into the snapshot. -/
  | perfValueRead (k : Fin 256) (j : Fin 32) (size : Fin 3)
  /-- PERF_CLEAR_ALL (R469): PERF_CTRL.CLEAR_ALL zeroes every counter and OVF bit. -/
  | perfClearAll (v : Word)
  /-- FINDER_BOOT (R473): VDD_FINDER above 0.72 V for 1 ms with FXTAL running releases the Finder from reset. -/
  | finderBoot (slotA slotB : List (List Byte))
  /-- FINDER_POWER_LOSS (R475): VDD_FINDER below 0.72 V for 10 µs resets the Finder and loses the device without a ramp. -/
  | finderPowerLoss
  /-- STARTUP_STEP_COMPLETE (R479): A start-up step completes with E-00.01, starting the next step or entering RUN. -/
  | startupStepComplete (r : StepResult)
  /-- STARTUP_STEP_TIMEOUT (R480): A start-up step running beyond twice its max halts with CAUSE 3. -/
  | startupStepTimeout
  /-- PWR_SLEEP_REQUEST (R477): A write of PWR_CTRL.SLEEP = 1 in RUN with all engines dark starts the shutdown BIST and sleep entry. -/
  | pwrSleepRequest (v : Word)
  /-- SLEEP_ENTRY_COMPLETE (R477): The shutdown BIST and HBM self-refresh finish and SLEEP is entered with E-00.05. -/
  | sleepEntryComplete (outcomes : List BlockOutcome)
  /-- WAKE_PIN (R478): WAKE_N low for 10 µs wakes the device from SLEEP. -/
  | wakePin
  /-- WAKE_HOST (R478): A write of PWR_CTRL.SLEEP = 0 wakes the device from SLEEP. -/
  | wakeHost (v : Word)
  /-- WAKE_TIMER_EXPIRE (R478): WAKE_TIMER seconds after sleep entry wake the device. -/
  | wakeTimerExpire
  /-- THERM_SAMPLE (R481): Every 1 ms the Finder samples all sensors, judging failures and threshold crossings. -/
  | thermSample (temps : List Int)
  /-- THERM_STEP_TIMER (R486): A reading at or above its threshold for STEP_MS adds the next thermal shed step. -/
  | thermStepTimer
  /-- THERM_RELEASE_TIMER (R486): Each RELEASE_MS after the threshold is crossed back the highest thermal step is removed. -/
  | thermReleaseTimer
  /-- THERM_OFF_ENTER (R487): After the fast ramps the line dies are reset, HBM self-refreshed, hub clocks stopped and THERMTRIP_N driven low. -/
  | thermOffEnter
  /-- THERM_SENSOR_RESET (R482): A write of THERM_CTRL.SENSOR_RESET returns every failed sensor to service. -/
  | thermSensorReset (v : Word)
  /-- CLK_PLL_UNLOCK (R491): A PLL of page 0x004 losing lock is an internal fault of its domains, with E-01.06. -/
  | clkPllUnlock (b : Fin 9)
  /-- FINDER_WATCHDOG (R490): The Finder watchdog restarts a Finder core and raises E-02.01. -/
  | finderWatchdog
  /-- MEMORY_READ_CE (R493): A read finding a single-bit error delivers the corrected word, counts and logs it. -/
  | memoryReadCe (m : MemRef) (bit : Fin 72) (scrub : Bool)
  /-- MEMORY_READ_UE (R494): A read finding an uncorrectable error delivers the word with a poison mark, counting and logging it. -/
  | memoryReadUe (m : MemRef) (known scrub : Bool) (consumer : Option Consumer)
  /-- CE_RATE_WINDOW_END (R496): Each second E-05.00 is raised once if corrected errors exceeded CE_THR. -/
  | ceRateWindowEnd
  /-- LOG_READ (R497): A read of LOG_DATA[0] marks the log entry at LOG_INDEX as read. -/
  | logRead
  /-- SCRUB_GO (R498): SCRUB_CTRL.GO starts reading and decoding the range without writing. -/
  | scrubGo (v : Word)
  /-- SCRUB_ABORT (R499): SCRUB_CTRL.ABORT ends a scrub and sets ABORTED. -/
  | scrubAbort (v : Word)
  /-- SCRUB_COMPLETE (R499): A scrub finishes its range, freezes its summary and raises E-05.03. -/
  | scrubComplete (skipped : Nat)
  /-- TEST_WRITE_RAW (R500): TEST_CTRL.WRITE writes a data word and check byte raw to a scratch address. -/
  | testWriteRaw (v : Word)
  /-- TEST_READ_RAW (R500): TEST_CTRL.READ_RAW reads a data word and check byte raw. -/
  | testReadRaw (v : Word)
  /-- PPR_CLEAR_CAND (R501): PPR_CTRL.CLEAR_CAND empties the repair candidate list. -/
  | pprClearCand (v : Word)
  /-- BIST_GO (R509): BIST_CTRL.GO starts an in-service test of idle selected blocks, or is refused. -/
  | bistGo (v : Word)
  /-- BIST_ISOLATED (R504): Accepted requests to the blocks complete and the blocks are isolated for test. -/
  | bistIsolated
  /-- BIST_BLOCK_END (R505): A block's test ends PASS, FAIL or NOT_TESTED, acting under the fleet mode. -/
  | bistBlockEnd (b : Fin 76) (complete ok : Bool) (patterns addr : Word) (bit : BitVec 7)
  /-- BIST_RUN_END (R504): The last selected block finishes, blocks are re-initialised and held writes act. -/
  | bistRunEnd
  /-- BIST_ABORT (R505): BIST_CTRL.ABORT ends the run, leaving unfinished blocks NOT_TESTED. -/
  | bistAbort (v : Word)
  /-- BIST_OFF_WRITE (R506): A W1S write of BIST_OFF takes blocks out of service until the next start. -/
  | bistOffWrite (k : Fin 3) (v : Word)
  /-- FLEET_SETTLE (R507): The fleet mode is settled and, in SMALL mode, FLAGGED blocks become UNUSABLE. -/
  | fleetSettle
  /-- BIST_DIRECT_GO (R511): DIR_CTRL.GO runs patterns on a block in BLANK or RETURNED, refused otherwise. -/
  | bistDirectGo (v : Word)
  /-- LC_TRANSITION_REQUEST (R515): LC_CMD.GO requests a life-cycle state, burning its fuses and zeroising keys for RETURNED or SCRAPPED. -/
  | lcTransitionRequest (v : Word)
  /-- CERT_COPY (R518): CERT_CTRL.COPY writes the certificate chain to the window. -/
  | certCopy (v : Word) (ok : Bool)
  /-- CERT_INSTALL (R519): CERT_CTRL.INSTALL in BLANK verifies and stores a certificate chain. -/
  | certInstall (v : Word) (ok : Bool)
  /-- FW_INSTALL (R524): FW_INSTALL.GO starts verifying and writing an image set to the inactive slot. -/
  | fwInstall (v : Word)
  /-- FW_INSTALL_COMPLETE (R524): A firmware install ends DONE or FAIL with E-04.02. -/
  | fwInstallComplete (back : Bool)
  /-- ARB_ADVANCE (R525): ARB_CMD.ADVANCE raises ARB.COUNT to RUN_MIN_SVN, or is refused. -/
  | arbAdvance (v : Word)
  /-- BUNDLE_APPLY (R527): BUNDLE_CTRL.APPLY verifies a bundle from the window and starts applying it. -/
  | bundleApply (v : Word)
  /-- BUNDLE_STORE (R527): BUNDLE_CTRL.STORE places a bundle in the Finder store for later starts. -/
  | bundleStore (v : Word)
  /-- BUNDLE_RECORD (R527): One bundle record is applied as a host write would be, stopping the bundle if refused. -/
  | bundleRecord
  /-- BUNDLE_COMPLETE (R527): After the last record the bundle's D is written to EXPECT and DONE set with E-04.06. -/
  | bundleComplete
  /-- ATT_QUOTE (R528): ATT_CTRL.GO captures the quote fields in one cycle, or is refused in a non-signing state. -/
  | attQuote (v : Word)
  /-- ATT_QUOTE_COMPLETE (R528): The quote is signed and written, DONE set and E-04.04 raised. -/
  | attQuoteComplete
  /-- FE_READ (R531): A write of FE_CTRL.READ, or PREP or receiver enable, starts reading the front-end identity memory. -/
  | feRead (v : Word)
  /-- FE_READ_COMPLETE (R532): The front-end read completes and its data is checked, cached and handed to the requesters. -/
  | feReadComplete (n : Fin 8) (data : Option (List Byte))
  /-- FE_DATA_READ (R562): A read of FE_DATA returns cached bytes and advances FE_INDEX. -/
  | feDataRead
  /-- EQ_TAP_SNAP (R104): A write of EQ_TAP_SNAP.TAKE copies all taps to the readout store and sets READY. -/
  | eqTapSnap (n : Fin 8)
  /-- EQ_TAP_DATA_READ (R562): A read of EQ_TAP_DATA returns a tap and advances EQ_TAP_ADDR. -/
  | eqTapDataRead (n : Fin 8)
  /-- JTAG_INSTRUCTION (R533): A JTAG instruction acts, with internal scan instructions acting as BYPASS outside BLANK and RETURNED. -/
  | jtagInstruction (j : JtagInstr)
  /-- DIE_LINK_LOSS (R13): The loss of link idle words on the die-to-die link to a line die for 64 µs declares that die lost, fails both its engines and moves their protected courses. -/
  | dieLinkLoss (k : Fin 4)
  /-- TREF_1PPS_EDGE (R346): With SRC = 2 and a TOD pending, the next rising edge of the 1PPS reference takes TIME_SET seconds as its seconds value with nanoseconds 0. -/
  | tref1ppsEdge (seen : Nat)
  deriving DecidableEq, Repr

end Sys2Proof
end

