-- ==== Sys2Proof/Decode.lean ====
section
/-!
DEFINITION. Decoding. The block takes commands, not instruction words: the specification's table of operations and events gives no row any bits, so no word
spells a command.
-/
namespace Sys2Proof

/-- The command that a word of `nbits` bits spells by the table's bits: none, since no row has any. -/
def decodeTableWord (_nbits _w : Nat) : Option Instr :=
  none

end Sys2Proof
end

