-- ==== Sys2Proof/Config.lean ====
section
/-!
DEFINITION. What the specification leaves to the implementation: the placement of the fixed HBM regions, and the free values
(constants without a body, so that nothing can be proved of any value of theirs).
-/
namespace Sys2Proof.Config

/-- Byte address of the firmware and internal region of Table 1.9. DESIGN CHOICE, log 2: the specification gives
the regions' sizes and no addresses. -/
def fwBase : Nat := 0

/-- Size of the firmware and internal region (Table 1.9). -/
def fwSize : Nat := 0x10000000

/-- Byte address of the Almanac journal region (Table 1.9). DESIGN CHOICE, log 2. -/
def jrnBase : Nat := 0x10000000

/-- Size of the Almanac journal region (Table 1.9, R444). -/
def jrnSize : Nat := 0x400000

/-- Byte address of the housekeeping mirror (Table 1.9, R373). DESIGN CHOICE, log 2. -/
def hkMirrorBase : Nat := 0x10400000

/-- Byte address of the service-queue region (Table 1.9). DESIGN CHOICE, log 2. -/
def queueBase : Nat := 0x20000000

/-- Byte address of the shared-memory window region, WIN_HOME (Table 1.9, R429). DESIGN CHOICE, log 2. -/
def winHome : Nat := 0x40000000

/-- Size of the shared-memory window (Table 1.9). -/
def winSize : Nat := 0x40000000

/-- Byte address of the tables and flow-context mirror (Table 1.9). DESIGN CHOICE, log 2. -/
def tablesBase : Nat := 0x80000000

/-- Byte address of the capture region, CAP_BASE (Table 1.9, R91). DESIGN CHOICE, log 2. -/
def captureBase : Nat := 0x100000000

/-- HBM capacity in bytes with no channel retired: 96 GB (R22). -/
def hbmBytes : Nat := 96000000000

/-- The vendor's 32-byte public key, whose SHA-512 the boot ROM holds (R520): a free value, log 24. -/
opaque vendorKey : List Byte

/-- The 32-byte fused device secret (R517): a free value, log 24. -/
opaque deviceSecret : List Byte

/-- A free number: the k-th value that the specification leaves open in a run (log 3). -/
opaque freeNat : Nat → Nat

/-- A free value that depends on the operands it is applied to (log 3). -/
opaque freeOf : Nat → List Nat → Nat

end Sys2Proof.Config
end

