-- ==== Sys2Proof/Machine/Bits.lean ====
section
/-!
DEFINITION. Bit fields of words, signed views, saturating and wrapping arithmetic, and byte order.
-/
namespace Sys2Proof.Machine

/-- Bits `lsb … lsb + width − 1` of a word, as a number. -/
def getBits (w : Word) (lsb width : Nat) : Nat :=
  (w.toNat >>> lsb) % 2 ^ width

/-- The mask of bits `lsb … lsb + width − 1`. -/
def bitMask (lsb width : Nat) : Word :=
  BitVec.ofNat 32 ((2 ^ width - 1) <<< lsb)

/-- A word with bits `lsb … lsb + width − 1` replaced by the low bits of `v`. -/
def setBits (w : Word) (lsb width v : Nat) : Word :=
  (w &&& ~~~ bitMask lsb width) ||| BitVec.ofNat 32 ((v % 2 ^ width) <<< lsb)

/-- A `width`-bit number read as two's complement. -/
def signed (width v : Nat) : Int :=
  if v < 2 ^ (width - 1) then v else (v : Int) - 2 ^ width

/-- An integer as a `width`-bit two's-complement number. -/
def unsign (width : Nat) (v : Int) : Nat :=
  (v % (2 ^ width : Nat)).toNat

/-- Addition that stops at the largest `width`-bit number. -/
def satAdd (width a b : Nat) : Nat :=
  min (a + b) (2 ^ width - 1)

/-- An integer limited to a range. -/
def clampInt (lo hi v : Int) : Int :=
  max lo (min hi v)

/-- Rounding to the nearest integer, halves away from zero. -/
def roundDiv (a : Int) (b : Nat) : Int :=
  if 0 ≤ a then (2 * a + b) / (2 * b) else -((2 * (-a) + b) / (2 * b))

/-- Division rounded up. -/
def ceilDiv (a b : Nat) : Nat :=
  (a + b - 1) / b

/-- Whether bit `i` of a number is 1. -/
def bitAt (v i : Nat) : Bool :=
  (v >>> i) % 2 = 1

/-- A truth value as a bit. -/
def ofBool (b : Bool) : Nat :=
  if b then 1 else 0

/-- The number with bit `i` set or cleared. -/
def putBit (v i : Nat) (b : Bool) : Nat :=
  if bitAt v i then (if b then v else v - 2 ^ i) else (if b then v + 2 ^ i else v)

/-- The number of ones among the low `n` bits. -/
def popCount : Nat → Nat → Nat
  | 0, _ => 0
  | n + 1, v => v % 2 + popCount n (v / 2)

/-- A number as `n` bytes, least significant first. -/
def bytesLE : Nat → Nat → List Byte
  | 0, _ => []
  | n + 1, v => BitVec.ofNat 8 v :: bytesLE n (v / 256)

/-- A number as `n` bytes, most significant first. -/
def bytesBE (n v : Nat) : List Byte :=
  (bytesLE n v).reverse

/-- The number that bytes spell, least significant first. -/
def ofBytesLE : List Byte → Nat
  | [] => 0
  | b :: bs => b.toNat + 256 * ofBytesLE bs

/-- The number that bytes spell, most significant first. -/
def ofBytesBE (bs : List Byte) : Nat :=
  ofBytesLE bs.reverse

/-- Bytes `from … from + n − 1` of a list, zeros beyond its end. -/
def sliceBytes (bs : List Byte) (start n : Nat) : List Byte :=
  let got := (bs.drop start).take n
  got ++ List.replicate (n - got.length) 0

/-- A little-endian number at `start` of a list of bytes. -/
def fieldLE (bs : List Byte) (start n : Nat) : Nat :=
  ofBytesLE (sliceBytes bs start n)

/-- A big-endian number at `start` of a list of bytes. -/
def fieldBE (bs : List Byte) (start n : Nat) : Nat :=
  ofBytesBE (sliceBytes bs start n)

end Sys2Proof.Machine
end

