-- ==== Sys2Proof/Machine/Fields.lean ====
section
/-!
DEFINITION. A name for every field of the specification's field maps: REGISTER_FIELD in the specification's spelling
(the block's name before it where two pages share a register name), as a place in the cell space of `Machine/Cells.lean`. Array
registers and the registers of numbered blocks take their numbers as arguments.
-/
namespace Sys2Proof.Machine

/-- The cell of the register at byte offset `off` of page `page`. -/
abbrev regCell (page off : Nat) : Nat := page * 1024 + off / 4

/-- A field: the cell that holds it, its least significant bit and its width. -/
structure Field where
  cell : Nat
  lsb : Nat
  width : Nat
  deriving DecidableEq, Repr

/-- The running counter behind a register that shows a snapshot copy (R562): a cell of its own. -/
abbrev Field.run (f : Field) : Field := ⟨f.cell + 0x400000, f.lsb, f.width⟩

/-- The base cell of lane block `x`: client lane `x` for `x < 64`, relay lane `x − 64` (port × 4 + lane) above (R417). -/
abbrev laneCell (x : Nat) : Nat :=
  if x < 64 then regCell (0x2C0 + x) 0x200 else regCell (0x381 + (x - 64) / 4) (0x080 + 0x40 * ((x - 64) % 4))

/-- The base cell of PRBS block `i`: client lane L is block L, lane l of relay port p is block 64 + 4p + l (R413). -/
abbrev knaefCell (i : Nat) : Nat := regCell (0x390 + i / 8) (0x040 + 0x40 * (i % 8))

/-- The cell of word `w` of entry `i` of table `t`; the entries of bank 1 of a banked table lie 2^19 above. -/
abbrev tableCell (t i w : Nat) : Nat := 0x1000000 + (t * 1048576 + i) * 64 + w

namespace Reg

/-! Table 1.6, Table 1.7 -/
abbrev LEVEL_FILL (k : Nat) : Field := ⟨regCell 0x00E 0x040 + k, 0, 10⟩
abbrev LEVEL_HWM (k : Nat) : Field := ⟨regCell 0x00E 0x040 + k, 10, 10⟩
abbrev LEVEL_UNDERFLOW (k : Nat) : Field := ⟨regCell 0x00E 0x040 + k, 30, 1⟩
abbrev LEVEL_OVERFLOW (k : Nat) : Field := ⟨regCell 0x00E 0x040 + k, 31, 1⟩
abbrev HWM_CLEAR_ALL : Field := ⟨regCell 0x00E 0x3B0, 0, 1⟩
/-! Table 1.14 -/
abbrev ACTIVE_STEP : Field := ⟨regCell 0x00F 0x040, 0, 5⟩
abbrev REQ_THERM_STEP : Field := ⟨regCell 0x00F 0x044, 0, 5⟩
abbrev REQ_HBM_STEP : Field := ⟨regCell 0x00F 0x048, 0, 5⟩
abbrev REQ_HOST_STEP : Field := ⟨regCell 0x00F 0x04C, 0, 5⟩
abbrev HBM_BUDGET_USABLE : Field := ⟨regCell 0x00F 0x050, 0, 16⟩
abbrev HBM_BUDGET_DEMAND : Field := ⟨regCell 0x00F 0x050, 16, 16⟩
abbrev BE_CAP_CAP : Field := ⟨regCell 0x00F 0x054, 0, 16⟩
abbrev BE_CAP_CAP_LIMIT : Field := ⟨regCell 0x00F 0x054, 16, 16⟩
abbrev PARSE_BE_SHARE : Field := ⟨regCell 0x00F 0x058, 0, 5⟩
abbrev PARSE_BE_SHARE_FLOOR : Field := ⟨regCell 0x00F 0x058, 8, 5⟩
/-! Table 2.10 -/
abbrev TX_CTRL_ENABLE (n : Nat) : Field := ⟨regCell (0x100 + 32 * n) 0x040, 0, 1⟩
abbrev TX_CTRL_TWIN (n : Nat) : Field := ⟨regCell (0x100 + 32 * n) 0x040, 1, 1⟩
abbrev TX_STATE_STATE (n : Nat) : Field := ⟨regCell (0x100 + 32 * n) 0x044, 0, 3⟩
abbrev TX_STATE_FAST (n : Nat) : Field := ⟨regCell (0x100 + 32 * n) 0x044, 3, 1⟩
abbrev TX_STATE_RELIGHT (n : Nat) : Field := ⟨regCell (0x100 + 32 * n) 0x044, 4, 1⟩
abbrev TX_STATE_LEVEL (n : Nat) : Field := ⟨regCell (0x100 + 32 * n) 0x044, 16, 16⟩
abbrev TX_FAULT_PLL_UNLOCK (n : Nat) : Field := ⟨regCell (0x100 + 32 * n) 0x048, 0, 1⟩
abbrev TX_FAULT_FE_DATA (n : Nat) : Field := ⟨regCell (0x100 + 32 * n) 0x048, 1, 1⟩
abbrev TX_FAULT_PREP_TIMEOUT (n : Nat) : Field := ⟨regCell (0x100 + 32 * n) 0x048, 2, 1⟩
abbrev TX_FAULT_THERM_SHUTDOWN (n : Nat) : Field := ⟨regCell (0x100 + 32 * n) 0x048, 3, 1⟩
abbrev TX_FAULT_RESET_RAMP (n : Nat) : Field := ⟨regCell (0x100 + 32 * n) 0x048, 4, 1⟩
abbrev TX_FAULT_TWIN_PARTNER (n : Nat) : Field := ⟨regCell (0x100 + 32 * n) 0x048, 5, 1⟩
abbrev TX_FAULT_RAIL_FAULT (n : Nat) : Field := ⟨regCell (0x100 + 32 * n) 0x048, 6, 1⟩
abbrev TX_FAULT_DIE_LOST (n : Nat) : Field := ⟨regCell (0x100 + 32 * n) 0x048, 7, 1⟩
/-! Table 2.11 -/
abbrev TX_MODE_CONST (n : Nat) : Field := ⟨regCell (0x101 + 32 * n) 0x040, 0, 2⟩
abbrev TX_MODE_SLOTS_M1 (n : Nat) : Field := ⟨regCell (0x101 + 32 * n) 0x040, 8, 6⟩
abbrev TX_MODE_ENTROPY (n : Nat) : Field := ⟨regCell (0x101 + 32 * n) 0x040, 16, 10⟩
abbrev TX_CLK_FS (n : Nat) : Field := ⟨regCell (0x101 + 32 * n) 0x044, 0, 10⟩
abbrev TX_RATE_STAT_SYMRATE (n : Nat) : Field := ⟨regCell (0x101 + 32 * n) 0x048, 0, 28⟩
abbrev TX_NET_STAT_NET (n : Nat) : Field := ⟨regCell (0x101 + 32 * n) 0x04C, 0, 16⟩
/-! Table 2.12 -/
abbrev TX_RAMP_TIME_MS (n : Nat) : Field := ⟨regCell (0x102 + 32 * n) 0x040, 0, 13⟩
abbrev TX_RAMP_FAST_MS (n : Nat) : Field := ⟨regCell (0x102 + 32 * n) 0x040, 16, 7⟩
abbrev TX_RAMP_STAT_REMAIN_MS (n : Nat) : Field := ⟨regCell (0x102 + 32 * n) 0x044, 0, 13⟩
/-! Table 2.13 -/
abbrev TX_SHAPE_ROLLOFF (n : Nat) : Field := ⟨regCell (0x103 + 32 * n) 0x040, 0, 5⟩
abbrev TX_PILOT_GAIN (n : Nat) : Field := ⟨regCell (0x103 + 32 * n) 0x044, 0, 8⟩
abbrev TX_PILOT_SEED_SEED_X (n : Nat) : Field := ⟨regCell (0x103 + 32 * n) 0x048, 0, 15⟩
abbrev TX_PILOT_SEED_SEED_Y (n : Nat) : Field := ⟨regCell (0x103 + 32 * n) 0x048, 16, 15⟩
/-! Table 2.14 -/
abbrev TX_PD_CTRL_LIN_EN (n : Nat) : Field := ⟨regCell (0x104 + 32 * n) 0x040, 0, 1⟩
abbrev TX_PD_CTRL_NL_EN (n : Nat) : Field := ⟨regCell (0x104 + 32 * n) 0x040, 1, 1⟩
abbrev TX_PD_CTRL_SRC (n : Nat) : Field := ⟨regCell (0x104 + 32 * n) 0x040, 2, 1⟩
abbrev TX_PD_CTRL_REQUIRE_FE (n : Nat) : Field := ⟨regCell (0x104 + 32 * n) 0x040, 3, 1⟩
abbrev TX_PD_STAT_FE_VALID (n : Nat) : Field := ⟨regCell (0x104 + 32 * n) 0x044, 0, 1⟩
abbrev TX_PD_STAT_LIN_ACTIVE (n : Nat) : Field := ⟨regCell (0x104 + 32 * n) 0x044, 1, 1⟩
abbrev TX_PD_STAT_NL_ACTIVE (n : Nat) : Field := ⟨regCell (0x104 + 32 * n) 0x044, 2, 1⟩
abbrev TX_PD_STAT_SKEW_CLAMP (n : Nat) : Field := ⟨regCell (0x104 + 32 * n) 0x044, 3, 1⟩
abbrev TX_PD_STAT_FE_REV (n : Nat) : Field := ⟨regCell (0x104 + 32 * n) 0x044, 8, 8⟩
abbrev TX_SKEW_TRIM (n k : Nat) : Field := ⟨regCell (0x104 + 32 * n) 0x048 + k, 0, 12⟩
abbrev TX_PD_ADDR_INDEX (n : Nat) : Field := ⟨regCell (0x104 + 32 * n) 0x058, 0, 12⟩
abbrev TX_PD_DATA_COEF (n : Nat) : Field := ⟨regCell (0x104 + 32 * n) 0x05C, 0, 18⟩
/-! Table 2.15 -/
abbrev TX_GAIN_GAIN (n : Nat) : Field := ⟨regCell (0x105 + 32 * n) 0x040, 0, 10⟩
abbrev TX_CLIP_CNT (n : Nat) : Field := ⟨regCell (0x105 + 32 * n) 0x044, 0, 32⟩
abbrev TX_CLIP_THR_THRESHOLD (n : Nat) : Field := ⟨regCell (0x105 + 32 * n) 0x048, 0, 16⟩
abbrev TX_CLIP_THR_CLEAR (n : Nat) : Field := ⟨regCell (0x105 + 32 * n) 0x048, 31, 1⟩
abbrev TX_DRONE_INS_EN (n : Nat) : Field := ⟨regCell (0x105 + 32 * n) 0x04C, 0, 1⟩
abbrev TX_DRONE_INS_ACTIVE (n : Nat) : Field := ⟨regCell (0x105 + 32 * n) 0x04C, 1, 1⟩
/-! Table 3.5 -/
abbrev RX_CTRL_ENABLE (n : Nat) : Field := ⟨regCell (0x108 + 32 * n) 0x040, 0, 1⟩
abbrev RX_MODE_CONST (n : Nat) : Field := ⟨regCell (0x108 + 32 * n) 0x044, 0, 2⟩
abbrev RX_MODE_SLOTS_M1 (n : Nat) : Field := ⟨regCell (0x108 + 32 * n) 0x044, 8, 6⟩
abbrev RX_MODE_ENTROPY (n : Nat) : Field := ⟨regCell (0x108 + 32 * n) 0x044, 16, 10⟩
abbrev RX_CLK_FS (n : Nat) : Field := ⟨regCell (0x108 + 32 * n) 0x048, 0, 10⟩
abbrev RX_RATE_STAT_SYMRATE (n : Nat) : Field := ⟨regCell (0x108 + 32 * n) 0x04C, 0, 28⟩
abbrev RX_SAMP_STAT_PLL_LOCK (n : Nat) : Field := ⟨regCell (0x108 + 32 * n) 0x050, 0, 1⟩
abbrev RX_SAMP_STAT_CAL_VALID (n : Nat) : Field := ⟨regCell (0x108 + 32 * n) 0x050, 1, 1⟩
abbrev RX_SAMP_STAT_FS_MSPS (n : Nat) : Field := ⟨regCell (0x108 + 32 * n) 0x050, 2, 19⟩
/-! Table 3.6 -/
abbrev RX_ADC_LEVEL_RMS (n k : Nat) : Field := ⟨regCell (0x109 + 32 * n) 0x040 + k, 0, 8⟩
abbrev RX_OVR_CNT (n : Nat) : Field := ⟨regCell (0x109 + 32 * n) 0x050, 0, 32⟩
abbrev RX_OVR_THR_THRESHOLD (n : Nat) : Field := ⟨regCell (0x109 + 32 * n) 0x054, 0, 16⟩
abbrev RX_OVR_THR_CLEAR (n : Nat) : Field := ⟨regCell (0x109 + 32 * n) 0x054, 31, 1⟩
/-! Table 3.7 -/
abbrev RX_SKEW_TRIM (n k : Nat) : Field := ⟨regCell (0x10A + 32 * n) 0x040 + k, 0, 12⟩
abbrev RX_SKIQ_CTRL_FE_EN (n : Nat) : Field := ⟨regCell (0x10A + 32 * n) 0x050, 0, 1⟩
abbrev RX_SKIQ_CTRL_IQ_TRACK (n : Nat) : Field := ⟨regCell (0x10A + 32 * n) 0x050, 1, 1⟩
abbrev RX_SKIQ_STAT_FE_VALID (n : Nat) : Field := ⟨regCell (0x10A + 32 * n) 0x054, 0, 1⟩
abbrev RX_SKIQ_STAT_SKEW_CLAMP (n : Nat) : Field := ⟨regCell (0x10A + 32 * n) 0x054, 1, 1⟩
abbrev RX_SKIQ_STAT_IQ_CLAMP (n : Nat) : Field := ⟨regCell (0x10A + 32 * n) 0x054, 2, 1⟩
abbrev RX_SKIQ_STAT_FE_REV (n : Nat) : Field := ⟨regCell (0x10A + 32 * n) 0x054, 8, 8⟩
abbrev RX_IQ_EST_GAIN (n k : Nat) : Field := ⟨regCell (0x10A + 32 * n) 0x058 + k, 0, 16⟩
abbrev RX_IQ_EST_PHASE (n k : Nat) : Field := ⟨regCell (0x10A + 32 * n) 0x058 + k, 16, 16⟩
/-! Table 3.8 -/
abbrev RX_RESAMP_MODE (n : Nat) : Field := ⟨regCell (0x10B + 32 * n) 0x040, 0, 2⟩
abbrev RX_RESAMP_PRESET (n : Nat) : Field := ⟨regCell (0x10B + 32 * n) 0x040, 4, 2⟩
abbrev RX_RESAMP_TR_BW (n : Nat) : Field := ⟨regCell (0x10B + 32 * n) 0x040, 8, 3⟩
abbrev RX_RESAMP_STAT_ACTIVE_MODE (n : Nat) : Field := ⟨regCell (0x10B + 32 * n) 0x044, 0, 2⟩
abbrev RX_RESAMP_STAT_ACTIVE_PRESET (n : Nat) : Field := ⟨regCell (0x10B + 32 * n) 0x044, 4, 2⟩
abbrev RX_RESAMP_STAT_TR_LOCK (n : Nat) : Field := ⟨regCell (0x10B + 32 * n) 0x044, 8, 1⟩
abbrev RX_RESAMP_STAT_TR_HOLD (n : Nat) : Field := ⟨regCell (0x10B + 32 * n) 0x044, 9, 1⟩
abbrev RX_RESAMP_STAT_UNUSABLE (n : Nat) : Field := ⟨regCell (0x10B + 32 * n) 0x044, 10, 1⟩
abbrev RX_RESAMP_STAT_FREQ (n : Nat) : Field := ⟨regCell (0x10B + 32 * n) 0x044, 16, 16⟩
/-! Table 3.9 -/
abbrev RX_CD_VALUE (n : Nat) : Field := ⟨regCell (0x10C + 32 * n) 0x040, 0, 20⟩
abbrev RX_CD_SRC (n : Nat) : Field := ⟨regCell (0x10C + 32 * n) 0x040, 20, 1⟩
abbrev RX_CD_FREQ_CARRIER (n : Nat) : Field := ⟨regCell (0x10C + 32 * n) 0x044, 0, 18⟩
abbrev RX_CD_STAT_APPLIED (n : Nat) : Field := ⟨regCell (0x10C + 32 * n) 0x048, 0, 20⟩
abbrev RX_CD_HEAD_HEAD (n : Nat) : Field := ⟨regCell (0x10C + 32 * n) 0x04C, 0, 19⟩
/-! Table 3.10 -/
abbrev RX_GD_STATIC_DELAY (n : Nat) : Field := ⟨regCell (0x10D + 32 * n) 0x040, 0, 32⟩
abbrev RX_GD_NOW_DELAY (n : Nat) : Field := ⟨regCell (0x10D + 32 * n) 0x044, 0, 32⟩
abbrev RX_GD_ANALOG_DELAY (n : Nat) : Field := ⟨regCell (0x10D + 32 * n) 0x048, 0, 32⟩
/-! Table 3.11 -/
abbrev RX_CAP_CTRL_ARM (n : Nat) : Field := ⟨regCell (0x10E + 32 * n) 0x040, 0, 1⟩
abbrev RX_CAP_CTRL_DISARM (n : Nat) : Field := ⟨regCell (0x10E + 32 * n) 0x040, 1, 1⟩
abbrev RX_CAP_CTRL_MODE (n : Nat) : Field := ⟨regCell (0x10E + 32 * n) 0x040, 2, 1⟩
abbrev RX_CAP_CTRL_DECIM (n : Nat) : Field := ⟨regCell (0x10E + 32 * n) 0x040, 4, 4⟩
abbrev RX_CAP_CTRL_LENGTH_KI (n : Nat) : Field := ⟨regCell (0x10E + 32 * n) 0x040, 8, 11⟩
abbrev RX_CAP_STAT_ARMED (n : Nat) : Field := ⟨regCell (0x10E + 32 * n) 0x044, 0, 1⟩
abbrev RX_CAP_STAT_BUSY (n : Nat) : Field := ⟨regCell (0x10E + 32 * n) 0x044, 1, 1⟩
abbrev RX_CAP_STAT_MISSED (n : Nat) : Field := ⟨regCell (0x10E + 32 * n) 0x044, 8, 8⟩
abbrev RX_CAP_STAT_RECORDS (n : Nat) : Field := ⟨regCell (0x10E + 32 * n) 0x044, 16, 16⟩
/-! Table 3.12 -/
abbrev CAP_BUF_SIZE_GB : Field := ⟨regCell 0x10F 0x040, 0, 5⟩
abbrev CAP_BUF_POLICY : Field := ⟨regCell 0x10F 0x040, 8, 1⟩
abbrev CAP_WR_PTR_PTR : Field := ⟨regCell 0x10F 0x044, 0, 28⟩
abbrev CAP_RD_PTR_PTR : Field := ⟨regCell 0x10F 0x048, 0, 28⟩
abbrev CAP_OLDEST_PTR : Field := ⟨regCell 0x10F 0x04C, 0, 28⟩
abbrev CAP_BASE_BASE : Field := ⟨regCell 0x10F 0x050, 0, 31⟩
abbrev CAP_TRIG_SOURCE : Field := ⟨regCell 0x10F 0x054, 0, 2⟩
abbrev CAP_TRIG_FIRE : Field := ⟨regCell 0x10F 0x054, 2, 1⟩
abbrev CAP_TRIG_TENABLE : Field := ⟨regCell 0x10F 0x054, 3, 1⟩
abbrev CAP_TRIG_EV_GROUP : Field := ⟨regCell 0x10F 0x054, 8, 5⟩
abbrev CAP_TRIG_EV_BIT : Field := ⟨regCell 0x10F 0x054, 16, 5⟩
abbrev CAP_TRIG_TIME_LO_NS : Field := ⟨regCell 0x10F 0x058, 0, 32⟩
abbrev CAP_TRIG_TIME_HI_SEC : Field := ⟨regCell 0x10F 0x05C, 0, 32⟩
/-! Table 4.9 -/
abbrev EQ_CTRL_TAPS (n : Nat) : Field := ⟨regCell (0x110 + 32 * n) 0x040, 0, 2⟩
abbrev EQ_CTRL_FREEZE (n : Nat) : Field := ⟨regCell (0x110 + 32 * n) 0x040, 2, 1⟩
abbrev EQ_CTRL_RESET (n : Nat) : Field := ⟨regCell (0x110 + 32 * n) 0x040, 3, 1⟩
abbrev EQ_CTRL_DFE_EN (n : Nat) : Field := ⟨regCell (0x110 + 32 * n) 0x040, 4, 1⟩
abbrev EQ_CTRL_DFE_AUTO (n : Nat) : Field := ⟨regCell (0x110 + 32 * n) 0x040, 5, 1⟩
abbrev EQ_ADAPT_MU_ACQ (n : Nat) : Field := ⟨regCell (0x110 + 32 * n) 0x044, 0, 4⟩
abbrev EQ_ADAPT_MU_TRACK (n : Nat) : Field := ⟨regCell (0x110 + 32 * n) 0x044, 4, 4⟩
abbrev EQ_ADAPT_MU_ROT (n : Nat) : Field := ⟨regCell (0x110 + 32 * n) 0x044, 8, 4⟩
abbrev EQ_ADAPT_MU_DFE (n : Nat) : Field := ⟨regCell (0x110 + 32 * n) 0x044, 12, 4⟩
abbrev EQ_STAT_CONVERGED (n : Nat) : Field := ⟨regCell (0x110 + 32 * n) 0x048, 0, 1⟩
abbrev EQ_STAT_FROZEN (n : Nat) : Field := ⟨regCell (0x110 + 32 * n) 0x048, 1, 1⟩
abbrev EQ_STAT_DFE_ACTIVE (n : Nat) : Field := ⟨regCell (0x110 + 32 * n) 0x048, 2, 1⟩
abbrev EQ_STAT_ESNR (n : Nat) : Field := ⟨regCell (0x110 + 32 * n) 0x048, 8, 16⟩
abbrev EQ_DEGEN_CNT (n : Nat) : Field := ⟨regCell (0x110 + 32 * n) 0x04C, 0, 32⟩
abbrev EQ_GD_NOW_DELAY (n : Nat) : Field := ⟨regCell (0x110 + 32 * n) 0x050, 0, 32⟩
/-! Table 4.10 -/
abbrev EQ_TAP_SNAP_TAKE (n : Nat) : Field := ⟨regCell (0x111 + 32 * n) 0x040, 0, 1⟩
abbrev EQ_TAP_SNAP_READY (n : Nat) : Field := ⟨regCell (0x111 + 32 * n) 0x040, 1, 1⟩
abbrev EQ_TAP_ADDR_INDEX (n : Nat) : Field := ⟨regCell (0x111 + 32 * n) 0x044, 0, 10⟩
abbrev EQ_TAP_DATA_RE (n : Nat) : Field := ⟨regCell (0x111 + 32 * n) 0x048, 0, 16⟩
abbrev EQ_TAP_DATA_IM (n : Nat) : Field := ⟨regCell (0x111 + 32 * n) 0x048, 16, 16⟩
/-! Table 4.11 -/
abbrev CR_CTRL_WINDOW (n : Nat) : Field := ⟨regCell (0x112 + 32 * n) 0x040, 0, 7⟩
abbrev CR_CTRL_BPS (n : Nat) : Field := ⟨regCell (0x112 + 32 * n) 0x040, 7, 2⟩
abbrev CR_CTRL_FREQ_BW (n : Nat) : Field := ⟨regCell (0x112 + 32 * n) 0x040, 9, 3⟩
abbrev CR_CTRL_TWIN_AID (n : Nat) : Field := ⟨regCell (0x112 + 32 * n) 0x040, 12, 1⟩
abbrev CR_STAT_FREQ_LOCK (n : Nat) : Field := ⟨regCell (0x112 + 32 * n) 0x044, 0, 1⟩
abbrev CR_STAT_PHASE_LOCK (n : Nat) : Field := ⟨regCell (0x112 + 32 * n) 0x044, 1, 1⟩
abbrev CR_STAT_TWIN_AID_ACTIVE (n : Nat) : Field := ⟨regCell (0x112 + 32 * n) 0x044, 2, 1⟩
abbrev CR_FREQ_OFFSET (n : Nat) : Field := ⟨regCell (0x112 + 32 * n) 0x048, 0, 20⟩
abbrev CR_SLIP_CNT (n : Nat) : Field := ⟨regCell (0x112 + 32 * n) 0x04C, 0, 32⟩
abbrev CR_SLIP_THR_THRESHOLD (n : Nat) : Field := ⟨regCell (0x112 + 32 * n) 0x050, 0, 16⟩
abbrev CR_SLIP_THR_CLEAR (n : Nat) : Field := ⟨regCell (0x112 + 32 * n) 0x050, 31, 1⟩
abbrev CR_LINEWIDTH_EST (n : Nat) : Field := ⟨regCell (0x112 + 32 * n) 0x054, 0, 16⟩
abbrev CR_TWIN_SKEW_SKEW (n : Nat) : Field := ⟨regCell (0x112 + 32 * n) 0x058, 0, 22⟩
/-! Table 4.12 -/
abbrev RX_PILOT_EXP_SEED_X (n : Nat) : Field := ⟨regCell (0x113 + 32 * n) 0x040, 0, 15⟩
abbrev RX_PILOT_EXP_SEED_Y (n : Nat) : Field := ⟨regCell (0x113 + 32 * n) 0x040, 16, 15⟩
abbrev PILOT_STAT_SYNC (n : Nat) : Field := ⟨regCell (0x113 + 32 * n) 0x044, 0, 1⟩
abbrev PILOT_STAT_SWAPPED (n : Nat) : Field := ⟨regCell (0x113 + 32 * n) 0x044, 1, 1⟩
abbrev PILOT_STAT_MISMATCH (n : Nat) : Field := ⟨regCell (0x113 + 32 * n) 0x044, 2, 1⟩
abbrev PILOT_STAT_ERR_FRAC (n : Nat) : Field := ⟨regCell (0x113 + 32 * n) 0x044, 8, 8⟩
abbrev PILOT_LOSS_THRESHOLD (n : Nat) : Field := ⟨regCell (0x113 + 32 * n) 0x048, 0, 8⟩
/-! Table 4.13 -/
abbrev ACQ_CTRL_MAX_TRIES (n : Nat) : Field := ⟨regCell (0x114 + 32 * n) 0x040, 0, 8⟩
abbrev ACQ_CTRL_KEEP_CD (n : Nat) : Field := ⟨regCell (0x114 + 32 * n) 0x040, 8, 1⟩
abbrev ACQ_CTRL_TWIN (n : Nat) : Field := ⟨regCell (0x114 + 32 * n) 0x040, 9, 1⟩
abbrev ACQ_CTRL_RETRY (n : Nat) : Field := ⟨regCell (0x114 + 32 * n) 0x040, 10, 1⟩
abbrev ACQ_CTRL_CNT_CLR (n : Nat) : Field := ⟨regCell (0x114 + 32 * n) 0x040, 11, 1⟩
abbrev ACQ_STAT_STATE (n : Nat) : Field := ⟨regCell (0x114 + 32 * n) 0x044, 0, 4⟩
abbrev ACQ_STAT_LAST_FAIL (n : Nat) : Field := ⟨regCell (0x114 + 32 * n) 0x044, 8, 4⟩
abbrev ACQ_STAT_TRIES (n : Nat) : Field := ⟨regCell (0x114 + 32 * n) 0x044, 16, 8⟩
abbrev ACQ_LOS_THRESHOLD (n : Nat) : Field := ⟨regCell (0x114 + 32 * n) 0x048, 0, 8⟩
abbrev ACQ_HOLD_TIME_US (n : Nat) : Field := ⟨regCell (0x114 + 32 * n) 0x04C, 0, 14⟩
abbrev ACQ_CD_RANGE_MIN (n : Nat) : Field := ⟨regCell (0x114 + 32 * n) 0x050, 0, 16⟩
abbrev ACQ_CD_RANGE_MAX (n : Nat) : Field := ⟨regCell (0x114 + 32 * n) 0x050, 16, 16⟩
abbrev ACQ_TIME_LAST_US (n : Nat) : Field := ⟨regCell (0x114 + 32 * n) 0x054, 0, 24⟩
abbrev ACQ_FAIL_CNT (n : Nat) : Field := ⟨regCell (0x114 + 32 * n) 0x058, 0, 32⟩
/-! Table 4.14 -/
abbrev OPM_CTRL_WINDOW_MS (n : Nat) : Field := ⟨regCell (0x115 + 32 * n) 0x040, 0, 10⟩
abbrev OPM_CTRL_B2B_SNR (n : Nat) : Field := ⟨regCell (0x115 + 32 * n) 0x040, 16, 10⟩
abbrev OPM_SEQ_SEQ (n : Nat) : Field := ⟨regCell (0x115 + 32 * n) 0x044, 0, 32⟩
abbrev OPM_OSNR_OSNR (n : Nat) : Field := ⟨regCell (0x115 + 32 * n) 0x048, 0, 16⟩
abbrev OPM_OSNR_VALID (n : Nat) : Field := ⟨regCell (0x115 + 32 * n) 0x048, 16, 1⟩
abbrev OPM_CD_CD (n : Nat) : Field := ⟨regCell (0x115 + 32 * n) 0x04C, 0, 20⟩
abbrev OPM_CD_VALID (n : Nat) : Field := ⟨regCell (0x115 + 32 * n) 0x04C, 20, 1⟩
abbrev OPM_DGD_MEAN (n : Nat) : Field := ⟨regCell (0x115 + 32 * n) 0x050, 0, 16⟩
abbrev OPM_DGD_PEAK (n : Nat) : Field := ⟨regCell (0x115 + 32 * n) 0x050, 16, 16⟩
abbrev OPM_SOP_MEAN (n : Nat) : Field := ⟨regCell (0x115 + 32 * n) 0x054, 0, 16⟩
abbrev OPM_SOP_PEAK (n : Nat) : Field := ⟨regCell (0x115 + 32 * n) 0x054, 16, 16⟩
abbrev OPM_Q_Q (n : Nat) : Field := ⟨regCell (0x115 + 32 * n) 0x058, 0, 16⟩
abbrev OPM_Q_VALID (n : Nat) : Field := ⟨regCell (0x115 + 32 * n) 0x058, 16, 1⟩
abbrev OPM_Q_THR_DEGRADE (n : Nat) : Field := ⟨regCell (0x115 + 32 * n) 0x05C, 0, 16⟩
abbrev OPM_Q_THR_HYST (n : Nat) : Field := ⟨regCell (0x115 + 32 * n) 0x05C, 16, 16⟩
/-! Table 5.7 -/
abbrev FEC_CTRL_ITER_MAX (n : Nat) : Field := ⟨regCell (0x118 + 32 * n) 0x040, 0, 5⟩
abbrev FEC_CTRL_ITER_FLOOR (n : Nat) : Field := ⟨regCell (0x118 + 32 * n) 0x040, 8, 5⟩
abbrev FEC_CTRL_EARLY_STOP (n : Nat) : Field := ⟨regCell (0x118 + 32 * n) 0x040, 16, 1⟩
abbrev FEC_ITER_STAT_ITER_EFF (n : Nat) : Field := ⟨regCell (0x118 + 32 * n) 0x044, 0, 5⟩
abbrev FEC_ITER_STAT_WIN (n : Nat) : Field := ⟨regCell (0x118 + 32 * n) 0x044, 8, 4⟩
abbrev FEC_ITER_STAT_CAPPED (n : Nat) : Field := ⟨regCell (0x118 + 32 * n) 0x044, 12, 1⟩
abbrev FEC_LAT_DELAY (n : Nat) : Field := ⟨regCell (0x118 + 32 * n) 0x048, 0, 32⟩
abbrev FEC_ID_CODE_REV (n : Nat) : Field := ⟨regCell (0x118 + 32 * n) 0x04C, 0, 8⟩
/-! Table 5.8 -/
abbrev ALIGN_STAT_STATE (n : Nat) : Field := ⟨regCell (0x119 + 32 * n) 0x040, 0, 3⟩
abbrev ALIGN_STAT_TWIN_SKEW (n : Nat) : Field := ⟨regCell (0x119 + 32 * n) 0x040, 3, 1⟩
abbrev ALIGN_STAT_LAST_FAIL (n : Nat) : Field := ⟨regCell (0x119 + 32 * n) 0x040, 4, 3⟩
abbrev ALIGN_FAIL_CNT (n : Nat) : Field := ⟨regCell (0x119 + 32 * n) 0x044, 0, 32⟩
abbrev ALIGN_TIME_LAST_US (n : Nat) : Field := ⟨regCell (0x119 + 32 * n) 0x048, 0, 16⟩
abbrev ALIGN_TIME_CLEAR (n : Nat) : Field := ⟨regCell (0x119 + 32 * n) 0x048, 31, 1⟩
/-! Table 5.9 -/
abbrev FEC_SNAP_TAKE (n : Nat) : Field := ⟨regCell (0x11A + 32 * n) 0x040, 0, 1⟩
abbrev FEC_SNAP_CLEAR (n : Nat) : Field := ⟨regCell (0x11A + 32 * n) 0x040, 1, 1⟩
abbrev CORR_BITS_LO (n : Nat) : Field := ⟨regCell (0x11A + 32 * n) 0x044, 0, 32⟩
abbrev CORR_BITS_HI (n : Nat) : Field := ⟨regCell (0x11A + 32 * n) 0x048, 0, 32⟩
abbrev CW_TOTAL_LO (n : Nat) : Field := ⟨regCell (0x11A + 32 * n) 0x04C, 0, 32⟩
abbrev CW_TOTAL_HI (n : Nat) : Field := ⟨regCell (0x11A + 32 * n) 0x050, 0, 32⟩
abbrev CW_EXCLUDED (n : Nat) : Field := ⟨regCell (0x11A + 32 * n) 0x054, 0, 32⟩
abbrev BLK_FAILED (n : Nat) : Field := ⟨regCell (0x11A + 32 * n) 0x058, 0, 32⟩
abbrev CW_CAPPED (n : Nat) : Field := ⟨regCell (0x11A + 32 * n) 0x05C, 0, 32⟩
/-! Table 5.10 -/
abbrev WIN_BER_BER (n : Nat) : Field := ⟨regCell (0x11B + 32 * n) 0x040, 0, 32⟩
abbrev WIN_CORR_LO (n : Nat) : Field := ⟨regCell (0x11B + 32 * n) 0x044, 0, 32⟩
abbrev WIN_CORR_HI (n : Nat) : Field := ⟨regCell (0x11B + 32 * n) 0x048, 0, 32⟩
abbrev WIN_BITS_LO (n : Nat) : Field := ⟨regCell (0x11B + 32 * n) 0x04C, 0, 32⟩
abbrev WIN_BITS_HI (n : Nat) : Field := ⟨regCell (0x11B + 32 * n) 0x050, 0, 32⟩
abbrev WIN_FAILED (n : Nat) : Field := ⟨regCell (0x11B + 32 * n) 0x054, 0, 32⟩
abbrev WIN_STAT_VALID (n : Nat) : Field := ⟨regCell (0x11B + 32 * n) 0x058, 0, 1⟩
abbrev WIN_STAT_SD (n : Nat) : Field := ⟨regCell (0x11B + 32 * n) 0x058, 1, 1⟩
abbrev WIN_STAT_ITER_AVG (n : Nat) : Field := ⟨regCell (0x11B + 32 * n) 0x058, 8, 8⟩
/-! Table 5.11 -/
abbrev DEMAP_CTRL_AUTO (n : Nat) : Field := ⟨regCell (0x11C + 32 * n) 0x040, 0, 1⟩
abbrev DEMAP_CTRL_SCALE (n : Nat) : Field := ⟨regCell (0x11C + 32 * n) 0x040, 8, 8⟩
abbrev DEMAP_STAT_SCALE (n : Nat) : Field := ⟨regCell (0x11C + 32 * n) 0x044, 0, 8⟩
abbrev DEMAP_STAT_PRIOR (n : Nat) : Field := ⟨regCell (0x11C + 32 * n) 0x044, 8, 1⟩
/-! Table 5.12 -/
abbrev SD_SET_BER (n : Nat) : Field := ⟨regCell (0x11D + 32 * n) 0x040, 0, 32⟩
abbrev SD_CLR_BER (n : Nat) : Field := ⟨regCell (0x11D + 32 * n) 0x044, 0, 32⟩
abbrev CAP_WARN_FRAC (n : Nat) : Field := ⟨regCell (0x11D + 32 * n) 0x048, 0, 16⟩
/-! Table 6.8 -/
abbrev FR_CTRL_OH_MODE (n : Nat) : Field := ⟨regCell (0x200 + 8 * n) 0x040, 0, 1⟩
abbrev FR_SEED_TX_SEED (n : Nat) : Field := ⟨regCell (0x200 + 8 * n) 0x044, 0, 16⟩
abbrev FR_SEED_RX_SEED (n : Nat) : Field := ⟨regCell (0x200 + 8 * n) 0x044, 16, 16⟩
abbrev FR_STAT_STATE (n : Nat) : Field := ⟨regCell (0x200 + 8 * n) 0x048, 0, 3⟩
abbrev FR_STAT_LOF (n : Nat) : Field := ⟨regCell (0x200 + 8 * n) 0x048, 3, 1⟩
abbrev FR_STAT_SF (n : Nat) : Field := ⟨regCell (0x200 + 8 * n) 0x048, 4, 1⟩
abbrev FR_STAT_CAND (n : Nat) : Field := ⟨regCell (0x200 + 8 * n) 0x048, 8, 4⟩
abbrev FR_MFAS_RX (n : Nat) : Field := ⟨regCell (0x200 + 8 * n) 0x04C, 0, 8⟩
abbrev FR_MFAS_TX (n : Nat) : Field := ⟨regCell (0x200 + 8 * n) 0x04C, 8, 8⟩
abbrev FR_OOF_CNT (n : Nat) : Field := ⟨regCell (0x200 + 8 * n) 0x050, 0, 32⟩
abbrev FR_REALIGN_CNT (n : Nat) : Field := ⟨regCell (0x200 + 8 * n) 0x054, 0, 32⟩
abbrev FR_AMBIG_CNT (n : Nat) : Field := ⟨regCell (0x200 + 8 * n) 0x058, 0, 32⟩
abbrev FR_COL_ERR_CNT (n : Nat) : Field := ⟨regCell (0x200 + 8 * n) 0x05C, 0, 32⟩
abbrev FR_ALIGN_TIME_LAST_US (n : Nat) : Field := ⟨regCell (0x200 + 8 * n) 0x060, 0, 16⟩
abbrev FR_ALIGN_TIME_CLEAR (n : Nat) : Field := ⟨regCell (0x200 + 8 * n) 0x060, 31, 1⟩
/-! Table 6.9 -/
abbrev COURSE_TBL_SEL_TABLE : Field := ⟨regCell 0x240 0x040, 0, 3⟩
abbrev COURSE_TBL_INDEX_INDEX : Field := ⟨regCell 0x240 0x044, 0, 10⟩
abbrev COURSE_TBL_INDEX_AUTO_INC : Field := ⟨regCell 0x240 0x044, 31, 1⟩
abbrev COURSE_TBL_OP_READ : Field := ⟨regCell 0x240 0x048, 0, 1⟩
abbrev COURSE_TBL_OP_WRITE : Field := ⟨regCell 0x240 0x048, 1, 1⟩
abbrev COURSE_TBL_DATA (k : Nat) : Field := ⟨regCell 0x240 0x050 + k, 0, 32⟩
abbrev SKEW_STORE_RESERVED_KIB : Field := ⟨regCell 0x240 0x090, 0, 17⟩
/-! Table 6.13 -/
abbrev CRS_CHG_CHG (k : Nat) : Field := ⟨regCell 0x241 0x040 + k, 0, 32⟩
abbrev CRS_SF_SF (k : Nat) : Field := ⟨regCell 0x241 0x080 + k, 0, 32⟩
abbrev CRS_SD_SD (k : Nat) : Field := ⟨regCell 0x241 0x0C0 + k, 0, 32⟩
/-! Table 7.7 -/
abbrev PARALLAX_TBL_SEL_TABLE : Field := ⟨regCell 0x280 0x040, 0, 2⟩
abbrev PARALLAX_TBL_INDEX_INDEX : Field := ⟨regCell 0x280 0x044, 0, 8⟩
abbrev PARALLAX_TBL_INDEX_AUTO_INC : Field := ⟨regCell 0x280 0x044, 31, 1⟩
abbrev PARALLAX_TBL_OP_READ : Field := ⟨regCell 0x280 0x048, 0, 1⟩
abbrev PARALLAX_TBL_OP_WRITE : Field := ⟨regCell 0x280 0x048, 1, 1⟩
abbrev PARALLAX_TBL_DATA (k : Nat) : Field := ⟨regCell 0x280 0x050 + k, 0, 32⟩
abbrev PAR_RES_RESERVED_MB : Field := ⟨regCell 0x280 0x090, 0, 32⟩
abbrev PAR_LOAD_SLOTS : Field := ⟨regCell 0x280 0x094, 0, 7⟩
abbrev PAR_LOAD_TERM_GBPS : Field := ⟨regCell 0x280 0x094, 16, 11⟩
abbrev PAR_REFUSED : Field := ⟨regCell 0x280 0x098, 0, 32⟩
abbrev PAR_CHG_CHG (k : Nat) : Field := ⟨regCell 0x280 0x0A0 + k, 0, 32⟩
abbrev PAR_UNPROT_UNPROT (k : Nat) : Field := ⟨regCell 0x280 0x0C0 + k, 0, 32⟩
/-! Table 8.8 -/
abbrev OCT_CFG_WIDTH (n : Nat) : Field := ⟨regCell (0x2C0 + n) 0x040, 0, 3⟩
abbrev OCT_CFG_RATE (n : Nat) : Field := ⟨regCell (0x2C0 + n) 0x040, 3, 1⟩
abbrev PORT_CTRL_EN (n : Nat) : Field := ⟨regCell (0x2C0 + n) 0x044, 0, 1⟩
abbrev PORT_CTRL_BYPASS_IND (n : Nat) : Field := ⟨regCell (0x2C0 + n) 0x044, 1, 1⟩
abbrev PORT_CTRL_MAX_FRAME (n : Nat) : Field := ⟨regCell (0x2C0 + n) 0x044, 16, 14⟩
abbrev PORT_STAT_ALIGNED (n : Nat) : Field := ⟨regCell (0x2C0 + n) 0x048, 0, 1⟩
abbrev PORT_STAT_HI_SER (n : Nat) : Field := ⟨regCell (0x2C0 + n) 0x048, 1, 1⟩
abbrev PORT_STAT_LOCAL_FAULT (n : Nat) : Field := ⟨regCell (0x2C0 + n) 0x048, 2, 1⟩
abbrev PORT_STAT_REMOTE_FAULT (n : Nat) : Field := ⟨regCell (0x2C0 + n) 0x048, 3, 1⟩
abbrev PORT_STAT_LINK_UP (n : Nat) : Field := ⟨regCell (0x2C0 + n) 0x048, 4, 1⟩
abbrev PORT_STAT_FIRST (n : Nat) : Field := ⟨regCell (0x2C0 + n) 0x048, 5, 1⟩
abbrev CLIENT_CNT_SNAP_TAKE (n : Nat) : Field := ⟨regCell (0x2C0 + n) 0x04C, 0, 1⟩
abbrev CLIENT_CNT_SNAP_CLEAR (n : Nat) : Field := ⟨regCell (0x2C0 + n) 0x04C, 1, 1⟩
abbrev RX_FRAMES_LO (n : Nat) : Field := ⟨regCell (0x2C0 + n) 0x050, 0, 32⟩
abbrev RX_FRAMES_HI (n : Nat) : Field := ⟨regCell (0x2C0 + n) 0x054, 0, 32⟩
abbrev RX_BYTES_LO (n : Nat) : Field := ⟨regCell (0x2C0 + n) 0x058, 0, 32⟩
abbrev RX_BYTES_HI (n : Nat) : Field := ⟨regCell (0x2C0 + n) 0x05C, 0, 32⟩
abbrev RX_FCS_ERR (n : Nat) : Field := ⟨regCell (0x2C0 + n) 0x060, 0, 32⟩
abbrev RX_RUNT (n : Nat) : Field := ⟨regCell (0x2C0 + n) 0x064, 0, 32⟩
abbrev RX_OVERSIZE (n : Nat) : Field := ⟨regCell (0x2C0 + n) 0x068, 0, 32⟩
abbrev RX_MACCTL (n : Nat) : Field := ⟨regCell (0x2C0 + n) 0x06C, 0, 32⟩
abbrev TX_FRAMES_LO (n : Nat) : Field := ⟨regCell (0x2C0 + n) 0x070, 0, 32⟩
abbrev TX_FRAMES_HI (n : Nat) : Field := ⟨regCell (0x2C0 + n) 0x074, 0, 32⟩
abbrev TX_BYTES_LO (n : Nat) : Field := ⟨regCell (0x2C0 + n) 0x078, 0, 32⟩
abbrev TX_BYTES_HI (n : Nat) : Field := ⟨regCell (0x2C0 + n) 0x07C, 0, 32⟩
abbrev FEC_CORR_CW (n : Nat) : Field := ⟨regCell (0x2C0 + n) 0x080, 0, 32⟩
abbrev FEC_UNCORR_CW (n : Nat) : Field := ⟨regCell (0x2C0 + n) 0x084, 0, 32⟩
abbrev FEC_SYM_LO (n : Nat) : Field := ⟨regCell (0x2C0 + n) 0x088, 0, 32⟩
abbrev FEC_SYM_HI (n : Nat) : Field := ⟨regCell (0x2C0 + n) 0x08C, 0, 32⟩
abbrev ERR_THR_THRESHOLD (n : Nat) : Field := ⟨regCell (0x2C0 + n) 0x090, 0, 16⟩
/-! Table 8.9 -/
abbrev EPOCH_STAT_CURRENT : Field := ⟨regCell 0x300 0x040, 0, 16⟩
abbrev EPOCH_STAT_LIVE : Field := ⟨regCell 0x300 0x040, 16, 3⟩
abbrev EPOCH_OLDEST_OLDEST : Field := ⟨regCell 0x300 0x044, 0, 16⟩
abbrev EPOCH_PARAM_CYC_MAX : Field := ⟨regCell 0x300 0x048, 0, 7⟩
abbrev EPOCH_PARAM_LKE_MAX : Field := ⟨regCell 0x300 0x048, 8, 4⟩
abbrev EPOCH_PARAM_LKW_MAX : Field := ⟨regCell 0x300 0x048, 12, 3⟩
abbrev EPOCH_PARAM_BANK : Field := ⟨regCell 0x300 0x048, 15, 1⟩
abbrev EXC_ACTION_FLOW : Field := ⟨regCell 0x300 0x04C, 0, 16⟩
abbrev EXC_ACTION_KIND : Field := ⟨regCell 0x300 0x04C, 16, 2⟩
abbrev EXC_ACTION_QUEUE : Field := ⟨regCell 0x300 0x04C, 18, 5⟩
abbrev PASS_LIMIT_CYC_LIMIT : Field := ⟨regCell 0x300 0x050, 0, 7⟩
abbrev CAPACITY_PG_MPPS : Field := ⟨regCell 0x300 0x054, 0, 16⟩
abbrev INFLIGHT_EPOCH (k : Nat) : Field := ⟨regCell 0x300 0x058 + k, 0, 16⟩
abbrev INFLIGHT_COUNT (k : Nat) : Field := ⟨regCell 0x300 0x058 + k, 16, 12⟩
abbrev INFLIGHT_LIVE (k : Nat) : Field := ⟨regCell 0x300 0x058 + k, 31, 1⟩
/-! Table 8.10 -/
abbrev PARSE_TBL_SEL_TABLE : Field := ⟨regCell 0x301 0x040, 0, 3⟩
abbrev PARSE_TBL_INDEX_INDEX : Field := ⟨regCell 0x301 0x044, 0, 20⟩
abbrev PARSE_TBL_INDEX_BANK : Field := ⟨regCell 0x301 0x044, 20, 1⟩
abbrev PARSE_TBL_INDEX_AUTO_INC : Field := ⟨regCell 0x301 0x044, 31, 1⟩
abbrev PARSE_TBL_OP_READ : Field := ⟨regCell 0x301 0x048, 0, 1⟩
abbrev PARSE_TBL_OP_WRITE : Field := ⟨regCell 0x301 0x048, 1, 1⟩
abbrev PARSE_TBL_DATA (k : Nat) : Field := ⟨regCell 0x301 0x050 + k, 0, 32⟩
abbrev LOAD_ADDR_OFFSET : Field := ⟨regCell 0x301 0x0E0, 0, 32⟩
abbrev LOAD_COUNT : Field := ⟨regCell 0x301 0x0E4, 0, 21⟩
abbrev LOAD_CTRL_TABLE : Field := ⟨regCell 0x301 0x0E8, 0, 3⟩
abbrev LOAD_CTRL_BANK : Field := ⟨regCell 0x301 0x0E8, 3, 1⟩
abbrev LOAD_CTRL_GO : Field := ⟨regCell 0x301 0x0E8, 4, 1⟩
abbrev LOAD_CTRL_BUSY : Field := ⟨regCell 0x301 0x0E8, 5, 1⟩
abbrev LOAD_CTRL_ERR : Field := ⟨regCell 0x301 0x0E8, 6, 1⟩
abbrev LOAD_DONE_RECORDS : Field := ⟨regCell 0x301 0x0EC, 0, 21⟩
/-! Table 8.12 -/
abbrev PARSE_CNT_SNAP_TAKE : Field := ⟨regCell 0x302 0x040, 0, 1⟩
abbrev PARSE_CNT_SNAP_CLEAR : Field := ⟨regCell 0x302 0x040, 1, 1⟩
abbrev PKT_IN : Field := ⟨regCell 0x302 0x044, 0, 32⟩
abbrev DEMOTED : Field := ⟨regCell 0x302 0x048, 0, 32⟩
abbrev INLET_DROP_BE : Field := ⟨regCell 0x302 0x04C, 0, 32⟩
abbrev INLET_DROP_RSV : Field := ⟨regCell 0x302 0x050, 0, 32⟩
abbrev EXC_CYC : Field := ⟨regCell 0x302 0x054, 0, 32⟩
abbrev EXC_LOOKUP : Field := ⟨regCell 0x302 0x058, 0, 32⟩
abbrev EXC_RECIRC : Field := ⟨regCell 0x302 0x05C, 0, 32⟩
abbrev FLAG_FRAG : Field := ⟨regCell 0x302 0x060, 0, 32⟩
abbrev FLAG_DEEP : Field := ⟨regCell 0x302 0x064, 0, 32⟩
abbrev FLAG_LEN : Field := ⟨regCell 0x302 0x068, 0, 32⟩
abbrev DUP_HIT : Field := ⟨regCell 0x302 0x06C, 0, 32⟩
abbrev EDIT_DROP : Field := ⟨regCell 0x302 0x070, 0, 32⟩
abbrev RULE_DROP : Field := ⟨regCell 0x302 0x074, 0, 32⟩
abbrev RECIRC : Field := ⟨regCell 0x302 0x078, 0, 32⟩
/-! Table 8.12 -/
abbrev UCODE_CTRL_BANK : Field := ⟨regCell 0x303 0x040, 0, 1⟩
abbrev UCODE_CTRL_LOAD : Field := ⟨regCell 0x303 0x040, 1, 1⟩
abbrev UCODE_CTRL_BUSY : Field := ⟨regCell 0x303 0x040, 2, 1⟩
abbrev UCODE_CTRL_VALID_0 : Field := ⟨regCell 0x303 0x040, 3, 1⟩
abbrev UCODE_CTRL_VALID_1 : Field := ⟨regCell 0x303 0x040, 4, 1⟩
abbrev UCODE_CTRL_VERIFY_FAIL : Field := ⟨regCell 0x303 0x040, 5, 1⟩
abbrev UCODE_ADDR_OFFSET : Field := ⟨regCell 0x303 0x044, 0, 32⟩
abbrev UCODE_LEN_BYTES : Field := ⟨regCell 0x303 0x048, 0, 32⟩
abbrev UCODE_REV_REV_0 : Field := ⟨regCell 0x303 0x04C, 0, 16⟩
abbrev UCODE_REV_REV_1 : Field := ⟨regCell 0x303 0x04C, 16, 16⟩
/-! Table 9.7 -/
abbrev ADM_CTRL_OP : Field := ⟨regCell 0x340 0x040, 0, 2⟩
abbrev ADM_CTRL_GO : Field := ⟨regCell 0x340 0x040, 2, 1⟩
abbrev ADM_STAT_BUSY : Field := ⟨regCell 0x340 0x044, 0, 1⟩
abbrev ADM_STAT_RESULT : Field := ⟨regCell 0x340 0x044, 1, 2⟩
abbrev ADM_STAT_CAUSE : Field := ⟨regCell 0x340 0x044, 4, 4⟩
abbrev ADM_STAT_FLOW : Field := ⟨regCell 0x340 0x044, 16, 16⟩
abbrev ADM_GRANT_ING_NS : Field := ⟨regCell 0x340 0x048, 0, 16⟩
abbrev ADM_GRANT_EGR_NS : Field := ⟨regCell 0x340 0x048, 16, 16⟩
abbrev ADM_FREE_BYTES : Field := ⟨regCell 0x340 0x04C, 0, 20⟩
abbrev ADM_DATA (k : Nat) : Field := ⟨regCell 0x340 0x050 + k, 0, 32⟩
/-! Table 9.9 -/
abbrev SCHED_TBL_SEL_TABLE : Field := ⟨regCell 0x341 0x040, 0, 3⟩
abbrev SCHED_TBL_INDEX_INDEX : Field := ⟨regCell 0x341 0x044, 0, 16⟩
abbrev SCHED_TBL_INDEX_AUTO_INC : Field := ⟨regCell 0x341 0x044, 31, 1⟩
abbrev SCHED_TBL_OP_READ : Field := ⟨regCell 0x341 0x048, 0, 1⟩
abbrev SCHED_TBL_OP_WRITE : Field := ⟨regCell 0x341 0x048, 1, 1⟩
abbrev SCHED_TBL_DATA (k : Nat) : Field := ⟨regCell 0x341 0x050 + k, 0, 32⟩
/-! Table 9.11 -/
abbrev SCHED_CNT_SNAP_TAKE : Field := ⟨regCell 0x342 0x040, 0, 1⟩
abbrev SCHED_CNT_SNAP_CLEAR : Field := ⟨regCell 0x342 0x040, 1, 1⟩
abbrev DROP_NOFLOW : Field := ⟨regCell 0x342 0x044, 0, 32⟩
abbrev DROP_WRONG_COURSE : Field := ⟨regCell 0x342 0x048, 0, 32⟩
abbrev DROP_SF : Field := ⟨regCell 0x342 0x04C, 0, 32⟩
abbrev DROP_PORT_DOWN : Field := ⟨regCell 0x342 0x050, 0, 32⟩
abbrev BE_DROP_SIZE : Field := ⟨regCell 0x342 0x054, 0, 32⟩
abbrev BE_DROP_QLIM : Field := ⟨regCell 0x342 0x058, 0, 32⟩
abbrev BE_DROP_FULL : Field := ⟨regCell 0x342 0x05C, 0, 32⟩
abbrev BE_DROP_CAP : Field := ⟨regCell 0x342 0x060, 0, 32⟩
abbrev PUNT_DROP : Field := ⟨regCell 0x342 0x064, 0, 32⟩
abbrev DET_LATE : Field := ⟨regCell 0x342 0x068, 0, 32⟩
abbrev DET_EARLY : Field := ⟨regCell 0x342 0x06C, 0, 32⟩
abbrev REVOKED_FLOWS : Field := ⟨regCell 0x342 0x070, 0, 32⟩
abbrev BE_OCC_MIB : Field := ⟨regCell 0x342 0x074, 0, 24⟩
/-! Table 10.7 -/
abbrev KEY_DATA_KEY (k : Nat) : Field := ⟨regCell 0x290 0x040 + k, 0, 32⟩
abbrev KEY_CTRL_SLOT : Field := ⟨regCell 0x290 0x060, 0, 11⟩
abbrev KEY_CTRL_ROLE : Field := ⟨regCell 0x290 0x060, 11, 2⟩
abbrev KEY_CTRL_LOAD : Field := ⟨regCell 0x290 0x060, 16, 1⟩
abbrev KEY_CTRL_ERASE : Field := ⟨regCell 0x290 0x060, 17, 1⟩
abbrev KEY_CTRL_ZEROISE : Field := ⟨regCell 0x290 0x060, 18, 1⟩
abbrev KEY_CTRL_ZEROISE_ALL : Field := ⟨regCell 0x290 0x060, 19, 1⟩
abbrev KEY_QUERY_SLOT : Field := ⟨regCell 0x290 0x064, 0, 11⟩
abbrev KEY_INFO_STATE : Field := ⟨regCell 0x290 0x068, 0, 2⟩
abbrev KEY_INFO_ROLE : Field := ⟨regCell 0x290 0x068, 2, 2⟩
abbrev KEY_INFO_IN_SERVICE : Field := ⟨regCell 0x290 0x068, 4, 1⟩
abbrev KEY_INFO_KCV : Field := ⟨regCell 0x290 0x068, 8, 24⟩
abbrev KEY_USED_LO : Field := ⟨regCell 0x290 0x06C, 0, 32⟩
abbrev KEY_USED_HI : Field := ⟨regCell 0x290 0x070, 0, 32⟩
abbrev BOOT_EPOCH_EPOCH : Field := ⟨regCell 0x290 0x074, 0, 16⟩
abbrev KEY_COUNT_EMPTY : Field := ⟨regCell 0x290 0x078, 0, 12⟩
abbrev KEY_COUNT_READY : Field := ⟨regCell 0x290 0x078, 16, 12⟩
/-! Table 10.8 -/
abbrev CIPHER_TBL_SEL_TABLE : Field := ⟨regCell 0x291 0x040, 0, 1⟩
abbrev CIPHER_TBL_INDEX_INDEX : Field := ⟨regCell 0x291 0x044, 0, 9⟩
abbrev CIPHER_TBL_INDEX_AUTO_INC : Field := ⟨regCell 0x291 0x044, 31, 1⟩
abbrev CIPHER_TBL_OP_READ : Field := ⟨regCell 0x291 0x048, 0, 1⟩
abbrev CIPHER_TBL_OP_WRITE : Field := ⟨regCell 0x291 0x048, 1, 1⟩
abbrev CIPHER_TBL_DATA (k : Nat) : Field := ⟨regCell 0x291 0x050 + k, 0, 32⟩
abbrev REKEY_COURSE : Field := ⟨regCell 0x291 0x080, 0, 9⟩
abbrev REKEY_GO : Field := ⟨regCell 0x291 0x080, 9, 1⟩
abbrev STARVED_STARVED (k : Nat) : Field := ⟨regCell 0x291 0x0C0 + k, 0, 32⟩
/-! Table 10.11 -/
abbrev REQ_CTRL_EN : Field := ⟨regCell 0x292 0x040, 0, 1⟩
abbrev REQ_BASE_OFFSET : Field := ⟨regCell 0x292 0x044, 0, 32⟩
abbrev REQ_SIZE_ENTRIES : Field := ⟨regCell 0x292 0x048, 0, 13⟩
abbrev REQ_TAIL_INDEX : Field := ⟨regCell 0x292 0x04C, 0, 12⟩
abbrev REQ_HEAD_INDEX : Field := ⟨regCell 0x292 0x050, 0, 12⟩
abbrev REQ_DONE : Field := ⟨regCell 0x292 0x054, 0, 32⟩
abbrev REQ_ERR : Field := ⟨regCell 0x292 0x058, 0, 32⟩
/-! Table 10.11 -/
abbrev CHK_CTRL_COURSE_INV : Field := ⟨regCell 0x293 0x040, 0, 1⟩
abbrev CHK_CTRL_HOST_INV : Field := ⟨regCell 0x293 0x040, 1, 1⟩
abbrev CHK_CTRL_DRONE_INV : Field := ⟨regCell 0x293 0x040, 2, 1⟩
abbrev CHK_FAIL_COURSE : Field := ⟨regCell 0x293 0x044, 0, 32⟩
abbrev CHK_FAIL_HOST : Field := ⟨regCell 0x293 0x048, 0, 32⟩
abbrev CHK_FAIL_DRONE : Field := ⟨regCell 0x293 0x04C, 0, 32⟩
/-! Table 11.11 -/
abbrev DR_CTRL_RX_EN : Field := ⟨regCell 0x0A0 0x040, 0, 1⟩
abbrev DR_CTRL_BCN_EN : Field := ⟨regCell 0x0A0 0x040, 1, 1⟩
abbrev DR_CFG_RXQ : Field := ⟨regCell 0x0A0 0x044, 0, 5⟩
abbrev DR_CFG_BCN_TO_Q : Field := ⟨regCell 0x0A0 0x044, 5, 1⟩
abbrev DR_CFG_TX_KEY_SLOT : Field := ⟨regCell 0x0A0 0x044, 16, 11⟩
abbrev DR_RX_CFG_DET_THR : Field := ⟨regCell 0x0A0 0x048, 0, 8⟩
abbrev DR_RX_CFG_CAPTURE_DB : Field := ⟨regCell 0x0A0 0x048, 8, 8⟩
abbrev BCN_PERIOD_MS : Field := ⟨regCell 0x0A0 0x04C, 0, 14⟩
abbrev DR_NBR_AGE_S : Field := ⟨regCell 0x0A0 0x050, 0, 12⟩
abbrev DR_THR_FALSE_PER_S : Field := ⟨regCell 0x0A0 0x054, 0, 16⟩
abbrev DR_LABEL_LABEL (k : Nat) : Field := ⟨regCell 0x0A0 0x058 + k, 0, 32⟩
abbrev DR_FLAGS_MISCONNECT : Field := ⟨regCell 0x0A0 0x068, 0, 8⟩
abbrev DR_FLAGS_EXP_MISSING : Field := ⟨regCell 0x0A0 0x068, 8, 8⟩
/-! Table 11.12 -/
abbrev DRONE_TBL_SEL_TABLE : Field := ⟨regCell 0x0A1 0x040, 0, 2⟩
abbrev DRONE_TBL_INDEX_INDEX : Field := ⟨regCell 0x0A1 0x044, 0, 7⟩
abbrev DRONE_TBL_INDEX_AUTO_INC : Field := ⟨regCell 0x0A1 0x044, 31, 1⟩
abbrev DRONE_TBL_OP_READ : Field := ⟨regCell 0x0A1 0x048, 0, 1⟩
abbrev DRONE_TBL_OP_WRITE : Field := ⟨regCell 0x0A1 0x048, 1, 1⟩
abbrev DRONE_TBL_DATA (k : Nat) : Field := ⟨regCell 0x0A1 0x050 + k, 0, 32⟩
/-! Table 11.15 -/
abbrev DRONE_CNT_SNAP_TAKE : Field := ⟨regCell 0x0A2 0x040, 0, 1⟩
abbrev DRONE_CNT_SNAP_CLEAR : Field := ⟨regCell 0x0A2 0x040, 1, 1⟩
abbrev DET : Field := ⟨regCell 0x0A2 0x044, 0, 32⟩
abbrev FALSE_DET : Field := ⟨regCell 0x0A2 0x048, 0, 32⟩
abbrev HDR_ERR : Field := ⟨regCell 0x0A2 0x04C, 0, 32⟩
abbrev CRC_ERR : Field := ⟨regCell 0x0A2 0x050, 0, 32⟩
abbrev RX_OK : Field := ⟨regCell 0x0A2 0x054, 0, 32⟩
abbrev DUP : Field := ⟨regCell 0x0A2 0x058, 0, 32⟩
abbrev NO_FINGER : Field := ⟨regCell 0x0A2 0x05C, 0, 32⟩
abbrev CAPTURED : Field := ⟨regCell 0x0A2 0x060, 0, 32⟩
abbrev ABANDONED : Field := ⟨regCell 0x0A2 0x064, 0, 32⟩
abbrev SIG_FAIL : Field := ⟨regCell 0x0A2 0x068, 0, 32⟩
abbrev REPLAY : Field := ⟨regCell 0x0A2 0x06C, 0, 32⟩
abbrev SIG_BACKLOG : Field := ⟨regCell 0x0A2 0x070, 0, 32⟩
abbrev NBR_EVICT : Field := ⟨regCell 0x0A2 0x074, 0, 32⟩
abbrev RXQ_DROP : Field := ⟨regCell 0x0A2 0x078, 0, 32⟩
abbrev TX_OK : Field := ⟨regCell 0x0A2 0x07C, 0, 32⟩
abbrev TX_CUT : Field := ⟨regCell 0x0A2 0x080, 0, 32⟩
abbrev TX_FAIL : Field := ⟨regCell 0x0A2 0x084, 0, 32⟩
abbrev BCN_SENT : Field := ⟨regCell 0x0A2 0x088, 0, 32⟩
abbrev BCN_OK : Field := ⟨regCell 0x0A2 0x08C, 0, 32⟩
/-! Table 11.16 -/
abbrev DR_TX_CFG_SUBC (n : Nat) : Field := ⟨regCell (0x0A8 + n) 0x040, 0, 7⟩
abbrev DR_TX_CFG_CODE (n : Nat) : Field := ⟨regCell (0x0A8 + n) 0x040, 8, 6⟩
abbrev DR_TX_CFG_DEPTH (n : Nat) : Field := ⟨regCell (0x0A8 + n) 0x040, 16, 6⟩
abbrev DR_TX_RAMP_RAMP_US (n : Nat) : Field := ⟨regCell (0x0A8 + n) 0x044, 0, 13⟩
abbrev DR_TX_CTRL_LENGTH (n : Nat) : Field := ⟨regCell (0x0A8 + n) 0x048, 0, 12⟩
abbrev DR_TX_CTRL_SEC (n : Nat) : Field := ⟨regCell (0x0A8 + n) 0x048, 12, 1⟩
abbrev DR_TX_CTRL_WAKE (n : Nat) : Field := ⟨regCell (0x0A8 + n) 0x048, 13, 1⟩
abbrev DR_TX_CTRL_SEND (n : Nat) : Field := ⟨regCell (0x0A8 + n) 0x048, 14, 1⟩
abbrev DR_TX_STAT_BUSY (n : Nat) : Field := ⟨regCell (0x0A8 + n) 0x04C, 0, 1⟩
abbrev DR_TX_STAT_STATUS (n : Nat) : Field := ⟨regCell (0x0A8 + n) 0x04C, 1, 3⟩
abbrev DR_TX_STAT_REQ (n : Nat) : Field := ⟨regCell (0x0A8 + n) 0x04C, 4, 4⟩
abbrev DR_TX_STAT_SEQ (n : Nat) : Field := ⟨regCell (0x0A8 + n) 0x04C, 8, 16⟩
abbrev DR_TX_BUF (n k : Nat) : Field := ⟨regCell (0x0A8 + n) 0x800 + k, 0, 32⟩
/-! Table 12.9 -/
abbrev SEL_CTRL_FORCE_REF : Field := ⟨regCell 0x090 0x040, 0, 5⟩
abbrev SEL_CTRL_FORCE_EN : Field := ⟨regCell 0x090 0x040, 5, 1⟩
abbrev SEL_CTRL_REVERT : Field := ⟨regCell 0x090 0x040, 6, 1⟩
abbrev SEL_CTRL_FREERUN : Field := ⟨regCell 0x090 0x040, 7, 1⟩
abbrev SEL_CTRL_BW : Field := ⟨regCell 0x090 0x040, 8, 3⟩
abbrev SEL_CTRL_PBO : Field := ⟨regCell 0x090 0x040, 11, 1⟩
abbrev DPLL_STAT_STATE : Field := ⟨regCell 0x090 0x044, 0, 3⟩
abbrev DPLL_STAT_HIST_VALID : Field := ⟨regCell 0x090 0x044, 3, 1⟩
abbrev DPLL_STAT_ACTIVE_REF : Field := ⟨regCell 0x090 0x044, 4, 5⟩
abbrev DPLL_STAT_QL_OUT : Field := ⟨regCell 0x090 0x044, 12, 4⟩
abbrev DPLL_FREQ_OFFSET : Field := ⟨regCell 0x090 0x048, 0, 32⟩
abbrev DPLL_PHASE_ERROR : Field := ⟨regCell 0x090 0x04C, 0, 32⟩
abbrev LOCK_CFG_LOCK_S : Field := ⟨regCell 0x090 0x050, 0, 8⟩
abbrev LOCK_CFG_TIME_TOL_NS : Field := ⟨regCell 0x090 0x050, 8, 16⟩
abbrev HO_CFG_HIST_MIN_S : Field := ⟨regCell 0x090 0x054, 0, 12⟩
abbrev HO_CFG_HO_GUARD_S : Field := ⟨regCell 0x090 0x054, 12, 8⟩
abbrev HO_CFG_HO_QL : Field := ⟨regCell 0x090 0x054, 20, 4⟩
abbrev HO_LIMIT_LIMIT_S : Field := ⟨regCell 0x090 0x058, 0, 17⟩
abbrev HO_STAT_ELAPSED_S : Field := ⟨regCell 0x090 0x05C, 0, 17⟩
abbrev HO_STAT_ASSISTED : Field := ⟨regCell 0x090 0x05C, 17, 1⟩
abbrev XO_STAT_OFFSET_PPB : Field := ⟨regCell 0x090 0x060, 0, 24⟩
abbrev XO_STAT_FAIL : Field := ⟨regCell 0x090 0x060, 24, 1⟩
abbrev MON_CFG_QUAL_S : Field := ⟨regCell 0x090 0x064, 0, 8⟩
abbrev MON_CFG_DRIFT_RATE : Field := ⟨regCell 0x090 0x064, 8, 8⟩
abbrev MON_CFG_DRIFT_SPAN : Field := ⟨regCell 0x090 0x064, 16, 8⟩
abbrev AGREE_CFG_AGREE_PPB : Field := ⟨regCell 0x090 0x068, 0, 14⟩
abbrev REF_CHG_CHG : Field := ⟨regCell 0x090 0x06C, 0, 17⟩
abbrev REF_CMD_REF : Field := ⟨regCell 0x090 0x070, 0, 5⟩
abbrev REF_CMD_RESET_SPAN : Field := ⟨regCell 0x090 0x070, 5, 1⟩
abbrev REF_CMD_RESET_DISSENT : Field := ⟨regCell 0x090 0x070, 6, 1⟩
/-! Table 12.10 -/
abbrev SIDEREAL_TBL_SEL_TABLE : Field := ⟨regCell 0x091 0x040, 0, 2⟩
abbrev SIDEREAL_TBL_INDEX_INDEX : Field := ⟨regCell 0x091 0x044, 0, 9⟩
abbrev SIDEREAL_TBL_INDEX_AUTO_INC : Field := ⟨regCell 0x091 0x044, 31, 1⟩
abbrev SIDEREAL_TBL_OP_READ : Field := ⟨regCell 0x091 0x048, 0, 1⟩
abbrev SIDEREAL_TBL_OP_WRITE : Field := ⟨regCell 0x091 0x048, 1, 1⟩
abbrev SIDEREAL_TBL_DATA (k : Nat) : Field := ⟨regCell 0x091 0x050 + k, 0, 32⟩
/-! Table 12.12 -/
abbrev TIME_CTRL_SRC : Field := ⟨regCell 0x092 0x040, 0, 3⟩
abbrev TIME_CTRL_SRC_REF : Field := ⟨regCell 0x092 0x040, 3, 2⟩
abbrev TIME_SLEW_MAX_PPB : Field := ⟨regCell 0x092 0x044, 0, 20⟩
abbrev TIME_CMD_SNAP : Field := ⟨regCell 0x092 0x048, 0, 1⟩
abbrev TIME_CMD_SET : Field := ⟨regCell 0x092 0x048, 1, 1⟩
abbrev TIME_CMD_STEP : Field := ⟨regCell 0x092 0x048, 2, 1⟩
abbrev TIME_CMD_SLEW : Field := ⟨regCell 0x092 0x048, 3, 1⟩
abbrev TIME_CMD_TOD : Field := ⟨regCell 0x092 0x048, 4, 1⟩
abbrev TIME_CMD_ALIGN : Field := ⟨regCell 0x092 0x048, 5, 1⟩
abbrev TIME_CMD_ALIGN_JUMP : Field := ⟨regCell 0x092 0x048, 6, 1⟩
abbrev TIME_NS_NS : Field := ⟨regCell 0x092 0x04C, 0, 30⟩
abbrev TIME_FRAC_FRAC : Field := ⟨regCell 0x092 0x050, 0, 16⟩
abbrev TIME_SEC_LO_SEC : Field := ⟨regCell 0x092 0x054, 0, 32⟩
abbrev TIME_SEC_HI_SEC : Field := ⟨regCell 0x092 0x058, 0, 16⟩
abbrev TIME_SET_NS : Field := ⟨regCell 0x092 0x05C, 0, 30⟩
abbrev TIME_SET_SEC_LO : Field := ⟨regCell 0x092 0x060, 0, 32⟩
abbrev TIME_SET_SEC_HI : Field := ⟨regCell 0x092 0x064, 0, 16⟩
abbrev TIME_ADJ_NS : Field := ⟨regCell 0x092 0x068, 0, 32⟩
abbrev TIME_OFFSET_PS : Field := ⟨regCell 0x092 0x06C, 0, 32⟩
abbrev TIME_STAT_SLEW_REMAIN : Field := ⟨regCell 0x092 0x070, 0, 32⟩
abbrev PACE_OFF_LO : Field := ⟨regCell 0x092 0x074, 0, 32⟩
abbrev PACE_OFF_HI : Field := ⟨regCell 0x092 0x078, 0, 32⟩
abbrev OUT_ALIGN_ALIGN_PPB : Field := ⟨regCell 0x092 0x07C, 0, 20⟩
/-! Table 12.13 -/
abbrev CAL_CTRL_OP : Field := ⟨regCell 0x093 0x040, 0, 2⟩
abbrev CAL_CTRL_ENGINE : Field := ⟨regCell 0x093 0x040, 2, 3⟩
abbrev CAL_CTRL_OUT : Field := ⟨regCell 0x093 0x040, 5, 3⟩
abbrev CAL_CTRL_IN : Field := ⟨regCell 0x093 0x040, 8, 2⟩
abbrev CAL_CTRL_GO : Field := ⟨regCell 0x093 0x040, 10, 1⟩
abbrev CAL_CTRL_BUSY : Field := ⟨regCell 0x093 0x040, 11, 1⟩
abbrev CAL_CTRL_DONE : Field := ⟨regCell 0x093 0x040, 12, 1⟩
abbrev CAL_CTRL_FAIL : Field := ⟨regCell 0x093 0x040, 13, 1⟩
abbrev CAL_LOOP_PS_PS : Field := ⟨regCell 0x093 0x044, 0, 32⟩
abbrev TX_MARK_PS_PS : Field := ⟨regCell 0x093 0x048, 0, 32⟩
abbrev RXFIX_NS : Field := ⟨regCell 0x093 0x04C, 0, 32⟩
abbrev TXGD_TOTAL_NS (k : Nat) : Field := ⟨regCell 0x093 0x050 + 2 * k, 0, 32⟩
abbrev TX_GD_ANALOG_DELAY (k : Nat) : Field := ⟨regCell 0x093 0x054 + 2 * k, 0, 32⟩
abbrev TX_CODE_CODE_NS : Field := ⟨regCell 0x093 0x090, 0, 16⟩
/-! Table 12.13 -/
abbrev PTP_CFG_EN : Field := ⟨regCell 0x094 0x040, 0, 1⟩
abbrev PTP_CFG_PROFILE : Field := ⟨regCell 0x094 0x040, 1, 1⟩
abbrev PTP_CFG_DOMAIN : Field := ⟨regCell 0x094 0x040, 2, 8⟩
abbrev PTP_CFG_QUEUE : Field := ⟨regCell 0x094 0x040, 10, 5⟩
abbrev PTP_CFG_PORT : Field := ⟨regCell 0x094 0x040, 15, 6⟩
abbrev PTP_STAT_SERVO : Field := ⟨regCell 0x094 0x044, 0, 3⟩
abbrev PTP_OFFSET_PS : Field := ⟨regCell 0x094 0x048, 0, 32⟩
abbrev PTP_MPD_PS : Field := ⟨regCell 0x094 0x04C, 0, 32⟩
/-! Table 13.9 -/
abbrev COL_CTRL_RERUN_DEG : Field := ⟨regCell 0x0B0 0x040, 0, 9⟩
abbrev COL_CTRL_AUTO_RERUN : Field := ⟨regCell 0x0B0 0x040, 9, 1⟩
abbrev COL_STORE_STORE_MIN_S : Field := ⟨regCell 0x0B0 0x044, 0, 12⟩
abbrev COL_STORE_FLUSH : Field := ⟨regCell 0x0B0 0x044, 12, 1⟩
abbrev COL_STAT_RESTORED : Field := ⟨regCell 0x0B0 0x048, 0, 1⟩
abbrev COL_STAT_STORING : Field := ⟨regCell 0x0B0 0x048, 1, 1⟩
abbrev COL_STAT_BAD_RECORDS : Field := ⟨regCell 0x0B0 0x048, 8, 8⟩
abbrev COL_VALID_VALID : Field := ⟨regCell 0x0B0 0x04C, 0, 32⟩
abbrev COL_WRITES : Field := ⟨regCell 0x0B0 0x050, 0, 32⟩
abbrev CAL_TRACE_TRACE_ID : Field := ⟨regCell 0x0B0 0x054, 0, 32⟩
/-! Table 13.10 -/
abbrev COLLIM_TBL_INDEX_INDEX : Field := ⟨regCell 0x0B1 0x040, 0, 5⟩
abbrev COLLIM_TBL_OP_READ : Field := ⟨regCell 0x0B1 0x044, 0, 1⟩
abbrev COLLIM_TBL_DATA (k : Nat) : Field := ⟨regCell 0x0B1 0x050 + k, 0, 32⟩
/-! Table 13.12 -/
abbrev LCAL_CTRL_MODE (k : Nat) : Field := ⟨regCell 0x0B2 0x040 + k, 0, 1⟩
abbrev LCAL_CTRL_FG_RUN (k : Nat) : Field := ⟨regCell 0x0B2 0x040 + k, 1, 1⟩
abbrev LCAL_CTRL_BG_EN (k : Nat) : Field := ⟨regCell 0x0B2 0x040 + k, 2, 1⟩
abbrev LCAL_STAT_ADC_VALID (k : Nat) : Field := ⟨regCell 0x0B2 0x060 + k, 0, 1⟩
abbrev LCAL_STAT_DAC_VALID (k : Nat) : Field := ⟨regCell 0x0B2 0x060 + k, 1, 1⟩
abbrev LCAL_STAT_FG_BUSY (k : Nat) : Field := ⟨regCell 0x0B2 0x060 + k, 2, 1⟩
abbrev LCAL_STAT_BG_BUSY (k : Nat) : Field := ⟨regCell 0x0B2 0x060 + k, 3, 1⟩
abbrev LCAL_STAT_DRIFT (k : Nat) : Field := ⟨regCell 0x0B2 0x060 + k, 4, 1⟩
abbrev LCAL_STAT_SYS_MISSING (k : Nat) : Field := ⟨regCell 0x0B2 0x060 + k, 5, 1⟩
abbrev LCAL_STAT_FG_CAUSE (k : Nat) : Field := ⟨regCell 0x0B2 0x060 + k, 8, 4⟩
abbrev LCAL_SYS_ENGINE : Field := ⟨regCell 0x0B2 0x080, 0, 3⟩
abbrev LCAL_SYS_TARGET : Field := ⟨regCell 0x0B2 0x080, 3, 1⟩
abbrev LCAL_SYS_GO : Field := ⟨regCell 0x0B2 0x080, 4, 1⟩
abbrev LCAL_SYS_STEP_DONE : Field := ⟨regCell 0x0B2 0x080, 5, 1⟩
abbrev LCAL_SYS_STEP : Field := ⟨regCell 0x0B2 0x080, 6, 2⟩
abbrev LCAL_SYS_BUSY : Field := ⟨regCell 0x0B2 0x080, 8, 1⟩
abbrev LCAL_SYS_DONE : Field := ⟨regCell 0x0B2 0x080, 9, 1⟩
abbrev LCAL_SYS_FAIL : Field := ⟨regCell 0x0B2 0x080, 10, 1⟩
abbrev LCAL_SYS_CAUSE : Field := ⟨regCell 0x0B2 0x080, 11, 4⟩
abbrev LCAL_LEVEL_UV (k : Nat) : Field := ⟨regCell 0x0B2 0x084 + k, 0, 32⟩
/-! Table 13.13 -/
abbrev HK_CTRL_EN : Field := ⟨regCell 0x0B8 0x040, 0, 1⟩
abbrev HK_CTRL_AVG : Field := ⟨regCell 0x0B8 0x040, 1, 3⟩
abbrev HK_CTRL_CAL_MODE : Field := ⟨regCell 0x0B8 0x040, 4, 1⟩
abbrev HK_CTRL_CAL0 : Field := ⟨regCell 0x0B8 0x040, 5, 1⟩
abbrev HK_CTRL_CAL1 : Field := ⟨regCell 0x0B8 0x040, 6, 1⟩
abbrev HK_CTRL_CLEAR_FAULT : Field := ⟨regCell 0x0B8 0x040, 7, 1⟩
abbrev HK_EN0_EN : Field := ⟨regCell 0x0B8 0x044, 0, 31⟩
abbrev HK_EN0_REF : Field := ⟨regCell 0x0B8 0x044, 31, 1⟩
abbrev HK_EN1_EN : Field := ⟨regCell 0x0B8 0x048, 0, 31⟩
abbrev HK_EN1_REF : Field := ⟨regCell 0x0B8 0x048, 31, 1⟩
abbrev HK_PLAUS_PLAUS_LSB : Field := ⟨regCell 0x0B8 0x04C, 0, 8⟩
abbrev HK_PLAUS_REF_TOL_LSB : Field := ⟨regCell 0x0B8 0x04C, 8, 16⟩
abbrev HK_STAT_BUSY0 : Field := ⟨regCell 0x0B8 0x050, 0, 1⟩
abbrev HK_STAT_BUSY1 : Field := ⟨regCell 0x0B8 0x050, 1, 1⟩
abbrev HK_STAT_FAULT0 : Field := ⟨regCell 0x0B8 0x050, 2, 1⟩
abbrev HK_STAT_FAULT1 : Field := ⟨regCell 0x0B8 0x050, 3, 1⟩
abbrev HK_STAT_REF_FAULT : Field := ⟨regCell 0x0B8 0x050, 4, 1⟩
abbrev HK_STAT_SUSPECT : Field := ⟨regCell 0x0B8 0x050, 5, 1⟩
abbrev HK_STAT_CAL_FAIL : Field := ⟨regCell 0x0B8 0x050, 6, 1⟩
abbrev HK_STAT_SCAN : Field := ⟨regCell 0x0B8 0x050, 16, 16⟩
abbrev HK_WR_PTR_INDEX : Field := ⟨regCell 0x0B8 0x054, 0, 13⟩
abbrev HK_MIRROR_BASE : Field := ⟨regCell 0x0B8 0x058, 0, 31⟩
abbrev HK_ZERO_UV_UV : Field := ⟨regCell 0x0B8 0x05C, 0, 32⟩
abbrev HK_FS_UV_UV : Field := ⟨regCell 0x0B8 0x060, 0, 24⟩
abbrev HK_FTIME_SNAP_US : Field := ⟨regCell 0x0B8 0x064, 0, 32⟩
/-! Table 13.14 -/
abbrev HK_LAST0_CODE (k : Nat) : Field := ⟨regCell 0x0B9 0x040 + k, 0, 16⟩
abbrev HK_LAST0_INVALID (k : Nat) : Field := ⟨regCell 0x0B9 0x040 + k, 16, 1⟩
abbrev HK_LAST0_SUSPECT (k : Nat) : Field := ⟨regCell 0x0B9 0x040 + k, 17, 1⟩
abbrev HK_LAST1_CODE (k : Nat) : Field := ⟨regCell 0x0B9 0x0C0 + k, 0, 16⟩
abbrev HK_LAST1_INVALID (k : Nat) : Field := ⟨regCell 0x0B9 0x0C0 + k, 16, 1⟩
abbrev HK_LAST1_SUSPECT (k : Nat) : Field := ⟨regCell 0x0B9 0x0C0 + k, 17, 1⟩
/-! Table 14.6 -/
abbrev CHAIN_STAT_POS : Field := ⟨regCell 0x380 0x040, 0, 6⟩
abbrev CHAIN_STAT_ASSIGNED : Field := ⟨regCell 0x380 0x040, 6, 1⟩
abbrev CHAIN_STAT_HEAD : Field := ⟨regCell 0x380 0x040, 7, 1⟩
abbrev CHAIN_STAT_COUNT : Field := ⟨regCell 0x380 0x040, 8, 7⟩
abbrev CHAIN_STAT_RING : Field := ⟨regCell 0x380 0x040, 15, 1⟩
abbrev CHAIN_CTRL_REDISCOVER : Field := ⟨regCell 0x380 0x044, 0, 1⟩
abbrev CHAIN_CTRL_MGMT_TMO : Field := ⟨regCell 0x380 0x044, 16, 16⟩
abbrev MGMT_ERR : Field := ⟨regCell 0x380 0x048, 0, 32⟩
abbrev RELAY_TBL_SEL_TABLE : Field := ⟨regCell 0x380 0x04C, 0, 2⟩
abbrev RELAY_TBL_INDEX_INDEX : Field := ⟨regCell 0x380 0x050, 0, 9⟩
abbrev RELAY_TBL_INDEX_AUTO_INC : Field := ⟨regCell 0x380 0x050, 31, 1⟩
abbrev RELAY_TBL_OP_READ : Field := ⟨regCell 0x380 0x054, 0, 1⟩
abbrev RELAY_TBL_OP_WRITE : Field := ⟨regCell 0x380 0x054, 1, 1⟩
abbrev RELAY_TBL_DATA : Field := ⟨regCell 0x380 0x058, 0, 32⟩
/-! Table 14.8 -/
abbrev RP_STAT_TIME_VALID (n : Nat) : Field := ⟨regCell (0x381 + n) 0x040, 0, 1⟩
abbrev RP_STAT_CONFLICT (n : Nat) : Field := ⟨regCell (0x381 + n) 0x040, 1, 1⟩
abbrev RP_STAT_NEIGH_POS (n : Nat) : Field := ⟨regCell (0x381 + n) 0x040, 2, 6⟩
abbrev RP_STAT_NEIGH_KNOWN (n : Nat) : Field := ⟨regCell (0x381 + n) 0x040, 8, 1⟩
abbrev RL_ASYM_PS_PS (n : Nat) : Field := ⟨regCell (0x381 + n) 0x044, 0, 32⟩
abbrev RP_TOFF_PS (n : Nat) : Field := ⟨regCell (0x381 + n) 0x048, 0, 32⟩
abbrev RL_ERR_THR_THRESHOLD (n : Nat) : Field := ⟨regCell (0x381 + n) 0x04C, 0, 16⟩
/-! Table 14.9 -/
abbrev LANE_CTRL_LP (x : Nat) : Field := ⟨laneCell x + 0, 0, 1⟩
abbrev LANE_CTRL_LB (x : Nat) : Field := ⟨laneCell x + 0, 1, 2⟩
abbrev LANE_TXEQ_PRE2 (x : Nat) : Field := ⟨laneCell x + 1, 0, 5⟩
abbrev LANE_TXEQ_PRE1 (x : Nat) : Field := ⟨laneCell x + 1, 8, 5⟩
abbrev LANE_TXEQ_MAIN (x : Nat) : Field := ⟨laneCell x + 1, 16, 6⟩
abbrev LANE_TXEQ_POST1 (x : Nat) : Field := ⟨laneCell x + 1, 24, 5⟩
abbrev LANE_STAT_LOS (x : Nat) : Field := ⟨laneCell x + 2, 0, 1⟩
abbrev LANE_STAT_LOL (x : Nat) : Field := ⟨laneCell x + 2, 1, 1⟩
abbrev LANE_STAT_LP (x : Nat) : Field := ⟨laneCell x + 2, 2, 1⟩
abbrev LANE_STAT_READY (x : Nat) : Field := ⟨laneCell x + 2, 3, 1⟩
abbrev LANE_STAT_ADAPT_DONE (x : Nat) : Field := ⟨laneCell x + 2, 4, 1⟩
abbrev LANE_STAT_LINK (x : Nat) : Field := ⟨laneCell x + 2, 5, 1⟩
abbrev LANE_STAT_WINDOW_OK (x : Nat) : Field := ⟨laneCell x + 2, 6, 1⟩
abbrev LANE_LOS_LOS_MV (x : Nat) : Field := ⟨laneCell x + 3, 0, 8⟩
abbrev LANE_LOS_HYST_MV (x : Nat) : Field := ⟨laneCell x + 3, 8, 8⟩
abbrev LANE_CNT_LOS_CNT (x : Nat) : Field := ⟨laneCell x + 4, 0, 16⟩
abbrev LANE_CNT_LOL_CNT (x : Nat) : Field := ⟨laneCell x + 4, 16, 16⟩
abbrev LB_SLIP (x : Nat) : Field := ⟨laneCell x + 5, 0, 32⟩
abbrev RL_ARR_ARR (x : Nat) : Field := ⟨laneCell x + 6, 0, 16⟩
abbrev RL_BLK_ERR (x : Nat) : Field := ⟨laneCell x + 7, 0, 32⟩
abbrev RL_HDR_ERR (x : Nat) : Field := ⟨laneCell x + 8, 0, 32⟩
abbrev RL_STUFF_ERR (x : Nat) : Field := ⟨laneCell x + 9, 0, 32⟩
abbrev RL_DCH_ERR (x : Nat) : Field := ⟨laneCell x + 10, 0, 32⟩
/-! Table 14.10 -/
abbrev PRBS_CTRL_GEN_PAT (i : Nat) : Field := ⟨knaefCell i + 0, 0, 3⟩
abbrev PRBS_CTRL_GEN_EN (i : Nat) : Field := ⟨knaefCell i + 0, 3, 1⟩
abbrev PRBS_CTRL_CHK_PAT (i : Nat) : Field := ⟨knaefCell i + 0, 4, 3⟩
abbrev PRBS_CTRL_CHK_EN (i : Nat) : Field := ⟨knaefCell i + 0, 7, 1⟩
abbrev PRBS_CTRL_INV (i : Nat) : Field := ⟨knaefCell i + 0, 8, 1⟩
abbrev PRBS_CTRL_CNT_CLR (i : Nat) : Field := ⟨knaefCell i + 0, 9, 1⟩
abbrev PRBS_CTRL_INJ_ONE (i : Nat) : Field := ⟨knaefCell i + 0, 10, 1⟩
abbrev PRBS_CTRL_INJ_RATE (i : Nat) : Field := ⟨knaefCell i + 0, 11, 3⟩
abbrev PRBS_STAT_LOCK (i : Nat) : Field := ⟨knaefCell i + 1, 0, 1⟩
abbrev PRBS_STAT_LOCK_LOST (i : Nat) : Field := ⟨knaefCell i + 1, 1, 1⟩
abbrev PRBS_ERR (i : Nat) : Field := ⟨knaefCell i + 2, 0, 32⟩
abbrev PRBS_BITS_LO (i : Nat) : Field := ⟨knaefCell i + 3, 0, 32⟩
abbrev PRBS_BITS_HI (i : Nat) : Field := ⟨knaefCell i + 4, 0, 32⟩
abbrev PRBS_USER_LO (i : Nat) : Field := ⟨knaefCell i + 5, 0, 32⟩
abbrev PRBS_USER_HI (i : Nat) : Field := ⟨knaefCell i + 6, 0, 32⟩
/-! Table 15.7 -/
abbrev LINK_STAT_UP : Field := ⟨regCell 0x040 0x040, 0, 1⟩
abbrev LINK_STAT_SPEED : Field := ⟨regCell 0x040 0x040, 1, 3⟩
abbrev LINK_STAT_WIDTH : Field := ⟨regCell 0x040 0x040, 4, 3⟩
abbrev PCIE_ERR_CORR : Field := ⟨regCell 0x040 0x044, 0, 16⟩
abbrev PCIE_ERR_POISON_WR : Field := ⟨regCell 0x040 0x044, 16, 16⟩
abbrev PCIE_RST_FLR : Field := ⟨regCell 0x040 0x048, 0, 16⟩
abbrev PCIE_RST_LINK_DOWN : Field := ⟨regCell 0x040 0x048, 16, 16⟩
/-! Table 15.8 -/
abbrev WIN_BASE_BASE : Field := ⟨regCell 0x041 0x040, 0, 21⟩
abbrev WIN_HOME_BASE : Field := ⟨regCell 0x041 0x044, 0, 21⟩
abbrev COMMIT_ALL_GO : Field := ⟨regCell 0x041 0x048, 0, 1⟩
abbrev COMMIT_ALL_RESULT : Field := ⟨regCell 0x041 0x048, 1, 2⟩
/-! Table 15.9 -/
abbrev Q_CFG_EN (k : Nat) : Field := ⟨regCell 0x042 0x040 + k, 0, 1⟩
abbrev Q_CFG_CONSUMER (k : Nat) : Field := ⟨regCell 0x042 0x040 + k, 1, 1⟩
abbrev Q_CFG_PRIO_SRC (k : Nat) : Field := ⟨regCell 0x042 0x040 + k, 2, 1⟩
abbrev Q_CFG_PRIO_DEF (k : Nat) : Field := ⟨regCell 0x042 0x040 + k, 3, 3⟩
abbrev Q_CFG_WPIN_EN (k : Nat) : Field := ⟨regCell 0x042 0x040 + k, 6, 1⟩
abbrev Q_CFG_WPIN (k : Nat) : Field := ⟨regCell 0x042 0x040 + k, 7, 2⟩
abbrev Q_CFG_CAP_KIB (k : Nat) : Field := ⟨regCell 0x042 0x040 + k, 12, 20⟩
abbrev Q_WM_HWM_KIB (k : Nat) : Field := ⟨regCell 0x042 0x0C0 + 2 * k, 0, 20⟩
abbrev Q_WM_LWM_KIB (k : Nat) : Field := ⟨regCell 0x042 0x0C4 + 2 * k, 0, 20⟩
abbrev Q_LAND_OFFSET (k : Nat) : Field := ⟨regCell 0x042 0x1C0 + 2 * k, 0, 32⟩
abbrev Q_LAND_SLOTS_M1 (k : Nat) : Field := ⟨regCell 0x042 0x1C4 + 2 * k, 0, 12⟩
abbrev Q_LAND_SIZE (k : Nat) : Field := ⟨regCell 0x042 0x1C4 + 2 * k, 12, 3⟩
/-! Table 15.10 -/
abbrev Q_POP_WORD (k : Nat) : Field := ⟨regCell 0x043 0x040 + k, 0, 32⟩
abbrev Q_CTL_MARK (k : Nat) : Field := ⟨regCell 0x043 0x0C0 + k, 0, 1⟩
abbrev Q_CTL_REWIND (k : Nat) : Field := ⟨regCell 0x043 0x0C0 + k, 1, 1⟩
abbrev Q_CTL_RELEASE (k : Nat) : Field := ⟨regCell 0x043 0x0C0 + k, 2, 1⟩
abbrev Q_CTL_SEQ (k : Nat) : Field := ⟨regCell 0x043 0x0C0 + k, 16, 16⟩
abbrev Q_STAT_ABOVE (k : Nat) : Field := ⟨regCell 0x043 0x140 + k, 0, 1⟩
abbrev Q_STAT_MARKED (k : Nat) : Field := ⟨regCell 0x043 0x140 + k, 1, 1⟩
abbrev Q_STAT_STALLING (k : Nat) : Field := ⟨regCell 0x043 0x140 + k, 2, 1⟩
abbrev Q_STAT_HELD (k : Nat) : Field := ⟨regCell 0x043 0x140 + k, 4, 12⟩
abbrev Q_STAT_NEXT_SEQ (k : Nat) : Field := ⟨regCell 0x043 0x140 + k, 16, 16⟩
abbrev Q_OCC_OCC_KIB (k : Nat) : Field := ⟨regCell 0x043 0x1C0 + k, 0, 20⟩
abbrev Q_OCC_WAITING (k : Nat) : Field := ⟨regCell 0x043 0x1C0 + k, 20, 12⟩
abbrev Q_DROP (k : Nat) : Field := ⟨regCell 0x043 0x240 + k, 0, 32⟩
abbrev Q_STALL_STALL_US : Field := ⟨regCell 0x043 0x2C0, 0, 10⟩
abbrev Q_PUSH_QUEUE : Field := ⟨regCell 0x043 0x2C4, 0, 5⟩
abbrev Q_PUSH_PRIO : Field := ⟨regCell 0x043 0x2C4, 5, 3⟩
abbrev Q_PUSH_GO : Field := ⟨regCell 0x043 0x2C4, 8, 1⟩
abbrev Q_PUSH_LENGTH : Field := ⟨regCell 0x043 0x2C4, 16, 14⟩
abbrev Q_PUSH_SRC_OFFSET : Field := ⟨regCell 0x043 0x2C8, 0, 32⟩
abbrev Q_PUSH_STAT_BUSY : Field := ⟨regCell 0x043 0x2CC, 0, 1⟩
abbrev Q_PUSH_STAT_RESULT : Field := ⟨regCell 0x043 0x2CC, 1, 3⟩
/-! Table 15.11 -/
abbrev ALM_CTRL_EXPECT_EN : Field := ⟨regCell 0x001 0x040, 0, 1⟩
abbrev ALM_STAT_DIGEST_VALID : Field := ⟨regCell 0x001 0x044, 0, 1⟩
abbrev ALM_STAT_MATCH : Field := ⟨regCell 0x001 0x044, 1, 1⟩
abbrev ALM_STAT_CHAIN_VALID : Field := ⟨regCell 0x001 0x044, 2, 1⟩
abbrev ALM_STAT_CHAIN_MATCH : Field := ⟨regCell 0x001 0x044, 3, 1⟩
abbrev ALM_STAT_COLLECT_BUSY : Field := ⟨regCell 0x001 0x044, 4, 1⟩
abbrev ALM_STAT_CHAIN_DONE : Field := ⟨regCell 0x001 0x044, 5, 1⟩
abbrev EPOCH_LO : Field := ⟨regCell 0x001 0x048, 0, 32⟩
abbrev EPOCH_HI : Field := ⟨regCell 0x001 0x04C, 0, 32⟩
abbrev DIGEST_EPOCH_LO : Field := ⟨regCell 0x001 0x050, 0, 32⟩
abbrev DIGEST_EPOCH_HI : Field := ⟨regCell 0x001 0x054, 0, 32⟩
abbrev DIGEST_D (k : Nat) : Field := ⟨regCell 0x001 0x058 + k, 0, 32⟩
abbrev EXPECT_D (k : Nat) : Field := ⟨regCell 0x001 0x098 + k, 0, 32⟩
abbrev JRN_BASE_BASE : Field := ⟨regCell 0x001 0x0D8, 0, 31⟩
abbrev JRN_WR_INDEX : Field := ⟨regCell 0x001 0x0DC, 0, 16⟩
abbrev COLLECT_GO : Field := ⟨regCell 0x001 0x0E0, 0, 1⟩
abbrev COLLECT_ANSWERED : Field := ⟨regCell 0x001 0x0E0, 8, 7⟩
abbrev CHAIN_DIGEST_D (k : Nat) : Field := ⟨regCell 0x001 0x0E4 + k, 0, 32⟩
abbrev CHAIN_EXPECT_D (k : Nat) : Field := ⟨regCell 0x001 0x124 + k, 0, 32⟩
abbrev CHAIN_TIME_NS_NS : Field := ⟨regCell 0x001 0x164, 0, 30⟩
abbrev CHAIN_TIME_FRAC_FRAC : Field := ⟨regCell 0x001 0x168, 0, 16⟩
abbrev CHAIN_TIME_SEC_LO_SEC : Field := ⟨regCell 0x001 0x16C, 0, 32⟩
abbrev CHAIN_TIME_SEC_HI_SEC : Field := ⟨regCell 0x001 0x170, 0, 16⟩
abbrev POS_STAT_ASSIGNED (k : Nat) : Field := ⟨regCell 0x001 0x180 + k, 0, 1⟩
abbrev POS_STAT_PRESENT (k : Nat) : Field := ⟨regCell 0x001 0x180 + k, 1, 1⟩
abbrev POS_STAT_VALID (k : Nat) : Field := ⟨regCell 0x001 0x180 + k, 2, 1⟩
abbrev POS_STAT_CHANGED (k : Nat) : Field := ⟨regCell 0x001 0x180 + k, 3, 1⟩
abbrev POS_SEL_POS : Field := ⟨regCell 0x001 0x280, 0, 6⟩
abbrev POS_DIGEST_D (k : Nat) : Field := ⟨regCell 0x001 0x284 + k, 0, 32⟩
abbrev POS_EPOCH_LO : Field := ⟨regCell 0x001 0x2C4, 0, 32⟩
abbrev POS_EPOCH_HI : Field := ⟨regCell 0x001 0x2C8, 0, 32⟩
/-! Table 16.2 -/
abbrev EV_SUMMARY_GROUP : Field := ⟨regCell 0x020 0x040, 0, 32⟩
abbrev VEC_STAT_INPUT : Field := ⟨regCell 0x020 0x044, 0, 32⟩
abbrev PIN_STAT_LOW : Field := ⟨regCell 0x020 0x048, 0, 4⟩
abbrev EV_FORCE_BIT : Field := ⟨regCell 0x020 0x04C, 0, 5⟩
abbrev EV_FORCE_GROUP : Field := ⟨regCell 0x020 0x04C, 5, 5⟩
abbrev EV_FORCE_GO : Field := ⟨regCell 0x020 0x04C, 10, 1⟩
abbrev FORCED : Field := ⟨regCell 0x020 0x050, 0, 32⟩
abbrev VEC_HOLDOFF_HOLDOFF_US (k : Nat) : Field := ⟨regCell 0x020 0x080 + k, 0, 14⟩
/-! Table 16.6 -/
abbrev PERF_CTRL_FREEZE : Field := ⟨regCell 0x030 0x040, 0, 1⟩
abbrev PERF_CTRL_CLEAR_ALL : Field := ⟨regCell 0x030 0x040, 1, 1⟩
abbrev PERF_TBL_SEL_TABLE : Field := ⟨regCell 0x030 0x044, 0, 1⟩
abbrev PERF_TBL_INDEX_INDEX : Field := ⟨regCell 0x030 0x048, 0, 13⟩
abbrev PERF_TBL_INDEX_AUTO_INC : Field := ⟨regCell 0x030 0x048, 31, 1⟩
abbrev PERF_TBL_OP_READ : Field := ⟨regCell 0x030 0x04C, 0, 1⟩
abbrev PERF_TBL_OP_WRITE : Field := ⟨regCell 0x030 0x04C, 1, 1⟩
abbrev PERF_TBL_DATA (k : Nat) : Field := ⟨regCell 0x030 0x050 + k, 0, 32⟩
abbrev COLLISIONS : Field := ⟨regCell 0x030 0x060, 0, 32⟩
/-! Table 16.8 -/
abbrev OVF_OVF (k : Nat) : Field := ⟨regCell 0x031 0x040 + k, 0, 32⟩
/-! Table 16.8 -/
abbrev USER_EN_EN (k : Nat) : Field := ⟨regCell 0x032 0x040 + k, 0, 32⟩
/-! Table 17.9 -/
abbrev PWR_CTRL_SLEEP : Field := ⟨regCell 0x002 0x040, 0, 1⟩
abbrev PWR_CTRL_FORCE_COLD : Field := ⟨regCell 0x002 0x040, 1, 1⟩
abbrev PWR_STAT_STATE : Field := ⟨regCell 0x002 0x044, 0, 3⟩
abbrev PWR_STAT_STEP : Field := ⟨regCell 0x002 0x044, 3, 4⟩
abbrev PWR_STAT_CAUSE : Field := ⟨regCell 0x002 0x044, 7, 3⟩
abbrev PWR_STAT_QUICK : Field := ⟨regCell 0x002 0x044, 10, 1⟩
abbrev PWR_STAT_LINE_UNMON : Field := ⟨regCell 0x002 0x044, 11, 1⟩
abbrev PWR_RAIL_WIN_PERMIL : Field := ⟨regCell 0x002 0x048, 0, 8⟩
abbrev PWR_RAIL_FAULT_RAIL : Field := ⟨regCell 0x002 0x04C, 0, 17⟩
abbrev STARTUP_MS_MS : Field := ⟨regCell 0x002 0x050, 0, 16⟩
/-! Table 17.10 -/
abbrev PLL_STAT_HUB : Field := ⟨regCell 0x004 0x040, 0, 1⟩
abbrev PLL_STAT_PARSE : Field := ⟨regCell 0x004 0x040, 1, 1⟩
abbrev PLL_STAT_HBM : Field := ⟨regCell 0x004 0x040, 2, 4⟩
abbrev PLL_STAT_PCIE : Field := ⟨regCell 0x004 0x040, 6, 1⟩
abbrev PLL_STAT_TIME : Field := ⟨regCell 0x004 0x040, 7, 1⟩
abbrev PLL_STAT_FINDER : Field := ⟨regCell 0x004 0x040, 8, 1⟩
abbrev PLL_LOL_CNT : Field := ⟨regCell 0x004 0x044, 0, 32⟩
/-! Table 17.11 -/
abbrev THERM_THR_WARN : Field := ⟨regCell 0x010 0x040, 0, 10⟩
abbrev THERM_THR_THROTTLE : Field := ⟨regCell 0x010 0x040, 10, 10⟩
abbrev THERM_THR_SHUTDOWN : Field := ⟨regCell 0x010 0x040, 20, 10⟩
abbrev THERM_HBM_HBM_LIMIT : Field := ⟨regCell 0x010 0x044, 0, 10⟩
abbrev THERM_HBM_HBM_SHUT : Field := ⟨regCell 0x010 0x044, 10, 10⟩
abbrev THERM_CTRL_STEP_MS : Field := ⟨regCell 0x010 0x048, 0, 10⟩
abbrev THERM_CTRL_RELEASE_MS : Field := ⟨regCell 0x010 0x048, 10, 13⟩
abbrev THERM_CTRL_SUBST_MARGIN : Field := ⟨regCell 0x010 0x048, 23, 5⟩
abbrev THERM_CTRL_SENSOR_RESET : Field := ⟨regCell 0x010 0x048, 31, 1⟩
abbrev THERM_PLAUS_PLAUS_DEG : Field := ⟨regCell 0x010 0x04C, 0, 8⟩
abbrev THERM_STAT_WARN : Field := ⟨regCell 0x010 0x050, 0, 1⟩
abbrev THERM_STAT_THROTTLE : Field := ⟨regCell 0x010 0x050, 1, 1⟩
abbrev THERM_STAT_SHUTDOWN : Field := ⟨regCell 0x010 0x050, 2, 1⟩
abbrev THERM_STAT_HBM_LIMIT : Field := ⟨regCell 0x010 0x050, 3, 4⟩
abbrev THERM_STAT_HOTTEST : Field := ⟨regCell 0x010 0x050, 7, 6⟩
abbrev THERM_STAT_T_CTL : Field := ⟨regCell 0x010 0x050, 16, 16⟩
abbrev THERM_FAIL_LO_FAIL : Field := ⟨regCell 0x010 0x054, 0, 32⟩
abbrev THERM_FAIL_HI_FAIL : Field := ⟨regCell 0x010 0x058, 0, 4⟩
/-! Table 17.12 -/
abbrev THERM_T_TEMP (k : Nat) : Field := ⟨regCell 0x011 0x040 + k, 0, 16⟩
abbrev THERM_T_FAIL (k : Nat) : Field := ⟨regCell 0x011 0x040 + k, 16, 1⟩
abbrev THERM_T_CAUSE (k : Nat) : Field := ⟨regCell 0x011 0x040 + k, 17, 2⟩
/-! Table 17.13 -/
abbrev FINDER_CTRL_WAKE_PIN : Field := ⟨regCell 0x018 0x040, 0, 1⟩
abbrev FINDER_CTRL_WAKE_TMR : Field := ⟨regCell 0x018 0x040, 1, 1⟩
abbrev FINDER_CTRL_WAKE_DRONE : Field := ⟨regCell 0x018 0x040, 2, 1⟩
abbrev FINDER_CTRL_BUNDLE_EN : Field := ⟨regCell 0x018 0x040, 3, 1⟩
abbrev WAKE_TIMER_S : Field := ⟨regCell 0x018 0x044, 0, 24⟩
abbrev WAKE_CAUSE_SOURCE : Field := ⟨regCell 0x018 0x048, 0, 3⟩
abbrev WAKE_CAUSE_GROUP : Field := ⟨regCell 0x018 0x048, 3, 5⟩
abbrev WAKE_CAUSE_ENGINE : Field := ⟨regCell 0x018 0x048, 8, 3⟩
abbrev FINDER_STAT_BOOTED : Field := ⟨regCell 0x018 0x04C, 0, 1⟩
abbrev FINDER_STAT_BIST_REC : Field := ⟨regCell 0x018 0x04C, 1, 1⟩
abbrev FINDER_STAT_RESTARTS : Field := ⟨regCell 0x018 0x04C, 16, 16⟩
/-! Table 18.6 -/
abbrev MEMI_CTRL_CE_THR : Field := ⟨regCell 0x080 0x040, 0, 16⟩
abbrev MEMI_CTRL_LOG_FREEZE : Field := ⟨regCell 0x080 0x040, 16, 1⟩
abbrev CE_CNT : Field := ⟨regCell 0x080 0x044, 0, 32⟩
abbrev UE_CNT : Field := ⟨regCell 0x080 0x048, 0, 32⟩
abbrev POISON_CNT : Field := ⟨regCell 0x080 0x04C, 0, 32⟩
abbrev POISON_READ : Field := ⟨regCell 0x080 0x050, 0, 32⟩
abbrev LOG_WR_INDEX : Field := ⟨regCell 0x080 0x054, 0, 6⟩
abbrev LOG_INDEX_INDEX : Field := ⟨regCell 0x080 0x058, 0, 6⟩
abbrev LOG_DATA (k : Nat) : Field := ⟨regCell 0x080 0x05C + k, 0, 32⟩
/-! Table 18.8 -/
abbrev SCRUB_CTRL_TARGET : Field := ⟨regCell 0x081 0x040, 0, 1⟩
abbrev SCRUB_CTRL_GO : Field := ⟨regCell 0x081 0x040, 1, 1⟩
abbrev SCRUB_CTRL_ABORT : Field := ⟨regCell 0x081 0x040, 2, 1⟩
abbrev SCRUB_CTRL_BUSY : Field := ⟨regCell 0x081 0x040, 3, 1⟩
abbrev SCRUB_CTRL_ABORTED : Field := ⟨regCell 0x081 0x040, 4, 1⟩
abbrev SCRUB_CTRL_RATE_GBPS : Field := ⟨regCell 0x081 0x040, 8, 5⟩
abbrev SCRUB_BASE_BASE : Field := ⟨regCell 0x081 0x044, 0, 31⟩
abbrev SCRUB_LEN_UNITS : Field := ⟨regCell 0x081 0x048, 0, 31⟩
abbrev SCRUB_DONE_UNITS : Field := ⟨regCell 0x081 0x04C, 0, 31⟩
abbrev SCRUB_CE : Field := ⟨regCell 0x081 0x050, 0, 32⟩
abbrev SCRUB_UE : Field := ⟨regCell 0x081 0x054, 0, 32⟩
abbrev SCRUB_POISON : Field := ⟨regCell 0x081 0x058, 0, 32⟩
abbrev SCRUB_SKIPPED : Field := ⟨regCell 0x081 0x05C, 0, 32⟩
abbrev SCRUB_FIRST_UE_ADDR : Field := ⟨regCell 0x081 0x060, 0, 31⟩
/-! Table 18.9 -/
abbrev TEST_CTRL_TARGET : Field := ⟨regCell 0x082 0x040, 0, 1⟩
abbrev TEST_CTRL_WRITE : Field := ⟨regCell 0x082 0x040, 1, 1⟩
abbrev TEST_CTRL_READ_RAW : Field := ⟨regCell 0x082 0x040, 2, 1⟩
abbrev TEST_ADDR_WORD : Field := ⟨regCell 0x082 0x044, 0, 13⟩
abbrev TEST_DATA_LO : Field := ⟨regCell 0x082 0x048, 0, 32⟩
abbrev TEST_DATA_HI : Field := ⟨regCell 0x082 0x04C, 0, 32⟩
abbrev TEST_CHECK_CHECK : Field := ⟨regCell 0x082 0x050, 0, 8⟩
/-! Table 18.9 -/
abbrev PPR_CTRL_HARD_NEXT : Field := ⟨regCell 0x083 0x040, 0, 1⟩
abbrev PPR_CTRL_CLEAR_CAND : Field := ⟨regCell 0x083 0x040, 1, 1⟩
abbrev PPR_STAT_CANDIDATES : Field := ⟨regCell 0x083 0x044, 0, 9⟩
abbrev PPR_STAT_SOFT : Field := ⟨regCell 0x083 0x044, 16, 8⟩
abbrev PPR_STAT_HARD : Field := ⟨regCell 0x083 0x044, 24, 8⟩
abbrev RETIRED_LO : Field := ⟨regCell 0x083 0x048, 0, 32⟩
abbrev RETIRED_HI : Field := ⟨regCell 0x083 0x04C, 0, 32⟩
abbrev SRAM_SPARES_USED : Field := ⟨regCell 0x083 0x050, 0, 16⟩
/-! Table 18.10 -/
abbrev BIST_CTRL_GO : Field := ⟨regCell 0x070 0x040, 0, 1⟩
abbrev BIST_CTRL_ABORT : Field := ⟨regCell 0x070 0x040, 1, 1⟩
abbrev BIST_STAT_BUSY : Field := ⟨regCell 0x070 0x044, 0, 1⟩
abbrev BIST_STAT_KIND : Field := ⟨regCell 0x070 0x044, 1, 2⟩
abbrev BIST_STAT_ESSENTIAL_LOST : Field := ⟨regCell 0x070 0x044, 3, 1⟩
abbrev BIST_SEL_SEL (k : Nat) : Field := ⟨regCell 0x070 0x048 + k, 0, 32⟩
abbrev BIST_OFF_OFF (k : Nat) : Field := ⟨regCell 0x070 0x054 + k, 0, 32⟩
abbrev BIST_REFUSE_PAGE : Field := ⟨regCell 0x070 0x060, 0, 16⟩
abbrev BIST_REFUSE_COUNT : Field := ⟨regCell 0x070 0x060, 16, 16⟩
/-! Table 18.10 -/
abbrev RES_INDEX_BLOCK : Field := ⟨regCell 0x071 0x040, 0, 7⟩
abbrev RES_STAT_RESULT : Field := ⟨regCell 0x071 0x044, 0, 3⟩
abbrev RES_STAT_UNUSABLE : Field := ⟨regCell 0x071 0x044, 3, 1⟩
abbrev RES_STAT_FLAGGED : Field := ⟨regCell 0x071 0x044, 4, 1⟩
abbrev RES_STAT_OFF : Field := ⟨regCell 0x071 0x044, 5, 1⟩
abbrev RES_PATTERNS : Field := ⟨regCell 0x071 0x048, 0, 32⟩
abbrev RES_FAIL_ADDR_ADDR : Field := ⟨regCell 0x071 0x04C, 0, 32⟩
abbrev RES_FAIL_BIT_BIT : Field := ⟨regCell 0x071 0x050, 0, 7⟩
/-! Table 18.10 -/
abbrev DIR_CTRL_BLOCK : Field := ⟨regCell 0x072 0x040, 0, 7⟩
abbrev DIR_CTRL_GO : Field := ⟨regCell 0x072 0x040, 7, 1⟩
abbrev DIR_SEED_SEED : Field := ⟨regCell 0x072 0x044, 0, 32⟩
abbrev DIR_PATTERNS : Field := ⟨regCell 0x072 0x048, 0, 32⟩
abbrev DIR_SIG_SIG (k : Nat) : Field := ⟨regCell 0x072 0x04C + k, 0, 32⟩
/-! Table 19.7 -/
abbrev FUSE_CAPS_LINE_EN : Field := ⟨regCell 0x000 0x040, 0, 8⟩
abbrev FUSE_CAPS_OCT_EN : Field := ⟨regCell 0x000 0x040, 8, 8⟩
abbrev STRAPS_FLEET_MODE : Field := ⟨regCell 0x000 0x044, 0, 1⟩
abbrev STRAPS_CHAIN_HEAD : Field := ⟨regCell 0x000 0x044, 1, 1⟩
abbrev STRAPS_MODE_OVERRIDDEN : Field := ⟨regCell 0x000 0x044, 2, 1⟩
abbrev STRAPS_FLEET_EFF : Field := ⟨regCell 0x000 0x044, 3, 1⟩
abbrev STRAPS_FLEET_SETTLED : Field := ⟨regCell 0x000 0x044, 4, 1⟩
abbrev LC_STAT_STATE : Field := ⟨regCell 0x000 0x048, 0, 3⟩
abbrev LC_STAT_PENDING : Field := ⟨regCell 0x000 0x048, 3, 1⟩
abbrev LC_STAT_PEND_TARGET : Field := ⟨regCell 0x000 0x048, 4, 3⟩
abbrev LC_CMD_TARGET : Field := ⟨regCell 0x000 0x04C, 0, 3⟩
abbrev LC_CMD_GO : Field := ⟨regCell 0x000 0x04C, 3, 1⟩
abbrev LC_CMD_CONFIRM : Field := ⟨regCell 0x000 0x04C, 16, 16⟩
abbrev KEY_ID_LO : Field := ⟨regCell 0x000 0x050, 0, 32⟩
abbrev KEY_ID_HI : Field := ⟨regCell 0x000 0x054, 0, 32⟩
abbrev SERIAL_LO : Field := ⟨regCell 0x000 0x058, 0, 32⟩
abbrev SERIAL_HI : Field := ⟨regCell 0x000 0x05C, 0, 32⟩
abbrev IDCODE_ID : Field := ⟨regCell 0x000 0x060, 0, 32⟩
abbrev POS_POS : Field := ⟨regCell 0x000 0x064, 0, 6⟩
/-! Table 19.8 -/
abbrev BOOT_STAT_SLOT : Field := ⟨regCell 0x060 0x040, 0, 1⟩
abbrev BOOT_STAT_FALLBACK : Field := ⟨regCell 0x060 0x040, 1, 1⟩
abbrev BOOT_STAT_FAIL_TYPE : Field := ⟨regCell 0x060 0x040, 8, 8⟩
abbrev BOOT_STAT_FAIL_CAUSE : Field := ⟨regCell 0x060 0x040, 16, 3⟩
abbrev ARB_COUNT : Field := ⟨regCell 0x060 0x044, 0, 7⟩
abbrev ARB_RUN_MIN_SVN : Field := ⟨regCell 0x060 0x044, 8, 7⟩
abbrev ARB_CMD_ADVANCE : Field := ⟨regCell 0x060 0x048, 0, 1⟩
abbrev FW_INSTALL_GO : Field := ⟨regCell 0x060 0x04C, 0, 1⟩
abbrev FW_INSTALL_BUSY : Field := ⟨regCell 0x060 0x04C, 1, 1⟩
abbrev FW_INSTALL_DONE : Field := ⟨regCell 0x060 0x04C, 2, 1⟩
abbrev FW_INSTALL_FAIL : Field := ⟨regCell 0x060 0x04C, 3, 1⟩
abbrev FW_SRC_OFFSET : Field := ⟨regCell 0x060 0x050, 0, 32⟩
abbrev FW_LEN_BYTES : Field := ⟨regCell 0x060 0x054, 0, 32⟩
abbrev MEASURE (k : Nat) : Field := ⟨regCell 0x060 0x058 + k, 0, 32⟩
abbrev OWNER_HASH (k : Nat) : Field := ⟨regCell 0x060 0x098 + k, 0, 32⟩
/-! Table 19.9 -/
abbrev ATT_CTRL_GO : Field := ⟨regCell 0x061 0x040, 0, 1⟩
abbrev ATT_CTRL_BUSY : Field := ⟨regCell 0x061 0x040, 1, 1⟩
abbrev ATT_CTRL_DONE : Field := ⟨regCell 0x061 0x040, 2, 1⟩
abbrev ATT_CTRL_REFUSED : Field := ⟨regCell 0x061 0x040, 3, 1⟩
abbrev ATT_DST_OFFSET : Field := ⟨regCell 0x061 0x044, 0, 32⟩
abbrev ATT_NONCE_NONCE (k : Nat) : Field := ⟨regCell 0x061 0x048 + k, 0, 32⟩
abbrev CERT_CTRL_COPY : Field := ⟨regCell 0x061 0x068, 0, 1⟩
abbrev CERT_CTRL_INSTALL : Field := ⟨regCell 0x061 0x068, 1, 1⟩
abbrev CERT_DST_OFFSET : Field := ⟨regCell 0x061 0x06C, 0, 32⟩
abbrev CERT_LEN_BYTES : Field := ⟨regCell 0x061 0x070, 0, 13⟩
abbrev BUNDLE_CTRL_APPLY : Field := ⟨regCell 0x061 0x074, 0, 1⟩
abbrev BUNDLE_CTRL_STORE : Field := ⟨regCell 0x061 0x074, 1, 1⟩
abbrev BUNDLE_CTRL_BUSY : Field := ⟨regCell 0x061 0x074, 2, 1⟩
abbrev BUNDLE_CTRL_DONE : Field := ⟨regCell 0x061 0x074, 3, 1⟩
abbrev BUNDLE_CTRL_FAIL : Field := ⟨regCell 0x061 0x074, 4, 1⟩
abbrev BUNDLE_SRC_OFFSET : Field := ⟨regCell 0x061 0x078, 0, 32⟩
abbrev BUNDLE_STAT_STOP_REC : Field := ⟨regCell 0x061 0x07C, 0, 32⟩
/-! Table 19.10 -/
abbrev FE_CTRL_ENGINE : Field := ⟨regCell 0x062 0x040, 0, 3⟩
abbrev FE_CTRL_READ : Field := ⟨regCell 0x062 0x040, 3, 1⟩
abbrev FE_STAT_VALID : Field := ⟨regCell 0x062 0x044, 0, 1⟩
abbrev FE_STAT_BUS_ERR : Field := ⟨regCell 0x062 0x044, 1, 1⟩
abbrev FE_STAT_BUSY : Field := ⟨regCell 0x062 0x044, 2, 1⟩
abbrev FE_STAT_REV : Field := ⟨regCell 0x062 0x044, 8, 8⟩
abbrev FE_INDEX_WORD : Field := ⟨regCell 0x062 0x048, 0, 8⟩
abbrev FE_DATA : Field := ⟨regCell 0x062 0x04C, 0, 32⟩
/-! The table windows' entries. -/
abbrev MAP_EN (i : Nat) : Field := ⟨tableCell 0 i 0, 0, 1⟩
abbrev MAP_BDI_EN (i : Nat) : Field := ⟨tableCell 0 i 0, 1, 1⟩
abbrev MAP_TS_EN (i : Nat) : Field := ⟨tableCell 0 i 0, 2, 1⟩
abbrev MAP_TIM_ACT (i : Nat) : Field := ⟨tableCell 0 i 0, 3, 1⟩
abbrev MAP_TIM_MODE (i : Nat) : Field := ⟨tableCell 0 i 0, 4, 2⟩
abbrev MAP_MEMBERS_M1 (i : Nat) : Field := ⟨tableCell 0 i 0, 6, 7⟩
abbrev MAP_SKEW_MAX_US (i : Nat) : Field := ⟨tableCell 0 i 1, 0, 8⟩
abbrev SLOT_USED (i : Nat) : Field := ⟨tableCell 1 i 0, 0, 1⟩
abbrev SLOT_COURSE (i : Nat) : Field := ⟨tableCell 1 i 0, 1, 9⟩
abbrev SLOT_MEMBER (i : Nat) : Field := ⟨tableCell 1 i 0, 10, 7⟩
abbrev TTI_EXP_W0 (i : Nat) : Field := ⟨tableCell 2 i 0, 0, 32⟩
abbrev TTI_EXP_W1 (i : Nat) : Field := ⟨tableCell 2 i 1, 0, 32⟩
abbrev TTI_EXP_W2 (i : Nat) : Field := ⟨tableCell 2 i 2, 0, 32⟩
abbrev TTI_EXP_W3 (i : Nat) : Field := ⟨tableCell 2 i 3, 0, 32⟩
abbrev TTI_EXP_W4 (i : Nat) : Field := ⟨tableCell 2 i 4, 0, 32⟩
abbrev TTI_EXP_W5 (i : Nat) : Field := ⟨tableCell 2 i 5, 0, 32⟩
abbrev TTI_EXP_W6 (i : Nat) : Field := ⟨tableCell 2 i 6, 0, 32⟩
abbrev TTI_EXP_W7 (i : Nat) : Field := ⟨tableCell 2 i 7, 0, 32⟩
abbrev TTI_EXP_W8 (i : Nat) : Field := ⟨tableCell 2 i 8, 0, 32⟩
abbrev TTI_EXP_W9 (i : Nat) : Field := ⟨tableCell 2 i 9, 0, 32⟩
abbrev TTI_EXP_W10 (i : Nat) : Field := ⟨tableCell 2 i 10, 0, 32⟩
abbrev TTI_EXP_W11 (i : Nat) : Field := ⟨tableCell 2 i 11, 0, 32⟩
abbrev TTI_EXP_W12 (i : Nat) : Field := ⟨tableCell 2 i 12, 0, 32⟩
abbrev TTI_EXP_W13 (i : Nat) : Field := ⟨tableCell 2 i 13, 0, 32⟩
abbrev TTI_EXP_W14 (i : Nat) : Field := ⟨tableCell 2 i 14, 0, 32⟩
abbrev TTI_EXP_W15 (i : Nat) : Field := ⟨tableCell 2 i 15, 0, 32⟩
abbrev TTI_TX_W0 (i : Nat) : Field := ⟨tableCell 3 i 0, 0, 32⟩
abbrev TTI_TX_W1 (i : Nat) : Field := ⟨tableCell 3 i 1, 0, 32⟩
abbrev TTI_TX_W2 (i : Nat) : Field := ⟨tableCell 3 i 2, 0, 32⟩
abbrev TTI_TX_W3 (i : Nat) : Field := ⟨tableCell 3 i 3, 0, 32⟩
abbrev TTI_TX_W4 (i : Nat) : Field := ⟨tableCell 3 i 4, 0, 32⟩
abbrev TTI_TX_W5 (i : Nat) : Field := ⟨tableCell 3 i 5, 0, 32⟩
abbrev TTI_TX_W6 (i : Nat) : Field := ⟨tableCell 3 i 6, 0, 32⟩
abbrev TTI_TX_W7 (i : Nat) : Field := ⟨tableCell 3 i 7, 0, 32⟩
abbrev TTI_TX_W8 (i : Nat) : Field := ⟨tableCell 3 i 8, 0, 32⟩
abbrev TTI_TX_W9 (i : Nat) : Field := ⟨tableCell 3 i 9, 0, 32⟩
abbrev TTI_TX_W10 (i : Nat) : Field := ⟨tableCell 3 i 10, 0, 32⟩
abbrev TTI_TX_W11 (i : Nat) : Field := ⟨tableCell 3 i 11, 0, 32⟩
abbrev TTI_TX_W12 (i : Nat) : Field := ⟨tableCell 3 i 12, 0, 32⟩
abbrev TTI_TX_W13 (i : Nat) : Field := ⟨tableCell 3 i 13, 0, 32⟩
abbrev TTI_TX_W14 (i : Nat) : Field := ⟨tableCell 3 i 14, 0, 32⟩
abbrev TTI_TX_W15 (i : Nat) : Field := ⟨tableCell 3 i 15, 0, 32⟩
abbrev TTI_ACC_W0 (i : Nat) : Field := ⟨tableCell 4 i 0, 0, 32⟩
abbrev TTI_ACC_W1 (i : Nat) : Field := ⟨tableCell 4 i 1, 0, 32⟩
abbrev TTI_ACC_W2 (i : Nat) : Field := ⟨tableCell 4 i 2, 0, 32⟩
abbrev TTI_ACC_W3 (i : Nat) : Field := ⟨tableCell 4 i 3, 0, 32⟩
abbrev TTI_ACC_W4 (i : Nat) : Field := ⟨tableCell 4 i 4, 0, 32⟩
abbrev TTI_ACC_W5 (i : Nat) : Field := ⟨tableCell 4 i 5, 0, 32⟩
abbrev TTI_ACC_W6 (i : Nat) : Field := ⟨tableCell 4 i 6, 0, 32⟩
abbrev TTI_ACC_W7 (i : Nat) : Field := ⟨tableCell 4 i 7, 0, 32⟩
abbrev TTI_ACC_W8 (i : Nat) : Field := ⟨tableCell 4 i 8, 0, 32⟩
abbrev TTI_ACC_W9 (i : Nat) : Field := ⟨tableCell 4 i 9, 0, 32⟩
abbrev TTI_ACC_W10 (i : Nat) : Field := ⟨tableCell 4 i 10, 0, 32⟩
abbrev TTI_ACC_W11 (i : Nat) : Field := ⟨tableCell 4 i 11, 0, 32⟩
abbrev TTI_ACC_W12 (i : Nat) : Field := ⟨tableCell 4 i 12, 0, 32⟩
abbrev TTI_ACC_W13 (i : Nat) : Field := ⟨tableCell 4 i 13, 0, 32⟩
abbrev TTI_ACC_W14 (i : Nat) : Field := ⟨tableCell 4 i 14, 0, 32⟩
abbrev TTI_ACC_W15 (i : Nat) : Field := ⟨tableCell 4 i 15, 0, 32⟩
abbrev CRSTAT_SF (i : Nat) : Field := ⟨tableCell 5 i 0, 0, 1⟩
abbrev CRSTAT_SD (i : Nat) : Field := ⟨tableCell 5 i 0, 1, 1⟩
abbrev CRSTAT_LOA (i : Nat) : Field := ⟨tableCell 5 i 0, 2, 1⟩
abbrev CRSTAT_MSIM (i : Nat) : Field := ⟨tableCell 5 i 0, 3, 1⟩
abbrev CRSTAT_TIM (i : Nat) : Field := ⟨tableCell 5 i 0, 4, 1⟩
abbrev CRSTAT_BDI_RX (i : Nat) : Field := ⟨tableCell 5 i 0, 5, 1⟩
abbrev CRSTAT_BDI_TX (i : Nat) : Field := ⟨tableCell 5 i 0, 6, 1⟩
abbrev CRSTAT_KS_RX (i : Nat) : Field := ⟨tableCell 5 i 0, 7, 1⟩
abbrev CRSTAT_MEMBER_ABSENT (i : Nat) : Field := ⟨tableCell 5 i 0, 8, 1⟩
abbrev CRSTAT_TTI_VALID (i : Nat) : Field := ⟨tableCell 5 i 0, 9, 1⟩
abbrev CRSTAT_STAT_NOK (i : Nat) : Field := ⟨tableCell 5 i 0, 10, 1⟩
abbrev CRSTAT_SKEW_NS (i : Nat) : Field := ⟨tableCell 5 i 1, 0, 18⟩
abbrev CRSTAT_SR_ACC (i : Nat) : Field := ⟨tableCell 5 i 2, 0, 32⟩
abbrev CRSTAT_SERIAL_LO (i : Nat) : Field := ⟨tableCell 5 i 3, 0, 32⟩
abbrev CRSTAT_SERIAL_HI (i : Nat) : Field := ⟨tableCell 5 i 4, 0, 16⟩
abbrev CRSTAT_BEI_RX (i : Nat) : Field := ⟨tableCell 5 i 4, 16, 16⟩
abbrev CRSTAT_FAILED (i : Nat) : Field := ⟨tableCell 5 i 5, 0, 32⟩
abbrev CRSTAT_WITHHELD (i : Nat) : Field := ⟨tableCell 5 i 6, 0, 32⟩
abbrev CRSTAT_BIP_ERR (i : Nat) : Field := ⟨tableCell 5 i 7, 0, 32⟩
abbrev SR_TX_SR (i : Nat) : Field := ⟨tableCell 6 i 0, 0, 32⟩
abbrev PAIR_EN (i : Nat) : Field := ⟨tableCell 7 i 0, 0, 1⟩
abbrev PAIR_MODE (i : Nat) : Field := ⟨tableCell 7 i 0, 1, 2⟩
abbrev PAIR_COURSE_A (i : Nat) : Field := ⟨tableCell 7 i 0, 3, 9⟩
abbrev PAIR_COURSE_B (i : Nat) : Field := ⟨tableCell 7 i 0, 12, 9⟩
abbrev PAIR_DIR (i : Nat) : Field := ⟨tableCell 7 i 0, 21, 1⟩
abbrev PAIR_REVERT (i : Nat) : Field := ⟨tableCell 7 i 0, 22, 1⟩
abbrev PAIR_SD_EN (i : Nat) : Field := ⟨tableCell 7 i 0, 23, 1⟩
abbrev PAIR_BUDGET_FR (i : Nat) : Field := ⟨tableCell 7 i 1, 0, 15⟩
abbrev PAIR_HOLDOFF (i : Nat) : Field := ⟨tableCell 7 i 2, 0, 7⟩
abbrev PAIR_WTR_S (i : Nat) : Field := ⟨tableCell 7 i 2, 8, 10⟩
abbrev PSTAT_STATE (i : Nat) : Field := ⟨tableCell 8 i 0, 0, 3⟩
abbrev PSTAT_SEL (i : Nat) : Field := ⟨tableCell 8 i 0, 3, 1⟩
abbrev PSTAT_A_OK (i : Nat) : Field := ⟨tableCell 8 i 0, 4, 1⟩
abbrev PSTAT_B_OK (i : Nat) : Field := ⟨tableCell 8 i 0, 5, 1⟩
abbrev PSTAT_LEAD (i : Nat) : Field := ⟨tableCell 8 i 0, 6, 1⟩
abbrev PSTAT_MERGE_SF (i : Nat) : Field := ⟨tableCell 8 i 0, 7, 1⟩
abbrev PSTAT_DD_EXCEEDED (i : Nat) : Field := ⟨tableCell 8 i 0, 8, 1⟩
abbrev PSTAT_EARLY_FLAG (i : Nat) : Field := ⟨tableCell 8 i 0, 9, 1⟩
abbrev PSTAT_LOCAL_REQ (i : Nat) : Field := ⟨tableCell 8 i 0, 10, 4⟩
abbrev PSTAT_REMOTE_REQ (i : Nat) : Field := ⟨tableCell 8 i 0, 14, 4⟩
abbrev PSTAT_PROT_MISMATCH (i : Nat) : Field := ⟨tableCell 8 i 0, 18, 1⟩
abbrev PSTAT_CFG_BAD (i : Nat) : Field := ⟨tableCell 8 i 0, 19, 1⟩
abbrev PSTAT_MODE_EFF (i : Nat) : Field := ⟨tableCell 8 i 0, 20, 2⟩
abbrev PSTAT_DIFF_NS (i : Nat) : Field := ⟨tableCell 8 i 1, 0, 32⟩
abbrev PSTAT_FROM_A (i : Nat) : Field := ⟨tableCell 8 i 2, 0, 32⟩
abbrev PSTAT_FROM_B (i : Nat) : Field := ⟨tableCell 8 i 3, 0, 32⟩
abbrev PSTAT_BOTH_INVALID (i : Nat) : Field := ⟨tableCell 8 i 4, 0, 32⟩
abbrev PSTAT_LATE (i : Nat) : Field := ⟨tableCell 8 i 5, 0, 32⟩
abbrev PSTAT_EARLY (i : Nat) : Field := ⟨tableCell 8 i 6, 0, 32⟩
abbrev PSTAT_POISONED (i : Nat) : Field := ⟨tableCell 8 i 7, 0, 32⟩
abbrev PSTAT_FALLBACK (i : Nat) : Field := ⟨tableCell 8 i 8, 0, 32⟩
abbrev PSTAT_SWITCHES (i : Nat) : Field := ⟨tableCell 8 i 9, 0, 32⟩
abbrev PSTAT_WTR_REMAIN_S (i : Nat) : Field := ⟨tableCell 8 i 10, 0, 10⟩
abbrev CMD_CMD (i : Nat) : Field := ⟨tableCell 9 i 0, 0, 4⟩
abbrev EXACT_KEY0 (i : Nat) : Field := ⟨tableCell 10 i 0, 0, 32⟩
abbrev EXACT_KEY1 (i : Nat) : Field := ⟨tableCell 10 i 1, 0, 32⟩
abbrev EXACT_KEY2 (i : Nat) : Field := ⟨tableCell 10 i 2, 0, 32⟩
abbrev EXACT_KEY3 (i : Nat) : Field := ⟨tableCell 10 i 3, 0, 32⟩
abbrev EXACT_KEY4 (i : Nat) : Field := ⟨tableCell 10 i 4, 0, 32⟩
abbrev EXACT_KEY5 (i : Nat) : Field := ⟨tableCell 10 i 5, 0, 32⟩
abbrev EXACT_KEY6 (i : Nat) : Field := ⟨tableCell 10 i 6, 0, 32⟩
abbrev EXACT_KEY7 (i : Nat) : Field := ⟨tableCell 10 i 7, 0, 32⟩
abbrev EXACT_KEY8 (i : Nat) : Field := ⟨tableCell 10 i 8, 0, 32⟩
abbrev EXACT_KEY9 (i : Nat) : Field := ⟨tableCell 10 i 9, 0, 32⟩
abbrev EXACT_PROFILE (i : Nat) : Field := ⟨tableCell 10 i 10, 0, 8⟩
abbrev EXACT_VALID (i : Nat) : Field := ⟨tableCell 10 i 10, 8, 1⟩
abbrev EXACT_DEATH_EN (i : Nat) : Field := ⟨tableCell 10 i 10, 9, 1⟩
abbrev EXACT_BIRTH (i : Nat) : Field := ⟨tableCell 10 i 11, 0, 16⟩
abbrev EXACT_DEATH (i : Nat) : Field := ⟨tableCell 10 i 11, 16, 16⟩
abbrev EXACT_FLOW (i : Nat) : Field := ⟨tableCell 10 i 12, 0, 16⟩
abbrev EXACT_KIND (i : Nat) : Field := ⟨tableCell 10 i 12, 16, 2⟩
abbrev EXACT_QUEUE (i : Nat) : Field := ⟨tableCell 10 i 12, 18, 5⟩
abbrev EXACT_RECIRC (i : Nat) : Field := ⟨tableCell 10 i 12, 23, 1⟩
abbrev EXACT_EDIT_EN (i : Nat) : Field := ⟨tableCell 10 i 12, 24, 1⟩
abbrev EXACT_EDIT (i : Nat) : Field := ⟨tableCell 10 i 13, 0, 12⟩
abbrev WILD_VALUE0 (i : Nat) : Field := ⟨tableCell 11 i 0, 0, 32⟩
abbrev WILD_VALUE1 (i : Nat) : Field := ⟨tableCell 11 i 1, 0, 32⟩
abbrev WILD_VALUE2 (i : Nat) : Field := ⟨tableCell 11 i 2, 0, 32⟩
abbrev WILD_VALUE3 (i : Nat) : Field := ⟨tableCell 11 i 3, 0, 32⟩
abbrev WILD_VALUE4 (i : Nat) : Field := ⟨tableCell 11 i 4, 0, 32⟩
abbrev WILD_VALUE5 (i : Nat) : Field := ⟨tableCell 11 i 5, 0, 32⟩
abbrev WILD_VALUE6 (i : Nat) : Field := ⟨tableCell 11 i 6, 0, 32⟩
abbrev WILD_VALUE7 (i : Nat) : Field := ⟨tableCell 11 i 7, 0, 32⟩
abbrev WILD_VALUE8 (i : Nat) : Field := ⟨tableCell 11 i 8, 0, 32⟩
abbrev WILD_VALUE9 (i : Nat) : Field := ⟨tableCell 11 i 9, 0, 32⟩
abbrev WILD_VALUE10 (i : Nat) : Field := ⟨tableCell 11 i 10, 0, 32⟩
abbrev WILD_VALUE11 (i : Nat) : Field := ⟨tableCell 11 i 11, 0, 32⟩
abbrev WILD_VALUE12 (i : Nat) : Field := ⟨tableCell 11 i 12, 0, 32⟩
abbrev WILD_VALUE13 (i : Nat) : Field := ⟨tableCell 11 i 13, 0, 32⟩
abbrev WILD_VALUE14 (i : Nat) : Field := ⟨tableCell 11 i 14, 0, 32⟩
abbrev WILD_VALUE15 (i : Nat) : Field := ⟨tableCell 11 i 15, 0, 32⟩
abbrev WILD_MASK0 (i : Nat) : Field := ⟨tableCell 11 i 16, 0, 32⟩
abbrev WILD_MASK1 (i : Nat) : Field := ⟨tableCell 11 i 17, 0, 32⟩
abbrev WILD_MASK2 (i : Nat) : Field := ⟨tableCell 11 i 18, 0, 32⟩
abbrev WILD_MASK3 (i : Nat) : Field := ⟨tableCell 11 i 19, 0, 32⟩
abbrev WILD_MASK4 (i : Nat) : Field := ⟨tableCell 11 i 20, 0, 32⟩
abbrev WILD_MASK5 (i : Nat) : Field := ⟨tableCell 11 i 21, 0, 32⟩
abbrev WILD_MASK6 (i : Nat) : Field := ⟨tableCell 11 i 22, 0, 32⟩
abbrev WILD_MASK7 (i : Nat) : Field := ⟨tableCell 11 i 23, 0, 32⟩
abbrev WILD_MASK8 (i : Nat) : Field := ⟨tableCell 11 i 24, 0, 32⟩
abbrev WILD_MASK9 (i : Nat) : Field := ⟨tableCell 11 i 25, 0, 32⟩
abbrev WILD_MASK10 (i : Nat) : Field := ⟨tableCell 11 i 26, 0, 32⟩
abbrev WILD_MASK11 (i : Nat) : Field := ⟨tableCell 11 i 27, 0, 32⟩
abbrev WILD_MASK12 (i : Nat) : Field := ⟨tableCell 11 i 28, 0, 32⟩
abbrev WILD_MASK13 (i : Nat) : Field := ⟨tableCell 11 i 29, 0, 32⟩
abbrev WILD_MASK14 (i : Nat) : Field := ⟨tableCell 11 i 30, 0, 32⟩
abbrev WILD_MASK15 (i : Nat) : Field := ⟨tableCell 11 i 31, 0, 32⟩
abbrev WILD_PROFILE (i : Nat) : Field := ⟨tableCell 11 i 32, 0, 8⟩
abbrev WILD_VALID (i : Nat) : Field := ⟨tableCell 11 i 32, 8, 1⟩
abbrev WILD_DEATH_EN (i : Nat) : Field := ⟨tableCell 11 i 32, 9, 1⟩
abbrev WILD_BIRTH (i : Nat) : Field := ⟨tableCell 11 i 33, 0, 16⟩
abbrev WILD_DEATH (i : Nat) : Field := ⟨tableCell 11 i 33, 16, 16⟩
abbrev WILD_FLOW (i : Nat) : Field := ⟨tableCell 11 i 34, 0, 16⟩
abbrev WILD_KIND (i : Nat) : Field := ⟨tableCell 11 i 34, 16, 2⟩
abbrev WILD_QUEUE (i : Nat) : Field := ⟨tableCell 11 i 34, 18, 5⟩
abbrev WILD_RECIRC (i : Nat) : Field := ⟨tableCell 11 i 34, 23, 1⟩
abbrev WILD_EDIT_EN (i : Nat) : Field := ⟨tableCell 11 i 34, 24, 1⟩
abbrev WILD_EDIT (i : Nat) : Field := ⟨tableCell 11 i 35, 0, 12⟩
abbrev EDIT_OP0 (i : Nat) : Field := ⟨tableCell 12 i 0, 0, 32⟩
abbrev EDIT_OP1 (i : Nat) : Field := ⟨tableCell 12 i 1, 0, 32⟩
abbrev EDIT_OP2 (i : Nat) : Field := ⟨tableCell 12 i 2, 0, 32⟩
abbrev EDIT_OP3 (i : Nat) : Field := ⟨tableCell 12 i 3, 0, 32⟩
abbrev EDIT_OP4 (i : Nat) : Field := ⟨tableCell 12 i 4, 0, 32⟩
abbrev EDIT_OP5 (i : Nat) : Field := ⟨tableCell 12 i 5, 0, 32⟩
abbrev EDIT_OP6 (i : Nat) : Field := ⟨tableCell 12 i 6, 0, 32⟩
abbrev EDIT_OP7 (i : Nat) : Field := ⟨tableCell 12 i 7, 0, 32⟩
abbrev EDIT_IMM0 (i : Nat) : Field := ⟨tableCell 12 i 8, 0, 32⟩
abbrev EDIT_IMM1 (i : Nat) : Field := ⟨tableCell 12 i 9, 0, 32⟩
abbrev EDIT_IMM2 (i : Nat) : Field := ⟨tableCell 12 i 10, 0, 32⟩
abbrev EDIT_IMM3 (i : Nat) : Field := ⟨tableCell 12 i 11, 0, 32⟩
abbrev EDIT_IMM4 (i : Nat) : Field := ⟨tableCell 12 i 12, 0, 32⟩
abbrev EDIT_IMM5 (i : Nat) : Field := ⟨tableCell 12 i 13, 0, 32⟩
abbrev EDIT_IMM6 (i : Nat) : Field := ⟨tableCell 12 i 14, 0, 32⟩
abbrev EDIT_IMM7 (i : Nat) : Field := ⟨tableCell 12 i 15, 0, 32⟩
abbrev PRECLASS_KEY0 (i : Nat) : Field := ⟨tableCell 13 i 0, 0, 32⟩
abbrev PRECLASS_KEY1 (i : Nat) : Field := ⟨tableCell 13 i 1, 0, 32⟩
abbrev PRECLASS_KEY2 (i : Nat) : Field := ⟨tableCell 13 i 2, 0, 32⟩
abbrev PRECLASS_KEY3 (i : Nat) : Field := ⟨tableCell 13 i 3, 0, 32⟩
abbrev PRECLASS_KEY4 (i : Nat) : Field := ⟨tableCell 13 i 4, 0, 32⟩
abbrev PRECLASS_KEY5 (i : Nat) : Field := ⟨tableCell 13 i 5, 0, 15⟩
abbrev PRECLASS_RATE_KPPS (i : Nat) : Field := ⟨tableCell 13 i 6, 0, 32⟩
abbrev PRECLASS_VALID (i : Nat) : Field := ⟨tableCell 13 i 7, 0, 1⟩
abbrev PRECLASS_BURST (i : Nat) : Field := ⟨tableCell 13 i 7, 8, 24⟩
abbrev PORT_DEFAULT_FLOW (i : Nat) : Field := ⟨tableCell 14 i 0, 0, 16⟩
abbrev PORT_DEFAULT_KIND (i : Nat) : Field := ⟨tableCell 14 i 0, 16, 2⟩
abbrev PORT_DEFAULT_QUEUE (i : Nat) : Field := ⟨tableCell 14 i 0, 18, 5⟩
abbrev PORT_DEFAULT_RECIRC (i : Nat) : Field := ⟨tableCell 14 i 0, 23, 1⟩
abbrev PORT_DEFAULT_EDIT_EN (i : Nat) : Field := ⟨tableCell 14 i 0, 24, 1⟩
abbrev PORT_DEFAULT_EDIT (i : Nat) : Field := ⟨tableCell 14 i 1, 0, 12⟩
abbrev TEMPLATE_HDR0 (i : Nat) : Field := ⟨tableCell 15 i 0, 0, 32⟩
abbrev TEMPLATE_HDR1 (i : Nat) : Field := ⟨tableCell 15 i 1, 0, 32⟩
abbrev TEMPLATE_HDR2 (i : Nat) : Field := ⟨tableCell 15 i 2, 0, 32⟩
abbrev TEMPLATE_HDR3 (i : Nat) : Field := ⟨tableCell 15 i 3, 0, 32⟩
abbrev TEMPLATE_HDR4 (i : Nat) : Field := ⟨tableCell 15 i 4, 0, 32⟩
abbrev TEMPLATE_HDR5 (i : Nat) : Field := ⟨tableCell 15 i 5, 0, 32⟩
abbrev TEMPLATE_HDR6 (i : Nat) : Field := ⟨tableCell 15 i 6, 0, 32⟩
abbrev TEMPLATE_HDR7 (i : Nat) : Field := ⟨tableCell 15 i 7, 0, 32⟩
abbrev TEMPLATE_HDR8 (i : Nat) : Field := ⟨tableCell 15 i 8, 0, 32⟩
abbrev TEMPLATE_HDR9 (i : Nat) : Field := ⟨tableCell 15 i 9, 0, 32⟩
abbrev TEMPLATE_HDR10 (i : Nat) : Field := ⟨tableCell 15 i 10, 0, 32⟩
abbrev TEMPLATE_HDR11 (i : Nat) : Field := ⟨tableCell 15 i 11, 0, 32⟩
abbrev TEMPLATE_HDR12 (i : Nat) : Field := ⟨tableCell 15 i 12, 0, 32⟩
abbrev TEMPLATE_HDR13 (i : Nat) : Field := ⟨tableCell 15 i 13, 0, 32⟩
abbrev TEMPLATE_HDR14 (i : Nat) : Field := ⟨tableCell 15 i 14, 0, 32⟩
abbrev TEMPLATE_HDR15 (i : Nat) : Field := ⟨tableCell 15 i 15, 0, 32⟩
abbrev TEMPLATE_LENGTH (i : Nat) : Field := ⟨tableCell 15 i 16, 0, 7⟩
abbrev FLOW_FLOW (i : Nat) : Field := ⟨tableCell 16 i 0, 0, 16⟩
abbrev FLOW_CLASS (i : Nat) : Field := ⟨tableCell 16 i 0, 16, 2⟩
abbrev FLOW_ING_EN (i : Nat) : Field := ⟨tableCell 16 i 0, 18, 1⟩
abbrev FLOW_EGR_EN (i : Nat) : Field := ⟨tableCell 16 i 0, 19, 1⟩
abbrev FLOW_BE_PRIO (i : Nat) : Field := ⟨tableCell 16 i 0, 20, 2⟩
abbrev FLOW_HOPS (i : Nat) : Field := ⟨tableCell 16 i 0, 22, 6⟩
abbrev FLOW_ING_COURSE (i : Nat) : Field := ⟨tableCell 16 i 1, 0, 9⟩
abbrev FLOW_ING_PORT (i : Nat) : Field := ⟨tableCell 16 i 1, 16, 6⟩
abbrev FLOW_PRECLASS (i : Nat) : Field := ⟨tableCell 16 i 2, 0, 16⟩
abbrev FLOW_RATE_KBPS (i : Nat) : Field := ⟨tableCell 16 i 3, 0, 32⟩
abbrev FLOW_MAX_PKT (i : Nat) : Field := ⟨tableCell 16 i 4, 0, 15⟩
abbrev FLOW_MIN_PKT (i : Nat) : Field := ⟨tableCell 16 i 4, 16, 15⟩
abbrev FLOW_BURST (i : Nat) : Field := ⟨tableCell 16 i 5, 0, 24⟩
abbrev FLOW_EGR_PORT (i : Nat) : Field := ⟨tableCell 16 i 6, 0, 6⟩
abbrev FLOW_EGR_HOPS (i : Nat) : Field := ⟨tableCell 16 i 6, 6, 6⟩
abbrev FLOW_EGR_COURSE (i : Nat) : Field := ⟨tableCell 16 i 6, 16, 9⟩
abbrev FLOW_DELIVER_NS (i : Nat) : Field := ⟨tableCell 16 i 7, 0, 32⟩
abbrev FLOW_ADMITTED (i : Nat) : Field := ⟨tableCell 16 i 8, 0, 1⟩
abbrev FLOW_REVOKED (i : Nat) : Field := ⟨tableCell 16 i 8, 1, 1⟩
abbrev FLOW_DRAINING (i : Nat) : Field := ⟨tableCell 16 i 8, 2, 1⟩
abbrev FLOW_QUOTA (i : Nat) : Field := ⟨tableCell 16 i 9, 0, 20⟩
abbrev FLOW_ING_NS (i : Nat) : Field := ⟨tableCell 16 i 10, 0, 16⟩
abbrev FLOW_EGR_NS (i : Nat) : Field := ⟨tableCell 16 i 10, 16, 16⟩
abbrev FLOW_ING_PKTS (i : Nat) : Field := ⟨tableCell 16 i 16, 0, 32⟩
abbrev FLOW_ING_PKTS_HI (i : Nat) : Field := ⟨tableCell 16 i 17, 0, 32⟩
abbrev FLOW_ING_BYTES (i : Nat) : Field := ⟨tableCell 16 i 18, 0, 32⟩
abbrev FLOW_ING_BYTES_HI (i : Nat) : Field := ⟨tableCell 16 i 19, 0, 32⟩
abbrev FLOW_ING_DROP (i : Nat) : Field := ⟨tableCell 16 i 20, 0, 32⟩
abbrev FLOW_ING_WAIT_MAX_NS (i : Nat) : Field := ⟨tableCell 16 i 21, 0, 32⟩
abbrev FLOW_EGR_PKTS (i : Nat) : Field := ⟨tableCell 16 i 24, 0, 32⟩
abbrev FLOW_EGR_PKTS_HI (i : Nat) : Field := ⟨tableCell 16 i 25, 0, 32⟩
abbrev FLOW_EGR_BYTES (i : Nat) : Field := ⟨tableCell 16 i 26, 0, 32⟩
abbrev FLOW_EGR_BYTES_HI (i : Nat) : Field := ⟨tableCell 16 i 27, 0, 32⟩
abbrev FLOW_EGR_DROP (i : Nat) : Field := ⟨tableCell 16 i 28, 0, 32⟩
abbrev FLOW_LATE (i : Nat) : Field := ⟨tableCell 16 i 29, 0, 32⟩
abbrev FLOW_EARLY (i : Nat) : Field := ⟨tableCell 16 i 30, 0, 32⟩
abbrev FLOW_EGR_DELAY_MAX_NS (i : Nat) : Field := ⟨tableCell 16 i 31, 0, 32⟩
abbrev FLOW_PDV_SPAN_NS (i : Nat) : Field := ⟨tableCell 16 i 32, 0, 32⟩
abbrev CRS_CFG_BE_MAX_PKT (i : Nat) : Field := ⟨tableCell 17 i 0, 0, 14⟩
abbrev CRS_CFG_RESERVED (i : Nat) : Field := ⟨tableCell 17 i 1, 0, 20⟩
abbrev CRS_CFG_CAPACITY (i : Nat) : Field := ⟨tableCell 17 i 2, 0, 20⟩
abbrev PORT_CFG_BE_MAX_PKT (i : Nat) : Field := ⟨tableCell 18 i 0, 0, 14⟩
abbrev PORT_CFG_RESERVED (i : Nat) : Field := ⟨tableCell 18 i 1, 0, 20⟩
abbrev BEQ_QLIM_KIB (i : Nat) : Field := ⟨tableCell 19 i 0, 0, 20⟩
abbrev BEQ_OCC_KIB (i : Nat) : Field := ⟨tableCell 19 i 1, 0, 32⟩
abbrev PUNTQ_RATE_KPPS (i : Nat) : Field := ⟨tableCell 20 i 0, 0, 20⟩
abbrev PUNTQ_BURST (i : Nat) : Field := ⟨tableCell 20 i 0, 20, 12⟩
abbrev PUNTQ_DROP (i : Nat) : Field := ⟨tableCell 20 i 1, 0, 32⟩
abbrev CKEY_TX_SLOT0 (i : Nat) : Field := ⟨tableCell 21 i 0, 0, 11⟩
abbrev CKEY_TX_SLOT1 (i : Nat) : Field := ⟨tableCell 21 i 0, 11, 11⟩
abbrev CKEY_ENC (i : Nat) : Field := ⟨tableCell 21 i 0, 22, 1⟩
abbrev CKEY_RX_SLOT0 (i : Nat) : Field := ⟨tableCell 21 i 1, 0, 11⟩
abbrev CKEY_RX_SLOT1 (i : Nat) : Field := ⟨tableCell 21 i 1, 11, 11⟩
abbrev CKEY_LIMIT (i : Nat) : Field := ⟨tableCell 21 i 2, 0, 16⟩
abbrev CKEY_WARN (i : Nat) : Field := ⟨tableCell 21 i 2, 16, 16⟩
abbrev CSTAT_KS_TX (i : Nat) : Field := ⟨tableCell 22 i 0, 0, 1⟩
abbrev CSTAT_STARVED (i : Nat) : Field := ⟨tableCell 22 i 0, 1, 1⟩
abbrev CSTAT_KS_RX (i : Nat) : Field := ⟨tableCell 22 i 0, 2, 1⟩
abbrev CSTAT_WARNED (i : Nat) : Field := ⟨tableCell 22 i 0, 3, 1⟩
abbrev CSTAT_TX_CTR_LO (i : Nat) : Field := ⟨tableCell 22 i 1, 0, 32⟩
abbrev CSTAT_TX_CTR_HI (i : Nat) : Field := ⟨tableCell 22 i 2, 0, 32⟩
abbrev CSTAT_RX_LAST_LO (i : Nat) : Field := ⟨tableCell 22 i 3, 0, 32⟩
abbrev CSTAT_RX_LAST_HI (i : Nat) : Field := ⟨tableCell 22 i 4, 0, 32⟩
abbrev CSTAT_TAG_FAIL (i : Nat) : Field := ⟨tableCell 22 i 5, 0, 32⟩
abbrev CSTAT_NO_KEY (i : Nat) : Field := ⟨tableCell 22 i 6, 0, 32⟩
abbrev CSTAT_FLAG_REJ (i : Nat) : Field := ⟨tableCell 22 i 7, 0, 32⟩
abbrev CSTAT_REPLAY (i : Nat) : Field := ⟨tableCell 22 i 8, 0, 32⟩
abbrev CSTAT_CHECK_FAIL (i : Nat) : Field := ⟨tableCell 22 i 9, 0, 32⟩
abbrev CSTAT_SWITCHES (i : Nat) : Field := ⟨tableCell 22 i 10, 0, 32⟩
abbrev CSTAT_STARVED_FR (i : Nat) : Field := ⟨tableCell 22 i 11, 0, 32⟩
abbrev LISTEN_SUBC (i : Nat) : Field := ⟨tableCell 23 i 0, 0, 7⟩
abbrev LISTEN_CODE (i : Nat) : Field := ⟨tableCell 23 i 0, 8, 6⟩
abbrev LISTEN_EN (i : Nat) : Field := ⟨tableCell 23 i 0, 16, 1⟩
abbrev NBR_VALID (i : Nat) : Field := ⟨tableCell 24 i 0, 0, 1⟩
abbrev NBR_PATH (i : Nat) : Field := ⟨tableCell 24 i 0, 1, 4⟩
abbrev NBR_SUBC (i : Nat) : Field := ⟨tableCell 24 i 0, 8, 7⟩
abbrev NBR_CODE (i : Nat) : Field := ⟨tableCell 24 i 0, 16, 6⟩
abbrev NBR_EXPECTED (i : Nat) : Field := ⟨tableCell 24 i 0, 24, 1⟩
abbrev NBR_KEY_ID_LO (i : Nat) : Field := ⟨tableCell 24 i 1, 0, 32⟩
abbrev NBR_KEY_ID_HI (i : Nat) : Field := ⟨tableCell 24 i 2, 0, 32⟩
abbrev NBR_LABEL0 (i : Nat) : Field := ⟨tableCell 24 i 3, 0, 32⟩
abbrev NBR_LABEL1 (i : Nat) : Field := ⟨tableCell 24 i 4, 0, 32⟩
abbrev NBR_LABEL2 (i : Nat) : Field := ⟨tableCell 24 i 5, 0, 32⟩
abbrev NBR_LABEL3 (i : Nat) : Field := ⟨tableCell 24 i 6, 0, 32⟩
abbrev NBR_COUNTER_LO (i : Nat) : Field := ⟨tableCell 24 i 7, 0, 32⟩
abbrev NBR_COUNTER_HI (i : Nat) : Field := ⟨tableCell 24 i 8, 0, 32⟩
abbrev NBR_LAST_S (i : Nat) : Field := ⟨tableCell 24 i 9, 0, 32⟩
abbrev NBR_POWER (i : Nat) : Field := ⟨tableCell 24 i 10, 0, 16⟩
abbrev NBR_FREQ (i : Nat) : Field := ⟨tableCell 24 i 10, 16, 16⟩
abbrev NBR_ORIGIN (i : Nat) : Field := ⟨tableCell 24 i 11, 0, 8⟩
abbrev NBR_EXP_EN (i : Nat) : Field := ⟨tableCell 25 i 0, 0, 1⟩
abbrev NBR_EXP_KEY_ID_LO (i : Nat) : Field := ⟨tableCell 25 i 1, 0, 32⟩
abbrev NBR_EXP_KEY_ID_HI (i : Nat) : Field := ⟨tableCell 25 i 2, 0, 32⟩
abbrev REF_EN (i : Nat) : Field := ⟨tableCell 26 i 0, 0, 1⟩
abbrev REF_PRIO (i : Nat) : Field := ⟨tableCell 26 i 0, 1, 4⟩
abbrev REF_QL_SRC (i : Nat) : Field := ⟨tableCell 26 i 0, 5, 1⟩
abbrev REF_QL (i : Nat) : Field := ⟨tableCell 26 i 0, 6, 4⟩
abbrev REF_ESMC_Q (i : Nat) : Field := ⟨tableCell 26 i 0, 10, 5⟩
abbrev REF_FREQ_HZ (i : Nat) : Field := ⟨tableCell 26 i 1, 0, 32⟩
abbrev REF_CABLE_PS (i : Nat) : Field := ⟨tableCell 26 i 2, 0, 24⟩
abbrev REF_ACT_OK (i : Nat) : Field := ⟨tableCell 26 i 4, 0, 1⟩
abbrev REF_FREQ_OK (i : Nat) : Field := ⟨tableCell 26 i 4, 1, 1⟩
abbrev REF_DRIFT_OK (i : Nat) : Field := ⟨tableCell 26 i 4, 2, 1⟩
abbrev REF_QUALIFIED (i : Nat) : Field := ⟨tableCell 26 i 4, 3, 1⟩
abbrev REF_DISSENT (i : Nat) : Field := ⟨tableCell 26 i 4, 4, 1⟩
abbrev REF_DISAGREE (i : Nat) : Field := ⟨tableCell 26 i 4, 5, 1⟩
abbrev REF_QL_EFF (i : Nat) : Field := ⟨tableCell 26 i 4, 6, 4⟩
abbrev REF_FREQ (i : Nat) : Field := ⟨tableCell 26 i 5, 0, 32⟩
abbrev REF_FREQ_Q (i : Nat) : Field := ⟨tableCell 26 i 6, 0, 32⟩
abbrev OUT_KIND (i : Nat) : Field := ⟨tableCell 27 i 0, 0, 2⟩
abbrev OUT_FS_DIV (i : Nat) : Field := ⟨tableCell 27 i 0, 4, 4⟩
abbrev OUT_FREQ_HZ (i : Nat) : Field := ⟨tableCell 27 i 1, 0, 32⟩
abbrev OUT_PHASE_PS (i : Nat) : Field := ⟨tableCell 27 i 2, 0, 24⟩
abbrev OUT_PULSE_NS (i : Nat) : Field := ⟨tableCell 27 i 3, 0, 20⟩
abbrev CTS_VALID (i : Nat) : Field := ⟨tableCell 28 i 0, 0, 1⟩
abbrev CTS_LAST_LO (i : Nat) : Field := ⟨tableCell 28 i 1, 0, 32⟩
abbrev CTS_LAST_HI (i : Nat) : Field := ⟨tableCell 28 i 2, 0, 32⟩
abbrev CTS_MEAN_LO (i : Nat) : Field := ⟨tableCell 28 i 3, 0, 32⟩
abbrev CTS_MEAN_HI (i : Nat) : Field := ⟨tableCell 28 i 4, 0, 32⟩
abbrev CTS_FRAMES (i : Nat) : Field := ⟨tableCell 28 i 5, 0, 32⟩
abbrev RTX_KIND (i : Nat) : Field := ⟨tableCell 29 i 0, 0, 2⟩
abbrev RTX_COURSE (i : Nat) : Field := ⟨tableCell 29 i 0, 2, 9⟩
abbrev RTX_MEMBER (i : Nat) : Field := ⟨tableCell 29 i 0, 11, 7⟩
abbrev RTX_FROM (i : Nat) : Field := ⟨tableCell 29 i 0, 18, 6⟩
abbrev RRX_KIND (i : Nat) : Field := ⟨tableCell 30 i 0, 0, 2⟩
abbrev RRX_COURSE (i : Nat) : Field := ⟨tableCell 30 i 0, 2, 9⟩
abbrev RRX_MEMBER (i : Nat) : Field := ⟨tableCell 30 i 0, 11, 7⟩
abbrev RCRS_EN (i : Nat) : Field := ⟨tableCell 31 i 0, 0, 1⟩
abbrev RCRS_TX (i : Nat) : Field := ⟨tableCell 31 i 0, 1, 1⟩
abbrev RCRS_RX (i : Nat) : Field := ⟨tableCell 31 i 0, 2, 1⟩
abbrev RCRS_MEMBERS_M1 (i : Nat) : Field := ⟨tableCell 31 i 0, 3, 7⟩
abbrev RCRS_HOPS (i : Nat) : Field := ⟨tableCell 31 i 0, 10, 6⟩
abbrev RCRS_SF (i : Nat) : Field := ⟨tableCell 31 i 0, 16, 1⟩
abbrev CNT_CFG_KIND (i : Nat) : Field := ⟨tableCell 32 i 0, 0, 2⟩
abbrev CNT_CFG_CHAIN (i : Nat) : Field := ⟨tableCell 32 i 0, 2, 1⟩
abbrev CNT_CFG_BYTES (i : Nat) : Field := ⟨tableCell 32 i 0, 3, 1⟩
abbrev CNT_CFG_OVF_EV (i : Nat) : Field := ⟨tableCell 32 i 0, 4, 1⟩
abbrev CNT_CFG_EVENT (i : Nat) : Field := ⟨tableCell 32 i 0, 5, 10⟩
abbrev CNT_CFG_ACC_OP (i : Nat) : Field := ⟨tableCell 32 i 0, 15, 3⟩
abbrev CNT_CFG_PRIV (i : Nat) : Field := ⟨tableCell 32 i 0, 18, 3⟩
abbrev CNT_CFG_POINT (i : Nat) : Field := ⟨tableCell 32 i 0, 21, 2⟩
abbrev CNT_CFG_TC_MASK (i : Nat) : Field := ⟨tableCell 32 i 0, 23, 8⟩
abbrev CNT_CFG_MASTER (i : Nat) : Field := ⟨tableCell 32 i 1, 0, 8⟩
abbrev CNT_CFG_MASTER_MASK (i : Nat) : Field := ⟨tableCell 32 i 1, 8, 8⟩
abbrev CNT_CFG_OBJ (i : Nat) : Field := ⟨tableCell 32 i 1, 16, 9⟩
abbrev CNT_CFG_OBJ_EN (i : Nat) : Field := ⟨tableCell 32 i 1, 25, 1⟩
abbrev CNT_CFG_OBJ_TYPE (i : Nat) : Field := ⟨tableCell 32 i 1, 26, 1⟩
abbrev CNT_CFG_SPACE (i : Nat) : Field := ⟨tableCell 32 i 1, 27, 1⟩
abbrev CNT_CFG_ADDR_LO (i : Nat) : Field := ⟨tableCell 32 i 2, 0, 32⟩
abbrev CNT_CFG_ADDR_HI (i : Nat) : Field := ⟨tableCell 32 i 3, 0, 32⟩
abbrev PVALUE_LO (i : Nat) : Field := ⟨tableCell 33 i 0, 0, 32⟩
abbrev PVALUE_HI (i : Nat) : Field := ⟨tableCell 33 i 1, 0, 16⟩
abbrev COLREC_VALID (i : Nat) : Field := ⟨tableCell 34 i 0, 0, 1⟩
abbrev COLREC_DIRTY (i : Nat) : Field := ⟨tableCell 34 i 0, 1, 1⟩
abbrev COLREC_RUNNING (i : Nat) : Field := ⟨tableCell 34 i 0, 2, 1⟩
abbrev COLREC_PENDING (i : Nat) : Field := ⟨tableCell 34 i 0, 3, 1⟩
abbrev COLREC_SOURCE (i : Nat) : Field := ⟨tableCell 34 i 0, 4, 2⟩
abbrev COLREC_T_RUN (i : Nat) : Field := ⟨tableCell 34 i 0, 16, 16⟩
abbrev COLREC_RUNS (i : Nat) : Field := ⟨tableCell 34 i 1, 0, 32⟩
abbrev COLREC_LAST_S_LO (i : Nat) : Field := ⟨tableCell 34 i 2, 0, 32⟩
abbrev COLREC_LAST_S_HI (i : Nat) : Field := ⟨tableCell 34 i 3, 0, 16⟩
abbrev COLREC_LAST_LOCKED (i : Nat) : Field := ⟨tableCell 34 i 3, 16, 1⟩
abbrev COLREC_LAST_FG (i : Nat) : Field := ⟨tableCell 34 i 3, 17, 1⟩
abbrev COLREC_TRACE_ID (i : Nat) : Field := ⟨tableCell 34 i 4, 0, 32⟩
abbrev COLREC_CHECK_LO (i : Nat) : Field := ⟨tableCell 34 i 5, 0, 32⟩
abbrev COLREC_CHECK_HI (i : Nat) : Field := ⟨tableCell 34 i 6, 0, 32⟩
abbrev COLREC_GEN (i : Nat) : Field := ⟨tableCell 34 i 7, 0, 32⟩
abbrev MLOG_VALID (i : Nat) : Field := ⟨tableCell 35 i 0, 0, 1⟩
abbrev MLOG_SRAM (i : Nat) : Field := ⟨tableCell 35 i 0, 1, 1⟩
abbrev MLOG_UE (i : Nat) : Field := ⟨tableCell 35 i 0, 2, 1⟩
abbrev MLOG_READ (i : Nat) : Field := ⟨tableCell 35 i 0, 3, 1⟩
abbrev MLOG_BIT (i : Nat) : Field := ⟨tableCell 35 i 0, 4, 7⟩
abbrev MLOG_CONSUMER (i : Nat) : Field := ⟨tableCell 35 i 0, 11, 4⟩
abbrev MLOG_ADDR (i : Nat) : Field := ⟨tableCell 35 i 1, 0, 31⟩
abbrev MLOG_STACK (i : Nat) : Field := ⟨tableCell 35 i 2, 0, 2⟩
abbrev MLOG_CHANNEL (i : Nat) : Field := ⟨tableCell 35 i 2, 2, 4⟩
abbrev MLOG_PC (i : Nat) : Field := ⟨tableCell 35 i 2, 6, 1⟩
abbrev MLOG_BANK (i : Nat) : Field := ⟨tableCell 35 i 2, 7, 5⟩
abbrev MLOG_ROW (i : Nat) : Field := ⟨tableCell 35 i 2, 12, 17⟩
abbrev MLOG_TIME_S (i : Nat) : Field := ⟨tableCell 35 i 3, 0, 32⟩
end Reg

end Sys2Proof.Machine
end

