-- ==== Sys2Proof/Machine/Sparse.lean ====
section
/-!
DEFINITION. Sparse arrays: lists of (key, value) in one canonical form, keys strictly rising and no entry equal to what
an unlisted key reads as. What an unlisted key reads as is an argument, so that equal arrays are equal lists.
-/
namespace Sys2Proof.Machine

/-- The value at a key: the listed one, else the default. -/
def sget {α : Type} (d : Nat → α) : List (Nat × α) → Nat → α
  | [], k => d k
  | (a, v) :: r, k => if a = k then v else sget d r k

/-- An entry placed before the first greater key. -/
def sins {α : Type} (k : Nat) (v : α) : List (Nat × α) → List (Nat × α)
  | [] => [(k, v)]
  | (a, w) :: r => if k < a then (k, v) :: (a, w) :: r else (a, w) :: sins k v r

/-- The array without a key. -/
def sdel {α : Type} (k : Nat) (l : List (Nat × α)) : List (Nat × α) :=
  l.filter fun e => e.1 ≠ k

/-- The array with a key at a value; an entry equal to the default is not listed. -/
def sset {α : Type} [DecidableEq α] (d : Nat → α) (l : List (Nat × α)) (k : Nat) (v : α) : List (Nat × α) :=
  if v = d k then sdel k l else sins k v (sdel k l)

/-- The canonical form: keys strictly rising, no entry equal to the default. -/
def swf {α : Type} [DecidableEq α] (d : Nat → α) : List (Nat × α) → Bool
  | [] => true
  | (a, v) :: r => decide (v ≠ d a) && (r.all fun e => decide (a < e.1)) && swf d r

end Sys2Proof.Machine
end

