-- ==== Sys2Proof/Machine/Cells.lean ====
section
/-!
DEFINITION. The cell space: every register word and every table entry word of the device has a number, and `resetWord`
is what it holds at reset. A register state is a sparse array of words over it.
-/
namespace Sys2Proof.Machine

/-- A field's reset value in its place. -/
def fieldReset (inst idx : Nat) (f : FieldSpec) : Word :=
  setBits 0 f.lsb f.width (unsign f.width (f.rst + inst * f.rstInst + idx * f.rstIdx))

/-- A register's reset word. -/
def fieldsReset (inst idx : Nat) (fs : List FieldSpec) : Word :=
  fs.foldl (fun w f => w ||| fieldReset inst idx f) 0

/-- The index of byte offset `off` in a register array, where it lies in it. -/
def RegSpec.index? (r : RegSpec) (off : Nat) : Option Nat :=
  if off < r.off then none
  else if (off - r.off) % r.stride = 0 ∧ (off - r.off) / r.stride < r.count then some ((off - r.off) / r.stride)
  else none

/-- The first register of a list that covers a byte offset, with its index there. -/
def findReg : List RegSpec → Nat → Option (Nat × RegSpec)
  | [], _ => none
  | r :: rs, off =>
    match r.index? off with
    | some k => some (k, r)
    | none => findReg rs off

/-- The instance, index and description of the register at an offset of a page. -/
def regAt (page off : Nat) : Option (Nat × Nat × RegSpec) :=
  (findReg (pageRegs page).2 off).map fun p => ((pageRegs page).1, p.1, p.2)

/-- What the LISTEN table holds at reset (Table 11.14): path 8 + n searches all eight engines, path n its own. -/
def listenReset (i : Nat) : Word :=
  let path := i / 8
  let e := i % 8
  let v (n : Nat) : Word := setBits (setBits (setBits 0 0 7 (4 + 13 * n)) 8 6 n) 16 1 1
  if path ≥ 8 then v e else if e = 0 then v path else 0

/-- The reset word of a register cell. The registers the specification gives no reset value stand at the
values of `Config` (DESIGN CHOICE, log 2). -/
def resetRegWord (page off : Nat) : Word :=
  match regAt page off with
  | none => 0
  | some (n, k, r) =>
    let w := fieldsReset n k r.fields
    if page = 0x042 ∧ off = 0x050 then setBits w 1 1 1            -- Q_CFG[4].CONSUMER
    else if page = 0x041 ∧ (off = 0x040 ∨ off = 0x044) then BitVec.ofNat 32 (Config.winHome / 0x10000)
    else if page = 0x001 ∧ off = 0x0D8 then BitVec.ofNat 32 (Config.jrnBase / 64)
    else w

/-- The reset word of a table entry's cell. -/
def resetTableWord (c : Nat) : Word :=
  let w := c % 64
  let e := c / 64
  let t := e / 1048576
  if t = tableLISTEN.id ∧ w = 0 then listenReset (e % 1048576)
  else match tableById t with
  | none => 0
  | some ts => fieldsReset 0 0 ((ts.words[w]?).getD [])

/-- What every cell holds at reset. -/
def resetWord (c : Nat) : Word :=
  if c < 0x400000 then resetRegWord (c / 1024) (c % 1024 * 4)
  else if c < 0x1000000 then 0
  else resetTableWord (c - 0x1000000)

end Sys2Proof.Machine
end

