-- ==== Sys2Proof/Machine/State.lean ====
section
/-!
DEFINITION. The state of the block: the register cells with their shadows, the page headers, the event sources, the performance
counters, the memories, and the state the chapters give each engine, lane, course, pair, queue, key slot, reference, finger and
start-up step; and the queue of waiting commands.
-/
namespace Sys2Proof.Machine

/-- Why a command could stop the block. The specification lets no command stop it (R425: a refused access never
traps and never stalls), so there is no constructor, and no meaning faults. -/
inductive Fault where
  deriving DecidableEq, Repr

/-- Why a command is refused by the model. -/
inductive Refusal where
  /-- Raised by the dispatch for a command that has no meaning yet; safe, since the machine stops where the hardware goes on. -/
  | notModelled (mnemonic : String)
  deriving DecidableEq, Repr

/-! ## Register pages (R424 to R428) -/

/-- The commit state of a page, STAT.CSTATE (Table 15.2, R561). -/
inductive CState where
  | opened | armed | pendingCommit
  deriving DecidableEq, Repr

/-- The header state of a page that is not shared with its event group (Table 15.2). -/
structure PageHdr where
  /-- STAT.CSTATE -/
  cstate : CState
  /-- STAT.LAST_REFUSED -/
  lastRefused : Bool
  /-- COMMIT_EPOCH, modulo 2^32 -/
  epoch : Nat
  /-- VIOLATION_COUNT, saturating -/
  viol : Nat
  deriving DecidableEq, Repr

/-- A page header at reset. -/
def PageHdr.reset : PageHdr := ⟨.opened, false, 0, 0⟩

/-- A committed value that is not in force yet: it replaces the bits of `mask` in its cell at its boundary (R428). -/
structure Later where
  page : Nat
  cell : Nat
  mask : Word
  value : Word
  bnd : Boundary
  deriving DecidableEq, Repr

/-! ## Events (R452 to R460) -/

/-- The registers of an event group: latches, enables and routing (Table 16.3). -/
structure EvGroup where
  latch : Word
  en : Word
  route : Word
  deriving DecidableEq, Repr

/-- A group at reset. -/
def EvGroup.reset : EvGroup := ⟨0, 0, 0⟩

/-- An MSI-X vector: whether its hold-off runs, whether a rise waits for its end, and the messages sent (R457). -/
structure VecState where
  held : Bool
  waiting : Bool
  sent : Nat
  deriving DecidableEq, Repr

/-- A vector at reset. -/
def VecState.reset : VecState := ⟨false, false, 0⟩

/-- An entry of the MSI-X table, as PCI Express lays it out: its message, and its mask bit (R419, R457). -/
structure MsixEntry where
  addr : BitVec 64
  data : Word
  masked : Bool
  deriving DecidableEq, Repr

/-- An entry after a reset of the function: masked (PRESUMED: PCI Express; log 233). -/
def MsixEntry.reset : MsixEntry := ⟨0, 0, true⟩

/-- MSI-X of the head's function (R419, R421, R457): its enable and function mask, the table by entry, the pending bits, and how many messages each entry has sent. -/
structure Msix where
  enable : Bool
  masked : Bool
  table : List (Nat × MsixEntry)
  pending : List Nat
  sent : List (Nat × Nat)
  deriving DecidableEq, Repr

/-- MSI-X after a reset of the function: disabled (PRESUMED: PCI Express; log 233). -/
def Msix.reset : Msix := ⟨false, false, [], [], []⟩

/-- The event sources: the groups, the vectors, the group whose summary with WAKE = 1 rose and has not been acted on, and the rise of the event that
CAP_TRIG names which the capture controller has not acted on: TIME, group and bit (R93). -/
structure EvState where
  groups : List (Nat × EvGroup)
  vecs : List (Nat × VecState)
  wakeReq : Option Nat
  capDue : Option (Nat × Nat × Nat)
  /-- MSI-X of the PCIe function, on the head -/
  msix : Msix
  deriving DecidableEq, Repr

/-! ## Performance counters (R462 to R469) -/

/-- The performance counters: their 48-bit values, by counter (R462). -/
structure PerfState where
  values : List (Nat × Nat)
  deriving DecidableEq, Repr

/-! ## The device (R1, R2, R6, R449) -/

/-- The two parts (R1): the SQ-9806 has engines 0 to 3 and client lanes 0 to 31. -/
inductive Variant where
  | sq9812 | sq9806
  deriving DecidableEq, Repr

/-! ## Line transmit (R57 to R67) -/

/-- A transmit ramp: its duration, its direction, the clock at its start, and the fraction of the curve (num / den) at which
it started, so that p = (1 − cos(π·fraction)) / 2 (R57, R59). -/
structure Ramp where
  timeMs : Nat
  up : Bool
  since : Nat
  num : Nat
  den : Nat
  deriving DecidableEq, Repr

/-- A chord encoder (R132 to R137): what it has taken and not yet put out, stage by stage. -/
structure ChordTx where
  /-- the rows of the last whole staircase block, column 0 most significant; none listed, the block B0 of zeros (R133) -/
  prev : List Nat
  /-- framed bits that do not fill a block yet -/
  info : List Bool
  /-- staircase output bits that do not fill an inner codeword yet (R136) -/
  stair : List Bool
  /-- the inner codewords of the interleaver group under way (R137) -/
  words : List (List Bool)
  /-- the interleaver's output made in the last frame (R137) -/
  out : List Bool
  /-- bits of the engine's carrier that do not fill a matcher block or a symbol yet, and the blocks or symbols filled in the last frame (R137, R138) -/
  rest : List Bool
  units : List (List Bool)
  deriving DecidableEq, Repr

/-- A chord encoder at an entry to PREP (R135). -/
def ChordTx.reset : ChordTx := ⟨[], [], [], [], [], [], []⟩

/-- What a transmit engine holds beside its registers. -/
structure TxEngine where
  ramp : Ramp
  /-- the pilot seeds loaded at the last PREP (R45, R69) -/
  seedX : Nat
  seedY : Nat
  /-- the pilot restarts made, one at each entry to PREP (R46) -/
  restarts : Nat
  /-- the chord encoder -/
  chord : ChordTx
  /-- the pre-distortion banks of R53, by index of Table 2.4 -/
  pdShadow : List (Nat × Nat)
  pdActive : List (Nat × Nat)
  /-- a bank swap waits for the frame boundary -/
  pdSwap : Bool
  /-- the coefficients derived from the front-end data at the last PREP, by index of Table 2.4 (R50) -/
  derived : List (Nat × Nat)
  /-- the fractional delays of the lanes in use, 0.05 ps (R49, R51) -/
  delays : List Int
  deriving DecidableEq, Repr

/-- A transmit engine at reset. -/
def TxEngine.reset : TxEngine := ⟨⟨0, false, 0, 0, 1⟩, 0, 0, 0, ChordTx.reset, [], [], false, [], []⟩

/-! ## Front-end identity memories (R530 to R532) -/

/-- The front-end data of one engine: the last result, and a running read with those that wait for it. -/
structure FeEngine where
  cache : List Byte
  valid : Bool
  busErr : Bool
  busy : Bool
  forPrep : Bool
  forRx : Bool
  forHost : Bool
  deriving DecidableEq, Repr

/-- The front-end data of an engine at reset. -/
def FeEngine.reset : FeEngine := ⟨[], false, false, false, false, false, false⟩

/-! ## Line receive (R70 to R129, R153 to R155, R563) -/

/-- An inner codeword decoded whose bits have not all left the outer decoder (R154): the place of its first information bit in the staircase stream, and
the hard decisions at the decoder's input. -/
structure ChordWord where
  start : Nat
  input : List Bool
  deriving DecidableEq, Repr

/-- A staircase block in the decoder (R142): its number, whether a decoder has changed a bit of it (R147), and its rows as decoded so far, column 0
most significant. -/
structure ChordBlock where
  index : Nat
  changed : Bool
  rows : List Nat
  deriving DecidableEq, Repr

/-- A chord decoder (R141 to R151). -/
structure ChordRx where
  /-- staircase bits before the first block boundary -/
  skip : Nat
  /-- the place in the staircase stream of the next bit, from the first block boundary on -/
  next : Nat
  /-- bits of the block that fills: the hard decision at the input, and the inner decoder's -/
  fill : List (Bool × Bool)
  /-- the blocks in the window, oldest first -/
  window : List ChordBlock
  /-- the block that left last, with its verdict -/
  gone : Option (ChordBlock × Nat)
  words : List ChordWord
  /-- unsatisfied checks at the decoder's input of the last codewords, at most 256, newest first (Table 5.5) -/
  unsat : List Nat
  /-- delivered bytes with their marks (R147), and the place of the first in the decoded stream, in bits -/
  base : Nat
  out : List (Byte × Nat)
  /-- the matcher, codeword and staircase phases of the search or alignment under way: offsets, modulo 128 data symbols, 73,792 line bits and 139,876 staircase bits -/
  phases : Nat × Nat × Nat
  /-- those of the last ALIGNED state as it began, and the codewords taken in it (R151) -/
  kept : Option (Nat × Nat × Nat)
  keptWords : Nat
  /-- for each codeword whose bits have not been delivered whole: its place in the staircase stream, and the τ_front and τ_back that its symbols carry, in 2^-16 ns
  (R89, R104) -/
  delays : List (Nat × Int × Int)
  deriving DecidableEq, Repr

/-- A chord decoder with its state cleared (R152). -/
def ChordRx.reset : ChordRx := ⟨0, 0, [], [], none, [], [], 0, [], (0, 0, 0), none, 0, []⟩

/-- What a receive engine holds beside its registers. -/
structure RxEngine where
  /-- the sampling PLL has been started (R75) -/
  pllRun : Bool
  /-- fs in force, in Hz, as a fraction (R81, R82); RX_SAMP_STAT.FS_MSPS shows it rounded -/
  fs : Nat × Nat
  /-- E-1n.08 has been raised for a lock that did not come within 10 ms (R75) -/
  late : Bool
  /-- ENABLE waits for the ADC calibration (R75) -/
  calWait : Bool
  /-- a fault of the line receive queue, until the path is enabled again (R19) -/
  fault : Bool
  /-- signal present (R121) -/
  present : Bool
  /-- the D kept from CD_SEARCH, and the attempts with it that ended in BACKOFF (R124) -/
  keptD : Option Int
  keptFails : Nat
  /-- the attempt under way uses the kept D -/
  onKept : Bool
  /-- the clock at which WAIT_SIGNAL was left, and at which LOCKED was entered -/
  acqStart : Nat
  lockedAt : Nat
  /-- LOCKED was entered from FAST_REACQ; the clock at which HOLD was entered; and the symbols counted in HOLD (R151) -/
  fromFast : Bool
  holdAt : Nat
  heldSymbols : Nat
  /-- lock has been lost and TIMING not entered since (R106) -/
  lost : Bool
  /-- the pilot seeds taken up at the entry to PILOT_SYNC (Table 4.12) -/
  seedX : Nat
  seedY : Nat
  /-- TAPS in use, taken up at the entry to EQ_CONVERGE (R101) -/
  taps : Nat
  /-- the taps have been set to their initial values and had not adapted when they last stood still (R106); and the clock of that setting -/
  tapsInitial : Bool
  tapsSetAt : Nat
  /-- the clock at which the taps last stopped adapting: they keep the values of that instant while they stand still (R105) -/
  tapsStillAt : Nat
  /-- the clock at which the taps were shifted last, with the positions by which they were (R103) -/
  tapShift : Nat × Int
  /-- periods of 1/r_i that tap shifts have moved into the timing phase since TR_LOCK set (R103) -/
  phaseSteps : Int
  /-- the clock at which yy and yx were made the complements of xx and xy (R102, R107) -/
  relatedAt : Option Nat
  /-- the clock at which the decision-feedback stage was switched on (R111) -/
  dfeAt : Nat
  /-- the tap readout store (Table 4.10) -/
  tapStore : List (Nat × Word)
  /-- TWIN phase aid conditions hold (R119) -/
  aid : Bool
  /-- cycle slips of the running 1 ms (R117) -/
  slips : Nat
  /-- the estimate window has seen the engine LOCKED throughout (R127) -/
  winLocked : Bool
  /-- codewords decoded, included, corrected bits, excluded and capped codewords, FAILED blocks and iterations of the window (R155) -/
  winCw : Nat
  winIncl : Nat
  winCorr : Nat
  winExcl : Nat
  winCapped : Nat
  winFailed : Nat
  winIter : Nat
  /-- the last valid window left Q degraded (R129) -/
  degraded : Bool
  /-- the signal-degrade levels of the window under way (Table 5.12) -/
  sdSet : Nat
  sdClr : Nat
  /-- the verdict of the last staircase block (R147): 0 CLEAN, 1 CORRECTED, 2 FAILED -/
  verdict : Nat
  /-- the chord decoder -/
  chord : ChordRx
  deriving DecidableEq, Repr

/-- A receive engine at reset. -/
def RxEngine.reset : RxEngine :=
  ⟨false, (0, 1), false, false, false, false, none, 0, false, 0, 0, false, 0, 0, false, 0, 0, 1, true, 0, 0, (0, 0), 0, none, 0, [], false, 0, false,
    0, 0, 0, 0, 0, 0, 0, false, 0x03126E98, 0x028F5C29, 0, ChordRx.reset⟩

/-- A capture record: its run's mode and trigger, its place, and its samples (R92 to R97). -/
structure CapRec where
  /-- place in the region, 64-byte units -/
  start : Nat
  seq : Nat
  decimated : Bool
  decim : Nat
  /-- FLAGS but POISONED (Table 3.3) -/
  flags : Nat
  /-- sampling instant of the first sample, 2^-16 ns -/
  first : Nat
  fsMsps : Nat
  cd : Int
  trig : Nat
  samples : List Byte
  deriving DecidableEq, Repr

/-- A capture run: what its trigger fixed, and whether its first sample has been taken. -/
structure CapRun where
  decimated : Bool
  decim : Nat
  /-- sample instants of a record -/
  length : Nat
  /-- T_s, 2^-16 ns -/
  startAt : Nat
  trig : Nat
  started : Bool
  /-- sampling instant of the first sample of the record under way -/
  first : Nat
  /-- decimated: the place given to the record under way when it started, 64-byte units (R95) -/
  place : Nat
  deriving DecidableEq, Repr

/-- The capture state of an engine. -/
structure CapEngine where
  run : Option CapRun
  drains : List CapRec
  seq : Nat
  deriving DecidableEq, Repr

/-- An engine's capture state at reset. -/
def CapEngine.reset : CapEngine := ⟨none, [], 0⟩

/-! ## Line frame and courses (R159 to R193) -/

/-- A candidate position of the frame search (R180). -/
structure Candidate where
  /-- the place of its first pass in the decoded stream, in bits -/
  pos : Nat
  /-- passes in consecutive frames -/
  passes : Nat
  /-- MFAS of its last pass -/
  mfas : Nat
  confirmed : Bool
  deriving DecidableEq, Repr

/-- The frame aligner of an engine (R180 to R184). -/
structure FrEngine where
  cands : List Candidate
  /-- the place in the decoded stream at which the next frame of the aligned position starts, or of the old one in OOF, in bits -/
  pos : Nat
  /-- passes of the confirmed candidate that end AMBIGUOUS: 64 beyond those at its entry (R182) -/
  ambig : Nat
  /-- consecutive header misses in ALIGNED, and frames without one in OOF -/
  misses : Nat
  oofGood : Nat
  /-- MFAS expected next -/
  mfas : Nat
  /-- the clock at which the decoder started to deliver -/
  since : Nat
  deriving DecidableEq, Repr

/-- A frame aligner at reset. -/
def FrEngine.reset : FrEngine := ⟨[], 0, 0, 0, 0, 0, 0⟩

/-- A received member column of a course frame, held until the frame is rebuilt (R170). -/
structure Member where
  serial : Nat
  member : Nat
  /-- the column's overhead was accepted (R163) -/
  accepted : Bool
  ks : Bool
  /-- the worst mark of its payload and overhead: 0 CLEAN, 1 CORRECTED, 2 FAILED -/
  mark : Nat
  payload : List Byte
  /-- its overhead block where accepted -/
  head : List Byte
  /-- the HUB time of its arrival, ns -/
  arrived : Nat
  deriving DecidableEq, Repr

/-- Counters of consecutive frames for one declared condition: those for it and those against it. -/
structure Runs where
  bad : Nat
  good : Nat
  deriving DecidableEq, Repr

/-- A trail-identifier collector (R174). -/
structure Tti where
  /-- the bytes collected since the frame with MFAS mod 64 = 0; none while the message is discarded -/
  got : Option (List Byte)
  last : List Byte
  same : Nat
  accepted : List Byte
  valid : Bool
  deriving DecidableEq, Repr

/-- A trail-identifier collector at reset. -/
def Tti.reset : Tti := ⟨none, [], 0, [], false⟩

/-- The columns of a course held against its map, course frame by course frame (Table 6.4): the engines of the frame under way that have brought theirs, whether one of
them was accepted and whether an accepted one was wrong; and the frames that were wrong and right in a row. -/
structure Msim where
  runs : Runs
  engines : List Nat
  any : Bool
  bad : Bool
  deriving DecidableEq, Repr

/-- No frame held against the map. -/
def Msim.reset : Msim := ⟨⟨0, 0⟩, [], false, false⟩

/-- What a course holds beside its table entries. -/
structure Course where
  /-- transmit: the serial of the next frame, and the frame sent last (R165, R169) -/
  serial : Nat
  sent : List Byte
  sentKs : Bool
  sentSerial : Nat
  /-- a frame has been encrypted, or the transmit key switched, since the course was enabled (R289) -/
  begun : Bool
  /-- the trail identifier being sent (R173) -/
  ttiTx : List Byte
  /-- changes of the BDI that the receive state asks for, with the clock of each, that are not sent yet, oldest first (R175) -/
  bdiWait : List (Bool × Nat)
  /-- BIP-8 of the last three frames sent, oldest first; of the frames received last, with their serials; and the BEI to return, of section and path (R189) -/
  bipTx : List Nat
  bipRx : List (Nat × Nat)
  bei : Nat
  beiPm : Nat
  /-- receive: the members that wait for their frame (R170) -/
  held : List Member
  loa : Runs
  msim : Msim
  nok : Runs
  bdi : Runs
  ff : Runs
  /-- frame fail (R213) -/
  inFf : Bool
  sm : Tti
  pm : Tti
  /-- TIM of the section and of the path message (R174, R189) -/
  timSm : Bool
  timPm : Bool
  /-- frames with overhead of the other mode and without, and TIM for it (R190) -/
  otherMode : Runs
  timMode : Bool
  /-- the SR value in arrival and how often it came (R177) -/
  srNew : Nat
  srSame : Nat
  /-- an SR value has been accepted -/
  srHas : Bool
  /-- the serial of the last frame delivered, where one has been -/
  delivered : Option Nat
  /-- receive less transmit time of the last frames with TS_VALID, at most 256, newest first, 2^-16 ns (R355) -/
  cts : List Int
  deriving DecidableEq, Repr

/-- A course at reset. -/
def Course.reset : Course :=
  ⟨0, [], false, 0, false, [], [], [], [], 0, 0, [], ⟨0, 0⟩, Msim.reset, ⟨0, 0⟩, ⟨0, 0⟩, ⟨0, 0⟩, false, Tti.reset, Tti.reset, false, false, ⟨0, 0⟩, false, 0, 0,
    false, none, []⟩

/-! ## Parallax and protection (R194 to R224) -/

/-- The frame copy that a Parallax pair's slot holds for a serial (R206). -/
structure Slot where
  serial : Nat
  cls : Nat
  /-- the path whose write was the last: false A, true B -/
  fromB : Bool
  ks : Bool
  frame : List Byte
  /-- the HUB time of its arrival, ns -/
  arrived : Nat
  deriving DecidableEq, Repr

/-- A stretch of a pair's release grid (R199): G of the serial with which it begins, 2^-16 ns, and the rate of the loop from there on, parts per 10^9. -/
structure GridSeg where
  serial : Nat
  start : Int
  ppb : Int
  deriving DecidableEq, Repr

/-- A frame decided and not yet released: what its slot held, and whether the read gave a poison mark (R207). -/
structure Decision where
  serial : Nat
  content : Option Slot
  poisoned : Bool
  deriving DecidableEq, Repr

/-- SF or SD on a course of a pair: whether it is acted on, and otherwise the clock since which it has held (R214). -/
structure Cond where
  acted : Bool
  since : Option Nat
  deriving DecidableEq, Repr

/-- A condition that does not hold. -/
def Cond.reset : Cond := ⟨false, none⟩

/-- What one path of a Parallax pair has delivered (R200, R204, Table 7.1). -/
structure PairPath where
  contributing : Bool
  /-- consecutive serials with and without a copy that takes part -/
  ok : Nat
  missed : Nat
  /-- the serial of its last valid copy -/
  last : Option Nat
  /-- arrival less G of the last valid copies, at most 256, newest first -/
  offsets : List Int
  /-- for the last copies, at most 256, newest first: 0 in time, 1 late, 2 early -/
  timing : List Nat
  deriving DecidableEq, Repr

/-- A path at reset. -/
def PairPath.reset : PairPath := ⟨false, 0, 0, none, [], []⟩

/-- What a pair holds beside its table entries. -/
structure Pair where
  /-- commands in force (R220): LO, FS, and MS with its target -/
  lo : Bool
  fs : Bool
  ms : Option Bool
  /-- commands that wait for the pair's next course frame boundary (R220) -/
  cmds : List Nat
  /-- SF and SD on A and B (R214) -/
  sfA : Cond
  sdA : Cond
  sfB : Cond
  sdB : Cond
  /-- WTR runs since a clock, and DNR (R216) -/
  wtr : Option Nat
  dnr : Bool
  /-- NR leaves the selector on B after DNR (Table 7.3) -/
  nrB : Bool
  /-- the selector has moved: the serial of the frame delivered last before it, until a later one has been delivered (R219) -/
  after : Option Nat
  /-- the release grid, newest stretch first, and the integral part of its loop's rate, 10^-18 (R199) -/
  grid : List GridSeg
  rate : Int
  /-- in ACQUIRE: valid copies waiting for their partner: path, serial, arrival -/
  firsts : List (Bool × Nat × Int)
  /-- the serial last decided -/
  decided : Option Nat
  slots : List Slot
  a : PairPath
  b : PairPath
  /-- the frames that wait for their release ticks, oldest first -/
  ready : List Decision
  deriving DecidableEq, Repr

/-- A pair at reset. -/
def Pair.reset : Pair :=
  ⟨false, false, none, [], Cond.reset, Cond.reset, Cond.reset, Cond.reset, none, false, false, none, [], 0, [], none, [], PairPath.reset, PairPath.reset, []⟩

/-! ## Packets from the inlet to the reorder exit (R236 to R253) -/

/-- A packet inside the device. -/
structure Packet where
  /-- client port of its arrival -/
  port : Nat
  /-- marked reserved at the inlet -/
  reserved : Bool
  /-- sequence number of its port and class (R241) -/
  seq : Nat
  /-- rule-set epoch of the inlet (R252) -/
  epoch : Nat
  /-- the Ethernet frame without FCS -/
  bytes : List Byte
  /-- TIME at the ingress reference, 2^-16 ns -/
  tIn : Nat
  deriving DecidableEq, Repr

/-- A lookup that a thread has issued: exact or wildcard, its profile and the bits of its key. -/
structure Lookup where
  exact : Bool
  profile : Nat
  key : List Bool
  deriving DecidableEq, Repr

/-- A packet in a thread (R232, R233): the group and thread, the pass, and what it has used and found so far. -/
structure Thread where
  group : Nat
  thread : Nat
  pkt : Packet
  second : Bool
  /-- cycles over both passes, and of this pass -/
  cycles : Nat
  passCycles : Nat
  exacts : Nat
  wilds : Nat
  /-- length before the first edit (R250) -/
  origLen : Nat
  /-- the key under construction, first bit first -/
  key : List Bool
  /-- the layers recorded in this pass (R242) -/
  layers : List Layer
  /-- the flags found, and whether the outer path has been taken (R243, R244) -/
  frag : Bool
  deep : Bool
  len : Bool
  outer : Bool
  /-- what RESULT has set in this pass -/
  result : Option (Word × Word)
  /-- the result of the last lookup, where it found an entry -/
  found : Option (Word × Word)
  /-- a lookup whose result has not arrived: the thread is not ready -/
  wait : Option Lookup
  /-- the pass has ended, by END (false) or RECIRC (true) -/
  ended : Option Bool
  deriving DecidableEq, Repr

/-- A packet as a thread takes it. -/
def Thread.start (g n : Nat) (p : Packet) : Thread :=
  ⟨g, n, p, false, 0, 0, 0, 0, p.bytes.length, [], [], false, false, false, false, none, none, none, none⟩

/-- What a packet leaves the reorder stage as: nothing (a tombstone), a packet of a flow, or a punted packet with its queue (R241, R248). -/
inductive Exit where
  | tombstone
  | flow (flow : Nat) (bytes : List Byte)
  | punt (queue : Nat) (bytes : List Byte)
  deriving DecidableEq, Repr

/-- A packet that waits in the reorder stage. -/
structure Parsed where
  pkt : Packet
  exit : Exit
  deriving DecidableEq, Repr

/-- A live epoch's figures (R252). -/
structure EpochRec where
  num : Nat
  cycMax : Nat
  lkeMax : Nat
  lkwMax : Nat
  cycLimit : Nat
  bank : Nat
  /-- EXC_ACTION -/
  action : Word
  deriving DecidableEq, Repr

/-- The epoch of reset: number 0 with the reset values of page 0x300. -/
def EpochRec.reset : EpochRec := ⟨0, 56, 3, 1, 48, 0, 0x10000⟩

/-- A token bucket: what it holds, and the clock it was last filled at; a bucket that was never used is full. -/
structure Bucket where
  tokens : Nat
  since : Nat
  deriving DecidableEq, Repr

/-- A bulk load under way (R254): its table, bank, place, length, and the records done. -/
structure BulkLoad where
  table : Nat
  bank : Nat
  src : Nat
  count : Nat
  done : Nat
  /-- who started it, a code of MASTER (Table 15.5) -/
  master : Nat
  deriving DecidableEq, Repr

/-- The parse stage. -/
structure Parse where
  /-- inlet areas, oldest first: group and packet -/
  inlet : List (Nat × Packet)
  threads : List Thread
  /-- the 16 registers of a thread, by 64 × group + thread (R232) -/
  regs : List (Nat × List (BitVec 64))
  /-- the engine that a group's round-robin looks at first, by group -/
  turn : List (Nat × Nat)
  reorder : List Parsed
  /-- by 2 × port + class: the next sequence number given, and the next released -/
  given : List (Nat × Nat)
  released : List (Nat × Nat)
  /-- live epochs, oldest first -/
  epochs : List EpochRec
  /-- buckets of PRECLASS entries and of punt queues -/
  preclass : List (Nat × Bucket)
  punt : List (Nat × Bucket)
  load : Option BulkLoad
  /-- the microcode load under way: bank, source, length -/
  ucode : Option (Nat × Nat × Nat)
  /-- FCS failures of the running 1 ms, by port -/
  fcs : List (Nat × Nat)
  /-- microcode banks lost to a damaged word and not loaded since (Table 18.2) -/
  lostBanks : List Nat
  deriving DecidableEq, Repr

/-- The parse stage at reset. -/
def Parse.reset : Parse := ⟨[], [], [], [], [], [], [], [EpochRec.reset], [], [], none, none, [], []⟩

/-! ## The scheduler (R259 to R274) -/

/-- A packet in a queue of the scheduler: its flow, the class of its header, its T_IN, and whether it lies in HBM. -/
structure Queued where
  flow : Nat
  cls : Nat
  bytes : List Byte
  /-- TIME at the ingress reference, 2^-16 ns, at ingress; the header's T_IN at egress -/
  tIn : Nat
  /-- DET: the release instant, ns modulo 2^32 -/
  rel : Nat
  hbm : Bool
  /-- a DET packet that came after its release instant -/
  late : Bool
  deriving DecidableEq, Repr

/-- The receive side of a course's packet stream (R261): the bytes of the packet under way, whether the stream is followed, and the serial
of the frame taken last. -/
structure RxStream where
  partial_ : List Byte
  inSync : Bool
  last : Option Nat
  deriving DecidableEq, Repr

/-- A stream before its first frame. -/
def RxStream.reset : RxStream := ⟨[], false, none⟩

/-- A packet that a course has delivered and egress has not taken: its course and its queue entry. -/
structure Delivered where
  course : Nat
  pkt : Queued
  deriving DecidableEq, Repr

/-- An ADMIT, REMOVE or counter clear under way: its operation and its declaration. -/
structure AdmOp where
  op : Nat
  words : List Word
  /-- who started it, a code of MASTER (Table 15.5) -/
  master : Nat
  deriving DecidableEq, Repr

/-- The scheduler. -/
structure Sched where
  /-- reserved packets, by flow -/
  flows : List (Nat × List Queued)
  /-- best-effort queues, by BEQ index -/
  beq : List (Nat × List Queued)
  /-- buckets of shaped best-effort flows -/
  shape : List (Nat × Bucket)
  /-- transmit stream bytes carried into the next frame, by course -/
  carry : List (Nat × List Byte)
  /-- the packets whose last byte is in there: flow, ingress reference, and where they end in it -/
  tails : List (Nat × List (Nat × Nat × Nat))
  /-- bytes taken into the cell buffer alone since the last frame, by course -/
  direct : List (Nat × Nat)
  /-- best-effort bytes written to HBM since the last frame tick (R274) -/
  written : Nat
  rx : List (Nat × RxStream)
  arrivals : List Delivered
  /-- DET packets held, by port -/
  hold : List (Nat × List Queued)
  /-- DET packets released, and BOUNDED packets, by port -/
  det : List (Nat × List Queued)
  bounded : List (Nat × List Queued)
  /-- least and largest δ of a flow (R273) -/
  pdv : List (Nat × Nat × Nat)
  adm : Option AdmOp
  deriving DecidableEq, Repr

/-- The scheduler at reset. -/
def Sched.reset : Sched := ⟨[], [], [], [], [], [], 0, [], [], [], [], [], [], none⟩

/-! ## Key slots and the request engine (R284 to R299) -/

/-- A key slot (Table 10.3): its state and role, its key, its KCV and its usage count. -/
structure KeySlot where
  state : Nat
  role : Nat
  key : List Byte
  kcv : Nat
  used : Nat
  deriving DecidableEq, Repr

/-- An EMPTY slot. -/
def KeySlot.reset : KeySlot := ⟨0, 0, [], 0, 0⟩

/-- A Drone request that waits: the transmitter, the header bytes 0 to 5, and the plaintext (R319). -/
structure DroneReq where
  tx : Nat
  header : List Byte
  plain : List Byte
  deriving DecidableEq, Repr

/-- The request that the engine runs (R297): of a Drone transmitter, or of the host with its descriptor's place; its fields; the key
latched at its start; and the status found before any computation, 0 where none. -/
structure Req where
  drone : Option DroneReq
  entry : Nat
  op : Nat
  slot : Nat
  length : Nat
  aadLen : Nat
  src : Nat
  dst : Nat
  aad : Nat
  iv : List Byte
  tag : List Byte
  key : List Byte
  early : Nat
  zeroised : Bool
  deriving DecidableEq, Repr

/-! ## Drone (R304 to R326) -/

/-- A finger at work on a path (Table 11.5). -/
structure Finger where
  entry : Nat
  subc : Nat
  code : Nat
  /-- BODY; otherwise ACQ -/
  body : Bool
  /-- despread SNR at detection, 0.1 dB; the gain frozen there; and the subcarrier's offset, Hz: the signal's, and what the AFC has acquired of it (R315) -/
  power : Int
  gain : Nat
  offset : Int
  freq : Int
  /-- the AFC is frozen (R315) -/
  frozen : Bool
  /-- the phase rotation of the sync word, and TIME at its end -/
  rotation : Nat
  syncTime : Nat
  /-- the header bytes decoded -/
  header : List Byte
  deriving DecidableEq, Repr

/-- A Drone transmitter (R309, R310). -/
structure DroneTx where
  /-- the host message that is ready to be sent: header and payload -/
  waiting : Option (List Byte)
  /-- the host message waits for the request engine (R319) -/
  sealing : Bool
  /-- a beacon is due -/
  beacon : Bool
  /-- the burst on the air: whether it is a beacon, its bytes, and its subcarrier, code, depth and ramp -/
  sending : Option (Bool × List Byte × Nat × Nat × Nat × Nat)
  /-- the bit pairs of its preamble, sync word and coded body, and the 64 chips that spread each (R305 to R307) -/
  symbols : List Nat
  chips : List Bool
  seq : Nat
  deriving DecidableEq, Repr

/-- A transmitter at reset. -/
def DroneTx.reset : DroneTx := ⟨none, false, false, none, [], [], 0⟩

/-- A received beacon that waits for verification (R322). -/
structure Beacon where
  path : Nat
  subc : Nat
  code : Nat
  power : Int
  freq : Int
  wake : Bool
  /-- the clock at the end of its body -/
  clock : Nat
  payload : List Byte
  deriving DecidableEq, Repr

/-- The highest COUNTER accepted for a key, with the path and clock that set it (R322). -/
structure KeyMark where
  key : List Byte
  counter : Nat
  path : Nat
  clock : Nat
  deriving DecidableEq, Repr

/-- An item written from a path: subcarrier, code, SEQ and CRC-32, with the clock (R318). -/
structure ItemMark where
  path : Nat
  subc : Nat
  code : Nat
  seq : Nat
  crc : Nat
  clock : Nat
  deriving DecidableEq, Repr

/-- The Drone beside its registers. -/
structure Drone where
  /-- by path × 4 + finger; unlisted is FREE -/
  fingers : List (Nat × Option Finger)
  tx : List (Nat × DroneTx)
  beacons : List Beacon
  keys : List KeyMark
  items : List ItemMark
  /-- false detections of the running second, by path -/
  falses : List (Nat × Nat)
  /-- beacons sent since start-up -/
  sentBeacons : Nat
  /-- the clock at which each neighbour entry was last refreshed -/
  heard : List (Nat × Nat)
  deriving DecidableEq, Repr

/-- The Drone at reset. -/
def Drone.reset : Drone := ⟨[], [], [], [], [], [], 0, []⟩

/-! ## Sidereal (R327 to R360) -/

/-- The monitors of a reference (R332, R333): its readings of the last 100 s, newest first, in 10^-12; the consecutive seconds in which all monitors
but the span one have passed; a drift-rate failure that waits for 100 s within the limit, and how many seconds have been; a span failure;
and whether f_q has been recorded. -/
structure RefMon where
  fs : List Int
  passed : Nat
  rateBad : Bool
  rateGood : Nat
  spanBad : Bool
  hasQ : Bool
  deriving DecidableEq, Repr

/-- The monitors of a reference at reset. -/
def RefMon.reset : RefMon := ⟨[], 0, false, 0, false, false⟩

/-- The agreement of two references (R335): their relative frequency of the last 10 s, newest first, the consecutive averages beyond and within
the limit, and whether the pair disagrees. -/
structure Agree where
  rel : List Int
  beyond : Nat
  within : Nat
  disagrees : Bool
  deriving DecidableEq, Repr

/-- A pair of references that has not been compared. -/
def Agree.reset : Agree := ⟨[], 0, 0, false⟩

/-- An output pin (R349, R350): how long it has run, 2^-16 ns of the DPLL's output, none while it is stopped, and the shift that its edges have, 10^-6 ps. -/
structure Output where
  ran : Option Nat
  phase : Int
  deriving DecidableEq, Repr

/-- An output that is stopped. -/
def Output.reset : Output := ⟨none, 0⟩

/-- What Sidereal holds beside its registers. -/
structure Sidereal where
  /-- the amount still to be slewed, 2^-16 ns (R346) -/
  slew : Int
  /-- what the rates of a slew and of an alignment have come to beside whole 2^-16 ns, in 10^-9 of one -/
  slewRest : Nat
  alignRest : Nat
  /-- the DPLL's own count beside `clock`, 2^-16 ns -/
  clockRest : Nat
  /-- PACE is being aligned, or will jump at its next second (R353) -/
  aligning : Bool
  jump : Bool
  /-- the seconds value of the next 1PPS edge (R346) -/
  tod : Option Nat
  refs : List (Nat × RefMon)
  /-- by 17 × lower + higher reference -/
  agree : List (Nat × Agree)
  /-- the clock at the entry to HOLDOVER -/
  hoSince : Nat
  /-- the DPLL's output offset of the last seconds, newest first, and the holdover frequency, 10^-12 (R343) -/
  hist : List Int
  hoFreq : Int
  /-- the next correction of the PTP servo is the first since the entry to ACQUIRE (R347) -/
  ptpFirst : Bool
  /-- output and input pin delays, 2^-16 ns (R358) -/
  pinOut : List (Nat × Int)
  pinIn : List (Nat × Int)
  outs : List (Nat × Output)
  deriving DecidableEq, Repr

/-- Sidereal at reset. -/
def Sidereal.reset : Sidereal := ⟨0, 0, 0, 0, false, false, none, [], [], 0, [], 0, false, [], [], []⟩

/-! ## Converters and Collimation (R361 to R385) -/

/-- A lane's calibration: its offset in 2^-20 code and its gain in 2^-40 code per µV (R366). -/
structure LaneCal where
  offset : Int
  gain : Int
  deriving DecidableEq, Repr

/-- What a Collimation record holds beside its status words (R375): the lanes' values of the last foreground pass, as tracking has moved them since, and of the system
calibration (R362, R365, R368), and its other values (sub-converters; offset and gain; delays in 2^-16 ns). -/
structure ColVals where
  fore : List LaneCal
  tracked : List LaneCal
  sys : List LaneCal
  other : List Int
  deriving DecidableEq, Repr

/-- A set that holds nothing. -/
def ColVals.reset : ColVals := ⟨[], [], [], []⟩

/-- A record's values, the run under way (0 none, 1 foreground, 2 background, 3 replica delays, 4 housekeeping), its drift, whether it has been stored
since start-up, and whether it has changed since the store under way took its copy. -/
structure ColRec where
  vals : ColVals
  kind : Nat
  drift : Bool
  stored : Bool
  changed : Bool
  deriving DecidableEq, Repr

/-- A record that holds nothing. -/
def ColRec.reset : ColRec := ⟨ColVals.reset, 0, false, false, false⟩

/-- A stored copy of a record (R376). -/
structure ColCopy where
  gen : Nat
  /-- the header: status words 0 to 4 -/
  words : List Word
  vals : ColVals
  check : List Byte
  deriving DecidableEq, Repr

/-- The instants of Table 13.6. -/
inductive ColWhen where
  | tick
  | frame (n : Nat)
  | scan
  | second
  deriving DecidableEq, Repr

/-- A system calibration under way (R366): engine, class, the trace identifier at its start, and for each lane the mean codes in 2^-20 code and the levels
in µV of the steps that have ended. -/
structure SysCal where
  engine : Nat
  dac : Bool
  trace : Word
  codes : List (List Int)
  levels : List (List Int)
  deriving DecidableEq, Repr

/-- A housekeeping calibration asked for (R374): converter; system; the only offset-changing re-run; started by R372; its trace identifier. -/
structure HkCal where
  conv : Nat
  system : Bool
  rerun : Bool
  auto : Bool
  trace : Word
  deriving DecidableEq, Repr

/-- A commissioning operation under way (R358). -/
structure Commission where
  op : Nat
  engine : Nat
  out : Nat
  pin : Nat
  trace : Word
  deriving DecidableEq, Repr

/-- Collimation and the housekeeping converters beside their registers. -/
structure Collim where
  recs : List (Nat × ColRec)
  /-- the values in force, by record (R379), where `tracked` holds the lanes' values in use (R365), and the sets that wait for their instant -/
  force : List (Nat × ColVals)
  waiting : List (ColWhen × Nat × ColVals)
  /-- the store: copies by 2 × record + copy; the records that wait to be stored, and the store under way -/
  copies : List (Nat × ColCopy)
  queue : List Nat
  store : Option (Nat × Nat × ColCopy)
  sysCal : Option SysCal
  commission : Option Commission
  /-- housekeeping: the scan under way began at this FTIME; consecutive INVALID scans, and whether the converter has been self-calibrated for them -/
  scan : Option Nat
  bad : List (Nat × Nat)
  tried : List Nat
  cals : List HkCal
  /-- the circular buffer, and entries not copied to HBM (R373) -/
  buf : List (Nat × List Byte)
  behind : Bool
  deriving DecidableEq, Repr

/-- Collimation at reset. -/
def Collim.reset : Collim := ⟨[], [], [], [], [], none, none, none, none, [], [], [], [], false⟩

/-! ## The relay (R386 to R415) -/

/-- The blocks of a column that a relay slot carries in one lane frame: the row number in payload row 0 (127 idle), and the 65 blocks with
their marks (R391, R392); and what the next lane frame carries of the column under way. -/
structure RelayColumn where
  row0 : Nat
  rows : List (List Byte × Nat)
  rest : List (List Byte × Nat)
  deriving DecidableEq, Repr

/-- An idle relay slot. -/
def RelayColumn.idle : RelayColumn := ⟨127, [], []⟩

/-- What a relay slot has received: the last two lane frames' blocks, and the last whole column in row order. -/
structure RelaySlot where
  now : RelayColumn
  column : List (List Byte × Nat)
  deriving DecidableEq, Repr

/-- A relay slot at reset. -/
def RelaySlot.reset : RelaySlot := ⟨RelayColumn.idle, []⟩

/-- A message of the chain's data channel: class 1 management, 2 bulk, 3 neighbour (R404). -/
structure Segment where
  cls : Nat
  dst : Nat
  src : Nat
  bcast : Bool
  last : Bool
  seq : Nat
  data : List Byte
  deriving DecidableEq, Repr

/-- A timing field (R407). -/
structure TimingField where
  txTime : Nat
  rxTime : Nat
  mfasRef : Nat
  valid : Bool
  headPath : Bool
  deriving DecidableEq, Repr

/-- A relay lane: consecutive lane frames without a header, its frame sync, and block errors of the running millisecond (R396, R397). -/
structure RelayLane where
  sync : Bool
  misses : Nat
  errors : Nat
  deriving DecidableEq, Repr

/-- A relay lane at reset. -/
def RelayLane.reset : RelayLane := ⟨false, 0, 0⟩

/-- A relay port: the last timing fields' offsets in 2^-16 ns, newest first, how many of the last fields were valid, whether the last valid one
had TIME_VALID and HEAD_PATH set, and the arrival of the neighbour's last lane frame with its MFAS (R408). -/
structure RelayPort where
  offsets : List Int
  goodFields : Nat
  flags : Bool
  heard : Nat
  heardMfas : Nat
  /-- the neighbour's KEY_ID (R409) -/
  neigh : Nat
  /-- the neighbour that claims to be the head was heard first here (R411) -/
  headHere : Bool
  deriving DecidableEq, Repr

/-- A relay port at reset. -/
def RelayPort.reset : RelayPort := ⟨[], 0, false, 0, 0, 0, false⟩

/-- The head's record of a device of the chain: its KEY_ID, its position, whether it is there (R410, R411), and the relay ports that
lead to it with the hops on each (R412). -/
structure ChainMember where
  keyId : Nat
  pos : Nat
  present : Bool
  paths : List (Nat × Nat)
  deriving DecidableEq, Repr

/-- A management or bulk access that waits for its reply: its target position, its sequence number, and whether it reads. -/
structure ChainAccess where
  pos : Nat
  seq : Nat
  read : Bool
  /-- the words that a read returns -/
  words : Nat
  deriving DecidableEq, Repr

/-- The PRBS generator of a lane: the bits generated before the frame under way, and the numbers of the bits that INJ_ONE inverts (R413, R415). -/
structure PrbsGen where
  sent : Nat
  ones : List Nat
  deriving DecidableEq, Repr

/-- A generator at reset. -/
def PrbsGen.reset : PrbsGen := ⟨0, []⟩

/-- The relay. -/
structure Relay where
  /-- received relay slots -/
  rx : List (Nat × RelaySlot)
  /-- what the transmit relay slots carry -/
  tx : List (Nat × RelayColumn)
  lanes : List (Nat × RelayLane)
  ports : List (Nat × RelayPort)
  chain : List ChainMember
  /-- the ports that lie on the ring; none where there is no ring (R412) -/
  ring : List Nat
  /-- TIME at the transmit frame ticks of the last 256 lane frames, by MFAS (R408) -/
  sentAt : List (Nat × Nat)
  /-- accesses that wait for a reply -/
  waiting : List ChainAccess
  /-- position assignment is under way (R410) -/
  assigning : Bool
  /-- segments to be sent, by port -/
  out : List (Nat × List Segment)
  /-- the message under way, by class, source position and SEQ -/
  inbox : List (Nat × List Byte)
  /-- the messages of which a segment has been lost, until their end (R404) -/
  lost : List Nat
  /-- the next sequence number -/
  seq : Nat
  /-- the data channel's bytes of the lane frame under way, by port (R404) -/
  channel : List (Nat × List Byte)
  /-- the PRBS generators, by lane (R413) -/
  gens : List (Nat × PrbsGen)
  /-- the levels that a lane in far-end loopback has received (R390) -/
  echo : List (Nat × List Nat)
  deriving DecidableEq, Repr

/-- The relay at reset. -/
def Relay.reset : Relay := ⟨[], [], [], [], [], [], [], [], false, [], [], [], 0, [], [], []⟩

/-! ## Service queues (R432 to R440) and the Almanac (R441 to R446) -/

/-- An item of a service queue (R433, R434, Table 15.3). -/
structure QItem where
  prio : Nat
  kind : Nat
  source : Nat
  poisoned : Bool
  /-- in 2^-16 ns -/
  time : Nat
  /-- place in the order of arrival -/
  order : Nat
  bytes : List Byte
  deriving DecidableEq, Repr

/-- An item held in a landing slot since its pop. -/
structure Held where
  slot : Nat
  seq : Nat
  item : QItem
  deriving DecidableEq, Repr

/-- What a service queue holds: the waiting items in order of arrival, the held ones in order of their pops, the mark, and the number of
arrivals. -/
structure Queue where
  waiting : List QItem
  held : List Held
  mark : Option Nat
  arrivals : Nat
  deriving DecidableEq, Repr

/-- A queue at reset. -/
def Queue.reset : Queue := ⟨[], [], none, 0⟩

/-- A push under way: its queue, priority, length and source (R439). -/
structure Push where
  queue : Nat
  prio : Nat
  length : Nat
  src : Nat
  deriving DecidableEq, Repr

/-- A position's first answer in the last completed collection (R446): EPOCH and D. -/
structure PosAnswer where
  epoch : Nat
  digest : List Byte
  deriving DecidableEq, Repr

/-! ## Power, start-up and thermal management (R472 to R491) -/

/-- What a temperature sensor's judging holds (R482): consecutive samples out of range and implausible, the code of the last sample, and
the references of the samples that had that code, newest first, at most 1,000, as 27,720 times their mean in 0.125 °C. -/
structure Sensor where
  range : Nat
  wild : Nat
  code : Int
  refs : List Int
  deriving DecidableEq, Repr

/-- A sensor at reset. -/
def Sensor.reset : Sensor := ⟨0, 0, 0, []⟩

/-- The shutdown record of a passed BIST (R508, R479): the firmware measurement and the anti-rollback count recorded with it. -/
structure BistRecord where
  measure : List Word
  arb : Nat
  deriving DecidableEq, Repr

/-- The running mean of a die's sensors (R380): the samples of the second under way, the sum and number of the valid readings in them, in 0.125 °C, and the mean of
the last whole second in 0.1 °C. -/
structure DieMean where
  samples : Nat
  sum : Int
  count : Nat
  mean : Option Int
  deriving DecidableEq, Repr

/-- A die whose sensors have not been read. -/
def DieMean.reset : DieMean := ⟨0, 0, 0, none⟩

/-- What the Finder holds of power and temperature. -/
structure Power where
  /-- the level of PERST_N is high -/
  perst : Bool
  /-- PERST_N has been released and the start that follows has not begun (R476) -/
  released : Bool
  /-- PERST_N has been asserted and the ramps of R63 run; and the engines that were in light then and are waited for -/
  resetDue : Bool
  rampers : List Nat
  /-- an accepted entry to SLEEP is under way (R477) -/
  sleepDue : Bool
  /-- XO_IN is lost: the hub clocks stand still (R345) -/
  xoLost : Bool
  /-- the clock at the release of PERST_N -/
  startAt : Nat
  /-- the start under way follows SLEEP -/
  afterSleep : Bool
  /-- the shutdown record held, and the one that the start under way has consumed (R479) -/
  record : Option BistRecord
  consumed : Option BistRecord
  /-- the failing addresses and bits of the shutdown record, by block (R508) -/
  failing : List (Nat × Nat × Nat)
  /-- MEASURE as the boot ROM left it (R522), and whether images 0 and 1 have failed in both slots (R521) -/
  bootMeasure : List Word
  bootFailed : Bool
  /-- HBM controllers whose BIST block has been lost: their channels are retired at the next training (R502) -/
  hbmOff : BitVec 4
  /-- consecutive readings of a rail outside its window, at most 2, by rail bit of PWR_RAIL_FAULT (R474) -/
  rails : List (Nat × Nat)
  /-- sensors -/
  sensors : List (Nat × Sensor)
  /-- HBM stacks whose own reading has crossed the HBM limit (R485) -/
  hot : List Nat
  /-- the means of the dies' sensors (R380) -/
  means : List (Nat × DieMean)
  /-- consecutive samples for and against each threshold: 0 warning, 1 throttle, 2 shutdown, 3 + m HBM limit and 7 + m HBM shutdown of
  stack m (R485) -/
  runs : List (Nat × Runs)
  deriving DecidableEq, Repr

/-- The Finder's power state at its own reset. -/
def Power.reset : Power :=
  ⟨false, false, false, [], false, false, 0, false, none, none, [], [], false, 0, [], [], [], [], []⟩

/-! ## Memory integrity and self-test (R492 to R513) -/

/-- What the memory-integrity unit holds beside its registers. -/
structure Integrity where
  /-- corrected errors of the running second (R496) -/
  window : Nat
  /-- distinct corrected bit positions seen in an HBM row since start-up, by row (R501) -/
  bits : List (Nat × List Nat)
  /-- repair candidates, oldest first, in the Finder store (R501) -/
  candidates : List Nat
  /-- the check bytes of HBM words written raw and not written since, by 64-bit word (R500) -/
  checks : List (Nat × Nat)
  /-- the model's own field: the check bytes that the running command writes raw; empty between commands -/
  raw : List (Nat × Nat)
  /-- the SRAM scratch array: data and check byte by word (R500) -/
  scratch : List (Nat × Nat × Nat)
  /-- rows hard-repaired of all time (R502) -/
  hard : Nat
  deriving DecidableEq, Repr

/-- The unit at reset. -/
def Integrity.reset : Integrity := ⟨0, [], [], [], [], [], 0⟩

/-- A BIST block's result (Table 18.10): 0 NOT_RUN, 1 PASS, 2 FAIL, 3 NOT_TESTED, 4 RUNNING. -/
structure BlockRes where
  result : Nat
  unusable : Bool
  flagged : Bool
  patterns : Nat
  addr : Nat
  bit : Nat
  deriving DecidableEq, Repr

/-- A block that has not run. -/
def BlockRes.reset : BlockRes := ⟨0, false, false, 0, 0, 0⟩

/-- A host write that a block under test holds (Table 18.4). -/
inductive HeldWrite where
  | txEnable (n : Nat)
  | txDisable (n : Nat)
  | txFaultClear (n : Nat) (v : Word)
  | rxEnable (n : Nat)
  | rxDisable (n : Nat)
  | word (page off : Nat) (v : Word)
  deriving DecidableEq, Repr

/-- Self-test. -/
structure Bist where
  /-- blocks -/
  blocks : List (Nat × BlockRes)
  /-- the blocks of the in-service run under way -/
  run : List Nat
  isolated : Bool
  held : List HeldWrite
  /-- the registers of the isolated blocks' pages, as they stood then (Table 18.4) -/
  shown : List (Nat × Word)
  deriving DecidableEq, Repr

/-- Self-test at reset. -/
def Bist.reset : Bist := ⟨[], [], false, [], []⟩

/-! ## Security (R514 to R533) -/

/-- A configuration bundle under way (R527): its records of 16 bytes, the record that comes next, and the Almanac digest at its end. -/
structure BundleRun where
  records : List (List Byte)
  next : Nat
  digest : List Byte
  deriving DecidableEq, Repr

/-- The fuses and the Finder store, which survive every loss of power, and the security operations under way. -/
structure Vault where
  /-- life-cycle state in force, and the state whose fuses are burned (R515, R516) -/
  state : Nat
  burned : Nat
  /-- ARB.COUNT (R525) -/
  arb : Nat
  /-- OWNER_HASH as burned (R516) -/
  owner : List Word
  /-- image sets of slots A and B, by slot, and the slot that the next start uses (R521, R524) -/
  slots : List (Nat × List (List Byte))
  active : Nat
  /-- BOOT_EPOCH (R523) -/
  epoch : Nat
  /-- the certificate chain (R518) and the stored bundle (R527) -/
  cert : List Byte
  bundle : List Byte
  /-- an install under way: the slot's new images, where they verified (R524) -/
  install : Option (Option (List (List Byte)))
  /-- a quote under way: its offset and its bytes 0 to 383 (R528) -/
  quote : Option (Nat × List Byte)
  apply : Option BundleRun
  deriving DecidableEq, Repr

/-- The vault of a part that nothing has been stored in. -/
def Vault.reset : Vault := ⟨0, 0, 0, [], [], 0, 0, [], [], none, none, none⟩

/-- Who makes the register accesses of the running command: the host, the configuration bundle loader (R463, R527), or nobody, where writes that a
block under test held come to act (Table 18.4). -/
inductive Accessor where
  | host | loader | held
  deriving DecidableEq, Repr

/-- The state of the device beside the bytes of HBM and the waiting commands. -/
structure Dev where
  /-- register and table cells: the values in force -/
  regs : List (Nat × Word)
  /-- the shadow copies of RWA fields -/
  shadow : List (Nat × Word)
  /-- page headers -/
  pages : List (Nat × PageHdr)
  /-- committed values not yet in force -/
  later : List Later
  /-- event sources -/
  ev : EvState
  /-- performance counters -/
  perf : PerfState
  /-- the part, as its fuses have it (R1, R2) -/
  variant : Variant
  /-- time since power-up in ns, advanced by the frame tick (log 6) -/
  clock : Nat
  /-- TIME, in 2^-16 ns (R328) -/
  time : Nat
  /-- PACE, in 2^-16 ns (R329) -/
  pace : Nat
  /-- transmit engines -/
  tx : List (Nat × TxEngine)
  /-- front-end identity data, by engine -/
  fe : List (Nat × FeEngine)
  /-- line dies lost until the next start-up, bit k for die k (R13, R475, R484) -/
  dieLost : BitVec 4
  /-- receive engines -/
  rx : List (Nat × RxEngine)
  /-- capture, by engine -/
  cap : List (Nat × CapEngine)
  /-- the 48-bit seconds of the time trigger (R93) -/
  capSec : Nat
  /-- the records in the capture region, oldest first: place and length in 64-byte units -/
  capRecs : List (Nat × Nat)
  /-- the dual-clock queues that stand still after an overflow or underflow (R19) -/
  xqStopped : List Nat
  /-- frame aligners, by engine -/
  fr : List (Nat × FrEngine)
  /-- courses -/
  crs : List (Nat × Course)
  /-- the bridges in force: course B with the course A whose frames it sends (R196) -/
  bridges : List (Nat × Nat)
  /-- the overhead blocks sent last, by slot of a course (R162) -/
  ohSent : List (Nat × List Byte)
  /-- the serial seen last in a received column, by slot -/
  colSerial : List (Nat × Nat)
  /-- protection pairs -/
  pairs : List (Nat × Pair)
  /-- the parse stage -/
  parse : Parse
  /-- the scheduler -/
  sched : Sched
  /-- key slots; unlisted is EMPTY -/
  keys : List (Nat × KeySlot)
  /-- the staged words of KEY_DATA (R285) -/
  staged : List (Nat × Word)
  /-- requests that have encrypted under a slot since start-up: the low part of its invocation counter (R282) -/
  invoked : List (Nat × Nat)
  /-- frames a course has encrypted since start-up: the low part of its transmit counter (R280) -/
  txCount : List (Nat × Nat)
  /-- courses with a key-switch trigger that waits for the frame boundary (R290) -/
  rekeys : List Nat
  /-- Drone requests that wait (R296) -/
  droneReqs : List DroneReq
  /-- the request under way -/
  req : Option Req
  /-- the Drone -/
  drone : Drone
  /-- Sidereal -/
  sid : Sidereal
  /-- Collimation and housekeeping -/
  col : Collim
  /-- the relay -/
  relay : Relay
  /-- service queues -/
  queues : List (Nat × Queue)
  /-- the push under way -/
  push : Option Push
  /-- the microcode image of each bank that has one (R255) -/
  images : List (Nat × List Byte)
  /-- the first answers of the last completed collection, by position -/
  answers : List (Nat × PosAnswer)
  /-- power and temperature -/
  power : Power
  /-- memory integrity -/
  integ : Integrity
  /-- self-test -/
  bist : Bist
  /-- fuses and Finder store -/
  vault : Vault
  /-- the value that the last command which is a read returned (R435, R467, R497, R562) -/
  readData : List Word
  /-- that value carries a poison mark and went out as a poisoned completion (R422) -/
  readPoisoned : Bool
  /-- the model's own field: how many values that the specification leaves open have been taken (log 3) -/
  fresh : Nat
  /-- the PCIe function is in D3hot (R419) -/
  d3hot : Bool
  /-- the head's own answer to the first round of the collection under way (R446) -/
  collecting : Option FirstAnswer
  /-- the model's own field: who makes the running command's accesses; the host between commands -/
  accessor : Accessor
  /-- the model's own field: the running command has counted a violation; false between commands -/
  refused : Bool
  /-- the model's own field: what the running command stores in HBM, in order; empty between commands -/
  hbmOut : List (Nat × List Byte)
  deriving DecidableEq, Repr

/-- The state of the block. -/
structure State where
  /-- the device -/
  dev : Dev
  /-- the bytes of HBM; an unlisted byte reads as 0 (DESIGN CHOICE, log 5) -/
  mem : List Host.Cell
  /-- the commands that wait, first in first out -/
  pending : List Instr
  deriving DecidableEq, Repr

/-- The device right after reset: every register at its reset value, Finder power just applied and the Finder not yet booted, the device in
FINDER_ONLY with PERST_N low and its straps low (DESIGN CHOICE, log 40). -/
def Dev.reset : Dev where
  regs := []
  shadow := []
  pages := []
  later := []
  ev := ⟨[], [], none, none, Msix.reset⟩
  perf := ⟨[]⟩
  variant := .sq9812
  clock := 0
  time := 0
  pace := 0
  tx := []
  fe := []
  dieLost := 0
  rx := []
  cap := []
  capSec := 0
  capRecs := []
  xqStopped := []
  fr := []
  crs := []
  bridges := []
  ohSent := []
  colSerial := []
  pairs := []
  parse := Parse.reset
  sched := Sched.reset
  keys := []
  staged := []
  invoked := []
  txCount := []
  rekeys := []
  droneReqs := []
  req := none
  drone := Drone.reset
  sid := Sidereal.reset
  col := Collim.reset
  relay := Relay.reset
  queues := []
  push := none
  images := []
  answers := []
  power := Power.reset
  integ := Integrity.reset
  bist := Bist.reset
  vault := Vault.reset
  readData := []
  readPoisoned := false
  fresh := 0
  d3hot := false
  collecting := none
  accessor := .host
  refused := false
  hbmOut := []

/-- The state right after reset: the device at reset, nothing listed in memory, and no command waiting. -/
def State.reset : State where
  dev := Dev.reset
  mem := []
  pending := []

end Sys2Proof.Machine
end

