-- ==== Sys2Proof/Machine/Ops.lean ====
section
/-!
DEFINITION. The operations every meaning is written over: register fields, page headers and refused accesses, event
sources and their routing, performance counters, HBM and the shared-memory window.
-/
namespace Sys2Proof.Machine

/-- What a step answers. -/
abbrev Out := Host.Outcome State Fault Refusal

/-- A key's default for arrays of structures. -/
abbrev dflt {α : Type} (a : α) : Nat → α := fun _ => a

/-! ## Register cells -/

/-- The word of a cell in force. -/
def Dev.word (s : Dev) (c : Nat) : Word :=
  sget resetWord s.regs c

/-- The state with a cell at a word. -/
def Dev.setWord (s : Dev) (c : Nat) (w : Word) : Dev :=
  { s with regs := sset resetWord s.regs c w }

/-- A field's value, as a number. -/
def Dev.rd (s : Dev) (f : Field) : Nat :=
  getBits (s.word f.cell) f.lsb f.width

/-- A field's value, read as two's complement. -/
def Dev.rdS (s : Dev) (f : Field) : Int :=
  signed f.width (s.rd f)

/-- A one-bit field as a truth value. -/
def Dev.on (s : Dev) (f : Field) : Bool :=
  s.rd f ≠ 0

/-- The state with a field at a value; what does not fit the field is cut off. -/
def Dev.wr (f : Field) (v : Nat) (s : Dev) : Dev :=
  s.setWord f.cell (setBits (s.word f.cell) f.lsb f.width v)

/-- The state with a field at a two's-complement value. -/
def Dev.wrS (f : Field) (v : Int) (s : Dev) : Dev :=
  s.wr f (unsign f.width v)

/-- The state with a one-bit field at a truth value. -/
def Dev.wrB (f : Field) (b : Bool) (s : Dev) : Dev :=
  s.wr f (ofBool b)

/-- A counter's field raised by an amount, saturating. -/
def Dev.bumpBy (f : Field) (a : Nat) (s : Dev) : Dev :=
  s.wr f (satAdd f.width (s.rd f) a)

/-- A counter's field raised by one, saturating. -/
def Dev.bump (f : Field) (s : Dev) : Dev :=
  s.bumpBy f 1

/-- The field's cell one further: the high word of a 64-bit pair. -/
abbrev Field.hi (f : Field) : Field := ⟨f.cell + 1, f.lsb, f.width⟩

/-- A 64-bit value held in a register and the one after it, low word first. -/
def Dev.rd64 (s : Dev) (lo : Field) : Nat :=
  s.rd lo + 2 ^ 32 * s.rd lo.hi

/-- The state with a 64-bit pair at a value, modulo 2^64. -/
def Dev.wr64 (lo : Field) (v : Nat) (s : Dev) : Dev :=
  (s.wr lo (v % 2 ^ 32)).wr lo.hi (v / 2 ^ 32)

/-- A 64-bit pair raised by an amount, modulo 2^64. -/
def Dev.bump64 (lo : Field) (a : Nat) (s : Dev) : Dev :=
  s.wr64 lo (s.rd64 lo + a)

/-- A shadow copy's value. -/
def Dev.sh (s : Dev) (f : Field) : Nat :=
  getBits (sget resetWord s.shadow f.cell) f.lsb f.width

/-- A shadow copy's value, read as two's complement. -/
def Dev.shS (s : Dev) (f : Field) : Int :=
  signed f.width (s.sh f)

/-- The state with a cell's shadow at a word. -/
def Dev.setShadow (c : Nat) (w : Word) (s : Dev) : Dev :=
  { s with shadow := sset resetWord s.shadow c w }

/-- The words of cells `c … c + n − 1`. -/
def Dev.words (s : Dev) (c n : Nat) : List Word :=
  (List.range n).map fun k => s.word (c + k)

/-- The state with a run of cells at given words. -/
def Dev.setWords (c : Nat) : List Word → Dev → Dev
  | [], s => s
  | w :: ws, s => (s.setWord c w).setWords (c + 1) ws

/-- The committed values that wait and are of a kind put in force and taken off the waiting list (R428). -/
def Dev.putWaiting (mine : Later → Bool) (s : Dev) : Dev :=
  let d := (s.later.filter mine).foldl (fun d x => d.setWord x.cell ((d.word x.cell &&& ~~~ x.mask) ||| (x.value &&& x.mask))) s
  { d with later := s.later.filter fun x => !mine x }

/-! ## The page headers, and refused accesses (R425) -/

/-- A page's header state. -/
def Dev.hdr (s : Dev) (page : Nat) : PageHdr :=
  sget (dflt PageHdr.reset) s.pages page

/-- The state with a page's header changed. -/
def Dev.setHdr (page : Nat) (h : PageHdr) (s : Dev) : Dev :=
  { s with pages := sset (dflt PageHdr.reset) s.pages page h }

/-- A violation counted on a page, saturating (R425, Table 15.2). -/
def Dev.viol (page : Nat) (s : Dev) : Dev :=
  { s.setHdr page { s.hdr page with viol := satAdd 32 (s.hdr page).viol 1 } with refused := true }

/-! ## Free values -/

/-- The state after one more value that the specification leaves open has been taken. -/
def Dev.tick (s : Dev) : Dev :=
  { s with fresh := s.fresh + 1 }

/-- The value that the specification leaves open next. -/
def Dev.free (s : Dev) : Nat :=
  Config.freeNat s.fresh

/-! ## The device -/

/-- Whether line engine `n` is enabled by the fuses (R1, R2). -/
def Dev.lineOn (s : Dev) (n : Nat) : Bool :=
  match s.variant with
  | .sq9812 => n < 8
  | .sq9806 => n < 4

/-- Whether client lane `l` is enabled by the fuses (R1, R227). -/
def Dev.laneOn (s : Dev) (l : Nat) : Bool :=
  match s.variant with
  | .sq9812 => l < 64
  | .sq9806 => l < 32

/-! ## Ports (R225, R226) -/

/-- The lanes per port of lane `p`'s octet, 0 where the octet is disabled (Table 8.1). -/
def Dev.portLanes (s : Dev) (p : Nat) : Nat :=
  match s.rd (Reg.OCT_CFG_WIDTH (8 * (p / 8))) with
  | 1 => 1
  | 2 => 2
  | 3 => 4
  | 4 => 8
  | _ => 0

/-- Whether port `p` exists. -/
def Dev.portExists (s : Dev) (p : Nat) : Bool :=
  s.laneOn p && decide (s.portLanes p ≠ 0) && decide (p % s.portLanes p = 0)

/-- Whether lane `l` belongs to a port that begins at another lane: the per-port registers of its page read as zero (R226), and a write to them is
ignored and counted (DEDUCED, log 146). -/
def Dev.laneFollows (s : Dev) (l : Nat) : Bool :=
  s.laneOn l && decide (s.portLanes l ≠ 0) && decide (l % s.portLanes l ≠ 0)

/-- Whether the register at an offset of a page is a per-port one of a CLIENT page whose lane follows in its port. -/
def Dev.portHidden (s : Dev) (page off : Nat) : Bool :=
  decide (0x2C0 ≤ page ∧ page < 0x300) && decide (0x044 ≤ off ∧ off < 0x200) && s.laneFollows (page - 0x2C0)

/-- The codes of PWR_STAT.STATE (Table 17.2). -/
abbrev pwrFinderOnly : Nat := 0
abbrev pwrStarting : Nat := 1
abbrev pwrRun : Nat := 2
abbrev pwrSleep : Nat := 3
abbrev pwrThermOff : Nat := 4
abbrev pwrHalted : Nat := 5

/-- The power state (Table 17.2). -/
def Dev.pwr (s : Dev) : Nat :=
  s.rd Reg.PWR_STAT_STATE

/-- Whether the hub runs: in STARTING and RUN, while its clocks run (R345). -/
def Dev.hubOn (s : Dev) : Bool :=
  (s.pwr = pwrStarting ∨ s.pwr = pwrRun) ∧ ¬ s.power.xoLost

/-! ## Events (R452 to R460) -/

/-- An event group's registers. -/
def EvState.group (e : EvState) (g : Nat) : EvGroup :=
  sget (dflt EvGroup.reset) e.groups g

/-- The summary of a group: a latch bit set under an enable bit set (R455). -/
def EvGroup.summary (g : EvGroup) : Bool :=
  g.latch &&& g.en ≠ 0

/-- The vector a group is routed to, where MSIX_EN = 1 (Table 16.1). -/
def EvGroup.vector? (g : EvGroup) : Option Nat :=
  if getBits g.route 5 1 = 1 then some (getBits g.route 0 5) else none

/-- The input of a vector: the OR of the summaries of the groups routed to it (R457). -/
def EvState.input (e : EvState) (v : Nat) : Bool :=
  e.groups.any fun p => p.2.summary && p.2.vector? == some v

/-- The level of pin EVENTk_N: low while a group routed to it has its summary at 1 (R458). -/
def EvState.pinLow (e : EvState) (k : Nat) : Bool :=
  e.groups.any fun p => p.2.summary && bitAt p.2.route.toNat (6 + k)

/-- EV_SUMMARY: the summaries of the groups, bit g for group g. -/
def EvState.summaries (e : EvState) : Word :=
  e.groups.foldl (fun w p => if p.2.summary then w ||| (1 <<< p.1) else w) 0

/-- The entry of the head's MSI-X table for vector v of the device at a position (R423). -/
def msixIndex (pos v : Nat) : Nat :=
  32 * pos + v

/-- A message of an entry of the MSI-X table: written to the host, or its pending bit set where the entry or the function is masked (R457; PCI Express). -/
def EvState.message (k : Nat) (e : EvState) : EvState :=
  let m := e.msix
  if !m.enable then e
  else if m.masked || (sget (dflt MsixEntry.reset) m.table k).masked then
    { e with msix := { m with pending := if m.pending.contains k then m.pending else k :: m.pending } }
  else { e with msix := { m with sent := sset (dflt 0) m.sent k (sget (dflt 0) m.sent k + 1) } }

/-- The vector's message sent, or kept for the end of a running hold-off (R457). -/
def EvState.send (holdoff : Nat → Nat) (v : Nat) (e : EvState) : EvState :=
  let x := sget (dflt VecState.reset) e.vecs v
  let put (x : VecState) : EvState := { e with vecs := sset (dflt VecState.reset) e.vecs v x }
  if x.held then put { x with waiting := true }
  else (put { x with sent := x.sent + 1, held := decide (holdoff v ≠ 0) }).message (msixIndex 0 v)

/-- A group's registers changed; the vector it was or is routed to sends its message when its input rises (R457), and
a rise of the summary with WAKE = 1 is kept for the Finder (R459). EV_ROUTE.FINDER has no effect of its own (DEDUCED, log 237). -/
def EvState.setGroup (holdoff : Nat → Nat) (g : Nat) (x : EvGroup) (e : EvState) : EvState :=
  let old := e.group g
  let e' := { e with groups := sset (dflt EvGroup.reset) e.groups g x }
  let e' := match x.vector? with
    | some v => if e'.input v && !e.input v then e'.send holdoff v else e'
    | none => e'
  if x.summary && !old.summary && getBits x.route 11 1 = 1 then { e' with wakeReq := some g } else e'

/-- The hold-off of each vector (Table 16.2). -/
def Dev.holdoff (s : Dev) (v : Nat) : Nat :=
  s.rd (Reg.VEC_HOLDOFF_HOLDOFF_US v)

/-- A raw pulse of source E-g.b sets its latch bit (R453, R454). -/
def Dev.latchEvent (g b : Nat) (s : Dev) : Dev :=
  let x := s.ev.group g
  { s with ev := s.ev.setGroup s.holdoff g { x with latch := x.latch ||| (1 <<< b) } }

/-! ## Performance counters (R462 to R469) -/

/-- The counters whose CNT_CFG entry is not all zero in word 0: every counter that can count. -/
def Dev.counters (s : Dev) : List Nat :=
  s.regs.filterMap fun e =>
    let lo := tableCell tableCNTCFG.id 0 0
    let hi := tableCell tableCNTCFG.id 8192 0
    if lo ≤ e.1 ∧ e.1 < hi ∧ (e.1 - lo) % 64 = 0 then some ((e.1 - lo) / 64) else none

/-- Whether counter `i` counts only the carries of counter i − 1 (R465). -/
def Dev.chainedInto (s : Dev) (i : Nat) : Bool :=
  i % 2 = 1 && s.on (Reg.CNT_CFG_CHAIN (i - 1))

/-- Counter `i` raised by an amount: a wrap past 2^48 carries into i + 1 where CHAIN is set, sets the OVF bit otherwise,
and asks for E-29.00 where OVF_EV is set (R465). -/
def Dev.addCounter (s : Dev) (i a : Nat) : Dev × Bool :=
  let put (s : Dev) (i v : Nat) : Dev := { s with perf := { s.perf with values := sset (dflt 0) s.perf.values i v } }
  let setOvf (s : Dev) (i : Nat) : Dev := s.wr ⟨(Reg.OVF_OVF (i / 32)).cell, i % 32, 1⟩ 1
  let v := sget (dflt 0) s.perf.values i + a
  if v < 2 ^ 48 then (put s i v, false)
  else
    let s1 := put s i (v % 2 ^ 48)
    let ask := s.on (Reg.CNT_CFG_OVF_EV i)
    if i % 2 = 0 && s.on (Reg.CNT_CFG_CHAIN i) then
      let u := sget (dflt 0) s.perf.values (i + 1) + v / 2 ^ 48
      if u < 2 ^ 48 then (put s1 (i + 1) u, ask)
      else (setOvf (put s1 (i + 1) (u % 2 ^ 48)) (i + 1), ask || s.on (Reg.CNT_CFG_OVF_EV (i + 1)))
    else (setOvf s1 i, ask)

/-- Every counter that matches raised by its amount, unless FREEZE is set; answers whether E-29.00 is asked for. -/
def Dev.countWith (s : Dev) (amount : Nat → Option Nat) : Dev × Bool :=
  if s.on Reg.PERF_CTRL_FREEZE then (s, false)
  else
    s.counters.foldl (fun p i =>
      if p.1.chainedInto i then p
      else match amount i with
        | none => p
        | some a => let q := p.1.addCounter i a; (q.1, p.2 || q.2)) (s, false)

/-- The counters of KIND 1 that name a source (R462). -/
def Dev.countEvent (s : Dev) (src : Nat) : Dev × Bool :=
  s.countWith fun i => if s.rd (Reg.CNT_CFG_KIND i) = 1 ∧ s.rd (Reg.CNT_CFG_EVENT i) = src then some 1 else none

/-- The rising edge of the event that CAP_TRIG names kept for the capture controller, where SOURCE is 1; CAP_EVENT_TRIGGER acts on it (R93). A second
rise before that is one with it. -/
def Dev.captureEdge (g b : Nat) (s : Dev) : Dev :=
  if s.rd Reg.CAP_TRIG_SOURCE = 1 ∧ s.rd Reg.CAP_TRIG_EV_GROUP = g ∧ s.rd Reg.CAP_TRIG_EV_BIT = b ∧ s.ev.capDue = none then
    { s with ev := { s.ev with capDue := some (s.time, g, b) } }
  else s

/-- E-29.00, with the counters that count it. Further wraps in the same cycle make the same pulse (R453). -/
def Dev.raiseWrap (s : Dev) : Dev :=
  (((s.latchEvent 29 0).captureEdge 29 0).countEvent (32 * 29)).1

/-- Whether a source can raise: those of the engines and lanes that the part lacks never do (R455). -/
def Dev.sourceOn (s : Dev) (g : Nat) : Bool :=
  match s.variant with
  | .sq9812 => true
  | .sq9806 => !(14 ≤ g ∧ g ≤ 17) && !(24 ≤ g ∧ g ≤ 25)

/-- The bits of each group that a chapter defines (R452): 0 to 9, 18 to 21 and 26 to 29 as their tables list them, the 32 of each line group but bit 26 (Table 2.8 and the receive
chapters), and four for each client lane. -/
def definedBits (g : Nat) : Nat :=
  if 10 ≤ g ∧ g ≤ 17 then 0xFBFFFFFF
  else if 22 ≤ g ∧ g ≤ 25 then 0xFFFFFFFF
  else match g with
    | 0 => 0x7107F
    | 1 => 0xFF
    | 2 => 0x7
    | 3 => 0xFFF
    | 4 => 0x2FF
    | 5 => 0xFF
    | 6 => 0x7F
    | 7 => 0x1FFF
    | 8 => 0x3FFF
    | 9 => 0x3FF
    | 18 => 0x3FFFF
    | 19 => 0x1FF
    | 20 => 0xFFF
    | 21 => 0x3FFF
    | 26 => 0x1FFFF
    | 27 => 0x1FF
    | 28 => 0x2FFFFFF
    | 29 => 0xF
    | _ => 0

/-- Source E-g.b raised: its latch sets, the counters that name it count, and a capture that waits for it is triggered (R93, R453, R454, R462). -/
def Dev.raise (g b : Nat) (s : Dev) : Dev :=
  if s.sourceOn g then
    let p := ((s.latchEvent g b).captureEdge g b).countEvent (32 * g + b)
    if p.2 then p.1.raiseWrap else p.1
  else s

/-- A source raised when a condition holds. -/
def Dev.raiseIf (c : Bool) (g b : Nat) (s : Dev) : Dev :=
  if c then s.raise g b else s

/-! ## Accesses -/

/-- Whether a byte offset of a space matches the address range of counter `i`. -/
def Dev.inRange (s : Dev) (i addr : Nat) : Bool :=
  s.rd (Reg.CNT_CFG_ADDR_LO i) ≤ addr ∧ addr ≤ s.rd (Reg.CNT_CFG_ADDR_HI i)

/-- An access of a given privilege bit and master ID to a space counted by the counters of KIND 2 (R462, R463). `op` is the
ACC_OP bit: 0 a read, 1 a write, 2 a refused access. -/
def Dev.countAccess (space op priv master addr bytes : Nat) (s : Dev) : Dev :=
  let p := s.countWith fun i =>
    if s.rd (Reg.CNT_CFG_KIND i) = 2 ∧ s.rd (Reg.CNT_CFG_SPACE i) = space ∧ bitAt (s.rd (Reg.CNT_CFG_ACC_OP i)) op ∧
        bitAt (s.rd (Reg.CNT_CFG_PRIV i)) priv ∧
        (master ^^^ s.rd (Reg.CNT_CFG_MASTER i)) &&& s.rd (Reg.CNT_CFG_MASTER_MASK i) = 0 ∧ s.inRange i addr then
      some (if s.on (Reg.CNT_CFG_BYTES i) then bytes else 1)
    else none
  if p.2 then p.1.raiseWrap else p.1

/-- The privilege bit and master ID of the host's accesses to this device: its own PCIe function on the head, the relay
with the head's position elsewhere (R463). -/
def Dev.hostMaster (s : Dev) : Nat × Nat :=
  if s.on Reg.STRAPS_CHAIN_HEAD then (0, 0) else (2, 0)

/-- The privilege bit and master ID of the running command's accesses: the bundle loader is core 8 (R463, Table 19.2). -/
def Dev.master (s : Dev) : Nat × Nat :=
  match s.accessor with
  | .loader => (1, 0x88)
  | _ => s.hostMaster

/-- The host's accesses do not reach the device: its PCIe function is in D3hot, where BAR accesses complete as unsupported requests (R419). -/
def Dev.hostGone (s : Dev) : Bool :=
  s.d3hot && decide (s.accessor = .host)

/-- A write to a page that does not answer: counted in DEV.VIOLATION_COUNT, where it reaches the device at all (R3, R419, R424, R477). -/
def Dev.noPage (s : Dev) : Dev :=
  if s.hostGone then s else s.viol 0x000

/-- An access to a register counted by the performance counters; a held write was counted when it was made. -/
def Dev.access (op page off : Nat) (s : Dev) : Dev :=
  match s.accessor with
  | .held => s
  | _ => if s.hostGone then s else s.countAccess 0 op s.master.1 s.master.2 (page * 4096 + off) 4

/-- The end of an access to a register: one that was refused is counted by the counters of refused accesses too (R425, R463). -/
def Dev.endAccess (page off : Nat) (s : Dev) : Dev :=
  if s.refused then s.access 2 page off else s

/-- Whether a page is allocated to a block: not reserved (R424, R451, Table 15.12 and the chapters). -/
def pageAllocated (page : Nat) : Bool :=
  if page < 0x100 then
    page = 0x000 ∨ page = 0x001 ∨ page = 0x002 ∨ page = 0x004 ∨ page = 0x00E ∨ page = 0x00F ∨ page = 0x010 ∨
    page = 0x011 ∨ page = 0x018 ∨ page = 0x020 ∨ page = 0x021 ∨ (0x030 ≤ page ∧ page ≤ 0x032) ∨
    (0x040 ≤ page ∧ page ≤ 0x043) ∨ (0x060 ≤ page ∧ page ≤ 0x062) ∨ (0x070 ≤ page ∧ page ≤ 0x072) ∨
    (0x080 ≤ page ∧ page ≤ 0x083) ∨ (0x090 ≤ page ∧ page ≤ 0x094) ∨ (0x0A0 ≤ page ∧ page ≤ 0x0A2) ∨
    (0x0A8 ≤ page ∧ page ≤ 0x0AF) ∨ (0x0B0 ≤ page ∧ page ≤ 0x0B2) ∨ page = 0x0B8 ∨ page = 0x0B9
  else if page < 0x200 then (pageRegs page).2 ≠ []
  else if page < 0x240 then page % 8 = 0
  else
    page = 0x240 ∨ page = 0x241 ∨ page = 0x280 ∨ (0x290 ≤ page ∧ page ≤ 0x293) ∨ (0x2C0 ≤ page ∧ page ≤ 0x303) ∨
    (0x340 ≤ page ∧ page ≤ 0x342) ∨ (0x380 ≤ page ∧ page ≤ 0x384) ∨ (0x390 ≤ page ∧ page ≤ 0x399) ∨
    (0x400 ≤ page ∧ page ≤ 0x4FF)

/-- Whether the part has the engine or lane a page belongs to (R3, R227). -/
def Dev.pageEnabled (s : Dev) (page : Nat) : Bool :=
  if 0x100 ≤ page ∧ page < 0x200 then s.lineOn ((page - 0x100) / 32)
  else if 0x200 ≤ page ∧ page < 0x240 then s.lineOn ((page - 0x200) / 8)
  else if 0x2C0 ≤ page ∧ page < 0x300 then s.laneOn (page - 0x2C0)
  else if 0x0A8 ≤ page ∧ page < 0x0B0 then s.lineOn (page - 0x0A8)
  else true

/-- Whether a page answers in the power state: every page while the hub runs, pages 0x000 to 0x01F otherwise (R477). -/
def Dev.pagePowered (s : Dev) (page : Nat) : Bool :=
  s.hubOn || decide (page < 0x020)

/-- Whether a page answers: it reads as itself and its writes act. -/
def Dev.pageLive (s : Dev) (page : Nat) : Bool :=
  pageAllocated page && s.pageEnabled page && s.pagePowered page && !s.hostGone

/-! ## Self-test blocks (R504 to R510) -/

/-- The BIST block that a register page belongs to, where it has one that can be tested in service (Table 18.3, Table 2.9). -/
def pageBlock (page : Nat) : Option Nat :=
  if 0x100 ≤ page ∧ page < 0x200 then
    let n := (page - 0x100) / 32
    let k := (page - 0x100) % 32
    if k < 6 then some n
    else if k = 0x0B then some (8 + n)
    else if 8 ≤ k ∧ k < 0x18 ∧ k ≠ 0x0F then some (16 + n)
    else if 0x18 ≤ k ∧ k < 0x1E then some (24 + n)
    else none
  else if 0x2C0 ≤ page ∧ page < 0x300 then some (48 + (page - 0x2C0) / 8)
  else if 0x381 ≤ page ∧ page < 0x385 then some (56 + (page - 0x381))
  else if page = 0x292 then some 61
  else if 0x0A0 ≤ page ∧ page < 0x0B0 then some 60
  else if page = 0x280 then some 65
  else none

/-- A block's result. -/
def Dev.block (s : Dev) (b : Nat) : BlockRes :=
  sget (dflt BlockRes.reset) s.bist.blocks b

/-- The state with a block's result changed. -/
def Dev.setBlock (b : Nat) (r : BlockRes) (s : Dev) : Dev :=
  { s with bist := { s.bist with blocks := sset (dflt BlockRes.reset) s.bist.blocks b r } }

/-- A block taken out of service: marked UNUSABLE, or set in BIST_OFF (R506). -/
def Dev.blockOut (s : Dev) (b : Nat) : Bool :=
  (s.block b).unusable || bitAt (s.rd (Reg.BIST_OFF_OFF (b / 32))) (b % 32)

/-- An essential block is out of service (Table 18.3). -/
def Dev.essentialLost (s : Dev) : Bool :=
  [62, 63, 64, 66, 68, 69, 70, 71].any s.blockOut || (s.on Reg.STRAPS_CHAIN_HEAD && s.blockOut 67)

/-- A page belongs to a block under in-service test. -/
def Dev.pageInTest (s : Dev) (page : Nat) : Bool :=
  match pageBlock page with
  | some b => s.bist.run.contains b
  | none => false

/-- A request refused with BUSY_TEST (R510). -/
def Dev.busyTest (page : Nat) (s : Dev) : Dev :=
  (((s.viol page).wr Reg.BIST_REFUSE_PAGE page).bump Reg.BIST_REFUSE_COUNT).raise 6 4

/-- A host write of a command field to a page: counted as an access, ignored and counted in DEV.VIOLATION_COUNT where the
page does not answer (R3, R424, R477), and refused with BUSY_TEST where the page's block is under test (Table 18.4). -/
def Dev.onWrite (page off : Nat) (act : Dev → Dev) (s : Dev) : Dev :=
  let s := s.access 1 page off
  (if s.pageLive page then (if s.pageInTest page then s.busyTest page else act s) else s.noPage).endAccess page off

/-- A host write of an RW or W1C field: held while the page's block is under test (Table 18.4). -/
def Dev.onHeldWrite (page off : Nat) (h : HeldWrite) (act : Dev → Dev) (s : Dev) : Dev :=
  let s := s.access 1 page off
  (if s.pageLive page then
    (if s.pageInTest page then { s with bist := { s.bist with held := s.bist.held ++ [h] } } else act s)
  else s.noPage).endAccess page off

/-! ## HBM and the window (R22, R429, R430) -/

/-- Usable HBM in bytes: 96 GB × (64 − r) / 64 for r retired channels (R22). -/
def Dev.hbmUsable (s : Dev) : Nat :=
  Config.hbmBytes * (64 - (popCount 32 (s.rd Reg.RETIRED_LO) + popCount 32 (s.rd Reg.RETIRED_HI))) / 64

/-- A byte of HBM; a byte beyond usable HBM reads as 0 (R429). -/
def State.byte (s : State) (a : Nat) : Byte :=
  if a < s.dev.hbmUsable then sget (dflt 0) s.mem a else 0

/-- A byte of HBM stored; one beyond usable HBM is dropped (R429). -/
def State.setByte (a : Nat) (b : Byte) (s : State) : State :=
  if a < s.dev.hbmUsable then { s with mem := sset (dflt 0) s.mem a b } else s

/-- `n` bytes of HBM from an address. -/
def State.bytes (s : State) (a n : Nat) : List Byte :=
  (List.range n).map fun k => s.byte (a + k)

/-- Bytes of HBM stored from an address. -/
def State.setBytes (a : Nat) : List Byte → State → State
  | [], s => s
  | b :: bs, s => (s.setByte a b).setBytes (a + 1) bs

/-- Bytes that the running command stores in HBM from an address: they reach memory when it ends. -/
def Dev.store (a : Nat) (bs : List Byte) (s : Dev) : Dev :=
  { s with hbmOut := s.hbmOut ++ [(a, bs)] }

/-- The stores of a command made in memory, in order. -/
def State.storeAll : List (Nat × List Byte) → State → State
  | [], s => s
  | p :: ps, s => (s.setBytes p.1 p.2).storeAll ps

/-- The poison check pattern: one check byte, whose value is not given (R494; log 3). -/
def poisonCheck : Nat :=
  Config.freeOf 115 [] % 256

/-- Words of HBM that the running command stores with the poison check pattern (R494). -/
def Dev.poisonWords (ws : List Nat) (s : Dev) : Dev :=
  { s with integ := { s.integ with raw := s.integ.raw ++ ws.map fun w => (w, poisonCheck) } }

/-- The 64-bit words of a body of `n` bytes, stored from an address on with the room of `room` bytes, that take the poison check pattern where the body's source carries a mark: at
least one word of the body, as a free value says, since a mark names no word (R494; log 239). -/
def markedWords (a n room seed : Nat) : List Nat :=
  let ks := List.range (ceilDiv n 8)
  let hit := ks.filter fun k => decide (Config.freeOf 118 [seed, k] % 2 = 1)
  ((if hit = [] then ks.take 1 else hit).filter fun k => decide (8 * k < room)).map fun k => a / 8 + k

/-- A head and a body stored in HBM, the body cut to its room; `marked`: its source carries a poison mark (R494). -/
def Dev.storeMarked (a : Nat) (head body : List Byte) (room : Nat) (marked : Bool) (s : Dev) : Dev :=
  let s := s.store a (head ++ body.take room)
  if marked then (s.poisonWords (markedWords (a + head.length) body.length room s.fresh)).tick else s

/-- The device once a command's stores have been taken: the check bytes of the HBM words they touch are those of their new data,
or those written raw (R500). -/
def Dev.flushed (d : Dev) : Dev :=
  { d with
    hbmOut := []
    refused := false
    accessor := .host
    integ := { d.integ with
      raw := []
      checks := d.integ.raw ++ d.integ.checks.filter fun e =>
        d.hbmOut.all fun p => !(decide (p.1 < 8 * e.1 + 8) && decide (8 * e.1 < p.1 + p.2.length)) } }

/-- What a command that takes the device to `d` does to the block: its stores reach memory, and the queue stays. -/
def State.become (d : Dev) (s : State) : State :=
  { { s with dev := d }.storeAll d.hbmOut with dev := d.flushed }

/-- The outcome of a command that acts on the device as `f` does. -/
def State.run (f : Dev → Dev) (s : State) : Out :=
  .next (s.become (f s.dev))

/-- The HBM address of a window offset: WIN_HOME + offset, whatever WIN_BASE holds (R430). -/
def winAddr (off : Nat) : Nat :=
  Config.winHome + off

/-- Whether `n` bytes at a window offset lie in the home region. -/
def inWindow (off n : Nat) : Bool :=
  off + n ≤ Config.winSize

/-! ## Byte images of time -/

/-- TIME, in 2^-16 ns, as 48-bit seconds, 32-bit nanoseconds and a 16-bit fraction, each least significant byte first
(Table 15.3, Table 15.5). -/
def timeBytesLE (t : Nat) : List Byte :=
  let ns := t / 65536
  bytesLE 6 (ns / 1000000000) ++ bytesLE 4 (ns % 1000000000) ++ bytesLE 2 (t % 65536)

/-- The same, each most significant byte first, as line overhead carries it (R162). -/
def timeBytesBE (t : Nat) : List Byte :=
  let ns := t / 65536
  bytesBE 6 (ns / 1000000000) ++ bytesBE 4 (ns % 1000000000) ++ bytesBE 2 (t % 65536)

end Sys2Proof.Machine
end

