-- ==== Sys2Proof/Machine/Write.lean ====
section
/-!
DEFINITION. A host write of a register word, by the access codes of its fields (R9, R10, R425).
-/
namespace Sys2Proof.Machine

/-- The bits of a field in its word. -/
def FieldSpec.mask (f : FieldSpec) : Word :=
  bitMask f.lsb f.width

/-- The bits that a register's fields name; the others are reserved. -/
def namedBits (fs : List FieldSpec) : Word :=
  fs.foldl (fun m f => m ||| f.mask) 0

/-- Whether a write changes the shadow of an RWA field (R425: a write of the value it holds is not a write). -/
def Dev.shadowDiffers (s : Dev) (cell : Nat) (v : Word) (f : FieldSpec) : Bool :=
  s.sh ⟨cell, f.lsb, f.width⟩ ≠ getBits v f.lsb f.width

/-- One field of a written word taken by its access code; RWA fields only where the page is OPEN. -/
def Dev.takeField (page cell : Nat) (v : Word) (f : FieldSpec) (s : Dev) : Dev :=
  let w := s.word cell
  match f.acc with
  | .rw => s.setWord cell ((w &&& ~~~ f.mask) ||| (v &&& f.mask))
  | .w1c => s.setWord cell (w &&& ~~~ (v &&& f.mask))
  | .w1s => s.setWord cell (w ||| (v &&& f.mask))
  | .rwa =>
    if (s.hdr page).cstate = .opened then
      let sh := sget resetWord s.shadow cell
      s.setShadow cell ((sh &&& ~~~ f.mask) ||| (v &&& f.mask))
    else s
  | .ro => s
  | .wo => s

/-- A word written to a register: each field outside `own` by its access code, the reserved bits left at 0, and one violation
where a reserved bit was set or an RWA field of an ARMED or PENDING page would have changed (R9, R10, R425). The bits of `own` are
those whose effect the writing command has itself. A write to a reserved offset is counted (R424). -/
def Dev.writeWord (page off : Nat) (own v : Word) (s : Dev) : Dev :=
  let cell := regCell page off
  match regAt page off with
  | none => s.viol page
  | some (_, _, r) =>
    let fs := r.fields.filter fun f => f.mask &&& own = 0
    let late := decide ((s.hdr page).cstate ≠ .opened) && fs.any fun f => decide (f.acc = .rwa) && s.shadowDiffers cell v f
    let s := fs.foldl (fun s f => s.takeField page cell v f) s
    if v &&& ~~~ namedBits r.fields ≠ 0 ∨ late then s.viol page else s

/-- The command bits of the register at an offset of a page: its WO fields, and the W1S fields, which command too (ARM, Table 18.4). -/
def commandBits (page off : Nat) : Word :=
  match regAt page off with
  | none => 0
  | some (_, _, r) => namedBits (r.fields.filter fun f => decide (f.acc = .wo) || decide (f.acc = .w1s))

/-- One write counts at most one violation in its page, however many of its bits are refused (R10, R425). -/
def Dev.oneViol (page before : Nat) (s : Dev) : Dev :=
  if before + 1 < (s.hdr page).viol then s.setHdr page { s.hdr page with viol := before + 1 } else s

/-- A host write of a word to a register, with the effect of the bits in `own` given by the command. While the page's block is under test the
command bits are refused with BUSY_TEST and the rest is held (Table 18.4). -/
def Dev.hostWrite (page off : Nat) (own v : Word) (act : Dev → Dev) (s : Dev) : Dev :=
  let s := s.access 1 page off
  (if !s.pageLive page then s.noPage
  else if s.pageInTest page then
    let cmd := v &&& commandBits page off
    let s := { s with bist := { s.bist with held := s.bist.held ++ [.word page off (v &&& ~~~ cmd)] } }
    if cmd = 0 then s else s.busyTest page
  else (act (s.writeWord page off own v)).oneViol page (s.hdr page).viol).endAccess page off

end Sys2Proof.Machine
end

