-- ==== Sys2Proof/Machine/Protect.lean ====
section
/-!
DEFINITION. Protection pairs: the tables' listed entries, the requests of Table 7.3, the 1+1 selector and its commands, and the
shared parts of the Parallax state machine (R194 to R224).
-/
namespace Sys2Proof.Machine

/-! ## Table entries that differ from their reset -/

/-- The indices whose entry in a table has word 0 away from its reset, rising. -/
def Dev.listed (s : Dev) (t : TableSpec) : List Nat :=
  s.regs.filterMap fun e =>
    if tableCell t.id 0 0 ≤ e.1 ∧ e.1 < tableCell t.id 0x40000 0 ∧ e.1 % 64 = 0 then
      some ((e.1 - tableCell t.id 0 0) / 64)
    else none

/-- The enabled courses of the MAP in force. -/
def Dev.courses (s : Dev) : List Nat :=
  (s.listed tableMAP).filter fun c => s.on (Reg.MAP_EN c)

/-- The slots in force that name course `c`, in slot order. -/
def Dev.slotsOf (s : Dev) (c : Nat) : List Nat :=
  (s.listed tableSLOT).filter fun k => s.on (Reg.SLOT_USED k) && s.rd (Reg.SLOT_COURSE k) = c

/-- The engines that carry members of course `c`. -/
def Dev.enginesOf (s : Dev) (c : Nat) : List Nat :=
  ((s.slotsOf c).map (· / 64)).dedup

/-- The enabled pairs. -/
def Dev.enabledPairs (s : Dev) : List Nat :=
  (s.listed tablePAIR).filter fun p => s.on (Reg.PAIR_EN p)

/-- The pair that course `c` belongs to, where an enabled pair names it and its configuration holds (R194, R198). -/
def Dev.pairOf (s : Dev) (c : Nat) : Option Nat :=
  s.enabledPairs.find? fun p =>
    (s.rd (Reg.PAIR_COURSE_A p) = c || s.rd (Reg.PAIR_COURSE_B p) = c) && !s.on (Reg.PSTAT_CFG_BAD p)

/-! ## The pair's hidden state -/

/-- A pair's hidden state. -/
def Dev.pr (s : Dev) (p : Nat) : Pair :=
  sget (dflt Pair.reset) s.pairs p

/-- The device with a pair's hidden state changed. -/
def Dev.setPr (p : Nat) (x : Pair) (s : Dev) : Dev :=
  { s with pairs := sset (dflt Pair.reset) s.pairs p x }

/-- A course's hidden state. -/
def Dev.co (s : Dev) (c : Nat) : Course :=
  sget (dflt Course.reset) s.crs c

/-- The device with a course's hidden state changed. -/
def Dev.setCo (c : Nat) (x : Course) (s : Dev) : Dev :=
  { s with crs := sset (dflt Course.reset) s.crs c x }

/-- The pair's bit in PAR_CHG set (R208, R219). -/
def Dev.pairChanged (p : Nat) (s : Dev) : Dev :=
  s.wr ⟨(Reg.PAR_CHG_CHG (p / 32)).cell, p % 32, 1⟩ 1

/-- The mode a pair runs in: PSTAT.MODE_EFF (R212); 0 for a pair that is disabled or stopped (R198; DESIGN CHOICE, log 216). -/
def Dev.pairMode (s : Dev) (p : Nat) : Nat :=
  s.rd (Reg.PSTAT_MODE_EFF p)

/-! ## Conditions of a course for protection (R213) -/

/-- SF of a course for protection: STAT.SF or frame fail. -/
def Dev.protSf (s : Dev) (c : Nat) : Bool :=
  s.on (Reg.CRSTAT_SF c) || (s.co c).inFf

/-- SD of a course for protection, where the pair's SD_EN is set. -/
def Dev.protSd (s : Dev) (p c : Nat) : Bool :=
  s.on (Reg.CRSTAT_SD c) && s.on (Reg.PAIR_SD_EN p)

/-! ## Requests (Table 7.3) -/

/-- A request: its priority in Table 7.3, its code, and the selector position it asks for (false A, true B). -/
structure Request where
  prio : Nat
  code : Nat
  toB : Bool
  deriving DecidableEq, Repr

/-- The highest local request of a pair (R215). -/
def Dev.localRequest (s : Dev) (p : Nat) : Request :=
  let x := s.pr p
  if x.lo then ⟨1, 15, false⟩
  else if x.sfB.acted then ⟨2, 14, false⟩
  else if x.fs then ⟨3, 13, true⟩
  else if x.sfA.acted then ⟨4, 11, true⟩
  else if x.sdA.acted && !x.sdB.acted then ⟨5, 9, true⟩
  else match x.ms with
    | some t => ⟨6, 7, t⟩
    | none =>
      if x.wtr.isSome then ⟨7, 5, true⟩
      else if x.dnr then ⟨8, 1, true⟩
      else ⟨9, 0, x.nrB && !s.on (Reg.PAIR_REVERT p)⟩

/-- The request that accepted SR bytes spell; EXER, RR and codes of no request are taken as NR (R215). -/
def remoteRequest (sr : Word) : Request :=
  let toB := decide (getBits sr 8 8 = 1)
  match getBits sr 4 4 with
  | 15 => ⟨1, 15, false⟩
  | 14 => ⟨2, 14, false⟩
  | 13 => ⟨3, 13, true⟩
  | 11 => ⟨4, 11, true⟩
  | 9 => ⟨5, 9, true⟩
  | 7 => ⟨6, 7, toB⟩
  | 5 => ⟨7, 5, true⟩
  | 1 => ⟨8, 1, true⟩
  | _ => ⟨9, 0, false⟩

/-- The remote request of a pair where it counts: bidirectional, and no mismatch (R215, R218). -/
def Dev.remoteOf (s : Dev) (p : Nat) : Option Request :=
  if s.on (Reg.PAIR_DIR p) && !s.on (Reg.PSTAT_PROT_MISMATCH p) then
    some (remoteRequest (s.word (Reg.CRSTAT_SR_ACC (s.rd (Reg.PAIR_COURSE_B p))).cell))
  else none

/-- The request that the selector follows: the highest of the local and the remote one, the local one where they are
equal (R215). -/
def Dev.request (s : Dev) (p : Nat) : Request :=
  let l := s.localRequest p
  match s.remoteOf p with
  | some r => if r.prio < l.prio then r else l
  | none => l

/-- The SR bytes that course B sends (Table 7.4): the request in force in 1+1 (log 20), NR with A alone in Parallax (R217, R218). -/
def Dev.srBytes (s : Dev) (p : Nat) : Nat :=
  if s.pairMode p = 2 then 0x08 + 65536
  else
    let r := s.request p
    r.code * 16 + 8 + 2 * s.rd (Reg.PAIR_DIR p) + s.rd (Reg.PAIR_REVERT p) + 256 * ofBool r.toB + 65536

/-- The pair's SR, PSTAT request fields and unprotected bit brought up to date (R215, R217). -/
def Dev.showPair (p : Nat) (s : Dev) : Dev :=
  let a := s.rd (Reg.PAIR_COURSE_A p)
  let b := s.rd (Reg.PAIR_COURSE_B p)
  let mode := if s.on (Reg.PSTAT_CFG_BAD p) then s.rd (Reg.PAIR_MODE p) else s.pairMode p
  let unprot :=
    if s.on (Reg.PAIR_EN p) then
      if mode = 2 then decide (s.rd (Reg.PSTAT_STATE p) ≠ 2) else s.protSf a || s.protSf b
    else false
  let s := s.wrB ⟨(Reg.PAR_UNPROT_UNPROT (p / 32)).cell, p % 32, 1⟩ unprot
  if s.pairMode p = 1 then
    let s := (s.wr (Reg.PSTAT_LOCAL_REQ p) (s.request p).code).wr (Reg.PSTAT_REMOTE_REQ p)
      (match s.remoteOf p with | some r => r.code | none => 0)
    let s := (s.wrB (Reg.PSTAT_A_OK p) (!s.protSf a)).wrB (Reg.PSTAT_B_OK p) (!s.protSf b)
    (s.wr (Reg.SR_TX_SR a) 0).wr (Reg.SR_TX_SR b) (s.srBytes p)
  else if s.pairMode p = 2 then (s.wr (Reg.SR_TX_SR a) 0).wr (Reg.SR_TX_SR b) (s.srBytes p)
  else s

/-- SF or SD on course A is acted on. -/
def Pair.hadA (x : Pair) : Bool :=
  x.sfA.acted || x.sdA.acted

/-- WTR and DNR after the requests of a pair may have changed (R215, R216): WTR or DNR starts when SF and SD on A have cleared
while the selector is on B, and a new one, or any higher request, ends it. A request that ends DNR leaves NR at its side (Table 7.3: "B after DNR"; DEDUCED, log
180). -/
def Dev.wtrRule (p : Nat) (hadA : Bool) (s : Dev) : Dev :=
  let x := s.pr p
  let x :=
    if hadA && !x.hadA && s.on (Reg.PSTAT_SEL p) then
      if s.on (Reg.PAIR_REVERT p) then { x with wtr := some s.clock } else { x with dnr := true }
    else x
  let s := s.setPr p x
  let s := if (s.request p).prio < 7 ∨ (!hadA ∧ x.hadA) then s.setPr p { s.pr p with wtr := none } else s
  let r := s.request p
  let x := s.pr p
  if r.prio < 8 then s.setPr p { x with dnr := false, nrB := r.toB && (x.dnr || x.nrB) } else s

/-- The requests of a pair evaluated again after a change (R215). -/
def Dev.evalPair (p : Nat) (hadA : Bool) (s : Dev) : Dev :=
  (s.wtrRule p hadA).showPair p

/-- A condition that holds or not at a clock: acted on at once where there is no hold-off (R214). -/
def Cond.take (c : Cond) (now holds : Bool) (clock : Nat) : Cond :=
  if !holds then Cond.reset
  else if now || c.acted then ⟨true, none⟩
  else ⟨false, some (c.since.getD clock)⟩

/-- The conditions of a pair's courses taken over: at once where HOLDOFF = 0 or where they clear, otherwise when the hold-off of each
ends (R214). -/
def Dev.pairConditions (p : Nat) (s : Dev) : Dev :=
  if s.pairMode p = 1 then
    let a := s.rd (Reg.PAIR_COURSE_A p)
    let b := s.rd (Reg.PAIR_COURSE_B p)
    let x := s.pr p
    let now := decide (s.rd (Reg.PAIR_HOLDOFF p) = 0)
    let y := { x with
      sfA := x.sfA.take now (s.protSf a) s.clock
      sdA := x.sdA.take now (s.protSd p a) s.clock
      sfB := x.sfB.take now (s.protSf b) s.clock
      sdB := x.sdB.take now (s.protSd p b) s.clock }
    (s.setPr p y).evalPair p x.hadA
  else s.showPair p

/-- Every pair that course `c` belongs to, after a change of the course's conditions. -/
def Dev.courseToPairs (c : Nat) (s : Dev) : Dev :=
  match s.pairOf c with
  | some p => s.pairConditions p
  | none => s

/-- The clock since which the oldest condition of a pair that is not yet acted on has held. -/
def Pair.oldest (x : Pair) : Option Nat :=
  ([x.sfA, x.sdA, x.sfB, x.sdB].filterMap (·.since)).min?

/-- A condition whose hold-off began at a clock is acted on. -/
def Cond.expire (c : Cond) (since : Option Nat) : Cond :=
  if c.since.isSome ∧ c.since = since then ⟨true, none⟩ else c

/-- PROT_HOLDOFF_EXPIRED (R214): the conditions that have waited longest have lasted the hold-off and are acted on; one that began later waits on. -/
def Dev.holdoffEnd (p : Nat) (s : Dev) : Dev :=
  if s.pairMode p = 1 ∧ s.on (Reg.PAIR_EN p) then
    let x := s.pr p
    let o := x.oldest
    (s.setPr p { x with sfA := x.sfA.expire o, sdA := x.sdA.expire o, sfB := x.sfB.expire o, sdB := x.sdB.expire o }).evalPair p x.hadA
  else s

/-! ## Parallax pair states (R208) -/

/-- The codes of Table 7.1. -/
abbrev parIdle : Nat := 0
abbrev parAcquire : Nat := 1
abbrev parMerged : Nat := 2
abbrev parSingle : Nat := 3
abbrev parLost : Nat := 4

/-- A path that starts again: what was late or early stays known (R204). -/
def PairPath.anew (w : PairPath) : PairPath :=
  { PairPath.reset with timing := w.timing }

/-- A pair's state set, with E-20.00 and its PAR_CHG bit where it changes, and what the entry does (Table 7.2). -/
def Dev.pairGo (p st : Nat) (s : Dev) : Dev :=
  let changed := decide (s.rd (Reg.PSTAT_STATE p) ≠ st)
  let s := s.wr (Reg.PSTAT_STATE p) st
  let s := if st = parIdle ∨ st = parAcquire then
      s.setPr p { s.pr p with
        grid := [], rate := 0, firsts := [], decided := none, slots := [], ready := []
        a := (s.pr p).a.anew, b := (s.pr p).b.anew }
    else s
  let s := if st = parAcquire then s else s.wrB (Reg.PSTAT_MERGE_SF p) (st = parLost)
  let s := (s.wrB (Reg.PSTAT_A_OK p) (s.pr p).a.contributing).wrB (Reg.PSTAT_B_OK p) (s.pr p).b.contributing
  let s := s.showPair p
  if changed then (s.pairChanged p).raise 20 0 else s

/-- A pair in the mode that it runs in: one in MODE 2 that is idle acquires, a 1+1 pair takes its courses' conditions (R208, R212). -/
def Dev.pairBegin (q : Nat) (s : Dev) : Dev :=
  if s.on (Reg.PSTAT_CFG_BAD q) then s
  else if s.pairMode q = 2 then (if s.rd (Reg.PSTAT_STATE q) = parIdle then s.pairGo q parAcquire else s)
  else s.pairConditions q

end Sys2Proof.Machine
end

