-- ==== Sys2Proof/Machine/Course.lean ====
section
/-!
DEFINITION. The conditions of courses (R164, R171, R187): signal fail and signal degrade from their causes, the change bitmaps, and
the skew-store reservation.
-/
namespace Sys2Proof.Machine

/-- A FRAME page (R192). -/
abbrev framePage (n : Nat) : Nat := 0x200 + 8 * n

/-- The frame aligner's hidden state. -/
def Dev.fra (s : Dev) (n : Nat) : FrEngine :=
  sget (dflt FrEngine.reset) s.fr n

/-- The device with a frame aligner's hidden state changed. -/
def Dev.setFra (n : Nat) (x : FrEngine) (s : Dev) : Dev :=
  { s with fr := sset (dflt FrEngine.reset) s.fr n x }

/-- A receive engine's hidden state. -/
def Dev.rxe (s : Dev) (n : Nat) : RxEngine :=
  sget (dflt RxEngine.reset) s.rx n

/-- The device with a receive engine's hidden state changed. -/
def Dev.setRxe (n : Nat) (x : RxEngine) (s : Dev) : Dev :=
  { s with rx := sset (dflt RxEngine.reset) s.rx n x }

/-- Whether receive twin mode holds on the pair of engine `n` (R118). -/
def Dev.rxTwin (s : Dev) (n : Nat) : Bool :=
  s.on (Reg.ACQ_CTRL_TWIN (2 * (n / 2)))

/-- The engine whose RX_MODE, RX_CLK and RX_RESAMP drive engine `n` (R118). -/
def Dev.rxLead (s : Dev) (n : Nat) : Nat :=
  if s.rxTwin n then 2 * (n / 2) else n

/-- The active slots of the receive mode in force. -/
def Dev.rxSlots (s : Dev) (n : Nat) : Nat :=
  s.rd (Reg.RX_MODE_SLOTS_M1 (s.rxLead n)) + 1

/-- The active slots of the transmit mode in force. -/
def Dev.txSlots (s : Dev) (n : Nat) : Nat :=
  let l := if s.on (Reg.TX_CTRL_TWIN (2 * (n / 2))) then 2 * (n / 2) else n
  s.rd (Reg.TX_MODE_SLOTS_M1 l) + 1

/-- Whether slot `k` (64 × engine + slot) exists in both modes in force, on an enabled engine (R166). -/
def Dev.slotActive (s : Dev) (k : Nat) : Bool :=
  s.lineOn (k / 64) && decide (k % 64 < s.rxSlots (k / 64)) && decide (k % 64 < s.txSlots (k / 64))

/-! ## Signal fail and signal degrade (R187) -/

/-- Course `c`'s bit in a bitmap of page 0x241. -/
def courseBit (f : Nat → Field) (c : Nat) : Field := ⟨(f (c / 32)).cell, c % 32, 1⟩

/-- A status bit of course `c` changed (R191). -/
def Dev.crsChanged (c : Nat) (s : Dev) : Dev :=
  s.wr (courseBit Reg.CRS_CHG_CHG c) 1

/-! ### Receive copies of the course map (R167) -/

/-- The receive copy of slot `k`'s entry: bits [16:0] as Table 6.11; of its course [23:17] MEMBERS_M1, [25:24] TIM_MODE and [26] TIM_ACT. -/
def rxSlotField (k lsb width : Nat) : Field := ⟨tableCell tableSLOT.id (524288 + k) 0, lsb, width⟩

/-- Whether the receive copy gives slot `k` to a course, and which. -/
def Dev.rxCourse (s : Dev) (k : Nat) : Option Nat :=
  if s.on (rxSlotField k 0 1) then some (s.rd (rxSlotField k 1 9)) else none

/-- The slots that have a receive copy, rising. -/
def Dev.rxListed (s : Dev) : List Nat :=
  s.regs.filterMap fun e =>
    let lo := tableCell tableSLOT.id 524288 0
    if lo ≤ e.1 ∧ e.1 < tableCell tableSLOT.id (524288 + 512) 0 ∧ e.1 % 64 = 0 then some ((e.1 - lo) / 64) else none

/-- The slots that the receive copies give to course `c`. -/
def Dev.rxSlotsOf (s : Dev) (c : Nat) : List Nat :=
  s.rxListed.filter fun k => s.rxCourse k == some c

/-- The courses that the receive copies give slots to. -/
def Dev.rxCourses (s : Dev) : List Nat :=
  (s.rxListed.filterMap s.rxCourse).dedup

/-- Whether course `c` is enabled on receive: a member engine has taken the map that enables it (R167). -/
def Dev.rxOn (s : Dev) (c : Nat) : Bool :=
  decide (s.rxSlotsOf c ≠ [])

/-- The member engines of course `c` on receive: those whose copy gives it slots, and those that its map asks to (R167; DEDUCED, log 215). -/
def Dev.rxEngines (s : Dev) (c : Nat) : List Nat :=
  ((s.rxSlotsOf c).map (· / 64) ++ s.enginesOf c).dedup

/-- The slot of course `c`'s lead member on receive: of the receive copies, of the map where no copy names it. -/
def Dev.rxLeadSlot (s : Dev) (c : Nat) : Option Nat :=
  match (s.rxSlotsOf c).find? fun k => s.rd (rxSlotField k 10 7) = 0 with
  | some k => some k
  | none => (s.slotsOf c).find? fun k => s.rd (Reg.SLOT_MEMBER k) = 0

/-- The lead member's engine of course `c` on receive. -/
def Dev.leadEngine (s : Dev) (c : Nat) : Nat :=
  match s.rxLeadSlot c with
  | some k => k / 64
  | none => 0

/-- TIM_MODE of course `c` in force on receive: of its first receive copy, of the map for a course without one (R167). -/
def Dev.rxTimMode (s : Dev) (c : Nat) : Nat :=
  match s.rxSlotsOf c with
  | k :: _ => s.rd (rxSlotField k 24 2)
  | [] => s.rd (Reg.MAP_TIM_MODE c)

/-- TIM_ACT of course `c` in force on receive. -/
def Dev.rxTimAct (s : Dev) (c : Nat) : Bool :=
  match s.rxSlotsOf c with
  | k :: _ => s.on (rxSlotField k 26 1)
  | [] => s.on (Reg.MAP_TIM_ACT c)

/-- The receive OH_MODE in force on engine `n` (R190): a copy of FR_CTRL.OH_MODE taken at a received multiframe. -/
def Dev.ohRx (s : Dev) (n : Nat) : Nat :=
  s.rd (Reg.FR_CTRL_OH_MODE n).run

/-- The transmit path of engine `n` has an internal fault: the engine is MUTED (R62), or its line transmit queue stands still (R19). -/
def Dev.txInternal (s : Dev) (n : Nat) : Bool :=
  decide (s.rd (Reg.TX_STATE_STATE n) = 5) || s.xqStopped.contains (8 + n)

/-- The causes of signal fail of course `c` (R187). An internal fault of a transmit path puts the courses that the engine carries in signal fail as well
(R19, R62; DEDUCED, log 103). -/
def Dev.sfCause (s : Dev) (c : Nat) : Bool :=
  ((s.rxEngines c).any fun n => s.on (Reg.FR_STAT_SF n)) || ((s.enginesOf c).any fun n => s.txInternal n) ||
  s.on (Reg.CRSTAT_LOA c) || s.on (Reg.CRSTAT_MSIM c) || s.on (Reg.CRSTAT_MEMBER_ABSENT c) ||
  (s.on (Reg.CRSTAT_TIM c) && s.rxTimAct c) ||
  (s.on (Reg.CRSTAT_STAT_NOK c) && decide (s.ohRx (s.leadEngine c) = 1))

/-- The causes of signal degrade of course `c` (R187). -/
def Dev.sdCause (s : Dev) (c : Nat) : Bool :=
  (s.rxEngines c).any fun n => s.on (Reg.WIN_STAT_SD n)

/-- A status bit of a course set to a value: where it changes, its CRS_CHG bit and its event follow (R191). -/
def Dev.setCrsBit (c : Nat) (f : Field) (ev : Option Nat) (v : Bool) (s : Dev) : Dev :=
  if s.on f = v then s
  else
    let s := (s.wrB f v).crsChanged c
    match ev with
    | some b => s.raise 19 b
    | none => s

/-- The signal fail and signal degrade of course `c`, enabled on transmit or on receive, brought up to date, with its pair's inputs (R187, R213). -/
def Dev.settleCourse (c : Nat) (s : Dev) : Dev :=
  let en := s.on (Reg.MAP_EN c) || s.rxOn c
  let sf := en && s.sfCause c
  let sd := en && s.sdCause c
  if s.on (Reg.CRSTAT_SF c) = sf ∧ s.on (Reg.CRSTAT_SD c) = sd then s
  else
    let s := (s.setCrsBit c (Reg.CRSTAT_SF c) (some 0) sf).setCrsBit c (Reg.CRSTAT_SD c) (some 1) sd
    let s := (s.wrB (courseBit Reg.CRS_SF_SF c) sf).wrB (courseBit Reg.CRS_SD_SD c) sd
    s.courseToPairs c

/-- Every enabled course brought up to date. -/
def Dev.settleCourses (s : Dev) : Dev :=
  (s.courses ++ s.rxCourses.filter fun c => !s.on (Reg.MAP_EN c)).foldl (fun s c => s.settleCourse c) s

/-- MEMBER_ABSENT after a mode has come into force: set on every enabled course with a member at a column that does not exist
(R164). It stays until the course's map changes. -/
def Dev.markAbsent (s : Dev) : Dev :=
  (s.courses.foldl (fun s c =>
    if (s.slotsOf c).any fun k => !s.slotActive k then s.setCrsBit c (Reg.CRSTAT_MEMBER_ABSENT c) none true else s) s).settleCourses

/-- Whether course `c` counts as being in signal fail for the consequent actions of R188: STAT.SF, or MERGE_SF of the
pair whose course A it is (R209), or RCRS.SF of a remote course (R403). -/
def Dev.courseFails (s : Dev) (c : Nat) : Bool :=
  s.on (Reg.CRSTAT_SF c) || (s.on (Reg.RCRS_EN c) && s.on (Reg.RCRS_SF c)) ||
  s.enabledPairs.any fun p => decide (s.rd (Reg.PAIR_COURSE_A p) = c) && s.on (Reg.PSTAT_MERGE_SF p)

/-! ## Remote courses (R398, R400) -/

/-- Whether course `c` is fed through the relay (R400). -/
def Dev.relayFed (s : Dev) (c : Nat) : Bool :=
  (s.listed tableRRX).any fun k => s.rd (Reg.RRX_KIND k) = 3 && decide (s.rd (Reg.RRX_COURSE k) = c)

/-- Whether course `c` is an enabled remote course with a transmit half (R402). -/
def Dev.remoteTx (s : Dev) (c : Nat) : Bool :=
  s.on (Reg.RCRS_EN c) && s.on (Reg.RCRS_TX c)

/-- Whether course `c` is an enabled remote course with a receive half (R402). -/
def Dev.remoteRx (s : Dev) (c : Nat) : Bool :=
  s.on (Reg.RCRS_EN c) && s.on (Reg.RCRS_RX c)

/-- The enabled remote courses. -/
def Dev.remotes (s : Dev) : List Nat :=
  (s.listed tableRCRS).filter fun c => s.on (Reg.RCRS_EN c)

/-- The members of course `c`: of its MAP entry, or of RCRS for a remote course. -/
def Dev.members (s : Dev) (c : Nat) : Nat :=
  if s.on (Reg.RCRS_EN c) then s.rd (Reg.RCRS_MEMBERS_M1 c) + 1 else s.rd (Reg.MAP_MEMBERS_M1 c) + 1

/-! ## The skew store (R170, R171) -/

/-- The bytes that a course of M members over several engines reserves: M × 4,096 × (ceil(SKEW_MAX_US / 1.28) + 2). -/
def skewBytes (members skewUs : Nat) : Nat :=
  members * 4096 * (ceilDiv (skewUs * 100) 128 + 2)

/-- Whether the members of a course arrive together: one engine, or the two engines of a pair in receive twin mode (R170). -/
def Dev.noHold (s : Dev) (c : Nat) : Bool :=
  match s.enginesOf c with
  | [] => true
  | n :: r => r.all fun m => m / 2 = n / 2 && s.rxTwin n

/-- SKEW_STORE.RESERVED_KIB brought up to date (R171). -/
def Dev.showSkewStore (s : Dev) : Dev :=
  let total := (s.courses.map fun c =>
    if (s.enginesOf c).length > 1 then skewBytes (s.rd (Reg.MAP_MEMBERS_M1 c) + 1) (s.rd (Reg.MAP_SKEW_MAX_US c)) else 0).sum
  s.wr Reg.SKEW_STORE_RESERVED_KIB (ceilDiv total 1024)

/-! ## Drone transmitters -/

/-- A Drone transmitter. -/
def Dev.dtx (s : Dev) (n : Nat) : DroneTx :=
  sget (dflt DroneTx.reset) s.drone.tx n

/-- The device with a Drone transmitter changed. -/
def Dev.setDtx (n : Nat) (x : DroneTx) (s : Dev) : Dev :=
  { s with drone := { s.drone with tx := sset (dflt DroneTx.reset) s.drone.tx n x } }

end Sys2Proof.Machine
end

