-- ==== Sys2Proof/Machine/Records.lean ====
section
/-!
DEFINITION. Collimation records (R363, R364, R368, R375, R379, R381): the runs of the line converters' classes, a system calibration's failure, and the instants at which new values
take effect.
-/
namespace Sys2Proof.Machine

/-- A Collimation record. -/
def Dev.record (s : Dev) (r : Nat) : ColRec :=
  sget (dflt ColRec.reset) s.col.recs r

/-- The device with a record changed. -/
def Dev.setRecord (r : Nat) (x : ColRec) (s : Dev) : Dev :=
  { s with col := { s.col with recs := sset (dflt ColRec.reset) s.col.recs r x } }

/-- The engine of a line record, and whether it is an LDAC record. -/
abbrev recEngine (r : Nat) : Nat := r % 8

/-- The valid bit of a class. -/
def classValid (r : Nat) : Field :=
  if r < 8 then Reg.LCAL_STAT_ADC_VALID r else Reg.LCAL_STAT_DAC_VALID (r - 8)

/-- Whether the converters of a line record are idle (R363). -/
def Dev.classIdle (s : Dev) (r : Nat) : Bool :=
  if r < 8 then !s.on (Reg.RX_CTRL_ENABLE r) else decide (s.rd (Reg.TX_STATE_STATE (r - 8)) = 0)

/-- DRIFT, FG_BUSY and BG_BUSY of an engine brought up to date, with E-09.04 where DRIFT changes. -/
def Dev.showLcal (n : Nat) (s : Dev) : Dev :=
  let a := s.record n
  let d := s.record (8 + n)
  let drift := a.drift || d.drift
  let was := s.on (Reg.LCAL_STAT_DRIFT n)
  let s := (s.wrB (Reg.LCAL_STAT_FG_BUSY n) (a.kind = 1 ∨ d.kind = 1)).wrB (Reg.LCAL_STAT_BG_BUSY n) (a.kind = 2 ∨ d.kind = 2)
  (s.wrB (Reg.LCAL_STAT_DRIFT n) drift).raiseIf (drift != was) 9 4

/-- A run of a record starts. -/
def Dev.runStart (r kind : Nat) (s : Dev) : Dev :=
  ((s.setRecord r { s.record r with kind := kind }).wr (Reg.COLREC_RUNNING r) 1).wr (Reg.COLREC_PENDING r) 0

/-- A foreground pass of a class starts: its valid bit reads 0, and its drift is cleared (R364, R368). -/
def Dev.fgStart (r : Nat) (s : Dev) : Dev :=
  let s := (s.wr (classValid r) 0).wr (Reg.LCAL_STAT_FG_CAUSE (recEngine r)) 0
  ((s.setRecord r { s.record r with drift := false }).runStart r 1).showLcal (recEngine r)

/-- A run that failed: nothing is counted. -/
def Dev.runFailed (r : Nat) (s : Dev) : Dev :=
  (s.setRecord r { s.record r with kind := 0 }).wr (Reg.COLREC_RUNNING r) 0

/-- A foreground pass ends with FAIL and a cause (R364). -/
def Dev.fgFail (r cause : Nat) (s : Dev) : Dev :=
  (((s.runFailed r).wr (Reg.LCAL_STAT_FG_CAUSE (recEngine r)) cause).showLcal (recEngine r)).raise 9 0

/-- Every foreground pass that runs ends with FAIL and cause 3, thermal shutdown (R364). -/
def Dev.fgShutdown (s : Dev) : Dev :=
  (List.range 16).foldl (fun s r => if (s.record r).kind = 1 then s.fgFail r 3 else s) s

/-- A system calibration ends in FAIL with a cause. -/
def Dev.sysFail (cause : Nat) (s : Dev) : Dev :=
  let s := { s with col := { s.col with sysCal := none } }
  let s := ((s.wr Reg.LCAL_SYS_BUSY 0).wr Reg.LCAL_SYS_STEP 0).wr Reg.LCAL_SYS_FAIL 1
  (s.wr Reg.LCAL_SYS_CAUSE cause).raise 9 5

/-- The converters of a class of engine `n` leave idle: a system calibration of them under way ends in FAIL with cause 1 (R367). -/
def Dev.sysLeave (n : Nat) (dac : Bool) (s : Dev) : Dev :=
  if s.col.sysCal.any fun x => decide (x.engine = n) && x.dac == dac then s.sysFail 1 else s

/-- The run of a line record that Table 13.7 asks for: a foreground pass, a background pass, or PENDING. -/
def Dev.lineRun (r : Nat) (s : Dev) : Dev :=
  if s.classIdle r then s.fgStart r
  else if s.on (Reg.LCAL_CTRL_BG_EN (recEngine r)) then (s.runStart r 2).showLcal (recEngine r)
  else s.wr (Reg.COLREC_PENDING r) 1

/-- The PENDING records of an engine run as soon as their converters are idle or BG_EN is set (R381). -/
def Dev.settlePending (n : Nat) (s : Dev) : Dev :=
  [n, 8 + n].foldl (fun s r =>
    if s.on (Reg.COLREC_PENDING r) ∧ (s.classIdle r ∨ s.on (Reg.LCAL_CTRL_BG_EN n)) then (s.lineRun r).raise 9 3 else s) s

/-! ## Applying corrections (R379) -/

/-- The values in force of a record. -/
def Dev.inForce (s : Dev) (r : Nat) : ColVals :=
  sget (dflt ColVals.reset) s.col.force r

/-- The device with values in force. -/
def Dev.setForce (r : Nat) (v : ColVals) (s : Dev) : Dev :=
  { s with col := { s.col with force := sset (dflt ColVals.reset) s.col.force r v } }

/-- The k-th other value of a set. -/
def ColVals.get (v : ColVals) (k : Nat) : Int :=
  (v.other[k]?).getD 0

/-- A set put in force at its instant. A TIMING record's first value is the transmit delay and its second the receive delay; record 26 holds the eight CLKOUT and the
four TREF delays. -/
def Dev.colPut (w : ColWhen) (r : Nat) (v : ColVals) (s : Dev) : Dev :=
  if 18 ≤ r ∧ r < 26 then
    let n := r - 18
    let old := s.inForce r
    match w with
    | .frame _ =>
      (s.setForce r { old with other := [old.get 0, v.get 1] ++ old.other.drop 2 }).wrS (Reg.RX_GD_ANALOG_DELAY n) (v.get 1)
    | _ => (s.setForce r { v with other := [v.get 0, old.get 1] ++ v.other.drop 2 }).wrS (Reg.TX_GD_ANALOG_DELAY n) (v.get 0)
  else if r = 26 then
    let s := s.setForce r v
    { s with sid := { s.sid with
        pinOut := (List.range 8).foldl (fun l k => sset (dflt 0) l k (v.get k)) s.sid.pinOut
        pinIn := (List.range 4).foldl (fun l k => sset (dflt 0) l k (v.get (8 + k))) s.sid.pinIn } }
  else s.setForce r v

/-- The sets that wait for an instant, put in force. -/
def Dev.colApply (w : ColWhen) (s : Dev) : Dev :=
  let mine := s.col.waiting.filter fun x => decide (x.1 = w)
  let s := mine.foldl (fun s x => s.colPut x.1 x.2.1 x.2.2) s
  { s with col := { s.col with waiting := s.col.waiting.filter fun x => decide (x.1 ≠ w) } }

/-- The instants at which a record's new values take effect (Table 13.6). -/
def colInstants (r : Nat) : List ColWhen :=
  if r < 8 then [.frame r]
  else if r < 16 then [.tick]
  else if r < 18 then [.scan]
  else if r < 26 then [.tick, .frame (r - 18)]
  else [.second]

/-- The code of FR_STAT.STATE that carries frames (Table 6.5). -/
abbrev frStateAligned : Nat := 4

/-- The set of corrections that a record gives: with MODE = 1 the lanes' offset and gain are those of the system calibration, or of the foreground pass where there is none, and
with MODE = 0 those tracked (R365, R368). -/
def Dev.setOf (s : Dev) (r : Nat) : ColVals :=
  let v := (s.record r).vals
  if r < 16 ∧ s.on (Reg.LCAL_CTRL_MODE (recEngine r)) then { v with tracked := if v.sys = [] then v.fore else v.sys } else v

/-- The offset and gain that a lane's converter of a line record uses now. -/
def Dev.laneInUse (s : Dev) (r k : Nat) : Option LaneCal :=
  (s.inForce r).tracked[k]?

/-- SYS_MISSING of an engine brought up to date, with E-09.02 where it sets (R365; Table 13.8). -/
def Dev.showMissing (n : Nat) (s : Dev) : Dev :=
  let lacks := decide ((s.record n).vals.sys = []) || decide ((s.record (8 + n)).vals.sys = [])
  let now := s.on (Reg.LCAL_CTRL_MODE n) && lacks
  let was := s.on (Reg.LCAL_STAT_SYS_MISSING n)
  (s.wrB (Reg.LCAL_STAT_SYS_MISSING n) now).raiseIf (now && !was) 9 2

/-- A completed set made to wait for its instant; at once where no frame is carried. -/
def Dev.colTake (r : Nat) (s : Dev) : Dev :=
  let v := s.setOf r
  (colInstants r).foldl (fun s w =>
    match w with
    | .frame n =>
      if s.rd (Reg.FR_STAT_STATE n) = frStateAligned then { s with col := { s.col with waiting := s.col.waiting ++ [(w, r, v)] } }
      else s.colPut w r v
    | _ => { s with col := { s.col with waiting := s.col.waiting ++ [(w, r, v)] } }) s

end Sys2Proof.Machine
end

