-- ==== Sys2Proof/Machine/Reset.lean ====
section
/-!
DEFINITION. Reset and the power state (R33, R63, R475 to R479): what PERST_N, sleep and a loss of Finder power leave, and the
entry to each power state.
-/
namespace Sys2Proof.Machine

/-! ## What survives -/

/-- The pages of the Finder's own registers, which PERST_N does not reset (R33, R486; log 32). -/
def finderPage (page : Nat) : Bool :=
  page = 0x000 ∨ page = 0x002 ∨ page = 0x010 ∨ page = 0x011 ∨ page = 0x018 ∨ page = 0x060 ∨ page = 0x083 ∨
  (0x0A0 ≤ page ∧ page ≤ 0x0A2) ∨ page = 0x0B8 ∨ page = 0x0B9

/-- The Drone tables that the Finder holds. -/
def finderTable (t : Nat) : Bool :=
  t = tableLISTEN.id ∨ t = tableNBR.id ∨ t = tableNBREXP.id

/-- Whether a cell keeps its word when the cells of the pages in `keep` do. -/
def cellKept (keep : Nat → Bool) (c : Nat) : Bool :=
  if c < 0x400000 then keep (c / 1024)
  else if c < 0x1000000 then keep ((c - 0x400000) / 1024)
  else finderTable ((c - 0x1000000) / 64 / 1048576)

/-- The fingers of a Drone path freed, each counted as ABANDONED (R316). -/
def Dev.abandonPath (path : Nat) (s : Dev) : Dev :=
  (List.range 4).foldl (fun s k =>
    match sget (dflt none) s.drone.fingers (4 * path + k) with
    | some _ =>
      { s with drone := { s.drone with fingers := sset (dflt none) s.drone.fingers (4 * path + k) none } }.bumpBy ABANDONEDrun 1
    | none => s) s
where
  /-- the running counter of ABANDONED -/
  ABANDONEDrun : Field := Reg.ABANDONED.run

/-- The digital Drone paths become inactive (R312, R316). -/
def Dev.abandonDigital (s : Dev) : Dev :=
  (List.range 8).foldl (fun s path => s.abandonPath path) s

/-- The device with the hub at reset: the registers of the pages in `keep`, the Finder, its store, the fuses and the model's own fields
stay; the digital Drone paths are inactive from then on. HBM is not touched (log 33). -/
def Dev.hubCleared (keep : Nat → Bool) (s : Dev) : Dev :=
  let s := s.abandonDigital
  { Dev.reset with
    regs := s.regs.filter fun e => cellKept keep e.1
    shadow := s.shadow.filter fun e => cellKept keep e.1
    pages := s.pages.filter fun e => keep e.1
    later := s.later.filter fun x => keep x.page
    variant := s.variant
    clock := s.clock
    dieLost := s.dieLost
    power := s.power
    integ := { Integrity.reset with candidates := s.integ.candidates, hard := s.integ.hard }
    vault := { s.vault with install := none, quote := none, apply := none }
    drone := { s.drone with tx := [], sentBeacons := 0 }
    col := { Collim.reset with
      recs := s.col.recs.filter fun e => decide (e.1 = 16 ∨ e.1 = 17)
      force := s.col.force.filter fun e => decide (e.1 = 16 ∨ e.1 = 17)
      waiting := s.col.waiting.filter fun x => decide (x.1 = ColWhen.scan)
      copies := s.col.copies
      scan := s.col.scan
      bad := s.col.bad
      tried := s.col.tried
      cals := s.col.cals
      buf := s.col.buf
      behind := s.col.behind }
    fresh := s.fresh
    hbmOut := s.hbmOut }.wrB Reg.XO_STAT_FAIL (s.on Reg.XO_STAT_FAIL)

/-- The thermal shed request shown again, and the union of the masks with it (R33, R486). -/
def Dev.keepTherm (was : Dev) (s : Dev) : Dev :=
  (s.wr Reg.REQ_THERM_STEP (was.rd Reg.REQ_THERM_STEP)).wr Reg.ACTIVE_STEP (was.rd Reg.REQ_THERM_STEP)

/-! ## The power state (R476) -/

/-- PLL_STAT as the power state leaves it: the Finder's PLL alone in FINDER_ONLY and THERM_OFF, that of PCIe too in SLEEP and HALTED, all
otherwise (Table 17.2, Table 17.10). -/
def pllsOf (st : Nat) : Nat :=
  if st = pwrFinderOnly ∨ st = pwrThermOff then 0x100
  else if st = pwrSleep ∨ st = pwrHalted then 0x140
  else 0x1FF

/-- PWR_STAT.STATE set, with E-00.00 where it changes (R476), and the PLLs that run in it; where the hub stands still, the digital Drone paths are inactive (R312). -/
def Dev.powerGo (st : Nat) (s : Dev) : Dev :=
  let d := if st = pwrStarting ∨ st = pwrRun then s else s.abandonDigital
  ((d.wr Reg.PWR_STAT_STATE st).wr ⟨Reg.PLL_STAT_HUB.cell, 0, 9⟩ (pllsOf st)).raiseIf (decide (s.pwr ≠ st)) 0 0

/-- HALTED entered with a cause (R475, R480). -/
def Dev.halt (cause : Nat) (s : Dev) : Dev :=
  let starting := s.pwr = pwrStarting
  let s := (s.wr Reg.PWR_STAT_CAUSE cause).wr Reg.PWR_STAT_STEP 0
  let s := { s with power := { s.power with sleepDue := false } }
  (s.powerGo pwrHalted).raiseIf (decide starting) 0 2

/-- The life-cycle state whose fuses are burned in force (R515, R516). -/
def Dev.lcShow (s : Dev) : Dev :=
  let s := { s with vault := { s.vault with state := s.vault.burned } }
  ((s.wr Reg.LC_STAT_STATE s.vault.burned).wr Reg.LC_STAT_PENDING 0).wr Reg.LC_STAT_PEND_TARGET 0

/-- STARTING entered: the life-cycle state burned is in force, step 2 begins, and the start consumes the shutdown record (R479, R515). -/
def Dev.startUp (s : Dev) : Dev :=
  let s := s.lcShow
  let s := (s.wr Reg.CHAIN_STAT_HEAD (s.rd Reg.STRAPS_CHAIN_HEAD)).wr Reg.POS_POS 0
  let p := s.power
  let s := { s with
    dieLost := 0
    power := { p with released := false, startAt := s.clock, record := none, consumed := p.record } }
  let s := ((s.wr Reg.FINDER_STAT_BIST_REC 0).wr Reg.PWR_STAT_CAUSE 0).wr Reg.PWR_STAT_QUICK 0
  (s.wr Reg.PWR_STAT_STEP 2).powerGo pwrStarting

/-- The start that a release of PERST_N asks for, once the device is FINDER_ONLY and the Finder has booted; a thermal shutdown that has been
decided goes before it (Table 17.3). Where images 0 and 1 have failed in both slots, it halts with CAUSE 1 (R521). -/
def Dev.tryStart (s : Dev) : Dev :=
  if s.pwr = pwrFinderOnly ∧ s.power.released ∧ ¬ s.on Reg.THERM_STAT_SHUTDOWN then
    if s.on Reg.FINDER_STAT_BOOTED then s.startUp
    else if s.power.bootFailed then s.startUp.halt 1
    else s
  else s

/-! ## Waking (R478) -/

/-- The pages that SLEEP does not gate: those that answer in it, and the Finder's (R477). -/
def sleepKeeps (page : Nat) : Bool :=
  decide (page < 0x020) || finderPage page

/-- A wake source acts: nothing outside SLEEP; else WAKE_CAUSE, E-02.00, the gated blocks at their reset values, and STARTING (R477, R478). -/
def Dev.wake (cause group engine : Nat) (s : Dev) : Dev :=
  if s.pwr = pwrSleep then
    let s := ((s.wr Reg.WAKE_CAUSE_SOURCE cause).wr Reg.WAKE_CAUSE_GROUP group).wr Reg.WAKE_CAUSE_ENGINE engine
    let s := s.raise 2 0
    let s' := s.keepTherm (s.hubCleared sleepKeeps)
    let s' := { s' with ev := { s.ev with wakeReq := none, capDue := none }, power := { s.power with afterSleep := true } }
    s'.startUp
  else s

/-- A wake by an event summary that rose with WAKE = 1 in SLEEP (Table 17.5). -/
def Dev.settleWake (s : Dev) : Dev :=
  match s.ev.wakeReq with
  | some g => if s.pwr = pwrSleep then s.wake 4 g 0 else s
  | none => s

/-- The straps' sampled values kept, and the values in force and FLEET_SETTLED at reset (R6, R507). -/
def Dev.unsettle (s : Dev) : Dev :=
  ((s.wr Reg.STRAPS_FLEET_SETTLED 0).wr Reg.STRAPS_MODE_OVERRIDDEN 0).wr Reg.STRAPS_FLEET_EFF (s.rd Reg.STRAPS_FLEET_MODE)

/-- FINDER_ONLY entered from PERST_N: everything but the Finder is at reset (R421, R476). -/
def Dev.resetNow (s : Dev) : Dev :=
  let s' := (s.keepTherm (s.hubCleared finderPage)).unsettle
  let s' := { s' with power := { s'.power with resetDue := false, sleepDue := false, afterSleep := false } }
  let s' := ((s'.wr Reg.PWR_STAT_STEP 0).wr Reg.PWR_STAT_CAUSE 0).wr Reg.POS_POS 0
  (s'.powerGo pwrFinderOnly).tryStart

/-- Engine `n` is in RAMP_UP, LIT or RAMP_DOWN. -/
def Dev.lightOn (s : Dev) (n : Nat) : Bool :=
  let st := s.rd (Reg.TX_STATE_STATE n)
  st = 2 ∨ st = 3 ∨ st = 4

/-- The reset that PERST_N asked for, once every engine that was in light at its assertion has ramped down (R63); a thermal shutdown goes before it
(Table 17.3). -/
def Dev.tryReset (s : Dev) : Dev :=
  let s := if s.power.resetDue then { s with power := { s.power with rampers := s.power.rampers.filter s.lightOn } } else s
  if s.power.resetDue ∧ ¬ s.on Reg.THERM_STAT_SHUTDOWN ∧ s.power.rampers = [] then s.resetNow else s

end Sys2Proof.Machine
end

