-- ==== Sys2Proof/Machine/Transmit.lean ====
section
/-!
DEFINITION. Line engine transmit (R38 to R69): modes and rates, the ramp, the state machine of Table 2.6, twin mode,
relighting commits, pre-distortion tables and clipping.
-/
namespace Sys2Proof.Machine

/-! ## Pages and engines -/

/-- Page +k of LINEn (R69). -/
abbrev linePage (n k : Nat) : Nat := 0x100 + 32 * n + k

/-- The transmit engine's hidden state. -/
def Dev.txe (s : Dev) (n : Nat) : TxEngine :=
  sget (dflt TxEngine.reset) s.tx n

/-- The state with a transmit engine's hidden state changed. -/
def Dev.setTxe (n : Nat) (x : TxEngine) (s : Dev) : Dev :=
  { s with tx := sset (dflt TxEngine.reset) s.tx n x }

/-- The front-end data of an engine. -/
def Dev.fee (s : Dev) (n : Nat) : FeEngine :=
  sget (dflt FeEngine.reset) s.fe n

/-- The state with an engine's front-end data changed. -/
def Dev.setFee (n : Nat) (x : FeEngine) (s : Dev) : Dev :=
  { s with fe := sset (dflt FeEngine.reset) s.fe n x }

/-- An event of engine `n`: source E-1n.b (R68). -/
def Dev.raiseLine (n b : Nat) (s : Dev) : Dev :=
  s.raise (10 + n) b

/-! ## Modes and rates (R38 to R42) -/

/-- 64·b for a constellation and an entropy: b line bits per dual-polarisation symbol (Table 2.2). -/
def lineBits64 (const entropy : Nat) : Nat :=
  match const with
  | 0 => 4 * 64
  | 1 => 8 * 64
  | _ => entropy

/-- The gross bit rate of N slots as a fraction: G = N·25.6·65/64·1,153/1,000·32/31 Gb/s, in bit/s over `grossDen` (R39). -/
def grossNum (slots : Nat) : Nat := slots * 25600000000 * 65 * 1153 * 32
abbrev grossDen : Nat := 64 * 1000 * 31

/-- The symbol rate Rs = G / b in kBd, rounded to the nearest (R42). -/
def symrateKbd (const slots entropy : Nat) : Nat :=
  let den := grossDen * lineBits64 const entropy * 1000
  (2 * grossNum slots * 64 + den) / (2 * den)

/-- Net payload P in 0.1 Gb/s (R39, R42). -/
def netRate (slots : Nat) : Nat := slots * 256

/-- The conditions of R41 on a mode: N slots, DAC rate in 0.5 GS/s, roll-off in 1/100. -/
def modeOk (const slots entropy fs rolloff : Nat) : Bool :=
  let rsNum := grossNum slots * 64
  let rsDen := grossDen * lineBits64 const entropy
  decide (const ≤ 2) && decide (1 ≤ slots) && decide (slots ≤ 64) && decide (320 ≤ fs) && decide (fs ≤ 640) &&
  decide (60000000000 * rsDen ≤ rsNum) && decide (rsNum ≤ 240000000000 * rsDen) &&
  decide (fs * 500000000 * rsDen * 100 ≥ rsNum * (105 + rolloff)) &&
  (decide (const ≠ 2) || (decide (320 ≤ entropy) && decide (entropy ≤ 704)))

/-! ## Twin mode (R65 to R67) -/

/-- Whether the pair of engine `n` is in twin mode. -/
def Dev.txTwin (s : Dev) (n : Nat) : Bool :=
  s.on (Reg.TX_CTRL_TWIN (2 * (n / 2)))

/-- The engine whose ENABLE, mode and ramp times drive engine `n`: the even one in twin mode (R65, R67). -/
def Dev.txLead (s : Dev) (n : Nat) : Nat :=
  if s.txTwin n then 2 * (n / 2) else n

/-- The engines that pass through one state machine with engine `n` (R67). -/
def Dev.txMembers (s : Dev) (n : Nat) : List Nat :=
  if s.txTwin n then [2 * (n / 2), 2 * (n / 2) + 1] else [n]

/-- The mode in force of an engine: constellation, slots and entropy. -/
def Dev.txMode (s : Dev) (n : Nat) : Nat × Nat × Nat :=
  let l := s.txLead n
  (s.rd (Reg.TX_MODE_CONST l), s.rd (Reg.TX_MODE_SLOTS_M1 l) + 1, s.rd (Reg.TX_MODE_ENTROPY l))

/-- The rate registers showing the mode in force (R42). -/
def Dev.showRate (n : Nat) (s : Dev) : Dev :=
  let m := s.txMode n
  (s.wr (Reg.TX_RATE_STAT_SYMRATE n) (symrateKbd m.1 m.2.1 m.2.2)).wr (Reg.TX_NET_STAT_NET n) (netRate m.2.1)

/-! ## The ramp (R57 to R59) -/

/-- π in units of 2^-80. -/
def piFix : Nat := 3797952473636338580787994

/-- Terms of the cosine series from the k-th on, on a square argument, all in units of 2^-80. -/
def cosTerms : Nat → Nat → Int → Int → Int
  | 0, _, _, acc => acc
  | n + 1, k, x2, acc => cosTerms n (k - 2) x2 (2 ^ 80 - x2 * acc / (2 ^ 80 * ((k : Int) * (k - 1))))

/-- cos(π·num/den) in units of 2^-80, for a fraction between 0 and 1. -/
def cosPi (num den : Nat) : Int :=
  let x : Int := (piFix * num / den : Nat)
  cosTerms 22 44 (x * x / 2 ^ 80) (2 ^ 80)

/-- The power fraction p = (1 − cos(π·num/den)) / 2 as p × 65,535, rounded to the nearest (R57). -/
def levelAt (num den : Nat) : Nat :=
  (roundDiv ((2 ^ 80 - cosPi num den) * 65535) (2 ^ 81)).toNat

/-- The fraction of its curve that a ramp has reached at a clock. -/
def Ramp.at (r : Ramp) (clock : Nat) : Nat × Nat :=
  let t := r.timeMs * 1000000
  let el := clock - r.since
  let den := r.den * t
  if t = 0 then (if r.up then (1, 1) else (0, 1))
  else if r.up then (min den (r.num * t + el * r.den), den)
  else (r.num * t - el * r.den, den)

/-- The codes of TX_STATE.STATE (Table 2.5). -/
abbrev txDark : Nat := 0
abbrev txPrep : Nat := 1
abbrev txRampUp : Nat := 2
abbrev txLit : Nat := 3
abbrev txRampDown : Nat := 4
abbrev txMuted : Nat := 5

/-- TX_STATE.STATE. -/
def Dev.txs (s : Dev) (n : Nat) : Nat :=
  s.rd (Reg.TX_STATE_STATE n)

/-- The fraction of the power curve an engine stands at. -/
def Dev.txPhase (s : Dev) (n : Nat) : Nat × Nat :=
  if s.txs n = txLit then (1, 1)
  else if s.txs n = txRampUp ∨ s.txs n = txRampDown then (s.txe n).ramp.at s.clock
  else (0, 1)

/-- TX_STATE.LEVEL as a read returns it (R57). -/
def Dev.txLevel (s : Dev) (n : Nat) : Nat :=
  let p := s.txPhase n
  levelAt p.1 p.2

/-- TX_RAMP_STAT.REMAIN_MS as a read returns it: the time to the end of the ramp, rounded up. -/
def Dev.txRemain (s : Dev) (n : Nat) : Nat :=
  let p := s.txPhase n
  let t := (s.txe n).ramp.timeMs
  if s.txs n = txRampUp then ceilDiv (t * (p.2 - p.1)) p.2
  else if s.txs n = txRampDown then ceilDiv (t * p.1) p.2
  else 0

/-- Whether an engine sends light under its digital ramp. -/
def Dev.txRamping (s : Dev) (n : Nat) : Bool :=
  s.txs n = txRampUp ∨ s.txs n = txLit ∨ s.txs n = txRampDown

/-- A ramp of a duration and direction started from the current p on its own curve (R59). -/
def Dev.startRamp (n timeMs : Nat) (up : Bool) (s : Dev) : Dev :=
  let p := s.txPhase n
  s.setTxe n { s.txe n with ramp := ⟨timeMs, up, s.clock, p.1, p.2⟩ }

/-! ## Dev transitions (Table 2.6) -/

/-- Engine `n` is the odd engine of a twin pair: it sends the even engine's bursts, and its own beacons and SEND are inactive (R311). -/
def Dev.droneFollows (s : Dev) (n : Nat) : Bool :=
  s.txTwin n && decide (n % 2 = 1)

/-- The burst of engine `n` off the air. -/
def Dev.droneEnd (n : Nat) (s : Dev) : Dev :=
  let s := (s.setDtx n { s.dtx n with sending := none, symbols := [], chips := [] }).wr (Reg.TX_DRONE_INS_ACTIVE n) 0
  if s.txTwin n then s.wr (Reg.TX_DRONE_INS_ACTIVE (2 * (n / 2) + 1)) 0 else s

/-- The burst of engine `n` cut off, counted in TX_CUT with E-08.10 (R309). On the odd engine of a twin pair, which inserts the even engine's burst, its own insertion alone is cut
(DEDUCED, log 160). -/
def Dev.cutBurst (n : Nat) (s : Dev) : Dev :=
  match (s.dtx n).sending with
  | none =>
    if s.droneFollows n ∧ s.on (Reg.TX_DRONE_INS_ACTIVE n) then ((s.wr (Reg.TX_DRONE_INS_ACTIVE n) 0).bump Reg.TX_CUT.run).raise 8 10 else s
  | some (beacon, _) =>
    let s := (s.droneEnd n).bump Reg.TX_CUT.run
    let s := if beacon then s else (s.wr (Reg.DR_TX_STAT_BUSY n) 0).wr (Reg.DR_TX_STAT_STATUS n) 1
    s.raise 8 10

/-- TX_STATE.STATE set, E-1n.00 raised when it changes (Table 2.8); DARK and MUTED cut a Drone burst at once (R309). -/
def Dev.txGo (n st : Nat) (s : Dev) : Dev :=
  let d := (s.wr (Reg.TX_STATE_STATE n) st).raiseIf (decide (s.txs n ≠ st)) (10 + n) 0
  if st = txDark ∨ st = txMuted then d.cutBurst n else d

/-- A TX_FAULT bit set, and ENABLE cleared: the engine's, and in twin mode the even engine's (R61). -/
def Dev.txFault (n bit : Nat) (s : Dev) : Dev :=
  let s := s.wr ⟨(Reg.TX_FAULT_PLL_UNLOCK n).cell, bit, 1⟩ 1
  (s.wr (Reg.TX_CTRL_ENABLE n) 0).wr (Reg.TX_CTRL_ENABLE (s.txLead n)) 0

/-- Whether a TX_FAULT bit is set on an engine of the pair's state machine (R60, R61, R67). -/
def Dev.txFaulty (s : Dev) (n : Nat) : Bool :=
  (s.txMembers n).any fun m => getBits (s.word (Reg.TX_FAULT_PLL_UNLOCK m).cell) 0 8 ≠ 0

/-- A front-end read started for a requester, or joined while one runs (R531). -/
def Dev.feStart (n : Nat) (prep rx host : Bool) (s : Dev) : Dev :=
  let f := s.fee n
  s.setFee n { f with
    busy := true
    forPrep := f.forPrep || prep
    forRx := f.forRx || rx
    forHost := f.forHost || host }

/-- A signed 16-bit number of the front-end data at a byte (Table 19.5). -/
def feSigned (b : List Byte) (off : Nat) : Int :=
  signed 16 (fieldLE b off 2)

/-- A lane's total skew in 0.05 ps: what the front-end data stores, where it is valid, and the user trim (R50, R52, R53). -/
def Dev.totalSkew (s : Dev) (n k : Nat) : Int :=
  (if s.on (Reg.TX_PD_STAT_FE_VALID n) then feSigned (s.fee n).cache (336 + 2 * k) else 0) + s.rdS (Reg.TX_SKEW_TRIM n k)

/-- The lanes' fractional delays, each the total skew clamped to ±50 ps, and TX_PD_STAT.SKEW_CLAMP (R49, R51). -/
def Dev.settleTxSkew (n : Nat) (s : Dev) : Dev :=
  let s := s.setTxe n { s.txe n with delays := (List.range 4).map fun k => max (-1000) (min 1000 (s.totalSkew n k)) }
  s.wrB (Reg.TX_PD_STAT_SKEW_CLAMP n) ((List.range 4).any fun k => decide (1000 < (s.totalSkew n k).natAbs))

/-- A coefficient that the front-end data determines in a way the specification does not state: a free value of 18 bits (R50, log 3). -/
def pdFree (data : List Byte) (i : Nat) : Int :=
  signed 18 (Config.freeOf 109 (i :: data.map (·.toNat)))

/-- 64 taps with a boost of at most 12 dB at any frequency (R49): the sum of their magnitudes, which bounds the response at every frequency, is kept to
10^(12/20) × 65,536 (DESIGN CHOICE, log 157). -/
def boostLimited (taps : List Int) : List Int :=
  let total := (taps.map Int.natAbs).sum
  if total ≤ 260903 then taps else taps.map fun (t : Int) => Int.tdiv (t * 260903) total

/-- The coefficients derived from front-end data, by index of Table 2.4 (R50); none given, a flat linear filter and no nonlinear part (R52; the flat
filter's tap is a DESIGN CHOICE, log 157). -/
def derivedPd (data : Option (List Byte)) : List (Nat × Nat) :=
  let vals : List (Nat × Int) := match data with
    | none => (List.range 4).map fun k => (64 * k, 65536)
    | some b =>
      (List.range 4).flatMap (fun k => (List.range 64).zip (boostLimited ((List.range 64).map fun t => pdFree b (64 * k + t))) |>.map
        fun (x : Nat × Int) => (64 * k + x.1, x.2)) ++ (List.range 40).map fun i => (256 + i, pdFree b (256 + i))
  vals.foldl (fun (m : List (Nat × Nat)) (x : Nat × Int) => sset (dflt 0) m x.1 (unsign 18 x.2)) []

/-- The coefficients loaded at the end of PREP with SRC = 0 (R50, R52). -/
def Dev.derivePd (n : Nat) (s : Dev) : Dev :=
  if s.on (Reg.TX_PD_CTRL_SRC n) then s
  else s.setTxe n { s.txe n with derived := derivedPd (if s.on (Reg.TX_PD_STAT_FE_VALID n) then some (s.fee n).cache else none) }

/-- The coefficient in use at an index of Table 2.4: the host's active bank with SRC = 1, its linear taps within the boost limit (R49, R53; log 157), and the derived
one otherwise (R50). Where SRC is committed from 1 to 0 in light, that is what the last PREP with SRC = 0 derived, and 0 before one (DESIGN CHOICE, log 205). -/
def Dev.pdInUse (s : Dev) (n i : Nat) : Nat :=
  if s.on (Reg.TX_PD_CTRL_SRC n) then
    let b := (s.txe n).pdActive
    if i < 256 then unsign 18 ((boostLimited ((List.range 64).map fun t => signed 18 (sget (dflt 0) b (64 * (i / 64) + t)))).getD (i % 64) 0)
    else sget (dflt 0) b i
  else sget (dflt 0) (s.txe n).derived i

/-- TX_PD_STAT.LIN_ACTIVE and NL_ACTIVE by the enables in force (R52, R53, Table 2.14). -/
def Dev.showPd (n : Nat) (s : Dev) : Dev :=
  let ok := s.on (Reg.TX_PD_STAT_FE_VALID n) || s.on (Reg.TX_PD_CTRL_SRC n)
  (s.wr (Reg.TX_PD_STAT_LIN_ACTIVE n) (s.rd (Reg.TX_PD_CTRL_LIN_EN n))).wrB (Reg.TX_PD_STAT_NL_ACTIVE n) (s.on (Reg.TX_PD_CTRL_NL_EN n) && ok)

/-- What an entry to PREP does (R42, R46, R50, R69, R135, R428): the seeds load, the pilot grid and chord encoder restart,
the rate registers show the mode, and the front-end read starts. -/
def Dev.prepWork (n : Nat) (s : Dev) : Dev :=
  let e := s.txe n
  let s := s.setTxe n { e with
    ramp := ⟨0, false, s.clock, 0, 1⟩
    seedX := s.rd (Reg.TX_PILOT_SEED_SEED_X n)
    seedY := s.rd (Reg.TX_PILOT_SEED_SEED_Y n)
    restarts := e.restarts + 1
    chord := ChordTx.reset }
  ((s.showRate n).wr (Reg.TX_STATE_FAST n) 0).feStart n true false false

/-- Entry to PREP. -/
def Dev.enterPrep (n : Nat) (s : Dev) : Dev :=
  ((s.txGo n txPrep).sysLeave n true).prepWork n

/-- Whether an engine in DARK leaves it for PREP: ENABLE, no fault, the DAC calibration valid, its die in service, its
BIST blocks usable, and no relighting commit waiting, on every engine of its state machine (Table 2.6, R13, R364, R67, Table 18.3). -/
def Dev.mayPrep (s : Dev) (n : Nat) : Bool :=
  s.on (Reg.TX_CTRL_ENABLE (s.txLead n)) && !s.txFaulty n &&
  (s.txMembers n).all fun m =>
    s.txs m = txDark && s.lineOn m && s.on (Reg.LCAL_STAT_DAC_VALID m) && !s.dieLost.getLsbD (m / 2) &&
    !s.on (Reg.TX_STATE_RELIGHT m) && !s.blockOut m && !s.blockOut (24 + m)

/-- The engines of the state machine entering PREP where DARK may be left. -/
def Dev.tryPrep (n : Nat) (s : Dev) : Dev :=
  if s.mayPrep n then (s.txMembers n).foldl (fun s m => s.enterPrep m) s else s

/-- A normal or fast ramp-down started (R58). -/
def Dev.rampDown (n : Nat) (fast : Bool) (s : Dev) : Dev :=
  let l := s.txLead n
  let t := if fast then s.rd (Reg.TX_RAMP_FAST_MS l) else s.rd (Reg.TX_RAMP_TIME_MS l)
  ((s.startRamp n t false).wr (Reg.TX_STATE_FAST n) (ofBool fast)).txGo n txRampDown

/-- A fast ramp-down with its fault bit, E-1n.05 when it starts; a fast ramp under way goes on (Table 2.6). -/
def Dev.fastDown (n bit : Nat) (s : Dev) : Dev :=
  let s := s.txFault n bit
  if s.txs n = txRampDown ∧ s.on (Reg.TX_STATE_FAST n) then s
  else (s.rampDown n true).raiseLine n 5

/-! ### Relighting commits (R64, R428) -/

/-- The committed values of a page and boundary put in force and taken off the waiting list. -/
def Dev.applyLater (page : Nat) (b : Boundary) (s : Dev) : Dev :=
  s.putWaiting fun x => decide (x.page = page) && decide (x.bnd = b)

/-- Whether committed values of a page and boundary wait. -/
def Dev.hasLater (page : Nat) (b : Boundary) (s : Dev) : Bool :=
  s.later.any fun x => x.page = page ∧ x.bnd = b

/-- A change of TWIN put in force with both engines dark: when it ends, the odd engine's copies keep the even engine's
values, in force and in shadow (R64, R65). -/
def Dev.applyTwin (k : Nat) (s : Dev) : Dev :=
  let e := 2 * k
  let was := s.txTwin e
  let s := s.applyLater (linePage e 0) .relight
  if was ∧ ¬ s.txTwin e then
    let copy (a b : Field) (s : Dev) : Dev := (s.setWord b.cell (s.word a.cell)).setShadow b.cell (s.word a.cell)
    let s := copy (Reg.TX_MODE_CONST e) (Reg.TX_MODE_CONST (e + 1)) s
    let s := copy (Reg.TX_CLK_FS e) (Reg.TX_CLK_FS (e + 1)) s
    let s := copy (Reg.TX_SHAPE_ROLLOFF e) (Reg.TX_SHAPE_ROLLOFF (e + 1)) s
    let s := s.setWord (Reg.TX_RAMP_TIME_MS (e + 1)).cell (s.word (Reg.TX_RAMP_TIME_MS e).cell)
    s.wr (Reg.TX_CTRL_ENABLE (e + 1)) (s.rd (Reg.TX_CTRL_ENABLE e))
  else s

/-- The rate registers of an engine that shows a mode brought up to date (R42). -/
def Dev.reshowRate (n : Nat) (s : Dev) : Dev :=
  if s.rd (Reg.TX_RATE_STAT_SYMRATE n) = 0 then s else s.showRate n

/-- A mode has come into force on the pair of engine `n`: the rates shown, and the members at columns that no longer exist (R42, R164). -/
def Dev.modeInForce (n : Nat) (s : Dev) : Dev :=
  ((s.reshowRate (2 * (n / 2))).reshowRate (2 * (n / 2) + 1)).markAbsent

/-- The relighting values of engine `n` put in force once it is dark; a change of TWIN, and any change in twin mode, once both
engines of the pair are (R64). -/
def Dev.applyRelight (n : Nat) (s : Dev) : Dev :=
  let k := n / 2
  let bothDark := s.txs (2 * k) = txDark ∧ s.txs (2 * k + 1) = txDark
  let pairWide := s.txTwin n || s.hasLater (linePage (2 * k) 0) .relight
  if pairWide then
    if bothDark then
      let s := s.applyTwin k
      let s := (s.applyLater (linePage (2 * k) 1) .relight).applyLater (linePage (2 * k + 1) 1) .relight
      ((s.wr (Reg.TX_STATE_RELIGHT (2 * k)) 0).wr (Reg.TX_STATE_RELIGHT (2 * k + 1)) 0).modeInForce n
    else s
  else if s.hasLater (linePage n 1) .relight then
    ((s.applyLater (linePage n 1) .relight).wr (Reg.TX_STATE_RELIGHT n) 0).modeInForce n
  else s.wr (Reg.TX_STATE_RELIGHT n) 0

/-- The entry to DARK: the internal fault of MUTED ends (R62), what waited for it is applied, and the engines of the pair whose conditions hold enter PREP
(Table 2.6, R64). -/
def Dev.toDark (n : Nat) (s : Dev) : Dev :=
  let s := ((s.txGo n txDark).wr (Reg.TX_STATE_FAST n) 0).setTxe n { s.txe n with ramp := ⟨0, false, s.clock, 0, 1⟩ }
  let s := s.settleCourses.applyRelight n
  ((s.tryPrep (2 * (n / 2))).tryPrep (2 * (n / 2) + 1)).settlePending n

/-- A fault of one engine alone takes its twin partner out of light (R67). -/
def Dev.partnerFault (n : Nat) (s : Dev) : Dev :=
  if s.txTwin n then
    let m := if n % 2 = 0 then n + 1 else n - 1
    if s.txRamping m then (s.fastDown m 5).raiseLine m 7
    else if s.txs m = txPrep then (((s.txFault m 5).raiseLine m 1).raiseLine m 7).toDark m
    else s
  else s

/-- PREP ended in DARK by a fault with its bit and E-1n.01 (Table 2.6). -/
def Dev.prepFail (n bit : Nat) (s : Dev) : Dev :=
  ((s.txFault n bit).raiseLine n 1).toDark n

/-- PREP ended where REQUIRE_FE = 1 and the front-end read has ended without valid data (R52, Table 2.6). -/
def Dev.prepNeedsFe (n : Nat) (s : Dev) : Dev :=
  if s.on (Reg.TX_PD_CTRL_REQUIRE_FE n) ∧ s.txs n = txPrep ∧ ¬ (s.fee n).forPrep ∧ ¬ s.on (Reg.TX_PD_STAT_FE_VALID n) then
    (s.prepFail n 1).partnerFault n
  else s

/-- A cause that acts on an engine whatever its twin: a fast ramp-down in light, PREP ended, nothing in DARK (Table 2.6,
R67). -/
def Dev.txCause (n bit : Nat) (s : Dev) : Dev :=
  if s.txRamping n then s.fastDown n bit
  else if s.txs n = txPrep then s.prepFail n bit
  else s

/-- MUTED entered with a fault bit and E-1n.04, an internal fault for the engine's courses (R62, R475). -/
def Dev.mute (n bit : Nat) (s : Dev) : Dev :=
  ((((s.txFault n bit).txGo n txMuted).wr (Reg.TX_STATE_FAST n) 0).raiseLine n 4).settleCourses

/-- A rail fault of line die k: its engines mute under the analog fade, those in PREP end in DARK, and the die is lost (R475). -/
def Dev.dieRailFault (k : Nat) (s : Dev) : Dev :=
  let one (s : Dev) (n : Nat) : Dev :=
    if s.txRamping n then s.mute n 6 else if s.txs n = txPrep then s.prepFail n 6 else s
  let s := { s with dieLost := s.dieLost ||| (1 <<< k) }
  one (one s (2 * k)) (2 * k + 1)

/-- Line die k lost with its rails and clocks working: a fast ramp-down with DIE_LOST (R484). -/
def Dev.dieSensorsLost (k : Nat) (s : Dev) : Dev :=
  let s := { s with dieLost := s.dieLost ||| (1 <<< k) }
  (s.txCause (2 * k) 7).txCause (2 * k + 1) 7

/-- What an accepted relighting commit of engine `n` does beside queueing its values (R64): a normal ramp-down with RELIGHT, or
a restart of PREP with the new settings. Where the change concerns the pair and its engines are in unlike states, one in PREP with its partner in light goes
dark and waits for it, and one that is dark waits too; a MUTED engine waits for its entry to DARK (DEDUCED, log 158). -/
def Dev.relight (n : Nat) (s : Dev) : Dev :=
  let k := n / 2
  let pairWide := s.txTwin n || s.hasLater (linePage (2 * k) 0) .relight
  let ms := if pairWide then [2 * k, 2 * k + 1] else [n]
  if ms.all fun m => s.txs m = txDark then
    let s := s.applyRelight n
    (s.tryPrep (2 * k)).tryPrep (2 * k + 1)
  else if ms.all fun m => s.txs m = txDark ∨ s.txs m = txPrep then
    let prepping := ms.filter fun m => s.txs m = txPrep
    let s := prepping.foldl (fun s m => s.wr (Reg.TX_STATE_STATE m) txDark) s
    let s := s.applyRelight n
    let s := (s.tryPrep (2 * k)).tryPrep (2 * k + 1)
    prepping.foldl (fun s m => s.raiseIf (decide (s.txs m = txDark)) (10 + m) 0) s
  else
    ms.foldl (fun s m =>
      let s := s.wr (Reg.TX_STATE_RELIGHT m) 1
      if s.txs m = txPrep then s.toDark m
      else if s.txs m = txRampUp ∨ s.txs m = txLit then s.rampDown m false
      else s) s

/-! ## Commands -/

/-- TX_ENABLE_WRITE (R19, R60, R61, R65): ENABLE = 1 written to engine `n`; a line transmit queue that stands still runs again. -/
def Dev.txEnable (n : Nat) (s : Dev) : Dev :=
  let pg := linePage n 0
  if n % 2 = 1 ∧ s.txTwin n then s.viol pg
  else if s.txFaulty n then s.viol pg
  else
    let s := s.wr (Reg.TX_CTRL_ENABLE n) 1
    let s := ({ s with xqStopped := s.xqStopped.filter fun q => !((s.txMembers n).map (8 + ·)).contains q } : Dev).settleCourses
    if s.txs n = txDark then s.tryPrep n
    else
      (s.txMembers n).foldl (fun s m =>
        if s.txs m = txRampDown ∧ ¬ s.on (Reg.TX_STATE_FAST m) ∧ ¬ s.on (Reg.TX_STATE_RELIGHT m) then
          (s.startRamp m (s.rd (Reg.TX_RAMP_TIME_MS (s.txLead m))) true).txGo m txRampUp
        else s) s

def execTxEnableWrite (n : Fin 8) (s : State) : Out :=
  s.run fun s => s.onHeldWrite (linePage n 0) 0x040 (.txEnable n) (Dev.txEnable n)

/-- TX_DISABLE_WRITE (R60, R65): ENABLE = 0 written to engine `n`; PREP ends in DARK, light ramps down normally. -/
def Dev.txDisable (n : Nat) (s : Dev) : Dev :=
  if n % 2 = 1 ∧ s.txTwin n then s.viol (linePage n 0)
  else
    let s := s.wr (Reg.TX_CTRL_ENABLE n) 0
    (s.txMembers n).foldl (fun s m =>
      if s.txs m = txPrep then s.toDark m
      else if s.txs m = txRampUp ∨ s.txs m = txLit then s.rampDown m false
      else s) s

def execTxDisableWrite (n : Fin 8) (s : State) : Out :=
  s.run fun s => s.onHeldWrite (linePage n 0) 0x040 (.txDisable n) (Dev.txDisable n)

/-- TX_FAULT_CLEAR (R61): a W1C write of TX_FAULT; THERM_SHUTDOWN, RAIL_FAULT and DIE_LOST stay (Table 2.10). Reserved bits
written count once (R10). DARK is left where its condition has become true (Table 2.6). -/
def Dev.txFaultClear (n : Nat) (v : Word) (s : Dev) : Dev :=
  let c := (Reg.TX_FAULT_PLL_UNLOCK n).cell
  let s := s.setWord c (s.word c &&& ~~~ (v &&& 0x37))
  (if getBits v 8 24 ≠ 0 then s.viol (linePage n 0) else s).tryPrep n

def execTxFaultClear (n : Fin 8) (v : Word) (s : State) : Out :=
  s.run fun s => s.onHeldWrite (linePage n 0) 0x048 (.txFaultClear n v) (Dev.txFaultClear n v)

/-- PREP_COMPLETE (R60): the transmit PLL is locked, the coefficients are loaded and the pipeline is full: PREP to RAMP_UP on
every engine of the state machine. Before the front-end read has ended it cannot happen. While PERST_N is asserted, RAMP_UP is left at once by a fast ramp-down
(Table 2.6). -/
def Dev.prepDone (n : Nat) (s : Dev) : Dev :=
  let ms := s.txMembers n
  if ms.all fun m => s.txs m = txPrep && !(s.fee m).forPrep then
    let s := ms.foldl (fun s m =>
      let s := (s.derivePd m).showPd m
      (s.startRamp m (s.rd (Reg.TX_RAMP_TIME_MS (s.txLead m))) true).txGo m txRampUp) s
    if s.power.resetDue then ms.foldl (fun s m => s.fastDown m 4) s else s
  else s

def execPrepComplete (n : Fin 8) (s : State) : Out :=
  s.run fun s => s.prepDone n

/-- PREP_TIMEOUT (R60, R67): 50 ms in PREP end it in DARK on every engine of the state machine. -/
def execPrepTimeout (n : Fin 8) (s : State) : Out :=
  s.run fun s => (s.txMembers n).foldl (fun s m => if s.txs m = txPrep then s.prepFail m 2 else s) s

/-- TX_PLL_UNLOCK (R62, R67): MUTED under the analog fade, or PREP ended in DARK with E-1n.04, and the twin partner out of
light. -/
def Dev.txPllUnlock (n : Nat) (s : Dev) : Dev :=
  if s.txRamping n then (s.mute n 0).partnerFault n
  else if s.txs n = txPrep then ((s.raiseLine n 4).prepFail n 0).partnerFault n
  else s

def execTxPllUnlock (n : Fin 8) (s : State) : Out :=
  s.run fun s => s.txPllUnlock n

/-- MUTE_FADE_COMPLETE (R62): MUTED to DARK. -/
def execMuteFadeComplete (n : Fin 8) (s : State) : Out :=
  s.run fun s => if s.txs n = txMuted then (s.toDark n).tryReset else s

/-- RAMP_UP_COMPLETE (R57): p reaches 1 and the engines of the state machine become LIT. -/
def execRampUpComplete (n : Fin 8) (s : State) : Out :=
  s.run fun s => (s.txMembers n).foldl (fun s m => if s.txs m = txRampUp then s.txGo m txLit else s) s

/-- RAMP_DOWN_COMPLETE (R60, R64): p reaches 0 and the engines of the state machine go dark, or to PREP with new settings. -/
def execRampDownComplete (n : Fin 8) (s : State) : Out :=
  s.run fun s => ((s.txMembers n).foldl (fun s m => if s.txs m = txRampDown then s.toDark m else s) s).tryReset

/-- CLIP_WINDOW_END (R56): `clipped` samples clipped in the 1 ms window. -/
def execClipWindowEnd (n : Fin 8) (clipped : Nat) (s : State) : Out :=
  s.run fun s => (s.bumpBy (Reg.TX_CLIP_CNT n) clipped).raiseIf
    (decide (clipped > s.rd (Reg.TX_CLIP_THR_THRESHOLD n))) (10 + n) 3

/-- A write of TX_CLIP_THR: CLEAR sets TX_CLIP_CNT to 0 (R56). -/
def Dev.txClipThr (n : Nat) (v : Word) (s : Dev) : Dev :=
  s.hostWrite (linePage n 5) 0x048 0x80000000 v fun s => if v.getLsbD 31 then s.wr (Reg.TX_CLIP_CNT n) 0 else s

/-- TX_CLIP_CLEAR (R56): a write of TX_CLIP_THR with CLEAR = 1; the same write sets the threshold. -/
def execTxClipClear (n : Fin 8) (threshold : BitVec 16) (s : State) : Out :=
  s.run (Dev.txClipThr n (BitVec.ofNat 32 threshold.toNat ||| 0x80000000#32))

/-- TX_PD_DATA_WRITE (R53, R562): a coefficient stored in the shadow bank at INDEX, which advances; reserved indices are
counted (Table 2.4), and so are reserved bits (R10). -/
def Dev.pdWrite (n : Nat) (v : Word) (s : Dev) : Dev :=
  let i := s.rd (Reg.TX_PD_ADDR_INDEX n)
  let pg := linePage n 4
  let e := s.txe n
  let s :=
    if i < 296 then
      let s := s.setTxe n { e with pdShadow := sset (dflt 0) e.pdShadow i (getBits v 0 18) }
      if getBits v 18 14 ≠ 0 then s.viol pg else s
    else s.viol pg
  s.wr (Reg.TX_PD_ADDR_INDEX n) (i + 1)

def execTxPdDataWrite (n : Fin 8) (v : Word) (s : State) : Out :=
  s.run fun s => s.onHeldWrite (linePage n 4) 0x05C (.word (linePage n 4) 0x05C v) (Dev.pdWrite n v)

/-! ## The page rules (R41, R47, R53, R69) -/

/-- The mode a commit would put in force is acceptable under R41, for engine `n` and the sources of its mode and its
roll-off; in twin mode the odd engine follows the even one. -/
def modeCheck (const slotsM1 entropy fs rolloff : Nat) : Bool :=
  modeOk const (slotsM1 + 1) entropy fs rolloff

/-- The ramp times taken as the nearest limit, counted where they were out of range (R58). -/
def Dev.txRampWrite (n : Nat) (v : Word) (s : Dev) : Dev :=
  let t := getBits v 0 13
  let f := getBits v 16 7
  let t' := max 1 (min 4096 t)
  let f' := max 1 (min 100 f)
  let s := (s.wr (Reg.TX_RAMP_TIME_MS n) t').wr (Reg.TX_RAMP_FAST_MS n) f'
  if t ≠ t' ∨ f ≠ f' ∨ v &&& 0xFF80E000 ≠ 0 then s.viol (linePage n 2) else s

end Sys2Proof.Machine
end

