-- ==== Sys2Proof/Machine/Align.lean ====
section
/-!
DEFINITION. The two alignments behind a receive engine: the states of the line frame's (R182 to R184) and the chord code's (R149 to R153), the iteration limit
(R145) and the snapshots of the chord counters (R154).
-/
namespace Sys2Proof.Machine

/-! ## Frame alignment (Table 6.3) -/

/-- The codes of Table 6.2. -/
abbrev frIdle : Nat := 0
abbrev frSearch : Nat := 1
abbrev frConfirm : Nat := 2
abbrev frAmbiguous : Nat := 3
abbrev frAligned : Nat := 4
abbrev frOof : Nat := 5

/-- FR_STAT.STATE. -/
def Dev.frs (s : Dev) (n : Nat) : Nat :=
  s.rd (Reg.FR_STAT_STATE n)

/-- The tracked candidates set, and FR_STAT.CAND with them. -/
def Dev.setCands (n : Nat) (cs : List Candidate) (s : Dev) : Dev :=
  (s.setFra n { s.fra n with cands := cs }).wr (Reg.FR_STAT_CAND n) cs.length

/-- FR_STAT.STATE set: SF follows, and E-18.(n) where ALIGNED is entered or left (R183, Table 6.7); receive corrections that
wait for a frame's start act at once outside ALIGNED (Table 13.6). -/
def Dev.frGo (n st : Nat) (s : Dev) : Dev :=
  let was := s.frs n
  let s := (s.wr (Reg.FR_STAT_STATE n) st).wrB (Reg.FR_STAT_SF n) (st ≠ frAligned)
  let s := s.raiseIf (decide ((was = frAligned) ≠ (st = frAligned))) 18 n
  let s := if st = frAligned then s else s.colApply (.frame n)
  s.setFra n { s.fra n with misses := 0, oofGood := 0 }

/-- The frame aligner to IDLE (Table 6.3, first row). -/
def Dev.frToIdle (n : Nat) (s : Dev) : Dev :=
  if s.frs n = frIdle then s else (s.setCands n []).frGo n frIdle

/-- The frame aligner to SEARCH with its candidates cleared. -/
def Dev.frToSearch (n : Nat) (s : Dev) : Dev :=
  (s.setCands n []).frGo n frSearch

/-- The decoder starts to deliver (R182). -/
def Dev.frDelivering (n : Nat) (s : Dev) : Dev :=
  if s.frs n = frIdle then
    (s.setFra n { s.fra n with since := s.clock }).frToSearch n
  else s

/-- ALIGNED entered, with the place of the next frame and the count expected in it; FR_ALIGN_TIME is written where the state comes from CONFIRM (Table 6.3). -/
def Dev.frAlign (n pos mfas : Nat) (timed : Bool) (s : Dev) : Dev :=
  let s := s.setCands n []
  let s := s.setFra n { s.fra n with pos := pos, mfas := mfas % 256 }
  let s := if timed then s.wr (Reg.FR_ALIGN_TIME_LAST_US n) (min 65535 ((s.clock - (s.fra n).since) / 1000)) else s
  (s.frGo n frAligned).settleCourses

/-- LOF declared or cleared (R184). -/
def Dev.setLof (n : Nat) (v : Bool) (s : Dev) : Dev :=
  if s.on (Reg.FR_STAT_LOF n) = v then s else (s.wrB (Reg.FR_STAT_LOF n) v).raise 18 n

/-! ## Chord alignment (Table 5.5) -/

/-- The codes of Table 5.4. -/
abbrev alIdle : Nat := 0
abbrev alDm : Nat := 1
abbrev alCw : Nat := 2
abbrev alSc : Nat := 3
abbrev alAligned : Nat := 4
abbrev alRetry : Nat := 5

/-- ALIGN_STAT.STATE. -/
def Dev.als (s : Dev) (n : Nat) : Nat :=
  s.rd (Reg.ALIGN_STAT_STATE n)

/-- The code of LOCKED in ACQ_STAT.STATE (Table 4.4). -/
abbrev acqLocked : Nat := 9

/-- Whether an engine is LOCKED and its receive path works; that of a lost line die does not until the next start-up (R13, R475, R484). -/
def Dev.rxLocked (s : Dev) (n : Nat) : Bool :=
  decide (s.rd (Reg.ACQ_STAT_STATE n) = acqLocked) && !(s.rxe n).fault && !s.dieLost.getLsbD (n / 2)

/-- The condition for IDLE of Table 5.4: the engine, or in twin mode either engine, is not LOCKED. -/
def Dev.alMustIdle (s : Dev) (n : Nat) : Bool :=
  if s.rxTwin n then !(s.rxLocked (2 * (n / 2)) && s.rxLocked (2 * (n / 2) + 1)) else !s.rxLocked n

/-- The chord aligner's state set: E-1n.30 where ALIGNED is entered or left (Table 5.6); the frame aligner stops and starts with the
decoder's output (R149, R182). -/
def Dev.alGo (n st : Nat) (s : Dev) : Dev :=
  let was := s.als n
  let s := (s.wr (Reg.ALIGN_STAT_STATE n) st).raiseIf (decide ((was = alAligned) ≠ (st = alAligned))) (10 + n) 30
  let s := if st = alCw then s.wr (Reg.ALIGN_STAT_TWIN_SKEW n) 0 else s
  if st = alAligned then s.frDelivering n else s.frToIdle n

/-- The search started from its first state (R152). -/
def Dev.alSearch (n : Nat) (s : Dev) : Dev :=
  s.alGo n (if s.rd (Reg.RX_MODE_CONST (s.rxLead n)) = 2 then alDm else alCw)

/-- The decoder's state cleared, as the search starts from IDLE (Table 5.5); the phases of the last ALIGNED state stay (R151). -/
def Dev.chordClear (n : Nat) (s : Dev) : Dev :=
  let x := s.rxe n
  s.setRxe n { x with verdict := 0, chord := { ChordRx.reset with kept := x.chord.kept, keptWords := x.chord.keptWords } }

/-- The chord aligner after a change of LOCKED: IDLE where it must be, the search where the condition for IDLE has ended
(R150, R152). -/
def Dev.alFollow (n : Nat) (s : Dev) : Dev :=
  if s.alMustIdle n then (if s.als n = alIdle then s.frToIdle n else s.alGo n alIdle)
  else if s.als n = alIdle then (s.chordClear n).alSearch n
  else s

/-- The chord aligners of the engines that depend on engine `n`'s LOCKED, and the courses behind them. -/
def Dev.alFollowPair (n : Nat) (s : Dev) : Dev :=
  (if s.rxTwin n then (s.alFollow (2 * (n / 2))).alFollow (2 * (n / 2) + 1) else s.alFollow n).settleCourses

/-- RETRY_WAIT entered with a cause (R153); its event and that of a departure from ALIGNED are one pulse. -/
def Dev.alFail (n cause : Nat) (s : Dev) : Dev :=
  let s := (s.wr (Reg.ALIGN_STAT_LAST_FAIL n) cause).bump (Reg.ALIGN_FAIL_CNT n)
  let s := if s.als n = alAligned then s.alGo n alRetry else (s.alGo n alRetry).raise (10 + n) 30
  s.settleCourses

/-- What is left of a phase, the distance to the next boundary, after `n` units. -/
def phaseAfter (p n period : Nat) : Nat :=
  (p % period + period - n % period) % period

/-- The phases of the last ALIGNED state, advanced by the codewords taken in it and by the symbols counted in HOLD (R151): 31 of 32 symbols carry data, and the staircase
stream has 17,000 of every 18,448 line bits (DEDUCED, log 174). None where LOCKED was not regained from FAST_REACQ. -/
def Dev.carriedPhases (s : Dev) (n : Nat) : Option (Nat × Nat × Nat) :=
  let x := s.rxe n
  let l := s.rxLead n
  let per64 := lineBits64 (s.rd (Reg.RX_MODE_CONST l)) (s.rd (Reg.RX_MODE_ENTROPY l))
  let bits := x.chord.keptWords * 18448 + x.heldSymbols * 31 * per64 / (32 * 64)
  if x.fromFast then
    x.chord.kept.map fun p => (phaseAfter p.1 (bits * 64 / per64) 128, phaseAfter p.2.1 bits 73792, phaseAfter p.2.2 (bits * 17000 / 18448) 139876)
  else none

/-- ALIGNED entered at a staircase phase: a block opens at the next block boundary, the phase's bits ahead (DEDUCED, log 174), and the phases are kept (R151). -/
def Dev.chordOpen (n : Nat) (s : Dev) : Dev :=
  let x := s.rxe n
  s.setRxe n { x with chord := { ChordRx.reset with skip := x.chord.phases.2.2, phases := x.chord.phases, kept := some x.chord.phases, keptWords := 0 } }

/-- A phase confirmed (Table 5.5): one that the search has found, or none where it is the one carried forward (R151). -/
def Dev.alConfirm (n : Nat) (phase : Option Nat) (s : Dev) : Dev :=
  let c := s.carriedPhases n
  let x := s.rxe n
  let p := x.chord.phases
  let take (p : Nat × Nat × Nat) : Dev := s.setRxe n { x with chord := { x.chord with phases := p } }
  if s.als n = alDm then
    match phase <|> c.map (·.1) with
    | some v => (take (v % 128, p.2)).alGo n alCw
    | none => s
  else if s.als n = alCw then
    match phase <|> c.map (·.2.1) with
    | some v => (take (p.1, v % 73792, p.2.2)).alGo n alSc
    | none => s
  else if s.als n = alSc then
    match phase <|> c.map (·.2.2) with
    | some v =>
      (((take (p.1, p.2.1, v % 139876)).chordOpen n).wr (Reg.ALIGN_TIME_LAST_US n)
        (min 65535 ((s.clock - (s.rxe n).lockedAt) / 1000))).alGo n alAligned
    | none => s
  else s

/-- A search at its limit, or a twin walk-off beyond ±1 µs in CW_SEARCH (Table 5.5). -/
def Dev.alLimit (n : Nat) (walkOff : Bool) (s : Dev) : Dev :=
  if s.als n = alCw ∧ walkOff ∧ s.rxTwin n then (s.alFail n 4).wr (Reg.ALIGN_STAT_TWIN_SKEW n) 1
  else if s.als n = alDm then s.alFail n 1
  else if s.als n = alCw then s.alFail n 2
  else if s.als n = alSc then s.alFail n 3
  else s

/-! ## The iteration limit (R145) -/

/-- Shed step k is active (Table 1.13). -/
def Dev.shedActive (s : Dev) (k : Nat) : Bool :=
  bitAt (s.rd Reg.ACTIVE_STEP) (k - 1)

/-- FEC_ITER_STAT.CAPPED brought up to date. -/
def Dev.showCapped (n : Nat) (s : Dev) : Dev :=
  s.wrB (Reg.FEC_ITER_STAT_CAPPED n) (s.rd (Reg.FEC_ITER_STAT_ITER_EFF n) < s.rd (Reg.FEC_CTRL_ITER_MAX n))

/-- The limit that ITER_EFF moves to next (R145). -/
def Dev.nextIter (s : Dev) (n : Nat) : Nat :=
  let eff := s.rd (Reg.FEC_ITER_STAT_ITER_EFF n)
  let mx := s.rd (Reg.FEC_CTRL_ITER_MAX n)
  let fl := s.rd (Reg.FEC_CTRL_ITER_FLOOR n)
  if eff > mx then mx
  else if eff < fl then fl
  else if s.shedActive 3 then max fl (eff - 2)
  else min mx (eff + 2)

/-- One move of ITER_EFF at a codeword boundary, with E-1n.28 where it changes (R145). -/
def Dev.iterStep (n : Nat) (s : Dev) : Dev :=
  let v := s.nextIter n
  let changed := decide (v ≠ s.rd (Reg.FEC_ITER_STAT_ITER_EFF n))
  (((s.wr (Reg.FEC_ITER_STAT_ITER_EFF n) v).showCapped n).raiseIf changed (10 + n) 28)

/-! ## Counters (R154) -/

/-- A 64-bit running counter raised. -/
def Dev.bumpRun64 (lo : Field) (a : Nat) (s : Dev) : Dev :=
  s.bump64 lo.run a

/-- A running counter raised, saturating. -/
def Dev.bumpRun (f : Field) (a : Nat) (s : Dev) : Dev :=
  s.bumpBy f.run a

/-- The counters of page +0x1A, lowest word of each. -/
def fecCounterCells (n : Nat) : List Nat :=
  [(Reg.CORR_BITS_LO n).cell, (Reg.CORR_BITS_LO n).cell + 1, (Reg.CW_TOTAL_LO n).cell, (Reg.CW_TOTAL_LO n).cell + 1,
   (Reg.CW_EXCLUDED n).cell, (Reg.BLK_FAILED n).cell, (Reg.CW_CAPPED n).cell]

/-- The offset from a snapshot register's cell to that of its running counter. -/
abbrev runOffset : Nat := 0x400000

/-- A snapshot of a list of registers: TAKE copies the running counters, CLEAR zeroes them after it (R154, R562). -/
def Dev.snapshot (cells : List Nat) (take clear : Bool) (s : Dev) : Dev :=
  let s := if take then cells.foldl (fun s c => s.setWord c (s.word (c + runOffset))) s else s
  if clear then cells.foldl (fun s c => s.setWord (c + runOffset) 0) s else s

/-! ## Commands -/

/-- ITER_EFF_STEP (R145). -/
def execIterEffStep (n : Fin 8) (s : State) : Out :=
  s.run fun s => s.iterStep n

/-- ALIGN_PHASE_CONFIRMED (R151, R152). -/
def execAlignPhaseConfirmed (f : PhaseFound) (s : State) : Out :=
  s.run fun s => s.alConfirm f.engine f.phase

/-- ALIGN_SEARCH_LIMIT (R152, R153): the limit of the running search, or the twin walk-off. -/
def execAlignSearchLimit (n : Fin 8) (walkOff : Bool) (s : State) : Out :=
  s.run fun s => s.alLimit n walkOff

/-- At least 0.48 of the checks of the last 256 codewords were unsatisfied at the decoder's input (Table 5.5). -/
def Dev.checksLost (s : Dev) (n : Nat) : Bool :=
  let u := (s.rxe n).chord.unsat
  decide (256 ≤ u.length) && decide (48 * (256 * 1448) ≤ 100 * (u.take 256).sum)

/-- ALIGN_LOSS (R152): cause 5, where the checks say so. -/
def execAlignLoss (n : Fin 8) (s : State) : Out :=
  s.run fun s => if s.als n = alAligned ∧ s.checksLost n then s.alFail n 5 else s

/-- ALIGN_RETRY_EXPIRED (R152). -/
def execAlignRetryExpired (n : Fin 8) (s : State) : Out :=
  s.run fun s => if s.als n = alRetry then s.alSearch n else s

/-- A write of ALIGN_TIME: CLEAR zeroes ALIGN_FAIL_CNT (Table 5.8). -/
def Dev.alignTime (n : Nat) (v : Word) (s : Dev) : Dev :=
  s.hostWrite (linePage n 0x19) 0x048 0x80000000#32 v fun s => if v.getLsbD 31 then s.wr (Reg.ALIGN_FAIL_CNT n) 0 else s

/-- ALIGN_FAIL_CLEAR. -/
def execAlignFailClear (n : Fin 8) (s : State) : Out :=
  s.run (Dev.alignTime n 0x80000000#32)

/-- A write of FEC_SNAP (R154, R562). -/
def Dev.fecSnap (n : Nat) (v : Word) (s : Dev) : Dev :=
  s.hostWrite (linePage n 0x1A) 0x040 3#32 v (Dev.snapshot (fecCounterCells n) (v.getLsbD 0) (v.getLsbD 1))

/-- FEC_SNAP_TAKE: FEC_SNAP.TAKE written 1, with CLEAR as given (R154). -/
def execFecSnapTake (n : Fin 8) (clear : Bool) (s : State) : Out :=
  s.run (Dev.fecSnap n (if clear then 3#32 else 1#32))

/-- FEC_SNAP_CLEAR: FEC_SNAP.CLEAR written 1 without TAKE (R154). -/
def execFecSnapClear (n : Fin 8) (s : State) : Out :=
  s.run (Dev.fecSnap n 2#32)

/-- LOF_DECLARE (R184): OOF has lasted 3 ms. -/
def execLofDeclare (n : Fin 8) (s : State) : Out :=
  s.run fun s => if s.frs n = frOof then s.setLof n true else s

/-- LOF_CLEAR (R184): ALIGNED has lasted 3 ms. -/
def execLofClear (n : Fin 8) (s : State) : Out :=
  s.run fun s => if s.frs n = frAligned then s.setLof n false else s

end Sys2Proof.Machine
end

