-- ==== Sys2Proof/Machine/Crypto.lean ====
section
/-!
DEFINITION. The algorithms the specification names: SHA-512 (FIPS 180-4), AES-256 (FIPS 197) with GCM (SP 800-38D), CTR (SP
800-38A) and CMAC (SP 800-38B), Ed25519 (RFC 8032), and the CRCs. Their constants and steps are those of the standards the
specification cites (PRESUMED, log 4).
-/
namespace Sys2Proof.Machine

/-! ## SHA-512 -/

/-- The 64-bit round constants of SHA-512. -/
def shaK : List (BitVec 64) :=
  [0x428a2f98d728ae22#64, 0x7137449123ef65cd#64, 0xb5c0fbcfec4d3b2f#64, 0xe9b5dba58189dbbc#64,
   0x3956c25bf348b538#64, 0x59f111f1b605d019#64, 0x923f82a4af194f9b#64, 0xab1c5ed5da6d8118#64,
   0xd807aa98a3030242#64, 0x12835b0145706fbe#64, 0x243185be4ee4b28c#64, 0x550c7dc3d5ffb4e2#64,
   0x72be5d74f27b896f#64, 0x80deb1fe3b1696b1#64, 0x9bdc06a725c71235#64, 0xc19bf174cf692694#64,
   0xe49b69c19ef14ad2#64, 0xefbe4786384f25e3#64, 0x0fc19dc68b8cd5b5#64, 0x240ca1cc77ac9c65#64,
   0x2de92c6f592b0275#64, 0x4a7484aa6ea6e483#64, 0x5cb0a9dcbd41fbd4#64, 0x76f988da831153b5#64,
   0x983e5152ee66dfab#64, 0xa831c66d2db43210#64, 0xb00327c898fb213f#64, 0xbf597fc7beef0ee4#64,
   0xc6e00bf33da88fc2#64, 0xd5a79147930aa725#64, 0x06ca6351e003826f#64, 0x142929670a0e6e70#64,
   0x27b70a8546d22ffc#64, 0x2e1b21385c26c926#64, 0x4d2c6dfc5ac42aed#64, 0x53380d139d95b3df#64,
   0x650a73548baf63de#64, 0x766a0abb3c77b2a8#64, 0x81c2c92e47edaee6#64, 0x92722c851482353b#64] ++
  [0xa2bfe8a14cf10364#64, 0xa81a664bbc423001#64, 0xc24b8b70d0f89791#64, 0xc76c51a30654be30#64,
   0xd192e819d6ef5218#64, 0xd69906245565a910#64, 0xf40e35855771202a#64, 0x106aa07032bbd1b8#64,
   0x19a4c116b8d2d0c8#64, 0x1e376c085141ab53#64, 0x2748774cdf8eeb99#64, 0x34b0bcb5e19b48a8#64,
   0x391c0cb3c5c95a63#64, 0x4ed8aa4ae3418acb#64, 0x5b9cca4f7763e373#64, 0x682e6ff3d6b2b8a3#64,
   0x748f82ee5defb2fc#64, 0x78a5636f43172f60#64, 0x84c87814a1f0ab72#64, 0x8cc702081a6439ec#64,
   0x90befffa23631e28#64, 0xa4506cebde82bde9#64, 0xbef9a3f7b2c67915#64, 0xc67178f2e372532b#64,
   0xca273eceea26619c#64, 0xd186b8c721c0c207#64, 0xeada7dd6cde0eb1e#64, 0xf57d4f7fee6ed178#64,
   0x06f067aa72176fba#64, 0x0a637dc5a2c898a6#64, 0x113f9804bef90dae#64, 0x1b710b35131c471b#64,
   0x28db77f523047d84#64, 0x32caab7b40c72493#64, 0x3c9ebe0a15c9bebc#64, 0x431d67c49c100d4c#64,
   0x4cc5d4becb3e42b6#64, 0x597f299cfc657e2a#64, 0x5fcb6fab3ad6faec#64, 0x6c44198c4a475817#64]

/-- The initial hash value of SHA-512. -/
def shaInit : List (BitVec 64) :=
  [0x6a09e667f3bcc908#64, 0xbb67ae8584caa73b#64, 0x3c6ef372fe94f82b#64, 0xa54ff53a5f1d36f1#64,
   0x510e527fade682d1#64, 0x9b05688c2b3e6c1f#64, 0x1f83d9abfb41bd6b#64, 0x5be0cd19137e2179#64]

/-- The message padded to whole 128-byte blocks, its bit length at the end. -/
def shaPad (m : List Byte) : List Byte :=
  let z := (111 + 128 - m.length % 128) % 128
  m ++ (0x80#8 :: List.replicate z 0) ++ bytesBE 16 (8 * m.length)

/-- The 16 message words of a block. -/
def shaWords : Nat → List Byte → List (BitVec 64)
  | 0, _ => []
  | n + 1, bs => BitVec.ofNat 64 (ofBytesBE (bs.take 8)) :: shaWords n (bs.drop 8)

/-- The message schedule: the last 16 words, newest first, extended `n` times. -/
def shaSchedule : Nat → List (BitVec 64) → List (BitVec 64)
  | 0, w => w
  | n + 1, w =>
    let x (i : Nat) : BitVec 64 := (w[i]?).getD 0
    let a := x 14
    let b := x 1
    let s0 := a.rotateRight 1 ^^^ a.rotateRight 8 ^^^ (a >>> 7)
    let s1 := b.rotateRight 19 ^^^ b.rotateRight 61 ^^^ (b >>> 6)
    shaSchedule n ((x 15 + s0 + x 6 + s1) :: w)

/-- One round of SHA-512 on the eight working words. -/
def shaRound (h : List (BitVec 64)) (kw : BitVec 64 × BitVec 64) : List (BitVec 64) :=
  match h with
  | [a, b, c, d, e, f, g, hh] =>
    let s1 := e.rotateRight 14 ^^^ e.rotateRight 18 ^^^ e.rotateRight 41
    let ch := (e &&& f) ^^^ (~~~e &&& g)
    let t1 := hh + s1 + ch + kw.1 + kw.2
    let s0 := a.rotateRight 28 ^^^ a.rotateRight 34 ^^^ a.rotateRight 39
    let mj := (a &&& b) ^^^ (a &&& c) ^^^ (b &&& c)
    [t1 + s0 + mj, a, b, c, d + t1, e, f, g]
  | _ => h

/-- The compression of `n` blocks. -/
def shaBlocks : Nat → List Byte → List (BitVec 64) → List (BitVec 64)
  | 0, _, h => h
  | n + 1, bs, h =>
    let w := (shaSchedule 64 (shaWords 16 (bs.take 128)).reverse).reverse
    let h' := (shaK.zip w).foldl shaRound h
    shaBlocks n (bs.drop 128) ((h.zip h').map fun p => p.1 + p.2)

/-- SHA-512 of a message: 64 bytes. -/
def sha512 (m : List Byte) : List Byte :=
  let p := shaPad m
  (shaBlocks (p.length / 128) p shaInit).flatMap fun w => bytesBE 8 w.toNat

/-! ## AES-256 -/

/-- The substitution box. -/
def aesSbox : List Byte :=
  [0x63, 0x7c, 0x77, 0x7b, 0xf2, 0x6b, 0x6f, 0xc5, 0x30, 0x01, 0x67, 0x2b, 0xfe, 0xd7, 0xab, 0x76,
   0xca, 0x82, 0xc9, 0x7d, 0xfa, 0x59, 0x47, 0xf0, 0xad, 0xd4, 0xa2, 0xaf, 0x9c, 0xa4, 0x72, 0xc0,
   0xb7, 0xfd, 0x93, 0x26, 0x36, 0x3f, 0xf7, 0xcc, 0x34, 0xa5, 0xe5, 0xf1, 0x71, 0xd8, 0x31, 0x15,
   0x04, 0xc7, 0x23, 0xc3, 0x18, 0x96, 0x05, 0x9a, 0x07, 0x12, 0x80, 0xe2, 0xeb, 0x27, 0xb2, 0x75] ++
  [0x09, 0x83, 0x2c, 0x1a, 0x1b, 0x6e, 0x5a, 0xa0, 0x52, 0x3b, 0xd6, 0xb3, 0x29, 0xe3, 0x2f, 0x84,
   0x53, 0xd1, 0x00, 0xed, 0x20, 0xfc, 0xb1, 0x5b, 0x6a, 0xcb, 0xbe, 0x39, 0x4a, 0x4c, 0x58, 0xcf,
   0xd0, 0xef, 0xaa, 0xfb, 0x43, 0x4d, 0x33, 0x85, 0x45, 0xf9, 0x02, 0x7f, 0x50, 0x3c, 0x9f, 0xa8,
   0x51, 0xa3, 0x40, 0x8f, 0x92, 0x9d, 0x38, 0xf5, 0xbc, 0xb6, 0xda, 0x21, 0x10, 0xff, 0xf3, 0xd2] ++
  [0xcd, 0x0c, 0x13, 0xec, 0x5f, 0x97, 0x44, 0x17, 0xc4, 0xa7, 0x7e, 0x3d, 0x64, 0x5d, 0x19, 0x73,
   0x60, 0x81, 0x4f, 0xdc, 0x22, 0x2a, 0x90, 0x88, 0x46, 0xee, 0xb8, 0x14, 0xde, 0x5e, 0x0b, 0xdb,
   0xe0, 0x32, 0x3a, 0x0a, 0x49, 0x06, 0x24, 0x5c, 0xc2, 0xd3, 0xac, 0x62, 0x91, 0x95, 0xe4, 0x79,
   0xe7, 0xc8, 0x37, 0x6d, 0x8d, 0xd5, 0x4e, 0xa9, 0x6c, 0x56, 0xf4, 0xea, 0x65, 0x7a, 0xae, 0x08] ++
  [0xba, 0x78, 0x25, 0x2e, 0x1c, 0xa6, 0xb4, 0xc6, 0xe8, 0xdd, 0x74, 0x1f, 0x4b, 0xbd, 0x8b, 0x8a,
   0x70, 0x3e, 0xb5, 0x66, 0x48, 0x03, 0xf6, 0x0e, 0x61, 0x35, 0x57, 0xb9, 0x86, 0xc1, 0x1d, 0x9e,
   0xe1, 0xf8, 0x98, 0x11, 0x69, 0xd9, 0x8e, 0x94, 0x9b, 0x1e, 0x87, 0xe9, 0xce, 0x55, 0x28, 0xdf,
   0x8c, 0xa1, 0x89, 0x0d, 0xbf, 0xe6, 0x42, 0x68, 0x41, 0x99, 0x2d, 0x0f, 0xb0, 0x54, 0xbb, 0x16]

/-- Substitution of a byte. -/
def aesSub (b : Byte) : Byte := (aesSbox[b.toNat]?).getD 0

/-- Multiplication by x in the AES field. -/
def aesX (b : Byte) : Byte :=
  (b <<< 1) ^^^ (if b.msb then 0x1b else 0)

/-- Bytewise exclusive or. -/
def xorBytes (a b : List Byte) : List Byte :=
  (a.zip b).map fun p => p.1 ^^^ p.2

/-- The key schedule: words newest first, `n` more to make, `i` the number of the next. -/
def aesExpand : Nat → Nat → Byte → List (List Byte) → List (List Byte)
  | 0, _, _, ws => ws
  | n + 1, i, rc, ws =>
    let prev := (ws[0]?).getD []
    let old := (ws[7]?).getD []
    if i % 8 = 0 then
      let r := (prev.drop 1 ++ prev.take 1).map aesSub
      aesExpand n (i + 1) (aesX rc) (xorBytes old (xorBytes r [rc, 0, 0, 0]) :: ws)
    else if i % 8 = 4 then aesExpand n (i + 1) rc (xorBytes old (prev.map aesSub) :: ws)
    else aesExpand n (i + 1) rc (xorBytes old prev :: ws)

/-- A list of bytes cut into `n` pieces of `k`. -/
def chunks (k : Nat) : Nat → List Byte → List (List Byte)
  | 0, _ => []
  | n + 1, bs => bs.take k :: chunks k n (bs.drop k)

/-- The fifteen round keys of a 32-byte key. -/
def aesRoundKeys (key : List Byte) : List (List Byte) :=
  chunks 16 15 (aesExpand 52 8 1 (chunks 4 8 key).reverse).reverse.flatten

/-- ShiftRows on a block in column order. -/
def aesShift (st : List Byte) : List Byte :=
  (List.range 16).map fun i => (st[(i + 4 * (i % 4)) % 16]?).getD 0

/-- MixColumns on one column. -/
def aesMixColumn (c : List Byte) : List Byte :=
  match c with
  | [a, b, d, e] =>
    [aesX a ^^^ (aesX b ^^^ b) ^^^ d ^^^ e, a ^^^ aesX b ^^^ (aesX d ^^^ d) ^^^ e,
     a ^^^ b ^^^ aesX d ^^^ (aesX e ^^^ e), (aesX a ^^^ a) ^^^ b ^^^ d ^^^ aesX e]
  | _ => c

/-- The rounds after the first key addition; the last has no MixColumns. -/
def aesRounds : List (List Byte) → List Byte → List Byte
  | [], st => st
  | [k], st => xorBytes (aesShift (st.map aesSub)) k
  | k :: ks, st => aesRounds ks (xorBytes ((chunks 4 4 (aesShift (st.map aesSub))).flatMap aesMixColumn) k)

/-- AES-256 of one block of 16 bytes under a key of 32. -/
def aes256 (key block : List Byte) : List Byte :=
  match aesRoundKeys key with
  | [] => block
  | k :: ks => aesRounds ks (xorBytes block k)

/-! ## GCM, CTR and CMAC -/

/-- The counter block of a 12-byte IV and a block count. -/
def ctrBlock (iv : List Byte) (count : Nat) : List Byte :=
  sliceBytes iv 0 12 ++ bytesBE 4 (count % 2 ^ 32)

/-- `n` blocks of key stream from a block count. -/
def ctrStream (key iv : List Byte) : Nat → Nat → List Byte
  | 0, _ => []
  | n + 1, c => aes256 key (ctrBlock iv c) ++ ctrStream key iv n (c + 1)

/-- Counter-mode encryption, which is also decryption, from a block count. -/
def aesCtr (key iv : List Byte) (count : Nat) (p : List Byte) : List Byte :=
  xorBytes p (ctrStream key iv (ceilDiv p.length 16) count)

/-- One step of multiplication in the GCM field, on 128-bit numbers whose most significant bit is coefficient 0. -/
def ghashStep (x : BitVec 128) (zv : BitVec 128 × BitVec 128) (i : Nat) : BitVec 128 × BitVec 128 :=
  let z := if x.getMsbD i then zv.1 ^^^ zv.2 else zv.1
  let v := if zv.2.getLsbD 0 then (zv.2 >>> 1) ^^^ (0xe1#128 <<< 120) else zv.2 >>> 1
  (z, v)

/-- Multiplication in the GCM field. -/
def ghashMul (x y : BitVec 128) : BitVec 128 :=
  ((List.range 128).foldl (ghashStep x) (0, y)).1

/-- GHASH over `n` blocks. -/
def ghashBlocks (h : BitVec 128) : Nat → List Byte → BitVec 128 → BitVec 128
  | 0, _, y => y
  | n + 1, bs, y => ghashBlocks h n (bs.drop 16) (ghashMul (y ^^^ BitVec.ofNat 128 (ofBytesBE (sliceBytes bs 0 16))) h)

/-- The bytes padded with zeros to whole blocks of 16. -/
def padBlocks (bs : List Byte) : List Byte :=
  bs ++ List.replicate ((16 - bs.length % 16) % 16) 0

/-- The 128-bit GCM tag of a ciphertext and its additional data. -/
def gcmTag (key iv aad c : List Byte) : List Byte :=
  let h := BitVec.ofNat 128 (ofBytesBE (aes256 key (List.replicate 16 0)))
  let body := padBlocks aad ++ padBlocks c ++ bytesBE 8 (8 * aad.length) ++ bytesBE 8 (8 * c.length)
  xorBytes (bytesBE 16 (ghashBlocks h (body.length / 16) body 0).toNat) (aes256 key (ctrBlock iv 1))

/-- GCM encryption: the ciphertext and the tag. -/
def gcmEncrypt (key iv aad p : List Byte) : List Byte × List Byte :=
  let c := aesCtr key iv 2 p
  (c, gcmTag key iv aad c)

/-- Doubling in the CMAC field. -/
def cmacDouble (b : List Byte) : List Byte :=
  let v := BitVec.ofNat 128 (ofBytesBE b)
  bytesBE 16 ((v <<< 1) ^^^ (if v.msb then 0x87 else 0)).toNat

/-- The chaining of CMAC over whole blocks. -/
def cmacChain (key : List Byte) : Nat → List Byte → List Byte → List Byte
  | 0, _, x => x
  | n + 1, bs, x => cmacChain key n (bs.drop 16) (aes256 key (xorBytes x (bs.take 16)))

/-- The 128-bit CMAC of a message. -/
def aesCmac (key m : List Byte) : List Byte :=
  let k1 := cmacDouble (aes256 key (List.replicate 16 0))
  let n := max 1 (ceilDiv m.length 16)
  let last := m.drop (16 * (n - 1))
  let final :=
    if last.length = 16 then xorBytes last k1
    else xorBytes (sliceBytes (last ++ [0x80#8]) 0 16) (cmacDouble k1)
  cmacChain key n (m.take (16 * (n - 1)) ++ final) (List.replicate 16 0)

/-- The key check value: the first three bytes of AES-256 of the zero block, byte 0 most significant (R285). -/
def keyCheckValue (key : List Byte) : Nat :=
  ofBytesBE ((aes256 key (List.replicate 16 0)).take 3)

/-! ## CRCs -/

/-- One bit of a CRC taken most significant bit first. -/
def crcBitMsb (width poly crc : Nat) (bit : Bool) : Nat :=
  let top := bitAt crc (width - 1) != bit
  let sh := (2 * crc) % 2 ^ width
  if top then sh ^^^ poly else sh

/-- A CRC over bytes, each most significant bit first. -/
def crcMsb (width poly : Nat) (bs : List Byte) (init : Nat) : Nat :=
  bs.foldl (fun c b => (List.range 8).foldl (fun c i => crcBitMsb width poly c (b.getMsbD i)) c) init

/-- CRC-16 of polynomial x^16 + x^12 + x^5 + 1. -/
def crc16 (init : Nat) (bs : List Byte) : Nat :=
  crcMsb 16 0x1021 bs init

/-- One bit of a CRC taken least significant bit first, with the reflected polynomial. -/
def crcBitLsb (poly crc : Nat) (bit : Bool) : Nat :=
  if bitAt crc 0 != bit then (crc / 2) ^^^ poly else crc / 2

/-- A CRC over bytes, each least significant bit first. -/
def crcLsb (poly : Nat) (bs : List Byte) (init : Nat) : Nat :=
  bs.foldl (fun c b => (List.range 8).foldl (fun c i => crcBitLsb poly c (b.getLsbD i)) c) init

/-- CRC-32 of IEEE 802.3. -/
def crc32 (bs : List Byte) : Nat :=
  crcLsb 0xEDB88320 bs 0xFFFFFFFF ^^^ 0xFFFFFFFF

/-- CRC-32C with a given initial value. -/
def crc32c (init : Nat) (bs : List Byte) : Nat :=
  crcLsb 0x82F63B78 bs init ^^^ 0xFFFFFFFF

/-! ## Ed25519 -/

/-- The field's prime. -/
def edP : Nat := 2 ^ 255 - 19

/-- The order of the base point. -/
def edL : Nat := 2 ^ 252 + 27742317777372353535851937790883648493

/-- Modular power by repeated squaring, `n` bits of exponent. -/
def powMod (m : Nat) : Nat → Nat → Nat → Nat
  | 0, _, _ => 1 % m
  | n + 1, b, e =>
    let r := powMod m n (b * b % m) (e / 2)
    if e % 2 = 1 then r * b % m else r

/-- The inverse modulo the prime. -/
def edInv (a : Nat) : Nat := powMod edP 255 a (edP - 2)

/-- The curve constant d. -/
def edD : Nat := (edP - 121665) * edInv 121666 % edP

/-- A point in extended coordinates (X, Y, Z, T). -/
structure EdPoint where
  x : Nat
  y : Nat
  z : Nat
  t : Nat
  deriving DecidableEq, Repr

/-- Point addition. -/
def edAdd (p q : EdPoint) : EdPoint :=
  let a := (p.y + edP - p.x) * (q.y + edP - q.x) % edP
  let b := (p.y + p.x) * (q.y + q.x) % edP
  let c := p.t * 2 * edD * q.t % edP
  let d := p.z * 2 * q.z % edP
  let e := b + edP - a
  let f := d + edP - c
  let g := d + c
  let h := b + a
  ⟨e * f % edP, g * h % edP, f * g % edP, e * h % edP⟩

/-- Scalar multiplication, `n` bits of scalar. -/
def edMul : Nat → Nat → EdPoint → EdPoint
  | 0, _, _ => ⟨0, 1, 1, 0⟩
  | n + 1, k, p =>
    let r := edMul n (k / 2) (edAdd p p)
    if k % 2 = 1 then edAdd r p else r

/-- Whether two points are the same. -/
def edEq (p q : EdPoint) : Bool :=
  (p.x * q.z) % edP = (q.x * p.z) % edP ∧ (p.y * q.z) % edP = (q.y * p.z) % edP

/-- The x coordinate of a y coordinate with a given low bit, where there is one. -/
def edRecoverX (y sign : Nat) : Option Nat :=
  if y ≥ edP then none
  else
    let x2 := (y * y + edP - 1) * edInv (edD * y * y + 1) % edP
    if x2 = 0 then (if sign = 1 then none else some 0)
    else
      let x := powMod edP 255 x2 ((edP + 3) / 8)
      let x := if (x * x + edP - x2) % edP = 0 then x else x * powMod edP 255 2 ((edP - 1) / 4) % edP
      if (x * x + edP - x2) % edP ≠ 0 then none
      else if x % 2 = sign then some x else some (edP - x)

/-- The base point. -/
def edBase : EdPoint :=
  let y := 4 * edInv 5 % edP
  let x := (edRecoverX y 0).getD 0
  ⟨x, y, 1, x * y % edP⟩

/-- The 32 bytes of a point. -/
def edEncode (p : EdPoint) : List Byte :=
  let zi := edInv p.z
  let x := p.x * zi % edP
  let y := p.y * zi % edP
  bytesLE 32 (y + (x % 2) * 2 ^ 255)

/-- The point that 32 bytes spell, where they spell one. -/
def edDecode (bs : List Byte) : Option EdPoint :=
  let v := ofBytesLE bs
  let y := v % 2 ^ 255
  (edRecoverX y (v / 2 ^ 255)).map fun x => ⟨x, y, 1, x * y % edP⟩

/-- The secret scalar of a 32-byte seed. -/
def edScalar (seed : List Byte) : Nat :=
  let a := ofBytesLE ((sha512 seed).take 32)
  (a % 2 ^ 254 - a % 8) + 2 ^ 254

/-- The public key of a seed. -/
def edPublic (seed : List Byte) : List Byte :=
  edEncode (edMul 256 (edScalar seed) edBase)

/-- The 64-byte signature of a message under a seed. -/
def edSign (seed m : List Byte) : List Byte :=
  let a := edScalar seed
  let pub := edPublic seed
  let r := ofBytesLE (sha512 ((sha512 seed).drop 32 ++ m)) % edL
  let rb := edEncode (edMul 256 r edBase)
  let h := ofBytesLE (sha512 (rb ++ pub ++ m)) % edL
  rb ++ bytesLE 32 ((r + h * a) % edL)

/-- Whether a signature of a message verifies under a public key. -/
def edVerify (pub m sig : List Byte) : Bool :=
  let rb := sliceBytes sig 0 32
  let sc := fieldLE sig 32 32
  match edDecode pub, edDecode rb with
  | some a, some r =>
    let h := ofBytesLE (sha512 (rb ++ pub ++ m)) % edL
    decide (sc < edL) && edEq (edMul 256 sc edBase) (edAdd r (edMul 256 h a))
  | _, _ => false

end Sys2Proof.Machine
end

