-- ==== Sys2Proof/Machine/Capture.lean ====
section
/-!
DEFINITION. Raw-sample capture (R91 to R97): the region, arming, triggers, runs, records and their drain to HBM.
-/
namespace Sys2Proof.Machine

/-- An engine's capture state. -/
def Dev.cpe (s : Dev) (n : Nat) : CapEngine :=
  sget (dflt CapEngine.reset) s.cap n

/-- The device with an engine's capture state changed. -/
def Dev.setCpe (n : Nat) (x : CapEngine) (s : Dev) : Dev :=
  { s with cap := sset (dflt CapEngine.reset) s.cap n x }

/-- The page of the capture controller (Table 3.12). -/
abbrev capPage : Nat := 0x10F

/-- The region's size in 64-byte units (R91). -/
def Dev.capUnits (s : Dev) : Nat :=
  s.rd Reg.CAP_BUF_SIZE_GB * 1000000000 / 64

/-- BUSY brought up to date: a run or a drain is under way. -/
def Dev.showCapBusy (n : Nat) (s : Dev) : Dev :=
  s.wrB (Reg.RX_CAP_STAT_BUSY n) ((s.cpe n).run.isSome || (s.cpe n).drains ≠ [])

/-- An engine armed or disarmed: the ARM bit and ARMED (Table 3.11). -/
def Dev.setArmed (n : Nat) (v : Bool) (s : Dev) : Dev :=
  (s.wrB (Reg.RX_CAP_CTRL_ARM n) v).wrB (Reg.RX_CAP_STAT_ARMED n) v

/-- A missed or unwritten record (R94, R95). -/
def Dev.capMiss (n : Nat) (s : Dev) : Dev :=
  (s.bump (Reg.RX_CAP_STAT_MISSED n)).raise (10 + n) 15

/-! ## Record headers (Table 3.3) -/

/-- Bytes 0 to 59 of a record header. -/
def capHead (engine flags length : Nat) (r : CapRec) : List Byte :=
  bytesLE 4 0x4C434150 ++ bytesLE 1 engine ++ bytesLE 1 (ofBool r.decimated) ++ bytesLE 1 r.decim ++ bytesLE 1 flags ++
  bytesLE 4 r.seq ++ bytesLE 4 length ++ timeBytesLE r.first ++ bytesLE 4 r.fsMsps ++
  bytesLE 4 (unsign 32 r.cd) ++ bytesLE 2 r.trig ++ List.replicate 22 0

/-- The header of a record with its CRC-32 over bytes 0–59 and the samples (R96). -/
def capHeader (engine flags : Nat) (r : CapRec) : List Byte :=
  let h := capHead engine flags (r.samples.length / 4) r
  h ++ bytesLE 4 (crc32 (h ++ r.samples))

/-- A record as it stands in HBM: header, CRC-32 over bytes 0–59 and the samples, samples (R96). -/
def capBytes (engine flags : Nat) (r : CapRec) : List Byte :=
  capHeader engine flags r ++ r.samples

/-- The HBM address of a place in the region. -/
def capAddr (start : Nat) : Nat :=
  Config.captureBase + 64 * start

/-- A record stored at its place; a record marked POISONED has a word of marked data (R97, R494). -/
def Dev.storeCapture (engine flags : Nat) (r : CapRec) (s : Dev) : Dev :=
  s.storeMarked (capAddr r.start) (capHeader engine flags r) r.samples r.samples.length (bitAt flags 1)

/-- The pad header written where a record would pass the end of the region (R95); its fields but LENGTH and FLAGS are those of the record that
follows (DESIGN CHOICE, log 165). -/
def padBytes (engine : Nat) (r : CapRec) : List Byte :=
  let h := capHead engine 0x20 0 { r with samples := [] }
  h ++ bytesLE 4 (crc32 h)

/-! ## Placing records (R95) -/

/-- Two stretches of the region meet. -/
def overlaps (a la b lb : Nat) : Bool :=
  decide (a < b + lb) && decide (b < a + la)

/-- Room for a record of `count` sample instants given its place, with the pad before it where it would pass the end; none where it may not be written.
Under WRAP all of the stretch that the pad closes counts as overwritten (DESIGN CHOICE, log 206).
A record that ends at the region's end leaves CAP_WR_PTR at 0 (DESIGN CHOICE, log 164). -/
def Dev.placeRecord (n count : Nat) (r : CapRec) (s : Dev) : Option (CapRec × Dev) :=
  let u := ceilDiv (64 + 4 * count) 64
  let size := s.capUnits
  let wr := s.rd Reg.CAP_WR_PTR_PTR
  let rd := s.rd Reg.CAP_RD_PTR_PTR
  let wraps := decide (wr + u > size)
  let need := (if wraps then size - wr else 0) + u
  let room := if rd > wr then rd - wr else size - wr + rd
  if u > size ∨ (s.on Reg.CAP_BUF_POLICY ∧ need + 1 > room) ∨ (wraps ∧ s.on Reg.CAP_BUF_POLICY ∧ rd > wr) then none
  else
    let start := if wraps then 0 else wr
    let s := if wraps ∧ wr < size then s.store (capAddr wr) (padBytes n r) else s
    let kept := s.capRecs.filter fun p =>
      !(overlaps p.1 p.2 start u || (wraps && overlaps p.1 p.2 wr (size - wr)))
    let recs := kept ++ [(start, u)]
    let s := { s with capRecs := recs }
    let s := s.wr Reg.CAP_WR_PTR_PTR (if start + u = size then 0 else start + u)
    let s := s.wr Reg.CAP_OLDEST_PTR ((recs.head?.map (·.1)).getD 0)
    some ({ r with start := start }, s)

/-- A sample out of range among those of a record: code −128 or 127 (R77, Table 3.3). -/
def overrange (samples : List Byte) : Bool :=
  samples.any fun b => b = 0x80#8 || b = 0x7F#8

/-- The record that a run has taken; OVERRANGE as its samples have it. -/
def Dev.recordOf (s : Dev) (n : Nat) (r : CapRun) (samples : List Byte) (flags : Nat) : CapRec :=
  { start := 0
    seq := (s.cpe n).seq
    decimated := r.decimated
    decim := if r.decimated then r.decim else 0
    flags := flags + 4 * ofBool (overrange samples) + (if s.rd (Reg.RX_RESAMP_STAT_ACTIVE_MODE n) = 2 then 8 else 0)
    first := r.first
    fsMsps := s.rd (Reg.RX_SAMP_STAT_FS_MSPS n)
    cd := s.rdS (Reg.RX_CD_STAT_APPLIED n)
    trig := r.trig
    samples := samples }

/-- A record placed and put in the engine's drain, or not written and counted as missed (R95); answers whether it was placed. -/
def Dev.queueRecord (n : Nat) (r : CapRec) (s : Dev) : Bool × Dev :=
  match s.placeRecord n (r.samples.length / 4) r with
  | some (r, s) =>
    let x := s.cpe n
    (true, s.setCpe n { x with drains := x.drains ++ [r], seq := (x.seq + 1) % 2 ^ 32 })
  | none => (false, s.capMiss n)

/-! ## Truncation (R97) -/

/-- A record of free bytes of a length: the samples that a truncated record holds are the signal's, which the specification leaves
open (log 3). -/
def freeSamples (k n bound : Nat) : List Byte :=
  (List.range (4 * (Config.freeOf k [n, 0] % (bound + 1)))).map fun i => BitVec.ofNat 8 (Config.freeOf k [n, 1, i])

/-- A record with TRUNCATED set. -/
def CapRec.truncate (r : CapRec) (samples : List Byte) : CapRec :=
  { r with flags := r.flags + 1, samples := samples }

/-- POISONED set in a record's flags (R97). -/
def poisonedFlag (flags : Nat) (poisoned : Bool) : Nat :=
  if poisoned && !bitAt flags 1 then flags + 2 else flags

/-- A staging word with a poison mark drained for engine n: the record under way is POISONED (R97, Table 18.2). -/
def Dev.capPoison (n : Nat) (s : Dev) : Dev :=
  match (s.cpe n).drains with
  | [] => s
  | r :: rest => s.setCpe n { s.cpe n with drains := { r with flags := poisonedFlag r.flags true } :: rest }

/-- A capture or drain in progress ends at once (R97): what has been taken is written with TRUNCATED set, and E-1n.15 is raised. A capture whose T_s has not come has taken
nothing: it ends with that event alone (DESIGN CHOICE, log 207). -/
def Dev.capTruncate (n : Nat) (s : Dev) : Dev :=
  let x := s.cpe n
  if x.run.isSome ∨ x.drains ≠ [] then
    let k := s.fresh
    -- the drains end short, each where a free number of its sample instants has been written
    let s := (x.drains.zip (List.range x.drains.length)).foldl (fun s p =>
      let r := p.1
      let kept := 4 * (Config.freeOf k [n, 2, p.2] % (r.samples.length / 4 + 1))
      s.storeCapture n (r.flags + 1) { r with samples := r.samples.take kept }) s
    let s := s.setCpe n { s.cpe n with run := none, drains := [] }
    let s := match x.run with
      | some r =>
        if r.started then
          let c := s.recordOf n r (freeSamples k n r.length) (1 + 16)
          let put (c : CapRec) (s : Dev) : Dev :=
            let s := s.storeCapture n c.flags c
            s.setCpe n { s.cpe n with seq := ((s.cpe n).seq + 1) % 2 ^ 32 }
          if r.decimated then put { c with start := r.place } s
          else match s.placeRecord n (c.samples.length / 4) c with
            | some (c, s) => put c s
            | none => s.capMiss n
        else s
      | none => s
    (s.tick.showCapBusy n).raise (10 + n) 15
  else s

/-! ## Triggers (R93, R94) -/

/-- The sample rate of an engine's run in MB/s of samples: 4 × fs / 2^DECIM, scaled by 2^16 to stay whole. -/
def Dev.capRate (s : Dev) (n decim : Nat) : Nat :=
  4 * s.rd (Reg.RX_SAMP_STAT_FS_MSPS n) * 2 ^ 16 / 2 ^ decim

/-- 160 GB/s in the units of `capRate`. -/
abbrev capRateMax : Nat := 160000 * 2 ^ 16

/-- The engines in decimated runs. -/
def Dev.decimRuns (s : Dev) : List (Nat × Nat) :=
  (List.range 8).filterMap fun n => match (s.cpe n).run with
    | some r => if r.decimated then some (n, r.decim) else none
    | none => none

/-- A trigger with start time T_s (R93): it consumes the arming of every armed engine; a busy engine misses it and stays armed; while
shed step 1 is active, or where SIZE_GB = 0 disables capture, every armed engine misses it (the latter a DESIGN CHOICE, log 163); no decimated run starts where the sum of their rates would pass 160 GB/s. -/
def Dev.capTrigger (src grp bit startAt : Nat) (s : Dev) : Dev :=
  let armed := (List.range 8).filter fun n => s.on (Reg.RX_CAP_STAT_ARMED n)
  let free := armed.filter fun n => !s.on (Reg.RX_CAP_STAT_BUSY n)
  let wants := free.filter fun n => s.on (Reg.RX_CAP_CTRL_MODE n)
  let load := ((s.decimRuns ++ wants.map fun n => (n, s.rd (Reg.RX_CAP_CTRL_DECIM n))).map fun p => s.capRate p.1 p.2).sum
  let blocked := decide (load > capRateMax)
  let shed := s.shedActive 1 || decide (s.rd Reg.CAP_BUF_SIZE_GB = 0)
  armed.foldl (fun s n =>
    if s.on (Reg.RX_CAP_STAT_BUSY n) then s.capMiss n
    else
      let dec := s.on (Reg.RX_CAP_CTRL_MODE n)
      let s := s.setArmed n false
      if shed ∨ (dec ∧ blocked) then s.capMiss n
      else
        let run : CapRun :=
          { decimated := dec
            decim := s.rd (Reg.RX_CAP_CTRL_DECIM n)
            length := if dec then 1048576 else 1024 * s.rd (Reg.RX_CAP_CTRL_LENGTH_KI n)
            startAt := startAt
            trig := src + 4 * grp + 128 * bit
            started := false
            first := 0
            place := 0 }
        (s.setCpe n { s.cpe n with run := some run }).showCapBusy n) s

/-- TIME plus 1.000 µs. -/
def Dev.capSoon (s : Dev) : Nat :=
  s.time + 1000 * 65536

/-! ## The time trigger (R93) -/

/-- The seconds whose low 32 bits are given and that lie from −2^31 to 2^31 − 1 of TIME's; below 0 where TIME has not reached them, in which case they are past all the
same. -/
def extendSeconds (now lo : Nat) : Int :=
  let d : Nat := (lo + 2 ^ 32 - now % 2 ^ 32) % 2 ^ 32
  ((now + d : Nat) : Int) - if d < 2 ^ 31 then 0 else 4294967296

/-- TENABLE written 1. -/
def Dev.capEnableTime (s : Dev) : Dev :=
  let sec := extendSeconds (s.time / 65536 / 1000000000) (s.rd Reg.CAP_TRIG_TIME_HI_SEC)
  let at_ := (sec * 1000000000 + s.rd Reg.CAP_TRIG_TIME_LO_NS) * 65536
  if at_ < (s.capSoon : Nat) then ((s.wr Reg.CAP_TRIG_TENABLE 0).viol capPage).raise 10 11
  else { s with capSec := sec.toNat }.wr Reg.CAP_TRIG_TENABLE 1

/-! ## Commands -/

/-- A write of CAP_TRIG (R93): TENABLE = 1 takes the time programmed; FIRE with another SOURCE is a command in a state that does not permit it
(R425). -/
def Dev.capTrig (v : Word) (s : Dev) : Dev :=
  s.hostWrite capPage 0x054 0xC v fun s =>
    let s := if v.getLsbD 3 then s.capEnableTime else s.wr Reg.CAP_TRIG_TENABLE 0
    if !v.getLsbD 2 then s
    else if s.rd Reg.CAP_TRIG_SOURCE = 0 then s.capTrigger 0 0 0 s.capSoon
    else s.viol capPage

/-- CAP_FIRE (R93). -/
def execCapFire (v : Word) (s : State) : Out :=
  s.run (Dev.capTrig (v ||| 4#32))

/-- CAP_EVENT_TRIGGER (R93): the capture controller acts on the rising edge of the selected event, T_s being 1.000 µs after it. -/
def execCapEventTrigger (s : State) : Out :=
  s.run fun s => match s.ev.capDue with
    | some e => { s with ev := { s.ev with capDue := none } }.capTrigger 1 e.2.1 e.2.2 (e.1 + 1000 * 65536)
    | none => s

/-- CAP_TENABLE_WRITE (R93): a write of CAP_TRIG with TENABLE = 1. -/
def execCapTenableWrite (v : Word) (s : State) : Out :=
  s.run (Dev.capTrig (v ||| 8#32))

/-- CAP_TIME_TRIGGER (R93): TIME has reached the programmed time. With another SOURCE, TENABLE clears and nothing is triggered (DESIGN CHOICE, log
162). -/
def execCapTimeTrigger (s : State) : Out :=
  s.run fun s =>
    if s.on Reg.CAP_TRIG_TENABLE then
      let s := s.wr Reg.CAP_TRIG_TENABLE 0
      if s.rd Reg.CAP_TRIG_SOURCE = 2 then
        s.capTrigger 2 0 0 ((s.capSec * 1000000000 + s.rd Reg.CAP_TRIG_TIME_LO_NS) * 65536)
      else s
    else s

/-- A write of RX_CAP_CTRL of engine n: ARM arms it (R94); DISARM disarms it, truncates a run in progress and clears MISSED (R97). -/
def Dev.rxCapCtrl (n : Nat) (v : Word) (s : Dev) : Dev :=
  s.hostWrite (linePage n 0x0E) 0x040 0x3 v fun s =>
    let s := if v.getLsbD 0 then s.setArmed n true else s
    if v.getLsbD 1 then ((s.setArmed n false).capTruncate n).wr (Reg.RX_CAP_STAT_MISSED n) 0 else s

/-- CAP_ARM (R94). -/
def execCapArm (n : Fin 8) (v : Word) (s : State) : Out :=
  s.run (Dev.rxCapCtrl n (v ||| 1#32))

/-- CAP_DISARM (R97). -/
def execCapDisarm (n : Fin 8) (v : Word) (s : State) : Out :=
  s.run (Dev.rxCapCtrl n (v ||| 2#32))

/-- A decimated run's next record starts, with its first sample at `first`: it is given its place, or is not written, which ends the run (R95).
Answers whether it started. -/
def Dev.startDecim (n first : Nat) (r : CapRun) (s : Dev) : Bool × Dev :=
  match s.placeRecord n r.length (s.recordOf n { r with first := first } [] 0) with
  | some (c, s) => (true, s.setCpe n { s.cpe n with run := some { r with started := true, first := first, place := c.start } })
  | none => (false, (s.setCpe n { s.cpe n with run := none }).capMiss n)

/-- CAP_START (R93): the first sample instant at or after T_s; `late` is by how many 2^-16 ns it lies after it, less than one sample period. -/
def execCapStart (n : Fin 8) (late : Nat) (s : State) : Out :=
  s.run fun s => match (s.cpe n).run with
    | some r =>
      if r.started ∨ ¬ s.on (Reg.RX_SAMP_STAT_PLL_LOCK n) ∨ 65536000 ≤ late * s.rd (Reg.RX_SAMP_STAT_FS_MSPS n) then s
      else if r.decimated then (s.startDecim n (r.startAt + late) r).2.showCapBusy n
      else s.setCpe n { s.cpe n with run := some { r with started := true, first := r.startAt + late } }
    | none => s

/-- CAP_SNAPSHOT_COMPLETE (R92): the snapshot's LENGTH_KI × 1,024 sample instants are all staged; its record is placed and drains. -/
def execCapSnapshotComplete (n : Fin 8) (samples : List Byte) (_overrange : Found) (s : State) : Out :=
  s.run fun s => match (s.cpe n).run with
    | some r =>
      if r.started ∧ ¬ r.decimated ∧ samples.length = 4 * r.length then
        let c := s.recordOf n r samples 16
        let s := s.setCpe n { s.cpe n with run := none }
        (s.queueRecord n c).2.showCapBusy n
      else s
    | none => s

/-- CAP_DECIM_RECORD_END (R92, R95): a record of a decimated run is complete; the run goes on with the sample at `next`, or ends, with LAST in
this record, where the next one may not be written. -/
def execCapDecimRecordEnd (n : Fin 8) (samples : List Byte) (_overrange : Found) (next : Nat) (s : State) : Out :=
  s.run fun s => match (s.cpe n).run with
    | some r =>
      if r.started ∧ r.decimated ∧ samples.length = 4 * r.length then
        let c := { s.recordOf n r samples 0 with start := r.place }
        let p := (s.setCpe n { s.cpe n with seq := ((s.cpe n).seq + 1) % 2 ^ 32 }).startDecim n next r
        let s := p.2
        let c := if p.1 then c else { c with flags := c.flags + 16 }
        (s.setCpe n { s.cpe n with drains := (s.cpe n).drains ++ [c] }).showCapBusy n
      else s
    | none => s

/-- CAP_DRAIN_COMPLETE (R96): the oldest record of the engine's drain stands in HBM with its header and CRC. -/
def execCapDrainComplete (n : Fin 8) (poisoned : Bool) (s : State) : Out :=
  s.run fun s => match (s.cpe n).drains with
    | [] => s
    | r :: rest =>
      let s := s.storeCapture n (poisonedFlag r.flags poisoned) r
      let s := s.setCpe n { s.cpe n with drains := rest }
      let s := s.wr (Reg.RX_CAP_STAT_RECORDS n) (s.rd (Reg.RX_CAP_STAT_RECORDS n) + 1)
      (s.showCapBusy n).raise (10 + n) 14

end Sys2Proof.Machine
end

