-- ==== Sys2Proof/Machine/Chord.lean ====
section
/-!
DEFINITION. The chord code (R132 to R142): the component BCH code, staircase blocks, the inner code with its encoder and its layered min-sum decoder, the
interleaver, and the division between the carriers of a twin pair.
-/
namespace Sys2Proof.Machine

/-! ## Bits in order -/

/-- The low `n` bits of a number, most significant first. -/
def bitsOf : Nat → Nat → List Bool
  | 0, _ => []
  | n + 1, v => bitAt v n :: bitsOf n v

/-- The number whose bits are given, most significant first. -/
def natOfBits (bs : List Bool) : Nat :=
  bs.foldl (fun a b => 2 * a + ofBool b) 0

/-- The bits of bytes, most significant first (R159). -/
def byteBits (bs : List Byte) : List Bool :=
  bs.flatMap fun b => bitsOf 8 b.toNat

/-- Whole pieces of `n` of a list, at most `fuel` of them, and what is left. -/
def pieces {α : Type} (n : Nat) : Nat → List α → List (List α) × List α
  | 0, l => ([], l)
  | fuel + 1, l =>
    let t := l.take n
    if n = 0 ∨ t.length < n then ([], l) else let p := pieces n fuel (l.drop n); (t :: p.1, p.2)

/-! ## GF(2^11) and the component code (R134) -/

/-- A field element times α, with α^11 = α^2 + 1. -/
def gfDouble (x : Nat) : Nat :=
  if bitAt x 10 then (2 * x) ^^^ 0x805 else 2 * x

/-- α^d. -/
def gfPow : Nat → Nat
  | 0 => 1
  | d + 1 => gfDouble (gfPow d)

/-- The product of two field elements: the bits of the second from the most significant on. -/
def gfMul (x y : Nat) : Nat :=
  (bitsOf 11 y).foldl (fun a b => gfDouble a ^^^ (if b then x else 0)) 0

/-- The powers of α below its order, 2,047. -/
def gfPowers : Array Nat :=
  ((List.range 2047).foldl (fun (p : Array Nat × Nat) _ => (p.1.push p.2, gfDouble p.2)) (#[], 1)).1

/-- m1(x), the minimal polynomial of α. -/
def bchM1 : Nat := 0x805

/-- m3(x), the minimal polynomial of α³. -/
def bchM3 : Nat := 0x925

/-- The product of two polynomials over GF(2) of degree below `n` and any. -/
def polyMul (n a b : Nat) : Nat :=
  (List.range n).foldl (fun r k => if bitAt a k then r ^^^ (b <<< k) else r) 0

/-- The generator g(x) = m1(x) × m3(x), of degree 22. -/
def bchG : Nat := polyMul 12 bchM1 bchM3

/-- One information bit into the division by g(x). -/
def bchStep (r : Nat) (b : Bool) : Nat :=
  (2 * r % 2 ^ 22) ^^^ (if bitAt r 21 != b then bchG % 2 ^ 22 else 0)

/-- The 22 parity bits of 726 information bits. -/
def bchParity (info : List Bool) : Nat :=
  info.foldl bchStep 0

/-- The syndromes S1 and S3 of a 748-bit word, bit d of the number being the coefficient of x^d. -/
def bchSyndromes (w : Nat) : Nat × Nat :=
  (List.range 748).foldl (fun (s : Nat × Nat) d =>
    if bitAt w d then (s.1 ^^^ gfPowers.getD d 0, s.2 ^^^ gfPowers.getD (3 * d % 2047) 0) else s) (0, 0)

/-- Whether a word has a non-zero syndrome. -/
def bchBad (w : Nat) : Bool :=
  bchSyndromes w != (0, 0)

/-- The coefficients that bounded-distance decoding flips: none, one or two, the only ones within distance 2; none too where there is no word within it. -/
def bchErrors (w : Nat) : List Nat :=
  let s := bchSyndromes w
  let x (d : Nat) := gfPowers.getD d 0
  let x3 (d : Nat) := gfPowers.getD (3 * d % 2047) 0
  if s = (0, 0) then []
  else
    match (List.range 748).find? fun d => decide ((x d, x3 d) = s) with
    | some d => [d]
    | none =>
      -- two places: x(d) + x(e) = S1 and their cubes' sum is S3
      let e? (d : Nat) : Option Nat := (List.range 748).find? fun e => decide (e < d) && decide (x e = x d ^^^ s.1)
      match (List.range 748).find? fun d =>
          let y := x d ^^^ s.1
          decide (gfMul (gfMul y y) y ^^^ x3 d = s.2) && (e? d).isSome with
      | some d => d :: (e? d).toList
      | none => []

/-! ## Staircase blocks (R133, R142) -/

/-- Bits in a staircase block, and information bits among them. -/
abbrev blockBits : Nat := 374 * 374
abbrev blockInfo : Nat := 374 * 352

/-- Column r of a block, as a number with row 0 most significant; no rows listed, zeros. -/
def blockColumn (rows : List Nat) (r : Nat) : Nat :=
  rows.foldl (fun a x => 2 * a + ofBool (bitAt x (373 - r))) 0

/-- Row r of a block after `prev`: 352 information bits and the parity of column r of `prev` followed by them. -/
def stairRow (prev : List Nat) (r : Nat) (info : List Bool) : Nat :=
  natOfBits info * 2 ^ 22 + bchParity (bitsOf 374 (blockColumn prev r) ++ info)

/-- A block from its information bits, row by row. -/
def stairBlock (prev : List Nat) (info : List Bool) : List Nat :=
  (List.range 374).map fun r => stairRow prev r ((info.drop (352 * r)).take 352)

/-- A block's bits row by row over all 374 columns (R136). -/
def blockOut (rows : List Nat) : List Bool :=
  rows.flatMap fun x => bitsOf 374 x

/-- The 374 component words of two blocks in a row. -/
def stairWord (a b : List Nat) (r : Nat) : Nat :=
  blockColumn a r * 2 ^ 374 + b.getD r 0

/-- A block's rows in the decoder, and whether a decoder has changed a bit of it (R147). -/
abbrev StairRows := List Nat × Bool

/-- One component word decoded: two blocks' rows with its errors flipped. -/
def stairFix (r : Nat) (p : StairRows × StairRows) : StairRows × StairRows :=
  (bchErrors (stairWord p.1.1 p.2.1 r)).foldl (fun (p : StairRows × StairRows) d =>
    if d < 374 then (p.1, (p.2.1.modify r fun x => x ^^^ 2 ^ d, true))
    else ((p.1.1.modify (747 - d) fun x => x ^^^ 2 ^ (373 - r), true), p.2)) p

/-- Every component word of two blocks in a row decoded once. -/
def stairPair (p : StairRows × StairRows) : StairRows × StairRows :=
  (List.range 374).foldl (fun p r => stairFix r p) p

/-- One pass over the blocks from `a` on, oldest words first (DESIGN CHOICE, log 172). -/
def stairFrom : StairRows → List StairRows → List StairRows
  | a, [] => [a]
  | a, b :: rest => let p := stairPair (a, b); p.1 :: stairFrom p.2 rest

/-- One pass over a window. -/
def stairPass : List StairRows → List StairRows
  | [] => []
  | a :: rest => stairFrom a rest

/-- The three passes of R142. -/
def stairPasses (l : List StairRows) : List StairRows :=
  stairPass (stairPass (stairPass l))

/-! ## The inner code (R136, R141) -/

/-- Information bits, parity bits and length of an inner codeword. -/
abbrev cwInfo : Nat := 17000
abbrev cwParity : Nat := 1448
abbrev cwBits : Nat := 18448

/-- The rows in which information bit j has ones. -/
def innerRows (j : Nat) : List Nat :=
  let c := j / cwParity
  let v := j % cwParity
  [v, (v + c + 2) % cwParity, (v + 20 * (c + 2)) % cwParity]

/-- The columns with a one in row i: information bits, and then parity bits. -/
def innerColumns (i : Nat) : List Nat :=
  let cs := List.range 12
  let at_ (c d : Nat) : Nat := cwParity * c + (i + cwParity - d % cwParity) % cwParity
  ((cs.map fun c => at_ c 0) ++ (cs.map fun c => at_ c (c + 2)) ++ (cs.map fun c => at_ c (20 * (c + 2)))).filter (· < cwInfo) ++
    (if i = 0 then [cwInfo] else [cwInfo + i - 1, cwInfo + i])

/-- s_i for every row: the sum modulo 2 of its information bits. -/
def innerSums (u : List Bool) : Array Bool :=
  ((u.zip (List.range cwInfo)).foldl (fun (s : Array Bool) x =>
    if x.1 then (innerRows x.2).foldl (fun s i => s.modify i (!·)) s else s) (Array.replicate cwParity false))

/-- The parity p0 = s0 and pi = p(i−1) + si. -/
def innerParity (u : List Bool) : List Bool :=
  let s := innerSums u
  ((List.range cwParity).foldl (fun (p : List Bool × Bool) i => let b := p.2 != s.getD i false; (b :: p.1, b)) ([], false)).1.reverse

/-- An inner codeword: the information bits and their parity. -/
def innerWord (u : List Bool) : List Bool :=
  u ++ innerParity u

/-- The checks that a codeword's bits leave unsatisfied. -/
def innerUnsat (bits : Array Bool) : Nat :=
  (List.range cwParity).countP fun i => (innerColumns i).foldl (fun a j => a != bits.getD j false) false

/-- What the min-sum decoder holds: a ratio for each bit, and a message for each place of each row, all in sixteenths of a step. -/
structure MinSum where
  ratio : Array Int
  msg : Array (List Int)

/-- The hard decisions: a negative ratio is a 1 (R139; a ratio of 0 a 0: DESIGN CHOICE, log 171). -/
def MinSum.bits (d : MinSum) : Array Bool :=
  d.ratio.map fun r => decide (r < 0)

/-- The decoder at its start: the ratios, and no messages. -/
def MinSum.start (ratios : List Int) : MinSum :=
  let r := (ratios ++ List.replicate (cwBits - ratios.length) 0).map (16 * ·)
  ⟨r.toArray, Array.replicate cwParity []⟩

/-- One row: each message becomes 0.75 of the least other magnitude with the sign of the others' product, cut towards zero in sixteenths of a step
(DESIGN CHOICE, log 171). -/
def MinSum.row (i : Nat) (d : MinSum) : MinSum :=
  let js := innerColumns i
  let old := d.msg.getD i []
  let old := if old = [] then js.map fun _ => 0 else old
  let q := (js.zip old).map fun (x : Nat × Int) => d.ratio.getD x.1 0 - x.2
  let neg := q.foldl (fun a v => a != decide (v < 0)) false
  let m := q.foldl (fun (p : Nat × Nat) v => let a := v.natAbs; if a < p.1 then (a, p.1) else if a < p.2 then (p.1, a) else p) (2 ^ 40, 2 ^ 40)
  let new := q.map fun v =>
    let mag : Int := ((if v.natAbs = m.1 then m.2 else m.1) * 3 / 4 : Nat)
    -- where two share the least magnitude, `m.2` is that magnitude too
    if neg != decide (v < 0) then -mag else mag
  let ratio := ((js.zip (q.zip new))).foldl (fun (r : Array Int) (x : Nat × Int × Int) => r.setIfInBounds x.1 (x.2.1 + x.2.2)) d.ratio
  ⟨ratio, d.msg.setIfInBounds i new⟩

/-- One iteration: a pass over all rows (R141). -/
def MinSum.pass (d : MinSum) : MinSum :=
  (List.range cwParity).foldl (fun d i => d.row i) d

/-- Iterations from number `k` on, `fuel` at the most: the decoder, the iterations made, and whether every check is satisfied. -/
def MinSum.run (early : Bool) : Nat → Nat → MinSum → MinSum × Nat × Bool
  | 0, k, d => (d, k, decide (innerUnsat d.bits = 0))
  | fuel + 1, k, d =>
    let d := d.pass
    if early && decide (2 ≤ k + 1) && decide (innerUnsat d.bits = 0) then (d, k + 1, true) else MinSum.run early fuel (k + 1) d

/-- An inner codeword decoded: its bits, its iterations, and whether every check is satisfied (R141). -/
def innerDecode (limit : Nat) (early : Bool) (ratios : List Int) : List Bool × Nat × Bool :=
  let r := MinSum.run early limit 0 (MinSum.start ratios)
  (r.1.bits.toList, r.2.1, r.2.2)

/-! ## The interleaver (R137, R138) -/

/-- Where output bit q of a group comes from: its codeword of the group, and its bit. -/
def interleaved (q : Nat) : Nat × Nat :=
  (q % 4, 4613 * (q / 4) % cwBits)

/-- A group of four codewords in output order. -/
def interleave (words : List (List Bool)) : List Bool :=
  let ws := (words.map List.toArray).toArray
  (List.range (4 * cwBits)).map fun q => (ws.getD (interleaved q).1 #[]).getD (interleaved q).2 false

/-- The values of codeword `w` of a group, in codeword order, from the values in output order. -/
def deinterleave {α : Type} (zero : α) (w : Nat) (group : List α) : List α :=
  let g := group.toArray
  ((List.range cwBits).foldl (fun (a : Array α) k => a.setIfInBounds (4613 * k % cwBits) (g.getD (4 * k + w) zero))
    (Array.replicate cwBits zero)).toList

/-- The 4-bit pieces at even or odd places of an engine's interleaver output. -/
def carrierPart (odd : Bool) (out : List Bool) : List (List Bool) :=
  let ps := (pieces 4 out.length out).1
  (ps.zip (List.range ps.length)).filterMap fun x => if decide (x.2 % 2 = 1) = odd then some x.1 else none

/-- What a carrier of a twin pair takes: 4 bits at a time, alternately from its own engine's pieces at even places and its partner's at odd ones (R138). -/
def carrierBits (own partner : List Bool) : List Bool :=
  ((carrierPart false own).zip (carrierPart true partner)).flatMap fun x => x.1 ++ x.2

end Sys2Proof.Machine
end

