-- ==== Sys2Proof/Machine/Cipher.lean ====
section
/-!
DEFINITION. Key slots and the request engine (R278 to R303): load, erase and zeroise, key-switch triggers, and the requests of the host
and of the Drone.
-/
namespace Sys2Proof.Machine

/-! ## Slots (Table 10.3, R284) -/

abbrev keyEmpty : Nat := 0
abbrev keyReady : Nat := 1
abbrev keyActive : Nat := 2
abbrev keySpent : Nat := 3

/-- The roles of KEY_CTRL.ROLE. -/
abbrev roleTx : Nat := 0
abbrev roleRx : Nat := 1
abbrev roleReq : Nat := 2

/-- A key slot. -/
def Dev.key (s : Dev) (k : Nat) : KeySlot :=
  sget (dflt KeySlot.reset) s.keys k

/-- A key slot changed, with E-21.00 where its state changes (Table 10.6). -/
def Dev.setKey (k : Nat) (x : KeySlot) (s : Dev) : Dev :=
  let was := (s.key k).state
  ({ s with keys := sset (dflt KeySlot.reset) s.keys k x }).raiseIf (was ≠ x.state) 21 0

/-- A slot's state changed. -/
def Dev.keyState (k st : Nat) (s : Dev) : Dev :=
  s.setKey k { s.key k with state := st }

/-- One more use of a slot's key: it becomes ACTIVE. -/
def Dev.useKey (k : Nat) (s : Dev) : Dev :=
  s.setKey k { s.key k with state := keyActive, used := (s.key k).used + 1 }

/-- Whether course `c` is member B of an enabled pair: its CKEY entry is then ignored (R196, R288). -/
def Dev.isCourseB (s : Dev) (c : Nat) : Bool :=
  s.enabledPairs.any fun p => s.rd (Reg.PAIR_COURSE_B p) = c && !s.on (Reg.PSTAT_CFG_BAD p)

/-- Whether course `c`, local or remote, is enabled and encrypted under keys of its own (R288, R400). -/
def Dev.encrypted (s : Dev) (c : Nat) : Bool :=
  (s.on (Reg.MAP_EN c) || s.on (Reg.RCRS_EN c)) && s.on (Reg.CKEY_ENC c) && !s.isCourseB c && !s.relayFed c

/-- The transmit slot of course `c` for a KS. -/
def Dev.txSlot (s : Dev) (c ks : Nat) : Nat :=
  if ks = 0 then s.rd (Reg.CKEY_TX_SLOT0 c) else s.rd (Reg.CKEY_TX_SLOT1 c)

/-- The receive slot of course `c` for a KS. -/
def Dev.rxSlot (s : Dev) (c ks : Nat) : Nat :=
  if ks = 0 then s.rd (Reg.CKEY_RX_SLOT0 c) else s.rd (Reg.CKEY_RX_SLOT1 c)

/-- The transmit slot in use by course `c`. -/
def Dev.txActive (s : Dev) (c : Nat) : Nat :=
  s.txSlot c (s.rd (Reg.CSTAT_KS_TX c))

/-- Whether a slot is READY as a course transmit slot. -/
def Dev.txReady (s : Dev) (k : Nat) : Bool :=
  decide ((s.key k).state = keyReady) && decide ((s.key k).role = roleTx)

/-- Whether a slot is in service (R284). -/
def Dev.inService (s : Dev) (k : Nat) : Bool :=
  ((s.courses ++ s.remotes).any fun c => s.encrypted c &&
    (decide (s.txActive c = k) ||
      (decide (s.rxSlot c (s.rd (Reg.CSTAT_KS_RX c)) = k) && (s.co c).delivered.isSome))) ||
  match s.req with
  | some r => decide (r.slot = k)
  | none => false

/-! ## KEY_CTRL (R285 to R287) -/

abbrev keyPage : Nat := 0x290

/-- The 32 staged key bytes. -/
def Dev.stagedKey (s : Dev) : List Byte :=
  (List.range 8).flatMap fun k => bytesLE 4 (sget (dflt 0) s.staged k).toNat

/-- A key operation, REKEY or commit refused: counted, with E-21.11. -/
def Dev.keyRefused (page : Nat) (s : Dev) : Dev :=
  (s.viol page).raise 21 11

/-- LOAD (R285); refused in the state RETURNED (Table 19.1). -/
def Dev.keyLoad (k : Nat) (s : Dev) : Dev :=
  let role := s.rd Reg.KEY_CTRL_ROLE
  if role = 3 ∨ s.inService k ∨ s.rd Reg.LC_STAT_STATE = 3 then s.keyRefused keyPage
  else
    let key := s.stagedKey
    s.setKey k ⟨keyReady, role, key, keyCheckValue key, 0⟩

/-- ERASE (R285). -/
def Dev.keyErase (k : Nat) (s : Dev) : Dev :=
  if s.inService k then s.keyRefused keyPage else s.setKey k KeySlot.reset

/-- ZEROISE of a slot (R287): the courses that send under it get a switch trigger, and a request under it stops. -/
def Dev.keyZeroise (k : Nat) (s : Dev) : Dev :=
  let hit := (s.courses ++ s.remotes).filter fun c => s.encrypted c && decide (s.txActive c = k) && decide ((s.key k).state ≠ keyEmpty)
  let s := { s with rekeys := (s.rekeys ++ hit).dedup }
  let s := { s with req := s.req.map fun (r : Req) => if r.slot = k then { r with zeroised := true } else r }
  s.setKey k KeySlot.reset

/-- ZEROISE_ALL: every slot that holds a key (R287). -/
def Dev.keyZeroiseAll (s : Dev) : Dev :=
  s.keys.foldl (fun s p => s.keyZeroise p.1) s

/-- The operation bits of KEY_CTRL. -/
def keyCtrlOwn : Word := 0xF0000#32

/-- A write of KEY_CTRL: the operations of the bits set, ZEROISE_ALL first and LOAD last (DESIGN CHOICE, log 23), and the staged bits
zeroed after any of them. -/
def Dev.keyCtrl (v : Word) (s : Dev) : Dev :=
  s.hostWrite keyPage 0x060 keyCtrlOwn v fun s =>
    let k := s.rd Reg.KEY_CTRL_SLOT
    let s := if getBits v 19 1 = 1 then s.keyZeroiseAll else s
    let s := if getBits v 18 1 = 1 then s.keyZeroise k else s
    let s := if getBits v 17 1 = 1 then s.keyErase k else s
    let s := if getBits v 16 1 = 1 then s.keyLoad k else s
    if v &&& keyCtrlOwn = 0 then s else { s with staged := [] }

/-- KEY_LOAD: a write of KEY_CTRL with LOAD set. -/
def execKeyLoad (v : Word) (s : State) : Out :=
  s.run fun s => s.keyCtrl (v ||| 0x10000#32)

/-- KEY_ERASE: a write of KEY_CTRL with ERASE set. -/
def execKeyErase (v : Word) (s : State) : Out :=
  s.run fun s => s.keyCtrl (v ||| 0x20000#32)

/-- KEY_ZEROISE: a write of KEY_CTRL with ZEROISE set. -/
def execKeyZeroise (v : Word) (s : State) : Out :=
  s.run fun s => s.keyCtrl (v ||| 0x40000#32)

/-- KEY_ZEROISE_ALL: a write of KEY_CTRL with ZEROISE_ALL set. -/
def execKeyZeroiseAll (v : Word) (s : State) : Out :=
  s.run fun s => s.keyCtrl (v ||| 0x80000#32)

/-- A write of REKEY: GO is a switch trigger, refused where the course's other transmit slot is not READY (R290, R293). -/
def Dev.rekeyWrite (v : Word) (s : Dev) : Dev :=
  s.hostWrite 0x291 0x080 0x200#32 v fun s =>
    let c := s.rd Reg.REKEY_COURSE
    if !v.getLsbD 9 then s
    else if s.txReady (s.txSlot c (1 - s.rd (Reg.CSTAT_KS_TX c))) then { s with rekeys := (s.rekeys ++ [c]).dedup }
    else s.keyRefused 0x291

/-- REKEY. -/
def execRekey (v : Word) (s : State) : Out :=
  s.run (Dev.rekeyWrite (v ||| 0x200#32))

/-! ## Course frames under keys (R278, R294, R301) -/

/-- The IV of Table 10.2: domain, number, counter. -/
def cipherIv (domain number counter : Nat) : List Byte :=
  bytesBE 2 (domain * 2 ^ 14 + number) ++ [0, 0] ++ bytesBE 8 counter

/-- The AAD of Table 10.2. -/
def cipherAad (c serial ks members : Nat) : List Byte :=
  bytesBE 2 c ++ bytesBE 6 serial ++ bytesBE 1 ks ++ bytesBE 1 (members - 1) ++ List.replicate 6 0

/-- The cipher block of Table 10.1. -/
def cipherBlock (tag : List Byte) (counter flags : Nat) : List Byte :=
  sliceBytes tag 0 16 ++ bytesBE 8 counter ++ bytesBE 1 flags ++ List.replicate 39 0

/-- GCM decryption: the plaintext, where the tag verifies. -/
def gcmDecrypt (key iv aad c tag : List Byte) : Option (List Byte) :=
  if gcmTag key iv aad c = tag then some (aesCtr key iv 2 c) else none

/-! ## The request engine (R296 to R301) -/

abbrev reqPage : Nat := 0x292

/-- REQ_TAIL_WRITE: a write of REQ_TAIL (R431). -/
def execReqTailWrite (v : Word) (s : State) : Out :=
  s.run fun s => s.hostWrite reqPage 0x04C 0 v id

/-- The window offset of the descriptor at REQ_HEAD. -/
def Dev.reqEntry (s : Dev) : Nat :=
  s.rd Reg.REQ_BASE_OFFSET + 64 * s.rd Reg.REQ_HEAD_INDEX

/-- Whether the ring has an entry that the tail covers. -/
def Dev.reqWaiting (s : Dev) : Bool :=
  s.hubOn && s.on Reg.REQ_CTRL_EN && decide (s.rd Reg.REQ_HEAD_INDEX ≠ s.rd Reg.REQ_TAIL_INDEX)

/-- The status found before any computation, 0 where none: RANGE, LENGTH, KEY_EMPTY, ROLE, COUNTER_EXHAUSTED (R298). -/
def Dev.reqEarly (s : Dev) (op slot length aadLen src dst aad : Nat) (host : Bool) : Nat :=
  if host ∧ ¬ (inWindow src length ∧ (3 < op ∨ inWindow dst length) ∧ (1 < op ∨ inWindow aad aadLen)) then 1
  else if 5 < op ∨ 268435456 < length ∨ 65535 < aadLen then 2
  else if (s.key slot).state = keyEmpty then 3
  else if (s.key slot).role ≠ roleReq then 4
  else if (op = 0 ∨ op = 2) ∧ s.rd Reg.BOOT_EPOCH_EPOCH = 0xFFFF then 5
  else 0

/-- A slot's invocation counter (R282). -/
def Dev.invocation (s : Dev) (slot : Nat) : Nat :=
  s.rd Reg.BOOT_EPOCH_EPOCH * 2 ^ 48 + sget (dflt 0) s.invoked slot

/-- The check method of a request's user that waits for it is in force (R300). -/
def Dev.methodTaken (drone : Bool) (s : Dev) : Dev :=
  let f := if drone then Reg.CHK_CTRL_DRONE_INV else Reg.CHK_CTRL_HOST_INV
  s.putWaiting fun x => decide (x.page = 0x293) && decide (x.bnd = .item) && decide (x.mask = bitMask f.lsb f.width)

/-- A request started: its key latched and used, and for an encryption the IV formed from the slot's invocation counter, which
advances (R282, R286, R297, R300). -/
def Dev.reqStart (r : Req) (s : Dev) : Dev :=
  let s := s.methodTaken r.drone.isSome
  if r.early = 0 then
    let enc := r.op = 0 ∨ r.op = 2
    let iv := if enc then cipherIv 1 r.slot (s.invocation r.slot) else r.iv
    let s1 := if enc then
        { s with invoked := sset (dflt 0) s.invoked r.slot (sget (dflt 0) s.invoked r.slot + 1) }
      else s
    { s1.useKey r.slot with req := some { r with iv := iv, key := (s.key r.slot).key } }
  else { s with req := some r }

/-- The host's request that a descriptor spells (Table 10.5). -/
def Dev.hostReq (s : Dev) (d : List Byte) : Req :=
  let ctl := BitVec.ofNat 32 (fieldLE d 0 4)
  let op := getBits ctl 1 3
  let slot := getBits ctl 4 11
  let length := fieldLE d 4 4
  let aadLen := if op < 2 then fieldLE d 8 4 else 0
  let src := fieldLE d 12 4
  let dst := fieldLE d 16 4
  let aad := fieldLE d 20 4
  { drone := none, entry := s.reqEntry, op := op, slot := slot, length := length, aadLen := aadLen, src := src, dst := dst, aad := aad,
    iv := sliceBytes d 24 12, tag := sliceBytes d 36 16, key := [],
    early := s.reqEarly op slot length aadLen src dst aad true, zeroised := false }

/-- A Drone request (R319): GCM encrypt under DR_CFG.TX_KEY_SLOT. -/
def Dev.droneReq (s : Dev) (d : DroneReq) : Req :=
  let slot := s.rd Reg.DR_CFG_TX_KEY_SLOT
  { drone := some d, entry := 0, op := 0, slot := slot, length := d.plain.length, aadLen := 6, src := 0, dst := 0, aad := 0, iv := [],
    tag := [], key := [], early := s.reqEarly 0 slot d.plain.length 6 0 0 0 false, zeroised := false }

/-- The next request taken: a Drone request first, then the ring's entry where its OWN is set (R296, R431). The engine takes none while it is under
test or out of service (Table 18.3, Table 18.4). -/
def State.reqTake (s : State) : Dev :=
  let d := s.dev
  if d.req.isSome ∨ ¬ d.hubOn ∨ d.blockOut 61 ∨ d.bist.run.contains 61 then d
  else match d.droneReqs with
    | q :: r => { d with droneReqs := r }.reqStart (d.droneReq q)
    | [] =>
      let e := s.bytes (winAddr d.reqEntry) 64
      if d.reqWaiting ∧ fieldLE e 0 1 % 2 = 1 then
        (d.wr Reg.REQ_HEAD_INDEX ((d.rd Reg.REQ_HEAD_INDEX + 1) % d.rd Reg.REQ_SIZE_ENTRIES)).reqStart (d.hostReq e)
      else d

/-- REQ_TAKE: the engine takes the next request and starts it. -/
def execReqTake (s : State) : Out :=
  .next (s.become s.reqTake)

/-- RING_OWN_TIMEOUT: the entry at HEAD has read OWN = 0 for 1 µs: the ring halts with EN cleared and E-03.11 (R431). -/
def execRingOwnTimeout (s : State) : Out :=
  .next (s.become (
    let d := s.dev
    if d.reqWaiting ∧ fieldLE (s.bytes (winAddr d.reqEntry) 1) 0 1 % 2 = 0 then (d.wr Reg.REQ_CTRL_EN 0).raise 3 11 else d))

/-- What a request produces: its status, its output, and its tag. -/
structure ReqResult where
  status : Nat
  out : List Byte
  tag : List Byte
  deriving DecidableEq, Repr

/-- The result of a request on its input and additional data (Table 10.4), with the first failing check (R298). -/
def Req.result (r : Req) (input aad : List Byte) (poisoned checkFail : Bool) : ReqResult :=
  if r.early ≠ 0 then ⟨r.early, [], []⟩
  else if poisoned then ⟨6, [], []⟩
  else if r.zeroised then ⟨7, [], []⟩
  else if checkFail then ⟨8, [], []⟩
  else match r.op with
    | 0 => let x := gcmEncrypt r.key r.iv aad input; ⟨0, x.1, x.2⟩
    | 1 =>
      match gcmDecrypt r.key r.iv aad input r.tag with
      | some p => ⟨0, p, []⟩
      | none => ⟨9, [], []⟩
    | 2 => ⟨0, aesCtr r.key r.iv 1 input, []⟩
    | 3 => ⟨0, aesCtr r.key r.iv 1 input, []⟩
    | 4 => ⟨0, [], aesCmac r.key input⟩
    | _ => if aesCmac r.key input = r.tag then ⟨0, [], []⟩ else ⟨9, [], []⟩

/-- What a host request stores: its output, or zeros over the output range of a request that failed after its start (R299), then the
descriptor's IV and TAG, and its first word last with the status and OWN = 0 (R431). -/
def Dev.reqStore (r : Req) (x : ReqResult) (s : Dev) : Dev :=
  let s :=
    if 3 < r.op then s
    else if x.status = 0 then s.store (winAddr r.dst) x.out
    else if 6 ≤ x.status then s.store (winAddr r.dst) (List.replicate r.length 0)
    else s
  let s := if x.status = 0 ∧ (r.op = 0 ∨ r.op = 2) then s.store (winAddr (r.entry + 24)) r.iv else s
  let s := if x.status = 0 ∧ (r.op = 0 ∨ r.op = 4) then s.store (winAddr (r.entry + 36)) x.tag else s
  s.store (winAddr r.entry) (bytesLE 4 (2 * r.op + 16 * r.slot + 2 ^ 24 * x.status))

/-- A Drone request ends (R319): the sealed message waits to be sent; with a status other than OK it is not sent, with E-08.10. -/
def Dev.droneSealed (q : DroneReq) (r : Req) (x : ReqResult) (s : Dev) : Dev :=
  let t := s.dtx q.tx
  if x.status = 0 then
    s.setDtx q.tx { t with waiting := some (q.header ++ bytesBE 2 (crc16 0xFFFF q.header) ++ r.iv ++ x.out ++ x.tag), sealing := false }
  else
    let s := s.setDtx q.tx { t with sealing := false }
    let s := (s.wr (Reg.DR_TX_STAT_BUSY q.tx) 0).wr (Reg.DR_TX_STAT_STATUS q.tx) 2
    ((s.wr (Reg.DR_TX_STAT_REQ q.tx) x.status).bump Reg.TX_FAIL.run).raise 8 10

/-- A request completes (R298, R301): its events and counters, and its results given to whoever asked. -/
def Dev.reqComplete (r : Req) (x : ReqResult) (s : Dev) : Dev :=
  let s := { s with req := none }
  let s := if x.status = 8 then
      (s.bump (if r.drone.isSome then Reg.CHK_FAIL_DRONE else Reg.CHK_FAIL_HOST)).raise 21 8
    else s
  let s := (s.bump Reg.REQ_DONE).raise 21 9
  let s := if x.status = 0 then s else (s.bump Reg.REQ_ERR).raise 21 10
  match r.drone with
  | some q => s.droneSealed q r x
  | none => s.reqStore r x

/-- REQ_COMPLETE: the request under way completes. `poisoned`: its input carried a poison mark; `checkFail`: the two computations of
R300 differed. -/
def execReqComplete (poisoned checkFail : Bool) (s : State) : Out :=
  match s.dev.req with
  | none => .next s
  | some r =>
    let input := match r.drone with
      | some q => q.plain
      | none => if r.early = 0 then s.bytes (winAddr r.src) r.length else []
    let aad := match r.drone with
      | some q => q.header
      | none => if r.early = 0 then s.bytes (winAddr r.aad) r.aadLen else []
    .next (s.become (s.dev.reqComplete r (r.result input aad poisoned checkFail)))

end Sys2Proof.Machine
end

