-- ==== Sys2Proof/Machine/Image.lean ====
section
/-!
DEFINITION. Signed images (R514, R520, Tables 19.1 to 19.3): the header and the checks that an image must pass.
-/
namespace Sys2Proof.Machine

/-- The codes of Table 19.1. -/
abbrev lcBlank : Nat := 0
abbrev lcProvisioned : Nat := 1
abbrev lcOwned : Nat := 2
abbrev lcReturned : Nat := 3
abbrev lcScrapped : Nat := 4

/-- Whether the identity key signs in the state in force (Table 19.1). A pending request for RETURNED or SCRAPPED stops it at once
(R515). -/
def Dev.identitySigns (s : Dev) : Bool :=
  (decide (s.rd Reg.LC_STAT_STATE = lcProvisioned) || decide (s.rd Reg.LC_STAT_STATE = lcOwned)) &&
  !(s.on Reg.LC_STAT_PENDING && decide (lcReturned ≤ s.rd Reg.LC_STAT_PEND_TARGET))

/-- An image's header fields (Table 19.3). -/
def imageType (img : List Byte) : Nat := fieldLE img 5 1
def imageSvn (img : List Byte) : Nat := fieldLE img 6 1
def imageSigner (img : List Byte) : Nat := fieldLE img 7 1
def imageVersion (img : List Byte) : Nat := fieldLE img 8 4
def imageLength (img : List Byte) : Nat := fieldLE img 12 4

/-- An image's body. -/
def imageBody (img : List Byte) : List Byte :=
  (img.drop 256).take (imageLength img)

/-- The signer that Table 19.1 requires in the state in force: the owner for microcode and bundles in OWNED, none in SCRAPPED (a code that no image
has), the vendor otherwise. -/
def Dev.signerFor (s : Dev) (type : Nat) : Nat :=
  if s.rd Reg.LC_STAT_STATE = lcScrapped then 256
  else if 0x10 ≤ type ∧ s.rd Reg.LC_STAT_STATE = lcOwned then 1 else 0

/-- OWNER_HASH as bytes. -/
def Dev.ownerHash (s : Dev) : List Byte :=
  (List.range 16).flatMap fun k => bytesLE 4 (s.rd (Reg.OWNER_HASH k))

/-- Whether SIG verifies with the signer's key: the vendor's, or the owner's in the body's first 32 bytes, whose SHA-512 is OWNER_HASH. -/
def Dev.sigOk (s : Dev) (img : List Byte) : Bool :=
  let head := sliceBytes img 0 192
  let sig := sliceBytes img 192 64
  if imageSigner img = 1 then
    let key := sliceBytes (imageBody img) 0 32
    decide (sha512 key = s.ownerHash) && edVerify key head sig
  else edVerify Config.vendorKey head sig

/-- The first check of R520 that an image fails, 0 where it is accepted. Check 5 concerns types 0 to 7 alone (R526). -/
def Dev.imageCause (s : Dev) (img : List Byte) : Nat :=
  if fieldLE img 0 4 ≠ 0x4D495153 ∨ fieldLE img 4 1 ≠ 1 then 1
  else if imageSigner img ≠ s.signerFor (imageType img) then 2
  else if !s.sigOk img then 3
  else if (imageBody img).length ≠ imageLength img ∨ sha512 (imageBody img) ≠ sliceBytes img 16 64 then 4
  else if imageType img < 8 ∧ imageSvn img < s.rd Reg.ARB_COUNT then 5
  else 0

end Sys2Proof.Machine
end

