-- ==== Sys2Proof/Machine/Queues.lean ====
section
/-!
DEFINITION. The 32 service queues (R432 to R440, R449): arrival, pop, stall, mark, rewind, release and push, with the landing slots in the
shared-memory window.
-/
namespace Sys2Proof.Machine

/-- The page of queue operation (Table 15.10). -/
abbrev queuePage : Nat := 0x043

/-- A queue's hidden state. -/
def Dev.qu (s : Dev) (q : Nat) : Queue :=
  sget (dflt Queue.reset) s.queues q

/-- The device with a queue's hidden state changed. -/
def Dev.setQu (q : Nat) (x : Queue) (s : Dev) : Dev :=
  { s with queues := sset (dflt Queue.reset) s.queues q x }

/-- The queue space of an item: 64 bytes and its length rounded up to 64 bytes (R433). -/
def QItem.space (i : QItem) : Nat :=
  64 + 64 * ceilDiv i.bytes.length 64

/-- The occupancy of a queue in bytes: waiting plus held (R433). -/
def Queue.occupied (x : Queue) : Nat :=
  (x.waiting.map QItem.space).sum + (x.held.map fun h => h.item.space).sum

/-- Q_STAT and Q_OCC brought up to date; ABOVE sets at HWM_KIB and clears at LWM_KIB (R440). OCC_KIB is cut to whole KiB. -/
def Dev.showQueue (q : Nat) (s : Dev) : Dev :=
  let x := s.qu q
  let s := (s.wr (Reg.Q_OCC_OCC_KIB q) (x.occupied / 1024)).wr (Reg.Q_OCC_WAITING q) (min 4095 x.waiting.length)
  let s := (s.wr (Reg.Q_STAT_HELD q) x.held.length).wrB (Reg.Q_STAT_MARKED q) x.mark.isSome
  let was := s.on (Reg.Q_STAT_ABOVE q)
  let now :=
    if s.rd (Reg.Q_WM_HWM_KIB q) * 1024 ≤ x.occupied then true
    else if x.occupied ≤ s.rd (Reg.Q_WM_LWM_KIB q) * 1024 then false
    else was
  (s.wrB (Reg.Q_STAT_ABOVE q) now).raiseIf (was ≠ now) 3 1

/-- Whether pin WATERk_N is driven low (R440). -/
def Dev.waterLow (s : Dev) (k : Nat) : Bool :=
  (List.range 32).any fun q =>
    s.on (Reg.Q_CFG_EN q) && s.on (Reg.Q_CFG_WPIN_EN q) && decide (s.rd (Reg.Q_CFG_WPIN q) = k) && s.on (Reg.Q_STAT_ABOVE q)

/-! ## Landing slots (R435, Table 15.3) -/

/-- Bytes of a landing slot of queue `q`. -/
def Dev.slotBytes (s : Dev) (q : Nat) : Nat :=
  512 * 2 ^ s.rd (Reg.Q_LAND_SIZE q)

/-- The window offset of landing slot `k` of queue `q`. -/
def Dev.slotAt (s : Dev) (q k : Nat) : Nat :=
  s.rd (Reg.Q_LAND_OFFSET q) + k * s.slotBytes q

/-- Bytes 0 to 63 of a landing slot: Table 15.3. Numbers stand least significant byte first (DESIGN CHOICE, log 22). -/
def landingHead (size seq : Nat) (i : QItem) : List Byte :=
  bytesLE 2 i.bytes.length ++ bytesLE 1 i.kind ++
  bytesLE 1 (ofBool (decide (size - 64 < i.bytes.length)) + 2 * ofBool i.poisoned) ++ bytesLE 2 i.source ++ bytesLE 2 seq ++
  timeBytesLE i.time ++ List.replicate 44 0

/-- A landing slot's contents: its head, and the item cut to the slot. -/
def landing (size seq : Nat) (i : QItem) : List Byte :=
  landingHead size seq i ++ i.bytes.take (size - 64)

/-- The stalled read and the watermarks after a change of a queue's configuration: a read whose queue is no longer enabled completes with DISABLED (R437), and
the watermarks are compared anew. -/
def Dev.settleQueue (q : Nat) (s : Dev) : Dev :=
  let s := if s.on (Reg.Q_STAT_STALLING q) && !s.on (Reg.Q_CFG_EN q) then
      { s.wr (Reg.Q_STAT_STALLING q) 0 with readData := [BitVec.ofNat 32 3], readPoisoned := false }
    else s
  s.showQueue q

/-- The queue that a cell of page 0x042 configures (Table 15.9). -/
def queueOfCell (c : Nat) : Nat :=
  let off := 4 * (c - regCell 0x042 0)
  if off < 0x0C0 then (off - 0x040) / 4 else if off < 0x1C0 then (off - 0x0C0) / 8 else (off - 0x1C0) / 8

/-- The next item boundary of a queue: its committed values that wait are in force (R448). -/
def Dev.itemBoundary (q : Nat) (s : Dev) : Dev :=
  let mine (x : Later) : Bool := decide (x.page = 0x042) && decide (x.bnd = .item) && decide (queueOfCell x.cell = q)
  if s.later.any mine then (s.putWaiting mine).settleQueue q else s

/-- The item boundary of every queue at which no item waits: such a queue stands between two items (R448). -/
def Dev.emptyBoundaries (s : Dev) : Dev :=
  (List.range 32).foldl (fun s q => if (s.qu q).waiting = [] then s.itemBoundary q else s) s

/-- The next item that a pop takes, with its mark of a poisoned word (R434, R495). -/
def Queue.markNext (best : List QItem → Option QItem) (x : Queue) : Queue :=
  match best x.waiting with
  | some i => { x with waiting := x.waiting.map fun j => if j.order = i.order then { j with poisoned := true } else j }
  | none => x

/-- The waiting item of highest priority, the earliest within one priority (R434). -/
def bestItem : List QItem → Option QItem
  | [] => none
  | i :: r =>
    match bestItem r with
    | none => some i
    | some j => if i.prio < j.prio then some j else some i

/-- The lowest free landing slot. -/
def Dev.freeSlot (s : Dev) (q : Nat) : Option Nat :=
  (List.range (s.rd (Reg.Q_LAND_SLOTS_M1 q) + 1)).find? fun k => (s.qu q).held.all fun h => h.slot ≠ k

/-- The codes that a read of Q_POP returns (R435). -/
abbrev popEmpty : Nat := 1
abbrev popNoSlot : Nat := 2
abbrev popDisabled : Nat := 3
abbrev popNotHost : Nat := 4

/-- A read completed with a word. -/
def Dev.returns (w : Nat) (s : Dev) : Dev :=
  { s with readData := [BitVec.ofNat 32 w], readPoisoned := false }

/-- An item popped: copied to the lowest free landing slot, its handle returned; NO_SLOT with E-03.03 where none is free (R435). -/
def Dev.popItem (q : Nat) (i : QItem) (s : Dev) : Dev :=
  match s.freeSlot q with
  | none => (s.returns popNoSlot).raise 3 3
  | some k =>
    let x := s.qu q
    let seq := s.rd (Reg.Q_STAT_NEXT_SEQ q)
    let s := s.storeMarked (winAddr (s.slotAt q k)) (landingHead (s.slotBytes q) seq i) i.bytes (s.slotBytes q - 64) i.poisoned
    let s := s.setQu q { x with waiting := x.waiting.filter (fun j => j.order ≠ i.order), held := x.held ++ [⟨k, seq, i⟩] }
    let s := (s.wr (Reg.Q_STAT_NEXT_SEQ q) (seq + 1)).showQueue q
    s.returns (2 ^ 31 + i.prio * 2 ^ 28 + k * 2 ^ 16 + seq)

/-- A stalled read of the queue served where an item waits now (R437). -/
def Dev.serveStall (q : Nat) (s : Dev) : Dev :=
  if s.on (Reg.Q_STAT_STALLING q) then
    match bestItem (s.qu q).waiting with
    | some i => (s.wr (Reg.Q_STAT_STALLING q) 0).popItem q i
    | none => s
  else s

/-- A queue after its waiting items have grown: E-03.00 where a host-consumed queue was empty, and a stalled read (Table 15.6, R437). -/
def Dev.grown (q : Nat) (wasEmpty : Bool) (s : Dev) : Dev :=
  ((s.showQueue q).raiseIf (wasEmpty && decide ((s.qu q).waiting ≠ []) && !s.on (Reg.Q_CFG_CONSUMER q)) 3 0).serveStall q

/-- Whether an item fits its queue (R433). -/
def Dev.queueFits (s : Dev) (q : Nat) (i : QItem) : Bool :=
  (s.qu q).occupied + i.space ≤ s.rd (Reg.Q_CFG_CAP_KIB q) * 1024

/-- An item offered to a queue (R433): it waits, or is refused with Q_DROP and E-03.02 where it does not fit. A disabled queue takes
none (DESIGN CHOICE, log 22). Answers whether it was taken. -/
def Dev.queueArrive (q : Nat) (i : QItem) (s : Dev) : Bool × Dev :=
  if !s.on (Reg.Q_CFG_EN q) then (false, s)
  else if s.queueFits q i then
    let x := s.qu q
    let s := s.setQu q { x with waiting := x.waiting ++ [{ i with order := x.arrivals }], arrivals := x.arrivals + 1 }
    (true, s.grown q (x.waiting = []))
  else (false, (s.bump (Reg.Q_DROP q)).raise 3 2)

/-- QUEUE_ITEM_ARRIVE: an item of the service core (KIND 3), with the queue's PRIO_DEF and TIME at arrival (R433, R434, Table 15.3).
The punt path, the Drone and Q_PUSH offer theirs in their own commands. -/
def execQueueItemArrive (q : Fin 32) (poisoned : Bool) (bytes : List Byte) (s : State) : Out :=
  s.run fun s =>
    let s := s.itemBoundary q
    if s.hubOn then (s.queueArrive q ⟨s.rd (Reg.Q_CFG_PRIO_DEF q), 3, 0, poisoned, s.time, 0, bytes⟩).2 else s

/-! ## Pops -/

/-- A host read of a register: counted as an access (R462), and acting where the page answers; a page that does not answer reads 0
(R424, R477). -/
def Dev.onRead (page off : Nat) (act : Dev → Dev) (s : Dev) : Dev :=
  let s := s.access 0 page off
  if s.pageLive page then act s else s.returns 0

/-- A read of Q_POP[q] (R435, R437, R438): DISABLED and NOT_HOST first, then an item, a stall on the head, or EMPTY. -/
def Dev.qPop (q : Nat) (s : Dev) : Dev :=
  let s := s.itemBoundary q
  if !s.on (Reg.Q_CFG_EN q) then s.returns popDisabled
  else if s.on (Reg.Q_CFG_CONSUMER q) then s.returns popNotHost
  else if s.on (Reg.Q_STAT_STALLING q) then s.returns popEmpty
  else match bestItem (s.qu q).waiting with
    | some i => s.popItem q i
    | none =>
      if s.on Reg.STRAPS_CHAIN_HEAD ∧ s.rd Reg.Q_STALL_STALL_US ≠ 0 then
        { s.wr (Reg.Q_STAT_STALLING q) 1 with readData := [] }
      else s.returns popEmpty

/-- Q_POP: a read of Q_POP[q] (R435). -/
def execQPop (q : Fin 32) (s : State) : Out :=
  s.run fun s => s.onRead queuePage (0x040 + 4 * q) (Dev.qPop q)

/-- Q_POP_STALL_EXPIRE: a stalled read completes with EMPTY (R437). -/
def execQPopStallExpire (q : Fin 32) (s : State) : Out :=
  s.run fun s =>
    if s.on (Reg.Q_STAT_STALLING q) then (s.wr (Reg.Q_STAT_STALLING q) 0).returns popEmpty else s

/-! ## Q_CTL (R436, R449) -/

/-- A queue command refused: counted, with E-03.05. -/
def Dev.queueRefused (s : Dev) : Dev :=
  (s.viol queuePage).raise 3 5

/-- The fields of Q_CTL: the command bits and SEQ. -/
def qCtlOwn : Word := 0xFFFF0007#32

/-- A write of Q_CTL[q] with command bit `bit` set: refused where another is set too or the queue is the service core's. -/
def Dev.qCtl (q bit : Nat) (v : Word) (act : Dev → Dev) (s : Dev) : Dev :=
  s.hostWrite queuePage (0x0C0 + 4 * q) qCtlOwn v fun s =>
    if getBits v 0 3 &&& (7 - 2 ^ bit) ≠ 0 ∨ s.on (Reg.Q_CFG_CONSUMER q) then s.queueRefused else act s

/-- MARK: the next SEQ becomes the mark. -/
def Dev.qMark (q : Nat) (s : Dev) : Dev :=
  (s.setQu q { s.qu q with mark := some (s.rd (Reg.Q_STAT_NEXT_SEQ q)) }).showQueue q

/-- Q_MARK: a write of Q_CTL[q] with MARK set. -/
def execQMark (q : Fin 32) (v : Word) (s : State) : Out :=
  s.run fun s => s.qCtl q 0 v (Dev.qMark q)

/-- An item put back among the waiting ones at its place in the order of arrival. -/
def insertItem (i : QItem) : List QItem → List QItem
  | [] => [i]
  | j :: r => if i.order < j.order then i :: j :: r else j :: insertItem i r

/-- Whether SEQ `a` is at or after SEQ `b`, modulo 65,536 (R436). -/
def seqFrom (b a : Nat) : Bool :=
  (a + 65536 - b) % 65536 < 32768

/-- REWIND: the held items from the mark on wait again at their places, and the next SEQ is the mark. -/
def Dev.qRewind (q : Nat) (s : Dev) : Dev :=
  let x := s.qu q
  match x.mark with
  | none => s.queueRefused
  | some m =>
    let back := x.held.filter fun h => seqFrom m h.seq
    let s := s.setQu q { x with
      held := x.held.filter (fun h => !seqFrom m h.seq)
      waiting := back.foldl (fun w h => insertItem h.item w) x.waiting }
    (s.wr (Reg.Q_STAT_NEXT_SEQ q) m).grown q (x.waiting = [])

/-- Q_REWIND: a write of Q_CTL[q] with REWIND set. -/
def execQRewind (q : Fin 32) (v : Word) (s : State) : Out :=
  s.run fun s => s.qCtl q 1 v (Dev.qRewind q)

/-- RELEASE: the held items at or before a SEQ free their slots and space, and a mark among them moves behind it. A SEQ that no held item
has is refused. -/
def Dev.qRelease (q seq : Nat) (s : Dev) : Dev :=
  let x := s.qu q
  if x.held.any fun h => h.seq = seq then
    let gone := x.held.filter fun h => seqFrom h.seq seq
    let mark := match x.mark with
      | some m => if gone.any fun h => h.seq = m then some ((seq + 1) % 65536) else some m
      | none => none
    (s.setQu q { x with held := x.held.filter (fun h => !seqFrom h.seq seq), mark := mark }).showQueue q
  else s.queueRefused

/-- Q_RELEASE: a write of Q_CTL[q] with RELEASE set, SEQ in bits 31:16. -/
def execQRelease (q : Fin 32) (v : Word) (s : State) : Out :=
  s.run fun s => s.qCtl q 2 v (Dev.qRelease q (getBits v 16 16))

/-- A write of Q_CTL[q] by the command bits it sets; one that sets none acts on nothing. -/
def Dev.qCtlWrite (q : Nat) (v : Word) (s : Dev) : Dev :=
  if v.getLsbD 0 then s.qCtl q 0 v (Dev.qMark q)
  else if v.getLsbD 1 then s.qCtl q 1 v (Dev.qRewind q)
  else if v.getLsbD 2 then s.qCtl q 2 v (Dev.qRelease q (getBits v 16 16))
  else s.hostWrite queuePage (0x0C0 + 4 * q) qCtlOwn v fun s => if s.on (Reg.Q_CFG_CONSUMER q) then s.queueRefused else s

/-! ## Pushes (R439, R449) -/

/-- A write of Q_PUSH. -/
def Dev.qPush (v : Word) (s : Dev) : Dev :=
  s.hostWrite queuePage 0x2C4 0x100#32 v fun s =>
    if !v.getLsbD 8 then s
    else if s.on Reg.Q_PUSH_STAT_BUSY then s.viol queuePage
    else
      let p : Push := ⟨s.rd Reg.Q_PUSH_QUEUE, s.rd Reg.Q_PUSH_PRIO, s.rd Reg.Q_PUSH_LENGTH, s.rd Reg.Q_PUSH_SRC_OFFSET⟩
      { s.wr Reg.Q_PUSH_STAT_BUSY 1 with push := some p }

/-- Q_PUSH: a write of Q_PUSH with GO set. -/
def execQPush (v : Word) (s : State) : Out :=
  s.run (Dev.qPush (v ||| 0x100#32))

/-- A push ends: RESULT 4 for a source outside the home region, 3 for a disabled queue, 2 for a full one, 1 where it is queued. -/
def Dev.pushEnd (p : Push) (bytes : List Byte) (s : Dev) : Dev :=
  let s := { s.wr Reg.Q_PUSH_STAT_BUSY 0 with push := none }.itemBoundary p.queue
  let r : Nat × Dev :=
    if !inWindow p.src p.length then (4, s)
    else if !s.on (Reg.Q_CFG_EN p.queue) then (3, s)
    else
      let a := s.queueArrive p.queue ⟨p.prio, 2, 0, false, s.time, 0, bytes⟩
      (if a.1 then 1 else 2, a.2)
  (r.2.wr Reg.Q_PUSH_STAT_RESULT r.1).raise 3 4

/-- Q_PUSH_COMPLETE: the push under way completes, with E-03.04. -/
def execQPushComplete (s : State) : Out :=
  match s.dev.push with
  | none => .next s
  | some p => .next (s.become (s.dev.pushEnd p (s.bytes (winAddr p.src) p.length)))

end Sys2Proof.Machine
end

