-- ==== Sys2Proof/Machine/Drone.lean ====
section
/-!
DEFINITION. The Drone (R304 to R326): bursts and beacons sent, receive paths and fingers, delivery, verification and the neighbour table.
-/
namespace Sys2Proof.Machine

/-! ## The identity key (R324, R517) -/

/-- The seed of the identity private key. -/
def identitySeed : List Byte :=
  (sha512 (Config.deviceSecret ++ [0x53, 0x51, 0x2D, 0x49, 0x44])).take 32

/-- The device identity public key. -/
def identityKey : List Byte :=
  edPublic identitySeed

/-- The KEY_ID of a public key: the first 8 bytes of SHA-512 over it, byte 0 least significant here. -/
def keyIdOf (pub : List Byte) : Nat :=
  fieldLE (sha512 pub) 0 8

/-! ## Transmitters (R307 to R311, R319, R321) -/

/-- The DRONE control page, its tables' page, and the transmitter page of engine `n`. -/
abbrev dronePage : Nat := 0x0A0
abbrev droneTables : Nat := 0x0A1
abbrev droneTxPage (n : Nat) : Nat := 0x0A8 + n

/-- The Drone runs: its block is in service and not under test (Table 18.3). -/
def Dev.droneLive (s : Dev) : Bool :=
  !s.blockOut 60 && !s.bist.run.contains 60

/-- Header bytes 0 to 5 (Table 11.4): `kind` is TYPE. Numbers stand most significant byte first (log 35). -/
def droneHeader (kind flags length seq : Nat) : List Byte :=
  bytesBE 1 (16 + kind) ++ bytesBE 1 flags ++ bytesBE 2 length ++ bytesBE 2 seq

/-- A burst's bytes before its CRC: header with HCRC, and payload. -/
def droneBytes (header payload : List Byte) : List Byte :=
  header ++ bytesBE 2 (crc16 0xFFFF header) ++ payload

/-- The first `n` bytes of DR_TX_BUF of engine `e`. -/
def Dev.droneBuf (s : Dev) (e n : Nat) : List Byte :=
  ((List.range (ceilDiv n 4)).flatMap fun k => bytesLE 4 (s.rd (Reg.DR_TX_BUF e k))).take n

/-- A SEND ignored and counted (R310, R311, R319). -/
def Dev.sendIgnored (n : Nat) (s : Dev) : Dev :=
  (s.viol (droneTxPage n)).raise 8 11

/-- A message not sent: the status shown, with E-08.10 (R319). -/
def Dev.sendFailed (n status req : Nat) (s : Dev) : Dev :=
  let s := (s.wr (Reg.DR_TX_STAT_BUSY n) 0).wr (Reg.DR_TX_STAT_STATUS n) status
  ((s.wr (Reg.DR_TX_STAT_REQ n) req).bump Reg.TX_FAIL.run).raise 8 10

/-- SEND = 1 (R310, R311, R319). SEQ is taken here, since the AAD of a protected payload holds it (log 36). -/
def Dev.droneSend (n : Nat) (s : Dev) : Dev :=
  let sec := s.on (Reg.DR_TX_CTRL_SEC n)
  let len := s.rd (Reg.DR_TX_CTRL_LENGTH n)
  if s.droneFollows n ∨ ¬ s.droneLive ∨ s.on (Reg.DR_TX_STAT_BUSY n) then s.sendIgnored n
  else if (if sec then 2020 else 2048) < len then (s.wr (Reg.DR_TX_STAT_STATUS n) 3).sendIgnored n
  else
    let t := s.dtx n
    let flags := ofBool sec + 2 * s.rd (Reg.DR_TX_CTRL_WAKE n)
    let header := droneHeader 0 flags (if sec then len + 28 else len) t.seq
    let data := s.droneBuf n len
    let t := { t with seq := (t.seq + 1) % 65536 }
    if sec ∧ s.blockOut 61 then s.tick.sendFailed n 2 s.free
    else if sec then
      let s := (s.setDtx n { t with sealing := true }).wr (Reg.DR_TX_STAT_BUSY n) 1
      { s with droneReqs := s.droneReqs ++ [⟨n, header, data⟩] }
    else (s.setDtx n { t with waiting := some (droneBytes header data) }).wr (Reg.DR_TX_STAT_BUSY n) 1

/-- The bits of DR_TX_CTRL whose effect DRONE_SEND has. -/
def droneSendOwn : Word := 0x4000#32

/-- A write of DR_TX_CTRL of engine `n` (R310). -/
def Dev.droneTxCtrl (n : Nat) (v : Word) (s : Dev) : Dev :=
  s.hostWrite (droneTxPage n) 0x048 droneSendOwn v fun s => if v.getLsbD 14 then s.droneSend n else s

/-- DRONE_SEND: a write of DR_TX_CTRL of engine `n` with SEND set. -/
def execDroneSend (n : Fin 8) (v : Word) (s : State) : Out :=
  s.run (Dev.droneTxCtrl n (v ||| droneSendOwn))

/-- BEACON_DUE: the beacon interval of engine `n` has elapsed (R321). None falls due while the identity key does not sign (Table 19.1), and
none on the odd engine of a twin pair (R311). -/
def execBeaconDue (n : Fin 8) (s : State) : Out :=
  s.run fun s =>
    if s.hubOn ∧ s.lineOn n ∧ s.droneLive ∧ s.on Reg.DR_CTRL_BCN_EN ∧ s.identitySigns ∧ ¬ s.droneFollows n then
      s.setDtx n { s.dtx n with beacon := true }
    else s

/-- The beacon payload of engine `n` (Table 11.8). -/
def Dev.beaconPayload (s : Dev) (n : Nat) : List Byte :=
  let label := (List.range 4).flatMap fun k => bytesLE 4 (s.rd (Reg.DR_LABEL_LABEL k))
  let body := [1, BitVec.ofNat 8 (n + 8 * ofBool (s.txTwin n)), BitVec.ofNat 8 (s.rd (Reg.DR_TX_CFG_SUBC n)),
    BitVec.ofNat 8 (s.rd (Reg.DR_TX_CFG_CODE n))] ++ identityKey ++ label ++ List.replicate 4 0 ++
    bytesBE 8 (s.vault.epoch * 2 ^ 48 + s.drone.sentBeacons)
  body ++ edSign identitySeed body

/-! ## The burst's symbols and chips (R305 to R307) -/

/-- `n` chips of an m-sequence from a register of six chips: the lowest goes out and the sum of those that `taps` selects comes in at the top (R306; which
end of the seed is the first chip DEDUCED, log 194). -/
def mSequence (taps : Nat) : Nat → Nat → List Bool
  | 0, _ => []
  | n + 1, r => bitAt r 0 :: mSequence taps n (r / 2 + 32 * (popCount 6 (r &&& taps) % 2))

/-- The 64 chips of code `k`; true is chip −1 (R306; sequence b is the one that is shifted, DEDUCED, log 194). -/
def droneCode (k : Nat) : List Bool :=
  let a := mSequence 0b000011 63 1
  let b := mSequence 0b100111 63 1
  (if k = 0 then a else if k = 63 then b else List.zipWith xor a (b.drop (k - 1) ++ b.take (k - 1))) ++ [false]

/-- The convolutional code of rate 1/2: for each information bit b1 from generator 171 and b0 from generator 133, octal, whose highest bit weighs the
newest bit (R307; the weight of the bits DEDUCED, log 194). The state is the six bits before, the newest highest. -/
def convolve : Nat → List Bool → List Nat
  | _, [] => []
  | st, b :: r =>
    let w := 64 * ofBool b + st
    (2 * (popCount 7 (w &&& 0b1111001) % 2) + popCount 7 (w &&& 0b1011011) % 2) :: convolve (w / 2) r

/-- The sync word (Table 11.3). -/
abbrev syncWord : Nat := 0x5B8E2C4D

/-- Symbol `k` of 16 in a word, the most significant first. -/
def syncSymbol (w k : Nat) : Nat :=
  w / 4 ^ (15 - k) % 4

/-- The bit pairs of a burst between its ramps: preamble, sync word, and the coded body of the given bytes with its tail (Table 11.3, R307). -/
def droneSymbols (air : List Byte) : List Nat :=
  List.replicate 32 0 ++ (List.range 16).map (syncSymbol syncWord) ++ convolve 0 (byteBits air ++ List.replicate 6 false)

/-- A bit pair turned by `k` quarters: with each, I becomes −Q and Q becomes I (R305). -/
def turnSymbol : Nat → Nat → Nat
  | 0, p => p
  | k + 1, p => let q := turnSymbol k p; 2 * (1 - q % 2) + q / 2

/-- The symbols of 16 that are not the sync word's under a rotation of `k` quarters. -/
def syncWrong (w : Nat) (k : Nat) : Nat :=
  ((List.range 16).filter fun i => decide (syncSymbol w i ≠ turnSymbol k (syncSymbol syncWord i))).length

/-- The rotation under which at most 2 of 16 symbols are wrong, where there is one (R316). -/
def syncRotation (w : Nat) : Option Nat :=
  (List.range 4).find? fun k => decide (syncWrong w k ≤ 2)

/-- A burst put on the air with the settings now in force (R326); the odd engine of a twin pair inserts it where its own EN is 1 (R55, R65). -/
def Dev.droneStart (n : Nat) (beacon : Bool) (bytes : List Byte) (s : Dev) : Dev :=
  let air := bytes ++ bytesBE 4 (crc32 bytes)
  let s := s.setDtx n { s.dtx n with
    sending := some (beacon, air, s.rd (Reg.DR_TX_CFG_SUBC n), s.rd (Reg.DR_TX_CFG_CODE n), s.rd (Reg.DR_TX_CFG_DEPTH n),
      s.rd (Reg.DR_TX_RAMP_RAMP_US n))
    symbols := droneSymbols air, chips := droneCode (s.rd (Reg.DR_TX_CFG_CODE n)) }
  let s := (s.wr (Reg.DR_TX_STAT_SEQ n) (fieldBE bytes 4 2)).wr (Reg.TX_DRONE_INS_ACTIVE n) 1
  if s.txTwin n ∧ s.on (Reg.TX_DRONE_INS_EN (n + 1)) then s.wr (Reg.TX_DRONE_INS_ACTIVE (n + 1)) 1 else s

/-- Whether engine `n` may start a burst (R309, R311). -/
def Dev.mayBurst (s : Dev) (n : Nat) : Bool :=
  s.hubOn && s.droneLive && !s.droneFollows n && (s.dtx n).sending.isNone && decide (s.rd (Reg.TX_STATE_STATE n) = txLit) &&
  s.on (Reg.TX_DRONE_INS_EN n)

/-- DRONE_BURST_START: a due beacon, else the waiting message, starts its burst (R309, R310). A beacon's COUNTER is taken here. -/
def execDroneBurstStart (n : Fin 8) (s : State) : Out :=
  s.run fun s =>
    let t := s.dtx n
    if !s.mayBurst n then s
    else if t.beacon && s.identitySigns then
      let bytes := droneBytes (droneHeader 1 0 128 t.seq) (s.beaconPayload n)
      let s := s.setDtx n { t with beacon := false, seq := (t.seq + 1) % 65536 }
      { s with drone := { s.drone with sentBeacons := s.drone.sentBeacons + 1 } }.droneStart n true bytes
    else match t.waiting with
      | some bytes => (s.setDtx n { t with waiting := none }).droneStart n false bytes
      | none => s

/-- DRONE_BURST_COMPLETE: the burst's ramp-down has ended (R308). -/
def execDroneBurstComplete (n : Fin 8) (s : State) : Out :=
  s.run fun s =>
    match (s.dtx n).sending with
    | none => s
    | some (beacon, _) =>
      let s := s.droneEnd n
      let s := if beacon then s.bump Reg.BCN_SENT.run
        else ((s.bump Reg.TX_OK.run).wr (Reg.DR_TX_STAT_BUSY n) 0).wr (Reg.DR_TX_STAT_STATUS n) 0
      s.raise 8 9

/-- Whether engine `n` no longer inserts: it is DARK or MUTED, its EN is 0, or the Drone is off (R55, R309). -/
def Dev.burstOver (s : Dev) (n : Nat) : Bool :=
  let st := s.rd (Reg.TX_STATE_STATE n)
  !(decide (2 ≤ st ∧ st ≤ 4) && s.on (Reg.TX_DRONE_INS_EN n) && s.droneLive)

/-- DRONE_BURST_CUT: the burst is cut where its engine no longer inserts (R309, R55). On the odd engine of a twin pair, which inserts the even engine's burst, its
own insertion alone is cut (DEDUCED, log 160). -/
def execDroneBurstCut (n : Fin 8) (s : State) : Out :=
  s.run fun s =>
    if s.burstOver n then s.cutBurst n else s

/-! ## Paths and fingers (R312 to R316) -/

/-- Whether a receive path is active (R312): a digital one while its engine is LOCKED, a tap one always, since the Finder is powered throughout. -/
def Dev.pathActive (s : Dev) (path : Nat) : Bool :=
  s.lineOn (path % 8) && s.droneLive && s.on Reg.DR_CTRL_RX_EN &&
  (decide (8 ≤ path) || s.hubOn && decide (s.rd (Reg.ACQ_STAT_STATE path) = acqLocked))

/-- A finger of a path; none where it is FREE. -/
def Dev.finger (s : Dev) (path k : Nat) : Option Finger :=
  sget (dflt none) s.drone.fingers (4 * path + k)

/-- The device with a finger changed. -/
def Dev.setFinger (path k : Nat) (f : Option Finger) (s : Dev) : Dev :=
  { s with drone := { s.drone with fingers := sset (dflt none) s.drone.fingers (4 * path + k) f } }

/-- The finger of lowest power of a path that satisfies a condition; the lowest number among equals. -/
def Dev.weakest (s : Dev) (path : Nat) (p : Finger → Bool) : Option (Nat × Finger) :=
  [3, 2, 1, 0].foldl (fun best k =>
    match s.finger path k, best with
    | some f, none => if p f then some (k, f) else none
    | some f, some b => if p f && decide (f.power ≤ b.2.power) then some (k, f) else some b
    | none, b => b) none

/-- A new detection served by the first rule of R314 that applies. -/
def Dev.serveDetection (path : Nat) (f : Finger) (s : Dev) : Dev :=
  match (List.range 4).find? fun k => (s.finger path k).isNone with
  | some k => s.setFinger path k (some f)
  | none =>
    match s.weakest path (fun x => !x.body && decide (x.power < f.power)) with
    | some (k, _) => s.setFinger path k (some f)
    | none =>
      match s.weakest path (fun x => x.body && decide (x.entry = f.entry) &&
          decide (x.power + s.rd Reg.DR_RX_CFG_CAPTURE_DB ≤ f.power)) with
      | some (k, _) => ((s.setFinger path k (some f)).bump Reg.CAPTURED.run).raise 8 6
      | none => (s.bump Reg.NO_FINGER.run).raise 8 7

/-- DRONE_DETECT: a path's searcher sees an enabled entry above DET_THR in two windows, at a despread SNR in 0.1 dB and an offset in Hz.
`known`: its symbol timing lies within ±2 chips of a finger that works the entry (R313). -/
def execDroneDetect (path : Fin 16) (entry : Fin 8) (power freq : Int) (known : Bool) (s : State) : Out :=
  s.run fun s =>
    let i := 8 * path.val + entry.val
    let worked := (List.range 4).any fun k => (s.finger path k).any fun f => decide (f.entry = entry.val)
    if !s.pathActive path || !s.on (Reg.LISTEN_EN i) || decide (power ≤ s.rd Reg.DR_RX_CFG_DET_THR) || (known && worked) then s
    else
      (((s.bump Reg.DET.run).serveDetection path
        ⟨entry.val, s.rd (Reg.LISTEN_SUBC i), s.rd (Reg.LISTEN_CODE i), false, power, s.free, freq, 0, false, 0, 0, []⟩).tick).settleWake

/-- The AFC frozen: it has acquired the offset of the subcarrier where that lies in its pull-in range of ±3 kHz, and a value within the range else, which is free (R315, log 3); the
gain stays as it was handed over. -/
def Finger.freeze (f : Finger) (other : Nat) : Finger :=
  if f.frozen then f
  else { f with frozen := true, freq := if -3000 ≤ f.offset ∧ f.offset ≤ 3000 then f.offset else (other % 6001 : Nat) - 3000 }

/-- AFC_FREEZE: 16 symbols after detection without a sync word (R315). -/
def execAfcFreeze (path : Fin 16) (finger : Fin 4) (s : State) : Out :=
  s.run fun s =>
    match s.finger path finger with
    | some f => if s.pathActive path ∧ ¬ f.body then (s.setFinger path finger (some (f.freeze s.free))).tick else s
    | none => s

/-- FINGER_SYNC_FOUND: the last 16 symbols of a finger, as bit pairs from the most significant. Where they are the sync word under one of the four phase
rotations, with at most 2 wrong, the phase reference is set from that rotation and the time stamped (R316). -/
def execFingerSyncFound (path : Fin 16) (finger : Fin 4) (symbols : Word) (s : State) : Out :=
  s.run fun s =>
    match s.finger path finger, syncRotation symbols.toNat with
    | some f, some k =>
      if s.pathActive path ∧ ¬ f.body then
        (s.setFinger path finger (some { f.freeze s.free with body := true, rotation := k, syncTime := s.time })).tick
      else s
    | _, _ => s

/-- FINGER_ACQ_TIMEOUT: 64 symbols since detection without the sync word (R316). -/
def execFingerAcqTimeout (path : Fin 16) (finger : Fin 4) (s : State) : Out :=
  s.run fun s =>
    match s.finger path finger with
    | some f =>
      if s.pathActive path ∧ ¬ f.body then
        let s := (s.setFinger path finger none).bump Reg.FALSE_DET.run
        { s with drone := { s.drone with falses := sset (dflt 0) s.drone.falses path (sget (dflt 0) s.drone.falses path + 1) } }
      else s
    | none => s

/-- DRONE_FALSE_WINDOW_END: a second of a path ends (R316). -/
def execDroneFalseWindowEnd (path : Fin 16) (s : State) : Out :=
  s.run fun s =>
    let n := sget (dflt 0) s.drone.falses path
    let s := { s with drone := { s.drone with falses := sset (dflt 0) s.drone.falses path 0 } }
    (s.raiseIf (decide (s.rd Reg.DR_THR_FALSE_PER_S < n)) 8 4).settleWake

/-- LENGTH of a header. -/
def droneLength (header : List Byte) : Nat :=
  fieldBE header 2 2

/-- FINGER_HEADER_DECODED: the eight header bytes as decoded (R316). -/
def execFingerHeaderDecoded (path : Fin 16) (finger : Fin 4) (header : List Byte) (s : State) : Out :=
  s.run fun s =>
    match s.finger path finger with
    | some f =>
      if !s.pathActive path || !f.body || f.header ≠ [] then s
      else
        let h := sliceBytes header 0 8
        if crc16 0xFFFF (h.take 6) ≠ fieldBE h 6 2 ∨ 2048 < droneLength h then
          (((s.setFinger path finger none).bump Reg.HDR_ERR.run).raise 8 5).settleWake
        else s.setFinger path finger (some { f with header := h })
    | none => s

/-! ## Delivery (R317, R318) -/

/-- The other path of a path's engine. -/
def otherPath (path : Nat) : Nat :=
  (path + 8) % 16

/-- One second, in ns of the clock. -/
abbrev oneSecond : Nat := 1000000000

/-- The receive item of a burst (Table 11.7). Numbers stand least significant byte first, as in the landing slot (log 22). -/
def droneItem (path k : Nat) (f : Finger) (payload : List Byte) : List Byte :=
  bytesLE 1 path ++ bytesLE 1 k ++ bytesLE 1 f.subc ++ bytesLE 1 f.code ++ f.header.take 6 ++ bytesLE 2 (unsign 16 f.power) ++
  bytesLE 2 (unsign 16 f.freq) ++ timeBytesLE f.syncTime ++ List.replicate 6 0 ++ payload

/-- Two marks name one burst: subcarrier, code, SEQ and CRC-32 (R318). -/
def ItemMark.same (a b : ItemMark) : Bool :=
  decide (a.subc = b.subc) && decide (a.code = b.code) && decide (a.seq = b.seq) && decide (a.crc = b.crc)

/-- A burst offered to RXQ, unless the engine's other path wrote it within 1 s (R318). Answers whether it was written. -/
def Dev.droneToQueue (path k : Nat) (f : Finger) (payload : List Byte) (crc : Nat) (s : Dev) : Bool × Dev :=
  let seq := fieldBE f.header 4 2
  let mark : ItemMark := ⟨path, f.subc, f.code, seq, crc, s.clock⟩
  let recent := s.drone.items.filter fun m => decide (s.clock ≤ m.clock + oneSecond)
  if recent.any (fun m => m.same mark && decide (m.path = otherPath path)) then
    (false, s.bump Reg.DUP.run)
  else
    let q := s.rd Reg.DR_CFG_RXQ
    let s := if s.hubOn then s.itemBoundary q else s
    let a := if s.hubOn then s.queueArrive q ⟨s.rd (Reg.Q_CFG_PRIO_DEF q), 1, path, false, s.time, 0, droneItem path k f payload⟩
      else (false, s)
    if a.1 then (true, { a.2 with drone := { a.2.drone with items := recent ++ [mark] } })
    else (false, (a.2.bump Reg.RXQ_DROP.run).raise 8 12)

/-- A beacon put before the Finder, or dropped as the 17th (R322). -/
def Dev.beaconArrive (path : Nat) (f : Finger) (payload : List Byte) (s : Dev) : Dev :=
  if s.drone.beacons.length < 16 then
    { s with drone := { s.drone with
        beacons := s.drone.beacons ++ [⟨path, f.subc, f.code, f.power, f.freq, bitAt (fieldBE f.header 1 1) 1, s.clock, payload⟩] } }
  else (s.bump Reg.SIG_BACKLOG.run).raise 8 13

/-- A burst with a correct CRC handled by its TYPE (R317, R320: a protected payload is delivered as it is). -/
def Dev.burstIn (path k : Nat) (f : Finger) (payload : List Byte) (crc : Nat) (s : Dev) : Dev :=
  match fieldBE f.header 0 1 % 16 with
  | 0 =>
    let a := s.droneToQueue path k f payload crc
    if a.1 then (a.2.bump Reg.RX_OK.run).raise 8 0 else a.2
  | 1 =>
    let s := s.beaconArrive path f payload
    if s.on Reg.DR_CFG_BCN_TO_Q then (s.droneToQueue path k f payload crc).2 else s
  | _ => (s.bump Reg.HDR_ERR.run).raise 8 5

/-- FINGER_BODY_END: the body ends, with the payload and the CRC-32 as decoded (R316, R317). -/
def execFingerBodyEnd (path : Fin 16) (finger : Fin 4) (payload : List Byte) (crc : Word) (s : State) : Out :=
  s.run fun s =>
    match s.finger path finger with
    | some f =>
      if !s.pathActive path || !f.body || f.header = [] then s
      else
        let data := sliceBytes payload 0 (droneLength f.header)
        let s := s.setFinger path finger none
        let s := if crc32 (f.header ++ data) = crc.toNat then s.burstIn path finger f data crc.toNat
          else (s.bump Reg.CRC_ERR.run).raise 8 5
        s.settleWake
    | none => s

/-! ## Verification and the neighbour table (R322 to R324) -/

/-- KEY_ID of a neighbour entry and of an expected neighbour. -/
def Dev.nbrKey (s : Dev) (i : Nat) : Nat := s.rd (Reg.NBR_KEY_ID_LO i) + 2 ^ 32 * s.rd (Reg.NBR_KEY_ID_HI i)
def Dev.expKey (s : Dev) (n : Nat) : Nat := s.rd (Reg.NBR_EXP_KEY_ID_LO n) + 2 ^ 32 * s.rd (Reg.NBR_EXP_KEY_ID_HI n)

/-- An entry on either path of engine `n` holds the expected KEY_ID. -/
def Dev.expHeard (s : Dev) (n : Nat) : Bool :=
  (List.range 128).any fun i =>
    s.on (Reg.NBR_VALID i) && decide (s.rd (Reg.NBR_PATH i) % 8 = n) && decide (s.nbrKey i = s.expKey n)

/-- EXP_MISSING[n] and MISCONNECT[n]. -/
def missingBit (n : Nat) : Field := ⟨Reg.DR_FLAGS_EXP_MISSING.cell, Reg.DR_FLAGS_EXP_MISSING.lsb + n, 1⟩
def misconnectBit (n : Nat) : Field := ⟨Reg.DR_FLAGS_MISCONNECT.cell, Reg.DR_FLAGS_MISCONNECT.lsb + n, 1⟩

/-- EXP_MISSING cleared where an entry holds the expected KEY_ID (R324); `quiet` where a duplicate has brought it, which raises no event (R322; DEDUCED, log
195). -/
def Dev.settleMissing (n : Nat) (quiet : Bool) (s : Dev) : Dev :=
  if s.on (Reg.NBR_EXP_EN n) ∧ s.on (missingBit n) ∧ s.expHeard n then (s.wr (missingBit n) 0).raiseIf (!quiet) 8 3 else s

/-- EXPECTED of every entry, and EXP_MISSING, after NBR_EXP[n] has changed. -/
def Dev.settleExpected (n : Nat) (s : Dev) : Dev :=
  let s := (List.range 128).foldl (fun s i =>
    if s.on (Reg.NBR_VALID i) ∧ s.rd (Reg.NBR_PATH i) % 8 = n then s.wrB (Reg.NBR_EXPECTED i) (s.nbrKey i = s.expKey n) else s) s
  s.settleMissing n false

/-- The entry of a key and path. -/
def Dev.nbrOf (s : Dev) (path key : Nat) : Option Nat :=
  (List.range 128).find? fun i => s.on (Reg.NBR_VALID i) && decide (s.rd (Reg.NBR_PATH i) = path) && decide (s.nbrKey i = key)

/-- When an entry was heard last. -/
def Dev.nbrHeard (s : Dev) (i : Nat) : Nat :=
  sget (dflt 0) s.drone.heard i

/-- The entry heard least recently, the lowest number among equals. -/
def Dev.nbrOldest (s : Dev) : Nat :=
  (List.range 128).foldl (fun b i => if s.nbrHeard i < s.nbrHeard b then i else b) 0

/-- An entry filled from an accepted beacon (Table 11.13). -/
def Dev.nbrFill (i : Nat) (b : Beacon) (s : Dev) : Dev :=
  let key := keyIdOf (sliceBytes b.payload 4 32)
  let counter := fieldBE b.payload 56 8
  let n := b.path % 8
  let w0 := 1 + 2 * b.path + 2 ^ 8 * b.subc + 2 ^ 16 * b.code + 2 ^ 24 * ofBool (decide (key = s.expKey n))
  let ws := [w0, key, key / 2 ^ 32] ++ (List.range 4).map (fun k => fieldLE b.payload (36 + 4 * k) 4) ++
    [counter, counter / 2 ^ 32, s.time / 65536 / 1000000000, unsign 16 b.power + 2 ^ 16 * unsign 16 b.freq, fieldLE b.payload 1 1]
  let s := s.setWords (tableCell tableNBR.id i 0) (ws.map fun w => BitVec.ofNat 32 w)
  { s with drone := { s.drone with heard := sset (dflt 0) s.drone.heard i s.clock } }

/-- The neighbour table updated by an accepted beacon; `quiet` for a duplicate, which raises no event (R322, R323). -/
def Dev.nbrUpdate (b : Beacon) (quiet : Bool) (s : Dev) : Dev :=
  match s.nbrOf b.path (keyIdOf (sliceBytes b.payload 4 32)) with
  | some i => s.nbrFill i b
  | none =>
    match (List.range 128).find? fun i => !s.on (Reg.NBR_VALID i) with
    | some i => (s.nbrFill i b).raiseIf (!quiet) 8 1
    | none => ((s.nbrFill s.nbrOldest b).bump Reg.NBR_EVICT.run).raiseIf (!quiet) 8 1

/-- MISCONNECT decided by a beacon that a digital path accepts (R324); `quiet` for a duplicate, as for EXP_MISSING (DEDUCED, log 195). -/
def Dev.misconnect (b : Beacon) (quiet : Bool) (s : Dev) : Dev :=
  let n := b.path
  if b.path < 8 ∧ s.on (Reg.NBR_EXP_EN n) then
    let now := decide (keyIdOf (sliceBytes b.payload 4 32) ≠ s.expKey n)
    let was := s.on (misconnectBit n)
    (s.wrB (misconnectBit n) now).raiseIf (was ≠ now && !quiet) 8 2
  else s

/-- What an accepted beacon does (R323, R324, R478). -/
def Dev.beaconAccept (b : Beacon) (quiet : Bool) (s : Dev) : Dev :=
  let s := ((s.nbrUpdate b quiet).misconnect b quiet).settleMissing (b.path % 8) quiet
  if b.wake ∧ 8 ≤ b.path ∧ s.on Reg.FINDER_CTRL_WAKE_DRONE ∧ keyIdOf (sliceBytes b.payload 4 32) = s.expKey (b.path % 8) then
    s.wake 5 0 (b.path % 8)
  else s

/-- A beacon's signature and fields hold (R322). FORMAT and LENGTH are fields of it too (DEDUCED, log 195). -/
def Beacon.sound (b : Beacon) : Bool :=
  decide (b.payload.length = 128) && decide (fieldLE b.payload 0 1 = 1) && decide (fieldLE b.payload 2 1 = b.subc) &&
  decide (fieldLE b.payload 3 1 = b.code) &&
  edVerify (sliceBytes b.payload 4 32) (sliceBytes b.payload 0 64) (sliceBytes b.payload 64 64)

/-- A beacon accepted as new: the key's mark moves to it (R322). -/
def Dev.beaconNew (b : Beacon) (key : List Byte) (counter : Nat) (s : Dev) : Dev :=
  let keys := s.drone.keys.filter (fun m => decide (m.key ≠ key)) ++ [⟨key, counter, b.path, s.clock⟩]
  ({ s with drone := { s.drone with keys := keys } }.bump Reg.BCN_OK.run).beaconAccept b false

/-- A beacon verified (R322): accepted, a duplicate, a bad signature or field, or a replay. A copy is in time by its arrival. -/
def Dev.beaconVerify (b : Beacon) (s : Dev) : Dev :=
  if !b.sound then (s.bump Reg.SIG_FAIL.run).raise 8 8
  else
    let key := sliceBytes b.payload 4 32
    let counter := fieldBE b.payload 56 8
    match s.drone.keys.find? fun m => decide (m.key = key) with
    | some m =>
      if m.counter < counter then s.beaconNew b key counter
      else if counter = m.counter ∧ b.path = otherPath m.path ∧ b.clock ≤ m.clock + oneSecond then
        (s.bump Reg.DUP.run).beaconAccept b true
      else (s.bump Reg.REPLAY.run).raise 8 8
    | none => s.beaconNew b key counter

/-- BEACON_VERIFY: the Finder verifies the beacon that has waited longest (R322). -/
def execBeaconVerify (s : State) : Out :=
  s.run fun s =>
    match s.drone.beacons with
    | b :: r =>
      if s.on Reg.FINDER_STAT_BOOTED then
        (({ s with drone := { s.drone with beacons := r } }).beaconVerify b).settleWake
      else s
    | [] => s

/-- NBR_AGE_EXPIRED: an entry has not been refreshed for AGE_S (R323). -/
def execNbrAgeExpired (i : Fin 128) (s : State) : Out :=
  s.run fun s =>
    if s.on (Reg.NBR_VALID i) then
      let s := s.setWords (tableCell tableNBR.id i 0) (List.replicate 12 0)
      let s := { s with drone := { s.drone with heard := sset (dflt 0) s.drone.heard i 0 } }
      (s.raise 8 1).settleWake
    else s

/-- EXP_MISSING_TIMEOUT: the expected KEY_ID of engine `n` has stood in no entry for AGE_S (R324). -/
def execExpMissingTimeout (n : Fin 8) (s : State) : Out :=
  s.run fun s =>
    if s.on (Reg.NBR_EXP_EN n) ∧ ¬ s.expHeard n ∧ ¬ s.on (missingBit n) then ((s.wr (missingBit n) 1).raise 8 3).settleWake else s

end Sys2Proof.Machine
end

