-- ==== Sys2Proof/Machine/Outputs.lean ====
section
/-!
DEFINITION. The outputs CLKOUT0 to CLKOUT7 (R349, R350): stopped by a change of KIND or FREQ_HZ, started again on a whole period, their edges
moved at ALIGN_PPB; and the level of a pin.
-/
namespace Sys2Proof.Machine

/-- An output. -/
def Dev.output (s : Dev) (k : Nat) : Output :=
  sget (dflt Output.reset) s.sid.outs k

/-- The device with an output changed. -/
def Dev.setOutput (k : Nat) (x : Output) (s : Dev) : Dev :=
  { s with sid := { s.sid with outs := sset (dflt Output.reset) s.sid.outs k x } }

/-- PHASE_PS of an output, 10^-6 ps. -/
def Dev.outPhase (s : Dev) (k : Nat) : Int :=
  s.rdS (Reg.OUT_PHASE_PS k) * 1000000

/-- A value moved towards another by at most `by_`. -/
def moveTo (by_ : Nat) (goal x : Int) : Int :=
  if x < goal then min goal (x + by_) else max goal (x - by_)

/-- The outputs at a commit of the OUT table: a changed KIND or FREQ_HZ stops its output (R350). `old` is the device before it. -/
def Dev.outsCommit (old s : Dev) : Dev :=
  (List.range 8).foldl (fun s k =>
    if s.rd (Reg.OUT_KIND k) ≠ old.rd (Reg.OUT_KIND k) ∨ s.rd (Reg.OUT_FREQ_HZ k) ≠ old.rd (Reg.OUT_FREQ_HZ k) then s.setOutput k Output.reset
    else s) s

/-- The DPLL's own count, in 2^-16 ns: what its output has run since the device was powered, no slew of TIME or PACE in it. -/
def Dev.dpllCount (s : Dev) : Nat :=
  s.clock * 65536 + s.sid.clockRest

/-- An output over one frame, in which the DPLL's count has run by `span`: one that is stopped starts again with the frame tick, at PHASE_PS; the edges of one that runs move
towards PHASE_PS at ALIGN_PPB (R350; the instant of the start DESIGN CHOICE, log 189). -/
def Dev.outTick (s : Dev) (span k : Nat) (x : Output) : Output :=
  if s.rd (Reg.OUT_KIND k) = 0 then Output.reset
  else match x.ran with
    | none => ⟨some 0, s.outPhase k⟩
    | some r => { x with
        ran := some (r + span)
        phase := moveTo (1280 * s.rd Reg.OUT_ALIGN_ALIGN_PPB) (s.outPhase k) x.phase }

/-- The outputs over one frame. -/
def Dev.outsTick (span : Nat) (s : Dev) : Dev :=
  (List.range 8).foldl (fun s k => s.setOutput k (s.outTick span k (s.output k))) s

/-- The pulse period of an output of kind 2 or 3, 2^-16 ns: a second, or 2^FS_DIV multiframes of 256 frames (R349). -/
def Dev.pulsePeriod (s : Dev) (k : Nat) : Nat :=
  65536 * (if s.rd (Reg.OUT_KIND k) = 2 then 1000000000 else 2 ^ s.rd (Reg.OUT_FS_DIV k) * 256 * 1280)

/-- The level of pin CLKOUT k now (R349): a clock of FREQ_HZ that the DPLL's own count makes; a pulse of PULSE_NS at each PACE second or at the multiframe
starts that FS_DIV selects; every edge shifted by the phase. A period that began before the output started shows nothing (R350). -/
def Dev.outLevel (s : Dev) (k : Nat) : Bool :=
  match (s.output k).ran with
  | none => false
  | some ran =>
    let shift := (s.output k).phase * 65536 / 1000000000
    match s.rd (Reg.OUT_KIND k) with
    | 0 => false
    | 1 =>
      let second : Int := 65536 * 1000000000
      let hz : Int := s.rd (Reg.OUT_FREQ_HZ k)
      let pos := ((ran : Int) - shift) * hz % second
      decide (pos ≤ ran * hz) && decide (pos * 2 < second)
    | _ =>
      let period := s.pulsePeriod k
      let pos := ((s.pace : Int) - shift) % period
      decide (pos ≤ ran) && decide (pos < (min (65536 * s.rd (Reg.OUT_PULSE_NS k)) (period / 2) : Nat))

end Sys2Proof.Machine
end

