-- ==== Sys2Proof/Machine/Almanac.lean ====
section
/-!
DEFINITION. The Almanac (R441 to R446): chunk digests, page leaves and the device digest, the journal, and the collection of the
digests of a chain.
-/
namespace Sys2Proof.Machine

/-! ## The configuration covered (R441, Table 15.4) -/

/-- A cell with every committed value in it, in force or not (R442). -/
def Dev.committed (s : Dev) (c : Nat) : Word :=
  s.later.foldl (fun w l => if l.cell = c then (w &&& ~~~ l.mask) ||| (l.value &&& l.mask) else w) (s.word c)

/-- The bits of a word that are configuration in a table: RW and RWA fields. -/
def configBits (fs : List FieldSpec) : Word :=
  namedBits (fs.filter fun f => f.acc = .rw ∨ f.acc = .rwa)

/-- The bits of a register word that RWA fields hold. -/
def shadowBits (fs : List FieldSpec) : Word :=
  namedBits (fs.filter fun f => f.acc = .rwa)

/-- The configuration words of entry `i` (bank 1 at 2^19 and above): the words with a configuration field, the other fields as 0. For
FLOW, words 0 to 7 of an admitted flow and zeros otherwise (Table 15.4). -/
def Dev.entryWords (s : Dev) (t : TableSpec) (i : Nat) : List Word :=
  if t.id = tableFLOW.id then
    (List.range 8).map fun w => if s.on (Reg.FLOW_ADMITTED i) then s.word (tableCell t.id i w) else 0
  else
    (List.range t.words.length).filterMap fun w =>
      let m := configBits ((t.words[w]?).getD [])
      if m = 0 then none else some (s.committed (tableCell t.id i w) &&& m)

/-- Words as bytes, each least significant byte first (R442). -/
def wordBytes (ws : List Word) : List Byte :=
  ws.flatMap fun w => bytesLE 4 w.toNat

/-- The chunk digests of one bank of a table: SHA-512 over 1,024 entries each. -/
def Dev.chunkDigests (s : Dev) (t : TableSpec) (bank : Nat) : List Byte :=
  (List.range (ceilDiv t.count 1024)).flatMap fun j =>
    sha512 ((List.range (min 1024 (t.count - 1024 * j))).flatMap fun k =>
      wordBytes (s.entryWords t (bank * 2 ^ 19 + 1024 * j + k)))

/-- The covered tables of a page, by rising TBL_SEL code (Table 15.4). -/
def coveredTables (page : Nat) : List TableSpec :=
  [tableREF, tableOUT, tableLISTEN, tableNBREXP, tableMAP, tableSLOT, tableTTIEXP, tableTTITX, tablePAIR, tableCKEY, tableEXACT, tableWILD,
    tableEDIT, tablePRECLASS, tablePORTDEFAULT, tableTEMPLATE, tableFLOW, tableCRSCFG, tablePORTCFG, tableBEQ, tablePUNT, tableRTX,
    tableRRX, tableRCRS].filter fun t => t.page = page

/-- A table's part of its page's leaf: the code and the chunk digests, bank 0 then bank 1 of a banked table. -/
def Dev.tablePart (s : Dev) (t : TableSpec) : List Byte :=
  bytesLE 1 t.code ++ s.chunkDigests t 0 ++ (if t.banked then s.chunkDigests t 1 else [])

/-! ## Page headers (R451, Table 15.12) -/

/-- The first page of a page's block (Table 15.12). -/
def pageType (page : Nat) : Nat :=
  if page < 0x0A8 then
    if page = 0x011 then 0x010 else if page = 0x021 then 0x020 else if page = 0x031 ∨ page = 0x032 then 0x030
    else if 0x040 ≤ page ∧ page ≤ 0x043 then 0x040 else if 0x060 ≤ page ∧ page ≤ 0x062 then 0x060
    else if 0x070 ≤ page ∧ page ≤ 0x072 then 0x070 else if 0x080 ≤ page ∧ page ≤ 0x083 then 0x080
    else if 0x090 ≤ page ∧ page ≤ 0x094 then 0x090 else if 0x0A0 ≤ page ∧ page ≤ 0x0A2 then 0x0A0 else page
  else if page < 0x100 then
    if page ≤ 0x0AF then 0x0A8 else if page ≤ 0x0B2 then 0x0B0 else 0x0B8
  else if page < 0x200 then page / 32 * 32
  else if page < 0x240 then page / 8 * 8
  else if page ≤ 0x241 then 0x240
  else if page = 0x280 then 0x280
  else if page ≤ 0x293 then 0x290
  else if page < 0x300 then 0x2C0
  else if page ≤ 0x303 then 0x300
  else if page ≤ 0x342 then 0x340
  else if page ≤ 0x384 then 0x380
  else if page ≤ 0x399 then 0x390
  else 0x400

/-- The event group of a page, where it has one (Table 15.12). -/
def pageGroup (page : Nat) : Option Nat :=
  match pageType page with
  | 0x000 => some 4
  | 0x001 => some 3
  | 0x002 => some 0
  | 0x004 => some 1
  | 0x00E => some 0
  | 0x00F => some 0
  | 0x010 => some 1
  | 0x018 => some 2
  | 0x020 => none
  | 0x030 => some 29
  | 0x040 => some 3
  | 0x060 => some 4
  | 0x070 => some 6
  | 0x080 => some 5
  | 0x090 => some 7
  | 0x0A0 => some 8
  | 0x0A8 => some 8
  | 0x0B0 => some 9
  | 0x0B8 => some 9
  | 0x240 => some 19
  | 0x280 => some 20
  | 0x290 => some 21
  | 0x2C0 => some (22 + (page - 0x2C0) / 16)
  | 0x300 => some 26
  | 0x340 => some 27
  | 0x380 => some 28
  | 0x390 => some 28
  | 0x400 => none
  | t => if t < 0x200 then some (10 + (t - 0x100) / 32) else some 18

/-- PAGE_ID of a page (Table 15.2). -/
def pageId (page : Nat) : Word :=
  BitVec.ofNat 32 (1 + (page - pageType page) * 256 + pageType page * 65536)

/-- TWIN of TX_CTRL and ACQ_CTRL, which is reserved on odd engines (Tables 2.10, 4.13). -/
def twinReserved (page off : Nat) : Word :=
  if 0x100 ≤ page ∧ page < 0x200 ∧ (page - 0x100) / 32 % 2 = 1 ∧ off = 0x040 then
    (if page % 32 = 0 then 2 else if page % 32 = 0x14 then 0x200 else 0)
  else 0

/-- The offsets of the words of a page that hold RWA fields, rising, with those fields' bits. -/
def shadowWords (page : Nat) : List (Nat × Word) :=
  if 0x2C0 ≤ page ∧ page < 0x300 ∧ page % 8 ≠ 0 then []      -- OCT_CFG is reserved but on lanes 8g (R257)
  else (List.range 1008).filterMap fun k =>
    match regAt page (0x040 + 4 * k) with
    | none => none
    | some (_, _, r) =>
      let m := shadowBits r.fields &&& ~~~ twinReserved page (0x040 + 4 * k)
      if m = 0 then none else some (0x040 + 4 * k, m)

/-- The tables of a page whose fields are RWA, with shadow entries. -/
def shadowTables (page : Nat) : List TableSpec :=
  allTables.filter fun t => decide (t.page = page) && t.words.any fun fs => fs.any fun f => f.acc = .rwa

/-- PAGE_CAPS.SHADOW of a page (Table 15.2). -/
def pageShadow (page : Nat) : Bool :=
  shadowWords page ≠ [] ∨ shadowTables page ≠ []

/-! ## Digests (R442) -/

/-- The VALID bit of a microcode bank. -/
def ucodeValid (bank : Nat) : Field :=
  if bank = 0 then Reg.UCODE_CTRL_VALID_0 else Reg.UCODE_CTRL_VALID_1

/-- The leaf L(g) of a page. -/
def Dev.leaf (s : Dev) (page : Nat) : List Byte :=
  sha512 (bytesLE 2 page ++ wordBytes [pageId page] ++
    wordBytes ((shadowWords page).map fun p => s.committed (regCell page p.1) &&& p.2) ++
    (coveredTables page).flatMap s.tablePart ++
    (if page = 0x303 then ([0, 1].filter fun b => s.on (ucodeValid b)).flatMap fun b => sha512 (sget (dflt []) s.images b) else []))

/-- The pages with a leaf: SHADOW or CONFIG_TABLES set, and enabled; and page 0x303, whose images R441 covers and whose leaf R442 forms (DEDUCED, log 234). -/
def Dev.leafPages (s : Dev) : List Nat :=
  (List.range 0x500).filter fun g => pageAllocated g && s.pageEnabled g && (pageShadow g || decide (coveredTables g ≠ []) || decide (g = 0x303))

/-- The device digest D. -/
def Dev.digest (s : Dev) : List Byte :=
  sha512 ((s.leafPages).flatMap s.leaf)

/-- Words of a 64-byte digest, byte 0 in [7:0] of word 0. -/
def digestWords (d : List Byte) : List Word :=
  (List.range 16).map fun k => BitVec.ofNat 32 (fieldLE d (4 * k) 4)

/-! ## The journal and MATCH (R443 to R445) -/

/-- MATCH and CHAIN_MATCH brought up to date, with E-03.10 where either changes (R445, R446). -/
def Dev.settleMatch (s : Dev) : Dev :=
  let same (a b : Nat → Field) := (List.range 16).all fun k => s.rd (a k) = s.rd (b k)
  let m := s.on Reg.ALM_CTRL_EXPECT_EN && s.on Reg.ALM_STAT_DIGEST_VALID && same Reg.DIGEST_D Reg.EXPECT_D
  let c := s.on Reg.ALM_STAT_CHAIN_VALID && same Reg.CHAIN_DIGEST_D Reg.CHAIN_EXPECT_D
  let changed := s.on Reg.ALM_STAT_MATCH != m || s.on Reg.ALM_STAT_CHAIN_MATCH != c
  ((s.wrB Reg.ALM_STAT_MATCH m).wrB Reg.ALM_STAT_CHAIN_MATCH c).raiseIf changed 3 10

/-- The MASTER of the running command's changes: 0 the host at the head, 1 over the relay, 4 the bundle loader (Table 15.5). No rule has the service core or the Finder itself
change the covered configuration, so that codes 2 and 3 do not arise (log 235). -/
def Dev.masterCode (s : Dev) : Nat :=
  if s.accessor = .loader then 4 else if s.on Reg.STRAPS_CHAIN_HEAD then 0 else 1

/-- The bytes of a journal entry (Table 15.5). -/
def Dev.journalEntry (s : Dev) (page master kind epoch : Nat) : List Byte :=
  bytesLE 8 epoch ++ timeBytesLE s.time ++ bytesLE 2 page ++ bytesLE 1 master ++ bytesLE 1 kind ++ (s.leaf page).take 8

/-- A change of the covered configuration journalled: EPOCH rises, the entry is written at JRN_WR, and DIGEST_VALID falls until the digest
is recomputed (R443, R444). -/
def Dev.journal (page master kind : Nat) (s : Dev) : Dev :=
  let e := s.rd64 Reg.EPOCH_LO + 1
  let w := s.rd Reg.JRN_WR_INDEX
  let s := s.store (Config.jrnBase + 32 * w) (s.journalEntry page master kind e)
  (((s.wr64 Reg.EPOCH_LO e).wr Reg.JRN_WR_INDEX (w + 1)).wr Reg.ALM_STAT_DIGEST_VALID 0).settleMatch

/-- The words of registers set from a list. -/
def Dev.wrWords (f : Nat → Field) (ws : List Word) (s : Dev) : Dev :=
  (List.range ws.length).foldl (fun s k => s.wr (f k) ((ws[k]?).getD 0).toNat) s

/-- The digest recomputed: DIGEST_EPOCH reaches EPOCH, with E-03.08 (R443). -/
def Dev.digestDone (s : Dev) : Dev :=
  let s := s.wrWords Reg.DIGEST_D (digestWords s.digest)
  let s := (s.wr64 Reg.DIGEST_EPOCH_LO (s.rd64 Reg.EPOCH_LO)).wr Reg.ALM_STAT_DIGEST_VALID 1
  (s.raise 3 8).settleMatch

/-- DIGEST_UPDATE_COMPLETE: the recomputation that a journal entry started is done; none is under way where DIGEST_VALID stands. -/
def execDigestUpdateComplete (s : State) : Out :=
  s.run fun s => if s.hubOn ∧ ¬ s.on Reg.ALM_STAT_DIGEST_VALID then s.digestDone else s

/-! ## Collections (R446, R450) -/

/-- The ALMANAC page. -/
abbrev almPage : Nat := 0x001

/-- What this device answers to the first round of a collection: EPOCH, DIGEST_EPOCH and D, taken in one cycle (R446). -/
def Dev.ownAnswer (s : Dev) : FirstAnswer :=
  ⟨s.rd64 Reg.EPOCH_LO, s.rd64 Reg.DIGEST_EPOCH_LO, wordBytes (s.words (Reg.DIGEST_D 0).cell 16)⟩

/-- The assigned positions of the chain, as the head holds them (R410, R411). -/
def Dev.assignedPositions (s : Dev) : List Nat :=
  s.relay.chain.map (·.pos)

/-- The answers of the position p: the head's own registers at its own position, and what came over the relay from another. -/
def Dev.answerOf (s : Dev) (as : List CollectAnswer) (p : Nat) : CollectAnswer :=
  if p = s.rd Reg.CHAIN_STAT_POS then ⟨p, s.collecting, some (s.rd64 Reg.EPOCH_LO)⟩
  else (as.find? fun a => decide (a.pos = p)).getD ⟨p, none, none⟩

/-- CHAIN_COLLECT: a write of COLLECT with GO set: on the head a collection starts unless one runs; elsewhere the write is ignored and
counted (R446, R450). -/
def Dev.collectWrite (v : Word) (s : Dev) : Dev :=
  if s.on Reg.STRAPS_CHAIN_HEAD then
    s.hostWrite almPage 0x0E0 1#32 v fun s =>
      if !v.getLsbD 0 then s
      else if s.on Reg.ALM_STAT_COLLECT_BUSY then s.viol almPage
      else { s.wr Reg.ALM_STAT_COLLECT_BUSY 1 with collecting := some s.ownAnswer }
  else s.onWrite almPage 0x0E0 (Dev.viol almPage)

/-- CHAIN_COLLECT: a write of COLLECT with GO set. -/
def execChainCollect (v : Word) (s : State) : Out :=
  s.run (Dev.collectWrite (v ||| 1#32))

/-- COLLECT_QUERY: the device answers with EPOCH, DIGEST_EPOCH and D, taken in one cycle (R446). -/
def execCollectQuery (s : State) : Out :=
  s.run fun s =>
    { s with readData :=
        s.words Reg.EPOCH_LO.cell 2 ++ s.words Reg.DIGEST_EPOCH_LO.cell 2 ++ s.words (Reg.DIGEST_D 0).cell 16 }

/-- Whether a position answered both rounds. -/
def posAnsPresent (a : CollectAnswer) : Bool :=
  a.first.isSome && a.second.isSome

/-- Whether a present position's first answer had DIGEST_EPOCH = EPOCH. -/
def posAnsValid (a : CollectAnswer) : Bool :=
  posAnsPresent a && match a.first with
    | some f => decide (f.epoch = f.digestEpoch)
    | none => false

/-- Whether a present position's second EPOCH differs from its first. -/
def posAnsChanged (a : CollectAnswer) : Bool :=
  posAnsPresent a && match a.first, a.second with
    | some f, some e => decide (f.epoch ≠ e)
    | _, _ => false

/-- What a present position adds to CHAIN_DIGEST: its position and its D. -/
def posAnsPart (a : CollectAnswer) : List Byte :=
  if posAnsPresent a then
    match a.first with
    | some f => bytesLE 1 a.pos ++ sliceBytes f.digest 0 64
    | none => []
  else []

/-- POS_STAT of one position after a collection. -/
def Dev.showPos (as : List CollectAnswer) (s : Dev) (p : Nat) : Dev :=
  match as.find? fun a => a.pos = p with
  | none => s.setWord (Reg.POS_STAT_ASSIGNED p).cell 0
  | some a =>
    (((s.wr (Reg.POS_STAT_ASSIGNED p) 1).wrB (Reg.POS_STAT_PRESENT p) (posAnsPresent a)).wrB (Reg.POS_STAT_VALID p) (posAnsValid a)).wrB
      (Reg.POS_STAT_CHANGED p) (posAnsChanged a)

/-- A collection's results published for the assigned positions (R446). `came`: the answers that came over the relay. -/
def Dev.collected (came : List CollectAnswer) (s : Dev) : Dev :=
  let as := s.assignedPositions.map (s.answerOf came)
  let parts := (List.range 64).flatMap fun p =>
    match as.find? fun a => a.pos = p with
    | some a => posAnsPart a
    | none => []
  let s := (List.range 64).foldl (fun s p => s.showPos as p) s
  let s := { s with answers := as.filterMap fun (a : CollectAnswer) => a.first.map fun (f : FirstAnswer) => (a.pos, ⟨f.epoch, f.digest⟩) }
  let s := (s.wr Reg.COLLECT_ANSWERED (as.filter posAnsPresent).length).wrWords Reg.CHAIN_DIGEST_D (digestWords (sha512 parts))
  let ns := s.time / 65536
  let s := ((s.wr Reg.CHAIN_TIME_NS_NS (ns % 1000000000)).wr Reg.CHAIN_TIME_FRAC_FRAC (s.time % 65536)).wr
    Reg.CHAIN_TIME_SEC_LO_SEC (ns / 1000000000)
  let s := s.wr Reg.CHAIN_TIME_SEC_HI_SEC (ns / 1000000000 / 2 ^ 32)
  let s := { (s.wr Reg.ALM_STAT_COLLECT_BUSY 0).wr Reg.ALM_STAT_CHAIN_DONE 1 with collecting := none }
  let s := s.wrB Reg.ALM_STAT_CHAIN_VALID (as.all fun a => posAnsValid a && !posAnsChanged a)
  (s.raise 3 9).settleMatch

/-- CHAIN_COLLECT_COMPLETE: the collection under way ends with the answers of every assigned position. -/
def execChainCollectComplete (answers : List CollectAnswer) (s : State) : Out :=
  s.run fun s => if s.on Reg.ALM_STAT_COLLECT_BUSY then s.collected answers else s

end Sys2Proof.Machine
end

