-- ==== Sys2Proof/Machine/Packet.lean ====
section
/-!
DEFINITION. Ethernet frames as the device reads them: tags, IP headers, the PRECLASS key, the FRAG and LEN checks, the outer-path key, and
the edit operations (R236, R243, R244, R249, R250).
-/
namespace Sys2Proof.Machine

/-! ## L2 and IP headers -/

/-- A VLAN tag: PCP and VID. -/
structure Tag where
  pcp : Nat
  vid : Nat
  deriving DecidableEq, Repr

/-- The L2 header of a frame: up to two tags, the type or length field behind them, and the offset after it. -/
structure L2 where
  outer : Option Tag
  inner : Option Tag
  etype : Nat
  next : Nat
  deriving DecidableEq, Repr

/-- Whether a type field names a VLAN tag (R236). -/
def isTpid (t : Nat) : Bool :=
  t = 0x8100 ∨ t = 0x88A8

/-- The tag at an offset. -/
def tagAt (f : List Byte) (o : Nat) : Tag :=
  let t := fieldBE f o 2
  ⟨t / 8192, t % 4096⟩

/-- The L2 header of a frame. -/
def l2 (f : List Byte) : L2 :=
  if isTpid (fieldBE f 12 2) then
    if isTpid (fieldBE f 16 2) then ⟨some (tagAt f 14), some (tagAt f 18), fieldBE f 20 2, 22⟩
    else ⟨some (tagAt f 14), none, fieldBE f 16 2, 18⟩
  else ⟨none, none, fieldBE f 12 2, 14⟩

/-- The version of the IP header behind the L2 header, 0 where there is none. -/
def ipVersion (f : List Byte) : Nat :=
  let h := l2 f
  let v := fieldBE f h.next 1 / 16
  if h.etype = 0x0800 ∧ v = 4 then 4 else if h.etype = 0x86DD ∧ v = 6 then 6 else 0

/-- Whether IPv6 next-header number `n` is an extension header that may stand before a Fragment header. -/
def isExtension (n : Nat) : Bool :=
  n = 0 ∨ n = 43 ∨ n = 60 ∨ n = 51

/-- The IPv6 chain from a header of type `n` at an offset: whether it holds a Fragment header, and the upper-layer type and offset where
it ends. -/
def ipv6Chain (f : List Byte) : Nat → Nat → Nat → Bool × Nat × Nat
  | 0, n, o => (false, n, o)
  | k + 1, n, o =>
    if n = 44 then (true, fieldBE f o 1, o + 8)
    else if isExtension n then
      let len := if n = 51 then (fieldBE f (o + 1) 1 + 2) * 4 else (fieldBE f (o + 1) 1 + 1) * 8
      if f.length < o + 2 then (false, n, o) else ipv6Chain f k (fieldBE f o 1) (o + len)
    else (false, n, o)

/-- The bytes that a pass reads (R242). -/
def window (f : List Byte) : List Byte :=
  f.take 256

/-- The FRAG check (R243). -/
def isFragment (f : List Byte) : Bool :=
  let w := window f
  let o := (l2 w).next
  match ipVersion w with
  | 4 => fieldBE w (o + 6) 2 % 16384 ≠ 0
  | 6 => (ipv6Chain w 32 (fieldBE w (o + 6) 1) (o + 40)).1
  | _ => false

/-- A packet is a fragment other than a first one: it has no upper-layer header. -/
def laterFragment (f : List Byte) : Bool :=
  let w := window f
  let o := (l2 w).next
  match ipVersion w with
  | 4 => fieldBE w (o + 6) 2 % 8192 ≠ 0
  | 6 =>
    let c := ipv6Chain w 32 (fieldBE w (o + 6) 1) (o + 40)
    c.1 && decide (fieldBE w (c.2.2 - 6) 2 / 8 ≠ 0)
  | _ => false

/-- The upper-layer protocol of the first IP header and where it starts. -/
def upperLayer (f : List Byte) : Nat × Nat :=
  let o := (l2 f).next
  match ipVersion f with
  | 4 => (fieldBE f (o + 9) 1, o + 4 * (fieldBE f o 1 % 16))
  | 6 => (ipv6Chain f 32 (fieldBE f (o + 6) 1) (o + 40)).2
  | _ => (0, 0)

/-- The LEN check (R243). The UDP length is read where the packet has a UDP header within the bytes of R242 (DEDUCED, log 186). -/
def badLength (f : List Byte) : Bool :=
  let w := window f
  let h := l2 w
  let o := h.next
  let room := f.length - o
  let udp (payload upper : Nat) : Bool := !laterFragment f && decide (upper + 6 ≤ 256) && decide (fieldBE w (upper + 4) 2 ≠ payload)
  match ipVersion w with
  | 4 =>
    let ihl := fieldBE w o 1 % 16
    let total := fieldBE w (o + 2) 2
    decide (ihl < 5) || decide (total < 4 * ihl) || decide (room < total) ||
      (decide (fieldBE w (o + 9) 1 = 17) && udp (total - 4 * ihl) (o + 4 * ihl))
  | 6 =>
    let plen := fieldBE w (o + 4) 2
    let u := upperLayer w
    decide (room < plen) || (decide (u.1 = 17) && udp (plen - (u.2 - (o + 40))) u.2)
  | _ => decide (h.etype < 1536) && decide (h.etype ≠ room)

/-- The IP addresses of the first IP header, as 128-bit numbers; IPv4 in the low 32 bits. -/
def ipSource (f : List Byte) : Nat :=
  let o := (l2 f).next
  match ipVersion f with
  | 4 => fieldBE f (o + 12) 4
  | 6 => fieldBE f (o + 8) 16
  | _ => 0

/-- The destination address of the first IP header. -/
def ipDest (f : List Byte) : Nat :=
  let o := (l2 f).next
  match ipVersion f with
  | 4 => fieldBE f (o + 16) 4
  | 6 => fieldBE f (o + 24) 16
  | _ => 0

/-- The outer UDP or TCP destination port; 0 for fragments and other protocols (R236). -/
def l4Port (f : List Byte) : Nat :=
  let u := upperLayer f
  if (u.1 = 6 ∨ u.1 = 17) ∧ ¬ isFragment f then fieldBE f (u.2 + 2) 2 else 0

/-- The VID of a tag that may be absent. -/
def vidOf : Option Tag → Nat
  | some t => t.vid
  | none => 0

/-- The PCP of a tag that may be absent. -/
def pcpOf : Option Tag → Nat
  | some t => t.pcp
  | none => 0

/-- The PRECLASS key of a frame (R236, Table 8.11), as a number of 175 bits. -/
def preclassKey (port : Nat) (f : List Byte) : Nat :=
  let h := l2 f
  port + 2 ^ 6 * ofBool (decide (ipVersion f = 6)) + 2 ^ 7 * vidOf h.outer + 2 ^ 19 * vidOf h.inner + 2 ^ 31 * ipDest f +
    2 ^ 159 * l4Port f

/-- The outer-path wildcard key (Table 8.3), as a number of 512 bits. -/
def outerKey (port : Nat) (frag deep len : Bool) (f : List Byte) : Nat :=
  let h := l2 f
  let o := h.next
  let v := ipVersion f
  let proto := if v = 4 then fieldBE f (o + 9) 1 else if v = 6 then fieldBE f (o + 6) 1 else 0
  let dscp := if v = 4 then fieldBE f (o + 1) 1 / 4 else if v = 6 then fieldBE f o 2 / 64 % 64 else 0
  2 ^ 506 * port + 2 ^ 505 * ofBool frag + 2 ^ 504 * ofBool deep + 2 ^ 503 * ofBool len + 2 ^ 455 * fieldBE f 0 6 +
    2 ^ 407 * fieldBE f 6 6 + 2 ^ 404 * pcpOf h.outer + 2 ^ 392 * vidOf h.outer + 2 ^ 389 * pcpOf h.inner + 2 ^ 377 * vidOf h.inner +
    2 ^ 361 * h.etype + 2 ^ 357 * v + 2 ^ 229 * ipSource f + 2 ^ 101 * ipDest f + 2 ^ 93 * proto + 2 ^ 87 * dscp

/-! ## Edits (R249, R250) -/

/-- A stretch of a packet under edit: a recorded layer with its number, or bytes between layers; and whether it has been changed. -/
structure Piece where
  layer : Option Nat
  ip : Nat
  /-- its bytes before the edit -/
  orig : List Byte
  bytes : List Byte
  changed : Bool
  deriving DecidableEq, Repr

/-- The pieces of a packet, from a place on, for the layers still to come; the numbers count from `k`. -/
def layerPieces (f : List Byte) : List Layer → Nat → Nat → List Piece
  | [], pos, _ => [⟨none, 0, f.drop pos, f.drop pos, false⟩]
  | l :: ls, pos, k =>
    let gap := (f.drop pos).take (l.start - pos)
    let own := (f.drop l.start).take l.length
    ⟨none, 0, gap, gap, false⟩ :: ⟨some k, l.ip, own, own, false⟩ :: layerPieces f ls (max pos (l.start + l.length)) (k + 1)

/-- Bytes written into a list at an offset. -/
def patch (bs : List Byte) (o : Nat) (new : List Byte) : List Byte :=
  bs.take o ++ new ++ bs.drop (o + new.length)

/-- The piece of a layer. -/
def pieceOf (ps : List Piece) (k : Nat) : Option Piece :=
  ps.find? fun p => p.layer = some k

/-- The pieces with one layer's bytes changed. -/
def setPiece (ps : List Piece) (k : Nat) (bs : List Byte) : List Piece :=
  ps.map fun p => if p.layer = some k then { p with bytes := bs, changed := true } else p

/-- A template pushed before a layer, or with number 8 after the last. -/
def pushPiece (k : Nat) (new : List Byte) : List Piece → List Piece
  | [] => []
  | p :: ps =>
    if p.layer = some k then ⟨none, 0, [], new, true⟩ :: p :: ps
    else match ps with
      | [] => if k = 8 then [⟨none, 0, [], new, true⟩, p] else [p]
      | _ => p :: pushPiece k new ps

/-- One edit operation; none drops the packet (R250). An operation that names a layer the pass did not record drops it too
(DESIGN CHOICE, log 26). A layer that has been removed keeps its number and its place (R249). -/
def editOp (op : Word) (imm : List Byte) (template : Nat → List Byte) (layers : List Layer) (ps : List Piece) : Option (List Piece) :=
  let k := getBits op 4 4
  match getBits op 0 4 with
  | 1 =>
    let o := getBits op 8 8
    let n := getBits op 16 5 + 1
    match pieceOf ps k, layers[k]? with
    | some p, some l =>
      if p.bytes.length < o + n ∨ 256 < l.start + o + n then none
      else some (setPiece ps k (patch p.bytes o (sliceBytes imm (getBits op 21 5) n)))
    | _, _ => none
  | 2 => if (pieceOf ps k).isSome then some (ps.map fun p => if p.layer = some k then { p with ip := 0, bytes := [], changed := true } else p) else none
  | 3 => if k = 8 ∨ (pieceOf ps k).isSome then some (pushPiece k (template (getBits op 8 8)) ps) else none
  | 4 =>
    match pieceOf ps k with
    | some p =>
      let o := if p.ip = 6 then 7 else 8
      let ttl := fieldBE p.bytes o 1
      if p.ip = 0 ∨ ttl ≤ 1 then none else some (setPiece ps k (patch p.bytes o (bytesBE 1 (ttl - 1))))
    | none => none
  | _ => some ps

/-- The operations of an edit program in order, up to the first END. -/
def editOps (imm : List Byte) (template : Nat → List Byte) (layers : List Layer) : List Word → List Piece → Option (List Piece)
  | [], ps => some ps
  | op :: ops, ps =>
    if getBits op 0 4 = 0 then some ps
    else match editOp op imm template layers ps with
      | none => none
      | some ps => editOps imm template layers ops ps

/-- The sum of 16-bit words of bytes, an odd last byte padded with zero. -/
def sum16 : List Byte → Nat
  | [] => 0
  | [a] => a.toNat * 256
  | a :: b :: r => a.toNat * 256 + b.toNat + sum16 r

/-- A sum folded to 16 bits with end-around carry. -/
def fold16 (n : Nat) : Nat :=
  let a := n % 65536 + n / 65536
  let b := a % 65536 + a / 65536
  b % 65536 + b / 65536

/-- The Internet checksum of bytes. -/
def checksum (bs : List Byte) : Nat :=
  65535 - fold16 (sum16 bs)

/-- An IPv4 header with its header checksum recomputed. -/
def fixIpv4 (h : List Byte) : List Byte :=
  let n := 4 * (fieldBE h 0 1 % 16)
  let z := patch h 10 [0, 0]
  patch h 10 (bytesBE 2 (checksum (z.take n)))

/-- A checksum updated for covered bytes that changed. -/
def updateSum (old : Nat) (before after : List Byte) : Nat :=
  65535 - fold16 ((65535 - old) + (65535 - fold16 (sum16 before)) + sum16 after)

/-- The payload length that an IPv4 header states. -/
def ipPayload (h : List Byte) : Nat :=
  fieldBE h 2 2 - 4 * (fieldBE h 0 1 % 16)

/-- What the checksum of UDP or TCP covers besides the segment: addresses, protocol and length. -/
def pseudoHeader (h : List Byte) : List Byte :=
  sliceBytes h 12 8 ++ [0] ++ sliceBytes h 9 1 ++ bytesBE 2 (ipPayload h)

/-- The first piece with bytes changed. -/
def patchFirst (g : List Byte → List Byte) : List Piece → List Piece
  | [] => []
  | p :: ps => if p.bytes = [] then p :: patchFirst g ps else { p with bytes := g p.bytes } :: ps

/-- The UDP or TCP checksum behind an IPv4 header updated for what it covers and the edit has changed: the pseudo-header, and the segment but for the checksum itself
(R250); `before` and `after` are that header before the edit and after it. A UDP checksum of 0 stays 0. -/
def fixBehind (before after : List Byte) (ps : List Piece) : List Piece :=
  let proto := fieldBE after 9 1
  let o := if proto = 6 then 16 else 6
  let b := (ps.flatMap (·.orig)).take (ipPayload before)
  let a := (ps.flatMap (·.bytes)).take (ipPayload after)
  let blank (l : List Byte) : List Byte := patch l o [0, 0]
  let old := fieldBE a o 2
  if (proto ≠ 6 ∧ proto ≠ 17) ∨ fieldBE after 6 2 % 8192 ≠ 0 ∨ a.length < o + 2 ∨ b.length < o + 2 ∨ proto = 17 ∧ old = 0 then ps
  else
    let x := pseudoHeader before ++ blank b
    let y := pseudoHeader after ++ blank a
    if x = y then ps
    else
      let new := updateSum old x y
      patchFirst (fun l => if l.length < o + 2 then l else patch l o (bytesBE 2 (if proto = 17 ∧ new = 0 then 65535 else new))) ps

/-- The checksums after the operations, innermost first: of every IPv4 layer that was changed, and of the UDP or TCP header behind an IPv4 layer (R250). -/
def fixSums : List Piece → List Piece
  | [] => []
  | p :: ps =>
    let ps := fixSums ps
    if p.ip = 4 then
      let h := if p.changed then fixIpv4 p.bytes else p.bytes
      { p with bytes := h } :: fixBehind p.orig h ps
    else p :: ps

/-- An edit program run on a packet; none where the packet is dropped. -/
def editRun (imm : List Byte) (template : Nat → List Byte) (layers : List Layer) (ops : List Word) (f : List Byte) : Option (List Byte) :=
  match editOps imm template layers ops (layerPieces f layers 0 0) with
  | none => none
  | some ps => some ((fixSums ps).flatMap (·.bytes))

/-- A packet shorter than 60 bytes padded (R250). -/
def padTo60 (f : List Byte) : List Byte :=
  f ++ List.replicate (60 - f.length) 0

end Sys2Proof.Machine
end

