-- ==== Sys2Proof/Machine/Perf.lean ====
section
/-!
DEFINITION. Packets counted by the performance counters (R462, R464), and snapshot counters (R562).
-/
namespace Sys2Proof.Machine

/-- The points of KIND 3 (Table 16.4). -/
abbrev pointReorder : Nat := 0
abbrev pointEgress : Nat := 1
abbrev pointDropped : Nat := 2

/-- The traffic class of a packet dropped before it was classified (R464). -/
abbrev tcUnclassified : Nat := 7

/-- The traffic class of a punted packet (R464). -/
abbrev tcPunt : Nat := 6

/-- The traffic class of a packet of a class with a best-effort priority (R464). -/
def trafficClass (cls prio : Nat) : Nat :=
  match cls with
  | 1 => 4
  | 2 => 5
  | _ => prio

/-- `n` packets of `bytes` bytes together counted at a point by the counters of KIND 3 (R462, R464). -/
def Dev.countPackets (n point tc : Nat) (port course : Option Nat) (bytes : Nat) (s : Dev) : Dev :=
  let p := s.countWith fun i =>
    let obj := if s.on (Reg.CNT_CFG_OBJ_TYPE i) then course else port
    if s.rd (Reg.CNT_CFG_KIND i) = 3 ∧ s.rd (Reg.CNT_CFG_POINT i) = point ∧ bitAt (s.rd (Reg.CNT_CFG_TC_MASK i)) tc ∧
        (s.on (Reg.CNT_CFG_OBJ_EN i) = false ∨ obj = some (s.rd (Reg.CNT_CFG_OBJ i))) then
      some (if s.on (Reg.CNT_CFG_BYTES i) then bytes else n)
    else none
  if p.2 then p.1.raiseWrap else p.1

/-- A packet counted at a point. -/
def Dev.countPacket (point tc : Nat) (port course : Option Nat) (bytes : Nat) (s : Dev) : Dev :=
  s.countPackets 1 point tc port course bytes

/-! ## Snapshot counters (R562) -/

/-- The counters of a page copied: the registers show what their running counters hold. `offs` are the counters' offsets. -/
def Dev.snapTake (page : Nat) (offs : List Nat) (s : Dev) : Dev :=
  offs.foldl (fun s o => s.setWord (regCell page o) (s.word (Field.run ⟨regCell page o, 0, 32⟩).cell)) s

/-- The running counters of a page zeroed. -/
def Dev.snapClear (page : Nat) (offs : List Nat) (s : Dev) : Dev :=
  offs.foldl (fun s o => s.setWord (Field.run ⟨regCell page o, 0, 32⟩).cell 0) s

/-- The offsets of the snapshot counters of a page, and that of its CNT_SNAP. -/
def snapshotOf (page : Nat) : Option (Nat × List Nat) :=
  let run (lo n : Nat) := (List.range n).map fun k => lo + 4 * k
  if 0x2C0 ≤ page ∧ page < 0x300 then some (0x04C, run 0x050 16)
  else if page = 0x302 then some (0x040, run 0x044 14)
  else if page = 0x342 then some (0x040, run 0x044 12)
  else if page = 0x0A2 then some (0x040, run 0x044 19)
  else none

/-- A write of a page's CNT_SNAP: the copy first, then the clear (R562); ignored and counted where a CLIENT page's lane follows in its port (R226). -/
def Dev.cntSnap (page : Nat) (v : Word) (s : Dev) : Dev :=
  match snapshotOf page with
  | none => s
  | some (off, offs) =>
    if s.portHidden page off then s.onWrite page off (Dev.viol page)
    else s.hostWrite page off 3 v fun s =>
      let s := if getBits v 0 1 = 1 then s.snapTake page offs else s
      if getBits v 1 1 = 1 then s.snapClear page offs else s

/-- CNT_SNAP_TAKE: a write of a page's CNT_SNAP with TAKE set. -/
def execCntSnapTake (page : BitVec 12) (v : Word) (s : State) : Out :=
  s.run fun s => s.cntSnap page.toNat (v ||| 1)

/-- CNT_SNAP_CLEAR: a write of a page's CNT_SNAP with CLEAR set and TAKE clear. -/
def execCntSnapClear (page : BitVec 12) (v : Word) (s : State) : Out :=
  s.run fun s => s.cntSnap page.toNat ((v ||| 2) &&& ~~~ 1)

end Sys2Proof.Machine
end

