-- ==== Sys2Proof/Machine/Sched.lean ====
section
/-!
DEFINITION. The scheduler (R259 to R277): ports, courses as flows see them, admission, the ingress queues and the packet stream of a
course, the punt path, egress and timed release.
-/
namespace Sys2Proof.Machine

/-! ## Ports (R225, R226) -/

/-- Whether port `p` exists and is enabled. -/
def Dev.portOn (s : Dev) (p : Nat) : Bool :=
  s.portExists p && s.on (Reg.PORT_CTRL_EN p)

/-- R_p in b/s (Table 8.1). -/
def Dev.portRate (s : Dev) (p : Nat) : Nat :=
  s.portLanes p * (if s.on (Reg.OCT_CFG_RATE (8 * (p / 8))) then 100000000000 else 200000000000)

/-- The parse group of port `p`; for a port of 8 lanes the first of its pair (R231, R238). -/
def Dev.portGroup (s : Dev) (p : Nat) : Nat :=
  if s.portLanes p = 8 then 2 * (p / 8) else p / 4

/-! ## Courses as the scheduler sees them -/

/-- Packet-stream bytes of a course of M members per frame: (64M − 1) × 62 (R259). -/
def streamCapacity (m : Nat) : Nat :=
  (64 * m - 1) * 62

/-! ## Flows (R262, R263) -/

/-- The flow numbers with a context, rising. -/
def Dev.admitted (s : Dev) : List Nat :=
  (s.regs.filterMap fun e =>
    let lo := tableCell tableFLOW.id 0 0
    if lo ≤ e.1 ∧ e.1 < tableCell tableFLOW.id 65536 0 ∧ (e.1 - lo) % 64 = 8 then some ((e.1 - lo) / 64) else none).filter
      fun f => s.on (Reg.FLOW_ADMITTED f)

/-- Whether a flow is admitted as BOUNDED or DET and not revoked. -/
def Dev.flowReserved (s : Dev) (f : Nat) : Bool :=
  s.on (Reg.FLOW_ADMITTED f) && decide (s.rd (Reg.FLOW_CLASS f) ≠ 0) && !s.on (Reg.FLOW_REVOKED f)

/-- The reserved flows that enter course `c`, rising. -/
def Dev.courseFlows (s : Dev) (c : Nat) : List Nat :=
  s.admitted.filter fun f => s.flowReserved f && s.on (Reg.FLOW_ING_EN f) && decide (s.rd (Reg.FLOW_ING_COURSE f) = c)

/-- The reserved flows that leave on port `p`, rising. -/
def Dev.portFlows (s : Dev) (p : Nat) : List Nat :=
  s.admitted.filter fun f => s.flowReserved f && s.on (Reg.FLOW_EGR_EN f) && decide (s.rd (Reg.FLOW_EGR_PORT f) = p)

/-- The quota of R263: σ + L_max + ceil(ρ × 2.56 µs / 8), with ρ in kb/s. -/
def quota (rate maxPkt burst : Nat) : Nat :=
  burst + maxPkt + ceilDiv (rate * 32) 100000

/-- Σ q over flows. -/
def Dev.quotas (s : Dev) (fs : List Nat) : Nat :=
  (fs.map fun f => s.rd (Reg.FLOW_QUOTA f)).sum

/-- Bytes of course `c` left under R263. -/
def Dev.courseFree (s : Dev) (c : Nat) : Int :=
  (streamCapacity (s.members c) : Int) - s.quotas (s.courseFlows c) - s.rd (Reg.CRS_CFG_BE_MAX_PKT c)

/-! ## Admission (R264, R265, R402) -/

/-- A declaration's fields (Table 9.8), read from its words. -/
structure Decl where
  flow : Nat
  cls : Nat
  ing : Bool
  egr : Bool
  prio : Nat
  hops : Nat
  ingCourse : Nat
  ingPort : Nat
  preclass : Nat
  rate : Nat
  maxPkt : Nat
  minPkt : Nat
  burst : Nat
  egrPort : Nat
  egrHops : Nat
  egrCourse : Nat
  deliver : Nat
  deriving DecidableEq, Repr

/-- The declaration that eight words spell. -/
def declOf (ws : List Word) : Decl :=
  let w (k : Nat) : Word := (ws[k]?).getD 0
  { flow := getBits (w 0) 0 16, cls := getBits (w 0) 16 2, ing := decide (getBits (w 0) 18 1 = 1), egr := decide (getBits (w 0) 19 1 = 1)
    prio := getBits (w 0) 20 2, hops := getBits (w 0) 22 6, ingCourse := getBits (w 1) 0 9, ingPort := getBits (w 1) 16 6
    preclass := getBits (w 2) 0 16, rate := getBits (w 3) 0 32, maxPkt := getBits (w 4) 0 15, minPkt := getBits (w 4) 16 15
    burst := getBits (w 5) 0 24, egrPort := getBits (w 6) 0 6, egrHops := getBits (w 6) 6 6, egrCourse := getBits (w 6) 16 9
    deliver := getBits (w 7) 0 32 }

/-- The bits of declaration word `k` that fields name. -/
def declMask (k : Nat) : Word :=
  match k with
  | 0 => 0x0FFFFFFF#32
  | 1 => 0x003F01FF#32
  | 2 => 0x0000FFFF#32
  | 4 => 0x7FFF7FFF#32
  | 5 => 0x00FFFFFF#32
  | 6 => 0x01FF0FFF#32
  | _ => 0xFFFFFFFF#32

/-- The quota of a declaration, 0 for best effort. -/
def Decl.quota (d : Decl) : Nat :=
  if d.cls = 0 then 0 else Machine.quota d.rate d.maxPkt d.burst

/-- RATE_KPPS of a declaration's PRECLASS entry (R265). -/
def Decl.kpps (d : Decl) : Nat :=
  ceilDiv d.rate (8 * d.minPkt)

/-- BURST of a declaration's PRECLASS entry (R265). -/
def Decl.packets (d : Decl) : Nat :=
  ceilDiv d.burst d.minPkt

/-- Cause 1: every field within its range, and the hops as R402 has them; a remote egress course without a receive half is refused (log 204). -/
def Dev.declInRange (s : Dev) (d : Decl) : Bool :=
  decide (d.cls ≠ 3) && (decide (1 ≤ d.rate) || decide (d.cls = 0)) && decide (d.rate ≤ 1600000000) &&
  decide (68 ≤ d.maxPkt) && decide (d.maxPkt ≤ 16387) && decide (68 ≤ d.minPkt) && decide (d.minPkt ≤ d.maxPkt) &&
  decide (d.maxPkt ≤ d.burst) &&
  (decide (d.cls ≠ 2) || (decide (1000 ≤ d.deliver) && decide (d.deliver ≤ 2147483647))) &&
  (!d.ing || decide (d.hops = (if s.remotes.contains d.ingCourse then s.rd (Reg.RCRS_HOPS d.ingCourse) else 0))) &&
  (!d.egr || (decide (d.egrHops = (if s.remotes.contains d.egrCourse then s.rd (Reg.RCRS_HOPS d.egrCourse) else 0)) &&
    (s.remoteRx d.egrCourse || !s.remotes.contains d.egrCourse)))

/-- Cause 2: the ingress course is enabled with its members on this device and no course B. -/
def Dev.declCourse (s : Dev) (d : Decl) : Bool :=
  (!d.ing || ((s.on (Reg.MAP_EN d.ingCourse) || s.remoteTx d.ingCourse) &&
    !(s.enabledPairs.any fun p => decide (s.rd (Reg.PAIR_COURSE_B p) = d.ingCourse))))

/-- A course that the declaration names is fed through the relay, and serves no flow of any class (R402). -/
def Dev.declFed (s : Dev) (d : Decl) : Bool :=
  (d.ing && s.relayFed d.ingCourse) || (d.egr && s.relayFed d.egrCourse)

/-- The PRECLASS entries of parse group `g` that are VALID (Table 8.11: 4,096 for each group). -/
def Dev.preclassOf (s : Dev) (g : Nat) : List Nat :=
  s.regs.filterMap fun e =>
    let lo := tableCell tablePRECLASS.id (4096 * g) 0
    let i := 4096 * g + (e.1 - lo) / 64
    if lo ≤ e.1 ∧ e.1 < tableCell tablePRECLASS.id (4096 * (g + 1)) 0 ∧ (e.1 - lo) % 64 = 7 ∧ s.on (Reg.PRECLASS_VALID i) then some i else none

/-- Σ RATE_KPPS over the valid PRECLASS entries of group `g`, entry `but` left out (cause 4 of Table 9.4). -/
def Dev.groupKpps (s : Dev) (g but : Nat) : Nat :=
  (((s.preclassOf g).filter (· ≠ but)).map fun i => s.rd (Reg.PRECLASS_RATE_KPPS i)).sum

/-- Cause 4: the PRECLASS entries of the ingress port's group or group pair hold no more than its guaranteed rate. -/
def Dev.declKpps (s : Dev) (d : Decl) : Bool :=
  !d.ing ||
    let pg := s.rd Reg.CAPACITY_PG_MPPS * 1000
    let g := s.portGroup d.ingPort
    if s.portLanes d.ingPort = 8 then s.groupKpps g d.preclass + s.groupKpps (g + 1) d.preclass + d.kpps ≤ 2 * pg
    else s.groupKpps g d.preclass + d.kpps ≤ pg

/-- The other reserved flows of a port: all but the declared one. -/
def Dev.othersOn (s : Dev) (p f : Nat) : List Nat :=
  (s.portFlows p).filter (· ≠ f)

/-- Cause 5: Σ q on the egress port and its BE_MAX_PKT fit R_p × 1.28 µs / 8. -/
def Dev.portQuotaOk (s : Dev) (p sumQ : Nat) : Bool :=
  sumQ + s.rd (Reg.PORT_CFG_BE_MAX_PKT p) ≤ s.portRate p * 16 / 100000000

/-- Cause 6 for the L_max of a port's DET flows: for each, 40 ns and the wire times of the others are within 200 ns. -/
def wireOk (rate : Nat) : List Nat → List Nat → Bool
  | _, [] => true
  | before, l :: r => decide (((before ++ r).map fun x => (x + 16) * 8 * 1000000000).sum ≤ 160 * rate) && wireOk rate (before ++ [l]) r

/-- The L_max of the DET flows among flows. -/
def Dev.detSizes (s : Dev) (fs : List Nat) : List Nat :=
  (fs.filter fun f => s.rd (Reg.FLOW_CLASS f) = 2).map fun f => s.rd (Reg.FLOW_MAX_PKT f)

/-- Cause 7: the hold store takes 100 µs of every DET flow (16 MiB). -/
def Dev.holdOk (s : Dev) (d : Decl) : Bool :=
  let others := s.admitted.filter fun f =>
    s.flowReserved f && s.on (Reg.FLOW_EGR_EN f) && decide (s.rd (Reg.FLOW_CLASS f) = 2) && decide (f ≠ d.flow)
  ((others.map fun f => s.rd (Reg.FLOW_RATE_KBPS f)).sum + d.rate) * 125 ≤ 16777216 * 10000

/-- The first check of Table 9.4 that a declaration fails. -/
def Dev.admitCause (s : Dev) (d : Decl) : Option Nat :=
  let full := d.cls ≠ 0
  let old := s.on (Reg.FLOW_ADMITTED d.flow)
  let f := d.flow
  if !s.declInRange d then some 1
  else if (full ∧ ¬ s.declCourse d) ∨ s.declFed d then some 2
  else if full ∧ d.ing ∧ ¬ (s.quotas ((s.courseFlows d.ingCourse).filter (· ≠ f)) + d.quota + s.rd (Reg.CRS_CFG_BE_MAX_PKT d.ingCourse) ≤
      streamCapacity (s.members d.ingCourse)) then some 3
  else if full ∧ ¬ s.declKpps d then some 4
  else if full ∧ d.egr ∧ ¬ s.portQuotaOk d.egrPort (s.quotas (s.othersOn d.egrPort f) + d.quota) then some 5
  else if d.cls = 2 ∧ d.egr ∧ ¬ wireOk (s.portRate d.egrPort) [] (s.detSizes (s.othersOn d.egrPort f) ++ [d.maxPkt]) then some 6
  else if d.cls = 2 ∧ d.egr ∧ ¬ s.holdOk d then some 7
  else if (d.ing ∧ ¬ s.portOn d.ingPort) ∨ (d.egr ∧ ¬ s.portOn d.egrPort) then some 8
  else if full ∧ d.ing ∧ (s.admitted.any fun g => decide (g ≠ f) && decide (s.rd (Reg.FLOW_CLASS g) ≠ 0) && s.on (Reg.FLOW_ING_EN g) &&
      decide (s.rd (Reg.FLOW_PRECLASS g) = d.preclass)) then some 9
  else if old ∧ ¬ (s.rd (Reg.FLOW_CLASS f) = d.cls ∧ s.rd (Reg.FLOW_ING_COURSE f) = d.ingCourse ∧ s.rd (Reg.FLOW_ING_PORT f) = d.ingPort ∧
      s.rd (Reg.FLOW_EGR_COURSE f) = d.egrCourse ∧ s.rd (Reg.FLOW_EGR_PORT f) = d.egrPort) then some 10
  else if s.on (Reg.FLOW_DRAINING f) then some 11
  else none

abbrev admPage : Nat := 0x340

/-- The words of ADM_DATA. -/
def Dev.admData (s : Dev) : List Word :=
  (List.range 8).map fun k => s.word (Reg.ADM_DATA k).cell

/-- ADM_FREE of a course shown. -/
def Dev.showFree (c : Nat) (s : Dev) : Dev :=
  s.wr Reg.ADM_FREE_BYTES (s.courseFree c).toNat

/-- A write of ADM_CTRL with GO set: ignored and counted with E-27.08 while BUSY (R265). -/
def Dev.admGo (op : Nat) (v : Word) (act : Dev → Dev) (s : Dev) : Dev :=
  s.hostWrite admPage 0x040 4#32 ((v &&& ~~~ 3) ||| BitVec.ofNat 32 (4 + op)) fun s =>
    if s.on Reg.ADM_STAT_BUSY then (s.viol admPage).raise 27 8
    else act (((s.wr Reg.ADM_STAT_FLOW (declOf s.admData).flow).wr Reg.ADM_STAT_RESULT 0).wr Reg.ADM_STAT_CAUSE 0)

/-- An operation that ends at once, accepted or refused: RESULT, CAUSE and E-27.00. -/
def Dev.admEnd (result cause : Nat) (s : Dev) : Dev :=
  (((s.wr Reg.ADM_STAT_RESULT result).wr Reg.ADM_STAT_CAUSE cause).wr Reg.ADM_STAT_BUSY 0).raise 27 0

/-- The latency bounds that a declaration is granted (R269, R271); best effort has none. -/
def Decl.grants (d : Decl) : Nat × Nat :=
  (if d.cls ≠ 0 ∧ d.ing then 5000 + 400 * d.hops else 0, if d.cls ≠ 0 ∧ d.egr then 11000 + 400 * d.egrHops else 0)

/-- The checks of an ADMIT run: accepted for the next course frame boundary, or refused with its cause (R264, R265). -/
def Dev.admission (s : Dev) : Dev :=
  let d := declOf s.admData
  match s.admitCause d with
  | some cause => (s.showFree d.ingCourse).admEnd 2 cause
  | none =>
    let g := d.grants
    let s := (s.wr Reg.ADM_GRANT_ING_NS g.1).wr Reg.ADM_GRANT_EGR_NS g.2
    { s.wr Reg.ADM_STAT_BUSY 1 with sched := { s.sched with adm := some ⟨1, s.admData, s.masterCode⟩ } }

/-- ADMIT: a GO with OP 1. -/
def execFlowAdmit (v : Word) (s : State) : Out :=
  s.run fun s => s.admGo 1 v Dev.admission

/-- A PRECLASS entry made invalid. -/
def Dev.dropPreclass (f : Nat) (s : Dev) : Dev :=
  if s.on (Reg.FLOW_ADMITTED f) ∧ s.rd (Reg.FLOW_CLASS f) ≠ 0 ∧ s.on (Reg.FLOW_ING_EN f) then
    s.wr (Reg.PRECLASS_VALID (s.rd (Reg.FLOW_PRECLASS f))) 0
  else s

/-- The context of an accepted ADMIT written (R265). -/
def Dev.admitApply (ws : List Word) (master : Nat) (s : Dev) : Dev :=
  let d := declOf ws
  let f := d.flow
  let s := s.dropPreclass f
  let s := s.setWords (tableCell tableFLOW.id f 0) ((List.range 8).map fun k => (ws[k]?).getD 0 &&& declMask k)
  let s := ((s.setWord (tableCell tableFLOW.id f 8) 1).wr (Reg.FLOW_QUOTA f) d.quota).wr (Reg.FLOW_ING_NS f) d.grants.1
  let s := s.wr (Reg.FLOW_EGR_NS f) d.grants.2
  let s := if d.cls ≠ 0 ∧ d.ing then
      ((s.wr (Reg.PRECLASS_RATE_KPPS d.preclass) d.kpps).wr (Reg.PRECLASS_BURST d.preclass) d.packets).wr
        (Reg.PRECLASS_VALID d.preclass) 1
    else s
  let s := { s with sched := { s.sched with adm := none } }
  let s := (s.journal 0x341 master 4).showFree d.ingCourse
  s.admEnd 1 0

/-- ADMIT_APPLY: the first course frame boundary after an accepted ADMIT. -/
def execAdmitApply (s : State) : Out :=
  s.run fun s =>
    match s.sched.adm with
    | some a => if a.op = 1 then s.admitApply a.words a.master else s
    | none => s

/-- OP 2: the PRECLASS entry is invalid at once and the flow drains (R266). A flow without a context is refused
(DESIGN CHOICE, log 27). -/
def Dev.removeGo (s : Dev) : Dev :=
  let f := (declOf s.admData).flow
  if s.on (Reg.FLOW_ADMITTED f) then
    let s := ((s.dropPreclass f).wr (Reg.FLOW_DRAINING f) 1).wr Reg.ADM_STAT_BUSY 1
    { s with sched := { s.sched with adm := some ⟨2, s.admData, s.masterCode⟩ } }
  else s.admEnd 2 0

/-- REMOVE: a GO with OP 2. -/
def execRemove (v : Word) (s : State) : Out :=
  s.run fun s => s.admGo 2 v Dev.removeGo

/-- The packets of a flow that wait for their course frame. -/
def Dev.flowQueue (s : Dev) (f : Nat) : List Queued :=
  sget (dflt []) s.sched.flows f

/-- The device with a flow's queue changed. -/
def Dev.setFlowQueue (f : Nat) (q : List Queued) (s : Dev) : Dev :=
  { s with sched := { s.sched with flows := sset (dflt []) s.sched.flows f q } }

/-- A drained flow's context cleared and its quota freed (R266). -/
def Dev.removeEnd (f master : Nat) (s : Dev) : Dev :=
  let c := s.rd (Reg.FLOW_ING_COURSE f)
  let s := s.setWords (tableCell tableFLOW.id f 0) (List.replicate 11 0)
  let s := { s with sched := { s.sched with adm := none } }
  ((s.journal 0x341 master 4).showFree c).admEnd 1 0

/-- REMOVE_COMPLETE: the flow's queued packets have left. -/
def execRemoveComplete (s : State) : Out :=
  s.run fun s =>
    match s.sched.adm with
    | some a =>
      let f := (declOf a.words).flow
      if a.op = 2 ∧ s.flowQueue f = [] then s.removeEnd f a.master else s
    | none => s

/-- OP 3: the flow's counters zeroed (R266). -/
def Dev.zeroFlow (s : Dev) : Dev :=
  let f := (declOf s.admData).flow
  let s := s.setWords (tableCell tableFLOW.id f 16) (List.replicate 17 0)
  ({ s with sched := { s.sched with pdv := s.sched.pdv.filter fun e => e.1 ≠ f } }).admEnd 1 0

/-- ZERO_FLOW_COUNTERS: a GO with OP 3 (R266). -/
def execZeroFlowCounters (v : Word) (s : State) : Out :=
  s.run fun s => s.admGo 3 v Dev.zeroFlow

/-- A write of ADM_CTRL. A GO with OP 0 has nothing to start: it is ignored (log 42). -/
def Dev.admCtrl (v : Word) (s : Dev) : Dev :=
  if v.getLsbD 2 then
    match getBits v 0 2 with
    | 1 => s.admGo 1 v Dev.admission
    | 2 => s.admGo 2 v Dev.removeGo
    | 3 => s.admGo 3 v Dev.zeroFlow
    | _ => s.hostWrite admPage 0x040 4#32 v fun s => (s.viol admPage).raise 27 8
  else s.hostWrite admPage 0x040 4#32 v id

/-- The flows of a list kept in order while they pass R263 and causes 5 and 6 together; answers those that do not (R267). -/
def Dev.unfit (s : Dev) : List Nat → List Nat → List Nat
  | _, [] => []
  | kept, f :: r =>
    let c := s.rd (Reg.FLOW_ING_COURSE f)
    let p := s.rd (Reg.FLOW_EGR_PORT f)
    let onC := (kept ++ [f]).filter fun g => s.on (Reg.FLOW_ING_EN g) && decide (s.rd (Reg.FLOW_ING_COURSE g) = c)
    let onP := (kept ++ [f]).filter fun g => s.on (Reg.FLOW_EGR_EN g) && decide (s.rd (Reg.FLOW_EGR_PORT g) = p)
    let okC := !s.on (Reg.FLOW_ING_EN f) || ((s.on (Reg.MAP_EN c) || s.remoteTx c) &&
      decide (s.quotas onC + s.rd (Reg.CRS_CFG_BE_MAX_PKT c) ≤ streamCapacity (s.members c)))
    let okP := !s.on (Reg.FLOW_EGR_EN f) || (s.portQuotaOk p (s.quotas onP) &&
      (decide (s.rd (Reg.FLOW_CLASS f) ≠ 2) || wireOk (s.portRate p) [] (s.detSizes onP)))
    if okC && okP then s.unfit (kept ++ [f]) r else f :: s.unfit kept r

/-! ## Token buckets -/

/-- A bucket at a clock: it has gained `rate` per ns since it was last filled, up to `depth`; one never used is full. -/
def bucketAt (b : Option Bucket) (clock rate depth : Nat) : Nat :=
  match b with
  | none => depth
  | some b => min depth (b.tokens + rate * (clock - b.since))

/-- A bucket among others asked for a price: whether it holds it, and the others with it charged. -/
def takeTokens (bs : List (Nat × Bucket)) (i clock rate depth price : Nat) : Bool × List (Nat × Bucket) :=
  let t := bucketAt ((bs.find? fun e => e.1 = i).map (·.2)) clock rate depth
  let rest := bs.filter fun e => e.1 ≠ i
  if price ≤ t then (true, rest ++ [(i, ⟨t - price, clock⟩)]) else (false, rest ++ [(i, ⟨t, clock⟩)])

/-! ## Best effort (R274) -/

/-- A best-effort queue, by BEQ index. -/
def Dev.beq (s : Dev) (q : Nat) : List Queued :=
  sget (dflt []) s.sched.beq q

/-- The device with a best-effort queue changed. -/
def Dev.setBeq (q : Nat) (x : List Queued) (s : Dev) : Dev :=
  { s with sched := { s.sched with beq := sset (dflt []) s.sched.beq q x } }

/-- The line size of a packet: its frame with FCS, and 4 (R260). -/
def Queued.size (x : Queued) : Nat :=
  x.bytes.length + 8

/-- The bytes that a queue holds. -/
def queueBytes (q : List Queued) : Nat :=
  (q.map Queued.size).sum

/-- The best-effort bytes in HBM. -/
def Dev.beBytes (s : Dev) : Nat :=
  (s.sched.beq.map fun e => queueBytes (e.2.filter (·.hbm))).sum

/-- The fixed regions of Table 1.9, in bytes. -/
def fixedRegions : Nat :=
  2000000000 + 0x40000000 + 0x10000000 + 0x10000000 + 0x400000 + 0x10000

/-- The best-effort region: what the other regions of Table 1.9 leave. -/
def Dev.beRegion (s : Dev) : Nat :=
  s.hbmUsable - (s.rd Reg.PAR_RES_RESERVED_MB * 1000000 + s.rd Reg.CAP_BUF_SIZE_GB * 1000000000 + fixedRegions)

/-- The bytes that CAP lets be written in a frame of 1,280 ns. -/
def Dev.beFrameCap (s : Dev) : Nat :=
  s.rd Reg.BE_CAP_CAP * 1280

/-- A best-effort packet at buffer entry (R274): into the cell buffer alone where `direct` holds, into HBM, or dropped under the first cause
that applies. Answers whether it entered. -/
def Dev.beEnter (q maxPkt : Nat) (direct : Bool) (x : Queued) (s : Dev) : Bool × Dev :=
  if maxPkt < x.size then (false, s.bump Reg.BE_DROP_SIZE.run)
  else if s.rd (Reg.BEQ_QLIM_KIB q) * 1024 < queueBytes (s.beq q) + x.size then (false, (s.bump Reg.BE_DROP_QLIM.run).raise 27 3)
  else if direct then (true, s.setBeq q (s.beq q ++ [{ x with hbm := false }]))
  else if s.beRegion < s.beBytes + x.size then (false, (s.bump Reg.BE_DROP_FULL.run).raise 27 3)
  else if s.beFrameCap < s.sched.written + x.size then (false, (s.bump Reg.BE_DROP_CAP.run).raise 27 4)
  else
    let s := { s with sched := { s.sched with written := s.sched.written + x.size } }
    (true, s.setBeq q (s.beq q ++ [{ x with hbm := true }]))

/-- A packet dropped by the scheduler: counted at the point of drops. -/
def Dev.dropPacket (tc port : Nat) (course : Option Nat) (len : Nat) (s : Dev) : Dev :=
  s.countPacket pointDropped tc (some port) course len

/-- A packet of flow `f` enters the best-effort queue of its ingress course, or is dropped at the entry (R274); `x` has class 0. -/
def Dev.beIngress (x : Queued) (port : Nat) (s : Dev) : Dev :=
  let c := s.rd (Reg.FLOW_ING_COURSE x.flow)
  let prio := s.rd (Reg.FLOW_BE_PRIO x.flow)
  let used := sget (dflt 0) s.sched.direct c
  let q := 4 * c + prio
  let room := (sget (dflt []) s.sched.carry c).length + used + x.size + s.quotas (s.courseFlows c) ≤ streamCapacity (s.members c)
  let direct := decide (s.beq q = []) && decide room
  let r := s.beEnter q (s.rd (Reg.CRS_CFG_BE_MAX_PKT c)) direct x
  if r.1 then
    if direct then { r.2 with sched := { r.2.sched with direct := sset (dflt 0) r.2.sched.direct c (used + x.size) } } else r.2
  else (r.2.bump (Reg.FLOW_ING_DROP x.flow)).dropPacket prio port (some c) (x.bytes.length + 4)

/-- A flow revoked: its PRECLASS entry invalid, and the packets that wait in its queue best effort, each at the entry of its course's queue
(R267; the queued ones DEDUCED, log 188). -/
def Dev.revoke (f : Nat) (s : Dev) : Dev :=
  let q := s.flowQueue f
  let s := ((((s.dropPreclass f).wr (Reg.FLOW_REVOKED f) 1).bump Reg.REVOKED_FLOWS.run).raise 27 1).setFlowQueue f []
  q.foldl (fun s x => s.beIngress { x with cls := 0 } (s.rd (Reg.FLOW_ING_PORT f))) s

/-- The reserved flows that no longer fit under the values of `p` revoked, after a course map or an octet has changed (R267). -/
def Dev.revokeFor (p s : Dev) : Dev :=
  (p.unfit [] (p.admitted.filter p.flowReserved)).foldl (fun s f => s.revoke f) s

/-! ## From the reorder exit (R266, R275, R291) -/

/-- A packet of a flow enters its ingress queue: reserved, or best effort where it is not marked, its flow is best effort or revoked. -/
def Dev.ingress (f port : Nat) (reserved : Bool) (bytes : List Byte) (tIn : Nat) (poison : Bool) (s : Dev) : Dev :=
  let len := bytes.length + 4
  let c := s.rd (Reg.FLOW_ING_COURSE f)
  let prio := s.rd (Reg.FLOW_BE_PRIO f)
  if !(s.on (Reg.FLOW_ADMITTED f) && s.on (Reg.FLOW_ING_EN f)) || poison then
    ((s.bump Reg.DROP_NOFLOW.run).raise 27 5).dropPacket tcUnclassified port none len
  else if s.on (Reg.CSTAT_STARVED c) then
    (((s.bump Reg.DROP_SF.run).bump (Reg.FLOW_ING_DROP f)).raise 27 7).dropPacket
      (trafficClass (if reserved then s.rd (Reg.FLOW_CLASS f) else 0) prio) port (some c) len
  else if reserved && s.flowReserved f then
    let s := s.countPacket pointReorder (trafficClass (s.rd (Reg.FLOW_CLASS f)) prio) (some port) (some c) len
    s.setFlowQueue f (s.flowQueue f ++ [⟨f, s.rd (Reg.FLOW_CLASS f), bytes, tIn, 0, false, false⟩])
  else
    let s := s.countPacket pointReorder prio (some port) (some c) len
    s.beIngress ⟨f, 0, bytes, tIn, 0, false, false⟩ port

/-- A punted packet: policed by its queue's bucket and written to the service queue, or dropped (R275). -/
def Dev.puntPacket (q port : Nat) (bytes : List Byte) (tIn : Nat) (s : Dev) : Dev :=
  let s := s.itemBoundary q
  let len := bytes.length + 4
  let s := s.countPacket pointReorder tcPunt (some port) none len
  let t := takeTokens s.parse.punt q s.clock (s.rd (Reg.PUNTQ_RATE_KPPS q)) (s.rd (Reg.PUNTQ_BURST q) * 1000000) 1000000
  let s := { s with parse := { s.parse with punt := t.2 } }
  let prio := if s.on (Reg.Q_CFG_PRIO_SRC q) then
      match (l2 bytes).outer with
      | some t => t.pcp
      | none => s.rd (Reg.Q_CFG_PRIO_DEF q)
    else s.rd (Reg.Q_CFG_PRIO_DEF q)
  let r : Bool × Dev := if t.1 then s.queueArrive q ⟨prio, 0, port, false, tIn, 0, bytes⟩ else (false, s)
  if r.1 then r.2
  else (((r.2.bump Reg.PUNT_DROP.run).bump (Reg.PUNTQ_DROP q)).raise 27 6).dropPacket tcPunt port none len

/-! ## The packet stream sent (R259, R260, R268) -/

/-- A packet in the stream: header and frame (Table 9.3). -/
def Queued.streamBytes (x : Queued) : List Byte :=
  bytesBE 2 x.flow ++ bytesBE 2 (x.cls * 2 ^ 14 + x.bytes.length) ++ bytesBE 4 (x.tIn / 65536 % 2 ^ 32) ++ x.bytes

/-- A course frame under construction: the stream bytes, where packet headers begin in them, and the packets that end in them: flow, ingress reference, place. -/
structure Fill where
  bytes : List Byte
  starts : List Nat
  ends : List (Nat × Nat × Nat)
  deriving DecidableEq, Repr

/-- A packet appended. -/
def Fill.put (a : Fill) (x : Queued) : Fill :=
  let b := a.bytes ++ x.streamBytes
  ⟨b, a.starts ++ [a.bytes.length], a.ends ++ [(x.flow, x.tIn, b.length)]⟩

/-- A scheduled packet counted for its flow (Table 9.10). -/
def Dev.countIngress (x : Queued) (s : Dev) : Dev :=
  let f := x.flow
  (s.bump64 (Reg.FLOW_ING_PKTS f) 1).bump64 (Reg.FLOW_ING_BYTES f) x.size

/-- The last byte of a packet of flow `f` scheduled: its wait since its ingress reference (Table 9.10). -/
def Dev.countWait (f tIn : Nat) (s : Dev) : Dev :=
  let wait := (s.time - tIn) / 65536
  s.wr (Reg.FLOW_ING_WAIT_MAX_NS f) (max (s.rd (Reg.FLOW_ING_WAIT_MAX_NS f)) (min wait (2 ^ 32 - 1)))

/-- Whole packets of a reserved flow while the next fits in what is left of its quota. -/
def Dev.fillReserved : Nat → List Queued → Fill → Dev → List Queued × Fill × Dev
  | _, [], a, s => ([], a, s)
  | left, x :: q, a, s =>
    if x.size ≤ left then Dev.fillReserved (left - x.size) q (a.put x) (s.countIngress x) else (x :: q, a, s)

/-- The bucket of a shaped best-effort flow asked for a packet; tokens in 1/8,000,000 byte, RATE_KBPS of them per ns. An unshaped flow
always passes (R262). -/
def Dev.shapeTake (x : Queued) (s : Dev) : Bool × Dev :=
  let r := s.rd (Reg.FLOW_RATE_KBPS x.flow)
  if r = 0 ∨ s.rd (Reg.FLOW_CLASS x.flow) ≠ 0 then (true, s)
  else
    let t := takeTokens s.sched.shape x.flow s.clock r (s.rd (Reg.FLOW_BURST x.flow) * 8000000) (x.size * 8000000)
    (t.1, { s with sched := { s.sched with shape := t.2 } })

/-- Whole packets of a best-effort queue while a block is left, each subject to its flow's bucket; a packet that its bucket holds back
holds back its flow alone. `held` are the flows held back. -/
def Dev.fillBest (cap : Nat) : List Nat → List Queued → Fill → Dev → List Queued × Fill × Dev
  | _, [], a, s => ([], a, s)
  | held, x :: q, a, s =>
    if cap ≤ a.bytes.length then (x :: q, a, s)
    else if held.contains x.flow then
      let r := Dev.fillBest cap held q a s
      (x :: r.1, r.2)
    else
      let t := s.shapeTake x
      if t.1 then Dev.fillBest cap held q (a.put x) (t.2.countIngress x)
      else
        let r := Dev.fillBest cap (x.flow :: held) q a t.2
        (x :: r.1, r.2)

/-- The block of 64 bytes for stream bytes from `pos` on (Table 9.2). What a block has no bytes for is 0 (DESIGN CHOICE, log 28). -/
def streamBlock (a : Fill) (pos : Nat) : List Byte :=
  let d := (a.bytes.drop pos).take 62
  if d = [] then (0x80#8 :: List.replicate 63 0)
  else
    let hdr := match a.starts.find? fun o => pos ≤ o ∧ o < pos + 62 with
      | some o => 64 + (o - pos)
      | none => 0
    BitVec.ofNat 8 hdr :: 0 :: (d ++ List.replicate (62 - d.length) 0)

/-- Course `c`'s frame filled (R268): the 64M − 1 blocks of its packet stream, and the bytes carried into the next frame. -/
def Dev.fillCourse (c m : Nat) (s : Dev) : List Byte × Dev :=
  let cap := streamCapacity m
  let a : Fill := ⟨sget (dflt []) s.sched.carry c, [], sget (dflt []) s.sched.tails c⟩
  let r := (s.courseFlows c).foldl (fun (p : Fill × Dev) f =>
    let x := Dev.fillReserved (p.2.rd (Reg.FLOW_QUOTA f)) (p.2.flowQueue f) p.1 p.2
    (x.2.1, x.2.2.setFlowQueue f x.1)) (a, s)
  let r := [3, 2, 1, 0].foldl (fun (p : Fill × Dev) prio =>
    let q := 4 * c + prio
    let x := Dev.fillBest cap [] (p.2.beq q) p.1 p.2
    (x.2.1, x.2.2.setBeq q x.1)) r
  let sch := r.2.sched
  let s := { r.2 with sched := { sch with
    carry := sset (dflt []) sch.carry c (r.1.bytes.drop cap)
    tails := sset (dflt []) sch.tails c ((r.1.ends.filter fun e => decide (cap < e.2.2)).map fun e => (e.1, e.2.1, e.2.2 - cap))
    direct := sset (dflt 0) sch.direct c 0 } }
  let s := (r.1.ends.filter fun e => decide (e.2.2 ≤ cap)).foldl (fun s e => s.countWait e.1 e.2.1) s
  let f : Fill := { r.1 with bytes := r.1.bytes.take cap }
  ((List.range (64 * m - 1)).flatMap fun b => streamBlock f (62 * b), s)

/-- The ingress packets of a key-starved course dropped (R291). -/
def Dev.dropCourse (c : Nat) (s : Dev) : Dev :=
  let gone := ((s.courseFlows c).flatMap s.flowQueue) ++ ([0, 1, 2, 3].flatMap fun p => s.beq (4 * c + p))
  let s := (s.courseFlows c).foldl (fun s f => s.setFlowQueue f []) s
  let s := [0, 1, 2, 3].foldl (fun s p => s.setBeq (4 * c + p) []) s
  gone.foldl (fun s x => (((s.bump Reg.DROP_SF.run).bump (Reg.FLOW_ING_DROP x.flow)).raise 27 7).dropPacket
    (trafficClass x.cls (s.rd (Reg.FLOW_BE_PRIO x.flow))) (s.rd (Reg.FLOW_ING_PORT x.flow)) (some c) (x.bytes.length + 4)) s

/-! ## The packet stream received (R261) -/

/-- A course's receive stream. -/
def Dev.rxs (s : Dev) (c : Nat) : RxStream :=
  sget (dflt RxStream.reset) s.sched.rx c

/-- The device with a course's receive stream changed. -/
def Dev.setRxs (c : Nat) (x : RxStream) (s : Dev) : Dev :=
  { s with sched := { s.sched with rx := sset (dflt RxStream.reset) s.sched.rx c x } }

/-- The packet headers that begin in a course frame of M members: at most one in a block, since the shortest packet takes 68 bytes (Tables
9.2 and 9.3). -/
def streamHeads (m : Nat) (plain : List Byte) : Nat :=
  ((List.range (64 * m - 1)).filter fun b => decide (64 ≤ fieldBE plain (64 * b) 1) && decide (fieldBE plain (64 * b) 1 < 128)).length

/-- A stream broken, with `heads` packets that begin in what is lost: they and the packet under way are dropped and counted in DROP_SF, and bytes
are discarded until the next START. The bytes of packets that never came whole are a free value (log 187). -/
def Dev.streamLost (c heads : Nat) (s : Dev) : Dev :=
  let x := s.rxs c
  let n := heads + (if x.partial_ = [] then 0 else 1)
  let s := s.setRxs c { x with partial_ := [], inSync := false }
  if n = 0 then s
  else ((s.bumpBy Reg.DROP_SF.run n).raise 27 7).countPackets n pointDropped tcUnclassified none (some c) (Config.freeOf 108 [s.fresh])

/-- `n` frames of a stream lost whose content never came: how many packets begin in them is a free value, at most one for each block (log 187). -/
def Dev.framesGone (c m n : Nat) (s : Dev) : Dev :=
  if n = 0 then s else (s.streamLost c (Config.freeOf 107 [s.fresh] % (n * (64 * m - 1) + 1))).tick

/-- The frames that a stream lacks before serial `serial`; none where that serial is not later than the last one's. -/
def Dev.streamGap (s : Dev) (c serial : Nat) : Option Nat :=
  match (s.rxs c).last with
  | some l =>
    let g := (serial + 2 ^ 48 - (l + 1) % 2 ^ 48) % 2 ^ 48
    if g < 2 ^ 47 then some g else none
  | none => some 0

/-- The stream reaches the frame of serial `serial`: the frames between it and the last one are lost (R261); where the serials have started anew, one
frame's worth (log 187). -/
def Dev.streamReach (c m serial : Nat) (s : Dev) : Dev :=
  let s := s.framesGone c m ((s.streamGap c serial).getD 1)
  s.setRxs c { s.rxs c with last := some serial }

/-- The frame of serial `serial` withheld. `plain`: its plaintext, where it came whole and is known to be what was sent. One that is not later than the
stream takes the place of a frame that never came. -/
def Dev.streamMissed (c m serial : Nat) (plain : Option (List Byte)) (s : Dev) : Dev :=
  if s.streamGap c serial = none then s.framesGone c m 1
  else
    let s := s.streamReach c m serial
    match plain with
    | some d => s.streamLost c (streamHeads m d)
    | none => s.framesGone c m 1

/-- Whether the bytes gathered hold a whole header with a bad length. -/
def badHeader (p : List Byte) : Bool :=
  decide (8 ≤ p.length) && !(decide (60 ≤ fieldBE p 2 2 % 16384) && decide (fieldBE p 2 2 % 16384 ≤ 16379))

/-- The bytes that the packet under way still lacks. -/
def streamLacks (p : List Byte) : Nat :=
  if p.length < 8 then 8 - p.length else 8 + fieldBE p 2 2 % 16384 - p.length

/-- Stream bytes of one block after the packet under way: what it lacks is taken, in at most two bites (header, then frame). Answers the
packet so far. -/
def streamTake (p d : List Byte) : List Byte :=
  if p.length < 8 then
    let p' := p ++ d.take (8 - p.length)
    if p'.length < 8 then p' else p' ++ (d.drop (8 - p.length)).take (streamLacks p')
  else p ++ d.take (streamLacks p)

/-- Whether the bytes are a whole packet. -/
def streamWhole (p : List Byte) : Bool :=
  decide (8 ≤ p.length) && decide (streamLacks p = 0)

/-- A whole packet of the stream goes to egress. -/
def Dev.deliverPacket (c : Nat) (p : List Byte) (s : Dev) : Dev :=
  let x : Queued := ⟨fieldBE p 0 2, fieldBE p 2 1 / 64, p.drop 8, fieldBE p 4 4, 0, false, false⟩
  { s with sched := { s.sched with arrivals := s.sched.arrivals ++ [⟨c, x⟩] } }

/-- One block of the stream (R259, R261): the packet under way goes on; at START the next one begins at PTR. -/
def Dev.streamBlockIn (c : Nat) (b : List Byte) (s : Dev) : Dev :=
  let h := fieldBE b 0 1
  let d := sliceBytes b 2 62
  if 128 ≤ h then s
  else
    let start := decide (64 ≤ h % 128)
    let ptr := h % 64
    let begin (s : Dev) : Dev :=
      if start then
        let p := streamTake [] (d.drop ptr)
        let s := s.setRxs c { s.rxs c with partial_ := p, inSync := true }
        if badHeader p then s.streamLost c 0 else s
      else s
    let x := s.rxs c
    if !x.inSync ∨ x.partial_ = [] then begin s
    else
      let p := streamTake x.partial_ d
      if badHeader p then begin ((s.setRxs c { x with partial_ := p }).streamLost c 0)
      else if streamWhole p then begin ((s.setRxs c { x with partial_ := [] }).deliverPacket c p)
      else s.setRxs c { x with partial_ := p }

/-- The stream of a delivered course frame of M members: its blocks but the last (R261). -/
def Dev.streamIn (c m serial : Nat) (plain : List Byte) (s : Dev) : Dev :=
  let s := s.streamReach c m serial
  (List.range (64 * m - 1)).foldl (fun s b => s.streamBlockIn c (sliceBytes plain (64 * b) 64)) s

/-! ## Egress (R270 to R274) -/

/-- Whether port `p` exists and its link is up. -/
def Dev.portUp (s : Dev) (p : Nat) : Bool :=
  s.portExists p && s.on (Reg.PORT_STAT_LINK_UP p)

/-- TIME in ns modulo 2^32. -/
def Dev.now32 (s : Dev) : Nat :=
  s.time / 65536 % 2 ^ 32

/-- `a` less `b` modulo 2^32, as a signed number. -/
def diff32 (a b : Nat) : Int :=
  signed 32 ((a + 2 ^ 32 - b % 2 ^ 32) % 2 ^ 32)

/-- One port's list in a table of lists. -/
def portList (t : List (Nat × List Queued)) (p : Nat) : List Queued :=
  sget (dflt []) t p

/-- A DET packet before its port: held until its release instant, released at once where it is late, and that is its release then, dropped where it is early (R272). -/
def Dev.detArrive (p : Nat) (x : Queued) (s : Dev) : Dev :=
  let f := x.flow
  let rel := (x.tIn + s.rd (Reg.FLOW_DELIVER_NS f)) % 2 ^ 32
  let d := diff32 rel s.now32
  let x := { x with rel := rel }
  if d < 0 then
    let s := ((s.bump (Reg.FLOW_LATE f)).bump Reg.DET_LATE.run).raise 27 2
    { s with sched := { s.sched with det := sset (dflt []) s.sched.det p (portList s.sched.det p ++ [{ x with rel := s.now32, late := true }]) } }
  else if 100000 < d then
    ((((s.bump (Reg.FLOW_EARLY f)).bump Reg.DET_EARLY.run).bump (Reg.FLOW_EGR_DROP f)).raise 27 2).dropPacket 5 p none (x.bytes.length + 4)
  else { s with sched := { s.sched with hold := sset (dflt []) s.sched.hold p (portList s.sched.hold p ++ [x]) } }

/-- A packet at the egress stage (R270 to R274); a packet of a revoked flow is best effort (R267). -/
def Dev.egressArrive (a : Delivered) (s : Dev) : Dev :=
  let f := a.pkt.flow
  let x := { a.pkt with cls := if s.on (Reg.FLOW_REVOKED f) then 0 else a.pkt.cls }
  let len := x.bytes.length + 4
  let prio := s.rd (Reg.FLOW_BE_PRIO f)
  let p := s.rd (Reg.FLOW_EGR_PORT f)
  let tc := trafficClass x.cls prio
  if !(s.on (Reg.FLOW_ADMITTED f) && s.on (Reg.FLOW_EGR_EN f)) then
    ((s.bump Reg.DROP_NOFLOW.run).raise 27 5).countPacket pointDropped tcUnclassified none (some a.course) len
  else if a.course ≠ s.rd (Reg.FLOW_EGR_COURSE f) then
    (((s.bump Reg.DROP_WRONG_COURSE.run).bump (Reg.FLOW_EGR_DROP f)).raise 27 5).countPacket pointDropped tc (some p) (some a.course) len
  else if !s.portUp p then
    (((s.bump Reg.DROP_PORT_DOWN.run).bump (Reg.FLOW_EGR_DROP f)).raise 27 7).countPacket pointDropped tc (some p) (some a.course) len
  else match x.cls with
    | 2 => s.detArrive p x
    | 1 => { s with sched := { s.sched with bounded := sset (dflt []) s.sched.bounded p (portList s.sched.bounded p ++ [x]) } }
    | _ =>
      let q := 2048 + 4 * p + prio
      let r := s.beEnter q (s.rd (Reg.PORT_CFG_BE_MAX_PKT p)) (decide (s.beq q = [])) x
      if r.1 then r.2 else (r.2.bump (Reg.FLOW_EGR_DROP f)).countPacket pointDropped tc (some p) (some a.course) len

/-- EGRESS_PACKET_ARRIVE: the oldest packet that the courses have delivered reaches the egress stage. -/
def execEgressPacketArrive (s : State) : Out :=
  s.run fun s =>
    match s.sched.arrivals with
    | [] => s
    | a :: r => ({ s with sched := { s.sched with arrivals := r } }).egressArrive a

/-- The held packet of a port whose release instant comes first. -/
def firstDue (now : Nat) : List Queued → Option Queued
  | [] => none
  | x :: r =>
    match firstDue now r with
    | none => some x
    | some y => if diff32 y.rel now < diff32 x.rel now then some y else some x

/-- DET_RELEASE: at T_rel the packet of port `p` that is due first is released to its port (R272). -/
def execDetRelease (p : Fin 64) (s : State) : Out :=
  s.run fun s =>
    match firstDue s.now32 (portList s.sched.hold p) with
    | none => s
    | some x =>
      let sch := s.sched
      { s with sched := { sch with
        hold := sset (dflt []) sch.hold p ((portList sch.hold p).erase x), det := sset (dflt []) sch.det p (portList sch.det p ++ [x]) } }

/-- The wire time of a packet on port `p`, ns, rounded up (R264). -/
def Dev.wireTime (s : Dev) (p : Nat) (x : Queued) : Nat :=
  ceilDiv ((x.size + 16) * 8 * 1000000000) (s.portRate p)

/-- Whether a packet may start on port `p` now: its wire time does not reach past the release of a held DET packet (R271). -/
def Dev.mayStart (s : Dev) (p : Nat) (x : Queued) : Bool :=
  (portList s.sched.hold p).all fun h => decide ((s.wireTime p x : Int) ≤ diff32 h.rel s.now32)

/-- A packet starts on its port: counted, and for a DET packet in time its δ taken into the flow's span (R273). `rel` is its release
instant, in ns modulo 2^32. -/
def Dev.startPacket (p rel : Nat) (delta : Option Nat) (x : Queued) (s : Dev) : Dev :=
  let f := x.flow
  let s := (s.bump64 (Reg.FLOW_EGR_PKTS f) 1).bump64 (Reg.FLOW_EGR_BYTES f) x.size
  let delay := (rel + 2 ^ 32 - x.tIn % 2 ^ 32) % 2 ^ 32
  let s := s.wr (Reg.FLOW_EGR_DELAY_MAX_NS f) (max (s.rd (Reg.FLOW_EGR_DELAY_MAX_NS f)) delay)
  let s := match delta with
    | none => s
    | some d =>
      let e := match s.sched.pdv.find? (fun (e : Nat × Nat × Nat) => decide (e.1 = f)) with
        | some e => (min e.2.1 d, max e.2.2 d)
        | none => (d, d)
      ({ s with sched := { s.sched with pdv := (f, e.1, e.2) :: s.sched.pdv.filter fun (x : Nat × Nat × Nat) => x.1 ≠ f } }).wr
        (Reg.FLOW_PDV_SPAN_NS f) (e.2 - e.1)
  let len := x.bytes.length + 4
  let s := (s.bump64 (Reg.TX_FRAMES_LO p).run 1).bump64 (Reg.TX_BYTES_LO p).run len
  s.countPacket pointEgress (trafficClass x.cls (s.rd (Reg.FLOW_BE_PRIO f))) (some p) (some (s.rd (Reg.FLOW_EGR_COURSE f))) len

/-- The flow number that packets of the service core bear here: none of the 65,536 (R348). -/
abbrev coreFlow : Nat := 65536

/-- A packet of the service core starts on its port, or is dropped where a word of it carries a poison mark: no flow counts it (R348). -/
def Dev.startCore (p : Nat) (poison : Bool) (x : Queued) (s : Dev) : Dev :=
  let len := x.bytes.length + 4
  if poison then s.dropPacket 3 p none len
  else ((s.bump64 (Reg.TX_FRAMES_LO p).run 1).bump64 (Reg.TX_BYTES_LO p).run len).countPacket pointEgress 3 (some p) none len

/-- A packet dropped because its port's link is down (R270). -/
def Dev.dropDown (p : Nat) (x : Queued) (s : Dev) : Dev :=
  let len := x.bytes.length + 4
  let s := s.bump Reg.DROP_PORT_DOWN.run
  if coreFlow ≤ x.flow then (s.raise 27 7).dropPacket 3 p none len
  else ((s.bump (Reg.FLOW_EGR_DROP x.flow)).raise 27 7).dropPacket (trafficClass x.cls (s.rd (Reg.FLOW_BE_PRIO x.flow))) p none len

/-- Every packet for a port whose link is down dropped (R229, R270). -/
def Dev.dropPort (p : Nat) (s : Dev) : Dev :=
  let sch := s.sched
  let bes := [0, 1, 2, 3].map fun k => 2048 + 4 * p + k
  let gone := portList sch.det p ++ portList sch.bounded p ++ bes.flatMap s.beq
  let s := { s with sched := { sch with det := sset (dflt []) sch.det p [], bounded := sset (dflt []) sch.bounded p [] } }
  let s := bes.foldl (fun s q => s.setBeq q []) s
  gone.foldl (fun s x => s.dropDown p x) s

/-- The next best-effort packet of a port: priority 3 first. -/
def Dev.nextBest (s : Dev) (p : Nat) : Option (Nat × Queued) :=
  [3, 2, 1, 0].findSome? fun k => (s.beq (2048 + 4 * p + k)).head?.map fun x => (2048 + 4 * p + k, x)

/-- A packet starts, or is dropped whole where a word of it carries a poison mark (Table 18.2). -/
def Dev.startOrDrop (p rel : Nat) (delta : Option Nat) (poison : Bool) (x : Queued) (s : Dev) : Dev :=
  if poison then
    (s.bump (Reg.FLOW_EGR_DROP x.flow)).dropPacket (trafficClass x.cls (s.rd (Reg.FLOW_BE_PRIO x.flow))) p
      (some (s.rd (Reg.FLOW_EGR_COURSE x.flow))) (x.bytes.length + 4)
  else s.startPacket p rel delta x

/-- A free egress port starts its next packet: DET at release, then BOUNDED, then best effort (R271). `delta` is δ of R273, where a DET
packet starts; `poison`: a word of the packet carries a poison mark. -/
def Dev.servePort (p delta : Nat) (poison : Bool) (s : Dev) : Dev :=
  if !s.portUp p then s.dropPort p
  else match portList s.sched.det p with
    | x :: r =>
      let s := { s with sched := { s.sched with det := sset (dflt []) s.sched.det p r } }
      s.startOrDrop p x.rel (if x.late then none else some delta) poison x
    | [] =>
      match portList s.sched.bounded p with
      | x :: r =>
        if s.mayStart p x then
          ({ s with sched := { s.sched with bounded := sset (dflt []) s.sched.bounded p r } }).startOrDrop p s.now32 none poison x
        else s
      | [] =>
        match s.nextBest p with
        | some (q, x) =>
          if s.mayStart p x then
            let s := s.setBeq q (s.beq q).tail
            if coreFlow ≤ x.flow then s.startCore p poison x else s.startOrDrop p s.now32 none poison x
          else s
        | none => s

/-- EGRESS_PORT_SERVE: port `p` is free and starts its next packet. -/
def execEgressPortServe (p : Fin 64) (delta : Fin 201) (poison : Bool) (s : State) : Out :=
  s.run fun s => s.servePort p delta poison

end Sys2Proof.Machine
end

