-- ==== Sys2Proof/Machine/Real.lean ====
section
/-!
DEFINITION. Exponentials, decibels and the error function on whole numbers: values in units of 2^-160, from power series. They serve the
estimates of R128 and R129.
-/
namespace Sys2Proof.Machine

/-- One, in the units of this file. -/
abbrev fxOne : Int := 2 ^ 160

/-- Product of two fixed-point values. -/
def fxMul (a b : Int) : Int := a * b / fxOne

/-- Quotient of two fixed-point values. -/
def fxDiv (a b : Int) : Int := a * fxOne / b

/-- The exponential series, summed from its `n`-th term inwards. -/
def fxExpTerms : Nat → Int → Int → Int
  | 0, _, acc => acc
  | n + 1, x, acc => fxExpTerms n x (fxOne + fxMul x acc / (n + 1))

/-- e^x for |x| up to about 8. -/
def fxExp (x : Int) : Int := fxExpTerms 120 x fxOne

/-- ln 10. -/
def fxLn10 : Int := 3365231883504527125129111981421568120141379515367

/-- 10^(m / 1000): the power ratio of m hundredths of a decibel. -/
def dbPower (m : Int) : Int := fxExp (fxLn10 * m / 1000)

/-- 10^(m / 2000): the amplitude ratio of m hundredths of a decibel. -/
def dbAmplitude (m : Int) : Int := fxExp (fxLn10 * m / 2000)

/-- The largest `m` in a range for which a rising test still fails, plus one: bisection over `n` halvings. -/
def bisect (p : Int → Bool) : Nat → Int → Int → Int
  | 0, _, hi => hi
  | n + 1, lo, hi => if hi - lo ≤ 1 then hi else
    let mid := (lo + hi) / 2
    if p mid then bisect p n lo mid else bisect p n mid hi

/-- A positive power ratio in hundredths of a decibel, rounded to the nearest, within ±81.92 dB. -/
def toDb (x : Int) : Int :=
  -- the least m with 10^((m + 1/2) / 1000) > x
  bisect (fun m => fxExp (fxLn10 * (2 * m + 1) / 2000) > x) 16 (-8193) 8192

/-- 2 / √π. -/
def fxTwoOverRootPi : Int := 1649128000240172121335468122222580532118151184855

/-- The terms Σ_{k=0}^{n} (−x²)^k / (k! (2k + 1)), by running powers. -/
def fxErfSum : Nat → Int → Int → Int → Int → Int
  | 0, _, _, _, acc => acc
  | n + 1, k, pow, x2, acc =>
    fxErfSum n (k + 1) (-(fxMul pow x2) / (k + 1)) x2 (acc + pow / (2 * k + 1))

/-- erfc(x) for x between 0 and about 7. -/
def fxErfc (x : Int) : Int :=
  fxOne - fxMul fxTwoOverRootPi (fxMul x (fxErfSum 260 0 fxOne (fxMul x x) 0))

/-- The bit error ratio of a Q of m/2 hundredths of a decibel: erfc(Q / √2) / 2, with √2 taken into the amplitude. -/
def berOfHalfQ (m : Int) : Int :=
  fxErfc (fxExp (fxLn10 * m / 4000) * 1000000000000000000000000 / 1414213562373095048801689) / 2

/-- Q in hundredths of a decibel for a bit error ratio num / den below one half, rounded to the nearest (R129). -/
def qOfBer (num den : Nat) : Int :=
  let b := (num : Int) * fxOne / den
  bisect (fun m => berOfHalfQ (2 * m + 1) < b) 16 (-4000) 1700

end Sys2Proof.Machine
end

