-- ==== Sys2Proof/Machine/Demap.lean ====
section
/-!
DEFINITION. The soft demapper (R139, R140): compositions of PCS-64QAM, the ratios of label bits by the max-log approximation, and the 5-bit ratios that cross
to the hub die.
-/
namespace Sys2Proof.Machine

/-! ## Compositions (R43, R44) -/

/-- The factorials up to that of 256. -/
def factorials : Array Nat :=
  ((List.range 257).foldl (fun (p : Array Nat × Nat) k => (p.1.push p.2, p.2 * (k + 1))) (#[], 1)).1

/-- Whether 256 amplitudes with `n3` threes, `n5` fives and `n7` sevens have at least 2^k distinct sequences. -/
def enoughSequences (k n3 n5 n7 : Nat) : Bool :=
  let f (n : Nat) := factorials.getD n 1
  decide (2 ^ k * (f (256 - n3 - n5 - n7) * f n3 * f n5 * f n7) ≤ f 256)

/-- The least `n3` that gives enough sequences beside `n5` and `n7`, with no more threes than ones; none where there is none. -/
def leastThrees (k n5 n7 : Nat) : Option Nat :=
  let top := (256 - n5 - n7) / 2
  if !enoughSequences k top n5 n7 then none
  else some (bisect (fun m => enoughSequences k m.toNat n5 n7) 9 (-1) top).toNat

/-- Σ a²·n_a of a composition. -/
def compositionEnergy (c : Nat × Nat × Nat × Nat) : Nat :=
  c.1 + 9 * c.2.1 + 25 * c.2.2.1 + 49 * c.2.2.2

/-- The composition for an ENTROPY: counts of 1, 3, 5 and 7 with the lowest mean energy among those with at least 2^k sequences (R44). A larger amplitude is
never more frequent than a smaller one, since exchanging their counts would lower the energy. Among equals the first found is taken (DESIGN CHOICE, log 173). -/
def composition (entropy : Nat) : Nat × Nat × Nat × Nat :=
  let k := entropy - 256
  ((List.range 65).flatMap fun n7 => (List.range 86).map fun n5 => (n5, n7)).foldl (fun best (x : Nat × Nat) =>
    match (if x.1 < x.2 ∨ 256 < 3 * x.1 + x.2 then none else leastThrees k x.1 x.2) with
    | some n3 => let c := (256 - n3 - x.1 - x.2, n3, x.1, x.2); if compositionEnergy c < compositionEnergy best then c else best
    | none => best) (64, 64, 64, 64)

/-! ## Ratios (R139) -/

/-- ln n, in the units of `fxOne`, to 2^-20. -/
def fxLn (n : Nat) : Int :=
  bisect (fun m => fxExp (m * 2 ^ 140) > n * fxOne) 24 (-1) 8388608 * 2 ^ 140

/-- The points of one real dimension, with their counts among 256 symbols (Table 2.2, R139): uniform constellations, or a composition with both signs. -/
def realPoints (const entropy : Nat) : List (Int × Nat) :=
  match const with
  | 0 => [(-1, 1), (1, 1)]
  | 1 => [(-3, 1), (-1, 1), (1, 1), (3, 1)]
  | _ =>
    let c := composition entropy
    ([(1, c.1), (3, c.2.1), (5, c.2.2.1), (7, c.2.2.2)] ++ [(-1, c.1), (-3, c.2.1), (-5, c.2.2.1), (-7, c.2.2.2)]).filter fun (p : Int × Nat) => 0 < p.2

/-- The label bits of a point: bit 0 is its sign, 1 where negative; bit 1, in 16QAM, is 1 for the outer points (Gray labelling, R44; which labelling is a
DESIGN CHOICE, log 173). -/
def labelBit (x : Int) (i : Nat) : Bool :=
  if i = 0 then decide (x < 0) else decide (1 < x.natAbs)

/-- 256 times the mean power of one dimension with points 1, 3, 5, 7. -/
def realEnergy (pts : List (Int × Nat)) : Nat :=
  let total := (pts.map (·.2)).sum
  256 * (pts.map fun (p : Int × Nat) => p.1.natAbs ^ 2 * p.2).sum / total

/-- What the demapper uses for one carrier (R139, R140): the points of a real dimension with the logs of their priors, the noise variance of the ESNR as a fraction, the mode
and the scale. -/
structure Demapper where
  points : List (Int × Int)
  num : Int
  den : Nat
  entropy : Nat
  scale : Nat

/-- The demapper for a constellation, an ENTROPY, an ESNR in 0.01 dB and a SCALE. Squared distances are in 1/1,024 of half the points' spacing, squared; the constellation
has unit mean power per polarisation (R44). -/
def demapper (const entropy esnr scale : Nat) : Demapper :=
  let pts := realPoints const entropy
  ⟨pts.map fun (p : Int × Nat) => (p.1, fxLn p.2), dbPower esnr * 256, 2 * realEnergy pts * 2 ^ 20, entropy, scale⟩

/-- The metric of a point for a received value: the log of its prior, less its squared distance over twice the noise variance. -/
def Demapper.metric (d : Demapper) (y : Int) (p : Int × Int) : Int :=
  let x := y - 1024 * p.1
  p.2 - x * x * d.num / d.den

/-- The greatest metric of the points whose label bit has a value. -/
def Demapper.best (d : Demapper) (y : Int) (i : Nat) (v : Bool) : Int :=
  let ms := (d.points.filter fun (p : Int × Int) => labelBit p.1 i == v).map (d.metric y)
  ms.foldl max (ms.headD 0)

/-- L = ln(P(bit = 0) / P(bit = 1)) of a label bit by the max-log approximation, in 2^-16 (R139). -/
def Demapper.labelRatio (d : Demapper) (y : Int) (i : Nat) : Int :=
  (d.best y i false - d.best y i true) / 2 ^ 144

/-! ### The soft inverse matcher (R43, R139) -/

/-- A path through the tree of a composition's sequences: its metric, how many 1, 3, 5 and 7 are left, and its amplitudes, newest first. -/
structure MatchPath where
  metric : Int
  left : List Nat
  amps : List Nat

/-- A path put among others in the order of their metrics, the best `room` of them kept. -/
def keepPath (p : MatchPath) : Nat → List MatchPath → List MatchPath
  | 0, _ => []
  | _ + 1, [] => [p]
  | room + 1, q :: qs => if q.metric < p.metric then p :: (q :: qs).take room else q :: keepPath p room qs

/-- The paths one amplitude longer, for one received as y: of a path, those whose composition has that amplitude left. -/
def MatchPath.longer (d : Demapper) (y : Int) (p : MatchPath) : List MatchPath :=
  (List.range 4).filterMap fun k =>
    if p.left.getD k 0 = 0 then none
    else
      let a := 2 * k + 1
      let prior := ((d.points.find? fun (x : Int × Int) => x.1 = (a : Nat)).map (·.2)).getD 0
      some ⟨p.metric + d.metric y.natAbs (a, prior), p.left.modify k (· - 1), a :: p.amps⟩

/-- The 32 survivors of a matcher block whose amplitudes were received as `ys` (R139). -/
def matchPaths (d : Demapper) (ys : List Int) : List MatchPath :=
  let c := composition d.entropy
  ys.foldl (fun ps y => (ps.flatMap (MatchPath.longer d y)).foldl (fun l p => keepPath p 32 l) []) [⟨0, [c.1, c.2.1, c.2.2.1, c.2.2.2], []⟩]

/-- The k bits that the matcher gives a sequence, none where it gives it to none: the specification leaves the map open, so it is free (R43, log 3). -/
def sequenceBits (entropy : Nat) (amps : List Nat) : Option Nat :=
  let v := Config.freeOf 98 (entropy :: amps)
  if v < 2 ^ (entropy - 256) then some v else none

/-- L of the i-th amplitude bit of a matcher block with these survivors, in 2^-16: the best metric with the bit 0 less the best with it 1; where the survivors
have one value alone it saturates (DESIGN CHOICE, log 212). -/
def amplitudeRatio (entropy : Nat) (paths : List MatchPath) (i : Nat) : Int :=
  let best (v : Bool) : Option Int :=
    (paths.filter fun (p : MatchPath) => (sequenceBits entropy p.amps).any fun b => bitAt b i == v).foldl
      (fun (m : Option Int) p => some (max p.metric (m.getD p.metric))) none
  match best false, best true with
  | some a, some b => (a - b) / 2 ^ 144
  | some _, none => 240 * 65536
  | none, some _ => -(240 * 65536)
  | none, none => 0

/-- A ratio in 2^-16 as it crosses to the hub die: L × SCALE / 16, rounded and saturated at ±15 (R140). -/
def ratio5 (scale : Nat) (l : Int) : Int :=
  clampInt (-15) 15 (roundDiv (l * scale) (16 * 65536))

/-- The 5-bit ratio of a received bit, with the survivors of the matcher blocks. -/
def Demapper.ratio (d : Demapper) (blocks : List (List MatchPath)) (b : SoftBit) : Int :=
  ratio5 d.scale (match b with
    | .label y i => d.labelRatio y i
    | .amplitude k i => amplitudeRatio d.entropy (blocks.getD k []) i)

/-- SCALE that AUTO = 1 takes: a free value between 4 and 255 of the ESNR in use, the constellation and, for PCS-64QAM, ENTROPY (R140, log 3). -/
def autoScale (const entropy esnr : Nat) : Nat :=
  4 + Config.freeOf 94 [esnr, const, if const = 2 then entropy else 0] % 252

/-- DEMAP_STAT at a pilot boundary of a LOCKED engine: the SCALE in use, and PRIOR with PCS-64QAM (R140, Table 5.11). -/
def Dev.takeScale (n const entropy : Nat) (s : Dev) : Dev :=
  let v := if s.on (Reg.DEMAP_CTRL_AUTO n) then autoScale const entropy (s.rd (Reg.EQ_STAT_ESNR n)) else s.rd (Reg.DEMAP_CTRL_SCALE n)
  (s.wr (Reg.DEMAP_STAT_SCALE n) v).wrB (Reg.DEMAP_STAT_PRIOR n) (decide (const = 2))

end Sys2Proof.Machine
end

