-- ==== Sys2Proof/Machine/Receive.lean ====
section
/-!
DEFINITION. Line engine receive: the front (R70 to R90), the acquisition state machine of Table 4.5, pilots, slips, the twin phase
aid and the optical estimates (R100 to R129, R155, R156, R563).
-/
namespace Sys2Proof.Machine

/-! ## Receive mode and resampling (R70 to R72, R81, R82) -/

/-- The receive mode in force: constellation, slots and entropy (R70, R118). -/
def Dev.rxMode (s : Dev) (n : Nat) : Nat × Nat × Nat :=
  let l := s.rxLead n
  (s.rd (Reg.RX_MODE_CONST l), s.rd (Reg.RX_MODE_SLOTS_M1 l) + 1, s.rd (Reg.RX_MODE_ENTROPY l))

/-- Numerator and denominator of Rs in Bd for a mode (R39, R40). -/
def rsFraction (const slots entropy : Nat) : Nat × Nat :=
  (grossNum slots * 64, grossDen * lineBits64 const entropy)

/-- The presets' ratios fs / Rs (Table 3.2), numerator and denominator. -/
def presetRatio (p : Nat) : Nat × Nat :=
  match p with
  | 0 => (4, 3)
  | 1 => (3, 2)
  | 2 => (2, 1)
  | _ => (8, 3)

/-- fs of a preset in MS/s, rounded to the nearest. -/
def presetFs (p const slots entropy : Nat) : Nat :=
  let r := rsFraction const slots entropy
  let den := r.2 * (presetRatio p).2 * 1000000
  (2 * r.1 * (presetRatio p).1 + den) / (2 * den)

/-- fs of a preset lies between 160 and 320 GS/s. -/
def presetFits (p const slots entropy : Nat) : Bool :=
  let r := rsFraction const slots entropy
  let num := r.1 * (presetRatio p).1
  let den := r.2 * (presetRatio p).2
  decide (160000000000 * den ≤ num) && decide (num ≤ 320000000000 * den)

/-- fs = FS × 0.5 GS/s is at least r_i = 4/3 × Rs (R71, R72). -/
def fsCovers (fs const slots entropy : Nat) : Bool :=
  let r := rsFraction const slots entropy
  decide (fs * 500000000 * 3 * r.2 ≥ 4 * r.1)

/-- The resampling that RX_RESAMP chooses (R81): FRACTIONAL, or a preset. AUTO takes the largest ratio whose fs does not exceed
320 GS/s. -/
def resampChoice (mode preset fs const slots entropy : Nat) (usable : Bool) : Option Nat :=
  if mode = 1 then none
  else if mode = 2 then some preset
  else if usable && fsCovers fs const slots entropy then none
  else
    let r := rsFraction const slots entropy
    match [3, 2, 1].find? fun p => r.1 * (presetRatio p).1 ≤ 320000000000 * (r.2 * (presetRatio p).2) with
    | some p => some p
    | none => some 0

/-- Whether the receive settings are acceptable under R72, apart from the fields' own ranges. -/
def rxModeOk (const slotsM1 entropy fs mode preset : Nat) (usable : Bool) : Bool :=
  let slots := slotsM1 + 1
  let r := rsFraction const slots entropy
  decide (const ≤ 2) && decide (mode ≤ 2) && decide (320 ≤ fs) && decide (fs ≤ 640) &&
  (decide (const ≠ 2) || (decide (320 ≤ entropy) && decide (entropy ≤ 704))) &&
  decide (60000000000 * r.2 ≤ r.1) && decide (r.1 ≤ 240000000000 * r.2) &&
  (decide (mode ≠ 1) || usable) &&
  match resampChoice mode preset fs const slots entropy usable with
  | none => fsCovers fs const slots entropy
  | some p => presetFits p const slots entropy

/-- RX_RATE_STAT.SYMRATE showing the mode in force (R70). -/
def Dev.showRxRate (n : Nat) (s : Dev) : Dev :=
  let m := s.rxMode n
  s.wr (Reg.RX_RATE_STAT_SYMRATE n) (symrateKbd m.1 m.2.1 m.2.2)

/-- The resampler chosen for engine `n`, and fs with it (R81). -/
def Dev.rxChoice (s : Dev) (n : Nat) : Option Nat :=
  let l := s.rxLead n
  let m := s.rxMode n
  resampChoice (s.rd (Reg.RX_RESAMP_MODE l)) (s.rd (Reg.RX_RESAMP_PRESET l)) (s.rd (Reg.RX_CLK_FS l)) m.1 m.2.1 m.2.2
    (!s.on (Reg.RX_RESAMP_STAT_UNUSABLE n))

/-- fs for the choice, MS/s. -/
def Dev.rxFs (s : Dev) (n : Nat) : Nat :=
  let m := s.rxMode n
  match s.rxChoice n with
  | none => s.rd (Reg.RX_CLK_FS (s.rxLead n)) * 500
  | some p => presetFs p m.1 m.2.1 m.2.2

/-- fs for the choice, in Hz, as a fraction (R81, R82). -/
def Dev.rxFsExact (s : Dev) (n : Nat) : Nat × Nat :=
  let m := s.rxMode n
  match s.rxChoice n with
  | none => (s.rd (Reg.RX_CLK_FS (s.rxLead n)) * 500000000, 1)
  | some p =>
    let r := rsFraction m.1 m.2.1 m.2.2
    (r.1 * (presetRatio p).1, r.2 * (presetRatio p).2)

/-- The choice gives the fs in force (R73). -/
def Dev.sameFs (s : Dev) (n : Nat) : Bool :=
  let a := (s.rxe n).fs
  let b := s.rxFsExact n
  decide (a.1 * b.2 = b.1 * a.2)

/-- The choice made and shown; E-1n.10 where AUTO chooses a preset (R81). -/
def Dev.chooseResamp (n : Nat) (s : Dev) : Dev :=
  let c := s.rxChoice n
  let fs := s.rxFs n
  let s := (s.setRxe n { s.rxe n with fs := s.rxFsExact n }).wr (Reg.RX_SAMP_STAT_FS_MSPS n) fs
  match c with
  | none => (s.wr (Reg.RX_RESAMP_STAT_ACTIVE_MODE n) 1).wr (Reg.RX_RESAMP_STAT_ACTIVE_PRESET n) 0
  | some p =>
    ((s.wr (Reg.RX_RESAMP_STAT_ACTIVE_MODE n) 2).wr (Reg.RX_RESAMP_STAT_ACTIVE_PRESET n) p).raiseIf
      (decide (s.rd (Reg.RX_RESAMP_MODE (s.rxLead n)) = 0)) (10 + n) 10

/-- The choice at a commit that restarts nothing (R81): it is made while no samples flow; E-1n.10 where AUTO chooses a preset. What it gives shows once the
receiver is enabled. -/
def Dev.choiceAtCommit (n : Nat) (s : Dev) : Dev :=
  if s.on (Reg.RX_SAMP_STAT_PLL_LOCK n) then s
  else if s.on (Reg.RX_CTRL_ENABLE n) then s.chooseResamp n
  else s.raiseIf (decide (s.rd (Reg.RX_RESAMP_MODE (s.rxLead n)) = 0) && (s.rxChoice n).isSome) (10 + n) 10

/-! ## Dispersion and delay (R86 to R88, R104, R143) -/

/-- D_head = min(|D| + 500, 320,500), with |D| taken as 320,000 where SRC = 1 (R87, R123). -/
def Dev.headroom (s : Dev) (n : Nat) : Nat :=
  if s.on (Reg.RX_CD_SRC n) then 320500 else min ((s.rdS (Reg.RX_CD_VALUE n)).natAbs + 500) 320500

/-- D_head fixed, and D taken from VALUE where SRC = 0 (R86, R87). -/
def Dev.fixDispersion (n : Nat) (s : Dev) : Dev :=
  let s := s.wr (Reg.RX_CD_HEAD_HEAD n) (s.headroom n)
  if s.on (Reg.RX_CD_SRC n) then s else s.wrS (Reg.RX_CD_STAT_APPLIED n) (s.rdS (Reg.RX_CD_VALUE n))

/-- Whether a change of D from the one in use to `d` is applied without restart (R87). -/
def Dev.trimOk (s : Dev) (n : Nat) (d : Int) : Bool :=
  decide ((d - s.rdS (Reg.RX_CD_STAT_APPLIED n)).natAbs ≤ 50) && decide (d.natAbs ≤ s.rd (Reg.RX_CD_HEAD_HEAD n))

/-- W for N slots (R143): min(8, floor((3,800 − 6 T_cw) / T_blk) − 1), with T_cw = 615.38 / N and T_blk = 5,063.4 / N ns. -/
def stairWindow (slots : Nat) : Nat :=
  min 8 ((380000 * slots - 6 * 61538) / 506340 - 1)

/-- W fixed from the receive mode in force (R143). -/
def Dev.fixWindow (n : Nat) (s : Dev) : Dev :=
  s.wr (Reg.FEC_ITER_STAT_WIN n) (stairWindow (s.rxMode n).2.1)

/-- τ_fix + τ_b in 2^-16 ns (R88), rounded up, as the example of that section has it (DEDUCED, log 21). -/
def Dev.gdStatic (s : Dev) (n : Nat) : Nat :=
  let m := s.rxMode n
  let r := rsFraction m.1 m.2.1 m.2.2
  let fc := s.rd (Reg.RX_CD_FREQ_CARRIER n)
  -- D_head × k × (4/3 Rs) / 2 in ps = D_head × 299,792,458 / fc² × 2 Rs[GBd] / 3
  let num := s.rd (Reg.RX_CD_HEAD_HEAD n) * 299792458 * 2 * r.1 * 65536
  let den := fc * fc * 3 * r.2 * 1000000000 * 1000
  520 * 65536 + ceilDiv num den

/-- τ_f in 2^-16 ns for a Δf in 0.1 MHz: D × k × Δf (R88). -/
def Dev.gdOffset (s : Dev) (n : Nat) (df : Int) : Int :=
  let fc := s.rd (Reg.RX_CD_FREQ_CARRIER n)
  roundDiv (s.rdS (Reg.RX_CD_STAT_APPLIED n) * 299792458 * df * 65536) (fc * fc * 10000 * 1000)

/-- The symbols' spacing 1/r_i in 2^-16 ns, times 1,000. -/
def Dev.tapSpacing (s : Dev) (n : Nat) : Nat :=
  let m := s.rxMode n
  let r := rsFraction m.1 m.2.1 m.2.2
  65536 * 1000 * 1000000000 * 3 * r.2 / (4 * r.1)

/-- L for a TAPS code (Table 4.2). -/
def tapCount (taps : Nat) : Nat := 65 + 32 * taps

/-! ## Acquisition (Table 4.5) -/

/-- The codes of Table 4.4. -/
abbrev acqIdle : Nat := 0
abbrev acqWaitSamples : Nat := 1
abbrev acqWaitSignal : Nat := 2
abbrev acqFreq : Nat := 3
abbrev acqCd : Nat := 4
abbrev acqTiming : Nat := 5
abbrev acqConverge : Nat := 6
abbrev acqPilot : Nat := 7
abbrev acqCarrier : Nat := 8
abbrev acqHold : Nat := 10
abbrev acqFast : Nat := 11
abbrev acqBackoff : Nat := 12
abbrev acqFailed : Nat := 13

/-- ACQ_STAT.STATE. -/
def Dev.acq (s : Dev) (n : Nat) : Nat :=
  s.rd (Reg.ACQ_STAT_STATE n)

/-! ### What tracking loops measure

Each follows the received signal: while it runs, what it shows is a free value of the instant (log 3), within the bounds that the specification gives; when it
stops, its register keeps the last one. -/

/-- The timing loop tracks (R84, R85); HOLD and FAST_REACQ hold the timing (Table 4.4). -/
def Dev.tracksClock (s : Dev) (n : Nat) : Bool :=
  s.on (Reg.RX_RESAMP_STAT_TR_LOCK n) && !s.on (Reg.RX_RESAMP_STAT_TR_HOLD n) && decide (s.acq n ≠ acqHold) && decide (s.acq n ≠ acqFast)

/-- The far-end symbol-clock offset in 0.01 ppm, within ±200 ppm (R83, R85). -/
def Dev.clockOffset (s : Dev) (n : Nat) : Int :=
  if s.tracksClock n then ((Config.freeOf 99 [n, s.clock, s.fresh] % 40001 : Nat) : Int) - 20000 else s.rdS (Reg.RX_RESAMP_STAT_FREQ n)

/-- The frequency loop tracks (R115); HOLD and FAST_REACQ hold the frequency (Table 4.4). -/
def Dev.tracksCarrier (s : Dev) (n : Nat) : Bool :=
  s.on (Reg.CR_STAT_FREQ_LOCK n) && decide (s.acq n ≠ acqHold) && decide (s.acq n ≠ acqFast)

/-- Δf in 0.1 MHz, within ±5.2 GHz (R115). -/
def Dev.deltaF (s : Dev) (n : Nat) : Int :=
  if s.tracksCarrier n then ((Config.freeOf 100 [n, s.clock, s.fresh] % 104001 : Nat) : Int) - 52000 else s.rdS (Reg.CR_FREQ_OFFSET n)

/-- The fraction of errored pilots in the latest window, in 1/256 (R114). -/
def Dev.pilotErrors (s : Dev) (n : Nat) : Nat :=
  if s.acq n = acqLocked then Config.freeOf 101 [n, s.clock, s.fresh] % 256 else s.rd (Reg.PILOT_STAT_ERR_FRAC n)

/-- The walk-off of a twin pair is measured: both engines are LOCKED (R119). -/
def Dev.tracksWalkOff (s : Dev) (n : Nat) : Bool :=
  s.rxTwin n && decide (s.acq (2 * (n / 2)) = acqLocked) && decide (s.acq (2 * (n / 2) + 1) = acqLocked)

/-- The walk-off to the partner carrier in ps (R119): within ±1 µs while either engine uses the aid, and the same with the other sign at the partner. -/
def Dev.walkOff (s : Dev) (n : Nat) : Int :=
  if s.tracksWalkOff n then
    let e := 2 * (n / 2)
    let lim := if s.on (Reg.CR_STAT_TWIN_AID_ACTIVE e) || s.on (Reg.CR_STAT_TWIN_AID_ACTIVE (e + 1)) then 1000000 else 2097151
    let v := ((Config.freeOf 102 [n / 2, s.clock, s.fresh] % (2 * lim + 1) : Nat) : Int) - lim
    if n % 2 = 0 then v else -v
  else s.rdS (Reg.CR_TWIN_SKEW_SKEW n)

/-- The equaliser's taps are held (R105). -/
def Dev.tapsHeld (s : Dev) (n : Nat) : Bool :=
  (s.on (Reg.EQ_CTRL_FREEZE n) && decide (s.acq n = acqLocked)) || s.on (Reg.RX_RESAMP_STAT_TR_HOLD n) || decide (s.acq n = acqHold) ||
    decide (s.acq n = acqFast)

/-- The taps adapt: in EQ_CONVERGE and from PILOT_SYNC onwards, where they are not held (R102, R105). -/
def Dev.tapsAdapt (s : Dev) (n : Nat) : Bool :=
  decide (acqConverge ≤ s.acq n) && decide (s.acq n ≤ acqLocked) && !s.tapsHeld n

/-- The clock whose tap values the equaliser has: this one while they adapt, else that at which they stopped. -/
def Dev.tapClock (s : Dev) (n : Nat) : Nat :=
  if s.tapsAdapt n then s.clock else (s.rxe n).tapsStillAt

/-- The taps have their initial values now (R106): set so, and not adapted since. -/
def Dev.tapsAtStart (s : Dev) (n : Nat) : Bool :=
  (s.rxe n).tapsInitial && (!s.tapsAdapt n || decide ((s.rxe n).tapsSetAt = s.clock))

/-- Positions by which the taps of this instant have been shifted (R103). -/
def Dev.tapsShifted (s : Dev) (n : Nat) : Int :=
  if (s.rxe n).tapShift.1 = s.tapClock n then (s.rxe n).tapShift.2 else 0

/-! The taps: what the signal has made of them is free (log 3), within the bound of R103. -/

/-- The real and imaginary parts of tap t of branch b at the clock whose taps the equaliser has, in 1/16,384: free values; those of yy and yx are the complements of xx and
xy where they have just been made so (R102, R107), in HOLD and under TR_HOLD too, where the others stay (DESIGN CHOICE, log 209). -/
def Dev.freeTap (s : Dev) (n b t : Nat) : Int × Int :=
  let v (b t : Nat) : Int × Int :=
    let w := Config.freeOf 103 [n, s.tapClock n, b, t]
    (signed 16 (w % 65536), signed 16 (w / 65536 % 65536))
  let l := tapCount (s.rxe n).taps
  if 2 ≤ b ∧ (s.rxe n).relatedAt = some (s.tapClock n) then
    let r := v (3 - b) (l - 1 - t)
    if b = 3 then (r.1, -r.2) else (-r.1, r.2)
  else v b t

/-- The energy of xx and yy, and its moment about the centre tap, for taps given by branch and position. -/
def tapMoment (l : Nat) (tap : Nat → Nat → Int × Int) : Nat × Int :=
  (List.range l).foldl (fun (a : Nat × Int) t =>
    let e (b : Nat) : Nat := let z := tap b t; z.1.natAbs ^ 2 + z.2.natAbs ^ 2
    let w := e 0 + e 3
    (a.1 + w, a.2 + (w : Int) * ((t : Int) - ((l - 1) / 2 : Nat)))) (0, 0)

/-- The taps of the equaliser: the initial ones of R106; else the free ones where their centroid lies within one tap of the centre, as R103 keeps it, and else the initial
ones; shifted by the positions of R103. -/
def Dev.tap (s : Dev) (n b t : Nat) : Int × Int :=
  let l := tapCount (s.rxe n).taps
  let start (t : Int) : Int × Int := if (b = 0 ∨ b = 3) ∧ t = ((l - 1) / 2 : Nat) then (16384, 0) else (0, 0)
  if s.tapsAtStart n then start t
  else
    let u : Int := t - s.tapsShifted n
    let m := tapMoment l (s.freeTap n)
    if m.2.natAbs ≤ m.1 ∧ 0 < m.1 then (if u < 0 ∨ (l : Int) ≤ u then (0, 0) else s.freeTap n b u.toNat) else start u

/-- ε × 1/r_i: how far the energy centroid of the xx and yy taps lies from the centre tap, in 2^-16 ns, times 1,000 (R103, R104). -/
def Dev.centroid (s : Dev) (n : Nat) : Int :=
  if s.tapsAtStart n then 0
  else
    let m := tapMoment (tapCount (s.rxe n).taps) (s.tap n)
    if m.1 = 0 then 0 else m.2 * s.tapSpacing n / m.1

/-- After a change that may stop the adaptation: taps that have stopped keep their values. `old` is the device before the change. -/
def Dev.keepTaps (old : Dev) (n : Nat) (s : Dev) : Dev :=
  if old.tapsAdapt n && !s.tapsAdapt n then
    s.setRxe n { s.rxe n with tapsStillAt := s.clock, tapsInitial := old.tapsAtStart n || ((s.rxe n).tapsInitial && decide ((s.rxe n).tapsSetAt = s.clock)) }
  else s

/-- After a change that may stop a loop: the registers of those that have stopped keep the last values, and the taps theirs. `old` is the device before the
change. -/
def Dev.keepMeasured (old : Dev) (n : Nat) (s : Dev) : Dev :=
  let m := n + 1 - 2 * (n % 2)
  let s := if old.tracksClock n && !s.tracksClock n then s.wrS (Reg.RX_RESAMP_STAT_FREQ n) (old.clockOffset n) else s
  let s := if old.tracksCarrier n && !s.tracksCarrier n then s.wrS (Reg.CR_FREQ_OFFSET n) (old.deltaF n) else s
  let s := if old.acq n = acqLocked ∧ s.acq n ≠ acqLocked then s.wr (Reg.PILOT_STAT_ERR_FRAC n) (old.pilotErrors n) else s
  let s := if old.tracksWalkOff n && !s.tracksWalkOff n then
      (s.wrS (Reg.CR_TWIN_SKEW_SKEW n) (old.walkOff n)).wrS (Reg.CR_TWIN_SKEW_SKEW m) (old.walkOff m)
    else s
  old.keepTaps n s

/-- RX_GD_NOW: τ_front in 2^-16 ns (R88): the five terms of that rule, with τ_φ a free value below 1/r_i in FRACTIONAL mode (log 3), and the whole sample periods that tap
shifts have moved from τ_back into the timing phase, so that their sum stays (R103; DEDUCED, log 170). -/
def Dev.gdNow (s : Dev) (n : Nat) : Int :=
  let sp := s.tapSpacing n
  let phi := if s.rd (Reg.RX_RESAMP_STAT_ACTIVE_MODE n) = 1 then Config.freeOf 91 [n, s.clock, s.fresh] % ceilDiv sp 1000 else 0
  (s.gdStatic n : Int) + s.gdOffset n (s.deltaF n) + (phi : Nat) + (s.rxe n).phaseSteps * sp / 1000 + s.rdS (Reg.RX_GD_ANALOG_DELAY n)

/-- EQ_GD_NOW: τ_back in 2^-16 ns (R104). It shows its reset value, 0, while the receiver is disabled (DEDUCED, log 154). -/
def Dev.gdBack (s : Dev) (n : Nat) : Int :=
  if !s.on (Reg.RX_CTRL_ENABLE n) then 0
  else roundDiv (180 * 65536 * 1000 + ((s.tapSpacing n * (tapCount (s.rxe n).taps - 1) / 2 : Nat) : Int) + s.centroid n) 1000

/-- TR_LOCK set or cleared, with E-1n.09 where it changes (R83); a new lock starts the timing phase anew (log 170). -/
def Dev.setTrLock (n : Nat) (v : Bool) (s : Dev) : Dev :=
  if s.on (Reg.RX_RESAMP_STAT_TR_LOCK n) = v then s
  else
    let d := s.wrB (Reg.RX_RESAMP_STAT_TR_LOCK n) v
    let d := if v then d.setRxe n { d.rxe n with phaseSteps := 0 } else d
    (s.keepMeasured n d).raise (10 + n) 9

/-- PLL_LOCK set or cleared, with E-1n.08 where it changes (R76). -/
def Dev.setPllLock (n : Nat) (v : Bool) (s : Dev) : Dev :=
  if s.on (Reg.RX_SAMP_STAT_PLL_LOCK n) = v then s
  else (s.wrB (Reg.RX_SAMP_STAT_PLL_LOCK n) v).raise (10 + n) 8

/-- The taps at their initial values, and CONVERGED cleared (R106, R108). -/
def Dev.resetTaps (n : Nat) (s : Dev) : Dev :=
  (s.setRxe n { s.rxe n with tapsInitial := true, tapsSetAt := s.clock }).wr (Reg.EQ_STAT_CONVERGED n) 0

/-- What an entry to a state does beside the state itself: the tap resets of R106, TAPS taken up (R101), CONVERGED cleared on every
entry to EQ_CONVERGE (R108) with yy and yx held to xx and xy for the first updates (R102; DEDUCED, log 174), the
expected seeds taken up (Table 4.12), and the status bits of the steps that lie before the state, which fall at the entry to an earlier one (DESIGN CHOICE,
log 169). -/
def Dev.acqEnter (n was st : Nat) (s : Dev) : Dev :=
  let s := if st = acqTiming ∧ (s.rxe n).lost then
      let s := s.resetTaps n
      s.setRxe n { s.rxe n with lost := false }
    else s
  let s := if st = acqConverge then
      let s := if was < acqConverge then s.resetTaps n else s.wr (Reg.EQ_STAT_CONVERGED n) 0
      s.setRxe n { s.rxe n with taps := s.rd (Reg.EQ_CTRL_TAPS n), relatedAt := some s.clock }
    else s
  let s := if st = acqPilot then
      s.setRxe n { s.rxe n with seedX := s.rd (Reg.RX_PILOT_EXP_SEED_X n), seedY := s.rd (Reg.RX_PILOT_EXP_SEED_Y n) }
    else s
  let s := if was = acqPilot then s.wr (Reg.PILOT_STAT_MISMATCH n) 0 else s
  let s := if st ≤ acqPilot ∨ st = acqBackoff ∨ st = acqFailed then s.wr (Reg.PILOT_STAT_SYNC n) 0 else s
  let s := if st ≤ acqFreq ∨ st = acqBackoff ∨ st = acqFailed then s.wr (Reg.CR_STAT_FREQ_LOCK n) 0 else s
  if st = acqLocked then s else s.wr (Reg.CR_STAT_PHASE_LOCK n) 0

/-- Symbols of the mode in force in a time in ns (R40). -/
def Dev.symbolsIn (s : Dev) (n ns : Nat) : Nat :=
  let m := s.rxMode n
  let r := rsFraction m.1 m.2.1 m.2.2
  ns * r.1 / (r.2 * 1000000000)

/-- Lock won or lost, for the parts that look at it: the engine's own record of it, E-1n.16, and the chord aligner, the frame layer, the courses and the digital Drone
path (R106, R122, R149 to R151, R312). `fast`: won from FAST_REACQ. -/
def Dev.lockChanged (n : Nat) (won fast : Bool) (s : Dev) : Dev :=
  let x := s.rxe n
  let s := s.setRxe n { x with
    lockedAt := if won then s.clock else x.lockedAt
    fromFast := won && fast
    heldSymbols := if won && fast then s.symbolsIn n (s.clock - x.holdAt) else x.heldSymbols
    holdAt := if won then x.holdAt else s.clock
    lost := !won && x.lost
    aid := won && x.aid
    winLocked := won && x.winLocked }
  let s := s.raise (10 + n) 16
  let s := if won then s else (s.wr (Reg.CR_STAT_TWIN_AID_ACTIVE n) 0).abandonPath n
  s.alFollowPair n

/-- Engine n takes its partner's Δf as its start in FREQ_SEARCH: the odd one of a twin pair whose even engine is LOCKED (R118). -/
def Dev.takesPartnerF (s : Dev) (n : Nat) : Bool :=
  decide (n % 2 = 1) && s.rxTwin n && decide (s.acq (n - 1) = acqLocked)

/-- The acquisition state set, with all that its change brings, the start of FREQ_SEARCH included (R118). -/
def Dev.acqGo (n st : Nat) (s : Dev) : Dev :=
  let was := s.acq n
  let d := s.setRxe n { s.rxe n with lost := (s.rxe n).lost || decide (was = acqLocked) }
  let d := s.keepMeasured n ((d.wr (Reg.ACQ_STAT_STATE n) st).acqEnter n was st)
  let d := if st = acqFreq ∧ d.takesPartnerF n then d.wrS (Reg.CR_FREQ_OFFSET n) (d.deltaF (n - 1)) else d
  if (was = acqLocked) = (st = acqLocked) then d else d.lockChanged n (decide (st = acqLocked)) (decide (was = acqFast))

/-- BACKOFF entered with a cause (R126), and the kept D discarded after its second failure (R124). -/
def Dev.acqBackoffFor (n cause : Nat) (s : Dev) : Dev :=
  let x := s.rxe n
  let fails := if x.onKept then x.keptFails + 1 else x.keptFails
  let x := if x.onKept ∧ fails ≥ 2 then { x with keptD := none, keptFails := 0, onKept := false }
    else { x with keptFails := fails, onKept := false }
  let s := (s.setRxe n x).wr (Reg.ACQ_STAT_LAST_FAIL n) cause
  let s := (s.bump (Reg.ACQ_STAT_TRIES n)).bump (Reg.ACQ_FAIL_CNT n)
  (s.acqGo n acqBackoff).raise (10 + n) 17

/-- Lock lost with a cause of Table 4.6: TRIES stays (R126). -/
def Dev.acqLose (n st cause : Nat) (s : Dev) : Dev :=
  let s := (s.wr (Reg.ACQ_STAT_LAST_FAIL n) cause).bump (Reg.ACQ_FAIL_CNT n)
  (s.acqGo n st).raise (10 + n) 17

/-- No BIST block that engine `n` needs to receive is out of service, and its line die is not lost (Table 18.3, R13, R475, R484). -/
def Dev.mayReceive (s : Dev) (n : Nat) : Bool :=
  !s.blockOut (16 + n) && !s.blockOut (24 + n) && !s.dieLost.getLsbD (n / 2)

/-- One transition whose condition already holds (Table 4.5), where there is one. -/
def Dev.acqNext (n : Nat) (s : Dev) : Dev :=
  let st := s.acq n
  if st = acqIdle ∧ s.on (Reg.RX_CTRL_ENABLE n) ∧ s.mayReceive n then s.acqGo n acqWaitSamples
  else if st = acqWaitSamples ∧ s.on (Reg.RX_SAMP_STAT_PLL_LOCK n) then s.acqGo n acqWaitSignal
  else if st = acqWaitSignal ∧ (s.rxe n).present then
    (s.setRxe n { s.rxe n with acqStart := s.clock }).acqGo n acqFreq
  else if st = acqTiming ∧ s.on (Reg.RX_RESAMP_STAT_TR_LOCK n) then s.acqGo n acqConverge
  else if st = acqConverge ∧ ¬ s.on (Reg.RX_RESAMP_STAT_TR_LOCK n) then s.acqBackoffFor n 4
  else if st = acqHold ∧ (s.rxe n).present then s.acqGo n acqFast
  else s

/-- The transitions whose conditions already hold, one after the other. -/
def Dev.acqSettle (n : Nat) (s : Dev) : Dev :=
  ((((s.acqNext n).acqNext n).acqNext n).acqNext n).acqNext n

/-- Signal lost (R121, Table 4.5). -/
def Dev.acqLos (n : Nat) (s : Dev) : Dev :=
  let st := s.acq n
  if st = acqFreq then s.acqBackoffFor n 1
  else if st = acqCd then s.acqBackoffFor n 2
  else if st = acqTiming then s.acqBackoffFor n 3
  else if st = acqConverge then s.acqBackoffFor n 4
  else if st = acqPilot then s.acqBackoffFor n 5
  else if st = acqCarrier then s.acqBackoffFor n 7
  else if st = acqLocked then s.acqGo n acqHold
  else if st = acqFast then s.acqBackoffFor n 9
  else s

/-- A state's time limit (Table 4.4, Table 4.5). -/
def Dev.acqLimit (n : Nat) (s : Dev) : Dev :=
  let st := s.acq n
  if st = acqFreq then s.acqBackoffFor n 1
  else if st = acqTiming then s.acqBackoffFor n 3
  else if st = acqConverge then s.acqBackoffFor n 4
  else if st = acqPilot then s.acqBackoffFor n 5
  else if st = acqCarrier then s.acqBackoffFor n 7
  else if st = acqFast then s.acqBackoffFor n 9
  else s

/-- TR_LOCK cleared: lock lost with cause 10, or the attempt in EQ_CONVERGE ended (Table 4.5). -/
def Dev.trLockLost (n : Nat) (s : Dev) : Dev :=
  if s.on (Reg.RX_RESAMP_STAT_TR_LOCK n) then
    let s := s.setTrLock n false
    if s.acq n = acqLocked then s.acqLose n acqTiming 10 else s.acqSettle n
  else s

/-- The sampling PLL started where the ADC calibration is valid; otherwise E-1n.08, and a wait for it (R75). -/
def Dev.pllStart (n : Nat) (s : Dev) : Dev :=
  let x := s.rxe n
  if x.pllRun || !s.mayReceive n then s
  else if s.on (Reg.LCAL_STAT_ADC_VALID n) then s.setRxe n { x with pllRun := true, late := false, calWait := false }
  else (s.setRxe n { x with calWait := true }).raise (10 + n) 8

/-- The ADC calibration of engine `n` has become valid: a waiting ENABLE starts the sampling PLL (R75). -/
def Dev.adcCalValid (n : Nat) (s : Dev) : Dev :=
  let x := s.rxe n
  if x.calWait ∧ s.on (Reg.RX_CTRL_ENABLE n) then s.setRxe n { x with pllRun := true, late := false, calWait := false } else s

/-- The samples stop: PLL_LOCK and TR_LOCK fall, the signal is no longer measured, and captures are truncated (R76, R97). Signal presence falls without E-1n.19, so
that SIGNAL_PRESENT raises it again with no LOS between (DESIGN CHOICE, log 167). An attempt that is broken off so has not ended in BACKOFF and does not count
against the kept D (R124). -/
def Dev.samplesStop (n : Nat) (s : Dev) : Dev :=
  let s := (s.setPllLock n false).setTrLock n false
  let s := (s.wr (Reg.RX_RESAMP_STAT_TR_HOLD n) 0).setRxe n { s.rxe n with present := false, late := false, onKept := false }
  s.capTruncate n

/-- The front-end data counts for the receiver of engine `n` (R79). -/
def Dev.rxFeUsed (s : Dev) (n : Nat) : Bool :=
  s.on (Reg.RX_SKIQ_STAT_FE_VALID n) && s.on (Reg.RX_SKIQ_CTRL_FE_EN n)

/-- RX_SKIQ_STAT.SKEW_CLAMP brought up to date, with E-1n.12 where a clamp sets it (R78). -/
def Dev.settleRxSkew (n : Nat) (s : Dev) : Dev :=
  let clamp := (List.range 4).any fun k =>
    decide (1000 < ((if s.rxFeUsed n then feSigned (s.fee n).cache (416 + 2 * k) else 0) + s.rdS (Reg.RX_SKEW_TRIM n k)).natAbs)
  let was := s.on (Reg.RX_SKIQ_STAT_SKEW_CLAMP n)
  (s.wrB (Reg.RX_SKIQ_STAT_SKEW_CLAMP n) clamp).raiseIf (clamp && !was) (10 + n) 12

/-- The IQ estimates in use: gain in 0.001 dB within 1.5 dB and phase in 0.001° within 10°, polarisation X and then Y, with IQ_CLAMP and E-1n.12 where they are
clamped (R80). -/
def Dev.setIq (n : Nat) (gain phase : Nat → Int) (s : Dev) : Dev :=
  let s := [0, 1].foldl (fun (s : Dev) (k : Nat) =>
    (s.wrS (Reg.RX_IQ_EST_GAIN n k) (clampInt (-1500) 1500 (gain k))).wrS (Reg.RX_IQ_EST_PHASE n k) (clampInt (-10000) 10000 (phase k))) s
  let clamp := [0, 1].any fun k => decide (1500 < (gain k).natAbs) || decide (10000 < (phase k).natAbs)
  let was := s.on (Reg.RX_SKIQ_STAT_IQ_CLAMP n)
  (s.wrB (Reg.RX_SKIQ_STAT_IQ_CLAMP n) clamp).raiseIf (clamp && !was) (10 + n) 12

/-- The IQ correction started from the front-end data; without it, at 0 (R80). -/
def Dev.startIq (n : Nat) (s : Dev) : Dev :=
  let val (off : Nat) : Int := if s.rxFeUsed n then feSigned (s.fee n).cache off else 0
  s.setIq n (fun k => val (424 + 4 * k)) fun k => val (426 + 4 * k)

/-- A write of RX_CTRL.ENABLE = 1 (R75, R78, R87, R124, R126, R143). -/
def Dev.rxEnable (n : Nat) (s : Dev) : Dev :=
  let s := (s.wr (Reg.RX_CTRL_ENABLE n) 1).sysLeave n false
  let s := (s.wr (Reg.ACQ_STAT_TRIES n) 0).wr (Reg.ACQ_STAT_LAST_FAIL n) 0
  let s := s.setRxe n { s.rxe n with keptD := none, keptFails := 0, onKept := false, fault := false }
  let s := { s with xqStopped := s.xqStopped.filter fun q => q ≠ n }
  let s := (((s.showRxRate n).fixWindow n).fixDispersion n).feStart n false true false
  let s := if (s.rxe n).pllRun then s else s.chooseResamp n
  (s.pllStart n).acqSettle n

/-- A write of RX_CTRL.ENABLE = 0 (R97, R125). -/
def Dev.rxDisable (n : Nat) (s : Dev) : Dev :=
  let s := s.wr (Reg.RX_CTRL_ENABLE n) 0
  let s := if s.acq n = acqIdle then s else s.acqGo n acqIdle
  let s := s.samplesStop n
  let s := s.setRxe n { s.rxe n with pllRun := false, calWait := false }
  (((s.wr (Reg.RX_RESAMP_STAT_ACTIVE_MODE n) 0).wr (Reg.RX_RESAMP_STAT_ACTIVE_PRESET n) 0).wr (Reg.RX_SAMP_STAT_FS_MSPS n) 0).settlePending n

/-- A re-acquiring commit in force while ENABLE = 1 (R73, R87, R124, R143): the choice of R81 is made again, the PLL retunes where fs
changes, its samples' records ending before the settings change (R96), and the sequence restarts. Where fs stays, TR_LOCK falls with E-1n.09, so that timing is recovered anew (DESIGN CHOICE, log 161). -/
def Dev.reacquire (n : Nat) (s : Dev) : Dev :=
  if s.on (Reg.RX_CTRL_ENABLE n) then
    let same := s.sameFs n
    let s := (s.wr (Reg.ACQ_STAT_TRIES n) 0).acqGo n acqWaitSamples
    let s := s.setRxe n { s.rxe n with keptD := none, keptFails := 0, onKept := false }
    let s := if same then s.setTrLock n false else s.samplesStop n
    let s := ((s.fixWindow n).fixDispersion n).chooseResamp n
    s.acqSettle n
  else s

/-! ## Front commands -/

/-- RX_ENABLE_WRITE (R75). -/
def execRxEnableWrite (n : Fin 8) (s : State) : Out :=
  s.run fun s => s.onHeldWrite (linePage n 8) 0x040 (.rxEnable n) (Dev.rxEnable n)

/-- RX_DISABLE_WRITE (R125). -/
def execRxDisableWrite (n : Fin 8) (s : State) : Out :=
  s.run fun s => s.onHeldWrite (linePage n 8) 0x040 (.rxDisable n) (Dev.rxDisable n)

/-- SAMP_PLL_LOCK (R75). -/
def execSampPllLock (n : Fin 8) (s : State) : Out :=
  s.run fun s =>
    if (s.rxe n).pllRun then ((s.setRxe n { s.rxe n with late := false }).setPllLock n true).acqSettle n else s

/-- SAMP_PLL_LOCK_TIMEOUT (R75): once per occasion. -/
def execSampPllLockTimeout (n : Fin 8) (s : State) : Out :=
  s.run fun s =>
    let x := s.rxe n
    if x.pllRun ∧ ¬ s.on (Reg.RX_SAMP_STAT_PLL_LOCK n) ∧ ¬ x.late then (s.setRxe n { x with late := true }).raise (10 + n) 8
    else s

/-- SAMP_PLL_UNLOCK (R76, R97). -/
def execSampPllUnlock (n : Fin 8) (s : State) : Out :=
  s.run fun s =>
    if s.on (Reg.RX_SAMP_STAT_PLL_LOCK n) then (s.samplesStop n).acqGo n acqWaitSamples else s

/-- OVR_WINDOW_END (R77): what the 1 ms window has come to, and the lanes' RMS levels; its IQ estimates are taken where IQ_TRACK = 1 and samples flow (R80). -/
def execOvrWindowEnd (n : Fin 8) (window : FrontWindow) (rms0 rms1 rms2 rms3 : Byte) (s : State) : Out :=
  s.run fun s =>
    let s := s.bumpBy (Reg.RX_OVR_CNT n) window.count
    let s := (s.wr (Reg.RX_ADC_LEVEL_RMS n 0) rms0.toNat).wr (Reg.RX_ADC_LEVEL_RMS n 1) rms1.toNat
    let s := (s.wr (Reg.RX_ADC_LEVEL_RMS n 2) rms2.toNat).wr (Reg.RX_ADC_LEVEL_RMS n 3) rms3.toNat
    let s := s.raiseIf (decide (window.count > s.rd (Reg.RX_OVR_THR_THRESHOLD n))) (10 + n) 13
    if s.on (Reg.RX_SKIQ_CTRL_IQ_TRACK n) && s.on (Reg.RX_SAMP_STAT_PLL_LOCK n) then
      s.setIq n (fun k => if k = 0 then window.gainX else window.gainY) fun k => if k = 0 then window.phaseX else window.phaseY
    else s

/-- A write of RX_OVR_THR (R77). -/
def Dev.rxOvrThr (n : Nat) (v : Word) (s : Dev) : Dev :=
  s.hostWrite (linePage n 9) 0x054 0x80000000 v fun s => if v.getLsbD 31 then s.wr (Reg.RX_OVR_CNT n) 0 else s

/-- RX_OVR_CLEAR (R77): a write of RX_OVR_THR with CLEAR = 1. -/
def execRxOvrClear (n : Fin 8) (v : Word) (s : State) : Out :=
  s.run (Dev.rxOvrThr n (v ||| 0x80000000#32))

/-- TR_LOCK_SET (R83): the loop has held within ±1/16 symbol for 10 µs; the far-end offset that it has found is read from RX_RESAMP_STAT (R85). -/
def execTrLockSet (n : Fin 8) (_freq : Found) (s : State) : Out :=
  s.run fun s => if s.on (Reg.RX_SAMP_STAT_PLL_LOCK n) then (s.setTrLock n true).acqSettle n else s

/-- TR_LOCK_CLEAR (R83). -/
def execTrLockClear (n : Fin 8) (s : State) : Out :=
  s.run fun s => s.trLockLost n

/-- TR_HOLD_ENTER (R84). -/
def execTrHoldEnter (n : Fin 8) (s : State) : Out :=
  s.run fun s => if s.on (Reg.RX_SAMP_STAT_PLL_LOCK n) then s.keepMeasured n (s.wr (Reg.RX_RESAMP_STAT_TR_HOLD n) 1) else s

/-- TR_HOLD_RESUME (R84). -/
def execTrHoldResume (n : Fin 8) (s : State) : Out :=
  s.run fun s => s.wr (Reg.RX_RESAMP_STAT_TR_HOLD n) 0

/-- TR_HOLD_TIMEOUT (R84): a hold of 100 µs clears TR_LOCK. TR_HOLD stays until the gain recovers or the samples stop (DESIGN CHOICE, log 211). -/
def execTrHoldTimeout (n : Fin 8) (s : State) : Out :=
  s.run fun s => if s.on (Reg.RX_RESAMP_STAT_TR_HOLD n) then s.trLockLost n else s

/-! ## Acquisition commands -/

/-- SIGNAL_PRESENT (R121). -/
def execSignalPresent (n : Fin 8) (s : State) : Out :=
  s.run fun s =>
    if (s.rxe n).present ∨ ¬ s.on (Reg.RX_SAMP_STAT_PLL_LOCK n) then s
    else ((s.setRxe n { s.rxe n with present := true }).raise (10 + n) 19).acqSettle n

/-- SIGNAL_LOS (R121). -/
def execSignalLos (n : Fin 8) (s : State) : Out :=
  s.run fun s =>
    if (s.rxe n).present then ((s.setRxe n { s.rxe n with present := false }).raise (10 + n) 19).acqLos n else s

/-- FREQ_SEARCH_DONE (R115): Δf found, in 0.1 MHz; one beyond ±5.2 GHz counts as not found. A kept D stays while KEEP_CD reads 0, and is used again once it reads 1
(DESIGN CHOICE, log 168). -/
def Dev.freqDone (n : Nat) (offset : Int) (s : Dev) : Dev :=
  if s.acq n = acqFreq then
    if offset.natAbs ≤ 52000 then
      let s := (s.wrS (Reg.CR_FREQ_OFFSET n) offset).wr (Reg.CR_STAT_FREQ_LOCK n) 1
      let x := s.rxe n
      if s.on (Reg.RX_CD_SRC n) then
        match if s.on (Reg.ACQ_CTRL_KEEP_CD n) then x.keptD else none with
        | some d => (((s.wrS (Reg.RX_CD_STAT_APPLIED n) d).setRxe n { x with onKept := true }).acqGo n acqTiming).acqSettle n
        | none => s.acqGo n acqCd
      else (s.acqGo n acqTiming).acqSettle n
    else s.acqBackoffFor n 1
  else s

def execFreqSearchDone (n : Fin 8) (offset : Int) (s : State) : Out :=
  s.run fun s => s.freqDone n offset

/-- ACQ_STATE_LIMIT (R125). -/
def execAcqStateLimit (n : Fin 8) (s : State) : Out :=
  s.run fun s => s.acqLimit n

/-- CD_SEARCH_DONE (R123, R124): the sweep ends with a D, or without one. -/
def execCdSearchDone (n : Fin 8) (found : Option Int) (s : State) : Out :=
  s.run fun s =>
    if s.acq n = acqCd then
      match found with
      | some d =>
        let s := s.wrS (Reg.RX_CD_STAT_APPLIED n) d
        let s := if s.on (Reg.ACQ_CTRL_KEEP_CD n) then s.setRxe n { s.rxe n with keptD := some d, keptFails := 0 } else s
        (s.acqGo n acqTiming).acqSettle n
      | none => s.acqBackoffFor n 2
    else s

/-- EQ_CONVERGED (R108): ESNR, in 0.01 dB, has been within a 0.5 dB band for 20 µs; only one above 3 dB counts. -/
def execEqConverged (n : Fin 8) (esnr : BitVec 16) (s : State) : Out :=
  s.run fun s =>
    if s.acq n ≥ acqConverge ∧ s.acq n ≤ acqLocked ∧ 300 < esnr.toNat then
      let s := (s.wr (Reg.EQ_STAT_ESNR n) esnr.toNat).wr (Reg.EQ_STAT_CONVERGED n) 1
      if s.acq n = acqConverge then s.acqGo n acqPilot else s
    else s

/-- One step of the pilot generator, x^15 + x^14 + 1 (R45): the register shifts towards bit 14, its oldest bit, and bits 14 and 13 feed bit 0 (DESIGN CHOICE,
log 166). -/
def prbs15 (x : Nat) : Nat :=
  (2 * x + (ofBool (bitAt x 14 != bitAt x 13))) % 32768

/-- Whether some step count takes the two seeds to the two loaded states at once (R113). -/
def pilotMatch : Nat → Nat → Nat → Nat → Nat → Bool
  | 0, _, _, _, _ => false
  | k + 1, x, y, s0, s1 => (x == s0 && y == s1) || pilotMatch k (prbs15 x) (prbs15 y) s0 s1

/-- PILOT_SYNC_DONE (R112, R113): the two loaded states, taken at one symbol instant, against the seeds taken up at the entry to PILOT_SYNC. -/
def Dev.pilotDone (n s0 s1 : Nat) (s : Dev) : Dev :=
  if s.acq n = acqPilot then
    let x := (s.rxe n).seedX
    let y := (s.rxe n).seedY
    let found (swapped : Nat) (s : Dev) : Dev :=
      ((s.wr (Reg.PILOT_STAT_SWAPPED n) swapped).acqGo n acqCarrier).wr (Reg.PILOT_STAT_SYNC n) 1
    if pilotMatch 32767 x y s0 s1 then found 0 s
    else if pilotMatch 32767 y x s0 s1 then found 1 s
    else ((s.raise (10 + n) 22).acqBackoffFor n 6).wr (Reg.PILOT_STAT_MISMATCH n) 1
  else s

def execPilotSyncDone (n : Fin 8) (s0 s1 : BitVec 15) (s : State) : Out :=
  s.run fun s => s.pilotDone n s0.toNat s1.toNat

/-- CARRIER_LOCKED (R125): CARRIER_LOCK or FAST_REACQ to LOCKED; ACQ_TIME is written for a full acquisition. The demapper takes its scale (R140). A TR_LOCK that
fell before LOCKED is no row of that state: "TR_LOCK cleared" is the event (DEDUCED, log 210). -/
def Dev.carrierLock (n : Nat) (s : Dev) : Dev :=
  if s.acq n = acqCarrier ∨ s.acq n = acqFast then
    let full := decide (s.acq n = acqCarrier)
    let s := (s.wr (Reg.CR_STAT_PHASE_LOCK n) 1).wr (Reg.ACQ_STAT_TRIES n) 0
    let s := s.setRxe n { s.rxe n with keptFails := 0, onKept := false }
    let s := if full then s.wr (Reg.ACQ_TIME_LAST_US n) (min 16777215 ((s.clock - (s.rxe n).acqStart) / 1000)) else s
    let m := s.rxMode n
    (s.takeScale n m.1 m.2.2).acqGo n acqLocked
  else s

def execCarrierLocked (n : Fin 8) (s : State) : Out :=
  s.run fun s => s.carrierLock n

/-- EQ_DEGENERACY (R107): yy and yx become the complements of the xx and xy of this instant. -/
def execEqDegeneracy (n : Fin 8) (s : State) : Out :=
  s.run fun s =>
    if s.acq n ≥ acqConverge ∧ s.acq n ≤ acqLocked then
      let s := ((s.bump (Reg.EQ_DEGEN_CNT n)).raise (10 + n) 21).setRxe n { s.rxe n with relatedAt := some s.clock }
      if s.acq n = acqLocked then (s.acqLose n acqConverge 11).acqSettle n else s
    else s

/-- PILOT_LOSS (R114): the errored fraction, in 1/256, of the fourth window in a row above the threshold; one that is not above it is no loss. -/
def execPilotLoss (n : Fin 8) (frac : Byte) (s : State) : Out :=
  s.run fun s =>
    if s.acq n = acqLocked ∧ s.rd (Reg.PILOT_LOSS_THRESHOLD n) < frac.toNat then
      (s.acqLose n acqPilot 12).wr (Reg.PILOT_STAT_ERR_FRAC n) frac.toNat
    else s

/-- FREQ_OUT_OF_RANGE (R115): the estimate, in 0.1 MHz, that has left ±5.2 GHz; the odd engine of a twin pair goes on from its partner's (R118). -/
def execFreqOutOfRange (e : FreqEstimate) (s : State) : Out :=
  s.run fun s =>
    if s.acq e.engine = acqLocked ∧ 52000 < e.offset.natAbs then
      let d := s.acqLose e.engine acqFreq 13
      if d.takesPartnerF e.engine then d else d.wrS (Reg.CR_FREQ_OFFSET e.engine) e.offset
    else s

/-- HOLD_EXPIRED (R125). -/
def execHoldExpired (n : Fin 8) (s : State) : Out :=
  s.run fun s => if s.acq n = acqHold then s.acqBackoffFor n 8 else s

/-- BACKOFF_EXPIRED (R125). -/
def Dev.backoffEnd (n : Nat) (s : Dev) : Dev :=
  if s.acq n = acqBackoff then
    let mx := s.rd (Reg.ACQ_CTRL_MAX_TRIES n)
    if mx = 0 ∨ s.rd (Reg.ACQ_STAT_TRIES n) < mx then (s.acqGo n acqWaitSignal).acqSettle n
    else (s.acqGo n acqFailed).raise (10 + n) 18
  else s

def execBackoffExpired (n : Fin 8) (s : State) : Out :=
  s.run fun s => s.backoffEnd n

/-- RETRY = 1 (R126). -/
def Dev.acqRetry (n : Nat) (s : Dev) : Dev :=
  if s.acq n = acqFailed then ((s.wr (Reg.ACQ_STAT_TRIES n) 0).acqGo n acqWaitSignal).acqSettle n
  else s.viol (linePage n 0x14)

/-- A write of ACQ_CTRL; TWIN is reserved on odd engines (Table 4.12). -/
def Dev.acqCtrl (n : Nat) (v : Word) (s : Dev) : Dev :=
  let odd : Bool := decide (n % 2 = 1)
  s.hostWrite (linePage n 0x14) 0x040 (if odd then 0xE00 else 0xC00) v fun s =>
    let s := if odd && v.getLsbD 9 then s.viol (linePage n 0x14) else s
    let s := if v.getLsbD 11 then s.wr (Reg.ACQ_FAIL_CNT n) 0 else s
    if v.getLsbD 10 then s.acqRetry n else s

/-- ACQ_RETRY (R126): a write of ACQ_CTRL with RETRY = 1. -/
def execAcqRetry (n : Fin 8) (v : Word) (s : State) : Out :=
  s.run (Dev.acqCtrl n (v ||| 0x400#32))

/-- ACQ_CNT_CLR: a write of ACQ_CTRL with CNT_CLR = 1. -/
def execAcqCntClr (n : Fin 8) (v : Word) (s : State) : Out :=
  s.run (Dev.acqCtrl n (v ||| 0x800#32))

/-- A write of EQ_CTRL: RESET puts the taps at their initial values and converges anew (R106); FREEZE may hold the taps (R105). -/
def Dev.eqCtrl (n : Nat) (v : Word) (s : Dev) : Dev :=
  s.keepTaps n (s.hostWrite (linePage n 0x10) 0x040 0x8 v fun s =>
    if v.getLsbD 3 then
      let s := (s.resetTaps n).wr (Reg.EQ_DEGEN_CNT n) 0
      if s.acq n = acqLocked then (s.acqGo n acqConverge).acqSettle n else s
    else s)

/-- EQ_RESET (R106): a write of EQ_CTRL with RESET = 1. -/
def execEqReset (n : Fin 8) (v : Word) (s : State) : Out :=
  s.run (Dev.eqCtrl n (v ||| 8#32))

/-- TAP_CENTROID_SHIFT (R103): where the taps adapt and their centroid lies more than half a tap from the centre, all taps move by one position towards it, and the
timing phase by 1/r_i the opposite way. -/
def execTapCentroidShift (n : Fin 8) (s : State) : Out :=
  s.run fun s =>
    if s.tapsAdapt n ∧ s.tapSpacing n < 2 * (s.centroid n).natAbs then
      let k : Int := if 0 < s.centroid n then -1 else 1
      let x := s.rxe n
      s.setRxe n { x with tapShift := (s.clock, s.tapsShifted n + k), phaseSteps := x.phaseSteps - k }
    else s

/-- S_min in 0.0025 dB for the constellation in force (R111). -/
def sMin (const entropy : Nat) : Nat :=
  match const with
  | 0 => 2800
  | 1 => 5200
  | _ => 5 * entropy + 2400

/-- EQ_STAT.DFE_ACTIVE set; the weights start from 0 where the stage is switched on (R111). -/
def Dev.setDfe (n : Nat) (v : Bool) (s : Dev) : Dev :=
  let s := if v && !s.on (Reg.EQ_STAT_DFE_ACTIVE n) then s.setRxe n { s.rxe n with dfeAt := s.clock } else s
  s.wrB (Reg.EQ_STAT_DFE_ACTIVE n) v

/-- The decision-feedback stage at a pilot boundary, for an ESNR in 0.01 dB (R111): between the two thresholds it stays as it is, also where DFE_EN has just been set
(DESIGN CHOICE, log 208). The demapper takes its scale there too (R140). -/
def Dev.dfeSwitch (n esnr : Nat) (s : Dev) : Dev :=
  let m := s.rxMode n
  let s := (s.wr (Reg.EQ_STAT_ESNR n) esnr).takeScale n m.1 m.2.2
  if s.on (Reg.EQ_CTRL_DFE_EN n) && s.on (Reg.EQ_CTRL_DFE_AUTO n) then
    if 4 * esnr < sMin m.1 m.2.2 then s.setDfe n false
    else if sMin m.1 m.2.2 + 400 ≤ 4 * esnr then s.setDfe n true
    else s
  else s.setDfe n (s.on (Reg.EQ_CTRL_DFE_EN n))

/-- DFE_AUTO_SWITCH (R111). -/
def execDfeAutoSwitch (n : Fin 8) (esnr : BitVec 16) (s : State) : Out :=
  s.run fun s => s.dfeSwitch n esnr.toNat

/-- CYCLE_SLIP (R117): with BPS = 0 slips cannot occur. -/
def execCycleSlip (n : Fin 8) (s : State) : Out :=
  s.run fun s =>
    if s.rd (Reg.CR_CTRL_BPS n) = 0 then s else (s.bump (Reg.CR_SLIP_CNT n)).setRxe n { s.rxe n with slips := (s.rxe n).slips + 1 }

/-- SLIP_WINDOW_END (R117): the 1 ms window ends; its slips are those that CYCLE_SLIP has counted. -/
def execSlipWindowEnd (n : Fin 8) (_slips : Found) (s : State) : Out :=
  s.run fun s =>
    (s.raiseIf (decide ((s.rxe n).slips > s.rd (Reg.CR_SLIP_THR_THRESHOLD n))) (10 + n) 20).setRxe n { s.rxe n with slips := 0 }

/-- A write of CR_SLIP_THR. -/
def Dev.crSlipThr (n : Nat) (v : Word) (s : Dev) : Dev :=
  s.hostWrite (linePage n 0x12) 0x050 0x80000000 v fun s => if v.getLsbD 31 then s.wr (Reg.CR_SLIP_CNT n) 0 else s

/-- CR_SLIP_CLEAR: a write of CR_SLIP_THR with CLEAR = 1. -/
def execCrSlipClear (n : Fin 8) (v : Word) (s : State) : Out :=
  s.run (Dev.crSlipThr n (v ||| 0x80000000#32))

/-- TWIN_AID_FALLBACK (R120). -/
def execTwinAidFallback (n : Fin 8) (s : State) : Out :=
  s.run fun s =>
    if s.on (Reg.CR_STAT_TWIN_AID_ACTIVE n) then
      ((s.setRxe n { s.rxe n with aid := false }).wr (Reg.CR_STAT_TWIN_AID_ACTIVE n) 0).raise (10 + n) 23
    else s

/-- TWIN_AID = 0 in force on an engine of a twin pair: a condition of R119 fails, and each engine that used the aid falls back (R120). -/
def Dev.aidEnds (n : Nat) (s : Dev) : Dev :=
  let e := 2 * (n / 2)
  if s.on (Reg.CR_CTRL_TWIN_AID e) && s.on (Reg.CR_CTRL_TWIN_AID (e + 1)) then s
  else [e, e + 1].foldl (fun s m =>
    if s.on (Reg.CR_STAT_TWIN_AID_ACTIVE m) then
      s.keepMeasured m (((s.setRxe m { s.rxe m with aid := false }).wr (Reg.CR_STAT_TWIN_AID_ACTIVE m) 0).raise (10 + m) 23)
    else s) s

/-- TWIN_AID_RESUME (R119, R120): the conditions have held for 100 µs, at a walk-off in ps. -/
def execTwinAidResume (n : Fin 8) (skew : Int) (s : State) : Out :=
  s.run fun s =>
    let m := 4 * (n.val / 2) + 1 - n.val
    if s.rxTwin n && s.on (Reg.CR_CTRL_TWIN_AID n) && s.on (Reg.CR_CTRL_TWIN_AID m) &&
        decide (s.acq n = acqLocked) && decide (s.acq m = acqLocked) && decide (skew.natAbs ≤ 1000000) then
      ((s.setRxe n { s.rxe n with aid := true }).wr (Reg.CR_STAT_TWIN_AID_ACTIVE n) 1).wrS (Reg.CR_TWIN_SKEW_SKEW n) skew
    else s

/-- A step in arrival time (R563). One that timing recovery does not take clears TR_LOCK in every state; the pilots and codewords are held against the signal in
LOCKED. -/
def Dev.arrivalStep (n : Nat) (withinQuarter sameGrid : Bool) (symbols : Nat) (s : Dev) : Dev :=
  if !withinQuarter then s.trLockLost n
  else if s.acq n = acqLocked then
    if symbols = 0 then s
    else if !sameGrid then s.acqLose n acqPilot 12
    else if s.als n = alAligned then s.alFail n 5
    else s
  else s

/-- LINE_ARRIVAL_STEP (R563): `withinQuarter` where the timing phase error stays within ±1/4 symbol or returns there within 2 µs;
`symbols` the whole symbol periods of the step, `sameGrid` where they keep the pilot grid and sequence. -/
def execLineArrivalStep (n : Fin 8) (withinQuarter : Bool) (symbols : Nat) (s : State) : Out :=
  s.run fun s => s.arrivalStep n withinQuarter (decide (symbols % (32 * 32767) = 0)) symbols

/-! ## Optical estimates and window results (R127 to R129, R155, R156) -/

/-- OSNR in 0.01 dB from ESNR and the back-to-back SNR, where ESNR lies at least 0.5 dB below it (R128). -/
def osnrOf (esnr b2b const slots entropy : Nat) : Option Int :=
  if esnr + 50 ≤ 10 * b2b then
    let noise := dbPower (-(esnr : Int)) - dbPower (-(10 * b2b : Int))
    let r := rsFraction const slots entropy
    some (toDb (fxDiv fxOne noise * r.1 / (r.2 * 12500000000)))
  else none

/-- The Q of a window's BER in units of 2^-32; where the BER is 0 or one half or more, the formula gives no value and the estimate is
free (log 3). -/
def Dev.qEstimate (s : Dev) (ber : Nat) : Int :=
  if 0 < ber ∧ ber < 2 ^ 31 then qOfBer ber (2 ^ 32) else signed 16 (s.free % 65536)

/-- The window results of the chord code published (R155, R156), with E-1n.27 where SD changes; the levels are those of the window's start (Table 5.12). WIN_BER of a window
without an included codeword and ITER_AVG of one without a decoded one show 0 (DESIGN CHOICE, log 220). -/
def Dev.publishWindow (n : Nat) (s : Dev) : Dev :=
  let x := s.rxe n
  let bits := 18448 * x.winIncl
  let valid := decide (1 ≤ x.winCw) && decide (4 * x.winExcl ≤ x.winCw)
  let ber := if bits = 0 then 0 else min (2 ^ 32 - 1) ((2 * x.winCorr * 2 ^ 32 + bits) / (2 * bits))
  let s := (s.wr64 (Reg.WIN_CORR_LO n) x.winCorr).wr64 (Reg.WIN_BITS_LO n) bits
  let s := (s.wr (Reg.WIN_BER_BER n) ber).wr (Reg.WIN_FAILED n) x.winFailed
  let avg := if x.winCw = 0 then 0 else min 255 ((2 * 8 * x.winIter + x.winCw) / (2 * x.winCw))
  let s := (s.wr (Reg.WIN_STAT_ITER_AVG n) avg).wrB (Reg.WIN_STAT_VALID n) valid
  if valid then
    if ber > x.sdSet ∧ ¬ s.on (Reg.WIN_STAT_SD n) then (s.wr (Reg.WIN_STAT_SD n) 1).raise (10 + n) 27
    else if ber < x.sdClr ∧ s.on (Reg.WIN_STAT_SD n) then (s.wr (Reg.WIN_STAT_SD n) 0).raise (10 + n) 27
    else s
  else s

/-- OPM_Q and the degrade rule of R129, for a window published. -/
def Dev.publishQ (n : Nat) (s : Dev) : Dev :=
  if s.on (Reg.WIN_STAT_VALID n) then
    let q := s.qEstimate (s.rd (Reg.WIN_BER_BER n))
    let s := ((s.wrS (Reg.OPM_Q_Q n) q).wr (Reg.OPM_Q_VALID n) 1).tick
    let thr := s.rdS (Reg.OPM_Q_THR_DEGRADE n)
    let x := s.rxe n
    if q < thr ∧ ¬ x.degraded then (s.setRxe n { x with degraded := true }).raise (10 + n) 24
    else if q > thr + s.rd (Reg.OPM_Q_THR_HYST n) ∧ x.degraded then (s.setRxe n { x with degraded := false }).raise (10 + n) 24
    else s
  else s.wr (Reg.OPM_Q_VALID n) 0

/-- What the receiver measured over an estimate window: ESNR in 0.01 dB, E1's residual dispersion in ps/nm, DGD in 0.1 ps and SOP rate
in krad/s. -/
structure Estimates where
  esnr : Nat
  residual : Int
  dgdMean : Nat
  dgdPeak : Nat
  sopMean : Nat
  sopPeak : Nat
  deriving DecidableEq, Repr

/-- OPM_WINDOW_END (R127, R155): a set is published where the engine was LOCKED for the whole window; otherwise every VALID bit
clears. E-1n.29 follows the capped codewords either way. -/
def Dev.opmEnd (n : Nat) (e : Estimates) (s : Dev) : Dev :=
  let x := s.rxe n
  let capped := decide (x.winCapped * 65536 > s.rd (Reg.CAP_WARN_FRAC n) * x.winCw)
  let s :=
    if x.winLocked then
      let m := s.rxMode n
      let s := s.wr (Reg.EQ_STAT_ESNR n) e.esnr
      let s := match osnrOf e.esnr (s.rd (Reg.OPM_CTRL_B2B_SNR n)) m.1 m.2.1 m.2.2 with
        | some d => (s.wrS (Reg.OPM_OSNR_OSNR n) d).wr (Reg.OPM_OSNR_VALID n) 1
        | none => s.wr (Reg.OPM_OSNR_VALID n) 0
      let s := (s.wrS (Reg.OPM_CD_CD n) (s.rdS (Reg.RX_CD_STAT_APPLIED n) + e.residual)).wr (Reg.OPM_CD_VALID n) 1
      let s := (s.wr (Reg.OPM_DGD_MEAN n) e.dgdMean).wr (Reg.OPM_DGD_PEAK n) e.dgdPeak
      let s := (s.wr (Reg.OPM_SOP_MEAN n) e.sopMean).wr (Reg.OPM_SOP_PEAK n) e.sopPeak
      let s := (s.publishWindow n).publishQ n
      s.wr (Reg.OPM_SEQ_SEQ n) (s.rd (Reg.OPM_SEQ_SEQ n) + 1)
    else
      ((((s.wr (Reg.OPM_OSNR_VALID n) 0).wr (Reg.OPM_CD_VALID n) 0).wr (Reg.OPM_Q_VALID n) 0).wr (Reg.WIN_STAT_VALID n) 0)
  let s := s.raiseIf capped (10 + n) 29
  let s := s.setRxe n { s.rxe n with
    winLocked := decide (s.acq n = acqLocked), sdSet := s.rd (Reg.SD_SET_BER n), sdClr := s.rd (Reg.SD_CLR_BER n)
    winCw := 0, winIncl := 0, winCorr := 0, winExcl := 0, winCapped := 0, winFailed := 0, winIter := 0 }
  s.settleCourses

def execOpmWindowEnd (n : Fin 8) (esnr : BitVec 16) (residual : Int) (dgdMean dgdPeak sopMean sopPeak : BitVec 16)
    (s : State) : Out :=
  s.run fun s => s.opmEnd n ⟨esnr.toNat, residual, dgdMean.toNat, dgdPeak.toNat, sopMean.toNat, sopPeak.toNat⟩

/-! ## The tap readout (Table 4.10) -/

/-- A feedback weight's parts, in 1/16,384 (R110): each magnitude at most 0.25 and their sum at most 0.5, since the eight weights of a polarisation share 0.5 by a free
value; 0 until the taps have adapted since the stage was switched on (R111). -/
def Dev.freeWeight (s : Dev) (n p j : Nat) : Int × Int :=
  if s.tapClock n ≤ (s.rxe n).dfeAt then (0, 0)
  else
    let f (k : Nat) : Nat := Config.freeOf 104 [n, s.tapClock n, p, k]
    -- what the weights before this one have left of the sum
    let room := (List.range j).foldl (fun (r : Nat) k => r - f k % (min 4096 r + 1)) 8192
    let m := f j % (min 4096 room + 1)
    -- a magnitude in the plane: |re| + |im| never exceeds it
    let im := f (8 + j) % (m + 1)
    let sign (k : Nat) (v : Nat) : Int := if f k % 2 = 0 then v else -v
    (sign (16 + j) (m - im), sign (24 + j) im)

/-- A word of two 16-bit parts. -/
def complexWord (z : Int × Int) : Word :=
  BitVec.ofNat 32 (unsign 16 z.1 + 65536 * unsign 16 z.2)

/-- A tap or weight word by index 161 × b + t, or 644 + 8p + j: the initial taps of R106, zero beyond L, and otherwise what the signal has made of it. -/
def Dev.tapWord (s : Dev) (n i : Nat) : Word :=
  let l := tapCount (s.rxe n).taps
  if i < 644 then
    let b := i / 161
    let t := i % 161
    if t ≥ l then 0
    else complexWord (s.tap n b t)
  else if i < 660 then
    if s.on (Reg.EQ_STAT_DFE_ACTIVE n) then complexWord (s.freeWeight n ((i - 644) / 8) ((i - 644) % 8)) else 0
  else 0

/-- A write of EQ_TAP_SNAP: TAKE copies all taps to the readout store (Table 4.10). -/
def Dev.tapSnap (n : Nat) (v : Word) (s : Dev) : Dev :=
  s.hostWrite (linePage n 0x11) 0x040 1#32 v fun s =>
    if v.getLsbD 0 then
      let store := (List.range 660).foldl (fun m i => sset (dflt 0) m i (s.tapWord n i)) []
      (s.setRxe n { s.rxe n with tapStore := store }).wr (Reg.EQ_TAP_SNAP_READY n) 1
    else s

/-- EQ_TAP_SNAP (Table 4.10). -/
def execEqTapSnap (n : Fin 8) (s : State) : Out :=
  s.run (Dev.tapSnap n 1#32)

/-- A read of EQ_TAP_DATA of engine `n`: the store's word at INDEX, which advances. -/
def Dev.tapDataRead (n : Nat) (s : Dev) : Dev :=
  let pg := linePage n 0x11
  let s := s.access 0 pg 0x048
  if s.pageLive pg then
    let i := s.rd (Reg.EQ_TAP_ADDR_INDEX n)
    { s with readData := [sget (dflt 0) (s.rxe n).tapStore i] }.wr (Reg.EQ_TAP_ADDR_INDEX n) (i + 1)
  else { s with readData := [0] }

/-- EQ_TAP_DATA_READ (Table 4.10, R562). -/
def execEqTapDataRead (n : Fin 8) (s : State) : Out :=
  s.run (Dev.tapDataRead n)

end Sys2Proof.Machine
end

