-- ==== Sys2Proof/Machine/ChordRx.lean ====
section
/-!
DEFINITION. The chord decoder of an engine (R139 to R148, R154): inner codewords from received bits, staircase blocks through the window, their verdicts, and the bytes
that leave with their marks.
-/
namespace Sys2Proof.Machine

/-! ## Inner codewords (R139 to R141) -/

/-- The engine whose carrier bit q of engine n's interleaver output came over (R138). -/
def Dev.carrierOf (s : Dev) (n q : Nat) : Nat :=
  if s.rxTwin n ∧ q / 4 % 2 = 1 then n + 1 - 2 * (n % 2) else n

/-- The demapper of an engine's carrier as it stands (R139, R140). -/
def Dev.demapperOf (s : Dev) (n : Nat) : Demapper :=
  let m := s.rxMode n
  demapper m.1 m.2.2 (s.rd (Reg.EQ_STAT_ESNR n)) (s.rd (Reg.DEMAP_STAT_SCALE n))

/-- The 5-bit ratios of codeword `w` of a group, in codeword order (R137, R140). -/
def Dev.codewordRatios (s : Dev) (n w : Nat) (group : List SoftBit) (blocks : List (List Int)) : List Int :=
  let own := s.demapperOf n
  let partner := s.demapperOf (n + 1 - 2 * (n % 2))
  let ownPaths := blocks.map (matchPaths own)
  let partnerPaths := blocks.map (matchPaths partner)
  (deinterleave (0, SoftBit.label 0 0) w ((List.range group.length).zip group)).map fun (x : Nat × SoftBit) =>
    if s.carrierOf n x.1 = n then own.ratio ownPaths x.2 else partner.ratio partnerPaths x.2

/-- A codeword's information bits taken into the staircase stream (R136): those before the first block boundary are left out, and a codeword that begins before it is in no
count of R154 but CW_TOTAL (DEDUCED, log 177). Its symbols carry τ_front and τ_back (R89, R104). -/
def ChordRx.takeWord (x : ChordRx) (input info : List Bool) (front back : Int) : ChordRx :=
  let bits := ((input.take cwInfo).zip info).drop x.skip
  { x with
    skip := x.skip - cwInfo, next := x.next + bits.length, fill := x.fill ++ bits, keptWords := x.keptWords + 1
    delays := if bits = [] then x.delays else x.delays ++ [(x.next, front, back)]
    words := if x.skip = 0 then x.words ++ [⟨x.next, input⟩] else x.words }

/-- An inner codeword decoded (R141), and the running counters and window sums of it (R154, R155). -/
def Dev.codeword (n w : Nat) (group : List SoftBit) (blocks : List (List Int)) (s : Dev) : Dev :=
  if s.als n = alAligned then
    let ratios := s.codewordRatios n w group blocks
    let input := ratios.map fun r => decide (r < 0)
    let r := innerDecode (s.rd (Reg.FEC_ITER_STAT_ITER_EFF n)) (s.on (Reg.FEC_CTRL_EARLY_STOP n)) ratios
    let s := s.bumpRun64 (Reg.CW_TOTAL_LO n) 1
    let s := if r.2.2 then s else s.bumpRun (Reg.CW_CAPPED n) 1
    let x := s.rxe n
    let c := x.chord.takeWord input (r.1.take cwInfo) (s.gdNow n) (s.gdBack n)
    s.setRxe n { x with
      winCw := x.winCw + 1
      winCapped := x.winCapped + ofBool (!r.2.2)
      winIter := x.winIter + r.2.1
      chord := { c with unsat := (innerUnsat input.toArray :: c.unsat).take 256 } }
  else s

/-! ## Staircase blocks (R142, R147, R148) -/

/-- The rows of a block from its bits. -/
def rowsOf (bits : List Bool) : List Nat :=
  ((pieces 374 374 bits).1).map natOfBits

/-- A block enters where the stream has a whole one: three passes over the window with it (R142). -/
def ChordRx.enter (x : ChordRx) : ChordRx :=
  let b := x.fill.take blockBits
  let i := (x.next - x.fill.length) / blockBits
  let w := x.window ++ [⟨i, b.any fun (p : Bool × Bool) => p.1 != p.2, rowsOf (b.map (·.2))⟩]
  let rows := stairPasses (w.map fun (b : ChordBlock) => (b.rows, b.changed))
  { x with fill := x.fill.drop blockBits, window := (w.zip rows).map fun (p : ChordBlock × StairRows) => { p.1 with rows := p.2.1, changed := p.2.2 } }

/-- Some component word of two blocks in a row has a non-zero syndrome. -/
def stairBad (a b : List Nat) : Bool :=
  (List.range 374).any fun r => bchBad (stairWord a b r)

/-- The verdict of the oldest block as it leaves (R147): 2 FAILED, 1 CORRECTED, 0 CLEAN. The words that it forms with the block before it and the one after it contain it;
before the first block the decoder has none (DEDUCED, log 177). -/
def ChordRx.verdict (x : ChordRx) (b : ChordBlock) (rest : List ChordBlock) : Nat :=
  let before := match x.gone with
    | some g => stairBad g.1.rows b.rows
    | none => false
  let after := match rest with
    | c :: _ => stairBad b.rows c.rows
    | [] => false
  if before || after then 2 else ofBool b.changed

/-- The information bytes of a block (R133). -/
def blockBytes (rows : List Nat) : List Byte :=
  let bits := rows.flatMap fun r => (bitsOf 374 r).take 352
  ((pieces 8 bits.length bits).1).map fun b => BitVec.ofNat 8 (natOfBits b)

/-- What a codeword that has wholly left counts (R154): excluded, or its corrected bits, where the blocks that hold its information bits are `g` and `b`. -/
def wordCount (g b : ChordBlock × Nat) (w : ChordWord) : Option Nat :=
  let first := w.start / blockBits
  let inFirst := decide (first < b.1.index)
  if (inFirst && decide (g.2 = 2)) || (decide (b.1.index * blockBits < w.start + cwInfo) && decide (b.2 = 2)) then none
  else
    let bits := (blockOut g.1.rows ++ blockOut b.1.rows).drop (w.start + blockBits - b.1.index * blockBits)
    let final := innerWord (bits.take cwInfo)
    some ((final.zip w.input).countP fun (p : Bool × Bool) => p.1 != p.2)

/-- The counts of the codewords that have wholly left with a block: excluded ones, included ones, and the latter's corrected bits. -/
def wordCounts (g b : ChordBlock × Nat) (ws : List ChordWord) : Nat × Nat × Nat :=
  ws.foldl (fun (a : Nat × Nat × Nat) w =>
    match wordCount g b w with
    | none => (a.1 + 1, a.2)
    | some k => (a.1, a.2.1 + 1, a.2.2 + k)) (0, 0, 0)

/-- The place in the staircase stream of bit `pos` of the decoded stream: 352 information bits to a row of 374 (R133, R136). -/
def stairPlace (pos : Nat) : Nat :=
  pos / 352 * 374 + pos % 352

/-- The delays of the codewords from the one that holds bit `pos` of the decoded stream on. -/
def delaysFrom (pos : Nat) : List (Nat × Int × Int) → List (Nat × Int × Int)
  | a :: b :: rest => if b.1 ≤ stairPlace pos then delaysFrom pos (b :: rest) else a :: b :: rest
  | l => l

/-- τ_front and τ_back that the symbols of bit `pos` of the decoded stream carried (R89, R104). -/
def ChordRx.delayAt (x : ChordRx) (pos : Nat) : Int × Int :=
  match delaysFrom pos x.delays with
  | d :: _ => d.2
  | [] => (0, 0)

/-- The delivered bytes that are held for the frame layer: those of 8 line frames at most (log 177). -/
def ChordRx.deliver (slots : Nat) (x : ChordRx) (bytes : List Byte) (mark : Nat) : ChordRx :=
  let out := x.out ++ bytes.map fun b => (b, mark)
  let surplus := out.length - 8 * 4160 * slots
  { x with out := out.drop surplus, base := x.base + 8 * surplus, delays := delaysFrom (x.base + 8 * surplus) x.delays }

/-- The oldest block leaves with its verdict, and what that counts (R142, R147, R154): BLK_FAILED and E-1n.26 where it is FAILED. -/
def Dev.blockLeaves (n : Nat) (s : Dev) : Dev :=
  let x := s.rxe n
  match x.chord.window with
  | [] => s
  | b :: rest =>
    let v := x.chord.verdict b rest
    let g := x.chord.gone.getD (⟨b.index - 1, false, List.replicate 374 0⟩, 0)
    let gone := x.chord.words.filter fun (w : ChordWord) => decide (w.start + cwInfo ≤ (b.index + 1) * blockBits)
    let k := wordCounts g (b, v) gone
    let c := { x.chord with
      window := rest, gone := some (b, v)
      words := x.chord.words.filter fun (w : ChordWord) => !decide (w.start + cwInfo ≤ (b.index + 1) * blockBits) }
    let s := s.setRxe n { x with
      chord := c.deliver (s.rxMode n).2.1 (blockBytes b.rows) v, verdict := v, winFailed := x.winFailed + ofBool (decide (v = 2))
      winExcl := x.winExcl + k.1, winIncl := x.winIncl + k.2.1, winCorr := x.winCorr + k.2.2 }
    let s := (s.bumpRun (Reg.CW_EXCLUDED n) k.1).bumpRun64 (Reg.CORR_BITS_LO n) k.2.2
    if v = 2 then (s.bumpRun (Reg.BLK_FAILED n) 1).raise (10 + n) 26 else s

/-- Blocks enter, `fuel` at the most, until the window holds W of them and the oldest leaves, or no whole block has come. -/
def Dev.blockStep (n : Nat) : Nat → Dev → Dev
  | 0, s => s
  | fuel + 1, s =>
    let x := s.rxe n
    if x.chord.fill.length < blockBits then s
    else
      let s := s.setRxe n { x with chord := x.chord.enter }
      if s.rd (Reg.FEC_ITER_STAT_WIN n) ≤ (s.rxe n).chord.window.length then s.blockLeaves n else Dev.blockStep n fuel s

/-- CODEWORD_DECODE (R141): codeword `w` of an interleaver group of engine n whose received bits are `group`, in the order of the engine's own interleaver output, brought
together from both carriers in twin mode (R137, R138); `blocks` the amplitudes received in its matcher blocks. -/
def execCodewordDecode (n : Fin 8) (w : Fin 4) (group : List SoftBit) (blocks : List (List Int)) (s : State) : Out :=
  s.run fun s => s.codeword n w group blocks

/-- STAIRCASE_BLOCK_VERDICT (R147): the next block leaves the decoder, as soon as the window is full. Whether decoding has changed it and whether a syndrome is left over are
found in the window. -/
def execStaircaseBlockVerdict (n : Fin 8) (_changed _nonzero : Found) (s : State) : Out :=
  s.run fun s => if s.als n = alAligned then s.blockStep n 16 else s

end Sys2Proof.Machine
end

