-- ==== Sys2Proof/Machine/Prbs.lean ====
section
/-!
DEFINITION. The PRBS generators and checkers of the serial lanes, and the far-end loopback's store (R390, R413 to R415): what a lane generates, and what
1,280 ns add to the lane's counters. Lane x is client lane x for x below 64, and lane l of relay port p for x = 64 + 4p + l.
-/
namespace Sys2Proof.Machine

/-- The level of a bit pair: Gray code (R390, R413). -/
def grayLevel (bits : Nat) : Nat :=
  match bits with
  | 0 => 0
  | 1 => 1
  | 3 => 2
  | _ => 3

/-- What the generator of lane x holds. -/
def Dev.prbsGen (s : Dev) (x : Nat) : PrbsGen :=
  sget (dflt PrbsGen.reset) s.relay.gens x

/-- The state with the generator of a lane changed. -/
def Dev.setPrbsGen (x : Nat) (g : PrbsGen) (s : Dev) : Dev :=
  { s with relay := { s.relay with gens := sset (dflt PrbsGen.reset) s.relay.gens x g } }

/-- The levels that lane x has received, kept in far-end loopback (R390). -/
def Dev.setEcho (x : Nat) (levels : List Nat) (s : Dev) : Dev :=
  if sget (dflt []) s.relay.echo x = levels then s else { s with relay := { s.relay with echo := sset (dflt []) s.relay.echo x levels } }

/-- The powers of a pattern's polynomial, its order first: PRBS7 to PRBS31 by ITU-T O.150, PRBS13Q and PRBS31Q by IEEE 802.3, which inverts the latter (R413;
PRESUMED, log 202). -/
def prbsTaps : Nat → List Nat
  | 0 => [7, 6]
  | 1 => [9, 5]
  | 2 => [15, 14]
  | 3 => [23, 18]
  | 4 => [31, 28]
  | 5 => [13, 12, 2, 1]
  | _ => [31, 28]

/-- The order of a pattern's polynomial. -/
def prbsOrder (pat : Nat) : Nat :=
  (prbsTaps pat).headD 1

/-- `n` bits of a pattern from a register of its order on, whose lowest bit is the newest. -/
def prbsRun (pat : Nat) : Nat → Nat → List Bool
  | 0, _ => []
  | n + 1, w =>
    let b := (prbsTaps pat).foldl (fun a t => a != bitAt w (t - 1)) false
    b :: prbsRun pat n ((2 * w + ofBool b) % 2 ^ prbsOrder pat)

/-- The register that lane x's generator starts from: not given, a free value that is not all zeros (log 199). -/
def prbsSeed (pat x : Nat) : Nat :=
  1 + Config.freeOf 111 [x] % (2 ^ prbsOrder pat - 1)

/-- Bits that lane x carries in 1,280 ns, two a symbol (Table 14.1). -/
def Dev.laneBits (s : Dev) (x : Nat) : Nat :=
  if 64 ≤ x then 143360 else if s.on (Reg.OCT_CFG_RATE (8 * (x / 8))) then 136000 else 272000

/-- Bits between inverted ones: 2^(8 + 2k); none for 0 (R415). -/
def Dev.injectSpan (s : Dev) (x : Nat) : Option Nat :=
  let k := s.rd (Reg.PRBS_CTRL_INJ_RATE x)
  if k = 0 then none else some (2 ^ (8 + 2 * k))

/-- Bits below number `m` that INJ_RATE inverts: the last of each span (DESIGN CHOICE, log 199). -/
def Dev.injectedBelow (s : Dev) (x m : Nat) : Nat :=
  match s.injectSpan x with
  | none => 0
  | some d => m / d

/-- The pattern bits of lane x from number `m` on, before inversion (R413). -/
def Dev.patternBits (s : Dev) (x m n : Nat) : List Bool :=
  let pat := s.rd (Reg.PRBS_CTRL_GEN_PAT x)
  if pat = 7 then (List.range n).map fun i => bitAt (s.rd64 (Reg.PRBS_USER_LO x)) (63 - (m + i) % 64)
  else
    let past := m % (2 ^ prbsOrder pat - 1)
    let bits := (prbsRun pat (past + n) (prbsSeed pat x)).drop past
    if pat = 6 then bits.map not else bits

/-- The bits that lane x generates in the frame under way: the pattern, with INV and the injected errors (R413, R415). -/
def Dev.generatedBits (s : Dev) (x : Nat) : List Bool :=
  let g := s.prbsGen x
  (s.patternBits x g.sent (s.laneBits x)).zipIdx.map fun e =>
    let m := g.sent + e.2
    ((e.1 != s.on (Reg.PRBS_CTRL_INV x)) != decide (s.injectedBelow x (m + 1) ≠ s.injectedBelow x m)) != decide (m ∈ g.ones)

/-- The levels of bits, two a symbol, the first bit most significant (R390). -/
def bitLevels : List Bool → List Nat
  | a :: b :: r => grayLevel (2 * ofBool a + ofBool b) :: bitLevels r
  | _ => []

/-- The levels that lane x sends in the frame under way instead of its coded traffic, where it does: none in low power; those received in
far-end loopback, which of a client lane are free (log 3); its pattern with GEN_EN (R389, R390, R413). -/
def Dev.laneInstead (s : Dev) (x : Nat) : Option (List Nat) :=
  if s.on (Reg.LANE_STAT_LP x) then some []
  else if s.rd (Reg.LANE_CTRL_LB x) = 3 then
    some (if 64 ≤ x then sget (dflt []) s.relay.echo x else (List.range (s.laneBits x / 2)).map fun i => Config.freeOf 114 [x, s.clock, i] % 4)
  else if s.on (Reg.PRBS_CTRL_GEN_EN x) then some (bitLevels (s.generatedBits x))
  else none

/-- INJ_ONE: the next bit not generated yet is inverted (R415; which one DESIGN CHOICE, log 199). -/
def Dev.injectOne (x : Nat) (s : Dev) : Dev :=
  let g := s.prbsGen x
  let m := g.sent + s.laneBits x
  s.setPrbsGen x { g with ones := g.ones ++ [m + (g.ones.filter fun i => m ≤ i).length] }

/-- The generator of lane x receives its own pattern through a near-end loopback (R390). -/
def Dev.loopsOwn (s : Dev) (x : Nat) : Bool :=
  (decide (s.rd (Reg.LANE_CTRL_LB x) = 1) || decide (s.rd (Reg.LANE_CTRL_LB x) = 2)) && s.on (Reg.PRBS_CTRL_GEN_EN x) &&
  decide (s.rd (Reg.PRBS_CTRL_GEN_PAT x) = s.rd (Reg.PRBS_CTRL_CHK_PAT x))

/-- Errored bits that the checker of lane x finds in 1,280 ns: those that INJ_RATE inverts where it receives its own generator, else a free number. -/
def Dev.checkedErrors (s : Dev) (x : Nat) : Nat :=
  if s.loopsOwn x then
    let m := (s.prbsGen x).sent
    s.injectedBelow x (m + s.laneBits x) - s.injectedBelow x m
  else Config.freeOf 112 [x, s.fresh] % (s.laneBits x + 1)

/-- The checker of lane x over 1,280 ns: PRBS_ERR and PRBS_BITS count while LOCK is set (R414). -/
def Dev.checkerTick (x : Nat) (s : Dev) : Dev :=
  if s.on (Reg.PRBS_STAT_LOCK x) then
    ((s.bumpBy (Reg.PRBS_ERR x) (s.checkedErrors x)).wr64 (Reg.PRBS_BITS_LO x)
      (min (s.rd64 (Reg.PRBS_BITS_LO x) + s.laneBits x) (2 ^ 64 - 1))).tick
  else s

/-- The elastic store of lane x in far-end loopback: symbols dropped or repeated, a free number (R390). -/
def Dev.storeTick (x : Nat) (s : Dev) : Dev :=
  if s.rd (Reg.LANE_CTRL_LB x) = 3 then (s.bumpBy (Reg.LB_SLIP x) (Config.freeOf 113 [x, s.fresh] % (s.laneBits x / 2 + 1))).tick else s

/-- The generator of lane x goes on to the frame that begins; a lane that does not generate starts anew. -/
def Dev.generatorTick (x : Nat) (s : Dev) : Dev :=
  let g := s.prbsGen x
  let m := g.sent + s.laneBits x
  s.setPrbsGen x (if s.on (Reg.PRBS_CTRL_GEN_EN x) then ⟨m, g.ones.filter fun i => m ≤ i⟩ else PrbsGen.reset)

/-- Every serial lane over 1,280 ns. -/
def Dev.lanesTick (s : Dev) : Dev :=
  (List.range 80).foldl (fun s x => ((s.checkerTick x).storeTick x).generatorTick x) s

end Sys2Proof.Machine
end

