-- ==== Sys2Proof/Machine/Frame.lean ====
section
/-!
DEFINITION. The line frame and the courses on it, sending side (R159 to R180, R278 to R293): overhead blocks, the scrambler, the frame
tick with the course frames it fills, encrypts and bridges.
-/
namespace Sys2Proof.Machine

/-! ## Overhead blocks (R162, R189) -/

/-- The frame alignment signal (Table 6.1). -/
def fasBytes : List Byte := [0x1D#8, 0xB5#8, 0x4E#8, 0xE2#8, 0x71#8, 0x9A#8]

/-- Bytes 0 to 16 of a column's overhead: FAS, MFAS, FLAGS, CRS, MCNT and SERIAL (Table 6.1). `kind` is TYPE. -/
def columnStart (mfas kind ks tsValid course member members serial : Nat) : List Byte :=
  fasBytes ++ bytesBE 1 mfas ++ bytesBE 1 (kind * 64 + ks * 32 + tsValid * 16) ++ bytesBE 2 (course * 128 + member) ++
    bytesBE 1 (members - 1) ++ bytesBE 6 serial

/-- Bytes 17 to 61 of a lead column in native mode (Table 6.1). -/
def leadNative (tti bdi sr : Nat) (ts : List Byte) : List Byte :=
  bytesBE 1 tti ++ bytesBE 1 (bdi * 128) ++ bytesLE 4 sr ++ sliceBytes ts 0 12 ++ List.replicate 27 0

/-- Bytes 17 to 61 of a lead column in OTUCn-compatible mode (Table 6.5), with the BEI of section and path. Bit 1 of G.709 is the most significant. -/
def leadOtu (tti bip bei beiPm bdi sr : Nat) (ts : List Byte) : List Byte :=
  bytesBE 1 tti ++ bytesBE 1 bip ++ bytesBE 1 (bei * 16 + bdi * 8) ++ bytesBE 1 tti ++ bytesBE 1 bip ++
    bytesBE 1 (beiPm * 16 + bdi * 8 + 1) ++ bytesLE 4 sr ++ sliceBytes ts 0 12 ++ List.replicate 23 0

/-- An overhead block closed by its CRC (Table 6.1). -/
def sealColumn (seed : Nat) (b : List Byte) : List Byte :=
  let b := sliceBytes b 0 62
  b ++ bytesBE 2 (crc16 seed b)

/-- The overhead block of a column of TYPE 0 (R162). -/
def unusedColumn (seed mfas : Nat) : List Byte :=
  sealColumn seed (fasBytes ++ bytesBE 1 mfas)

/-- Whether an overhead block has a valid CRC. -/
def columnValid (seed : Nat) (b : List Byte) : Bool :=
  decide (b.length = 64) && decide (crc16 seed (b.take 62) = fieldBE b 62 2)

/-! ## The scrambler and the order of bytes (R159, R160) -/

/-- The next bit of the generator with polynomial x^31 + x^28 + 1, and its next state; bit 30 of the state is its oldest bit. The bit that is added is the newest one,
which goes back into the generator (DESIGN CHOICE, log 213). -/
def scrambleStep (g : Nat) : Nat × Nat :=
  let b := ofBool (bitAt g 30 != bitAt g 27)
  (b, (2 * g + b) % 2 ^ 31)

/-- `n` bits of the generator as a number, first bit most significant, and the state after them. -/
def scrambleBits : Nat → Nat → Nat → Nat × Nat
  | 0, acc, g => (acc, g)
  | n + 1, acc, g => let p := scrambleStep g; scrambleBits n (2 * acc + p.1) p.2

/-- Bytes with the generator's output added; the descrambler is the same. -/
def scrambleFrom : Nat → List Byte → List Byte
  | _, [] => []
  | g, b :: bs => let p := scrambleBits 8 0 g; (b ^^^ BitVec.ofNat 8 p.1) :: scrambleFrom p.2 bs

/-- Rows 1 to 64 scrambled: the generator starts at all ones (R160). -/
def scrambleRows (bs : List Byte) : List Byte :=
  scrambleFrom (2 ^ 31 - 1) bs

/-- The bytes of a line frame in the order of sending: row 0, then the scrambled rows 1 to 64, column 0 first in each (R159, R160). -/
def lineFrameBytes (cols : List (List Byte × List Byte)) : List Byte :=
  cols.flatMap (·.1) ++ scrambleRows ((List.range 64).flatMap fun r => cols.flatMap fun c => sliceBytes c.2 (64 * r) 64)

/-- Member `j`'s column of a course frame of M members (R165). -/
def memberPayload (m j : Nat) (frame : List Byte) : List Byte :=
  (List.range 64).flatMap fun r => sliceBytes frame (64 * (m * r + j)) 64

/-- A course frame from its members' columns in member order (R165). -/
def joinMembers (cols : List (List Byte)) : List Byte :=
  (List.range 64).flatMap fun r => cols.flatMap fun c => sliceBytes c (64 * r) 64

/-- BIP-8: even parity over the bytes (Table 6.5). -/
def bip8 (bs : List Byte) : Nat :=
  (bs.foldl (fun a b => a ^^^ b) 0#8).toNat

/-! ## The course map on receive (R167) -/

/-- M of course `c` on receive: of RCRS for a remote course, of the receive copies for a local one. -/
def Dev.rxMembers (s : Dev) (c : Nat) : Nat :=
  if s.remoteRx c then s.rd (Reg.RCRS_MEMBERS_M1 c) + 1
  else match s.rxSlotsOf c with
    | k :: _ => s.rd (rxSlotField k 17 7) + 1
    | [] => s.rd (Reg.MAP_MEMBERS_M1 c) + 1

/-- Course `c` enabled on receive: what it collects starts anew, and RX_LAST is 0 (R167, R295). -/
def Dev.rxStart (c : Nat) (s : Dev) : Dev :=
  let x := s.co c
  ((s.setCo c { Course.reset with
    serial := x.serial, sent := x.sent, sentKs := x.sentKs, sentSerial := x.sentSerial, begun := x.begun, ttiTx := x.ttiTx, bdiWait := x.bdiWait
    bipTx := x.bipTx }).setRxs c RxStream.reset).wr64 (Reg.CSTAT_RX_LAST_LO c) 0

/-- Course `c` disabled on receive: its conditions end, with their events (R187, R191). -/
def Dev.rxStop (c : Nat) (s : Dev) : Dev :=
  let s := [(Reg.CRSTAT_LOA c, some 5), (Reg.CRSTAT_MSIM c, some 5), (Reg.CRSTAT_TIM c, some 2), (Reg.CRSTAT_BDI_RX c, some 3),
    (Reg.CRSTAT_STAT_NOK c, none)].foldl (fun s (x : Field × Option Nat) => s.setCrsBit c x.1 x.2 false) (s.settleCourse c)
  (s.rxStart c).settleCourse c

/-- A received frame of engine `n` with MFAS = 0: what waits for it comes into force (R167, R190). Courses that its copies are the first to enable start on receive,
and those that lose their last copy stop. -/
def Dev.rxBoundary (n : Nat) (s : Dev) : Dev :=
  let mine (x : Later) : Bool :=
    decide (x.bnd = .rxFrame) && (decide (x.page = framePage n) ||
      (decide (tableCell tableSLOT.id (524288 + 64 * n) 0 ≤ x.cell) && decide (x.cell < tableCell tableSLOT.id (524288 + 64 * n + 64) 0)))
  if (s.later.filter mine) = [] then s
  else
    let d := s.putWaiting mine
    let d := (d.rxCourses.filter fun c => !s.rxOn c).foldl (fun d c => d.rxStart c) d
    let d := (s.rxCourses.filter fun c => !d.rxOn c).foldl (fun d c => d.rxStop c) d
    d.settleCourses

/-! ## Transmit keys at a course frame boundary (R280, R281, R289 to R292) -/

/-- A course's next transmit counter (R280). -/
def Dev.txCounter (s : Dev) (c : Nat) : Nat :=
  s.rd Reg.BOOT_EPOCH_EPOCH * 2 ^ 48 + sget (dflt 0) s.txCount c

/-- Whether the device refuses to encrypt for a course (R281). -/
def Dev.counterSpent (s : Dev) (c : Nat) : Bool :=
  decide (s.rd Reg.BOOT_EPOCH_EPOCH = 0xFFFF) || decide (sget (dflt 0) s.txCount c = 2 ^ 48 - 1)

/-- The usage limit of course `c`'s keys, in frames. -/
def Dev.keyLimit (s : Dev) (c : Nat) : Nat :=
  s.rd (Reg.CKEY_LIMIT c) * 2 ^ 20

/-- CSTAT.STARVED and its bitmap bit, with E-21.03 at each change (R291). -/
def Dev.setStarved (c : Nat) (v : Bool) (s : Dev) : Dev :=
  if s.on (Reg.CSTAT_STARVED c) = v then s
  else ((s.wrB (Reg.CSTAT_STARVED c) v).wrB (courseBit Reg.STARVED_STARVED c) v).raise 21 3

/-- The switch to the other transmit slot (R290). -/
def Dev.keySwitch (c : Nat) (s : Dev) : Dev :=
  let ks := s.rd (Reg.CSTAT_KS_TX c)
  let old := s.txSlot c ks
  let s := if (s.key old).state = keyEmpty then s else s.keyState old keySpent
  let s := { s with rekeys := s.rekeys.filter (· ≠ c) }.setCo c { s.co c with begun := true }
  (((s.wr (Reg.CSTAT_KS_TX c) (1 - ks)).bump (Reg.CSTAT_SWITCHES c)).wr (Reg.CSTAT_WARNED c) 0).raise 21 2

/-- Whether the active transmit slot of a course can encrypt: READY for the first frame since the course was enabled, in use after it (R289). -/
def Dev.txUsable (s : Dev) (c : Nat) : Bool :=
  let k := s.txActive c
  s.txReady k || ((s.co c).begun && decide ((s.key k).state = keyActive) && decide ((s.key k).role = roleTx))

/-- The keys of course `c` at a frame boundary: a switch where a trigger waits and the other slot is READY. Answers whether the course has
a key for the frame. -/
def Dev.keyBoundary (c : Nat) (s : Dev) : Bool × Dev :=
  if s.counterSpent c then (false, s.setStarved c true)
  else if s.rekeys.contains c ∨ (s.co c).begun ∧ s.keyLimit c ≤ (s.key (s.txActive c)).used ∧ (s.key (s.txActive c)).state = keyActive then
    if s.txReady (s.txSlot c (1 - s.rd (Reg.CSTAT_KS_TX c))) then (true, (s.keySwitch c).setStarved c false)
    else (false, s.setStarved c true)
  else if s.txUsable c then (true, s.setStarved c false)
  else (false, s.setStarved c true)

/-- The usage warning (R292). -/
def Dev.keyWarn (c : Nat) (s : Dev) : Dev :=
  let w := s.rd (Reg.CKEY_WARN c)
  if w ≠ 0 ∧ ¬ s.on (Reg.CSTAT_WARNED c) ∧ s.keyLimit c ≤ (s.key (s.txActive c)).used + w * 2 ^ 16 then
    (s.wr (Reg.CSTAT_WARNED c) 1).raise 21 1
  else s

/-- A course frame encrypted under the active slot (R278): its bytes, with the counter taken. -/
def Dev.encryptFrame (c m serial : Nat) (plain : List Byte) (s : Dev) : List Byte × Dev :=
  let k := s.txActive c
  let ctr := s.txCounter c
  let x := gcmEncrypt (s.key k).key (cipherIv 0 c ctr) (cipherAad c serial (s.rd (Reg.CSTAT_KS_TX c)) m) plain
  let n := sget (dflt 0) s.txCount c + 1
  let s := { s.useKey k with txCount := sset (dflt 0) s.txCount c n }.setCo c { s.co c with begun := true }
  let s := s.raiseIf (n = 2 ^ 48 - 1) 21 12
  (x.1 ++ cipherBlock x.2 ctr 1, s.keyWarn c)

/-- A frame without content: its payload zeros, the cipher block with the flags alone (Table 10.1). -/
def emptyFrame (m flags : Nat) : List Byte :=
  List.replicate (4096 * m - 64) 0 ++ cipherBlock [] 0 flags

/-- The course frame that course `c` sends next (R268, R278, R279, R291, R301). `checkFail`: the two computations of R300 differed. -/
def Dev.nextFrame (c : Nat) (checkFail : Bool) (s : Dev) : List Byte × Dev :=
  let m := s.members c
  if s.on (Reg.CKEY_ENC c) then
    let b := s.keyBoundary c
    if b.1 then
      let f := b.2.fillCourse c m
      if checkFail then
        (emptyFrame m 5, ((f.2.bump (Reg.CSTAT_CHECK_FAIL c)).bump Reg.CHK_FAIL_COURSE).raise 21 7)
      else f.2.encryptFrame c m (f.2.co c).serial f.1
    else (emptyFrame m 3, (b.2.bump (Reg.CSTAT_STARVED_FR c)).dropCourse c)
  else
    let f := (s.setStarved c false).fillCourse c m
    (f.1 ++ cipherBlock [] 0 0, f.2)

/-! ## What each course sends (R161, R173, R175, R179, R196) -/

/-- The course whose frame course `c` sends: its own, or that of the course A it is bridged from. -/
def Dev.sendsFor (s : Dev) (c : Nat) : Nat :=
  match s.bridges.find? fun (b : Nat × Nat) => b.1 = c with
  | some b => b.2
  | none => c

/-- A course frame sent: its bytes, KS and serial kept, the serial advanced, its parity kept (R165, R169, R189). -/
def Dev.frameSent (c : Nat) (frame : List Byte) (ks : Bool) (serial : Nat) (s : Dev) : Dev :=
  let x := s.co c
  s.setCo c { x with
    sent := frame, sentKs := ks, sentSerial := serial, serial := (x.serial + 1) % 2 ^ 48
    bipTx := (x.bipTx ++ [bip8 frame]).drop (x.bipTx.length - 2) }

/-- Course `c` builds and sends its own frame. -/
def Dev.sendOwn (checkFail : Bool) (c : Nat) (s : Dev) : Dev :=
  let f := s.nextFrame c checkFail
  f.2.frameSent c f.1 (f.2.on (Reg.CSTAT_KS_TX c) && f.2.on (Reg.CKEY_ENC c)) (f.2.co c).serial

/-- Course B sends course A's frame, with its serial and KS (R196). -/
def Dev.sendBridged (b : Nat × Nat) (s : Dev) : Dev :=
  let a := s.co b.2
  s.frameSent b.1 a.sent a.sentKs a.sentSerial

/-- The trail identifier and BDI of course `c` for the frame that starts now. `was` is the clock before the tick (R173, R175). -/
def Dev.sendTrail (mfas was : Nat) (c : Nat) (s : Dev) : Dev :=
  let x := s.co c
  let tti := if mfas % 64 = 0 then (s.words (Reg.TTI_TX_W0 c).cell 16).flatMap (fun w => bytesLE 4 w.toNat) else x.ttiTx
  let want := s.courseFails c && s.on (Reg.MAP_BDI_EN c)
  let last := match x.bdiWait.getLast? with
    | some e => e.1
    | none => s.on (Reg.CRSTAT_BDI_TX c)
  let wait := if want = last then x.bdiWait else x.bdiWait ++ [(want, was)]
  let due (e : Bool × Nat) : Bool := decide (2000 ≤ s.clock - e.2)
  let s := s.setCo c { x with ttiTx := tti, bdiWait := wait.filter fun e => !due e }
  match (wait.filter due).getLast? with
  | some e => s.setCrsBit c (Reg.CRSTAT_BDI_TX c) none e.1
  | none => s

/-- TXGD[n].TOTAL_NS (R354): the fixed delay of the mode in force, a free value of the mode (log 3), with the analogue part; 0 while no light is asked of
the engine, as at reset. -/
def Dev.txDelay (s : Dev) (n : Nat) : Nat :=
  if s.txs n = txDark then s.rd (Reg.TXGD_TOTAL_NS n)
  else
    let m := s.txMode n
    unsign 32 (Config.freeOf 92 [n, m.1, m.2.1, m.2.2] + s.rdS (Reg.TX_GD_ANALOG_DELAY n))

/-- The TIME at which the reference bit of the frame that starts now crosses engine `n`'s transmit plane (R354). -/
def Dev.txInstant (s : Dev) (n : Nat) : Nat :=
  s.time + s.txDelay n

/-- BIP-8 of the frame two before the one that is sent now; 0 in a course's first two frames (Table 6.5; DESIGN CHOICE, log 178). -/
def Course.bipOld (x : Course) : Nat :=
  match x.bipTx with
  | [b, _, _] => b
  | _ => 0

/-- Bytes 17 to 61 of course `c`'s lead column on engine `n`. -/
def Dev.leadBytes (s : Dev) (mfas c n : Nat) : List Byte :=
  let x := s.co c
  let tti := fieldBE x.ttiTx (mfas % 64) 1
  let bdi := s.rd (Reg.CRSTAT_BDI_TX c)
  let sr := s.rd (Reg.SR_TX_SR c)
  let ts := if s.on (Reg.MAP_TS_EN c) then timeBytesBE (s.txInstant n) else []
  if s.on (Reg.FR_CTRL_OH_MODE n) then
    leadOtu tti x.bipOld x.bei x.beiPm bdi sr ts
  else leadNative tti bdi sr ts

/-- The overhead block of course `c` in slot `k` (R162). -/
def Dev.columnBlock (s : Dev) (mfas c k : Nat) : List Byte :=
  let x := s.co c
  let j := s.rd (Reg.SLOT_MEMBER k)
  let n := k / 64
  let head := columnStart mfas (if j = 0 then 1 else 2) (ofBool x.sentKs) (ofBool (j = 0 && s.on (Reg.MAP_TS_EN c))) c j (s.members c)
    x.sentSerial
  sealColumn (s.rd (Reg.FR_SEED_TX_SEED n)) (head ++ if j = 0 then s.leadBytes mfas c n else [])

/-- The column that the relay has brought for member `j` of course `c` (R400). -/
def Dev.relayColumn (s : Dev) (c j : Nat) : List (List Byte × Nat) :=
  match (s.listed tableRRX).find? fun k =>
      s.rd (Reg.RRX_KIND k) = 3 && decide (s.rd (Reg.RRX_COURSE k) = c) && decide (s.rd (Reg.RRX_MEMBER k) = j) with
  | some k => (sget (dflt RelaySlot.reset) s.relay.rx k).column
  | none => []

/-- The overhead block of a course fed through the relay: FAS, MFAS, TS and CRC rewritten (R400); zeros where the relay brings no
overhead (R403). -/
def Dev.relayBlock (s : Dev) (mfas c k : Nat) : List Byte :=
  let j := s.rd (Reg.SLOT_MEMBER k)
  match s.relayColumn c j with
  | (b, _) :: _ =>
    if b.all (· = 0) then List.replicate 64 0
    else
      let n := k / 64
      let at_ := if s.on (Reg.FR_CTRL_OH_MODE n) then 27 else 23
      let lead := decide (j = 0)
      let tsv := ofBool (lead && s.on (Reg.MAP_TS_EN c))
      let flags := fieldBE b 7 1
      let flags := flags - (flags / 16 % 2) * 16 + tsv * 16
      let b := fasBytes ++ bytesBE 1 mfas ++ bytesBE 1 flags ++ sliceBytes b 8 54
      let b := if lead then
          sliceBytes b 0 at_ ++ (if tsv = 1 then timeBytesBE (s.txInstant n) else List.replicate 12 0) ++ sliceBytes b (at_ + 12) (50 - at_)
        else b
      sealColumn (s.rd (Reg.FR_SEED_TX_SEED n)) b
  | [] => List.replicate 64 0

/-- The overhead blocks of course `c`'s slots sent. -/
def Dev.sendColumns (mfas c : Nat) (s : Dev) : Dev :=
  (s.slotsOf c).foldl (fun s k =>
    { s with ohSent := sset (dflt []) s.ohSent k (if s.relayFed c then s.relayBlock mfas c k else s.columnBlock mfas c k) }) s

/-- The violations that the frame's lead column has returned are not returned again (Table 6.5, log 178). -/
def Dev.beiSent (c : Nat) (s : Dev) : Dev :=
  let x := s.co c
  if x.bei = 0 ∧ x.beiPm = 0 then s else s.setCo c { x with bei := 0, beiPm := 0 }

/-- The payload that slot `k` of course `c` sends. -/
def Dev.slotPayload (s : Dev) (c k : Nat) : List Byte :=
  let j := s.rd (Reg.SLOT_MEMBER k)
  if s.relayFed c then sliceBytes ((s.relayColumn c j).tail.flatMap (·.1)) 0 4096
  else memberPayload (s.members c) j (s.co c).sent

/-- The column that engine `n` sends in slot `k`: overhead and payload (R162). -/
def Dev.sentColumn (s : Dev) (k : Nat) : List Byte × List Byte :=
  match s.courses.find? fun c => (s.slotsOf c).contains k with
  | some c => (sget (dflt []) s.ohSent k, s.slotPayload c k)
  | none => (unusedColumn (s.rd (Reg.FR_SEED_TX_SEED (k / 64))) (s.rd (Reg.FR_MFAS_TX (k / 64))), List.replicate 4096 0)

/-- The line frame that engine `n` sends. -/
def Dev.sentFrame (s : Dev) (n : Nat) : List Byte :=
  lineFrameBytes ((List.range (s.txSlots n)).map fun k => s.sentColumn (64 * n + k))

/-! ## The chord encoder (R132 to R138) -/

/-- Framed bits taken through the encoder: whole staircase blocks, inner codewords and interleaver groups leave it (R132, R133, R136, R137). -/
def ChordTx.feed (t : ChordTx) (bits : List Bool) : ChordTx :=
  let info := t.info ++ bits
  let b := pieces blockInfo info.length info
  let st := b.1.foldl (fun (a : List Nat × List Bool) i => let r := stairBlock a.1 i; (r, a.2 ++ blockOut r)) (t.prev, t.stair)
  let w := pieces cwInfo st.2.length st.2
  let words := t.words ++ w.1.map innerWord
  let g := pieces 4 words.length words
  { t with prev := st.1, info := b.2, stair := w.2, words := g.2, out := g.1.flatMap interleave }

/-- Bits that fill a matcher block of PCS-64QAM, its k amplitude bits first, or a dual-polarisation symbol of a uniform constellation (R137). -/
def unitBits (const entropy : Nat) : Nat :=
  match const with
  | 0 => 4
  | 1 => 8
  | _ => entropy

/-- The encoder's output divided into the blocks or symbols of the engine's carrier; in twin mode both engines' (R137, R138). -/
def ChordTx.fillUnits (t : ChordTx) (size : Nat) (partner : Option (List Bool)) : ChordTx :=
  let bits := t.rest ++ (match partner with
    | some o => carrierBits t.out o
    | none => t.out)
  let u := pieces size bits.length bits
  { t with units := u.1, rest := u.2 }

/-- Whether an engine's encoder takes framed bits: from its first frame after PREP until it is dark (R135). -/
def Dev.encodes (s : Dev) (n : Nat) : Bool :=
  decide (s.txs n ≠ txDark) && decide (s.txs n ≠ txPrep)

/-- The line frame of this tick goes to the chord encoder of engine `n`. -/
def Dev.chordFeed (n : Nat) (s : Dev) : Dev :=
  let e := s.txe n
  s.setTxe n { e with chord := e.chord.feed (byteBits (s.sentFrame n)) }

/-- What the encoders have put out goes to the matcher or mapper of engine `n`'s carrier. -/
def Dev.chordMap (n : Nat) (s : Dev) : Dev :=
  let e := s.txe n
  let m := s.txMode n
  let partner := if s.txTwin n then some (s.txe (n + 1 - 2 * (n % 2))).chord.out else none
  s.setTxe n { e with chord := e.chord.fillUnits (unitBits m.1 m.2.2) partner }

/-- The chord encoders at a frame tick. -/
def Dev.chordTick (s : Dev) : Dev :=
  let ns := (List.range 8).filter s.encodes
  let s := ns.foldl (fun s n => s.chordFeed n) s
  ns.foldl (fun s n => s.chordMap n) s

/-! ## Relay slots fed here (R398, R399) -/

/-- A transmit relay slot set. -/
def Dev.setRelayTx (k : Nat) (x : RelayColumn) (s : Dev) : Dev :=
  { s with relay := { s.relay with tx := sset (dflt RelayColumn.idle) s.relay.tx k x } }

/-- The overhead that X makes for member `j` of remote course `c`; Y rewrites FAS, MFAS, TS and CRC (R400). -/
def Dev.remoteBlock (s : Dev) (mfas c j : Nat) : List Byte :=
  let x := s.co c
  let head := columnStart mfas (if j = 0 then 1 else 2) (ofBool x.sentKs) 0 c j (s.members c) x.sentSerial
  sealColumn 0xFFFF (head ++ if j = 0 then
    leadNative (fieldBE x.ttiTx (mfas % 64) 1) (s.rd (Reg.CRSTAT_BDI_TX c)) (s.rd (Reg.SR_TX_SR c)) [] else [])

/-- The relay slots that carry remote course `c`: row j leaves 16 × HOPS rows ahead of the frame it is for (R399), so a lane frame carries
the end of one column and the beginning of the next. -/
def Dev.sendRemote (mfas c : Nat) (s : Dev) : Dev :=
  let r0 := 16 * s.rd (Reg.RCRS_HOPS c) % 65
  ((s.listed tableRTX).filter fun k => s.rd (Reg.RTX_KIND k) = 1 && decide (s.rd (Reg.RTX_COURSE k) = c)).foldl (fun s k =>
    let j := s.rd (Reg.RTX_MEMBER k)
    let p := memberPayload (s.members c) j (s.co c).sent
    let col := (s.remoteBlock mfas c j, 0) :: (List.range 64).map fun r => (sliceBytes p (64 * r) 64, 0)
    let old := (sget (dflt RelayColumn.idle) s.relay.tx k).rest
    let old := if old.length = 65 - r0 then old else List.replicate (65 - r0) (List.replicate 64 0, 2)
    s.setRelayTx k (if r0 = 0 then ⟨0, col, []⟩ else ⟨r0, old ++ col.take r0, col.drop r0⟩)) s

/-! ## FRAME_TICK (R161, R330) -/

/-- 1,280 ns in 2^-16 ns. -/
def frameSpan : Nat := 1280 * 65536

/-- What a rate in parts per 10^9 makes of a span, in 2^-16 ns, with the rest of the spans before it; and the new rest, in 10^-9 of that unit. -/
def rateStep (rest span ppb : Nat) : Nat × Nat :=
  ((rest + span * ppb) / 1000000000, (rest + span * ppb) % 1000000000)

/-- An amount with at most `step` taken off towards 0. -/
def towardsZero (step : Nat) (v : Int) : Int :=
  if 0 ≤ v then max 0 (v - step) else min 0 (v + step)

/-- PACE_OFFSET, TIME − PACE, in 2^-16 ns (R329). -/
def Dev.paceOffset (s : Dev) : Int :=
  (s.time : Int) - s.pace

/-- PACE_OFFSET has come to 0: the alignment ends, with E-07.07 (R353). -/
def Dev.alignEnd (s : Dev) : Dev :=
  let s := { s with sid := { s.sid with aligning := false, jump := false, alignRest := 0 } }
  (s.wr64 Reg.PACE_OFF_LO (unsign 64 s.paceOffset)).raise 7 7

/-- PACE run on by a span. A slew adds to TIME and PACE at MAX_PPB what the DPLL's own count does not run (R328, R329), and an alignment adds at ALIGN_PPB to PACE
alone, until PACE_OFFSET is 0 (R353). -/
def Dev.runOn (span : Nat) (s : Dev) : Dev :=
  let a := rateStep s.sid.slewRest span (s.rd Reg.TIME_SLEW_MAX_PPB)
  let b := rateStep s.sid.alignRest span (s.rd Reg.OUT_ALIGN_ALIGN_PPB)
  let was := s.paceOffset
  let slew := towardsZero a.1 s.sid.slew
  let off := if s.sid.aligning then towardsZero b.1 was else was
  let count := s.sid.clockRest + ((span : Int) - (s.sid.slew - slew) - (was - off)).toNat
  let pace := s.pace + span
  let s := { s with
    clock := s.clock + count / 65536
    pace := pace
    time := ((pace : Int) + off).toNat
    sid := { s.sid with
      slew := slew
      slewRest := if slew = 0 then 0 else a.2
      alignRest := if s.sid.aligning then b.2 else 0
      clockRest := count % 65536 } }
  let s := s.wrS Reg.TIME_STAT_SLEW_REMAIN (slew / 65536)
  if s.sid.aligning then (if off = 0 then s.alignEnd else s.wr64 Reg.PACE_OFF_LO (unsign 64 off)) else s

/-- PACE run on to its next frame tick, an instant at a multiple of 1,280 ns (R330). -/
def Dev.toTick (s : Dev) : Dev :=
  s.runOn (frameSpan - s.pace % frameSpan)

/-- The clocks at the next tick. A jump of PACE falls at its second: PACE is then TIME, and the frame that starts is that of the next tick after it (R353). -/
def Dev.advance (s : Dev) : Dev :=
  let s := s.toTick
  if s.sid.jump ∧ s.pace % (65536 * 1000000000) = 0 then
    let s := ({ s with pace := s.time } : Dev).alignEnd
    if s.pace % frameSpan = 0 then s else s.toTick
  else s

/-- MFAS of the frame that starts at a PACE instant (R330). -/
def mfasAt (pace : Nat) : Nat :=
  let ns := pace / 65536
  (ns / 1000000000 * 781250 + ns % 1000000000 / 1280) % 256

/-- The bridges brought up to date at a multiframe's start (R196). -/
def Dev.takeBridges (s : Dev) : Dev :=
  { s with bridges := (s.enabledPairs.filter fun p => !s.on (Reg.PSTAT_CFG_BAD p)).map fun p =>
      (s.rd (Reg.PAIR_COURSE_B p), s.rd (Reg.PAIR_COURSE_A p)) }

/-- The serials of a Parallax path that have passed without a copy (R200, Table 7.1): its expected serial now, less its last one. -/
def Dev.pathMissed (s : Dev) (x : Pair) (w : PairPath) : Nat :=
  match x.grid, w.last with
  | g :: _, some l =>
    let o := if w.offsets = [] then 0 else w.offsets.sum / w.offsets.length
    let due : Int := g.serial + (((s.clock : Int) - o) * 65536 - g.start) / frameSpan
    ((due - l) % (2 ^ 48 : Int)).toNat
  | _, _ => 0

/-- The pair's paths at a frame tick: one that has delivered nothing for 8 serials stops contributing, and the state follows (Table 7.2). -/
def Dev.pathsTick (p : Nat) (s : Dev) : Dev :=
  let st := s.rd (Reg.PSTAT_STATE p)
  if st = parMerged ∨ st = parSingle then
    let x := s.pr p
    let f (w : PairPath) : PairPath :=
      let n := s.pathMissed x w
      if w.contributing && decide (8 ≤ n) && decide (n < 2 ^ 47) then { w with contributing := false, ok := 0, missed := n } else w
    let y := { x with a := f x.a, b := f x.b }
    if y = x then s
    else
      let s := s.setPr p y
      if !y.a.contributing && !y.b.contributing then s.pairGo p parLost
      else if y.a.contributing && y.b.contributing then s
      else if st = parMerged then s.pairGo p parSingle else s.pairGo p st
  else s

/-- The bytes of a segment: its header, most significant byte first, its data, and the CRC-32 over both, least significant byte first (log 44). -/
def segmentBytes (g : Segment) : List Byte :=
  let h := g.cls * 2 ^ 30 + g.dst * 2 ^ 24 + g.src * 2 ^ 18 + ofBool g.bcast * 2 ^ 17 + ofBool g.last * 2 ^ 16 + g.seq * 256 +
    (g.data.length - 1)
  let b := bytesBE 4 h ++ g.data
  b ++ bytesLE 4 (crc32 b)

/-- The segments of a port that one lane frame carries, and those left: whole ones, in order, up to its 648 bytes of data channel (R404, log 44). -/
def sentSegments : Nat → List Segment → List Segment × List Segment
  | _, [] => ([], [])
  | room, g :: gs =>
    if g.data.length + 8 ≤ room then
      let r := sentSegments (room - (g.data.length + 8)) gs
      (g :: r.1, r.2)
    else ([], g :: gs)

/-- The data channels send: the port's waiting segments leave where lane 0 has LINK, and zeros fill the rest of the lane frame (R396, R404). -/
def Dev.sendChannels (s : Dev) : Dev :=
  (List.range 4).foldl (fun s p =>
    let set (s : Dev) (bytes : List Byte) : Dev :=
      if sget (dflt []) s.relay.channel p = bytes then s
      else { s with relay := { s.relay with channel := sset (dflt []) s.relay.channel p bytes } }
    if s.on (Reg.LANE_STAT_LINK (64 + 4 * p)) then
      let r := sentSegments 648 (sget (dflt []) s.relay.out p)
      set { s with relay := { s.relay with out := sset (dflt []) s.relay.out p r.2 } } (r.1.flatMap segmentBytes)
    else set s []) s

end Sys2Proof.Machine
end

