-- ==== Sys2Proof/Machine/FrameSearch.lean ====
section
/-!
DEFINITION. The frame in the decoded stream (R180 to R182): the header test at a bit position, the candidates of the search, and the frame that comes next.
-/
namespace Sys2Proof.Machine

/-! ## The decoded stream -/

/-- The stream holds `k` bytes from bit position `p` on. -/
def ChordRx.has (x : ChordRx) (p k : Nat) : Bool :=
  decide (x.base ≤ p) && decide (p + 8 * k ≤ x.base + 8 * x.out.length)

/-- Two neighbouring bytes, the first `r` bits of the first left out, with the worse of their marks. -/
def shiftPair (r : Nat) (a b : Byte × Nat) : Byte × Nat :=
  (BitVec.ofNat 8 ((a.1.toNat * 256 + b.1.toNat) / 2 ^ (8 - r)), max a.2 b.2)

/-- `k` bytes of the stream from bit position `p` on, with their marks (R147). -/
def ChordRx.bytesAt (x : ChordRx) (p k : Nat) : List (Byte × Nat) :=
  let o := p - x.base
  let l := (x.out.drop (o / 8)).take (k + 1)
  if o % 8 = 0 then l.take k else ((l.zip l.tail).map fun (q : (Byte × Nat) × (Byte × Nat)) => shiftPair (o % 8) q.1 q.2).take k

/-- F: the bits of a frame of N columns (R159, R180). -/
def frameBits (slots : Nat) : Nat := 33280 * slots

/-- The overhead blocks at the head of a frame's bytes. -/
def headBlocks (slots : Nat) (bs : List (Byte × Nat)) : List (List (Byte × Nat)) :=
  (pieces 64 slots bs).1

/-- MFAS of a frame whose header passes (R180): the FAS exact, the CRC valid and the same MFAS in every column. -/
def headPass (seed : Nat) (blocks : List (List Byte)) : Option Nat :=
  let mfas := fieldBE (blocks.headD []) 6 1
  if blocks ≠ [] ∧ blocks.all fun b => decide (b.take 6 = fasBytes) && columnValid seed b && decide (fieldBE b 6 1 = mfas) then some mfas else none

/-- MFAS of a position that passes on engine `n` (R180). -/
def Dev.passAt (s : Dev) (n pos : Nat) : Option Nat :=
  let x := (s.rxe n).chord
  let k := s.rxSlots n
  if x.has pos (64 * k) then headPass (s.rd (Reg.FR_SEED_RX_SEED n)) ((headBlocks k (x.bytesAt pos (64 * k))).map (·.map (·.1))) else none

/-- The position at which a candidate is tested next. -/
def Dev.dueAt (s : Dev) (n : Nat) (c : Candidate) : Nat :=
  c.pos + c.passes * frameBits (s.rxSlots n)

/-! ## The search (Table 6.3) -/

/-- A position passes in a frame (R180, R182): a tracked candidate passes again; another one becomes a candidate, where fewer than 8 are tracked. A candidate whose MFAS has not
increased by 1 starts again from this pass. -/
def Dev.frPass (n pos : Nat) (s : Dev) : Dev :=
  if s.frs n = frIdle ∨ s.frs n = frAligned then s
  else
    match s.passAt n pos with
    | none => s
    | some mfas =>
      let cs := (s.fra n).cands
      if cs.any fun c => s.dueAt n c = pos then
        s.setCands n (cs.map fun c =>
          if s.dueAt n c = pos then
            if mfas = (c.mfas + 1) % 256 then { c with passes := c.passes + 1, mfas := mfas } else ⟨pos, 1, mfas, false⟩
          else c)
      else if cs.any fun c => decide (c.pos % frameBits (s.rxSlots n) = pos % frameBits (s.rxSlots n)) then s
      else
        let s := if cs.length < 8 then s.setCands n (cs ++ [⟨pos, 1, mfas, false⟩]) else s
        if s.frs n = frSearch then s.frGo n frConfirm else s

/-- 2 consecutive frames at the old position without a header miss in OOF (R182). -/
def Dev.frRecover (n : Nat) (s : Dev) : Dev :=
  if s.frs n = frOof ∧ 2 ≤ (s.fra n).oofGood then s.frAlign n (s.fra n).pos (s.fra n).mfas false else s

/-- The candidate that passed first at `pos`, where it has passed three times at the frame spacing (R180), is confirmed: ALIGNED where no other is tracked, AMBIGUOUS
otherwise; in OOF a realignment, unless two good frames at the old position
come first (R182). -/
def Dev.frConfirmAt (n pos : Nat) (s : Dev) : Dev :=
  match (s.fra n).cands.find? fun c => decide (c.pos = pos) && decide (3 ≤ c.passes) with
  | none => s
  | some c =>
    let alone := decide ((s.fra n).cands.length = 1)
    let d := s.setCands n ((s.fra n).cands.map fun x => if x.pos = pos then { x with confirmed := true } else x)
    if s.frs n = frConfirm then
      if alone then d.frAlign n (s.dueAt n c) (c.mfas + 1) true
      else (d.setFra n { d.fra n with ambig := c.passes + 64 }).frGo n frAmbiguous
    else if s.frs n = frOof ∧ alone then
      if 2 ≤ (s.fra n).oofGood then d.frRecover n
      else (d.frAlign n (s.dueAt n c) (c.mfas + 1) false).bump (Reg.FR_REALIGN_CNT n)
    else d

/-- The candidate that passed first at `pos` fails a pass where the stream has come so far (R180, R182); with the others gone, one that is confirmed in OOF is taken. An ambiguity that
ends with every candidate failed raises nothing and counts nothing, as Table 6.3 has it (DEDUCED, log 214). -/
def Dev.frFailAt (n pos : Nat) (s : Dev) : Dev :=
  let k := s.rxSlots n
  let fails (c : Candidate) : Bool :=
    decide (c.pos = pos) && (s.rxe n).chord.has (s.dueAt n c) (64 * k) && decide (s.passAt n (s.dueAt n c) ≠ some ((c.mfas + 1) % 256))
  if s.frs n = frIdle ∨ s.frs n = frAligned ∨ (s.fra n).cands.all fun c => !fails c then s
  else
    let s := s.setCands n ((s.fra n).cands.filter fun c => !fails c)
    match (s.fra n).cands with
    | [] => if s.frs n = frConfirm ∨ s.frs n = frAmbiguous then s.frGo n frSearch else s
    | [c] =>
      if s.frs n = frOof ∧ c.confirmed then
        if 2 ≤ (s.fra n).oofGood then s.frRecover n
        else (s.frAlign n (s.dueAt n c) (c.mfas + 1) false).bump (Reg.FR_REALIGN_CNT n)
      else s
    | _ => s

/-- 64 further frames in AMBIGUOUS (R182): ALIGNED with one confirmed candidate left, SEARCH with two or more still passing; SEARCH too once every one has failed. -/
def Dev.frResolve (n : Nat) (s : Dev) : Dev :=
  if s.frs n = frAmbiguous then
    let cs := (s.fra n).cands
    let done := cs.any fun c => c.confirmed && decide ((s.fra n).ambig ≤ c.passes)
    match cs with
    | [] => s.frGo n frSearch
    | [c] => if done then s.frAlign n (s.dueAt n c) (c.mfas + 1) false else s
    | _ => if done then ((s.bump (Reg.FR_AMBIG_CNT n)).frToSearch n).raise 18 (8 + n) else s
  else s

/-- 5 consecutive header misses in ALIGNED (R182). -/
def Dev.frMissOof (n : Nat) (s : Dev) : Dev :=
  if s.frs n = frAligned ∧ 5 ≤ (s.fra n).misses then ((s.bump (Reg.FR_OOF_CNT n)).frGo n frOof).settleCourses else s

/-! ## The next frame (R159, R160, R181) -/

/-- The bits in which two bytes differ. -/
def bitDiff (a b : Byte) : Nat :=
  (List.range 8).countP fun i => (a ^^^ b).getLsbD i

/-- A column shows the FAS with at most 2 bit errors. -/
def nearFas (b : List Byte) : Bool :=
  decide (b.length = 64) && decide (((b.zip fasBytes).map fun (p : Byte × Byte) => bitDiff p.1 p.2).sum ≤ 2)

/-- The MFAS that most of the columns show, the lowest column's where as many show another (DESIGN CHOICE, log 176). -/
def commonMfas (blocks : List (List Byte)) : Nat :=
  let ms := blocks.map fun b => fieldBE b 6 1
  ms.foldl (fun (best : Nat) (m : Nat) => if ms.count best < ms.count m then m else best) (ms.headD 0)

/-- A frame is a header miss (R181). -/
def headMiss (slots expected : Nat) (blocks : List (List Byte)) : Bool :=
  let good := blocks.filter nearFas
  decide (good.length < (3 * slots + 3) / 4) || decide (commonMfas good ≠ expected)

/-- The columns of a frame's bytes: their overhead, and their payload descrambled, with the worst marks (R147, R159, R160). -/
def frameColumns (slots : Nat) (bs : List (Byte × Nat)) : List Column :=
  let marks (l : List (Byte × Nat)) : Nat := l.foldl (fun a x => max a x.2) 0
  let rows := bs.drop (64 * slots)
  let clear := ((scrambleRows (rows.map (·.1))).zip (rows.map (·.2)))
  let blocks := (pieces 64 clear.length clear).1.toArray
  ((headBlocks slots bs).zip (List.range slots)).map fun (h : List (Byte × Nat) × Nat) =>
    let p := (List.range 64).flatMap fun r => blocks.getD (slots * r + h.2) []
    ⟨h.1.map (·.1), marks h.1, p.map (·.1), marks p⟩

/-- FR_CANDIDATE_PASS: a bit position of the decoded stream passes, where the header test finds it so, with the MFAS found there. -/
def execFrCandidatePass (n : Fin 8) (pos : Nat) (_mfas : Found) (s : State) : Out :=
  s.run fun s => s.frPass n pos

/-- FR_CANDIDATE_CONFIRM: the candidate that passed first at `pos`. -/
def execFrCandidateConfirm (n : Fin 8) (pos : Nat) (s : State) : Out :=
  s.run fun s => s.frConfirmAt n pos

/-- FR_CANDIDATE_FAIL: the candidate that passed first at `pos`. -/
def execFrCandidateFail (n : Fin 8) (pos : Nat) (s : State) : Out :=
  s.run fun s => s.frFailAt n pos

/-- FR_AMBIG_RESOLVE. -/
def execFrAmbigResolve (n : Fin 8) (s : State) : Out :=
  s.run fun s => s.frResolve n

/-- FR_HEADER_MISS_OOF. -/
def execFrHeaderMissOof (n : Fin 8) (s : State) : Out :=
  s.run fun s => s.frMissOof n

/-- FR_OOF_RECOVER. -/
def execFrOofRecover (n : Fin 8) (s : State) : Out :=
  s.run fun s => s.frRecover n

end Sys2Proof.Machine
end

