-- ==== Sys2Proof/Machine/Rebuild.lean ====
section
/-!
DEFINITION. The courses, receiving side (R163 to R191, R205, R213, R294, R295): received line frames, course overhead, rebuilding, checks,
decryption and delivery; and the arrival of copies at a Parallax pair (R199 to R206).
-/
namespace Sys2Proof.Machine

/-! ## Switching requests received (R177, R215, R218) -/

/-- Whether accepted SR bytes disagree with the pair's configuration (R218). -/
def Dev.srMismatch (s : Dev) (p sr : Nat) : Bool :=
  s.on (Reg.PAIR_DIR p) && (s.co (s.rd (Reg.PAIR_COURSE_B p))).srHas &&
    (!bitAt sr 1 || bitAt sr 2 || !bitAt sr 3 || bitAt sr 0 != s.on (Reg.PAIR_REVERT p))

/-- A pair looks at the SR value accepted on its course B (R215, R218). -/
def Dev.pairSr (p : Nat) (s : Dev) : Dev :=
  if s.pairMode p = 1 then
    let bad := s.srMismatch p (s.rd (Reg.CRSTAT_SR_ACC (s.rd (Reg.PAIR_COURSE_B p))))
    let s := if s.on (Reg.PSTAT_PROT_MISMATCH p) = bad then s
      else ((s.wrB (Reg.PSTAT_PROT_MISMATCH p) bad).raise 20 10)
    s.evalPair p (s.pr p).hadA
  else s

/-- An SR value of a good frame (R177): accepted when it has come three times running, and then held against the pair's configuration (R218). -/
def Dev.srIn (c sr : Nat) (s : Dev) : Dev :=
  let x := s.co c
  let n := if sr = x.srNew ∧ x.srSame ≠ 0 then x.srSame + 1 else 1
  let s := s.setCo c { x with srNew := sr, srSame := min n 3, srHas := x.srHas || decide (3 ≤ n) }
  if n = 3 ∨ 3 ≤ n ∧ sr ≠ s.rd (Reg.CRSTAT_SR_ACC c) then
    let s := if sr = s.rd (Reg.CRSTAT_SR_ACC c) then s else (s.wr (Reg.CRSTAT_SR_ACC c) sr).raise 19 4
    match s.pairOf c with
    | some p => if s.rd (Reg.PAIR_COURSE_B p) = c then s.pairSr p else s
    | none => s
  else s

/-! ## Trail identifiers (R173, R174) -/

/-- The part of a message that TIM_MODE compares. -/
def timPart (mode : Nat) (msg : List Byte) : List Byte :=
  match mode with
  | 0 => []
  | 1 => msg.take 16
  | 2 => (msg.drop 16).take 16
  | _ => msg.take 32

/-- One byte of a message collected; `byte` is none in a frame that is not good. Answers the collector, and whether three whole messages
running have been identical now. -/
def Tti.take (t : Tti) (mfas : Nat) (byte : Option Byte) : Tti × Bool :=
  let got := match byte with
    | none => none
    | some b => if mfas % 64 = 0 then some [b] else t.got.bind fun g => if g.length = mfas % 64 then some (g ++ [b]) else none
  match got with
  | some g =>
    if g.length = 64 then
      let n := if g = t.last then min (t.same + 1) 3 else 1
      ({ t with got := none, last := g, same := n }, decide (n = 3))
    else ({ t with got := some g }, false)
  | none => ({ t with got := none }, false)

/-- TIM of a course set from its section and path messages, and from overhead of the other mode where TIM_MODE is not 0, with E-19.02 (R174, R189, R190). -/
def Dev.showTim (c : Nat) (s : Dev) : Dev :=
  let x := s.co c
  (s.setCrsBit c (Reg.CRSTAT_TIM c) (some 2) (x.timSm || x.timPm || (x.timMode && decide (s.rxTimMode c ≠ 0)))).settleCourse c

/-- The expected message of a course. -/
def Dev.ttiExp (s : Dev) (c : Nat) : List Byte :=
  (s.words (Reg.TTI_EXP_W0 c).cell 16).flatMap fun w => bytesLE 4 w.toNat

/-- A byte of the course's trail identifier arrives, none where the frame is not good (R174). -/
def Dev.ttiIn (c mfas : Nat) (byte : Option Byte) (s : Dev) : Dev :=
  let r := (s.co c).sm.take mfas byte
  let s := s.setCo c { s.co c with sm := r.1 }
  if r.2 then
    let msg := r.1.last
    let new := decide (msg ≠ r.1.accepted ∨ ¬ r.1.valid)
    let tim := timPart (s.rxTimMode c) msg ≠ timPart (s.rxTimMode c) (s.ttiExp c)
    let s := s.setCo c { s.co c with sm := { r.1 with accepted := msg, valid := true }, timSm := decide tim }
    let s := s.setWords (Reg.TTI_ACC_W0 c).cell ((List.range 16).map fun k => BitVec.ofNat 32 (fieldLE msg (4 * k) 4))
    let s := (s.setCrsBit c (Reg.CRSTAT_TTI_VALID c) none true).raiseIf new 19 6
    s.showTim c
  else s

/-- A byte of the path message in OTUCn-compatible mode (Table 6.5). -/
def Dev.pmIn (c mfas : Nat) (byte : Option Byte) (s : Dev) : Dev :=
  let r := (s.co c).pm.take mfas byte
  let s := s.setCo c { s.co c with pm := r.1 }
  if r.2 then
    let msg := r.1.last
    let tim := timPart (s.rxTimMode c) msg ≠ timPart (s.rxTimMode c) (s.ttiExp c)
    (s.setCo c { s.co c with pm := { r.1 with accepted := msg, valid := true }, timPm := decide tim }).showTim c
  else s

/-! ## Runs of frames (R172, R176, Table 6.4) -/

/-- One more frame for a condition, or against it. -/
def Runs.take (r : Runs) (bad : Bool) : Runs :=
  if bad then ⟨r.bad + 1, 0⟩ else ⟨0, r.good + 1⟩

/-- BDI received: declared and cleared after 5 consecutive good frames (R176). -/
def Dev.bdiIn (c : Nat) (bdi : Bool) (s : Dev) : Dev :=
  let r := (s.co c).bdi.take bdi
  let s := s.setCo c { s.co c with bdi := r }
  if 5 ≤ r.bad then s.setCrsBit c (Reg.CRSTAT_BDI_RX c) (some 3) true
  else if 5 ≤ r.good then s.setCrsBit c (Reg.CRSTAT_BDI_RX c) (some 3) false
  else s

/-- STAT_NOK: declared and cleared after 3 consecutive good frames (Table 6.4). -/
def Dev.nokIn (c : Nat) (nok : Bool) (s : Dev) : Dev :=
  let r := (s.co c).nok.take nok
  let s := s.setCo c { s.co c with nok := r }
  if 3 ≤ r.bad then (s.setCrsBit c (Reg.CRSTAT_STAT_NOK c) none true).settleCourse c
  else if 3 ≤ r.good then (s.setCrsBit c (Reg.CRSTAT_STAT_NOK c) none false).settleCourse c
  else s

/-- Whether a lead column has overhead of the other mode: the byte that holds PM STAT, sent as 0b001 in OTUCn-compatible mode and 0 in native mode
(R190; DEDUCED, log 179). -/
def otherMode (otu : Bool) (b : List Byte) : Bool :=
  if otu then decide (fieldBE b 22 1 = 0) else decide (fieldBE b 22 1 % 8 = 1)

/-- TIM for overhead of the other mode: declared and cleared after 3 consecutive good frames (R190; DEDUCED, log 179). -/
def Dev.modeIn (c : Nat) (other : Bool) (s : Dev) : Dev :=
  let x := s.co c
  let r := x.otherMode.take other
  let s := s.setCo c { x with otherMode := ⟨min r.bad 3, min r.good 3⟩, timMode := if 3 ≤ r.bad then true else if 3 ≤ r.good then false else x.timMode }
  if (s.co c).timMode = x.timMode then s else s.showTim c

/-- One engine's columns of course `c` taken: those of a frame that has every member engine are held against the map as one course frame, and so are those at hand when
an engine brings the next frame's (Table 6.4). A frame without an accepted column counts neither way (DESIGN CHOICE, log 83). -/
def Msim.take (x : Msim) (engines : List Nat) (n : Nat) (any bad : Bool) : Msim :=
  let close (x : Msim) : Msim :=
    ⟨if x.any then let r := x.runs.take x.bad; ⟨min r.bad 8, min r.good 8⟩ else x.runs, [], false, false⟩
  let x := if x.engines.contains n then close x else x
  let x : Msim := { x with engines := x.engines ++ [n], any := x.any || any, bad := x.bad || bad }
  if engines.all x.engines.contains then close x else x

/-- MSIM of course `c` after a frame of engine `n`: declared when its columns have been wrong in 8 consecutive course frames,
cleared when they have been right in 8 (Table 6.4). -/
def Dev.msimIn (c n : Nat) (any bad : Bool) (s : Dev) : Dev :=
  let m := (s.co c).msim.take ((s.rxSlotsOf c).map (· / 64)) n any bad
  let s := s.setCo c { s.co c with msim := m }
  if m.runs.bad = 8 then (s.setCrsBit c (Reg.CRSTAT_MSIM c) (some 5) true).settleCourse c
  else if m.runs.good = 8 then (s.setCrsBit c (Reg.CRSTAT_MSIM c) (some 5) false).settleCourse c
  else s

/-! ## CTS (R354, R355) -/

/-- The receive instant of a frame on engine `n` (R354), 2^-16 ns: `seen` is the TIME at which the deframer sees the reference bit, `front` and `back`
are τ_front and τ_back that its blocks carry (R89, R104). In twin mode it is referred to the even carrier. -/
def Dev.rxInstant (s : Dev) (n seen : Nat) (front back : Int) : Int :=
  let skew := if s.rxTwin n ∧ n % 2 = 1 then s.walkOff n * 65536 / 1000 else 0
  (seen : Int) - front - back - s.rd Reg.RXFIX_NS - 4200 * 65536 - skew

/-- A timestamp of 12 bytes in 2^-16 ns. -/
def timeOfBytes (b : List Byte) : Nat :=
  (fieldBE b 0 6 * 1000000000 + fieldBE b 6 4) * 65536 + fieldBE b 10 2

/-- An entry of CTS[c]: the difference between the receive instant and the received TS (R355). -/
def Dev.ctsIn (c : Nat) (d : Int) (s : Dev) : Dev :=
  let l := (d :: (s.co c).cts).take 256
  let s := s.setCo c { s.co c with cts := l }
  let s := ((s.wr (Reg.CTS_VALID c) 1).wr64 (Reg.CTS_LAST_LO c) (unsign 64 d)).wr64 (Reg.CTS_MEAN_LO c) (unsign 64 (l.sum / (l.length : Int)))
  s.bump (Reg.CTS_FRAMES c)

/-! ## RX_FRAME (R163) -/

/-- A good lead column of course `c`: its overhead is taken (R173 to R179, R189). -/
def Dev.leadIn (c n mfas : Nat) (rx : Int) (b : List Byte) (s : Dev) : Dev :=
  let byte (k : Nat) : Byte := BitVec.ofNat 8 (fieldBE b k 1)
  let otu := decide (s.ohRx n = 1)
  let s := (s.ttiIn c mfas (some (byte 17))).modeIn c (otherMode otu b)
  let s := s.bdiIn c (if otu then bitAt (fieldBE b 19 1) 3 else bitAt (fieldBE b 18 1) 7)
  let s := if otu then
      let bei (k : Nat) : Nat := let v := fieldBE b k 1 / 16; if v ≤ 8 then v else 0
      let s := (s.pmIn c mfas (some (byte 20))).nokIn c (decide (fieldBE b 22 1 % 8 ≠ 1))
      s.bumpBy (Reg.CRSTAT_BEI_RX c) (bei 19 + bei 22)
    else s
  let s := s.srIn c (if otu then fieldLE b 23 4 else fieldLE b 19 4)
  if bitAt (fieldBE b 7 1) 4 then s.ctsIn c (rx - timeOfBytes (sliceBytes b (if otu then 27 else 23) 12)) else s

/-- A frame that is not good for course `c`: its trail messages are discarded and its filters start again. -/
def Dev.leadBad (c mfas : Nat) (s : Dev) : Dev :=
  let s := (s.ttiIn c mfas none).pmIn c mfas none
  let x := s.co c
  s.setCo c { x with srSame := 0, bdi := ⟨0, 0⟩, nok := ⟨0, 0⟩, otherMode := ⟨0, 0⟩ }

/-- Whether an accepted column agrees with the receive copy of slot `k` (Table 6.4). -/
def Dev.columnFits (s : Dev) (k : Nat) (b : List Byte) : Bool :=
  decide (fieldBE b 7 1 / 64 ≠ 0) && decide (fieldBE b 8 2 = s.rd (rxSlotField k 1 9) * 128 + s.rd (rxSlotField k 10 7)) &&
    decide (fieldBE b 10 1 % 128 = s.rd (rxSlotField k 17 7))

/-- One received column of engine `n` in slot `k`: its overhead checked and, where the map gives the slot to a course, its blocks held for the
course frame of its serial (R163, R170). A column without accepted overhead takes the serial after the last one of its slot (DESIGN CHOICE,
log 30). -/
def Dev.columnIn (k mfas arrived : Nat) (rx : Int) (col : Column) (s : Dev) : Dev :=
  let n := k / 64
  let ok := columnValid (s.rd (Reg.FR_SEED_RX_SEED n)) col.overhead && decide (col.ohMark < 2)
  let s := if ok then s else s.bump (Reg.FR_COL_ERR_CNT n)
  match s.rxCourse k with
  | none => s
  | some c =>
    let j := s.rd (rxSlotField k 10 7)
    let serial := if ok then fieldBE col.overhead 11 6 else (sget (dflt 0) s.colSerial k + 1) % 2 ^ 48
    let m : Member := ⟨serial, j, ok, ok && bitAt (fieldBE col.overhead 7 1) 5, max col.mark col.ohMark, sliceBytes col.payload 0 4096,
      if ok then col.overhead else [], arrived⟩
    let s := { s with colSerial := sset (dflt 0) s.colSerial k serial }
    let s := s.setCo c { s.co c with held := (s.co c).held ++ [m] }
    if j = 0 then if ok then s.leadIn c n mfas rx col.overhead else s.leadBad c mfas else s

/-- The columns of a frame taken, slot after slot. -/
def Dev.columnsIn (mfas arrived : Nat) (rx : Int) : Nat → List Column → Dev → Dev
  | _, [], s => s
  | k, col :: r, s => Dev.columnsIn mfas arrived rx (k + 1) r (s.columnIn k mfas arrived rx col)

/-- MSIM of the courses that the map gives columns of engine `n` to, after a frame. -/
def Dev.msimAll (n : Nat) (cols : List Column) (s : Dev) : Dev :=
  let seed := s.rd (Reg.FR_SEED_RX_SEED n)
  let idx := (List.range cols.length).filterMap fun j => (s.rxCourse (64 * n + j)).map fun c => (c, j)
  ((idx.map (·.1)).dedup).foldl (fun s c =>
    let mine := idx.filter fun (e : Nat × Nat) => e.1 = c
    let cs := mine.filterMap fun (e : Nat × Nat) => (cols[e.2]?).map fun x => (e.2, x)
    let acc := cs.filter fun (e : Nat × Column) => columnValid seed e.2.overhead && decide (e.2.ohMark < 2)
    s.msimIn c n (decide (acc ≠ [])) (acc.any fun (e : Nat × Column) => !s.columnFits (64 * n + e.1) e.2.overhead)) s

/-- A course that is received in native mode again has no path overhead (R189, R190). -/
def Dev.pathEnds (c : Nat) (s : Dev) : Dev :=
  let s := s.setCo c { s.co c with pm := Tti.reset, timPm := false, nok := ⟨0, 0⟩ }
  (s.setCrsBit c (Reg.CRSTAT_STAT_NOK c) none false).showTim c

/-- A received multiframe begins on engine `n` (R167, R190). -/
def Dev.multiframeIn (n : Nat) (s : Dev) : Dev :=
  let d := s.rxBoundary n
  if s.ohRx n = 1 ∧ d.ohRx n = 0 then (d.rxCourses.filter fun c => decide (d.leadEngine c = n)).foldl (fun d c => d.pathEnds c) d else d

/-- A line frame delivered in ALIGNED with a multiframe count: its columns are taken (R163, R181). `delays`: τ_front and τ_back that
the symbols of its reference bit carried (R89, R104). -/
def Dev.frameIn (n mfas : Nat) (cols : List Column) (arrived seen : Nat) (delays : Int × Int) (s : Dev) : Dev :=
  let s := s.colApply (.frame n)
  let s := if mfas = 0 then s.multiframeIn n else s
  let s := s.wr (Reg.FR_MFAS_RX n) mfas
  let rx := s.rxInstant n seen delays.1 delays.2
  ((s.columnsIn mfas arrived rx (64 * n) cols).msimAll n cols).tick

/-- The frame that comes next at the position of the aligner (R181, R182): held against the header test, and delivered in ALIGNED; in OOF the old position is watched. -/
def Dev.rxFrame (n arrived seen : Nat) (s : Dev) : Dev :=
  let f := s.fra n
  let k := s.rxSlots n
  let x := (s.rxe n).chord
  if (s.frs n = frAligned ∨ s.frs n = frOof) ∧ x.has f.pos (4160 * k) then
    let bs := x.bytesAt f.pos (4160 * k)
    let miss := headMiss k f.mfas ((headBlocks k bs).map (·.map (·.1)))
    let d := s.setFra n { f with
      pos := f.pos + frameBits k, mfas := (f.mfas + 1) % 256
      misses := if miss then f.misses + 1 else 0, oofGood := if miss then 0 else f.oofGood + 1 }
    if s.frs n = frAligned then d.frameIn n f.mfas (frameColumns k bs) arrived seen (x.delayAt f.pos) else d
  else s

/-- RX_FRAME: the next line frame of engine `n` in the decoded stream, the HUB time of its arrival in ns, and the TIME at which the deframer saw its reference bit,
2^-16 ns. MFAS and the columns are found in the stream, τ_front and τ_back with the symbols that brought it (R89, R104). -/
def execRxFrame (n : Fin 8) (_mfas _columns : Found) (arrived seen : Nat) (_front _back : Found) (s : State) : Out :=
  s.run fun s => s.rxFrame n arrived seen

/-! ## Copies checked (R185, R205, R294) -/

/-- What the checks of R294 make of a copy: valid or not, and whether KS is known and the tag has been verified. -/
structure Copy where
  serial : Nat
  ks : Bool
  ksKnown : Bool
  verdict : Nat
  valid : Bool
  /-- the two computations of its decryption differ (R301) -/
  decFail : Bool
  frame : List Byte
  deriving DecidableEq, Repr

/-- KS of a frame: the majority of the accepted columns, a tie decided by the lowest accepted member; none where none is accepted (R178). -/
def ksOf (ms : List Member) : Option Bool :=
  let acc := ms.filter (·.accepted)
  let on := (acc.filter (·.ks)).length
  if acc = [] then none
  else if 2 * on = acc.length then acc.head?.map (·.ks)
  else some (decide (acc.length < 2 * on))

/-- A verified frame's key: its slot ACTIVE and used, and KS_RX with the other slot's retirement (R294). -/
def Dev.keyVerified (c : Nat) (ks : Bool) (s : Dev) : Dev :=
  let k := s.rxSlot c (ofBool ks)
  let s := s.useKey k
  if s.on (Reg.CSTAT_KS_RX c) = ks then s
  else
    let o := s.rxSlot c (1 - ofBool ks)
    let s := if (s.key o).state = keyActive ∧ o ≠ k then s.keyState o keySpent else s
    (s.wrB (Reg.CSTAT_KS_RX c) ks).raise 21 13

/-- A mismatch of the two computations on a frame of course `a` counted (R301). -/
def Dev.checkFailed (a : Nat) (s : Dev) : Dev :=
  ((s.bump (Reg.CSTAT_CHECK_FAIL a)).bump Reg.CHK_FAIL_COURSE).raise 21 7

/-- A frame of course `a` received: the receive slots of its entry that wait for it are in force (R303, log 55). -/
def Dev.keyFrameIn (a : Nat) (s : Dev) : Dev :=
  s.putWaiting fun x => decide (x.page = 0x291) && decide (x.bnd = .rxFrame) && decide (x.cell = (Reg.CKEY_RX_SLOT0 a).cell)

/-- The checks of R294 on a copy of course `c`'s frame, made under the CKEY entry of course `a` (R197). `checkFail`: the two computations differed
(R301). Answers whether it passes. -/
def Dev.copyChecks (a m serial : Nat) (ks : Option Bool) (checkFail : CheckAt) (frame : List Byte) (s : Dev) : Bool × Dev :=
  let cb := sliceBytes frame (4096 * m - 64) 64
  let flags := fieldBE cb 24 1
  let enc := s.on (Reg.CKEY_ENC a)
  if decide (bitAt flags 0 ≠ enc) || bitAt flags 1 || bitAt flags 2 then (false, (s.bump (Reg.CSTAT_FLAG_REJ a)).raise 21 5)
  else match ks with
    | none => (false, s)
    | some b =>
      if !enc then (true, s)
      else
        let slot := s.key (s.rxSlot a (ofBool b))
        if slot.state = keyEmpty ∨ slot.role ≠ roleRx then (false, (s.bump (Reg.CSTAT_NO_KEY a)).raise 21 5)
        else if checkFail = .tag then (false, s.checkFailed a)
        else
          let ctr := fieldBE cb 16 8
          if gcmTag slot.key (cipherIv 0 a ctr) (cipherAad a serial (ofBool b) m) (frame.take (4096 * m - 64)) = cb.take 16 then
            (true, s.keyVerified a b)
          else (false, (s.bump (Reg.CSTAT_TAG_FAIL a)).raise 21 4)

/-! ## Decryption and delivery (R186, R295) -/

/-- The plaintext of a frame of course `a`, of M members, whose tag has been found right (R295). -/
def Dev.plaintext (s : Dev) (a m : Nat) (ks : Bool) (frame : List Byte) : List Byte :=
  let body := frame.take (4096 * m - 64)
  if s.on (Reg.CKEY_ENC a) then
    aesCtr (s.key (s.rxSlot a (ofBool ks))).key (cipherIv 0 a (fieldBE frame (4096 * m - 48) 8)) 2 body
  else body

/-- A frame delivered under course `a`'s keys into its packet stream, or withheld as a replay (R295), or because its key has gone since its tag was checked (R287;
DEDUCED, log 193). -/
def Dev.deliver (a m serial : Nat) (ks : Bool) (frame : List Byte) (s : Dev) : Dev :=
  let body := frame.take (4096 * m - 64)
  let done (s : Dev) : Dev := s.setCo a { s.co a with delivered := some serial }
  if s.on (Reg.CKEY_ENC a) then
    let ctr := fieldBE frame (4096 * m - 48) 8
    let slot := s.key (s.rxSlot a (ofBool ks))
    if slot.state = keyEmpty ∨ slot.role ≠ roleRx then ((s.bump (Reg.CSTAT_NO_KEY a)).raise 21 5).streamMissed a m serial none
    else if ctr ≤ s.rd64 (Reg.CSTAT_RX_LAST_LO a) then ((s.bump (Reg.CSTAT_REPLAY a)).raise 21 6).streamMissed a m serial none
    else
      let s := s.wr64 (Reg.CSTAT_RX_LAST_LO a) ctr
      (done s).streamIn a m serial (s.plaintext a m ks frame)
  else (done s).streamIn a m serial body

/-- A frame of course `a` decrypted and delivered; where the two computations differ it is withheld and counted (R301). -/
def Dev.decrypt (a m serial : Nat) (ks checkFail : Bool) (frame : List Byte) (s : Dev) : Dev :=
  if checkFail ∧ s.on (Reg.CKEY_ENC a) then (s.checkFailed a).streamMissed a m serial none
  else s.deliver a m serial ks frame

/-- Frame fail after one more frame of course `c` (R213). -/
def Dev.ffIn (c : Nat) (invalid : Bool) (s : Dev) : Dev :=
  let r := (s.co c).ff.take invalid
  let was := (s.co c).inFf
  let now := if 3 ≤ r.bad then true else if 8 ≤ r.good then false else was
  let s := s.setCo c { s.co c with ff := ⟨min r.bad 3, min r.good 8⟩, inFf := now }
  if now = was then s else s.courseToPairs c

/-! ## A copy reaches Parallax (R199 to R206) -/

/-- `a` less `b` as serials modulo 2^48 (R169). -/
def serialDiff (a b : Nat) : Int :=
  signed 48 ((a + 2 ^ 48 - b) % 2 ^ 48)

/-- G of a serial on a stretch of the grid, 2^-16 ns: 1.28 µs per serial, at the rate of the loop (R199). -/
def GridSeg.at (g : GridSeg) (serial : Nat) : Int :=
  let d := serialDiff serial g.serial * frameSpan
  g.start + d + d * g.ppb / 1000000000

/-- G of a serial, 2^-16 ns: on the stretch that it falls in (R199). -/
def gridAt : List GridSeg → Nat → Int
  | [], _ => 0
  | [g], serial => g.at serial
  | g :: h :: r, serial => if 0 ≤ serialDiff serial g.serial then g.at serial else gridAt (h :: r) serial

/-- The grid goes on at a new rate from the serial that is due at an arrival (HUB ns) on; G is never stepped (R199). -/
def steer (keep : Nat) (gs : List GridSeg) (arrived : Nat) (ppb : Int) : List GridSeg :=
  match gs with
  | [] => []
  | g :: r =>
    let k := (((arrived * 65536 : Nat) : Int) - g.start) / frameSpan
    let n := (g.serial + k.toNat) % 2 ^ 48
    if 1 ≤ k then (⟨n, g.at n, ppb⟩ :: gs).take keep else { g with ppb := ppb } :: r

/-- The slots of a pair's ring (R206). -/
def Dev.ringSlots (s : Dev) (p : Nat) : Nat :=
  s.rd (Reg.PAIR_BUDGET_FR p) + 4

/-- The release delay of a pair from G, ns (R201). -/
def Dev.releaseDelay (s : Dev) (p : Nat) : Nat :=
  s.ringSlots p * 1280

/-- D of a serial, 2^-16 ns (R202). -/
def Dev.decisionAt (s : Dev) (p serial : Nat) : Int :=
  gridAt (s.pr p).grid serial + ((s.releaseDelay p : Int) - 2560) * 65536

/-- A HUB cycle, 1 / 1.6 GHz, in 2^-16 ns (Table 1.4). -/
def hubCycle : Nat := 40960

/-- The HUB cycle in which a copy stamped `arrived` (ns) reaches Parallax, counted from clock 0. -/
def hubCycleOf (arrived : Nat) : Int :=
  (arrived * 65536 : Nat) / hubCycle

/-- The HUB cycle that contains D of a serial (R202). -/
def Dev.decisionCycle (s : Dev) (p serial : Nat) : Int :=
  s.decisionAt p serial / hubCycle

/-- A path's mean offset over its last 256 valid copies; before 256 have come, over those at hand (R200; DESIGN CHOICE, log 217). -/
def PairPath.offset (w : PairPath) : Int :=
  if w.offsets = [] then 0 else w.offsets.sum / (w.offsets.length : Int)

/-- A rate within the pull of ±25 ppm (R199). -/
def pullLimit (ppb : Int) : Int :=
  max (-25000) (min 25000 ppb)

/-- The integral gain of the grid's loop for one copy, 10^-18 per ns of error: a free value up to (2π × 1 Hz)² × 1.28 µs, since R199 gives the loop's bandwidth alone (log 3,
log 218). -/
def loopGain : Nat :=
  Config.freeOf 105 [] % 50533

/-- The integral part of the loop's rate after a copy `err` ns off, kept within the pull. -/
def rateAfter (rate err : Int) : Int :=
  max (-25000000000000) (min 25000000000000 (rate + err * loopGain))

/-- The rate of the grid after that, parts per 10^9: 2π × 1 Hz of the error, and the integral part (R199). -/
def gridRate (rate err : Int) : Int :=
  pullLimit (err * 6283 / 1000 + rate / 1000000000)

/-- PSTAT.DIFF_NS, LEAD, A_OK and B_OK shown (R200). -/
def Dev.showPaths (p : Nat) (s : Dev) : Dev :=
  let x := s.pr p
  let d := x.b.offset - x.a.offset
  let s := (s.wrS (Reg.PSTAT_DIFF_NS p) d).wrB (Reg.PSTAT_LEAD p) (d < 0)
  (s.wrB (Reg.PSTAT_A_OK p) x.a.contributing).wrB (Reg.PSTAT_B_OK p) x.b.contributing

/-- The path of course B, or of course A, of a pair. -/
def Pair.path (x : Pair) (fromB : Bool) : PairPath :=
  if fromB then x.b else x.a

/-- The pair with a path changed. -/
def Pair.setPath (x : Pair) (fromB : Bool) (w : PairPath) : Pair :=
  if fromB then { x with b := w } else { x with a := w }

/-- One flag of R204 after a copy: set when more than half of the last 256 copies of the path are of the code, cleared when none of either
path is. -/
def Dev.timingFlag (p code : Nat) (fromB : Bool) (f : Field) (s : Dev) : Dev :=
  let x := s.pr p
  let n := ((x.path fromB).timing.filter (· = code)).length
  let none_ := !(x.a.timing.contains code) && !(x.b.timing.contains code)
  let v := if 128 < n then true else if none_ then false else s.on f
  if s.on f = v then s else (s.wrB f v).raise 20 3

/-- A copy's timing entered in its path's last 256, with both flags (R203, R204). -/
def Dev.timingIn (p code : Nat) (fromB : Bool) (s : Dev) : Dev :=
  let x := s.pr p
  let w := x.path fromB
  let s := s.setPr p (x.setPath fromB { w with timing := (code :: w.timing).take 256 })
  (s.timingFlag p 1 fromB (Reg.PSTAT_DD_EXCEEDED p)).timingFlag p 2 fromB (Reg.PSTAT_EARLY_FLAG p)

/-- The state that the contributing paths give a running pair (Table 7.2). -/
def Dev.pathsState (p : Nat) (s : Dev) : Dev :=
  let x := s.pr p
  let st := s.rd (Reg.PSTAT_STATE p)
  let want :=
    if x.a.contributing && x.b.contributing then parMerged
    else if x.a.contributing || x.b.contributing then parSingle
    else if st = parLost then parLost else st
  (if want = st then s else s.pairGo p want).showPaths p

/-- What a slot holds after a copy that takes part has come (R206): class 1 is always written, class 2 into an empty slot only; of two copies of one HUB
cycle, A is written first. -/
def Slot.after (x : Slot) : Option Slot → Slot
  | none => x
  | some y =>
    if y.fromB && !x.fromB && decide (hubCycleOf y.arrived = hubCycleOf x.arrived) then (if y.cls = 1 then y else x)
    else if x.cls = 2 then y else x

/-- A copy that takes part is written to its slot of the ring (R206). -/
def putSlot (ring : Nat) (slots : List Slot) (x : Slot) : List Slot :=
  slots.filter (fun y => decide (y.serial % ring ≠ x.serial % ring)) ++ [x.after (slots.find? fun y => decide (y.serial = x.serial))]

/-- A copy that reaches Parallax in the cycle of D, its slot having been read already: it goes straight to the release stage (R202). -/
def Decision.retake (r : Decision) (x : Slot) : Decision :=
  if r.serial = x.serial then
    let z := x.after r.content
    { r with content := some z, poisoned := r.poisoned && decide (z ≠ x) }
  else r

/-- The pair with a copy that takes part stored (R202, R206). -/
def Dev.stored (s : Dev) (p : Nat) (x : Slot) (y : Pair) : Pair :=
  match y.decided with
  | some d =>
    if 0 < serialDiff x.serial d then { y with slots := putSlot (s.ringSlots p) y.slots x } else { y with ready := y.ready.map fun r => r.retake x }
  | none => { y with slots := putSlot (s.ringSlots p) y.slots x }

/-- A valid copy on a running grid counted for its path: its offset, its run of serials, and where eight in a row have come its contribution; the loop
of the grid follows it (R199). -/
def Dev.copyTaken (p : Nat) (fromB : Bool) (slot : Slot) (s : Dev) : Dev :=
  let x := s.pr p
  let w := x.path fromB
  let off := (((slot.arrived * 65536 : Nat) : Int) - gridAt x.grid slot.serial) / 65536
  let n := match w.last with
    | some l => if slot.serial = (l + 1) % 2 ^ 48 then min (w.ok + 1) 8 else 1
    | none => 1
  let w := { w with ok := n, missed := 0, last := some slot.serial, offsets := (off :: w.offsets).take 256, contributing := w.contributing || decide (8 ≤ n) }
  let err := off - (x.path fromB).offset
  let rate := rateAfter x.rate err
  let y := { x.setPath fromB w with rate := rate, grid := steer (2 * s.ringSlots p) x.grid slot.arrived (gridRate rate err) }
  (s.setPr p (s.stored p slot y)).pathsState p

/-- A valid copy in ACQUIRE, written to its slot: with its partner already there the grid is set from the earlier one and the pair is MERGED; otherwise it
waits (Table 7.2, R200, R206). -/
def Dev.copyAcquire (p : Nat) (fromB : Bool) (slot : Slot) (s : Dev) : Dev :=
  let x := s.pr p
  let slots := putSlot (s.ringSlots p) x.slots slot
  let arrived : Int := slot.arrived
  match x.firsts.find? fun (e : Bool × Nat × Int) => e.1 != fromB && decide (e.2.1 = slot.serial) with
  | none => s.setPr p { x with firsts := x.firsts ++ [(fromB, slot.serial, arrived)], slots := slots }
  | some e =>
    let g := min e.2.2 arrived
    let w (b : Bool) (o : Int) : PairPath := { (x.path b).anew with contributing := true, ok := 8, last := some slot.serial, offsets := [o] }
    let s := s.pairGo p parMerged
    let y := (({ s.pr p with
        grid := [⟨slot.serial, g * 65536, 0⟩], firsts := [], decided := some slot.serial
        slots := slots.filter fun y => decide (0 < serialDiff y.serial slot.serial) }).setPath fromB (w fromB (arrived - g))).setPath
      (!fromB) (w (!fromB) (e.2.2 - g))
    (s.setPr p y).showPaths p

/-- How a copy lies to its serial's window: 0 in time, 1 late, 2 early (R202, R203); 0 while the pair has no grid. -/
def Dev.copyTiming (s : Dev) (p serial arrived : Nat) : Nat :=
  let g := (s.pr p).grid
  if s.rd (Reg.PSTAT_STATE p) < parMerged ∨ g = [] then 0
  else if ((arrived * 65536 : Nat) : Int) < gridAt g serial - frameSpan then 2
  else if s.decisionCycle p serial < hubCycleOf arrived then 1
  else 0

/-- A copy reaches the Parallax stage of pair `p` (R202 to R206). Its class is 0 for an invalid copy. -/
def Dev.copyArrive (p : Nat) (fromB : Bool) (slot : Slot) (s : Dev) : Dev :=
  let st := s.rd (Reg.PSTAT_STATE p)
  if st = parIdle then s
  else if st = parAcquire then if slot.cls = 0 then s else s.copyAcquire p fromB slot
  else
    let c := if fromB then s.rd (Reg.PAIR_COURSE_B p) else s.rd (Reg.PAIR_COURSE_A p)
    match s.copyTiming p slot.serial slot.arrived with
    | 2 => ((s.bump (Reg.PSTAT_EARLY p)).raise 20 5).timingIn p 2 fromB
    | 1 => ((s.bump (Reg.PSTAT_LATE p)).raiseIf (!s.on (Reg.CRSTAT_SF c)) 20 4).timingIn p 1 fromB
    | _ =>
      let s := s.timingIn p 0 fromB
      if slot.cls = 0 then s else s.copyTaken p fromB slot

/-! ## COURSE_FRAME_REBUILD (R170, R172, R185, R186) -/

/-- BIP-8 of a received frame kept, and those that its lead column names for section and path compared with the frame two serials before (Table 6.5); the violations of
both are counted and returned in the next frame sent (DESIGN CHOICE, log 178). -/
def Dev.bipIn (c serial : Nat) (lead : List Byte) (frame : List Byte) (s : Dev) : Dev :=
  let x := s.co c
  let s := s.setCo c { x with bipRx := ((serial, bip8 frame) :: x.bipRx).take 4 }
  if s.ohRx (s.leadEngine c) = 1 ∧ lead ≠ [] then
    match x.bipRx.find? fun (e : Nat × Nat) => (e.1 + 2) % 2 ^ 48 = serial with
    | some e =>
      let v (k : Nat) : Nat := popCount 8 (e.2 ^^^ fieldBE lead k 1)
      (s.bumpBy (Reg.CRSTAT_BIP_ERR c) (v 18 + v 21)).setCo c { s.co c with bei := v 18, beiPm := v 21 }
    | none => s
  else s

/-- LOA after a frame was rebuilt whole or discarded (R172). -/
def Dev.loaIn (c : Nat) (bad : Bool) (s : Dev) : Dev :=
  let r := (s.co c).loa.take bad
  let s := s.setCo c { s.co c with loa := ⟨min r.bad 8, min r.good 8⟩ }
  if 8 ≤ r.bad then (s.setCrsBit c (Reg.CRSTAT_LOA c) (some 5) true).settleCourse c
  else if 8 ≤ r.good then (s.setCrsBit c (Reg.CRSTAT_LOA c) (some 5) false).settleCourse c
  else s

/-- A column that joins a relay slot at row `p` of the lane frame under way: the rows before it stay what the slot carried (R399). -/
def RelayColumn.join (old : RelayColumn) (p : Nat) (col : List (List Byte × Nat)) : RelayColumn :=
  let before := (old.rows.take p ++ List.replicate (p - old.rows.length) (List.replicate 64 0, 2))
  ⟨(65 - p) % 65, before ++ col.take (65 - p), col.drop (65 - p)⟩

/-- What the slot carries in the next lane frame where nothing new has come: the rest of its column, then FAILED blocks; idle without a rest. -/
def RelayColumn.goOn (old : RelayColumn) : RelayColumn :=
  if old.rest = [] then RelayColumn.idle
  else ⟨(65 - old.rest.length) % 65, old.rest ++ List.replicate (65 - old.rest.length) (List.replicate 64 0, 2), []⟩

/-- The relay slots that carry received members of line courses, at a lane frame's start: no column is sent twice (R398). -/
def Dev.exportsTick (s : Dev) : Dev :=
  ((s.listed tableRTX).filter fun k => s.rd (Reg.RTX_KIND k) = 3).foldl (fun s k =>
    s.setRelayTx k (sget (dflt RelayColumn.idle) s.relay.tx k).goOn) s

/-- The relay slots that carry members of course `c` on towards their framing device: each column as received (R398), its row 0 in the first
relay row that starts once the frame is rebuilt, at HUB time `arrived` (R399, log 203). -/
def Dev.exportCourse (c arrived : Nat) (ms : List Member) (s : Dev) : Dev :=
  let p := ceilDiv ((arrived - s.clock) * 65) 1280 % 65
  ((s.listed tableRTX).filter fun k => s.rd (Reg.RTX_KIND k) = 3 && decide (s.rd (Reg.RTX_COURSE k) = c)).foldl (fun s k =>
    match ms.find? fun (m : Member) => m.member = s.rd (Reg.RTX_MEMBER k) with
    | some m =>
      let head := if m.accepted then sealColumn 0xFFFF m.head else List.replicate 64 0
      s.setRelayTx k ((sget (dflt RelayColumn.idle) s.relay.tx k).join p
        ((head, m.mark) :: (List.range 64).map (fun r => (sliceBytes m.payload (64 * r) 64, m.mark))))
    | none => s) s

/-- Whether a line course's cipher is bypassed because the relay carries it (R400). -/
def Dev.relayed (s : Dev) (c : Nat) : Bool :=
  s.relayFed c || (s.listed tableRTX).any fun k => s.rd (Reg.RTX_KIND k) = 3 && decide (s.rd (Reg.RTX_COURSE k) = c)

/-- A rebuilt copy of course `c` that leaves under course `out`, itself or the A of its 1+1 pair: delivered or withheld (R186, R188). -/
def Dev.copyOut (c out m : Nat) (x : Copy) (s : Dev) : Dev :=
  if !x.valid then ((s.bump (Reg.CRSTAT_WITHHELD c)).raise 19 8).streamMissed out m x.serial none
  else if s.courseFails c then s.streamMissed out m x.serial (some (s.plaintext out m x.ks x.frame))
  else s.decrypt out m x.serial x.ks x.decFail x.frame

/-- Whether a serial is not later than that of the last frame delivered before the selector's last move, and none has been delivered since (R219). -/
def Dev.isPast (s : Dev) (p serial : Nat) : Bool :=
  match (s.pr p).after with
  | some d => decide (serialDiff serial d ≤ 0)
  | none => false

/-- The first frame delivered after a move ends its discarding (R219). -/
def Dev.moveOver (p a serial : Nat) (s : Dev) : Dev :=
  if (s.pr p).after ≠ none ∧ (s.co a).delivered = some serial then s.setPr p { s.pr p with after := none } else s

/-- Whether a command makes the copies of a path of a Parallax pair invalid: LO those of B, FS those of A (R220). -/
def Dev.barred (s : Dev) (p : Nat) (fromB : Bool) : Bool :=
  if fromB then (s.pr p).lo else (s.pr p).fs

/-- Whether a copy of course `c` is invalid by its course's signal fail, or late or early at its Parallax pair, or barred there (R205, R220). -/
def Dev.invalidHere (s : Dev) (c serial arrived : Nat) : Bool :=
  s.on (Reg.CRSTAT_SF c) ||
  match s.pairOf c with
  | some p =>
    decide (s.pairMode p = 2) && (decide (s.copyTiming p serial arrived ≠ 0) || s.barred p (decide (s.rd (Reg.PAIR_COURSE_B p) = c)))
  | none => false

/-- What becomes of a checked copy (R186, R194). -/
def Dev.copyGo (c m arrived : Nat) (x : Copy) (s : Dev) : Dev :=
  match s.pairOf c with
  | none => s.copyOut c c m x
  | some p =>
    let fromB := decide (s.rd (Reg.PAIR_COURSE_B p) = c)
    let a := s.rd (Reg.PAIR_COURSE_A p)
    if s.pairMode p = 2 then
      let cls := if x.valid && !s.barred p fromB then (if x.verdict = 2 then 2 else 1) else 0
      s.copyArrive p fromB ⟨x.serial, cls, fromB, x.ks, x.frame, arrived⟩
    else if fromB = s.on (Reg.PSTAT_SEL p) ∧ ¬ s.isPast p x.serial then (s.copyOut c a m x).moveOver p a x.serial
    else s

/-- A course frame rebuilt from its members. -/
def Dev.rebuilt (c m serial arrived : Nat) (checkFail : CheckAt) (ms : List Member) (s : Dev) : Dev :=
  let verdict := ms.foldl (fun v x => max v x.mark) 0
  let ks := ksOf ms
  let frame := joinMembers (ms.map (·.payload))
  let lo := ms.foldl (fun a x => min a x.arrived) ((ms.head?.map (·.arrived)).getD 0)
  let hi := ms.foldl (fun a x => max a x.arrived) 0
  let s := (s.wr (Reg.CRSTAT_SERIAL_LO c) (serial % 2 ^ 32)).wr (Reg.CRSTAT_SERIAL_HI c) (serial / 2 ^ 32)
  let s := s.wr (Reg.CRSTAT_SKEW_NS c) (min (hi - lo) (2 ^ 18 - 1))
  let s := match ks with
    | some b => s.setCrsBit c (Reg.CRSTAT_KS_RX c) none b
    | none => s
  let s := if verdict = 2 then (s.bump (Reg.CRSTAT_FAILED c)).raise 19 7 else s
  let s := (s.loaIn c false).bipIn c serial ((ms.head?.map (·.head)).getD []) frame
  if s.relayed c then s.exportCourse c arrived ms
  else
    let a := match s.pairOf c with
      | some p => s.rd (Reg.PAIR_COURSE_A p)
      | none => c
    let k := (s.keyFrameIn a).copyChecks a m serial ks checkFail frame
    let valid := k.1 && (k.2.on (Reg.CKEY_ENC a) || decide (verdict ≠ 2))
    let merging := match s.pairOf c with
      | some p => decide (s.pairMode p = 2)
      | none => false
    let s := k.2.ffIn c (!valid || k.2.invalidHere c serial arrived)
    s.copyGo c m arrived ⟨serial, ks.getD false, ks.isSome, verdict, valid && !(merging && s.on (Reg.CRSTAT_SF c)), decide (checkFail = .decryption), frame⟩

/-- A frame of a course discarded before it is rebuilt, and counted in WITHHELD; of a 1+1 pair it breaks the stream where its course is the selected one and the
frame has not been delivered (R172, R219). -/
def Dev.frameLost (c serial : Nat) (s : Dev) : Dev :=
  let s := ((s.bump (Reg.CRSTAT_WITHHELD c)).raise 19 8).ffIn c true
  match s.pairOf c with
  | some p =>
    let a := s.rd (Reg.PAIR_COURSE_A p)
    if s.pairMode p ≠ 2 ∧ decide (s.rd (Reg.PAIR_COURSE_B p) = c) = s.on (Reg.PSTAT_SEL p) ∧ ¬ s.isPast p serial then s.streamMissed a (s.rxMembers c) serial none else s
  | none => s.streamMissed c (s.rxMembers c) serial none

/-- COURSE_FRAME_REBUILD: every member of serial `serial` has delivered its blocks. `arrived`: the HUB time in ns at which the copy has passed its
tag check; `checkFail`: where the two computations of the cipher differed; `poison`: the skew store gave a word with a poison mark, which withholds the
frame (Table 18.2). -/
def execCourseFrameRebuild (c : Fin 512) (serial : BitVec 48) (arrived : Nat) (checkFail : CheckAt) (poison : Bool) (s : State) : Out :=
  s.run fun s =>
    let x := s.co c
    let m := s.rxMembers c
    let ms := (List.range m).filterMap fun j => x.held.find? fun (y : Member) => y.serial = serial.toNat && decide (y.member = j)
    if ms.length = m ∧ (s.rxOn c ∨ s.remoteRx c) then
      let s := s.setCo c { x with held := x.held.filter fun (y : Member) => y.serial ≠ serial.toNat }
      if poison then s.frameLost c serial.toNat else s.rebuilt c m serial.toNat arrived checkFail ms
    else s

/-- SKEW_MAX_EXPIRED (R172): the latest member of a frame has not come SKEW_MAX_US after the earliest: the frame is discarded. -/
def execSkewMaxExpired (c : Fin 512) (serial : BitVec 48) (s : State) : Out :=
  s.run fun s =>
    let x := s.co c
    let got := (x.held.filter fun (y : Member) => y.serial = serial.toNat).map (·.member)
    if got ≠ [] ∧ got.dedup.length < s.rxMembers c then
      let s := s.setCo c { x with held := x.held.filter fun (y : Member) => y.serial ≠ serial.toNat }
      (s.loaIn c true).frameLost c serial.toNat
    else s

end Sys2Proof.Machine
end

