-- ==== Sys2Proof/Machine/Parallax.lean ====
section
/-!
DEFINITION. The 1+1 selector, and the commands of pairs (R208, R214 to R220).
-/
namespace Sys2Proof.Machine

/-! ## LOST (Table 7.2) -/

/-- PARALLAX_LOST_TIMEOUT: 1 s in LOST without a valid copy taking part (Table 7.2). -/
def execParallaxLostTimeout (p : BitVec 8) (s : State) : Out :=
  s.run fun s => if s.rd (Reg.PSTAT_STATE p.toNat) = parLost then s.pairGo p.toNat parAcquire else s

/-! ## The 1+1 selector (R214 to R219) -/

/-- PROT_HOLDOFF_EXPIRED. -/
def execProtHoldoffExpired (p : BitVec 8) (s : State) : Out :=
  s.run fun s => s.holdoffEnd p.toNat

/-- The selector moved to what the request in force asks for (R215, R219): what it delivers next is later than what it has delivered. -/
def Dev.selectorMove (p : Nat) (s : Dev) : Dev :=
  if s.on (Reg.PAIR_EN p) ∧ s.pairMode p = 1 then
    let want := (s.request p).toB
    if s.on (Reg.PSTAT_SEL p) = want then s
    else
      let s := s.setPr p { s.pr p with after := (s.co (s.rd (Reg.PAIR_COURSE_A p))).delivered }
      let s := ((s.wrB (Reg.PSTAT_SEL p) want).bump (Reg.PSTAT_SWITCHES p)).raise 20 1
      (s.pairChanged p).showPair p
  else s

/-- WTR_EXPIRED (R216), of a pair that runs as 1+1. -/
def execWtrExpired (p : BitVec 8) (s : State) : Out :=
  s.run fun s =>
    let x := s.pr p.toNat
    if x.wtr.isSome ∧ s.pairMode p.toNat = 1 then ((s.setPr p.toNat { x with wtr := none }).showPair p.toNat).raise 20 11 else s

/-! ## Commands (R220, Table 7.10) -/

abbrev pairPage : Nat := 0x280

/-- Whether a command code is refused on pair `p` in the mode that it runs in: MS and MS-W in Parallax mode or with SF or SD on either course, REGRID in
1+1 mode, and codes of no command (R216, R220). -/
def Dev.commandRefused (s : Dev) (p code : Nat) : Bool :=
  let a := s.rd (Reg.PAIR_COURSE_A p)
  let b := s.rd (Reg.PAIR_COURSE_B p)
  match code with
  | 1 => false
  | 2 => false
  | 3 => decide (s.pairMode p = 2) || s.protSf a || s.protSf b || s.protSd p a || s.protSd p b
  | 4 => decide (s.pairMode p = 2) || s.protSf a || s.protSf b || s.protSd p a || s.protSd p b
  | 5 => false
  | 6 => decide (s.pairMode p = 1)
  | 7 => false
  | _ => true

/-- A command written for pair `p`: a refused one is counted, another waits for the pair's next course frame boundary (R220, log 31). -/
def Dev.pairCommand (p code : Nat) (s : Dev) : Dev :=
  if s.commandRefused p code then s.viol pairPage else s.setPr p { s.pr p with cmds := (s.pr p).cmds ++ [code] }

/-- The effect of a command code on pair `p` (R220). -/
def Dev.commandRun (p code : Nat) (s : Dev) : Dev :=
  let x := s.pr p
  match code with
  | 1 => (s.setPr p { x with lo := true }).evalPair p x.hadA
  | 2 => (s.setPr p { x with fs := true }).evalPair p x.hadA
  | 3 => (s.setPr p { x with ms := some true }).evalPair p x.hadA
  | 4 => (s.setPr p { x with ms := some false }).evalPair p x.hadA
  | 5 => (s.setPr p { x with lo := false, fs := false, ms := none }).evalPair p x.hadA
  | 6 => if parMerged ≤ s.rd (Reg.PSTAT_STATE p) then s.pairGo p parAcquire else s
  | 7 => s.setWords (Reg.PSTAT_FROM_A p).cell (List.replicate 8 0)
  | _ => s

/-- A course frame boundary of pair `p`: the commands that wait take effect, in their order (R220). -/
def Dev.pairBoundary (p : Nat) (s : Dev) : Dev :=
  (s.pr p).cmds.foldl (fun s c => s.commandRun p c) (s.setPr p { s.pr p with cmds := [] })

/-- SELECTOR_MOVE: the pair's course frame boundary (R219, R220). -/
def execSelectorMove (p : BitVec 8) (s : State) : Out :=
  s.run fun s => (s.pairBoundary p.toNat).selectorMove p.toNat

/-- A write of TBL_OP.WRITE with table CMD and a command code for pair `p`. -/
def Dev.cmdWrite (p code : Nat) (s : Dev) : Dev :=
  let d := s.onWrite pairPage 0x048 (Dev.pairCommand p code)
  if s.pageLive pairPage && s.on Reg.PARALLAX_TBL_INDEX_AUTO_INC then d.wr Reg.PARALLAX_TBL_INDEX_INDEX (p + 1) else d

def execCmdLo (p : BitVec 8) (s : State) : Out :=
  s.run fun s => s.cmdWrite p.toNat 1

def execCmdFs (p : BitVec 8) (s : State) : Out :=
  s.run fun s => s.cmdWrite p.toNat 2

def execCmdMs (p : BitVec 8) (s : State) : Out :=
  s.run fun s => s.cmdWrite p.toNat 3

def execCmdMsW (p : BitVec 8) (s : State) : Out :=
  s.run fun s => s.cmdWrite p.toNat 4

def execCmdClear (p : BitVec 8) (s : State) : Out :=
  s.run fun s => s.cmdWrite p.toNat 5

def execCmdRegrid (p : BitVec 8) (s : State) : Out :=
  s.run fun s => s.cmdWrite p.toNat 6

def execCmdZeroPstat (p : BitVec 8) (s : State) : Out :=
  s.run fun s => s.cmdWrite p.toNat 7

end Sys2Proof.Machine
end

