-- ==== Sys2Proof/Machine/Microcode.lean ====
section
/-!
DEFINITION. The instructions of the parse engines (R232, R233, R242 to R244, Table 8.2): what a thread does as it issues them. Which instructions a program issues is the
microcode's, whose encoding the specification does not give; the commands carry them in the order of issue (DESIGN CHOICE, log 185).
-/
namespace Sys2Proof.Machine

/-- The registers of a thread that has used none. -/
def noRegs : List (BitVec 64) := List.replicate 16 0

/-- A thread at work with its registers. -/
structure Running where
  t : Thread
  regs : List (BitVec 64)
  deriving DecidableEq, Repr

/-- The value of a register. -/
def Running.reg (x : Running) (r : Fin 16) : BitVec 64 :=
  x.regs.getD r 0

/-- A register set. -/
def Running.setReg (x : Running) (r : Fin 16) (v : BitVec 64) : Running :=
  { x with regs := x.regs.set r v }

/-- The value that an instruction names. -/
def Running.src (x : Running) : Src → Nat
  | .imm v => v
  | .reg r => (x.reg r).toNat

/-- What an ALU operation gives; a comparison gives 1 or 0 (DESIGN CHOICE, log 185). -/
def aluValue (op : AluOp) (a b : BitVec 64) : BitVec 64 :=
  match op with
  | .add => a + b
  | .sub => a - b
  | .and => a &&& b
  | .or => a ||| b
  | .xor => a ^^^ b
  | .shiftLeft => a <<< b.toNat
  | .shiftRight => a >>> b.toNat
  | .equal => if a = b then 1 else 0
  | .less => if a < b then 1 else 0

/-- A branch is taken. -/
def Running.taken (x : Running) (r : Fin 16) (ifZero : Bool) : Bool :=
  decide (x.reg r = 0) == ifZero

/-- The cycles of an instruction: 1, and 2 for a branch taken (Table 8.2). -/
def Running.cost (x : Running) : ParseInsn → Nat
  | .branch r z => if x.taken r z then 2 else 1
  | _ => 1

/-- A flag stands that makes the engine abandon the program: the outer path is taken once (R244). -/
def Thread.flagged (t : Thread) : Bool :=
  !t.outer && (t.frag || t.deep || t.len)

/-- The thread issues no further instruction: it waits for a lookup, its pass is over, or its program is abandoned. -/
def Thread.halted (t : Thread) : Bool :=
  t.wait.isSome || t.ended.isSome || t.flagged

/-- The flags of the hardware's own checks, made in every pass (R243). -/
def Thread.checked (t : Thread) : Thread :=
  { t with frag := t.frag || isFragment t.pkt.bytes, len := t.len || badLength t.pkt.bytes }

/-- What comes of an instruction: the thread goes on, or it is stopped at the cycle limits or at the lookup figures (R233). -/
inductive Issue where
  | goes (x : Running)
  | cycles (x : Running)
  | lookups (x : Running)
  deriving DecidableEq, Repr

/-- The effect of an instruction that is within the cycle limits (Table 8.2, R242). -/
def Running.act (ep : EpochRec) (i : ParseInsn) (x : Running) : Issue :=
  let t := x.t
  match i with
  | .extract dst off count =>
    let o := x.src off
    if 256 < o + count + 1 ∨ t.pkt.bytes.length < o + count + 1 then .goes { x with t := { t with deep := true } }
    else .goes (x.setReg dst (BitVec.ofNat 64 (fieldBE t.pkt.bytes o (count + 1))))
  | .alu op dst a b => .goes (x.setReg dst (aluValue op (x.reg a) (BitVec.ofNat 64 (x.src b))))
  | .branch _ _ => .goes x
  | .layer start length ip =>
    if t.layers.length = 8 then .goes { x with t := { t with deep := true } }
    else .goes { x with t := { t with layers := t.layers ++ [⟨x.src start, x.src length, ip⟩] } }
  | .key r bits => .goes { x with t := { t with key := t.key ++ (List.range (bits + 1)).map fun k => (x.reg r).getLsbD (bits - k) } }
  | .lookupEm p =>
    if ep.lkeMax ≤ t.exacts then .lookups x
    else .goes { x with t := { t with exacts := t.exacts + 1, wait := some ⟨true, p.toNat, t.key⟩, key := [] } }
  | .lookupWc p =>
    if ep.lkwMax ≤ t.wilds then .lookups x
    else .goes { x with t := { t with wilds := t.wilds + 1, wait := some ⟨false, p.toNat, t.key⟩, key := [] } }
  | .flag f l => .goes { x with t := { t with frag := t.frag || f, len := t.len || l } }
  | .result (some r) => .goes { x with t := { t with result := some ((x.reg r).truncate 32, (x.reg r >>> 32).truncate 32) } }
  | .result none => .goes { x with t := { t with result := t.found } }
  | .recirc => .goes { x with t := { t with ended := some true } }
  | .finish => .goes { x with t := { t with ended := some false } }

/-- An instruction issued, its cycles counted against the limits first (R232, R233). -/
def Running.issue (ep : EpochRec) (i : ParseInsn) (x : Running) : Issue :=
  let c := x.cost i
  if ep.cycLimit < x.t.passCycles + c ∨ ep.cycMax < x.t.cycles + c then .cycles x
  else { x with t := { x.t with cycles := x.t.cycles + c, passCycles := x.t.passCycles + c } }.act ep i

/-- Instructions issued in order, until the thread is not ready any more. -/
def Running.issueAll (ep : EpochRec) : List ParseInsn → Running → Issue
  | [], x => .goes x
  | i :: r, x =>
    if x.t.halted then .goes x
    else match x.issue ep i with
      | .goes y => Running.issueAll ep r y
      | z => z

/-- A key's bits as `n` bytes, padded with zeros at the end (R245). -/
def keyBytes (n : Nat) (key : List Bool) : List Byte :=
  (List.range n).map fun k => BitVec.ofNat 8 ((List.range 8).foldl (fun (v : Nat) j => 2 * v + ofBool (key.getD (8 * k + j) false)) 0)

/-- A key's bits as a number of 512 bits, its first bit the highest (DESIGN CHOICE, log 185). -/
def keyWild (key : List Bool) : Nat :=
  fieldBE (keyBytes 64 key) 0 64

end Sys2Proof.Machine
end

