-- ==== Sys2Proof/Machine/ParseEngines.lean ====
section
/-!
DEFINITION. The client MAC and the parse engines (R225 to R256): reception, pre-classification, inlet, threads, lookups, results and edits,
the reorder stage, rule-set epochs and microcode loads.
-/
namespace Sys2Proof.Machine

/-! ## Ports (R229, R230, R256) -/

/-- Lane L's events: the group and the bit of its first source (Table 8.6). -/
def Dev.laneEvent (l k : Nat) (s : Dev) : Dev :=
  s.raise (22 + l / 16) (2 * (l % 16) + k)

/-- The blocks and the dual-clock queues that port `p` needs are in service (R19, Table 18.3). -/
def Dev.portWorks (s : Dev) (p : Nat) : Bool :=
  !s.blockOut (48 + p / 8) &&
  (List.range (s.portLanes p)).all fun i =>
    !s.blockOut (32 + (p + i) / 4) && !s.xqStopped.contains (16 + p + i) && !s.xqStopped.contains (80 + p + i)

/-- PORT_STAT of port `p` brought up to date, with its event where LINK_UP, LOCAL_FAULT or REMOTE_FAULT changes (R230). A port with a lane in
low power is not aligned (R389). -/
def Dev.setPort (p : Nat) (aligned hiSer lf rf : Bool) (s : Dev) : Dev :=
  let aligned := aligned && (List.range (s.portLanes p)).all fun i => !s.on (Reg.LANE_STAT_LP (p + i))
  let up := s.portOn p && s.portWorks p && aligned && !hiSer && !lf && !rf
  let changed := s.on (Reg.PORT_STAT_LINK_UP p) != up || s.on (Reg.PORT_STAT_LOCAL_FAULT p) != lf || s.on (Reg.PORT_STAT_REMOTE_FAULT p) != rf
  let s := ((s.wrB (Reg.PORT_STAT_ALIGNED p) aligned).wrB (Reg.PORT_STAT_HI_SER p) hiSer).wrB (Reg.PORT_STAT_LOCAL_FAULT p) lf
  let s := ((s.wrB (Reg.PORT_STAT_REMOTE_FAULT p) rf).wrB (Reg.PORT_STAT_LINK_UP p) up).wrB (Reg.PORT_STAT_FIRST p) (s.portExists p)
  if changed then s.laneEvent p 0 else s

/-- PORT_STAT of port `p` after PORT_CTRL or OCT_CFG has changed. -/
def Dev.settlePort (p : Nat) (s : Dev) : Dev :=
  s.setPort p (s.on (Reg.PORT_STAT_ALIGNED p)) (s.on (Reg.PORT_STAT_HI_SER p)) (s.on (Reg.PORT_STAT_LOCAL_FAULT p))
    (s.on (Reg.PORT_STAT_REMOTE_FAULT p))

/-- What the transmit side of a port sends (R229). -/
inductive PortSignal where
  | nothing
  | frames
  | remoteFault
  | idles
  deriving DecidableEq, Repr

/-- The transmit side of port `p`: remote fault while the receive side detects local fault or is not aligned, idles while remote fault is received, frames else; a port
that is not enabled sends nothing (R229). Its PCS and FEC coding is below the model (R228, log 221). -/
def Dev.portSends (s : Dev) (p : Nat) : PortSignal :=
  if !s.portOn p then .nothing
  else if s.on (Reg.PORT_STAT_LOCAL_FAULT p) || !s.on (Reg.PORT_STAT_ALIGNED p) then .remoteFault
  else if s.on (Reg.PORT_STAT_REMOTE_FAULT p) then .idles
  else .frames

/-- CLIENT_LINK_CHANGE: the PCS of port `p` reports its alignment, hi_ser and the faults. -/
def execClientLinkChange (p : Fin 64) (aligned hiSer localFault remoteFault : Bool) (s : State) : Out :=
  s.run fun s => if s.hubOn ∧ s.portExists p then s.setPort p aligned hiSer localFault remoteFault else s

/-- CLIENT_ERR_WINDOW_END: 1 ms of port `p` ends, with the codewords corrected and uncorrectable and the symbols corrected in it (R256). -/
def execClientErrWindowEnd (p : Fin 64) (corrected uncorrectable symbols : Nat) (s : State) : Out :=
  s.run fun s =>
    if s.hubOn ∧ s.portExists p then
      let fcs := sget (dflt 0) s.parse.fcs p
      let s := (s.bumpBy (Reg.FEC_CORR_CW p).run corrected).bumpBy (Reg.FEC_UNCORR_CW p).run uncorrectable
      let s := s.bump64 (Reg.FEC_SYM_LO p).run symbols
      let s := { s with parse := { s.parse with fcs := sset (dflt 0) s.parse.fcs p 0 } }
      if s.rd (Reg.ERR_THR_THRESHOLD p) < fcs + uncorrectable then s.laneEvent p 1 else s
    else s

/-! ## The inlet (R236 to R241) -/

/-- A packet dropped before it was classified. -/
def Dev.dropUnclassified (p len : Nat) (s : Dev) : Dev :=
  s.countPacket pointDropped tcUnclassified (some p) none len

/-- The valid PRECLASS entry of a group that a key names (Table 8.11). The CRC runs over the key's six words, least significant byte first
(DESIGN CHOICE, log 25). -/
def Dev.preclassHit (s : Dev) (g key : Nat) : Option Nat :=
  let kb := bytesLE 24 key
  [(0, 0xFFFFFFFF), (1, 0x5A5A5A5A)].findSome? fun w =>
    let i := 4096 * g + 2048 * w.1 + crc32c w.2 kb % 2048
    let words := (List.range 6).map fun k => BitVec.ofNat 32 (key / 2 ^ (32 * k))
    if s.on (Reg.PRECLASS_VALID i) ∧ s.words (tableCell tablePRECLASS.id i 0) 6 = words then some i else none

/-- Whether a packet is marked reserved (R236, R237): it matches an entry whose bucket holds a token; one that finds it empty is demoted. -/
def Dev.preclassify (p : Nat) (f : List Byte) (s : Dev) : Bool × Dev :=
  match s.preclassHit (s.portGroup p) (preclassKey p f) with
  | none => (false, s)
  | some i =>
    let t := takeTokens s.parse.preclass i s.clock (s.rd (Reg.PRECLASS_RATE_KPPS i)) (s.rd (Reg.PRECLASS_BURST i) * 1000000) 1000000
    let s := { s with parse := { s.parse with preclass := t.2 } }
    if t.1 then (true, s) else (false, (s.bump Reg.DEMOTED.run).raise 26 9)

/-- The index of a port's class in the sequence counters. -/
def seqIndex (p : Nat) (reserved : Bool) : Nat :=
  2 * p + ofBool reserved

/-- The group whose inlet takes port `p`'s next packet: its own, or for a port of 8 lanes the two of its pair in turn (DESIGN CHOICE,
log 25). -/
def Dev.inletGroup (s : Dev) (p : Nat) : Nat :=
  let n := sget (dflt 0) s.parse.given (seqIndex p false) + sget (dflt 0) s.parse.given (seqIndex p true)
  if s.portLanes p = 8 then s.portGroup p + n % 2 else s.portGroup p

/-- The next packet of a port and class with its sequence number (R241), and the epoch of the inlet (R252). -/
def Dev.nextSeq (s : Dev) (p : Nat) (reserved : Bool) (f : List Byte) : Packet :=
  ⟨p, reserved, sget (dflt 0) s.parse.given (seqIndex p reserved), s.rd Reg.EPOCH_STAT_CURRENT, f, s.time⟩

/-- A packet's sequence number taken. -/
def Dev.takeSeq (k : Packet) (s : Dev) : Dev :=
  { s with parse := { s.parse with given := sset (dflt 0) s.parse.given (seqIndex k.port k.reserved) (k.seq + 1) } }

/-- A packet dropped at the inlet: it has its sequence number, and its tombstone stands in the reorder stage (R241). -/
def Dev.inletDrop (k : Packet) (s : Dev) : Dev :=
  let s := (s.takeSeq k).dropUnclassified k.port (k.bytes.length + 4)
  { s with parse := { s.parse with reorder := s.parse.reorder ++ [⟨k, .tombstone⟩] } }

/-- A packet placed in its group's inlet area, or dropped where that is full (R239). -/
def Dev.inletTake (p : Nat) (reserved : Bool) (f : List Byte) (s : Dev) : Dev :=
  let g := s.inletGroup p
  let held := (s.parse.inlet.filter fun e => e.1 = g && e.2.reserved == reserved).length
  let k := s.nextSeq p reserved f
  if reserved ∧ 256 ≤ held then ((s.bump Reg.INLET_DROP_RSV.run).raise 26 16).inletDrop k
  else if ¬ reserved ∧ 512 ≤ held then ((s.bump Reg.INLET_DROP_BE.run).raise 26 8).inletDrop k
  else
    let s := s.takeSeq k
    { s with parse := { s.parse with inlet := s.parse.inlet ++ [(g, k)] } }

/-- An FCS failure of port `p` counted, and in its running 1 ms (R229, R256). -/
def Dev.fcsFails (p : Nat) (s : Dev) : Dev :=
  let s := { s with parse := { s.parse with fcs := sset (dflt 0) s.parse.fcs p (sget (dflt 0) s.parse.fcs p + 1) } }
  s.bump (Reg.RX_FCS_ERR p).run

/-- A frame received by the MAC of port `p`, FCS included (R229). The FCS of every frame is checked, of runts and oversize frames too. A frame of a regular length whose FCS fails has
passed the inlet when that is found: it takes its number and leaves a tombstone (R241, log 79). -/
def Dev.clientFrame (p : Nat) (frame : List Byte) (s : Dev) : Dev :=
  let n := frame.length
  let body := frame.take (n - 4)
  let good := decide (4 ≤ n) && decide (crc32 body = fieldLE frame (n - 4) 4)
  let s := if good then s else s.fcsFails p
  if n < 64 then (s.bump (Reg.RX_RUNT p).run).dropUnclassified p n
  else if s.rd (Reg.PORT_CTRL_MAX_FRAME p) < n then (s.bump (Reg.RX_OVERSIZE p).run).dropUnclassified p n
  else if !good then
    let r := (s.bump Reg.PKT_IN.run).preclassify p body
    r.2.inletDrop (r.2.nextSeq p r.1 body)
  else
    let s := (s.bump64 (Reg.RX_FRAMES_LO p).run 1).bump64 (Reg.RX_BYTES_LO p).run n
    if fieldBE body 12 2 = 0x8808 then (s.bump (Reg.RX_MACCTL p).run).dropUnclassified p n
    else
      let r := (s.bump Reg.PKT_IN.run).preclassify p body
      r.2.inletTake p r.1 body

/-- CLIENT_FRAME_RECEIVE: port `p` has received a frame, from its first address byte to its FCS. -/
def execClientFrameReceive (p : Fin 64) (frame : List Byte) (s : State) : Out :=
  s.run fun s => if s.hubOn ∧ s.portUp p then s.clientFrame p frame else s

/-! ## Threads (R232, R239, R240) -/

/-- The packets at work on engine `e` of a group. -/
def Dev.engineLoad (s : Dev) (g e : Nat) : List Thread :=
  s.parse.threads.filter fun t => t.group = g && decide (t.thread / 4 = e)

/-- The next engine of a group with a free thread, in engine order, and that thread (R240). -/
def Dev.freeThread (s : Dev) (g : Nat) : Option Nat :=
  let first := sget (dflt 0) s.parse.turn g
  (((List.range 16).map fun k => (first + k) % 16).find? fun e => decide ((s.engineLoad g e).length < 4)).bind fun e =>
    ((List.range 4).map fun t => 4 * e + t).find? fun n => (s.engineLoad g e).all fun t => t.thread ≠ n

/-- Whether best effort has parse capacity left in a group: SHED.PARSE_BE.SHARE sixteenths of its 64 threads (R31; DESIGN CHOICE, log 156: the share of
cycles is measured by the threads at work). -/
def Dev.beThreads (s : Dev) (g : Nat) : Bool :=
  (s.parse.threads.filter fun t => t.group = g && !t.pkt.reserved).length < 4 * s.rd Reg.PARSE_BE_SHARE

/-- The packet that a group starts next: the oldest reserved one, else the oldest where best effort has its share left (R31, R239). -/
def Dev.nextPacket (s : Dev) (g : Nat) : Option (Nat × Packet) :=
  match s.parse.inlet.find? fun e => e.1 = g && e.2.reserved with
  | some e => some e
  | none => if s.beThreads g then s.parse.inlet.find? fun e => e.1 = g else none

/-- PARSE_START: a free thread of group `g` takes the next packet of its inlet. -/
def execParseStart (g : Fin 16) (s : State) : Out :=
  s.run fun s =>
    match s.nextPacket g, s.freeThread g with
    | some e, some n =>
      { s with parse := { s.parse with
          inlet := s.parse.inlet.erase e, threads := s.parse.threads ++ [Thread.start g n e.2], turn := sset (dflt 0) s.parse.turn g ((n / 4 + 1) % 16) } }
    | _, _ => s

/-- The packet in a thread. -/
def Dev.thread? (s : Dev) (g n : Nat) : Option Thread :=
  s.parse.threads.find? fun t => t.group = g && decide (t.thread = n)

/-- A live epoch's figures. -/
def Dev.epochOf (s : Dev) (e : Nat) : EpochRec :=
  (s.parse.epochs.find? fun x => x.num = e).getD EpochRec.reset

/-- The device with a thread's packet replaced. -/
def Dev.setThread (t : Thread) (s : Dev) : Dev :=
  { s with parse := { s.parse with
      threads := s.parse.threads.map fun u => if u.group = t.group ∧ u.thread = t.thread then t else u } }

/-- A thread's packet leaves for the reorder stage. -/
def Dev.endThread (t : Thread) (e : Exit) (s : Dev) : Dev :=
  { s with parse := { s.parse with
      threads := s.parse.threads.filter fun u => !(decide (u.group = t.group) && decide (u.thread = t.thread))
      reorder := s.parse.reorder ++ [⟨t.pkt, e⟩] } }

/-- A packet dropped in the parse stage: its tombstone takes its place (R241). -/
def Dev.dropThread (t : Thread) (s : Dev) : Dev :=
  (s.endThread t .tombstone).dropUnclassified t.pkt.port (t.pkt.bytes.length + 4)

/-- A final result's FLOW, KIND and QUEUE applied (R248). -/
def Dev.applyKind (t : Thread) (w0 : Word) (bytes : List Byte) (s : Dev) : Dev :=
  match getBits w0 16 2 with
  | 0 => s.endThread t (.flow (getBits w0 0 16) bytes)
  | 2 => s.endThread t (.punt (getBits w0 18 5) bytes)
  | _ => (s.bump Reg.RULE_DROP.run).dropThread t

/-- The exception action of the packet's epoch (R233, R248). -/
def Dev.exception (t : Thread) (s : Dev) : Dev :=
  s.applyKind t (s.epochOf t.pkt.epoch).action t.pkt.bytes

/-! ## Lookups (R245 to R247) -/

/-- Whether an entry with words 10 and 11 of EXACT, or 32 and 33 of WILD, is visible to a packet of epoch `e` (R247). -/
def visible (w0 w1 : Word) (e : Nat) : Bool :=
  let birth := getBits w1 0 16
  let death := getBits w1 16 16
  let left := (death + 65536 - e) % 65536
  decide (getBits w0 8 1 = 1) && decide ((e + 65536 - birth) % 65536 < 32768) &&
  (decide (getBits w0 9 1 = 0) || (decide (1 ≤ left) && decide (left ≤ 32768)))

/-- The exact-match entries that match a profile and a key of 40 bytes, lowest sub-table first (R245). -/
def Dev.exactHits (s : Dev) (profile : Nat) (key : List Byte) (e : Nat) : List Nat :=
  [0xFFFFFFFF, 0x00000001, 0x80000000, 0x5A5A5A5A].zipIdx.filterMap fun (seed : Nat × Nat) =>
    let i := 262144 * seed.2 + crc32c seed.1 (bytesLE 1 profile ++ key) % 262144
    let w := s.words (tableCell tableEXACT.id i 0) 12
    let w10 := (w[10]?).getD 0
    if getBits w10 0 8 = profile ∧ visible w10 ((w[11]?).getD 0) e ∧
        w.take 10 = (List.range 10).map (fun k => BitVec.ofNat 32 (fieldLE key (4 * k) 4)) then some i else none

/-- The visible wildcard entry of lowest index that matches a profile and a 512-bit key (R246). -/
def Dev.wildHit (s : Dev) (profile key e : Nat) : Option Nat :=
  let lo := tableCell tableWILD.id 0 0
  ((s.regs.filterMap fun c =>
      if lo ≤ c.1 ∧ c.1 < tableCell tableWILD.id 16384 0 ∧ (c.1 - lo) % 64 = 32 then some ((c.1 - lo) / 64) else none)).find? fun i =>
    let w (k : Nat) := s.word (tableCell tableWILD.id i k)
    decide (getBits (w 32) 0 8 = profile) && visible (w 32) (w 33) e &&
    (List.range 16).all fun k => ((w k ^^^ BitVec.ofNat 32 (key / 2 ^ (32 * k))) &&& w (16 + k)) = 0

/-- The result words of a table entry. -/
def Dev.resultAt (s : Dev) (id i w : Nat) : Word × Word :=
  (s.word (tableCell id i w), s.word (tableCell id i (w + 1)))

/-! ## The end of a pass (R242 to R251) -/

/-- The index of an entry of a banked table in the cell space. -/
def bankIndex (bank i : Nat) : Nat :=
  bank * 2 ^ 19 + i

/-- The default result of a port in a bank. -/
def Dev.portDefault (s : Dev) (bank p : Nat) : Word × Word :=
  s.resultAt tablePORTDEFAULT.id (bankIndex bank p) 0

/-- The header bytes of a template. -/
def Dev.template (s : Dev) (bank k : Nat) : List Byte :=
  let i := bankIndex bank k
  (wordBytes (s.words (tableCell tableTEMPLATE.id i 0) 16)).take (s.rd (Reg.TEMPLATE_LENGTH i))

/-- Edit program `k` of a bank run on a packet (R249, R250); none where the packet is dropped. -/
def Dev.edit (s : Dev) (bank k : Nat) (layers : List Layer) (t : Thread) : Option (List Byte) :=
  let i := bankIndex bank k
  let ops := s.words (tableCell tableEDIT.id i 0) 8
  let imm := wordBytes (s.words (tableCell tableEDIT.id i 8) 8)
  match editRun imm (s.template bank) layers ops t.pkt.bytes with
  | none => none
  | some f => if t.origLen + 64 < f.length ∨ 16383 < f.length + 4 then none else some (padTo60 f)

/-- A pass's result applied: its edit, then pass 2 with a fresh count, or the end (R242, R248 to R251). `recirc` is the RECIRC instruction's request. -/
def Dev.applyResult (t : Thread) (recirc : Bool) (w : Word × Word) (s : Dev) : Dev :=
  let again := recirc || decide (getBits w.1 23 1 = 1)
  if again && t.second then ((s.bump Reg.EXC_RECIRC.run).raise 26 5).exception t
  else
    let edited := if getBits w.1 24 1 = 1 then s.edit (s.epochOf t.pkt.epoch).bank (getBits w.2 0 12) t.layers t else some t.pkt.bytes
    match edited with
    | none => ((s.bump Reg.EDIT_DROP.run).raise 26 10).dropThread t
    | some f =>
      if again then
        (s.bump Reg.RECIRC.run).setThread { t with
          pkt := { t.pkt with bytes := f }, second := true, passCycles := 0, key := [], layers := [], result := none, found := none, ended := none }
      else s.applyKind t w.1 f

/-- The packets flagged counted, each once for a flag (R244). -/
def Dev.countFlags (old new : Thread) (s : Dev) : Dev :=
  let s := if new.frag && !old.frag then s.bump Reg.FLAG_FRAG.run else s
  let s := if new.deep && !old.deep then s.bump Reg.FLAG_DEEP.run else s
  if new.len && !old.len then s.bump Reg.FLAG_LEN.run else s

/-- The outer path (R244): the wildcard lookup of the outer key, where its cost is left. -/
def Dev.outerPath (t : Thread) (s : Dev) : Dev :=
  let ep := s.epochOf t.pkt.epoch
  let s := s.raise 26 6
  if ep.cycMax < t.cycles + 8 ∨ ep.lkwMax ≤ t.wilds then s.exception t
  else
    let w := match s.wildHit 0xFF (outerKey t.pkt.port t.frag t.deep t.len t.pkt.bytes) t.pkt.epoch with
      | some i => s.resultAt tableWILD.id i 34
      | none => s.portDefault ep.bank t.pkt.port
    s.applyResult { t with cycles := t.cycles + 8, wilds := t.wilds + 1, outer := true, wait := none, ended := none } false w

/-! ## A thread at work (R232, R233) -/

/-- The registers of a thread: nothing clears them between packets (DESIGN CHOICE, log 185). -/
def Dev.threadRegs (s : Dev) (t : Thread) : List (BitVec 64) :=
  sget (dflt noRegs) s.parse.regs (64 * t.group + t.thread)

/-- A thread with its registers put back. -/
def Dev.putRunning (x : Running) (s : Dev) : Dev :=
  let s := { s with parse := { s.parse with regs := sset (dflt noRegs) s.parse.regs (64 * x.t.group + x.t.thread) x.regs } }
  s.setThread x.t

/-- The thread in `g`, `n` issues instructions as far as it is ready, then `k` follows for it. A limit stops the packet with its exception (R233), and a flag takes the outer path (R244).
`poison`: a rule, edit or template entry, or a lookup's, that was read carries a poison mark; then, and where its bank was lost to a damaged word, the packet takes its epoch's exception
action (Table 18.2). -/
def Dev.runThread (g n : Nat) (code : List ParseInsn) (poison : Bool) (k : Thread → Dev → Dev) (s : Dev) : Dev :=
  match s.thread? g n with
  | none => s
  | some t =>
    let ep := s.epochOf t.pkt.epoch
    if poison ∨ s.parse.lostBanks.contains ep.bank then s.exception t
    else
      match Running.issueAll ep code ⟨t.checked, s.threadRegs t⟩ with
      | .cycles x => ((((s.putRunning x).countFlags t x.t).bump Reg.EXC_CYC.run).raise 26 3).exception x.t
      | .lookups x => ((((s.putRunning x).countFlags t x.t).bump Reg.EXC_LOOKUP.run).raise 26 4).exception x.t
      | .goes x =>
        let s := (s.putRunning x).countFlags t x.t
        if x.t.flagged then s.outerPath x.t else k x.t s

/-- The result of the lookup that a thread waits for, if it waits for one (R245, R246). -/
def Dev.lookup (t : Thread) (s : Dev) : Dev :=
  match t.wait with
  | none => s
  | some l =>
    if l.exact then
      let hits := s.exactHits l.profile (keyBytes 40 l.key) t.pkt.epoch
      let s := if 1 < hits.length then (s.bump Reg.DUP_HIT.run).raise 26 7 else s
      s.setThread { t with wait := none, found := hits.head?.map fun i => s.resultAt tableEXACT.id i 12 }
    else s.setThread { t with wait := none, found := (s.wildHit l.profile (keyWild l.key) t.pkt.epoch).map fun i => s.resultAt tableWILD.id i 34 }

/-- LOOKUP_RESULT: thread `n` of group `g` issues instructions up to a lookup, and the result arrives of its profile and the key that the thread has built. -/
def execLookupResult (g : Fin 16) (n : Fin 64) (_profile _key : Found) (code : List ParseInsn) (poison : Bool) (s : State) : Out :=
  s.run (Dev.runThread g n code poison Dev.lookup)

/-- A pass that is over ends with the result set in it, else with the default of its port (R248). -/
def Dev.passEnd (t : Thread) (s : Dev) : Dev :=
  match t.ended with
  | none => s
  | some recirc => s.applyResult t recirc (t.result.getD (s.portDefault (s.epochOf t.pkt.epoch).bank t.pkt.port))

/-- PARSE_PASS_END: thread `n` of group `g` issues instructions up to the end of its pass; what the pass has come to is found in the thread. -/
def execParsePassEnd (g : Fin 16) (n : Fin 64) (_cycles _layers _deep _frag _len _result : Found) (code : List ParseInsn) (poison : Bool) (s : State) : Out :=
  s.run (Dev.runThread g n code poison Dev.passEnd)

/-! ## Rule-set epochs (R252, R253) -/

/-- The packets of an epoch that stand before the reorder exit. -/
def Dev.epochCount (s : Dev) (e : Nat) : Nat :=
  (s.parse.inlet.filter fun x => x.2.epoch = e).length + (s.parse.threads.filter fun t => t.pkt.epoch = e).length +
    (s.parse.reorder.filter fun x => x.pkt.epoch = e).length

/-- Pg of an epoch's figures, in Mpps, rounded down (R234). -/
def pgMpps (e : EpochRec) : Nat :=
  let term (n d : Nat) (rest : Nat) := if d = 0 then rest else min (n / d) rest
  term 38400 e.cycMax (term 2400 e.lkeMax (term 1200 e.lkwMax 65535))

/-- EPOCH_STAT, EPOCH_OLDEST and CAPACITY brought up to date. -/
def Dev.showEpochs (s : Dev) : Dev :=
  let es := s.parse.epochs
  let s := (s.wr Reg.EPOCH_STAT_LIVE es.length).wr Reg.EPOCH_OLDEST_OLDEST ((es.head?.map (·.num)).getD 0)
  let cur := es.getLast?.getD EpochRec.reset
  (s.wr Reg.EPOCH_STAT_CURRENT cur.num).wr Reg.CAPACITY_PG_MPPS (pgMpps cur)

/-- The oldest epochs retired while they are not CURRENT and have no packet left (R253). -/
def Dev.retireEpochs : Nat → Dev → Dev
  | 0, s => s
  | k + 1, s =>
    match s.parse.epochs with
    | e :: f :: r =>
      if s.epochCount e.num = 0 then
        Dev.retireEpochs k ((({ s with parse := { s.parse with epochs := f :: r } }).showEpochs).raise 26 2)
      else s
    | _ => s

/-! ## The reorder stage (R241) -/

/-- A packet at the reorder exit goes to its flow or to the punt path; `poison`: its flow context carries a poison mark (Table 18.2). -/
def Dev.exitPacket (poison : Bool) (x : Parsed) (s : Dev) : Dev :=
  match x.exit with
  | .tombstone => s
  | .flow f bytes => s.ingress f x.pkt.port x.pkt.reserved bytes x.pkt.tIn poison
  | .punt q bytes => s.puntPacket q x.pkt.port bytes x.pkt.tIn

/-- The packets of a port and class released in sequence order, as far as they have arrived. -/
def Dev.releaseAll (p : Nat) (reserved poison : Bool) : Nat → Dev → Dev
  | 0, s => s
  | k + 1, s =>
    let i := seqIndex p reserved
    let n := sget (dflt 0) s.parse.released i
    match s.parse.reorder.find? fun x => decide (x.pkt.port = p) && (x.pkt.reserved == reserved) && decide (x.pkt.seq = n) with
    | none => s
    | some x =>
      Dev.releaseAll p reserved poison k
        (({ s with parse := { s.parse with
            reorder := s.parse.reorder.erase x, released := sset (dflt 0) s.parse.released i (n + 1) } }).exitPacket poison x)

/-- REORDER_RELEASE: the reorder stage releases what port `p` has in order in one class, and epochs without packets retire. `poison`: the flow
contexts read for them carry a poison mark. -/
def execReorderRelease (p : Fin 64) (reserved poison : Bool) (s : State) : Out :=
  s.run fun s => (s.releaseAll p reserved poison s.parse.reorder.length).retireEpochs 4

/-- The packets of an octet's ports that have not left the reorder stage dropped (R230): they and what follows them leave tombstones. -/
def Dev.dropOctet (o : Nat) (s : Dev) : Dev :=
  let mine (p : Nat) : Bool := decide (p / 8 = o)
  let gone := (s.parse.inlet.filter fun e => mine e.2.port).map (·.2) ++
    (s.parse.threads.filter fun t => mine t.pkt.port).map (·.pkt) ++
    (s.parse.reorder.filter fun x => mine x.pkt.port && decide (x.exit ≠ .tombstone)).map (·.pkt)
  let s := { s with parse := { s.parse with
      inlet := s.parse.inlet.filter fun e => !mine e.2.port
      threads := s.parse.threads.filter fun t => !mine t.pkt.port
      reorder := s.parse.reorder.filter fun x => !mine x.pkt.port
      released := s.parse.given.foldl (fun (r : List (Nat × Nat)) (e : Nat × Nat) => if mine (e.1 / 2) then sset (dflt 0) r e.1 e.2 else r) s.parse.released } }
  (gone.foldl (fun (s : Dev) (k : Packet) => s.dropUnclassified k.port (k.bytes.length + 4)) s).retireEpochs 4

/-! ## Microcode (R255, R526) -/

/-- Whether a live epoch names a bank. -/
def Dev.bankLive (s : Dev) (bank : Nat) : Bool :=
  s.parse.epochs.any fun e => e.bank = bank


/-- A write of UCODE_CTRL. -/
def Dev.ucodeCtrl (v : Word) (s : Dev) : Dev :=
  s.hostWrite 0x303 0x040 2#32 v fun s =>
    let b := s.rd Reg.UCODE_CTRL_BANK
    if !v.getLsbD 1 then s
    else if s.bankLive b ∨ s.on Reg.UCODE_CTRL_BUSY then (s.viol 0x303).raise 26 11
    else
      let s := { s with
        parse := { s.parse with
          ucode := some (b, s.rd Reg.UCODE_ADDR_OFFSET, s.rd Reg.UCODE_LEN_BYTES), lostBanks := s.parse.lostBanks.filter fun x => decide (x ≠ b) }
        images := sset (dflt []) s.images b [] }
      ((s.wr (ucodeValid b) 0).wr Reg.UCODE_CTRL_BUSY 1).wr Reg.UCODE_CTRL_VERIFY_FAIL 0

/-- UCODE_LOAD: a write of UCODE_CTRL with LOAD set. -/
def execUcodeLoad (v : Word) (s : State) : Out :=
  s.run (Dev.ucodeCtrl (v ||| 2#32))

/-- The instructions of a microcode image. The specification does not give their encoding: a free value of the image (log 3). -/
def imageInsns (img : List Byte) : Nat :=
  Config.freeOf 106 (img.map (·.toNat))

/-- A microcode load ends: the image is held and VALID where it is of type 0x10 and passes checks 1 to 4 of R520, VERIFY_FAIL otherwise; an image of more than 16,384 instructions does
not fit its bank and is treated as one that fails (R255; DESIGN CHOICE, log 190). -/
def Dev.ucodeEnd (b : Nat) (img : List Byte) (s : Dev) : Dev :=
  let s := { s.wr Reg.UCODE_CTRL_BUSY 0 with parse := { s.parse with ucode := none } }
  let ok := decide (imageType img = 0x10) && decide (s.imageCause img = 0) && decide (imageInsns img ≤ 16384)
  let s := if ok then
      ({ s with images := sset (dflt []) s.images b img }).wr (ucodeValid b) 1 |>.wr
        (if b = 0 then Reg.UCODE_REV_REV_0 else Reg.UCODE_REV_REV_1) (imageVersion img)
    else (s.wr Reg.UCODE_CTRL_VERIFY_FAIL 1).raise 26 15
  s.raise 26 14

/-- UCODE_LOAD_COMPLETE: the load under way ends. -/
def execUcodeLoadComplete (s : State) : Out :=
  match s.dev.parse.ucode with
  | none => .next s
  | some u => .next (s.become (s.dev.ucodeEnd u.1
      (if inWindow u.2.1 u.2.2 then s.bytes (winAddr u.2.1) u.2.2 else [])))

end Sys2Proof.Machine
end

