-- ==== Sys2Proof/Machine/Shed.lean ====
section
/-!
DEFINITION. Budgets, shed steps and failed paths (R13, R17 to R37, R210, R212): the Parallax reservation and term, the HBM
bandwidth check, the union of the shed requests, the dual-clock queues, and the loss of a line die or of its link.
-/
namespace Sys2Proof.Machine

/-- Page 0x00E, XQ. -/
abbrev xqPage : Nat := 0x00E

/-- Page 0x00F, SHED. -/
abbrev shedPage : Nat := 0x00F

/-! ## The Parallax reservation and term (R210) -/

/-- The enabled pairs whose entries ask for MODE 2. -/
def Dev.mergePairs (s : Dev) : List Nat :=
  s.enabledPairs.filter fun p => s.rd (Reg.PAIR_MODE p) = 2

/-- The pairs that run in MODE 2; one stopped under R198 does not run. -/
def Dev.merged (s : Dev) : List Nat :=
  s.mergePairs.filter fun p => decide (s.rd (Reg.PSTAT_MODE_EFF p) = 2) && !s.on (Reg.PSTAT_CFG_BAD p)

/-- M of a pair. -/
def Dev.pairSlots (s : Dev) (p : Nat) : Nat :=
  s.members (s.rd (Reg.PAIR_COURSE_A p))

/-- The HBM term of a number of merged slots in GB/s, rounded up (R210). -/
def parTerm (slots : Nat) : Nat :=
  ceilDiv (slots * 96) 10

/-- The bytes that a pair of M members and a budget reserves (R210). -/
def parBytes (m budget : Nat) : Nat :=
  m * 4096 * (budget + 4)

/-- PAR_LOAD and PAR_RES brought up to date. -/
def Dev.showParLoad (s : Dev) : Dev :=
  let slots := (s.merged.map s.pairSlots).sum
  let bytes := (s.merged.map fun p => parBytes (s.pairSlots p) (s.rd (Reg.PAIR_BUDGET_FR p))).sum
  ((s.wr Reg.PAR_LOAD_SLOTS slots).wr Reg.PAR_LOAD_TERM_GBPS (parTerm slots)).wr Reg.PAR_RES_RESERVED_MB (ceilDiv bytes 1000000)

/-! ## The HBM bandwidth check (R24 to R27) -/

/-- The fixed terms of Table 1.10: tables and the host window. -/
abbrev hbmFixed : Nat := 330

/-- U (R24). -/
def Dev.hbmU (s : Dev) : Nat :=
  3600 * (64 - (popCount 32 (s.rd Reg.RETIRED_LO) + popCount 32 (s.rd Reg.RETIRED_HI))) / 64

/-- The capture term with given shed steps in force (R25). -/
def Dev.captureTerm (s : Dev) (steps : Nat) : Nat :=
  if s.rd Reg.CAP_BUF_SIZE_GB ≠ 0 ∧ ¬ bitAt steps 0 then 160 else 0

/-- The best-effort floor F (R27). -/
def Dev.beFloor (s : Dev) : Nat :=
  min 400 (s.rd Reg.BE_CAP_CAP_LIMIT)

/-- CAP with a request of the HBM check (R26, R27): U less the other terms under step 5, never below F, and CAP_LIMIT otherwise. -/
def Dev.capFor (s : Dev) (req steps : Nat) : Nat :=
  let limit := s.rd Reg.BE_CAP_CAP_LIMIT
  if bitAt req 4 then
    min limit (max s.beFloor (s.rd Reg.HBM_BUDGET_USABLE - (hbmFixed + s.rd Reg.PAR_LOAD_TERM_GBPS + s.captureTerm steps)))
  else limit

/-- D with a request of the HBM check beside the other two requests (R25). -/
def Dev.demandFor (s : Dev) (req : Nat) : Nat :=
  let steps := s.rd Reg.REQ_THERM_STEP ||| s.rd Reg.REQ_HOST_STEP ||| req
  hbmFixed + s.rd Reg.PAR_LOAD_TERM_GBPS + s.capFor req steps + s.captureTerm steps

/-- The steps that the HBM check enters: none, 1, 1 and 2, or 1, 2 and 5, as few as make D ≤ U (R26). -/
def Dev.hbmSteps (s : Dev) : Nat :=
  let u := s.rd Reg.HBM_BUDGET_USABLE
  if s.demandFor 0 ≤ u then 0
  else if s.demandFor 1 ≤ u then 1
  else if s.demandFor 3 ≤ u then 3
  else 0x13

/-! ## The union (R31, R33, R34) -/

/-- SHED.PARSE_BE.SHARE moved by 1/16 towards its floor or towards 16 (R31). -/
def Dev.shareStep (s : Dev) : Dev :=
  let sh := s.rd Reg.PARSE_BE_SHARE
  if s.shedActive 4 then
    if s.rd Reg.PARSE_BE_SHARE_FLOOR < sh then s.wr Reg.PARSE_BE_SHARE (sh - 1) else s
  else if sh < 16 then s.wr Reg.PARSE_BE_SHARE (sh + 1)
  else s

/-- ACTIVE brought up to date with its requests, with E-00.17 where it changes (R34) and the effects of the steps that become active or
leave (R31). -/
def Dev.settleShed (s : Dev) : Dev :=
  let old := s.rd Reg.ACTIVE_STEP
  let new := s.rd Reg.REQ_THERM_STEP ||| s.rd Reg.REQ_HBM_STEP ||| s.rd Reg.REQ_HOST_STEP
  let s := (s.wr Reg.ACTIVE_STEP new).raiseIf (decide (old ≠ new)) 0 17
  let s := if bitAt new 0 && !bitAt old 0 then (List.range 8).foldl (fun s n => s.capTruncate n) s else s
  if bitAt new 3 != bitAt old 3 then s.shareStep else s

/-- The HBM check made (R26), CAP set, and the union brought up to date. Until start-up has computed U no check is made (DESIGN CHOICE, log 155: R26 says
nothing of the time before step 4), and none while the hub does not run; the union of the masks holds always (R33). -/
def Dev.hbmEval (s : Dev) : Dev :=
  if s.hubOn ∧ s.rd Reg.HBM_BUDGET_USABLE ≠ 0 then
    let req := s.hbmSteps
    let steps := s.rd Reg.REQ_THERM_STEP ||| s.rd Reg.REQ_HOST_STEP ||| req
    let s := (s.wr Reg.BE_CAP_CAP (s.capFor req steps)).wr Reg.HBM_BUDGET_DEMAND (s.demandFor req)
    (s.wr Reg.REQ_HBM_STEP req).settleShed
  else s.settleShed

/-! ## Modes in effect (R212) -/

/-- The pairs of a list kept in MODE 2, in ascending number, while the sum of their slots stays within a limit; those that come after are run
as 1+1. -/
def Dev.fitting (s : Dev) (limit : Nat) : Nat → List Nat → List Nat
  | _, [] => []
  | sum, p :: ps =>
    if parTerm (sum + s.pairSlots p) ≤ limit then p :: s.fitting limit (sum + s.pairSlots p) ps else []

/-- The Parallax term that fits with CAP at F and capture stopped (R27). -/
def Dev.parLimit (s : Dev) : Nat :=
  s.rd Reg.HBM_BUDGET_USABLE - (hbmFixed + s.beFloor)

/-- PSTAT.MODE_EFF of every enabled pair brought up to date: a pair in MODE 2 runs as 1+1 while Parallax is out of service (Table 18.3) or its
term does not fit, highest pair number first, with E-20.09 (R212) and, where the term is the cause, E-00.18 (R27). Pairs that run in MODE 2 keep running (R211), except at the
start-up evaluation. Each pair then runs by its mode. -/
def Dev.settleModes (startup : Bool) (s : Dev) : Dev :=
  let runs := if startup then [] else s.merged
  let fit := if s.blockOut 65 then [] else
    runs ++ s.fitting s.parLimit (runs.map s.pairSlots).sum (s.mergePairs.filter fun p => !s.on (Reg.PSTAT_CFG_BAD p) && !runs.contains p)
  let down (p : Nat) : Bool := s.mergePairs.contains p && !fit.contains p && !s.on (Reg.PSTAT_CFG_BAD p)
  let was (p : Nat) : Bool := s.mergePairs.contains p && decide (s.pairMode p = 1)
  let news := s.enabledPairs.any fun p => down p && !was p
  let s := s.enabledPairs.foldl (fun s p =>
    let eff := if s.on (Reg.PSTAT_CFG_BAD p) then 0 else if down p then 1 else s.rd (Reg.PAIR_MODE p)
    let s := s.wr (Reg.PSTAT_MODE_EFF p) eff
    if eff ≠ 2 ∧ s.rd (Reg.PSTAT_STATE p) ≠ parIdle then s.pairGo p parIdle else s) s
  let s := s.enabledPairs.foldl (fun s p => s.pairBegin p) s
  ((s.raiseIf news 20 9).raiseIf (news && !s.blockOut 65) 0 18).showParLoad

/-! ## Failed paths (R13, R19) -/

/-- The receive path of engine `n` declared failed: an internal fault of the engine until it is enabled again. -/
def Dev.engineFault (n : Nat) (s : Dev) : Dev :=
  (s.setRxe n { s.rxe n with fault := true }).alFollowPair n

/-- Both engines of line die k declared failed (R13). -/
def Dev.dieFails (k : Nat) (s : Dev) : Dev :=
  let s := { s with dieLost := s.dieLost ||| (1 <<< k) }
  (s.engineFault (2 * k)).engineFault (2 * k + 1)

/-- The client port whose lanes include lane L. -/
def Dev.portOfLane (s : Dev) (l : Nat) : Option Nat :=
  (List.range 64).find? fun p => s.portExists p && decide (p ≤ l) && decide (l < p + s.portLanes p)

/-- A dual-clock queue of class "writer cannot wait" (Table 1.5). -/
def writerCannotWait (q : Nat) : Bool :=
  q < 8 ∨ (16 ≤ q ∧ q < 80) ∨ (184 ≤ q ∧ q < 200)

/-- A dual-clock queue of class "reader cannot wait" (Table 1.5). -/
def readerCannotWait (q : Nat) : Bool :=
  (8 ≤ q ∧ q < 16) ∨ (80 ≤ q ∧ q < 144) ∨ (200 ≤ q ∧ q < 216)

/-- Queue `q` overflows, where its class is "writer cannot wait", or underflows, where it is "reader cannot wait" (R18, R19): its flag
sets, E-00.16 is raised, and it stands still; an engine (an internal fault) or a client lane and its port fail. A queue of class "both wait" does neither. -/
def Dev.xqFail (q : Nat) (s : Dev) : Dev :=
  if writerCannotWait q || readerCannotWait q then
    let s := s.wr (if writerCannotWait q then Reg.LEVEL_OVERFLOW q else Reg.LEVEL_UNDERFLOW q) 1
    let s := { s with xqStopped := q :: s.xqStopped.filter fun x => x ≠ q }
    let s := s.raise 0 16
    if q < 8 then s.engineFault q
    else if q < 16 then s.settleCourses
    else if 16 ≤ q ∧ q < 144 then
      match s.portOfLane ((q - 16) % 64) with
      | some p => s.settlePort p
      | none => s
    else s
  else s

/-! ## Commands -/

/-- The depth of dual-clock queue `q` in entries (Table 1.5). -/
def xqDepth (q : Nat) : Nat :=
  if q < 16 then 64 else if q < 144 then 32 else if q < 176 then 128 else if q < 184 then 256 else if q < 216 then 32 else if q < 218 then 64 else 16

/-- The fill of a dual-clock queue at this instant: a free value up to its depth (log 3). -/
def Dev.xqFill (s : Dev) (q : Nat) : Nat :=
  Config.freeOf 96 [q, s.fresh] % (xqDepth q + 1)

/-- A write of HWM_CLEAR: ALL sets every HWM field to its queue's fill (Table 1.7). -/
def Dev.hwmClear (v : Word) (s : Dev) : Dev :=
  s.hostWrite xqPage 0x3B0 1#32 v fun s =>
    if v.getLsbD 0 then ((List.range 220).foldl (fun (d : Dev) q => d.wr (Reg.LEVEL_HWM q) (s.xqFill q)) s).tick else s

/-- XQ_HWM_CLEAR (R9, Table 1.7). -/
def execXqHwmClear (v : Word) (s : State) : Out :=
  s.run (Dev.hwmClear (v ||| 1#32))

/-- A write of REQ_HOST: the host forces any combination of steps (R33). -/
def Dev.reqHost (v : Word) (s : Dev) : Dev :=
  s.hostWrite shedPage 0x04C 0 v fun s => s.hbmEval

/-- SHED_REQ_HOST_WRITE (R33). -/
def execShedReqHostWrite (v : Word) (s : State) : Out :=
  s.run (Dev.reqHost v)

/-- PARSE_BE_SHARE_STEP (R31): 10 ms have passed since the share last moved. -/
def execParseBeShareStep (s : State) : Out :=
  s.run fun s => if s.hubOn then s.shareStep else s

/-- DIE_LINK_LOSS (R13, Table 7.5): link idle words of line die `k` missing for 64 µs. -/
def execDieLinkLoss (k : Fin 4) (s : State) : Out :=
  s.run fun s => if s.hubOn ∧ s.lineOn (2 * k) then s.dieFails k else s

end Sys2Proof.Machine
end

