-- ==== Sys2Proof/Machine/Sidereal.lean ====
section
/-!
DEFINITION. Sidereal (R327 to R350, R353): the references' monitors, agreement and selection, the DPLL, holdover, and the commands on TIME and
PACE. Frequencies are in 10^-12 and times in 2^-16 ns unless said otherwise.
-/
namespace Sys2Proof.Machine

/-- Pages 0x090 and 0x092. -/
abbrev dpllPage : Nat := 0x090

/-- Page 0x092, time. -/
abbrev timePage : Nat := 0x092

/-- The codes of DPLL_STAT.STATE (Table 12.3). -/
abbrev dpllFreerun : Nat := 0
abbrev dpllAcquire : Nat := 1
abbrev dpllLocked : Nat := 2
abbrev dpllHoldover : Nat := 3
abbrev dpllExpired : Nat := 4
abbrev dpllOff : Nat := 7

/-- DPLL_STAT.STATE; it is also what TSTATE[2:0] show (R340). -/
def Dev.dpll (s : Dev) : Nat :=
  s.rd Reg.DPLL_STAT_STATE

/-- A reference's monitors. -/
def Dev.ref (s : Dev) (r : Nat) : RefMon :=
  sget (dflt RefMon.reset) s.sid.refs r

/-- The state with a reference's monitors changed. -/
def Dev.setRef (r : Nat) (x : RefMon) (s : Dev) : Dev :=
  { s with sid := { s.sid with refs := sset (dflt RefMon.reset) s.sid.refs r x } }

/-- The references. -/
def refList : List Nat := List.range 17

/-! ## Selection (R337) -/

/-- A reference is eligible. -/
def Dev.eligible (s : Dev) (r : Nat) : Bool :=
  s.on (Reg.REF_EN r) && s.on (Reg.REF_QUALIFIED r) && !s.on (Reg.REF_DISSENT r) && decide (s.rd (Reg.REF_QL_EFF r) ≠ 15)

/-- A reference's place in the order of selection: quality level, priority, number. -/
def Dev.refRank (s : Dev) (r : Nat) : Nat :=
  (s.rd (Reg.REF_QL_EFF r) * 16 + s.rd (Reg.REF_PRIO r)) * 32 + r

/-- The first eligible reference. -/
def Dev.bestRef (s : Dev) : Option Nat :=
  (refList.filter s.eligible).foldl (fun b r =>
    match b with
    | none => some r
    | some a => if s.refRank r < s.refRank a then some r else some a) none

/-- The reference to be active; 31 for none (R337). -/
def Dev.chooseRef (s : Dev) : Nat :=
  if s.on Reg.SEL_CTRL_FORCE_EN then
    let f := s.rd Reg.SEL_CTRL_FORCE_REF
    if f < 17 ∧ s.eligible f then f else 31
  else
    match s.bestRef with
    | none => 31
    | some b =>
      let a := s.rd Reg.DPLL_STAT_ACTIVE_REF
      if a < 17 ∧ s.eligible a then
        if s.rd (Reg.REF_QL_EFF b) < s.rd (Reg.REF_QL_EFF a) ∨ s.on Reg.SEL_CTRL_REVERT then b else a
      else b

/-! ## The DPLL (R341 to R344) -/

/-- The time source is available (R341). -/
def Dev.timeSource (s : Dev) : Bool :=
  let r := s.rd Reg.TIME_CTRL_SRC_REF
  match s.rd Reg.TIME_CTRL_SRC with
  | 0 => true
  | 1 => s.rd Reg.PTP_STAT_SERVO = 3
  | 2 => s.on (Reg.REF_QUALIFIED r) && decide (s.rd (Reg.REF_FREQ_HZ r) = 1)
  | 3 => true
  | 4 => s.on (Reg.RP_STAT_TIME_VALID r)
  | _ => false

/-- Ready (R342). -/
def Dev.dpllReady (s : Dev) : Bool :=
  decide (s.rd Reg.DPLL_STAT_ACTIVE_REF < 17) && s.timeSource

/-- HIST_VALID set to a value, with E-07.08 where it changes (R343). -/
def Dev.setHist (v : Bool) (s : Dev) : Dev :=
  if s.on Reg.DPLL_STAT_HIST_VALID = v then s else (s.wrB Reg.DPLL_STAT_HIST_VALID v).raise 7 8

/-- The holdover frequency of this instant: the output offset averaged over the 60 s that end HO_GUARD_S before it, or over the seconds at hand of them (R343). -/
def Dev.holdMean (s : Dev) : Int :=
  let l := (s.sid.hist.drop (s.rd Reg.HO_CFG_HO_GUARD_S)).take 60
  if l = [] then s.rdS Reg.DPLL_FREQ_OFFSET else l.sum / (l.length : Int)

/-- A DPLL state entered, with E-07.00 and what the entry and the departure do (R342 to R344). -/
def Dev.dpllGo (st : Nat) (s : Dev) : Dev :=
  let was := s.dpll
  let s := if was = dpllLocked ∧ st ≠ dpllLocked then { s with sid := { s.sid with hoFreq := s.holdMean } } else s
  let s := if was = dpllHoldover then s.wr Reg.HO_STAT_ELAPSED_S ((s.clock - s.sid.hoSince) / 1000000000) else s
  let s := (s.wr Reg.DPLL_STAT_STATE st).raiseIf (decide (was ≠ st)) 7 0
  let s := if st = dpllHoldover then { s with sid := { s.sid with hoSince := s.clock } } else s
  let s := if st = dpllAcquire then { s with sid := { s.sid with ptpFirst := true } } else s
  if st = dpllFreerun then s.setHist false else s

/-- The DPLL's output follows the active reference: in ACQUIRE and LOCKED, and in an assisted HOLDOVER (Table 12.3, R344). -/
def Dev.followsRef (s : Dev) : Bool :=
  decide (s.rd Reg.DPLL_STAT_ACTIVE_REF < 17) && (decide (s.dpll = dpllAcquire) || decide (s.dpll = dpllLocked) || s.on Reg.HO_STAT_ASSISTED)

/-- DPLL_FREQ where Table 12.3 gives the output another source than the active reference: XO_IN in FREERUN, the history in HOLDOVER and HOLDOVER_EXPIRED. -/
def Dev.showFreq (s : Dev) : Dev :=
  if s.followsRef then s
  else if s.dpll = dpllFreerun then s.wrS Reg.DPLL_FREQ_OFFSET 0
  else if s.dpll = dpllHoldover ∨ s.dpll = dpllExpired then s.wrS Reg.DPLL_FREQ_OFFSET s.sid.hoFreq
  else s

/-- What shows beside the state: QL_OUT, ASSISTED (R344), and the output's offset. -/
def Dev.showDpll (s : Dev) : Dev :=
  let a := s.rd Reg.DPLL_STAT_ACTIVE_REF
  let s := s.wr Reg.DPLL_STAT_QL_OUT (if s.dpll = dpllLocked ∧ a < 17 then s.rd (Reg.REF_QL_EFF a) else s.rd Reg.HO_CFG_HO_QL)
  (s.wrB Reg.HO_STAT_ASSISTED (decide (s.dpll = dpllHoldover) && decide (s.rd Reg.TIME_CTRL_SRC ≠ 0) && decide (a < 17) && !s.timeSource)).showFreq

/-- One transition of Table 12.4 whose condition holds; `lost`: the reference that was active is not eligible any more. -/
def Dev.dpllNext (lost : Bool) (s : Dev) : Dev :=
  let st := s.dpll
  let ready := s.dpllReady
  let hold := if s.on Reg.DPLL_STAT_HIST_VALID then dpllHoldover else dpllFreerun
  if st = dpllOff then s
  else if st ≠ dpllFreerun ∧ s.on Reg.SEL_CTRL_FREERUN then s.dpllGo dpllFreerun
  else if st = dpllFreerun then (if ready ∧ ¬ s.on Reg.SEL_CTRL_FREERUN then s.dpllGo dpllAcquire else s)
  else if st = dpllAcquire then (if ready then s else s.dpllGo hold)
  else if st = dpllLocked then
    if ready then (if lost ∧ ¬ s.on Reg.SEL_CTRL_PBO then s.dpllGo dpllAcquire else s) else s.dpllGo hold
  else if st = dpllHoldover then
    if ready then s.dpllGo dpllAcquire
    else if s.on Reg.XO_STAT_FAIL then s.dpllGo dpllExpired
    else s
  else if st = dpllExpired then (if ready then s.dpllGo dpllAcquire else s)
  else s

/-- The active reference and the DPLL brought up to date (R337, R342). -/
def Dev.settleDpll (s : Dev) : Dev :=
  if s.dpll = dpllOff then s
  else
    let a := s.rd Reg.DPLL_STAT_ACTIVE_REF
    let lost := decide (a < 17) && !s.eligible a
    let b := s.chooseRef
    let s := (s.wr Reg.DPLL_STAT_ACTIVE_REF b).raiseIf (decide (a ≠ b)) 7 1
    ((s.dpllNext lost).dpllNext false).showDpll

/-- The loop bandwidth in force, a code of SEL_CTRL.BW: at most 0.1 Hz while a 1PPS reference is active (R339). -/
def Dev.loopBw (s : Dev) : Nat :=
  let a := s.rd Reg.DPLL_STAT_ACTIVE_REF
  if a < 4 ∧ s.rd (Reg.REF_FREQ_HZ a) = 1 then min (s.rd Reg.SEL_CTRL_BW) 1 else s.rd Reg.SEL_CTRL_BW

/-- What a loop of bandwidth `bw` takes off in a second, in 2^-16: of the frequency error (k = 0) and, in 10^-12 per ps, of the phase error (k = 1). The loop filter is not given: a
free value of the bandwidth (log 228). -/
def loopShare (bw k : Nat) : Nat :=
  Config.freeOf 117 [bw, k] % 65536 + 1

/-- A second of the loop: DPLL_FREQ drawn towards the active reference, within the pull-in range of ±12 ppm, and entered in the history (R339, R343). -/
def Dev.loopStep (s : Dev) : Dev :=
  let y := s.rdS Reg.DPLL_FREQ_OFFSET
  let f := s.rdS (Reg.REF_FREQ (s.rd Reg.DPLL_STAT_ACTIVE_REF))
  let next := y + ((f - y) * loopShare s.loopBw 0 + s.rdS Reg.DPLL_PHASE_ERROR * loopShare s.loopBw 1) / 65536
  let s := if s.followsRef then s.wrS Reg.DPLL_FREQ_OFFSET (max (-12000000) (min 12000000 next)) else s
  { s with sid := { s.sid with hist := (s.rdS Reg.DPLL_FREQ_OFFSET :: s.sid.hist).take 120 } }

/-! ## Monitors (R332, R333) -/

/-- QUALIFIED set to a value, with its REF_CHG bit and E-07.02 where it changes. -/
def Dev.setQualified (r : Nat) (v : Bool) (s : Dev) : Dev :=
  if s.on (Reg.REF_QUALIFIED r) = v then s
  else ((s.wrB (Reg.REF_QUALIFIED r) v).wr ⟨Reg.REF_CHG_CHG.cell, r, 1⟩ 1).raise 7 2

/-- The activity monitor of a reference (Table 12.1); `tref` for the TREF inputs. -/
def Dev.refActive (s : Dev) (tref : BitVec 4) (r : Nat) : Bool :=
  if r < 4 then tref.getLsbD r
  else if r < 12 then s.on (Reg.RX_RESAMP_STAT_TR_LOCK (r - 4))
  else if r < 16 then !s.on (Reg.LANE_STAT_LOL (64 + 4 * (r - 12))) && !s.on (Reg.LANE_STAT_LOS (64 + 4 * (r - 12)))
  else s.rd Reg.PTP_STAT_SERVO = 3

/-- A new reading of a reference: its monitors, and its qualification (R332, R333). -/
def Dev.refReading (r : Nat) (act : Bool) (f : Int) (s : Dev) : Dev :=
  if ¬ s.on (Reg.REF_EN r) then (s.setQualified r false).setRef r RefMon.reset
  else
    let x := s.ref r
    let fs := (f :: x.fs).take 101
    let freq : Bool := if f.natAbs ≤ 9200000 then true else if 12000000 < f.natAbs then false else s.on (Reg.REF_FREQ_OK r)
    let rate : Bool := match fs[100]? with
      | some g => decide ((f - g).natAbs ≤ s.rd Reg.MON_CFG_DRIFT_RATE * 10000)
      | none => true
    let span := s.rd Reg.MON_CFG_DRIFT_SPAN * 100000
    let apart := (f - s.rdS (Reg.REF_FREQ_Q r)).natAbs
    let spanBad := decide (span ≠ 0) && x.hasQ && (if x.spanBad then decide (span < 2 * apart) else decide (span < apart))
    let rateGood := bif rate then x.rateGood + 1 else 0
    let rateBad : Bool := !rate || (x.rateBad && decide (rateGood < 100))
    let passed := bif act && freq && rate then x.passed + 1 else 0
    let s := ((s.wrS (Reg.REF_FREQ r) f).wrB (Reg.REF_ACT_OK r) act).wrB (Reg.REF_FREQ_OK r) freq
    let s := s.wrB (Reg.REF_DRIFT_OK r) (rate && !spanBad)
    let s := s.setRef r { x with fs := fs, passed := passed, rateBad := rateBad, rateGood := rateGood, spanBad := spanBad }
    if s.on (Reg.REF_QUALIFIED r) then
      if act && freq && rate && !spanBad then s
      else (s.setQualified r false).raiseIf (!rate || spanBad) 7 4
    else if s.rd Reg.MON_CFG_QUAL_S ≤ passed ∧ ¬ rateBad ∧ ¬ spanBad then
      ((s.wrS (Reg.REF_FREQ_Q r) f).setRef r { s.ref r with hasQ := true }).setQualified r true
    else s

/-- The offset of reference `r` against XO_IN, where `freq` is the DPLL's own (Table 12.1): a line's recovered clock from RX_RESAMP_STAT.FREQ, in 0.01 ppm,
and a relay port's from `given`, its CDR steering word, each with the DPLL's own offset added; an edge count or the servo's estimate is `given` itself. A
reference of which nothing is given keeps its reading. -/
def Dev.refOffset (freq : Int) (given : Option Int) (r : Nat) (s : Dev) : Int :=
  if 4 ≤ r ∧ r < 12 then s.clockOffset (r - 4) * 10000 + freq
  else match given with
    | some f => if 12 ≤ r ∧ r < 16 then f + freq else f
    | none => s.rdS (Reg.REF_FREQ r)

/-- REF_MONITOR_UPDATE (R331 to R333): the readings of a second: activity of the TREF inputs, what is measured of each reference, and the DPLL's
phase error in ps; its own offset is DPLL_FREQ, which the loop then moves on. -/
def execRefMonitorUpdate (tref : BitVec 4) (offsets : List Int) (_freq : Found) (phase : Int) (s : State) : Out :=
  s.run fun s =>
    if s.hubOn then
      let s := s.wrS Reg.DPLL_PHASE_ERROR phase
      let freq := s.rdS Reg.DPLL_FREQ_OFFSET
      let s := refList.foldl (fun s r => s.refReading r (s.refActive tref r) (s.refOffset freq offsets[r]? r)) s
      s.settleDpll.loopStep
    else s

/-- REF_ACTIVITY_LOSS (R332). -/
def execRefActivityLoss (r : Fin 17) (s : State) : Out :=
  s.run fun s =>
    if s.hubOn ∧ s.on (Reg.REF_EN r) then
      ((((s.wr (Reg.REF_ACT_OK r) 0).setRef r { s.ref r with passed := 0 }).setQualified r false)).settleDpll
    else s

/-! ## Agreement (R335, R336) -/

/-- The agreement of two references. -/
def Dev.agreeOf (s : Dev) (i j : Nat) : Agree :=
  sget (dflt Agree.reset) s.sid.agree (17 * i + j)

/-- The state with the agreement of two references changed. -/
def Dev.setAgree (i j : Nat) (x : Agree) (s : Dev) : Dev :=
  { s with sid := { s.sid with agree := sset (dflt Agree.reset) s.sid.agree (17 * i + j) x } }

/-- Two references disagree. -/
def Dev.disagree (s : Dev) (i j : Nat) : Bool :=
  (if i < j then s.agreeOf i j else s.agreeOf j i).disagrees

/-- The qualified references of the rank of reference r, itself among them. -/
def Dev.rankOf (s : Dev) (r : Nat) : List Nat :=
  refList.filter fun q => s.on (Reg.REF_EN q) && s.on (Reg.REF_QUALIFIED q) &&
    decide (s.rd (Reg.REF_QL_EFF q) = s.rd (Reg.REF_QL_EFF r)) && decide (s.rd (Reg.REF_PRIO q) = s.rd (Reg.REF_PRIO r))

/-- A pair's average updated: 10 s of relative frequency against the limit (R335). -/
def Dev.agreeStep (i j : Nat) (s : Dev) : Dev :=
  let x := s.agreeOf i j
  let rel := (s.rdS (Reg.REF_FREQ i) - s.rdS (Reg.REF_FREQ j)) :: x.rel.take 9
  if rel.length < 10 then s.setAgree i j { x with rel := rel }
  else
    let bad := decide (s.rd Reg.AGREE_CFG_AGREE_PPB * 1000 * 10 < rel.sum.natAbs)
    let beyond := if bad then x.beyond + 1 else 0
    let within := if bad then 0 else x.within + 1
    let d := if 3 ≤ beyond then true else if 10 ≤ within then false else x.disagrees
    s.setAgree i j ⟨rel, min beyond 3, min within 10, d⟩

/-- How far a reference's offset has changed over the last 100 s. -/
def Dev.refChange (s : Dev) (r : Nat) : Nat :=
  let fs := (s.ref r).fs
  match fs, fs.getLast? with
  | f :: _, some g => (f - g).natAbs
  | _, _ => 0

/-- The mark that a reference has: 0 none, 1 DISSENT, 2 DISAGREE (R336). A DISSENT stays until the reference agrees again. -/
def Dev.markOf (s : Dev) (r : Nat) : Nat :=
  let others := (s.rankOf r).filter fun q => q ≠ r
  let bad := others.filter fun q => s.disagree r q
  let had := s.on (Reg.REF_DISSENT r)
  match others with
  | [] => if had then 1 else 0
  | [q] =>
    if bad = [] then 0
    else if had then 1
    else if s.on (Reg.REF_DISSENT q) then 0
    else
      let a := s.refChange r
      let b := s.refChange q
      if s.rd Reg.AGREE_CFG_AGREE_PPB * 1000 ≤ 2 * (max a b - min a b) then (if b < a then 1 else 0) else 2
  | _ => if others.length < 2 * bad.length then 1 else 0

/-- REF_AGREE_UPDATE (R335, R336). A pair of which one is not qualified has no average; whether it disagrees stays until the averages say otherwise. -/
def execRefAgreeUpdate (s : State) : Out :=
  s.run fun s =>
    if s.hubOn then
      let pairs := refList.flatMap fun i => (refList.filter fun j => i < j).map fun j => (i, j)
      let s := pairs.foldl (fun s (p : Nat × Nat) =>
        if s.on (Reg.REF_QUALIFIED p.1) ∧ (s.rankOf p.1).contains p.2 then s.agreeStep p.1 p.2
        else s.setAgree p.1 p.2 { Agree.reset with disagrees := (s.agreeOf p.1 p.2).disagrees }) s
      let marks := refList.map fun r => if s.on (Reg.REF_QUALIFIED r) then s.markOf r else (if s.on (Reg.REF_DISSENT r) then 1 else 0)
      let changed := (refList.zip marks).any fun e => s.on (Reg.REF_DISSENT e.1) != decide (e.2 = 1) || s.on (Reg.REF_DISAGREE e.1) != decide (e.2 = 2)
      let s := (refList.zip marks).foldl (fun s e => (s.wrB (Reg.REF_DISSENT e.1) (e.2 = 1)).wrB (Reg.REF_DISAGREE e.1) (e.2 = 2)) s
      (s.raiseIf changed 7 3).settleDpll
    else s

/-- REF_CMD written (R333, R336): RESET_SPAN lets a reference that is not qualified qualify again, and the f_q of one that is stays; a reference beyond 16 is refused. -/
def Dev.refCmd (v : Word) (s : Dev) : Dev :=
  s.hostWrite dpllPage 0x070 0x60#32 v fun s =>
    let r := getBits v 0 5
    if 16 < r then (s.viol dpllPage).raise 7 11
    else
      let s := if getBits v 5 1 = 1 ∧ ¬ s.on (Reg.REF_QUALIFIED r) then s.setRef r { s.ref r with spanBad := false, hasQ := false } else s
      if getBits v 6 1 = 1 then
        let had := s.on (Reg.REF_DISSENT r)
        let s := refList.foldl (fun s q => (s.setAgree r q Agree.reset).setAgree q r Agree.reset) s
        ((s.wr (Reg.REF_DISSENT r) 0).raiseIf had 7 3).settleDpll
      else s

/-- REF_RESET_SPAN (R333). -/
def execRefResetSpan (v : Word) (s : State) : Out :=
  s.run (Dev.refCmd (v ||| 0x20))

/-- REF_RESET_DISSENT (R336). -/
def execRefResetDissent (v : Word) (s : State) : Out :=
  s.run (Dev.refCmd (v ||| 0x40))

/-! ## Quality levels (R334) -/

/-- QL_EFF set, with E-07.05 where it changes. -/
def Dev.putQl (r ql : Nat) (s : Dev) : Dev :=
  if s.rd (Reg.REF_QL_EFF r) = ql then s else (s.wr (Reg.REF_QL_EFF r) ql).raise 7 5

/-- QL_EFF set, and the selection after it. -/
def Dev.setQl (r ql : Nat) (s : Dev) : Dev :=
  if s.rd (Reg.REF_QL_EFF r) = ql then s else (s.putQl r ql).settleDpll

/-- Whether a service queue is enabled and the service core consumes it (R432). -/
def Dev.serviceQueue (s : Dev) (q : Nat) : Bool :=
  s.on (Reg.Q_CFG_EN q) && s.on (Reg.Q_CFG_CONSUMER q)

/-- The service core takes what waits in a queue of its own (R432; DEDUCED, log 153). -/
def Dev.serviceTakes (q : Nat) (s : Dev) : Dev :=
  if (s.qu q).waiting = [] then s else (s.setQu q { s.qu q with waiting := [] }).showQueue q

/-- The quality level of an SSM code of network option 1, with the enhanced code of the extended QL TLV where there is one (ITU-T G.8264; PRESUMED, log 226). -/
def ssmQl (ssm : Nat) (ext : Option Nat) : Option Nat :=
  match ssm, ext with
  | 0x2, some 0x21 => some 0
  | 0x2, some 0x20 => some 1
  | 0x2, some 0x23 => some 2
  | 0x2, _ => some 3
  | 0x4, _ => some 4
  | 0x8, _ => some 5
  | 0xB, some 0x22 => some 6
  | 0xB, _ => some 7
  | 0xF, _ => some 15
  | _, _ => none

/-- The quality level that an ESMC PDU carries: the bytes of the frame from its destination address on, the QL TLV at byte 24 and the extended one after it
(ITU-T G.8264; PRESUMED, log 226). -/
def esmcQl (b : List Byte) : Option Nat :=
  let at_ (i n : Nat) : Nat := ofBytesBE (sliceBytes b i n)
  if 28 ≤ b.length ∧ at_ 12 2 = 0x8809 ∧ at_ 14 1 = 0x0A ∧ at_ 15 3 = 0x0019A7 ∧ at_ 18 2 = 1 ∧ at_ 20 1 / 16 = 1 ∧ at_ 24 1 = 1 ∧ at_ 25 2 = 4 then
    ssmQl (at_ 27 1 % 16) (if at_ 28 1 = 2 ∧ at_ 29 2 = 20 then some (at_ 31 1) else none)
  else none

/-- ESMC_PDU_RECEIVE: an ESMC PDU on the queue of reference r, which the service core must consume and decodes (R334, R432). -/
def execEsmcPduReceive (r : Fin 17) (pdu : List Byte) (s : State) : Out :=
  s.run fun s =>
    let q := s.rd (Reg.REF_ESMC_Q r)
    if s.hubOn ∧ s.on (Reg.REF_QL_SRC r) ∧ s.serviceQueue q then
      let s := s.serviceTakes q
      match esmcQl pdu with
      | some ql => s.setQl r ql
      | none => s
    else s

/-- ESMC_TIMEOUT: 5 s without a PDU. -/
def execEsmcTimeout (r : Fin 17) (s : State) : Out :=
  s.run fun s => if s.hubOn ∧ s.on (Reg.REF_QL_SRC r) then s.setQl r 15 else s

/-- The references after a commit of page 0x091: configured quality levels, and references no longer considered. -/
def Dev.settleRefs (s : Dev) : Dev :=
  let s := refList.foldl (fun s r =>
    let s := if s.on (Reg.REF_QL_SRC r) then s else s.putQl r (s.rd (Reg.REF_QL r))
    if s.on (Reg.REF_EN r) then s else (s.setQualified r false).setRef r RefMon.reset) s
  s.settleDpll

/-! ## DPLL commands -/

/-- The phase error is within a limit in ns and, with a time source, TIME_OFFSET within another (R341). -/
def Dev.phaseWithin (s : Dev) (ns tol : Nat) : Bool :=
  decide ((s.rdS Reg.DPLL_PHASE_ERROR).natAbs ≤ 1000 * ns) &&
    (decide (s.rd Reg.TIME_CTRL_SRC = 0) || decide ((s.rdS Reg.TIME_OFFSET_PS).natAbs ≤ 1000 * tol))

/-- DPLL_LOCK_ACHIEVED (R341): the lock criterion has held for LOCK_S. -/
def execDpllLockAchieved (s : State) : Out :=
  s.run fun s => if s.dpll = dpllAcquire ∧ s.dpllReady ∧ s.phaseWithin 10 (s.rd Reg.LOCK_CFG_TIME_TOL_NS) then (s.dpllGo dpllLocked).showDpll else s

/-- DPLL_LOCK_LOST (R342): out of tolerance for 1 s; without a time source there is no time offset to be out of it (DEDUCED, log 227). -/
def execDpllLockLost (s : State) : Out :=
  s.run fun s => if s.dpll = dpllLocked ∧ ¬ s.phaseWithin 100 (4 * s.rd Reg.LOCK_CFG_TIME_TOL_NS) then (s.dpllGo dpllAcquire).showDpll else s

/-- HIST_VALID_SET (R343): LOCKED without a break for HIST_MIN_S. -/
def execHistValidSet (s : State) : Out :=
  s.run fun s => if s.dpll = dpllLocked then s.setHist true else s

/-- HOLDOVER_EXPIRE (R342): the timer reaches LIMIT_S. -/
def execHoldoverExpire (s : State) : Out :=
  s.run fun s => if s.dpll = dpllHoldover then (s.dpllGo dpllExpired).showDpll else s

/-- XO_CHECK (R345): the offset of XO_IN against FXTAL in ppb. -/
def execXoCheck (ppb : Int) (s : State) : Out :=
  s.run fun s =>
    if s.hubOn then
      let bad := decide (20000 < ppb.natAbs)
      let news := bad && !s.on Reg.XO_STAT_FAIL
      let s := s.wrS Reg.XO_STAT_OFFSET_PPB ppb
      if news then ((s.wr Reg.XO_STAT_FAIL 1).raise 7 9).settleDpll else s
    else s

/-- XO_IN_LOSS (R345, R491): the hub clocks stop and every PLL but the Finder's is out of lock; the device is lost until it starts again. -/
def execXoInLoss (s : State) : Out :=
  s.run fun s =>
    if s.hubOn then
      let lost := popCount 8 (getBits (s.word Reg.PLL_STAT_HUB.cell) 0 8)
      let s := ((s.wr ⟨Reg.PLL_STAT_HUB.cell, 0, 8⟩ 0).bumpBy Reg.PLL_LOL_CNT lost).raise 1 6
      ({ s with power := { s.power with xoLost := true } } : Dev).abandonDigital
    else s

/-! ## TIME and PACE (R328, R329, R346, R353) -/

/-- The modulus of TIME and PACE: 2^48 seconds. -/
def timeModulus : Nat :=
  2 ^ 48 * 1000000000 * 65536

/-- PACE moves with a step or a set: every engine dark, no pulse output, no relay lane with LINK (R329). -/
def Dev.paceFree (s : Dev) : Bool :=
  ((List.range 8).all fun n => s.txs n = txDark) &&
  ((List.range 8).all fun k => decide (s.rd (Reg.OUT_KIND k) < 2)) &&
  ((List.range 16).all fun i => !s.on (Reg.LANE_STAT_LINK (64 + i)))

/-- PACE_OFFSET's registers, and E-07.07 where it has become non-zero (R353). -/
def Dev.showOffset (was : Int) (s : Dev) : Dev :=
  (s.wr64 Reg.PACE_OFF_LO (unsign 64 s.paceOffset)).raiseIf (decide (was = 0) && decide (s.paceOffset ≠ 0)) 7 7

/-- An amount added to TIME at once, and to PACE where R329 lets it move. -/
def Dev.addTime (d : Int) (s : Dev) : Dev :=
  let off := s.paceOffset
  let add (t : Nat) : Nat := (((t : Int) + d) % timeModulus).toNat
  let s := if s.paceFree then { s with time := add s.time, pace := add s.pace } else { s with time := add s.time }
  s.showOffset off

/-- The rest of a slew dropped, or replaced (R346). -/
def Dev.setSlew (d : Int) (s : Dev) : Dev :=
  ({ s with sid := { s.sid with slew := d, slewRest := if d = 0 then 0 else s.sid.slewRest } } : Dev).wrS Reg.TIME_STAT_SLEW_REMAIN (d / 65536)

/-- TIME_CMD.SNAP: TIME, and the Finder's FTIME in µs, latched (R346, R373). -/
def Dev.timeSnap (s : Dev) : Dev :=
  let ns := s.time / 65536
  let sec := ns / 1000000000
  let s := ((s.wr Reg.TIME_NS_NS (ns % 1000000000)).wr Reg.TIME_FRAC_FRAC (s.time % 65536)).wr Reg.TIME_SEC_LO_SEC (sec % 2 ^ 32)
  (s.wr Reg.TIME_SEC_HI_SEC (sec / 2 ^ 32)).wr Reg.HK_FTIME_SNAP_US (s.clock / 1000)

/-- TIME_SET's seconds. -/
def Dev.setSeconds (s : Dev) : Nat :=
  s.rd Reg.TIME_SET_SEC_LO + 2 ^ 32 * s.rd Reg.TIME_SET_SEC_HI

/-- TIME_CMD.SET. -/
def Dev.timeSet (s : Dev) : Dev :=
  let v : Int := ((s.setSeconds * 1000000000 + s.rd Reg.TIME_SET_NS) * 65536 : Nat)
  ((s.setSlew 0).addTime (v - s.time)).raise 7 6

/-- TIME_CMD.STEP; refused where PACE_OFFSET would leave its range. -/
def Dev.timeStep (s : Dev) : Dev :=
  let d := s.rdS Reg.TIME_ADJ_NS * 65536
  let off := s.paceOffset + d
  if ¬ s.paceFree ∧ (off < -(2 ^ 63) ∨ 2 ^ 63 ≤ off) then (s.viol timePage).raise 7 11
  else ((s.setSlew 0).addTime d).raise 7 6

/-- TIME_CMD.SLEW. -/
def Dev.timeSlew (s : Dev) : Dev :=
  s.setSlew (s.rdS Reg.TIME_ADJ_NS * 65536)

/-- TIME_CMD.TOD; refused unless SRC = 2. -/
def Dev.timeTod (s : Dev) : Dev :=
  if s.rd Reg.TIME_CTRL_SRC = 2 then
    let s := s.setSlew 0
    { s with sid := { s.sid with tod := some s.setSeconds } }
  else (s.viol timePage).raise 7 11

/-- TIME_CMD.ALIGN: PACE slews, or jumps at its next second (R353). -/
def Dev.timeAlign (jump : Bool) (s : Dev) : Dev :=
  { s with sid := { s.sid with aligning := !jump, jump := jump, alignRest := 0 } }

/-- A write of TIME_CMD: its bits act in ascending order (log 34). -/
def Dev.timeCmd (v : Word) (s : Dev) : Dev :=
  s.hostWrite timePage 0x048 0x7F#32 v fun s =>
    let does (i : Nat) (f : Dev → Dev) (s : Dev) : Dev := if getBits v i 1 = 1 then f s else s
    let s := does 1 Dev.timeSet (does 0 Dev.timeSnap s)
    let s := does 4 Dev.timeTod (does 3 Dev.timeSlew (does 2 Dev.timeStep s))
    does 5 (Dev.timeAlign (decide (getBits v 6 1 = 1))) s

/-- TIME_SNAP (R346). -/
def execTimeSnap (s : State) : Out :=
  s.run (Dev.timeCmd 0x01)

/-- TIME_SET (R346). -/
def execTimeSet (s : State) : Out :=
  s.run (Dev.timeCmd 0x02)

/-- TIME_STEP (R346). -/
def execTimeStep (s : State) : Out :=
  s.run (Dev.timeCmd 0x04)

/-- TIME_SLEW (R346). -/
def execTimeSlew (s : State) : Out :=
  s.run (Dev.timeCmd 0x08)

/-- TIME_SLEW_DONE (R328): the commanded amount has been added; with an amount still to be added the slew goes on. -/
def execTimeSlewDone (s : State) : Out :=
  s.run fun s => if s.hubOn ∧ s.sid.slew = 0 then s.setSlew 0 else s

/-- TIME_TOD (R346). -/
def execTimeTod (s : State) : Out :=
  s.run (Dev.timeCmd 0x10)

/-- TIME_ALIGN (R353). -/
def execTimeAlign (s : State) : Out :=
  s.run (Dev.timeCmd 0x20)

/-- TIME_ALIGN_JUMP (R353). -/
def execTimeAlignJump (s : State) : Out :=
  s.run (Dev.timeCmd 0x60)

/-- ALIGN_COMPLETE (R353): an alignment at whose instant PACE_OFFSET is 0 already, as one that a SET or STEP has brought there; one with an offset to remove goes on, and
ends with the tick that removes it (`Dev.runOn`, `Dev.advance`). -/
def execAlignComplete (s : State) : Out :=
  s.run fun s => if s.hubOn ∧ (s.sid.aligning ∨ s.sid.jump) ∧ s.paceOffset = 0 then s.alignEnd else s

/-- TIME drawn to its source by a slew: an offset measured while the DPLL is in ACQUIRE or LOCKED is to be taken off (Table 12.3, R347; by a slew DESIGN CHOICE,
log 229). -/
def Dev.pullTime (off : Int) (s : Dev) : Dev :=
  if s.timeSource ∧ (s.dpll = dpllAcquire ∨ s.dpll = dpllLocked) then s.setSlew (-off) else s

/-- An edge of the 1PPS reference that arrives at TIME `seen` (R346, R347): a waiting TOD gives its seconds; otherwise TIME_OFFSET shows TIME
less the source, cable and pin delay taken off, and TIME is drawn to it. -/
def Dev.ppsEdge (seen : Nat) (s : Dev) : Dev :=
  let j := s.rd Reg.TIME_CTRL_SRC_REF
  let late : Int := s.rdS (Reg.REF_CABLE_PS j) * 65536 / 1000 + sget (dflt 0) s.sid.pinIn j
  let inst : Int := (seen : Int) - late
  match s.sid.tod with
  | some sec =>
    let s := { s with sid := { s.sid with tod := none } }
    (s.addTime ((sec * 1000000000 * 65536 : Nat) - inst)).raise 7 6
  | none =>
    let second : Int := 1000000000 * 65536
    let ph := inst % second
    let ph := if second / 2 ≤ ph then ph - second else ph
    (s.wrS Reg.TIME_OFFSET_PS (ph * 1000 / 65536)).pullTime ph

/-- TREF_1PPS_EDGE (R346, R347). -/
def execTref1ppsEdge (seen : Nat) (s : State) : Out :=
  s.run fun s => if s.hubOn ∧ s.rd Reg.TIME_CTRL_SRC = 2 then s.ppsEdge seen else s

/-! ## PTP (R347, R348) -/

/-- The code of a servo state (R348). -/
def servoCode : PtpServo → Nat
  | .listening => 1
  | .acquiring => 2
  | .locked => 3
  | .holdover => 4

/-- PTP_STAT.SERVO set, with E-07.12 where it changes. -/
def Dev.setServo (v : Nat) (s : Dev) : Dev :=
  if s.rd Reg.PTP_STAT_SERVO = v then s else (s.wr Reg.PTP_STAT_SERVO v).raise 7 12

/-- The servo after a commit of page 0x094: disabled with EN = 0, and listening from a new EN = 1 on. -/
def Dev.ptpCommit (s : Dev) : Dev :=
  if ¬ s.on Reg.PTP_CFG_EN then s.setServo 0
  else if s.rd Reg.PTP_STAT_SERVO = 0 then s.setServo 1
  else s

/-- What a PTP message carries (IEEE 1588-2019; PRESUMED, log 230): its type, sequence number, two-step flag, correction in 2^-16 ns, and its timestamp in 2^-16 ns; none where
the bytes are no message of version 2 in the domain. -/
structure PtpFields where
  kind : Nat
  seq : Nat
  twoStep : Bool
  correction : Int
  stamp : Int
  deriving DecidableEq, Repr

/-- A PTP message read from its bytes, from its header on. -/
def ptpFields (domain : Nat) (b : List Byte) : Option PtpFields :=
  let at_ (i n : Nat) : Nat := ofBytesBE (sliceBytes b i n)
  if 44 ≤ b.length ∧ at_ 1 1 % 16 = 2 ∧ at_ 4 1 = domain ∧ at_ 0 1 / 16 = 0 then
    some ⟨at_ 0 1 % 16, at_ 30 2, decide (at_ 6 1 / 2 % 2 = 1), signed 64 (at_ 8 8), ((at_ 34 6 * 1000000000 + at_ 40 4) * 65536 : Nat)⟩
  else none

/-- The instants t1 and t4 of a delay request-response exchange, corrections in them: the origin of the Sync, from its Follow_Up in two-step mode, and the receipt of the
Delay_Req. -/
def ptpTimes (domain : Nat) (sync follow resp : List Byte) : Option (Int × Int) :=
  match ptpFields domain sync, ptpFields domain resp with
  | some a, some r =>
    if a.kind ≠ 0 ∨ r.kind ≠ 9 then none
    else if a.twoStep then
      match ptpFields domain follow with
      | some f => if f.kind = 8 ∧ f.seq = a.seq then some (f.stamp + f.correction + a.correction, r.stamp - r.correction) else none
      | none => none
    else some (a.stamp + a.correction, r.stamp - r.correction)
  | _, _ => none

/-- PTP_EVENT_MESSAGE: a measurement is complete: its servo's state, and the four instants
of the delay request-response mechanism with their corrections, 2^-16 ns (R348). The servo's own filter is not given. -/
def Dev.ptpMessage (servo : Nat) (t1 t2 t3 t4 : Int) (s : Dev) : Dev :=
  let off := ((t2 - t1) - (t4 - t3)) / 2
  let s := s.setServo servo
  let s := (s.wrS Reg.PTP_OFFSET_PS (off * 1000 / 65536)).wrS Reg.PTP_MPD_PS (((t2 - t1) + (t4 - t3)) / 2 * 1000 / 65536)
  let s := if s.rd Reg.TIME_CTRL_SRC = 1 then
      let s := s.wrS Reg.TIME_OFFSET_PS (off * 1000 / 65536)
      let first := s.sid.ptpFirst
      let s := { s with sid := { s.sid with ptpFirst := false } }
      if first ∧ 1000000 * 65536 < off.natAbs then ((s.setSlew 0).addTime (-off)).raise 7 6 else s.setSlew (-off)
    else s
  s.settleDpll

/-- A Delay_Req message of the service core at the end of best-effort queue 3 of port PTP_CFG.PORT (R348). Its bytes are IEEE 1588's, free values here: 60 over
IEEE 802.3, padding with them, and 86 over UDP/IPv4, which the profile of G.8275.1 does not use (DESIGN CHOICE, log 196). -/
def Dev.delayReq (s : Dev) : Dev :=
  let p := s.rd Reg.PTP_CFG_PORT
  let n := if s.on Reg.PTP_CFG_PROFILE ∨ s.free % 2 = 0 then 60 else 86
  let bytes : List Byte := (List.range n).map fun k => BitVec.ofNat 8 (Config.freeOf 110 [s.fresh, k])
  let q := 2048 + 4 * p + 3
  let s := s.tick
  if s.portExists p then
    let r := s.beEnter q (s.rd (Reg.PORT_CFG_BE_MAX_PKT p)) (decide (s.beq q = [])) ⟨coreFlow, 0, bytes, s.time, 0, false, false⟩
    if r.1 then r.2 else r.2.dropPacket 3 p none (n + 4)
  else s

/-- PTP_EVENT_MESSAGE: on queue PTP_CFG.QUEUE, which the service core must consume: the Delay_Resp that completes a measurement, with the Sync and Follow_Up before it, and the
device's own timestamps of the Sync and of its Delay_Req; messages that make no measurement in the domain leave the servo. The Delay_Req of the next
measurement follows it (R348, R432; DESIGN CHOICE, log 196). -/
def execPtpEventMessage (servo : PtpServo) (sync follow resp : List Byte) (own : PtpStamps) (s : State) : Out :=
  s.run fun s =>
    let q := s.rd Reg.PTP_CFG_QUEUE
    if s.hubOn ∧ s.on Reg.PTP_CFG_EN ∧ s.serviceQueue q then
      let s := s.serviceTakes q
      match ptpTimes (s.rd Reg.PTP_CFG_DOMAIN) sync follow resp with
      | some t => (s.ptpMessage (servoCode servo) t.1 own.sync own.delayReq t.2).delayReq
      | none => s
    else s

end Sys2Proof.Machine
end

