-- ==== Sys2Proof/Machine/Lanes.lean ====
section
/-!
DEFINITION. Serial lanes, relay coding, transit courses, time over the relay and the PRBS page (R386 to R403, R407, R408, R413 to R416).
Lane x is client lane x for x below 64, and lane l of relay port p for x = 64 + 4p + l.
-/
namespace Sys2Proof.Machine

/-- The page that holds the block of lane x (R417). -/
def lanePage (x : Nat) : Nat :=
  if x < 64 then 0x2C0 + x else 0x381 + (x - 64) / 4

/-- The offset of the block of lane x in its page. -/
def laneOff (x : Nat) : Nat :=
  if x < 64 then 0x200 else 0x080 + 0x40 * ((x - 64) % 4)

/-- A change of lane x: the event of its client lane or of its relay lane (R416). -/
def Dev.laneChange (x : Nat) (s : Dev) : Dev :=
  if x < 64 then s.laneEvent x 0 else s.raise 28 (x - 64)

/-- What a relay lane holds. -/
def Dev.rlane (s : Dev) (x : Nat) : RelayLane :=
  sget (dflt RelayLane.reset) s.relay.lanes x

/-- The state with a relay lane changed. -/
def Dev.setRlane (x : Nat) (r : RelayLane) (s : Dev) : Dev :=
  { s with relay := { s.relay with lanes := sset (dflt RelayLane.reset) s.relay.lanes x r } }

/-- What a relay port holds. -/
def Dev.rport (s : Dev) (p : Nat) : RelayPort :=
  sget (dflt RelayPort.reset) s.relay.ports p

/-- The state with a relay port changed. -/
def Dev.setRport (p : Nat) (r : RelayPort) (s : Dev) : Dev :=
  { s with relay := { s.relay with ports := sset (dflt RelayPort.reset) s.relay.ports p r } }

/-! ## Service levels of a relay lane (R396) -/

/-- LINK holds: neither LOS nor LOL, in frame sync, not in low power, and its queues run (R19). -/
def Dev.linkOk (s : Dev) (x : Nat) : Bool :=
  !s.on (Reg.LANE_STAT_LOS x) && !s.on (Reg.LANE_STAT_LOL x) && (s.rlane x).sync && !s.on (Reg.LANE_STAT_LP x) &&
  !s.xqStopped.contains (184 + (x - 64)) && !s.xqStopped.contains (200 + (x - 64))

/-- TRANSIT_OK (R396); a port where a second head has been heard is used for nothing (R411). -/
def Dev.transitOk (s : Dev) (x : Nat) : Bool :=
  s.on (Reg.LANE_STAT_LINK x) && s.on (Reg.LANE_STAT_WINDOW_OK x) && !s.on (Reg.RP_STAT_CONFLICT ((x - 64) / 4))

/-- The lane that carries relay slot k. -/
def slotLane (k : Nat) : Nat :=
  64 + k / 4

/-- The lane 0 of relay port p has LINK. -/
def Dev.portLink (s : Dev) (p : Nat) : Bool :=
  s.on (Reg.LANE_STAT_LINK (64 + 4 * p))

/-- Port p is used: lane 0 has LINK (R396), and no second head has been heard there (R411). -/
def Dev.portOpen (s : Dev) (p : Nat) : Bool :=
  s.portLink p && !s.on (Reg.RP_STAT_CONFLICT p)

/-! ## Transit (R398, R403) -/

/-- What relay slot k has received. -/
def Dev.rslot (s : Dev) (k : Nat) : RelaySlot :=
  sget (dflt RelaySlot.reset) s.relay.rx k

/-- The state with a received relay slot changed. -/
def Dev.setRslot (k : Nat) (x : RelaySlot) (s : Dev) : Dev :=
  { s with relay := { s.relay with rx := sset (dflt RelaySlot.reset) s.relay.rx k x } }

/-- A block of zeros with mark FAILED. -/
def failedBlock : List Byte × Nat :=
  (List.replicate 64 0, 2)

/-- RCRS.SF of remote course c brought up to date (R403): a member's slot is idle, or its lane is not TRANSIT_OK. -/
def Dev.settleRemote (c : Nat) (s : Dev) : Dev :=
  let ks := (s.listed tableRRX).filter fun k => s.rd (Reg.RRX_KIND k) = 1 && decide (s.rd (Reg.RRX_COURSE k) = c)
  s.wrB (Reg.RCRS_SF c) (s.remoteRx c && ks.any fun k => !s.transitOk (slotLane k) || decide ((s.rslot k).now.row0 = 127))

/-- Every remote course brought up to date. -/
def Dev.settleRemotes (s : Dev) : Dev :=
  s.remotes.foldl (fun s c => s.settleRemote c) s

/-- The rows that a forwarding device sends for received slot k (R399): each row 16 rows later, so the last 16 of the lane frame before and
the first 49 of the one now; zero rows with mark FAILED where the lane is not TRANSIT_OK (R403). -/
def forwardRows (old now : RelayColumn) (ok : Bool) : RelayColumn :=
  if !ok then ⟨0, List.replicate 65 failedBlock, []⟩
  else if old.row0 = 127 ∧ now.row0 = 127 then RelayColumn.idle
  else
    let row0 := if old.row0 = 127 then (now.row0 + 49) % 65 else (old.row0 + 49) % 65
    let part (c : RelayColumn) (start n : Nat) := if c.row0 = 127 then List.replicate n failedBlock else (c.rows.drop start).take n
    ⟨row0, part old 49 16 ++ part now 0 49, []⟩

/-- The slots that forward received relay slot k sent on. -/
def Dev.forward (k : Nat) (old now : RelayColumn) (s : Dev) : Dev :=
  ((s.listed tableRTX).filter fun t => s.rd (Reg.RTX_KIND t) = 2 && decide (s.rd (Reg.RTX_FROM t) = k)).foldl
    (fun s t => s.setRelayTx t (forwardRows old now (s.transitOk (slotLane k)))) s

/-- A column of member j of remote course c taken by its framing device X from relay slot k: its overhead is checked, and its blocks are held
for the course frame (R163, R170, R398). -/
def Dev.remoteColumn (k c j : Nat) (col : List (List Byte × Nat)) (s : Dev) : Dev :=
  match col with
  | [] => s
  | (b, mark) :: rows =>
    let ok := columnValid 0xFFFF b && decide (mark < 2)
    let serial := if ok then fieldBE b 11 6 else (sget (dflt 0) s.colSerial (1024 + k) + 1) % 2 ^ 48
    let m : Member := ⟨serial, j, ok, ok && bitAt (fieldBE b 7 1) 5, rows.foldl (fun a r => max a r.2) mark,
      rows.flatMap (·.1), if ok then b else [], s.clock⟩
    let s := { s with colSerial := sset (dflt 0) s.colSerial (1024 + k) serial }
    let s := s.setCo c { s.co c with held := (s.co c).held ++ [m] }
    if j = 0 then
      if ok then
        let mfas := fieldBE b 6 1
        let s := (s.ttiIn c mfas (some (BitVec.ofNat 8 (fieldBE b 17 1)))).bdiIn c (bitAt (fieldBE b 18 1) 7)
        s.srIn c (fieldLE b 19 4)
      else s.leadBad c (fieldBE b 6 1)
    else s

/-- A member's column that relay slot k brings with mark FAILED, where the slot belongs to a remote course (R403). -/
def Dev.failedColumn (k : Nat) (s : Dev) : Dev :=
  if s.rd (Reg.RRX_KIND k) = 1 then s.remoteColumn k (s.rd (Reg.RRX_COURSE k)) (s.rd (Reg.RRX_MEMBER k)) (List.replicate 65 failedBlock) else s

/-- The blocks of relay slot k of a lane frame taken: `row0` and the 65 blocks with their marks. -/
def Dev.slotIn (k row0 : Nat) (rows : List (List Byte × Nat)) (s : Dev) : Dev :=
  let x := s.rslot k
  let now : RelayColumn := if row0 < 65 then ⟨row0, rows, rows.drop (65 - row0)⟩ else RelayColumn.idle
  let whole := if row0 < 65 ∧ x.now.rest.length = row0 then x.now.rest ++ rows.take (65 - row0) else []
  let s := (s.setRslot k ⟨now, whole⟩).forward k x.now now
  if s.rd (Reg.RRX_KIND k) = 1 then
    let c := s.rd (Reg.RRX_COURSE k)
    let s := if row0 < 65 then s.remoteColumn k c (s.rd (Reg.RRX_MEMBER k)) whole else s.failedColumn k
    s.settleRemote c
  else s

/-- The slots of a lane that is not TRANSIT_OK (R403): what they had received is not used, forwarded slots send FAILED rows, and the remote
courses are in signal fail. -/
def Dev.slotsFail (x : Nat) (s : Dev) : Dev :=
  let s := (List.range 4).foldl (fun s i =>
    let k := 4 * (x - 64) + i
    (s.setRslot k RelaySlot.reset).forward k RelayColumn.idle RelayColumn.idle) s
  s.settleRemotes

/-- The remote columns of a frame in which their lanes were not TRANSIT_OK: their blocks are FAILED (R403). -/
def Dev.remotesFail (s : Dev) : Dev :=
  ((s.listed tableRRX).filter fun k => !s.transitOk (slotLane k)).foldl (fun s k => s.failedColumn k) s

/-- LINK of relay lane x brought up to date, with its event and, without TRANSIT_OK, the effect on its slots (R396, R403). -/
def Dev.settleLink (x : Nat) (s : Dev) : Dev :=
  if x < 64 then s
  else
    let v := s.linkOk x
    let s := if s.on (Reg.LANE_STAT_LINK x) = v then s else (s.wrB (Reg.LANE_STAT_LINK x) v).laneChange x
    if s.transitOk x then s.settleRemotes else s.slotsFail x

/-- RP_STAT.TIME_VALID of port p brought up to date (R408). -/
def Dev.settleTime (p : Nat) (s : Dev) : Dev :=
  let r := s.rport p
  let v := s.portOpen p && decide (16 ≤ r.goodFields) && r.flags
  if s.on (Reg.RP_STAT_TIME_VALID p) = v then s else ((s.wrB (Reg.RP_STAT_TIME_VALID p) v).raise 28 21).settleDpll

/-! ## Routes (R412) -/

/-- The path to a member that the head takes: the fewest hops over the ports whose link holds, ties to the lower port. -/
def Dev.route (s : Dev) (m : ChainMember) : Option (Nat × Nat) :=
  (m.paths.filter fun e => s.portOpen e.1).foldl (fun b e =>
    match b with
    | none => some e
    | some a => if e.2 < a.2 ∨ (e.2 = a.2 ∧ e.1 < a.1) then some e else some a) none

/-- The routes of the chain's members. -/
def Dev.routes (s : Dev) : List (Option (Nat × Nat)) :=
  s.relay.chain.map s.route

/-- RING and the routes after a change of a port's link: E-28.23 where one changes (R412). -/
def Dev.settleRing (before : List (Option (Nat × Nat))) (s : Dev) : Dev :=
  let ring := decide (s.relay.ring ≠ []) && s.relay.ring.all s.portOpen
  let changed := s.on Reg.CHAIN_STAT_RING != ring || decide (before ≠ s.routes)
  (s.wrB Reg.CHAIN_STAT_RING ring).raiseIf changed 28 23

/-- A change to relay lane x made, with LINK, the port's time transfer and the routes brought up to date; for a client lane the change alone. -/
def Dev.laneStep (x : Nat) (f : Dev → Dev) (s : Dev) : Dev :=
  if x < 64 then f s
  else
    let before := s.routes
    ((((f s).settleLink x).settleTime ((x - 64) / 4)).settleRing before)

/-! ## Lane commands (R387 to R390) -/

/-- Whether the part has lane x. -/
def Dev.hasLane (s : Dev) (x : Nat) : Bool :=
  s.hubOn && (decide (64 ≤ x) || s.laneOn x)

/-- LANE_LOS_DECLARE (R388). -/
def execLaneLosDeclare (x : Fin 80) (s : State) : Out :=
  s.run fun s =>
    if s.hasLane x ∧ ¬ s.on (Reg.LANE_STAT_LOS x) then
      s.laneStep x fun s => ((s.wr (Reg.LANE_STAT_LOS x) 1).bump (Reg.LANE_CNT_LOS_CNT x)).laneChange x
    else s

/-- LANE_LOS_CLEAR (R388): the receiver adapts anew (R387). -/
def execLaneLosClear (x : Fin 80) (s : State) : Out :=
  s.run fun s =>
    if s.hasLane x ∧ s.on (Reg.LANE_STAT_LOS x) then
      s.laneStep x fun s => ((s.wr (Reg.LANE_STAT_LOS x) 0).wr (Reg.LANE_STAT_ADAPT_DONE x) 0).laneChange x
    else s

/-- LANE_LOL_DECLARE (R388): not evaluated during LOS. -/
def execLaneLolDeclare (x : Fin 80) (s : State) : Out :=
  s.run fun s =>
    if s.hasLane x ∧ ¬ s.on (Reg.LANE_STAT_LOS x) ∧ ¬ s.on (Reg.LANE_STAT_LOL x) then
      s.laneStep x fun s => ((s.wr (Reg.LANE_STAT_LOL x) 1).bump (Reg.LANE_CNT_LOL_CNT x)).laneChange x
    else s

/-- LANE_LOL_CLEAR (R388). -/
def execLaneLolClear (x : Fin 80) (s : State) : Out :=
  s.run fun s =>
    if s.hasLane x ∧ ¬ s.on (Reg.LANE_STAT_LOS x) ∧ s.on (Reg.LANE_STAT_LOL x) then
      s.laneStep x fun s => (s.wr (Reg.LANE_STAT_LOL x) 0).laneChange x
    else s

/-- LANE_ADAPT_DONE (R387). -/
def execLaneAdaptDone (x : Fin 80) (s : State) : Out :=
  s.run fun s => if s.hasLane x ∧ ¬ s.on (Reg.LANE_STAT_LP x) then s.wr (Reg.LANE_STAT_ADAPT_DONE x) 1 else s

/-- The sum of the magnitudes of a LANE_TXEQ word's taps (R387). -/
def txeqSum (v : Word) : Nat :=
  (signed 5 (getBits v 0 5)).natAbs + (signed 5 (getBits v 8 5)).natAbs + getBits v 16 6 + (signed 5 (getBits v 24 5)).natAbs

/-- A write of LANE_TXEQ (R387). -/
def Dev.txeqWrite (x : Nat) (v : Word) (s : Dev) : Dev :=
  if 63 < txeqSum v then s.viol (lanePage x) else s.writeWord (lanePage x) (laneOff x + 4) 0 v

/-- LANE_TXEQ_WRITE (R387). -/
def execLaneTxeqWrite (x : Fin 80) (v : Word) (s : State) : Out :=
  s.run fun s => s.onHeldWrite (lanePage x) (laneOff x + 4) (.word (lanePage x) (laneOff x + 4) v) (Dev.txeqWrite x v)

/-- The client port of lane x is not aligned while the lane is in low power (R389). -/
def Dev.portLosesLane (x : Nat) (s : Dev) : Dev :=
  match (if x < 64 then s.portOfLane x else none) with
  | some p => s.setPort p false (s.on (Reg.PORT_STAT_HI_SER p)) (s.on (Reg.PORT_STAT_LOCAL_FAULT p)) (s.on (Reg.PORT_STAT_REMOTE_FAULT p))
  | none => s

/-- Low power entered (R389): LB, the PRBS generator and the checker are off. -/
def Dev.lpEnter (x : Nat) (s : Dev) : Dev :=
  s.laneStep x fun s =>
    let same := (decide (64 ≤ x) || s.on (Reg.LANE_STAT_LP x)) && !s.on (Reg.LANE_STAT_READY x)
    let s := ((s.wr (Reg.LANE_CTRL_LP x) 1).wr (Reg.LANE_CTRL_LB x) 0).wr (Reg.LANE_STAT_LP x) 1
    let s := ((s.wr (Reg.LANE_STAT_READY x) 0).wr (Reg.LANE_STAT_ADAPT_DONE x) 0).wr (Reg.PRBS_CTRL_GEN_EN x) 0
    let s := (s.wr (Reg.PRBS_CTRL_CHK_EN x) 0).wr (Reg.PRBS_STAT_LOCK x) 0
    let s := if x < 64 then s else s.setRlane x RelayLane.reset
    (if same then s else s.laneChange x).portLosesLane x

/-- Whether lane x is kept in low power: its relay port's block is out of service (Table 18.3). -/
def Dev.laneHeld (s : Dev) (x : Nat) : Bool :=
  decide (64 ≤ x) && s.blockOut (56 + (x - 64) / 4)

/-- The dual-clock queues of lane x, which run again once the lane is enabled anew (R19). -/
def Dev.queuesOn (x : Nat) (s : Dev) : Dev :=
  let qs := if x < 64 then [16 + x, 80 + x] else [184 + (x - 64), 200 + (x - 64)]
  { s with xqStopped := s.xqStopped.filter fun q => !qs.contains q }

/-- The exit from low power started (R389): its queues run again (R19), and LP, which is no cause of a relay lane's event, falls (R416). -/
def Dev.lpExit (x : Nat) (s : Dev) : Dev :=
  let s := s.wr (Reg.LANE_CTRL_LP x) 0
  if s.on (Reg.LANE_STAT_LP x) ∧ ¬ s.laneHeld x then
    s.laneStep x fun s =>
      let s := (s.queuesOn x).wr (Reg.LANE_STAT_LP x) 0
      if x < 64 then s.laneChange x else s
  else s

/-- LB and the PRBS enables cannot be set on lane x: low power, or an exit from it runs (R389). -/
def Dev.laneAsleep (s : Dev) (x : Nat) : Bool :=
  s.on (Reg.LANE_CTRL_LP x) || !s.on (Reg.LANE_STAT_READY x)

/-- A loopback selected or removed (R390); a near-end serial loopback makes the receiver adapt anew. -/
def Dev.setLoopback (x lb : Nat) (s : Dev) : Dev :=
  if lb ≠ 0 ∧ s.laneAsleep x then s.viol (lanePage x)
  else
    let change := decide (s.rd (Reg.LANE_CTRL_LB x) ≠ lb) && (decide (lb = 1) || decide (s.rd (Reg.LANE_CTRL_LB x) = 1))
    let s := if s.rd (Reg.LANE_CTRL_LB x) = lb then s else (s.wr (Reg.LANE_CTRL_LB x) lb).setEcho x []
    if change then s.wr (Reg.LANE_STAT_ADAPT_DONE x) 0 else s

/-- A write of LANE_CTRL of lane x that changes one field, as a block under test holds it. -/
def Dev.heldLane (s : Dev) (x lsb width v : Nat) : HeldWrite :=
  .word (lanePage x) (laneOff x) (setBits (s.word (regCell (lanePage x) (laneOff x))) lsb width v)

/-- LANE_LP_ENTER (R389). -/
def execLaneLpEnter (x : Fin 80) (s : State) : Out :=
  s.run fun s => s.onHeldWrite (lanePage x) (laneOff x) (s.heldLane x 0 1 1) (Dev.lpEnter x)

/-- LANE_LP_EXIT (R389). -/
def execLaneLpExit (x : Fin 80) (s : State) : Out :=
  s.run fun s => s.onHeldWrite (lanePage x) (laneOff x) (s.heldLane x 0 1 0) (Dev.lpExit x)

/-- LANE_READY (R389): the exit ends with the CDR locked and ADAPT_DONE set. -/
def execLaneReady (x : Fin 80) (s : State) : Out :=
  s.run fun s =>
    if s.hasLane x ∧ ¬ s.on (Reg.LANE_STAT_LP x) ∧ ¬ s.on (Reg.LANE_STAT_READY x) then
      s.laneStep x fun s => ((s.wr (Reg.LANE_STAT_READY x) 1).wr (Reg.LANE_STAT_ADAPT_DONE x) 1).laneChange x
    else s

/-- LANE_LOOPBACK_SET (R390). -/
def execLaneLoopbackSet (x : Fin 80) (lb : BitVec 2) (s : State) : Out :=
  s.run fun s => s.onHeldWrite (lanePage x) (laneOff x) (s.heldLane x 1 2 lb.toNat) (Dev.setLoopback x lb.toNat)

/-! ## Relay coding (R391 to R395) -/

/-- The bit pair of a symbol level: Gray code (R390). -/
def grayBits (level : Nat) : Nat :=
  match level with
  | 0 => 0
  | 1 => 1
  | 2 => 3
  | _ => 2

/-- The bytes that levels spell, most significant bits first. -/
def levelBytes : List Nat → List Byte
  | a :: b :: c :: d :: r => BitVec.ofNat 8 (64 * grayBits a + 16 * grayBits b + 4 * grayBits c + grayBits d) :: levelBytes r
  | _ => []

/-- The levels that bytes are sent as. -/
def byteLevels (bs : List Byte) : List Nat :=
  bs.flatMap fun b => [3, 2, 1, 0].map fun i => grayLevel (b.toNat / 4 ^ i % 4)

/-- SYNC (Table 14.2). -/
def relaySync : List Byte :=
  bytesBE 8 0x9D2C5AF13E8607B4

/-- INFO of lane l's lane frame (Table 14.2). -/
def relayInfo (l mfas : Nat) (row0 : List Nat) : List Byte :=
  let b := bytesBE 1 l ++ bytesBE 1 mfas ++ row0.flatMap (bytesBE 1)
  b ++ bytesBE 2 (crc16 0xFFFF b)

/-- The next bit of the generator of polynomial x^58 + x^39 + 1, and its next state; bit 57 of the state is its oldest bit (R393). -/
def relayScrambleStep (g : Nat) : Nat × Nat :=
  let b := ofBool (bitAt g 57 != bitAt g 38)
  (b, (2 * g + b) % 2 ^ 58)

/-- Eight bits of the generator, first bit most significant, and the state after them. -/
def relayScrambleByte : Nat → Nat → Nat → Nat × Nat
  | 0, acc, g => (acc, g)
  | n + 1, acc, g => let p := relayScrambleStep g; relayScrambleByte n (2 * acc + p.1) p.2

/-- Bytes with the generator's output added, from a state on. -/
def relayScrambleFrom : Nat → List Byte → List Byte
  | _, [] => []
  | g, b :: bs => let p := relayScrambleByte 8 0 g; (b ^^^ BitVec.ofNat 8 p.1) :: relayScrambleFrom p.2 bs

/-- The payload of a lane frame scrambled, or descrambled (R393). -/
def relayScramble (l mfas : Nat) (bs : List Byte) : List Byte :=
  relayScrambleFrom ((2 ^ 48 - 1) * 2 ^ 10 + (256 * l + mfas)) bs

/-- Payload levels stuffed (R394): after 40 identical symbols comes level 3 after a run of 0 or 1, and level 0 after a run of 2 or 3. `n` symbols of level
`last` have been sent. -/
def stuffFrom : Nat → Nat → List Nat → List Nat
  | _, _, [] => []
  | last, n, x :: xs =>
    let run := if n ≠ 0 ∧ x = last then n + 1 else 1
    if run = 40 ∧ xs ≠ [] then
      let y := if x < 2 then 3 else 0
      x :: y :: stuffFrom y 1 xs
    else x :: stuffFrom x run xs

/-- Payload symbols taken out of received levels (R395): `want` are still wanted. Answers them, most recent last, and how many were taken
before each stuffing error. -/
def destuffFrom (want : Nat) : Nat → Nat → Nat → List Nat → List Nat × List Nat
  | _, _, _, [] => ([], [])
  | got, last, n, x :: xs =>
    if got = want then ([], [])
    else if n = 40 then
      -- the stuff symbol is discarded, and opens the next run
      let r := destuffFrom want got x 1 xs
      if x = last then (r.1, got :: r.2) else r
    else
      let r := destuffFrom want (got + 1) x (if n ≠ 0 ∧ x = last then n + 1 else 1) xs
      (x :: r.1, r.2)

/-- CRC-8 of a block and its two mark bits (Table 14.3). -/
def relayCrc8 (block : List Byte) (mark : Nat) : Nat :=
  [1, 0].foldl (fun c i => crcBitMsb 8 0x07 c (bitAt mark i)) (crcMsb 8 0x07 block 0)

/-- A payload row (Table 14.3): four blocks with their marks, and the channel bytes. -/
def relayRow (blocks : List (List Byte × Nat)) (channel : List Byte) : List Byte :=
  blocks.flatMap (fun b => sliceBytes b.1 0 64) ++ blocks.map (fun b => BitVec.ofNat 8 (relayCrc8 (sliceBytes b.1 0 64) b.2)) ++
    bytesBE 1 ((blocks.zip (List.range 4)).foldl (fun a e => a + e.1.2 * 4 ^ e.2) 0) ++ sliceBytes channel 0 3

/-- A received lane frame's content: lane, MFAS, ROW0, the payload bytes, and the payload symbols before each stuffing error. -/
structure LaneFrame where
  lane : Nat
  mfas : Nat
  row0 : List Nat
  payload : List Byte
  broken : List Nat
  deriving DecidableEq, Repr

/-- SYNC and INFO of a lane frame read: lane, MFAS and ROW0; none where SYNC is not there or the INFO CRC fails (R391). -/
def readLaneHead (levels : List Nat) : Option (Nat × Nat × List Nat) :=
  let info := levelBytes ((levels.drop 32).take 32)
  if levelBytes (levels.take 32) = relaySync ∧ crc16 0xFFFF (info.take 6) = fieldBE info 6 2 then
    some (fieldBE info 0 1 % 4, fieldBE info 1 1, (List.range 4).map fun k => fieldBE info (2 + k) 1)
  else none

/-- Two heads one lane frame apart bring frame sync: both valid, MFAS one more (R396). -/
def headsAgree (a b : List Nat) : Bool :=
  match readLaneHead a, readLaneHead b with
  | some x, some y => decide (y.2.1 = (x.2.1 + 1) % 256)
  | _, _ => false

/-- The levels of a lane frame read (R391 to R395); none where SYNC or the INFO CRC fails. -/
def readLaneFrame (levels : List Nat) : Option LaneFrame :=
  (readLaneHead levels).map fun h =>
    let d := destuffFrom 68640 0 0 0 (levels.drop 64)
    ⟨h.1, h.2.1, h.2.2, relayScramble h.1 h.2.1 (levelBytes d.1), d.2⟩

/-- The levels of a lane frame sent (Table 14.2). -/
def laneFrameLevels (l mfas : Nat) (row0 : List Nat) (payload : List Byte) : List Nat :=
  let body := byteLevels (relaySync ++ relayInfo l mfas row0) ++ stuffFrom 0 0 (byteLevels (relayScramble l mfas payload))
  body ++ (List.range (71680 - body.length)).map fun i => if i % 2 = 0 then 0 else 3

/-- The blocks of relay slot k (0 to 3 of its lane) in a received payload, with their marks and the number whose CRC-8 fails (R392, R395, R397). -/
def LaneFrame.blocks (f : LaneFrame) (k : Nat) : List (List Byte × Nat) × Nat :=
  (List.range 65).foldl (fun a r =>
    let b := sliceBytes f.payload (264 * r + 64 * k) 64
    let mark := fieldBE f.payload (264 * r + 260) 1 / 4 ^ k % 4
    -- a block from the stuffing error on, in the order of sending, fails
    let late := match f.broken with
      | n :: _ => decide (n < 4 * (264 * r + 256 + k + 1))
      | [] => false
    let bad := late || decide (relayCrc8 b mark ≠ fieldBE f.payload (264 * r + 256 + k) 1)
    (a.1 ++ [(b, if bad then 2 else min mark 2)], a.2 + ofBool bad)) ([], 0)

/-- The timing field of a received payload: rows 0 to 10 of lane 0 (R407). -/
def LaneFrame.timing (f : LaneFrame) : List Byte :=
  ((List.range 11).flatMap fun r => sliceBytes f.payload (264 * r + 261) 3).take 32

/-- A timing field read; none where its CRC fails (Table 14.4). -/
def readTiming (b : List Byte) : Option TimingField :=
  if crc16 0xFFFF (b.take 30) = fieldBE b 30 2 then
    some ⟨timeOfBytes (sliceBytes b 0 12), timeOfBytes (sliceBytes b 12 12), fieldBE b 24 1, bitAt (fieldBE b 26 1) 0, bitAt (fieldBE b 26 1) 1⟩
  else none

/-- The delay from the transmit frame tick to the pins of port p, 2^-16 ns: fixed, and not given (R407; log 3). -/
def laneDelay (p : Nat) : Nat :=
  Config.freeOf 40 [p]

/-- The timing field that port p sends in the lane frame of the last frame tick (Table 14.4). -/
def Dev.timingField (s : Dev) (p : Nat) : List Byte :=
  let r := s.rport p
  let locked := decide (s.dpll = dpllLocked)
  let path := s.on Reg.STRAPS_CHAIN_HEAD || (decide (s.rd Reg.TIME_CTRL_SRC = 4) && s.on (Reg.RP_STAT_TIME_VALID (s.rd Reg.TIME_CTRL_SRC_REF)))
  let b := timeBytesBE (sget (dflt 0) s.relay.sentAt (mfasAt s.pace) + laneDelay p) ++ timeBytesBE r.heard ++ bytesBE 1 r.heardMfas ++ bytesBE 1 (s.rd Reg.DPLL_STAT_QL_OUT) ++
    bytesBE 1 (ofBool locked + 2 * ofBool path) ++ List.replicate 3 0
  b ++ bytesBE 2 (crc16 0xFFFF b)

/-- Channel bytes of payload row `r` of lane `l` of port p: rows 0 to 10 the timing field on lane 0 and 0 on the others, rows 11 to 64 the data channel, row by
row with lane 0 first (Table 14.3, R404, R407). -/
def Dev.channelBytes (s : Dev) (p l : Nat) (timing : List Byte) (r : Nat) : List Byte :=
  if r < 11 then (if l = 0 then sliceBytes timing (3 * r) 3 else List.replicate 3 0)
  else sliceBytes (sget (dflt []) s.relay.channel p) (12 * (r - 11) + 3 * l) 3

/-- The lane frame that relay lane l of port p sends from the last frame tick on (R391 to R394); an idle slot's blocks are zeros with mark CLEAN
(DESIGN CHOICE, log 199). A port where a second head has been heard carries nothing (R411). -/
def Dev.laneFrame (s : Dev) (p l : Nat) : List Nat :=
  let conflict := s.on (Reg.RP_STAT_CONFLICT p)
  let slots := (List.range 4).map fun k => if conflict then RelayColumn.idle else sget (dflt RelayColumn.idle) s.relay.tx (16 * p + 4 * l + k)
  let timing := if s.on (Reg.LANE_STAT_LINK (64 + 4 * p + l)) && !conflict then s.timingField p else []
  laneFrameLevels l (mfasAt s.pace) (slots.map (·.row0)) ((List.range 65).flatMap fun r =>
    relayRow (slots.map fun c => (c.rows[r]?).getD ([], 0)) (s.channelBytes p l timing r))

/-- What relay lane l of port p sends in the frame under way. -/
def Dev.relaySends (s : Dev) (p l : Nat) : List Nat :=
  (s.laneInstead (64 + 4 * p + l)).getD (s.laneFrame p l)

/-- A timing field received on lane 0 of port p, in a lane frame whose SYNC reached the pins at TIME `t4` (R408). -/
def Dev.timeFieldIn (p mfas t4 : Nat) (f : Option TimingField) (s : Dev) : Dev :=
  let r := { s.rport p with heard := t4, heardMfas := mfas }
  match f with
  | none => (s.setRport p { r with goodFields := 0 }).settleTime p
  | some t =>
    let t1 : Int := sget (dflt 0) s.relay.sentAt t.mfasRef + laneDelay p
    let d := (((t.rxTime : Int) - t1) - ((t4 : Int) - t.txTime)) / 2 - s.rdS (Reg.RL_ASYM_PS_PS p) * 65536 / 1000
    let l := (d :: r.offsets).take 16
    let s := s.setRport p { r with goodFields := min 16 (r.goodFields + 1), offsets := l, flags := t.valid && t.headPath }
    let mean := l.sum * 1000 / (65536 * (l.length : Int))
    let s := s.wrS (Reg.RP_TOFF_PS p) mean
    let s := if s.rd Reg.TIME_CTRL_SRC = 4 ∧ s.rd Reg.TIME_CTRL_SRC_REF = p then (s.wrS Reg.TIME_OFFSET_PS (-mean)).pullTime (-(l.sum / (l.length : Int))) else s
    s.settleTime p

/-! ## Relay commands -/

/-- WINDOW_OK and RL_ARR after a SYNC that came `arr` × 0.1 ns after the lane frame tick (R396). -/
def Dev.arrivalIn (x : Nat) (arr : Int) (s : Dev) : Dev :=
  let ok := decide (0 ≤ arr) && decide (arr ≤ 2500)
  let s := s.wr (Reg.RL_ARR_ARR x) (unsign 16 arr)
  if s.on (Reg.LANE_STAT_WINDOW_OK x) = ok then s else (s.wrB (Reg.LANE_STAT_WINDOW_OK x) ok).laneChange x

/-- A lane frame of relay lane x taken (R391 to R399, R403, R407). -/
def Dev.laneFrameIn (x : Nat) (levels : List Nat) (arr : Int) (seen : Nat) (s : Dev) : Dev :=
  let r := s.rlane x
  match readLaneFrame levels with
  | none =>
    -- the failure counts, and nothing in the lane frame is used
    let s := ((s.bump (Reg.RL_HDR_ERR x)).setRlane x { r with misses := r.misses + 1 }).slotsFail x
    if s.transitOk x then (List.range 4).foldl (fun s i => s.failedColumn (4 * (x - 64) + i)) s else s
  | some f =>
    let s := s.setRlane x { r with misses := 0 }
    if s.on (Reg.LANE_STAT_LINK x) then
      let s := s.laneStep x (Dev.arrivalIn x arr)
      let s := s.bumpBy (Reg.RL_STUFF_ERR x) f.broken.length
      let got := (List.range 4).map f.blocks
      let bad := (got.map (·.2)).sum
      let s := s.bumpBy (Reg.RL_BLK_ERR x) bad
      let s := s.setRlane x { s.rlane x with errors := (s.rlane x).errors + bad }
      let s := if s.transitOk x then
          (List.range 4).foldl (fun s k => s.slotIn (4 * (x - 64) + k) ((f.row0[k]?).getD 127) (((got[k]?).map (·.1)).getD [])) s
        else s.slotsFail x
      if (x - 64) % 4 = 0 ∧ ¬ s.on (Reg.RP_STAT_CONFLICT ((x - 64) / 4)) then s.timeFieldIn ((x - 64) / 4) f.mfas seen (readTiming f.timing) else s
    else s

/-- RELAY_LANE_FRAME_RECEIVE: the 71,680 symbol levels at the expected position of lane l of port p, the arrival of SYNC after this device's lane frame
tick in 0.1 ns, and TIME at that arrival. In far-end loopback the levels are sent back (R390). -/
def execRelayLaneFrameReceive (p l : Fin 4) (levels : List Nat) (arr : Int) (seen : Nat) (s : State) : Out :=
  s.run fun s =>
    let x := 64 + 4 * p.val + l.val
    let s := if s.hubOn ∧ s.rd (Reg.LANE_CTRL_LB x) = 3 then s.setEcho x levels else s
    if s.hubOn ∧ (s.rlane x).sync ∧ ¬ s.on (Reg.LANE_STAT_LP x) then s.laneFrameIn x levels arr seen else s

/-- RELAY_SYNC_FOUND (R396): the levels of SYNC and INFO at two positions exactly 71,680 symbols apart. -/
def execRelaySyncFound (p : Fin 4) (heads : LaneHeads) (s : State) : Out :=
  s.run fun s =>
    let x := 64 + 4 * p.val + heads.lane.val
    if s.hubOn ∧ ¬ s.on (Reg.LANE_STAT_LP x) ∧ headsAgree heads.first heads.second then s.laneStep x fun s => s.setRlane x { s.rlane x with sync := true, misses := 0 } else s

/-- RELAY_SYNC_LOST (R396, R403, R412): 4 consecutive lane frames have failed. -/
def execRelaySyncLost (p l : Fin 4) (s : State) : Out :=
  s.run fun s =>
    let x := 64 + 4 * p.val + l.val
    if (s.rlane x).sync ∧ 4 ≤ (s.rlane x).misses then s.laneStep x fun s => s.setRlane x { s.rlane x with sync := false, misses := 0 } else s

/-- RELAY_ERR_WINDOW_END (R397): 1 ms of port p ends. -/
def execRelayErrWindowEnd (p : Fin 4) (s : State) : Out :=
  s.run fun s =>
    let xs := (List.range 4).map fun l => 64 + 4 * p.val + l
    let many := xs.any fun x => decide (s.rd (Reg.RL_ERR_THR_THRESHOLD p) < (s.rlane x).errors)
    (xs.foldl (fun s x => s.setRlane x { s.rlane x with errors := 0 }) s).raiseIf many 28 16

/-- XQ_OVERFLOW (R18, R19): dual-clock queue q overflows or underflows by a clock fault, as its class allows; a relay queue takes its lane's link
down. -/
def execXqOverflow (q : Fin 220) (s : State) : Out :=
  s.run fun s =>
    if s.hubOn then
      if 184 ≤ q.val ∧ q.val < 216 then s.laneStep (64 + (q.val - 184) % 16) (Dev.xqFail q) else s.xqFail q
    else s

/-! ## The PRBS page (R413 to R415) -/

/-- The page and offset of PRBS block i. -/
def prbsPage (i : Nat) : Nat := 0x390 + i / 8

/-- The offset of PRBS block i. -/
def prbsOff (i : Nat) : Nat := 0x040 + 0x40 * (i % 8)

/-- PRBS_CTRL of lane i written (R389, R413 to R415): a write that enables in low power or during an exit, or injects without GEN_EN, is ignored and counted. -/
def Dev.prbsWrite (i : Nat) (late : Nat) (v : Word) (s : Dev) : Dev :=
  let pg := prbsPage i
  let gen := getBits v 3 1 = 1
  let chk := getBits v 7 1 = 1
  if (gen ∨ chk) ∧ s.laneAsleep i ∨ ¬ gen ∧ (getBits v 10 1 = 1 ∨ getBits v 11 3 ≠ 0) then s.viol pg
  else
    let restart := decide (s.rd (Reg.PRBS_CTRL_CHK_PAT i) ≠ getBits v 4 3) || (s.on (Reg.PRBS_CTRL_CHK_EN i) != decide chk)
    let s := s.writeWord pg (prbsOff i) 0x0600 v
    let s := if restart then s.wr (Reg.PRBS_STAT_LOCK i) 0 else s
    let s := if getBits v 9 1 = 1 then
        (((s.wr (Reg.PRBS_ERR i) 0).wr (Reg.PRBS_BITS_LO i) 0).wr (Reg.PRBS_BITS_HI i) 0).wr (Reg.PRBS_ERR i) late
      else s
    if getBits v 10 1 = 1 then
      -- the inverted bit reaches the lane's own checker through a near-end loopback
      let s := s.injectOne i
      if s.loopsOwn i ∧ s.on (Reg.PRBS_STAT_LOCK i) then s.bump (Reg.PRBS_ERR i) else s
    else s

/-- A host write of PRBS_CTRL. -/
def Dev.prbsCtrl (i late : Nat) (v : Word) (s : Dev) : Dev :=
  s.onWrite (prbsPage i) (prbsOff i) (Dev.prbsWrite i late v)

/-- PRBS_GEN_ENABLE (R413). -/
def execPrbsGenEnable (i : Fin 80) (v : Word) (s : State) : Out :=
  s.run (Dev.prbsCtrl i 0 (v ||| 0x8))

/-- PRBS_CHK_ENABLE (R414). -/
def execPrbsChkEnable (i : Fin 80) (v : Word) (s : State) : Out :=
  s.run (Dev.prbsCtrl i 0 (v ||| 0x80))

/-- PRBS_CNT_CLR (R414): `late` errors are counted in the cycle of the clear, and count after it. -/
def execPrbsCntClr (i : Fin 80) (v : Word) (late : Nat) (s : State) : Out :=
  s.run (Dev.prbsCtrl i late (v ||| 0x200))

/-- PRBS_INJ_ONE (R415). -/
def execPrbsInjOne (i : Fin 80) (v : Word) (s : State) : Out :=
  s.run (Dev.prbsCtrl i 0 (v ||| 0x400))

/-- PRBS_INJ_RATE (R415). -/
def execPrbsInjRate (i : Fin 80) (v : Word) (s : State) : Out :=
  s.run (Dev.prbsCtrl i 0 v)

/-- PRBS_LOCK (R414): 256 consecutive error-free bits. -/
def execPrbsLock (i : Fin 80) (s : State) : Out :=
  s.run fun s => if s.hubOn ∧ s.on (Reg.PRBS_CTRL_CHK_EN i) then s.wr (Reg.PRBS_STAT_LOCK i) 1 else s

/-- PRBS_LOCK_LOST (R414): 64 of 256 bits wrong, `bits` compared and `errs` wrong since the last frame tick. -/
def execPrbsLockLost (i : Fin 80) (bits errs : Nat) (s : State) : Out :=
  s.run fun s =>
    if s.hubOn ∧ s.on (Reg.PRBS_STAT_LOCK i) then
      let s := (s.bumpBy (Reg.PRBS_ERR i) errs).wr64 (Reg.PRBS_BITS_LO i) (min (s.rd64 (Reg.PRBS_BITS_LO i) + bits) (2 ^ 64 - 1))
      ((s.wr (Reg.PRBS_STAT_LOCK i) 0).wr (Reg.PRBS_STAT_LOCK_LOST i) 1).raise 28 25
    else s

end Sys2Proof.Machine
end

