-- ==== Sys2Proof/Machine/SelfTest.lean ====
section
/-!
DEFINITION. Built-in self-test (R503 to R511): a block's result and what a failure does, the acceptance of an in-service run, BIST_OFF, and the
settling of the fleet mode.
-/
namespace Sys2Proof.Machine

/-- The BIST pages. -/
abbrev bistPage : Nat := 0x070
abbrev directPage : Nat := 0x072

/-- The results of a block (Table 18.10). -/
abbrev resNotRun : Nat := 0
abbrev resPass : Nat := 1
abbrev resFail : Nat := 2
abbrev resNotTested : Nat := 3
abbrev resRunning : Nat := 4

/-- Whether the part has a block: those of engines and lanes disabled by fuse stay NOT_RUN (R508). -/
def Dev.blockFused (s : Dev) (b : Nat) : Bool :=
  if b < 32 then s.lineOn (b % 8)
  else if b < 48 then s.laneOn (4 * (b - 32))
  else if b < 56 then s.laneOn (8 * (b - 48))
  else decide (b < 76)

/-- Whether a block has an in-service test time (Table 18.3). -/
def inServiceBlock (b : Nat) : Bool :=
  b < 62 ∨ b = 65

/-- No client port with a lane among `n` lanes from `l` has PORT_CTRL.EN set. -/
def Dev.portsOff (s : Dev) (l n : Nat) : Bool :=
  (List.range 64).all fun p =>
    !(s.portExists p && decide (p < l + n) && decide (l < p + s.portLanes p)) || !s.on (Reg.PORT_CTRL_EN p)

/-- Whether a block is idle (R509). -/
def Dev.blockIdle (s : Dev) (b : Nat) : Bool :=
  if b < 32 then decide (s.rd (Reg.TX_STATE_STATE (b % 8)) = txDark) && !s.on (Reg.RX_CTRL_ENABLE (b % 8))
  else if b < 48 then s.portsOff (4 * (b - 32)) 4
  else if b < 56 then s.portsOff (8 * (b - 48)) 8
  else if b < 60 then (List.range 4).all fun i => !s.on (Reg.LANE_STAT_LINK (64 + 4 * (b - 56) + i))
  else if b = 60 then !s.on Reg.DR_CTRL_RX_EN && !s.on Reg.DR_CTRL_BCN_EN
  else if b = 61 then !s.on Reg.REQ_CTRL_EN
  else if b = 65 then (List.range 256).all fun p => !(s.on (Reg.PAIR_EN p) && decide (s.rd (Reg.PAIR_MODE p) = 2))
  else false

/-! ## Losing a block (Table 18.3, R506) -/

/-- What the loss of a block does at once. The channels of a lost HBM controller are retired at the next training alone (R502). -/
def Dev.blockLost (b : Nat) (s : Dev) : Dev :=
  let s := if s.essentialLost then s.wr Reg.BIST_STAT_ESSENTIAL_LOST 1 else s
  if b < 8 then s
  else if b < 16 then s.wr (Reg.RX_RESAMP_STAT_UNUSABLE (b - 8)) 1
  else if b < 32 then
    let n := b % 8
    if s.on (Reg.RX_CTRL_ENABLE n) ∧ s.acq n ≠ acqIdle then (s.acqGo n acqIdle).samplesStop n else s
  else if b < 56 then (List.range 64).foldl (fun s p => if s.portExists p then s.settlePort p else s) s
  else if b < 60 then (List.range 4).foldl (fun s i => s.lpEnter (64 + 4 * (b - 56) + i)) s
  else if b = 60 then (List.range 16).foldl (fun s path => s.abandonPath path) s
  else if b = 65 then (s.settleModes false).hbmEval
  else if 72 ≤ b ∧ b < 76 then { s with power := { s.power with hbmOff := s.power.hbmOff ||| (1 <<< (b - 72)) } }
  else s

/-- A block marked UNUSABLE, with E-06.03 (R506). -/
def Dev.markUnusable (b : Nat) (s : Dev) : Dev :=
  ((s.setBlock b { s.block b with unusable := true, flagged := false }).raise 6 3).blockLost b

/-- SMALL is in force and settled (R507). -/
def Dev.smallFleet (s : Dev) : Bool :=
  s.on Reg.STRAPS_FLEET_SETTLED && !s.on Reg.STRAPS_FLEET_EFF

/-- A block's run ends with a result (R505, R506). -/
def Dev.blockEnds (b result patterns addr bit : Nat) (s : Dev) : Dev :=
  let s := s.setBlock b { s.block b with result := result, patterns := patterns, addr := addr, bit := bit }
  let s := s.raise 6 0
  if result = resFail then
    let s := s.raise 6 1
    if s.smallFleet then s.markUnusable b else (s.setBlock b { s.block b with flagged := true }).raise 6 3
  else s.raiseIf (decide (result = resNotTested)) 6 2

/-- The result of a run: a signature counts only where the pattern counter reached its target (R505). -/
def runResult (complete ok : Bool) : Nat :=
  if !complete then resNotTested else if ok then resPass else resFail

/-- Every block still running ends NOT_TESTED (R505). -/
def Dev.bistCut (s : Dev) : Dev :=
  (List.range 76).foldl (fun s b =>
    if (s.block b).result = resRunning then s.blockEnds b resNotTested (s.block b).patterns 0 0 else s) s

/-- A run cut short by a thermal shutdown, a rail fault or a lost clock: its blocks are NOT_TESTED, and nothing that was held acts. -/
def Dev.bistKilled (s : Dev) : Dev :=
  if s.on Reg.BIST_STAT_BUSY then
    let s := s.bistCut.wr Reg.BIST_STAT_BUSY 0
    { s with bist := { s.bist with run := [], isolated := false, held := [], shown := [] } }
  else s

/-- A fault of the rail of line die k: the tests of its blocks that run end NOT_TESTED (R505). -/
def Dev.bistDieKilled (k : Nat) (s : Dev) : Dev :=
  ((List.range 32).filter fun b => decide (b % 8 / 2 = k ∧ (s.block b).result = resRunning)).foldl
    (fun s b => s.blockEnds b resNotTested (s.block b).patterns 0 0) s

/-! ## In-service runs (R509) -/

/-- The blocks set in BIST_SEL. -/
def Dev.bistSelected (s : Dev) : List Nat :=
  (List.range 96).filter fun b => bitAt (s.rd (Reg.BIST_SEL_SEL (b / 32))) (b % 32)

/-- GO = 1 (R509): a run of the selected blocks that the fuses enable, or a refusal with E-06.06. A run with no such block is over at once (DESIGN CHOICE, log 238). -/
def Dev.bistGo (s : Dev) : Dev :=
  let sel := s.bistSelected
  if s.pwr = pwrRun ∧ ¬ s.on Reg.BIST_STAT_BUSY ∧ sel.all fun b => inServiceBlock b && s.blockIdle b then
    let run := sel.filter s.blockFused
    let s := run.foldl (fun s b => s.setBlock b { s.block b with result := resRunning, patterns := 0, addr := 0, bit := 0 }) s
    let s := (s.wrB Reg.BIST_STAT_BUSY (decide (run ≠ []))).wr Reg.BIST_STAT_KIND 3
    { s with bist := { s.bist with run := run, isolated := false } }
  else (s.viol bistPage).raise 6 6

/-- ABORT = 1: the blocks not finished are NOT_TESTED (R505, Table 18.10). -/
def Dev.bistAbort (s : Dev) : Dev :=
  if s.on Reg.BIST_STAT_BUSY then s.bistCut else s.viol bistPage

/-- A write of BIST_CTRL. -/
def Dev.bistCtrl (v : Word) (s : Dev) : Dev :=
  s.hostWrite bistPage 0x040 3#32 v fun s =>
    let s := if v.getLsbD 0 then s.bistGo else s
    if v.getLsbD 1 then s.bistAbort else s

/-- BIST_GO (R509). -/
def execBistGo (v : Word) (s : State) : Out :=
  s.run (Dev.bistCtrl (v ||| 1#32))

/-- BIST_ABORT (R505). -/
def execBistAbort (v : Word) (s : State) : Out :=
  s.run (Dev.bistCtrl (v ||| 2#32))

/-- The registers of the pages whose blocks are under test. -/
def Dev.testedRegs (s : Dev) : List (Nat × Word) :=
  s.regs.filter fun e => decide (e.1 < 0x400000) && s.pageInTest (e.1 / 1024)

/-- BIST_ISOLATED: the accepted requests to the blocks have completed (R504), and a status read returns what stands now (Table 18.4). -/
def execBistIsolated (s : State) : Out :=
  s.run fun s =>
    if s.on Reg.BIST_STAT_BUSY ∧ s.bist.run ≠ [] ∧ ¬ s.bist.isolated then { s with bist := { s.bist with isolated := true, shown := s.testedRegs } } else s

/-- A block's test has come to an outcome, where it runs (R505). A signature BIST has no failing address: it reads 0. -/
def Dev.blockOutcome (s : Dev) (o : BlockOutcome) : Dev :=
  if (s.block o.block).result = resRunning then
    let r := runResult o.complete o.ok
    s.blockEnds o.block r o.patterns.toNat (if r = resFail then o.addr.toNat else 0) (if r = resFail then o.bit.toNat else 0)
  else s

/-- BIST_BLOCK_END: a running block's test ends (R505). -/
def execBistBlockEnd (b : Fin 76) (complete ok : Bool) (patterns addr : Word) (bit : BitVec 7) (s : State) : Out :=
  s.run fun s => s.blockOutcome ⟨b, complete, ok, patterns, addr, bit⟩

/-! ## BIST_OFF (R506, R513) -/

/-- The bits of BIST_OFF[k] that are reserved: the resamplers, and the blocks 76 and up. -/
def bistOffReserved (k : Nat) : Word :=
  if k = 0 then 0xFF00#32 else if k = 2 then 0xFFFFF000#32 else 0

/-- A write of BIST_OFF[k]: the blocks named are lost until the next start; one that names a reserved bit is ignored and counted. -/
def Dev.bistOff (k : Nat) (v : Word) (s : Dev) : Dev :=
  if v &&& bistOffReserved k ≠ 0 then s.viol bistPage
  else
    let old := s.rd (Reg.BIST_OFF_OFF k)
    let s := s.wr (Reg.BIST_OFF_OFF k) (old ||| v.toNat)
    (List.range 32).foldl (fun s j =>
      if bitAt v.toNat j && !bitAt old j && !(s.block (32 * k + j)).unusable then s.blockLost (32 * k + j) else s) s

/-- BIST_OFF_WRITE (R506). -/
def execBistOffWrite (k : Fin 3) (v : Word) (s : State) : Out :=
  s.run fun s => s.onWrite bistPage (0x054 + 4 * k.val) (Dev.bistOff k v)

/-! ## The fleet mode (R507) -/

/-- The mode in force is settled: in SMALL mode every FLAGGED block whose bit in BIST_OFF is clear becomes UNUSABLE. -/
def Dev.fleetSettle (s : Dev) : Dev :=
  if s.on Reg.STRAPS_FLEET_SETTLED then s
  else
    let s := s.wr Reg.STRAPS_FLEET_SETTLED 1
    if s.smallFleet then
      (List.range 76).foldl (fun s b =>
        if (s.block b).flagged ∧ ¬ bitAt (s.rd (Reg.BIST_OFF_OFF (b / 32))) (b % 32) then s.markUnusable b else s) s
    else s

/-- A relay lane has LINK. -/
def Dev.anyRelayLink (s : Dev) : Bool :=
  (List.range 16).any fun i => s.on (Reg.LANE_STAT_LINK (64 + i))

/-- FLEET_SETTLE: the head has been in RUN for 300 ms with no relay lane at LINK (R507). The other occasions are in the commands that bring
them. -/
def execFleetSettle (s : State) : Out :=
  s.run fun s => if s.pwr = pwrRun ∧ s.on Reg.STRAPS_CHAIN_HEAD ∧ ¬ s.anyRelayLink then s.fleetSettle else s

/-! ## Direct access (R511) -/

/-- Direct test access is open: BLANK or RETURNED (Table 19.1). -/
def Dev.directOpen (s : Dev) : Bool :=
  s.rd Reg.LC_STAT_STATE = lcBlank ∨ s.rd Reg.LC_STAT_STATE = lcReturned

/-- A write to page 0x072 where direct access is closed: ignored and counted, with E-06.05. -/
def Dev.directRefused (s : Dev) : Dev :=
  (s.viol directPage).raise 6 5

/-- GO = 1 of DIR_CTRL: the patterns run on the block; its signature is a free value (log 3). -/
def Dev.directGo (s : Dev) : Dev :=
  let b := s.rd Reg.DIR_CTRL_BLOCK
  (List.range 4).foldl (fun s k =>
    s.wr (Reg.DIR_SIG_SIG k) (Config.freeOf 72 [b, s.rd Reg.DIR_SEED_SEED, s.rd Reg.DIR_PATTERNS, k])) s

/-- A write of DIR_CTRL: one that names a reserved block is ignored and counted (R513). -/
def Dev.dirCtrl (v : Word) (s : Dev) : Dev :=
  s.onWrite directPage 0x040 fun s =>
    if !s.directOpen then s.directRefused
    else if 76 ≤ getBits v 0 7 then s.viol directPage
    else
      let s := s.writeWord directPage 0x040 0x80#32 v
      if v.getLsbD 7 then s.directGo else s

/-- BIST_DIRECT_GO (R511). -/
def execBistDirectGo (v : Word) (s : State) : Out :=
  s.run (Dev.dirCtrl (v ||| 0x80))

end Sys2Proof.Machine
end

