-- ==== Sys2Proof/Machine/Therm.lean ====
section
/-!
DEFINITION. Rail faults and thermal management (R474, R475, R481 to R489): the judging of rails and sensors, the thresholds, the thermal shed
request and the thermal shutdown. Temperatures are in 0.125 °C.
-/
namespace Sys2Proof.Machine

/-! ## Rails (R474, R475) -/

/-- The bit of PWR_RAIL_FAULT of a rail. -/
def railBit (r : Nat) : Field := ⟨Reg.PWR_RAIL_FAULT_RAIL.cell, r, 1⟩

/-- The line die that a rail feeds. -/
def railDie (r : Nat) : Option Nat :=
  if 5 ≤ r ∧ r < 9 then some (r - 5) else if 13 ≤ r ∧ r < 17 then some (r - 13) else none

/-- Whether a rail is judged in the power state: VDD_FINDER and I/O always, the others while R472 keeps them up. -/
def Dev.railJudged (s : Dev) (r : Nat) : Bool :=
  decide (r < 2) || s.pwr = pwrStarting || s.pwr = pwrRun || s.pwr = pwrSleep || s.pwr = pwrHalted

/-- A fault of a rail declared (R475). -/
def Dev.railFault (r : Nat) (s : Dev) : Dev :=
  let s := (s.wr (railBit r) 1).raise 0 3
  if s.pwr = pwrFinderOnly ∨ s.pwr = pwrThermOff then s
  else match railDie r with
    | some k => ((s.bistDieKilled k).dieRailFault k).dieFails k
    | none =>
      if r = 1 then s
      else
        let s := (List.range 8).foldl (fun s n => s.txCause n 6) s.bistKilled
        if s.pwr = pwrHalted then s else s.halt 4

/-- A reading of a rail, in or out of its window: the second in a row that is out declares a fault. -/
def Dev.railReading (r : Nat) (out : Bool) (s : Dev) : Dev :=
  let n := if s.railJudged r && out then sget (dflt 0) s.power.rails r + 1 else 0
  let s := { s with power := { s.power with rails := sset (dflt 0) s.power.rails r (min n 3) } }
  if n = 2 then s.railFault r else s

/-! ## Sensors (R481 to R484) -/

/-- The sensors of a die: the hub die is 0, line die k is 1 + k. -/
def dieSensors (d : Nat) : List Nat :=
  if d = 0 then List.range 12 else (List.range 5).map fun i => 12 + 5 * (d - 1) + i

/-- The sensors that make a sensor's reference: the others of its die, and the hub's for a stack sensor (R482). -/
def refSensors (k : Nat) : List Nat :=
  if k < 12 then (dieSensors 0).filter (fun j => decide (j ≠ k))
  else if k < 32 then (dieSensors ((k - 12) / 5 + 1)).filter (fun j => decide (j ≠ k))
  else dieSensors 0

/-- A sensor's last reading, and whether it is valid. -/
def Dev.temp (s : Dev) (k : Nat) : Int := s.rdS (Reg.THERM_T_TEMP k)
def Dev.sensorOk (s : Dev) (k : Nat) : Bool := !s.on (Reg.THERM_T_FAIL k)

/-- The readings of the valid sensors of a list. -/
def Dev.validTemps (s : Dev) (ks : List Nat) : List Int :=
  (ks.filter s.sensorOk).map s.temp

/-- A list of integers in rising order, one more put in its place. -/
def insertInt (x : Int) : List Int → List Int
  | [] => [x]
  | y :: ys => if x ≤ y then x :: y :: ys else y :: insertInt x ys

/-- Twice the median of a list; none of the empty one. -/
def median2 (xs : List Int) : Option Int :=
  let ys := xs.foldl (fun l x => insertInt x l) []
  if ys = [] then none
  else
    let n := ys.length
    some ((ys[(n - 1) / 2]?).getD 0 + (ys[n / 2]?).getD 0)

/-- 27,720 times the mean of at most 12 readings; none of no reading. -/
def mean27720 (xs : List Int) : Option Int :=
  if xs = [] then none else some (xs.sum * 27720 / xs.length)

/-- A list with its largest and smallest value apart by more than `d`. -/
def movedBy (d : Int) (xs : List Int) : Bool :=
  xs.any fun a => xs.head?.any fun b => decide (d < (xs.foldl max b) - a)

/-- A sensor's hidden state. -/
def Dev.sensor (s : Dev) (k : Nat) : Sensor :=
  sget (dflt Sensor.reset) s.power.sensors k

/-- The device with a sensor's hidden state changed. -/
def Dev.setSensor (k : Nat) (x : Sensor) (s : Dev) : Dev :=
  { s with power := { s.power with sensors := sset (dflt Sensor.reset) s.power.sensors k x } }

/-- A sensor's judging after its sample `t`; where no reference sensor is valid, its reference has not moved. -/
def Dev.judgeSensor (s : Dev) (k : Nat) (t : Int) : Sensor :=
  let x := s.sensor k
  let others := s.validTemps (refSensors k)
  let ref := (mean27720 others).getD ((x.refs.head?).getD 0)
  let wild := match median2 others with
    | some m => decide (k < 32) && decide (2 * 8 * (s.rd Reg.THERM_PLAUS_PLAUS_DEG : Int) < (2 * t - m).natAbs)
    | none => false
  { range := if t < -320 ∨ 1200 < t then min 2 (x.range + 1) else 0
    wild := if wild then min 16 (x.wild + 1) else 0
    code := t
    refs := if x.refs = [] ∨ x.code ≠ t then [ref] else (ref :: x.refs).take 1000 }

/-- The cause for which a sensor fails, 0 where it does not (Table 17.12). -/
def Sensor.cause (x : Sensor) : Nat :=
  if 2 ≤ x.range then 1
  else if 1000 ≤ x.refs.length ∧ movedBy (24 * 27720) x.refs then 2
  else if 16 ≤ x.wild then 3
  else 0

/-- The counts of a threshold. -/
def Dev.runOf (s : Dev) (i : Nat) : Runs :=
  sget (dflt (Runs.mk 0 0)) s.power.runs i

/-- The device with the counts of a threshold changed. -/
def Dev.setRun (i : Nat) (r : Runs) (s : Dev) : Dev :=
  { s with power := { s.power with runs := sset (dflt (Runs.mk 0 0)) s.power.runs i r } }

/-- The bit of a sensor in THERM_FAIL. -/
def failBit (k : Nat) : Field :=
  if k < 32 then ⟨Reg.THERM_FAIL_LO_FAIL.cell, k, 1⟩ else ⟨Reg.THERM_FAIL_HI_FAIL.cell, k - 32, 1⟩

/-- A sensor declared failed (R482); the counts it takes part in start again (R485). -/
def Dev.sensorFails (k cause : Nat) (s : Dev) : Dev :=
  let s := ((s.wr (Reg.THERM_T_FAIL k) 1).wr (Reg.THERM_T_CAUSE k) cause).wr (failBit k) 1
  let is := if k < 32 then [0, 1, 2] else [3 + (k - 32), 7 + (k - 32)]
  (is.foldl (fun s i => s.setRun i ⟨0, 0⟩) s).raise 1 4

/-- A die's mean over its samples, 1,000 of them to the second; sensors declared failed are left out (R380, R481). -/
def Dev.takeMean (d : Nat) (s : Dev) : Dev :=
  let x := sget (dflt DieMean.reset) s.power.means d
  let ts := s.validTemps (dieSensors d)
  let x : DieMean := ⟨x.samples + 1, x.sum + ts.sum, x.count + ts.length, x.mean⟩
  let x := if x.samples < 1000 then x else ⟨0, 0, 0, if x.count = 0 then none else some (x.sum * 5 / (4 * x.count : Nat))⟩
  { s with power := { s.power with means := sset (dflt DieMean.reset) s.power.means d x } }

/-- One sensor's sample taken and judged; a failed sensor is not judged again. -/
def Dev.takeSample (was : Dev) (k : Nat) (t : Int) (s : Dev) : Dev :=
  let s := s.wrS (Reg.THERM_T_TEMP k) t
  if was.sensorOk k then s.setSensor k (was.judgeSensor k t) else s

/-! ## The control temperature (R483) -/

/-- The hottest of a list of sensors with its reading, the lowest number among equals. -/
def Dev.hottest (s : Dev) : List Nat → Option (Nat × Int)
  | [] => none
  | k :: ks =>
    match s.hottest ks with
    | some b => if b.2 ≤ s.temp k then some (k, s.temp k) else some b
    | none => some (k, s.temp k)

/-- T_die with the sensor that sets it; SUBST_MARGIN is added while a sensor of the die has failed. -/
def Dev.dieTemp (s : Dev) (d : Nat) : Option (Nat × Int) :=
  let ks := dieSensors d
  (s.hottest (ks.filter s.sensorOk)).map fun p =>
    if ks.all s.sensorOk then p else (p.1, p.2 + 4 * s.rd Reg.THERM_CTRL_SUBST_MARGIN)

/-- T_ctl and the sensor that sets it. -/
def Dev.controlTemp (s : Dev) : Option (Nat × Int) :=
  (List.range 5).foldl (fun best d =>
    match best, s.dieTemp d with
    | none, p => p
    | some b, none => some b
    | some b, some p => if b.2 < p.2 then some p else some b) none

/-! ## Thresholds (R485, Table 17.6) -/

/-- The counts after a sample `v` against a threshold `t` with a hysteresis. -/
def Runs.sample (r : Runs) (v t hyst : Int) : Runs :=
  if t ≤ v then ⟨min 4 (r.bad + 1), 0⟩ else if v ≤ t - hyst then ⟨0, min 4 (r.good + 1)⟩ else ⟨0, 0⟩

/-- Whether a threshold is crossed after a sample. -/
def Runs.crossed (r : Runs) (was : Bool) : Bool :=
  if 4 ≤ r.bad then true else if 4 ≤ r.good then false else was

/-- A threshold in 0.5 °C as a temperature. -/
def Dev.threshold (s : Dev) (f : Field) : Int := 4 * s.rd f

/-- A sample of T_ctl against a threshold with 4 °C of hysteresis; its bit follows, with its event. -/
def Dev.sampleBit (i : Nat) (thr bit : Field) (ev : Nat) (v : Int) (s : Dev) : Dev :=
  let r := (s.runOf i).sample v (s.threshold thr) 32
  let was := s.on bit
  let now := r.crossed was
  ((s.setRun i r).wrB bit now).raiseIf (was != now) 1 ev

/-- THERM_STAT.HBM_LIMIT[m]: beyond the limit by its reading, or its sensor failed (R483). -/
def limitBit (m : Nat) : Field := ⟨Reg.THERM_STAT_HBM_LIMIT.cell, Reg.THERM_STAT_HBM_LIMIT.lsb + m, 1⟩

/-- HBM_LIMIT[m] brought up to date, with E-01.03 where it changes. -/
def Dev.settleLimit (m : Nat) (s : Dev) : Dev :=
  let now := s.power.hot.contains m || !s.sensorOk (32 + m)
  let was := s.on (limitBit m)
  (s.wrB (limitBit m) now).raiseIf (was != now) 1 3

/-- A sample of stack m against its two thresholds; a failed sensor takes no part. -/
def Dev.sampleStack (m : Nat) (s : Dev) : Dev :=
  if s.sensorOk (32 + m) then
    let v := s.temp (32 + m)
    let r := (s.runOf (3 + m)).sample v (s.threshold Reg.THERM_HBM_HBM_LIMIT) 32
    let now := r.crossed (s.power.hot.contains m)
    let hot := s.power.hot.filter fun x => decide (x ≠ m)
    let s := (s.setRun (3 + m) r).setRun (7 + m) ((s.runOf (7 + m)).sample v (s.threshold Reg.THERM_HBM_HBM_SHUT) 0)
    { s with power := { s.power with hot := if now then m :: hot else hot } }.settleLimit m
  else s.settleLimit m

/-! ## The shed request (R486) -/

/-- The throttle or an HBM limit is crossed. -/
def Dev.thermCrossed (s : Dev) : Bool :=
  s.on Reg.THERM_STAT_THROTTLE || decide (s.rd Reg.THERM_STAT_HBM_LIMIT ≠ 0)

/-- The request's steps 1 to `k`. -/
def stepsTo (k : Nat) : Nat := 2 ^ k - 1

/-- How many steps thermal control holds. -/
def Dev.thermSteps (s : Dev) : Nat :=
  popCount 5 (s.rd Reg.REQ_THERM_STEP)

/-- The request set to steps 1 to `k`, and the shedding with it where the hub runs. -/
def Dev.thermRequest (k : Nat) (s : Dev) : Dev :=
  (s.wr Reg.REQ_THERM_STEP (stepsTo k)).hbmEval

/-- A reading that is crossed stands at or above its threshold; a stack whose sensor has failed counts as beyond its limit. -/
def Dev.thermAbove (s : Dev) : Bool :=
  (s.on Reg.THERM_STAT_THROTTLE && (s.controlTemp.any fun p => decide (s.threshold Reg.THERM_THR_THROTTLE ≤ p.2))) ||
  (List.range 4).any fun m =>
    s.on (limitBit m) && (!s.sensorOk (32 + m) || decide (s.threshold Reg.THERM_HBM_HBM_LIMIT ≤ s.temp (32 + m)))

/-! ## Thermal shutdown (R487) -/

/-- The shutdown decided: SHUTDOWN, E-01.02, all four steps, and a fast ramp-down of every engine in light. A foreground pass that runs fails (R364). An engine in PREP ends in DARK,
and THERM_SHUTDOWN is set on every engine (Table 2.6, Table 17.7). -/
def Dev.thermShutdown (s : Dev) : Dev :=
  if s.on Reg.THERM_STAT_SHUTDOWN then s
  else
    let s := ((s.wr Reg.THERM_STAT_SHUTDOWN 1).raise 1 2).thermRequest 4
    (List.range 8).foldl (fun s n =>
      if s.txRamping n then s.fastDown n 3
      else if s.txs n = txPrep then (s.txFault n 3).toDark n
      else s.txFault n 3) s.bistKilled.fgShutdown

/-- What a sample decides once every sensor has been judged. -/
def Dev.thermDecide (fails : List Nat) (s : Dev) : Dev :=
  let s := (List.range 4).foldl (fun s k =>
    let ks := dieSensors (k + 1)
    if ks.all (fun j => !s.sensorOk j) && ks.any fails.contains then ((s.dieSensorsLost k).dieFails k).raise 1 5 else s) s
  let s : Dev := match s.controlTemp with
    | some p =>
      let s := (s.wrS Reg.THERM_STAT_T_CTL p.2).wr Reg.THERM_STAT_HOTTEST p.1
      let s := s.sampleBit 0 Reg.THERM_THR_WARN Reg.THERM_STAT_WARN 0 p.2
      let s := s.sampleBit 1 Reg.THERM_THR_THROTTLE Reg.THERM_STAT_THROTTLE 1 p.2
      s.setRun 2 ((s.runOf 2).sample p.2 (s.threshold Reg.THERM_THR_SHUTDOWN) 0)
    | none => s
  let s := (List.range 4).foldl (fun s m => s.sampleStack m) s
  let few := decide ((s.validTemps (dieSensors 0)).length < 4)
  let hot : Bool := decide (4 ≤ (s.runOf 2).bad) || ((List.range 4).any fun m => decide (4 ≤ (s.runOf (7 + m)).bad))
  let s := s.raiseIf (few && !s.on Reg.THERM_STAT_SHUTDOWN) 1 5
  if few || hot then s.thermShutdown
  else if s.thermCrossed ∧ s.thermSteps = 0 ∧ ¬ s.on Reg.THERM_STAT_SHUTDOWN then s.thermRequest 1
  else s

/-- THERM_SAMPLE: the readings of the 36 sensors in a millisecond; a sensor that the list has no reading for keeps its last one (R481 to R487). -/
def execThermSample (temps : List Int) (s : State) : Out :=
  s.run fun s =>
    if s.on Reg.FINDER_STAT_BOOTED then
      let was := (List.range 36).foldl (fun s k => s.wrS (Reg.THERM_T_TEMP k) ((temps[k]?).getD (s.temp k))) s
      let s := (List.range 36).foldl (fun s k => Dev.takeSample was k (was.temp k) s) was
      let fails := (List.range 36).filter fun k => s.sensorOk k && decide ((s.sensor k).cause ≠ 0)
      let s := fails.foldl (fun s k => s.sensorFails k (s.sensor k).cause) s
      let s := (List.range 5).foldl (fun s d => s.takeMean d) s
      (s.thermDecide fails).settleWake
    else s

/-- THERM_STEP_TIMER: the reading has stayed at or above its threshold for STEP_MS: the next step, up to step 4 (R486). -/
def execThermStepTimer (s : State) : Out :=
  s.run fun s =>
    if s.thermCrossed ∧ s.thermAbove ∧ ¬ s.on Reg.THERM_STAT_SHUTDOWN ∧ s.thermSteps < 4 then s.thermRequest (s.thermSteps + 1) else s

/-- THERM_RELEASE_TIMER: RELEASE_MS since the threshold was crossed back, or since the last step removed (R486). -/
def execThermReleaseTimer (s : State) : Out :=
  s.run fun s =>
    if ¬ s.thermCrossed ∧ ¬ s.on Reg.THERM_STAT_SHUTDOWN ∧ 0 < s.thermSteps then s.thermRequest (s.thermSteps - 1) else s

/-- THERM_OFF_ENTER: the fast ramps of a thermal shutdown have ended (Table 17.7). -/
def execThermOffEnter (s : State) : Out :=
  s.run fun s =>
    if s.on Reg.THERM_STAT_SHUTDOWN ∧ s.pwr ≠ pwrThermOff ∧ (List.range 8).all (fun n => !s.lightOn n) then
      let s := { s with power := { s.power with released := false, resetDue := false, sleepDue := false } }
      (s.wr Reg.PWR_STAT_STEP 0).powerGo pwrThermOff
    else s

/-- The THERM control page. -/
abbrev thermPage : Nat := 0x010

/-- SENSOR_RESET = 1: every failed sensor back in service (R482). -/
def Dev.sensorReset (s : Dev) : Dev :=
  let s := (List.range 36).foldl (fun s k =>
    if s.sensorOk k then s
    else (((s.wr (Reg.THERM_T_FAIL k) 0).wr (Reg.THERM_T_CAUSE k) 0).wr (failBit k) 0).setSensor k Sensor.reset) s
  (List.range 4).foldl (fun s m => s.settleLimit m) s

/-- A write of THERM_CTRL. -/
def Dev.thermCtrl (v : Word) (s : Dev) : Dev :=
  (s.hostWrite thermPage 0x048 0x80000000#32 v fun s => if v.getLsbD 31 then s.sensorReset else s).settleWake

/-- THERM_SENSOR_RESET (R482). -/
def execThermSensorReset (v : Word) (s : State) : Out :=
  s.run (Dev.thermCtrl (v ||| 0x80000000))

/-- Whether ALERT_N is driven low (R489). -/
def Dev.alertLow (s : Dev) : Bool :=
  s.on Reg.THERM_STAT_WARN || s.thermCrossed || s.on Reg.THERM_STAT_SHUTDOWN || s.on Reg.PWR_RAIL_FAULT_RAIL ||
  s.on Reg.PWR_STAT_LINE_UNMON || decide (s.pwr = pwrHalted)

/-- Whether THERMTRIP_N is driven low (Table 17.7). -/
def Dev.thermTripLow (s : Dev) : Bool :=
  s.pwr = pwrThermOff

end Sys2Proof.Machine
end

