-- ==== Sys2Proof/Machine/Memory.lean ====
section
/-!
DEFINITION. Memory integrity (R492 to R502): corrected and uncorrectable errors, consumption of poisoned data, the error log, scrubbing, the
check-bit test mode and repair candidates.
-/
namespace Sys2Proof.Machine

/-- The MEMI pages. -/
abbrev memiPage : Nat := 0x080
abbrev scrubPage : Nat := 0x081
abbrev testPage : Nat := 0x082
abbrev pprPage : Nat := 0x083

/-! ## The log (R497) -/

/-- The code of a consumer (Table 18.2). -/
def consumerCode : Consumer → Nat
  | .parallax => 1
  | .egress => 2
  | .capture _ => 3
  | .hostRead => 4
  | .queueItem _ => 5
  | .request => 6
  | .keyStore _ => 7
  | .ruleTable => 8
  | .flowContext => 9
  | .chordMemory => 10
  | .skewStore => 11
  | .firmware => 12
  | .microcode _ => 12

/-- The words of a log entry (Table 18.7); the place in the stacks is given for HBM alone. -/
def memEntry (m : MemRef) (ue : Bool) (bit consumer time : Nat) : List Word :=
  let place := if m.sram then 0
    else m.stack.toNat + 2 ^ 2 * m.channel.toNat + 2 ^ 6 * m.pc.toNat + 2 ^ 7 * m.bank.toNat
  [1 + 2 * ofBool m.sram + 4 * ofBool ue + 2 ^ 4 * bit + 2 ^ 11 * consumer, m.addr.toNat, place + 2 ^ 12 * m.row.toNat, time].map
    fun w => BitVec.ofNat 32 w

/-- One entry written at LOG_WR, unless the log is frozen; E-05.07 where it takes the place of an unread one. -/
def Dev.logError (m : MemRef) (ue : Bool) (bit consumer : Nat) (s : Dev) : Dev :=
  if s.on Reg.MEMI_CTRL_LOG_FREEZE then s
  else
    let i := s.rd Reg.LOG_WR_INDEX
    let lost := s.on (Reg.MLOG_VALID i) && !s.on (Reg.MLOG_READ i)
    let s := s.setWords (tableCell tableMLOG.id i 0) (memEntry m ue bit consumer (s.time / 65536 / 1000000000))
    (s.wr Reg.LOG_WR_INDEX (i + 1)).raiseIf lost 5 7

/-- A read of LOG_DATA[0]: the entry at LOG_INDEX is marked as read. -/
def Dev.logRead (s : Dev) : Dev :=
  let i := s.rd Reg.LOG_INDEX_INDEX
  let w := s.word (Reg.MLOG_VALID i).cell
  (s.wr (Reg.MLOG_READ i) 1).returns w.toNat

/-- LOG_READ (R497). -/
def execLogRead (s : State) : Out :=
  s.run fun s => s.onRead memiPage 0x05C Dev.logRead

/-! ## Errors (R493 to R496, R501) -/

/-- The number of an HBM row. -/
def rowOf (m : MemRef) : Nat :=
  m.row.toNat + 2 ^ 17 * (m.bank.toNat + 2 ^ 5 * (m.pc.toNat + 2 * (m.channel.toNat + 2 ^ 4 * m.stack.toNat)))

/-- An HBM row made a repair candidate, where it is none yet (R501). -/
def Dev.candidate (row : Nat) (s : Dev) : Dev :=
  let c := s.integ.candidates
  if c.contains row then s
  else if c.length < 256 then
    (({ s with integ := { s.integ with candidates := c ++ [row] } }).wr Reg.PPR_STAT_CANDIDATES (c.length + 1)).raise 5 4
  else s.raise 5 5

/-- A corrected bit position logged in an HBM row; the row becomes a candidate at the sixteenth (R501). A position is a 64-byte unit and a bit of
its words (log 37). -/
def Dev.rowBit (m : MemRef) (bit : Nat) (s : Dev) : Dev :=
  let seen := sget (dflt []) s.integ.bits (rowOf m)
  let pos := m.addr.toNat * 128 + bit
  if m.sram ∨ s.on Reg.MEMI_CTRL_LOG_FREEZE ∨ seen.contains pos then s
  else
    let s := { s with integ := { s.integ with bits := sset (dflt []) s.integ.bits (rowOf m) (pos :: seen) } }
    if 15 ≤ seen.length then s.candidate (rowOf m) else s

/-- Whether a memory is read: the HBM and the hub's SRAM while the hub runs. -/
def Dev.memoryOn (s : Dev) (m : MemRef) : Bool :=
  s.hubOn || (m.sram && s.on Reg.FINDER_STAT_BOOTED)

/-- A single-bit error at `bit` of a word found by a read; `scrub`: the read is the scrubber's (R493, R496, R498). -/
def Dev.readCe (m : MemRef) (bit : Nat) (scrub : Bool) (s : Dev) : Dev :=
  let s := (s.bump Reg.CE_CNT).logError m false bit 0
  let s := { s with integ := { s.integ with window := s.integ.window + 1 } }
  let s := if scrub && s.on Reg.SCRUB_CTRL_BUSY then s.bump Reg.SCRUB_CE else s
  s.rowBit m bit

/-- MEMORY_READ_CE. -/
def execMemoryReadCe (m : MemRef) (bit : Fin 72) (scrub : Bool) (s : State) : Out :=
  s.run fun s => if s.memoryOn m then s.readCe m bit scrub else s

/-- What a consumer does with a poisoned word beside its own command, which takes the mark (Table 18.2): a capture record is POISONED (R97), a damaged key slot is zeroised (R287), the item that the next pop of a queue copies
carries FLAGS.POISONED (R435), and a microcode bank loses VALID. A core that restarts from its image has no state here. -/
def Dev.consumerAction (c : Consumer) (s : Dev) : Dev :=
  match c with
  | .capture n => s.capPoison n
  | .queueItem q => s.setQu q ((s.qu q).markNext bestItem)
  | .keyStore k => (s.keyZeroise k.toNat).raise 21 0
  | .microcode b =>
    let s := { s with
      images := sset (dflt []) s.images b.val []
      parse := { s.parse with lostBanks := b.val :: s.parse.lostBanks.filter fun x => decide (x ≠ b.val) } }
    s.wr (ucodeValid b.val) 0
  | _ => s

/-- A poisoned word consumed (R495). -/
def Dev.consume (m : MemRef) (c : Consumer) (s : Dev) : Dev :=
  (((s.bump Reg.POISON_CNT).logError m true 127 (consumerCode c)).raise 5 2).consumerAction c

/-- A word found uncorrectable by a read, or with `known` holding the poison check pattern; `scrub`: the read is the scrubber's (R494, R498, R501). -/
def Dev.readUe (m : MemRef) (known scrub : Bool) (s : Dev) : Dev :=
  let byScrub := scrub && s.on Reg.SCRUB_CTRL_BUSY
  if known then
    let s := s.bump Reg.POISON_READ
    if byScrub then s.bump Reg.SCRUB_POISON else s
  else
    let s := ((s.bump Reg.UE_CNT).logError m true 127 0).raise 5 1
    let s := if byScrub then
        let s := s.bump Reg.SCRUB_UE
        if s.rd Reg.SCRUB_FIRST_UE_ADDR = 0x7FFFFFFF then s.wr Reg.SCRUB_FIRST_UE_ADDR m.addr.toNat else s
      else s
    if m.sram then s else s.candidate (rowOf m)

/-- MEMORY_READ_UE: a read finds an uncorrectable error, or with `known` the poison check pattern; the consumer of the word, where there is one
(R494, R495). -/
def execMemoryReadUe (m : MemRef) (known scrub : Bool) (consumer : Option Consumer) (s : State) : Out :=
  s.run fun s =>
    if s.memoryOn m then
      let s := s.readUe m known scrub
      match consumer with
      | some c => s.consume m c
      | none => s
    else s

/-- CE_RATE_WINDOW_END (R496). -/
def execCeRateWindowEnd (s : State) : Out :=
  s.run fun s =>
    let n := s.integ.window
    ({ s with integ := { s.integ with window := 0 } }).raiseIf (decide (s.rd Reg.MEMI_CTRL_CE_THR < n)) 5 0

/-! ## Scrubbing (R498, R499) -/

/-- The units of the memory that a scrub names: HBM, or the 256 MiB of SRAM (Table 0.1). -/
def scrubUnits (sram : Bool) : Nat :=
  if sram then 0x400000 else Config.hbmBytes / 64

/-- The scrub under way ends: the summary stands, with E-05.03. -/
def Dev.scrubEnd (done : Nat) (s : Dev) : Dev :=
  ((s.wr Reg.SCRUB_CTRL_BUSY 0).wr Reg.SCRUB_DONE_UNITS done).raise 5 3

/-- GO = 1. -/
def Dev.scrubGo (s : Dev) : Dev :=
  if s.on Reg.SCRUB_CTRL_BUSY ∨ scrubUnits (s.on Reg.SCRUB_CTRL_TARGET) < s.rd Reg.SCRUB_BASE_BASE + s.rd Reg.SCRUB_LEN_UNITS then s.viol scrubPage
  else
    let s := ((s.wr Reg.SCRUB_CTRL_BUSY 1).wr Reg.SCRUB_CTRL_ABORTED 0).wr Reg.SCRUB_DONE_UNITS 0
    let s := ((s.wr Reg.SCRUB_CE 0).wr Reg.SCRUB_UE 0).wr Reg.SCRUB_POISON 0
    (s.wr Reg.SCRUB_SKIPPED 0).wr Reg.SCRUB_FIRST_UE_ADDR 0x7FFFFFFF

/-- How many of the range's units lie in retired channels: none of the SRAM, none while no channel is retired. Which units a channel holds is not given, so
the number comes from outside. -/
def Dev.scrubSkips (s : Dev) (skipped : Nat) : Nat :=
  if s.on Reg.SCRUB_CTRL_TARGET ∨ (s.rd Reg.RETIRED_LO = 0 ∧ s.rd Reg.RETIRED_HI = 0) then 0 else min skipped (s.rd Reg.SCRUB_LEN_UNITS)

/-- The units that a scrub under way has skipped and done: how far it has come is a free value (log 3). -/
def Dev.scrubReached (s : Dev) : Nat × Nat :=
  let skips := s.scrubSkips (Config.freeOf 120 [s.fresh])
  (skips, Config.freeOf 119 [s.fresh] % (s.rd Reg.SCRUB_LEN_UNITS - skips + 1))

/-- ABORT = 1: the scrub ends where it has come to. -/
def Dev.scrubAbort (s : Dev) : Dev :=
  if s.on Reg.SCRUB_CTRL_BUSY then
    let r := s.scrubReached
    ((s.tick.wr Reg.SCRUB_CTRL_ABORTED 1).wr Reg.SCRUB_SKIPPED r.1).scrubEnd r.2
  else s

/-- A write of SCRUB_CTRL; RATE_GBPS out of its range makes the write ignored and counted (R513). -/
def Dev.scrubCtrl (v : Word) (s : Dev) : Dev :=
  let rate := getBits v 8 5
  if rate = 0 ∨ rate = 31 then s.onWrite scrubPage 0x040 (Dev.viol scrubPage)
  else
    s.hostWrite scrubPage 0x040 6#32 v fun s =>
      let s := if v.getLsbD 1 then s.scrubGo else s
      if v.getLsbD 2 then s.scrubAbort else s

/-- SCRUB_GO (R498). -/
def execScrubGo (v : Word) (s : State) : Out :=
  s.run (Dev.scrubCtrl (v ||| 2))

/-- SCRUB_ABORT (R499). -/
def execScrubAbort (v : Word) (s : State) : Out :=
  s.run (Dev.scrubCtrl (v ||| 4))

/-- SCRUB_COMPLETE: the range is done, with the units of retired channels that were skipped (R498, R499). -/
def execScrubComplete (skipped : Nat) (s : State) : Out :=
  s.run fun s =>
    if s.on Reg.SCRUB_CTRL_BUSY then
      let k := s.scrubSkips skipped
      (s.wr Reg.SCRUB_SKIPPED k).scrubEnd (s.rd Reg.SCRUB_LEN_UNITS - k)
    else s

/-! ## Check-bit test mode (R500) -/

/-- The check byte of a word that has not been written raw: a free value of its data, since the code's matrix is not given (log 3). -/
def checkOf (data : Nat) : Nat :=
  Config.freeOf 80 [data] % 256

/-- What the decoder makes of a 64-bit word read with its check byte: good, one bit corrected (64 to 71 are check bits), the poison pattern, or uncorrectable
(R492 to R494). -/
inductive WordFound where
  | good
  | corrected (bit data : Nat)
  | poison
  | bad
  deriving DecidableEq, Repr

/-- A word decoded: a single bit in error is the one whose inversion makes data and check byte agree (R492). -/
def wordFound (data check : Nat) : WordFound :=
  if check = poisonCheck then .poison
  else if check = checkOf data then .good
  else
    match (List.range 72).find? fun i =>
        if i < 64 then decide (checkOf (data ^^^ 2 ^ i) = check) else decide (checkOf data ^^^ 2 ^ (i - 64) = check) with
    | some i => .corrected i (if i < 64 then data ^^^ 2 ^ i else data)
    | none => .bad

/-- The place in the stacks of a 64-byte unit of HBM: not given (log 3). -/
def hbmPlace (unit : Nat) : MemRef :=
  let f (k n : Nat) := Config.freeOf 116 [unit, k] % 2 ^ n
  ⟨false, BitVec.ofNat 31 unit, BitVec.ofNat 2 (f 0 2), BitVec.ofNat 4 (f 1 4), BitVec.ofNat 1 (f 2 1), BitVec.ofNat 5 (f 3 5), BitVec.ofNat 17 (f 4 17)⟩

/-- The HBM address of a test word: the scratch area at WIN_HOME. -/
def testAddr (w : Nat) : Nat :=
  winAddr (8 * w)

/-- WRITE: data and check byte written raw. -/
def Dev.testWrite (s : Dev) : Dev :=
  let w := s.rd Reg.TEST_ADDR_WORD
  let data := s.rd Reg.TEST_DATA_LO + 2 ^ 32 * s.rd Reg.TEST_DATA_HI
  let check := s.rd Reg.TEST_CHECK_CHECK
  if s.on Reg.TEST_CTRL_TARGET then
    { s with integ := { s.integ with scratch := (w, data, check) :: s.integ.scratch.filter fun e => decide (e.1 ≠ w) } }
  else
    { s with
      hbmOut := s.hbmOut ++ [(testAddr w, bytesLE 8 data)]
      integ := { s.integ with raw := [(testAddr w / 8, check)] } }

/-- READ_RAW: both read raw. `data` is what the HBM word holds. The SRAM scratch array holds 0 before it is written (log 5). -/
def Dev.testRead (data : Nat) (s : Dev) : Dev :=
  let w := s.rd Reg.TEST_ADDR_WORD
  let p : Nat × Nat :=
    if s.on Reg.TEST_CTRL_TARGET then
      match s.integ.scratch.find? fun e => decide (e.1 = w) with
      | some e => e.2
      | none => (0, checkOf 0)
    else (data, match (s.integ.raw ++ s.integ.checks).find? fun e => decide (e.1 = testAddr w / 8) with
      | some e => e.2
      | none => checkOf data)
  ((s.wr Reg.TEST_DATA_LO (p.1 % 2 ^ 32)).wr Reg.TEST_DATA_HI (p.1 / 2 ^ 32)).wr Reg.TEST_CHECK_CHECK p.2

/-- A write of TEST_CTRL; `rd` reads HBM. Where both bits are set the write comes first. -/
def Dev.testCtrl (rd : Nat → Nat → List Byte) (v : Word) (s : Dev) : Dev :=
  s.hostWrite testPage 0x040 6#32 v fun s =>
    let data := if v.getLsbD 1 then s.rd Reg.TEST_DATA_LO + 2 ^ 32 * s.rd Reg.TEST_DATA_HI
      else ofBytesLE (rd (testAddr (s.rd Reg.TEST_ADDR_WORD)) 8)
    let s := if v.getLsbD 1 then s.testWrite else s
    if v.getLsbD 2 then s.testRead data else s

/-- TEST_WRITE_RAW (R500). -/
def execTestWriteRaw (v : Word) (s : State) : Out :=
  s.run (Dev.testCtrl s.bytes (v ||| 2))

/-- TEST_READ_RAW (R500). -/
def execTestReadRaw (v : Word) (s : State) : Out :=
  s.run (Dev.testCtrl s.bytes (v ||| 4))

/-! ## Repair (R501) -/

/-- A write of PPR_CTRL: CLEAR_CAND empties the candidate list. -/
def Dev.pprCtrl (v : Word) (s : Dev) : Dev :=
  s.hostWrite pprPage 0x040 2#32 v fun s =>
    if v.getLsbD 1 then ({ s with integ := { s.integ with candidates := [] } }).wr Reg.PPR_STAT_CANDIDATES 0 else s

/-- PPR_CLEAR_CAND (R501). -/
def execPprClearCand (v : Word) (s : State) : Out :=
  s.run (Dev.pprCtrl (v ||| 2))

end Sys2Proof.Machine
end

