-- ==== Sys2Proof/Machine/Pcie.lean ====
section
/-!
DEFINITION. The PCIe attachment of the head (R418 to R422) and the shared-memory window (R429).
-/
namespace Sys2Proof.Machine

/-! ## The link and the function -/

/-- The controller is active: on the head, while the hub runs (R418). -/
def Dev.pcieOn (s : Dev) : Bool :=
  s.hubOn && s.on Reg.STRAPS_CHAIN_HEAD

/-- A base address register of the function: its number, whether it is prefetchable, and its size (Table 15.1). -/
structure BarSpec where
  bar : Nat
  prefetch : Bool
  bytes : Nat
  deriving DecidableEq, Repr

/-- The identity and resources of the function (Table 15.1). -/
structure FunctionId where
  vendor : Nat
  device : Nat
  classCode : Nat
  bars : List BarSpec
  vectors : Nat
  payload : Nat
  deriving DecidableEq, Repr

/-- The function that the head presents: the device ID follows its fuses (R419, Table 15.1). -/
def Dev.functionId (s : Dev) : FunctionId :=
  { vendor := 0x1F7A
    device := match s.variant with
      | .sq9812 => 0x9812
      | .sq9806 => 0x9806
    classCode := 0x028000
    bars := [⟨0, false, 2 ^ 30⟩, ⟨2, true, 2 ^ 36⟩, ⟨4, false, 2 ^ 16⟩]
    vectors := 2048
    payload := 512 }

/-- Where BAR0 shows byte `off` of a page of the device at a position, and BAR2 byte `w` of its window (R423). -/
def bar0Offset (pos page off : Nat) : Nat := pos * 0x1000000 + page * 0x1000 + off
def bar2Offset (pos w : Nat) : Nat := pos * 0x40000000 + w

/-- The PCIe function reset: its configuration space, and so its power state and MSI-X, and the stalled reads, which are dropped (R421). -/
def Dev.functionReset (s : Dev) : Dev :=
  let s := { s with d3hot := false, ev := { s.ev with msix := Msix.reset } }
  (List.range 32).foldl (fun s q => s.wr (Reg.Q_STAT_STALLING q) 0) s

/-- The link's state shown, with E-03.06 at each change; a link that goes down resets the function (R418, R421). -/
def Dev.linkChange (up : Bool) (speed width : Nat) (s : Dev) : Dev :=
  let old := s.word Reg.LINK_STAT_UP.cell
  let was := s.on Reg.LINK_STAT_UP
  let s := (s.wrB Reg.LINK_STAT_UP up).wr Reg.LINK_STAT_SPEED (if up then speed else 0)
  let s := s.wr Reg.LINK_STAT_WIDTH (if up then width else 0)
  let s := if was ∧ !up then (s.bump Reg.PCIE_RST_LINK_DOWN).functionReset else s
  s.raiseIf (decide (s.word Reg.LINK_STAT_UP.cell ≠ old)) 3 6

/-- The messages that a change of the masks has made free are sent, and their pending bits cleared (R457; PCI Express). -/
def EvState.msixFree (e : EvState) : EvState :=
  e.msix.pending.foldl (fun e k => e.message k) { e with msix := { e.msix with pending := [] } }

/-- What happens on the link that is up, or what the host does to the configuration space or to BAR4, which no row of their own names (log 200): an error that AER logs,
the power state, the MSI-X control bits, an entry of the MSI-X table. -/
def Dev.linkEvent (c : PcieChange) (s : Dev) : Dev :=
  match c with
  | .up => s
  | .down => s
  | .error correctable => (if correctable then s.bump Reg.PCIE_ERR_CORR else s).raise 3 7
  | .power d3hot => { s with d3hot := d3hot }
  | .msixControl enable masked =>
    { s with ev := ({ s.ev with msix := { s.ev.msix with enable := enable, masked := masked } } : EvState).msixFree }
  | .msixEntry k addr data masked =>
    if s.d3hot then s
    else
      let t := sset (dflt MsixEntry.reset) s.ev.msix.table k.val ⟨addr, data, masked⟩
      { s with ev := ({ s.ev with msix := { s.ev.msix with table := t } } : EvState).msixFree }

/-- PCIE_LINK_CHANGE: the link is up at a speed (1 to 5) and a width of 2^width lanes, or down (Table 15.7); or an event of the link that is up. -/
def execPcieLinkChange (change : PcieChange) (speed : Fin 5) (width : Fin 3) (s : State) : Out :=
  s.run fun s =>
    if s.pcieOn then
      match change with
      | .up => s.linkChange true (speed + 1) (2 ^ width.val)
      | .down => s.linkChange false (speed + 1) (2 ^ width.val)
      | c => if s.on Reg.LINK_STAT_UP then s.linkEvent c else s
    else s

/-- PCIE_FUNCTION_RESET: an FLR or a hot reset (R421). A link that goes down is PCIE_LINK_CHANGE. -/
def execPcieFunctionReset (s : State) : Out :=
  s.run fun s => if s.pcieOn then (s.bump Reg.PCIE_RST_FLR).functionReset else s

/-- PCIE_POISONED_WRITE (R422). -/
def execPciePoisonedWrite (s : State) : Out :=
  s.run fun s => if s.pcieOn then (s.bump Reg.PCIE_ERR_POISON_WR).raise 3 7 else s

/-! ## The window (R429) -/

/-- The page whose VIOLATION_COUNT counts refused window accesses (log 41). -/
abbrev winPage : Nat := 0x041

/-- WIN_BASE_WRITE (R429). -/
def execWinBaseWrite (v : Word) (s : State) : Out :=
  s.run (Dev.hostWrite winPage 0x040 0 v id)

/-- The HBM address under byte `off` of the aperture. -/
def Dev.apertureAddr (s : Dev) (off : Nat) : Nat :=
  s.rd Reg.WIN_BASE_BASE * 65536 + off

/-- An address lies in the firmware and internal region. -/
def inFirmware (a : Nat) : Bool :=
  Config.fwBase ≤ a ∧ a < Config.fwBase + Config.fwSize

/-- An address lies in the journal region. -/
def inJournal (a : Nat) : Bool :=
  Config.jrnBase ≤ a ∧ a < Config.jrnBase + Config.jrnSize

/-- A byte that the window reads: 0 in the firmware region and beyond usable HBM. -/
def State.winByte (s : State) (a : Nat) : Byte :=
  if inFirmware a then 0 else s.byte a

/-- A byte that the window writes. -/
def Dev.winWritable (s : Dev) (a : Nat) : Bool :=
  decide (a < s.hbmUsable) && !inFirmware a && !inJournal a

/-- A read of the window; the bytes go out as a poisoned completion where memory integrity marks them (R422). -/
def Dev.winRead (off : Nat) (bytes : List Byte) (poisoned : Bool) (s : Dev) : Dev :=
  let s := s.countAccess 1 0 s.hostMaster.1 s.hostMaster.2 off bytes.length
  { s with
    readData := (List.range (ceilDiv bytes.length 4)).map fun k => BitVec.ofNat 32 (fieldLE bytes (4 * k) 4)
    readPoisoned := poisoned }

/-- A write of the window: the bytes that may not be written are ignored, and counted once. -/
def Dev.winWrite (off : Nat) (bytes : List Byte) (s : Dev) : Dev :=
  let m := s.hostMaster
  let s := s.countAccess 1 1 m.1 m.2 off bytes.length
  let base := s.apertureAddr off
  let ok (k : Nat) : Bool := decide (off + k < Config.winSize) && s.winWritable (base + k)
  let s' := (bytes.zipIdx).foldl (fun (d : Dev) (p : Byte × Nat) => if ok p.2 then d.store (base + p.2) [p.1] else d) s
  if (List.range bytes.length).all ok then s' else (s'.viol winPage).countAccess 1 2 m.1 m.2 off bytes.length

end Sys2Proof.Machine
end

