-- ==== Sys2Proof/Machine/Window.lean ====
section
/-!
DEFINITION. Accesses to the shared-memory window (R422, R429, R493 to R495, R500): a word whose check byte was written raw is read as the decoder finds it.
-/
namespace Sys2Proof.Machine

/-- The HBM words of a range whose check bytes were written raw, as the decoder finds them (R500). -/
def State.wordsFound (s : State) (a n : Nat) : List (Nat × WordFound) :=
  (s.dev.integ.checks.filter fun e => decide (8 * e.1 < a + n) && decide (a < 8 * e.1 + 8)).map fun e =>
    (e.1, wordFound (ofBytesLE (s.bytes (8 * e.1) 8)) e.2)

/-- A byte that the window reads, of words found so. -/
def State.foundByte (s : State) (found : List (Nat × WordFound)) (a : Nat) : Byte :=
  match found.find? fun e => e.1 = a / 8 with
  | some (_, .corrected _ d) => BitVec.ofNat 8 (d / 256 ^ (a % 8))
  | _ => s.winByte a

/-- A word of those found carries a poison mark (R494). -/
def foundPoison (found : List (Nat × WordFound)) : Bool :=
  found.any fun e => decide (e.2 = .bad) || decide (e.2 = .poison)

/-- What the host's read of one such word counts and logs (R493 to R495). -/
def Dev.wordRead (e : Nat × WordFound) (s : Dev) : Dev :=
  let m := hbmPlace (e.1 / 8)
  match e.2 with
  | .good => s
  | .corrected bit _ => s.readCe m bit false
  | .poison => (s.readUe m true false).consume m .hostRead
  | .bad => (s.readUe m false false).consume m .hostRead

/-- A read of `n` bytes of the window at byte `off`: the bytes, and the words found. Nothing is read while the hub does not run. -/
def State.winLook (s : State) (off n : Nat) : List Byte × List (Nat × WordFound) :=
  let k := min n (Config.winSize - off)
  let a := s.dev.apertureAddr off
  if s.dev.hubOn && !s.dev.hostGone then
    let found := s.wordsFound a k
    ((List.range k).map fun i => s.foundByte found (a + i), found)
  else (List.replicate k 0, [])

/-- A read of the window made; `poisoned`: memory integrity marks its bytes. -/
def Dev.winReadAs (off : Nat) (look : List Byte × List (Nat × WordFound)) (poisoned : Bool) (s : Dev) : Dev :=
  (look.2.foldl (fun s e => s.wordRead e) s).winRead off look.1 (poisoned || foundPoison look.2)

/-- BAR2_WINDOW_ACCESS (R429). While the hub does not run, a read returns 0 and a write is ignored and counted in DEV.VIOLATION_COUNT, as for a page that does
not answer (R477); in D3hot the access is an unsupported request (R419). -/
def execBar2WindowAccess (access : WinAccess) (s : State) : Out :=
  match access with
  | .read off n poisoned =>
    if s.dev.hostGone then .next (s.become { s.dev with readData := [] })
    else .next (s.become (s.dev.winReadAs off.toNat (s.winLook off.toNat n.toNat) (poisoned && s.dev.hubOn)))
  | .write off bytes => s.run fun s => if s.hubOn && !s.hostGone then s.winWrite off.toNat bytes else s.noPage

end Sys2Proof.Machine
end

