-- ==== Sys2Proof/Machine/Chain.lean ====
section
/-!
DEFINITION. The relay chain (R404 to R412): the data channel, accesses to other positions, neighbours, position assignment and changes
of the chain.
-/
namespace Sys2Proof.Machine

/-- This device is the head. -/
def Dev.isHead (s : Dev) : Bool :=
  s.on Reg.STRAPS_CHAIN_HEAD

/-- This device's position, where it has one: 0 on the head (R409, R410). -/
def Dev.ownPos (s : Dev) : Option Nat :=
  if s.isHead then some 0 else if s.on Reg.CHAIN_STAT_ASSIGNED then some (s.rd Reg.CHAIN_STAT_POS) else none

/-- This device's KEY_ID, byte 0 least significant. -/
def Dev.ownKey (s : Dev) : Nat :=
  s.rd64 Reg.KEY_ID_LO

/-! ## Segments (R404) -/

/-- The classes of a segment. -/
abbrev clsManagement : Nat := 1
abbrev clsBulk : Nat := 2
abbrev clsNeighbour : Nat := 3

/-- A segment read from its bytes, whatever its CRC. -/
def readSegment (b : List Byte) : Segment :=
  let h := fieldBE b 0 4
  { cls := h / 2 ^ 30, dst := h / 2 ^ 24 % 64, src := h / 2 ^ 18 % 64, bcast := bitAt h 17, last := bitAt h 16, seq := h / 256 % 256,
    data := sliceBytes b 4 (h % 256 + 1) }

/-- A segment's bytes have the length their header gives, and a right CRC. -/
def segmentOk (b : List Byte) : Bool :=
  let n := fieldBE b 0 4 % 256 + 5
  decide (b.length = n + 4) && decide (crc32 (b.take n) = fieldLE b n 4)

/-- The segments of a message: at most 256 bytes each, the last one marked. -/
def messageSegments (cls dst src seq : Nat) : Nat → List Byte → List Segment
  | 0, _ => []
  | n + 1, d =>
    if d.length ≤ 256 then [⟨cls, dst, src, false, true, seq, d⟩]
    else ⟨cls, dst, src, false, false, seq, d.take 256⟩ :: messageSegments cls dst src seq n (d.drop 256)

/-- A segment queued behind those of a port: management goes before the first bulk segment (R404). -/
def enqueueSegment (g : Segment) (l : List Segment) : List Segment :=
  if g.cls = clsManagement then l.takeWhile (fun x => x.cls ≠ clsBulk) ++ [g] ++ l.dropWhile (fun x => x.cls ≠ clsBulk) else l ++ [g]

/-- A segment queued on port p. -/
def Dev.sendSegment (p : Nat) (g : Segment) (s : Dev) : Dev :=
  let l := sget (dflt []) s.relay.out p
  { s with relay := { s.relay with out := sset (dflt []) s.relay.out p (enqueueSegment g l) } }

/-- The port towards a position: its neighbour there, or on the head its route; where neither says it, an open port that the specification does not
name (R412, log 44). -/
def Dev.portTo (s : Dev) (pos came : Nat) : Option Nat :=
  let ports := (List.range 4).filter fun p => s.portOpen p && decide (p ≠ came)
  match ports.find? fun p => s.on (Reg.RP_STAT_NEIGH_KNOWN p) && decide (s.rd (Reg.RP_STAT_NEIGH_POS p) = pos) with
  | some p => some p
  | none =>
    match (if s.isHead then (s.relay.chain.find? fun m => m.pos = pos && m.present).bind s.route else none) with
    | some r => some r.1
    | none => ports[Config.freeOf 44 [pos, came] % max 1 ports.length]?

/-- A message with a sequence number sent to a position over port p. -/
def Dev.sendOver (p cls pos seq : Nat) (data : List Byte) (s : Dev) : Dev :=
  (messageSegments cls pos (s.ownPos.getD 63) seq (data.length / 256 + 1) data).foldl (fun s g => s.sendSegment p g) s

/-- A message with a sequence number sent to a position. -/
def Dev.sendNumbered (cls pos seq : Nat) (data : List Byte) (s : Dev) : Dev :=
  match s.portTo pos 4 with
  | none => s
  | some p => s.sendOver p cls pos seq data

/-- A message of this device's own sent to a position, with its next sequence number. -/
def Dev.sendMessage (cls pos : Nat) (data : List Byte) (s : Dev) : Dev :=
  ({ s with relay := { s.relay with seq := (s.relay.seq + 1) % 256 } } : Dev).sendNumbered cls pos (s.relay.seq % 256) data

/-- The place of a message under way. -/
def inboxKey (g : Segment) : Nat :=
  256 * (64 * g.cls + g.src) + g.seq

/-- A management or bulk segment for this device: its data joins its message, which ends with LAST; the rest of a lost message is lost too (R404). -/
def Dev.deliverSegment (g : Segment) (s : Dev) : Dev :=
  let k := inboxKey g
  let d := if g.last ∨ s.relay.lost.contains k then [] else sget (dflt []) s.relay.inbox k ++ g.data
  let lost := if g.last then s.relay.lost.filter (· ≠ k) else s.relay.lost
  { s with relay := { s.relay with inbox := sset (dflt []) s.relay.inbox k d, lost := lost } }

/-- A neighbour segment heard on port p (R409): KEY_ID, position, HEAD flag, port (layout: log 44). A second head: R411. -/
def Dev.neighbourIn (p : Nat) (d : List Byte) (s : Dev) : Dev :=
  let head := bitAt (fieldBE d 9 1) 0
  let s := (s.wr (Reg.RP_STAT_NEIGH_POS p) (fieldBE d 8 1)).wr (Reg.RP_STAT_NEIGH_KNOWN p) 1
  let r := { s.rport p with neigh := fieldLE d 0 8 }
  if s.isHead then
    let s := s.setRport p r
    if head ∧ ¬ s.on (Reg.RP_STAT_CONFLICT p) then
      -- nothing of the port is used any more
      let before := s.routes
      let s := (s.wr (Reg.RP_STAT_CONFLICT p) 1).raise 28 19
      (((List.range 4).foldl (fun s l => s.slotsFail (64 + 4 * p + l)) s).settleTime p).settleRing before
    else s
  else
    let first := (List.range 4).all fun q => decide (q = p) || !((s.rport q).headHere && s.portLink q)
    s.setRport p { r with headHere := head && (r.headHere || first) }

/-- A segment with a right CRC that came on port p. -/
def Dev.segmentIn (p : Nat) (g : Segment) (s : Dev) : Dev :=
  if g.cls = clsNeighbour then s.neighbourIn p g.data
  else if g.cls = 0 ∨ s.on (Reg.RP_STAT_CONFLICT p) then s
  else if g.bcast then
    if s.ownPos = some g.src then s
    else ((List.range 4).filter fun q => s.portOpen q && decide (q ≠ p)).foldl (fun s q => s.sendSegment q g) (s.deliverSegment g)
  else if s.ownPos = some g.dst then s.deliverSegment g
  else
    match s.portTo g.dst p with
    | some q => s.sendSegment q g
    | none => s

/-- A segment that fails its CRC on port p: counted, and the message it seems to belong to is lost, its segments still to come included (R404; log 44). -/
def Dev.segmentBad (p : Nat) (b : List Byte) (s : Dev) : Dev :=
  let s := s.bump (Reg.RL_DCH_ERR (64 + 4 * p))
  let g := readSegment b
  let k := inboxKey g
  { s with relay := { s.relay with
      inbox := sset (dflt []) s.relay.inbox k []
      lost := if g.last then s.relay.lost.filter (· ≠ k) else if s.relay.lost.contains k then s.relay.lost else s.relay.lost ++ [k] } }

/-- The message that a segment on port p ends, where it is a management or bulk message for this device alone (R404). -/
def Dev.messageEnded (s : Dev) (p : Nat) (g : Segment) : Option (List Byte) :=
  if (g.cls = clsManagement ∨ g.cls = clsBulk) ∧ ¬ s.on (Reg.RP_STAT_CONFLICT p) ∧ !g.bcast ∧ s.ownPos = some g.dst ∧ g.last ∧
      ¬ s.relay.lost.contains (inboxKey g) then
    some (sget (dflt []) s.relay.inbox (inboxKey g) ++ g.data)
  else none

/-! ## Accesses to other positions (R405, R406) -/

/-- An access to a position sent, and kept until its reply. -/
def Dev.chainSend (cls pos : Nat) (read : Bool) (words : Nat) (data : List Byte) (s : Dev) : Dev :=
  let w : ChainAccess := ⟨pos, s.relay.seq % 256, read, words⟩
  let s := { s with relay := { s.relay with waiting := s.relay.waiting ++ [w] } }
  s.sendMessage cls pos data

/-- An access that completes as an unsupported request (R419): a read brings no data. -/
def Dev.noData (read : Bool) (s : Dev) : Dev :=
  if read then { s with readData := [] } else s

/-- MGMT_ACCESS: a read of a register at byte `off` of a position's BAR0 window, or a write of it (R405); in D3hot it is an unsupported request, and a read brings no data
(R419). -/
def execMgmtAccess (pos : BitVec 6) (read : Bool) (off : BitVec 24) (value : Word) (s : State) : Out :=
  s.run fun s =>
    if s.pcieOn ∧ pos ≠ 0 then
      if s.hostGone then s.noData read else
      s.chainSend clsManagement pos.toNat read 1
        (bytesBE 1 (ofBool !read) ++ bytesLE 4 off.toNat ++ if read then [] else bytesLE 4 value.toNat)
    else s

/-- The waiting access of a position and sequence number. -/
def Dev.chainAccess (s : Dev) (pos seq : Nat) : Option ChainAccess :=
  s.relay.waiting.find? fun w => w.pos = pos && w.seq = seq

/-- An access no longer waits. -/
def Dev.chainDone (w : ChainAccess) (s : Dev) : Dev :=
  { s with relay := { s.relay with waiting := s.relay.waiting.filter fun x => x ≠ w } }

/-- The reply to a waiting access of a position and sequence number, with the words that a read returns; a reply that nothing waits for changes nothing. -/
def Dev.chainReply (pos seq : Nat) (data : List Word) (s : Dev) : Dev :=
  match s.chainAccess pos seq with
  | none => s
  | some w =>
    let s := s.chainDone w
    if w.read then { s with readData := data.take w.words, readPoisoned := false } else s

/-- MGMT_REPLY: a reply that is not seen as a segment of the data channel (R405). -/
def execMgmtReply (pos : BitVec 6) (seq : Byte) (data : List Word) (s : State) : Out :=
  s.run (Dev.chainReply pos.toNat seq.toNat data)

/-- An access that completes with all ones. -/
def Dev.allOnes (words : Nat) (s : Dev) : Dev :=
  { s with readData := List.replicate words 0xFFFFFFFF, readPoisoned := false }

/-- MGMT_TIMEOUT: no reply within MGMT_TMO: a read completes with all ones, a write is lost (R405). -/
def execMgmtTimeout (pos : BitVec 6) (seq : Byte) (s : State) : Out :=
  s.run fun s =>
    match s.chainAccess pos.toNat seq.toNat with
    | none => s
    | some w =>
      let s := s.chainDone w
      let s := if w.read then s.allOnes w.words else s
      (s.bump Reg.MGMT_ERR).raise 28 20

/-- An address lies in the capture region (R91). -/
def Dev.inCapture (s : Dev) (a : Nat) : Bool :=
  decide (Config.captureBase ≤ a) && decide (a < Config.captureBase + s.rd Reg.CAP_BUF_SIZE_GB * 1000000000)

/-- The words of an access. -/
def accessWords : WinAccess → Nat
  | .read _ n _ => ceilDiv n.toNat 4
  | .write _ _ => 0

/-- The message of a bulk access (log 44). -/
def bulkMessage : WinAccess → List Byte
  | .read off n _ => bytesBE 1 0 ++ bytesLE 4 off.toNat ++ bytesLE 2 n.toNat
  | .write off bs => bytesBE 1 1 ++ bytesLE 4 off.toNat ++ bs

/-- A read of the capture region of this device while shed step 1 is active on it (R406). -/
def Dev.captureShed (s : Dev) : WinAccess → Bool
  | .read off _ _ => s.shedActive 1 && s.inCapture (s.apertureAddr off.toNat)
  | .write _ _ => false

/-- The head's side of a bulk access: the message goes out, and a read waits for its reply; in D3hot it is an unsupported request (R419). -/
def Dev.bulkSend (pos : Nat) (a : WinAccess) (s : Dev) : Dev :=
  if s.hostGone then s.noData (match a with | .read _ _ _ => true | .write _ _ => false) else
  match a with
  | .read _ _ _ => s.chainSend clsBulk pos true (accessWords a) (bulkMessage a)
  | .write _ _ => s.sendMessage clsBulk pos (bulkMessage a)

/-- A window read by the head at this device, whose reply leaves as `reply` has it: byte 0 is 1 for a capture transfer under shed step 1, else 0 with the bytes
after it (R406; log 44). -/
def Dev.bulkRead (reply : List Byte → Dev → Dev) (off : Nat) (look : List Byte × List (Nat × WordFound)) (poisoned : Bool) (s : Dev) : Dev :=
  if s.shedActive 1 && s.inCapture (s.apertureAddr off) then reply (bytesBE 1 1) s
  else
    let r := s.winReadAs off look poisoned
    reply (bytesBE 1 0 ++ look.1) { r with readData := s.readData, readPoisoned := s.readPoisoned }

/-- BULK_ACCESS: a BAR2 access to the window of a position (R406). On the head it goes out as a message. On the device at that position it is made, and a read is
answered under `seq`, the sequence number of the message. -/
def execBulkAccess (pos : BitVec 6) (access : WinAccess) (seq : Byte) (s : State) : Out :=
  if s.dev.pcieOn ∧ pos ≠ 0 then s.run (Dev.bulkSend pos.toNat access)
  else if s.dev.hubOn ∧ ¬ s.dev.isHead ∧ s.dev.ownPos = some pos.toNat then
    match access with
    | .read off n poisoned => s.run (Dev.bulkRead (Dev.sendNumbered clsBulk 0 seq.toNat) off.toNat (s.winLook off.toNat n.toNat) poisoned)
    | .write _ _ => execBar2WindowAccess access s
  else s.run id

/-! ## Neighbours (R409) -/

/-- The neighbour segment that port p sends. -/
def Dev.neighbourSegment (s : Dev) (p : Nat) : Segment :=
  { cls := clsNeighbour, dst := 0, src := s.ownPos.getD 63, bcast := false, last := true, seq := 0,
    data := bytesLE 8 s.ownKey ++ bytesBE 1 (s.ownPos.getD 0xFF) ++ bytesBE 1 (ofBool s.isHead) ++ bytesBE 1 p }

/-- NEIGHBOUR_SEGMENT_SEND (R409): a port that a second head has been heard on is used for nothing (R411). -/
def execNeighbourSegmentSend (s : State) : Out :=
  s.run fun s =>
    if s.hubOn then
      ((List.range 4).filter s.portOpen).foldl (fun s p => s.sendSegment p (s.neighbourSegment p)) s
    else s

/-! ## Position assignment (R410) -/

/-- The device at the far end of port p of device k. -/
def farEnd (links : List ChainLink) (k p : Nat) : Option Nat :=
  links.findSome? fun l =>
    if l.keyA.toNat = k ∧ l.portA.val = p then some l.keyB.toNat
    else if l.keyB.toNat = k ∧ l.portB.val = p then some l.keyA.toNat
    else none

/-- The devices found breadth first, with their hops: `todo` are the devices whose neighbours have not been taken (R410). -/
def breadthFirst (links : List ChainLink) : Nat → List (Nat × Nat) → List (Nat × Nat) → List (Nat × Nat)
  | 0, _, found => found
  | _, [], found => found
  | n + 1, k :: todo, found =>
    let new := (((List.range 4).filterMap (farEnd links k.1)).eraseDups.filter fun j => !found.any fun e => e.1 = j).map fun j => (j, k.2 + 1)
    breadthFirst links n (todo ++ new) (found ++ new)

/-- The devices found from the head, itself first. -/
def chainFrom (links : List ChainLink) (head : Nat) : List (Nat × Nat) :=
  breadthFirst links (2 * links.length + 1) [(head, 0)] [(head, 0)]

/-- The devices found over one port of the head, with their hops. -/
def chainVia (links : List ChainLink) (head p : Nat) : List (Nat × Nat) :=
  match farEnd links head p with
  | some n => if n = head then [] else (breadthFirst links (2 * links.length + 1) [(n, 1)] [(head, 0), (n, 1)]).drop 1
  | none => []

/-- The ports of the head that lead to a device, with the hops on each (R412). -/
def chainPaths (links : List ChainLink) (head key : Nat) : List (Nat × Nat) :=
  (List.range 4).filterMap fun p => ((chainVia links head p).find? fun e => e.1 = key).map fun e => (p, e.2)

/-- The ports of the head on a ring: those whose neighbour reaches another port's neighbour without the head (R412). -/
def ringPorts (links : List ChainLink) (head : Nat) : List Nat :=
  (List.range 4).filter fun p => (List.range 4).any fun q =>
    decide (p ≠ q) && match farEnd links head q with
      | some n => (chainVia links head p).any fun e => e.1 = n
      | none => false

/-- The links that the head uses: none at a port where it has heard a second head (R411). -/
def Dev.usedLinks (links : List ChainLink) (s : Dev) : List ChainLink :=
  links.filter fun l =>
    !(decide (l.keyA.toNat = s.ownKey) && s.on (Reg.RP_STAT_CONFLICT l.portA)) &&
    !(decide (l.keyB.toNat = s.ownKey) && s.on (Reg.RP_STAT_CONFLICT l.portB))

/-- COUNT, and R8 applied to it: a SMALL head that finds more than 4 devices puts LARGE in force, with E-00.12 each time they are found; `found`: devices have been
found, and have not departed. -/
def Dev.applyCount (found : Bool) (s : Dev) : Dev :=
  let n := (s.relay.chain.filter fun m => m.present).length
  let s := s.wr Reg.CHAIN_STAT_COUNT n
  let forced := !s.on Reg.STRAPS_FLEET_MODE && decide (4 < n)
  (s.wrB Reg.STRAPS_FLEET_EFF (s.on Reg.STRAPS_FLEET_MODE || forced)).raiseIf (forced && found) 0 12

/-- The completion message, with COUNT and the fleet mode in force, sent to every assigned position (R410). -/
def Dev.sendCompletion (s : Dev) : Dev :=
  let data := bytesBE 1 (s.rd Reg.CHAIN_STAT_COUNT) ++ bytesBE 1 (s.rd Reg.STRAPS_FLEET_EFF)
  (s.relay.chain.filter fun m => m.present && decide (m.pos ≠ 0)).foldl (fun s m => s.sendMessage clsManagement m.pos data) s

/-- DISCOVERY_START: 100 ms after the head's first port reached LINK (R410). -/
def execDiscoveryStart (s : State) : Out :=
  s.run fun s =>
    if s.hubOn ∧ s.isHead ∧ (List.range 4).any s.portLink ∧ s.relay.chain = [] then
      { s with relay := { s.relay with assigning := true } }
    else s

/-- A write of CHAIN_CTRL: REDISCOVER on the head starts assignment anew and frees the positions of departed devices (R410, R411); it is the head's only, and
counted elsewhere. -/
def Dev.chainCtrl (v : Word) (s : Dev) : Dev :=
  s.hostWrite 0x380 0x044 1 v fun s =>
    if v.getLsbD 0 then
      if s.isHead then { s with relay := { s.relay with chain := s.relay.chain.filter (fun m => m.present), assigning := true } }
      else s.viol 0x380
    else s

/-- CHAIN_REDISCOVER (R410). -/
def execChainRediscover (v : Word) (s : State) : Out :=
  s.run (Dev.chainCtrl (v ||| 1))

/-- There is a ring, and its ports have LINK (R412). -/
def Dev.ringUp (s : Dev) : Bool :=
  decide (s.relay.ring ≠ []) && s.relay.ring.all s.portOpen

/-- Positions given to the devices found, the head first; a 65th receives none, with E-28.19 (R410, R411). -/
def Dev.assignPositions (links : List ChainLink) (s : Dev) : Dev :=
  let used := s.usedLinks links
  let found := chainFrom used s.ownKey
  let members : List ChainMember := ((found.take 64).zipIdx).map fun e => ⟨e.1.1, e.2, true, chainPaths used s.ownKey e.1.1⟩
  let s := { s with relay := { s.relay with chain := members, ring := ringPorts used s.ownKey, assigning := false } }
  let s := ((s.wr Reg.CHAIN_STAT_POS 0).wr Reg.CHAIN_STAT_ASSIGNED 1).raiseIf (decide (64 < found.length)) 28 19
  let ring := s.ringUp
  let changed := s.on Reg.CHAIN_STAT_RING != ring
  (s.wrB Reg.CHAIN_STAT_RING ring).raiseIf changed 28 23

/-- POSITION_ASSIGN_COMPLETE: the head has found the links of the chain (R410). -/
def execPositionAssignComplete (links : List ChainLink) (s : State) : Out :=
  s.run fun s =>
    if s.hubOn ∧ s.isHead ∧ s.relay.assigning then
      let s := ((s.assignPositions links).applyCount true).raise 28 18
      s.sendCompletion.fleetSettle
    else s

/-- This device follows another head than one whose message comes over port p (R411). -/
def Dev.otherHead (s : Dev) (p : Nat) : Bool :=
  !(s.rport p).headHere && (List.range 4).any fun q => (s.rport q).headHere && s.portLink q

/-- The completion message acts: position, fleet mode in force, MODE_OVERRIDDEN where this device sampled another (R7), and the mode is settled (R507). -/
def Dev.completed (pos : Nat) (large : Bool) (ring : List Nat) (s : Dev) : Dev :=
  let s := ((s.wr Reg.CHAIN_STAT_POS pos).wr Reg.CHAIN_STAT_ASSIGNED 1).wr Reg.POS_POS pos
  let s := (s.wrB Reg.STRAPS_FLEET_EFF large).wrB Reg.STRAPS_MODE_OVERRIDDEN (s.on Reg.STRAPS_FLEET_MODE != large)
  let s := { s with relay := { s.relay with ring := ring } }
  (s.settleRing s.routes).fleetSettle

/-- FLEET_COMPLETION_MSG: the head's completion message reaches this device over port p: the position assigned to it, the fleet mode in force, and
the ports of this device that lie on a ring. COUNT, which it also carries, is shown on the head only (Table 14.6). -/
def execFleetCompletionMsg (p : Fin 4) (pos : BitVec 6) (large : Bool) (ring : List (Fin 4)) (s : State) : Out :=
  s.run fun s =>
    if s.hubOn ∧ ¬ s.isHead ∧ s.portLink p ∧ ¬ s.otherHead p then s.completed pos.toNat large (ring.map (·.val)) else s

/-! ## Joins and departures (R411) -/

/-- The routes of the devices that are there. -/
def Dev.presentRoutes (s : Dev) : List (Nat × Option (Nat × Nat)) :=
  (s.relay.chain.filter fun m => m.present).map fun m => (m.pos, s.route m)

/-- The chain's links are now these, and its devices those that `f` makes: the paths follow, and a device that stays and whose route changed, or RING, raises
E-28.23 (R412). -/
def Dev.linksChange (links : List ChainLink) (f : List ChainMember → List ChainMember) (s : Dev) : Dev :=
  let before := s.presentRoutes
  let used := s.usedLinks links
  let chain := (f s.relay.chain).map fun m => { m with paths := chainPaths used s.ownKey m.keyId }
  let s := { s with relay := { s.relay with chain := chain, ring := ringPorts used s.ownKey } }
  let moved := s.presentRoutes.any fun e => before.any fun b => decide (b.1 = e.1) && decide (b.2 ≠ e.2)
  let ring := s.ringUp
  let changed := moved || s.on Reg.CHAIN_STAT_RING != ring
  (s.wrB Reg.CHAIN_STAT_RING ring).raiseIf changed 28 23

/-- A join or departure made: E-28.17, COUNT and R8 follow (R411), and the completion message goes out again. -/
def Dev.chainChange (found : Bool) (links : List ChainLink) (f : List ChainMember → List ChainMember) (s : Dev) : Dev :=
  (((s.linksChange links f).raise 28 17).applyCount found).sendCompletion

/-- The lowest position that no device has or keeps. -/
def Dev.freePos (s : Dev) : Option Nat :=
  (List.range 64).find? fun p => !s.relay.chain.any fun m => m.pos = p

/-- The head has assigned positions. -/
def Dev.chainUp (s : Dev) : Bool :=
  s.hubOn && s.isHead && s.on Reg.CHAIN_STAT_ASSIGNED

/-- CHAIN_JOIN: a device joins, and the links are now these: its former position, or the lowest free one; none for a 65th (R411). Where the device was there
already only the links have changed (R412). -/
def execChainJoin (key : BitVec 64) (links : List ChainLink) (s : State) : Out :=
  s.run fun s =>
    if ¬ s.chainUp then s
    else if s.relay.chain.any fun m => m.keyId = key.toNat && m.present then s.linksChange links id
    else if s.relay.chain.any fun m => m.keyId = key.toNat then
      s.chainChange true links fun c => c.map fun m => if m.keyId = key.toNat then { m with present := true } else m
    else
      match s.freePos with
      | none => s.raise 28 19
      | some p => s.chainChange true links fun c => c ++ [⟨key.toNat, p, true, []⟩]

/-- CHAIN_DEPART: a device departs, and the links are now these: its position stays reserved for its KEY_ID (R411). Where a way to the device is left it stays, and
only the links have changed (R412). -/
def execChainDepart (key : BitVec 64) (links : List ChainLink) (s : State) : Out :=
  s.run fun s =>
    if s.chainUp ∧ s.relay.chain.any (fun m => m.keyId = key.toNat && m.present && m.pos ≠ 0) then
      if (chainFrom (s.usedLinks links) s.ownKey).any fun e => e.1 = key.toNat then s.linksChange links id
      else s.chainChange false links fun c => c.map fun m => if m.keyId = key.toNat then { m with present := false } else m
    else s

end Sys2Proof.Machine
end

