-- ==== Sys2Proof/Machine/Collim.lean ====
section
/-!
DEFINITION. Converters and Collimation (R358, R361 to R383): foreground and background passes, system calibration, the record store, re-runs, the
housekeeping converters with their scans and the rails they watch, and the commissioning calibration.
-/
namespace Sys2Proof.Machine

/-- The COLLIM and HKADC pages, and the page of commissioning calibration. -/
abbrev colPage : Nat := 0x0B0
abbrev lcalPage : Nat := 0x0B2
abbrev hkPage : Nat := 0x0B8
abbrev calPage : Nat := 0x093

/-- A command of these pages refused (Table 13.8). -/
def Dev.colRefused (page : Nat) (s : Dev) : Dev :=
  (s.viol page).raise 9 9

/-! ## The store (R376, R378) -/

/-- A record's header as stored: status words 0 to 4, of word 0 SOURCE and T_RUN alone. -/
def Dev.colHeader (s : Dev) (r : Nat) : List Word :=
  match s.words (tableCell tableCOLREC.id r 0) 5 with
  | w :: ws => (w &&& 0xFFFF0030#32) :: ws
  | [] => []

/-- A record's values as bytes (log 38). -/
def colBytes (v : ColVals) : List Byte :=
  let lane (c : LaneCal) := bytesLE 8 (unsign 64 c.offset) ++ bytesLE 8 (unsign 64 c.gain)
  v.fore.flatMap lane ++ v.tracked.flatMap lane ++ v.sys.flatMap lane ++ v.other.flatMap fun x => bytesLE 8 (unsign 64 x)

/-- The check word of a copy: the first 8 bytes of SHA-512 over record index, GEN, header and values. -/
def colCheck (r gen : Nat) (words : List Word) (v : ColVals) : List Byte :=
  (sha512 (bytesLE 1 r ++ bytesLE 4 gen ++ (words.flatMap fun w => bytesLE 4 w.toNat) ++ colBytes v)).take 8

/-- A stored copy; none where nothing has been written there. -/
def Dev.copyAt (s : Dev) (r k : Nat) : Option ColCopy :=
  (s.col.copies.find? fun e => decide (e.1 = 2 * r + k)).map (·.2)

/-- GEN of a copy, 0 where there is none. -/
def Dev.copyGen (s : Dev) (r k : Nat) : Nat :=
  ((s.copyAt r k).map (·.gen)).getD 0

/-- The next record that waits begins to be stored: its values as they stand, into the copy that does not hold the newest GEN. -/
def Dev.storeNext (s : Dev) : Dev :=
  match s.col.store, s.col.queue with
  | none, r :: q =>
    let k := if s.copyGen r 0 < s.copyGen r 1 then 0 else if (s.copyAt r 0).isNone then 0 else 1
    let gen := (max (s.copyGen r 0) (s.copyGen r 1) + 1) % 2 ^ 32
    let words := s.colHeader r
    let x := s.record r
    let c : ColCopy := ⟨gen, words, x.vals, colCheck r gen words x.vals⟩
    let s := (s.setRecord r { x with changed := false }).wr Reg.COL_STAT_STORING 1
    { s with col := { s.col with queue := q, store := some (r, k, c) } }
  | _, _ => s

/-- A record to be stored. -/
def Dev.storeRecord (r : Nat) (s : Dev) : Dev :=
  if s.col.queue.contains r then s else ({ s with col := { s.col with queue := s.col.queue ++ [r] } }).storeNext

/-- Every DIRTY record to be stored. -/
def Dev.storeDirty (s : Dev) : Dev :=
  (List.range 27).foldl (fun s r => if s.on (Reg.COLREC_DIRTY r) then s.storeRecord r else s) s

/-- COL_STORE_DUE: STORE_MIN_S has passed since the last store of record `r` (R378). -/
def execColStoreDue (r : Fin 27) (s : State) : Out :=
  s.run fun s => if s.on (Reg.COLREC_DIRTY r) then s.storeRecord r else s

/-- A write of COL_STORE. -/
def Dev.colStoreWrite (v : Word) (s : Dev) : Dev :=
  s.hostWrite colPage 0x044 0x1000#32 v fun s => if v.getLsbD 12 then s.storeDirty else s

/-- COL_FLUSH: a write of COL_STORE with FLUSH set (R378). -/
def execColFlush (v : Word) (s : State) : Out :=
  s.run (Dev.colStoreWrite (v ||| 0x1000#32))

/-- COL_STORE_COMPLETE: the store under way ends, its write and read-back right or not (R376); a copy whose write failed holds nothing from then on (log 232). -/
def execColStoreComplete (ok : Bool) (s : State) : Out :=
  s.run fun s =>
    match s.col.store with
    | none => s
    | some (r, k, c) =>
      let s := { s with col := { s.col with store := none } }.wr Reg.COL_STAT_STORING 0
      let s := if ok then
          let copies := s.col.copies.filter (fun e => decide (e.1 ≠ 2 * r + k)) ++ [(2 * r + k, c)]
          let s := { s with col := { s.col with copies := copies } }.bump Reg.COL_WRITES
          let s := (s.wr (Reg.COLREC_CHECK_LO r) (fieldLE c.check 0 4)).wr (Reg.COLREC_CHECK_HI r) (fieldLE c.check 4 4)
          let s := (s.wr (Reg.COLREC_GEN r) c.gen).wrB (Reg.COLREC_DIRTY r) (s.record r).changed
          s.setRecord r { s.record r with stored := true }
        else
          let s := { s with col := { s.col with copies := s.col.copies.filter fun e => decide (e.1 ≠ 2 * r + k) } }
          s.wr (Reg.COLREC_DIRTY r) 1
      (s.raise 9 1).storeNext

/-! ## Runs (R382) -/

/-- A record's values replaced: DIRTY where they change, and the set taken to its instant (R378, R379). -/
def Dev.setVals (r : Nat) (v : ColVals) (s : Dev) : Dev :=
  let x := s.record r
  if v = x.vals then s
  else ((s.setRecord r { x with vals := v, changed := true }).wr (Reg.COLREC_DIRTY r) 1).colTake r

/-- What a completed run writes: RUNS, LAST_S, LAST_LOCKED, LAST_FG and T_RUN, and the record valid; the record's first run is stored (R378, R382).
`t` is the mean temperature over the run, 0.1 °C. -/
def Dev.runDone (r : Nat) (v : ColVals) (fg : Bool) (t : Int) (s : Dev) : Dev :=
  let s := s.setVals r v
  let s := s.setRecord r { s.record r with kind := 0 }
  let sec := s.time / 65536 / 1000000000
  let s := ((s.wr (Reg.COLREC_RUNNING r) 0).wr (Reg.COLREC_VALID r) 1).wr ⟨Reg.COL_VALID_VALID.cell, r, 1⟩ 1
  let s := ((s.bump (Reg.COLREC_RUNS r)).wr (Reg.COLREC_LAST_S_LO r) (sec % 2 ^ 32)).wr (Reg.COLREC_LAST_S_HI r) (sec / 2 ^ 32)
  let s := ((s.wrB (Reg.COLREC_LAST_LOCKED r) (s.dpll = dpllLocked)).wrB (Reg.COLREC_LAST_FG r) fg).wrS (Reg.COLREC_T_RUN r) t
  if (s.record r).stored then s else s.storeRecord r

/-- SOURCE and TRACE_ID of a record, as a calibration sets them; DIRTY where they change (R378, R383). -/
def Dev.setSource (r src : Nat) (trace : Option Word) (s : Dev) : Dev :=
  let t := s.wr (Reg.COLREC_SOURCE r) src
  let t := match trace with
    | some v => t.wr (Reg.COLREC_TRACE_ID r) v.toNat
    | none => t
  if t.rd (Reg.COLREC_SOURCE r) = s.rd (Reg.COLREC_SOURCE r) ∧ t.rd (Reg.COLREC_TRACE_ID r) = s.rd (Reg.COLREC_TRACE_ID r) then t
  else (t.setRecord r { t.record r with changed := true }).wr (Reg.COLREC_DIRTY r) 1

/-! ## Line converters (R363 to R368) -/

/-- The record of a class of engine `n`. -/
def lineRecord (n : Nat) (dac : Bool) : Nat :=
  if dac then 8 + n else n

/-- The BIST blocks of engine `n`. -/
def lineBlocks (n : Nat) : List Nat := [n, 8 + n, 16 + n, 24 + n]

/-- FG_RUN = 1 for engine `n` (R363): each idle class whose record has no run under way; a refusal where neither class is idle. -/
def Dev.fgRun (n : Nat) (s : Dev) : Dev :=
  let rs := [n, 8 + n].filter s.classIdle
  if (lineBlocks n).any s.bist.run.contains then s.busyTest lcalPage
  else if rs = [] ∨ ¬ s.lineOn n then s.colRefused lcalPage
  else rs.foldl (fun s r => if (s.record r).kind = 0 then s.fgStart r else s) s

/-- A write of LCAL_CTRL[n]. -/
def Dev.lcalCtrl (n : Nat) (v : Word) (s : Dev) : Dev :=
  s.hostWrite lcalPage (0x040 + 4 * n) 2#32 v fun s => if v.getLsbD 1 then s.fgRun n else s

/-- LCAL_FG_RUN: a write of LCAL_CTRL[n] with FG_RUN set (R363). -/
def execLcalFgRun (n : Fin 8) (v : Word) (s : State) : Out :=
  s.run (Dev.lcalCtrl n (v ||| 2#32))

/-- LCAL_FG_COMPLETE: the foreground pass of a class of engine `n` ends, with cause 1 or 2 of FG_CAUSE or 0, the lanes' offsets and gains and the other values that it
measured, and the mean temperature over it (R364); cause 3 ends a pass with the shutdown itself. A transmitter that waits enters PREP, and a receiver that waits starts its sampling PLL. -/
def execLcalFgComplete (n : Fin 8) (dac : Bool) (cause : Fin 3) (lanes : List (Int × Int)) (values : List Int) (t : Int) (s : State) : Out :=
  s.run fun s =>
    let r := lineRecord n dac
    let x := s.record r
    if x.kind ≠ 1 then s
    else if cause.val ≠ 0 then s.fgFail r cause.val
    else
      let fore : List LaneCal := lanes.map fun p => ⟨p.1, p.2⟩
      let v : ColVals := { x.vals with fore := fore, tracked := fore, other := values }
      let s := (((s.runDone r v true t).wr (classValid r) 1).showLcal n).raise 9 0
      if dac then (s.tryPrep (2 * (n.val / 2))).tryPrep (2 * (n.val / 2) + 1) else s.adcCalValid n

/-- LCAL_BG_COMPLETE: a background convergence pass of a class ends with the values tracked, the lanes' offset and gain among them with MODE = 0 (R365); `drift`: a correction has moved beyond half its range
(R368). -/
def execLcalBgComplete (n : Fin 8) (dac : Bool) (values : LineTracked) (drift : Bool) (t : Int) (s : State) : Out :=
  s.run fun s =>
    let r := lineRecord n dac
    let x := s.record r
    if s.hubOn ∧ s.lineOn n ∧ (x.kind = 2 ∨ (x.kind = 0 ∧ s.on (Reg.LCAL_CTRL_BG_EN n) ∧ ¬ s.classIdle r)) then
      let lanes : List LaneCal := if s.on (Reg.LCAL_CTRL_MODE n) then x.vals.tracked else values.lanes.map fun p => ⟨p.1, p.2⟩
      let s := s.runDone r { x.vals with tracked := lanes, other := values.others } false t
      (s.setRecord r { s.record r with drift := (s.record r).drift || drift }).showLcal n
    else s

/-! ### System calibration (R365 to R367) -/

/-- GO = 1. A GO while one runs is refused. -/
def Dev.sysGo (s : Dev) : Dev :=
  let n := s.rd Reg.LCAL_SYS_ENGINE
  let dac := s.on Reg.LCAL_SYS_TARGET
  if s.on Reg.LCAL_SYS_BUSY then s.colRefused lcalPage
  else
    let s := ((s.wr Reg.LCAL_SYS_DONE 0).wr Reg.LCAL_SYS_FAIL 0).wr Reg.LCAL_SYS_CAUSE 0
    if s.lineOn n ∧ s.classIdle (lineRecord n dac) then
      let s := (s.wr Reg.LCAL_SYS_BUSY 1).wr Reg.LCAL_SYS_STEP 1
      { s with col := { s.col with sysCal := some ⟨n, dac, s.word Reg.CAL_TRACE_TRACE_ID.cell, [], []⟩ } }
    else s.sysFail 1

/-- One code, in the unit of the mean codes. -/
abbrev oneCode : Int := 1048576

/-- Whether an ADC mean code is out of its range at a step (R367, cause 2). -/
def codeBad (step : Nat) (c : Int) : Bool :=
  match step with
  | 1 => 8 * oneCode < c.natAbs
  | 2 => c < 80 * oneCode || 120 * oneCode < c
  | _ => c < -120 * oneCode || -80 * oneCode < c

/-- A lane's result from its codes and levels of the three steps; none for cause 3. -/
def laneResult (fore : Option LaneCal) (c1 c2 c3 v2 v3 : Int) : Option LaneCal :=
  if v2 - v3 ≤ 0 then none
  else
    let gain := roundDiv ((c2 - c3) * oneCode) (v2 - v3).toNat
    if fore.any fun f => decide (f.gain.natAbs < 5 * (gain - f.gain).natAbs) then none else some ⟨c1, gain⟩

/-- The k-th of a step's four figures. -/
def stepFig (l : List (List Int)) (step k : Nat) : Int :=
  (((l[step]?).getD [])[k]?).getD 0

/-- The end of step 3: DONE, or FAIL with cause 3. -/
def Dev.sysEnd (x : SysCal) (t : Int) (s : Dev) : Dev :=
  let r := lineRecord x.engine x.dac
  let fore := (s.record r).vals.fore
  let res := (List.range 4).map fun k =>
    laneResult fore[k]? (stepFig x.codes 0 k) (stepFig x.codes 1 k) (stepFig x.codes 2 k) (stepFig x.levels 1 k) (stepFig x.levels 2 k)
  if res.any (·.isNone) then s.sysFail 3
  else
    let s := { s with col := { s.col with sysCal := none } }
    let s := ((s.wr Reg.LCAL_SYS_BUSY 0).wr Reg.LCAL_SYS_STEP 0).wr Reg.LCAL_SYS_DONE 1
    let s := s.setSource r 1 (some x.trace)
    let s := (s.runDone r { (s.record r).vals with sys := res.filterMap id } false t).showMissing x.engine
    s.raise 9 5

/-- STEP_DONE = 1, with the sums of the 2^20 samples of each lane (ADC) and the mean temperature. For a DAC the codes are those driven. -/
def Dev.sysStep (sums : List Int) (t : Int) (s : Dev) : Dev :=
  match s.col.sysCal with
  | none => s
  | some x =>
    let step := s.rd Reg.LCAL_SYS_STEP
    let driven : Int := if step = 1 then 0 else if step = 2 then 112 else -112
    let codes := (List.range 4).map fun k => if x.dac then driven * oneCode else (sums[k]?).getD 0
    let levels := (List.range 4).map fun k => s.rdS (Reg.LCAL_LEVEL_UV k)
    let x := { x with codes := x.codes ++ [codes], levels := x.levels ++ [levels] }
    if ¬ s.classIdle (lineRecord x.engine x.dac) then s.sysFail 1
    else if ¬ x.dac ∧ codes.any (codeBad step) then s.sysFail 2
    else if step < 3 then ({ s with col := { s.col with sysCal := some x } } : Dev).wr Reg.LCAL_SYS_STEP (step + 1)
    else s.sysEnd x t

/-- A write of LCAL_SYS. -/
def Dev.lcalSys (v : Word) (sums : List Int) (t : Int) (s : Dev) : Dev :=
  s.hostWrite lcalPage 0x080 0x30#32 v fun s =>
    let s := if v.getLsbD 4 then s.sysGo else s
    if v.getLsbD 5 then s.sysStep sums t else s

/-- LCAL_SYS_GO: a write of LCAL_SYS with GO set (R366). -/
def execLcalSysGo (v : Word) (sums : List Int) (t : Int) (s : State) : Out :=
  s.run (Dev.lcalSys (v ||| 0x10#32) sums t)

/-- LCAL_SYS_STEP_DONE: a write of LCAL_SYS with STEP_DONE set (R366). -/
def execLcalSysStepDone (v : Word) (sums : List Int) (t : Int) (s : State) : Out :=
  s.run (Dev.lcalSys (v ||| 0x20#32) sums t)

/-- LCAL_SYS_TIMEOUT: 60 s of a step have passed without STEP_DONE (R367). -/
def execLcalSysTimeout (s : State) : Out :=
  s.run fun s => if s.on Reg.LCAL_SYS_BUSY then s.sysFail 4 else s

/-! ## Housekeeping calibration (R374) -/

/-- BUSY0 and BUSY1, FAULT0 and FAULT1. -/
def hkBusy (k : Nat) : Field := if k = 0 then Reg.HK_STAT_BUSY0 else Reg.HK_STAT_BUSY1
def hkFault (k : Nat) : Field := if k = 0 then Reg.HK_STAT_FAULT0 else Reg.HK_STAT_FAULT1

/-- The first calibration that waits runs: one converter at a time. It takes CAL_TRACE at its start (R383), and a temperature re-run raises E-09.03 there (R384). -/
def Dev.hkCalNext (s : Dev) : Dev :=
  match s.col.cals with
  | c :: rest =>
    if s.on (hkBusy c.conv) then s
    else
      let s := { s with col := { s.col with cals := { c with trace := s.word Reg.CAL_TRACE_TRACE_ID.cell } :: rest } }
      ((s.wr (hkBusy c.conv) 1).runStart (16 + c.conv) 4).raiseIf c.rerun 9 3
  | [] => s

/-- A calibration asked for; one of a converter that has one already is that one. With REF_FAULT set the device starts none of its own (R372). A system calibration whose stimuli
lie too close is refused, with FAIL (R374, R384). -/
def Dev.hkCalAsk (c : HkCal) (s : Dev) : Dev :=
  if s.col.cals.any (fun x => decide (x.conv = c.conv)) ∨ ((c.rerun ∨ c.auto) ∧ s.on Reg.HK_STAT_REF_FAULT) then s
  else if c.system ∧ s.rdS Reg.HK_ZERO_UV_UV + 1000000 > s.rd Reg.HK_FS_UV_UV then ((s.wr Reg.HK_STAT_CAL_FAIL 1).colRefused hkPage).raise 9 8
  else ({ s with col := { s.col with cals := s.col.cals ++ [c] } }).hkCalNext

/-- The self calibration of a converter. -/
def selfCal (k : Nat) (rerun auto : Bool) : HkCal := ⟨k, false, rerun, auto, 0⟩

/-- LINE_UNMON brought up to date (R474). -/
def Dev.settleUnmon (s : Dev) : Dev :=
  let now := s.on Reg.HK_STAT_FAULT1
  let was := s.on Reg.PWR_STAT_LINE_UNMON
  (s.wrB Reg.PWR_STAT_LINE_UNMON now).raiseIf (now != was) 0 4

/-- CLEAR_FAULT = 1: latched converter faults released, with E-09.07 (R372). -/
def Dev.hkClear (s : Dev) : Dev :=
  let had := s.on Reg.HK_STAT_FAULT0 || s.on Reg.HK_STAT_FAULT1
  let s := (s.wr Reg.HK_STAT_FAULT0 0).wr Reg.HK_STAT_FAULT1 0
  let s := { s with col := { s.col with bad := [], tried := [] } }
  (s.raiseIf had 9 7).settleUnmon

/-- A write of HK_CTRL. -/
def Dev.hkCtrl (v : Word) (s : Dev) : Dev :=
  (s.hostWrite hkPage 0x040 0xE0#32 v fun s =>
    let ask (k : Nat) : HkCal := ⟨k, s.on Reg.HK_CTRL_CAL_MODE, false, false, 0⟩
    let s := if v.getLsbD 7 then s.hkClear else s
    let s := if v.getLsbD 5 then s.hkCalAsk (ask 0) else s
    if v.getLsbD 6 then s.hkCalAsk (ask 1) else s).settleWake

/-- HK_CAL_REQUEST: a write of HK_CTRL; CAL0 and CAL1 of the word ask for a calibration (R374). -/
def execHkCalRequest (v : Word) (s : State) : Out :=
  s.run (Dev.hkCtrl v)

/-- HK_CLEAR_FAULT: a write of HK_CTRL with CLEAR_FAULT set (R372). -/
def execHkClearFault (v : Word) (s : State) : Out :=
  s.run (Dev.hkCtrl (v ||| 0x80#32))

/-- HK_CAL_COMPLETE: the calibration under way ends, with the offset and gain found and the mean temperature over it (R374). A re-run in system mode changes the
offset alone (Table 13.7). -/
def execHkCalComplete (ok : Bool) (offset gain t : Int) (s : State) : Out :=
  s.run fun s =>
    match s.col.cals with
    | [] => s
    | c :: rest =>
      let r := 16 + c.conv
      let s := { s with col := { s.col with cals := rest } }.wr (hkBusy c.conv) 0
      let s := s.wrB Reg.HK_STAT_CAL_FAIL !ok
      let s := if c.auto then
          { s with col := { s.col with bad := sset (dflt 0) s.col.bad c.conv 0, tried := if s.col.tried.contains c.conv then s.col.tried else c.conv :: s.col.tried } }
        else s
      let s := if ok then
          let old := (s.record r).vals
          let keep := c.rerun && s.on Reg.HK_CTRL_CAL_MODE
          let s := if c.rerun then s else if c.system then s.setSource r 1 (some c.trace) else s.setSource r 0 none
          s.runDone r { old with other := [offset, if keep then old.get 1 else gain] } false t
        else s.runFailed r
      ((s.raise 9 8).hkCalNext).settleWake

/-! ## Housekeeping scans (R370 to R373, R474) -/

/-- HK_SCAN_START: both converters start a scan (R370). -/
def execHkScanStart (s : State) : Out :=
  s.run fun s =>
    if s.on Reg.HK_CTRL_EN ∧ s.on Reg.FINDER_STAT_BOOTED then
      let s := s.colApply .scan
      { s with col := { s.col with scan := some (s.clock / 1000 % 2 ^ 32) } }
    else s

/-- The inputs that a converter converts, in order: 31 first, then those enabled (R370). -/
def Dev.hkInputs (s : Dev) (k : Nat) : List Nat :=
  let en := s.rd (if k = 0 then Reg.HK_EN0_EN else Reg.HK_EN1_EN)
  31 :: (List.range 31).filter (bitAt en)

/-- The HBM takes copies of the buffer: it is trained. -/
def Dev.hbmServes (s : Dev) : Bool :=
  s.hubOn && (s.pwr = pwrRun || decide (5 ≤ s.rd Reg.PWR_STAT_STEP))

/-- An entry of the buffer by its place. -/
def Dev.hkEntry (s : Dev) (i : Nat) : List Byte :=
  sget (dflt (List.replicate 8 0)) s.col.buf i

/-- An entry written at HK_WR_PTR, and copied to the mirror while the HBM is in service; the whole buffer is copied once after a time without (R373). -/
def Dev.hkWrite (e : List Byte) (s : Dev) : Dev :=
  let i := s.rd Reg.HK_WR_PTR_INDEX
  let base := 64 * s.rd Reg.HK_MIRROR_BASE
  let s := { s with col := { s.col with buf := sset (dflt (List.replicate 8 0)) s.col.buf i e } }.wr Reg.HK_WR_PTR_INDEX (i + 1)
  if !s.hbmServes then { s with col := { s.col with behind := true } }
  else if s.col.behind then
    { s with col := { s.col with behind := false } }.store base ((List.range 8192).flatMap s.hkEntry)
  else s.store (base + 8 * i) e

/-- The results of a converter's scan: HK_LAST and the entries (R371, R373); the reserved inputs 18 to 23 read 0 (Table 13.2). -/
def Dev.hkResults (k ftime : Nat) (codes : List Nat) (invalid suspect : Bool) (s : Dev) : Dev :=
  if s.on (hkBusy k) then s
  else
    (s.hkInputs k).foldl (fun s i =>
      let c := if 18 ≤ i ∧ i < 24 then 0 else (codes[i]?).getD 0 % 65536
      let cell := (if k = 0 then Reg.HK_LAST0_CODE i else Reg.HK_LAST1_CODE i).cell
      let s := s.setWord cell (BitVec.ofNat 32 (c + 2 ^ 16 * ofBool invalid + 2 ^ 17 * ofBool suspect))
      s.hkWrite (bytesLE 2 c ++ bytesLE 1 (i + 32 * k + 64 * ofBool invalid + 128 * ofBool suspect) ++ bytesLE 1 (s.rd Reg.HK_STAT_SCAN) ++
        bytesLE 4 ftime)) s

/-- A rail of Table 17.1: its bit in PWR_RAIL_FAULT, its nominal in mV, whether its input is divided by 2, and the converter and input that read it. -/
structure RailInput where
  rail : Nat
  nominal : Nat
  half : Bool
  conv : Nat
  input : Nat

/-- The rails and their readings; VDD_FINDER and VDD_CORE have a second one. -/
def railInputs : List RailInput :=
  [⟨0, 800, false, 0, 12⟩, ⟨1, 1800, true, 0, 13⟩, ⟨2, 750, false, 0, 0⟩, ⟨3, 850, false, 0, 2⟩, ⟨4, 750, false, 0, 4⟩,
   ⟨5, 900, false, 1, 0⟩, ⟨6, 900, false, 1, 4⟩, ⟨7, 900, false, 1, 8⟩, ⟨8, 900, false, 1, 12⟩,
   ⟨9, 1800, true, 0, 11⟩, ⟨10, 1100, false, 0, 8⟩, ⟨11, 400, false, 0, 10⟩, ⟨12, 1200, false, 0, 6⟩,
   ⟨13, 1200, false, 1, 2⟩, ⟨14, 1200, false, 1, 6⟩, ⟨15, 1200, false, 1, 10⟩, ⟨16, 1200, false, 1, 14⟩]

/-- The second readings of HKADC1. -/
def secondInputs : List RailInput :=
  [⟨0, 800, false, 1, 17⟩, ⟨2, 750, false, 1, 16⟩]

/-- Whether a code lies outside nominal ± PERMIL / 1,000. A code is 1.6 V / 65,536, twice that where the input is divided. -/
def RailInput.out (x : RailInput) (permil code : Nat) : Bool :=
  let v : Int := code * 1600 * (if x.half then 2 else 1)
  let n : Int := x.nominal * 65536
  decide (n * permil < (v - n).natAbs * 1000)

/-- Whether a rail's reading of the scan can be acted on: converted, and marked neither INVALID nor SUSPECT. -/
def Dev.railUsable (s : Dev) (ok : Nat → Bool) (x : RailInput) : Bool :=
  ok x.conv && !s.on (hkBusy x.conv) && (s.hkInputs x.conv).contains x.input

/-- The rails judged on the readings of a scan (R474). -/
def Dev.judgeRails (codes : Nat → List Nat) (ok : Nat → Bool) (s : Dev) : Dev :=
  let was := s
  railInputs.foldl (fun s x =>
    let seen := (x :: secondInputs.filter fun y => decide (y.rail = x.rail)).find? (was.railUsable ok)
    match seen with
    | some y => s.railReading y.rail (y.out (s.rd Reg.PWR_RAIL_WIN_PERMIL) (((codes y.conv)[y.input]?).getD 0 % 65536))
    | none => s) s

/-- What three INVALID scans of a converter do: one self calibration, and after three more once it has run FAULTk with E-09.07 (R372); none counts while a calibration of the
converter waits or runs. -/
def Dev.hkCount (k : Nat) (invalid : Bool) (s : Dev) : Dev :=
  if (s.col.cals.any fun c => decide (c.conv = k)) ∨ s.on (hkFault k) then s
  else if !invalid then
    { s with col := { s.col with bad := sset (dflt 0) s.col.bad k 0, tried := s.col.tried.filter fun x => decide (x ≠ k) } }
  else if s.on Reg.HK_STAT_REF_FAULT then { s with col := { s.col with bad := sset (dflt 0) s.col.bad k 0 } }
  else
    let n := sget (dflt 0) s.col.bad k + 1
    if n < 3 then { s with col := { s.col with bad := sset (dflt 0) s.col.bad k n } }
    else if s.col.tried.contains k then
      let s := { s with col := { s.col with bad := sset (dflt 0) s.col.bad k 0 } }
      ((s.wr (hkFault k) 1).raise 9 7).settleUnmon
    else
      let s := { s with col := { s.col with bad := sset (dflt 0) s.col.bad k 0 } }
      s.hkCalAsk (selfCal k false true)

/-- A scan's end (R371 to R373): `codes0` and `codes1` are the means by input. -/
def Dev.hkScanEnd (ftime : Nat) (codes0 codes1 : List Nat) (s : Dev) : Dev :=
  let codes (k : Nat) : List Nat := if k = 0 then codes0 else codes1
  let ref (k : Nat) : Int := (((codes k)[31]?).getD 0 % 65536 : Nat)
  let off (k : Nat) : Bool := !s.on (hkBusy k) && decide (s.rd Reg.HK_PLAUS_REF_TOL_LSB < (ref k - 49152).natAbs)
  let both := !s.on Reg.HK_STAT_BUSY0 && !s.on Reg.HK_STAT_BUSY1
  let suspect : Bool := both && !off 0 && !off 1 && decide (s.rd Reg.HK_PLAUS_PLAUS_LSB < (ref 0 - ref 1).natAbs)
  let good := !off 0 && !off 1 && !suspect
  let refBad := off 0 && off 1
  let invalid (k : Nat) : Bool := off k || s.on (hkFault k)
  let latched (k : Nat) : Bool := s.on (hkFault k)
  let s := (s.hkResults 0 ftime codes0 (invalid 0) suspect).hkResults 1 ftime codes1 (invalid 1) suspect
  let s := ((s.wr Reg.HK_STAT_SCAN (s.rd Reg.HK_STAT_SCAN + 1)).wrB Reg.HK_STAT_SUSPECT suspect).raiseIf (!good) 9 6
  let was := s.on Reg.HK_STAT_REF_FAULT
  let now : Bool := refBad || (was && !good)
  let s := (s.wrB Reg.HK_STAT_REF_FAULT now).raiseIf (now != was) 9 7
  let s := (s.hkCount 0 (off 0)).hkCount 1 (off 1)
  s.judgeRails codes fun k => !suspect && !off k && !latched k

/-- HK_SCAN_END: the scan under way ends (R371). -/
def execHkScanEnd (codes0 codes1 : List Nat) (s : State) : Out :=
  s.run fun s =>
    match s.col.scan with
    | none => s
    | some ftime => (({ s with col := { s.col with scan := none } }).hkScanEnd ftime codes0 codes1).settleWake

/-! ## Temperature re-runs (R380, R381) -/

/-- The re-run of a record started. -/
def Dev.rerun (r : Nat) (s : Dev) : Dev :=
  if r < 16 then
    let s := s.lineRun r
    s.raiseIf (decide ((s.record r).kind ≠ 0)) 9 3
  else if r < 18 then s.hkCalAsk (selfCal (r - 16) true false)
  else (s.runStart r 3).raise 9 3

/-- The die whose sensors give a record's temperature: the engine's line die, or the hub (R380). -/
def recordDie (r : Nat) : Nat :=
  if r < 16 ∨ (18 ≤ r ∧ r < 26) then 1 + (if r < 16 then r % 8 else r - 18) / 2 else 0

/-- The present temperature of a record, 0.1 °C: the mean of its die's valid sensors over the last whole second; none before one has passed. -/
def Dev.recordTemp (s : Dev) (r : Nat) : Option Int :=
  (sget (dflt DieMean.reset) s.power.means (recordDie r)).mean

/-- RERUN_CHECK: a record's temperature compared with its T_RUN (R380). A record that is PENDING stays so. -/
def execRerunCheck (r : Fin 27) (_t : Found) (s : State) : Out :=
  s.run fun s =>
    let moved := (s.recordTemp r).any fun t => decide ((s.rd Reg.COL_CTRL_RERUN_DEG : Int) < (t - s.rdS (Reg.COLREC_T_RUN r)).natAbs)
    if s.hubOn ∧ s.on (Reg.COLREC_VALID r) ∧ s.on Reg.COL_CTRL_AUTO_RERUN ∧ ¬ s.on (Reg.COLREC_RUNNING r) ∧ ¬ s.on (Reg.COLREC_PENDING r) ∧ moved then
      s.rerun r
    else s

/-- TIMING_RERUN_COMPLETE: the replica delays of a TIMING record are measured, 2^-16 ns; the commissioning delays stay (R381). -/
def execTimingRerunComplete (r : Fin 27) (replicas : List Int) (t : Int) (s : State) : Out :=
  s.run fun s =>
    let x := s.record r
    if x.kind = 3 then
      let n := if r.val = 26 then 12 else 2
      s.runDone r { x.vals with other := (List.range n).map x.vals.get ++ replicas } false t
    else s

/-! ## Commissioning calibration (R358) -/

/-- The end of an operation: DONE or FAIL, with E-07.10. -/
def Dev.calEnds (ok : Bool) (s : Dev) : Dev :=
  let s := { s with col := { s.col with commission := none } }.wr Reg.CAL_CTRL_BUSY 0
  ((s.wrB Reg.CAL_CTRL_DONE ok).wrB Reg.CAL_CTRL_FAIL !ok).raise 7 10

/-- GO = 1: OP 2 and 3 need the DPLL LOCKED with SRC = 2; an engine out of service ends them in FAIL. A GO while an operation runs, or with OP 0, is refused. -/
def Dev.calGo (s : Dev) : Dev :=
  let op := s.rd Reg.CAL_CTRL_OP
  let n := s.rd Reg.CAL_CTRL_ENGINE
  if s.on Reg.CAL_CTRL_BUSY ∨ op = 0 ∨ (2 ≤ op ∧ ¬ (s.dpll = dpllLocked ∧ s.rd Reg.TIME_CTRL_SRC = 2)) then (s.viol calPage).raise 7 11
  else if 2 ≤ op ∧ ¬ (s.on (Reg.TX_CTRL_ENABLE n) ∧ s.on (Reg.RX_CTRL_ENABLE n)) then s.calEnds false
  else
    let c : Commission := ⟨op, n, s.rd Reg.CAL_CTRL_OUT, s.rd Reg.CAL_CTRL_IN, s.word Reg.CAL_TRACE_TRACE_ID.cell⟩
    let s := ((s.wr Reg.CAL_CTRL_BUSY 1).wr Reg.CAL_CTRL_DONE 0).wr Reg.CAL_CTRL_FAIL 0
    { s with col := { s.col with commission := some c } }

/-- A write of CAL_CTRL. -/
def Dev.calCtrl (v : Word) (s : Dev) : Dev :=
  s.hostWrite calPage 0x040 0x400#32 v fun s => if v.getLsbD 10 then s.calGo else s

/-- CAL_PIN_LOOP: a write of CAL_CTRL with GO set and OP 1. -/
def execCalPinLoop (v : Word) (s : State) : Out :=
  s.run (Dev.calCtrl ((v &&& ~~~ 3#32) ||| 0x401#32))

/-- CAL_TX_MARK: a write of CAL_CTRL with GO set and OP 2. -/
def execCalTxMark (v : Word) (s : State) : Out :=
  s.run (Dev.calCtrl ((v &&& ~~~ 3#32) ||| 0x402#32))

/-- CAL_RX_LOOP: a write of CAL_CTRL with GO set and OP 3. -/
def execCalRxLoop (v : Word) (s : State) : Out :=
  s.run (Dev.calCtrl ((v &&& ~~~ 3#32) ||| 0x403#32))

/-- A delay in ps as 2^-16 ns, cut towards minus infinity. -/
def psTo16 (ps : Int) : Int := ps * 65536 / 1000

/-- 10,000 ns. -/
abbrev calLimit : Nat := 10000 * 65536

/-- A TIMING record's values with one changed, DONE with its source and trace identifier (R375, R383). -/
def Dev.commissioned (r : Nat) (c : Commission) (other : List Int) (t : Int) (s : Dev) : Dev :=
  let s := s.setSource r 2 (some c.trace)
  (s.runDone r { (s.record r).vals with other := other } false t).calEnds true

/-- CAL_COMPLETE: the operation under way ends, with what it measured in 2^-16 ns (OP 1: PACE out and back; OP 3: receive less transmit instant) and the mean
temperature over it. OP 2 adds the mark's offset to the delay in force (DEDUCED, log 39). -/
def execCalComplete (measured t : Int) (s : State) : Out :=
  s.run fun s =>
    match s.col.commission with
    | none => s
    | some c =>
      let loop := psTo16 (s.rd Reg.CAL_LOOP_PS_PS)
      let r := if c.op = 1 then 26 else 18 + c.engine
      let old := (s.record r).vals
      let n := if c.op = 1 then 12 else 2
      let first := (List.range n).map old.get
      let rest := old.other.drop n
      match c.op with
      | 1 =>
        let half := (measured - loop) / 2
        s.commissioned 26 c ((first.set c.out half).set (8 + c.pin) half ++ rest) t
      | 2 =>
        let v := old.get 0 + psTo16 (s.rdS Reg.TX_MARK_PS_PS)
        if calLimit < v.natAbs then s.calEnds false else s.commissioned r c (first.set 0 v ++ rest) t
      | _ =>
        let v := measured - loop
        if calLimit < v.natAbs then s.calEnds false else s.commissioned r c (first.set 1 v ++ rest) t

end Sys2Proof.Machine
end

