-- ==== Sys2Proof/Machine/Secure.lean ====
section
/-!
DEFINITION. Life cycle, identity, images, installs, bundles, quotes, front-end memories and JTAG (R514 to R533).
-/
namespace Sys2Proof.Machine

/-- The DEV and SEC pages. -/
abbrev devPage : Nat := 0x000
abbrev bootPage : Nat := 0x060
abbrev attPage : Nat := 0x061
abbrev fePage : Nat := 0x062

/-- A command of the DEV or SEC pages refused: counted, with E-04.09 (Table 19.6). -/
def Dev.secRefused (page : Nat) (s : Dev) : Dev :=
  (s.viol page).raise 4 9

/-! ## Life cycle (R515, R516) -/

/-- Whether a request for the state TARGET is accepted (R515). -/
def Dev.lcAccepts (s : Dev) : Bool :=
  let t := s.rd Reg.LC_CMD_TARGET
  decide (s.rd Reg.LC_CMD_CONFIRM = 0x5A00 + t) &&
  (decide (t = s.rd Reg.LC_STAT_STATE + 1 ∧ t ≤ lcScrapped) || decide (t = lcScrapped)) &&
  !s.on Reg.LC_STAT_PENDING &&
  (decide (t ≠ lcProvisioned) || decide (s.vault.cert ≠ [])) &&
  (decide (t ≠ lcOwned) || (List.range 16).any fun k => decide (s.rd (Reg.OWNER_HASH k) ≠ 0))

/-- An accepted request: the state's fuses are burned, OWNER_HASH with OWNED's; RETURNED and SCRAPPED also zeroise every key slot. -/
def Dev.lcBurn (t : Nat) (s : Dev) : Dev :=
  let owner := if t = lcOwned then (List.range 16).map fun k => BitVec.ofNat 32 (s.rd (Reg.OWNER_HASH k)) else s.vault.owner
  let s := { s with vault := { s.vault with burned := max s.vault.burned t, owner := owner } }
  let s := ((s.wr Reg.LC_STAT_PENDING 1).wr Reg.LC_STAT_PEND_TARGET t).raise 4 0
  if lcReturned ≤ t then s.keyZeroiseAll else s

/-- A write of LC_CMD. -/
def Dev.lcCmd (v : Word) (s : Dev) : Dev :=
  s.hostWrite devPage 0x04C 8 v fun s =>
    if !v.getLsbD 3 then s
    else if s.lcAccepts then s.lcBurn (s.rd Reg.LC_CMD_TARGET)
    else s.secRefused devPage

/-- LC_TRANSITION_REQUEST: a write of LC_CMD with GO set (R515). -/
def execLcTransitionRequest (v : Word) (s : State) : Out :=
  s.run (Dev.lcCmd (v ||| 8))

/-! ## The certificate (R518, R519) -/

/-- COPY: the chain goes to the window, its length to CERT_LEN; one that does not fit the home region is refused (log 42). -/
def Dev.certCopy (s : Dev) : Dev :=
  let dst := s.rd Reg.CERT_DST_OFFSET
  if inWindow dst s.vault.cert.length then (s.store (winAddr dst) s.vault.cert).wr Reg.CERT_LEN_BYTES s.vault.cert.length
  else s.secRefused attPage

/-- INSTALL of the chain `cert`, in BLANK only; `ok`: its leaf's key is the device's, and it verifies to the Holteraner key (R519). -/
def Dev.certInstall (cert : List Byte) (ok : Bool) (s : Dev) : Dev :=
  if s.rd Reg.LC_STAT_STATE = lcBlank ∧ s.rd Reg.CERT_LEN_BYTES ≤ 4096 ∧ inWindow (s.rd Reg.CERT_DST_OFFSET) (s.rd Reg.CERT_LEN_BYTES) ∧ cert ≠ [] ∧ ok then
    { s with vault := { s.vault with cert := cert } }
  else s.secRefused attPage

/-- The chain that CERT_DST and CERT_LEN name, read through `mem`. -/
def Dev.certBytes (mem : Nat → Nat → List Byte) (s : Dev) : List Byte :=
  mem (winAddr (s.rd Reg.CERT_DST_OFFSET)) (s.rd Reg.CERT_LEN_BYTES)

/-- A write of CERT_CTRL: INSTALL before COPY. -/
def Dev.certCtrl (mem : Nat → Nat → List Byte) (v : Word) (ok : Bool) (s : Dev) : Dev :=
  s.hostWrite attPage 0x068 3 v fun s =>
    let s := if v.getLsbD 1 then s.certInstall (s.certBytes mem) ok else s
    if v.getLsbD 0 then s.certCopy else s

/-- CERT_COPY (R518). -/
def execCertCopy (v : Word) (ok : Bool) (s : State) : Out :=
  s.run (Dev.certCtrl s.bytes (v ||| 1) ok)

/-- CERT_INSTALL (R519). -/
def execCertInstall (v : Word) (ok : Bool) (s : State) : Out :=
  s.run (Dev.certCtrl s.bytes (v ||| 2) ok)

/-! ## Installs (R524) -/

/-- The images of a set, one after the other; the last one may be cut short. -/
def splitImages : Nat → List Byte → List (List Byte)
  | 0, _ => []
  | _, [] => []
  | n + 1, b => let k := 256 + imageLength b; b.take k :: splitImages n (b.drop k)

/-- The first image of a set that R520 does not accept, with its cause. -/
def Dev.badImage (imgs : List (List Byte)) (s : Dev) : Option (List Byte × Nat) :=
  (imgs.map fun i => (i, s.imageCause i)).find? fun e => e.2 ≠ 0

/-- A rejected image shown (R520). -/
def Dev.showBad (e : List Byte × Nat) (s : Dev) : Dev :=
  (s.wr Reg.BOOT_STAT_FAIL_TYPE (imageType e.1)).wr Reg.BOOT_STAT_FAIL_CAUSE e.2

/-- An install started on the set that FW_SRC and FW_LEN name. -/
def Dev.installStart (mem : Nat → Nat → List Byte) (s : Dev) : Dev :=
  let off := s.rd Reg.FW_SRC_OFFSET
  let len := s.rd Reg.FW_LEN_BYTES
  let imgs := if inWindow off len then splitImages (len / 256 + 1) (mem (winAddr off) len) else []
  let ok := decide (imgs ≠ []) && imgs.all (fun i => imageType i < 8) && (s.badImage imgs).isNone
  let s := match s.badImage imgs with
    | some e => s.showBad e
    | none => s
  let s := { s with vault := { s.vault with install := some (if ok then some imgs else none) } }
  ((s.wr Reg.FW_INSTALL_BUSY 1).wr Reg.FW_INSTALL_DONE 0).wr Reg.FW_INSTALL_FAIL 0

/-- A write of FW_INSTALL. -/
def Dev.fwInstall (mem : Nat → Nat → List Byte) (v : Word) (s : Dev) : Dev :=
  s.hostWrite bootPage 0x04C 1 v fun s =>
    if !v.getLsbD 0 then s
    else if s.on Reg.FW_INSTALL_BUSY then s.secRefused bootPage
    else s.installStart mem

/-- FW_INSTALL (R524). -/
def execFwInstall (v : Word) (s : State) : Out :=
  s.run (Dev.fwInstall s.bytes (v ||| 1))

/-- The slot not in use. -/
def Dev.otherSlot (s : Dev) : Nat :=
  1 - s.rd Reg.BOOT_STAT_SLOT

/-- FW_INSTALL_COMPLETE: the install under way ends; `back`: the set written to the slot reads back right (R524). -/
def execFwInstallComplete (back : Bool) (s : State) : Out :=
  s.run fun s =>
    match s.vault.install with
    | none => s
    | some r =>
      let vault := { s.vault with install := none }
      let s := (match r with
        | some imgs =>
          if back then
            { s with vault := { vault with slots := sset (dflt []) vault.slots s.otherSlot imgs, active := s.otherSlot } }.wr Reg.FW_INSTALL_DONE 1
          else { s with vault := vault }.wr Reg.FW_INSTALL_FAIL 1
        | none => { s with vault := vault }.wr Reg.FW_INSTALL_FAIL 1)
      (s.wr Reg.FW_INSTALL_BUSY 0).raise 4 2

/-! ## Anti-rollback (R525) -/

/-- A write of ARB_CMD: COUNT becomes RUN_MIN_SVN where that is higher and no image of the slot not in use has a lower SVN. -/
def Dev.arbCmd (v : Word) (s : Dev) : Dev :=
  s.hostWrite bootPage 0x048 1 v fun s =>
    if !v.getLsbD 0 then s
    else
      let m := s.rd Reg.ARB_RUN_MIN_SVN
      let others := sget (dflt []) s.vault.slots s.otherSlot
      let ok := decide (s.rd Reg.ARB_COUNT < m) && others.all fun i => decide (m ≤ imageSvn i)
      let s := if ok then { s with vault := { s.vault with arb := m } }.wr Reg.ARB_COUNT m else s.viol bootPage
      s.raise 4 3

/-- ARB_ADVANCE (R525). -/
def execArbAdvance (v : Word) (s : State) : Out :=
  s.run (Dev.arbCmd (v ||| 1))

/-! ## Configuration bundles (R527) -/

/-- The image that stands at a window offset: its header, and the body of the length the header gives. -/
def imageAt (mem : Nat → Nat → List Byte) (off : Nat) : List Byte :=
  let n := 256 + imageLength (mem (winAddr off) 256)
  if inWindow off n then mem (winAddr off) n else []

/-- The records and the digest of a bundle's body; an owner's body begins with the owner key (R520). -/
def bundleOf (img : List Byte) : BundleRun :=
  let b := if imageSigner img = 1 then (imageBody img).drop 32 else imageBody img
  let n := b.length - 64
  { records := (List.range (n / 16)).map fun k => sliceBytes b (16 * k) 16, next := 0, digest := sliceBytes b n 64 }

/-- A bundle that R520 accepts. -/
def Dev.bundleOk (img : List Byte) (s : Dev) : Bool :=
  decide (imageType img = 0x11) && decide (s.imageCause img = 0)

/-- A bundle's application started, or stopped at once where R520 does not accept it (log 45). -/
def Dev.bundleStart (img : List Byte) (s : Dev) : Dev :=
  let s := ((s.wr Reg.BUNDLE_CTRL_DONE 0).wr Reg.BUNDLE_CTRL_FAIL 0).wr Reg.BUNDLE_STAT_STOP_REC 0
  if s.bundleOk img then { s with vault := { s.vault with apply := some (bundleOf img) } }.wr Reg.BUNDLE_CTRL_BUSY 1
  else ((s.showBad (img, s.imageCause img)).wr Reg.BUNDLE_CTRL_FAIL 1).raise 4 6

/-- A write of BUNDLE_CTRL: STORE before APPLY; an APPLY while one runs is refused. -/
def Dev.bundleCtrl (mem : Nat → Nat → List Byte) (v : Word) (s : Dev) : Dev :=
  s.hostWrite attPage 0x074 3 v fun s =>
    let img := imageAt mem (s.rd Reg.BUNDLE_SRC_OFFSET)
    let s := if v.getLsbD 1 then
        (if s.bundleOk img then { s with vault := { s.vault with bundle := img } } else s.secRefused attPage)
      else s
    if !v.getLsbD 0 then s
    else if s.on Reg.BUNDLE_CTRL_BUSY then s.secRefused attPage
    else s.bundleStart img

/-- BUNDLE_APPLY (R527). -/
def execBundleApply (v : Word) (s : State) : Out :=
  s.run (Dev.bundleCtrl s.bytes (v ||| 1))

/-- BUNDLE_STORE (R527). -/
def execBundleStore (v : Word) (s : State) : Out :=
  s.run (Dev.bundleCtrl s.bytes (v ||| 2))

/-- A bundle stopped at record `k` (R527). -/
def Dev.bundleStop (k : Nat) (s : Dev) : Dev :=
  let s := { s with vault := { s.vault with apply := none } }
  (((s.wr Reg.BUNDLE_STAT_STOP_REC k).wr Reg.BUNDLE_CTRL_FAIL 1).wr Reg.BUNDLE_CTRL_BUSY 0).raise 4 6

/-- A bundle completed: its digest is expected, and MATCH reports (R527). -/
def Dev.bundleDone (d : List Byte) (s : Dev) : Dev :=
  let s := { s with vault := { s.vault with apply := none } }
  let s := ((s.wrWords Reg.EXPECT_D (digestWords d)).wr Reg.ALM_CTRL_EXPECT_EN 1).settleMatch
  ((s.wr Reg.BUNDLE_CTRL_DONE 1).wr Reg.BUNDLE_CTRL_BUSY 0).raise 4 6

/-- BUNDLE_COMPLETE: the last record has been applied. -/
def execBundleComplete (s : State) : Out :=
  s.run fun s =>
    match s.vault.apply with
    | some r => if s.hubOn ∧ r.records.length ≤ r.next then s.bundleDone r.digest else s
    | none => s

/-! ## Quotes (R528, R529) -/

/-- The bytes of registers, each least significant byte first. -/
def Dev.regBytes (s : Dev) (f : Nat → Field) (n : Nat) : List Byte :=
  (List.range n).flatMap fun k => bytesLE 4 (s.rd (f k))

/-- A 64-bit register pair as bytes. -/
def Dev.pairBytes (s : Dev) (lo : Field) : List Byte :=
  bytesLE 8 (s.rd64 lo)

/-- LINE_EN of the part (R2). -/
def Dev.lineEn (s : Dev) : Nat :=
  match s.variant with
  | .sq9812 => 0xFF
  | .sq9806 => 0x0F

/-- Bytes 0 to 383 of a quote (Table 19.4). -/
def Dev.quoteBytes (s : Dev) : List Byte :=
  let head := s.on Reg.STRAPS_CHAIN_HEAD
  let chain := head && s.on Reg.ALM_STAT_CHAIN_DONE
  let flags := ofBool (s.on Reg.ALM_STAT_DIGEST_VALID) + 2 * ofBool chain + 4 * ofBool (chain && s.on Reg.ALM_STAT_CHAIN_VALID) +
    8 * ofBool (chain && s.on Reg.ALM_STAT_CHAIN_MATCH) + 16 * ofBool head
  let chainTime := bytesLE 4 (s.rd Reg.CHAIN_TIME_SEC_LO_SEC) ++ bytesLE 2 (s.rd Reg.CHAIN_TIME_SEC_HI_SEC) ++ bytesLE 4 (s.rd Reg.CHAIN_TIME_NS_NS) ++
    bytesLE 2 (s.rd Reg.CHAIN_TIME_FRAC_FRAC)
  bytesLE 4 0x54515153 ++ bytesLE 1 1 ++ bytesLE 1 (s.rd Reg.LC_STAT_STATE) ++ bytesLE 1 (s.rd Reg.ARB_COUNT) ++ bytesLE 1 flags ++
    bytesLE 2 s.vault.epoch ++ bytesLE 1 (s.rd Reg.POS_POS) ++ bytesLE 1 s.lineEn ++ timeBytesLE s.time ++ s.pairBytes Reg.KEY_ID_LO ++
    sliceBytes identityKey 0 32 ++ s.regBytes Reg.ATT_NONCE_NONCE 8 ++ s.regBytes Reg.MEASURE 16 ++ s.regBytes Reg.DIGEST_D 16 ++
    s.pairBytes Reg.EPOCH_LO ++ s.pairBytes Reg.DIGEST_EPOCH_LO ++
    (if chain then s.regBytes Reg.CHAIN_DIGEST_D 16 ++ chainTime else List.replicate 76 0) ++ List.replicate 68 0

/-- A quote refused (R528). -/
def Dev.quoteRefused (s : Dev) : Dev :=
  ((s.wr Reg.ATT_CTRL_REFUSED 1).wr Reg.ATT_CTRL_BUSY 0).raise 4 5

/-- A write of ATT_CTRL: the quote's fields are captured here. -/
def Dev.attCtrl (v : Word) (s : Dev) : Dev :=
  s.hostWrite attPage 0x040 1 v fun s =>
    if !v.getLsbD 0 then s
    else if s.on Reg.ATT_CTRL_BUSY then s.secRefused attPage
    else
      let s := (s.wr Reg.ATT_CTRL_DONE 0).wr Reg.ATT_CTRL_REFUSED 0
      if s.identitySigns then
        { s with vault := { s.vault with quote := some (s.rd Reg.ATT_DST_OFFSET, s.quoteBytes) } }.wr Reg.ATT_CTRL_BUSY 1
      else s.quoteRefused

/-- ATT_QUOTE (R528). -/
def execAttQuote (v : Word) (s : State) : Out :=
  s.run (Dev.attCtrl (v ||| 1))

/-- The quote under way signed and written; refused where the identity key has stopped signing since (R515). -/
def Dev.quoteDone (dst : Nat) (b : List Byte) (s : Dev) : Dev :=
  let s := { s with vault := { s.vault with quote := none } }
  if s.identitySigns then
    let s := if inWindow dst 448 then s.store (winAddr dst) (b ++ edSign identitySeed b) else s
    ((s.wr Reg.ATT_CTRL_BUSY 0).wr Reg.ATT_CTRL_DONE 1).raise 4 4
  else s.quoteRefused

/-- ATT_QUOTE_COMPLETE (R528). -/
def execAttQuoteComplete (s : State) : Out :=
  s.run fun s =>
    match s.vault.quote with
    | some q => s.quoteDone q.1 q.2
    | none => s

/-! ## Front-end identity memories (R530 to R532) -/

/-- Front-end data is valid (R532). -/
def feDataValid (b : List Byte) : Bool :=
  decide (b.length = 768) && decide (fieldLE b 0 4 = 0x44494546) && (decide (fieldLE b 4 1 = 1) || decide (fieldLE b 4 1 = 2)) &&
  decide (crc32 (b.take 764) = fieldLE b 764 4)

/-- A write of FE_CTRL: READ is refused while the engine is not DARK or its receiver is enabled (R531). -/
def Dev.feCtrl (v : Word) (s : Dev) : Dev :=
  s.hostWrite fePage 0x040 8 v fun s =>
    if !v.getLsbD 3 then s
    else
      let n := s.rd Reg.FE_CTRL_ENGINE
      if s.lineOn n ∧ s.txs n = txDark ∧ ¬ s.on (Reg.RX_CTRL_ENABLE n) then s.feStart n false false true else s.secRefused fePage

/-- FE_READ (R531). -/
def execFeRead (v : Word) (s : State) : Out :=
  s.run (Dev.feCtrl (v ||| 8))

/-- The data of a completed read handed to PREP (R51, R52). -/
def Dev.feToPrep (n : Nat) (ok : Bool) (rev : Nat) (s : Dev) : Dev :=
  let s := ((s.wrB (Reg.TX_PD_STAT_FE_VALID n) ok).wr (Reg.TX_PD_STAT_FE_REV n) rev).settleTxSkew n
  if ok then s
  else
    let s := s.raiseLine n 2
    if s.on (Reg.TX_PD_CTRL_REQUIRE_FE n) ∧ s.txs n = txPrep then (s.prepFail n 1).partnerFault n else s

/-- The data of a completed read handed to the receiver (R78 to R80). -/
def Dev.feToRx (n : Nat) (ok : Bool) (rev : Nat) (s : Dev) : Dev :=
  let s := (s.wrB (Reg.RX_SKIQ_STAT_FE_VALID n) ok).wr (Reg.RX_SKIQ_STAT_FE_REV n) rev
  ((s.raiseIf (!ok) (10 + n) 12).settleRxSkew n).startIq n

/-- FE_READ_COMPLETE: the read of engine n ends with the memory's 768 bytes, or none where the bus has failed after recovery and retries (R530). -/
def execFeReadComplete (n : Fin 8) (data : Option (List Byte)) (s : State) : Out :=
  s.run fun s =>
    let f := s.fee n
    if f.busy then
      let b := data.getD []
      let ok := feDataValid b
      let s := s.setFee n ⟨b, ok, data.isNone, false, false, false, false⟩
      let s := s.raiseIf data.isNone 4 7
      let s := if f.forPrep then s.feToPrep n ok (fieldLE b 4 1) else s
      if f.forRx then s.feToRx n ok (fieldLE b 4 1) else s
    else s

/-- A read of FE_DATA: a word of the cache shown, and WORD advances. -/
def Dev.feDataRead (s : Dev) : Dev :=
  let w := s.rd Reg.FE_INDEX_WORD
  (s.returns (if w < 192 then fieldLE (s.fee (s.rd Reg.FE_CTRL_ENGINE)).cache (4 * w) 4 else 0)).wr Reg.FE_INDEX_WORD (w + 1)

/-- FE_DATA_READ (R531). -/
def execFeDataRead (s : State) : Out :=
  s.run fun s => s.onRead fePage 0x04C Dev.feDataRead

/-! ## JTAG (R533) -/

/-- JTAG_INSTRUCTION: IDCODE returns DEV.IDCODE; the instructions that reach the scan chains and the test engine act as BYPASS where direct access is
closed, with E-06.05. What is shifted through the chains is not described (log 46). -/
def execJtagInstruction (i : JtagInstr) (s : State) : Out :=
  s.run fun s =>
    match i with
    | .idcode => s.returns (s.rd Reg.IDCODE_ID)
    | .scan => if s.directOpen then s else s.raise 6 5
    | .testEngine => if s.directOpen then s else s.raise 6 5
    | .bypass => s
    | .samplePreload => s
    | .extest => s

end Sys2Proof.Machine
end

