-- ==== Sys2Proof/Machine/Startup.lean ====
section
/-!
DEFINITION. Power states and start-up (R473 to R480, R490, R491, R502, R521 to R523, R377): the Finder, PERST_N, the steps of a start, SLEEP and waking.
-/
namespace Sys2Proof.Machine

/-! ## Images loaded (R520 to R522) -/

/-- MEASURE as bytes. -/
def Dev.measureBytes (s : Dev) : List Byte :=
  s.regBytes Reg.MEASURE 16

/-- MEASURE as words. -/
def Dev.measureWords (s : Dev) : List Word :=
  (List.range 16).map fun k => BitVec.ofNat 32 (s.rd (Reg.MEASURE k))

/-- MEASURE extended by an accepted image. -/
def Dev.measureImage (img : List Byte) (s : Dev) : Dev :=
  s.wrWords Reg.MEASURE (digestWords (sha512 (s.measureBytes ++ bytesLE 1 (imageType img) ++ sha512 img)))

/-- The first extension, from 64 zero bytes: 0xFF, the state code and ARB.COUNT. -/
def Dev.measureFirst (s : Dev) : Dev :=
  s.wrWords Reg.MEASURE (digestWords (sha512
    (List.replicate 64 0 ++ bytesLE 1 0xFF ++ bytesLE 1 (s.rd Reg.LC_STAT_STATE) ++ bytesLE 1 (s.rd Reg.ARB_COUNT))))

/-- The image of a type in a set. -/
def imageOf (imgs : List (List Byte)) (type : Nat) : Option (List Byte) :=
  imgs.find? fun i => imageType i = type

/-- The images of some types loaded from a set, in order, until one fails; a type that is missing fails check 1. -/
def Dev.loadImages (imgs : List (List Byte)) : List Nat → Dev → Dev × Bool
  | [], s => (s, true)
  | t :: ts, s =>
    match imageOf imgs t with
    | none => ((s.wr Reg.BOOT_STAT_FAIL_TYPE t).wr Reg.BOOT_STAT_FAIL_CAUSE 1, false)
    | some i =>
      let c := s.imageCause i
      if c = 0 then (s.measureImage i).loadImages imgs ts else (s.showBad (i, c), false)

/-- The images of a slot. -/
def Dev.slotImages (s : Dev) (k : Nat) : List (List Byte) :=
  sget (dflt []) s.vault.slots k

/-- The images of `types` loaded from the slot in use; where one fails, the whole slot is discarded and the images `all` come from the other slot, with FALLBACK and
E-04.01 (R521). Answers whether a slot was accepted. -/
def Dev.loadSlot (types all : List Nat) (s : Dev) : Dev × Bool :=
  let k := s.rd Reg.BOOT_STAT_SLOT
  let p := s.loadImages (s.slotImages k) types
  if p.2 then p
  else
    let s := p.1.raise 4 1
    if s.on Reg.BOOT_STAT_FALLBACK then (s, false)
    else
      let s := (s.wr Reg.BOOT_STAT_SLOT (1 - k)).wr Reg.BOOT_STAT_FALLBACK 1
      let q := s.loadImages (s.slotImages (1 - k)) all
      if q.2 then q else (q.1.raise 4 1, false)

/-! ## The Finder (R473, R475, R490) -/

/-- What the Finder store and the fuses show in registers. -/
def Dev.showVault (s : Dev) : Dev :=
  let s := (s.lcShow.wr Reg.ARB_COUNT s.vault.arb).wrWords Reg.OWNER_HASH (if lcOwned ≤ s.vault.burned then s.vault.owner else [])
  let s := (s.wr Reg.PPR_STAT_CANDIDATES s.integ.candidates.length).wr Reg.PPR_STAT_HARD (min s.integ.hard 255)
  s.wrB Reg.FINDER_STAT_BIST_REC s.power.record.isSome

/-- The Finder boots: a slot that nothing has been stored in takes the images that the store holds (log 47), and the boot ROM verifies images 0 and 1 (R521). -/
def Dev.finderBoot (slotA slotB : List (List Byte)) (s : Dev) : Dev :=
  let fill (k : Nat) (l : List (List Byte)) (m : List (Nat × List (List Byte))) := if sget (dflt []) m k = [] then sset (dflt []) m k l else m
  let s := { s with vault := { s.vault with slots := fill 1 slotB (fill 0 slotA s.vault.slots) } }
  let s := (s.showVault.wr Reg.BOOT_STAT_SLOT s.vault.active).measureFirst
  let p := s.loadSlot [0, 1] [0, 1]
  let s := p.1
  let s := { s with power := { s.power with bootMeasure := s.measureWords, bootFailed := !p.2 } }
  ((s.wrB Reg.FINDER_STAT_BOOTED p.2).wr Reg.PLL_STAT_FINDER 1).tryStart

/-- FINDER_BOOT (R473): the Finder leaves reset and boots. -/
def execFinderBoot (slotA slotB : List (List Byte)) (s : State) : Out :=
  s.run fun s =>
    if s.on Reg.FINDER_STAT_BOOTED ∨ s.power.bootFailed then s else (s.finderBoot slotA slotB).settleWake

/-- FINDER_POWER_LOSS (R475): everything starts from reset but the fuses, the Finder store and the level of PERST_N; the device stays in
FINDER_ONLY until the next release. HBM: log 33. -/
def execFinderPowerLoss (s : State) : Out :=
  s.run fun s =>
    { Dev.reset with
      variant := s.variant
      clock := s.clock
      vault := { s.vault with install := none, quote := none, apply := none }
      col := { Collim.reset with copies := s.col.copies }
      integ := { Integrity.reset with candidates := s.integ.candidates, hard := s.integ.hard }
      power := { Power.reset with perst := s.power.perst, record := s.power.record, failing := s.power.failing }
      regs := Dev.reset.regs
      fresh := s.fresh }

/-- FINDER_WATCHDOG (R490). -/
def execFinderWatchdog (s : State) : Out :=
  s.run fun s => if s.on Reg.FINDER_STAT_BOOTED then ((s.bump Reg.FINDER_STAT_RESTARTS).raise 2 1).settleWake else s

/-- Every enabled engine declared failed, as by an internal fault. -/
def Dev.enginesFail (s : Dev) : Dev :=
  ((List.range 8).filter s.lineOn).foldl (fun s n => s.engineFault n) s

/-- CLK_PLL_UNLOCK: PLL `b` of PLL_STAT loses lock (R491): an internal fault of the domains it clocks, which ends their self-test (R505). The loss of the hub's PLL
is one of every engine, whose frames the hub carries (DEDUCED, log 140). -/
def execClkPllUnlock (b : Fin 9) (s : State) : Out :=
  s.run fun s =>
    let f : Field := ⟨Reg.PLL_STAT_HUB.cell, b, 1⟩
    if s.on f then
      let s := (((if b = 6 ∨ b = 8 then s else s.bistKilled).wr f 0).bump Reg.PLL_LOL_CNT).raise 1 6
      (if b = 0 then s.enginesFail else s).settleWake
    else s

/-! ## PERST_N (R6, R63, R476) -/

/-- The straps sampled (R6): the mode in force is the sampled one until it settles. -/
def Dev.sampleStraps (large head : Bool) (s : Dev) : Dev :=
  ((((s.wrB Reg.STRAPS_FLEET_MODE large).wrB Reg.STRAPS_CHAIN_HEAD head).unsettle).wrB Reg.CHAIN_STAT_HEAD head)

/-- PERST_N_RELEASE: the rising edge, with FLEET_MODE (high: LARGE) and CHAIN_HEAD as they stand (R6, R476). -/
def execPerstNRelease (large head : Bool) (s : State) : Out :=
  s.run fun s =>
    if s.power.perst then s
    else
      let s := s.sampleStraps large head
      { s with power := { s.power with perst := true, released := true, xoLost := false } }.tryStart

/-- PERST_N_ASSERT (R63, Table 17.3): engines in light take a fast ramp-down with RESET_RAMP, and the reset follows once none is left. -/
def execPerstNAssert (s : State) : Out :=
  s.run fun s =>
    if s.power.perst then
      let s := { s with power := { s.power with perst := false, released := false } }
      if s.pwr = pwrFinderOnly ∨ s.pwr = pwrThermOff then s
      else
        let s := { s.bistKilled with power := { s.power with resetDue := true, rampers := (List.range 8).filter s.txRamping, sleepDue := false } }
        ((List.range 8).foldl (fun (s : Dev) n => if s.txRamping n then s.fastDown n 4 else s) s).tryReset
    else s

/-! ## Start-up steps (R479, R480) -/

/-- The next step begins; the one before raises E-00.01. -/
def Dev.stepGo (k : Nat) (s : Dev) : Dev :=
  (s.wr Reg.PWR_STAT_STEP k).raise 0 1

/-- A run of every block that the fuses enable begins: 1 at a cold start, 2 at shutdown (R508). -/
def Dev.bistAll (kind : Nat) (s : Dev) : Dev :=
  let s := ((List.range 76).filter s.blockFused).foldl (fun s b =>
    s.setBlock b { s.block b with result := resRunning, patterns := 0, addr := 0, bit := 0 }) s
  (s.wr Reg.BIST_STAT_BUSY 1).wr Reg.BIST_STAT_KIND kind

/-- Such a run ends with the blocks' outcomes; a block without one is NOT_TESTED. -/
def Dev.bistAllEnd (os : List BlockOutcome) (s : Dev) : Dev :=
  (os.foldl (fun s o => s.blockOutcome o) s).bistCut.wr Reg.BIST_STAT_BUSY 0

/-- The start is quick (R479). -/
def Dev.quickStart (s : Dev) : Bool :=
  match s.power.consumed with
  | some r => decide (r.measure = s.measureWords) && decide (r.arb = s.rd Reg.ARB_COUNT) && !s.on Reg.PWR_CTRL_FORCE_COLD
  | none => false

/-- The lowest SVN of the running images (R525). -/
def Dev.runMinSvn (s : Dev) : Nat :=
  ((s.slotImages (s.rd Reg.BOOT_STAT_SLOT)).map imageSvn).foldl min 64

/-- Step 2 ends (R521 to R523, R525): images 2 to 7, BOOT_EPOCH and the identity, and whether the start is quick. An exhausted BOOT_EPOCH stays 0xFFFF, with E-21.12 at each
start-up (R281; DEDUCED, log 222). -/
def Dev.stepSecurity (r : StepResult) (s : Dev) : Dev :=
  let s := s.wrWords Reg.MEASURE s.power.bootMeasure
  let p := s.loadSlot [2, 3, 4, 5, 6, 7] [0, 1, 2, 3, 4, 5, 6, 7]
  let s := p.1
  if !p.2 || !r.stored then s.halt 1
  else
    let s := { s with vault := { s.vault with epoch := min 0xFFFF (s.vault.epoch + 1) } }
    let s := s.raiseIf (decide (s.vault.epoch = 0xFFFF)) 21 12
    let s := (s.wr Reg.BOOT_EPOCH_EPOCH s.vault.epoch).wr Reg.ARB_RUN_MIN_SVN s.runMinSvn
    let s := if lcProvisioned ≤ s.vault.state then s.wr64 Reg.KEY_ID_LO (keyIdOf identityKey) else s
    let quick := s.quickStart
    let s := (s.wrB Reg.PWR_STAT_QUICK quick).stepGo (if quick then 4 else 3)
    if quick then s else s.bistAll 1

/-- The channels of the HBM controllers that have been lost, and of the candidates without a spare row (R502). -/
def Dev.channelsLost (s : Dev) (noSpare : List Nat) : Nat :=
  let lost := (List.range 4).foldl (fun m k => if s.power.hbmOff.getLsbD k then m ||| (0xFFFF <<< (16 * k)) else m) 0
  (s.integ.candidates.filter noSpare.contains).foldl (fun m row => m ||| (1 <<< (row / 2 ^ 23 % 64))) lost

/-- HBM training (R502): post-package repair, hard where HARD_NEXT asks for it, and the retired channels. -/
def Dev.trainHbm (r : StepResult) (s : Dev) : Dev :=
  let ch := r.failed.toNat ||| s.channelsLost r.noSpare
  let done := s.integ.candidates.filter fun c => !r.noSpare.contains c
  let left := s.integ.candidates.filter r.noSpare.contains
  let s := if s.on Reg.PPR_CTRL_HARD_NEXT then
      let s := { s with integ := { s.integ with candidates := left, hard := s.integ.hard + done.length } }
      (((s.wr Reg.PPR_CTRL_HARD_NEXT 0).wr Reg.PPR_STAT_CANDIDATES left.length).wr Reg.PPR_STAT_HARD (min s.integ.hard 255)).wr Reg.PPR_STAT_SOFT 0
    else s.wr Reg.PPR_STAT_SOFT (min done.length 255)
  let s := (s.wr Reg.RETIRED_LO (ch % 2 ^ 32)).wr Reg.RETIRED_HI (ch / 2 ^ 32)
  { s with power := { s.power with hbmOff := 0 } }

/-- The retired channels. -/
def Dev.retired (s : Dev) : Nat :=
  popCount 32 (s.rd Reg.RETIRED_LO) + popCount 32 (s.rd Reg.RETIRED_HI)

/-- Step 4 ends: training, or after SLEEP a self-refresh exit; more than 16 retired channels halt with CAUSE 2; the usable HBM bandwidth (R24), and the
bases of the capture and mirror regions (R91, R373). -/
def Dev.stepHbm (r : StepResult) (s : Dev) : Dev :=
  let s := if s.power.afterSleep then s else s.trainHbm r
  if 16 < s.retired then s.halt 2
  else (((s.wr Reg.CAP_BASE_BASE (Config.captureBase / 64)).wr Reg.HK_MIRROR_BASE (Config.hkMirrorBase / 64)).wr Reg.HBM_BUDGET_USABLE (3600 * (64 - s.retired) / 64)).stepGo 5

/-- A stored copy of record `r` whose check word is right (R376). -/
def Dev.goodCopy (s : Dev) (bad : List Nat) (r k : Nat) : Option ColCopy :=
  match s.copyAt r k with
  | some c => if bad.contains (2 * r + k) ∨ c.check ≠ colCheck r c.gen c.words c.vals then none else some c
  | none => none

/-- A record restored from its newest right copy, or invalid (R377). Its set takes effect at its instant (R379); a copy whose check is wrong holds nothing from then on, so that the next
store writes it (R376; log 232). -/
def Dev.restoreRecord (bad : List Nat) (r : Nat) (s : Dev) : Dev :=
  let best := match s.goodCopy bad r 0, s.goodCopy bad r 1 with
    | some a, some b => if a.gen < b.gen then some b else some a
    | some a, none => some a
    | none, x => x
  let wrong := [0, 1].filter fun k => (s.goodCopy bad r k).isNone
  let s := { s with col := { s.col with copies := s.col.copies.filter fun e => !wrong.any fun k => decide (e.1 = 2 * r + k) } }
  match best with
  | none => (s.bump Reg.COL_STAT_BAD_RECORDS).raise 9 2
  | some c =>
    let s := s.setWords (tableCell tableCOLREC.id r 0) c.words
    let s := ((s.wr (Reg.COLREC_VALID r) 1).wr ⟨Reg.COL_VALID_VALID.cell, r, 1⟩ 1).wr (Reg.COLREC_GEN r) c.gen
    let s := (s.wr (Reg.COLREC_CHECK_LO r) (fieldLE c.check 0 4)).wr (Reg.COLREC_CHECK_HI r) (fieldLE c.check 4 4)
    (s.setRecord r { s.record r with vals := c.vals, stored := false, changed := false }).colTake r

/-- Step 5 ends: Collimation is restored, and step 6 starts a foreground pass of each class of every enabled engine (R363, R377). -/
def Dev.stepCollim (r : StepResult) (s : Dev) : Dev :=
  let s := ((List.range 27).foldl (fun s k => s.restoreRecord r.badCopies k) s).wr Reg.COL_STAT_RESTORED 1
  ((List.range 8).filter s.lineOn).foldl (fun s n => ((s.showMissing n).fgStart n).fgStart (8 + n)) (s.stepGo 6)

/-- A foreground pass runs. -/
def Dev.passRuns (s : Dev) : Bool :=
  (List.range 16).any fun r => decide ((s.record r).kind = 1)

/-- The time from the release of PERST_N, as STARTUP_MS shows it. -/
def Dev.startupMs (s : Dev) : Nat :=
  min 65535 ((s.clock - s.power.startAt) / 1000000)

/-- Step 7 begins where BUNDLE_EN asks for it: the stored bundle is applied (R527). -/
def Dev.stepBundle (s : Dev) : Dev :=
  if s.on Reg.FINDER_CTRL_BUNDLE_EN && !s.vault.bundle.isEmpty then (s.wr Reg.PWR_STAT_STEP 7).bundleStart s.vault.bundle else s

/-- The start has ended. -/
def Dev.startEnded (s : Dev) : Dev :=
  { s with power := { s.power with afterSleep := false, consumed := none } }

/-- Step 6 ends: RUN, with STARTUP_MS; Parallax modes and HBM shares are evaluated, and the DPLL leaves its start-up state (R26, R212, R479). -/
def Dev.stepRun (s : Dev) : Dev :=
  let s := ((s.wr Reg.STARTUP_MS_MS s.startupMs).stepGo 0).startEnded
  (((s.powerGo pwrRun).settleModes true).hbmEval.dpllGo dpllFreerun).settleDpll.stepBundle

/-- The step in progress completes. -/
def Dev.stepDone (r : StepResult) (s : Dev) : Dev :=
  match s.rd Reg.PWR_STAT_STEP with
  | 2 => s.stepSecurity r
  | 3 => ((s.bistAllEnd r.blocks).wr Reg.SRAM_SPARES_USED r.spares).stepGo 4
  | 4 => s.stepHbm r
  | 5 => s.stepCollim r
  | 6 => if s.passRuns then s else s.stepRun
  | _ => s

/-- STARTUP_STEP_COMPLETE (R479). Step 6 cannot complete while a foreground pass runs. Step 7 runs in RUN, and completes with its bundle. -/
def execStartupStepComplete (r : StepResult) (s : State) : Out :=
  s.run fun s =>
    if s.power.xoLost then s
    else if s.pwr = pwrStarting then s.stepDone r
    else if s.pwr = pwrRun ∧ s.rd Reg.PWR_STAT_STEP = 7 ∧ s.vault.apply.isNone then s.stepGo 0
    else s

/-- STARTUP_STEP_TIMEOUT: a step has run beyond twice its max (R480). -/
def execStartupStepTimeout (s : State) : Out :=
  s.run fun s => if s.pwr = pwrStarting then s.bistKilled.halt 3 else s

/-! ## SLEEP (R477, R478) -/

/-- The PWR page. -/
abbrev pwrPage : Nat := 0x002

/-- An entry to SLEEP asked for: in RUN with every engine dark, the shutdown BIST begins and the DIRTY records are stored; refused otherwise. -/
def Dev.sleepAsk (s : Dev) : Dev :=
  if s.power.sleepDue then s
  else if s.pwr = pwrRun ∧ (List.range 8).all fun n => s.txs n = txDark then
    let s := (s.bistKilled.wr Reg.PWR_CTRL_SLEEP 1).bistAll 2
    { s with power := { s.power with sleepDue := true } }.storeDirty
  else (s.viol pwrPage).raise 0 6

/-- A write of PWR_CTRL. -/
def Dev.pwrCtrl (v : Word) (s : Dev) : Dev :=
  (s.hostWrite pwrPage 0x040 1 v fun s =>
    if v.getLsbD 0 then s.sleepAsk else (s.wr Reg.PWR_CTRL_SLEEP 0).wake 2 0 0).settleWake

/-- PWR_SLEEP_REQUEST: a write of PWR_CTRL with SLEEP = 1 (R477). -/
def execPwrSleepRequest (v : Word) (s : State) : Out :=
  s.run (Dev.pwrCtrl (v ||| 1))

/-- WAKE_HOST: a write of PWR_CTRL with SLEEP = 0 (R478). -/
def execWakeHost (v : Word) (s : State) : Out :=
  s.run (Dev.pwrCtrl (v &&& 0xFFFFFFFE))

/-- The shutdown BIST passed: every block that the fuses enable is PASS (R508). -/
def Dev.allPass (s : Dev) : Bool :=
  ((List.range 76).filter s.blockFused).all fun b => decide ((s.block b).result = resPass)

/-- The blocks that have failed with their failing address and bit. -/
def Dev.failingBlocks (s : Dev) : List (Nat × Nat × Nat) :=
  ((List.range 76).filter fun b => decide ((s.block b).result = resFail)).map fun b => (b, (s.block b).addr, (s.block b).bit)

/-- SLEEP entered: the shutdown record, where the BIST passed, and E-00.05 (R477, R508). -/
def Dev.sleepEnter (os : List BlockOutcome) (s : Dev) : Dev :=
  let s := s.bistAllEnd os
  let s := if s.allPass then
      { s with power := { s.power with record := some ⟨s.measureWords, s.rd Reg.ARB_COUNT⟩ } }.wr Reg.FINDER_STAT_BIST_REC 1
    else s
  let s := { s with power := { s.power with sleepDue := false, failing := s.failingBlocks }, ev := { s.ev with wakeReq := none } }
  (s.powerGo pwrSleep).raise 0 5

/-- SLEEP_ENTRY_COMPLETE: the shutdown BIST has ended, and the HBM is in self-refresh (R477). -/
def execSleepEntryComplete (outcomes : List BlockOutcome) (s : State) : Out :=
  s.run fun s => if s.power.sleepDue ∧ s.pwr = pwrRun then (s.sleepEnter outcomes).settleWake else s

/-- WAKE_PIN: WAKE_N has been low for 10 µs (Table 17.5). -/
def execWakePin (s : State) : Out :=
  s.run fun s => if s.on Reg.FINDER_CTRL_WAKE_PIN then s.wake 1 0 0 else s

/-- WAKE_TIMER_EXPIRE: WAKE_TIMER seconds after SLEEP was entered (Table 17.5). -/
def execWakeTimerExpire (s : State) : Out :=
  s.run fun s => if s.on Reg.FINDER_CTRL_WAKE_TMR ∧ s.rd Reg.WAKE_TIMER_S ≠ 0 then s.wake 3 0 0 else s

end Sys2Proof.Machine
end

