-- ==== Sys2Proof/Machine/Checks.lean ====
section
/-!
DEFINITION. The rules that a commit of each page is checked against (R426), and the fields that a commit would change.
-/
namespace Sys2Proof.Machine

/-! ## Shadow fields -/

/-- The table that a cell of the cell space belongs to. -/
def cellTable (c : Nat) : Option TableSpec :=
  if c < 0x1000000 then none else tableById ((c - 0x1000000) / 64 / 1048576)

/-- The page that a cell belongs to: its own, or that of its table's window. -/
def cellPage (c : Nat) : Nat :=
  if c < 0x400000 then c / 1024
  else match cellTable c with
    | some t => t.page
    | none => 0x1000

/-- The fields of a cell; a cell beyond its table's entries (a receive copy of R167) has none. -/
def cellFields (c : Nat) : List FieldSpec :=
  if c < 0x400000 then
    match regAt (c / 1024) (c % 1024 * 4) with
    | some r => r.2.2.fields
    | none => []
  else match cellTable c with
    | some t => if t.banked ∨ (c - 0x1000000) / 64 % 1048576 < t.count then (t.words[(c - 0x1000000) % 64]?).getD [] else []
    | none => []

/-- A field description at a cell. -/
abbrev FieldSpec.at (f : FieldSpec) (c : Nat) : Field := ⟨c, f.lsb, f.width⟩

/-- A register of the odd engine of a twin pair that follows the even engine's (R65, R118): its own copies stand still until twin mode ends. -/
def Dev.followsCell (s : Dev) (c : Nat) : Bool :=
  let n := (c / 1024 - 0x100) / 32
  decide (0x100 ≤ c / 1024 ∧ c / 1024 < 0x200) && decide (n % 2 = 1) &&
  ((s.txTwin n && [(Reg.TX_MODE_CONST n).cell, (Reg.TX_CLK_FS n).cell, (Reg.TX_SHAPE_ROLLOFF n).cell].contains c) ||
    (s.rxTwin n && [(Reg.RX_MODE_CONST n).cell, (Reg.RX_CLK_FS n).cell, (Reg.RX_RESAMP_MODE n).cell].contains c))

/-- The RWA fields of a page whose shadow copy differs from the effective value; those that follow a twin partner never do (R65, R118), nor do cells
that are no register's (the receive copies of R167). -/
def Dev.diff (s : Dev) (page : Nat) : List (Nat × FieldSpec) :=
  let cells := ((s.shadow.map (·.1) ++ s.regs.map (·.1)).filter fun c => decide (cellPage c = page) && !s.followsCell c).dedup
  cells.flatMap fun c => ((cellFields c).filter fun f => decide (f.acc = .rwa) && decide (s.sh (f.at c) ≠ s.rd (f.at c))).map fun f => (c, f)

/-- The device with the shadow copies of a page in force. -/
def Dev.adopt (page : Nat) (s : Dev) : Dev :=
  (s.diff page).foldl (fun d x => d.wr (x.2.at x.1) (s.sh (x.2.at x.1))) s

/-! ## Line pages (R41, R47, R69, R72, R91, R131, R146, R156) -/

/-- A value lies in a range. -/
abbrev within (lo hi v : Nat) : Bool := decide (lo ≤ v) && decide (v ≤ hi)

/-- Every skew trim lies within ±1,000. -/
def Dev.trimsOk (s : Dev) (f : Nat → Field) : Bool :=
  (List.range 4).all fun k => decide ((s.rdS (f k)).natAbs ≤ 1000)

/-- Pages +0x00 to +0x05 of engine n: `p` has the committed values (R41, R47, R69). A commit of page +0x00 that sets TWIN is not held against the seeds
(DEDUCED, log 159). ENTROPY keeps its range with every constellation (R69). In twin mode the odd engine's mode and roll-off are the even
engine's. -/
def Dev.txPageOk (p : Dev) (n k : Nat) : Bool :=
  let odd := decide (n % 2 = 1) && p.txTwin n
  let mode := odd || modeCheck (p.rd (Reg.TX_MODE_CONST n)) (p.rd (Reg.TX_MODE_SLOTS_M1 n)) (p.rd (Reg.TX_MODE_ENTROPY n)) (p.rd (Reg.TX_CLK_FS n))
    (p.rd (Reg.TX_SHAPE_ROLLOFF n))
  match k with
  | 1 => mode && (odd || within 320 704 (p.rd (Reg.TX_MODE_ENTROPY n)))
  | 3 =>
    let e := 2 * (n / 2)
    mode && (odd || within 2 20 (p.rd (Reg.TX_SHAPE_ROLLOFF n))) && within 32 128 (p.rd (Reg.TX_PILOT_GAIN n)) &&
      decide (p.rd (Reg.TX_PILOT_SEED_SEED_X n) ≠ 0) && decide (p.rd (Reg.TX_PILOT_SEED_SEED_Y n) ≠ 0) &&
      (!p.txTwin n || (decide (p.rd (Reg.TX_PILOT_SEED_SEED_X e) ≠ p.rd (Reg.TX_PILOT_SEED_SEED_X (e + 1))) &&
        decide (p.rd (Reg.TX_PILOT_SEED_SEED_Y e) ≠ p.rd (Reg.TX_PILOT_SEED_SEED_Y (e + 1)))))
  | 4 => p.trimsOk (Reg.TX_SKEW_TRIM n)
  | _ => true

/-- Pages +0x08 to +0x0E of engine n (R72). -/
def Dev.rxPageOk (p : Dev) (n : Nat) : Bool :=
  let odd := decide (n % 2 = 1) && p.rxTwin n
  (odd || rxModeOk (p.rd (Reg.RX_MODE_CONST n)) (p.rd (Reg.RX_MODE_SLOTS_M1 n)) (p.rd (Reg.RX_MODE_ENTROPY n)) (p.rd (Reg.RX_CLK_FS n))
    (p.rd (Reg.RX_RESAMP_MODE n)) (p.rd (Reg.RX_RESAMP_PRESET n)) (!p.on (Reg.RX_RESAMP_STAT_UNUSABLE n))) &&
  p.trimsOk (Reg.RX_SKEW_TRIM n) && decide (p.rd (Reg.RX_RESAMP_TR_BW n) ≤ 4) && decide ((p.rdS (Reg.RX_CD_VALUE n)).natAbs ≤ 320000) &&
  within 184000 200000 (p.rd (Reg.RX_CD_FREQ_CARRIER n))

/-- Pages +0x10 to +0x15 of engine n: the fields of the page (R131). -/
def Dev.eqPageOk (p : Dev) (n k : Nat) : Bool :=
  match k with
  | 0x10 => within 6 15 (p.rd (Reg.EQ_ADAPT_MU_ACQ n)) && within 8 15 (p.rd (Reg.EQ_ADAPT_MU_TRACK n)) && within 3 12 (p.rd (Reg.EQ_ADAPT_MU_ROT n)) &&
      within 8 15 (p.rd (Reg.EQ_ADAPT_MU_DFE n))
  | 0x12 => within 8 128 (p.rd (Reg.CR_CTRL_WINDOW n)) && decide (p.rd (Reg.CR_CTRL_BPS n) ≤ 2) && decide (p.rd (Reg.CR_CTRL_FREQ_BW n) ≤ 4)
  | 0x13 => decide (p.rd (Reg.RX_PILOT_EXP_SEED_X n) ≠ 0) && decide (p.rd (Reg.RX_PILOT_EXP_SEED_Y n) ≠ 0) &&
      within 8 192 (p.rd (Reg.PILOT_LOSS_THRESHOLD n))
  | 0x14 => decide (p.rdS (Reg.ACQ_CD_RANGE_MIN n) ≤ p.rdS (Reg.ACQ_CD_RANGE_MAX n))
  | _ => true

/-- Pages +0x18 to +0x1D of engine n: the fields of the page (R146, R156, R158). -/
def Dev.fecPageOk (p : Dev) (n k : Nat) : Bool :=
  match k with
  | 0x18 =>
    let mx := p.rd (Reg.FEC_CTRL_ITER_MAX n)
    let fl := p.rd (Reg.FEC_CTRL_ITER_FLOOR n)
    within 4 24 mx && within 4 mx fl && decide (mx % 2 = 0) && decide (fl % 2 = 0)
  | 0x1C => within 4 255 (p.rd (Reg.DEMAP_CTRL_SCALE n))
  | 0x1D => decide (p.rd (Reg.SD_CLR_BER n) ≤ p.rd (Reg.SD_SET_BER n))
  | _ => true

/-- No engine is armed, or captures (R91). -/
def Dev.captureIdle (s : Dev) : Bool :=
  (List.range 8).all fun n => !s.on (Reg.RX_CAP_STAT_ARMED n) && !s.on (Reg.RX_CAP_STAT_BUSY n)

/-! ## Regions (R22, R23) -/

/-- The bytes of the Parallax reservation of R210 that the PAIR table of `p` asks for, with the courses of `s`. -/
def Dev.parReserved (s p : Dev) : Nat :=
  (p.mergePairs.map fun q => parBytes (s.members (p.rd (Reg.PAIR_COURSE_A q))) (p.rd (Reg.PAIR_BUDGET_FR q))).sum

/-- The bytes that the regions leave for the best-effort buffer (Table 1.9). -/
def Dev.beBuffer (s p : Dev) : Int :=
  (s.hbmUsable : Int) - (s.parReserved p + p.rd Reg.CAP_BUF_SIZE_GB * 1000000000 + 2000000000 + 0x40000000 + 2 * 0x10000000 + 0x400000 + 0x10000 : Nat)

/-- The best-effort buffer keeps 48 GB (R23). -/
def Dev.bufferOk (s p : Dev) : Bool :=
  decide (48000000000 ≤ s.beBuffer p)

/-! ## The COURSE map (R166) -/

/-- The slots of course c hold its members, each once, on columns that exist (R166). -/
def Dev.mapEntryOk (p : Dev) (c : Nat) : Bool :=
  let ks := p.slotsOf c
  let m := p.rd (Reg.MAP_MEMBERS_M1 c) + 1
  decide (ks.length = m) && ((List.range m).all fun j => (ks.filter fun k => decide (p.rd (Reg.SLOT_MEMBER k) = j)).length = 1) &&
  ks.all p.slotActive

/-- Every entry of the MAP, of a disabled course too, has its SKEW_MAX_US in 1 to 250 (Table 6.10). -/
def Dev.skewsOk (p : Dev) : Bool :=
  p.regs.all fun e => !(decide (tableCell tableMAP.id 0 0 ≤ e.1) && decide (e.1 < tableCell tableMAP.id 512 0) && decide (e.1 % 64 = 1)) ||
    within 1 250 (getBits e.2 0 8)

/-- The bytes of the skew store that the enabled courses reserve (R171). -/
def Dev.skewReserved (p : Dev) : Nat :=
  (p.courses.map fun c =>
    if 1 < (p.enginesOf c).length then skewBytes (p.rd (Reg.MAP_MEMBERS_M1 c) + 1) (p.rd (Reg.MAP_SKEW_MAX_US c)) else 0).sum

/-- The COURSE map of `p` meets R166. -/
def Dev.mapOk (p : Dev) : Bool :=
  p.courses.all p.mapEntryOk && p.skewsOk && decide (p.skewReserved ≤ 64 * 1048576) &&
  (p.listed tableSLOT).all fun k => !p.on (Reg.SLOT_USED k) || p.on (Reg.MAP_EN (p.rd (Reg.SLOT_COURSE k)))

/-! ## The PAIR table (R195, R210, R211) -/

/-- Pair q of `p` meets R195 with the COURSE map of `s`; HOLDOFF and WTR_S keep the ranges of Table 7.8 (DESIGN CHOICE, log 183). -/
def Dev.pairOk (s p : Dev) (q : Nat) : Bool :=
  let a := p.rd (Reg.PAIR_COURSE_A q)
  let b := p.rd (Reg.PAIR_COURSE_B q)
  let dies (c : Nat) := (s.enginesOf c).map (· / 2)
  decide (a ≠ b) && s.on (Reg.MAP_EN a) && s.on (Reg.MAP_EN b) && decide (s.rd (Reg.MAP_MEMBERS_M1 a) = s.rd (Reg.MAP_MEMBERS_M1 b)) &&
  within 1 2 (p.rd (Reg.PAIR_MODE q)) && within 1 31250 (p.rd (Reg.PAIR_BUDGET_FR q)) &&
  decide (p.rd (Reg.PAIR_HOLDOFF q) ≤ 100) && within 10 720 (p.rd (Reg.PAIR_WTR_S q)) && (dies a).all (fun k => !(dies b).contains k) &&
  p.enabledPairs.all fun r => decide (r = q) ||
    ([a, b].all fun c => decide (c ≠ p.rd (Reg.PAIR_COURSE_A r)) && decide (c ≠ p.rd (Reg.PAIR_COURSE_B r)))

/-- The sum of M over the pairs of `p` in MODE 2. -/
def Dev.mergeSlots (s p : Dev) : Nat :=
  (p.mergePairs.map fun q => s.members (p.rd (Reg.PAIR_COURSE_A q))).sum

/-- The pairs of `p` in MODE 2 stay within 8 GB and 125 slots (R210). -/
def Dev.parFits (s p : Dev) : Bool :=
  decide (s.parReserved p ≤ 8000000000) && decide (s.mergeSlots p ≤ 125)

/-- The PAIR table of `p` meets R195 and R210. -/
def Dev.pairsOk (s p : Dev) : Bool :=
  p.enabledPairs.all (s.pairOk p) && s.parFits p

/-- The events of an admission refused (R211): while step 2 is active, and where the term of a number of merged slots does not fit, which is a fault of the budget
too (R27). None where it is admitted. -/
def Dev.parAdmission (s : Dev) (slots : Nat) : Option (List (Nat × Nat)) :=
  if s.parLimit < parTerm slots then some [(20, 9), (0, 18)] else if s.shedActive 2 then some [(20, 9)] else none

/-- The PAIR table of `p` admits a pair: one newly in MODE 2, of more members, or of a larger budget (R211). -/
def Dev.admitsPair (s p : Dev) : Bool :=
  p.mergePairs.any fun q =>
    !s.mergePairs.contains q || decide (s.pairSlots q < s.members (p.rd (Reg.PAIR_COURSE_A q))) ||
      decide (s.rd (Reg.PAIR_BUDGET_FR q) < p.rd (Reg.PAIR_BUDGET_FR q))

/-! ## CKEY (R288) -/

/-- The transmit key slots of course c's entry. -/
def Dev.ckeyTx (p : Dev) (c : Nat) : List Nat := [p.rd (Reg.CKEY_TX_SLOT0 c), p.rd (Reg.CKEY_TX_SLOT1 c)]

/-- The receive key slots of course c's entry. -/
def Dev.ckeyRx (p : Dev) (c : Nat) : List Nat := [p.rd (Reg.CKEY_RX_SLOT0 c), p.rd (Reg.CKEY_RX_SLOT1 c)]

/-- The CKEY table of `p` meets R288: the conditions are those of each encrypted course, held against every other enabled course that has keys of its own. -/
def Dev.ckeyOk (s p : Dev) : Bool :=
  let all := (s.courses ++ s.remotes).filter fun c => !s.isCourseB c && !s.relayFed c
  let cs := all.filter p.encrypted
  let role (r k : Nat) : Bool := decide ((s.key k).state = keyEmpty) || decide ((s.key k).role = r)
  (cs.all fun c => (p.ckeyTx c).all (role roleTx) && (p.ckeyRx c).all (role roleRx)) &&
  (cs.all fun c => all.all fun d =>
    (decide (c = d) || ((p.ckeyTx c).all (fun k => !(p.ckeyTx d).contains k) && (p.ckeyRx c).all fun k => !(p.ckeyRx d).contains k)) &&
    ((p.ckeyTx c).all fun k => !(p.ckeyRx d).contains k) && (p.ckeyRx c).all fun k => !(p.ckeyTx d).contains k) &&
  (all.all fun c => s.on (Reg.CKEY_ENC c) == p.on (Reg.CKEY_ENC c)) &&
  cs.all fun c => decide (s.txSlot c (s.rd (Reg.CSTAT_KS_TX c)) = p.txSlot c (s.rd (Reg.CSTAT_KS_TX c))) &&
    decide (s.rxSlot c (s.rd (Reg.CSTAT_KS_RX c)) = p.rxSlot c (s.rd (Reg.CSTAT_KS_RX c)))

/-! ## The relay's tables (R401) -/

/-- The relay slots of a table of `p` whose entry has a kind. -/
def Dev.slotsOfKind (p : Dev) (t : TableSpec) (kind : Nat → Field) (v : Nat) : List Nat :=
  (p.listed t).filter fun k => decide (p.rd (kind k) = v)

/-- Each member of course c stands exactly once among slots. -/
def Dev.eachOnce (p : Dev) (ks : List Nat) (course member : Nat → Field) (c m : Nat) : Bool :=
  (List.range m).all fun j => (ks.filter fun k => decide (p.rd (course k) = c) && decide (p.rd (member k) = j)).length = 1

/-- No enabled pair names course c. -/
def Dev.noPair (s : Dev) (c : Nat) : Bool :=
  s.enabledPairs.all fun q => decide (s.rd (Reg.PAIR_COURSE_A q) ≠ c) && decide (s.rd (Reg.PAIR_COURSE_B q) ≠ c)

/-- A KIND 3 entry names a member of a course of the map in force that no enabled pair has. -/
def Dev.kind3Ok (s p : Dev) (course member : Field) : Bool :=
  let c := p.rd course
  s.on (Reg.MAP_EN c) && decide (p.rd member ≤ s.rd (Reg.MAP_MEMBERS_M1 c)) && s.noPair c

/-- The tables of page 0x380 in `p` meet R401 with the COURSE map and pairs of `s`. -/
def Dev.relayOk (s p : Dev) : Bool :=
  let t1 := p.slotsOfKind tableRTX Reg.RTX_KIND 1
  let r1 := p.slotsOfKind tableRRX Reg.RRX_KIND 1
  (p.remotes.all fun c =>
    let m := p.rd (Reg.RCRS_MEMBERS_M1 c) + 1
    (!p.on (Reg.RCRS_TX c) || p.eachOnce t1 Reg.RTX_COURSE Reg.RTX_MEMBER c m) &&
    (!p.on (Reg.RCRS_RX c) || p.eachOnce r1 Reg.RRX_COURSE Reg.RRX_MEMBER c m) && !s.on (Reg.MAP_EN c) &&
    s.noPair c &&
    decide (1 ≤ p.rd (Reg.RCRS_HOPS c))) &&
  ((p.slotsOfKind tableRTX Reg.RTX_KIND 3).all fun k => s.kind3Ok p (Reg.RTX_COURSE k) (Reg.RTX_MEMBER k)) &&
  ((p.slotsOfKind tableRRX Reg.RRX_KIND 3).all fun k => s.kind3Ok p (Reg.RRX_COURSE k) (Reg.RRX_MEMBER k)) &&
  ((p.slotsOfKind tableRTX Reg.RTX_KIND 2).all fun k => decide (p.rd (Reg.RRX_KIND (p.rd (Reg.RTX_FROM k))) = 0)) &&
  decide (p.slotsOfKind tableRRX Reg.RRX_KIND 2 = [])

/-! ## Other blocks -/

/-- Queue q's entry lies in its ranges, its landing area in the home region, clear of the others' (R432, Table 15.9). -/
def Dev.queueCfgOk (p : Dev) (q : Nat) : Bool :=
  let area (i : Nat) : Nat × Nat := (p.rd (Reg.Q_LAND_OFFSET i), (p.rd (Reg.Q_LAND_SLOTS_M1 i) + 1) * p.slotBytes i)
  let a := area q
  let cap := p.rd (Reg.Q_CFG_CAP_KIB q)
  within 64 262144 cap && decide (p.rd (Reg.Q_WM_HWM_KIB q) ≤ cap) && decide (p.rd (Reg.Q_WM_LWM_KIB q) < p.rd (Reg.Q_WM_HWM_KIB q)) &&
  decide (p.rd (Reg.Q_LAND_SLOTS_M1 q) ≤ 2047) && decide (p.rd (Reg.Q_LAND_SIZE q) ≤ 5) && decide (a.1 % 4096 = 0) && inWindow a.1 a.2 &&
  (List.range 32).all fun i => decide (i = q) || (let b := area i; !overlaps a.1 a.2 b.1 b.2)

/-- Page 0x042 (R432). -/
def Dev.queuesOk (p : Dev) : Bool :=
  decide (((List.range 32).map fun q => p.rd (Reg.Q_CFG_CAP_KIB q)).sum ≤ 262144) && (List.range 32).all p.queueCfgOk

/-- Page 0x010 (R485). -/
def Dev.thermOk (p : Dev) : Bool :=
  decide (p.rd Reg.THERM_THR_WARN < p.rd Reg.THERM_THR_THROTTLE) && decide (p.rd Reg.THERM_THR_THROTTLE < p.rd Reg.THERM_THR_SHUTDOWN) &&
  decide (p.rd Reg.THERM_THR_SHUTDOWN ≤ 240) && decide (p.rd Reg.THERM_HBM_HBM_LIMIT < p.rd Reg.THERM_HBM_HBM_SHUT) &&
  decide (p.rd Reg.THERM_HBM_HBM_SHUT ≤ 210) && within 10 1000 (p.rd Reg.THERM_CTRL_STEP_MS) && within 100 8000 (p.rd Reg.THERM_CTRL_RELEASE_MS) &&
  decide (p.rd Reg.THERM_CTRL_SUBST_MARGIN ≤ 20) && within 5 50 (p.rd Reg.THERM_PLAUS_PLAUS_DEG)

/-- A quality level that a commit takes (Table 12.2). -/
def qlOk (q : Nat) : Bool := q ≤ 7 ∨ q = 15

/-- SRC = 2 names a TREF of 1 Hz (R360). -/
def Dev.ppsOk (p : Dev) : Bool :=
  decide (p.rd Reg.TIME_CTRL_SRC ≠ 2) || decide (p.rd (Reg.REF_FREQ_HZ (p.rd Reg.TIME_CTRL_SRC_REF)) = 1)

/-- Page 0x090 (R360). -/
def Dev.dpllPageOk (p : Dev) : Bool :=
  decide (p.rd Reg.SEL_CTRL_FORCE_REF ≤ 16) && decide (p.rd Reg.SEL_CTRL_BW ≤ 4) && decide (1 ≤ p.rd Reg.LOCK_CFG_LOCK_S) &&
  within 10 10000 (p.rd Reg.LOCK_CFG_TIME_TOL_NS) && within 60 3600 (p.rd Reg.HO_CFG_HIST_MIN_S) && within 1 60 (p.rd Reg.HO_CFG_HO_GUARD_S) &&
  qlOk (p.rd Reg.HO_CFG_HO_QL) && decide (60 ≤ p.rd Reg.HO_LIMIT_LIMIT_S) && decide (1 ≤ p.rd Reg.MON_CFG_QUAL_S) &&
  decide (5 ≤ p.rd Reg.MON_CFG_DRIFT_RATE) && decide (p.rd Reg.MON_CFG_DRIFT_SPAN ≤ 120) && within 1 10000 (p.rd Reg.AGREE_CFG_AGREE_PPB)

/-- The REF and OUT tables (R331, R349, R360). -/
def Dev.refsOk (p : Dev) : Bool :=
  (refList.all fun r => qlOk (p.rd (Reg.REF_QL r)) &&
    (decide (3 < r) || decide (p.rd (Reg.REF_FREQ_HZ r) = 1) || within 1000 800000000 (p.rd (Reg.REF_FREQ_HZ r)))) &&
  ((List.range 8).all fun k => decide (p.rd (Reg.OUT_FS_DIV k) ≤ 12) && decide ((p.rdS (Reg.OUT_PHASE_PS k)).natAbs ≤ 1000000) &&
    within 10 1000000 (p.rd (Reg.OUT_PULSE_NS k)) && (decide (p.rd (Reg.OUT_KIND k) ≠ 1) || within 1000 800000000 (p.rd (Reg.OUT_FREQ_HZ k)))) &&
  p.ppsOk

/-- Page 0x092 (R341, R360). -/
def Dev.timePageOk (p : Dev) : Bool :=
  decide (p.rd Reg.TIME_CTRL_SRC ≤ 4) && within 1 100000 (p.rd Reg.TIME_SLEW_MAX_PPB) && p.ppsOk

/-- The CNT_CFG table (R466). -/
def Dev.countersOk (p : Dev) : Bool :=
  let is := (p.regs.filterMap fun e =>
    let lo := tableCell tableCNTCFG.id 0 0
    if lo ≤ e.1 ∧ e.1 < tableCell tableCNTCFG.id 8192 0 then some ((e.1 - lo) / 64) else none).dedup
  is.all fun i => !(decide (i % 2 = 1) && p.on (Reg.CNT_CFG_CHAIN i)) &&
    !(decide (p.rd (Reg.CNT_CFG_KIND i) = 3) && decide (p.rd (Reg.CNT_CFG_POINT i) = 3)) &&
    decide (p.rd (Reg.CNT_CFG_ADDR_LO i) ≤ p.rd (Reg.CNT_CFG_ADDR_HI i))

/-- Page 0x300 (R253); EXC_ACTION names a KIND of Table 8.4 (R248). -/
def Dev.epochOk (s p : Dev) : Bool :=
  decide (s.parse.epochs.length < 4) && decide (p.rd Reg.EXC_ACTION_KIND ≠ 3) && decide (16 ≤ p.rd Reg.EPOCH_PARAM_CYC_MAX) && decide (p.rd Reg.EPOCH_PARAM_LKE_MAX ≤ 8) &&
  decide (p.rd Reg.EPOCH_PARAM_LKW_MAX ≤ 4) && within 16 64 (p.rd Reg.PASS_LIMIT_CYC_LIMIT) && s.on (ucodeValid (p.rd Reg.EPOCH_PARAM_BANK))

/-- An essential block is lost and the commit would bring a course or an octet into use (Table 18.3). -/
def Dev.essentialBars (s p : Dev) (page : Nat) : Bool :=
  s.essentialLost &&
  if page = 0x240 then p.courses.any fun c => !s.on (Reg.MAP_EN c)
  else if 0x2C0 ≤ page ∧ page < 0x300 then
    let l := page - 0x2C0
    decide (s.rd (Reg.OCT_CFG_WIDTH l) = 0) && decide (p.rd (Reg.OCT_CFG_WIDTH l) ≠ 0)
  else false

/-! ## The check of a page (R426) -/

/-- The events of a refusal where a condition fails, and none where it holds. -/
abbrev orRefuse (ok : Bool) (g b : Nat) : Option (List (Nat × Nat)) := if ok then none else some [(g, b)]

/-- The first refusal of two checks. -/
def firstRefusal (a b : Option (List (Nat × Nat))) : Option (List (Nat × Nat)) :=
  match a with
  | none => b
  | some e => some e

/-- A commit of a page of engine n, page +k, against the rules of its chapter; `p` has the committed values. -/
def Dev.lineCheck (s p : Dev) (n k : Nat) : Option (List (Nat × Nat)) :=
  if k ≤ 5 then orRefuse (p.txPageOk n k) (10 + n) 6
  else if 8 ≤ k ∧ k ≤ 0x0E then orRefuse (p.rxPageOk n) (10 + n) 11
  else if k = 0x0F then
    firstRefusal (orRefuse (decide (p.rd Reg.CAP_BUF_SIZE_GB ≤ 16) &&
        (decide (s.rd Reg.CAP_BUF_SIZE_GB = p.rd Reg.CAP_BUF_SIZE_GB) || s.captureIdle)) 10 11)
      (if s.bufferOk p then none else some [(10, 11), (0, 18)])
  else if 0x10 ≤ k ∧ k ≤ 0x15 then orRefuse (p.eqPageOk n k) (10 + n) 25
  else if 0x18 ≤ k ∧ k ≤ 0x1D then orRefuse (p.fecPageOk n k) (10 + n) 31
  else none

/-- A commit of the PAIR table. -/
def Dev.pairCheck (s p : Dev) : Option (List (Nat × Nat)) :=
  firstRefusal (orRefuse (s.pairsOk p) 20 8)
    (firstRefusal (if s.admitsPair p then s.parAdmission (s.mergeSlots p) else none) (orRefuse (s.bufferOk p) 0 18))

/-- A COURSE map that raises M of a pair running in MODE 2, both courses alike and within R210, is an admission (R211; DEDUCED, log 184). -/
def Dev.mapAdmits (s p : Dev) : Bool :=
  p.parFits p && s.merged.any fun q => p.pairOk p q && decide (s.pairSlots q < p.pairSlots q)

/-- A commit of the COURSE map (R166, R211). One that raises the Parallax reservation must leave the best-effort buffer its 48 GB (R23). -/
def Dev.mapCheck (s p : Dev) : Option (List (Nat × Nat)) :=
  firstRefusal (orRefuse p.mapOk 18 16)
    (firstRefusal (if s.mapAdmits p then s.parAdmission (p.mergeSlots p) else none)
      (orRefuse (decide (p.parReserved p ≤ s.parReserved s) || p.bufferOk p) 0 18))

/-- A page's commit checked against the rules of its chapter (R426): none where it passes, else the events of its refusal. `s` is the device before
it, `p` the device with the committed values in force. -/
def Dev.pageCheck (s p : Dev) (page : Nat) : Option (List (Nat × Nat)) :=
  if s.essentialBars p page then some []
  else if 0x100 ≤ page ∧ page < 0x200 then s.lineCheck p ((page - 0x100) / 32) ((page - 0x100) % 32)
  else if 0x2C0 ≤ page ∧ page < 0x300 then
    let l := page - 0x2C0
    orRefuse (decide (p.rd (Reg.OCT_CFG_WIDTH l) ≤ 4)) (22 + l / 16) (2 * (l % 16) + 1)
  else if 0x0A8 ≤ page ∧ page < 0x0B0 then
    let n := page - 0x0A8
    orRefuse (decide (p.rd (Reg.DR_TX_CFG_SUBC n) ≤ 112) && within 5 40 (p.rd (Reg.DR_TX_CFG_DEPTH n)) && within 64 4096 (p.rd (Reg.DR_TX_RAMP_RAMP_US n))) 8 11
  else match page with
    | 0x002 => orRefuse (within 20 100 (p.rd Reg.PWR_RAIL_WIN_PERMIL)) 0 6
    | 0x00F => orRefuse (decide (p.rd Reg.PARSE_BE_SHARE_FLOOR ≤ 16)) 0 18
    | 0x010 => orRefuse p.thermOk 1 7
    | 0x030 => orRefuse p.countersOk 29 1
    | 0x042 => orRefuse p.queuesOk 3 5
    | 0x090 => orRefuse p.dpllPageOk 7 11
    | 0x091 => orRefuse p.refsOk 7 11
    | 0x092 => orRefuse p.timePageOk 7 11
    | 0x0A0 => orRefuse (within 60 200 (p.rd Reg.DR_RX_CFG_DET_THR) && within 10 200 (p.rd Reg.DR_RX_CFG_CAPTURE_DB) &&
        within 100 10000 (p.rd Reg.BCN_PERIOD_MS)) 8 11
    | 0x0B0 => orRefuse (within 10 400 (p.rd Reg.COL_CTRL_RERUN_DEG) && within 60 3600 (p.rd Reg.COL_STORE_STORE_MIN_S)) 9 9
    | 0x0B8 => orRefuse (decide (4 ≤ p.rd Reg.HK_PLAUS_PLAUS_LSB) && within 16 4096 (p.rd Reg.HK_PLAUS_REF_TOL_LSB)) 9 9
    | 0x240 => s.mapCheck p
    | 0x280 => s.pairCheck p
    | 0x291 => orRefuse (s.ckeyOk p) 21 11
    | 0x300 => orRefuse (s.epochOk p) 26 1
    | 0x380 => orRefuse (s.relayOk p) 28 22
    | _ => none

/-- The pages whose values together decide the HBM regions: the PAIR table and the capture size (R23). -/
def hbmPage (page : Nat) : Bool := page = 0x280 ∨ page = 0x10F

/-- The device that a page of a group is checked on: the page's own shadow copies, and for line pages those of the engine's other pages of
the group as well (R41, R72); for the pages that decide the HBM regions, both (R23); for 0x091 and 0x092, which name each other's fields, both (R360). -/
def Dev.adoptFor (group : List Nat) (page : Nat) (s : Dev) : Dev :=
  let timing (g : Nat) : Bool := decide (g = 0x091) || decide (g = 0x092)
  if timing page then (group.filter timing).foldl (fun d g => d.adopt g) (s.adopt page)
  else if hbmPage page then (group.filter hbmPage).foldl (fun d g => d.adopt g) (s.adopt page)
  else if 0x100 ≤ page ∧ page < 0x200 then
    (group.filter fun g => decide (0x100 ≤ g) && decide ((g - 0x100) / 64 = (page - 0x100) / 64)).foldl (fun d g => d.adopt g) (s.adopt page)
  else s.adopt page

end Sys2Proof.Machine
end

