-- ==== Sys2Proof/Machine/Events.lean ====
section
/-!
DEFINITION. Event groups as the host acts on them (R424, R454 to R460), and the data pages of the performance counters (R467 to R469).
-/
namespace Sys2Proof.Machine

/-! ## Event groups -/

/-- The pages of the EVENT block. -/
abbrev evPage : Nat := 0x020
abbrev grpPage : Nat := 0x021

/-- An enable word written (R455). -/
def Dev.evEnable (g : Nat) (v : Word) (s : Dev) : Dev :=
  { s with ev := s.ev.setGroup s.holdoff g { s.ev.group g with en := v } }

/-- A routing word written through a page; its reserved bits stay 0 and are counted there (Table 16.1, R424). -/
def Dev.evRoute (page g : Nat) (v : Word) (s : Dev) : Dev :=
  let s := { s with ev := s.ev.setGroup s.holdoff g { s.ev.group g with route := v &&& 0xFFF#32 } }
  if v &&& 0xFFFFF000#32 ≠ 0 then s.viol page else s

/-- A W1C write of a latch word: the bits written 1 clear, and where that leaves the input of the group's vector at 1, the vector sends
again (R454, R457). -/
def Dev.evClear (g : Nat) (v : Word) (s : Dev) : Dev :=
  let x := s.ev.group g
  let e := s.ev.setGroup s.holdoff g { x with latch := x.latch &&& ~~~ v }
  let e := match x.vector? with
    | some k => if v ≠ 0 ∧ e.input k then e.send s.holdoff k else e
    | none => e
  { s with ev := e }

/-- A write of an EV_* register in the header of a page; a page without an event group counts it (R424). -/
def Dev.evHeader (page off : Nat) (v : Word) (s : Dev) : Dev :=
  match pageGroup page with
  | none => s.viol page
  | some g =>
    if off = 0x014 then s.evEnable g v
    else if off = 0x018 then s.evClear g v
    else if off = 0x01C then s.evRoute page g v
    else s

/-- A write of a group register of page 0x021 (Table 16.3). -/
def Dev.grpWrite (off : Nat) (v : Word) (s : Dev) : Dev :=
  let g := (off - 0x040) / 16
  match (off - 0x040) % 16 / 4 with
  | 1 => s.evEnable g v
  | 2 => s.evClear g v
  | 3 => s.evRoute grpPage g v
  | _ => s

/-- A header access: of a page that answers, whether or not its block is under test. -/
def Dev.onHeader (page off : Nat) (act : Dev → Dev) (s : Dev) : Dev :=
  let s := s.access 1 page off
  (if s.pageLive page then act s else s.noPage).endAccess page off

/-- EV_LATCH_CLEAR (R454, R457). -/
def execEvLatchClear (latch : LatchRef) (v : Word) (s : State) : Out :=
  s.run fun s =>
    match latch with
    | .group g => s.onWrite grpPage (0x048 + 16 * g.val) (Dev.evClear g v)
    | .header p =>
      if 0x400 ≤ p.toNat then s.onHeader p.toNat 0x018 (Dev.viol p.toNat)
      else s.onHeader p.toNat 0x018 (Dev.evHeader p.toNat 0x018 v)

/-- The hold-off of a vector ends: one message where a rise waits and the input is still 1 (R457). -/
def Dev.vecHoldoffEnd (k : Nat) (s : Dev) : Dev :=
  let x := sget (dflt VecState.reset) s.ev.vecs k
  let e := { s.ev with vecs := sset (dflt VecState.reset) s.ev.vecs k { x with held := false, waiting := false } }
  { s with ev := if x.waiting ∧ e.input k then e.send s.holdoff k else e }

/-- VEC_HOLDOFF_EXPIRE (R457). -/
def execVecHoldoffExpire (k : Fin 32) (s : State) : Out :=
  s.run fun s => if (sget (dflt VecState.reset) s.ev.vecs k).held then s.vecHoldoffEnd k else s

/-- A write of EV_FORCE: GO raises the source named and counts it (R460); a bit that no chapter defines never raises (R452; log 236). -/
def Dev.evForce (v : Word) (s : Dev) : Dev :=
  s.hostWrite evPage 0x04C 0x400#32 v fun s =>
    let g := s.rd Reg.EV_FORCE_GROUP
    let b := s.rd Reg.EV_FORCE_BIT
    if v.getLsbD 10 then (s.raiseIf (bitAt (definedBits g) b) g b).bump Reg.FORCED else s

/-- EV_FORCE (R460). -/
def execEvForce (v : Word) (s : State) : Out :=
  s.run (Dev.evForce (v ||| 0x400#32))

/-! ## The counters' data pages (R467, R468, Table 16.9) -/

/-- A counter's value. -/
def Dev.counter (s : Dev) (i : Nat) : Nat :=
  sget (dflt 0) s.perf.values i

/-- VALUE_LO of a counter. -/
def Dev.valueLo (s : Dev) (i : Nat) : Word :=
  BitVec.ofNat 32 (s.counter i)

/-- VALUE_HI of a counter: its upper bits, OVF, and whether it is chained into the next or carried into. -/
def Dev.valueHi (s : Dev) (i : Nat) : Word :=
  let chained := s.chainedInto i || (decide (i % 2 = 0) && s.on (Reg.CNT_CFG_CHAIN i))
  BitVec.ofNat 32 (s.counter i / 2 ^ 32 + ofBool (bitAt (s.rd (Reg.OVF_OVF (i / 32))) (i % 32)) * 2 ^ 16 + ofBool chained * 2 ^ 17)

/-- Whether data page k shows its counters (R468). -/
def Dev.userPage (s : Dev) (k : Nat) : Bool :=
  bitAt (s.rd (Reg.USER_EN_EN (k / 32))) (k % 32)

/-- The snapshot that a read of VALUE_LO[j] takes (R467): SNAP_IDX, SNAP_HI, and the chained partner in SNAP_NEXT. -/
def Dev.valueSnap (k j : Nat) (s : Dev) : Dev :=
  let i := 32 * k + j
  let c := regCell (0x400 + k) 0x140
  let next := decide (j % 2 = 0) && s.on (Reg.CNT_CFG_CHAIN i)
  let n := if next then s.counter (i + 1) else 0
  s.setWords c [BitVec.ofNat 32 j, BitVec.ofNat 32 (s.counter i / 2 ^ 32), BitVec.ofNat 32 n, BitVec.ofNat 32 (n / 2 ^ 32)]

/-- A read of VALUE_LO[j] of data page k, and of the words after it that one request covers: `words` of them (R467). -/
def Dev.valueRead (k j words : Nat) (s : Dev) : Dev :=
  let page := 0x400 + k
  let s := s.access 0 page (0x040 + 8 * j)
  if s.pageLive page && s.userPage k then
    let i := 32 * k + j
    let all := [s.valueLo i, s.valueHi i, s.valueLo (i + 1), s.valueHi (i + 1)]
    { s.valueSnap k j with readData := all.take words }
  else { s with readData := List.replicate words 0 }

/-- PERF_VALUE_READ: a read of 4, 8 or 16 bytes (`size` 0, 1, 2) at VALUE_LO[j] of data page k. A request of 16 bytes at an odd counter is not
aligned and is taken as one of 8. -/
def execPerfValueRead (k : Fin 256) (j : Fin 32) (size : Fin 3) (s : State) : Out :=
  s.run fun s => s.valueRead k j (if size = 0 then 1 else if size = 1 ∨ j.val % 2 = 1 then 2 else 4)

/-- Every counter and OVF bit zeroed (R469). -/
def Dev.perfClear (s : Dev) : Dev :=
  let s := { s with perf := ⟨[]⟩ }
  (List.range 256).foldl (fun s k => s.wr (Reg.OVF_OVF k) 0) s

/-- A write of PERF_CTRL (Table 16.6). -/
def Dev.perfCtrl (v : Word) (s : Dev) : Dev :=
  s.hostWrite 0x030 0x040 2#32 v fun s => if v.getLsbD 1 then s.perfClear else s

/-- PERF_CLEAR_ALL (R469). -/
def execPerfClearAll (v : Word) (s : State) : Out :=
  s.run (Dev.perfCtrl (v ||| 2#32))

end Sys2Proof.Machine
end

