-- ==== Sys2Proof/Machine/Commit.lean ====
section
/-!
DEFINITION. Shadow and commit (R426 to R428, R561): arming, commits of one page and of a group, what an accepted commit starts, and the
boundaries at which committed values come into force.
-/
namespace Sys2Proof.Machine

/-! ## Courses that a commit enables or disables (R164, R169, R289, R295) -/

/-- Course c enabled for transmit: its serial starts anew, KS_TX and RX_LAST are 0, and it is key-starved only
once a frame finds it so (R289, R291). -/
def Dev.courseStart (c : Nat) (s : Dev) : Dev :=
  let s := s.setCo c { s.co c with serial := 0, sent := [], sentKs := false, sentSerial := 0, begun := false, ttiTx := [], bdiWait := [], bipTx := [], bei := 0, beiPm := 0 }
  let s := s.setStarved c false
  let s := { s with rekeys := s.rekeys.filter (· ≠ c), sched := { s.sched with
    carry := s.sched.carry.filter fun e => decide (e.1 ≠ c), tails := s.sched.tails.filter fun e => decide (e.1 ≠ c) } }
  ((s.wr (Reg.CSTAT_KS_TX c) 0).wr64 (Reg.CSTAT_RX_LAST_LO c) 0).wr (Reg.CSTAT_WARNED c) 0

/-- Course c disabled for transmit: the conditions of its map end, with their events (R191). -/
def Dev.courseStop (c : Nat) (s : Dev) : Dev :=
  (((s.setStarved c false).setCrsBit c (Reg.CRSTAT_BDI_TX c) none false).setCrsBit c (Reg.CRSTAT_MEMBER_ABSENT c) none false).settleCourse c

/-- The enabled courses, local and remote. -/
def Dev.allCourses (s : Dev) : List Nat :=
  s.courses ++ s.remotes

/-- The courses whose enabled state a commit has changed since `old`. -/
def Dev.coursesFollow (old s : Dev) : Dev :=
  let s := (s.allCourses.filter fun c => !old.allCourses.contains c).foldl (fun s c => s.courseStart c) s
  (old.allCourses.filter fun c => !s.allCourses.contains c).foldl (fun s c => s.courseStop c) s

/-! ## Waiting values -/

/-- A committed field that waits for its boundary (R428). -/
def laterOf (page : Nat) (x : Nat × FieldSpec) (v : Nat) : Later :=
  ⟨page, x.1, x.2.mask, setBits 0 x.2.lsb x.2.width v, x.2.bnd⟩

/-- What the receive copy of slot k holds under the map of `p` (R167): its SLOT word, with MEMBERS_M1, TIM_MODE and TIM_ACT of its course. -/
def Dev.rxWanted (p : Dev) (k : Nat) : Nat :=
  let w := getBits (p.word (Reg.SLOT_USED k).cell) 0 17
  let c := p.rd (Reg.SLOT_COURSE k)
  if p.on (Reg.SLOT_USED k) then
    w + 2 ^ 17 * p.rd (Reg.MAP_MEMBERS_M1 c) + 2 ^ 24 * p.rd (Reg.MAP_TIM_MODE c) + 2 ^ 26 * p.rd (Reg.MAP_TIM_ACT c)
  else w

/-- The receive copies that a commit of a page changes: of the course map, slot by slot, and of OH_MODE (R167, R190). -/
def Dev.rxCopies (s p : Dev) (page : Nat) : List Later :=
  if page = 0x240 then
    (List.range 512).filterMap fun k =>
      let f := rxSlotField k 0 27
      if s.rd f = p.rxWanted k then none else some ⟨page, f.cell, bitMask 0 27, BitVec.ofNat 32 (p.rxWanted k), .rxFrame⟩
  else if 0x200 ≤ page ∧ page < 0x240 then
    let f := Reg.FR_CTRL_OH_MODE ((page - 0x200) / 8)
    if s.rd f.run = p.rd f then [] else [⟨page, f.run.cell, 1#32, BitVec.ofNat 32 (p.rd f), .rxFrame⟩]
  else []

/-- A page's waiting values put in force at once, whatever their boundary. -/
def Dev.putAll (page : Nat) (s : Dev) : Dev :=
  s.putWaiting fun x => decide (x.page = page)

/-! ## What an accepted commit starts -/

/-- A field of a page differs before and after. -/
abbrev Dev.differs (s p : Dev) (f : Field) : Bool := decide (s.rd f ≠ p.rd f)

/-- A commit of page +k of engine n is re-acquiring (R73, R87, R118). -/
def Dev.reacquiring (s p : Dev) (n k : Nat) : Bool :=
  match k with
  | 0x08 => s.differs p (Reg.RX_MODE_CONST n) || s.differs p (Reg.RX_MODE_SLOTS_M1 n) || s.differs p (Reg.RX_MODE_ENTROPY n) || s.differs p (Reg.RX_CLK_FS n)
  | 0x0B => s.differs p (Reg.RX_RESAMP_MODE n) || s.differs p (Reg.RX_RESAMP_PRESET n)
  | 0x0C => s.differs p (Reg.RX_CD_SRC n) ||
      (!p.on (Reg.RX_CD_SRC n) && s.differs p (Reg.RX_CD_VALUE n) && !s.trimOk n (p.rdS (Reg.RX_CD_VALUE n)))
  | 0x14 => s.differs p (Reg.ACQ_CTRL_TWIN n)
  | _ => false

/-- The engines that page +k of engine n drives on receive (R118). -/
def Dev.rxDriven (s : Dev) (n k : Nat) : List Nat :=
  if k = 0x14 then [n, n + 1]
  else if (k = 0x08 ∨ k = 0x0B) ∧ s.rxTwin n then (if n % 2 = 0 then [n, n + 1] else [])
  else [n]

/-- A receive commit of page +k of engine n accepted (R73, R99, R118): a re-acquiring one, and any while the engines are disabled, is in force at
once; the odd engine's copies keep the even engine's values when twin mode ends. The rate shows the mode in force from the first commit of page +0x08 on
(R70). -/
def Dev.rxPost (old p : Dev) (n k : Nat) (s : Dev) : Dev :=
  let again := old.reacquiring p n k
  let es := old.rxDriven n k
  let s := if again ∨ es.all fun e => !old.on (Reg.RX_CTRL_ENABLE e) then s.putAll (linePage n k) else s
  let s := if k = 0x14 ∧ old.rxTwin n ∧ ¬ s.rxTwin n then
      [(Reg.RX_MODE_CONST n, Reg.RX_MODE_CONST (n + 1)), (Reg.RX_CLK_FS n, Reg.RX_CLK_FS (n + 1)), (Reg.RX_RESAMP_MODE n, Reg.RX_RESAMP_MODE (n + 1))].foldl
        (fun s (x : Field × Field) => (s.setWord x.2.cell (s.word x.1.cell)).setShadow x.2.cell (s.word x.1.cell)) s
    else s
  let s := if k = 0x08 then s.showRxRate n else s
  let s := if k = 0x08 ∨ k = 0x14 then es.foldl (fun s e => if s.rd (Reg.RX_RATE_STAT_SYMRATE e) = 0 then s else s.showRxRate e) s else s
  let s := if k = 0x08 ∨ k = 0x14 then s.markAbsent else s
  if k = 0x0A then s.settleRxSkew n else s

/-- Page +k of an engine is one of the receive pages whose commit makes the choice of R81. -/
def rxPage (k : Nat) : Bool :=
  decide (8 ≤ k ∧ k ≤ 0x0E) || decide (k = 0x14)

/-- What the receive pages of engine n in a group bring once all of the group is in force: the sequence restarts where one is re-acquiring, and the choice of R81 is made
else, once for the group (R73, R81, R427). -/
def Dev.rxFollow (old p : Dev) (n : Nat) (group : List Nat) (s : Dev) : Dev :=
  let ks := (group.filter fun g => decide (linePage n 0 ≤ g) && decide (g < linePage n 0 + 32)).map (· - linePage n 0)
  let ks := ks.filter fun k => rxPage k && (decide (k ≠ 0x14) || old.differs p (Reg.ACQ_CTRL_TWIN n))
  let again := (ks.filter (old.reacquiring p n)).flatMap (old.rxDriven n)
  let es := (ks.flatMap (old.rxDriven n)).dedup
  es.foldl (fun s e => if again.contains e && s.on (Reg.RX_CTRL_ENABLE e) then s.reacquire e else s.choiceAtCommit e) s

/-- The capture region anew (R91). -/
def Dev.captureAnew (s : Dev) : Dev :=
  let s := ((s.wr Reg.CAP_WR_PTR_PTR 0).wr Reg.CAP_RD_PTR_PTR 0).wr Reg.CAP_OLDEST_PTR 0
  let s := s.wr Reg.CAP_BASE_BASE (Config.captureBase / 64)
  let s := { s with capRecs := [] }
  ((List.range 8).foldl (fun s n => s.setCpe n { s.cpe n with seq := 0 }) s).hbmEval

/-- A commit of page +k of LINEn accepted (R42, R53, R64, R73, R91, R101). -/
def Dev.linePost (old p : Dev) (n k : Nat) (s : Dev) : Dev :=
  match k with
  | 0x00 => if old.differs p (Reg.TX_CTRL_TWIN n) then s.relight n else s
  | 0x01 =>
    let s := if [Reg.TX_MODE_CONST n, Reg.TX_MODE_SLOTS_M1 n, Reg.TX_MODE_ENTROPY n, Reg.TX_CLK_FS n].any (old.differs p) then s.relight n else s
    (s.txMembers n).foldl (fun s m => s.showRate m) s
  | 0x04 => s.setTxe n { s.txe n with pdSwap := true }
  | 0x0F => s.captureAnew
  | 0x10 => if old.differs p (Reg.EQ_CTRL_TAPS n) ∧ s.acq n = acqLocked then (s.acqGo n acqConverge).acqSettle n else s
  | 0x14 => if old.differs p (Reg.ACQ_CTRL_TWIN n) then old.rxPost p n k s else s
  | _ => if 8 ≤ k ∧ k ≤ 0x0E then old.rxPost p n k s else s

/-- A pair brought to its new entry (R198, R208, Table 7.2). PROT_MISMATCH, DD_EXCEEDED, EARLY_FLAG, LOCAL_REQ and REMOTE_REQ of a pair that is disabled or leaves
its mode keep their last values (DESIGN CHOICE, log 219). -/
def Dev.pairTaken (old : Dev) (q : Nat) (s : Dev) : Dev :=
  let was := old.on (Reg.PAIR_EN q)
  let sent (d : Dev) := [d.rd (Reg.PAIR_COURSE_A q), d.rd (Reg.PAIR_COURSE_B q)]
  let fresh := !was || old.on (Reg.PSTAT_CFG_BAD q) || old.differs s (Reg.PAIR_MODE q)
  let moved := old.differs s (Reg.PAIR_COURSE_A q) || old.differs s (Reg.PAIR_COURSE_B q)
  let s := if !s.on (Reg.PAIR_EN q) ∨ moved then (sent old).foldl (fun s c => s.wr (Reg.SR_TX_SR c) 0) s else s
  if !s.on (Reg.PAIR_EN q) then
    let s := (s.pairGo q parIdle).setPr q Pair.reset
    let s := ((s.wr (Reg.PSTAT_SEL q) 0).wr (Reg.PSTAT_CFG_BAD q) 0).wr (Reg.PSTAT_MODE_EFF q) 0
    s.showPair q
  else if fresh ∨ (moved ∧ s.rd (Reg.PAIR_MODE q) = 1) then
    let s := (s.pairGo q parIdle).setPr q Pair.reset
    (s.wr (Reg.PSTAT_SEL q) 0).wr (Reg.PSTAT_CFG_BAD q) 0
  else if (moved ∨ old.differs s (Reg.PAIR_BUDGET_FR q)) ∧ parMerged ≤ s.rd (Reg.PSTAT_STATE q) then s.pairGo q parAcquire
  else s

/-- A commit of the PAIR table accepted: every pair runs by its mode, and the SR value accepted is held against DIR and REVERT anew (R212, R218). -/
def Dev.pairPost (old s : Dev) : Dev :=
  let qs := (old.enabledPairs ++ s.enabledPairs).dedup
  let s := (qs.foldl (fun s q => old.pairTaken q s) s).settleModes false
  (s.enabledPairs.foldl (fun s q => s.pairSr q) s).hbmEval

/-- A COURSE map accepted that leaves pairs in breach of R195 stops them (R198), and their term with them (R25, R26); `p` has the map. Where the pairs in MODE 2 together exceed
R210, each of them is in breach. -/
def Dev.pairsBreached (p s : Dev) : Dev :=
  let bad := s.enabledPairs.filter fun q =>
    !s.on (Reg.PSTAT_CFG_BAD q) && (!p.pairOk p q || decide (s.rd (Reg.PAIR_MODE q) = 2) && !p.parFits p)
  if bad = [] then s
  else (bad.foldl (fun s q =>
      let s := ((s.wr (Reg.PSTAT_CFG_BAD q) 1).wr (Reg.PSTAT_MODE_EFF q) 0).pairGo q parIdle
      let s := (s.wr (Reg.SR_TX_SR (s.rd (Reg.PAIR_COURSE_A q))) 0).wr (Reg.SR_TX_SR (s.rd (Reg.PAIR_COURSE_B q))) 0
      s.raise 20 8) s).showParLoad.hbmEval

/-- A commit of the CLIENT page of lane l accepted: a change of WIDTH or RATE restarts every port of the octet (R230). -/
def Dev.clientPost (old : Dev) (l : Nat) (s : Dev) : Dev :=
  if l % 8 = 0 ∧ (old.differs s (Reg.OCT_CFG_WIDTH l) ∨ old.differs s (Reg.OCT_CFG_RATE l)) then
    let s := s.dropOctet (l / 8)
    let s := (List.range 8).foldl (fun s i => s.setPort (l + i) false false false false) s
    s.revokeFor s
  else s

/-- A commit of page 0x300 accepted: a new epoch (R252). -/
def Dev.epochPost (s : Dev) : Dev :=
  let e : EpochRec := ⟨(s.rd Reg.EPOCH_STAT_CURRENT + 1) % 65536, s.rd Reg.EPOCH_PARAM_CYC_MAX, s.rd Reg.EPOCH_PARAM_LKE_MAX, s.rd Reg.EPOCH_PARAM_LKW_MAX,
    s.rd Reg.PASS_LIMIT_CYC_LIMIT, s.rd Reg.EPOCH_PARAM_BANK, s.word Reg.EXC_ACTION_FLOW.cell⟩
  let s := ({ s with parse := { s.parse with epochs := s.parse.epochs ++ [e] } }).showEpochs
  (s.raise 26 0).retireEpochs 4

/-- LCAL_CTRL accepted: the sets of an engine whose MODE has changed taken to their instants, SYS_MISSING shown, and the background passes that now may run (R365, R379, R381). -/
def Dev.lcalPost (old s : Dev) : Dev :=
  ((List.range 8).filter s.lineOn).foldl (fun s n =>
    let s := if s.on (Reg.LCAL_CTRL_MODE n) = old.on (Reg.LCAL_CTRL_MODE n) then s else (s.colTake n).colTake (8 + n)
    (s.showMissing n).settlePending n) s

/-- What an accepted commit of a page starts beside its values; `old` is the device before it, `p` has its values. -/
def Dev.commitPost (old p : Dev) (page : Nat) (s : Dev) : Dev :=
  if 0x100 ≤ page ∧ page < 0x200 then old.linePost p ((page - 0x100) / 32) ((page - 0x100) % 32) s
  else if 0x200 ≤ page ∧ page < 0x240 then
    let n := (page - 0x200) / 8
    if old.differs p (Reg.FR_SEED_RX_SEED n) ∧ s.frs n ≠ frIdle then (s.frToSearch n).settleCourses else s
  else if 0x2C0 ≤ page ∧ page < 0x300 then old.clientPost (page - 0x2C0) s
  else match page with
    | 0x00F =>
      let s := s.hbmEval
      if s.rd Reg.PARSE_BE_SHARE < s.rd Reg.PARSE_BE_SHARE_FLOOR then s.wr Reg.PARSE_BE_SHARE (s.rd Reg.PARSE_BE_SHARE_FLOOR) else s
    | 0x0B2 => old.lcalPost s
    | 0x240 => p.revokeFor (p.pairsBreached s)
    | 0x280 => old.pairPost s
    | 0x300 => s.epochPost
    | _ => s

/-! ## Commits (R426, R427) -/

/-- The values of an accepted commit: the page is PENDING, and they take effect or wait (R426, R428). -/
def Dev.takePage (page : Nat) (s : Dev) : Dev :=
  let p := s.adopt page
  let ds := s.diff page
  let h := s.hdr page
  let d := s.setHdr page { h with cstate := .pendingCommit, lastRefused := false, epoch := (h.epoch + 1) % 2 ^ 32 }
  let d := (ds.filter fun x => decide (x.2.bnd = .hub)).foldl (fun (d : Dev) x => d.wr (x.2.at x.1) (s.sh (x.2.at x.1))) d
  let waits := (ds.filter fun x => decide (x.2.bnd ≠ .hub)).map fun x => laterOf page x (s.sh (x.2.at x.1))
  { d with later := (d.later.filter fun (x : Later) => decide (x.page ≠ page)) ++ waits ++ s.rxCopies p page }

/-- Pages accepted together: their values are taken first, then what follows from them, as one configuration (R427), and the Almanac records each page (R443). -/
def Dev.acceptAll (pages : List Nat) (kind master : Nat) (s : Dev) : Dev :=
  let p := pages.foldl (fun d g => d.adopt g) s
  let d := pages.foldl (fun d g => d.takePage g) s
  let d := pages.foldl (fun d g => s.commitPost p g d) d
  let d := (List.range 8).foldl (fun d n => s.rxFollow p n pages d) d
  pages.foldl (fun d g => d.journal g master kind) d

/-- The event of every refused commit of a page, whatever refuses it: E-20.08 of the PAIR table (Table 7.6), the second event of lane 8g for its OCT_CFG (Table 8.6). -/
def refusalEvent (page : Nat) : List (Nat × Nat) :=
  let l := page - 0x2C0
  if page = 0x280 then [(20, 8)]
  else if 0x2C0 ≤ page ∧ page < 0x300 ∧ l % 8 = 0 then [(22 + l / 16, 2 * (l % 16) + 1)]
  else []

/-- A commit refused: OPEN, LAST_REFUSED, one violation, and the events of its rule and of its page; PAR_REFUSED where R211 refuses it. -/
def Dev.refuseCommit (page : Nat) (evs : List (Nat × Nat)) (s : Dev) : Dev :=
  let s := (s.setHdr page { s.hdr page with cstate := .opened, lastRefused := true }).viol page
  let s := (evs ++ (refusalEvent page).filter fun e => !evs.contains e).foldl (fun (s : Dev) (e : Nat × Nat) => s.raise e.1 e.2) s
  if evs.contains (20, 9) then s.bump Reg.PAR_REFUSED else s

/-- A commit refused with BUSY_TEST (Table 18.4), with the event of its page. -/
def Dev.commitBusy (page : Nat) (s : Dev) : Dev :=
  (refusalEvent page).foldl (fun s e => s.raise e.1 e.2)
    ((s.setHdr page { s.hdr page with cstate := .opened, lastRefused := true }).busyTest page)

/-- A page committed alone (R426). -/
def Dev.commitOne (page master : Nat) (s : Dev) : Dev :=
  if s.pageInTest page then s.commitBusy page
  else match s.pageCheck (s.adoptFor [page] page) page with
    | none => s.acceptAll [page] 0 master
    | some evs => s.refuseCommit page evs

/-- The ARMED pages, rising. -/
def Dev.armed (s : Dev) : List Nat :=
  (s.pages.filter fun e => decide (e.2.cstate = .armed)).map (·.1)

/-- The ARMED pages committed as one group, all or none (R427). -/
def Dev.commitAll (master : Nat) (s : Dev) : Dev :=
  let ps := s.armed
  let checks := ps.map fun g => (g, s.pageInTest g, s.pageCheck (s.adoptFor ps g) g)
  if checks.all fun x => !x.2.1 && x.2.2.isNone then
    (s.acceptAll ps 1 master).wr Reg.COMMIT_ALL_RESULT 1
  else
    (checks.foldl (fun d x =>
      if x.2.1 then d.commitBusy x.1
      else match x.2.2 with
        | some evs => d.refuseCommit x.1 evs
        | none => d.setHdr x.1 { d.hdr x.1 with cstate := .opened }) s).wr Reg.COMMIT_ALL_RESULT 2

/-- A write of HOST.COMMIT_ALL; a GO with no page ARMED is ignored and counted (R427). -/
def Dev.commitAllWrite (v : Word) (s : Dev) : Dev :=
  s.hostWrite winPage 0x048 1#32 v fun s =>
    if v.getLsbD 0 then (if s.armed = [] then s.viol winPage else s.commitAll s.masterCode) else s

/-! ## SHADOW_CTL and CTRL (R424, R561) -/

/-- One operation of SHADOW_CTL by the page's state. -/
def Dev.shadowOp (page ops master : Nat) (s : Dev) : Dev :=
  let h := s.hdr page
  match ops, h.cstate with
  | 0, _ => s
  | 1, .opened => s.setHdr page { h with cstate := .armed }
  | 1, .armed => s
  | 2, .opened => s.commitOne page master
  | 2, .armed => s.commitOne page master
  | 4, .armed => s.setHdr page { h with cstate := .opened }
  | _, _ => s.viol page

/-- A write of SHADOW_CTL; several operations together are refused whole. A reserved bit is counted once, unless the write has been counted already. -/
def Dev.shadowCtl (page master : Nat) (v : Word) (s : Dev) : Dev :=
  let n := (s.hdr page).viol
  let s := s.shadowOp page (getBits v 0 3) master
  if v &&& 0xFFFFFFF8#32 ≠ 0 ∧ (s.hdr page).viol = n then s.viol page else s

/-- Every shadow copy of a page at its effective value. -/
def Dev.discard (page : Nat) (s : Dev) : Dev :=
  (s.diff page).foldl (fun d x =>
    d.setShadow x.1 (setBits (sget resetWord d.shadow x.1) x.2.lsb x.2.width (s.rd (x.2.at x.1)))) s

/-- A write of a page's CTRL. -/
def Dev.pageCtrl (page : Nat) (v : Word) (s : Dev) : Dev :=
  let s := if v.getLsbD 0 then s.setHdr page { s.hdr page with viol := 0 } else s
  let bad := v.getLsbD 1 && decide ((s.hdr page).cstate ≠ .opened)
  let s := if v.getLsbD 1 ∧ ¬ bad then s.discard page else s
  if bad ∨ v &&& 0xFFFFFFFC#32 ≠ 0 then s.viol page else s

/-- The reserved bits of a header register that is read only. -/
def headerReserved (off : Nat) : Word :=
  match off with
  | 0x004 => 0xFFFFE0F8#32
  | 0x00C => 0xFFFFFFF0#32
  | _ => 0

/-- A write of a header register of a page that answers (Table 15.2). Writes to a counter data page are ignored and counted (R468). -/
def Dev.headerWrite (page off master : Nat) (v : Word) (s : Dev) : Dev :=
  if 0x400 ≤ page then s.viol page
  else if off = 0x008 then s.pageCtrl page v
  else if off = 0x020 then s.shadowCtl page master v
  else if 0x010 ≤ off ∧ off < 0x020 then s.evHeader page off v
  else if 0x02C ≤ off then s.viol page
  else if v &&& headerReserved off ≠ 0 then s.viol page
  else s

/-- A host write of a header register. -/
def Dev.hostHeader (page off : Nat) (v : Word) (s : Dev) : Dev :=
  s.onHeader page off fun s => s.headerWrite page off s.masterCode v

/-- SHADOW_ARM (R561). -/
def execShadowArm (page : BitVec 12) (v : Word) (s : State) : Out :=
  s.run (Dev.hostHeader page.toNat 0x020 (v ||| 1#32))

/-- SHADOW_COMMIT (R426, R561). -/
def execShadowCommit (page : BitVec 12) (v : Word) (s : State) : Out :=
  s.run (Dev.hostHeader page.toNat 0x020 (v ||| 2#32))

/-- SHADOW_DISARM (R561). -/
def execShadowDisarm (page : BitVec 12) (v : Word) (s : State) : Out :=
  s.run (Dev.hostHeader page.toNat 0x020 (v ||| 4#32))

/-- COMMIT_ALL (R427). -/
def execCommitAll (v : Word) (s : State) : Out :=
  s.run (Dev.commitAllWrite (v ||| 1#32))

/-- SHADOW_DISCARD (R424). -/
def execShadowDiscard (page : BitVec 12) (v : Word) (s : State) : Out :=
  s.run (Dev.hostHeader page.toNat 0x008 (v ||| 2#32))

/-- CLR_VIOL (R424). -/
def execClrViol (page : BitVec 12) (v : Word) (s : State) : Out :=
  s.run (Dev.hostHeader page.toNat 0x008 (v ||| 1#32))

/-! ## Boundaries (R428) -/

/-- The COURSE map in force for transmit (R167): courses that it enables start anew, and a course that it changes loses MEMBER_ABSENT (R164). -/
def Dev.mapApply (old s : Dev) : Dev :=
  let s := old.coursesFollow s
  let changed := s.courses.filter fun c => old.on (Reg.MAP_EN c) &&
    (decide (old.word (Reg.MAP_EN c).cell ≠ s.word (Reg.MAP_EN c).cell) || s.differs old (Reg.MAP_SKEW_MAX_US c) || decide (old.slotsOf c ≠ s.slotsOf c) ||
      (s.slotsOf c).any fun k => s.differs old (Reg.SLOT_MEMBER k))
  let s := changed.foldl (fun s c => s.setCrsBit c (Reg.CRSTAT_MEMBER_ABSENT c) none false) s
  ((s.markAbsent.showSkewStore).settleModes false).hbmEval

/-- The relay's tables in force; a transmit slot whose entry has changed carries nothing of the old one (R401),
and FAILED rows where it forwards from a lane that is not TRANSIT_OK (R403). -/
def Dev.relayApply (old s : Dev) : Dev :=
  let s := old.coursesFollow s
  let s := (s.remotes.filter fun c => !old.remotes.contains c).foldl (fun s c => s.rxStart c) s
  let s := (old.remotes.filter fun c => !s.remotes.contains c).foldl (fun s c => s.rxStop c) s
  let s := ((List.range 64).filter fun k => decide (old.word (Reg.RTX_KIND k).cell ≠ s.word (Reg.RTX_KIND k).cell)).foldl
    (fun s k => s.setRelayTx k (if s.rd (Reg.RTX_KIND k) = 2 ∧ ¬ s.transitOk (slotLane (s.rd (Reg.RTX_FROM k)))
      then forwardRows RelayColumn.idle RelayColumn.idle false else RelayColumn.idle)) s
  ((old.remotes.filter fun c => !s.remotes.contains c).foldl (fun s c => s.wr (Reg.RCRS_SF c) 0) s).settleRemotes

/-- The banks of R53 exchanged where a swap waits. -/
def Dev.pdSwapNow (n : Nat) (s : Dev) : Dev :=
  let x := s.txe n
  if x.pdSwap then s.setTxe n { x with pdSwap := false, pdActive := x.pdShadow, pdShadow := x.pdActive } else s

/-- ITER_EFF at the first codeword boundary after a commit of page +0x18 (R145): brought within its new bounds, and a first step up where the commit has raised ITER_MAX above
it while step 3 is not active; a commit of the other fields moves nothing. `old` is the device before the values came into force. -/
def Dev.iterCommit (old : Dev) (n : Nat) (s : Dev) : Dev :=
  let eff := s.rd (Reg.FEC_ITER_STAT_ITER_EFF n)
  let mx := s.rd (Reg.FEC_CTRL_ITER_MAX n)
  if mx < eff ∨ eff < s.rd (Reg.FEC_CTRL_ITER_FLOOR n) ∨ (old.rd (Reg.FEC_CTRL_ITER_MAX n) < mx ∧ eff < mx ∧ ¬ s.shedActive 3) then s.iterStep n
  else s

/-- What follows once the values of page +k of engine n are in force at a boundary (R52, R53, R87, R111, R119, R140, R145). -/
def Dev.lineApplied (old : Dev) (n k : Nat) (s : Dev) : Dev :=
  match k with
  | 0x04 => let s := ((s.pdSwapNow n).settleTxSkew n).prepNeedsFe n; if s.txRamping n then s.showPd n else s
  | 0x0A => s.settleRxSkew n
  | 0x0C => if s.on (Reg.RX_CD_SRC n) ∨ ¬ s.on (Reg.RX_CTRL_ENABLE n) then s else s.wrS (Reg.RX_CD_STAT_APPLIED n) (s.rdS (Reg.RX_CD_VALUE n))
  | 0x10 => s.dfeSwitch n (s.rd (Reg.EQ_STAT_ESNR n))
  | 0x12 => s.aidEnds n
  | 0x18 => (old.iterCommit n s).showCapped n
  | 0x1C => if s.acq n = acqLocked then let m := s.rxMode n; s.takeScale n m.1 m.2.2 else s
  | _ => s

/-- A boundary of a page reached: what waits for it is in force. Relighting values wait for the entry to DARK, receive copies for the received
frame, and item values for the engine's next request or their queue's next item, where one waits. -/
def Dev.boundary (page : Nat) (b : Boundary) (s : Dev) : Dev :=
  if page = 0x042 ∧ b = .item then s.emptyBoundaries
  else if b = .hub ∨ b = .relight ∨ b = .rxFrame ∨ b = .item then s
  else
    let swaps := decide (b = .txFrame) && decide (0x100 ≤ page) && decide (page < 0x200)
    if !s.hasLater page b && !swaps then s
    else
      let d := s.applyLater page b
      if 0x100 ≤ page ∧ page < 0x200 then s.lineApplied ((page - 0x100) / 32) ((page - 0x100) % 32) d
      else match page with
        | 0x090 => d.settleDpll
        | 0x091 => s.outsCommit d.settleRefs
        | 0x092 => d.settleDpll
        | 0x094 => d.ptpCommit.settleDpll
        | 0x240 => s.mapApply d
        | 0x380 => s.relayApply d
        | _ => d

/-- BOUNDARY_APPLY (R428). -/
def execBoundaryApply (page : BitVec 12) (bnd : Boundary) (s : State) : Out :=
  s.run (Dev.boundary page.toNat bnd)

/-- COMMIT_PENDING_END: a PENDING page returns to OPEN (R428). -/
def execCommitPendingEnd (page : BitVec 12) (s : State) : Out :=
  s.run fun s =>
    let h := s.hdr page.toNat
    if h.cstate = .pendingCommit then s.setHdr page.toNat { h with cstate := .opened } else s

end Sys2Proof.Machine
end

