-- ==== Sys2Proof/Machine/Tables.lean ====
section
/-!
DEFINITION. The table windows (R562): reads and writes of entries under each table's own rules, and the bulk load of parse tables (R254).
-/
namespace Sys2Proof.Machine

/-! ## The windows -/

/-- The page of a window. -/
def tblPage : TblWindow → Nat
  | .sidereal => 0x091
  | .drone => 0x0A1
  | .course => 0x240
  | .parallax => 0x280
  | .cipher => 0x291
  | .parse => 0x301
  | .sched => 0x341
  | .relay => 0x380
  | .perf => 0x030
  | .collim => 0x0B1

/-- The offset of a window's TBL_OP. -/
def tblOpOff : TblWindow → Nat
  | .relay => 0x054
  | .perf => 0x04C
  | .collim => 0x044
  | _ => 0x048

/-- The table that a window selects; the record window has one. -/
def Dev.tblCode (s : Dev) : TblWindow → Nat
  | .sidereal => s.rd Reg.SIDEREAL_TBL_SEL_TABLE
  | .drone => s.rd Reg.DRONE_TBL_SEL_TABLE
  | .course => s.rd Reg.COURSE_TBL_SEL_TABLE
  | .parallax => s.rd Reg.PARALLAX_TBL_SEL_TABLE
  | .cipher => s.rd Reg.CIPHER_TBL_SEL_TABLE
  | .parse => s.rd Reg.PARSE_TBL_SEL_TABLE
  | .sched => s.rd Reg.SCHED_TBL_SEL_TABLE
  | .relay => s.rd Reg.RELAY_TBL_SEL_TABLE
  | .perf => s.rd Reg.PERF_TBL_SEL_TABLE
  | .collim => 0

/-- TBL_INDEX.INDEX of a window. -/
def tblIndex : TblWindow → Field
  | .sidereal => Reg.SIDEREAL_TBL_INDEX_INDEX
  | .drone => Reg.DRONE_TBL_INDEX_INDEX
  | .course => Reg.COURSE_TBL_INDEX_INDEX
  | .parallax => Reg.PARALLAX_TBL_INDEX_INDEX
  | .cipher => Reg.CIPHER_TBL_INDEX_INDEX
  | .parse => Reg.PARSE_TBL_INDEX_INDEX
  | .sched => Reg.SCHED_TBL_INDEX_INDEX
  | .relay => Reg.RELAY_TBL_INDEX_INDEX
  | .perf => Reg.PERF_TBL_INDEX_INDEX
  | .collim => Reg.COLLIM_TBL_INDEX_INDEX

/-- The bank that a window names: only the parse window has banks. -/
def Dev.tblBank (s : Dev) : TblWindow → Nat
  | .parse => s.rd Reg.PARSE_TBL_INDEX_BANK
  | _ => 0

/-- TBL_DATA of a window: its first cell and its words. -/
def tblData : TblWindow → Nat × Nat
  | .sidereal => (regCell 0x091 0x050, 8)
  | .drone => (regCell 0x0A1 0x050, 12)
  | .course => (regCell 0x240 0x050, 16)
  | .parallax => (regCell 0x280 0x050, 16)
  | .cipher => (regCell 0x291 0x050, 12)
  | .parse => (regCell 0x301 0x050, 36)
  | .sched => (regCell 0x341 0x050, 64)
  | .relay => (regCell 0x380 0x058, 1)
  | .perf => (regCell 0x030 0x050, 4)
  | .collim => (regCell 0x0B1 0x050, 8)

/-- An index advanced after an access, where AUTO_INC = 1 (R562). -/
def Dev.tblAdvance (w : TblWindow) (s : Dev) : Dev :=
  let f := tblIndex w
  if w ≠ .collim ∧ s.on ⟨f.cell, 31, 1⟩ then s.wr f (s.rd f + 1) else s

/-! ## Reading -/

/-- The remaining seconds of a pair's wait to restore, rounded up. -/
def Dev.wtrRemain (s : Dev) (p : Nat) : Nat :=
  match (s.pr p).wtr with
  | none => 0
  | some t => ceilDiv (s.rd (Reg.PAIR_WTR_S p) * 1000000000 - (s.clock - t)) 1000000000

/-- A word of a table entry as the window reads it: the words that show what other state holds, and the stored ones. -/
def Dev.entryWord (s : Dev) (t : TableSpec) (i w : Nat) : Word :=
  if t.id = tableCMD.id then 0
  else if t.id = tableLISTEN.id ∧ ¬ s.lineOn (i / 8 % 8) then 0
  else if t.id = tableCSTAT.id ∧ (w = 1 ∨ w = 2) then BitVec.ofNat 32 (s.txCounter i / 2 ^ (32 * (w - 1)))
  else if t.id = tablePSTAT.id ∧ w = 10 then BitVec.ofNat 32 (s.wtrRemain i)
  else if t.id = tableCRSCFG.id ∧ w = 1 then BitVec.ofNat 32 (s.quotas (s.courseFlows i))
  else if t.id = tableCRSCFG.id ∧ w = 2 then BitVec.ofNat 32 (streamCapacity (s.members i))
  else if t.id = tablePORTCFG.id ∧ w = 1 then BitVec.ofNat 32 (s.quotas (s.portFlows i) + s.rd (Reg.PORT_CFG_BE_MAX_PKT i))
  else if t.id = tableBEQ.id ∧ w = 1 then BitVec.ofNat 32 (ceilDiv (queueBytes (s.beq i)) 1024)
  else if t.id = tablePVALUE.id then BitVec.ofNat 32 (s.counter i / 2 ^ (32 * w) % 2 ^ (if w = 0 then 32 else 16))
  else s.word (tableCell t.id i w)

/-- The words of an entry; a chained counter is followed by its partner (R471). -/
def Dev.entryRead (s : Dev) (t : TableSpec) (i : Nat) : List Word :=
  let one (i : Nat) := (List.range t.words.length).map (s.entryWord t i)
  if t.id = tablePVALUE.id ∧ i % 2 = 0 ∧ s.on (Reg.CNT_CFG_CHAIN i) then one i ++ one (i + 1) else one i

/-- The entry that a window selects copied to TBL_DATA; a table or an index that does not exist reads as zeros (DESIGN CHOICE, log 42). -/
def Dev.tblRead (w : TblWindow) (s : Dev) : Dev :=
  let d := tblData w
  let i := s.rd (tblIndex w)
  match tableAt (tblPage w) (s.tblCode w) with
  | some t =>
    if i < t.count then s.setWords d.1 (s.entryRead t (bankIndex (if t.banked then s.tblBank w else 0) i))
    else s.setWords d.1 (List.replicate d.2 0)
  | none => s.setWords d.1 (List.replicate d.2 0)

/-! ## Writing -/

/-- A table write that its table's rules refuse: counted, with the event of the page that has one (R254, R277, R470). -/
def Dev.tblRefused (page : Nat) (s : Dev) : Dev :=
  let s := s.viol page
  match page with
  | 0x301 => s.raise 26 11
  | 0x341 => s.raise 27 8
  | 0x030 => s.raise 29 3
  | _ => s

/-- The bits of a word of an entry that its fields of some access codes hold. -/
def entryBits (t : TableSpec) (w : Nat) (acc : Access → Bool) : Word :=
  namedBits (((t.words[w]?).getD []).filter fun f => acc f.acc)

/-- Whether a write sets a bit of the entry that no field names. -/
def setsReserved (t : TableSpec) (ws : List Word) : Bool :=
  (List.range t.words.length).any fun w => (ws[w]?).getD 0 &&& ~~~ entryBits t w (fun _ => true) ≠ 0

/-- The RW fields of an entry written. -/
def Dev.entryPut (t : TableSpec) (i : Nat) (ws : List Word) (s : Dev) : Dev :=
  (List.range t.words.length).foldl (fun s w =>
    let c := tableCell t.id i w
    let m := entryBits t w fun a => a = .rw
    s.setWord c ((s.word c &&& ~~~ m) ||| ((ws[w]?).getD 0 &&& m))) s

/-- The RW fields of an entry written for a later boundary of the page; what waited for them before is replaced. -/
def Dev.entryLater (t : TableSpec) (i : Nat) (ws : List Word) (b : Boundary) (s : Dev) : Dev :=
  (List.range t.words.length).foldl (fun s w =>
    let c := tableCell t.id i w
    let m := entryBits t w fun a => a = .rw
    if m = 0 then s
    else { s with later := (s.later.filter fun (x : Later) => decide (x.cell ≠ c)) ++ [⟨t.page, c, m, (ws[w]?).getD 0 &&& m, b⟩] }) s

/-- Whether a write would change the shadow of an entry. -/
def Dev.shadowChanges (t : TableSpec) (i : Nat) (ws : List Word) (s : Dev) : Bool :=
  (List.range t.words.length).any fun w =>
    (sget resetWord s.shadow (tableCell t.id i w) ^^^ (ws[w]?).getD 0) &&& entryBits t w (fun a => a = .rwa) ≠ 0

/-- The RWA fields of an entry written to their shadow. -/
def Dev.entryShadow (t : TableSpec) (i : Nat) (ws : List Word) (s : Dev) : Dev :=
  (List.range t.words.length).foldl (fun s w =>
    let c := tableCell t.id i w
    let m := entryBits t w fun a => a = .rwa
    s.setShadow c ((sget resetWord s.shadow c &&& ~~~ m) ||| ((ws[w]?).getD 0 &&& m))) s

/-- Whether an epoch is later than CURRENT (R254). -/
def Dev.laterEpoch (s : Dev) (e : Nat) : Bool :=
  let d := (e + 65536 - s.rd Reg.EPOCH_STAT_CURRENT) % 65536
  decide (1 ≤ d) && decide (d ≤ 32767)

/-- Whether an EXACT or WILD entry may be written with some words (R254); `k` is the word that holds PROFILE, VALID and DEATH_EN. -/
def Dev.ruleWriteOk (s : Dev) (t : TableSpec) (k i : Nat) (ws : List Word) : Bool :=
  let old (w : Nat) := s.word (tableCell t.id i w)
  let new (w : Nat) := (ws[w]?).getD 0 &&& entryBits t w (fun _ => true)
  if s.parse.epochs.any fun e => visible (old k) (old (k + 1)) e.num then
    (List.range t.words.length).all (fun w =>
      let m : Word := if w = k then ~~~ bitMask 9 1 else if w = k + 1 then ~~~ bitMask 16 16 else ~~~ 0
      (old w ^^^ new w) &&& m = 0) &&
    (decide (getBits (new k) 9 1 = 0) || s.laterEpoch (getBits (new (k + 1)) 16 16))
  else decide (getBits (new k) 8 1 = 0) || s.laterEpoch (getBits (new (k + 1)) 0 16)

/-- A result word names a KIND of Table 8.4. -/
def kindOk (w : Word) : Bool :=
  decide (getBits w 16 2 ≠ 3)

/-- An edit operation of Table 8.5; the bytes of a SET lie in the immediate. -/
def editOpOk (w : Word) : Bool :=
  decide (getBits w 0 4 ≤ 4) && (decide (getBits w 0 4 ≠ 1) || decide (getBits w 21 5 + getBits w 16 5 + 1 ≤ 32))

/-- Whether a parse table's rules let an entry be written (R238, R248, R249, R254). -/
def Dev.parseWriteOk (s : Dev) (t : TableSpec) (bank i : Nat) (ws : List Word) : Bool :=
  let w (k : Nat) : Word := (ws[k]?).getD 0
  if t.id = tableEXACT.id then s.ruleWriteOk t 10 i ws && kindOk (w 12)
  else if t.id = tableWILD.id then s.ruleWriteOk t 32 i ws && kindOk (w 34)
  else if t.id = tableEDIT.id then !s.bankLive bank && (List.range 8).all fun k => editOpOk (w k)
  else if t.id = tablePORTDEFAULT.id then !s.bankLive bank && kindOk (w 0)
  else if t.id = tablePRECLASS.id then !(decide (i / 4096 % 2 = 1) && decide (s.portLanes (8 * (i / 8192)) = 8))
  else !s.bankLive bank

/-- Whether a SCHED table's rules let an entry be written: BE_MAX_PKT is not raised beyond R263 and cause 5 (R277). -/
def Dev.schedWriteOk (s : Dev) (t : TableSpec) (i : Nat) (ws : List Word) : Bool :=
  let new := getBits ((ws[0]?).getD 0) 0 14
  if t.id = tableCRSCFG.id then
    decide (new ≤ s.rd (Reg.CRS_CFG_BE_MAX_PKT i)) || !(s.on (Reg.MAP_EN i) || s.remoteTx i) ||
      decide (s.quotas (s.courseFlows i) + new ≤ streamCapacity (s.members i))
  else if t.id = tablePORTCFG.id then
    decide (new ≤ s.rd (Reg.PORT_CFG_BE_MAX_PKT i)) || !s.portExists i ||
      decide (s.quotas (s.portFlows i) + new ≤ s.portRate i * 16 / 100000000)
  else decide (t.id ≠ tableFLOW.id)

/-- A counter written through the VALUE table; an increment of the same cycle is discarded and counted as a collision (R469, R471). -/
def Dev.valuePut (i : Nat) (ws : List Word) (collided : Bool) (s : Dev) : Dev :=
  let v := ((ws[0]?).getD 0).toNat + 2 ^ 32 * getBits ((ws[1]?).getD 0) 0 16
  let s := { s with perf := { s.perf with values := sset (dflt 0) s.perf.values i v } }
  if collided ∧ ¬ s.on Reg.PERF_CTRL_FREEZE then (s.bump Reg.COLLISIONS).raise 29 2 else s

/-- A table entry written under its table's rules; none where they refuse it. -/
def Dev.entryWrite (t : TableSpec) (bank i : Nat) (ws : List Word) (collided : Bool) (s : Dev) : Option Dev :=
  let j := bankIndex (if t.banked then bank else 0) i
  if t.count ≤ i then none
  else if t.id = tableCMD.id then some (s.pairCommand i (getBits ((ws[0]?).getD 0) 0 4))
  else if t.words.any fun fs => fs.any fun f => f.acc = .rwa then
    if (s.hdr t.page).cstate = .opened then some (s.entryShadow t j ws)
    else if s.shadowChanges t j ws then none else some s
  else if t.page = 0x301 then (if s.parseWriteOk t bank i ws then some (s.entryPut t j ws) else none)
  else if t.page = 0x341 then (if s.schedWriteOk t i ws then some (s.entryLater t i ws .courseFrame) else none)
  else if t.id = tablePVALUE.id then some (s.valuePut i ws collided)
  else if t.id = tableNBREXP.id then some ((s.entryPut t i ws).settleExpected i)
  else if t.words.any fun fs => fs.any fun f => f.acc = .rw then some (s.entryPut t i ws)
  else none

/-- A write of one entry of a page's table, with what a set reserved bit adds (R562): whether it was refused, and the device after it. -/
def Dev.tblPut (page code bank i : Nat) (ws : List Word) (collided : Bool) (s : Dev) : Bool × Dev :=
  match tableAt page code with
  | none => (true, s.tblRefused page)
  | some t =>
    match s.entryWrite t bank i ws collided with
    | none => (true, s.tblRefused page)
    | some d => (false, if setsReserved t ws ∧ (d.hdr page).viol = (s.hdr page).viol then d.viol page else d)

/-- TBL_DATA copied to the entry that a window selects; a covered table's write is journalled (R443). -/
def Dev.tblWrite (w : TblWindow) (collided : Bool) (master : Nat) (s : Dev) : Dev :=
  let d := tblData w
  let page := tblPage w
  let code := s.tblCode w
  let r := s.tblPut page code (s.tblBank w) (s.rd (tblIndex w)) (s.words d.1 d.2) collided
  if !r.1 && (coveredTables page).any fun t => t.code = code then r.2.journal page master 2 else r.2

/-- A write of a window's TBL_OP (R562). The index advances after every access, also after one that is refused. -/
def Dev.tblOp (w : TblWindow) (v : Word) (collided : Bool) (master : Nat) (s : Dev) : Dev :=
  let page := tblPage w
  let read := v.getLsbD 0
  let write := v.getLsbD 1 && decide (w ≠ .collim)
  let d := s.hostWrite page (tblOpOff w) (if w = .collim then 1#32 else 3#32) v fun s =>
    if read && write then s.viol page
    else if read then s.tblRead w
    else if write then s.tblWrite w collided master
    else s
  if (read || write) && s.pageLive page then d.tblAdvance w else d

/-- TBL_OP_READ: a write of TBL_OP with READ set. -/
def execTblOpRead (w : TblWindow) (v : Word) (s : State) : Out :=
  s.run fun s => s.tblOp w (v ||| 1#32) false s.masterCode

/-- TBL_OP_WRITE: a write of TBL_OP with WRITE set. `collided`: an increment of the counter written falls in the same cycle (R469). -/
def execTblOpWrite (w : TblWindow) (v : Word) (collided : Bool) (s : State) : Out :=
  s.run fun s => s.tblOp w (v ||| 2#32) collided s.masterCode

/-! ## Bulk load (R254) -/

/-- The page of the parse tables. -/
abbrev parseTablePage : Nat := 0x301

/-- A write of LOAD_CTRL. A GO while a load runs is ignored and counted. -/
def Dev.loadCtrl (v : Word) (s : Dev) : Dev :=
  s.hostWrite parseTablePage 0x0E8 0x10#32 v fun s =>
    if !v.getLsbD 4 then s
    else if s.on Reg.LOAD_CTRL_BUSY then s.viol parseTablePage
    else
      let l : BulkLoad := ⟨s.rd Reg.LOAD_CTRL_TABLE, s.rd Reg.LOAD_CTRL_BANK, s.rd Reg.LOAD_ADDR_OFFSET, s.rd Reg.LOAD_COUNT, 0, s.masterCode⟩
      ({ s with parse := { s.parse with load := some l } }.wr Reg.LOAD_CTRL_BUSY 1).wr Reg.LOAD_CTRL_ERR 0 |>.wr Reg.LOAD_DONE_RECORDS 0

/-- BULK_LOAD_GO. -/
def execBulkLoadGo (v : Word) (s : State) : Out :=
  s.run (Dev.loadCtrl (v ||| 0x10#32))

/-- A record of a bulk load applied; a refused one stops the load. -/
def Dev.loadRecord (l : BulkLoad) (record : List Byte) (s : Dev) : Dev :=
  let ws := (List.range 36).map fun k => BitVec.ofNat 32 (fieldLE record (4 + 4 * k) 4)
  let r := s.tblPut parseTablePage l.table l.bank (fieldLE record 0 4 % 2 ^ 20) ws false
  if r.1 then r.2.wr Reg.LOAD_CTRL_ERR 1
  else { r.2 with parse := { r.2.parse with load := some { l with done := l.done + 1 } } }.wr Reg.LOAD_DONE_RECORDS (l.done + 1)

/-- BULK_LOAD_RECORD: the next record of the load under way; a record outside the home region of the window is refused (log 42). -/
def execBulkLoadRecord (s : State) : Out :=
  match s.dev.parse.load with
  | none => .next s
  | some l =>
    if s.dev.on Reg.LOAD_CTRL_ERR ∨ l.count ≤ l.done then .next s
    else
      let off := l.src + 160 * l.done
      if inWindow off 160 then .next (s.become (s.dev.loadRecord l (s.bytes (winAddr off) 160)))
      else .next (s.become ((s.dev.tblRefused parseTablePage).wr Reg.LOAD_CTRL_ERR 1))

/-- The end of the load under way: complete, or stopped at a refused record; its one journal entry (R443). -/
def Dev.loadEnd (l : BulkLoad) (s : Dev) : Dev :=
  if s.on Reg.LOAD_CTRL_ERR ∨ l.count ≤ l.done then
    let s := { s with parse := { s.parse with load := none } }.wr Reg.LOAD_CTRL_BUSY 0
    let s := if s.on Reg.LOAD_CTRL_ERR then s.raise 26 13 else s.raise 26 12
    s.journal parseTablePage l.master 3
  else s

/-- BULK_LOAD_COMPLETE. -/
def execBulkLoadComplete (s : State) : Out :=
  s.run fun s =>
    match s.parse.load with
    | none => s
    | some l => s.loadEnd l

end Sys2Proof.Machine
end

