-- ==== Sys2Proof/Machine/BusWrite.lean ====
section
/-!
DEFINITION. A write of any register word by page and offset (R9, R10, R20, R424, R425): each register whose write has an effect of its own is sent to that
effect, and every other is written by its access codes. With it the records of a configuration bundle (R527) and the end of an in-service self-test,
where held writes act (R504, Table 18.4).
-/
namespace Sys2Proof.Machine

/-- A write with no effect beside its fields. -/
abbrev Dev.plainWrite (page off : Nat) (v : Word) (s : Dev) : Dev :=
  s.hostWrite page off 0 v id

/-- A write of an RW or RWA register that is ignored and counted in its page. -/
def Dev.deniedWrite (page off : Nat) (s : Dev) : Dev :=
  s.onWrite page off (Dev.viol page)

/-- A value that the specification leaves open, as a truth value. -/
abbrev Dev.freeBit (s : Dev) : Bool := decide (s.free % 2 = 1)

/-! ## The line engines -/

/-- A write of TX_CTRL (R60, R61, R65); TWIN is reserved on odd engines (Table 2.10). -/
def Dev.txCtrlWrite (n : Nat) (v : Word) (s : Dev) : Dev :=
  let odd : Bool := decide (n % 2 = 1)
  s.hostWrite (linePage n 0) 0x040 (if odd then 3#32 else 1#32) v fun s =>
    let s := if odd && v.getLsbD 1 then s.viol (linePage n 0) else s
    if v.getLsbD 0 then s.txEnable n else s.txDisable n

/-- A transmit register that the odd engine of a twin pair takes from the even one: its copies cannot be written (R65). -/
def Dev.txFollows (s : Dev) (n k off : Nat) : Bool :=
  decide (n % 2 = 1) && s.txTwin n &&
    ((decide (k = 1) && (decide (off = 0x040) || decide (off = 0x044))) || (decide (k = 2) && decide (off = 0x040)) ||
      (decide (k = 3) && decide (off = 0x040)))

/-- The same on receive (R118). -/
def Dev.rxFollows (s : Dev) (n k off : Nat) : Bool :=
  decide (n % 2 = 1) && s.rxTwin n &&
    ((decide (k = 8) && (decide (off = 0x044) || decide (off = 0x048))) || (decide (k = 0x0B) && decide (off = 0x040)))

/-- A write in page +k of line engine n, transmit half and front-end pages. -/
def Dev.txPageWrite (n k off : Nat) (v : Word) (s : Dev) : Dev :=
  let page := linePage n k
  match k, off with
  | 0, 0x040 => s.txCtrlWrite n v
  | 0, 0x048 => s.onHeldWrite page off (.txFaultClear n v) (Dev.txFaultClear n v)
  | 2, 0x040 => s.onHeldWrite page off (.word page off v) (Dev.txRampWrite n v)
  | 4, 0x05C => s.onHeldWrite page off (.word page off v) (Dev.pdWrite n v)
  | 5, 0x048 => s.txClipThr n v
  | _, _ => s.plainWrite page off v

/-- A write of RX_CTRL (R75, R125). -/
def Dev.rxCtrlWrite (n : Nat) (v : Word) (s : Dev) : Dev :=
  s.hostWrite (linePage n 8) 0x040 1#32 v fun s => if v.getLsbD 0 then s.rxEnable n else s.rxDisable n

/-- A write in page +k of line engine n, receive half. -/
def Dev.rxPageWrite (n k off : Nat) (v : Word) (s : Dev) : Dev :=
  let page := linePage n k
  match k, off with
  | 0x08, 0x040 => s.rxCtrlWrite n v
  | 0x09, 0x054 => s.rxOvrThr n v
  | 0x0E, 0x040 => s.rxCapCtrl n v
  | 0x0F, 0x054 => s.capTrig v
  | 0x10, 0x040 => s.eqCtrl n v
  | 0x11, 0x040 => s.tapSnap n v
  | 0x12, 0x050 => s.crSlipThr n v
  | 0x14, 0x040 => s.acqCtrl n v
  | 0x19, 0x048 => s.alignTime n v
  | 0x1A, 0x040 => s.fecSnap n v
  | _, _ => s.plainWrite page off v

/-- A write in a page of LINEn. -/
def Dev.lineWrite (n k off : Nat) (v : Word) (s : Dev) : Dev :=
  if s.txFollows n k off ∨ s.rxFollows n k off then s.deniedWrite (linePage n k) off
  else if k < 8 then s.txPageWrite n k off v
  else s.rxPageWrite n k off v

/-- A write in the FRAME page of engine n: CLEAR of FR_ALIGN_TIME zeroes the counters (Table 6.8). -/
def Dev.framePageWrite (n off : Nat) (v : Word) (s : Dev) : Dev :=
  if off = 0x060 then
    s.hostWrite (framePage n) off 0x80000000#32 v fun s =>
      if v.getLsbD 31 then [0x050, 0x054, 0x058, 0x05C].foldl (fun s o => s.setWord (regCell (framePage n) o) 0) s else s
  else s.plainWrite (framePage n) off v

/-! ## Serial lanes -/

/-- A write of LANE_CTRL of lane x: LP, then LB (R389, R390). -/
def Dev.laneCtrl (x : Nat) (v : Word) (s : Dev) : Dev :=
  s.onHeldWrite (lanePage x) (laneOff x) (.word (lanePage x) (laneOff x) v) fun s =>
    let s := if v.getLsbD 0 then s.lpEnter x else s.lpExit x
    let s := s.setLoopback x (getBits v 1 2)
    if v &&& 0xFFFFFFF8#32 ≠ 0 then s.viol (lanePage x) else s

/-- A write at offset `o` of lane x's block. -/
def Dev.laneBlockWrite (x o : Nat) (v : Word) (s : Dev) : Dev :=
  match o with
  | 0 => s.laneCtrl x v
  | 4 => s.onHeldWrite (lanePage x) (laneOff x + 4) (.word (lanePage x) (laneOff x + 4) v) (Dev.txeqWrite x v)
  | _ => s.plainWrite (lanePage x) (laneOff x + o) v

/-- A write in the CLIENT page of lane l. PORT_CTRL.EN lets the port's queues run again (R19); OCT_CFG is reserved except on lanes 8g (R257). -/
def Dev.clientPageWrite (l off : Nat) (v : Word) (s : Dev) : Dev :=
  let page := 0x2C0 + l
  if s.portHidden page off then s.deniedWrite page off
  else match off with
  | 0x040 => if l % 8 = 0 then s.plainWrite page off v else s.deniedWrite page off
  | 0x044 =>
    s.hostWrite page off 0 v fun s =>
      let s := if v.getLsbD 0 ∧ s.portExists l then (List.range (s.portLanes l)).foldl (fun s i => s.queuesOn (l + i)) s else s
      if s.portExists l then s.settlePort l else s
  | 0x04C => s.cntSnap page v
  | _ => if 0x200 ≤ off ∧ off < 0x240 then s.laneBlockWrite l (off - 0x200) v else s.plainWrite page off v

/-- A write in the page of relay port p. -/
def Dev.relayPortWrite (p off : Nat) (v : Word) (s : Dev) : Dev :=
  if 0x080 ≤ off ∧ off < 0x180 then s.laneBlockWrite (64 + 4 * p + (off - 0x080) / 0x40) ((off - 0x080) % 0x40) v
  else s.plainWrite (0x381 + p) off v

/-- A write in a PRBS page. -/
def Dev.prbsPageWrite (g off : Nat) (v : Word) (s : Dev) : Dev :=
  if 0x040 ≤ off ∧ off < 0x240 ∧ off % 0x40 = 0 then s.prbsCtrl (8 * g + (off - 0x040) / 0x40) 0 v
  else s.plainWrite (0x390 + g) off v

/-! ## The other blocks -/

/-- A write of TBL_OP of the window that stands there, where one does. -/
def tblAt (page off : Nat) : Option TblWindow :=
  [TblWindow.sidereal, .drone, .course, .parallax, .cipher, .parse, .sched, .relay, .perf, .collim].find? fun w =>
    decide (tblPage w = page) && decide (tblOpOff w = off)

/-- A write of REQ_CTRL: EN cannot be set while the request engine is out of service (Table 18.3). -/
def Dev.reqCtrl (v : Word) (s : Dev) : Dev :=
  if v.getLsbD 0 && s.blockOut 61 then s.deniedWrite reqPage 0x040 else s.plainWrite reqPage 0x040 v

/-- A write in a CIPHER page (Tables 10.6 to 10.8): KEY_DATA goes to the staged words; REQ_BASE and REQ_SIZE are refused while EN = 1. -/
def Dev.cipherWrite (page off : Nat) (v : Word) (s : Dev) : Dev :=
  match page, off with
  | 0x290, 0x060 => s.keyCtrl v
  | 0x291, 0x080 => s.rekeyWrite v
  | 0x292, 0x040 => s.reqCtrl v
  | 0x292, 0x044 => if s.on Reg.REQ_CTRL_EN then s.deniedWrite page off else s.plainWrite page off v
  | 0x292, 0x048 => if s.on Reg.REQ_CTRL_EN then s.deniedWrite page off else s.plainWrite page off v
  | _, _ =>
    if page = 0x290 ∧ 0x040 ≤ off ∧ off < 0x060 then
      s.hostWrite page off 0 v fun s => { s with staged := sset (dflt 0) s.staged ((off - 0x040) / 4) v }
    else s.plainWrite page off v

/-- A write in the page of Drone transmitter n: DR_TX_BUF cannot be written while BUSY = 1 (Table 11.13). -/
def Dev.droneTxWrite (n off : Nat) (v : Word) (s : Dev) : Dev :=
  if off = 0x048 then s.droneTxCtrl n v
  else if 0x800 ≤ off ∧ s.on (Reg.DR_TX_STAT_BUSY n) then s.deniedWrite (droneTxPage n) off
  else s.plainWrite (droneTxPage n) off v

/-- Whether an offset of page 0x001 is one that the head alone has (R450). -/
def almHeadOnly (off : Nat) : Bool :=
  decide (off = 0x0E0) || (decide (0x124 ≤ off) && decide (off < 0x164)) || decide (off = 0x280)

/-- A write in the ALMANAC page (R445, R446, R450). -/
def Dev.almWrite (off : Nat) (v : Word) (s : Dev) : Dev :=
  if off = 0x0E0 then s.collectWrite v
  else if almHeadOnly off && !s.on Reg.STRAPS_CHAIN_HEAD then s.deniedWrite almPage off
  else s.hostWrite almPage off 0 v Dev.settleMatch

/-- A write of BE_CAP: a CAP_LIMIT above 1,600 is taken as 1,600 and counted (Table 1.13). -/
def Dev.beCapWrite (v : Word) (s : Dev) : Dev :=
  if 1600 < getBits v 16 16 then
    s.hostWrite shedPage 0x054 0 ((v &&& 0xFFFF#32) ||| 0x06400000#32) (Dev.viol shedPage)
  else s.plainWrite shedPage 0x054 v

/-- A write of TEST_ADDR: one that names a word beyond the scratch area is refused and counted, with E-05.06 (R500; that its reserved bits name such a word
DEDUCED, log 198). -/
def Dev.testAddrWrite (v : Word) (s : Dev) : Dev :=
  if 8192 ≤ v.toNat then s.onWrite testPage 0x044 fun s => (s.viol testPage).raise 5 6
  else s.plainWrite testPage 0x044 v

/-- A write in a BIST page; a reserved block named is ignored and counted (R511, R513). -/
def Dev.bistWrite (page off : Nat) (v : Word) (s : Dev) : Dev :=
  match page, off with
  | 0x070, 0x040 => s.bistCtrl v
  | 0x070, 0x050 => if v &&& 0xFFFFF000#32 ≠ 0 then s.deniedWrite page off else s.plainWrite page off v
  | 0x070, 0x054 => s.onWrite page off (Dev.bistOff 0 v)
  | 0x070, 0x058 => s.onWrite page off (Dev.bistOff 1 v)
  | 0x070, 0x05C => s.onWrite page off (Dev.bistOff 2 v)
  | 0x071, 0x040 => if 76 ≤ getBits v 0 7 then s.deniedWrite page off else s.plainWrite page off v
  | 0x072, 0x040 => s.dirCtrl v
  | _, _ =>
    if page = 0x072 ∧ ¬ s.directOpen then s.onWrite page off Dev.directRefused else s.plainWrite page off v

/-- A write in a SEC page (R515 to R531). `mem` reads HBM. Whether a certificate chain verifies is a free value here (log 3). -/
def Dev.secWrite (mem : Nat → Nat → List Byte) (page off : Nat) (v : Word) (s : Dev) : Dev :=
  match page, off with
  | 0x060, 0x048 => s.arbCmd v
  | 0x060, 0x04C => s.fwInstall mem v
  | 0x061, 0x040 => s.attCtrl v
  | 0x061, 0x068 => s.tick.certCtrl mem v s.freeBit
  | 0x061, 0x074 => s.bundleCtrl mem v
  | 0x062, 0x040 => s.feCtrl v
  | _, _ =>
    if page = 0x060 ∧ 0x098 ≤ off ∧ off < 0x0D8 ∧ lcOwned ≤ s.vault.burned then s.onWrite page off id
    else s.plainWrite page off v

/-- The write of LCAL_SYS, with a step's means as free values (log 3). -/
def Dev.lcalSysWrite (v : Word) (s : Dev) : Dev :=
  let x (k : Nat) : Int := (Config.freeNat (s.fresh + 2 * k) : Int) - Config.freeNat (s.fresh + 2 * k + 1)
  ({ s with fresh := s.fresh + 10 } : Dev).lcalSys v [x 0, x 1, x 2, x 3] (x 4)

/-- A write in a page of Sidereal, Collimation, the housekeeping converters or memory integrity. -/
def Dev.analogWrite (mem : Nat → Nat → List Byte) (page off : Nat) (v : Word) (s : Dev) : Dev :=
  match page, off with
  | 0x090, 0x070 => s.refCmd v
  | 0x092, 0x048 => s.timeCmd v
  | 0x093, 0x040 => s.calCtrl v
  | 0x0B0, 0x044 => s.colStoreWrite v
  | 0x0B2, 0x080 => s.lcalSysWrite v
  | 0x0B8, 0x040 => s.hkCtrl v
  | 0x081, 0x040 => s.scrubCtrl v
  | 0x082, 0x040 => s.testCtrl mem v
  | 0x082, 0x044 => s.testAddrWrite v
  | 0x083, 0x040 => s.pprCtrl v
  | _, _ =>
    if page = 0x0B2 ∧ 0x040 ≤ off ∧ off < 0x060 then s.lcalCtrl ((off - 0x040) / 4) v
    else s.plainWrite page off v

/-- A write in a page of the host block, the events or the counters. -/
def Dev.hostPageWrite (page off : Nat) (v : Word) (s : Dev) : Dev :=
  match page, off with
  | 0x020, 0x04C => s.evForce v
  | 0x030, 0x040 => s.perfCtrl v
  | 0x041, 0x048 => s.commitAllWrite v
  | 0x043, 0x2C4 => s.qPush v
  | _, _ =>
    if page = 0x043 ∧ 0x0C0 ≤ off ∧ off < 0x140 then s.qCtlWrite ((off - 0x0C0) / 4) v
    else if page = 0x021 ∧ 0x040 ≤ off ∧ off < 0x240 then s.onWrite page off (Dev.grpWrite off v)
    else s.plainWrite page off v

/-- A write of DR_CTRL: with RX_EN = 0 no finger runs, and those that worked are abandoned (R316; DEDUCED, log 224). -/
def Dev.drCtrl (v : Word) (s : Dev) : Dev :=
  let d := s.plainWrite dronePage 0x040 v
  if d.on Reg.DR_CTRL_RX_EN then d else (List.range 16).foldl (fun d path => d.abandonPath path) d

/-- A write in any other page. -/
def Dev.restWrite (page off : Nat) (v : Word) (s : Dev) : Dev :=
  match page, off with
  | 0x000, 0x04C => s.lcCmd v
  | 0x002, 0x040 => s.pwrCtrl v
  | 0x00E, 0x3B0 => s.hwmClear v
  | 0x00F, 0x04C => s.reqHost v
  | 0x00F, 0x054 => s.beCapWrite v
  | 0x010, 0x048 => s.thermCtrl v
  | 0x0A0, 0x040 => s.drCtrl v
  | 0x0A2, 0x040 => s.cntSnap page v
  | 0x301, 0x0E8 => s.loadCtrl v
  | 0x302, 0x040 => s.cntSnap page v
  | 0x303, 0x040 => s.ucodeCtrl v
  | 0x340, 0x040 => s.admCtrl v
  | 0x342, 0x040 => s.cntSnap page v
  | 0x380, 0x044 => s.chainCtrl v
  | _, _ => s.plainWrite page off v

/-- A write of a block register: the pages below 0x100. -/
def Dev.lowWrite (mem : Nat → Nat → List Byte) (page off : Nat) (v : Word) (s : Dev) : Dev :=
  if page = 0x001 then s.almWrite off v
  else if 0x020 ≤ page ∧ page < 0x060 then s.hostPageWrite page off v
  else if 0x060 ≤ page ∧ page < 0x070 then s.secWrite mem page off v
  else if 0x070 ≤ page ∧ page < 0x080 then s.bistWrite page off v
  else if 0x0A8 ≤ page ∧ page < 0x0B0 then s.droneTxWrite (page - 0x0A8) off v
  else if 0x080 ≤ page ∧ page < 0x0A0 ∨ 0x0B0 ≤ page then s.analogWrite mem page off v
  else s.restWrite page off v

/-- A write of a block register: the pages from 0x100. -/
def Dev.highWrite (page off : Nat) (v : Word) (s : Dev) : Dev :=
  if page < 0x200 then s.lineWrite ((page - 0x100) / 32) ((page - 0x100) % 32) off v
  else if page < 0x240 ∧ page % 8 = 0 then s.framePageWrite ((page - 0x200) / 8) off v
  else if 0x290 ≤ page ∧ page < 0x293 then s.cipherWrite page off v
  else if 0x2C0 ≤ page ∧ page < 0x300 then s.clientPageWrite (page - 0x2C0) off v
  else if 0x381 ≤ page ∧ page < 0x385 then s.relayPortWrite (page - 0x381) off v
  else if 0x390 ≤ page ∧ page < 0x39A then s.prbsPageWrite (page - 0x390) off v
  else if 0x400 ≤ page then s.onWrite page off (Dev.viol page)
  else s.restWrite page off v

/-- A write of a block register. -/
def Dev.blockWrite (mem : Nat → Nat → List Byte) (page off : Nat) (v : Word) (s : Dev) : Dev :=
  match tblAt page off with
  | some w => s.tblOp w v false s.masterCode
  | none => if page < 0x100 then s.lowWrite mem page off v else s.highWrite page off v

/-- A write of the word at a byte offset of a page: the page header's registers, or a block register (R424). -/
def Dev.busWrite (mem : Nat → Nat → List Byte) (page off : Nat) (v : Word) (s : Dev) : Dev :=
  if off < 0x040 then s.hostHeader page off v
  else (s.blockWrite mem page off v).oneViol page (s.hdr page).viol

/-- REGISTER_WRITE (R20): a write of the word that holds byte offset `off` of a page. -/
def execRegisterWrite (page off : BitVec 12) (v : Word) (s : State) : Out :=
  s.run (Dev.busWrite s.bytes page.toNat (off.toNat / 4 * 4) v)

/-! ## Bundle records (R527) -/

/-- The record's write made by the bundle loader (log 45). -/
def Dev.recordWrite (mem : Nat → Nat → List Byte) (r : List Byte) (s : Dev) : Dev :=
  ({ s with accessor := .loader } : Dev).busWrite mem (fieldLE r 2 2 % 4096) (fieldLE r 4 2 % 4096 / 4 * 4) (BitVec.ofNat 32 (fieldLE r 8 4))

/-- The bundle's next record applied: one that is refused stops the bundle. -/
def Dev.bundleRecord (mem : Nat → Nat → List Byte) (s : Dev) : Dev :=
  match s.vault.apply with
  | none => s
  | some b =>
    match b.records[b.next]? with
    | none => s
    | some r =>
      let d := s.recordWrite mem r
      if d.refused then d.bundleStop b.next
      else { d with vault := { d.vault with apply := some { b with next := b.next + 1 } } }

/-- BUNDLE_RECORD (R527). -/
def execBundleRecord (s : State) : Out :=
  s.run fun d => if d.hubOn then d.bundleRecord s.bytes else d

/-! ## The end of an in-service self-test (R504) -/

/-- A held write acts (Table 18.4). -/
def Dev.heldActs (mem : Nat → Nat → List Byte) (h : HeldWrite) (s : Dev) : Dev :=
  match h with
  | .txEnable n => s.txEnable n
  | .txDisable n => s.txDisable n
  | .txFaultClear n v => s.txFaultClear n v
  | .rxEnable n => s.rxEnable n
  | .rxDisable n => s.rxDisable n
  | .word page off v => s.busWrite mem page off v

/-- A block's logic re-initialised to its reset state: an equaliser starts from its initial taps. -/
def Dev.blockRestart (b : Nat) (s : Dev) : Dev :=
  if 16 ≤ b ∧ b < 24 then s.resetTaps (b - 16) else s

/-- The run ends: its blocks restart, and what they held acts, in order. -/
def Dev.bistEnds (mem : Nat → Nat → List Byte) (s : Dev) : Dev :=
  let held := s.bist.held
  let d := s.bist.run.foldl (fun (d : Dev) b => d.blockRestart b) s
  let d : Dev := { d.wr Reg.BIST_STAT_BUSY 0 with bist := { d.bist with run := [], isolated := false, held := [], shown := [] }, accessor := .held }
  held.foldl (fun (d : Dev) h => d.heldActs mem h) d

/-- BIST_RUN_END: the last of the blocks has finished (R504, R509). -/
def execBistRunEnd (s : State) : Out :=
  s.run fun d =>
    if d.bist.run ≠ [] ∧ d.bist.run.all fun b => decide ((d.block b).result ≠ resRunning) then d.bistEnds s.bytes else d

end Sys2Proof.Machine
end

