-- ==== Sys2Proof/Machine/BusRead.lean ====
section
/-!
DEFINITION. What a read of a register word returns (R424, R425, R451): the page headers, the registers whose value is formed at the read, and the stored
ones. No row of the command table is a plain read: the reads that change the state have rows of their own, and `Dev.busRead` is the observation that
statements speak of.
-/
namespace Sys2Proof.Machine

/-- The code of a commit state (Table 15.2). -/
def CState.code : CState → Nat
  | .opened => 0
  | .armed => 1
  | .pendingCommit => 2

/-- PAGE_CAPS of a page (Table 15.2). -/
def pageCaps (page : Nat) : Word :=
  BitVec.ofNat 32 (ofBool (pageShadow page) + 2 * ofBool (pageGroup page).isSome + 4 * ofBool (decide (coveredTables page ≠ [])) +
    256 * (pageGroup page).getD 0)

/-- The event registers as the header of a page shows them. -/
def Dev.pageEvents (s : Dev) (page : Nat) : EvGroup :=
  match pageGroup page with
  | some g => s.ev.group g
  | none => EvGroup.reset

/-- A header register (Table 15.2). A raw pulse lasts no longer than the command that makes it: EV_RAW reads 0. -/
def Dev.headerRead (s : Dev) (page off : Nat) : Word :=
  let h := s.hdr page
  match off with
  | 0x000 => pageId page
  | 0x004 => pageCaps page
  | 0x00C => BitVec.ofNat 32 (h.cstate.code + 4 * ofBool h.lastRefused + 8 * ofBool (decide (s.diff page ≠ [])))
  | 0x014 => (s.pageEvents page).en
  | 0x018 => (s.pageEvents page).latch
  | 0x01C => (s.pageEvents page).route
  | 0x020 => if h.cstate = .armed then 1 else 0
  | 0x024 => BitVec.ofNat 32 h.epoch
  | 0x028 => BitVec.ofNat 32 h.viol
  | _ => 0

/-- The bits that a read of a register shows: those of fields that are not WO (Table 0.4). -/
def readBits (fs : List FieldSpec) : Word :=
  namedBits (fs.filter fun f => decide (f.acc ≠ .wo))

/-- A register's stored word. -/
def Dev.storedRead (s : Dev) (page off : Nat) : Word :=
  match regAt page off with
  | none => 0
  | some (_, _, r) => s.word (regCell page off) &&& readBits r.fields

/-- A stored word with a field at another value. -/
def Dev.shownAs (s : Dev) (f : Field) (v : Nat) (page off : Nat) : Word :=
  setBits (s.storedRead page off) f.lsb f.width v

/-! ## Line pages -/

/-- DEMAP_STAT while the engine is LOCKED (R140, Table 5.11); 0 otherwise (DEDUCED, log 154). -/
def Dev.demapStat (s : Dev) (n : Nat) : Word :=
  if s.acq n = acqLocked then s.storedRead (linePage n 0x1C) 0x044 else 0

/-- CR_LINEWIDTH while the engine is LOCKED: a free value (log 3); 0 otherwise (DEDUCED, log 154). -/
def Dev.linewidth (s : Dev) (n : Nat) : Word :=
  if s.acq n = acqLocked then BitVec.ofNat 32 (Config.freeOf 95 [n, s.fresh] % 65536) else 0

/-- A register of page +k of LINEn. The odd engine of a twin pair shows the even engine's values (R65, R118); what a tracking loop measures is formed at the
read (R85, R88, R104, R114, R115, R119). Both group delays show their reset value, 0, until D_head has been fixed once (DEDUCED, log 21). -/
def Dev.lineRead (s : Dev) (n k off : Nat) : Word :=
  let page := linePage n k
  let lead (b : Bool) : Nat := if b then linePage (n - 1) k else page
  match k, off with
  | 0x00, 0x040 =>
    if s.txFollows n 1 0x040 then setBits (s.storedRead page off) 0 1 (s.rd (Reg.TX_CTRL_ENABLE (n - 1))) else s.storedRead page off
  | 0x00, 0x044 => s.shownAs (Reg.TX_STATE_LEVEL n) (s.txLevel n) page off
  | 0x02, 0x044 => s.shownAs (Reg.TX_RAMP_STAT_REMAIN_MS n) (s.txRemain n) page off
  | 0x04, 0x05C => BitVec.ofNat 32 (sget (dflt 0) (s.txe n).pdShadow (s.rd (Reg.TX_PD_ADDR_INDEX n)))
  | 0x08, 0x050 => s.shownAs (Reg.RX_SAMP_STAT_CAL_VALID n) (s.rd (Reg.LCAL_STAT_ADC_VALID n)) page off
  | 0x0B, 0x044 => s.shownAs (Reg.RX_RESAMP_STAT_FREQ n) (unsign 16 (s.clockOffset n)) page off
  | 0x0D, 0x040 => if s.rd (Reg.RX_CD_HEAD_HEAD n) = 0 then 0 else BitVec.ofNat 32 (s.gdStatic n)
  | 0x0D, 0x044 => if s.rd (Reg.RX_CD_HEAD_HEAD n) = 0 then 0 else BitVec.ofNat 32 (unsign 32 (s.gdNow n))
  | 0x10, 0x048 => s.shownAs (Reg.EQ_STAT_FROZEN n) (ofBool (s.tapsHeld n)) page off
  | 0x10, 0x050 => BitVec.ofNat 32 (unsign 32 (s.gdBack n))
  | 0x12, 0x048 => s.shownAs (Reg.CR_FREQ_OFFSET n) (unsign 20 (s.deltaF n)) page off
  | 0x12, 0x058 => s.shownAs (Reg.CR_TWIN_SKEW_SKEW n) (unsign 22 (s.walkOff n)) page off
  | 0x13, 0x044 => s.shownAs (Reg.PILOT_STAT_ERR_FRAC n) (s.pilotErrors n) page off
  | 0x12, 0x054 => s.linewidth n
  | 0x1C, 0x044 => s.demapStat n
  | 0x11, 0x048 => sget (dflt 0) (s.rxe n).tapStore (s.rd (Reg.EQ_TAP_ADDR_INDEX n))
  | _, _ => s.storedRead (lead (s.txFollows n k off || s.rxFollows n k off)) off

/-! ## The other pages -/

/-- The bytes of best-effort packets in HBM, in MiB (Table 9.10). -/
def Dev.beOccupancy (s : Dev) : Nat :=
  (s.sched.beq.map fun e => ((e.2.filter fun (p : Queued) => p.hbm).map fun (p : Queued) => p.bytes.length).sum).sum / 1048576

/-- The k-th live epoch and its packets (Table 8.9). -/
def Dev.inflightRead (s : Dev) (k : Nat) : Word :=
  match s.parse.epochs[k]? with
  | some e => BitVec.ofNat 32 (e.num + 65536 * min 4095 (s.epochCount e.num) + 2 ^ 31)
  | none => 0

/-- The slots in a state. -/
def Dev.slotCount (s : Dev) (st : Nat) : Nat :=
  ((List.range 2048).filter fun k => decide ((s.key k).state = st)).length

/-- A register of the key page (Table 10.7). -/
def Dev.keyRead (s : Dev) (off : Nat) : Word :=
  let k := s.rd Reg.KEY_QUERY_SLOT
  let x := s.key k
  match off with
  | 0x068 => BitVec.ofNat 32 (x.state + 4 * x.role + 16 * ofBool (s.inService k) + 256 * x.kcv)
  | 0x06C => BitVec.ofNat 32 x.used
  | 0x070 => BitVec.ofNat 32 (x.used / 2 ^ 32)
  | 0x078 => BitVec.ofNat 32 (s.slotCount keyEmpty + 65536 * s.slotCount keyReady)
  | _ => s.storedRead keyPage off

/-- The fields of ALM_STAT that the head alone has: CHAIN_VALID, CHAIN_MATCH, COLLECT_BUSY and CHAIN_DONE. -/
abbrev almHeadBits : Word := 0xFFFFFFFC#32

/-- A register of the ALMANAC page (R450). -/
def Dev.almRead (s : Dev) (off : Nat) : Word :=
  let head := s.on Reg.STRAPS_CHAIN_HEAD
  let p := sget (dflt (⟨0, []⟩ : PosAnswer)) s.answers (s.rd Reg.POS_SEL_POS)
  if 0x0E0 ≤ off then
    if !head then 0
    else if 0x284 ≤ off ∧ off < 0x2C4 then BitVec.ofNat 32 (fieldLE p.digest (off - 0x284) 4)
    else if off = 0x2C4 then BitVec.ofNat 32 p.epoch
    else if off = 0x2C8 then BitVec.ofNat 32 (p.epoch / 2 ^ 32)
    else s.storedRead almPage off
  else if off = 0x044 ∧ ¬ head then s.storedRead almPage off &&& ~~~ almHeadBits
  else s.storedRead almPage off

/-- A register of the EVENT pages (Tables 16.2 and 16.3). -/
def Dev.eventRead (s : Dev) (page off : Nat) : Word :=
  if page = 0x021 then
    let g := s.ev.group ((off - 0x040) / 16)
    if 0x240 ≤ off then s.storedRead page off
    else match (off - 0x040) % 16 / 4 with
      | 1 => g.en
      | 2 => g.latch
      | 3 => g.route
      | _ => 0
  else match off with
    | 0x040 => s.ev.summaries
    | 0x044 => BitVec.ofNat 32 (((List.range 32).map fun v => 2 ^ v * ofBool (s.ev.input v)).sum)
    | 0x048 => BitVec.ofNat 32 (((List.range 4).map fun k => 2 ^ k * ofBool (s.ev.pinLow k)).sum)
    | _ => s.storedRead page off

/-- A register of the self-test results and of direct access (Table 18.10, R511). -/
def Dev.bistRead (s : Dev) (page off : Nat) : Word :=
  let i := s.rd Reg.RES_INDEX_BLOCK
  let b := s.block i
  match page, off with
  | 0x071, 0x044 =>
    BitVec.ofNat 32 (b.result + 8 * ofBool b.unusable + 16 * ofBool b.flagged + 32 * ofBool (bitAt (s.rd (Reg.BIST_OFF_OFF (i / 32))) (i % 32)))
  | 0x071, 0x048 => BitVec.ofNat 32 b.patterns
  | 0x071, 0x04C => BitVec.ofNat 32 b.addr
  | 0x071, 0x050 => BitVec.ofNat 32 b.bit
  | _, _ => if page = 0x072 ∧ ¬ s.directOpen then 0 else s.storedRead page off

/-- FE_STAT of the engine that FE_CTRL names, and FE_DATA at FE_INDEX (Table 19.9). -/
def Dev.feRead (s : Dev) (off : Nat) : Word :=
  let f := s.fee (s.rd Reg.FE_CTRL_ENGINE)
  match off with
  | 0x044 => BitVec.ofNat 32 (ofBool f.valid + 2 * ofBool f.busErr + 4 * ofBool f.busy + 256 * fieldLE f.cache 4 1)
  | 0x04C => BitVec.ofNat 32 (if s.rd Reg.FE_INDEX_WORD < 192 then fieldLE f.cache (4 * s.rd Reg.FE_INDEX_WORD) 4 else 0)
  | _ => s.storedRead fePage off

/-- Per-port registers read 0 in the page of a lane of a port that begins elsewhere (R226). -/
def Dev.clientRead (s : Dev) (l off : Nat) : Word :=
  if s.portHidden (0x2C0 + l) off then 0
  else if off = 0x040 ∧ l % 8 ≠ 0 then 0
  else s.storedRead (0x2C0 + l) off

/-- A counter data page (R467, R468). -/
def Dev.dataPageRead (s : Dev) (k off : Nat) : Word :=
  if !s.userPage k then 0
  else if off < 0x140 then
    let i := 32 * k + (off - 0x040) / 8
    if (off - 0x040) / 4 % 2 = 0 then s.valueLo i else s.valueHi i
  else s.storedRead (0x400 + k) off

/-- XQ.LEVEL[q]: the fill and the high-water mark, which is never below the fill, nor below what it was set to by HWM_CLEAR; and the flags (Table 1.6). -/
def Dev.levelRead (s : Dev) (q off : Nat) : Word :=
  let w := s.storedRead 0x00E off
  let hwm := max (max (s.rd (Reg.LEVEL_HWM q)) (s.xqFill q)) (Config.freeOf 97 [q, s.fresh] % (xqDepth q + 1))
  setBits (setBits w 0 10 (s.xqFill q)) 10 10 hwm

/-- The scrub's registers: while one runs, the units done and skipped so far (R498). -/
def Dev.scrubRead (s : Dev) (off : Nat) : Word :=
  if s.on Reg.SCRUB_CTRL_BUSY ∧ off = 0x04C then s.shownAs Reg.SCRUB_DONE_UNITS s.scrubReached.2 scrubPage off
  else if s.on Reg.SCRUB_CTRL_BUSY ∧ off = 0x05C then s.shownAs Reg.SCRUB_SKIPPED s.scrubReached.1 scrubPage off
  else s.storedRead scrubPage off

/-- A register of the pages below 0x100. -/
def Dev.lowRead (s : Dev) (page off : Nat) : Word :=
  match page, off with
  | 0x000, 0x040 => BitVec.ofNat 32 (s.lineEn + 256 * s.lineEn)
  | 0x062, _ => s.feRead off
  | 0x081, _ => s.scrubRead off
  | 0x001, _ => s.almRead off
  | 0x090, 0x05C =>
    if s.rd Reg.DPLL_STAT_STATE = dpllHoldover then s.shownAs Reg.HO_STAT_ELAPSED_S (min 131071 ((s.clock - s.sid.hoSince) / 1000000000)) page off
    else s.storedRead page off
  | 0x092, 0x074 => BitVec.ofNat 32 (unsign 64 s.paceOffset)
  | 0x092, 0x078 => BitVec.ofNat 32 (unsign 64 s.paceOffset / 2 ^ 32)
  | _, _ =>
    if page = 0x020 ∨ page = 0x021 then s.eventRead page off
    else if page = 0x00E ∧ off < 0x3B0 then s.levelRead ((off - 0x040) / 4) off
    else if page = 0x071 ∨ page = 0x072 then s.bistRead page off
    else if page = 0x0B2 ∧ off < 0x080 ∧ ¬ s.lineOn (off / 4 % 8) then 0
    else if page = 0x093 ∧ 0x050 ≤ off ∧ off < 0x090 ∧ off % 8 = 0 then BitVec.ofNat 32 (s.txDelay ((off - 0x050) / 8))
    else if page = 0x080 ∧ 0x05C ≤ off ∧ off < 0x06C then s.word (tableCell tableMLOG.id (s.rd Reg.LOG_INDEX_INDEX) ((off - 0x05C) / 4))
    else s.storedRead page off

/-- A register of the pages from 0x100. -/
def Dev.highRead (s : Dev) (page off : Nat) : Word :=
  if page < 0x200 then s.lineRead ((page - 0x100) / 32) ((page - 0x100) % 32) off
  else if page = 0x290 then s.keyRead off
  else if 0x2C0 ≤ page ∧ page < 0x300 then s.clientRead (page - 0x2C0) off
  else if page = 0x300 ∧ 0x058 ≤ off ∧ off < 0x068 then s.inflightRead ((off - 0x058) / 4)
  else if page = 0x342 ∧ off = 0x074 then BitVec.ofNat 32 (min (2 ^ 24 - 1) s.beOccupancy)
  else if 0x400 ≤ page then s.dataPageRead (page - 0x400) off
  else s.storedRead page off

/-- The device as a read of a page sees it: a block under test shows its registers as they stood at its isolation (Table 18.4). -/
def Dev.asIsolated (page : Nat) (s : Dev) : Dev :=
  if s.bist.isolated && s.pageInTest page then { s with regs := s.bist.shown } else s

/-- What a read of the word at a byte offset of a page returns: 0 where the page does not answer (R3, R424, R477). -/
def Dev.busRead (s : Dev) (page off : Nat) : Word :=
  if !s.pageLive page then 0
  else if off < 0x040 then s.headerRead page off
  else
    let s := s.asIsolated page
    if page < 0x100 then s.lowRead page off else s.highRead page off

end Sys2Proof.Machine
end

