-- ==== Sys2Proof/Machine/Merge.lean ====
section
/-!
DEFINITION. Parallax decisions and releases (R201, R202, R207, R208).
-/
namespace Sys2Proof.Machine

/-- The path counter of a released frame. -/
def fromField (p : Nat) (fromB : Bool) : Field :=
  if fromB then Reg.PSTAT_FROM_B p else Reg.PSTAT_FROM_A p

/-- The decision for the next serial of pair `p` (R202, R207): its slot is read, and what it holds waits for the release tick. `poison`: the place in HBM of a poison mark that the
read returns, which is reported to memory integrity. A copy that came in the cycle of D has not passed through HBM. -/
def Dev.decideNext (p : Nat) (poison : Option MemRef) (s : Dev) : Dev :=
  let x := s.pr p
  match x.decided with
  | none => s
  | some d =>
    if s.rd (Reg.PSTAT_STATE p) < parMerged then s
    else
      let serial := (d + 1) % 2 ^ 48
      let found := x.slots.find? fun (y : Slot) => decide (y.serial = serial)
      let stored := found.any fun y => decide (hubCycleOf y.arrived < s.decisionCycle p serial)
      let s := s.setPr p { x with
        decided := some serial, slots := x.slots.filter fun (y : Slot) => decide (y.serial ≠ serial)
        ready := x.ready ++ [⟨serial, found, stored && poison.isSome⟩] }
      match poison with
      | some m => if stored then s.consume m .parallax else s
      | none => s

/-- PARALLAX_DECISION: D of the next serial, an instant that the grid gives. -/
def execParallaxDecision (p : BitVec 8) (_instant : Found) (poison : Option MemRef) (s : State) : Out :=
  s.run fun s => s.decideNext p.toNat poison

/-- The frame decided first released, or withheld whole: decrypted and delivered under course A (R194, R201, R207). `checkFail`: the two computations of the
decryption differed (R301). -/
def Dev.releaseNext (p : Nat) (checkFail : Bool) (s : Dev) : Dev :=
  let x := s.pr p
  let a := s.rd (Reg.PAIR_COURSE_A p)
  match x.ready with
  | [] => s
  | r :: rest =>
    let s := s.setPr p { x with ready := rest }
    match r.content with
    | none => ((s.bump (Reg.PSTAT_BOTH_INVALID p)).raise 20 2).streamMissed a (s.members a) r.serial none
    | some y =>
      if r.poisoned then ((s.bump (Reg.PSTAT_POISONED p)).raise 20 6).streamMissed a (s.members a) r.serial none
      else
        let s := s.bump (fromField p y.fromB)
        let s := if y.cls = 2 then (s.bump (Reg.PSTAT_FALLBACK p)).raise 20 7 else s
        s.decrypt a (s.members a) y.serial y.ks checkFail y.frame

/-- PARALLAX_RELEASE: R of the serial decided first that waits, a course frame boundary of the pair (R201, R220). -/
def execParallaxRelease (p : BitVec 8) (checkFail : Bool) (s : State) : Out :=
  s.run fun s => (s.pairBoundary p.toNat).releaseNext p.toNat checkFail

/-- The release delay after the first valid copy in ACQUIRE, with one path alone: the grid is set from that copy (Table 7.2), and the first decision is that of the
serial whose D is now, two after it (DEDUCED, log 182). -/
def Dev.acquireEnd (p : Nat) (s : Dev) : Dev :=
  let x := s.pr p
  match x.firsts.head?, x.firsts.getLast? with
  | some f, some l =>
    if s.rd (Reg.PSTAT_STATE p) = parAcquire ∧ x.firsts.all fun (e : Bool × Nat × Int) => e.1 = f.1 then
      let w : PairPath := { (x.path f.1).anew with contributing := true, ok := 8, last := some l.2.1, offsets := [0] }
      let d := (f.2.1 + 1) % 2 ^ 48
      let s := s.pairGo p parSingle
      (s.setPr p (({ s.pr p with
        grid := [⟨f.2.1, f.2.2 * 65536, 0⟩], firsts := [], decided := some d
        slots := x.slots.filter fun y => decide (0 < serialDiff y.serial d) }).setPath f.1 w)).showPaths p
    else s
  | _, _ => s

/-- PARALLAX_ACQUIRE_END. -/
def execParallaxAcquireEnd (p : BitVec 8) (s : State) : Out :=
  s.run fun s => s.acquireEnd p.toNat

end Sys2Proof.Machine
end

