-- ==== Sys2Proof/Machine/Remote.lean ====
section
/-!
DEFINITION. The data channel's messages as this device receives them (R404 to R406): the register and window accesses that the head makes of it, and the
replies to its own. The messages' bytes are those of `execMgmtAccess` and `bulkMessage` (log 44).
-/
namespace Sys2Proof.Machine

/-- A read of a register by the head of the chain: what it returns, and what the read itself changes (R405, R423). -/
def Dev.remoteRead (page off : Nat) (s : Dev) : Nat × Dev :=
  let act (f : Dev → Dev) : Nat × Dev :=
    let r := f s
    (((r.readData[0]?).getD 0).toNat, { r with readData := s.readData, readPoisoned := s.readPoisoned })
  if page = queuePage ∧ 0x040 ≤ off ∧ off < 0x0C0 then act (Dev.onRead page off (Dev.qPop ((off - 0x040) / 4)))
  else if page = memiPage ∧ off = 0x05C then act (Dev.onRead page off Dev.logRead)
  else if page = fePage ∧ off = 0x04C then act (Dev.onRead page off Dev.feDataRead)
  else if 0x100 ≤ page ∧ page < 0x200 ∧ page % 32 = 0x11 ∧ off = 0x048 then act (Dev.tapDataRead ((page - 0x100) / 32))
  else if 0x400 ≤ page ∧ page < 0x500 ∧ 0x040 ≤ off ∧ off < 0x140 ∧ off % 8 = 0 then act (Dev.valueRead (page - 0x400) ((off - 0x040) / 8) 1)
  else ((s.busRead page off).toNat, s.access 0 page off)

/-- A register access by the head over port p: a read is answered with its word, a write with no data, over the same port (R405). -/
def Dev.managed (mem : Nat → Nat → List Byte) (p src seq : Nat) (m : List Byte) (s : Dev) : Dev :=
  let a := fieldLE m 1 4
  let page := a / 4096 % 4096
  let off := a % 4096 / 4 * 4
  if fieldLE m 0 1 = 0 then
    let r := s.remoteRead page off
    r.2.sendOver p clsManagement src seq (bytesBE 1 0 ++ bytesLE 4 r.1)
  else (s.busWrite mem page off (BitVec.ofNat 32 (fieldLE m 5 4))).sendOver p clsManagement src seq (bytesBE 1 0)

/-- A window access by the head over port p: a read is answered over the same port; a write is not answered (R406). -/
def Dev.bulked (look : Nat → Nat → List Byte × List (Nat × WordFound)) (p src seq : Nat) (m : List Byte) (s : Dev) : Dev :=
  let off := fieldLE m 1 4 % Config.winSize
  if fieldLE m 0 1 = 0 then s.bulkRead (Dev.sendOver p clsBulk src seq) off (look off (fieldLE m 5 2 % 8192)) false
  else s.winWrite off (m.drop 5)

/-- A reply that reaches the head: all ones, counted, where the position refused a capture transfer; else the words after byte 0 (R405, R406). -/
def Dev.replied (src seq : Nat) (m : List Byte) (s : Dev) : Dev :=
  match s.chainAccess src seq with
  | none => s
  | some w =>
    if fieldLE m 0 1 = 1 then ((s.chainDone w).allOnes w.words).bump Reg.MGMT_ERR
    else s.chainReply src seq ((List.range w.words).map fun k => BitVec.ofNat 32 (fieldLE (m.drop 1) (4 * k) 4))

/-- A message for this device that ended on port p acts: on the head as the reply to a waiting access; elsewhere as an access, which is at least five bytes long (the completion
message, of two, has a command of its own). -/
def Dev.messageActs (mem : Nat → Nat → List Byte) (look : Nat → Nat → List Byte × List (Nat × WordFound)) (p : Nat) (g : Segment) (m : List Byte) (s : Dev) : Dev :=
  if s.isHead then s.replied g.src g.seq m
  else if m.length < 5 then s
  else if g.cls = clsManagement then s.managed mem p g.src g.seq m
  else s.bulked look p g.src g.seq m

/-- DCH_SEGMENT_RECEIVE: the bytes of a segment, its CRC included, in the stream of port p (R404). Four zero bytes are idle fill. -/
def execDchSegmentReceive (p : Fin 4) (raw : List Byte) (s : State) : Out :=
  s.run fun d =>
    if d.hubOn ∧ d.portLink p ∧ raw ≠ List.replicate 4 0 then
      if segmentOk raw then
        let g := readSegment raw
        match d.messageEnded p g with
        | none => d.segmentIn p g
        | some m => (d.segmentIn p g).messageActs s.bytes s.winLook p g m
      else d.segmentBad p raw
    else d

end Sys2Proof.Machine
end

