-- ==== Sys2Proof/Machine/Tick.lean ====
section
/-!
DEFINITION. The frame tick: what the line engines, the relay lanes, the outputs and the pairs do every 1,280 ns (R159, R340).
-/
namespace Sys2Proof.Machine

/-- The frame tick: every engine and relay lane starts a frame. `fails`: the courses whose encryption fails its check. -/
def Dev.frameTick (fails : List Nat) (s : Dev) : Dev :=
  let was := s.clock
  let second := s.pace / (65536 * 1000000000)
  let count := s.dpllCount
  let s := s.advance.colApply .tick
  let s := s.outsTick (s.dpllCount - count)
  let s := if s.pace / (65536 * 1000000000) = second then s else s.colApply .second
  let s := { s with sched := { s.sched with written := 0 } }
  let mfas := mfasAt s.pace
  let s := { s with relay := { s.relay with sentAt := sset (dflt 0) s.relay.sentAt mfas s.time } }
  let s := ((List.range 8).filter s.lineOn).foldl (fun s n => s.wr (Reg.FR_MFAS_TX n) mfas) s
  let s := if mfas = 0 then s.takeBridges else s
  let own := (s.courses.filter fun c => s.sendsFor c = c && !s.relayFed c) ++ s.remotes.filter s.remoteTx
  let s := own.foldl (fun s c => s.sendOwn (fails.contains c) c) s
  let s := (s.bridges.filter fun (b : Nat × Nat) => s.on (Reg.MAP_EN b.1)).foldl (fun s b => s.sendBridged b) s
  let s := (s.courses ++ s.remotes).foldl (fun s c => s.sendTrail mfas was c) s
  let s := s.courses.foldl (fun s c => (s.sendColumns mfas c).beiSent c) s
  let s := s.chordTick
  let s := (s.remotes.filter s.remoteTx).foldl (fun s c => s.sendRemote mfas c) s
  let s := (s.exportsTick.remotesFail).sendChannels.lanesTick
  s.enabledPairs.foldl (fun s p => s.pathsTick p) s

/-- Time that passes without a frame tick while the hub does not run: 1,280 ns. -/
def Dev.idleTick (s : Dev) : Dev :=
  { s with clock := s.clock + 1280 }

/-- FRAME_TICK. The model's time moves here and nowhere else (log 6). -/
def execFrameTick (fails : List (Fin 512)) (s : State) : Out :=
  s.run fun s => if s.hubOn then s.frameTick (fails.map (·.val)) else s.idleTick

end Sys2Proof.Machine
end

