-- ==== Sys2Proof/Machine/Dispatch.lean ====
section
/-!
DEFINITION. The meaning of each command: one arm per constructor of `Instr`, each a direct call of its meaning.
-/
namespace Sys2Proof.Machine

def exec (i : Instr) (s : State) : Host.Outcome State Fault Refusal :=
  match i with
  | .registerWrite page off v => Sys2Proof.Machine.execRegisterWrite page off v s
  | .perstNRelease large head => Sys2Proof.Machine.execPerstNRelease large head s
  | .perstNAssert => Sys2Proof.Machine.execPerstNAssert s
  | .xqOverflow q => Sys2Proof.Machine.execXqOverflow q s
  | .xqHwmClear v => Sys2Proof.Machine.execXqHwmClear v s
  | .shedReqHostWrite v => Sys2Proof.Machine.execShedReqHostWrite v s
  | .parseBeShareStep => Sys2Proof.Machine.execParseBeShareStep s
  | .txEnableWrite n => Sys2Proof.Machine.execTxEnableWrite n s
  | .txDisableWrite n => Sys2Proof.Machine.execTxDisableWrite n s
  | .txFaultClear n v => Sys2Proof.Machine.execTxFaultClear n v s
  | .prepComplete n => Sys2Proof.Machine.execPrepComplete n s
  | .prepTimeout n => Sys2Proof.Machine.execPrepTimeout n s
  | .txPllUnlock n => Sys2Proof.Machine.execTxPllUnlock n s
  | .muteFadeComplete n => Sys2Proof.Machine.execMuteFadeComplete n s
  | .rampUpComplete n => Sys2Proof.Machine.execRampUpComplete n s
  | .rampDownComplete n => Sys2Proof.Machine.execRampDownComplete n s
  | .clipWindowEnd n clipped => Sys2Proof.Machine.execClipWindowEnd n clipped s
  | .txClipClear n threshold => Sys2Proof.Machine.execTxClipClear n threshold s
  | .txPdDataWrite n v => Sys2Proof.Machine.execTxPdDataWrite n v s
  | .boundaryApply page bnd => Sys2Proof.Machine.execBoundaryApply page bnd s
  | .commitPendingEnd page => Sys2Proof.Machine.execCommitPendingEnd page s
  | .rxEnableWrite n => Sys2Proof.Machine.execRxEnableWrite n s
  | .rxDisableWrite n => Sys2Proof.Machine.execRxDisableWrite n s
  | .sampPllLock n => Sys2Proof.Machine.execSampPllLock n s
  | .sampPllLockTimeout n => Sys2Proof.Machine.execSampPllLockTimeout n s
  | .sampPllUnlock n => Sys2Proof.Machine.execSampPllUnlock n s
  | .ovrWindowEnd n window rms0 rms1 rms2 rms3 => Sys2Proof.Machine.execOvrWindowEnd n window rms0 rms1 rms2 rms3 s
  | .rxOvrClear n v => Sys2Proof.Machine.execRxOvrClear n v s
  | .trLockSet n freq => Sys2Proof.Machine.execTrLockSet n freq s
  | .trLockClear n => Sys2Proof.Machine.execTrLockClear n s
  | .trHoldEnter n => Sys2Proof.Machine.execTrHoldEnter n s
  | .trHoldResume n => Sys2Proof.Machine.execTrHoldResume n s
  | .trHoldTimeout n => Sys2Proof.Machine.execTrHoldTimeout n s
  | .capFire v => Sys2Proof.Machine.execCapFire v s
  | .capEventTrigger => Sys2Proof.Machine.execCapEventTrigger s
  | .capTenableWrite v => Sys2Proof.Machine.execCapTenableWrite v s
  | .capTimeTrigger => Sys2Proof.Machine.execCapTimeTrigger s
  | .capArm n v => Sys2Proof.Machine.execCapArm n v s
  | .capDisarm n v => Sys2Proof.Machine.execCapDisarm n v s
  | .capStart n late => Sys2Proof.Machine.execCapStart n late s
  | .capSnapshotComplete n samples overrange => Sys2Proof.Machine.execCapSnapshotComplete n samples overrange s
  | .capDecimRecordEnd n samples overrange next => Sys2Proof.Machine.execCapDecimRecordEnd n samples overrange next s
  | .capDrainComplete n poisoned => Sys2Proof.Machine.execCapDrainComplete n poisoned s
  | .signalPresent n => Sys2Proof.Machine.execSignalPresent n s
  | .signalLos n => Sys2Proof.Machine.execSignalLos n s
  | .freqSearchDone n offset => Sys2Proof.Machine.execFreqSearchDone n offset s
  | .acqStateLimit n => Sys2Proof.Machine.execAcqStateLimit n s
  | .cdSearchDone n found => Sys2Proof.Machine.execCdSearchDone n found s
  | .eqConverged n esnr => Sys2Proof.Machine.execEqConverged n esnr s
  | .pilotSyncDone n s0 s1 => Sys2Proof.Machine.execPilotSyncDone n s0 s1 s
  | .carrierLocked n => Sys2Proof.Machine.execCarrierLocked n s
  | .eqDegeneracy n => Sys2Proof.Machine.execEqDegeneracy n s
  | .pilotLoss n frac => Sys2Proof.Machine.execPilotLoss n frac s
  | .freqOutOfRange e => Sys2Proof.Machine.execFreqOutOfRange e s
  | .holdExpired n => Sys2Proof.Machine.execHoldExpired n s
  | .backoffExpired n => Sys2Proof.Machine.execBackoffExpired n s
  | .acqRetry n v => Sys2Proof.Machine.execAcqRetry n v s
  | .acqCntClr n v => Sys2Proof.Machine.execAcqCntClr n v s
  | .eqReset n v => Sys2Proof.Machine.execEqReset n v s
  | .tapCentroidShift n => Sys2Proof.Machine.execTapCentroidShift n s
  | .dfeAutoSwitch n esnr => Sys2Proof.Machine.execDfeAutoSwitch n esnr s
  | .cycleSlip n => Sys2Proof.Machine.execCycleSlip n s
  | .slipWindowEnd n slips => Sys2Proof.Machine.execSlipWindowEnd n slips s
  | .crSlipClear n v => Sys2Proof.Machine.execCrSlipClear n v s
  | .twinAidFallback n => Sys2Proof.Machine.execTwinAidFallback n s
  | .twinAidResume n skew => Sys2Proof.Machine.execTwinAidResume n skew s
  | .lineArrivalStep n withinQuarter symbols => Sys2Proof.Machine.execLineArrivalStep n withinQuarter symbols s
  | .opmWindowEnd n esnr residual dgdMean dgdPeak sopMean sopPeak => Sys2Proof.Machine.execOpmWindowEnd n esnr residual dgdMean dgdPeak sopMean sopPeak s
  | .codewordDecode n w group blocks => Sys2Proof.Machine.execCodewordDecode n w group blocks s
  | .staircaseBlockVerdict n changed nonzero => Sys2Proof.Machine.execStaircaseBlockVerdict n changed nonzero s
  | .iterEffStep n => Sys2Proof.Machine.execIterEffStep n s
  | .alignPhaseConfirmed f => Sys2Proof.Machine.execAlignPhaseConfirmed f s
  | .alignSearchLimit n walkOff => Sys2Proof.Machine.execAlignSearchLimit n walkOff s
  | .alignLoss n => Sys2Proof.Machine.execAlignLoss n s
  | .alignRetryExpired n => Sys2Proof.Machine.execAlignRetryExpired n s
  | .alignFailClear n => Sys2Proof.Machine.execAlignFailClear n s
  | .fecSnapTake n clear => Sys2Proof.Machine.execFecSnapTake n clear s
  | .fecSnapClear n => Sys2Proof.Machine.execFecSnapClear n s
  | .frameTick fails => Sys2Proof.Machine.execFrameTick fails s
  | .rxFrame n mfas columns arrived seen front back => Sys2Proof.Machine.execRxFrame n mfas columns arrived seen front back s
  | .courseFrameRebuild c serial arrived checkFail poison => Sys2Proof.Machine.execCourseFrameRebuild c serial arrived checkFail poison s
  | .skewMaxExpired c serial => Sys2Proof.Machine.execSkewMaxExpired c serial s
  | .frCandidatePass n pos mfas => Sys2Proof.Machine.execFrCandidatePass n pos mfas s
  | .frCandidateConfirm n pos => Sys2Proof.Machine.execFrCandidateConfirm n pos s
  | .frCandidateFail n pos => Sys2Proof.Machine.execFrCandidateFail n pos s
  | .frAmbigResolve n => Sys2Proof.Machine.execFrAmbigResolve n s
  | .frHeaderMissOof n => Sys2Proof.Machine.execFrHeaderMissOof n s
  | .frOofRecover n => Sys2Proof.Machine.execFrOofRecover n s
  | .lofDeclare n => Sys2Proof.Machine.execLofDeclare n s
  | .lofClear n => Sys2Proof.Machine.execLofClear n s
  | .tblOpRead w v => Sys2Proof.Machine.execTblOpRead w v s
  | .tblOpWrite w v collided => Sys2Proof.Machine.execTblOpWrite w v collided s
  | .parallaxDecision p instant poison => Sys2Proof.Machine.execParallaxDecision p instant poison s
  | .parallaxRelease p checkFail => Sys2Proof.Machine.execParallaxRelease p checkFail s
  | .parallaxAcquireEnd p => Sys2Proof.Machine.execParallaxAcquireEnd p s
  | .parallaxLostTimeout p => Sys2Proof.Machine.execParallaxLostTimeout p s
  | .protHoldoffExpired p => Sys2Proof.Machine.execProtHoldoffExpired p s
  | .selectorMove p => Sys2Proof.Machine.execSelectorMove p s
  | .wtrExpired p => Sys2Proof.Machine.execWtrExpired p s
  | .cmdLo p => Sys2Proof.Machine.execCmdLo p s
  | .cmdFs p => Sys2Proof.Machine.execCmdFs p s
  | .cmdMs p => Sys2Proof.Machine.execCmdMs p s
  | .cmdMsW p => Sys2Proof.Machine.execCmdMsW p s
  | .cmdClear p => Sys2Proof.Machine.execCmdClear p s
  | .cmdRegrid p => Sys2Proof.Machine.execCmdRegrid p s
  | .cmdZeroPstat p => Sys2Proof.Machine.execCmdZeroPstat p s
  | .clientFrameReceive p frame => Sys2Proof.Machine.execClientFrameReceive p frame s
  | .clientLinkChange p aligned hiSer localFault remoteFault => Sys2Proof.Machine.execClientLinkChange p aligned hiSer localFault remoteFault s
  | .clientErrWindowEnd p corrected uncorrectable symbols => Sys2Proof.Machine.execClientErrWindowEnd p corrected uncorrectable symbols s
  | .parseStart g => Sys2Proof.Machine.execParseStart g s
  | .lookupResult g n profile key code poison => Sys2Proof.Machine.execLookupResult g n profile key code poison s
  | .parsePassEnd g n cycles layers deep frag len result code poison => Sys2Proof.Machine.execParsePassEnd g n cycles layers deep frag len result code poison s
  | .reorderRelease p reserved poison => Sys2Proof.Machine.execReorderRelease p reserved poison s
  | .ucodeLoad v => Sys2Proof.Machine.execUcodeLoad v s
  | .ucodeLoadComplete => Sys2Proof.Machine.execUcodeLoadComplete s
  | .bulkLoadGo v => Sys2Proof.Machine.execBulkLoadGo v s
  | .bulkLoadRecord => Sys2Proof.Machine.execBulkLoadRecord s
  | .bulkLoadComplete => Sys2Proof.Machine.execBulkLoadComplete s
  | .cntSnapTake page v => Sys2Proof.Machine.execCntSnapTake page v s
  | .cntSnapClear page v => Sys2Proof.Machine.execCntSnapClear page v s
  | .flowAdmit v => Sys2Proof.Machine.execFlowAdmit v s
  | .admitApply => Sys2Proof.Machine.execAdmitApply s
  | .remove v => Sys2Proof.Machine.execRemove v s
  | .removeComplete => Sys2Proof.Machine.execRemoveComplete s
  | .zeroFlowCounters v => Sys2Proof.Machine.execZeroFlowCounters v s
  | .egressPacketArrive => Sys2Proof.Machine.execEgressPacketArrive s
  | .detRelease p => Sys2Proof.Machine.execDetRelease p s
  | .egressPortServe p delta poison => Sys2Proof.Machine.execEgressPortServe p delta poison s
  | .keyLoad v => Sys2Proof.Machine.execKeyLoad v s
  | .keyErase v => Sys2Proof.Machine.execKeyErase v s
  | .keyZeroise v => Sys2Proof.Machine.execKeyZeroise v s
  | .keyZeroiseAll v => Sys2Proof.Machine.execKeyZeroiseAll v s
  | .rekey v => Sys2Proof.Machine.execRekey v s
  | .reqTailWrite v => Sys2Proof.Machine.execReqTailWrite v s
  | .reqTake => Sys2Proof.Machine.execReqTake s
  | .ringOwnTimeout => Sys2Proof.Machine.execRingOwnTimeout s
  | .reqComplete poisoned checkFail => Sys2Proof.Machine.execReqComplete poisoned checkFail s
  | .droneSend n v => Sys2Proof.Machine.execDroneSend n v s
  | .beaconDue n => Sys2Proof.Machine.execBeaconDue n s
  | .droneBurstStart n => Sys2Proof.Machine.execDroneBurstStart n s
  | .droneBurstComplete n => Sys2Proof.Machine.execDroneBurstComplete n s
  | .droneBurstCut n => Sys2Proof.Machine.execDroneBurstCut n s
  | .droneDetect path entry power freq known => Sys2Proof.Machine.execDroneDetect path entry power freq known s
  | .afcFreeze path finger => Sys2Proof.Machine.execAfcFreeze path finger s
  | .fingerSyncFound path finger symbols => Sys2Proof.Machine.execFingerSyncFound path finger symbols s
  | .fingerAcqTimeout path finger => Sys2Proof.Machine.execFingerAcqTimeout path finger s
  | .fingerHeaderDecoded path finger header => Sys2Proof.Machine.execFingerHeaderDecoded path finger header s
  | .fingerBodyEnd path finger payload crc => Sys2Proof.Machine.execFingerBodyEnd path finger payload crc s
  | .droneFalseWindowEnd path => Sys2Proof.Machine.execDroneFalseWindowEnd path s
  | .beaconVerify => Sys2Proof.Machine.execBeaconVerify s
  | .nbrAgeExpired e => Sys2Proof.Machine.execNbrAgeExpired e s
  | .expMissingTimeout n => Sys2Proof.Machine.execExpMissingTimeout n s
  | .refMonitorUpdate tref offsets freq phase => Sys2Proof.Machine.execRefMonitorUpdate tref offsets freq phase s
  | .refActivityLoss r => Sys2Proof.Machine.execRefActivityLoss r s
  | .refAgreeUpdate => Sys2Proof.Machine.execRefAgreeUpdate s
  | .esmcPduReceive r pdu => Sys2Proof.Machine.execEsmcPduReceive r pdu s
  | .esmcTimeout r => Sys2Proof.Machine.execEsmcTimeout r s
  | .dpllLockAchieved => Sys2Proof.Machine.execDpllLockAchieved s
  | .dpllLockLost => Sys2Proof.Machine.execDpllLockLost s
  | .histValidSet => Sys2Proof.Machine.execHistValidSet s
  | .holdoverExpire => Sys2Proof.Machine.execHoldoverExpire s
  | .xoCheck ppb => Sys2Proof.Machine.execXoCheck ppb s
  | .xoInLoss => Sys2Proof.Machine.execXoInLoss s
  | .timeSnap => Sys2Proof.Machine.execTimeSnap s
  | .timeSet => Sys2Proof.Machine.execTimeSet s
  | .timeStep => Sys2Proof.Machine.execTimeStep s
  | .timeSlew => Sys2Proof.Machine.execTimeSlew s
  | .timeSlewDone => Sys2Proof.Machine.execTimeSlewDone s
  | .timeTod => Sys2Proof.Machine.execTimeTod s
  | .timeAlign => Sys2Proof.Machine.execTimeAlign s
  | .timeAlignJump => Sys2Proof.Machine.execTimeAlignJump s
  | .alignComplete => Sys2Proof.Machine.execAlignComplete s
  | .ptpEventMessage servo sync follow resp own => Sys2Proof.Machine.execPtpEventMessage servo sync follow resp own s
  | .refResetSpan v => Sys2Proof.Machine.execRefResetSpan v s
  | .refResetDissent v => Sys2Proof.Machine.execRefResetDissent v s
  | .calPinLoop v => Sys2Proof.Machine.execCalPinLoop v s
  | .calTxMark v => Sys2Proof.Machine.execCalTxMark v s
  | .calRxLoop v => Sys2Proof.Machine.execCalRxLoop v s
  | .calComplete measured t => Sys2Proof.Machine.execCalComplete measured t s
  | .lcalFgRun n v => Sys2Proof.Machine.execLcalFgRun n v s
  | .lcalFgComplete n dac cause lanes values t => Sys2Proof.Machine.execLcalFgComplete n dac cause lanes values t s
  | .lcalBgComplete n dac values drift t => Sys2Proof.Machine.execLcalBgComplete n dac values drift t s
  | .lcalSysGo v sums t => Sys2Proof.Machine.execLcalSysGo v sums t s
  | .lcalSysStepDone v sums t => Sys2Proof.Machine.execLcalSysStepDone v sums t s
  | .lcalSysTimeout => Sys2Proof.Machine.execLcalSysTimeout s
  | .hkScanStart => Sys2Proof.Machine.execHkScanStart s
  | .hkScanEnd codes0 codes1 => Sys2Proof.Machine.execHkScanEnd codes0 codes1 s
  | .hkCalRequest v => Sys2Proof.Machine.execHkCalRequest v s
  | .hkCalComplete ok offset gain t => Sys2Proof.Machine.execHkCalComplete ok offset gain t s
  | .hkClearFault v => Sys2Proof.Machine.execHkClearFault v s
  | .colStoreDue r => Sys2Proof.Machine.execColStoreDue r s
  | .colFlush v => Sys2Proof.Machine.execColFlush v s
  | .colStoreComplete ok => Sys2Proof.Machine.execColStoreComplete ok s
  | .rerunCheck r t => Sys2Proof.Machine.execRerunCheck r t s
  | .timingRerunComplete r replicas t => Sys2Proof.Machine.execTimingRerunComplete r replicas t s
  | .laneLosDeclare x => Sys2Proof.Machine.execLaneLosDeclare x s
  | .laneLosClear x => Sys2Proof.Machine.execLaneLosClear x s
  | .laneLolDeclare x => Sys2Proof.Machine.execLaneLolDeclare x s
  | .laneLolClear x => Sys2Proof.Machine.execLaneLolClear x s
  | .laneAdaptDone x => Sys2Proof.Machine.execLaneAdaptDone x s
  | .laneTxeqWrite x v => Sys2Proof.Machine.execLaneTxeqWrite x v s
  | .laneLpEnter x => Sys2Proof.Machine.execLaneLpEnter x s
  | .laneLpExit x => Sys2Proof.Machine.execLaneLpExit x s
  | .laneReady x => Sys2Proof.Machine.execLaneReady x s
  | .laneLoopbackSet x lb => Sys2Proof.Machine.execLaneLoopbackSet x lb s
  | .relayLaneFrameReceive p l levels arr seen => Sys2Proof.Machine.execRelayLaneFrameReceive p l levels arr seen s
  | .relaySyncFound p heads => Sys2Proof.Machine.execRelaySyncFound p heads s
  | .relaySyncLost p l => Sys2Proof.Machine.execRelaySyncLost p l s
  | .relayErrWindowEnd p => Sys2Proof.Machine.execRelayErrWindowEnd p s
  | .dchSegmentReceive p raw => Sys2Proof.Machine.execDchSegmentReceive p raw s
  | .mgmtAccess pos read off value => Sys2Proof.Machine.execMgmtAccess pos read off value s
  | .mgmtReply pos seq data => Sys2Proof.Machine.execMgmtReply pos seq data s
  | .mgmtTimeout pos seq => Sys2Proof.Machine.execMgmtTimeout pos seq s
  | .bulkAccess pos access seq => Sys2Proof.Machine.execBulkAccess pos access seq s
  | .neighbourSegmentSend => Sys2Proof.Machine.execNeighbourSegmentSend s
  | .discoveryStart => Sys2Proof.Machine.execDiscoveryStart s
  | .chainRediscover v => Sys2Proof.Machine.execChainRediscover v s
  | .positionAssignComplete links => Sys2Proof.Machine.execPositionAssignComplete links s
  | .fleetCompletionMsg p pos large ring => Sys2Proof.Machine.execFleetCompletionMsg p pos large ring s
  | .chainJoin key links => Sys2Proof.Machine.execChainJoin key links s
  | .chainDepart key links => Sys2Proof.Machine.execChainDepart key links s
  | .prbsGenEnable k v => Sys2Proof.Machine.execPrbsGenEnable k v s
  | .prbsChkEnable k v => Sys2Proof.Machine.execPrbsChkEnable k v s
  | .prbsCntClr k v late => Sys2Proof.Machine.execPrbsCntClr k v late s
  | .prbsInjOne k v => Sys2Proof.Machine.execPrbsInjOne k v s
  | .prbsInjRate k v => Sys2Proof.Machine.execPrbsInjRate k v s
  | .prbsLock k => Sys2Proof.Machine.execPrbsLock k s
  | .prbsLockLost k bits errs => Sys2Proof.Machine.execPrbsLockLost k bits errs s
  | .pcieLinkChange change speed width => Sys2Proof.Machine.execPcieLinkChange change speed width s
  | .pcieFunctionReset => Sys2Proof.Machine.execPcieFunctionReset s
  | .pciePoisonedWrite => Sys2Proof.Machine.execPciePoisonedWrite s
  | .shadowArm page v => Sys2Proof.Machine.execShadowArm page v s
  | .shadowCommit page v => Sys2Proof.Machine.execShadowCommit page v s
  | .shadowDisarm page v => Sys2Proof.Machine.execShadowDisarm page v s
  | .commitAll v => Sys2Proof.Machine.execCommitAll v s
  | .shadowDiscard page v => Sys2Proof.Machine.execShadowDiscard page v s
  | .clrViol page v => Sys2Proof.Machine.execClrViol page v s
  | .winBaseWrite v => Sys2Proof.Machine.execWinBaseWrite v s
  | .bar2WindowAccess access => Sys2Proof.Machine.execBar2WindowAccess access s
  | .queueItemArrive q poisoned bytes => Sys2Proof.Machine.execQueueItemArrive q poisoned bytes s
  | .qPop q => Sys2Proof.Machine.execQPop q s
  | .qPopStallExpire q => Sys2Proof.Machine.execQPopStallExpire q s
  | .qMark q v => Sys2Proof.Machine.execQMark q v s
  | .qRewind q v => Sys2Proof.Machine.execQRewind q v s
  | .qRelease q v => Sys2Proof.Machine.execQRelease q v s
  | .qPush v => Sys2Proof.Machine.execQPush v s
  | .qPushComplete => Sys2Proof.Machine.execQPushComplete s
  | .digestUpdateComplete => Sys2Proof.Machine.execDigestUpdateComplete s
  | .chainCollect v => Sys2Proof.Machine.execChainCollect v s
  | .collectQuery => Sys2Proof.Machine.execCollectQuery s
  | .chainCollectComplete answers => Sys2Proof.Machine.execChainCollectComplete answers s
  | .evLatchClear latch v => Sys2Proof.Machine.execEvLatchClear latch v s
  | .vecHoldoffExpire k => Sys2Proof.Machine.execVecHoldoffExpire k s
  | .evForce v => Sys2Proof.Machine.execEvForce v s
  | .perfValueRead k j size => Sys2Proof.Machine.execPerfValueRead k j size s
  | .perfClearAll v => Sys2Proof.Machine.execPerfClearAll v s
  | .finderBoot slotA slotB => Sys2Proof.Machine.execFinderBoot slotA slotB s
  | .finderPowerLoss => Sys2Proof.Machine.execFinderPowerLoss s
  | .startupStepComplete r => Sys2Proof.Machine.execStartupStepComplete r s
  | .startupStepTimeout => Sys2Proof.Machine.execStartupStepTimeout s
  | .pwrSleepRequest v => Sys2Proof.Machine.execPwrSleepRequest v s
  | .sleepEntryComplete outcomes => Sys2Proof.Machine.execSleepEntryComplete outcomes s
  | .wakePin => Sys2Proof.Machine.execWakePin s
  | .wakeHost v => Sys2Proof.Machine.execWakeHost v s
  | .wakeTimerExpire => Sys2Proof.Machine.execWakeTimerExpire s
  | .thermSample temps => Sys2Proof.Machine.execThermSample temps s
  | .thermStepTimer => Sys2Proof.Machine.execThermStepTimer s
  | .thermReleaseTimer => Sys2Proof.Machine.execThermReleaseTimer s
  | .thermOffEnter => Sys2Proof.Machine.execThermOffEnter s
  | .thermSensorReset v => Sys2Proof.Machine.execThermSensorReset v s
  | .clkPllUnlock b => Sys2Proof.Machine.execClkPllUnlock b s
  | .finderWatchdog => Sys2Proof.Machine.execFinderWatchdog s
  | .memoryReadCe m bit scrub => Sys2Proof.Machine.execMemoryReadCe m bit scrub s
  | .memoryReadUe m known scrub consumer => Sys2Proof.Machine.execMemoryReadUe m known scrub consumer s
  | .ceRateWindowEnd => Sys2Proof.Machine.execCeRateWindowEnd s
  | .logRead => Sys2Proof.Machine.execLogRead s
  | .scrubGo v => Sys2Proof.Machine.execScrubGo v s
  | .scrubAbort v => Sys2Proof.Machine.execScrubAbort v s
  | .scrubComplete skipped => Sys2Proof.Machine.execScrubComplete skipped s
  | .testWriteRaw v => Sys2Proof.Machine.execTestWriteRaw v s
  | .testReadRaw v => Sys2Proof.Machine.execTestReadRaw v s
  | .pprClearCand v => Sys2Proof.Machine.execPprClearCand v s
  | .bistGo v => Sys2Proof.Machine.execBistGo v s
  | .bistIsolated => Sys2Proof.Machine.execBistIsolated s
  | .bistBlockEnd b complete ok patterns addr bit => Sys2Proof.Machine.execBistBlockEnd b complete ok patterns addr bit s
  | .bistRunEnd => Sys2Proof.Machine.execBistRunEnd s
  | .bistAbort v => Sys2Proof.Machine.execBistAbort v s
  | .bistOffWrite k v => Sys2Proof.Machine.execBistOffWrite k v s
  | .fleetSettle => Sys2Proof.Machine.execFleetSettle s
  | .bistDirectGo v => Sys2Proof.Machine.execBistDirectGo v s
  | .lcTransitionRequest v => Sys2Proof.Machine.execLcTransitionRequest v s
  | .certCopy v ok => Sys2Proof.Machine.execCertCopy v ok s
  | .certInstall v ok => Sys2Proof.Machine.execCertInstall v ok s
  | .fwInstall v => Sys2Proof.Machine.execFwInstall v s
  | .fwInstallComplete back => Sys2Proof.Machine.execFwInstallComplete back s
  | .arbAdvance v => Sys2Proof.Machine.execArbAdvance v s
  | .bundleApply v => Sys2Proof.Machine.execBundleApply v s
  | .bundleStore v => Sys2Proof.Machine.execBundleStore v s
  | .bundleRecord => Sys2Proof.Machine.execBundleRecord s
  | .bundleComplete => Sys2Proof.Machine.execBundleComplete s
  | .attQuote v => Sys2Proof.Machine.execAttQuote v s
  | .attQuoteComplete => Sys2Proof.Machine.execAttQuoteComplete s
  | .feRead v => Sys2Proof.Machine.execFeRead v s
  | .feReadComplete n data => Sys2Proof.Machine.execFeReadComplete n data s
  | .feDataRead => Sys2Proof.Machine.execFeDataRead s
  | .eqTapSnap n => Sys2Proof.Machine.execEqTapSnap n s
  | .eqTapDataRead n => Sys2Proof.Machine.execEqTapDataRead n s
  | .jtagInstruction j => Sys2Proof.Machine.execJtagInstruction j s
  | .dieLinkLoss k => Sys2Proof.Machine.execDieLinkLoss k s
  | .tref1ppsEdge seen => Sys2Proof.Machine.execTref1ppsEdge seen s

end Sys2Proof.Machine
end

