-- ==== Sys2Proof/Safety.lean ====
section
/-!
DEFINITION. What counts as a safe step, and the invariant that every command keeps: HBM in its canonical form, and the model's own fields at rest between
commands.
-/
namespace Sys2Proof.Machine

/-- HBM is in its canonical form: addresses strictly rising, and no byte listed that holds what an unlisted one reads as. -/
def Memory.wf (m : List Host.Cell) : Bool :=
  swf (dflt 0) m

/-- The model's own fields between commands: nothing waits to be stored, no access is marked as refused, and the accesses are the host's. -/
abbrev Dev.atRest (d : Dev) : Prop :=
  d.hbmOut = [] ∧ d.integ.raw = [] ∧ d.refused = false ∧ d.accessor = .host

/-- The invariant of the block. -/
abbrev State.Inv (s : State) : Prop :=
  Memory.wf s.mem = true ∧ s.dev.atRest

/-- A step that neither faults nor is refused. -/
def stepsSafely (s : State) : Prop :=
  ∃ t, step s = .next t

/-! ## What the claims say of a next state -/

/-- The cells of the OVF registers of page 0x031, one bit for each performance counter (R465). -/
def overflowCell (c : Nat) : Prop :=
  regCell 0x031 0x040 ≤ c ∧ c < regCell 0x031 0x040 + 256

/-- The device beside its register words, its event groups and its performance counters. -/
def Dev.others (d : Dev) : Dev :=
  { d with regs := [], ev := ⟨[], [], none, none, Msix.reset⟩, perf := ⟨[]⟩ }

/-- The latch bit of source E-g.b (R453). -/
def Dev.latched (d : Dev) (g b : Nat) : Bool :=
  (d.ev.group g).latch.getLsbD b

/-- What a reset of the function or the host sets in MSI-X: its enable, the function mask and the table (R421, R457). -/
def Msix.setup (m : Msix) : Bool × Bool × List (Nat × MsixEntry) :=
  (m.enable, m.masked, m.table)

/-- From `d` to `e` the latch bits of the sources of `evs` that the part has are set and no other latch bit changes, but for E-29.00, which a
performance counter that wraps raises (R453, R455, R465); enables, routes and the MSI-X table stay. -/
structure Dev.EventsMove (evs : List (Nat × Nat)) (d e : Dev) : Prop where
  /-- the latch bits -/
  latch : ∀ g b, b < 32 → (g, b) ≠ (29, 0) → e.latched g b = (d.latched g b || (evs.contains (g, b) && d.sourceOn g))
  /-- the enables -/
  en : ∀ g, (e.ev.group g).en = (d.ev.group g).en
  /-- the routes -/
  route : ∀ g, (e.ev.group g).route = (d.ev.group g).route
  /-- the MSI-X table -/
  msix : e.ev.msix.setup = d.ev.msix.setup

/-- `e` is `d` with the sources of `evs` raised: every register word is that of `d`, but for the OVF registers, every other part of the
device is that of `d`, but for the performance counters and what an event does to its group, its vectors, the Finder and the
capture controller's trigger. -/
structure Dev.Like (evs : List (Nat × Nat)) (d e : Dev) : Prop where
  /-- the register words -/
  words : ∀ c, ¬ overflowCell c → e.word c = d.word c
  /-- the other parts -/
  rest : e.others = d.others
  /-- the event groups -/
  events : Dev.EventsMove evs d e

/-- The state `t` is `s` with its device taken to `d` and the sources of `evs` raised; no byte of HBM and no waiting command changes. (The model's own
mark of a refused access is cleared when the command ends.) -/
structure State.Settles (evs : List (Nat × Nat)) (d : Dev) (s t : State) : Prop where
  /-- the bytes of HBM -/
  mem : t.mem = s.mem
  /-- the queue -/
  queue : t.pending = s.pending
  /-- the device -/
  dev : Dev.Like evs { d with refused := false } t.dev

/-- What the bytes of HBM read as after stores, the first of the list first: those below the end of usable HBM take the bytes stored (R429). -/
def overlay (usable : Nat) : List (Nat × List Byte) → (Nat → Byte) → Nat → Byte
  | [], f => f
  | (a, bs) :: ws, f => overlay usable ws fun x => if a ≤ x ∧ x < a + bs.length ∧ x < usable then (bs[x - a]?).getD 0 else f x

/-- Whether stores touch the 64-bit word `w` of HBM. -/
def touches (ws : List (Nat × List Byte)) (w : Nat) : Bool :=
  ws.any fun p => decide (p.1 < 8 * w + 8) && decide (8 * w < p.1 + p.2.length)

/-- The memory-integrity unit after stores: the check bytes written raw with them, and the earlier ones of the words that they do not touch (R500). -/
def Integrity.settled (i : Integrity) (ws : List (Nat × List Byte)) : Integrity :=
  { i with raw := [], checks := i.raw ++ i.checks.filter fun e => !touches ws e.1 }

/-- The state `t` is `s` with its device taken to `d`, the sources of `evs` raised and the stores of `ws` made: every byte of HBM outside them reads as
before, check bytes written raw go with the words that are stored to (R500), and those that the command writes raw stand. -/
structure State.Stores (evs : List (Nat × Nat)) (d : Dev) (ws : List (Nat × List Byte)) (s t : State) : Prop where
  /-- the bytes of HBM -/
  bytes : ∀ x, t.byte x = overlay s.dev.hbmUsable ws s.byte x
  /-- the queue -/
  queue : t.pending = s.pending
  /-- the device -/
  dev : Dev.Like evs { d with refused := false, integ := d.integ.settled ws } t.dev

end Sys2Proof.Machine

namespace Sys2Proof
open Machine

/-! ## The host's writes, by the page that they name -/

/-- The page of the register that a write command of the host names (R3, R424). -/
def Instr.page : Instr → Option Nat
  | .xqHwmClear _ => some 0x00E
  | .shedReqHostWrite _ => some 0x00F
  | .txEnableWrite n | .txDisableWrite n | .txFaultClear n _ => some (linePage n 0)
  | .txPdDataWrite n _ => some (linePage n 4)
  | .txClipClear n _ => some (linePage n 5)
  | .rxEnableWrite n | .rxDisableWrite n => some (linePage n 8)
  | .rxOvrClear n _ => some (linePage n 9)
  | .capArm n _ | .capDisarm n _ => some (linePage n 0x0E)
  | .capFire _ | .capTenableWrite _ => some 0x10F
  | .eqReset n _ => some (linePage n 0x10)
  | .eqTapSnap n => some (linePage n 0x11)
  | .crSlipClear n _ => some (linePage n 0x12)
  | .acqRetry n _ | .acqCntClr n _ => some (linePage n 0x14)
  | .alignFailClear n => some (linePage n 0x19)
  | .fecSnapTake n _ | .fecSnapClear n => some (linePage n 0x1A)
  | .tblOpRead w _ => some (tblPage w)
  | .tblOpWrite w _ _ => some (tblPage w)
  | .cmdLo _ | .cmdFs _ | .cmdMs _ | .cmdMsW _ | .cmdClear _ | .cmdRegrid _ | .cmdZeroPstat _ => some 0x280
  | .ucodeLoad _ => some 0x303
  | .bulkLoadGo _ => some 0x301
  | .flowAdmit _ | .remove _ | .zeroFlowCounters _ => some 0x340
  | .keyLoad _ | .keyErase _ | .keyZeroise _ | .keyZeroiseAll _ => some 0x290
  | .rekey _ => some 0x291
  | .reqTailWrite _ => some 0x292
  | .droneSend n _ => some (droneTxPage n)
  | .timeSnap | .timeSet | .timeStep | .timeSlew | .timeTod | .timeAlign | .timeAlignJump => some 0x092
  | .refResetSpan _ | .refResetDissent _ => some 0x090
  | .calPinLoop _ | .calTxMark _ | .calRxLoop _ => some 0x093
  | .lcalFgRun _ _ | .lcalSysGo _ _ _ | .lcalSysStepDone _ _ _ => some 0x0B2
  | .colFlush _ => some 0x0B0
  | .laneTxeqWrite x _ | .laneLpEnter x | .laneLpExit x | .laneLoopbackSet x _ => some (lanePage x)
  | .chainRediscover _ => some 0x380
  | .prbsGenEnable k _ | .prbsChkEnable k _ | .prbsCntClr k _ _ | .prbsInjOne k _ | .prbsInjRate k _ => some (prbsPage k)
  | .commitAll _ | .winBaseWrite _ => some 0x041
  | .qMark _ _ | .qRewind _ _ | .qRelease _ _ | .qPush _ => some 0x043
  | .chainCollect _ => some 0x001
  | .evForce _ => some 0x020
  | .perfClearAll _ => some 0x030
  | .scrubGo _ | .scrubAbort _ => some 0x081
  | .testWriteRaw _ | .testReadRaw _ => some 0x082
  | .pprClearCand _ => some 0x083
  | .bistGo _ | .bistAbort _ | .bistOffWrite _ _ => some 0x070
  | .bistDirectGo _ => some 0x072
  | .lcTransitionRequest _ => some 0x000
  | .fwInstall _ | .arbAdvance _ => some 0x060
  | .certCopy _ _ | .certInstall _ _ | .bundleApply _ | .bundleStore _ | .attQuote _ => some 0x061
  | .feRead _ => some 0x062
  | _ => none

/-- What a write command of the host is while the block of its page is under test (Table 18.4): the fields of a word beside its command bits are held, and whether it
has a command bit, which is refused. -/
def Instr.inTest (d : Dev) : Instr → Option (HeldWrite × Bool)
  | .txEnableWrite n => some (.txEnable n, false)
  | .txDisableWrite n => some (.txDisable n, false)
  | .txFaultClear n v => some (.txFaultClear n v, false)
  | .txPdDataWrite n v => some (.word (linePage n 4) 0x05C v, false)
  | .rxEnableWrite n => some (.rxEnable n, false)
  | .rxDisableWrite n => some (.rxDisable n, false)
  | .laneTxeqWrite x v => some (.word (lanePage x) (laneOff x + 4) v, false)
  | .laneLpEnter x => some (d.heldLane x 0 1 1, false)
  | .laneLpExit x => some (d.heldLane x 0 1 0, false)
  | .laneLoopbackSet x lb => some (d.heldLane x 1 2 lb.toNat, false)
  | .txClipClear n v => some (.word (linePage n 5) 0x048 (BitVec.ofNat 32 v.toNat), true)
  | .rxOvrClear n v => some (.word (linePage n 9) 0x054 (v &&& 0x7FFFFFFF), true)
  | .capArm n v => some (.word (linePage n 0x0E) 0x040 (v &&& 0xFFFFFFFC), true)
  | .capDisarm n v => some (.word (linePage n 0x0E) 0x040 (v &&& 0xFFFFFFFC), true)
  | .eqReset n v => some (.word (linePage n 0x10) 0x040 (v &&& 0xFFFFFFF7), true)
  | .acqRetry n v | .acqCntClr n v => some (.word (linePage n 0x14) 0x040 (v &&& 0xFFFFF3FF), true)
  | .crSlipClear n v => some (.word (linePage n 0x12) 0x050 (v &&& 0x7FFFFFFF), true)
  | .alignFailClear n => some (.word (linePage n 0x19) 0x048 0, true)
  | .fecSnapTake n _ | .fecSnapClear n => some (.word (linePage n 0x1A) 0x040 0, true)
  | .eqTapSnap n => some (.word (linePage n 0x11) 0x040 0, true)
  | .droneSend n v => some (.word (droneTxPage n) 0x048 (v &&& 0xFFFFBFFF), true)
  | .reqTailWrite v => some (.word 0x292 0x04C v, false)
  | _ => none

end Sys2Proof
end

