-- ==== Sys2Proof/Certificates/Slice0/Obligations.lean ====
section
/-!
DEFINITION. The statements for the provers. `State.Settles evs d s t` says the whole of a command's effect: the device `d` with the sources of
`evs` raised, every other register word, every other part of the device, every byte of HBM and the queue as before.
-/
open Sys2Proof Sys2Proof.Machine

/-- Writes of TX_CTRL.ENABLE start PREP, turn a ramp round, or ramp down.

ENABLE = 1 written to an engine without a fault, in twin mode to the even engine of the pair, lets the line transmit queues of the engines of its state machine run again, and the courses look at them again: in DARK with the conditions of PREP met each of them enters PREP, where a system calibration of its converters ends; in DARK without them only ENABLE changes; elsewhere each one in a normal ramp-down without RELIGHT turns upwards from its present power. Written to an engine with a fault, or to the odd engine of a twin pair, it is refused and counted. ENABLE = 0: each engine in RAMP_UP and LIT starts a normal ramp-down, one in PREP ends in DARK, and in DARK, RAMP_DOWN and MUTED only ENABLE changes; on the odd engine of a twin pair it is refused and counted. E-1n.00 is raised exactly when STATE changes. A W1C write of TX_FAULT clears the bits written but not THERM_SHUTDOWN and bits 6 and 7, and counts reserved bits; where the engines may then enter PREP, they do. -/
def Obligations.TransmitEnableAndDisable : Prop :=
  (∀ (n : Fin 8) (s : State), s.Inv →
      s.dev.pageLive (linePage n 0) = true →
      s.dev.pageInTest (linePage n 0) = false →
      s.dev.txTwin n = false ∨ n.val % 2 = 0 →
      s.dev.txFaulty n = false →
      s.dev.txs n = txDark →
      (({ s.dev.wr (Reg.TX_CTRL_ENABLE n) 1 with xqStopped := s.dev.xqStopped.filter fun q => !((s.dev.txMembers n).map (8 + ·)).contains q } : Dev).settleCourses).mayPrep n = true →
      ∃ t, exec (.txEnableWrite n) s = .next t ∧ State.Settles ((s.dev.txMembers n).map fun m => (10 + m, 0)) ((s.dev.txMembers n).foldl (fun (d : Dev) m => ((d.wr (Reg.TX_STATE_STATE m) txPrep).sysLeave m true).prepWork m) (({ s.dev.wr (Reg.TX_CTRL_ENABLE n) 1 with xqStopped := s.dev.xqStopped.filter fun q => !((s.dev.txMembers n).map (8 + ·)).contains q } : Dev).settleCourses)) s t) ∧
  (∀ (n : Fin 8) (s : State), s.Inv →
      s.dev.pageLive (linePage n 0) = true →
      s.dev.pageInTest (linePage n 0) = false →
      s.dev.txTwin n = false ∨ n.val % 2 = 0 →
      s.dev.txFaulty n = false →
      s.dev.txs n = txDark →
      (({ s.dev.wr (Reg.TX_CTRL_ENABLE n) 1 with xqStopped := s.dev.xqStopped.filter fun q => !((s.dev.txMembers n).map (8 + ·)).contains q } : Dev).settleCourses).mayPrep n = false →
      ∃ t, exec (.txEnableWrite n) s = .next t ∧ State.Settles [] (({ s.dev.wr (Reg.TX_CTRL_ENABLE n) 1 with xqStopped := s.dev.xqStopped.filter fun q => !((s.dev.txMembers n).map (8 + ·)).contains q } : Dev).settleCourses) s t) ∧
  (∀ (n : Fin 8) (s : State), s.Inv →
      s.dev.pageLive (linePage n 0) = true →
      s.dev.pageInTest (linePage n 0) = false →
      s.dev.txTwin n = false ∨ n.val % 2 = 0 →
      s.dev.txFaulty n = false →
      s.dev.txs n ≠ txDark →
      ∃ t, exec (.txEnableWrite n) s = .next t ∧ State.Settles (((s.dev.txMembers n).filter fun m => decide (s.dev.txs m = txRampDown) && !s.dev.on (Reg.TX_STATE_FAST m) && !s.dev.on (Reg.TX_STATE_RELIGHT m)).map fun m => (10 + m, 0)) ((s.dev.txMembers n).foldl (fun (d : Dev) m => if decide (s.dev.txs m = txRampDown) && !s.dev.on (Reg.TX_STATE_FAST m) && !s.dev.on (Reg.TX_STATE_RELIGHT m) then (d.startRamp m (d.rd (Reg.TX_RAMP_TIME_MS (s.dev.txLead m))) true).wr (Reg.TX_STATE_STATE m) txRampUp else d) (({ s.dev.wr (Reg.TX_CTRL_ENABLE n) 1 with xqStopped := s.dev.xqStopped.filter fun q => !((s.dev.txMembers n).map (8 + ·)).contains q } : Dev).settleCourses)) s t) ∧
  (∀ (n : Fin 8) (s : State), s.Inv →
      s.dev.pageLive (linePage n 0) = true →
      s.dev.pageInTest (linePage n 0) = false →
      s.dev.txFaulty n = true ∨ (s.dev.txTwin n = true ∧ n.val % 2 = 1) →
      ∃ t, exec (.txEnableWrite n) s = .next t ∧ State.Settles [] (s.dev.viol (linePage n 0)) s t) ∧
  (∀ (n : Fin 8) (s : State), s.Inv →
      s.dev.pageLive (linePage n 0) = true →
      s.dev.pageInTest (linePage n 0) = false →
      s.dev.txTwin n = false ∨ n.val % 2 = 0 →
      ((s.dev.txMembers n).all fun m => decide (s.dev.txs m ≠ txPrep)) = true →
      ∃ t, exec (.txDisableWrite n) s = .next t ∧ State.Settles (((s.dev.txMembers n).filter fun m => decide (s.dev.txs m = txRampUp ∨ s.dev.txs m = txLit)).map fun m => (10 + m, 0)) ((s.dev.txMembers n).foldl (fun (d : Dev) m => if decide (s.dev.txs m = txRampUp ∨ s.dev.txs m = txLit) then ((d.startRamp m (d.rd (Reg.TX_RAMP_TIME_MS (s.dev.txLead m))) false).wr (Reg.TX_STATE_FAST m) 0).wr (Reg.TX_STATE_STATE m) txRampDown else d) (s.dev.wr (Reg.TX_CTRL_ENABLE n) 0)) s t) ∧
  (∀ (n : Fin 8) (s : State), s.Inv →
      s.dev.pageLive (linePage n 0) = true →
      s.dev.pageInTest (linePage n 0) = false →
      s.dev.txTwin n = false ∨ n.val % 2 = 0 →
      ∃ t, exec (.txDisableWrite n) s = .next t ∧ State.Settles [] ((s.dev.txMembers n).foldl (fun (d : Dev) m => if d.txs m = txPrep then d.toDark m else if d.txs m = txRampUp ∨ d.txs m = txLit then (((d.startRamp m (d.rd (Reg.TX_RAMP_TIME_MS (s.dev.txLead m))) false).wr (Reg.TX_STATE_FAST m) 0).wr (Reg.TX_STATE_STATE m) txRampDown).raise (10 + m) 0 else d) (s.dev.wr (Reg.TX_CTRL_ENABLE n) 0)) s t) ∧
  (∀ (n : Fin 8) (s : State), s.Inv →
      s.dev.pageLive (linePage n 0) = true →
      s.dev.pageInTest (linePage n 0) = false →
      s.dev.txTwin n = true →
      n.val % 2 = 1 →
      ∃ t, exec (.txDisableWrite n) s = .next t ∧ State.Settles [] (s.dev.viol (linePage n 0)) s t) ∧
  (∀ (n : Fin 8) (v : Word) (s : State), s.Inv →
      s.dev.pageLive (linePage n 0) = true →
      s.dev.pageInTest (linePage n 0) = false →
      (if getBits v 8 24 ≠ 0 then (s.dev.setWord (Reg.TX_FAULT_PLL_UNLOCK n).cell (s.dev.word (Reg.TX_FAULT_PLL_UNLOCK n).cell &&& ~~~ (v &&& 0x37))).viol (linePage n 0) else s.dev.setWord (Reg.TX_FAULT_PLL_UNLOCK n).cell (s.dev.word (Reg.TX_FAULT_PLL_UNLOCK n).cell &&& ~~~ (v &&& 0x37))).mayPrep n = false →
      ∃ t, exec (.txFaultClear n v) s = .next t ∧ State.Settles [] ((if getBits v 8 24 ≠ 0 then (s.dev.setWord (Reg.TX_FAULT_PLL_UNLOCK n).cell (s.dev.word (Reg.TX_FAULT_PLL_UNLOCK n).cell &&& ~~~ (v &&& 0x37))).viol (linePage n 0) else s.dev.setWord (Reg.TX_FAULT_PLL_UNLOCK n).cell (s.dev.word (Reg.TX_FAULT_PLL_UNLOCK n).cell &&& ~~~ (v &&& 0x37)))) s t) ∧
  (∀ (n : Fin 8) (v : Word) (s : State), s.Inv →
      s.dev.pageLive (linePage n 0) = true →
      s.dev.pageInTest (linePage n 0) = false →
      (if getBits v 8 24 ≠ 0 then (s.dev.setWord (Reg.TX_FAULT_PLL_UNLOCK n).cell (s.dev.word (Reg.TX_FAULT_PLL_UNLOCK n).cell &&& ~~~ (v &&& 0x37))).viol (linePage n 0) else s.dev.setWord (Reg.TX_FAULT_PLL_UNLOCK n).cell (s.dev.word (Reg.TX_FAULT_PLL_UNLOCK n).cell &&& ~~~ (v &&& 0x37))).mayPrep n = true →
      ∃ t, exec (.txFaultClear n v) s = .next t ∧ State.Settles ((s.dev.txMembers n).map fun m => (10 + m, 0)) ((s.dev.txMembers n).foldl (fun (d : Dev) m => ((d.wr (Reg.TX_STATE_STATE m) txPrep).sysLeave m true).prepWork m) ((if getBits v 8 24 ≠ 0 then (s.dev.setWord (Reg.TX_FAULT_PLL_UNLOCK n).cell (s.dev.word (Reg.TX_FAULT_PLL_UNLOCK n).cell &&& ~~~ (v &&& 0x37))).viol (linePage n 0) else s.dev.setWord (Reg.TX_FAULT_PLL_UNLOCK n).cell (s.dev.word (Reg.TX_FAULT_PLL_UNLOCK n).cell &&& ~~~ (v &&& 0x37))))) s t)

/-- The transmit state machine moves on the events of its ramps, its PLL and its fades (Table 2.6).

In twin mode for both engines of the pair: PREP_COMPLETE after the front-end read takes PREP to RAMP_UP with the derived coefficients, a new ramp and the pre-distortion status bits, and on to a fast ramp-down with RESET_RAMP where PERST_N is asserted; RAMP_UP_COMPLETE takes RAMP_UP to LIT; RAMP_DOWN_COMPLETE and MUTE_FADE_COMPLETE end in DARK, which cuts a Drone burst, and let a reset that waited go on; PREP_TIMEOUT ends PREP in DARK with TX_FAULT bit 2, ENABLE cleared, E-1n.01; TX_PLL_UNLOCK in light mutes the engine with TX_FAULT.PLL_UNLOCK, ENABLE cleared, E-1n.04, the burst cut and the courses in signal fail, in PREP it ends in DARK, and it takes the twin partner out of light; in DARK and MUTED it does nothing. E-1n.00 is raised with each change of STATE. The entries to DARK are stated outside twin mode where nothing waits for it (no relighting commit, no reset, no partner about to enter PREP, no Collimation run pending), and in every state by what the entry to DARK does. -/
def Obligations.TransmitStateMachineEvents : Prop :=
  (∀ (n : Fin 8) (s : State), s.Inv →
      ((s.dev.txMembers n).all fun m => decide (s.dev.txs m = txPrep) && !(s.dev.fee m).forPrep) = true →
      s.dev.power.resetDue = false →
      ∃ t, exec (.prepComplete n) s = .next t ∧ State.Settles ((s.dev.txMembers n).map fun m => (10 + m, 0)) ((s.dev.txMembers n).foldl (fun (d : Dev) m => (((((d.derivePd m).wr (Reg.TX_PD_STAT_LIN_ACTIVE m) (d.rd (Reg.TX_PD_CTRL_LIN_EN m))).wrB (Reg.TX_PD_STAT_NL_ACTIVE m) (d.on (Reg.TX_PD_CTRL_NL_EN m) && (d.on (Reg.TX_PD_STAT_FE_VALID m) || d.on (Reg.TX_PD_CTRL_SRC m)))).startRamp m (d.rd (Reg.TX_RAMP_TIME_MS (s.dev.txLead m))) true).wr (Reg.TX_STATE_STATE m) txRampUp)) (s.dev)) s t) ∧
  (∀ (n : Fin 8) (s : State), s.Inv →
      ((s.dev.txMembers n).all fun m => decide (s.dev.txs m = txPrep) && !(s.dev.fee m).forPrep) = true →
      s.dev.power.resetDue = true →
      ∃ t, exec (.prepComplete n) s = .next t ∧ State.Settles [] ((s.dev.txMembers n).foldl (fun (d : Dev) m => d.fastDown m 4) ((s.dev.txMembers n).foldl (fun (d : Dev) m => (((((d.derivePd m).wr (Reg.TX_PD_STAT_LIN_ACTIVE m) (d.rd (Reg.TX_PD_CTRL_LIN_EN m))).wrB (Reg.TX_PD_STAT_NL_ACTIVE m) (d.on (Reg.TX_PD_CTRL_NL_EN m) && (d.on (Reg.TX_PD_STAT_FE_VALID m) || d.on (Reg.TX_PD_CTRL_SRC m)))).startRamp m (d.rd (Reg.TX_RAMP_TIME_MS (s.dev.txLead m))) true).wr (Reg.TX_STATE_STATE m) txRampUp).raise (10 + m) 0) (s.dev))) s t) ∧
  (∀ (n : Fin 8) (s : State), s.Inv →
      ((s.dev.txMembers n).all fun m => decide (s.dev.txs m = txPrep) && !(s.dev.fee m).forPrep) = false →
      ∃ t, exec (.prepComplete n) s = .next t ∧ State.Settles [] (s.dev) s t) ∧
  (∀ (n : Fin 8) (s : State), s.Inv →
      ∃ t, exec (.rampUpComplete n) s = .next t ∧ State.Settles (((s.dev.txMembers n).filter fun m => decide (s.dev.txs m = txRampUp)).map fun m => (10 + m, 0)) ((s.dev.txMembers n).foldl (fun (d : Dev) m => if s.dev.txs m = txRampUp then d.wr (Reg.TX_STATE_STATE m) txLit else d) (s.dev)) s t) ∧
  (∀ (n : Fin 8) (s : State), s.Inv →
      s.dev.txTwin n = true →
      s.dev.txs (2 * (n.val / 2)) = txRampUp →
      s.dev.txs (2 * (n.val / 2) + 1) = txRampUp →
      ∃ t, exec (.rampUpComplete n) s = .next t ∧ State.Settles ([(10 + 2 * (n.val / 2), 0), (11 + 2 * (n.val / 2), 0)]) ((s.dev.wr (Reg.TX_STATE_STATE (2 * (n / 2))) txLit).wr (Reg.TX_STATE_STATE (2 * (n / 2) + 1)) txLit) s t) ∧
  (∀ (n : Fin 8) (s : State), s.Inv →
      s.dev.txTwin n = false →
      s.dev.txs n = txRampDown →
      s.dev.on (Reg.TX_CTRL_ENABLE n) = false →
      s.dev.later = [] →
      s.dev.power.resetDue = false →
      s.dev.mayPrep (n.val ^^^ 1) = false →
      s.dev.on (Reg.COLREC_PENDING n) = false →
      s.dev.on (Reg.COLREC_PENDING (8 + n)) = false →
      ∃ t, exec (.rampDownComplete n) s = .next t ∧ State.Settles ([(10 + n.val, 0)]) (((((((s.dev.wr (Reg.TX_STATE_STATE n) txDark).cutBurst n).wr (Reg.TX_STATE_FAST n) 0).setTxe n { s.dev.txe n with ramp := ⟨0, false, s.dev.clock, 0, 1⟩ }).settleCourses).wr (Reg.TX_STATE_RELIGHT n) 0)) s t) ∧
  (∀ (n : Fin 8) (s : State), s.Inv →
      ∃ t, exec (.rampDownComplete n) s = .next t ∧ State.Settles [] (((s.dev.txMembers n).foldl (fun (d : Dev) m => if d.txs m = txRampDown then d.toDark m else d) (s.dev)).tryReset) s t) ∧
  (∀ (n : Fin 8) (s : State), s.Inv →
      s.dev.txTwin n = false →
      s.dev.txs n = txMuted →
      s.dev.on (Reg.TX_CTRL_ENABLE n) = false →
      s.dev.later = [] →
      s.dev.power.resetDue = false →
      s.dev.mayPrep (n.val ^^^ 1) = false →
      s.dev.on (Reg.COLREC_PENDING n) = false →
      s.dev.on (Reg.COLREC_PENDING (8 + n)) = false →
      ∃ t, exec (.muteFadeComplete n) s = .next t ∧ State.Settles ([(10 + n.val, 0)]) (((((((s.dev.wr (Reg.TX_STATE_STATE n) txDark).cutBurst n).wr (Reg.TX_STATE_FAST n) 0).setTxe n { s.dev.txe n with ramp := ⟨0, false, s.dev.clock, 0, 1⟩ }).settleCourses).wr (Reg.TX_STATE_RELIGHT n) 0)) s t) ∧
  (∀ (n : Fin 8) (s : State), s.Inv →
      ∃ t, exec (.muteFadeComplete n) s = .next t ∧ State.Settles [] (if s.dev.txs n = txMuted then (s.dev.toDark n).tryReset else s.dev) s t) ∧
  (∀ (n : Fin 8) (s : State), s.Inv →
      s.dev.txTwin n = false →
      s.dev.txs n = txPrep →
      s.dev.later = [] →
      s.dev.power.resetDue = false →
      s.dev.mayPrep (n.val ^^^ 1) = false →
      s.dev.on (Reg.COLREC_PENDING n) = false →
      s.dev.on (Reg.COLREC_PENDING (8 + n)) = false →
      ∃ t, exec (.prepTimeout n) s = .next t ∧ State.Settles ([(10 + n.val, 1), (10 + n.val, 0)]) ((((((((((s.dev.wr ⟨(Reg.TX_FAULT_PLL_UNLOCK n).cell, 2, 1⟩ 1).wr (Reg.TX_CTRL_ENABLE n) 0).wr (Reg.TX_CTRL_ENABLE (s.dev.txLead n)) 0).wr (Reg.TX_STATE_STATE n) txDark).cutBurst n).wr (Reg.TX_STATE_FAST n) 0).setTxe n { s.dev.txe n with ramp := ⟨0, false, s.dev.clock, 0, 1⟩ }).settleCourses).wr (Reg.TX_STATE_RELIGHT n) 0)) s t) ∧
  (∀ (n : Fin 8) (s : State), s.Inv →
      ∃ t, exec (.prepTimeout n) s = .next t ∧ State.Settles [] ((s.dev.txMembers n).foldl (fun (d : Dev) m => if d.txs m = txPrep then ((((d.wr ⟨(Reg.TX_FAULT_PLL_UNLOCK m).cell, 2, 1⟩ 1).wr (Reg.TX_CTRL_ENABLE m) 0).wr (Reg.TX_CTRL_ENABLE (d.txLead m)) 0).raise (10 + m) 1).toDark m else d) (s.dev)) s t) ∧
  (∀ (n : Fin 8) (s : State), s.Inv →
      s.dev.txTwin n = false →
      s.dev.txRamping n = true →
      ∃ t, exec (.txPllUnlock n) s = .next t ∧ State.Settles ([(10 + n.val, 0), (10 + n.val, 4)]) (((((((s.dev.wr ⟨(Reg.TX_FAULT_PLL_UNLOCK n).cell, 0, 1⟩ 1).wr (Reg.TX_CTRL_ENABLE n) 0).wr (Reg.TX_CTRL_ENABLE (s.dev.txLead n)) 0).wr (Reg.TX_STATE_STATE n) txMuted).cutBurst n).wr (Reg.TX_STATE_FAST n) 0).settleCourses) s t) ∧
  (∀ (n : Fin 8) (s : State), s.Inv →
      s.dev.txRamping n = true →
      ∃ t, exec (.txPllUnlock n) s = .next t ∧ State.Settles [] (((((((((s.dev.wr ⟨(Reg.TX_FAULT_PLL_UNLOCK n).cell, 0, 1⟩ 1).wr (Reg.TX_CTRL_ENABLE n) 0).wr (Reg.TX_CTRL_ENABLE (s.dev.txLead n)) 0).wr (Reg.TX_STATE_STATE n) txMuted).raise (10 + n) 0).cutBurst n).wr (Reg.TX_STATE_FAST n) 0).raise (10 + n) 4).settleCourses.partnerFault n) s t) ∧
  (∀ (n : Fin 8) (s : State), s.Inv →
      s.dev.txs n = txPrep →
      ∃ t, exec (.txPllUnlock n) s = .next t ∧ State.Settles [] ((((((((s.dev.raise (10 + n) 4).wr ⟨(Reg.TX_FAULT_PLL_UNLOCK n).cell, 0, 1⟩ 1).wr (Reg.TX_CTRL_ENABLE n) 0).wr (Reg.TX_CTRL_ENABLE (s.dev.txLead n)) 0)).raise (10 + n) 1).toDark n).partnerFault n) s t) ∧
  (∀ (n : Fin 8) (s : State), s.Inv →
      s.dev.txs n = txDark ∨ s.dev.txs n = txMuted →
      ∃ t, exec (.txPllUnlock n) s = .next t ∧ State.Settles [] (s.dev) s t)

/-- The clip counter, its threshold, and the pre-distortion window.

The clipped samples of a window are added to TX_CLIP_CNT, saturating, and E-1n.03 is raised where they exceed the threshold in force; CLEAR sets the counter to 0 while the same write sets the threshold; a write of TX_PD_DATA stores bits 17 to 0 in the shadow bank at INDEX below 296 and advances INDEX, and at a reserved INDEX or with reserved bits set is counted. -/
def Obligations.TransmitClippingAndPredistortion : Prop :=
  (∀ (n : Fin 8) (clipped : Nat) (s : State), s.Inv →
      ∃ t, exec (.clipWindowEnd n clipped) s = .next t ∧ State.Settles (if clipped > s.dev.rd (Reg.TX_CLIP_THR_THRESHOLD n) then [(10 + n.val, 3)] else []) (s.dev.wr (Reg.TX_CLIP_CNT n) (satAdd 32 (s.dev.rd (Reg.TX_CLIP_CNT n)) clipped)) s t) ∧
  (∀ (n : Fin 8) (v : BitVec 16) (s : State), s.Inv →
      s.dev.pageLive (linePage n 5) = true →
      s.dev.pageInTest (linePage n 5) = false →
      ∃ t, exec (.txClipClear n v) s = .next t ∧ State.Settles [] ((s.dev.wr (Reg.TX_CLIP_CNT n) 0).wr (Reg.TX_CLIP_THR_THRESHOLD n) v.toNat) s t) ∧
  (∀ (n : Fin 8) (v : Word) (s : State), s.Inv →
      s.dev.pageLive (linePage n 4) = true →
      s.dev.pageInTest (linePage n 4) = false →
      s.dev.rd (Reg.TX_PD_ADDR_INDEX n) < 296 →
      ∃ t, exec (.txPdDataWrite n v) s = .next t ∧ State.Settles [] (((if getBits v 18 14 ≠ 0 then s.dev.viol (linePage n 4) else s.dev).setTxe n { s.dev.txe n with pdShadow := sset (dflt 0) (s.dev.txe n).pdShadow (s.dev.rd (Reg.TX_PD_ADDR_INDEX n)) (getBits v 0 18) }).wr (Reg.TX_PD_ADDR_INDEX n) (s.dev.rd (Reg.TX_PD_ADDR_INDEX n) + 1)) s t) ∧
  (∀ (n : Fin 8) (v : Word) (s : State), s.Inv →
      s.dev.pageLive (linePage n 4) = true →
      s.dev.pageInTest (linePage n 4) = false →
      296 ≤ s.dev.rd (Reg.TX_PD_ADDR_INDEX n) →
      ∃ t, exec (.txPdDataWrite n v) s = .next t ∧ State.Settles [] ((s.dev.viol (linePage n 4)).wr (Reg.TX_PD_ADDR_INDEX n) (s.dev.rd (Reg.TX_PD_ADDR_INDEX n) + 1)) s t)

/-- Enabling and disabling a receiver, and its sampling PLL.

ENABLE = 1 to an idle receiver whose ADC calibration is valid clears TRIES and LAST_FAIL, shows the rate, fixes the window and the dispersion headroom, starts the front-end read and the sampling PLL, chooses the resampler and enters WAIT_SAMPLES; ENABLE = 0 ends in IDLE with PLL_LOCK, TR_LOCK, TR_HOLD and the chosen resampler cleared; the PLL locks into WAIT_SIGNAL with E-1n.08, a lock that is 10 ms late raises E-1n.08 once, and an unlock stops the samples and returns to WAIT_SAMPLES. A measured value whose loop stops keeps its last value. E-1n.08 and E-1n.09 are raised where PLL_LOCK and TR_LOCK change. The last clauses hold in every state, with captures under way, in twin mode and while LOCKED: the same steps, the captures truncated into HBM; a lock or an unlock of a PLL that does not run, or is not locked, changes nothing. -/
def Obligations.ReceiveEnableAndSampling : Prop :=
  (∀ (n : Fin 8) (s : State), s.Inv →
      s.dev.pageLive (linePage n 8) = true →
      s.dev.pageInTest (linePage n 8) = false →
      s.dev.acq n = acqIdle →
      (s.dev.rxe n).pllRun = false →
      s.dev.mayReceive n = true →
      s.dev.on (Reg.LCAL_STAT_ADC_VALID n) = true →
      s.dev.on (Reg.RX_SAMP_STAT_PLL_LOCK n) = false →
      ∃ t, exec (.rxEnableWrite n) s = .next t ∧ State.Settles [] ((fun (x : Dev) => x.keepMeasured n (((x.setRxe n { x.rxe n with lost := (x.rxe n).lost || decide (acqIdle = acqLocked) }).wr (Reg.ACQ_STAT_STATE n) acqWaitSamples).acqEnter n acqIdle acqWaitSamples)) (({ ((((((((s.dev.wr (Reg.RX_CTRL_ENABLE n) 1).wr (Reg.ACQ_STAT_TRIES n) 0).wr (Reg.ACQ_STAT_LAST_FAIL n) 0).showRxRate n).fixWindow n).fixDispersion n)).setRxe n { s.dev.rxe n with keptD := none, keptFails := 0, onKept := false, fault := false, pllRun := true, late := false, calWait := false }) with xqStopped := s.dev.xqStopped.filter fun q => q ≠ n.val }.feStart n false true false).chooseResamp n)) s t) ∧
  (∀ (n : Fin 8) (s : State), s.Inv →
      s.dev.pageLive (linePage n 8) = true →
      s.dev.pageInTest (linePage n 8) = false →
      s.dev.acq n ≠ acqIdle →
      s.dev.acq n ≠ acqLocked →
      (s.dev.cpe n).run = none →
      (s.dev.cpe n).drains = [] →
      s.dev.on (Reg.COLREC_PENDING n) = false →
      s.dev.on (Reg.COLREC_PENDING (8 + n)) = false →
      ∃ t, exec (.rxDisableWrite n) s = .next t ∧ State.Settles ((if s.dev.on (Reg.RX_SAMP_STAT_PLL_LOCK n) then [(10 + n.val, 8)] else []) ++ (if s.dev.on (Reg.RX_RESAMP_STAT_TR_LOCK n) then [(10 + n.val, 9)] else [])) (((fun (x : Dev) => x.setRxe n { x.rxe n with present := false, late := false, onKept := false, pllRun := false, calWait := false }) (((fun (x : Dev) => if x.on (Reg.RX_RESAMP_STAT_TR_LOCK n) then x.keepMeasured n (x.wrB (Reg.RX_RESAMP_STAT_TR_LOCK n) false) else x) (((fun (x : Dev) => x.keepMeasured n (((x.setRxe n { x.rxe n with lost := (x.rxe n).lost || decide ((s.dev.acq n) = acqLocked) }).wr (Reg.ACQ_STAT_STATE n) acqIdle).acqEnter n (s.dev.acq n) acqIdle)) (s.dev.wr (Reg.RX_CTRL_ENABLE n) 0)).wrB (Reg.RX_SAMP_STAT_PLL_LOCK n) false)).wr (Reg.RX_RESAMP_STAT_TR_HOLD n) 0)).wr (Reg.RX_RESAMP_STAT_ACTIVE_MODE n) 0 |>.wr (Reg.RX_RESAMP_STAT_ACTIVE_PRESET n) 0 |>.wr (Reg.RX_SAMP_STAT_FS_MSPS n) 0) s t) ∧
  (∀ (n : Fin 8) (s : State), s.Inv →
      (s.dev.rxe n).pllRun = true →
      s.dev.on (Reg.RX_SAMP_STAT_PLL_LOCK n) = false →
      s.dev.acq n = acqWaitSamples →
      (s.dev.rxe n).present = false →
      ∃ t, exec (.sampPllLock n) s = .next t ∧ State.Settles ([(10 + n.val, 8)]) ((fun (x : Dev) => x.keepMeasured n (((x.setRxe n { x.rxe n with lost := (x.rxe n).lost || decide (acqWaitSamples = acqLocked) }).wr (Reg.ACQ_STAT_STATE n) acqWaitSignal).acqEnter n acqWaitSamples acqWaitSignal)) (((s.dev).setRxe n { s.dev.rxe n with late := false }).wr (Reg.RX_SAMP_STAT_PLL_LOCK n) 1)) s t) ∧
  (∀ (n : Fin 8) (s : State), s.Inv →
      (s.dev.rxe n).pllRun = true →
      s.dev.on (Reg.RX_SAMP_STAT_PLL_LOCK n) = false →
      (s.dev.rxe n).late = false →
      ∃ t, exec (.sampPllLockTimeout n) s = .next t ∧ State.Settles ([(10 + n.val, 8)]) ((s.dev).setRxe n { s.dev.rxe n with late := true }) s t) ∧
  (∀ (n : Fin 8) (s : State), s.Inv →
      s.dev.on (Reg.RX_SAMP_STAT_PLL_LOCK n) = true →
      s.dev.acq n ≠ acqLocked →
      (s.dev.cpe n).run = none →
      (s.dev.cpe n).drains = [] →
      ∃ t, exec (.sampPllUnlock n) s = .next t ∧ State.Settles ((if s.dev.on (Reg.RX_SAMP_STAT_PLL_LOCK n) then [(10 + n.val, 8)] else []) ++ (if s.dev.on (Reg.RX_RESAMP_STAT_TR_LOCK n) then [(10 + n.val, 9)] else [])) ((fun (x : Dev) => x.keepMeasured n (((x.setRxe n { x.rxe n with lost := (x.rxe n).lost || decide ((s.dev.acq n) = acqLocked) }).wr (Reg.ACQ_STAT_STATE n) acqWaitSamples).acqEnter n (s.dev.acq n) acqWaitSamples)) ((fun (x : Dev) => x.setRxe n { x.rxe n with present := false, late := false, onKept := false }) (((fun (x : Dev) => if x.on (Reg.RX_RESAMP_STAT_TR_LOCK n) then x.keepMeasured n (x.wrB (Reg.RX_RESAMP_STAT_TR_LOCK n) false) else x) ((s.dev).wrB (Reg.RX_SAMP_STAT_PLL_LOCK n) false)).wr (Reg.RX_RESAMP_STAT_TR_HOLD n) 0))) s t) ∧
  (∀ (n : Fin 8) (s : State), s.Inv →
      s.dev.pageLive (linePage n 8) = true →
      s.dev.pageInTest (linePage n 8) = false →
      ∃ t, exec (.rxEnableWrite n) s = .next t ∧ State.Settles [] (((if (s.dev.rxe n).pllRun then ((((((fun (x : Dev) => x.setRxe n { x.rxe n with keptD := none, keptFails := 0, onKept := false, fault := false }) ((((s.dev.wr (Reg.RX_CTRL_ENABLE n) 1).sysLeave n false).wr (Reg.ACQ_STAT_TRIES n) 0).wr (Reg.ACQ_STAT_LAST_FAIL n) 0)) |> fun (x : Dev) => { x with xqStopped := s.dev.xqStopped.filter fun q => q ≠ n.val }).showRxRate n).fixWindow n).fixDispersion n).feStart n false true false else (((((((fun (x : Dev) => x.setRxe n { x.rxe n with keptD := none, keptFails := 0, onKept := false, fault := false }) ((((s.dev.wr (Reg.RX_CTRL_ENABLE n) 1).sysLeave n false).wr (Reg.ACQ_STAT_TRIES n) 0).wr (Reg.ACQ_STAT_LAST_FAIL n) 0)) |> fun (x : Dev) => { x with xqStopped := s.dev.xqStopped.filter fun q => q ≠ n.val }).showRxRate n).fixWindow n).fixDispersion n).feStart n false true false).chooseResamp n).pllStart n).acqSettle n) s t) ∧
  (∀ (n : Fin 8) (s : State), s.Inv →
      s.dev.pageLive (linePage n 8) = true →
      s.dev.pageInTest (linePage n 8) = false →
      ∃ t, exec (.rxDisableWrite n) s = .next t ∧ (
      let a : Dev := ((((fun (x : Dev) => x.setRxe n { x.rxe n with pllRun := false, calWait := false }) ((if s.dev.acq n = acqIdle then s.dev.wr (Reg.RX_CTRL_ENABLE n) 0 else (s.dev.wr (Reg.RX_CTRL_ENABLE n) 0).acqGo n acqIdle).samplesStop n)).wr (Reg.RX_RESAMP_STAT_ACTIVE_MODE n) 0).wr (Reg.RX_RESAMP_STAT_ACTIVE_PRESET n) 0 |>.wr (Reg.RX_SAMP_STAT_FS_MSPS n) 0).settlePending n
      State.Stores ([]) ({ a with hbmOut := [] }) (a.hbmOut) s t)) ∧
  (∀ (n : Fin 8) (s : State), s.Inv →
      ∃ t, exec (.sampPllLock n) s = .next t ∧ State.Settles [] (if (s.dev.rxe n).pllRun then (((s.dev).setRxe n { s.dev.rxe n with late := false }).setPllLock n true).acqSettle n else s.dev) s t) ∧
  (∀ (n : Fin 8) (s : State), s.Inv →
      (s.dev.rxe n).pllRun = false ∨ s.dev.on (Reg.RX_SAMP_STAT_PLL_LOCK n) = true ∨ (s.dev.rxe n).late = true →
      ∃ t, exec (.sampPllLockTimeout n) s = .next t ∧ State.Settles [] (s.dev) s t) ∧
  (∀ (n : Fin 8) (s : State), s.Inv →
      ∃ t, exec (.sampPllUnlock n) s = .next t ∧ (
      let a : Dev := if s.dev.on (Reg.RX_SAMP_STAT_PLL_LOCK n) then (s.dev.samplesStop n).acqGo n acqWaitSamples else s.dev
      State.Stores ([]) ({ a with hbmOut := [] }) (a.hbmOut) s t))

/-- The overrange window, its counter, and the timing loop.

The overrange samples of a window are added to RX_OVR_CNT, the lane levels are shown, E-1n.13 is raised above the threshold and tracked IQ estimates are taken within their bounds; CLEAR zeroes the counter; TR_LOCK set and cleared raises E-1n.09 and moves the acquisition on or back; TR_HOLD follows its commands, and a hold of 100 µs clears TR_LOCK, which in LOCKED loses lock with cause 10 to TIMING. A measured value whose loop stops keeps its last value. A clearing of a TR_LOCK that is 0, a lock without PLL_LOCK and a timeout without TR_HOLD change nothing. -/
def Obligations.ReceiveFrontWindowsAndTiming : Prop :=
  (∀ (n : Fin 8) (count : Nat) (r0 r1 r2 r3 : Byte) (gx px gy py : Int) (s : State), s.Inv →
      ∃ t, exec (.ovrWindowEnd n ⟨count, gx, px, gy, py⟩ r0 r1 r2 r3) s = .next t ∧ State.Settles (if count > s.dev.rd (Reg.RX_OVR_THR_THRESHOLD n) then [(10 + n.val, 13)] else []) ((fun (x : Dev) => if x.on (Reg.RX_SKIQ_CTRL_IQ_TRACK n) && x.on (Reg.RX_SAMP_STAT_PLL_LOCK n) then x.setIq n (fun k => if k = 0 then gx else gy) (fun k => if k = 0 then px else py) else x) (s.dev.bumpBy (Reg.RX_OVR_CNT n) count |>.wr (Reg.RX_ADC_LEVEL_RMS n 0) r0.toNat |>.wr (Reg.RX_ADC_LEVEL_RMS n 1) r1.toNat |>.wr (Reg.RX_ADC_LEVEL_RMS n 2) r2.toNat |>.wr (Reg.RX_ADC_LEVEL_RMS n 3) r3.toNat)) s t) ∧
  (∀ (n : Fin 8) (v : Word) (s : State), s.Inv →
      s.dev.pageLive (linePage n 9) = true →
      s.dev.pageInTest (linePage n 9) = false →
      ∃ t, exec (.rxOvrClear n v) s = .next t ∧ State.Settles [] ((s.dev.writeWord (linePage n 9) 0x054 0x80000000 (v ||| 0x80000000)).wr (Reg.RX_OVR_CNT n) 0) s t) ∧
  (∀ (n : Fin 8) (s : State), s.Inv →
      s.dev.on (Reg.RX_SAMP_STAT_PLL_LOCK n) = true →
      s.dev.on (Reg.RX_RESAMP_STAT_TR_LOCK n) = false →
      s.dev.acq n = acqTiming →
      ∃ t, exec (.trLockSet n .found) s = .next t ∧ State.Settles ([(10 + n.val, 9)]) ((fun (x : Dev) => x.keepMeasured n (((x.setRxe n { x.rxe n with lost := (x.rxe n).lost || decide (acqTiming = acqLocked) }).wr (Reg.ACQ_STAT_STATE n) acqConverge).acqEnter n acqTiming acqConverge)) (s.dev.keepMeasured n ((fun (x : Dev) => x.setRxe n { x.rxe n with phaseSteps := 0 }) (s.dev.wr (Reg.RX_RESAMP_STAT_TR_LOCK n) 1)))) s t) ∧
  (∀ (n : Fin 8) (s : State), s.Inv →
      s.dev.on (Reg.RX_RESAMP_STAT_TR_LOCK n) = true →
      s.dev.acq n = acqFreq ∨ s.dev.acq n = acqCd ∨ s.dev.acq n = acqTiming ∨ s.dev.acq n = acqPilot ∨ s.dev.acq n = acqCarrier →
      ∃ t, exec (.trLockClear n) s = .next t ∧ State.Settles ([(10 + n.val, 9)]) (s.dev.keepMeasured n (s.dev.wrB (Reg.RX_RESAMP_STAT_TR_LOCK n) false)) s t) ∧
  (∀ (n : Fin 8) (s : State), s.Inv →
      s.dev.on (Reg.RX_RESAMP_STAT_TR_LOCK n) = true →
      s.dev.acq n = acqConverge →
      (s.dev.rxe n).onKept = false →
      ∃ t, exec (.trLockClear n) s = .next t ∧ State.Settles ([(10 + n.val, 9), (10 + n.val, 17)]) ((fun (x : Dev) => x.keepMeasured n (((x.setRxe n { x.rxe n with lost := (x.rxe n).lost || decide (acqConverge = acqLocked) }).wr (Reg.ACQ_STAT_STATE n) acqBackoff).acqEnter n acqConverge acqBackoff)) (((((fun (x : Dev) => x.setRxe n { x.rxe n with onKept := false }) (s.dev.keepMeasured n (s.dev.wrB (Reg.RX_RESAMP_STAT_TR_LOCK n) false))).wr (Reg.ACQ_STAT_LAST_FAIL n) 4).bump (Reg.ACQ_STAT_TRIES n)).bump (Reg.ACQ_FAIL_CNT n))) s t) ∧
  (∀ (n : Fin 8) (s : State), s.Inv →
      s.dev.on (Reg.RX_SAMP_STAT_PLL_LOCK n) = true →
      ∃ t, exec (.trHoldEnter n) s = .next t ∧ State.Settles [] (s.dev.keepMeasured n (s.dev.wr (Reg.RX_RESAMP_STAT_TR_HOLD n) 1)) s t) ∧
  (∀ (n : Fin 8) (s : State), s.Inv →
      ∃ t, exec (.trHoldResume n) s = .next t ∧ State.Settles [] (s.dev.wr (Reg.RX_RESAMP_STAT_TR_HOLD n) 0) s t) ∧
  (∀ (n : Fin 8) (s : State), s.Inv →
      s.dev.on (Reg.RX_RESAMP_STAT_TR_HOLD n) = true →
      s.dev.on (Reg.RX_RESAMP_STAT_TR_LOCK n) = true →
      s.dev.acq n = acqConverge →
      (s.dev.rxe n).onKept = false →
      ∃ t, exec (.trHoldTimeout n) s = .next t ∧ State.Settles ([(10 + n.val, 9), (10 + n.val, 17)]) ((fun (x : Dev) => x.keepMeasured n (((x.setRxe n { x.rxe n with lost := (x.rxe n).lost || decide (acqConverge = acqLocked) }).wr (Reg.ACQ_STAT_STATE n) acqBackoff).acqEnter n acqConverge acqBackoff)) (((((fun (x : Dev) => x.setRxe n { x.rxe n with onKept := false }) (s.dev.keepMeasured n (s.dev.wrB (Reg.RX_RESAMP_STAT_TR_LOCK n) false))).wr (Reg.ACQ_STAT_LAST_FAIL n) 4).bump (Reg.ACQ_STAT_TRIES n)).bump (Reg.ACQ_FAIL_CNT n))) s t) ∧
  (∀ (n : Fin 8) (s : State), s.Inv →
      ∃ t, exec (.trLockSet n .found) s = .next t ∧ State.Settles [] (if s.dev.on (Reg.RX_SAMP_STAT_PLL_LOCK n) then (s.dev.setTrLock n true).acqSettle n else s.dev) s t) ∧
  (∀ (n : Fin 8) (s : State), s.Inv →
      s.dev.on (Reg.RX_RESAMP_STAT_TR_LOCK n) = true →
      s.dev.acq n = acqLocked →
      ∃ t, exec (.trLockClear n) s = .next t ∧ State.Settles [] ((s.dev.setTrLock n false).acqLose n acqTiming 10) s t) ∧
  (∀ (n : Fin 8) (s : State), s.Inv →
      s.dev.acq n ≠ acqLocked →
      ∃ t, exec (.trLockClear n) s = .next t ∧ State.Settles [] (if s.dev.on (Reg.RX_RESAMP_STAT_TR_LOCK n) then (s.dev.setTrLock n false).acqSettle n else s.dev) s t) ∧
  (∀ (n : Fin 8) (s : State), s.Inv →
      s.dev.on (Reg.RX_SAMP_STAT_PLL_LOCK n) = false →
      ∃ t, exec (.trHoldEnter n) s = .next t ∧ State.Settles [] (s.dev) s t) ∧
  (∀ (n : Fin 8) (s : State), s.Inv →
      s.dev.on (Reg.RX_RESAMP_STAT_TR_HOLD n) = true →
      s.dev.on (Reg.RX_RESAMP_STAT_TR_LOCK n) = true →
      s.dev.acq n = acqLocked →
      ∃ t, exec (.trHoldTimeout n) s = .next t ∧ State.Settles [] ((s.dev.setTrLock n false).acqLose n acqTiming 10) s t) ∧
  (∀ (n : Fin 8) (s : State), s.Inv →
      s.dev.acq n ≠ acqLocked →
      ∃ t, exec (.trHoldTimeout n) s = .next t ∧ State.Settles [] (if s.dev.on (Reg.RX_RESAMP_STAT_TR_HOLD n) && s.dev.on (Reg.RX_RESAMP_STAT_TR_LOCK n) then (s.dev.setTrLock n false).acqSettle n else s.dev) s t)

/-- Signal, frequency, dispersion, equaliser and pilot searches of the acquisition.

A signal present takes WAIT_SIGNAL to FREQ_SEARCH; its loss in CARRIER_LOCK ends the attempt with cause 7; a frequency within 5.2 GHz goes on to TIMING where D is given, one beyond it ends the attempt with cause 1; the dispersion search gives its D, kept where KEEP_CD is set, or ends with cause 2; convergence above 3 dB leads to PILOT_SYNC; pilot states that match the seeds lead to CARRIER_LOCK; a state limit ends the attempt with the state’s cause. Every end of an attempt goes to BACKOFF, counts TRIES and ACQ_FAIL_CNT, and raises E-1n.17, and discards the kept D at its second failure. In every state, twin mode and a kept D included: a signal that comes lets the next transition follow; its loss ends an attempt with its state’s cause, takes LOCKED to HOLD, and elsewhere is only noted; a kept D is used at once where SRC is 1; pilot states that match the seeds exchanged set SWAPPED, and none that match ends the attempt with cause 6, MISMATCH and E-1n.22. -/
def Obligations.AcquisitionSearches : Prop :=
  (∀ (n : Fin 8) (s : State), s.Inv →
      (s.dev.rxe n).present = false →
      s.dev.on (Reg.RX_SAMP_STAT_PLL_LOCK n) = true →
      s.dev.acq n = acqWaitSignal →
      ∃ t, exec (.signalPresent n) s = .next t ∧ State.Settles ([(10 + n.val, 19)]) ((fun (x : Dev) => x.keepMeasured n (((x.setRxe n { x.rxe n with lost := (x.rxe n).lost || decide (acqWaitSignal = acqLocked) }).wr (Reg.ACQ_STAT_STATE n) acqFreq).acqEnter n acqWaitSignal acqFreq)) ((s.dev).setRxe n { s.dev.rxe n with present := true, acqStart := s.dev.clock })) s t) ∧
  (∀ (n : Fin 8) (s : State), s.Inv →
      (s.dev.rxe n).present = true →
      s.dev.acq n = acqCarrier →
      (s.dev.rxe n).onKept = false →
      ∃ t, exec (.signalLos n) s = .next t ∧ State.Settles ([(10 + n.val, 19), (10 + n.val, 17)]) ((fun (x : Dev) => x.keepMeasured n (((x.setRxe n { x.rxe n with lost := (x.rxe n).lost || decide (acqCarrier = acqLocked) }).wr (Reg.ACQ_STAT_STATE n) acqBackoff).acqEnter n acqCarrier acqBackoff)) (((((fun (x : Dev) => x.setRxe n { x.rxe n with present := false, onKept := false }) (s.dev)).wr (Reg.ACQ_STAT_LAST_FAIL n) 7).bump (Reg.ACQ_STAT_TRIES n)).bump (Reg.ACQ_FAIL_CNT n))) s t) ∧
  (∀ (n : Fin 8) (o : Int) (s : State), s.Inv →
      s.dev.acq n = acqFreq →
      o.natAbs ≤ 52000 →
      s.dev.on (Reg.RX_CD_SRC n) = false →
      s.dev.on (Reg.RX_RESAMP_STAT_TR_LOCK n) = false →
      ∃ t, exec (.freqSearchDone n o) s = .next t ∧ State.Settles [] ((fun (x : Dev) => x.keepMeasured n (((x.setRxe n { x.rxe n with lost := (x.rxe n).lost || decide (acqFreq = acqLocked) }).wr (Reg.ACQ_STAT_STATE n) acqTiming).acqEnter n acqFreq acqTiming)) ((s.dev.wrS (Reg.CR_FREQ_OFFSET n) o).wr (Reg.CR_STAT_FREQ_LOCK n) 1)) s t) ∧
  (∀ (n : Fin 8) (o : Int) (s : State), s.Inv →
      s.dev.acq n = acqFreq →
      52000 < o.natAbs →
      (s.dev.rxe n).onKept = false →
      ∃ t, exec (.freqSearchDone n o) s = .next t ∧ State.Settles ([(10 + n.val, 17)]) ((fun (x : Dev) => x.keepMeasured n (((x.setRxe n { x.rxe n with lost := (x.rxe n).lost || decide (acqFreq = acqLocked) }).wr (Reg.ACQ_STAT_STATE n) acqBackoff).acqEnter n acqFreq acqBackoff)) (((((fun (x : Dev) => x.setRxe n { x.rxe n with onKept := false }) (s.dev)).wr (Reg.ACQ_STAT_LAST_FAIL n) 1).bump (Reg.ACQ_STAT_TRIES n)).bump (Reg.ACQ_FAIL_CNT n))) s t) ∧
  (∀ (n : Fin 8) (st cause : Nat) (s : State), s.Inv →
      (st, cause) ∈ [(acqFreq, 1), (acqTiming, 3), (acqConverge, 4), (acqPilot, 5), (acqCarrier, 7), (acqFast, 9)] →
      s.dev.acq n = st →
      (s.dev.rxe n).onKept = false →
      ∃ t, exec (.acqStateLimit n) s = .next t ∧ State.Settles ([(10 + n.val, 17)]) ((fun (x : Dev) => x.keepMeasured n (((x.setRxe n { x.rxe n with lost := (x.rxe n).lost || decide (st = acqLocked) }).wr (Reg.ACQ_STAT_STATE n) acqBackoff).acqEnter n st acqBackoff)) (((((fun (x : Dev) => x.setRxe n { x.rxe n with onKept := false }) (s.dev)).wr (Reg.ACQ_STAT_LAST_FAIL n) cause).bump (Reg.ACQ_STAT_TRIES n)).bump (Reg.ACQ_FAIL_CNT n))) s t) ∧
  (∀ (n : Fin 8) (d : Int) (s : State), s.Inv →
      s.dev.acq n = acqCd →
      s.dev.on (Reg.RX_RESAMP_STAT_TR_LOCK n) = false →
      ∃ t, exec (.cdSearchDone n (some d)) s = .next t ∧ State.Settles [] ((fun (x : Dev) => x.keepMeasured n (((x.setRxe n { x.rxe n with lost := (x.rxe n).lost || decide (acqCd = acqLocked) }).wr (Reg.ACQ_STAT_STATE n) acqTiming).acqEnter n acqCd acqTiming)) (if s.dev.on (Reg.ACQ_CTRL_KEEP_CD n) then (s.dev.wrS (Reg.RX_CD_STAT_APPLIED n) d).setRxe n { s.dev.rxe n with keptD := some d, keptFails := 0 } else s.dev.wrS (Reg.RX_CD_STAT_APPLIED n) d)) s t) ∧
  (∀ (n : Fin 8) (s : State), s.Inv →
      s.dev.acq n = acqCd →
      (s.dev.rxe n).onKept = false →
      ∃ t, exec (.cdSearchDone n none) s = .next t ∧ State.Settles ([(10 + n.val, 17)]) ((fun (x : Dev) => x.keepMeasured n (((x.setRxe n { x.rxe n with lost := (x.rxe n).lost || decide (acqCd = acqLocked) }).wr (Reg.ACQ_STAT_STATE n) acqBackoff).acqEnter n acqCd acqBackoff)) (((((fun (x : Dev) => x.setRxe n { x.rxe n with onKept := false }) (s.dev)).wr (Reg.ACQ_STAT_LAST_FAIL n) 2).bump (Reg.ACQ_STAT_TRIES n)).bump (Reg.ACQ_FAIL_CNT n))) s t) ∧
  (∀ (n : Fin 8) (e : BitVec 16) (s : State), s.Inv →
      s.dev.acq n = acqConverge →
      300 < e.toNat →
      ∃ t, exec (.eqConverged n e) s = .next t ∧ State.Settles [] ((fun (x : Dev) => x.keepMeasured n (((x.setRxe n { x.rxe n with lost := (x.rxe n).lost || decide (acqConverge = acqLocked) }).wr (Reg.ACQ_STAT_STATE n) acqPilot).acqEnter n acqConverge acqPilot)) ((s.dev.wr (Reg.EQ_STAT_ESNR n) e.toNat).wr (Reg.EQ_STAT_CONVERGED n) 1)) s t) ∧
  (∀ (n : Fin 8) (s0 s1 : BitVec 15) (s : State), s.Inv →
      s.dev.acq n = acqPilot →
      pilotMatch 32767 (s.dev.rxe n).seedX (s.dev.rxe n).seedY s0.toNat s1.toNat = true →
      ∃ t, exec (.pilotSyncDone n s0 s1) s = .next t ∧ State.Settles [] (((fun (x : Dev) => x.keepMeasured n (((x.setRxe n { x.rxe n with lost := (x.rxe n).lost || decide (acqPilot = acqLocked) }).wr (Reg.ACQ_STAT_STATE n) acqCarrier).acqEnter n acqPilot acqCarrier)) (s.dev.wr (Reg.PILOT_STAT_SWAPPED n) 0)).wr (Reg.PILOT_STAT_SYNC n) 1) s t) ∧
  (∀ (n : Fin 8) (s : State), s.Inv →
      ∃ t, exec (.signalPresent n) s = .next t ∧ State.Settles [] (if (s.dev.rxe n).present || !s.dev.on (Reg.RX_SAMP_STAT_PLL_LOCK n) then s.dev else (((s.dev).setRxe n { s.dev.rxe n with present := true }).raise (10 + n) 19).acqSettle n) s t) ∧
  (∀ (n : Fin 8) (st cause : Nat) (s : State), s.Inv →
      (st, cause) ∈ [(acqFreq, 1), (acqCd, 2), (acqTiming, 3), (acqConverge, 4), (acqPilot, 5), (acqCarrier, 7), (acqFast, 9)] →
      s.dev.acq n = st →
      (s.dev.rxe n).present = true →
      ∃ t, exec (.signalLos n) s = .next t ∧ State.Settles [] ((((s.dev).setRxe n { s.dev.rxe n with present := false }).raise (10 + n) 19).acqBackoffFor n cause) s t) ∧
  (∀ (n : Fin 8) (s : State), s.Inv →
      s.dev.acq n = acqLocked →
      (s.dev.rxe n).present = true →
      ∃ t, exec (.signalLos n) s = .next t ∧ State.Settles [] ((((s.dev).setRxe n { s.dev.rxe n with present := false }).raise (10 + n) 19).acqGo n acqHold) s t) ∧
  (∀ (n : Fin 8) (s : State), s.Inv →
      (s.dev.rxe n).present = false ∨ s.dev.acq n < acqFreq ∨ s.dev.acq n = acqHold ∨ s.dev.acq n = acqBackoff ∨ s.dev.acq n = acqFailed →
      ∃ t, exec (.signalLos n) s = .next t ∧ State.Settles [] (if (s.dev.rxe n).present then ((s.dev).setRxe n { s.dev.rxe n with present := false }).raise (10 + n) 19 else s.dev) s t) ∧
  (∀ (n : Fin 8) (o D : Int) (s : State), s.Inv →
      s.dev.acq n = acqFreq →
      o.natAbs ≤ 52000 →
      s.dev.on (Reg.RX_CD_SRC n) = true →
      s.dev.on (Reg.ACQ_CTRL_KEEP_CD n) = true →
      (s.dev.rxe n).keptD = some D →
      ∃ t, exec (.freqSearchDone n o) s = .next t ∧ State.Settles [] (((((s.dev.wrS (Reg.CR_FREQ_OFFSET n) o).wr (Reg.CR_STAT_FREQ_LOCK n) 1).wrS (Reg.RX_CD_STAT_APPLIED n) D |>.setRxe n { s.dev.rxe n with onKept := true }).acqGo n acqTiming).acqSettle n) s t) ∧
  (∀ (n : Fin 8) (o : Int) (s : State), s.Inv →
      s.dev.acq n = acqFreq →
      o.natAbs ≤ 52000 →
      s.dev.on (Reg.RX_CD_SRC n) = true →
      s.dev.on (Reg.ACQ_CTRL_KEEP_CD n) = false ∨ (s.dev.rxe n).keptD = none →
      ∃ t, exec (.freqSearchDone n o) s = .next t ∧ State.Settles [] (((s.dev.wrS (Reg.CR_FREQ_OFFSET n) o).wr (Reg.CR_STAT_FREQ_LOCK n) 1).acqGo n acqCd) s t) ∧
  (∀ (n : Fin 8) (o : Int) (s : State), s.Inv →
      s.dev.acq n = acqFreq →
      o.natAbs ≤ 52000 →
      s.dev.on (Reg.RX_CD_SRC n) = false →
      ∃ t, exec (.freqSearchDone n o) s = .next t ∧ State.Settles [] ((((s.dev.wrS (Reg.CR_FREQ_OFFSET n) o).wr (Reg.CR_STAT_FREQ_LOCK n) 1).acqGo n acqTiming).acqSettle n) s t) ∧
  (∀ (n : Fin 8) (st cause : Nat) (s : State), s.Inv →
      (st, cause) ∈ [(acqFreq, 1), (acqTiming, 3), (acqConverge, 4), (acqPilot, 5), (acqCarrier, 7), (acqFast, 9)] →
      s.dev.acq n = st →
      ∃ t, exec (.acqStateLimit n) s = .next t ∧ State.Settles [] (s.dev.acqBackoffFor n cause) s t) ∧
  (∀ (n : Fin 8) (d : Int) (s : State), s.Inv →
      s.dev.acq n = acqCd →
      ∃ t, exec (.cdSearchDone n (some d)) s = .next t ∧ State.Settles [] (((if s.dev.on (Reg.ACQ_CTRL_KEEP_CD n) then (s.dev.wrS (Reg.RX_CD_STAT_APPLIED n) d).setRxe n { s.dev.rxe n with keptD := some d, keptFails := 0 } else s.dev.wrS (Reg.RX_CD_STAT_APPLIED n) d).acqGo n acqTiming).acqSettle n) s t) ∧
  (∀ (n : Fin 8) (e : BitVec 16) (s : State), s.Inv →
      acqConverge < s.dev.acq n →
      s.dev.acq n ≤ acqLocked →
      300 < e.toNat →
      ∃ t, exec (.eqConverged n e) s = .next t ∧ State.Settles [] ((s.dev.wr (Reg.EQ_STAT_ESNR n) e.toNat).wr (Reg.EQ_STAT_CONVERGED n) 1) s t) ∧
  (∀ (n : Fin 8) (e : BitVec 16) (s : State), s.Inv →
      s.dev.acq n < acqConverge ∨ acqLocked < s.dev.acq n ∨ e.toNat ≤ 300 →
      ∃ t, exec (.eqConverged n e) s = .next t ∧ State.Settles [] (s.dev) s t) ∧
  (∀ (n : Fin 8) (s0 s1 : BitVec 15) (w : Nat) (s : State), s.Inv →
      s.dev.acq n = acqPilot →
      (w = 0 ∧ pilotMatch 32767 (s.dev.rxe n).seedX (s.dev.rxe n).seedY s0.toNat s1.toNat = true) ∨ (w = 1 ∧ pilotMatch 32767 (s.dev.rxe n).seedX (s.dev.rxe n).seedY s0.toNat s1.toNat = false ∧ pilotMatch 32767 (s.dev.rxe n).seedY (s.dev.rxe n).seedX s0.toNat s1.toNat = true) →
      ∃ t, exec (.pilotSyncDone n s0 s1) s = .next t ∧ State.Settles [] (((s.dev.wr (Reg.PILOT_STAT_SWAPPED n) w).acqGo n acqCarrier).wr (Reg.PILOT_STAT_SYNC n) 1) s t) ∧
  (∀ (n : Fin 8) (s0 s1 : BitVec 15) (s : State), s.Inv →
      s.dev.acq n = acqPilot →
      pilotMatch 32767 (s.dev.rxe n).seedX (s.dev.rxe n).seedY s0.toNat s1.toNat = false →
      pilotMatch 32767 (s.dev.rxe n).seedY (s.dev.rxe n).seedX s0.toNat s1.toNat = false →
      ∃ t, exec (.pilotSyncDone n s0 s1) s = .next t ∧ State.Settles [] (((s.dev.raise (10 + n) 22).acqBackoffFor n 6).wr (Reg.PILOT_STAT_MISMATCH n) 1) s t)

/-- Entering LOCKED, losing it, waiting and trying again.

The carrier locks from CARRIER_LOCK into LOCKED: PHASE_LOCK is set, TRIES cleared, ACQ_TIME written, E-1n.16 raised and the chord search started; a pilot loss, a frequency out of range and a degenerate equaliser lose lock with causes 12, 13 and 11 into PILOT_SYNC, FREQ_SEARCH and EQ_CONVERGE, with E-1n.16 and E-1n.17, the chord aligner going to IDLE; HOLD that expires ends in BACKOFF with cause 8; BACKOFF that expires goes to WAIT_SIGNAL, or to FAILED with E-1n.18 once MAX_TRIES attempts have failed; RETRY leaves FAILED with TRIES at 0 and is a violation elsewhere; CNT_CLR zeroes ACQ_FAIL_CNT. The locks and losses are stated in full outside twin mode, with no frame found and no Drone finger engaged, the losses while the chord code is searched; and in every state by the loss of lock and the entry to its state, which the chord aligner, the courses and the twin partner follow. -/
def Obligations.AcquisitionLockAndLosses : Prop :=
  (∀ (n : Fin 8) (s : State), s.Inv →
      s.dev.rxTwin n = false →
      s.dev.acq n = acqCarrier →
      s.dev.als n = alIdle →
      s.dev.frs n = frIdle →
      (s.dev.rxe n).fault = false →
      s.dev.dieLost.getLsbD (n / 2) = false →
      ∃ t, exec (.carrierLocked n) s = .next t ∧ State.Settles ([(10 + n.val, 16)]) ((((fun (x : Dev) => x.setRxe n { x.rxe n with lockedAt := s.dev.clock, fromFast := false, lost := false }) ((fun (x : Dev) => x.keepMeasured n (((x.setRxe n { x.rxe n with lost := (x.rxe n).lost || decide (acqCarrier = acqLocked) }).wr (Reg.ACQ_STAT_STATE n) acqLocked).acqEnter n acqCarrier acqLocked)) ((((s.dev.wr (Reg.CR_STAT_PHASE_LOCK n) 1).wr (Reg.ACQ_STAT_TRIES n) 0).setRxe n { s.dev.rxe n with keptFails := 0, onKept := false }).wr (Reg.ACQ_TIME_LAST_US n) (min 16777215 ((s.dev.clock - (s.dev.rxe n).acqStart) / 1000)) |>.takeScale n (s.dev.rxMode n).1 (s.dev.rxMode n).2.2))).chordClear n).wr (Reg.ALIGN_STAT_STATE n) (if s.dev.rd (Reg.RX_MODE_CONST n) = 2 then alDm else alCw) |>.wr (Reg.ALIGN_STAT_TWIN_SKEW n) (if s.dev.rd (Reg.RX_MODE_CONST n) = 2 then s.dev.rd (Reg.ALIGN_STAT_TWIN_SKEW n) else 0) |>.settleCourses) s t) ∧
  (∀ (n : Fin 8) (f : Byte) (s : State), s.Inv →
      s.dev.rxTwin n = false →
      s.dev.drone.fingers = [] →
      s.dev.als n = alSc ∨ s.dev.als n = alRetry →
      s.dev.frs n = frIdle →
      s.dev.acq n = acqLocked →
      s.dev.rd (Reg.PILOT_LOSS_THRESHOLD n) < f.toNat →
      ∃ t, exec (.pilotLoss n f) s = .next t ∧ State.Settles ([(10 + n.val, 16), (10 + n.val, 17)]) ((((((fun (x : Dev) => x.setRxe n { x.rxe n with fromFast := false, holdAt := s.dev.clock, aid := false, winLocked := false }) ((fun (x : Dev) => x.keepMeasured n (((x.setRxe n { x.rxe n with lost := (x.rxe n).lost || decide (acqLocked = acqLocked) }).wr (Reg.ACQ_STAT_STATE n) acqPilot).acqEnter n acqLocked acqPilot)) (((s.dev).wr (Reg.ACQ_STAT_LAST_FAIL n) 12).bump (Reg.ACQ_FAIL_CNT n)))).wr (Reg.CR_STAT_TWIN_AID_ACTIVE n) 0).wr (Reg.ALIGN_STAT_STATE n) alIdle).settleCourses).wr (Reg.PILOT_STAT_ERR_FRAC n) f.toNat) s t) ∧
  (∀ (n : Fin 8) (o : Int) (s : State), s.Inv →
      s.dev.rxTwin n = false →
      s.dev.drone.fingers = [] →
      s.dev.als n = alSc ∨ s.dev.als n = alRetry →
      s.dev.frs n = frIdle →
      s.dev.acq n = acqLocked →
      52000 < o.natAbs →
      ∃ t, exec (.freqOutOfRange ⟨n, o⟩) s = .next t ∧ State.Settles ([(10 + n.val, 16), (10 + n.val, 17)]) ((((((fun (x : Dev) => x.setRxe n { x.rxe n with fromFast := false, holdAt := s.dev.clock, aid := false, winLocked := false }) ((fun (x : Dev) => x.keepMeasured n (((x.setRxe n { x.rxe n with lost := (x.rxe n).lost || decide (acqLocked = acqLocked) }).wr (Reg.ACQ_STAT_STATE n) acqFreq).acqEnter n acqLocked acqFreq)) (((s.dev).wr (Reg.ACQ_STAT_LAST_FAIL n) 13).bump (Reg.ACQ_FAIL_CNT n)))).wr (Reg.CR_STAT_TWIN_AID_ACTIVE n) 0).wr (Reg.ALIGN_STAT_STATE n) alIdle).settleCourses).wrS (Reg.CR_FREQ_OFFSET n) o) s t) ∧
  (∀ (n : Fin 8) (s : State), s.Inv →
      s.dev.rxTwin n = false →
      s.dev.drone.fingers = [] →
      s.dev.als n = alSc ∨ s.dev.als n = alRetry →
      s.dev.frs n = frIdle →
      s.dev.acq n = acqLocked →
      s.dev.on (Reg.RX_RESAMP_STAT_TR_LOCK n) = true →
      ∃ t, exec (.eqDegeneracy n) s = .next t ∧ State.Settles ([(10 + n.val, 21), (10 + n.val, 16), (10 + n.val, 17)]) (((((fun (x : Dev) => x.setRxe n { x.rxe n with fromFast := false, holdAt := s.dev.clock, aid := false, winLocked := false }) ((fun (x : Dev) => x.keepMeasured n (((x.setRxe n { x.rxe n with lost := (x.rxe n).lost || decide (acqLocked = acqLocked) }).wr (Reg.ACQ_STAT_STATE n) acqConverge).acqEnter n acqLocked acqConverge)) ((((s.dev.bump (Reg.EQ_DEGEN_CNT n)).setRxe n { s.dev.rxe n with relatedAt := some s.dev.clock }).wr (Reg.ACQ_STAT_LAST_FAIL n) 11).bump (Reg.ACQ_FAIL_CNT n)))).wr (Reg.CR_STAT_TWIN_AID_ACTIVE n) 0).wr (Reg.ALIGN_STAT_STATE n) alIdle).settleCourses) s t) ∧
  (∀ (n : Fin 8) (s : State), s.Inv →
      acqConverge ≤ s.dev.acq n →
      s.dev.acq n < acqLocked →
      ∃ t, exec (.eqDegeneracy n) s = .next t ∧ State.Settles ([(10 + n.val, 21)]) ((s.dev.bump (Reg.EQ_DEGEN_CNT n)).setRxe n { s.dev.rxe n with relatedAt := some s.dev.clock }) s t) ∧
  (∀ (n : Fin 8) (s : State), s.Inv →
      s.dev.acq n = acqHold →
      (s.dev.rxe n).onKept = false →
      ∃ t, exec (.holdExpired n) s = .next t ∧ State.Settles ([(10 + n.val, 17)]) ((fun (x : Dev) => x.keepMeasured n (((x.setRxe n { x.rxe n with lost := (x.rxe n).lost || decide (acqHold = acqLocked) }).wr (Reg.ACQ_STAT_STATE n) acqBackoff).acqEnter n acqHold acqBackoff)) (((((fun (x : Dev) => x.setRxe n { x.rxe n with onKept := false }) (s.dev)).wr (Reg.ACQ_STAT_LAST_FAIL n) 8).bump (Reg.ACQ_STAT_TRIES n)).bump (Reg.ACQ_FAIL_CNT n))) s t) ∧
  (∀ (n : Fin 8) (s : State), s.Inv →
      s.dev.acq n = acqBackoff →
      s.dev.rd (Reg.ACQ_CTRL_MAX_TRIES n) = 0 ∨ s.dev.rd (Reg.ACQ_STAT_TRIES n) < s.dev.rd (Reg.ACQ_CTRL_MAX_TRIES n) →
      (s.dev.rxe n).present = false →
      ∃ t, exec (.backoffExpired n) s = .next t ∧ State.Settles [] ((fun (x : Dev) => x.keepMeasured n (((x.setRxe n { x.rxe n with lost := (x.rxe n).lost || decide (acqBackoff = acqLocked) }).wr (Reg.ACQ_STAT_STATE n) acqWaitSignal).acqEnter n acqBackoff acqWaitSignal)) (s.dev)) s t) ∧
  (∀ (n : Fin 8) (s : State), s.Inv →
      s.dev.acq n = acqBackoff →
      0 < s.dev.rd (Reg.ACQ_CTRL_MAX_TRIES n) →
      s.dev.rd (Reg.ACQ_CTRL_MAX_TRIES n) ≤ s.dev.rd (Reg.ACQ_STAT_TRIES n) →
      ∃ t, exec (.backoffExpired n) s = .next t ∧ State.Settles ([(10 + n.val, 18)]) ((fun (x : Dev) => x.keepMeasured n (((x.setRxe n { x.rxe n with lost := (x.rxe n).lost || decide (acqBackoff = acqLocked) }).wr (Reg.ACQ_STAT_STATE n) acqFailed).acqEnter n acqBackoff acqFailed)) (s.dev)) s t) ∧
  (∀ (n : Fin 8) (v : Word) (s : State), s.Inv →
      s.dev.pageLive (linePage n 0x14) = true →
      s.dev.pageInTest (linePage n 0x14) = false →
      s.dev.acq n = acqFailed →
      (s.dev.rxe n).present = false →
      v.getLsbD 11 = false →
      v.getLsbD 9 = false →
      ∃ t, exec (.acqRetry n v) s = .next t ∧ State.Settles [] ((fun (x : Dev) => x.keepMeasured n (((x.setRxe n { x.rxe n with lost := (x.rxe n).lost || decide (acqFailed = acqLocked) }).wr (Reg.ACQ_STAT_STATE n) acqWaitSignal).acqEnter n acqFailed acqWaitSignal)) ((s.dev.writeWord (linePage n 0x14) 0x040 (if n.val % 2 = 1 then 0xE00 else 0xC00) (v ||| 0x400)).wr (Reg.ACQ_STAT_TRIES n) 0)) s t) ∧
  (∀ (n : Fin 8) (v : Word) (s : State), s.Inv →
      s.dev.pageLive (linePage n 0x14) = true →
      s.dev.pageInTest (linePage n 0x14) = false →
      s.dev.acq n ≠ acqFailed →
      v.getLsbD 11 = false →
      v.getLsbD 9 = false →
      ∃ t, exec (.acqRetry n v) s = .next t ∧ State.Settles [] (((s.dev.writeWord (linePage n 0x14) 0x040 (if n.val % 2 = 1 then 0xE00 else 0xC00) (v ||| 0x400)).viol (linePage n 0x14)).oneViol (linePage n 0x14) (s.dev.hdr (linePage n 0x14)).viol) s t) ∧
  (∀ (n : Fin 8) (v : Word) (s : State), s.Inv →
      s.dev.pageLive (linePage n 0x14) = true →
      s.dev.pageInTest (linePage n 0x14) = false →
      v.getLsbD 10 = false →
      v.getLsbD 9 = false →
      ∃ t, exec (.acqCntClr n v) s = .next t ∧ State.Settles [] ((s.dev.writeWord (linePage n 0x14) 0x040 (if n.val % 2 = 1 then 0xE00 else 0xC00) (v ||| 0x800)).wr (Reg.ACQ_FAIL_CNT n) 0) s t) ∧
  (∀ (n : Fin 8) (s : State), s.Inv →
      s.dev.acq n = acqCarrier ∨ s.dev.acq n = acqFast →
      ∃ t, exec (.carrierLocked n) s = .next t ∧ State.Settles [] (((if s.dev.acq n = acqCarrier then (((s.dev.wr (Reg.CR_STAT_PHASE_LOCK n) 1).wr (Reg.ACQ_STAT_TRIES n) 0).setRxe n { s.dev.rxe n with keptFails := 0, onKept := false }).wr (Reg.ACQ_TIME_LAST_US n) (min 16777215 ((s.dev.clock - (s.dev.rxe n).acqStart) / 1000)) else ((s.dev.wr (Reg.CR_STAT_PHASE_LOCK n) 1).wr (Reg.ACQ_STAT_TRIES n) 0).setRxe n { s.dev.rxe n with keptFails := 0, onKept := false }).takeScale n (s.dev.rxMode n).1 (s.dev.rxMode n).2.2).acqGo n acqLocked) s t) ∧
  (∀ (n : Fin 8) (f : Byte) (s : State), s.Inv →
      s.dev.acq n = acqLocked →
      ∃ t, exec (.pilotLoss n f) s = .next t ∧ State.Settles [] (if s.dev.rd (Reg.PILOT_LOSS_THRESHOLD n) < f.toNat then (s.dev.acqLose n acqPilot 12).wr (Reg.PILOT_STAT_ERR_FRAC n) f.toNat else s.dev) s t) ∧
  (∀ (n : Fin 8) (o : Int) (s : State), s.Inv →
      s.dev.acq n = acqLocked →
      52000 < o.natAbs →
      ∃ t, exec (.freqOutOfRange ⟨n, o⟩) s = .next t ∧ State.Settles [] (if s.dev.takesPartnerF n then s.dev.acqLose n acqFreq 13 else (s.dev.acqLose n acqFreq 13).wrS (Reg.CR_FREQ_OFFSET n) o) s t) ∧
  (∀ (n : Fin 8) (s : State), s.Inv →
      s.dev.acq n = acqLocked →
      ∃ t, exec (.eqDegeneracy n) s = .next t ∧ State.Settles [] (((((s.dev.bump (Reg.EQ_DEGEN_CNT n)).raise (10 + n) 21).setRxe n { s.dev.rxe n with relatedAt := some s.dev.clock }).acqLose n acqConverge 11).acqSettle n) s t) ∧
  (∀ (n : Fin 8) (s : State), s.Inv →
      s.dev.acq n < acqConverge ∨ acqLocked < s.dev.acq n →
      ∃ t, exec (.eqDegeneracy n) s = .next t ∧ State.Settles [] (s.dev) s t) ∧
  (∀ (n : Fin 8) (s : State), s.Inv →
      ∃ t, exec (.holdExpired n) s = .next t ∧ State.Settles [] (if s.dev.acq n = acqHold then s.dev.acqBackoffFor n 8 else s.dev) s t) ∧
  (∀ (n : Fin 8) (s : State), s.Inv →
      s.dev.acq n = acqBackoff →
      s.dev.rd (Reg.ACQ_CTRL_MAX_TRIES n) = 0 ∨ s.dev.rd (Reg.ACQ_STAT_TRIES n) < s.dev.rd (Reg.ACQ_CTRL_MAX_TRIES n) →
      ∃ t, exec (.backoffExpired n) s = .next t ∧ State.Settles [] ((s.dev.acqGo n acqWaitSignal).acqSettle n) s t) ∧
  (∀ (n : Fin 8) (f : Byte) (s : State), s.Inv →
      s.dev.acq n ≠ acqLocked →
      ∃ t, exec (.pilotLoss n f) s = .next t ∧ State.Settles [] (s.dev) s t)

/-- The equaliser’s commands, the cycle-slip counter and the tap readout.

RESET puts the taps at their initial values and clears CONVERGED and EQ_DEGEN_CNT, and in LOCKED the equaliser converges anew; where the taps adapt and their centroid lies more than half a tap off, they shift by one and the timing phase moves the other way; the decision-feedback stage follows DFE_EN and, with DFE_AUTO, S_min with 1 dB of hysteresis; cycle slips count where BPS is not 0, those of a window raise E-1n.20 above the threshold, and CLEAR zeroes the counter; TAKE copies the 660 tap words to the readout store and sets READY; a read of EQ_TAP_DATA returns the store’s word at INDEX and advances INDEX. -/
def Obligations.EqualiserSlipsAndTapReadout : Prop :=
  (∀ (n : Fin 8) (v : Word) (s : State), s.Inv →
      s.dev.pageLive (linePage n 0x10) = true →
      s.dev.pageInTest (linePage n 0x10) = false →
      s.dev.acq n ≠ acqLocked →
      ∃ t, exec (.eqReset n v) s = .next t ∧ State.Settles [] (s.dev.keepTaps n (((s.dev.writeWord (linePage n 0x10) 0x040 8 (v ||| 8)).resetTaps n).wr (Reg.EQ_DEGEN_CNT n) 0)) s t) ∧
  (∀ (n : Fin 8) (s : State), s.Inv →
      ∃ t, exec (.tapCentroidShift n) s = .next t ∧ State.Settles [] (if s.dev.tapsAdapt n = true ∧ s.dev.tapSpacing n < 2 * (s.dev.centroid n).natAbs then (s.dev).setRxe n { s.dev.rxe n with tapShift := (s.dev.clock, s.dev.tapsShifted n + if 0 < s.dev.centroid n then -1 else 1), phaseSteps := (s.dev.rxe n).phaseSteps - if 0 < s.dev.centroid n then -1 else 1 } else s.dev) s t) ∧
  (∀ (n : Fin 8) (e : BitVec 16) (s : State), s.Inv →
      ∃ t, exec (.dfeAutoSwitch n e) s = .next t ∧ State.Settles [] ((fun (x : Dev) => if x.on (Reg.EQ_CTRL_DFE_EN n) && x.on (Reg.EQ_CTRL_DFE_AUTO n) then
        (if 4 * e.toNat < sMin (x.rxMode n).1 (x.rxMode n).2.2 then x.wr (Reg.EQ_STAT_DFE_ACTIVE n) 0
         else if sMin (x.rxMode n).1 (x.rxMode n).2.2 + 400 ≤ 4 * e.toNat then
           ((if x.on (Reg.EQ_STAT_DFE_ACTIVE n) then x else x.setRxe n { x.rxe n with dfeAt := x.clock }).wr (Reg.EQ_STAT_DFE_ACTIVE n) 1)
         else x)
      else x.setDfe n (x.on (Reg.EQ_CTRL_DFE_EN n))) ((s.dev.wr (Reg.EQ_STAT_ESNR n) e.toNat).takeScale n (s.dev.rxMode n).1 (s.dev.rxMode n).2.2)) s t) ∧
  (∀ (n : Fin 8) (s : State), s.Inv →
      ∃ t, exec (.cycleSlip n) s = .next t ∧ State.Settles [] (if s.dev.rd (Reg.CR_CTRL_BPS n) = 0 then s.dev else (s.dev.bump (Reg.CR_SLIP_CNT n)).setRxe n { s.dev.rxe n with slips := (s.dev.rxe n).slips + 1 }) s t) ∧
  (∀ (n : Fin 8) (s : State), s.Inv →
      ∃ t, exec (.slipWindowEnd n .found) s = .next t ∧ State.Settles (if (s.dev.rxe n).slips > s.dev.rd (Reg.CR_SLIP_THR_THRESHOLD n) then [(10 + n.val, 20)] else []) ((s.dev).setRxe n { s.dev.rxe n with slips := 0 }) s t) ∧
  (∀ (n : Fin 8) (v : Word) (s : State), s.Inv →
      s.dev.pageLive (linePage n 0x12) = true →
      s.dev.pageInTest (linePage n 0x12) = false →
      ∃ t, exec (.crSlipClear n v) s = .next t ∧ State.Settles [] ((s.dev.writeWord (linePage n 0x12) 0x050 0x80000000 (v ||| 0x80000000)).wr (Reg.CR_SLIP_CNT n) 0) s t) ∧
  (∀ (n : Fin 8) (s : State), s.Inv →
      s.dev.pageLive (linePage n 0x11) = true →
      s.dev.pageInTest (linePage n 0x11) = false →
      ∃ t, exec (.eqTapSnap n) s = .next t ∧ State.Settles [] ((s.dev.setRxe n { s.dev.rxe n with tapStore := (List.range 660).foldl (fun m i => sset (dflt 0) m i (s.dev.tapWord n i)) [] }).wr (Reg.EQ_TAP_SNAP_READY n) 1) s t) ∧
  (∀ (n : Fin 8) (s : State), s.Inv →
      s.dev.pageLive (linePage n 0x11) = true →
      ∃ t, exec (.eqTapDataRead n) s = .next t ∧ State.Settles [] ({ s.dev with readData := [sget (dflt 0) (s.dev.rxe n).tapStore (s.dev.rd (Reg.EQ_TAP_ADDR_INDEX n))] }.wr (Reg.EQ_TAP_ADDR_INDEX n) (s.dev.rd (Reg.EQ_TAP_ADDR_INDEX n) + 1)) s t) ∧
  (∀ (n : Fin 8) (v : Word) (s : State), s.Inv →
      s.dev.pageLive (linePage n 0x10) = true →
      s.dev.pageInTest (linePage n 0x10) = false →
      s.dev.acq n = acqLocked →
      ∃ t, exec (.eqReset n v) s = .next t ∧ State.Settles [] (s.dev.keepTaps n ((((((s.dev.writeWord (linePage n 0x10) 0x040 8 (v ||| 8)).resetTaps n).wr (Reg.EQ_DEGEN_CNT n) 0).acqGo n acqConverge).acqSettle n))) s t)

/-- The twin phase aid, steps of arrival and the estimate window.

A fallback of the twin phase aid clears TWIN_AID_ACTIVE with E-1n.23; it resumes where both engines of a twin pair are LOCKED with TWIN_AID set and the walk-off is within 1 µs; in LOCKED a step of arrival off the pilot grid loses lock with cause 12, one on it ends ALIGNED with cause 5, one of no whole symbol period within a quarter symbol changes nothing; one beyond a quarter symbol clears TR_LOCK in every state; an estimate window throughout LOCKED publishes the estimates, the window results and the next SEQ, any other clears every VALID bit; E-1n.29 is raised above CAP_WARN either way and the window counts start anew. The published Q rests on a free value where the BER is 0 or one half or more (log 3). -/
def Obligations.TwinAidArrivalAndEstimates : Prop :=
  (∀ (n : Fin 8) (s : State), s.Inv →
      s.dev.on (Reg.CR_STAT_TWIN_AID_ACTIVE n) = true →
      ∃ t, exec (.twinAidFallback n) s = .next t ∧ State.Settles ([(10 + n.val, 23)]) (((s.dev).setRxe n { s.dev.rxe n with aid := false }).wr (Reg.CR_STAT_TWIN_AID_ACTIVE n) 0) s t) ∧
  (∀ (n : Fin 8) (skew : Int) (s : State), s.Inv →
      s.dev.rxTwin n = true →
      s.dev.on (Reg.CR_CTRL_TWIN_AID n) = true →
      s.dev.on (Reg.CR_CTRL_TWIN_AID (n.val ^^^ 1)) = true →
      s.dev.acq n = acqLocked →
      s.dev.acq (n.val ^^^ 1) = acqLocked →
      skew.natAbs ≤ 1000000 →
      ∃ t, exec (.twinAidResume n skew) s = .next t ∧ State.Settles [] ((((s.dev).setRxe n { s.dev.rxe n with aid := true }).wr (Reg.CR_STAT_TWIN_AID_ACTIVE n) 1).wrS (Reg.CR_TWIN_SKEW_SKEW n) skew) s t) ∧
  (∀ (n : Fin 8) (k : Nat) (s : State), s.Inv →
      s.dev.rxTwin n = false →
      s.dev.drone.fingers = [] →
      s.dev.als n = alSc ∨ s.dev.als n = alRetry →
      s.dev.frs n = frIdle →
      s.dev.acq n = acqLocked →
      k % (32 * 32767) ≠ 0 →
      ∃ t, exec (.lineArrivalStep n true k) s = .next t ∧ State.Settles ([(10 + n.val, 16), (10 + n.val, 17)]) (((((fun (x : Dev) => x.setRxe n { x.rxe n with fromFast := false, holdAt := s.dev.clock, aid := false, winLocked := false }) ((fun (x : Dev) => x.keepMeasured n (((x.setRxe n { x.rxe n with lost := (x.rxe n).lost || decide (acqLocked = acqLocked) }).wr (Reg.ACQ_STAT_STATE n) acqPilot).acqEnter n acqLocked acqPilot)) (((s.dev).wr (Reg.ACQ_STAT_LAST_FAIL n) 12).bump (Reg.ACQ_FAIL_CNT n)))).wr (Reg.CR_STAT_TWIN_AID_ACTIVE n) 0).wr (Reg.ALIGN_STAT_STATE n) alIdle).settleCourses) s t) ∧
  (∀ (n : Fin 8) (k : Nat) (s : State), s.Inv →
      s.dev.on (Reg.RX_RESAMP_STAT_TR_LOCK n) = true →
      s.dev.acq n = acqFreq ∨ s.dev.acq n = acqCd ∨ s.dev.acq n = acqTiming ∨ s.dev.acq n = acqPilot ∨ s.dev.acq n = acqCarrier →
      ∃ t, exec (.lineArrivalStep n false k) s = .next t ∧ State.Settles ([(10 + n.val, 9)]) (s.dev.keepMeasured n (s.dev.wrB (Reg.RX_RESAMP_STAT_TR_LOCK n) false)) s t) ∧
  (∀ (n : Fin 8) (s : State), s.Inv →
      ∃ t, exec (.lineArrivalStep n true 0) s = .next t ∧ State.Settles [] (s.dev) s t) ∧
  (∀ (n : Fin 8) (e : BitVec 16) (r : Int) (a b c d : BitVec 16) (s : State), s.Inv →
      (s.dev.rxe n).winLocked = false →
      ∃ t, exec (.opmWindowEnd n e r a b c d) s = .next t ∧ State.Settles (if (s.dev.rxe n).winCapped * 65536 > s.dev.rd (Reg.CAP_WARN_FRAC n) * (s.dev.rxe n).winCw then [(10 + n.val, 29)] else []) ((((s.dev.wr (Reg.OPM_OSNR_VALID n) 0).wr (Reg.OPM_CD_VALID n) 0).wr (Reg.OPM_Q_VALID n) 0).wr (Reg.WIN_STAT_VALID n) 0 |>.setRxe n { s.dev.rxe n with winLocked := decide (s.dev.acq n = acqLocked), sdSet := s.dev.rd (Reg.SD_SET_BER n), sdClr := s.dev.rd (Reg.SD_CLR_BER n), winCw := 0, winIncl := 0, winCorr := 0, winExcl := 0, winCapped := 0, winFailed := 0, winIter := 0 } |>.settleCourses) s t) ∧
  (∀ (n : Fin 8) (e : BitVec 16) (r : Int) (a b c d : BitVec 16) (s : State), s.Inv →
      (s.dev.rxe n).winLocked = true →
      ∃ t, exec (.opmWindowEnd n e r a b c d) s = .next t ∧ State.Settles (if (s.dev.rxe n).winCapped * 65536 > s.dev.rd (Reg.CAP_WARN_FRAC n) * (s.dev.rxe n).winCw then [(10 + n.val, 29)] else []) ((((((((((match osnrOf e.toNat (s.dev.rd (Reg.OPM_CTRL_B2B_SNR n)) (s.dev.rxMode n).1 (s.dev.rxMode n).2.1 (s.dev.rxMode n).2.2 with
        | some o => ((s.dev.wr (Reg.EQ_STAT_ESNR n) e.toNat).wrS (Reg.OPM_OSNR_OSNR n) o).wr (Reg.OPM_OSNR_VALID n) 1
        | none => (s.dev.wr (Reg.EQ_STAT_ESNR n) e.toNat).wr (Reg.OPM_OSNR_VALID n) 0).wrS (Reg.OPM_CD_CD n) (s.dev.rdS (Reg.RX_CD_STAT_APPLIED n) + r)).wr (Reg.OPM_CD_VALID n) 1).wr (Reg.OPM_DGD_MEAN n) a.toNat).wr (Reg.OPM_DGD_PEAK n) b.toNat).wr (Reg.OPM_SOP_MEAN n) c.toNat).wr (Reg.OPM_SOP_PEAK n) d.toNat).publishWindow n).publishQ n).wr (Reg.OPM_SEQ_SEQ n) (s.dev.rd (Reg.OPM_SEQ_SEQ n) + 1) |> fun x =>
        x.setRxe n { x.rxe n with winLocked := decide (s.dev.acq n = acqLocked), sdSet := s.dev.rd (Reg.SD_SET_BER n), sdClr := s.dev.rd (Reg.SD_CLR_BER n), winCw := 0, winIncl := 0, winCorr := 0, winExcl := 0, winCapped := 0, winFailed := 0, winIter := 0 } |>.settleCourses) s t) ∧
  (∀ (n : Fin 8) (k : Nat) (s : State), s.Inv →
      s.dev.acq n = acqLocked →
      ∃ t, exec (.lineArrivalStep n true k) s = .next t ∧ State.Settles [] (if k = 0 then s.dev else if k % (32 * 32767) ≠ 0 then s.dev.acqLose n acqPilot 12 else if s.dev.als n = alAligned then s.dev.alFail n 5 else s.dev) s t) ∧
  (∀ (n : Fin 8) (k : Nat) (s : State), s.Inv →
      s.dev.acq n ≠ acqLocked →
      ∃ t, exec (.lineArrivalStep n true k) s = .next t ∧ State.Settles [] (s.dev) s t) ∧
  (∀ (n : Fin 8) (k : Nat) (s : State), s.Inv →
      s.dev.on (Reg.RX_RESAMP_STAT_TR_LOCK n) = true →
      s.dev.acq n = acqLocked →
      ∃ t, exec (.lineArrivalStep n false k) s = .next t ∧ State.Settles [] ((s.dev.setTrLock n false).acqLose n acqTiming 10) s t) ∧
  (∀ (n : Fin 8) (k : Nat) (s : State), s.Inv →
      s.dev.acq n ≠ acqLocked →
      ∃ t, exec (.lineArrivalStep n false k) s = .next t ∧ State.Settles [] (if s.dev.on (Reg.RX_RESAMP_STAT_TR_LOCK n) then (s.dev.setTrLock n false).acqSettle n else s.dev) s t) ∧
  (∀ (n : Fin 8) (s : State), s.Inv →
      s.dev.on (Reg.CR_STAT_TWIN_AID_ACTIVE n) = false →
      ∃ t, exec (.twinAidFallback n) s = .next t ∧ State.Settles [] (s.dev) s t) ∧
  (∀ (n : Fin 8) (skew : Int) (s : State), s.Inv →
      (s.dev.rxTwin n && s.dev.on (Reg.CR_CTRL_TWIN_AID n) && s.dev.on (Reg.CR_CTRL_TWIN_AID (n.val ^^^ 1)) && decide (s.dev.acq n = acqLocked) && decide (s.dev.acq (n.val ^^^ 1) = acqLocked) && decide (skew.natAbs ≤ 1000000)) = false →
      ∃ t, exec (.twinAidResume n skew) s = .next t ∧ State.Settles [] (s.dev) s t)

/-- Capture triggers, the time trigger, arming and disarming.

FIRE with SOURCE 0 triggers every armed engine 1 µs from now, and with another SOURCE is a violation; the edge kept of the event that CAP_TRIG names consumes the arming of the one armed engine and gives it a snapshot run 1 µs after it; TENABLE = 1 takes the programmed time, or where that lies too soon is refused with E-10.11; the time trigger clears TENABLE and triggers where SOURCE is 2; ARM arms; DISARM of an engine with no run disarms it and clears MISSED. -/
def Obligations.CaptureTriggersAndArming : Prop :=
  (∀ (v : Word) (s : State), s.Inv →
      s.dev.pageLive (capPage) = true →
      s.dev.pageInTest (capPage) = false →
      v.getLsbD 3 = false →
      (s.dev.writeWord capPage 0x054 0xC (v ||| 4)).rd Reg.CAP_TRIG_SOURCE = 0 →
      ∃ t, exec (.capFire v) s = .next t ∧ State.Settles [] (((s.dev.writeWord capPage 0x054 0xC (v ||| 4)).wr Reg.CAP_TRIG_TENABLE 0).capTrigger 0 0 0 s.dev.capSoon) s t) ∧
  (∀ (v : Word) (s : State), s.Inv →
      s.dev.pageLive (capPage) = true →
      s.dev.pageInTest (capPage) = false →
      v.getLsbD 3 = false →
      (s.dev.writeWord capPage 0x054 0xC (v ||| 4)).rd Reg.CAP_TRIG_SOURCE ≠ 0 →
      ∃ t, exec (.capFire v) s = .next t ∧ State.Settles [] ((((s.dev.writeWord capPage 0x054 0xC (v ||| 4)).wr Reg.CAP_TRIG_TENABLE 0).viol capPage).oneViol (capPage) (s.dev.hdr (capPage)).viol) s t) ∧
  (∀ (n : Fin 8) (e : Nat × Nat × Nat) (s : State), s.Inv →
      s.dev.ev.capDue = some e →
      ∀ m : Fin 8, s.dev.on (Reg.RX_CAP_STAT_ARMED m) = decide (m = n) →
      s.dev.on (Reg.RX_CAP_STAT_BUSY n) = false →
      s.dev.on (Reg.RX_CAP_CTRL_MODE n) = false →
      s.dev.shedActive 1 = false →
      s.dev.rd Reg.CAP_BUF_SIZE_GB ≠ 0 →
      ∃ t, exec (.capEventTrigger) s = .next t ∧ State.Settles [] (((s.dev.setArmed n false).setCpe n { s.dev.cpe n with run := some { decimated := false, decim := s.dev.rd (Reg.RX_CAP_CTRL_DECIM n), length := 1024 * s.dev.rd (Reg.RX_CAP_CTRL_LENGTH_KI n), startAt := e.1 + 1000 * 65536, trig := 1 + 4 * e.2.1 + 128 * e.2.2, started := false, first := 0, place := 0 } }).wr (Reg.RX_CAP_STAT_BUSY n) 1) s t ∧
      t.dev.ev.capDue = none) ∧
  (∀ (v : Word) (s : State), s.Inv →
      s.dev.pageLive (capPage) = true →
      s.dev.pageInTest (capPage) = false →
      v.getLsbD 2 = false →
      ((s.dev.capSoon : Nat) : Int) ≤ (extendSeconds (s.dev.time / 65536 / 1000000000) (s.dev.rd Reg.CAP_TRIG_TIME_HI_SEC) * 1000000000 + s.dev.rd Reg.CAP_TRIG_TIME_LO_NS) * 65536 →
      ∃ t, exec (.capTenableWrite v) s = .next t ∧ State.Settles [] ({ (s.dev.writeWord capPage 0x054 0xC (v ||| 8)) with capSec := (extendSeconds (s.dev.time / 65536 / 1000000000) (s.dev.rd Reg.CAP_TRIG_TIME_HI_SEC)).toNat }.wr Reg.CAP_TRIG_TENABLE 1) s t) ∧
  (∀ (v : Word) (s : State), s.Inv →
      s.dev.pageLive (capPage) = true →
      s.dev.pageInTest (capPage) = false →
      v.getLsbD 2 = false →
      (extendSeconds (s.dev.time / 65536 / 1000000000) (s.dev.rd Reg.CAP_TRIG_TIME_HI_SEC) * 1000000000 + s.dev.rd Reg.CAP_TRIG_TIME_LO_NS) * 65536 < ((s.dev.capSoon : Nat) : Int) →
      ∃ t, exec (.capTenableWrite v) s = .next t ∧ State.Settles ([(10, 11)]) ((((s.dev.writeWord capPage 0x054 0xC (v ||| 8)).wr Reg.CAP_TRIG_TENABLE 0).viol capPage).oneViol (capPage) (s.dev.hdr (capPage)).viol) s t) ∧
  (∀ (s : State), s.Inv →
      s.dev.on Reg.CAP_TRIG_TENABLE = true →
      ∃ t, exec (.capTimeTrigger) s = .next t ∧ State.Settles [] (if s.dev.rd Reg.CAP_TRIG_SOURCE = 2 then (s.dev.wr Reg.CAP_TRIG_TENABLE 0).capTrigger 2 0 0 ((s.dev.capSec * 1000000000 + s.dev.rd Reg.CAP_TRIG_TIME_LO_NS) * 65536) else s.dev.wr Reg.CAP_TRIG_TENABLE 0) s t) ∧
  (∀ (n : Fin 8) (v : Word) (s : State), s.Inv →
      s.dev.pageLive (linePage n 0x0E) = true →
      s.dev.pageInTest (linePage n 0x0E) = false →
      v.getLsbD 1 = false →
      ∃ t, exec (.capArm n v) s = .next t ∧ State.Settles [] ((s.dev.writeWord (linePage n 0x0E) 0x040 3 (v ||| 1)).setArmed n true) s t) ∧
  (∀ (n : Fin 8) (v : Word) (s : State), s.Inv →
      s.dev.pageLive (linePage n 0x0E) = true →
      s.dev.pageInTest (linePage n 0x0E) = false →
      v.getLsbD 0 = false →
      (s.dev.cpe n).run = none →
      (s.dev.cpe n).drains = [] →
      ∃ t, exec (.capDisarm n v) s = .next t ∧ State.Settles [] (((s.dev.writeWord (linePage n 0x0E) 0x040 3 (v ||| 2)).setArmed n false).wr (Reg.RX_CAP_STAT_MISSED n) 0) s t)

/-- Capture runs start, complete into records, and drain to HBM.

A run starts at its first sample instant, less than a sample period after its time, while the sampling PLL is locked; a decimated record is given its place as it starts, or is missed and ends the run; a snapshot that is complete ends its run and puts its record in the drain, or counts it as missed where it may not be written; a decimated record that is complete goes to the drain, with LAST where the next one does not start; a drain that completes stores the record, header, CRC and samples, at its place in the capture region and nowhere else, with the poison check pattern in a word of a POISONED one (the model’s choice which, log 239), counts it in RECORDS and raises E-1n.14. Records are stated where they end within the region. -/
def Obligations.CaptureRunsAndDrains : Prop :=
  (∀ (n : Fin 8) (late : Nat) (r : CapRun) (s : State), s.Inv →
      (s.dev.cpe n).run = some r →
      r.started = false →
      r.decimated = false →
      s.dev.on (Reg.RX_SAMP_STAT_PLL_LOCK n) = true →
      late * s.dev.rd (Reg.RX_SAMP_STAT_FS_MSPS n) < 65536000 →
      ∃ t, exec (.capStart n late) s = .next t ∧ State.Settles [] (s.dev.setCpe n { s.dev.cpe n with run := some { r with started := true, first := r.startAt + late } }) s t) ∧
  (∀ (n : Fin 8) (late : Nat) (r : CapRun) (s : State), s.Inv →
      (s.dev.cpe n).run = some r →
      r.started = false →
      r.decimated = true →
      s.dev.on (Reg.RX_SAMP_STAT_PLL_LOCK n) = true →
      late * s.dev.rd (Reg.RX_SAMP_STAT_FS_MSPS n) < 65536000 →
      s.dev.rd Reg.CAP_WR_PTR_PTR + ceilDiv (64 + 4 * r.length) 64 ≤ s.dev.capUnits →
      ∃ t, exec (.capStart n late) s = .next t ∧ State.Settles [] ((s.dev.startDecim n (r.startAt + late) r).2.showCapBusy n) s t) ∧
  (∀ (n : Fin 8) (samples : List Byte) (o : Found) (r : CapRun) (s : State), s.Inv →
      (s.dev.cpe n).run = some r →
      r.started = true →
      r.decimated = false →
      samples.length = 4 * r.length →
      s.dev.rd Reg.CAP_WR_PTR_PTR + ceilDiv (64 + samples.length) 64 ≤ s.dev.capUnits →
      ∃ t, exec (.capSnapshotComplete n samples o) s = .next t ∧ State.Settles [] (((s.dev.setCpe n { s.dev.cpe n with run := none }).queueRecord n (s.dev.recordOf n r samples 16)).2.showCapBusy n) s t) ∧
  (∀ (n : Fin 8) (samples : List Byte) (o : Found) (next : Nat) (r : CapRun) (s : State), s.Inv →
      (s.dev.cpe n).run = some r →
      r.started = true →
      r.decimated = true →
      samples.length = 4 * r.length →
      s.dev.rd Reg.CAP_WR_PTR_PTR + ceilDiv (64 + 4 * r.length) 64 ≤ s.dev.capUnits →
      ∃ t, exec (.capDecimRecordEnd n samples o next) s = .next t ∧ State.Settles [] ((fun p : Bool × Dev => (p.2.setCpe n { p.2.cpe n with drains := (p.2.cpe n).drains ++ [{ s.dev.recordOf n r samples 0 with start := r.place, flags := (s.dev.recordOf n r samples 0).flags + if p.1 then 0 else 16 }] }).showCapBusy n) ((s.dev.setCpe n { s.dev.cpe n with seq := ((s.dev.cpe n).seq + 1) % 2 ^ 32 }).startDecim n next r)) s t) ∧
  (∀ (n : Fin 8) (poisoned : Bool) (r : CapRec) (rest : List CapRec) (s : State), s.Inv →
      (s.dev.cpe n).drains = r :: rest →
      ∃ t, exec (.capDrainComplete n poisoned) s = .next t ∧ State.Stores ([(10 + n.val, 14)]) ((fun d : Dev => if bitAt (poisonedFlag r.flags poisoned) 1 then (d.poisonWords (markedWords (capAddr r.start + 64) r.samples.length r.samples.length s.dev.fresh)).tick else d) (((s.dev.setCpe n { s.dev.cpe n with drains := rest }).wr (Reg.RX_CAP_STAT_RECORDS n) (s.dev.rd (Reg.RX_CAP_STAT_RECORDS n) + 1)).wrB (Reg.RX_CAP_STAT_BUSY n) ((s.dev.cpe n).run.isSome || decide (rest ≠ [])))) ([(capAddr r.start, capBytes n (poisonedFlag r.flags poisoned) r)]) s t ∧
      (poisoned = true → r.samples ≠ [] → t.dev.integ.checks.any (fun e => decide (e.2 = poisonCheck ∧ capAddr r.start + 64 < 8 * e.1 + 8 ∧ 8 * e.1 < capAddr r.start + 64 + r.samples.length)) = true))

/-- The chord decoder’s codewords, staircase blocks, iteration limit and counter snapshots.

While the chord code is aligned: a codeword counts in CW_TOTAL and is decoded from its 5-bit ratios, in CW_CAPPED where it is not satisfied within ITER_EFF iterations, and its information bits enter the staircase stream; once a whole block has come it enters the window, and where W blocks stand there the oldest leaves with its verdict: the corrected bits of the codewords that leave whole count in CORR_BITS, those with a bit in a FAILED block in CW_EXCLUDED, and a FAILED block in BLK_FAILED with E-1n.26; ITER_EFF moves one step towards its limit with E-1n.28 where it changes; TAKE copies every running counter of the page to its register, CLEAR zeroes them after it. -/
def Obligations.ChordDecoderCounters : Prop :=
  (∀ (n : Fin 8) (w : Fin 4) (group : List SoftBit) (blocks : List (List Int)) (s : State), s.Inv →
      s.dev.als n = alAligned →
      ∃ t, exec (.codewordDecode n w group blocks) s = .next t ∧ (
      let ratios : List Int := s.dev.codewordRatios n w group blocks
      let input : List Bool := ratios.map fun x => decide (x < 0)
      let r : List Bool × Nat × Bool := innerDecode (s.dev.rd (Reg.FEC_ITER_STAT_ITER_EFF n)) (s.dev.on (Reg.FEC_CTRL_EARLY_STOP n)) ratios
      let counted : Dev := if r.2.2 then s.dev.bump64 (Reg.CW_TOTAL_LO n).run 1 else (s.dev.bump64 (Reg.CW_TOTAL_LO n).run 1).bumpBy (Reg.CW_CAPPED n).run 1
      let taken : ChordRx := (s.dev.rxe n).chord.takeWord input (r.1.take cwInfo) (counted.gdNow n) (counted.gdBack n)
      State.Settles [] (counted.setRxe n { s.dev.rxe n with winCw := (s.dev.rxe n).winCw + 1, winCapped := (s.dev.rxe n).winCapped + ofBool (!r.2.2), winIter := (s.dev.rxe n).winIter + r.2.1, chord := { taken with unsat := (innerUnsat input.toArray :: taken.unsat).take 256 } }) s t)) ∧
  (∀ (n : Fin 8) (s : State), s.Inv →
      s.dev.als n = alAligned →
      ∃ t, exec (.staircaseBlockVerdict n .found .found) s = .next t ∧ (
      let x : ChordRx := (s.dev.rxe n).chord
      let entered : Dev := s.dev.setRxe n { s.dev.rxe n with chord := x.enter }
      State.Settles [] ((if x.fill.length < blockBits then s.dev
      else if s.dev.rd (Reg.FEC_ITER_STAT_WIN n) ≤ x.enter.window.length then
        match x.enter.window with
        | [] => entered
        | b :: rest =>
          let v := x.enter.verdict b rest
          let gone := x.enter.words.filter fun (w : ChordWord) => decide (w.start + cwInfo ≤ (b.index + 1) * blockBits)
          let k := wordCounts (x.enter.gone.getD (⟨b.index - 1, false, List.replicate 374 0⟩, 0)) (b, v) gone
          let c : ChordRx := { x.enter with window := rest, gone := some (b, v), words := x.enter.words.filter fun (w : ChordWord) => !decide (w.start + cwInfo ≤ (b.index + 1) * blockBits) }
          let left := (((s.dev.setRxe n { s.dev.rxe n with chord := c.deliver (s.dev.rxMode n).2.1 (blockBytes b.rows) v, verdict := v, winFailed := (s.dev.rxe n).winFailed + ofBool (decide (v = 2)), winExcl := (s.dev.rxe n).winExcl + k.1, winIncl := (s.dev.rxe n).winIncl + k.2.1, winCorr := (s.dev.rxe n).winCorr + k.2.2 }).bumpBy (Reg.CW_EXCLUDED n).run k.1).bump64 (Reg.CORR_BITS_LO n).run k.2.2)
          if v = 2 then (left.bumpBy (Reg.BLK_FAILED n).run 1).raise (10 + n) 26 else left
      else Dev.blockStep n 15 entered)) s t)) ∧
  (∀ (n : Fin 8) (s : State), s.Inv →
      ∃ t, exec (.iterEffStep n) s = .next t ∧ State.Settles (if s.dev.nextIter n ≠ s.dev.rd (Reg.FEC_ITER_STAT_ITER_EFF n) then [(10 + n.val, 28)] else []) ((s.dev.wr (Reg.FEC_ITER_STAT_ITER_EFF n) (s.dev.nextIter n)).showCapped n) s t) ∧
  (∀ (n : Fin 8) (clear : Bool) (s : State), s.Inv →
      s.dev.pageLive (linePage n 0x1A) = true →
      s.dev.pageInTest (linePage n 0x1A) = false →
      ∃ t, exec (.fecSnapTake n clear) s = .next t ∧ State.Settles [] (Dev.snapshot (fecCounterCells n) true clear s.dev) s t) ∧
  (∀ (n : Fin 8) (s : State), s.Inv →
      s.dev.pageLive (linePage n 0x1A) = true →
      s.dev.pageInTest (linePage n 0x1A) = false →
      ∃ t, exec (.fecSnapClear n) s = .next t ∧ State.Settles [] (Dev.snapshot (fecCounterCells n) false true s.dev) s t) ∧
  (∀ (n : Fin 8) (s : State), s.Inv →
      s.dev.pageLive (linePage n 0x19) = true →
      s.dev.pageInTest (linePage n 0x19) = false →
      ∃ t, exec (.alignFailClear n) s = .next t ∧ State.Settles [] (s.dev.wr (Reg.ALIGN_FAIL_CNT n) 0) s t)

/-- The chord aligner searches, aligns, fails and retries (Table 5.5).

A phase found, or where none is given the one carried forward from before HOLD, moves DM_SEARCH to CW_SEARCH, CW_SEARCH to SC_SEARCH and SC_SEARCH to ALIGNED, the last with the decoder started at the next block, ALIGN_TIME written, E-1n.30 and the frame search started; with neither nothing changes; a search at its limit goes to RETRY_WAIT with its cause, 4 and TWIN_SKEW where a twin pair walked off; a loss of alignment does so with cause 5; every failure counts and raises E-1n.30; a retry that expires starts the search anew. The frame aligner goes to IDLE with every state but ALIGNED, and the courses follow; a limit, a loss or a retry that its state does not wait for changes nothing. The entry to ALIGNED is stated in full with the frame aligner idle, and in every state by the start of its search. -/
def Obligations.ChordAlignment : Prop :=
  (∀ (n : Fin 8) (v : Nat) (s : State), s.Inv →
      s.dev.als n = alDm →
      ∃ t, exec (.alignPhaseConfirmed ⟨n, some v⟩) s = .next t ∧ State.Settles [] (((s.dev.setRxe n { s.dev.rxe n with chord := { (s.dev.rxe n).chord with phases := (v % 128, (s.dev.rxe n).chord.phases.2) } }).wr (Reg.ALIGN_STAT_STATE n) alCw).wr (Reg.ALIGN_STAT_TWIN_SKEW n) 0 |>.frToIdle n) s t) ∧
  (∀ (n : Fin 8) (c : Nat × Nat × Nat) (s : State), s.Inv →
      s.dev.als n = alDm →
      s.dev.carriedPhases n = some c →
      ∃ t, exec (.alignPhaseConfirmed ⟨n, none⟩) s = .next t ∧ State.Settles [] (((s.dev.setRxe n { s.dev.rxe n with chord := { (s.dev.rxe n).chord with phases := (c.1 % 128, (s.dev.rxe n).chord.phases.2) } }).wr (Reg.ALIGN_STAT_STATE n) alCw).wr (Reg.ALIGN_STAT_TWIN_SKEW n) 0 |>.frToIdle n) s t) ∧
  (∀ (n : Fin 8) (s : State), s.Inv →
      s.dev.carriedPhases n = none →
      ∃ t, exec (.alignPhaseConfirmed ⟨n, none⟩) s = .next t ∧ State.Settles [] (s.dev) s t) ∧
  (∀ (n : Fin 8) (v : Nat) (s : State), s.Inv →
      s.dev.als n = alCw →
      ∃ t, exec (.alignPhaseConfirmed ⟨n, some v⟩) s = .next t ∧ State.Settles [] ((s.dev.setRxe n { s.dev.rxe n with chord := { (s.dev.rxe n).chord with phases := ((s.dev.rxe n).chord.phases.1, v % 73792, (s.dev.rxe n).chord.phases.2.2) } }).wr (Reg.ALIGN_STAT_STATE n) alSc |>.frToIdle n) s t) ∧
  (∀ (n : Fin 8) (v : Nat) (s : State), s.Inv →
      s.dev.als n = alSc →
      s.dev.frs n = frIdle →
      ∃ t, exec (.alignPhaseConfirmed ⟨n, some v⟩) s = .next t ∧ State.Settles ([(10 + n.val, 30)]) (((((((((s.dev.setRxe n { s.dev.rxe n with chord := { ChordRx.reset with skip := v % 139876, phases := ((s.dev.rxe n).chord.phases.1, (s.dev.rxe n).chord.phases.2.1, v % 139876), kept := some ((s.dev.rxe n).chord.phases.1, (s.dev.rxe n).chord.phases.2.1, v % 139876) } }).wr (Reg.ALIGN_TIME_LAST_US n) (min 65535 ((s.dev.clock - (s.dev.rxe n).lockedAt) / 1000))).wr (Reg.ALIGN_STAT_STATE n) alAligned).wr (Reg.FR_STAT_CAND n) 0).wr (Reg.FR_STAT_STATE n) frSearch).wrB (Reg.FR_STAT_SF n) (decide (frSearch ≠ frAligned))).colApply (ColWhen.frame n)).setFra n { s.dev.fra n with since := s.dev.clock, cands := [], misses := 0, oofGood := 0 })) s t) ∧
  (∀ (n : Fin 8) (st cause : Nat) (s : State), s.Inv →
      (st, cause) ∈ [(alDm, 1), (alCw, 2), (alSc, 3)] →
      s.dev.als n = st →
      ∃ t, exec (.alignSearchLimit n false) s = .next t ∧ State.Settles ([(10 + n.val, 30)]) ((((((s.dev.wr (Reg.ALIGN_STAT_LAST_FAIL n) cause).bump (Reg.ALIGN_FAIL_CNT n)).wr (Reg.ALIGN_STAT_STATE n) alRetry).frToIdle n).settleCourses)) s t) ∧
  (∀ (n : Fin 8) (s : State), s.Inv →
      s.dev.als n = alCw →
      s.dev.rxTwin n = true →
      ∃ t, exec (.alignSearchLimit n true) s = .next t ∧ State.Settles ([(10 + n.val, 30)]) ((((((s.dev.wr (Reg.ALIGN_STAT_LAST_FAIL n) 4).bump (Reg.ALIGN_FAIL_CNT n)).wr (Reg.ALIGN_STAT_STATE n) alRetry).frToIdle n).settleCourses).wr (Reg.ALIGN_STAT_TWIN_SKEW n) 1) s t) ∧
  (∀ (n : Fin 8) (s : State), s.Inv →
      s.dev.als n = alAligned →
      s.dev.checksLost n = true →
      ∃ t, exec (.alignLoss n) s = .next t ∧ State.Settles ([(10 + n.val, 30)]) ((((((s.dev.wr (Reg.ALIGN_STAT_LAST_FAIL n) 5).bump (Reg.ALIGN_FAIL_CNT n)).wr (Reg.ALIGN_STAT_STATE n) alRetry).frToIdle n).settleCourses)) s t) ∧
  (∀ (n : Fin 8) (s : State), s.Inv →
      s.dev.als n = alRetry →
      ∃ t, exec (.alignRetryExpired n) s = .next t ∧ State.Settles [] ((if s.dev.rd (Reg.RX_MODE_CONST (s.dev.rxLead n)) = 2 then s.dev.wr (Reg.ALIGN_STAT_STATE n) alDm else (s.dev.wr (Reg.ALIGN_STAT_STATE n) alCw).wr (Reg.ALIGN_STAT_TWIN_SKEW n) 0).frToIdle n) s t) ∧
  (∀ (n : Fin 8) (v : Nat) (s : State), s.Inv →
      s.dev.als n = alSc →
      ∃ t, exec (.alignPhaseConfirmed ⟨n, some v⟩) s = .next t ∧ State.Settles ([(10 + n.val, 30)]) ((((s.dev.setRxe n { s.dev.rxe n with chord := { ChordRx.reset with skip := v % 139876, phases := ((s.dev.rxe n).chord.phases.1, (s.dev.rxe n).chord.phases.2.1, v % 139876), kept := some ((s.dev.rxe n).chord.phases.1, (s.dev.rxe n).chord.phases.2.1, v % 139876) } }).wr (Reg.ALIGN_TIME_LAST_US n) (min 65535 ((s.dev.clock - (s.dev.rxe n).lockedAt) / 1000))).wr (Reg.ALIGN_STAT_STATE n) alAligned).frDelivering n) s t) ∧
  (∀ (n : Fin 8) (c : Nat × Nat × Nat) (s : State), s.Inv →
      s.dev.als n = alSc →
      s.dev.carriedPhases n = some c →
      ∃ t, exec (.alignPhaseConfirmed ⟨n, none⟩) s = .next t ∧ State.Settles ([(10 + n.val, 30)]) ((((s.dev.setRxe n { s.dev.rxe n with chord := { ChordRx.reset with skip := c.2.2 % 139876, phases := ((s.dev.rxe n).chord.phases.1, (s.dev.rxe n).chord.phases.2.1, c.2.2 % 139876), kept := some ((s.dev.rxe n).chord.phases.1, (s.dev.rxe n).chord.phases.2.1, c.2.2 % 139876) } }).wr (Reg.ALIGN_TIME_LAST_US n) (min 65535 ((s.dev.clock - (s.dev.rxe n).lockedAt) / 1000))).wr (Reg.ALIGN_STAT_STATE n) alAligned).frDelivering n) s t) ∧
  (∀ (n : Fin 8) (c : Nat × Nat × Nat) (s : State), s.Inv →
      s.dev.als n = alCw →
      s.dev.carriedPhases n = some c →
      ∃ t, exec (.alignPhaseConfirmed ⟨n, none⟩) s = .next t ∧ State.Settles [] ((s.dev.setRxe n { s.dev.rxe n with chord := { (s.dev.rxe n).chord with phases := ((s.dev.rxe n).chord.phases.1, c.2.1 % 73792, (s.dev.rxe n).chord.phases.2.2) } }).wr (Reg.ALIGN_STAT_STATE n) alSc |>.frToIdle n) s t) ∧
  (∀ (n : Fin 8) (v : Option Nat) (s : State), s.Inv →
      s.dev.als n = alIdle ∨ s.dev.als n = alAligned ∨ s.dev.als n = alRetry →
      ∃ t, exec (.alignPhaseConfirmed ⟨n, v⟩) s = .next t ∧ State.Settles [] (s.dev) s t) ∧
  (∀ (n : Fin 8) (w : Bool) (s : State), s.Inv →
      s.dev.als n = alCw →
      w = false ∨ s.dev.rxTwin n = false →
      ∃ t, exec (.alignSearchLimit n w) s = .next t ∧ State.Settles ([(10 + n.val, 30)]) ((((((s.dev.wr (Reg.ALIGN_STAT_LAST_FAIL n) 2).bump (Reg.ALIGN_FAIL_CNT n)).wr (Reg.ALIGN_STAT_STATE n) alRetry).frToIdle n).settleCourses)) s t) ∧
  (∀ (n : Fin 8) (w : Bool) (s : State), s.Inv →
      s.dev.als n = alIdle ∨ s.dev.als n = alAligned ∨ s.dev.als n = alRetry →
      ∃ t, exec (.alignSearchLimit n w) s = .next t ∧ State.Settles [] (s.dev) s t) ∧
  (∀ (n : Fin 8) (s : State), s.Inv →
      s.dev.als n ≠ alAligned ∨ s.dev.checksLost n = false →
      ∃ t, exec (.alignLoss n) s = .next t ∧ State.Settles [] (s.dev) s t) ∧
  (∀ (n : Fin 8) (s : State), s.Inv →
      s.dev.als n ≠ alRetry →
      ∃ t, exec (.alignRetryExpired n) s = .next t ∧ State.Settles [] (s.dev) s t)

/-- The frame aligner finds, confirms, loses and recovers its position (Table 6.3).

A position of the decoded stream whose header passes becomes a candidate and SEARCH goes to CONFIRM; one confirmed alone by three passes in CONFIRM aligns, at the place of its next frame, with FR_ALIGN_TIME and E-18.(n); the last candidate that fails returns CONFIRM to SEARCH; AMBIGUOUS ends, 64 frames on, aligned with one confirmed candidate left, and with two or more back in SEARCH, counted, with E-18.(8+n); five header misses go to OOF, counted, with E-18.(n); OOF recovers at the old position after two good frames with E-18.(n); LOF is declared in OOF and cleared in ALIGNED, with E-18.(n) where it changes. SF follows the state, a correction that waits for a frame acts outside ALIGNED, and the courses follow. A candidate passes again or starts again at its MFAS, up to 8 are tracked; one confirmed beside others makes CONFIRM AMBIGUOUS and in OOF is marked; one confirmed alone in OOF realigns, counted, unless two good frames came first; a failed one is dropped, and with it the last one CONFIRM and AMBIGUOUS, without an event. Where a command’s condition does not hold it changes nothing. -/
def Obligations.FrameAlignment : Prop :=
  (∀ (n : Fin 8) (pos m : Nat) (s : State), s.Inv →
      s.dev.frs n = frSearch →
      (s.dev.fra n).cands = [] →
      s.dev.passAt n pos = some m →
      ∃ t, exec (.frCandidatePass n pos .found) s = .next t ∧ State.Settles [] ((((((s.dev.wr (Reg.FR_STAT_CAND n) 1).wr (Reg.FR_STAT_STATE n) frConfirm).wrB (Reg.FR_STAT_SF n) (decide (frConfirm ≠ frAligned))).colApply (ColWhen.frame n)).setFra n { s.dev.fra n with cands := [⟨pos, 1, m, false⟩], misses := 0, oofGood := 0 })) s t) ∧
  (∀ (n : Fin 8) (c : Candidate) (s : State), s.Inv →
      s.dev.frs n = frConfirm →
      (s.dev.fra n).cands = [c] →
      3 ≤ c.passes →
      ∃ t, exec (.frCandidateConfirm n c.pos) s = .next t ∧ State.Settles ([(18, n.val)]) (((((((s.dev.wr (Reg.FR_STAT_CAND n) 0).wr (Reg.FR_ALIGN_TIME_LAST_US n) (min 65535 ((s.dev.clock - (s.dev.fra n).since) / 1000))).wr (Reg.FR_STAT_STATE n) frAligned).wrB (Reg.FR_STAT_SF n) (decide (frAligned ≠ frAligned)))).setFra n { s.dev.fra n with cands := [], pos := s.dev.dueAt n c, mfas := (c.mfas + 1) % 256, misses := 0, oofGood := 0 }).settleCourses) s t) ∧
  (∀ (n : Fin 8) (c : Candidate) (s : State), s.Inv →
      s.dev.frs n = frConfirm →
      (s.dev.fra n).cands = [c] →
      (s.dev.rxe n).chord.has (s.dev.dueAt n c) (64 * s.dev.rxSlots n) = true →
      s.dev.passAt n (s.dev.dueAt n c) ≠ some ((c.mfas + 1) % 256) →
      ∃ t, exec (.frCandidateFail n c.pos) s = .next t ∧ State.Settles [] ((((((s.dev.wr (Reg.FR_STAT_CAND n) 0).wr (Reg.FR_STAT_STATE n) frSearch).wrB (Reg.FR_STAT_SF n) (decide (frSearch ≠ frAligned))).colApply (ColWhen.frame n)).setFra n { s.dev.fra n with cands := [], misses := 0, oofGood := 0 })) s t) ∧
  (∀ (n : Fin 8) (c : Candidate) (s : State), s.Inv →
      s.dev.frs n = frAmbiguous →
      (s.dev.fra n).cands = [c] →
      c.confirmed = true →
      (s.dev.fra n).ambig ≤ c.passes →
      ∃ t, exec (.frAmbigResolve n) s = .next t ∧ State.Settles ([(18, n.val)]) ((((((s.dev.wr (Reg.FR_STAT_CAND n) 0).wr (Reg.FR_STAT_STATE n) frAligned).wrB (Reg.FR_STAT_SF n) (decide (frAligned ≠ frAligned)))).setFra n { s.dev.fra n with cands := [], pos := s.dev.dueAt n c, mfas := (c.mfas + 1) % 256, misses := 0, oofGood := 0 }).settleCourses) s t) ∧
  (∀ (n : Fin 8) (s : State), s.Inv →
      s.dev.frs n = frAmbiguous →
      2 ≤ (s.dev.fra n).cands.length →
      (s.dev.fra n).cands.any (fun c => c.confirmed && decide ((s.dev.fra n).ambig ≤ c.passes)) = true →
      ∃ t, exec (.frAmbigResolve n) s = .next t ∧ State.Settles ([(18, 8 + n.val)]) (((((((s.dev.bump (Reg.FR_AMBIG_CNT n)).wr (Reg.FR_STAT_CAND n) 0).wr (Reg.FR_STAT_STATE n) frSearch).wrB (Reg.FR_STAT_SF n) (decide (frSearch ≠ frAligned))).colApply (ColWhen.frame n)).setFra n { s.dev.fra n with cands := [], misses := 0, oofGood := 0 })) s t) ∧
  (∀ (n : Fin 8) (s : State), s.Inv →
      s.dev.frs n = frAligned →
      5 ≤ (s.dev.fra n).misses →
      ∃ t, exec (.frHeaderMissOof n) s = .next t ∧ State.Settles ([(18, n.val)]) (((((s.dev.bump (Reg.FR_OOF_CNT n)).wr (Reg.FR_STAT_STATE n) frOof).wr (Reg.FR_STAT_SF n) 1).colApply (ColWhen.frame n)).setFra n { s.dev.fra n with misses := 0, oofGood := 0 } |>.settleCourses) s t) ∧
  (∀ (n : Fin 8) (s : State), s.Inv →
      s.dev.frs n = frOof →
      2 ≤ (s.dev.fra n).oofGood →
      ∃ t, exec (.frOofRecover n) s = .next t ∧ State.Settles ([(18, n.val)]) ((((((s.dev.wr (Reg.FR_STAT_CAND n) 0).wr (Reg.FR_STAT_STATE n) frAligned).wrB (Reg.FR_STAT_SF n) (decide (frAligned ≠ frAligned)))).setFra n { s.dev.fra n with cands := [], mfas := (s.dev.fra n).mfas % 256, misses := 0, oofGood := 0 }).settleCourses) s t) ∧
  (∀ (n : Fin 8) (s : State), s.Inv →
      s.dev.frs n = frOof →
      ∃ t, exec (.lofDeclare n) s = .next t ∧ State.Settles (if s.dev.on (Reg.FR_STAT_LOF n) then [] else [(18, n.val)]) (s.dev.wr (Reg.FR_STAT_LOF n) 1) s t) ∧
  (∀ (n : Fin 8) (s : State), s.Inv →
      s.dev.frs n = frAligned →
      ∃ t, exec (.lofClear n) s = .next t ∧ State.Settles (if s.dev.on (Reg.FR_STAT_LOF n) then [(18, n.val)] else []) (s.dev.wr (Reg.FR_STAT_LOF n) 0) s t) ∧
  (∀ (n : Fin 8) (pos m : Nat) (s : State), s.Inv →
      s.dev.frs n ≠ frIdle ∧ s.dev.frs n ≠ frAligned →
      s.dev.passAt n pos = some m →
      ((s.dev.fra n).cands.any fun c => decide (s.dev.dueAt n c = pos)) = true →
      ∃ t, exec (.frCandidatePass n pos .found) s = .next t ∧ State.Settles [] (s.dev.setCands n ((s.dev.fra n).cands.map fun c => if s.dev.dueAt n c = pos then (if m = (c.mfas + 1) % 256 then { c with passes := c.passes + 1, mfas := m } else ⟨pos, 1, m, false⟩) else c)) s t) ∧
  (∀ (n : Fin 8) (pos m : Nat) (s : State), s.Inv →
      s.dev.frs n ≠ frIdle ∧ s.dev.frs n ≠ frAligned →
      s.dev.passAt n pos = some m →
      ((s.dev.fra n).cands.any fun c => decide (s.dev.dueAt n c = pos)) = false →
      ((s.dev.fra n).cands.any fun c => decide (c.pos % frameBits (s.dev.rxSlots n) = pos % frameBits (s.dev.rxSlots n))) = false →
      ∃ t, exec (.frCandidatePass n pos .found) s = .next t ∧ State.Settles [] ((fun (d : Dev) => if s.dev.frs n = frSearch then d.frGo n frConfirm else d) (if (s.dev.fra n).cands.length < 8 then s.dev.setCands n ((s.dev.fra n).cands ++ [⟨pos, 1, m, false⟩]) else s.dev)) s t) ∧
  (∀ (n : Fin 8) (pos : Nat) (s : State), s.Inv →
      s.dev.frs n = frIdle ∨ s.dev.frs n = frAligned ∨ s.dev.passAt n pos = none →
      ∃ t, exec (.frCandidatePass n pos .found) s = .next t ∧ State.Settles [] (s.dev) s t) ∧
  (∀ (n : Fin 8) (c : Candidate) (s : State), s.Inv →
      s.dev.frs n = frConfirm →
      ((s.dev.fra n).cands.find? fun x => decide (x.pos = c.pos) && decide (3 ≤ x.passes)) = some c →
      (s.dev.fra n).cands.length ≠ 1 →
      ∃ t, exec (.frCandidateConfirm n c.pos) s = .next t ∧ State.Settles [] ((s.dev.setCands n ((s.dev.fra n).cands.map fun x => if x.pos = c.pos then { x with confirmed := true } else x) |> fun (d : Dev) => d.setFra n { d.fra n with ambig := c.passes + 64 }).frGo n frAmbiguous) s t) ∧
  (∀ (n : Fin 8) (c : Candidate) (s : State), s.Inv →
      s.dev.frs n = frOof →
      ((s.dev.fra n).cands.find? fun x => decide (x.pos = c.pos) && decide (3 ≤ x.passes)) = some c →
      (s.dev.fra n).cands = [c] →
      (s.dev.fra n).oofGood < 2 →
      ∃ t, exec (.frCandidateConfirm n c.pos) s = .next t ∧ State.Settles ([(18, n.val)]) (((((((s.dev.wr (Reg.FR_STAT_CAND n) 0).wr (Reg.FR_STAT_STATE n) frAligned).wrB (Reg.FR_STAT_SF n) (decide (frAligned ≠ frAligned)))).setFra n { s.dev.fra n with cands := [], pos := s.dev.dueAt n c, mfas := (c.mfas + 1) % 256, misses := 0, oofGood := 0 }).settleCourses).bump (Reg.FR_REALIGN_CNT n)) s t) ∧
  (∀ (n : Fin 8) (c : Candidate) (s : State), s.Inv →
      s.dev.frs n = frOof →
      ((s.dev.fra n).cands.find? fun x => decide (x.pos = c.pos) && decide (3 ≤ x.passes)) = some c →
      (s.dev.fra n).cands = [c] →
      2 ≤ (s.dev.fra n).oofGood →
      ∃ t, exec (.frCandidateConfirm n c.pos) s = .next t ∧ State.Settles ([(18, n.val)]) ((((((s.dev.wr (Reg.FR_STAT_CAND n) 0).wr (Reg.FR_STAT_STATE n) frAligned).wrB (Reg.FR_STAT_SF n) (decide (frAligned ≠ frAligned)))).setFra n { s.dev.fra n with cands := [], mfas := (s.dev.fra n).mfas % 256, misses := 0, oofGood := 0 }).settleCourses) s t) ∧
  (∀ (n : Fin 8) (c : Candidate) (s : State), s.Inv →
      ((s.dev.fra n).cands.find? fun x => decide (x.pos = c.pos) && decide (3 ≤ x.passes)) = some c →
      (s.dev.frs n = frOof ∧ (s.dev.fra n).cands.length ≠ 1) ∨ (s.dev.frs n ≠ frOof ∧ s.dev.frs n ≠ frConfirm) →
      ∃ t, exec (.frCandidateConfirm n c.pos) s = .next t ∧ State.Settles [] (s.dev.setCands n ((s.dev.fra n).cands.map fun x => if x.pos = c.pos then { x with confirmed := true } else x)) s t) ∧
  (∀ (n : Fin 8) (pos : Nat) (s : State), s.Inv →
      ((s.dev.fra n).cands.find? fun c => decide (c.pos = pos) && decide (3 ≤ c.passes)) = none →
      ∃ t, exec (.frCandidateConfirm n pos) s = .next t ∧ State.Settles [] (s.dev) s t) ∧
  (∀ (n : Fin 8) (pos : Nat) (s : State), s.Inv →
      s.dev.frs n ≠ frIdle ∧ s.dev.frs n ≠ frAligned →
      ((s.dev.fra n).cands.all fun c => !(decide (c.pos = pos) && (s.dev.rxe n).chord.has (s.dev.dueAt n c) (64 * s.dev.rxSlots n) && decide (s.dev.passAt n (s.dev.dueAt n c) ≠ some ((c.mfas + 1) % 256)))) = false →
      2 ≤ ((s.dev.fra n).cands.filter fun c => !(decide (c.pos = pos) && (s.dev.rxe n).chord.has (s.dev.dueAt n c) (64 * s.dev.rxSlots n) && decide (s.dev.passAt n (s.dev.dueAt n c) ≠ some ((c.mfas + 1) % 256)))).length →
      ∃ t, exec (.frCandidateFail n pos) s = .next t ∧ State.Settles [] (s.dev.setCands n ((s.dev.fra n).cands.filter fun c => !(decide (c.pos = pos) && (s.dev.rxe n).chord.has (s.dev.dueAt n c) (64 * s.dev.rxSlots n) && decide (s.dev.passAt n (s.dev.dueAt n c) ≠ some ((c.mfas + 1) % 256))))) s t) ∧
  (∀ (n : Fin 8) (pos : Nat) (c : Candidate) (s : State), s.Inv →
      s.dev.frs n ≠ frIdle ∧ s.dev.frs n ≠ frAligned →
      ((s.dev.fra n).cands.all fun c => !(decide (c.pos = pos) && (s.dev.rxe n).chord.has (s.dev.dueAt n c) (64 * s.dev.rxSlots n) && decide (s.dev.passAt n (s.dev.dueAt n c) ≠ some ((c.mfas + 1) % 256)))) = false →
      ((s.dev.fra n).cands.filter fun c => !(decide (c.pos = pos) && (s.dev.rxe n).chord.has (s.dev.dueAt n c) (64 * s.dev.rxSlots n) && decide (s.dev.passAt n (s.dev.dueAt n c) ≠ some ((c.mfas + 1) % 256)))) = [c] →
      ∃ t, exec (.frCandidateFail n pos) s = .next t ∧ State.Settles [] (if s.dev.frs n = frOof ∧ c.confirmed = true then (if 2 ≤ (s.dev.fra n).oofGood then (s.dev.setCands n ((s.dev.fra n).cands.filter fun c => !(decide (c.pos = pos) && (s.dev.rxe n).chord.has (s.dev.dueAt n c) (64 * s.dev.rxSlots n) && decide (s.dev.passAt n (s.dev.dueAt n c) ≠ some ((c.mfas + 1) % 256))))).frRecover n else ((s.dev.setCands n ((s.dev.fra n).cands.filter fun c => !(decide (c.pos = pos) && (s.dev.rxe n).chord.has (s.dev.dueAt n c) (64 * s.dev.rxSlots n) && decide (s.dev.passAt n (s.dev.dueAt n c) ≠ some ((c.mfas + 1) % 256))))).frAlign n (s.dev.dueAt n c) (c.mfas + 1) false).bump (Reg.FR_REALIGN_CNT n)) else s.dev.setCands n ((s.dev.fra n).cands.filter fun c => !(decide (c.pos = pos) && (s.dev.rxe n).chord.has (s.dev.dueAt n c) (64 * s.dev.rxSlots n) && decide (s.dev.passAt n (s.dev.dueAt n c) ≠ some ((c.mfas + 1) % 256))))) s t) ∧
  (∀ (n : Fin 8) (pos : Nat) (s : State), s.Inv →
      s.dev.frs n ≠ frIdle ∧ s.dev.frs n ≠ frAligned →
      ((s.dev.fra n).cands.all fun c => !(decide (c.pos = pos) && (s.dev.rxe n).chord.has (s.dev.dueAt n c) (64 * s.dev.rxSlots n) && decide (s.dev.passAt n (s.dev.dueAt n c) ≠ some ((c.mfas + 1) % 256)))) = false →
      ((s.dev.fra n).cands.filter fun c => !(decide (c.pos = pos) && (s.dev.rxe n).chord.has (s.dev.dueAt n c) (64 * s.dev.rxSlots n) && decide (s.dev.passAt n (s.dev.dueAt n c) ≠ some ((c.mfas + 1) % 256)))) = [] →
      ∃ t, exec (.frCandidateFail n pos) s = .next t ∧ State.Settles [] (if s.dev.frs n = frConfirm ∨ s.dev.frs n = frAmbiguous then (s.dev.setCands n ((s.dev.fra n).cands.filter fun c => !(decide (c.pos = pos) && (s.dev.rxe n).chord.has (s.dev.dueAt n c) (64 * s.dev.rxSlots n) && decide (s.dev.passAt n (s.dev.dueAt n c) ≠ some ((c.mfas + 1) % 256))))).frGo n frSearch else s.dev.setCands n ((s.dev.fra n).cands.filter fun c => !(decide (c.pos = pos) && (s.dev.rxe n).chord.has (s.dev.dueAt n c) (64 * s.dev.rxSlots n) && decide (s.dev.passAt n (s.dev.dueAt n c) ≠ some ((c.mfas + 1) % 256))))) s t) ∧
  (∀ (n : Fin 8) (pos : Nat) (s : State), s.Inv →
      s.dev.frs n = frIdle ∨ s.dev.frs n = frAligned ∨ ((s.dev.fra n).cands.all fun c => !(decide (c.pos = pos) && (s.dev.rxe n).chord.has (s.dev.dueAt n c) (64 * s.dev.rxSlots n) && decide (s.dev.passAt n (s.dev.dueAt n c) ≠ some ((c.mfas + 1) % 256)))) = true →
      ∃ t, exec (.frCandidateFail n pos) s = .next t ∧ State.Settles [] (s.dev) s t) ∧
  (∀ (n : Fin 8) (s : State), s.Inv →
      s.dev.frs n = frAmbiguous →
      (s.dev.fra n).cands = [] →
      ∃ t, exec (.frAmbigResolve n) s = .next t ∧ State.Settles [] (s.dev.frGo n frSearch) s t) ∧
  (∀ (n : Fin 8) (s : State), s.Inv →
      s.dev.frs n ≠ frAmbiguous ∨ ((s.dev.fra n).cands ≠ [] ∧ ((s.dev.fra n).cands.any fun c => c.confirmed && decide ((s.dev.fra n).ambig ≤ c.passes)) = false) →
      ∃ t, exec (.frAmbigResolve n) s = .next t ∧ State.Settles [] (s.dev) s t) ∧
  (∀ (n : Fin 8) (s : State), s.Inv →
      s.dev.frs n ≠ frAligned ∨ (s.dev.fra n).misses < 5 →
      ∃ t, exec (.frHeaderMissOof n) s = .next t ∧ State.Settles [] (s.dev) s t) ∧
  (∀ (n : Fin 8) (s : State), s.Inv →
      s.dev.frs n ≠ frOof ∨ (s.dev.fra n).oofGood < 2 →
      ∃ t, exec (.frOofRecover n) s = .next t ∧ State.Settles [] (s.dev) s t) ∧
  (∀ (n : Fin 8) (s : State), s.Inv →
      s.dev.frs n ≠ frOof →
      ∃ t, exec (.lofDeclare n) s = .next t ∧ State.Settles [] (s.dev) s t) ∧
  (∀ (n : Fin 8) (s : State), s.Inv →
      s.dev.frs n ≠ frAligned →
      ∃ t, exec (.lofClear n) s = .next t ∧ State.Settles [] (s.dev) s t)

/-- The frame tick, received frames, and course frames rebuilt or lost.

While the hub does not run a tick passes 1,280 ns. While it runs and no course, pair or relay lane is in use, PACE moves to its next multiple of 1,280 ns with TIME and the clock, the outputs, the chord encoders and the serial lanes’ pattern generators, checkers and loopback stores go on, every enabled engine’s FR_MFAS_TX shows the frame’s MFAS, and the relay keeps the TIME of the frame. The next frame of the decoded stream, in ALIGNED and not at a multiframe’s start, shows its MFAS, counts as a header miss or not, and its columns are taken one after the other: one of a non-lead member of a course is held for the course frame of its serial; in OOF the frame is only held against the header test. A course frame whose members are all there is rebuilt from them, or with a poison mark is withheld, counted and raised as E-19.08, its packets dropped from the stream; a frame whose members have not all come in time is discarded the same way. Whatever is in use, a tick of a running hub completes: time advances, waiting corrections and the outputs take the tick, each course and remote sends its frame, and the encoders, relay and lanes go on; a frame in ALIGNED is delivered; a course frame is rebuilt or lost. -/
def Obligations.FrameTicksAndCourseFrames : Prop :=
  (∀ (fails : List (Fin 512)) (s : State), s.Inv →
      s.dev.hubOn = false →
      ∃ t, exec (.frameTick fails) s = .next t ∧ State.Settles [] ({ s.dev with clock := s.dev.clock + 1280 }) s t) ∧
  (∀ (fails : List (Fin 512)) (s : State), s.Inv →
      s.dev.hubOn = true →
      s.dev.courses = [] →
      s.dev.remotes = [] →
      s.dev.enabledPairs = [] →
      s.dev.bridges = [] →
      s.dev.col.waiting = [] →
      ∀ p : Fin 4, s.dev.on (Reg.LANE_STAT_LINK (64 + 4 * p)) = false →
      ∀ p : Fin 4, sget (dflt []) s.dev.relay.channel p = [] →
      ∃ t, exec (.frameTick fails) s = .next t ∧ State.Settles [] ((((List.range 8).filter s.dev.lineOn).foldl (fun (d : Dev) (n : Nat) => d.wr (Reg.FR_MFAS_TX n) (mfasAt s.dev.advance.pace)) ({ s.dev.advance.outsTick (s.dev.advance.dpllCount - s.dev.dpllCount) with sched := { s.dev.sched with written := 0 }, relay := { s.dev.relay with sentAt := sset (dflt 0) s.dev.relay.sentAt (mfasAt s.dev.advance.pace) s.dev.advance.time } } : Dev)).chordTick.lanesTick) s t) ∧
  (∀ (n : Fin 8) (arrived seen : Nat) (s : State), s.Inv →
      s.dev.frs n = frAligned →
      s.dev.col.waiting = [] →
      (s.dev.fra n).mfas ≠ 0 →
      (s.dev.rxe n).chord.has (s.dev.fra n).pos (4160 * s.dev.rxSlots n) = true →
      ∃ t, exec (.rxFrame n .found .found arrived seen .found .found) s = .next t ∧ (
      let f : FrEngine := s.dev.fra n
      let k : Nat := s.dev.rxSlots n
      let bs : List (Byte × Nat) := (s.dev.rxe n).chord.bytesAt f.pos (4160 * k)
      let miss : Bool := headMiss k f.mfas ((headBlocks k bs).map (·.map (·.1)))
      State.Settles [] ((Dev.tick (((((s.dev.setFra n { f with pos := f.pos + frameBits k, mfas := (f.mfas + 1) % 256, misses := if miss then f.misses + 1 else 0, oofGood := if miss then 0 else f.oofGood + 1 }).wr (Reg.FR_MFAS_RX n) f.mfas).columnsIn f.mfas arrived (s.dev.rxInstant n seen ((s.dev.rxe n).chord.delayAt f.pos).1 ((s.dev.rxe n).chord.delayAt f.pos).2) (64 * n) (frameColumns k bs)).msimAll n (frameColumns k bs))))) s t)) ∧
  (∀ (n : Fin 8) (arrived seen : Nat) (s : State), s.Inv →
      s.dev.frs n = frOof →
      (s.dev.rxe n).chord.has (s.dev.fra n).pos (4160 * s.dev.rxSlots n) = true →
      ∃ t, exec (.rxFrame n .found .found arrived seen .found .found) s = .next t ∧ (
      let f : FrEngine := s.dev.fra n
      let k : Nat := s.dev.rxSlots n
      let bs : List (Byte × Nat) := (s.dev.rxe n).chord.bytesAt f.pos (4160 * k)
      let miss : Bool := headMiss k f.mfas ((headBlocks k bs).map (·.map (·.1)))
      State.Settles [] (s.dev.setFra n { f with pos := f.pos + frameBits k, mfas := (f.mfas + 1) % 256, misses := if miss then f.misses + 1 else 0, oofGood := if miss then 0 else f.oofGood + 1 }) s t)) ∧
  (∀ (d : Dev) (k mfas arrived c : Nat) (rx : Int) (col : Column), d.rxCourse k = some c → d.rd (rxSlotField k 10 7) ≠ 0 → columnValid (d.rd (Reg.FR_SEED_RX_SEED (k / 64))) col.overhead = true → col.ohMark < 2 → d.columnIn k mfas arrived rx col = { d with colSerial := sset (dflt 0) d.colSerial k (fieldBE col.overhead 11 6) }.setCo c { d.co c with held := (d.co c).held ++ ([⟨fieldBE col.overhead 11 6, d.rd (rxSlotField k 10 7), true, bitAt (fieldBE col.overhead 7 1) 5, max col.mark col.ohMark, sliceBytes col.payload 0 4096, col.overhead, arrived⟩] : List Member) }) ∧
  (∀ (c : Fin 512) (serial : BitVec 48) (arrived : Nat) (checkFail : CheckAt) (ms : List Member) (s : State), s.Inv →
      (List.range (s.dev.rxMembers c)).filterMap (fun j => (s.dev.co c).held.find? fun y => decide (y.serial = serial.toNat) && decide (y.member = j)) = ms →
      ms.length = s.dev.rxMembers c →
      (s.dev.rxOn c || s.dev.remoteRx c) = true →
      ∃ t, exec (.courseFrameRebuild c serial arrived checkFail false) s = .next t ∧ State.Settles [] ((s.dev.setCo c { s.dev.co c with held := (s.dev.co c).held.filter fun y => y.serial ≠ serial.toNat }).rebuilt c (s.dev.rxMembers c) serial.toNat arrived checkFail ms) s t) ∧
  (∀ (c : Fin 512) (serial : BitVec 48) (arrived : Nat) (checkFail : CheckAt) (s : State), s.Inv →
      ((List.range (s.dev.rxMembers c)).filterMap fun j => (s.dev.co c).held.find? fun y => decide (y.serial = serial.toNat) && decide (y.member = j)).length = s.dev.rxMembers c →
      (s.dev.rxOn c || s.dev.remoteRx c) = true →
      s.dev.pairOf c = none →
      ∃ t, exec (.courseFrameRebuild c serial arrived checkFail true) s = .next t ∧ State.Settles ([(19, 8)]) ((((s.dev.setCo c { s.dev.co c with held := (s.dev.co c).held.filter fun y => y.serial ≠ serial.toNat }).bump (Reg.CRSTAT_WITHHELD c)).ffIn c true).streamMissed c (s.dev.rxMembers c) serial.toNat none) s t) ∧
  (∀ (c : Fin 512) (serial : BitVec 48) (s : State), s.Inv →
      (s.dev.co c).held.any (fun y => decide (y.serial = serial.toNat)) = true →
      (((s.dev.co c).held.filter fun y => decide (y.serial = serial.toNat)).map (·.member)).dedup.length < s.dev.rxMembers c →
      (s.dev.co c).loa.bad < 7 →
      s.dev.pairOf c = none →
      ∃ t, exec (.skewMaxExpired c serial) s = .next t ∧ State.Settles ([(19, 8)]) ((((s.dev.setCo c { s.dev.co c with held := (s.dev.co c).held.filter (fun y => y.serial ≠ serial.toNat), loa := (⟨(s.dev.co c).loa.bad + 1, 0⟩ : Runs) }).bump (Reg.CRSTAT_WITHHELD c)).ffIn c true).streamMissed c (s.dev.rxMembers c) serial.toNat none) s t) ∧
  (∀ (fails : List (Fin 512)) (s : State), s.Inv →
      s.dev.hubOn = true →
      ∃ t, exec (.frameTick fails) s = .next t ∧ (
      let a : Dev := (s.dev.advance.colApply .tick).outsTick ((s.dev.advance.colApply .tick).dpllCount - s.dev.dpllCount)
      let b : Dev := if a.pace / (65536 * 1000000000) = s.dev.pace / (65536 * 1000000000) then a else a.colApply .second
      let m : Nat := mfasAt b.pace
      let c : Dev := ((List.range 8).filter b.lineOn).foldl (fun (d : Dev) (n : Nat) => d.wr (Reg.FR_MFAS_TX n) m) { b with sched := { b.sched with written := 0 }, relay := { b.relay with sentAt := sset (dflt 0) b.relay.sentAt m b.time } }
      let g : Dev := if m = 0 then c.takeBridges else c
      let own : Dev := ((g.courses.filter fun (c : Nat) => decide (g.sendsFor c = c) && !g.relayFed c) ++ g.remotes.filter g.remoteTx).foldl (fun (d : Dev) (c : Nat) => d.sendOwn ((fails.map (·.val)).contains c) c) g
      let br : Dev := (own.bridges.filter fun (b : Nat × Nat) => own.on (Reg.MAP_EN b.1)).foldl (fun (d : Dev) (b : Nat × Nat) => d.sendBridged b) own
      let tr : Dev := (br.courses ++ br.remotes).foldl (fun (d : Dev) (c : Nat) => d.sendTrail m s.dev.clock c) br
      let cols : Dev := (tr.courses.foldl (fun (d : Dev) (c : Nat) => (d.sendColumns m c).beiSent c) tr).chordTick
      let e : Dev := (((cols.remotes.filter cols.remoteTx).foldl (fun (d : Dev) (c : Nat) => d.sendRemote m c) cols).exportsTick.remotesFail).sendChannels.lanesTick
      State.Settles [] ((e.enabledPairs.foldl (fun (d : Dev) (p : Nat) => d.pathsTick p) e)) s t)) ∧
  (∀ (n : Fin 8) (arrived seen : Nat) (s : State), s.Inv →
      s.dev.frs n = frAligned →
      (s.dev.rxe n).chord.has (s.dev.fra n).pos (4160 * s.dev.rxSlots n) = true →
      ∃ t, exec (.rxFrame n .found .found arrived seen .found .found) s = .next t ∧ (
      let f : FrEngine := s.dev.fra n
      let k : Nat := s.dev.rxSlots n
      let bs : List (Byte × Nat) := (s.dev.rxe n).chord.bytesAt f.pos (4160 * k)
      let miss : Bool := headMiss k f.mfas ((headBlocks k bs).map (·.map (·.1)))
      State.Settles [] ((s.dev.setFra n { f with pos := f.pos + frameBits k, mfas := (f.mfas + 1) % 256, misses := if miss then f.misses + 1 else 0, oofGood := if miss then 0 else f.oofGood + 1 }).frameIn n f.mfas (frameColumns k bs) arrived seen ((s.dev.rxe n).chord.delayAt f.pos)) s t)) ∧
  (∀ (c : Fin 512) (serial : BitVec 48) (arrived : Nat) (checkFail : CheckAt) (s : State), s.Inv →
      ((List.range (s.dev.rxMembers c)).filterMap fun j => (s.dev.co c).held.find? fun y => decide (y.serial = serial.toNat) && decide (y.member = j)).length = s.dev.rxMembers c →
      (s.dev.rxOn c || s.dev.remoteRx c) = true →
      ∃ t, exec (.courseFrameRebuild c serial arrived checkFail true) s = .next t ∧ State.Settles [] ((s.dev.setCo c { s.dev.co c with held := (s.dev.co c).held.filter fun y => y.serial ≠ serial.toNat }).frameLost c serial.toNat) s t) ∧
  (∀ (c : Fin 512) (serial : BitVec 48) (s : State), s.Inv →
      (s.dev.co c).held.any (fun y => decide (y.serial = serial.toNat)) = true →
      (((s.dev.co c).held.filter fun y => decide (y.serial = serial.toNat)).map (·.member)).dedup.length < s.dev.rxMembers c →
      ∃ t, exec (.skewMaxExpired c serial) s = .next t ∧ State.Settles [] (((s.dev.setCo c { s.dev.co c with held := (s.dev.co c).held.filter fun y => y.serial ≠ serial.toNat }).loaIn c true).frameLost c serial.toNat) s t)

/-- A Parallax pair decides and releases its frames, and acquires its grid.

At the decision for the next serial its slot is read and emptied, and what it holds waits for the release tick; a poison mark read there, for a copy that came before the decision’s cycle, goes with it and is reported to memory integrity: POISON_CNT, the log and E-05.02. At the release of the decision that has waited longest: with no copy BOTH_INVALID counts, with a poisoned one POISONED, E-20.02 or E-20.06, and the frame is withheld; a good copy counts for its path, one of class 2 in FALLBACK too with E-20.07, and is delivered under course A; where the decryption’s check fails it is counted and withheld with E-21.07. One path alone at the end of ACQUIRE sets the grid, the first decision is that of two serials later, and the pair is SINGLE; LOST for 1 s returns to ACQUIRE. -/
def Obligations.ParallaxDecisionsAndReleases : Prop :=
  (∀ (p : BitVec 8) (d : Nat) (s : State), s.Inv →
      (s.dev.pr p.toNat).decided = some d →
      parMerged ≤ s.dev.rd (Reg.PSTAT_STATE p.toNat) →
      ∃ t, exec (.parallaxDecision p .found none) s = .next t ∧ State.Settles [] (s.dev.setPr p.toNat { s.dev.pr p.toNat with decided := some ((d + 1) % 2 ^ 48), slots := (s.dev.pr p.toNat).slots.filter (fun y => y.serial ≠ ((d + 1) % 2 ^ 48)), ready := (s.dev.pr p.toNat).ready ++ [⟨((d + 1) % 2 ^ 48), (s.dev.pr p.toNat).slots.find? (fun y => y.serial = (d + 1) % 2 ^ 48), false⟩] }) s t) ∧
  (∀ (p : BitVec 8) (m : MemRef) (d : Nat) (s : State), s.Inv →
      (s.dev.pr p.toNat).decided = some d →
      parMerged ≤ s.dev.rd (Reg.PSTAT_STATE p.toNat) →
      ((s.dev.pr p.toNat).slots.find? (fun y => y.serial = (d + 1) % 2 ^ 48)).any (fun y => decide ((y.arrived : Int) < s.dev.decisionAt p.toNat ((d + 1) % 2 ^ 48))) = true →
      ∃ t, exec (.parallaxDecision p .found (some m)) s = .next t ∧ State.Settles ([(5, 2)]) (((s.dev.setPr p.toNat { s.dev.pr p.toNat with decided := some ((d + 1) % 2 ^ 48), slots := (s.dev.pr p.toNat).slots.filter (fun y => y.serial ≠ ((d + 1) % 2 ^ 48)), ready := (s.dev.pr p.toNat).ready ++ [⟨((d + 1) % 2 ^ 48), (s.dev.pr p.toNat).slots.find? (fun y => y.serial = (d + 1) % 2 ^ 48), true⟩] }).bump Reg.POISON_CNT).logError m true 127 (consumerCode .parallax)) s t) ∧
  (∀ (p : BitVec 8) (m : MemRef) (d : Nat) (s : State), s.Inv →
      (s.dev.pr p.toNat).decided = some d →
      parMerged ≤ s.dev.rd (Reg.PSTAT_STATE p.toNat) →
      ((s.dev.pr p.toNat).slots.find? (fun y => y.serial = (d + 1) % 2 ^ 48)).any (fun y => decide ((y.arrived : Int) < s.dev.decisionAt p.toNat ((d + 1) % 2 ^ 48))) = false →
      ∃ t, exec (.parallaxDecision p .found (some m)) s = .next t ∧ State.Settles [] (s.dev.setPr p.toNat { s.dev.pr p.toNat with decided := some ((d + 1) % 2 ^ 48), slots := (s.dev.pr p.toNat).slots.filter (fun y => y.serial ≠ ((d + 1) % 2 ^ 48)), ready := (s.dev.pr p.toNat).ready ++ [⟨((d + 1) % 2 ^ 48), (s.dev.pr p.toNat).slots.find? (fun y => y.serial = (d + 1) % 2 ^ 48), false⟩] }) s t) ∧
  (∀ (p : BitVec 8) (checkFail bad : Bool) (n : Nat) (rest : List Decision) (s : State), s.Inv →
      (s.dev.pr p.toNat).cmds = [] →
      (s.dev.pr p.toNat).ready = ⟨n, none, bad⟩ :: rest →
      ∃ t, exec (.parallaxRelease p checkFail) s = .next t ∧ State.Settles ([(20, 2)]) (((s.dev.setPr p.toNat { s.dev.pr p.toNat with ready := rest }).bump (Reg.PSTAT_BOTH_INVALID p.toNat)).streamMissed (s.dev.rd (Reg.PAIR_COURSE_A p.toNat)) (s.dev.members (s.dev.rd (Reg.PAIR_COURSE_A p.toNat))) n none) s t) ∧
  (∀ (p : BitVec 8) (checkFail : Bool) (n : Nat) (y : Slot) (rest : List Decision) (s : State), s.Inv →
      (s.dev.pr p.toNat).cmds = [] →
      (s.dev.pr p.toNat).ready = ⟨n, some y, true⟩ :: rest →
      ∃ t, exec (.parallaxRelease p checkFail) s = .next t ∧ State.Settles ([(20, 6)]) (((s.dev.setPr p.toNat { s.dev.pr p.toNat with ready := rest }).bump (Reg.PSTAT_POISONED p.toNat)).streamMissed (s.dev.rd (Reg.PAIR_COURSE_A p.toNat)) (s.dev.members (s.dev.rd (Reg.PAIR_COURSE_A p.toNat))) n none) s t) ∧
  (∀ (p : BitVec 8) (checkFail : Bool) (n : Nat) (y : Slot) (rest : List Decision) (s : State), s.Inv →
      (s.dev.pr p.toNat).cmds = [] →
      (s.dev.pr p.toNat).ready = ⟨n, some y, false⟩ :: rest →
      checkFail = true → s.dev.on (Reg.CKEY_ENC (s.dev.rd (Reg.PAIR_COURSE_A p.toNat))) = false →
      ∃ t, exec (.parallaxRelease p checkFail) s = .next t ∧ State.Settles (if y.cls = 2 then [(20, 7)] else []) ((if y.cls = 2 then ((s.dev.setPr p.toNat { s.dev.pr p.toNat with ready := rest }).bump (fromField p.toNat y.fromB)).bump (Reg.PSTAT_FALLBACK p.toNat) else (s.dev.setPr p.toNat { s.dev.pr p.toNat with ready := rest }).bump (fromField p.toNat y.fromB)).deliver (s.dev.rd (Reg.PAIR_COURSE_A p.toNat)) (s.dev.members (s.dev.rd (Reg.PAIR_COURSE_A p.toNat))) y.serial y.ks y.frame) s t) ∧
  (∀ (p : BitVec 8) (n : Nat) (y : Slot) (rest : List Decision) (s : State), s.Inv →
      (s.dev.pr p.toNat).cmds = [] →
      (s.dev.pr p.toNat).ready = ⟨n, some y, false⟩ :: rest →
      s.dev.on (Reg.CKEY_ENC (s.dev.rd (Reg.PAIR_COURSE_A p.toNat))) = true →
      ∃ t, exec (.parallaxRelease p true) s = .next t ∧ State.Settles (if y.cls = 2 then [(20, 7), (21, 7)] else [(21, 7)]) ((((if y.cls = 2 then ((s.dev.setPr p.toNat { s.dev.pr p.toNat with ready := rest }).bump (fromField p.toNat y.fromB)).bump (Reg.PSTAT_FALLBACK p.toNat) else (s.dev.setPr p.toNat { s.dev.pr p.toNat with ready := rest }).bump (fromField p.toNat y.fromB)).bump (Reg.CSTAT_CHECK_FAIL (s.dev.rd (Reg.PAIR_COURSE_A p.toNat)))).bump Reg.CHK_FAIL_COURSE).streamMissed (s.dev.rd (Reg.PAIR_COURSE_A p.toNat)) (s.dev.members (s.dev.rd (Reg.PAIR_COURSE_A p.toNat))) y.serial none) s t) ∧
  (∀ (p : BitVec 8) (f l : Bool × Nat × Int) (s : State), s.Inv →
      s.dev.rd (Reg.PSTAT_STATE p.toNat) = parAcquire →
      (s.dev.pr p.toNat).firsts.head? = some f →
      (s.dev.pr p.toNat).firsts.getLast? = some l →
      (s.dev.pr p.toNat).firsts.all (fun e => e.1 = f.1) = true →
      ∃ t, exec (.parallaxAcquireEnd p) s = .next t ∧ State.Settles [] (((s.dev.pairGo p.toNat parSingle).setPr p.toNat (({ s.dev.pr p.toNat with grid := [⟨f.2.1, f.2.2 * 65536, 0⟩], firsts := [], decided := some ((f.2.1 + 1) % 2 ^ 48), slots := (s.dev.pr p.toNat).slots.filter fun y => decide (0 < serialDiff y.serial ((f.2.1 + 1) % 2 ^ 48)) } : Pair).setPath f.1 { PairPath.reset with contributing := true, ok := 8, last := some l.2.1, offsets := [0] })).showPaths p.toNat) s t) ∧
  (∀ (p : BitVec 8) (s : State), s.Inv →
      s.dev.rd (Reg.PSTAT_STATE p.toNat) = parLost →
      ∃ t, exec (.parallaxLostTimeout p) s = .next t ∧ State.Settles [] (s.dev.pairGo p.toNat parAcquire) s t)

/-- The commands of a protection pair, its selector and its timers.

A command written for a pair waits for the pair’s next course frame boundary; MS and MS-W on a pair that runs in Parallax mode or with a failed or degraded course are refused and counted, and REGRID on one that runs as 1+1; with AUTO_INC a command advances INDEX. At the boundary LO, FS, MS and MS-W set their request and CLEAR drops all three, the requests being evaluated anew; REGRID takes a running Parallax pair back to ACQUIRE; zeroing clears the eight counters of PSTAT. The hold-off’s end acts on the conditions that have waited longest; the selector moves to what the request asks for at the frame boundary, counted, with E-20.01 and its PAR_CHG bit; WTR that expires ends with E-20.11. -/
def Obligations.PairCommandsAndSelector : Prop :=
  (∀ (p : BitVec 8) (s : State), s.Inv →
      s.dev.pageLive (pairPage) = true →
      s.dev.pageInTest (pairPage) = false →
      ∃ t, exec (.cmdLo p) s = .next t ∧ State.Settles [] (if s.dev.on Reg.PARALLAX_TBL_INDEX_AUTO_INC then (s.dev.setPr p.toNat { s.dev.pr p.toNat with cmds := (s.dev.pr p.toNat).cmds ++ [1] }).wr Reg.PARALLAX_TBL_INDEX_INDEX (p.toNat + 1) else (s.dev.setPr p.toNat { s.dev.pr p.toNat with cmds := (s.dev.pr p.toNat).cmds ++ [1] })) s t) ∧
  (∀ (p : BitVec 8) (s : State), s.Inv →
      s.dev.pageLive (pairPage) = true →
      s.dev.pageInTest (pairPage) = false →
      ∃ t, exec (.cmdFs p) s = .next t ∧ State.Settles [] (if s.dev.on Reg.PARALLAX_TBL_INDEX_AUTO_INC then (s.dev.setPr p.toNat { s.dev.pr p.toNat with cmds := (s.dev.pr p.toNat).cmds ++ [2] }).wr Reg.PARALLAX_TBL_INDEX_INDEX (p.toNat + 1) else (s.dev.setPr p.toNat { s.dev.pr p.toNat with cmds := (s.dev.pr p.toNat).cmds ++ [2] })) s t) ∧
  (∀ (p : BitVec 8) (s : State), s.Inv →
      s.dev.pageLive (pairPage) = true →
      s.dev.pageInTest (pairPage) = false →
      s.dev.pairMode p.toNat ≠ 2 →
      s.dev.protSf (s.dev.rd (Reg.PAIR_COURSE_A p.toNat)) = false →
      s.dev.protSd p.toNat (s.dev.rd (Reg.PAIR_COURSE_A p.toNat)) = false →
      s.dev.protSf (s.dev.rd (Reg.PAIR_COURSE_B p.toNat)) = false →
      s.dev.protSd p.toNat (s.dev.rd (Reg.PAIR_COURSE_B p.toNat)) = false →
      ∃ t, exec (.cmdMs p) s = .next t ∧ State.Settles [] (if s.dev.on Reg.PARALLAX_TBL_INDEX_AUTO_INC then (s.dev.setPr p.toNat { s.dev.pr p.toNat with cmds := (s.dev.pr p.toNat).cmds ++ [3] }).wr Reg.PARALLAX_TBL_INDEX_INDEX (p.toNat + 1) else (s.dev.setPr p.toNat { s.dev.pr p.toNat with cmds := (s.dev.pr p.toNat).cmds ++ [3] })) s t) ∧
  (∀ (p : BitVec 8) (s : State), s.Inv →
      s.dev.pageLive (pairPage) = true →
      s.dev.pageInTest (pairPage) = false →
      s.dev.pairMode p.toNat ≠ 2 →
      s.dev.protSf (s.dev.rd (Reg.PAIR_COURSE_A p.toNat)) = false →
      s.dev.protSd p.toNat (s.dev.rd (Reg.PAIR_COURSE_A p.toNat)) = false →
      s.dev.protSf (s.dev.rd (Reg.PAIR_COURSE_B p.toNat)) = false →
      s.dev.protSd p.toNat (s.dev.rd (Reg.PAIR_COURSE_B p.toNat)) = false →
      ∃ t, exec (.cmdMsW p) s = .next t ∧ State.Settles [] (if s.dev.on Reg.PARALLAX_TBL_INDEX_AUTO_INC then (s.dev.setPr p.toNat { s.dev.pr p.toNat with cmds := (s.dev.pr p.toNat).cmds ++ [4] }).wr Reg.PARALLAX_TBL_INDEX_INDEX (p.toNat + 1) else (s.dev.setPr p.toNat { s.dev.pr p.toNat with cmds := (s.dev.pr p.toNat).cmds ++ [4] })) s t) ∧
  (∀ (p : BitVec 8) (s : State), s.Inv →
      s.dev.pageLive (pairPage) = true →
      s.dev.pageInTest (pairPage) = false →
      s.dev.pairMode p.toNat = 2 →
      ∃ t, exec (.cmdMs p) s = .next t ∧ State.Settles [] (if s.dev.on Reg.PARALLAX_TBL_INDEX_AUTO_INC then (s.dev.viol pairPage).wr Reg.PARALLAX_TBL_INDEX_INDEX (p.toNat + 1) else (s.dev.viol pairPage)) s t) ∧
  (∀ (p : BitVec 8) (s : State), s.Inv →
      s.dev.pageLive (pairPage) = true →
      s.dev.pageInTest (pairPage) = false →
      s.dev.protSd p.toNat (s.dev.rd (Reg.PAIR_COURSE_A p.toNat)) = true →
      ∃ t, exec (.cmdMsW p) s = .next t ∧ State.Settles [] (if s.dev.on Reg.PARALLAX_TBL_INDEX_AUTO_INC then (s.dev.viol pairPage).wr Reg.PARALLAX_TBL_INDEX_INDEX (p.toNat + 1) else (s.dev.viol pairPage)) s t) ∧
  (∀ (p : BitVec 8) (s : State), s.Inv →
      s.dev.pageLive (pairPage) = true →
      s.dev.pageInTest (pairPage) = false →
      ∃ t, exec (.cmdClear p) s = .next t ∧ State.Settles [] (if s.dev.on Reg.PARALLAX_TBL_INDEX_AUTO_INC then (s.dev.setPr p.toNat { s.dev.pr p.toNat with cmds := (s.dev.pr p.toNat).cmds ++ [5] }).wr Reg.PARALLAX_TBL_INDEX_INDEX (p.toNat + 1) else (s.dev.setPr p.toNat { s.dev.pr p.toNat with cmds := (s.dev.pr p.toNat).cmds ++ [5] })) s t) ∧
  (∀ (p : BitVec 8) (s : State), s.Inv →
      s.dev.pageLive (pairPage) = true →
      s.dev.pageInTest (pairPage) = false →
      s.dev.pairMode p.toNat ≠ 1 →
      ∃ t, exec (.cmdRegrid p) s = .next t ∧ State.Settles [] (if s.dev.on Reg.PARALLAX_TBL_INDEX_AUTO_INC then (s.dev.setPr p.toNat { s.dev.pr p.toNat with cmds := (s.dev.pr p.toNat).cmds ++ [6] }).wr Reg.PARALLAX_TBL_INDEX_INDEX (p.toNat + 1) else (s.dev.setPr p.toNat { s.dev.pr p.toNat with cmds := (s.dev.pr p.toNat).cmds ++ [6] })) s t) ∧
  (∀ (p : BitVec 8) (s : State), s.Inv →
      s.dev.pageLive (pairPage) = true →
      s.dev.pageInTest (pairPage) = false →
      s.dev.pairMode p.toNat = 1 →
      ∃ t, exec (.cmdRegrid p) s = .next t ∧ State.Settles [] (if s.dev.on Reg.PARALLAX_TBL_INDEX_AUTO_INC then (s.dev.viol pairPage).wr Reg.PARALLAX_TBL_INDEX_INDEX (p.toNat + 1) else (s.dev.viol pairPage)) s t) ∧
  (∀ (p : BitVec 8) (s : State), s.Inv →
      s.dev.pageLive (pairPage) = true →
      s.dev.pageInTest (pairPage) = false →
      ∃ t, exec (.cmdZeroPstat p) s = .next t ∧ State.Settles [] (if s.dev.on Reg.PARALLAX_TBL_INDEX_AUTO_INC then (s.dev.setPr p.toNat { s.dev.pr p.toNat with cmds := (s.dev.pr p.toNat).cmds ++ [7] }).wr Reg.PARALLAX_TBL_INDEX_INDEX (p.toNat + 1) else (s.dev.setPr p.toNat { s.dev.pr p.toNat with cmds := (s.dev.pr p.toNat).cmds ++ [7] })) s t) ∧
  (∀ (p : BitVec 8) (checkFail : Bool) (s : State), s.Inv →
      (s.dev.pr p.toNat).cmds = [1] →
      (s.dev.pr p.toNat).ready = [] →
      ∃ t, exec (.parallaxRelease p checkFail) s = .next t ∧ State.Settles [] ((s.dev.setPr p.toNat { s.dev.pr p.toNat with cmds := [], lo := true }).evalPair p.toNat (s.dev.pr p.toNat).hadA) s t) ∧
  (∀ (p : BitVec 8) (checkFail : Bool) (s : State), s.Inv →
      (s.dev.pr p.toNat).cmds = [2] →
      (s.dev.pr p.toNat).ready = [] →
      ∃ t, exec (.parallaxRelease p checkFail) s = .next t ∧ State.Settles [] ((s.dev.setPr p.toNat { s.dev.pr p.toNat with cmds := [], fs := true }).evalPair p.toNat (s.dev.pr p.toNat).hadA) s t) ∧
  (∀ (p : BitVec 8) (checkFail : Bool) (s : State), s.Inv →
      (s.dev.pr p.toNat).cmds = [3] →
      (s.dev.pr p.toNat).ready = [] →
      ∃ t, exec (.parallaxRelease p checkFail) s = .next t ∧ State.Settles [] ((s.dev.setPr p.toNat { s.dev.pr p.toNat with cmds := [], ms := some true }).evalPair p.toNat (s.dev.pr p.toNat).hadA) s t) ∧
  (∀ (p : BitVec 8) (checkFail : Bool) (s : State), s.Inv →
      (s.dev.pr p.toNat).cmds = [4] →
      (s.dev.pr p.toNat).ready = [] →
      ∃ t, exec (.parallaxRelease p checkFail) s = .next t ∧ State.Settles [] ((s.dev.setPr p.toNat { s.dev.pr p.toNat with cmds := [], ms := some false }).evalPair p.toNat (s.dev.pr p.toNat).hadA) s t) ∧
  (∀ (p : BitVec 8) (checkFail : Bool) (s : State), s.Inv →
      (s.dev.pr p.toNat).cmds = [5] →
      (s.dev.pr p.toNat).ready = [] →
      ∃ t, exec (.parallaxRelease p checkFail) s = .next t ∧ State.Settles [] ((s.dev.setPr p.toNat { s.dev.pr p.toNat with cmds := [], lo := false, fs := false, ms := none }).evalPair p.toNat (s.dev.pr p.toNat).hadA) s t) ∧
  (∀ (p : BitVec 8) (checkFail : Bool) (s : State), s.Inv →
      (s.dev.pr p.toNat).cmds = [6] →
      (s.dev.pr p.toNat).ready = [] →
      ∃ t, exec (.parallaxRelease p checkFail) s = .next t ∧ State.Settles [] (if parMerged ≤ s.dev.rd (Reg.PSTAT_STATE p.toNat) then (s.dev.setPr p.toNat { s.dev.pr p.toNat with cmds := [] }).pairGo p.toNat parAcquire else s.dev.setPr p.toNat { s.dev.pr p.toNat with cmds := [] }) s t) ∧
  (∀ (p : BitVec 8) (checkFail : Bool) (s : State), s.Inv →
      (s.dev.pr p.toNat).cmds = [7] →
      (s.dev.pr p.toNat).ready = [] →
      ∃ t, exec (.parallaxRelease p checkFail) s = .next t ∧ State.Settles [] ((s.dev.setPr p.toNat { s.dev.pr p.toNat with cmds := [] }).setWords (Reg.PSTAT_FROM_A p.toNat).cell (List.replicate 8 0)) s t) ∧
  (∀ (p : BitVec 8) (checkFail : Bool) (s : State), s.Inv →
      (s.dev.pr p.toNat).ready = [] →
      ∃ t, exec (.parallaxRelease p checkFail) s = .next t ∧ State.Settles [] ((s.dev.pr p.toNat).cmds.foldl (fun (d : Dev) (c : Nat) => d.commandRun p.toNat c) (s.dev.setPr p.toNat { s.dev.pr p.toNat with cmds := [] })) s t) ∧
  (∀ (p : BitVec 8) (s : State), s.Inv →
      s.dev.pairMode p.toNat = 1 →
      s.dev.on (Reg.PAIR_EN p.toNat) = true →
      ∃ t, exec (.protHoldoffExpired p) s = .next t ∧ State.Settles [] ((s.dev.setPr p.toNat { s.dev.pr p.toNat with sfA := (s.dev.pr p.toNat).sfA.expire (s.dev.pr p.toNat).oldest, sdA := (s.dev.pr p.toNat).sdA.expire (s.dev.pr p.toNat).oldest, sfB := (s.dev.pr p.toNat).sfB.expire (s.dev.pr p.toNat).oldest, sdB := (s.dev.pr p.toNat).sdB.expire (s.dev.pr p.toNat).oldest }).evalPair p.toNat (s.dev.pr p.toNat).hadA) s t) ∧
  (∀ (p : BitVec 8) (s : State), s.Inv →
      (s.dev.pr p.toNat).cmds = [] →
      s.dev.pairMode p.toNat = 1 →
      s.dev.on (Reg.PAIR_EN p.toNat) = true →
      s.dev.on (Reg.PSTAT_SEL p.toNat) ≠ (s.dev.request p.toNat).toB →
      ∃ t, exec (.selectorMove p) s = .next t ∧ State.Settles ([(20, 1)]) (((((s.dev.setPr p.toNat { s.dev.pr p.toNat with cmds := [] }).wrB (Reg.PSTAT_SEL p.toNat) (s.dev.request p.toNat).toB).bump (Reg.PSTAT_SWITCHES p.toNat)).pairChanged p.toNat).showPair p.toNat) s t) ∧
  (∀ (p : BitVec 8) (s : State), s.Inv →
      (s.dev.pr p.toNat).wtr.isSome = true →
      ∃ t, exec (.wtrExpired p) s = .next t ∧ State.Settles (if s.dev.pairMode p.toNat = 1 then [(20, 11)] else []) (if s.dev.pairMode p.toNat = 1 then (s.dev.setPr p.toNat { s.dev.pr p.toNat with wtr := none }).showPair p.toNat else s.dev) s t)

/-- Reads and writes of table entries through the windows.

A READ copies the words of the selected entry of the table to TBL_DATA; a WRITE of an entry of a table of RWA fields whose page is OPEN goes to the entry’s shadow, one of a covered table with its journal entry at JRN_WR; so does one of a counter configuration, without a journal entry; a WRITE of the VALUE table sets the counter; an index beyond the table is a refused write, counted, with the page’s event. The index advances after each of them where AUTO_INC is set. -/
def Obligations.TableWindowAccesses : Prop :=
  (∀ (w : TblWindow) (v : Word) (ts : TableSpec) (s : State), s.Inv →
      s.dev.pageLive (tblPage w) = true →
      s.dev.pageInTest (tblPage w) = false →
      v.getLsbD 1 = false →
      tableAt (tblPage w) (s.dev.tblCode w) = some ts →
      s.dev.rd (tblIndex w) < ts.count →
      ∃ t, exec (.tblOpRead w v) s = .next t ∧ State.Settles [] ((((s.dev.writeWord (tblPage w) (tblOpOff w) (if w = .collim then 1 else 3) (v ||| 1))).setWords (tblData w).1 ((((s.dev.access 1 (tblPage w) (tblOpOff w)).writeWord (tblPage w) (tblOpOff w) (if w = .collim then 1 else 3) (v ||| 1))).entryRead ts (bankIndex (if ts.banked then s.dev.tblBank w else 0) (s.dev.rd (tblIndex w))))).tblAdvance w) s t) ∧
  (∀ (w : TblWindow) (v : Word) (collided : Bool) (ts : TableSpec) (s : State), s.Inv →
      s.dev.pageLive (tblPage w) = true →
      s.dev.pageInTest (tblPage w) = false →
      v.getLsbD 0 = false →
      w ≠ .collim →
      tableAt (tblPage w) (s.dev.tblCode w) = some ts →
      (coveredTables (tblPage w)).any (fun x => x.code = s.dev.tblCode w) = true →
      s.dev.rd (tblIndex w) < ts.count →
      ts.banked = false →
      ts.id ≠ tableCMD.id →
      ts.words.any (fun fs => fs.any fun f => f.acc = .rwa) = true →
      (s.dev.hdr ts.page).cstate = .opened →
      setsReserved ts (s.dev.words (tblData w).1 (tblData w).2) = false →
      ∃ t, exec (.tblOpWrite w v collided) s = .next t ∧ (
      let Z : Dev := ((s.dev.writeWord (tblPage w) (tblOpOff w) 3 (v ||| 2))).entryShadow ts (s.dev.rd (tblIndex w)) (s.dev.words (tblData w).1 (tblData w).2)
      State.Stores ([]) ({ ((Z).journal (tblPage w) s.dev.masterCode 2).tblAdvance w with hbmOut := [] }) ([(Config.jrnBase + 32 * (Z).rd Reg.JRN_WR_INDEX, (Z).journalEntry (tblPage w) s.dev.masterCode 2 ((Z).rd64 Reg.EPOCH_LO + 1))]) s t)) ∧
  (∀ (v : Word) (collided : Bool) (s : State), s.Inv →
      s.dev.pageLive (0x030) = true →
      s.dev.pageInTest (0x030) = false →
      v.getLsbD 0 = false →
      s.dev.rd Reg.PERF_TBL_SEL_TABLE = 0 →
      (s.dev.hdr 0x030).cstate = .opened →
      setsReserved tableCNTCFG (s.dev.words (regCell 0x030 0x050) 4) = false →
      ∃ t, exec (.tblOpWrite .perf v collided) s = .next t ∧ State.Settles [] ((((s.dev.writeWord (tblPage .perf) (tblOpOff .perf) 3 (v ||| 2))).entryShadow tableCNTCFG (s.dev.rd Reg.PERF_TBL_INDEX_INDEX) (s.dev.words (regCell 0x030 0x050) 4)).tblAdvance .perf) s t) ∧
  (∀ (v : Word) (s : State), s.Inv →
      s.dev.pageLive (0x030) = true →
      s.dev.pageInTest (0x030) = false →
      v.getLsbD 0 = false →
      s.dev.rd Reg.PERF_TBL_SEL_TABLE = 1 →
      setsReserved tablePVALUE (s.dev.words (regCell 0x030 0x050) 4) = false →
      ∃ t, exec (.tblOpWrite .perf v false) s = .next t ∧ State.Settles [] (((s.dev.writeWord (tblPage .perf) (tblOpOff .perf) 3 (v ||| 2))).tblAdvance .perf) s t ∧
      t.dev.counter (s.dev.rd Reg.PERF_TBL_INDEX_INDEX) = (s.dev.word (regCell 0x030 0x050)).toNat + 2 ^ 32 * getBits (s.dev.word (regCell 0x030 0x054)) 0 16) ∧
  (∀ (w : TblWindow) (v : Word) (collided : Bool) (ts : TableSpec) (s : State), s.Inv →
      s.dev.pageLive (tblPage w) = true →
      s.dev.pageInTest (tblPage w) = false →
      v.getLsbD 0 = false →
      w ≠ .collim →
      tableAt (tblPage w) (s.dev.tblCode w) = some ts →
      ts.count ≤ s.dev.rd (tblIndex w) →
      ∃ t, exec (.tblOpWrite w v collided) s = .next t ∧ State.Settles (match w with | .parse => [(26, 11)] | .sched => [(27, 8)] | .perf => [(29, 3)] | _ => []) (((((s.dev.writeWord (tblPage w) (tblOpOff w) 3 (v ||| 2))).viol (tblPage w)).tblAdvance w).oneViol (tblPage w) (s.dev.hdr (tblPage w)).viol) s t)

/-- A bulk load of parse-table entries starts, applies its records and ends.

GO while no load runs starts one of the programmed table, bank, source and count: BUSY set, ERR and DONE cleared. Each record, read from its 160 bytes in the window, is written to its entry under the table’s rules and counted in DONE; a record outside the home region stops the load with ERR, a violation and E-26.11. The end clears BUSY, raises E-26.12, or E-26.13 where a record was refused, and leaves one journal entry of kind 3. -/
def Obligations.BulkLoads : Prop :=
  (∀ (v : Word) (s : State), s.Inv →
      s.dev.pageLive (0x301) = true →
      s.dev.pageInTest (0x301) = false →
      s.dev.on Reg.LOAD_CTRL_BUSY = false →
      ∃ t, exec (.bulkLoadGo v) s = .next t ∧ State.Settles [] (((({ (s.dev.writeWord 0x301 0x0E8 0x10 (v ||| 0x10)) with parse := { s.dev.parse with load := some ⟨(s.dev.writeWord 0x301 0x0E8 0x10 (v ||| 0x10)).rd Reg.LOAD_CTRL_TABLE, (s.dev.writeWord 0x301 0x0E8 0x10 (v ||| 0x10)).rd Reg.LOAD_CTRL_BANK, s.dev.rd Reg.LOAD_ADDR_OFFSET, s.dev.rd Reg.LOAD_COUNT, 0, s.dev.masterCode⟩ } }.wr Reg.LOAD_CTRL_BUSY 1).wr Reg.LOAD_CTRL_ERR 0).wr Reg.LOAD_DONE_RECORDS 0)) s t) ∧
  (∀ (l : BulkLoad) (ts : TableSpec) (s : State), s.Inv →
      s.dev.parse.load = some l →
      s.dev.on Reg.LOAD_CTRL_ERR = false →
      l.done < l.count →
      inWindow (l.src + 160 * l.done) 160 = true →
      tableAt 0x301 l.table = some ts →
      ts ∈ [tableEDIT, tablePORTDEFAULT, tableTEMPLATE] →
      fieldLE (s.bytes (winAddr (l.src + 160 * l.done)) 160) 0 4 % 2 ^ 20 < ts.count →
      s.dev.bankLive l.bank = false →
      setsReserved ts ((List.range 36).map fun k => BitVec.ofNat 32 (fieldLE (s.bytes (winAddr (l.src + 160 * l.done)) 160) (4 + 4 * k) 4)) = false →
      ∃ t, exec (.bulkLoadRecord) s = .next t ∧ State.Settles [] (({ s.dev.entryPut ts (bankIndex (if ts.banked then l.bank else 0) (fieldLE (s.bytes (winAddr (l.src + 160 * l.done)) 160) 0 4 % 2 ^ 20)) ((List.range 36).map fun k => BitVec.ofNat 32 (fieldLE (s.bytes (winAddr (l.src + 160 * l.done)) 160) (4 + 4 * k) 4)) with parse := { s.dev.parse with load := some { l with done := l.done + 1 } } }).wr Reg.LOAD_DONE_RECORDS (l.done + 1)) s t) ∧
  (∀ (l : BulkLoad) (s : State), s.Inv →
      s.dev.parse.load = some l →
      s.dev.on Reg.LOAD_CTRL_ERR = false →
      l.done < l.count →
      inWindow (l.src + 160 * l.done) 160 = false →
      ∃ t, exec (.bulkLoadRecord) s = .next t ∧ State.Settles ([(26, 11)]) ((s.dev.viol 0x301).wr Reg.LOAD_CTRL_ERR 1) s t) ∧
  (∀ (l : BulkLoad) (s : State), s.Inv →
      s.dev.parse.load = some l →
      s.dev.on Reg.LOAD_CTRL_ERR = true ∨ l.count ≤ l.done →
      ∃ t, exec (.bulkLoadComplete) s = .next t ∧ (
      let Z : Dev := { s.dev with parse := { s.dev.parse with load := none } }.wr Reg.LOAD_CTRL_BUSY 0
      State.Stores (if s.dev.on Reg.LOAD_CTRL_ERR then [(26, 13)] else [(26, 12)]) ({ ((Z).journal 0x301 l.master 3) with hbmOut := [] }) ([(Config.jrnBase + 32 * (Z).rd Reg.JRN_WR_INDEX, (Z).journalEntry 0x301 l.master 3 ((Z).rd64 Reg.EPOCH_LO + 1))]) s t))

/-- Snapshot counters, event latches, vectors and performance counters.

TAKE copies the running counters of the page to its registers and CLEAR alone zeroes the running counters, while both are refused and counted in a CLIENT page whose lane belongs to a port that begins elsewhere (the model’s reading, log 146); a write of ones clears the latch bits of a group, through page 0x021 or a page’s own header; the end of a hold-off sends the vector’s one waiting message while its input is 1; a read of VALUE_LO with counting frozen gives the counter and takes its snapshot; CLEAR zeroes every performance counter and OVF bit. -/
def Obligations.SnapshotsEventsAndCounters : Prop :=
  (∀ (page : BitVec 12) (v : Word) (off : Nat) (offs : List Nat) (s : State), s.Inv →
      s.dev.pageLive (page.toNat) = true →
      s.dev.pageInTest (page.toNat) = false →
      snapshotOf page.toNat = some (off, offs) →
      s.dev.portHidden page.toNat off = false →
      v.getLsbD 1 = false →
      ∃ t, exec (.cntSnapTake page v) s = .next t ∧ State.Settles [] (((s.dev.writeWord page.toNat off 3 (v ||| 1))).snapTake page.toNat offs) s t) ∧
  (∀ (page : BitVec 12) (v : Word) (off : Nat) (offs : List Nat) (s : State), s.Inv →
      s.dev.pageLive (page.toNat) = true →
      s.dev.pageInTest (page.toNat) = false →
      snapshotOf page.toNat = some (off, offs) →
      s.dev.portHidden page.toNat off = false →
      ∃ t, exec (.cntSnapClear page v) s = .next t ∧ State.Settles [] ((s.dev.writeWord page.toNat off 3 ((v ||| 2) &&& ~~~ 1)).snapClear page.toNat offs) s t) ∧
  (∀ (page : BitVec 12) (v : Word) (off : Nat) (offs : List Nat) (s : State), s.Inv →
      s.dev.pageLive (page.toNat) = true →
      s.dev.pageInTest (page.toNat) = false →
      snapshotOf page.toNat = some (off, offs) →
      s.dev.portHidden page.toNat off = true →
      ∃ t, exec (.cntSnapTake page v) s = .next t ∧ State.Settles [] (s.dev.viol page.toNat) s t) ∧
  (∀ (page : BitVec 12) (v : Word) (off : Nat) (offs : List Nat) (s : State), s.Inv →
      s.dev.pageLive (page.toNat) = true →
      s.dev.pageInTest (page.toNat) = false →
      snapshotOf page.toNat = some (off, offs) →
      s.dev.portHidden page.toNat off = true →
      ∃ t, exec (.cntSnapClear page v) s = .next t ∧ State.Settles [] (s.dev.viol page.toNat) s t) ∧
  (∀ (g : Fin 32) (v : Word) (s : State), s.Inv →
      s.dev.pageLive (0x021) = true →
      s.dev.pageInTest (0x021) = false →
      ∃ t, exec (.evLatchClear (.group g) v) s = .next t ∧ State.Settles [] ({ s.dev with ev := { s.dev.ev with groups := sset (dflt EvGroup.reset) s.dev.ev.groups g { s.dev.ev.group g with latch := (s.dev.ev.group g).latch &&& ~~~ v } } }) s t) ∧
  (∀ (page : BitVec 12) (g : Nat) (v : Word) (s : State), s.Inv →
      s.dev.pageLive page.toNat = true →
      page.toNat < 0x400 →
      pageGroup page.toNat = some g →
      ∃ t, exec (.evLatchClear (.header page) v) s = .next t ∧ State.Settles [] ({ s.dev with ev := { s.dev.ev with groups := sset (dflt EvGroup.reset) s.dev.ev.groups g { s.dev.ev.group g with latch := (s.dev.ev.group g).latch &&& ~~~ v } } }) s t) ∧
  (∀ (k : Fin 32) (s : State), s.Inv →
      (sget (dflt VecState.reset) s.dev.ev.vecs k).held = true →
      ∃ t, exec (.vecHoldoffExpire k) s = .next t ∧ t = { s with dev := { s.dev with ev := { s.dev.ev with vecs := sset (dflt VecState.reset) s.dev.ev.vecs k (if (sget (dflt VecState.reset) s.dev.ev.vecs k).waiting && s.dev.ev.input k then ⟨decide (s.dev.holdoff k ≠ 0), false, (sget (dflt VecState.reset) s.dev.ev.vecs k).sent + 1⟩ else ⟨false, false, (sget (dflt VecState.reset) s.dev.ev.vecs k).sent⟩) } } }) ∧
  (∀ (k : Fin 256) (j : Fin 32) (size : Fin 3) (s : State), s.Inv →
      s.dev.pageLive (0x400 + k) = true →
      s.dev.userPage k = true →
      s.dev.on Reg.PERF_CTRL_FREEZE = true →
      ∃ t, exec (.perfValueRead k j size) s = .next t ∧ State.Settles [] ({ s.dev.setWords (regCell (0x400 + k) 0x140) (if j.val % 2 = 0 ∧ s.dev.on (Reg.CNT_CFG_CHAIN (32 * k + j)) = true then [BitVec.ofNat 32 j, BitVec.ofNat 32 (s.dev.counter (32 * k + j) / 2 ^ 32), BitVec.ofNat 32 (s.dev.counter (32 * k + j + 1)), BitVec.ofNat 32 (s.dev.counter (32 * k + j + 1) / 2 ^ 32)] else [BitVec.ofNat 32 j, BitVec.ofNat 32 (s.dev.counter (32 * k + j) / 2 ^ 32), 0, 0]) with readData := [s.dev.valueLo (32 * k + j), s.dev.valueHi (32 * k + j), s.dev.valueLo (32 * k + j + 1), s.dev.valueHi (32 * k + j + 1)].take (if size = 0 then 1 else if size = 1 ∨ j.val % 2 = 1 then 2 else 4) }) s t) ∧
  (∀ (v : Word) (s : State), s.Inv →
      s.dev.pageLive (0x030) = true →
      s.dev.pageInTest (0x030) = false →
      v &&& ~~~ 3 = 0 →
      ∃ t, exec (.perfClearAll v) s = .next t ∧ State.Settles [] (s.dev.writeWord 0x030 0x040 2 (v ||| 2)) s t ∧
      t.dev.perf = ⟨[]⟩ ∧ ∀ k : Fin 256, t.dev.rd (Reg.OVF_OVF k) = 0)

/-- Client frames into the inlet, port status, error windows and thread starts.

A frame of 64 bytes up to MAX_FRAME with a good FCS that is no MAC control frame and names no PRECLASS entry is counted in frames and bytes and placed, unmarked and with the next sequence number of its port, in its group’s inlet area where fewer than 512 stand; a runt or an oversize frame is counted and dropped, with its FCS checked; a frame of a regular length whose FCS fails counts, takes its number and leaves a tombstone. A link change updates PORT_STAT (a port with a lane in low power is not aligned), with the lane’s event where LINK_UP or a fault changes; an error window adds its counts, with the lane’s second event beyond the threshold; a free thread takes the next packet. -/
def Obligations.ClientPortsAndInlet : Prop :=
  (∀ (p : Fin 64) (frame : List Byte) (s : State), s.Inv →
      s.dev.hubOn = true →
      s.dev.portUp p = true →
      64 ≤ frame.length →
      frame.length ≤ s.dev.rd (Reg.PORT_CTRL_MAX_FRAME p) →
      crc32 (frame.take (frame.length - 4)) = fieldLE frame (frame.length - 4) 4 →
      fieldBE (frame.take (frame.length - 4)) 12 2 ≠ 0x8808 →
      s.dev.preclassHit (s.dev.portGroup p) (preclassKey p (frame.take (frame.length - 4))) = none →
      (s.dev.parse.inlet.filter fun e => e.1 = s.dev.inletGroup p && e.2.reserved == false).length < 512 →
      ∃ t, exec (.clientFrameReceive p frame) s = .next t ∧ State.Settles [] ({ (((s.dev.bump64 (Reg.RX_FRAMES_LO p).run 1).bump64 (Reg.RX_BYTES_LO p).run frame.length).bump Reg.PKT_IN.run) with parse := { s.dev.parse with inlet := s.dev.parse.inlet ++ [(s.dev.inletGroup p, ⟨p, false, sget (dflt 0) s.dev.parse.given (2 * p), s.dev.rd Reg.EPOCH_STAT_CURRENT, frame.take (frame.length - 4), s.dev.time⟩)], given := sset (dflt 0) s.dev.parse.given (2 * p) (sget (dflt 0) s.dev.parse.given (2 * p) + 1) } }) s t) ∧
  (∀ (p : Fin 64) (frame : List Byte) (s : State), s.Inv →
      s.dev.hubOn = true →
      s.dev.portUp p = true →
      frame.length < 64 →
      ∃ t, exec (.clientFrameReceive p frame) s = .next t ∧ State.Settles [] (Dev.bump (Reg.RX_RUNT p).run (if 4 ≤ frame.length ∧ crc32 (frame.take (frame.length - 4)) = fieldLE frame (frame.length - 4) 4 then s.dev else { s.dev.bump (Reg.RX_FCS_ERR p).run with parse := { s.dev.parse with fcs := sset (dflt 0) s.dev.parse.fcs p (sget (dflt 0) s.dev.parse.fcs p + 1) } })) s t) ∧
  (∀ (p : Fin 64) (frame : List Byte) (s : State), s.Inv →
      s.dev.hubOn = true →
      s.dev.portUp p = true →
      64 ≤ frame.length →
      s.dev.rd (Reg.PORT_CTRL_MAX_FRAME p) < frame.length →
      ∃ t, exec (.clientFrameReceive p frame) s = .next t ∧ State.Settles [] (Dev.bump (Reg.RX_OVERSIZE p).run (if 4 ≤ frame.length ∧ crc32 (frame.take (frame.length - 4)) = fieldLE frame (frame.length - 4) 4 then s.dev else { s.dev.bump (Reg.RX_FCS_ERR p).run with parse := { s.dev.parse with fcs := sset (dflt 0) s.dev.parse.fcs p (sget (dflt 0) s.dev.parse.fcs p + 1) } })) s t) ∧
  (∀ (p : Fin 64) (frame : List Byte) (s : State), s.Inv →
      s.dev.hubOn = true →
      s.dev.portUp p = true →
      64 ≤ frame.length →
      frame.length ≤ s.dev.rd (Reg.PORT_CTRL_MAX_FRAME p) →
      crc32 (frame.take (frame.length - 4)) ≠ fieldLE frame (frame.length - 4) 4 →
      s.dev.preclassHit (s.dev.portGroup p) (preclassKey p (frame.take (frame.length - 4))) = none →
      ∃ t, exec (.clientFrameReceive p frame) s = .next t ∧ State.Settles [] ({ ((s.dev.bump (Reg.RX_FCS_ERR p).run).bump Reg.PKT_IN.run) with parse := { s.dev.parse with fcs := sset (dflt 0) s.dev.parse.fcs p (sget (dflt 0) s.dev.parse.fcs p + 1), reorder := s.dev.parse.reorder ++ [⟨⟨p, false, sget (dflt 0) s.dev.parse.given (2 * p), s.dev.rd Reg.EPOCH_STAT_CURRENT, frame.take (frame.length - 4), s.dev.time⟩, .tombstone⟩], given := sset (dflt 0) s.dev.parse.given (2 * p) (sget (dflt 0) s.dev.parse.given (2 * p) + 1) } }) s t) ∧
  (∀ (p : Fin 64) (aligned hiSer lf rf : Bool) (s : State), s.Inv →
      s.dev.hubOn = true →
      s.dev.portExists p = true →
      ∃ t, exec (.clientLinkChange p aligned hiSer lf rf) s = .next t ∧ (
      let A : Bool := aligned && (List.range (s.dev.portLanes p)).all fun i => !s.dev.on (Reg.LANE_STAT_LP (p.val + i))
      State.Settles (if s.dev.on (Reg.PORT_STAT_LINK_UP p) = (s.dev.portOn p && s.dev.portWorks p && A && !hiSer && !lf && !rf) ∧ s.dev.on (Reg.PORT_STAT_LOCAL_FAULT p) = lf ∧ s.dev.on (Reg.PORT_STAT_REMOTE_FAULT p) = rf then [] else [(22 + p.val / 16, 2 * (p.val % 16))]) ((((((s.dev.wrB (Reg.PORT_STAT_ALIGNED p) A).wrB (Reg.PORT_STAT_HI_SER p) hiSer).wrB (Reg.PORT_STAT_LOCAL_FAULT p) lf).wrB (Reg.PORT_STAT_REMOTE_FAULT p) rf).wrB (Reg.PORT_STAT_LINK_UP p) (s.dev.portOn p && s.dev.portWorks p && A && !hiSer && !lf && !rf)).wrB (Reg.PORT_STAT_FIRST p) true) s t)) ∧
  (∀ (p : Fin 64) (corr uncorr symbols : Nat) (s : State), s.Inv →
      s.dev.hubOn = true →
      s.dev.portExists p = true →
      ∃ t, exec (.clientErrWindowEnd p corr uncorr symbols) s = .next t ∧ State.Settles (if s.dev.rd (Reg.ERR_THR_THRESHOLD p) < sget (dflt 0) s.dev.parse.fcs p + uncorr then [(22 + p.val / 16, 2 * (p.val % 16) + 1)] else []) ({ (((s.dev.bumpBy (Reg.FEC_CORR_CW p).run corr).bumpBy (Reg.FEC_UNCORR_CW p).run uncorr).bump64 (Reg.FEC_SYM_LO p).run symbols) with parse := { s.dev.parse with fcs := sset (dflt 0) s.dev.parse.fcs p 0 } }) s t) ∧
  (∀ (g : Fin 16) (e : Nat × Packet) (n : Nat) (s : State), s.Inv →
      s.dev.nextPacket g = some e →
      s.dev.freeThread g = some n →
      ∃ t, exec (.parseStart g) s = .next t ∧ State.Settles [] ({ s.dev with parse := { s.dev.parse with inlet := s.dev.parse.inlet.erase e, threads := s.dev.parse.threads ++ [Thread.start g n e.2], turn := sset (dflt 0) s.dev.parse.turn g ((n / 4 + 1) % 16) } }) s t)

/-- Instructions of a thread, lookups, the end of a pass, the exception action and the reorder stage.

A thread that is ready issues instructions up to a lookup or the end of its pass, one cycle each against the limits of its epoch. An exact lookup within the epoch’s figure counts, empties the key and brings the first visible matching entry’s result, with DUP_HIT and E-26.07 where more than one matches; a wildcard lookup that of the lowest matching entry. A poisoned entry, an instruction that goes past the cycle limit, with E-26.03, and a lookup past its figure, with E-26.04, send the packet, its frame unchanged, where the epoch’s EXC_ACTION says. A pass that ends sends it where its result says, or the port’s default where no RESULT was issued: to a flow or a punt queue, or counted as dropped by rule. EXTRACT past the frame flags the packet, counted once, and the outer path ends it, with E-26.06. The reorder stage releases in order: a packet of a reserved flow joins its flow’s queue. -/
def Obligations.ParseLookupsAndPasses : Prop :=
  (∀ (g : Fin 16) (n : Fin 64) (profile : Byte) (th : Thread) (s : State), s.Inv →
      s.dev.thread? g n = some th →
      th.wait = none →
      th.ended = none →
      th.flagged = false →
      isFragment th.pkt.bytes = false →
      badLength th.pkt.bytes = false →
      s.dev.parse.lostBanks.contains (s.dev.epochOf th.pkt.epoch).bank = false →
      th.passCycles + 1 ≤ (s.dev.epochOf th.pkt.epoch).cycLimit →
      th.cycles + 1 ≤ (s.dev.epochOf th.pkt.epoch).cycMax →
      th.exacts < (s.dev.epochOf th.pkt.epoch).lkeMax →
      ∃ t, exec (.lookupResult g n .found .found [.lookupEm profile] false) s = .next t ∧ State.Settles (if 1 < (s.dev.exactHits profile.toNat (keyBytes 40 th.key) th.pkt.epoch).length then [(26, 7)] else []) ({ (if 1 < (s.dev.exactHits profile.toNat (keyBytes 40 th.key) th.pkt.epoch).length then s.dev.bump Reg.DUP_HIT.run else s.dev) with parse := { s.dev.parse with regs := sset (dflt noRegs) s.dev.parse.regs (64 * th.group + th.thread) (s.dev.threadRegs th), threads := s.dev.parse.threads.map fun x => if x.group = th.group ∧ x.thread = th.thread then { th with cycles := th.cycles + 1, passCycles := th.passCycles + 1, exacts := th.exacts + 1, key := [], found := (s.dev.exactHits profile.toNat (keyBytes 40 th.key) th.pkt.epoch).head?.map fun i => (s.dev.word (tableCell tableEXACT.id i 12), s.dev.word (tableCell tableEXACT.id i 13)) } else x } }) s t) ∧
  (∀ (g : Fin 16) (n : Fin 64) (profile : Byte) (th : Thread) (s : State), s.Inv →
      s.dev.thread? g n = some th →
      th.wait = none →
      th.ended = none →
      th.flagged = false →
      isFragment th.pkt.bytes = false →
      badLength th.pkt.bytes = false →
      s.dev.parse.lostBanks.contains (s.dev.epochOf th.pkt.epoch).bank = false →
      th.passCycles + 1 ≤ (s.dev.epochOf th.pkt.epoch).cycLimit →
      th.cycles + 1 ≤ (s.dev.epochOf th.pkt.epoch).cycMax →
      th.wilds < (s.dev.epochOf th.pkt.epoch).lkwMax →
      ∃ t, exec (.lookupResult g n .found .found [.lookupWc profile] false) s = .next t ∧ State.Settles [] ({ s.dev with parse := { s.dev.parse with regs := sset (dflt noRegs) s.dev.parse.regs (64 * th.group + th.thread) (s.dev.threadRegs th), threads := s.dev.parse.threads.map fun x => if x.group = th.group ∧ x.thread = th.thread then { th with cycles := th.cycles + 1, passCycles := th.passCycles + 1, wilds := th.wilds + 1, key := [], found := (s.dev.wildHit profile.toNat (keyWild th.key) th.pkt.epoch).map fun i => (s.dev.word (tableCell tableWILD.id i 34), s.dev.word (tableCell tableWILD.id i 35)) } else x } }) s t) ∧
  (∀ (g : Fin 16) (n : Fin 64) (profile : Byte) (th : Thread) (s : State), s.Inv →
      s.dev.thread? g n = some th →
      th.wait = none →
      th.ended = none →
      th.flagged = false →
      isFragment th.pkt.bytes = false →
      badLength th.pkt.bytes = false →
      s.dev.parse.lostBanks.contains (s.dev.epochOf th.pkt.epoch).bank = false →
      th.passCycles + 1 ≤ (s.dev.epochOf th.pkt.epoch).cycLimit →
      th.cycles + 1 ≤ (s.dev.epochOf th.pkt.epoch).cycMax →
      (s.dev.epochOf th.pkt.epoch).lkeMax ≤ th.exacts →
      getBits (s.dev.epochOf th.pkt.epoch).action 16 2 = 0 →
      ∃ t, exec (.lookupResult g n .found .found [.lookupEm profile] false) s = .next t ∧ State.Settles ([(26, 4)]) ({ (s.dev.bump Reg.EXC_LOOKUP.run) with parse := { s.dev.parse with regs := sset (dflt noRegs) s.dev.parse.regs (64 * th.group + th.thread) (s.dev.threadRegs th), threads := s.dev.parse.threads.filter fun u => !(decide (u.group = th.group) && decide (u.thread = th.thread)), reorder := s.dev.parse.reorder ++ [⟨th.pkt, .flow (getBits (s.dev.epochOf th.pkt.epoch).action 0 16) th.pkt.bytes⟩] } }) s t) ∧
  (∀ (g : Fin 16) (n : Fin 64) (code : List ParseInsn) (th : Thread) (s : State), s.Inv →
      s.dev.thread? g n = some th →
      getBits (s.dev.epochOf th.pkt.epoch).action 16 2 = 0 →
      ∃ t, exec (.lookupResult g n .found .found code true) s = .next t ∧ State.Settles [] ({ s.dev with parse := { s.dev.parse with threads := s.dev.parse.threads.filter fun u => !(decide (u.group = th.group) && decide (u.thread = th.thread)), reorder := s.dev.parse.reorder ++ [⟨th.pkt, .flow (getBits (s.dev.epochOf th.pkt.epoch).action 0 16) th.pkt.bytes⟩] } }) s t) ∧
  (∀ (g : Fin 16) (n : Fin 64) (r : Fin 16) (v : BitVec 64) (th : Thread) (s : State), s.Inv →
      s.dev.thread? g n = some th →
      th.wait = none →
      th.ended = none →
      th.flagged = false →
      isFragment th.pkt.bytes = false →
      badLength th.pkt.bytes = false →
      s.dev.parse.lostBanks.contains (s.dev.epochOf th.pkt.epoch).bank = false →
      th.passCycles + 2 ≤ (s.dev.epochOf th.pkt.epoch).cycLimit →
      th.cycles + 2 ≤ (s.dev.epochOf th.pkt.epoch).cycMax →
      Running.reg ⟨th, s.dev.threadRegs th⟩ r = v →
      getBits (v.truncate 32) 16 2 = 0 →
      getBits (v.truncate 32) 23 2 = 0 →
      ∃ t, exec (.parsePassEnd g n .found .found .found .found .found .found [.result (some r), .finish] false) s = .next t ∧ State.Settles [] ({ s.dev with parse := { s.dev.parse with regs := sset (dflt noRegs) s.dev.parse.regs (64 * th.group + th.thread) (s.dev.threadRegs th), threads := s.dev.parse.threads.filter fun u => !(decide (u.group = th.group) && decide (u.thread = th.thread)), reorder := s.dev.parse.reorder ++ [⟨th.pkt, .flow (v.toNat % 2 ^ 16) th.pkt.bytes⟩] } }) s t) ∧
  (∀ (g : Fin 16) (n : Fin 64) (th : Thread) (d : Word) (s : State), s.Inv →
      s.dev.thread? g n = some th →
      th.wait = none →
      th.ended = none →
      th.flagged = false →
      isFragment th.pkt.bytes = false →
      badLength th.pkt.bytes = false →
      s.dev.parse.lostBanks.contains (s.dev.epochOf th.pkt.epoch).bank = false →
      th.passCycles + 1 ≤ (s.dev.epochOf th.pkt.epoch).cycLimit →
      th.cycles + 1 ≤ (s.dev.epochOf th.pkt.epoch).cycMax →
      th.result = none →
      s.dev.word (tableCell tablePORTDEFAULT.id ((s.dev.epochOf th.pkt.epoch).bank * 2 ^ 19 + th.pkt.port) 0) = d →
      getBits d 16 2 = 1 →
      getBits d 23 2 = 0 →
      ∃ t, exec (.parsePassEnd g n .found .found .found .found .found .found [.finish] false) s = .next t ∧ State.Settles [] ({ (s.dev.bump Reg.RULE_DROP.run) with parse := { s.dev.parse with regs := sset (dflt noRegs) s.dev.parse.regs (64 * th.group + th.thread) (s.dev.threadRegs th), threads := s.dev.parse.threads.filter fun u => !(decide (u.group = th.group) && decide (u.thread = th.thread)), reorder := s.dev.parse.reorder ++ [⟨th.pkt, .tombstone⟩] } }) s t) ∧
  (∀ (g : Fin 16) (n : Fin 64) (i : ParseInsn) (code : List ParseInsn) (th : Thread) (s : State), s.Inv →
      s.dev.thread? g n = some th →
      th.wait = none →
      th.ended = none →
      th.flagged = false →
      isFragment th.pkt.bytes = false →
      badLength th.pkt.bytes = false →
      s.dev.parse.lostBanks.contains (s.dev.epochOf th.pkt.epoch).bank = false →
      (s.dev.epochOf th.pkt.epoch).cycLimit ≤ th.passCycles ∨ (s.dev.epochOf th.pkt.epoch).cycMax ≤ th.cycles →
      getBits (s.dev.epochOf th.pkt.epoch).action 16 2 = 2 →
      ∃ t, exec (.parsePassEnd g n .found .found .found .found .found .found (i :: code) false) s = .next t ∧ State.Settles ([(26, 3)]) ({ (s.dev.bump Reg.EXC_CYC.run) with parse := { s.dev.parse with regs := sset (dflt noRegs) s.dev.parse.regs (64 * th.group + th.thread) (s.dev.threadRegs th), threads := s.dev.parse.threads.filter fun u => !(decide (u.group = th.group) && decide (u.thread = th.thread)), reorder := s.dev.parse.reorder ++ [⟨th.pkt, .punt (getBits (s.dev.epochOf th.pkt.epoch).action 18 5) th.pkt.bytes⟩] } }) s t) ∧
  (∀ (g : Fin 16) (n : Fin 64) (dst : Fin 16) (off : Nat) (count : Fin 8) (th : Thread) (w : Word) (s : State), s.Inv →
      s.dev.thread? g n = some th →
      th.wait = none →
      th.ended = none →
      th.flagged = false →
      isFragment th.pkt.bytes = false →
      badLength th.pkt.bytes = false →
      s.dev.parse.lostBanks.contains (s.dev.epochOf th.pkt.epoch).bank = false →
      th.passCycles + 1 ≤ (s.dev.epochOf th.pkt.epoch).cycLimit →
      th.cycles + 1 ≤ (s.dev.epochOf th.pkt.epoch).cycMax →
      th.pkt.bytes.length < off + count + 1 →
      th.outer = false →
      th.cycles + 9 ≤ (s.dev.epochOf th.pkt.epoch).cycMax →
      th.wilds < (s.dev.epochOf th.pkt.epoch).lkwMax →
      s.dev.wildHit 0xFF (outerKey th.pkt.port false true false th.pkt.bytes) th.pkt.epoch = none →
      s.dev.word (tableCell tablePORTDEFAULT.id ((s.dev.epochOf th.pkt.epoch).bank * 2 ^ 19 + th.pkt.port) 0) = w →
      getBits w 16 2 = 1 →
      getBits w 23 2 = 0 →
      ∃ t, exec (.parsePassEnd g n .found .found .found .found .found .found [.extract dst (.imm off) count] false) s = .next t ∧ State.Settles ([(26, 6)]) ({ ((s.dev.bump Reg.FLAG_DEEP.run).bump Reg.RULE_DROP.run) with parse := { s.dev.parse with regs := sset (dflt noRegs) s.dev.parse.regs (64 * th.group + th.thread) (s.dev.threadRegs th), threads := s.dev.parse.threads.filter fun u => !(decide (u.group = th.group) && decide (u.thread = th.thread)), reorder := s.dev.parse.reorder ++ [⟨th.pkt, .tombstone⟩] } }) s t) ∧
  (∀ (g : Fin 16) (n : Fin 64) (code : List ParseInsn) (th : Thread) (s : State), s.Inv →
      s.dev.thread? g n = some th →
      getBits (s.dev.epochOf th.pkt.epoch).action 16 2 = 2 →
      ∃ t, exec (.parsePassEnd g n .found .found .found .found .found .found code true) s = .next t ∧ State.Settles [] ({ s.dev with parse := { s.dev.parse with threads := s.dev.parse.threads.filter fun u => !(decide (u.group = th.group) && decide (u.thread = th.thread)), reorder := s.dev.parse.reorder ++ [⟨th.pkt, .punt (getBits (s.dev.epochOf th.pkt.epoch).action 18 5) th.pkt.bytes⟩] } }) s t) ∧
  (∀ (p : Fin 64) (reserved poison : Bool) (s : State), s.Inv →
      s.dev.parse.reorder.find? (fun y => decide (y.pkt.port = p.val) && (y.pkt.reserved == reserved) && decide (y.pkt.seq = sget (dflt 0) s.dev.parse.released (seqIndex p reserved))) = none →
      s.dev.parse.epochs.length ≤ 1 →
      ∃ t, exec (.reorderRelease p reserved poison) s = .next t ∧ State.Settles [] (s.dev) s t) ∧
  (∀ (p : Fin 64) (reserved : Bool) (x : Parsed) (f : Nat) (bytes : List Byte) (s : State), s.Inv →
      s.dev.parse.reorder.find? (fun y => decide (y.pkt.port = p.val) && (y.pkt.reserved == reserved) && decide (y.pkt.seq = sget (dflt 0) s.dev.parse.released (seqIndex p reserved))) = some x →
      (s.dev.parse.reorder.erase x).find? (fun y => decide (y.pkt.port = p.val) && (y.pkt.reserved == reserved) && decide (y.pkt.seq = x.pkt.seq + 1)) = none →
      x.exit = .flow f bytes →
      reserved = true →
      s.dev.flowReserved f = true →
      s.dev.on (Reg.FLOW_ING_EN f) = true →
      s.dev.on (Reg.CSTAT_STARVED (s.dev.rd (Reg.FLOW_ING_COURSE f))) = false →
      s.dev.parse.epochs.length = 1 →
      ∃ t, exec (.reorderRelease p reserved false) s = .next t ∧ State.Settles [] ({ { s.dev with parse := { s.dev.parse with reorder := s.dev.parse.reorder.erase x, released := sset (dflt 0) s.dev.parse.released (seqIndex p reserved) (x.pkt.seq + 1) } } with sched := { s.dev.sched with flows := sset (dflt []) s.dev.sched.flows f (s.dev.flowQueue f ++ [⟨f, s.dev.rd (Reg.FLOW_CLASS f), bytes, x.pkt.tIn, 0, false, false⟩]) } }) s t)

/-- A microcode load starts, and ends with its image verified or refused.

LOAD of a bank that no live epoch names, while no load runs, takes the programmed source and length, forgets the bank’s image, clears VALID and VERIFY_FAIL and sets BUSY; of a live bank it is a violation with E-26.11. A load that ends clears BUSY with E-26.14; an image of type 0x10 that passes the checks and fits the bank is held there, with VALID and its version in UCODE_REV, and any other sets VERIFY_FAIL with E-26.15. (That an image of more than 16,384 instructions fails is the model’s choice, log 190.) -/
def Obligations.MicrocodeLoads : Prop :=
  (∀ (v : Word) (s : State), s.Inv →
      s.dev.pageLive (0x303) = true →
      s.dev.pageInTest (0x303) = false →
      s.dev.bankLive ((s.dev.writeWord 0x303 0x040 2 (v ||| 2)).rd Reg.UCODE_CTRL_BANK) = false →
      s.dev.on Reg.UCODE_CTRL_BUSY = false →
      ∃ t, exec (.ucodeLoad v) s = .next t ∧ State.Settles [] (((({ (s.dev.writeWord 0x303 0x040 2 (v ||| 2)) with parse := { s.dev.parse with ucode := some (((s.dev.writeWord 0x303 0x040 2 (v ||| 2)).rd Reg.UCODE_CTRL_BANK), s.dev.rd Reg.UCODE_ADDR_OFFSET, s.dev.rd Reg.UCODE_LEN_BYTES), lostBanks := s.dev.parse.lostBanks.filter fun x => decide (x ≠ ((s.dev.writeWord 0x303 0x040 2 (v ||| 2)).rd Reg.UCODE_CTRL_BANK)) }, images := sset (dflt []) s.dev.images ((s.dev.writeWord 0x303 0x040 2 (v ||| 2)).rd Reg.UCODE_CTRL_BANK) [] }).wr (ucodeValid ((s.dev.writeWord 0x303 0x040 2 (v ||| 2)).rd Reg.UCODE_CTRL_BANK)) 0).wr Reg.UCODE_CTRL_BUSY 1).wr Reg.UCODE_CTRL_VERIFY_FAIL 0) s t) ∧
  (∀ (v : Word) (s : State), s.Inv →
      s.dev.pageLive (0x303) = true →
      s.dev.pageInTest (0x303) = false →
      s.dev.bankLive ((s.dev.writeWord 0x303 0x040 2 (v ||| 2)).rd Reg.UCODE_CTRL_BANK) = true ∨ s.dev.on Reg.UCODE_CTRL_BUSY = true →
      ∃ t, exec (.ucodeLoad v) s = .next t ∧ State.Settles ([(26, 11)]) (((s.dev.writeWord 0x303 0x040 2 (v ||| 2)).viol 0x303).oneViol (0x303) (s.dev.hdr (0x303)).viol) s t) ∧
  (∀ (u : Nat × Nat × Nat) (s : State), s.Inv →
      s.dev.parse.ucode = some u →
      ∃ t, exec (.ucodeLoadComplete) s = .next t ∧ State.Settles (if imageType (if inWindow u.2.1 u.2.2 then s.bytes (winAddr u.2.1) u.2.2 else []) = 0x10 ∧ s.dev.imageCause (if inWindow u.2.1 u.2.2 then s.bytes (winAddr u.2.1) u.2.2 else []) = 0 ∧ imageInsns (if inWindow u.2.1 u.2.2 then s.bytes (winAddr u.2.1) u.2.2 else []) ≤ 16384 then [(26, 14)] else [(26, 15), (26, 14)]) ((fun (E : Dev) => if imageType (if inWindow u.2.1 u.2.2 then s.bytes (winAddr u.2.1) u.2.2 else []) = 0x10 ∧ s.dev.imageCause (if inWindow u.2.1 u.2.2 then s.bytes (winAddr u.2.1) u.2.2 else []) = 0 ∧ imageInsns (if inWindow u.2.1 u.2.2 then s.bytes (winAddr u.2.1) u.2.2 else []) ≤ 16384 then (({ E with images := sset (dflt []) s.dev.images u.1 (if inWindow u.2.1 u.2.2 then s.bytes (winAddr u.2.1) u.2.2 else []) }).wr (ucodeValid u.1) 1).wr (if u.1 = 0 then Reg.UCODE_REV_REV_0 else Reg.UCODE_REV_REV_1) (imageVersion (if inWindow u.2.1 u.2.2 then s.bytes (winAddr u.2.1) u.2.2 else [])) else E.wr Reg.UCODE_CTRL_VERIFY_FAIL 1) ({ (s.dev.wr Reg.UCODE_CTRL_BUSY 0) with parse := { s.dev.parse with ucode := none } })) s t)

/-- Admission, removal and the counters of a flow.

ADMIT whose declaration fails a check ends at once refused with the first cause and the course’s free bytes, E-27.00; one that passes grants its latency bounds and waits, BUSY, for the course frame boundary, which writes the context, quota, grants and PRECLASS entry, journals kind 4 and ends accepted with E-27.00. REMOVE invalidates the PRECLASS entry and drains; with the queue empty the context is cleared and journalled. OP 3 zeroes the flow’s counters. -/
def Obligations.FlowAdmissionAndRemoval : Prop :=
  (∀ (v : Word) (cause : Nat) (s : State), s.Inv →
      s.dev.pageLive (0x340) = true →
      s.dev.pageInTest (0x340) = false →
      s.dev.on Reg.ADM_STAT_BUSY = false →
      ((((s.dev.writeWord 0x340 0x040 4 ((v &&& ~~~ 3) ||| BitVec.ofNat 32 5)).wr Reg.ADM_STAT_FLOW (declOf s.dev.admData).flow).wr Reg.ADM_STAT_RESULT 0).wr Reg.ADM_STAT_CAUSE 0).admitCause (declOf s.dev.admData) = some cause →
      ∃ t, exec (.flowAdmit v) s = .next t ∧ State.Settles ([(27, 0)]) ((((((((s.dev.writeWord 0x340 0x040 4 ((v &&& ~~~ 3) ||| BitVec.ofNat 32 5)).wr Reg.ADM_STAT_FLOW (declOf s.dev.admData).flow).wr Reg.ADM_STAT_RESULT 0).wr Reg.ADM_STAT_CAUSE 0).wr Reg.ADM_FREE_BYTES (((((s.dev.writeWord 0x340 0x040 4 ((v &&& ~~~ 3) ||| BitVec.ofNat 32 5)).wr Reg.ADM_STAT_FLOW (declOf s.dev.admData).flow).wr Reg.ADM_STAT_RESULT 0).wr Reg.ADM_STAT_CAUSE 0).courseFree (declOf s.dev.admData).ingCourse).toNat).wr Reg.ADM_STAT_RESULT 2).wr Reg.ADM_STAT_CAUSE cause).wr Reg.ADM_STAT_BUSY 0) s t) ∧
  (∀ (v : Word) (s : State), s.Inv →
      s.dev.pageLive (0x340) = true →
      s.dev.pageInTest (0x340) = false →
      s.dev.on Reg.ADM_STAT_BUSY = false →
      ((((s.dev.writeWord 0x340 0x040 4 ((v &&& ~~~ 3) ||| BitVec.ofNat 32 5)).wr Reg.ADM_STAT_FLOW (declOf s.dev.admData).flow).wr Reg.ADM_STAT_RESULT 0).wr Reg.ADM_STAT_CAUSE 0).admitCause (declOf s.dev.admData) = none →
      ∃ t, exec (.flowAdmit v) s = .next t ∧ State.Settles [] ({ ((((((s.dev.writeWord 0x340 0x040 4 ((v &&& ~~~ 3) ||| BitVec.ofNat 32 5)).wr Reg.ADM_STAT_FLOW (declOf s.dev.admData).flow).wr Reg.ADM_STAT_RESULT 0).wr Reg.ADM_STAT_CAUSE 0).wr Reg.ADM_GRANT_ING_NS (if (declOf s.dev.admData).cls ≠ 0 ∧ (declOf s.dev.admData).ing then 5000 + 400 * (declOf s.dev.admData).hops else 0)).wr Reg.ADM_GRANT_EGR_NS (if (declOf s.dev.admData).cls ≠ 0 ∧ (declOf s.dev.admData).egr then 11000 + 400 * (declOf s.dev.admData).egrHops else 0)).wr Reg.ADM_STAT_BUSY 1 with sched := { s.dev.sched with adm := some ⟨1, s.dev.admData, s.dev.masterCode⟩ } }) s t) ∧
  (∀ (a : AdmOp) (s : State), s.Inv →
      s.dev.sched.adm = some a →
      a.op = 1 →
      ∃ t, exec (.admitApply) s = .next t ∧ (
      let Z : Dev := { (fun Y : Dev => if (declOf a.words).cls ≠ 0 ∧ (declOf a.words).ing then ((Y.wr (Reg.PRECLASS_RATE_KPPS (declOf a.words).preclass) (declOf a.words).kpps).wr (Reg.PRECLASS_BURST (declOf a.words).preclass) (declOf a.words).packets).wr (Reg.PRECLASS_VALID (declOf a.words).preclass) 1 else Y) ((((((s.dev.dropPreclass (declOf a.words).flow).setWords (tableCell tableFLOW.id (declOf a.words).flow 0) ((List.range 8).map fun k => (a.words[k]?).getD 0 &&& declMask k)).setWord (tableCell tableFLOW.id (declOf a.words).flow 8) 1).wr (Reg.FLOW_QUOTA (declOf a.words).flow) (declOf a.words).quota).wr (Reg.FLOW_ING_NS (declOf a.words).flow) (declOf a.words).grants.1).wr (Reg.FLOW_EGR_NS (declOf a.words).flow) (declOf a.words).grants.2) with sched := { s.dev.sched with adm := none } }
      State.Stores ([(27, 0)]) ({ (((((Z).journal 0x341 a.master 4).showFree (declOf a.words).ingCourse).wr Reg.ADM_STAT_RESULT 1).wr Reg.ADM_STAT_CAUSE 0).wr Reg.ADM_STAT_BUSY 0 with hbmOut := [] }) ([(Config.jrnBase + 32 * (Z).rd Reg.JRN_WR_INDEX, (Z).journalEntry 0x341 a.master 4 ((Z).rd64 Reg.EPOCH_LO + 1))]) s t)) ∧
  (∀ (v : Word) (s : State), s.Inv →
      s.dev.pageLive (0x340) = true →
      s.dev.pageInTest (0x340) = false →
      s.dev.on Reg.ADM_STAT_BUSY = false →
      s.dev.on (Reg.FLOW_ADMITTED (declOf s.dev.admData).flow) = true →
      ∃ t, exec (.remove v) s = .next t ∧ State.Settles [] ({ (((((((s.dev.writeWord 0x340 0x040 4 ((v &&& ~~~ 3) ||| BitVec.ofNat 32 6)).wr Reg.ADM_STAT_FLOW (declOf s.dev.admData).flow).wr Reg.ADM_STAT_RESULT 0).wr Reg.ADM_STAT_CAUSE 0).dropPreclass (declOf s.dev.admData).flow).wr (Reg.FLOW_DRAINING (declOf s.dev.admData).flow) 1).wr Reg.ADM_STAT_BUSY 1) with sched := { s.dev.sched with adm := some ⟨2, s.dev.admData, s.dev.masterCode⟩ } }) s t) ∧
  (∀ (a : AdmOp) (s : State), s.Inv →
      s.dev.sched.adm = some a →
      a.op = 2 →
      s.dev.flowQueue (declOf a.words).flow = [] →
      ∃ t, exec (.removeComplete) s = .next t ∧ (
      let Z : Dev := { s.dev.setWords (tableCell tableFLOW.id (declOf a.words).flow 0) (List.replicate 11 0) with sched := { s.dev.sched with adm := none } }
      State.Stores ([(27, 0)]) ({ (((((Z).journal 0x341 a.master 4).showFree (s.dev.rd (Reg.FLOW_ING_COURSE (declOf a.words).flow))).wr Reg.ADM_STAT_RESULT 1).wr Reg.ADM_STAT_CAUSE 0).wr Reg.ADM_STAT_BUSY 0 with hbmOut := [] }) ([(Config.jrnBase + 32 * (Z).rd Reg.JRN_WR_INDEX, (Z).journalEntry 0x341 a.master 4 ((Z).rd64 Reg.EPOCH_LO + 1))]) s t)) ∧
  (∀ (v : Word) (s : State), s.Inv →
      s.dev.pageLive (0x340) = true →
      s.dev.pageInTest (0x340) = false →
      s.dev.on Reg.ADM_STAT_BUSY = false →
      ∃ t, exec (.zeroFlowCounters v) s = .next t ∧ State.Settles ([(27, 0)]) (((({ ((((s.dev.writeWord 0x340 0x040 4 ((v &&& ~~~ 3) ||| BitVec.ofNat 32 7)).wr Reg.ADM_STAT_FLOW (declOf s.dev.admData).flow).wr Reg.ADM_STAT_RESULT 0).wr Reg.ADM_STAT_CAUSE 0).setWords (tableCell tableFLOW.id (declOf s.dev.admData).flow 16) (List.replicate 17 0) with sched := { s.dev.sched with pdv := s.dev.sched.pdv.filter fun e => e.1 ≠ (declOf s.dev.admData).flow } }).wr Reg.ADM_STAT_RESULT 1).wr Reg.ADM_STAT_CAUSE 0).wr Reg.ADM_STAT_BUSY 0) s t)

/-- Packets at the egress stage, timed release and the service of a port.

A delivered packet of a flow with no egress context is dropped, counted in DROP_NOFLOW with E-27.05; a BOUNDED one of the right course joins its port’s queue, and any one of a revoked flow a best-effort queue of its port; a DET one before its release instant is held. The held packet that is due first is released to its port. A free port whose link is up starts its DET packet, counted for its flow and its port with the delay of its release, and, unless it was late, with its δ in the flow’s span; or, with none waiting, its oldest BOUNDED one that may start; a poisoned one is dropped and counted. -/
def Obligations.EgressOfPackets : Prop :=
  (∀ (a : Delivered) (r : List Delivered) (s : State), s.Inv →
      s.dev.sched.arrivals = a :: r →
      s.dev.on (Reg.FLOW_ADMITTED a.pkt.flow) = false ∨ s.dev.on (Reg.FLOW_EGR_EN a.pkt.flow) = false →
      ∃ t, exec (.egressPacketArrive) s = .next t ∧ State.Settles ([(27, 5)]) ({ s.dev.bump Reg.DROP_NOFLOW.run with sched := { s.dev.sched with arrivals := r } }) s t) ∧
  (∀ (a : Delivered) (r : List Delivered) (p : Nat) (s : State), s.Inv →
      s.dev.sched.arrivals = a :: r →
      s.dev.on (Reg.FLOW_REVOKED a.pkt.flow) = false →
      s.dev.on (Reg.FLOW_ADMITTED a.pkt.flow) = true →
      s.dev.on (Reg.FLOW_EGR_EN a.pkt.flow) = true →
      s.dev.rd (Reg.FLOW_EGR_COURSE a.pkt.flow) = a.course →
      s.dev.rd (Reg.FLOW_EGR_PORT a.pkt.flow) = p →
      s.dev.portUp p = true →
      a.pkt.cls = 1 →
      ∃ t, exec (.egressPacketArrive) s = .next t ∧ State.Settles [] ({ s.dev with sched := { s.dev.sched with arrivals := r, bounded := sset (dflt []) s.dev.sched.bounded p (portList s.dev.sched.bounded p ++ [a.pkt]) } }) s t) ∧
  (∀ (a : Delivered) (r : List Delivered) (p : Nat) (s : State), s.Inv →
      s.dev.sched.arrivals = a :: r →
      s.dev.on (Reg.FLOW_REVOKED a.pkt.flow) = true →
      s.dev.on (Reg.FLOW_ADMITTED a.pkt.flow) = true →
      s.dev.on (Reg.FLOW_EGR_EN a.pkt.flow) = true →
      s.dev.rd (Reg.FLOW_EGR_COURSE a.pkt.flow) = a.course →
      s.dev.rd (Reg.FLOW_EGR_PORT a.pkt.flow) = p →
      s.dev.portUp p = true →
      ∃ t, exec (.egressPacketArrive) s = .next t ∧ (
      let E : Bool × Dev := ({ s.dev with sched := { s.dev.sched with arrivals := r } }).beEnter (2048 + 4 * p + s.dev.rd (Reg.FLOW_BE_PRIO a.pkt.flow)) (s.dev.rd (Reg.PORT_CFG_BE_MAX_PKT p)) (decide (s.dev.beq (2048 + 4 * p + s.dev.rd (Reg.FLOW_BE_PRIO a.pkt.flow)) = [])) { a.pkt with cls := 0 }
      State.Settles [] (if E.1 then E.2 else E.2.bump (Reg.FLOW_EGR_DROP a.pkt.flow)) s t)) ∧
  (∀ (a : Delivered) (r : List Delivered) (p : Nat) (s : State), s.Inv →
      s.dev.sched.arrivals = a :: r →
      s.dev.on (Reg.FLOW_REVOKED a.pkt.flow) = false →
      s.dev.on (Reg.FLOW_ADMITTED a.pkt.flow) = true →
      s.dev.on (Reg.FLOW_EGR_EN a.pkt.flow) = true →
      s.dev.rd (Reg.FLOW_EGR_COURSE a.pkt.flow) = a.course →
      s.dev.rd (Reg.FLOW_EGR_PORT a.pkt.flow) = p →
      s.dev.portUp p = true →
      a.pkt.cls = 2 →
      0 ≤ diff32 ((a.pkt.tIn + s.dev.rd (Reg.FLOW_DELIVER_NS a.pkt.flow)) % 2 ^ 32) s.dev.now32 →
      diff32 ((a.pkt.tIn + s.dev.rd (Reg.FLOW_DELIVER_NS a.pkt.flow)) % 2 ^ 32) s.dev.now32 ≤ 100000 →
      ∃ t, exec (.egressPacketArrive) s = .next t ∧ State.Settles [] ({ s.dev with sched := { s.dev.sched with arrivals := r, hold := sset (dflt []) s.dev.sched.hold p (portList s.dev.sched.hold p ++ [{ a.pkt with rel := (a.pkt.tIn + s.dev.rd (Reg.FLOW_DELIVER_NS a.pkt.flow)) % 2 ^ 32 }]) } }) s t) ∧
  (∀ (p : Fin 64) (x : Queued) (s : State), s.Inv →
      firstDue s.dev.now32 (portList s.dev.sched.hold p) = some x →
      ∃ t, exec (.detRelease p) s = .next t ∧ State.Settles [] ({ s.dev with sched := { s.dev.sched with hold := sset (dflt []) s.dev.sched.hold p ((portList s.dev.sched.hold p).erase x), det := sset (dflt []) s.dev.sched.det p (portList s.dev.sched.det p ++ [x]) } }) s t) ∧
  (∀ (p : Fin 64) (delta : Fin 201) (x : Queued) (r : List Queued) (s : State), s.Inv →
      s.dev.portUp p = true →
      portList s.dev.sched.det p = x :: r →
      x.late = true →
      ∃ t, exec (.egressPortServe p delta false) s = .next t ∧ State.Settles [] ((((((({ s.dev with sched := { s.dev.sched with det := sset (dflt []) s.dev.sched.det p r } }).bump64 (Reg.FLOW_EGR_PKTS x.flow) 1).bump64 (Reg.FLOW_EGR_BYTES x.flow) x.size).wr (Reg.FLOW_EGR_DELAY_MAX_NS x.flow) (max (s.dev.rd (Reg.FLOW_EGR_DELAY_MAX_NS x.flow)) ((x.rel + 2 ^ 32 - x.tIn % 2 ^ 32) % 2 ^ 32))).bump64 (Reg.TX_FRAMES_LO p).run 1).bump64 (Reg.TX_BYTES_LO p).run (x.bytes.length + 4))) s t) ∧
  (∀ (p : Fin 64) (delta : Fin 201) (x : Queued) (r : List Queued) (s : State), s.Inv →
      s.dev.portUp p = true →
      portList s.dev.sched.det p = x :: r →
      x.late = false →
      ∃ t, exec (.egressPortServe p delta false) s = .next t ∧ (
      let e : Nat × Nat := match s.dev.sched.pdv.find? (fun y => decide (y.1 = x.flow)) with | some y => (min y.2.1 delta, max y.2.2 delta) | none => (delta.val, delta.val)
      State.Settles [] (((((((({ s.dev with sched := { s.dev.sched with det := sset (dflt []) s.dev.sched.det p r, pdv := (x.flow, e.1, e.2) :: s.dev.sched.pdv.filter fun y => y.1 ≠ x.flow } }).bump64 (Reg.FLOW_EGR_PKTS x.flow) 1).bump64 (Reg.FLOW_EGR_BYTES x.flow) x.size).wr (Reg.FLOW_EGR_DELAY_MAX_NS x.flow) (max (s.dev.rd (Reg.FLOW_EGR_DELAY_MAX_NS x.flow)) ((x.rel + 2 ^ 32 - x.tIn % 2 ^ 32) % 2 ^ 32))).bump64 (Reg.TX_FRAMES_LO p).run 1).bump64 (Reg.TX_BYTES_LO p).run (x.bytes.length + 4))).wr (Reg.FLOW_PDV_SPAN_NS x.flow) (e.2 - e.1)) s t)) ∧
  (∀ (p : Fin 64) (delta : Fin 201) (x : Queued) (r : List Queued) (s : State), s.Inv →
      s.dev.portUp p = true →
      portList s.dev.sched.det p = [] →
      portList s.dev.sched.bounded p = x :: r →
      s.dev.mayStart p x = true →
      ∃ t, exec (.egressPortServe p delta false) s = .next t ∧ State.Settles [] ((((((({ s.dev with sched := { s.dev.sched with bounded := sset (dflt []) s.dev.sched.bounded p r } }).bump64 (Reg.FLOW_EGR_PKTS x.flow) 1).bump64 (Reg.FLOW_EGR_BYTES x.flow) x.size).wr (Reg.FLOW_EGR_DELAY_MAX_NS x.flow) (max (s.dev.rd (Reg.FLOW_EGR_DELAY_MAX_NS x.flow)) ((s.dev.now32 + 2 ^ 32 - x.tIn % 2 ^ 32) % 2 ^ 32))).bump64 (Reg.TX_FRAMES_LO p).run 1).bump64 (Reg.TX_BYTES_LO p).run (x.bytes.length + 4))) s t) ∧
  (∀ (p : Fin 64) (delta : Fin 201) (x : Queued) (r : List Queued) (s : State), s.Inv →
      s.dev.portUp p = true →
      portList s.dev.sched.det p = [] →
      portList s.dev.sched.bounded p = x :: r →
      s.dev.mayStart p x = true →
      ∃ t, exec (.egressPortServe p delta true) s = .next t ∧ State.Settles [] (({ s.dev with sched := { s.dev.sched with bounded := sset (dflt []) s.dev.sched.bounded p r } }).bump (Reg.FLOW_EGR_DROP x.flow)) s t)

/-- Key slots are loaded, erased and zeroised, and courses rekeyed.

LOAD of a slot not in service, with a role other than 3 and outside RETURNED, makes it READY with the staged key and its check value; ERASE empties it; ZEROISE empties it whether or not it is in service, asks the courses that send under it for a switch and stops the request under it; ZEROISE_ALL does so for every slot. Each zeroes the staged bits and raises E-21.00 where a state changes; LOAD and ERASE of a slot in service are refused with E-21.11. REKEY asks for a switch where the other slot is READY, and is refused otherwise. -/
def Obligations.KeySlotOperations : Prop :=
  (∀ (v : Word) (k : Nat) (s : State), s.Inv →
      s.dev.pageLive (0x290) = true →
      s.dev.pageInTest (0x290) = false →
      v &&& 0xE0000 = 0 →
      (s.dev.writeWord 0x290 0x060 0xF0000 (v ||| 0x10000)).rd Reg.KEY_CTRL_SLOT = k →
      s.dev.inService k = false →
      (s.dev.writeWord 0x290 0x060 0xF0000 (v ||| 0x10000)).rd Reg.KEY_CTRL_ROLE ≠ 3 →
      s.dev.rd Reg.LC_STAT_STATE ≠ 3 →
      ∃ t, exec (.keyLoad v) s = .next t ∧ State.Settles (if (s.dev.key k).state = keyReady then [] else [(21, 0)]) ({ (s.dev.writeWord 0x290 0x060 0xF0000 (v ||| 0x10000)) with keys := sset (dflt KeySlot.reset) s.dev.keys k ⟨keyReady, (s.dev.writeWord 0x290 0x060 0xF0000 (v ||| 0x10000)).rd Reg.KEY_CTRL_ROLE, s.dev.stagedKey, keyCheckValue s.dev.stagedKey, 0⟩, staged := [] }) s t) ∧
  (∀ (v : Word) (k : Nat) (s : State), s.Inv →
      s.dev.pageLive (0x290) = true →
      s.dev.pageInTest (0x290) = false →
      v &&& 0xE0000 = 0 →
      (s.dev.writeWord 0x290 0x060 0xF0000 (v ||| 0x10000)).rd Reg.KEY_CTRL_SLOT = k →
      s.dev.inService k = true ∨ (s.dev.writeWord 0x290 0x060 0xF0000 (v ||| 0x10000)).rd Reg.KEY_CTRL_ROLE = 3 ∨ s.dev.rd Reg.LC_STAT_STATE = 3 →
      ∃ t, exec (.keyLoad v) s = .next t ∧ State.Settles ([(21, 11)]) (({ (s.dev.writeWord 0x290 0x060 0xF0000 (v ||| 0x10000)).viol 0x290 with staged := [] }).oneViol (0x290) (s.dev.hdr (0x290)).viol) s t) ∧
  (∀ (v : Word) (k : Nat) (s : State), s.Inv →
      s.dev.pageLive (0x290) = true →
      s.dev.pageInTest (0x290) = false →
      v &&& 0xD0000 = 0 →
      (s.dev.writeWord 0x290 0x060 0xF0000 (v ||| 0x20000)).rd Reg.KEY_CTRL_SLOT = k →
      s.dev.inService k = false →
      ∃ t, exec (.keyErase v) s = .next t ∧ State.Settles (if (s.dev.key k).state = keyEmpty then [] else [(21, 0)]) ({ (s.dev.writeWord 0x290 0x060 0xF0000 (v ||| 0x20000)) with keys := sset (dflt KeySlot.reset) s.dev.keys k KeySlot.reset, staged := [] }) s t) ∧
  (∀ (v : Word) (k : Nat) (s : State), s.Inv →
      s.dev.pageLive (0x290) = true →
      s.dev.pageInTest (0x290) = false →
      v &&& 0xD0000 = 0 →
      (s.dev.writeWord 0x290 0x060 0xF0000 (v ||| 0x20000)).rd Reg.KEY_CTRL_SLOT = k →
      s.dev.inService k = true →
      ∃ t, exec (.keyErase v) s = .next t ∧ State.Settles ([(21, 11)]) (({ (s.dev.writeWord 0x290 0x060 0xF0000 (v ||| 0x20000)).viol 0x290 with staged := [] }).oneViol (0x290) (s.dev.hdr (0x290)).viol) s t) ∧
  (∀ (v : Word) (k : Nat) (s : State), s.Inv →
      s.dev.pageLive (0x290) = true →
      s.dev.pageInTest (0x290) = false →
      v &&& 0xB0000 = 0 →
      (s.dev.writeWord 0x290 0x060 0xF0000 (v ||| 0x40000)).rd Reg.KEY_CTRL_SLOT = k →
      ∃ t, exec (.keyZeroise v) s = .next t ∧ State.Settles (if (s.dev.key k).state = keyEmpty then [] else [(21, 0)]) ({ (s.dev.writeWord 0x290 0x060 0xF0000 (v ||| 0x40000)) with keys := sset (dflt KeySlot.reset) s.dev.keys k KeySlot.reset, staged := [], rekeys := (s.dev.rekeys ++ (s.dev.courses ++ s.dev.remotes).filter fun c => s.dev.encrypted c && decide (s.dev.txActive c = k) && decide ((s.dev.key k).state ≠ keyEmpty)).dedup, req := s.dev.req.map fun r => if r.slot = k then { r with zeroised := true } else r }) s t) ∧
  (∀ (v : Word) (s : State), s.Inv →
      s.dev.pageLive (0x290) = true →
      s.dev.pageInTest (0x290) = false →
      v &&& 0x70000 = 0 →
      ∃ t, exec (.keyZeroiseAll v) s = .next t ∧ State.Settles (if s.dev.keys.any (fun p => decide ((s.dev.key p.1).state ≠ keyEmpty)) then [(21, 0)] else []) ({ (s.dev.writeWord 0x290 0x060 0xF0000 (v ||| 0x80000)) with keys := [], staged := [], rekeys := (s.dev.keys.map fun p => p.1).eraseDups.foldl (fun (a : List Nat) k => (a ++ (s.dev.courses ++ s.dev.remotes).filter fun c => s.dev.encrypted c && decide (s.dev.txActive c = k) && decide ((s.dev.key k).state ≠ keyEmpty)).dedup) s.dev.rekeys, req := s.dev.req.map fun r => if s.dev.keys.any (fun p => decide (p.1 = r.slot)) then { r with zeroised := true } else r }) s t) ∧
  (∀ (v : Word) (c : Nat) (s : State), s.Inv →
      s.dev.pageLive (0x291) = true →
      s.dev.pageInTest (0x291) = false →
      (s.dev.writeWord 0x291 0x080 0x200 (v ||| 0x200)).rd Reg.REKEY_COURSE = c →
      s.dev.txReady (s.dev.txSlot c (1 - s.dev.rd (Reg.CSTAT_KS_TX c))) = true →
      ∃ t, exec (.rekey v) s = .next t ∧ State.Settles [] ({ s.dev.writeWord 0x291 0x080 0x200 (v ||| 0x200) with rekeys := (s.dev.rekeys ++ [c]).dedup }) s t) ∧
  (∀ (v : Word) (c : Nat) (s : State), s.Inv →
      s.dev.pageLive (0x291) = true →
      s.dev.pageInTest (0x291) = false →
      (s.dev.writeWord 0x291 0x080 0x200 (v ||| 0x200)).rd Reg.REKEY_COURSE = c →
      s.dev.txReady (s.dev.txSlot c (1 - s.dev.rd (Reg.CSTAT_KS_TX c))) = false →
      ∃ t, exec (.rekey v) s = .next t ∧ State.Settles ([(21, 11)]) (((s.dev.writeWord 0x291 0x080 0x200 (v ||| 0x200)).viol 0x291).oneViol (0x291) (s.dev.hdr (0x291)).viol) s t)

/-- The request ring and the request engine.

REQ_TAIL takes the tail. The engine takes the ring’s entry at HEAD where its OWN is set: HEAD advances, a request in order latches its key, whose slot becomes ACTIVE, and for an encryption takes the next value of the slot’s invocation counter; one with a status found early is kept to its end. An entry not owned for 1 µs halts the ring with E-03.11. A host’s request that completes stores its output, IV and tag as its operation has them, zeros over the output where it failed after its start, and its status word last; it counts, with E-21.09, and E-21.10 for a failure. A Drone’s request leaves the sealed message. -/
def Obligations.CipherRequests : Prop :=
  (∀ (v : Word) (s : State), s.Inv →
      s.dev.pageLive (0x292) = true →
      s.dev.pageInTest (0x292) = false →
      ∃ t, exec (.reqTailWrite v) s = .next t ∧ State.Settles [] (s.dev.writeWord 0x292 0x04C 0 v) s t) ∧
  (∀ (s : State), s.Inv →
      s.dev.req = none →
      s.dev.hubOn = true →
      s.dev.blockOut 61 = false →
      s.dev.bist.run.contains 61 = false →
      s.dev.droneReqs = [] →
      s.dev.reqWaiting = true →
      fieldLE (s.bytes (winAddr s.dev.reqEntry) 64) 0 1 % 2 = 1 →
      (s.dev.hostReq (s.bytes (winAddr s.dev.reqEntry) 64)).early = 0 →
      ∃ t, exec (.reqTake) s = .next t ∧ State.Settles (if (s.dev.key (s.dev.hostReq (s.bytes (winAddr s.dev.reqEntry) 64)).slot).state = keyActive then [] else [(21, 0)]) ({ s.dev.wr Reg.REQ_HEAD_INDEX ((s.dev.rd Reg.REQ_HEAD_INDEX + 1) % s.dev.rd Reg.REQ_SIZE_ENTRIES) with invoked := if (s.dev.hostReq (s.bytes (winAddr s.dev.reqEntry) 64)).op = 0 ∨ (s.dev.hostReq (s.bytes (winAddr s.dev.reqEntry) 64)).op = 2 then sset (dflt 0) s.dev.invoked (s.dev.hostReq (s.bytes (winAddr s.dev.reqEntry) 64)).slot (sget (dflt 0) s.dev.invoked (s.dev.hostReq (s.bytes (winAddr s.dev.reqEntry) 64)).slot + 1) else s.dev.invoked, keys := sset (dflt KeySlot.reset) s.dev.keys (s.dev.hostReq (s.bytes (winAddr s.dev.reqEntry) 64)).slot { s.dev.key (s.dev.hostReq (s.bytes (winAddr s.dev.reqEntry) 64)).slot with state := keyActive, used := (s.dev.key (s.dev.hostReq (s.bytes (winAddr s.dev.reqEntry) 64)).slot).used + 1 }, req := some { (s.dev.hostReq (s.bytes (winAddr s.dev.reqEntry) 64)) with iv := if (s.dev.hostReq (s.bytes (winAddr s.dev.reqEntry) 64)).op = 0 ∨ (s.dev.hostReq (s.bytes (winAddr s.dev.reqEntry) 64)).op = 2 then bytesBE 2 (2 ^ 14 + (s.dev.hostReq (s.bytes (winAddr s.dev.reqEntry) 64)).slot) ++ [0, 0] ++ bytesBE 8 (s.dev.rd Reg.BOOT_EPOCH_EPOCH * 2 ^ 48 + sget (dflt 0) s.dev.invoked (s.dev.hostReq (s.bytes (winAddr s.dev.reqEntry) 64)).slot) else (s.dev.hostReq (s.bytes (winAddr s.dev.reqEntry) 64)).iv, key := (s.dev.key (s.dev.hostReq (s.bytes (winAddr s.dev.reqEntry) 64)).slot).key } }) s t) ∧
  (∀ (s : State), s.Inv →
      s.dev.req = none →
      s.dev.hubOn = true →
      s.dev.blockOut 61 = false →
      s.dev.bist.run.contains 61 = false →
      s.dev.droneReqs = [] →
      s.dev.reqWaiting = true →
      fieldLE (s.bytes (winAddr s.dev.reqEntry) 64) 0 1 % 2 = 1 →
      (s.dev.hostReq (s.bytes (winAddr s.dev.reqEntry) 64)).early ≠ 0 →
      ∃ t, exec (.reqTake) s = .next t ∧ State.Settles [] ({ s.dev.wr Reg.REQ_HEAD_INDEX ((s.dev.rd Reg.REQ_HEAD_INDEX + 1) % s.dev.rd Reg.REQ_SIZE_ENTRIES) with req := some (s.dev.hostReq (s.bytes (winAddr s.dev.reqEntry) 64)) }) s t) ∧
  (∀ (s : State), s.Inv →
      s.dev.reqWaiting = true →
      fieldLE (s.bytes (winAddr s.dev.reqEntry) 1) 0 1 % 2 = 0 →
      ∃ t, exec (.ringOwnTimeout) s = .next t ∧ State.Settles ([(3, 11)]) (s.dev.wr Reg.REQ_CTRL_EN 0) s t) ∧
  (∀ (poisoned checkFail : Bool) (r : Req) (x : ReqResult) (s : State), s.Inv →
      s.dev.req = some r →
      r.drone = none →
      r.result (if r.early = 0 then s.bytes (winAddr r.src) r.length else []) (if r.early = 0 then s.bytes (winAddr r.aad) r.aadLen else []) poisoned checkFail = x →
      x.status = 0 →
      ∃ t, exec (.reqComplete poisoned checkFail) s = .next t ∧ State.Stores ([(21, 9)]) (({ s.dev with req := none }).bump Reg.REQ_DONE) ((if r.op ≤ 3 then [(winAddr r.dst, x.out)] else []) ++ (if r.op = 0 ∨ r.op = 2 then [(winAddr (r.entry + 24), r.iv)] else []) ++ (if r.op = 0 ∨ r.op = 4 then [(winAddr (r.entry + 36), x.tag)] else []) ++ [(winAddr r.entry, bytesLE 4 (2 * r.op + 16 * r.slot + 2 ^ 24 * 0))]) s t) ∧
  (∀ (poisoned checkFail : Bool) (r : Req) (x : ReqResult) (s : State), s.Inv →
      s.dev.req = some r →
      r.drone = none →
      r.result (if r.early = 0 then s.bytes (winAddr r.src) r.length else []) (if r.early = 0 then s.bytes (winAddr r.aad) r.aadLen else []) poisoned checkFail = x →
      x.status ≠ 0 →
      ∃ t, exec (.reqComplete poisoned checkFail) s = .next t ∧ State.Stores (if x.status = 8 then [(21, 8), (21, 9), (21, 10)] else [(21, 9), (21, 10)]) (((if x.status = 8 then { s.dev with req := none }.bump Reg.CHK_FAIL_HOST else { s.dev with req := none }).bump Reg.REQ_DONE).bump Reg.REQ_ERR) ((if r.op ≤ 3 ∧ 6 ≤ x.status then [(winAddr r.dst, List.replicate r.length 0)] else []) ++ [(winAddr r.entry, bytesLE 4 (2 * r.op + 16 * r.slot + 2 ^ 24 * x.status))]) s t) ∧
  (∀ (poisoned checkFail : Bool) (r : Req) (q : DroneReq) (x : ReqResult) (s : State), s.Inv →
      s.dev.req = some r →
      r.drone = some q →
      r.result q.plain q.header poisoned checkFail = x →
      x.status = 0 →
      ∃ t, exec (.reqComplete poisoned checkFail) s = .next t ∧ State.Settles ([(21, 9)]) ((({ s.dev with req := none }).bump Reg.REQ_DONE).setDtx q.tx { s.dev.dtx q.tx with waiting := some (q.header ++ bytesBE 2 (crc16 0xFFFF q.header) ++ r.iv ++ x.out ++ x.tag), sealing := false }) s t)

/-- Drone messages and beacons are sent, completed and cut.

SEND with no message under way takes the sequence number and the buffer: a message without SEC waits with its header, its check and its payload; one with SEC becomes a request of the cipher engine; BUSY is set. SEND while BUSY, and on an odd engine of a twin pair, is counted and ignored with E-08.11. A due beacon is marked. A burst starts with the settings now in force, its CRC-32 appended; its end clears ACTIVE, counts, and for a message clears BUSY with status 0, E-08.09; a cut counts TX_CUT, with status 1 for a message, E-08.10. In twin mode the odd engine’s insertion starts, where its EN is 1, and ends with the even engine’s, and it is cut alone where it alone no longer inserts. A start, an end or a cut without its condition changes nothing. -/
def Obligations.DroneSending : Prop :=
  (∀ (n : Fin 8) (v : Word) (s : State), s.Inv →
      s.dev.pageLive (droneTxPage n) = true →
      s.dev.pageInTest (droneTxPage n) = false →
      s.dev.droneFollows n = false →
      s.dev.droneLive = true →
      s.dev.on (Reg.DR_TX_STAT_BUSY n) = false →
      (s.dev.writeWord (droneTxPage n) 0x048 0x4000 (v ||| 0x4000)).rd (Reg.DR_TX_CTRL_SEC n) = 0 →
      (s.dev.writeWord (droneTxPage n) 0x048 0x4000 (v ||| 0x4000)).rd (Reg.DR_TX_CTRL_LENGTH n) ≤ 2048 →
      ∃ t, exec (.droneSend n v) s = .next t ∧ State.Settles [] ((((s.dev.writeWord (droneTxPage n) 0x048 0x4000 (v ||| 0x4000))).setDtx n { (s.dev.dtx n) with seq := ((s.dev.dtx n).seq + 1) % 65536, waiting := some ((bytesBE 1 16 ++ bytesBE 1 (ofBool ((s.dev.writeWord (droneTxPage n) 0x048 0x4000 (v ||| 0x4000)).rd (Reg.DR_TX_CTRL_SEC n) = 1) + 2 * (s.dev.writeWord (droneTxPage n) 0x048 0x4000 (v ||| 0x4000)).rd (Reg.DR_TX_CTRL_WAKE n)) ++ bytesBE 2 ((s.dev.writeWord (droneTxPage n) 0x048 0x4000 (v ||| 0x4000)).rd (Reg.DR_TX_CTRL_LENGTH n)) ++ bytesBE 2 (s.dev.dtx n).seq) ++ bytesBE 2 (crc16 0xFFFF (bytesBE 1 16 ++ bytesBE 1 (ofBool ((s.dev.writeWord (droneTxPage n) 0x048 0x4000 (v ||| 0x4000)).rd (Reg.DR_TX_CTRL_SEC n) = 1) + 2 * (s.dev.writeWord (droneTxPage n) 0x048 0x4000 (v ||| 0x4000)).rd (Reg.DR_TX_CTRL_WAKE n)) ++ bytesBE 2 ((s.dev.writeWord (droneTxPage n) 0x048 0x4000 (v ||| 0x4000)).rd (Reg.DR_TX_CTRL_LENGTH n)) ++ bytesBE 2 (s.dev.dtx n).seq)) ++ s.dev.droneBuf n ((s.dev.writeWord (droneTxPage n) 0x048 0x4000 (v ||| 0x4000)).rd (Reg.DR_TX_CTRL_LENGTH n))) }).wr (Reg.DR_TX_STAT_BUSY n) 1) s t) ∧
  (∀ (n : Fin 8) (v : Word) (s : State), s.Inv →
      s.dev.pageLive (droneTxPage n) = true →
      s.dev.pageInTest (droneTxPage n) = false →
      s.dev.droneFollows n = false →
      s.dev.droneLive = true →
      s.dev.on (Reg.DR_TX_STAT_BUSY n) = false →
      (s.dev.writeWord (droneTxPage n) 0x048 0x4000 (v ||| 0x4000)).rd (Reg.DR_TX_CTRL_SEC n) = 1 →
      (s.dev.writeWord (droneTxPage n) 0x048 0x4000 (v ||| 0x4000)).rd (Reg.DR_TX_CTRL_LENGTH n) ≤ 2020 →
      s.dev.blockOut 61 = false →
      ∃ t, exec (.droneSend n v) s = .next t ∧ State.Settles [] ({ (((s.dev.writeWord (droneTxPage n) 0x048 0x4000 (v ||| 0x4000))).setDtx n { (s.dev.dtx n) with seq := ((s.dev.dtx n).seq + 1) % 65536, sealing := true }).wr (Reg.DR_TX_STAT_BUSY n) 1 with droneReqs := s.dev.droneReqs ++ [⟨n, bytesBE 1 16 ++ bytesBE 1 (ofBool ((s.dev.writeWord (droneTxPage n) 0x048 0x4000 (v ||| 0x4000)).rd (Reg.DR_TX_CTRL_SEC n) = 1) + 2 * (s.dev.writeWord (droneTxPage n) 0x048 0x4000 (v ||| 0x4000)).rd (Reg.DR_TX_CTRL_WAKE n)) ++ bytesBE 2 (((s.dev.writeWord (droneTxPage n) 0x048 0x4000 (v ||| 0x4000)).rd (Reg.DR_TX_CTRL_LENGTH n) + 28)) ++ bytesBE 2 (s.dev.dtx n).seq, s.dev.droneBuf n ((s.dev.writeWord (droneTxPage n) 0x048 0x4000 (v ||| 0x4000)).rd (Reg.DR_TX_CTRL_LENGTH n))⟩] }) s t) ∧
  (∀ (n : Fin 8) (v : Word) (s : State), s.Inv →
      s.dev.pageLive (droneTxPage n) = true →
      s.dev.pageInTest (droneTxPage n) = false →
      s.dev.droneFollows n = true ∨ s.dev.on (Reg.DR_TX_STAT_BUSY n) = true →
      ∃ t, exec (.droneSend n v) s = .next t ∧ State.Settles ([(8, 11)]) ((((s.dev.writeWord (droneTxPage n) 0x048 0x4000 (v ||| 0x4000))).viol (droneTxPage n)).oneViol (droneTxPage n) (s.dev.hdr (droneTxPage n)).viol) s t) ∧
  (∀ (n : Fin 8) (s : State), s.Inv →
      s.dev.hubOn = true →
      s.dev.lineOn n = true →
      s.dev.droneLive = true →
      s.dev.on Reg.DR_CTRL_BCN_EN = true →
      s.dev.identitySigns = true →
      s.dev.droneFollows n = false →
      ∃ t, exec (.beaconDue n) s = .next t ∧ State.Settles [] ((s.dev).setDtx n { (s.dev.dtx n) with beacon := true }) s t) ∧
  (∀ (n : Fin 8) (b : List Byte) (s : State), s.Inv →
      s.dev.mayBurst n = true →
      ((s.dev.dtx n).beacon && s.dev.identitySigns) = false →
      (s.dev.dtx n).waiting = some b →
      ∃ t, exec (.droneBurstStart n) s = .next t ∧ State.Settles [] ((fun (x : Dev) => if s.dev.txTwin n && s.dev.on (Reg.TX_DRONE_INS_EN (n + 1)) then x.wr (Reg.TX_DRONE_INS_ACTIVE (n + 1)) 1 else x) ((((s.dev).setDtx n { (s.dev.dtx n) with waiting := none, sending := some (false, b ++ bytesBE 4 (crc32 (b)), s.dev.rd (Reg.DR_TX_CFG_SUBC n), s.dev.rd (Reg.DR_TX_CFG_CODE n), s.dev.rd (Reg.DR_TX_CFG_DEPTH n), s.dev.rd (Reg.DR_TX_RAMP_RAMP_US n)), symbols := droneSymbols (b ++ bytesBE 4 (crc32 (b))), chips := droneCode (s.dev.rd (Reg.DR_TX_CFG_CODE n)) }).wr (Reg.DR_TX_STAT_SEQ n) (fieldBE (b) 4 2)).wr (Reg.TX_DRONE_INS_ACTIVE n) 1)) s t) ∧
  (∀ (n : Fin 8) (s : State), s.Inv →
      s.dev.mayBurst n = true →
      (s.dev.dtx n).beacon = true →
      s.dev.identitySigns = true →
      ∃ t, exec (.droneBurstStart n) s = .next t ∧ State.Settles [] ((fun (x : Dev) => if s.dev.txTwin n && s.dev.on (Reg.TX_DRONE_INS_EN (n + 1)) then x.wr (Reg.TX_DRONE_INS_ACTIVE (n + 1)) 1 else x) (((({ s.dev with drone := { s.dev.drone with sentBeacons := s.dev.drone.sentBeacons + 1 } }).setDtx n { (s.dev.dtx n) with beacon := false, seq := ((s.dev.dtx n).seq + 1) % 65536, sending := some (true, (droneBytes (droneHeader 1 0 128 (s.dev.dtx n).seq) (s.dev.beaconPayload n)) ++ bytesBE 4 (crc32 ((droneBytes (droneHeader 1 0 128 (s.dev.dtx n).seq) (s.dev.beaconPayload n)))), s.dev.rd (Reg.DR_TX_CFG_SUBC n), s.dev.rd (Reg.DR_TX_CFG_CODE n), s.dev.rd (Reg.DR_TX_CFG_DEPTH n), s.dev.rd (Reg.DR_TX_RAMP_RAMP_US n)), symbols := droneSymbols ((droneBytes (droneHeader 1 0 128 (s.dev.dtx n).seq) (s.dev.beaconPayload n)) ++ bytesBE 4 (crc32 ((droneBytes (droneHeader 1 0 128 (s.dev.dtx n).seq) (s.dev.beaconPayload n))))), chips := droneCode (s.dev.rd (Reg.DR_TX_CFG_CODE n)) }).wr (Reg.DR_TX_STAT_SEQ n) (fieldBE ((droneBytes (droneHeader 1 0 128 (s.dev.dtx n).seq) (s.dev.beaconPayload n))) 4 2)).wr (Reg.TX_DRONE_INS_ACTIVE n) 1)) s t) ∧
  (∀ (n : Fin 8) (bcn : Bool) (b : List Byte × Nat × Nat × Nat × Nat) (s : State), s.Inv →
      (s.dev.dtx n).sending = some (bcn, b) →
      ∃ t, exec (.droneBurstComplete n) s = .next t ∧ State.Settles ([(8, 9)]) (if bcn then (((fun (x : Dev) => if s.dev.txTwin n then x.wr (Reg.TX_DRONE_INS_ACTIVE (2 * (n / 2) + 1)) 0 else x) (((s.dev).setDtx n { (s.dev.dtx n) with sending := none, symbols := [], chips := [] }).wr (Reg.TX_DRONE_INS_ACTIVE n) 0))).bump Reg.BCN_SENT.run else (((((fun (x : Dev) => if s.dev.txTwin n then x.wr (Reg.TX_DRONE_INS_ACTIVE (2 * (n / 2) + 1)) 0 else x) (((s.dev).setDtx n { (s.dev.dtx n) with sending := none, symbols := [], chips := [] }).wr (Reg.TX_DRONE_INS_ACTIVE n) 0))).bump Reg.TX_OK.run).wr (Reg.DR_TX_STAT_BUSY n) 0).wr (Reg.DR_TX_STAT_STATUS n) 0) s t) ∧
  (∀ (n : Fin 8) (bcn : Bool) (b : List Byte × Nat × Nat × Nat × Nat) (s : State), s.Inv →
      (s.dev.dtx n).sending = some (bcn, b) →
      s.dev.burstOver n = true →
      ∃ t, exec (.droneBurstCut n) s = .next t ∧ State.Settles ([(8, 10)]) (if bcn then (((fun (x : Dev) => if s.dev.txTwin n then x.wr (Reg.TX_DRONE_INS_ACTIVE (2 * (n / 2) + 1)) 0 else x) (((s.dev).setDtx n { (s.dev.dtx n) with sending := none, symbols := [], chips := [] }).wr (Reg.TX_DRONE_INS_ACTIVE n) 0))).bump Reg.TX_CUT.run else (((((fun (x : Dev) => if s.dev.txTwin n then x.wr (Reg.TX_DRONE_INS_ACTIVE (2 * (n / 2) + 1)) 0 else x) (((s.dev).setDtx n { (s.dev.dtx n) with sending := none, symbols := [], chips := [] }).wr (Reg.TX_DRONE_INS_ACTIVE n) 0))).bump Reg.TX_CUT.run).wr (Reg.DR_TX_STAT_BUSY n) 0).wr (Reg.DR_TX_STAT_STATUS n) 1) s t) ∧
  (∀ (n : Fin 8) (s : State), s.Inv →
      s.dev.mayBurst n = false ∨ (((s.dev.dtx n).beacon && s.dev.identitySigns) = false ∧ (s.dev.dtx n).waiting = none) →
      ∃ t, exec (.droneBurstStart n) s = .next t ∧ State.Settles [] (s.dev) s t) ∧
  (∀ (n : Fin 8) (s : State), s.Inv →
      (s.dev.dtx n).sending = none →
      ∃ t, exec (.droneBurstComplete n) s = .next t ∧ State.Settles [] (s.dev) s t) ∧
  (∀ (n : Fin 8) (s : State), s.Inv →
      (s.dev.dtx n).sending = none →
      s.dev.droneFollows n = true →
      s.dev.on (Reg.TX_DRONE_INS_ACTIVE n) = true →
      s.dev.burstOver n = true →
      ∃ t, exec (.droneBurstCut n) s = .next t ∧ State.Settles ([(8, 10)]) ((s.dev.wr (Reg.TX_DRONE_INS_ACTIVE n) 0).bump Reg.TX_CUT.run) s t) ∧
  (∀ (n : Fin 8) (s : State), s.Inv →
      s.dev.burstOver n = false ∨ ((s.dev.dtx n).sending = none ∧ (s.dev.droneFollows n = false ∨ s.dev.on (Reg.TX_DRONE_INS_ACTIVE n) = false)) →
      ∃ t, exec (.droneBurstCut n) s = .next t ∧ State.Settles [] (s.dev) s t)

/-- Detections, fingers, headers and bodies of received bursts.

A detection above the threshold of an enabled entry takes a FREE finger of its path with its offset and a gain that the spec leaves open, counted in DET; a finger’s AFC freezes on the offset it has acquired; its sync word moves it to BODY with the rotation and TIME; a finger without one after 64 symbols is freed and counted as false; the false detections of a second above the threshold raise E-08.04. A header with a bad check or length frees the finger with E-08.05, a good one is kept. A body with a bad CRC-32 is counted with E-08.05; a message is queued to RXQ as an item, counted, with E-08.00; a TYPE of no meaning is a header error. -/
def Obligations.DroneFingers : Prop :=
  (∀ (path : Fin 16) (entry : Fin 8) (power freq : Int) (k : Nat) (s : State), s.Inv →
      s.dev.hubOn = true →
      s.dev.pathActive path = true →
      s.dev.on (Reg.LISTEN_EN (8 * path.val + entry.val)) = true →
      s.dev.rd Reg.DR_RX_CFG_DET_THR < power →
      (List.range 4).find? (fun j => (s.dev.finger path j).isNone) = some k →
      ∃ t, exec (.droneDetect path entry power freq false) s = .next t ∧ State.Settles [] (((s.dev.bump Reg.DET.run).setFinger path k (some ⟨entry, s.dev.rd (Reg.LISTEN_SUBC (8 * path.val + entry.val)), s.dev.rd (Reg.LISTEN_CODE (8 * path.val + entry.val)), false, power, s.dev.free, freq, 0, false, 0, 0, []⟩)).tick) s t) ∧
  (∀ (path : Fin 16) (k : Fin 4) (f : Finger) (s : State), s.Inv →
      s.dev.pathActive path = true →
      s.dev.finger path k = some f →
      f.body = false →
      ∃ t, exec (.afcFreeze path k) s = .next t ∧ State.Settles [] (((s.dev).setFinger path k (some (f.freeze s.dev.free))).tick) s t) ∧
  (∀ (path : Fin 16) (k : Fin 4) (w : Word) (r : Nat) (f : Finger) (s : State), s.Inv →
      s.dev.pathActive path = true →
      s.dev.finger path k = some f →
      f.body = false →
      syncRotation w.toNat = some r →
      ∃ t, exec (.fingerSyncFound path k w) s = .next t ∧ State.Settles [] (((s.dev).setFinger path k (some { f.freeze s.dev.free with body := true, rotation := r, syncTime := s.dev.time })).tick) s t) ∧
  (∀ (path : Fin 16) (k : Fin 4) (f : Finger) (s : State), s.Inv →
      s.dev.pathActive path = true →
      s.dev.finger path k = some f →
      f.body = false →
      ∃ t, exec (.fingerAcqTimeout path k) s = .next t ∧ State.Settles [] ({ (s.dev.setFinger path k none).bump Reg.FALSE_DET.run with drone := { (s.dev.setFinger path k none).drone with falses := sset (dflt 0) s.dev.drone.falses path (sget (dflt 0) s.dev.drone.falses path + 1) } }) s t) ∧
  (∀ (path : Fin 16) (s : State), s.Inv →
      s.dev.hubOn = true →
      ∃ t, exec (.droneFalseWindowEnd path) s = .next t ∧ State.Settles (if s.dev.rd Reg.DR_THR_FALSE_PER_S < sget (dflt 0) s.dev.drone.falses path then [(8, 4)] else []) ({ s.dev with drone := { s.dev.drone with falses := sset (dflt 0) s.dev.drone.falses path 0 } }) s t) ∧
  (∀ (path : Fin 16) (k : Fin 4) (header : List Byte) (f : Finger) (s : State), s.Inv →
      s.dev.pathActive path = true →
      s.dev.finger path k = some f →
      f.body = true →
      f.header = [] →
      crc16 0xFFFF (sliceBytes header 0 6) = fieldBE header 6 2 →
      fieldBE header 2 2 ≤ 2048 →
      ∃ t, exec (.fingerHeaderDecoded path k header) s = .next t ∧ State.Settles [] ((s.dev).setFinger path k (some { f with header := sliceBytes header 0 8 })) s t) ∧
  (∀ (path : Fin 16) (k : Fin 4) (header : List Byte) (f : Finger) (s : State), s.Inv →
      s.dev.hubOn = true →
      s.dev.pathActive path = true →
      s.dev.finger path k = some f →
      f.body = true →
      f.header = [] →
      crc16 0xFFFF (sliceBytes header 0 6) ≠ fieldBE header 6 2 ∨ 2048 < fieldBE header 2 2 →
      ∃ t, exec (.fingerHeaderDecoded path k header) s = .next t ∧ State.Settles ([(8, 5)]) ((s.dev.setFinger path k none).bump Reg.HDR_ERR.run) s t) ∧
  (∀ (path : Fin 16) (k : Fin 4) (payload : List Byte) (crc : Word) (f : Finger) (s : State), s.Inv →
      s.dev.hubOn = true →
      s.dev.pathActive path = true →
      s.dev.finger path k = some f →
      f.body = true →
      f.header ≠ [] →
      crc32 (f.header ++ (sliceBytes payload 0 (fieldBE f.header 2 2))) ≠ crc.toNat →
      ∃ t, exec (.fingerBodyEnd path k payload crc) s = .next t ∧ State.Settles ([(8, 5)]) ((s.dev.setFinger path k none).bump Reg.CRC_ERR.run) s t) ∧
  (∀ (path : Fin 16) (k : Fin 4) (payload : List Byte) (crc : Word) (f : Finger) (q : Nat) (s : State), s.Inv →
      s.dev.hubOn = true →
      s.dev.pathActive path = true →
      s.dev.finger path k = some f →
      f.body = true →
      f.header ≠ [] →
      crc32 (f.header ++ (sliceBytes payload 0 (fieldBE f.header 2 2))) = crc.toNat →
      fieldBE f.header 0 1 % 16 = 0 →
      s.dev.drone.items = [] →
      s.dev.rd Reg.DR_CFG_RXQ = q →
      s.dev.on (Reg.Q_CFG_EN q) = true →
      s.dev.on (Reg.Q_STAT_STALLING q) = false →
      s.dev.queueFits q ⟨s.dev.rd (Reg.Q_CFG_PRIO_DEF q), 1, path, false, s.dev.time, 0, droneItem path k f (sliceBytes payload 0 (fieldBE f.header 2 2))⟩ = true →
      ∃ t, exec (.fingerBodyEnd path k payload crc) s = .next t ∧ State.Settles ([(8, 0)]) (({ (s.dev.setFinger path k none).queueArrive q ⟨s.dev.rd (Reg.Q_CFG_PRIO_DEF q), 1, path, false, s.dev.time, 0, bytesLE 1 path ++ bytesLE 1 k ++ bytesLE 1 f.subc ++ bytesLE 1 f.code ++ f.header.take 6 ++ bytesLE 2 (unsign 16 f.power) ++ bytesLE 2 (unsign 16 f.freq) ++ timeBytesLE f.syncTime ++ List.replicate 6 0 ++ (sliceBytes payload 0 (fieldBE f.header 2 2))⟩ |>.2 with drone := { (s.dev.setFinger path k none).drone with items := [(⟨path, f.subc, f.code, fieldBE f.header 4 2, crc.toNat, s.dev.clock⟩ : ItemMark)] } }).bump Reg.RX_OK.run) s t) ∧
  (∀ (path : Fin 16) (k : Fin 4) (payload : List Byte) (crc : Word) (f : Finger) (s : State), s.Inv →
      s.dev.hubOn = true →
      s.dev.pathActive path = true →
      s.dev.finger path k = some f →
      f.body = true →
      f.header ≠ [] →
      crc32 (f.header ++ (sliceBytes payload 0 (fieldBE f.header 2 2))) = crc.toNat →
      2 ≤ fieldBE f.header 0 1 % 16 →
      ∃ t, exec (.fingerBodyEnd path k payload crc) s = .next t ∧ State.Settles ([(8, 5)]) ((s.dev.setFinger path k none).bump Reg.HDR_ERR.run) s t)

/-- Beacons verified into the neighbour table, and its entries aged.

The oldest waiting beacon whose signature or fields fail is counted in SIG_FAIL with E-08.08; a sound one with a counter no higher than the highest accepted for its key, and no duplicate, is a replay, likewise; a sound one of a new key is counted in BCN_OK, its counter kept, and fills the lowest free entry of the table with E-08.01. An entry not refreshed for AGE_S is cleared with E-08.01. An expected neighbour absent for AGE_S sets EXP_MISSING with E-08.03. -/
def Obligations.BeaconsAndNeighbours : Prop :=
  (∀ (b : Beacon) (r : List Beacon) (s : State), s.Inv →
      s.dev.hubOn = true →
      s.dev.on Reg.FINDER_STAT_BOOTED = true →
      s.dev.drone.beacons = b :: r →
      b.sound = false →
      ∃ t, exec (.beaconVerify) s = .next t ∧ State.Settles ([(8, 8)]) (({ s.dev with drone := { s.dev.drone with beacons := r } }).bump Reg.SIG_FAIL.run) s t) ∧
  (∀ (b : Beacon) (r : List Beacon) (m : KeyMark) (s : State), s.Inv →
      s.dev.hubOn = true →
      s.dev.on Reg.FINDER_STAT_BOOTED = true →
      s.dev.drone.beacons = b :: r →
      b.sound = true →
      s.dev.drone.keys.find? (fun x => decide (x.key = (sliceBytes b.payload 4 32))) = some m →
      fieldBE b.payload 56 8 ≤ m.counter →
      fieldBE b.payload 56 8 ≠ m.counter ∨ b.path ≠ otherPath m.path ∨ m.clock + oneSecond < b.clock →
      ∃ t, exec (.beaconVerify) s = .next t ∧ State.Settles ([(8, 8)]) (({ s.dev with drone := { s.dev.drone with beacons := r } }).bump Reg.REPLAY.run) s t) ∧
  (∀ (b : Beacon) (r : List Beacon) (i : Nat) (s : State), s.Inv →
      s.dev.hubOn = true →
      s.dev.on Reg.FINDER_STAT_BOOTED = true →
      s.dev.drone.beacons = b :: r →
      b.sound = true →
      s.dev.drone.keys.find? (fun x => decide (x.key = (sliceBytes b.payload 4 32))) = none →
      s.dev.nbrOf b.path (keyIdOf (sliceBytes b.payload 4 32)) = none →
      (List.range 128).find? (fun j => !s.dev.on (Reg.NBR_VALID j)) = some i →
      s.dev.on (Reg.NBR_EXP_EN (b.path % 8)) = false →
      b.path < 8 → s.dev.on (Reg.NBR_EXP_EN b.path) = false →
      b.wake = false →
      ∃ t, exec (.beaconVerify) s = .next t ∧ State.Settles ([(8, 1)]) (({ { s.dev with drone := { s.dev.drone with beacons := r } } with drone := { s.dev.drone with beacons := r, keys := (s.dev.drone.keys.filter fun m : KeyMark => decide (m.key ≠ (sliceBytes b.payload 4 32))) ++ [(⟨(sliceBytes b.payload 4 32), fieldBE b.payload 56 8, b.path, s.dev.clock⟩ : KeyMark)] } }.bump Reg.BCN_OK.run).nbrFill i b) s t) ∧
  (∀ (i : Fin 128) (s : State), s.Inv →
      s.dev.hubOn = true →
      s.dev.on (Reg.NBR_VALID i) = true →
      ∃ t, exec (.nbrAgeExpired i) s = .next t ∧ State.Settles ([(8, 1)]) ({ s.dev.setWords (tableCell tableNBR.id i 0) (List.replicate 12 0) with drone := { s.dev.drone with heard := sset (dflt 0) s.dev.drone.heard i 0 } }) s t) ∧
  (∀ (n : Fin 8) (s : State), s.Inv →
      s.dev.hubOn = true →
      s.dev.on (Reg.NBR_EXP_EN n) = true →
      s.dev.expHeard n = false →
      s.dev.on (missingBit n) = false →
      ∃ t, exec (.expMissingTimeout n) s = .next t ∧ State.Settles ([(8, 3)]) (s.dev.wr (missingBit n) 1) s t)

/-- Reference monitors, quality levels, agreement and the DPLL’s states.

A second’s readings go through every reference’s monitors and settle the selection, and the loop moves on (log 228); the loss of activity of a qualified reference clears ACT_OK and QUALIFIED, sets its REF_CHG bit and raises E-07.02; ESMC PDUs and their absence set the effective quality level, with E-07.05 where it changes, and a PDU takes what waits in its queue (the model’s reading, log 153); the agreement update is that of every pair; the reset commands clear a span failure and a DISSENT, with E-07.03. Lock, loss of lock and the holdover limit move the DPLL with E-07.00; history becomes valid with E-07.08; a bad XO sets FAIL with E-07.09, and a lost one stops the hub with E-01.06. -/
def Obligations.ReferencesAndDpll : Prop :=
  (∀ (tref : BitVec 4) (offsets : List Int) (phase : Int) (s : State), s.Inv →
      s.dev.hubOn = true →
      ∃ t, exec (.refMonitorUpdate tref offsets .found phase) s = .next t ∧ (
      let P : Dev := s.dev.wrS Reg.DPLL_PHASE_ERROR phase
      let freq : Int := P.rdS Reg.DPLL_FREQ_OFFSET
      State.Settles [] (((List.range 17).foldl (fun d r => d.refReading r (d.refActive tref r) (if 4 ≤ r ∧ r < 12 then d.clockOffset (r - 4) * 10000 + freq else match offsets[r]? with | some f => (if 12 ≤ r ∧ r < 16 then f + freq else f) | none => d.rdS (Reg.REF_FREQ r))) P).settleDpll.loopStep) s t)) ∧
  (∀ (r : Fin 17) (s : State), s.Inv →
      s.dev.hubOn = true →
      s.dev.on (Reg.REF_EN r) = true →
      s.dev.on (Reg.REF_QUALIFIED r) = true →
      ∃ t, exec (.refActivityLoss r) s = .next t ∧ State.Settles ([(7, 2)]) (((((s.dev.wr (Reg.REF_ACT_OK r) 0).setRef r { s.dev.ref r with passed := 0 }).wr (Reg.REF_QUALIFIED r) 0).wr ⟨Reg.REF_CHG_CHG.cell, r, 1⟩ 1).settleDpll) s t) ∧
  (∀ (s : State), s.Inv →
      s.dev.hubOn = true →
      ∃ t, exec (.refAgreeUpdate) s = .next t ∧ (
      let P : Dev := ((List.range 17).flatMap fun i => ((List.range 17).filter fun j => i < j).map fun j => (i, j)).foldl (fun (d : Dev) (p : Nat × Nat) => if d.on (Reg.REF_QUALIFIED p.1) ∧ (d.rankOf p.1).contains p.2 then d.agreeStep p.1 p.2 else d.setAgree p.1 p.2 { Agree.reset with disagrees := (d.agreeOf p.1 p.2).disagrees }) s.dev
      State.Settles [] ((fun (e : Dev) (marks : List Nat) => ((((List.range 17).zip marks).foldl (fun d m => (d.wrB (Reg.REF_DISSENT m.1) (m.2 = 1)).wrB (Reg.REF_DISAGREE m.1) (m.2 = 2)) e).raiseIf (((List.range 17).zip marks).any fun m => e.on (Reg.REF_DISSENT m.1) != decide (m.2 = 1) || e.on (Reg.REF_DISAGREE m.1) != decide (m.2 = 2)) 7 3).settleDpll) P ((List.range 17).map fun r => if P.on (Reg.REF_QUALIFIED r) then P.markOf r else (if P.on (Reg.REF_DISSENT r) then 1 else 0))) s t)) ∧
  (∀ (r : Fin 17) (pdu : List Byte) (ql : Nat) (s : State), s.Inv →
      s.dev.hubOn = true →
      s.dev.on (Reg.REF_QL_SRC r) = true →
      s.dev.serviceQueue (s.dev.rd (Reg.REF_ESMC_Q r)) = true →
      (s.dev.qu (s.dev.rd (Reg.REF_ESMC_Q r))).waiting = [] →
      esmcQl pdu = some ql →
      s.dev.rd (Reg.REF_QL_EFF r) ≠ ql →
      ∃ t, exec (.esmcPduReceive r pdu) s = .next t ∧ State.Settles ([(7, 5)]) ((s.dev.wr (Reg.REF_QL_EFF r) ql).settleDpll) s t) ∧
  (∀ (r : Fin 17) (pdu : List Byte) (s : State), s.Inv →
      s.dev.hubOn = true →
      (s.dev.qu (s.dev.rd (Reg.REF_ESMC_Q r))).waiting = [] →
      esmcQl pdu = none ∨ esmcQl pdu = some (s.dev.rd (Reg.REF_QL_EFF r)) →
      ∃ t, exec (.esmcPduReceive r pdu) s = .next t ∧ State.Settles [] (s.dev) s t) ∧
  (∀ (r : Fin 17) (pdu : List Byte) (q : Nat) (s : State), s.Inv →
      s.dev.hubOn = true →
      s.dev.on (Reg.REF_QL_SRC r) = true →
      q = s.dev.rd (Reg.REF_ESMC_Q r) →
      s.dev.serviceQueue q = true →
      (s.dev.qu q).waiting ≠ [] →
      esmcQl pdu = none ∨ esmcQl pdu = some (s.dev.rd (Reg.REF_QL_EFF r)) →
      s.dev.on (Reg.Q_STAT_ABOVE q) = false →
      ({ s.dev.qu q with waiting := [] } : Queue).occupied < s.dev.rd (Reg.Q_WM_HWM_KIB q) * 1024 →
      ∃ t, exec (.esmcPduReceive r pdu) s = .next t ∧ State.Settles [] ((s.dev.setQu q { s.dev.qu q with waiting := [] }).showQueue q) s t) ∧
  (∀ (r : Fin 17) (s : State), s.Inv →
      s.dev.hubOn = true →
      s.dev.on (Reg.REF_QL_SRC r) = true →
      s.dev.rd (Reg.REF_QL_EFF r) ≠ 15 →
      ∃ t, exec (.esmcTimeout r) s = .next t ∧ State.Settles ([(7, 5)]) ((s.dev.wr (Reg.REF_QL_EFF r) 15).settleDpll) s t) ∧
  (∀ (s : State), s.Inv →
      s.dev.dpll = dpllAcquire →
      s.dev.dpllReady = true →
      (s.dev.rdS Reg.DPLL_PHASE_ERROR).natAbs ≤ 10000 →
      s.dev.rd Reg.TIME_CTRL_SRC = 0 ∨ (s.dev.rdS Reg.TIME_OFFSET_PS).natAbs ≤ 1000 * s.dev.rd Reg.LOCK_CFG_TIME_TOL_NS →
      ∃ t, exec (.dpllLockAchieved) s = .next t ∧ State.Settles ([(7, 0)]) (((s.dev.wr Reg.DPLL_STAT_STATE dpllLocked).wr Reg.DPLL_STAT_QL_OUT (s.dev.rd (Reg.REF_QL_EFF (s.dev.rd Reg.DPLL_STAT_ACTIVE_REF)))).wr Reg.HO_STAT_ASSISTED 0) s t) ∧
  (∀ (s : State), s.Inv →
      s.dev.dpll = dpllLocked →
      100000 < (s.dev.rdS Reg.DPLL_PHASE_ERROR).natAbs ∨ (s.dev.rd Reg.TIME_CTRL_SRC ≠ 0 ∧ 4000 * s.dev.rd Reg.LOCK_CFG_TIME_TOL_NS < (s.dev.rdS Reg.TIME_OFFSET_PS).natAbs) →
      ∃ t, exec (.dpllLockLost) s = .next t ∧ State.Settles ([(7, 0)]) ((({ s.dev with sid := { s.dev.sid with ptpFirst := true, hoFreq := s.dev.holdMean } }.wr Reg.DPLL_STAT_STATE dpllAcquire).wr Reg.DPLL_STAT_QL_OUT (s.dev.rd Reg.HO_CFG_HO_QL)).wr Reg.HO_STAT_ASSISTED 0) s t) ∧
  (∀ (s : State), s.Inv →
      s.dev.dpll = dpllLocked →
      ∃ t, exec (.histValidSet) s = .next t ∧ State.Settles (if s.dev.on Reg.DPLL_STAT_HIST_VALID then [] else [(7, 8)]) (s.dev.wr Reg.DPLL_STAT_HIST_VALID 1) s t) ∧
  (∀ (s : State), s.Inv →
      s.dev.dpll = dpllHoldover →
      ∃ t, exec (.holdoverExpire) s = .next t ∧ State.Settles ([(7, 0)]) (((((s.dev.wr Reg.HO_STAT_ELAPSED_S ((s.dev.clock - s.dev.sid.hoSince) / 1000000000)).wr Reg.DPLL_STAT_STATE dpllExpired).wr Reg.DPLL_STAT_QL_OUT (s.dev.rd Reg.HO_CFG_HO_QL)).wr Reg.HO_STAT_ASSISTED 0).wrS Reg.DPLL_FREQ_OFFSET s.dev.sid.hoFreq) s t) ∧
  (∀ (ppb : Int) (s : State), s.Inv →
      s.dev.hubOn = true →
      ppb.natAbs ≤ 20000 →
      ∃ t, exec (.xoCheck ppb) s = .next t ∧ State.Settles [] (s.dev.wrS Reg.XO_STAT_OFFSET_PPB ppb) s t) ∧
  (∀ (ppb : Int) (s : State), s.Inv →
      s.dev.hubOn = true →
      20000 < ppb.natAbs →
      s.dev.on Reg.XO_STAT_FAIL = false →
      ∃ t, exec (.xoCheck ppb) s = .next t ∧ State.Settles ([(7, 9)]) (((s.dev.wrS Reg.XO_STAT_OFFSET_PPB ppb).wr Reg.XO_STAT_FAIL 1).settleDpll) s t) ∧
  (∀ (s : State), s.Inv →
      s.dev.hubOn = true →
      ∃ t, exec (.xoInLoss) s = .next t ∧ State.Settles ([(1, 6)]) ((({ s.dev.abandonDigital with power := { s.dev.power with xoLost := true } }.wr ⟨Reg.PLL_STAT_HUB.cell, 0, 8⟩ 0).bumpBy Reg.PLL_LOL_CNT (popCount 8 (getBits (s.dev.word Reg.PLL_STAT_HUB.cell) 0 8)))) s t) ∧
  (∀ (v : Word) (s : State), s.Inv →
      s.dev.pageLive (0x090) = true →
      s.dev.pageInTest (0x090) = false →
      v.getLsbD 6 = false →
      getBits v 0 5 ≤ 16 →
      s.dev.on (Reg.REF_QUALIFIED (getBits v 0 5)) = false →
      ∃ t, exec (.refResetSpan v) s = .next t ∧ State.Settles [] ((s.dev.writeWord 0x090 0x070 0x60 (v ||| 0x20)).setRef (getBits v 0 5) { s.dev.ref (getBits v 0 5) with spanBad := false, hasQ := false }) s t) ∧
  (∀ (v : Word) (s : State), s.Inv →
      s.dev.pageLive (0x090) = true →
      s.dev.pageInTest (0x090) = false →
      v.getLsbD 6 = false →
      getBits v 0 5 ≤ 16 →
      s.dev.on (Reg.REF_QUALIFIED (getBits v 0 5)) = true →
      ∃ t, exec (.refResetSpan v) s = .next t ∧ State.Settles [] (s.dev.writeWord 0x090 0x070 0x60 (v ||| 0x20)) s t) ∧
  (∀ (v : Word) (s : State), s.Inv →
      s.dev.pageLive (0x090) = true →
      s.dev.pageInTest (0x090) = false →
      16 < getBits v 0 5 →
      ∃ t, exec (.refResetSpan v) s = .next t ∧ State.Settles ([(7, 11)]) (((s.dev.writeWord 0x090 0x070 0x60 (v ||| 0x20)).viol 0x090).oneViol (0x090) (s.dev.hdr (0x090)).viol) s t) ∧
  (∀ (v : Word) (s : State), s.Inv →
      s.dev.pageLive (0x090) = true →
      s.dev.pageInTest (0x090) = false →
      v.getLsbD 5 = false →
      getBits v 0 5 ≤ 16 →
      ∃ t, exec (.refResetDissent v) s = .next t ∧ State.Settles (if s.dev.on (Reg.REF_DISSENT (getBits v 0 5)) then [(7, 3)] else []) ((((List.range 17).foldl (fun d q => (d.setAgree (getBits v 0 5) q Agree.reset).setAgree q (getBits v 0 5) Agree.reset) (s.dev.writeWord 0x090 0x070 0x60 (v ||| 0x40))).wr (Reg.REF_DISSENT (getBits v 0 5)) 0).settleDpll) s t)

/-- The commands on TIME and PACE, the 1PPS edge and PTP measurements.

SNAP latches TIME and the Finder’s FTIME; SET makes TIME the programmed instant and STEP adds the programmed amount, both at once, dropping a slew, PACE moving with TIME where R329 lets it, PACE_OFF showing their difference, E-07.06, and E-07.07 where the difference has become non-zero; SLEW starts one; TOD waits for the next 1PPS edge where SRC = 2 and is refused with E-07.11 otherwise; ALIGN and its jump begin, and end, PACE being TIME, with E-07.07; a slew ends where nothing of it is left. The awaited edge sets TIME; another shows TIME_OFFSET and, while TIME has its source and the DPLL follows, is taken off TIME by a slew (the model’s reading, log 229). The messages of a PTP exchange give its instants: offset and mean path delay are shown and the DPLL settles; messages that give none change nothing. -/
def Obligations.TimeAndPace : Prop :=
  (∀ (s : State), s.Inv →
      s.dev.pageLive (0x092) = true →
      s.dev.pageInTest (0x092) = false →
      ∃ t, exec (.timeSnap) s = .next t ∧ State.Settles [] (((((((s.dev.writeWord 0x092 0x048 0x7F 1)).wr Reg.TIME_NS_NS (s.dev.time / 65536 % 1000000000)).wr Reg.TIME_FRAC_FRAC (s.dev.time % 65536)).wr Reg.TIME_SEC_LO_SEC (s.dev.time / 65536 / 1000000000 % 2 ^ 32)).wr Reg.TIME_SEC_HI_SEC (s.dev.time / 65536 / 1000000000 / 2 ^ 32)).wr Reg.HK_FTIME_SNAP_US (s.dev.clock / 1000)) s t) ∧
  (∀ (s : State), s.Inv →
      s.dev.pageLive (0x092) = true →
      s.dev.pageInTest (0x092) = false →
      ∃ t, exec (.timeSet) s = .next t ∧ State.Settles (if s.dev.paceFree = false ∧ s.dev.paceOffset = 0 ∧ ({ s.dev with time := (((s.dev.time : Int) + (((((s.dev.rd Reg.TIME_SET_SEC_LO + 2 ^ 32 * s.dev.rd Reg.TIME_SET_SEC_HI) * 1000000000 + s.dev.rd Reg.TIME_SET_NS) * 65536) : Nat) - s.dev.time) : Int) % timeModulus).toNat } : Dev).paceOffset ≠ 0 then [(7, 6), (7, 7)] else [(7, 6)]) ((fun e : Dev => e.wr64 Reg.PACE_OFF_LO (unsign 64 e.paceOffset)) { ({ (s.dev.writeWord 0x092 0x048 0x7F 2) with sid := { s.dev.sid with slew := 0, slewRest := 0 } }).wrS Reg.TIME_STAT_SLEW_REMAIN 0 with time := (((s.dev.time : Int) + (((((s.dev.rd Reg.TIME_SET_SEC_LO + 2 ^ 32 * s.dev.rd Reg.TIME_SET_SEC_HI) * 1000000000 + s.dev.rd Reg.TIME_SET_NS) * 65536) : Nat) - s.dev.time) : Int) % timeModulus).toNat, pace := if s.dev.paceFree then (((s.dev.pace : Int) + (((((s.dev.rd Reg.TIME_SET_SEC_LO + 2 ^ 32 * s.dev.rd Reg.TIME_SET_SEC_HI) * 1000000000 + s.dev.rd Reg.TIME_SET_NS) * 65536) : Nat) - s.dev.time) : Int) % timeModulus).toNat else s.dev.pace }) s t) ∧
  (∀ (s : State), s.Inv →
      s.dev.pageLive (0x092) = true →
      s.dev.pageInTest (0x092) = false →
      s.dev.paceFree = true ∨ (-(2 ^ 63) ≤ s.dev.paceOffset + s.dev.rdS Reg.TIME_ADJ_NS * 65536 ∧ s.dev.paceOffset + s.dev.rdS Reg.TIME_ADJ_NS * 65536 < 2 ^ 63) →
      ∃ t, exec (.timeStep) s = .next t ∧ State.Settles (if s.dev.paceFree = false ∧ s.dev.paceOffset = 0 ∧ ({ s.dev with time := (((s.dev.time : Int) + s.dev.rdS Reg.TIME_ADJ_NS * 65536 : Int) % timeModulus).toNat } : Dev).paceOffset ≠ 0 then [(7, 6), (7, 7)] else [(7, 6)]) ((fun e : Dev => e.wr64 Reg.PACE_OFF_LO (unsign 64 e.paceOffset)) { ({ (s.dev.writeWord 0x092 0x048 0x7F 4) with sid := { s.dev.sid with slew := 0, slewRest := 0 } }).wrS Reg.TIME_STAT_SLEW_REMAIN 0 with time := (((s.dev.time : Int) + s.dev.rdS Reg.TIME_ADJ_NS * 65536 : Int) % timeModulus).toNat, pace := if s.dev.paceFree then (((s.dev.pace : Int) + s.dev.rdS Reg.TIME_ADJ_NS * 65536 : Int) % timeModulus).toNat else s.dev.pace }) s t) ∧
  (∀ (s : State), s.Inv →
      s.dev.pageLive (0x092) = true →
      s.dev.pageInTest (0x092) = false →
      s.dev.paceFree = false →
      s.dev.paceOffset + s.dev.rdS Reg.TIME_ADJ_NS * 65536 < -(2 ^ 63) ∨ 2 ^ 63 ≤ s.dev.paceOffset + s.dev.rdS Reg.TIME_ADJ_NS * 65536 →
      ∃ t, exec (.timeStep) s = .next t ∧ State.Settles ([(7, 11)]) (((s.dev.writeWord 0x092 0x048 0x7F 4).viol 0x092).oneViol (0x092) (s.dev.hdr (0x092)).viol) s t) ∧
  (∀ (s : State), s.Inv →
      s.dev.pageLive (0x092) = true →
      s.dev.pageInTest (0x092) = false →
      ∃ t, exec (.timeSlew) s = .next t ∧ State.Settles [] (({ (s.dev.writeWord 0x092 0x048 0x7F 8) with sid := { s.dev.sid with slew := s.dev.rdS Reg.TIME_ADJ_NS * 65536, slewRest := if s.dev.rdS Reg.TIME_ADJ_NS * 65536 = 0 then 0 else s.dev.sid.slewRest } }).wrS Reg.TIME_STAT_SLEW_REMAIN (s.dev.rdS Reg.TIME_ADJ_NS)) s t) ∧
  (∀ (s : State), s.Inv →
      s.dev.hubOn = true →
      s.dev.sid.slew = 0 →
      ∃ t, exec (.timeSlewDone) s = .next t ∧ State.Settles [] (({ s.dev with sid := { s.dev.sid with slew := 0, slewRest := 0 } }).wrS Reg.TIME_STAT_SLEW_REMAIN 0) s t) ∧
  (∀ (s : State), s.Inv →
      s.dev.sid.slew ≠ 0 →
      ∃ t, exec (.timeSlewDone) s = .next t ∧ State.Settles [] (s.dev) s t) ∧
  (∀ (s : State), s.Inv →
      s.dev.pageLive (0x092) = true →
      s.dev.pageInTest (0x092) = false →
      s.dev.rd Reg.TIME_CTRL_SRC = 2 →
      ∃ t, exec (.timeTod) s = .next t ∧ State.Settles [] ((fun e : Dev => { e with sid := { e.sid with tod := some (s.dev.rd Reg.TIME_SET_SEC_LO + 2 ^ 32 * s.dev.rd Reg.TIME_SET_SEC_HI) } }) (({ (s.dev.writeWord 0x092 0x048 0x7F 0x10) with sid := { s.dev.sid with slew := 0, slewRest := 0 } }).wrS Reg.TIME_STAT_SLEW_REMAIN 0)) s t) ∧
  (∀ (s : State), s.Inv →
      s.dev.pageLive (0x092) = true →
      s.dev.pageInTest (0x092) = false →
      s.dev.rd Reg.TIME_CTRL_SRC ≠ 2 →
      ∃ t, exec (.timeTod) s = .next t ∧ State.Settles ([(7, 11)]) (((s.dev.writeWord 0x092 0x048 0x7F 0x10).viol 0x092).oneViol (0x092) (s.dev.hdr (0x092)).viol) s t) ∧
  (∀ (s : State), s.Inv →
      s.dev.pageLive (0x092) = true →
      s.dev.pageInTest (0x092) = false →
      ∃ t, exec (.timeAlign) s = .next t ∧ State.Settles [] ({ (s.dev.writeWord 0x092 0x048 0x7F 0x20) with sid := { s.dev.sid with aligning := true, jump := false, alignRest := 0 } }) s t) ∧
  (∀ (s : State), s.Inv →
      s.dev.pageLive (0x092) = true →
      s.dev.pageInTest (0x092) = false →
      ∃ t, exec (.timeAlignJump) s = .next t ∧ State.Settles [] ({ (s.dev.writeWord 0x092 0x048 0x7F 0x60) with sid := { s.dev.sid with aligning := false, jump := true, alignRest := 0 } }) s t) ∧
  (∀ (s : State), s.Inv →
      s.dev.hubOn = true →
      s.dev.sid.aligning = true ∨ s.dev.sid.jump = true →
      s.dev.pace = s.dev.time →
      ∃ t, exec (.alignComplete) s = .next t ∧ State.Settles ([(7, 7)]) ({ s.dev with sid := { s.dev.sid with aligning := false, jump := false, alignRest := 0 } }.wr64 Reg.PACE_OFF_LO 0) s t) ∧
  (∀ (seen : Nat) (sec : Nat) (s : State), s.Inv →
      s.dev.hubOn = true →
      s.dev.rd Reg.TIME_CTRL_SRC = 2 →
      s.dev.sid.tod = some sec →
      ∃ t, exec (.tref1ppsEdge seen) s = .next t ∧ State.Settles (if s.dev.paceFree = false ∧ s.dev.paceOffset = 0 ∧ ({ s.dev with time := (((s.dev.time : Int) + ((sec * 1000000000 * 65536 : Nat) - ((seen : Int) - (s.dev.rdS (Reg.REF_CABLE_PS (s.dev.rd Reg.TIME_CTRL_SRC_REF)) * 65536 / 1000 + sget (dflt 0) s.dev.sid.pinIn (s.dev.rd Reg.TIME_CTRL_SRC_REF)))) : Int) % timeModulus).toNat } : Dev).paceOffset ≠ 0 then [(7, 6), (7, 7)] else [(7, 6)]) ((fun e : Dev => e.wr64 Reg.PACE_OFF_LO (unsign 64 e.paceOffset)) { { s.dev with sid := { s.dev.sid with tod := none } } with time := (((s.dev.time : Int) + ((sec * 1000000000 * 65536 : Nat) - ((seen : Int) - (s.dev.rdS (Reg.REF_CABLE_PS (s.dev.rd Reg.TIME_CTRL_SRC_REF)) * 65536 / 1000 + sget (dflt 0) s.dev.sid.pinIn (s.dev.rd Reg.TIME_CTRL_SRC_REF)))) : Int) % timeModulus).toNat, pace := if s.dev.paceFree then (((s.dev.pace : Int) + ((sec * 1000000000 * 65536 : Nat) - ((seen : Int) - (s.dev.rdS (Reg.REF_CABLE_PS (s.dev.rd Reg.TIME_CTRL_SRC_REF)) * 65536 / 1000 + sget (dflt 0) s.dev.sid.pinIn (s.dev.rd Reg.TIME_CTRL_SRC_REF)))) : Int) % timeModulus).toNat else s.dev.pace }) s t) ∧
  (∀ (seen : Nat) (s : State), s.Inv →
      s.dev.hubOn = true →
      s.dev.rd Reg.TIME_CTRL_SRC = 2 →
      s.dev.sid.tod = none →
      ∃ t, exec (.tref1ppsEdge seen) s = .next t ∧ (
      let off : Int := if 32768000000000 ≤ (((seen : Int) - (s.dev.rdS (Reg.REF_CABLE_PS (s.dev.rd Reg.TIME_CTRL_SRC_REF)) * 65536 / 1000 + sget (dflt 0) s.dev.sid.pinIn (s.dev.rd Reg.TIME_CTRL_SRC_REF))) % 65536000000000) then (((seen : Int) - (s.dev.rdS (Reg.REF_CABLE_PS (s.dev.rd Reg.TIME_CTRL_SRC_REF)) * 65536 / 1000 + sget (dflt 0) s.dev.sid.pinIn (s.dev.rd Reg.TIME_CTRL_SRC_REF))) % 65536000000000) - 65536000000000 else (((seen : Int) - (s.dev.rdS (Reg.REF_CABLE_PS (s.dev.rd Reg.TIME_CTRL_SRC_REF)) * 65536 / 1000 + sget (dflt 0) s.dev.sid.pinIn (s.dev.rd Reg.TIME_CTRL_SRC_REF))) % 65536000000000)
      let X : Dev := s.dev.wrS Reg.TIME_OFFSET_PS (off * 1000 / 65536)
      State.Settles [] (if X.timeSource = true ∧ (X.dpll = dpllAcquire ∨ X.dpll = dpllLocked) then { X with sid := { s.dev.sid with slew := -off, slewRest := if off = 0 then 0 else s.dev.sid.slewRest } }.wrS Reg.TIME_STAT_SLEW_REMAIN (-off / 65536) else X) s t)) ∧
  (∀ (servo : PtpServo) (sync follow resp : List Byte) (own : PtpStamps) (t1 t4 : Int) (s : State), s.Inv →
      s.dev.hubOn = true →
      s.dev.on Reg.PTP_CFG_EN = true →
      s.dev.serviceQueue (s.dev.rd Reg.PTP_CFG_QUEUE) = true →
      (s.dev.qu (s.dev.rd Reg.PTP_CFG_QUEUE)).waiting = [] →
      ptpTimes (s.dev.rd Reg.PTP_CFG_DOMAIN) sync follow resp = some (t1, t4) →
      s.dev.rd Reg.TIME_CTRL_SRC ≠ 1 →
      ∃ t, exec (.ptpEventMessage servo sync follow resp own) s = .next t ∧ State.Settles (if s.dev.rd Reg.PTP_STAT_SERVO = servoCode servo then [] else [(7, 12)]) (((((s.dev.wr Reg.PTP_STAT_SERVO (servoCode servo)).wrS Reg.PTP_OFFSET_PS ((((own.sync - t1) - (t4 - own.delayReq)) / 2) * 1000 / 65536)).wrS Reg.PTP_MPD_PS (((own.sync - t1) + (t4 - own.delayReq)) / 2 * 1000 / 65536)).settleDpll).delayReq) s t) ∧
  (∀ (servo : PtpServo) (sync follow resp : List Byte) (own : PtpStamps) (t1 t4 : Int) (s : State), s.Inv →
      s.dev.hubOn = true →
      s.dev.on Reg.PTP_CFG_EN = true →
      s.dev.serviceQueue (s.dev.rd Reg.PTP_CFG_QUEUE) = true →
      (s.dev.qu (s.dev.rd Reg.PTP_CFG_QUEUE)).waiting = [] →
      ptpTimes (s.dev.rd Reg.PTP_CFG_DOMAIN) sync follow resp = some (t1, t4) →
      s.dev.rd Reg.TIME_CTRL_SRC = 1 →
      s.dev.sid.ptpFirst = false →
      ∃ t, exec (.ptpEventMessage servo sync follow resp own) s = .next t ∧ State.Settles (if s.dev.rd Reg.PTP_STAT_SERVO = servoCode servo then [] else [(7, 12)]) ((({ (((s.dev.wr Reg.PTP_STAT_SERVO (servoCode servo)).wrS Reg.PTP_OFFSET_PS ((((own.sync - t1) - (t4 - own.delayReq)) / 2) * 1000 / 65536)).wrS Reg.PTP_MPD_PS (((own.sync - t1) + (t4 - own.delayReq)) / 2 * 1000 / 65536)).wrS Reg.TIME_OFFSET_PS ((((own.sync - t1) - (t4 - own.delayReq)) / 2) * 1000 / 65536) with sid := { s.dev.sid with ptpFirst := false, slew := -(((own.sync - t1) - (t4 - own.delayReq)) / 2), slewRest := if (((own.sync - t1) - (t4 - own.delayReq)) / 2) = 0 then 0 else s.dev.sid.slewRest } }).wrS Reg.TIME_STAT_SLEW_REMAIN (-(((own.sync - t1) - (t4 - own.delayReq)) / 2) / 65536)).settleDpll.delayReq) s t) ∧
  (∀ (servo : PtpServo) (sync follow resp : List Byte) (own : PtpStamps) (s : State), s.Inv →
      s.dev.hubOn = true →
      s.dev.on Reg.PTP_CFG_EN = true →
      s.dev.serviceQueue (s.dev.rd Reg.PTP_CFG_QUEUE) = true →
      (s.dev.qu (s.dev.rd Reg.PTP_CFG_QUEUE)).waiting = [] →
      ptpTimes (s.dev.rd Reg.PTP_CFG_DOMAIN) sync follow resp = none →
      ∃ t, exec (.ptpEventMessage servo sync follow resp own) s = .next t ∧ State.Settles [] (s.dev) s t)

/-- Foreground, background and system calibration of the converters, and commissioning calibration.

FG_RUN starts a pass of each idle class whose record has none under way, and is refused with E-09.09 where no class is idle; a pass that fails ends with its cause, one that completes writes the record and sets its valid bit, E-09.00; a background pass writes the values tracked. GO of an idle class begins step 1; a step’s end stores its codes and levels and leads to the next; a timeout ends in FAIL with cause 4, E-09.05. CAL_CTRL’s operations begin where they may; a receive loop within 10 µs stores its delay and ends DONE, one beyond FAIL, with E-07.10. -/
def Obligations.ConverterCalibration : Prop :=
  (∀ (n : Fin 8) (v : Word) (s : State), s.Inv →
      s.dev.pageLive (0x0B2) = true →
      s.dev.pageInTest (0x0B2) = false →
      s.dev.lineOn n = true →
      (lineBlocks n).any s.dev.bist.run.contains = false →
      [n.val, 8 + n.val].filter s.dev.classIdle ≠ [] →
      ∃ t, exec (.lcalFgRun n v) s = .next t ∧ State.Settles [] ((([n.val, 8 + n.val].filter s.dev.classIdle).filter fun r => decide ((s.dev.record r).kind = 0)).foldl (fun d r => d.fgStart r) (s.dev.writeWord 0x0B2 (0x040 + 4 * n.val) 2 (v ||| 2))) s t) ∧
  (∀ (n : Fin 8) (v : Word) (s : State), s.Inv →
      s.dev.pageLive (0x0B2) = true →
      s.dev.pageInTest (0x0B2) = false →
      (lineBlocks n).any s.dev.bist.run.contains = false →
      [n.val, 8 + n.val].filter s.dev.classIdle = [] →
      ∃ t, exec (.lcalFgRun n v) s = .next t ∧ State.Settles ([(9, 9)]) (((s.dev.writeWord 0x0B2 (0x040 + 4 * n.val) 2 (v ||| 2)).viol 0x0B2).oneViol (0x0B2) (s.dev.hdr (0x0B2)).viol) s t) ∧
  (∀ (n : Fin 8) (dac : Bool) (cause : Fin 3) (lanes : List (Int × Int)) (values : List Int) (tt : Int) (s : State), s.Inv →
      (s.dev.record (lineRecord n dac)).kind = 1 →
      cause ≠ 0 →
      ∃ t, exec (.lcalFgComplete n dac cause lanes values tt) s = .next t ∧ State.Settles ([(9, 0)]) (((s.dev.runFailed (lineRecord n dac)).wr (Reg.LCAL_STAT_FG_CAUSE n) cause).showLcal n) s t) ∧
  (∀ (n : Fin 8) (lanes : List (Int × Int)) (values : List Int) (tt : Int) (s : State), s.Inv →
      (s.dev.record n).kind = 1 →
      ∃ t, exec (.lcalFgComplete n false 0 lanes values tt) s = .next t ∧ State.Settles ([(9, 0)]) ((((s.dev.runDone n { (s.dev.record n).vals with fore := lanes.map fun p => ⟨p.1, p.2⟩, tracked := lanes.map fun p => ⟨p.1, p.2⟩, other := values } true tt).wr (Reg.LCAL_STAT_ADC_VALID n) 1).showLcal n).adcCalValid n) s t) ∧
  (∀ (n : Fin 8) (dac drift : Bool) (values : LineTracked) (tt : Int) (s : State), s.Inv →
      s.dev.hubOn = true →
      s.dev.lineOn n = true →
      (s.dev.record (lineRecord n dac)).kind = 2 →
      ∃ t, exec (.lcalBgComplete n dac values drift tt) s = .next t ∧ State.Settles [] ((fun e : Dev => (e.setRecord (lineRecord n dac) { e.record (lineRecord n dac) with drift := (e.record (lineRecord n dac)).drift || drift }).showLcal n) (s.dev.runDone (lineRecord n dac) { (s.dev.record (lineRecord n dac)).vals with tracked := if s.dev.on (Reg.LCAL_CTRL_MODE n) then (s.dev.record (lineRecord n dac)).vals.tracked else values.lanes.map fun p => ⟨p.1, p.2⟩, other := values.others } false tt)) s t) ∧
  (∀ (v : Word) (sums : List Int) (tt : Int) (s : State), s.Inv →
      s.dev.pageLive (0x0B2) = true →
      s.dev.pageInTest (0x0B2) = false →
      v.getLsbD 5 = false →
      s.dev.on Reg.LCAL_SYS_BUSY = false →
      s.dev.lineOn ((s.dev.writeWord 0x0B2 0x080 0x30 (v ||| 0x10)).rd Reg.LCAL_SYS_ENGINE) = true →
      s.dev.classIdle (lineRecord ((s.dev.writeWord 0x0B2 0x080 0x30 (v ||| 0x10)).rd Reg.LCAL_SYS_ENGINE) ((s.dev.writeWord 0x0B2 0x080 0x30 (v ||| 0x10)).on Reg.LCAL_SYS_TARGET)) = true →
      ∃ t, exec (.lcalSysGo v sums tt) s = .next t ∧ State.Settles [] (((((({ (s.dev.writeWord 0x0B2 0x080 0x30 (v ||| 0x10)) with col := { s.dev.col with sysCal := some ⟨(s.dev.writeWord 0x0B2 0x080 0x30 (v ||| 0x10)).rd Reg.LCAL_SYS_ENGINE, (s.dev.writeWord 0x0B2 0x080 0x30 (v ||| 0x10)).on Reg.LCAL_SYS_TARGET, s.dev.word Reg.CAL_TRACE_TRACE_ID.cell, [], []⟩ } }).wr Reg.LCAL_SYS_DONE 0).wr Reg.LCAL_SYS_FAIL 0).wr Reg.LCAL_SYS_CAUSE 0).wr Reg.LCAL_SYS_BUSY 1).wr Reg.LCAL_SYS_STEP 1) s t) ∧
  (∀ (v : Word) (sums : List Int) (tt : Int) (x : SysCal) (s : State), s.Inv →
      s.dev.pageLive (0x0B2) = true →
      s.dev.pageInTest (0x0B2) = false →
      v.getLsbD 4 = false →
      s.dev.col.sysCal = some x →
      s.dev.rd Reg.LCAL_SYS_STEP < 3 →
      s.dev.classIdle (lineRecord x.engine x.dac) = true →
      x.dac = true ∨ ((List.range 4).map fun k => (sums[k]?).getD 0).any (codeBad (s.dev.rd Reg.LCAL_SYS_STEP)) = false →
      ∃ t, exec (.lcalSysStepDone v sums tt) s = .next t ∧ State.Settles [] (({ (s.dev.writeWord 0x0B2 0x080 0x30 (v ||| 0x20)) with col := { s.dev.col with sysCal := some { x with codes := x.codes ++ [(List.range 4).map fun k => if x.dac then (if s.dev.rd Reg.LCAL_SYS_STEP = 1 then 0 else if s.dev.rd Reg.LCAL_SYS_STEP = 2 then 112 else -112) * oneCode else (sums[k]?).getD 0], levels := x.levels ++ [(List.range 4).map fun k => s.dev.rdS (Reg.LCAL_LEVEL_UV k)] } } }).wr Reg.LCAL_SYS_STEP (s.dev.rd Reg.LCAL_SYS_STEP + 1)) s t) ∧
  (∀ (s : State), s.Inv →
      s.dev.on Reg.LCAL_SYS_BUSY = true →
      ∃ t, exec (.lcalSysTimeout) s = .next t ∧ State.Settles ([(9, 5)]) (((({ s.dev with col := { s.dev.col with sysCal := none } }.wr Reg.LCAL_SYS_BUSY 0).wr Reg.LCAL_SYS_STEP 0).wr Reg.LCAL_SYS_FAIL 1).wr Reg.LCAL_SYS_CAUSE 4) s t) ∧
  (∀ (v : Word) (s : State), s.Inv →
      s.dev.pageLive (0x093) = true →
      s.dev.pageInTest (0x093) = false →
      s.dev.on Reg.CAL_CTRL_BUSY = false →
      ∃ t, exec (.calPinLoop v) s = .next t ∧ State.Settles [] ((({ (s.dev.writeWord 0x093 0x040 0x400 ((v &&& ~~~ 3) ||| 0x401)) with col := { s.dev.col with commission := some ⟨1, (s.dev.writeWord 0x093 0x040 0x400 ((v &&& ~~~ 3) ||| 0x401)).rd Reg.CAL_CTRL_ENGINE, (s.dev.writeWord 0x093 0x040 0x400 ((v &&& ~~~ 3) ||| 0x401)).rd Reg.CAL_CTRL_OUT, (s.dev.writeWord 0x093 0x040 0x400 ((v &&& ~~~ 3) ||| 0x401)).rd Reg.CAL_CTRL_IN, s.dev.word Reg.CAL_TRACE_TRACE_ID.cell⟩ } }.wr Reg.CAL_CTRL_BUSY 1).wr Reg.CAL_CTRL_DONE 0).wr Reg.CAL_CTRL_FAIL 0) s t) ∧
  (∀ (v : Word) (s : State), s.Inv →
      s.dev.pageLive (0x093) = true →
      s.dev.pageInTest (0x093) = false →
      s.dev.on Reg.CAL_CTRL_BUSY = false →
      s.dev.dpll = dpllLocked →
      s.dev.rd Reg.TIME_CTRL_SRC = 2 →
      s.dev.on (Reg.TX_CTRL_ENABLE ((s.dev.writeWord 0x093 0x040 0x400 ((v &&& ~~~ 3) ||| 0x402)).rd Reg.CAL_CTRL_ENGINE)) = true →
      s.dev.on (Reg.RX_CTRL_ENABLE ((s.dev.writeWord 0x093 0x040 0x400 ((v &&& ~~~ 3) ||| 0x402)).rd Reg.CAL_CTRL_ENGINE)) = true →
      ∃ t, exec (.calTxMark v) s = .next t ∧ State.Settles [] ((({ (s.dev.writeWord 0x093 0x040 0x400 ((v &&& ~~~ 3) ||| 0x402)) with col := { s.dev.col with commission := some ⟨2, (s.dev.writeWord 0x093 0x040 0x400 ((v &&& ~~~ 3) ||| 0x402)).rd Reg.CAL_CTRL_ENGINE, (s.dev.writeWord 0x093 0x040 0x400 ((v &&& ~~~ 3) ||| 0x402)).rd Reg.CAL_CTRL_OUT, (s.dev.writeWord 0x093 0x040 0x400 ((v &&& ~~~ 3) ||| 0x402)).rd Reg.CAL_CTRL_IN, s.dev.word Reg.CAL_TRACE_TRACE_ID.cell⟩ } }.wr Reg.CAL_CTRL_BUSY 1).wr Reg.CAL_CTRL_DONE 0).wr Reg.CAL_CTRL_FAIL 0) s t) ∧
  (∀ (v : Word) (s : State), s.Inv →
      s.dev.pageLive (0x093) = true →
      s.dev.pageInTest (0x093) = false →
      s.dev.on Reg.CAL_CTRL_BUSY = false →
      s.dev.dpll = dpllLocked →
      s.dev.rd Reg.TIME_CTRL_SRC = 2 →
      s.dev.on (Reg.TX_CTRL_ENABLE ((s.dev.writeWord 0x093 0x040 0x400 ((v &&& ~~~ 3) ||| 0x403)).rd Reg.CAL_CTRL_ENGINE)) = true →
      s.dev.on (Reg.RX_CTRL_ENABLE ((s.dev.writeWord 0x093 0x040 0x400 ((v &&& ~~~ 3) ||| 0x403)).rd Reg.CAL_CTRL_ENGINE)) = true →
      ∃ t, exec (.calRxLoop v) s = .next t ∧ State.Settles [] ((({ (s.dev.writeWord 0x093 0x040 0x400 ((v &&& ~~~ 3) ||| 0x403)) with col := { s.dev.col with commission := some ⟨3, (s.dev.writeWord 0x093 0x040 0x400 ((v &&& ~~~ 3) ||| 0x403)).rd Reg.CAL_CTRL_ENGINE, (s.dev.writeWord 0x093 0x040 0x400 ((v &&& ~~~ 3) ||| 0x403)).rd Reg.CAL_CTRL_OUT, (s.dev.writeWord 0x093 0x040 0x400 ((v &&& ~~~ 3) ||| 0x403)).rd Reg.CAL_CTRL_IN, s.dev.word Reg.CAL_TRACE_TRACE_ID.cell⟩ } }.wr Reg.CAL_CTRL_BUSY 1).wr Reg.CAL_CTRL_DONE 0).wr Reg.CAL_CTRL_FAIL 0) s t) ∧
  (∀ (v : Word) (s : State), s.Inv →
      s.dev.pageLive (0x093) = true →
      s.dev.pageInTest (0x093) = false →
      s.dev.on Reg.CAL_CTRL_BUSY = true →
      ∃ t, exec (.calPinLoop v) s = .next t ∧ State.Settles ([(7, 11)]) (((s.dev.writeWord 0x093 0x040 0x400 ((v &&& ~~~ 3) ||| 0x401)).viol 0x093).oneViol (0x093) (s.dev.hdr (0x093)).viol) s t) ∧
  (∀ (measured tt : Int) (c : Commission) (s : State), s.Inv →
      s.dev.col.commission = some c →
      c.op = 3 →
      (measured - psTo16 (s.dev.rd Reg.CAL_LOOP_PS_PS)).natAbs ≤ calLimit →
      ∃ t, exec (.calComplete measured tt) s = .next t ∧ State.Settles ([(7, 10)]) (((((fun e : Dev => (e.runDone (18 + c.engine) { (s.dev.record (18 + c.engine)).vals with other := [(s.dev.record (18 + c.engine)).vals.get 0, measured - psTo16 (s.dev.rd Reg.CAL_LOOP_PS_PS)] ++ (s.dev.record (18 + c.engine)).vals.other.drop 2 } false tt)) (({ s.dev with col := { s.dev.col with commission := none } }).setSource (18 + c.engine) 2 (some c.trace))).wr Reg.CAL_CTRL_BUSY 0).wr Reg.CAL_CTRL_DONE 1).wr Reg.CAL_CTRL_FAIL 0) s t) ∧
  (∀ (measured tt : Int) (c : Commission) (s : State), s.Inv →
      s.dev.col.commission = some c →
      c.op = 3 →
      calLimit < (measured - psTo16 (s.dev.rd Reg.CAL_LOOP_PS_PS)).natAbs →
      ∃ t, exec (.calComplete measured tt) s = .next t ∧ State.Settles ([(7, 10)]) (((({ s.dev with col := { s.dev.col with commission := none } }).wr Reg.CAL_CTRL_BUSY 0).wr Reg.CAL_CTRL_DONE 0).wr Reg.CAL_CTRL_FAIL 1) s t)

/-- Housekeeping scans and calibrations, and the store and re-runs of the Collimation records.

A scan starts with the sets that wait for it put in force; one that ends with both references plausible writes its entries to the buffer and, while the HBM serves, to their place in the mirror, and HK_LAST, and advances SCAN. A calibration asked for runs, one converter at a time; one that fails counts nothing and shows CAL_FAIL with E-09.08; CLEAR_FAULT releases the latched faults. A dirty record due is queued to be stored; a store that ends well replaces its copy, counts, and shows its check and GEN, one that does not leaves the record dirty and its copy void (the model’s reading, log 232), E-09.01. A record that has moved in temperature is run again with E-09.03. -/
def Obligations.HousekeepingAndRecordStore : Prop :=
  (∀ (s : State), s.Inv →
      s.dev.on Reg.HK_CTRL_EN = true →
      s.dev.on Reg.FINDER_STAT_BOOTED = true →
      ∃ t, exec (.hkScanStart) s = .next t ∧ State.Settles [] ((fun e : Dev => { e with col := { e.col with scan := some (s.dev.clock / 1000 % 2 ^ 32) } }) (s.dev.colApply .scan)) s t) ∧
  (∀ (codes0 codes1 : List Nat) (ftime : Nat) (s : State), s.Inv →
      s.dev.col.scan = some ftime →
      s.dev.col.cals = [] →
      s.dev.pwr = pwrRun →
      s.dev.hubOn = true →
      s.dev.col.behind = false →
      s.dev.on Reg.HK_STAT_BUSY0 = false →
      s.dev.on Reg.HK_STAT_BUSY1 = false →
      s.dev.on Reg.HK_STAT_FAULT0 = false →
      s.dev.on Reg.HK_STAT_FAULT1 = false →
      s.dev.rd Reg.HK_EN0_EN = 0 →
      s.dev.rd Reg.HK_EN1_EN = 0 →
      ((((codes0[31]?).getD 0 % 65536 : Nat) : Int) - 49152).natAbs ≤ s.dev.rd Reg.HK_PLAUS_REF_TOL_LSB →
      ((((codes1[31]?).getD 0 % 65536 : Nat) : Int) - 49152).natAbs ≤ s.dev.rd Reg.HK_PLAUS_REF_TOL_LSB →
      ((((codes0[31]?).getD 0 % 65536 : Nat) : Int) - ((codes1[31]?).getD 0 % 65536 : Nat)).natAbs ≤ s.dev.rd Reg.HK_PLAUS_PLAUS_LSB →
      ∃ t, exec (.hkScanEnd codes0 codes1) s = .next t ∧ State.Stores (if s.dev.on Reg.HK_STAT_REF_FAULT then [(9, 7)] else []) ((((((({ s.dev with col := { s.dev.col with scan := none, buf := sset (dflt (List.replicate 8 0)) (sset (dflt (List.replicate 8 0)) s.dev.col.buf (s.dev.rd Reg.HK_WR_PTR_INDEX) (bytesLE 2 ((codes0[31]?).getD 0 % 65536 : Nat) ++ bytesLE 1 31 ++ bytesLE 1 (s.dev.rd Reg.HK_STAT_SCAN) ++ bytesLE 4 ftime)) ((s.dev.rd Reg.HK_WR_PTR_INDEX + 1) % 8192) (bytesLE 2 ((codes1[31]?).getD 0 % 65536 : Nat) ++ bytesLE 1 63 ++ bytesLE 1 (s.dev.rd Reg.HK_STAT_SCAN) ++ bytesLE 4 ftime), bad := sset (dflt 0) (sset (dflt 0) s.dev.col.bad 0 0) 1 0, tried := (s.dev.col.tried.filter fun x => decide (x ≠ 0)).filter fun x => decide (x ≠ 1) } }.wr Reg.HK_WR_PTR_INDEX (s.dev.rd Reg.HK_WR_PTR_INDEX + 2)).wr Reg.HK_STAT_SCAN (s.dev.rd Reg.HK_STAT_SCAN + 1)).wr Reg.HK_STAT_SUSPECT 0).wr Reg.HK_STAT_REF_FAULT 0).setWord (Reg.HK_LAST0_CODE 31).cell (BitVec.ofNat 32 ((codes0[31]?).getD 0 % 65536 : Nat))).setWord (Reg.HK_LAST1_CODE 31).cell (BitVec.ofNat 32 ((codes1[31]?).getD 0 % 65536 : Nat)))) ([(64 * s.dev.rd Reg.HK_MIRROR_BASE + 8 * (s.dev.rd Reg.HK_WR_PTR_INDEX), (bytesLE 2 ((codes0[31]?).getD 0 % 65536 : Nat) ++ bytesLE 1 31 ++ bytesLE 1 (s.dev.rd Reg.HK_STAT_SCAN) ++ bytesLE 4 ftime)), (64 * s.dev.rd Reg.HK_MIRROR_BASE + 8 * ((s.dev.rd Reg.HK_WR_PTR_INDEX + 1) % 8192), (bytesLE 2 ((codes1[31]?).getD 0 % 65536 : Nat) ++ bytesLE 1 63 ++ bytesLE 1 (s.dev.rd Reg.HK_STAT_SCAN) ++ bytesLE 4 ftime))]) s t) ∧
  (∀ (v : Word) (s : State), s.Inv →
      s.dev.pageLive (0x0B8) = true →
      s.dev.pageInTest (0x0B8) = false →
      s.dev.hubOn = true →
      v &&& 0xE0 = 0x20 →
      s.dev.col.cals = [] →
      (s.dev.writeWord 0x0B8 0x040 0xE0 (v)).on Reg.HK_CTRL_CAL_MODE = false →
      s.dev.on Reg.HK_STAT_BUSY0 = false →
      ∃ t, exec (.hkCalRequest v) s = .next t ∧ State.Settles [] (({ (s.dev.writeWord 0x0B8 0x040 0xE0 (v)) with col := { s.dev.col with cals := [⟨0, (s.dev.writeWord 0x0B8 0x040 0xE0 (v)).on Reg.HK_CTRL_CAL_MODE, false, false, s.dev.word Reg.CAL_TRACE_TRACE_ID.cell⟩] } }.wr Reg.HK_STAT_BUSY0 1).runStart 16 4) s t) ∧
  (∀ (v : Word) (s : State), s.Inv →
      s.dev.pageLive (0x0B8) = true →
      s.dev.pageInTest (0x0B8) = false →
      s.dev.hubOn = true →
      v &&& 0xE0 = 0x20 →
      s.dev.col.cals = [] →
      (s.dev.writeWord 0x0B8 0x040 0xE0 (v)).on Reg.HK_CTRL_CAL_MODE = false →
      s.dev.on Reg.HK_STAT_BUSY0 = true →
      ∃ t, exec (.hkCalRequest v) s = .next t ∧ State.Settles [] ({ (s.dev.writeWord 0x0B8 0x040 0xE0 (v)) with col := { s.dev.col with cals := [⟨0, false, false, false, 0⟩] } }) s t) ∧
  (∀ (offset gain tt : Int) (c : HkCal) (s : State), s.Inv →
      s.dev.hubOn = true →
      s.dev.col.cals = [c] →
      c.auto = false →
      ∃ t, exec (.hkCalComplete false offset gain tt) s = .next t ∧ State.Settles ([(9, 8)]) ((({ s.dev with col := { s.dev.col with cals := [] } }.wr (hkBusy c.conv) 0).wr Reg.HK_STAT_CAL_FAIL 1).runFailed (16 + c.conv)) s t) ∧
  (∀ (offset gain tt : Int) (c : HkCal) (s : State), s.Inv →
      s.dev.hubOn = true →
      s.dev.col.cals = [c] →
      c.rerun = false →
      c.system = false →
      c.auto = false →
      ∃ t, exec (.hkCalComplete true offset gain tt) s = .next t ∧ State.Settles ([(9, 8)]) (((({ s.dev with col := { s.dev.col with cals := [] } }.wr (hkBusy c.conv) 0).wr Reg.HK_STAT_CAL_FAIL 0).setSource (16 + c.conv) 0 none).runDone (16 + c.conv) { (s.dev.record (16 + c.conv)).vals with other := [offset, gain] } false tt) s t) ∧
  (∀ (v : Word) (s : State), s.Inv →
      s.dev.pageLive (0x0B8) = true →
      s.dev.pageInTest (0x0B8) = false →
      s.dev.hubOn = true →
      v &&& 0x60 = 0 →
      ∃ t, exec (.hkClearFault v) s = .next t ∧ State.Settles ((if s.dev.on Reg.HK_STAT_FAULT0 || s.dev.on Reg.HK_STAT_FAULT1 then [(9, 7)] else []) ++ (if s.dev.on Reg.PWR_STAT_LINE_UNMON then [(0, 4)] else [])) (({ (s.dev.writeWord 0x0B8 0x040 0xE0 (v ||| 0x80)) with col := { s.dev.col with bad := [], tried := [] } }.wr Reg.HK_STAT_FAULT0 0).wr Reg.HK_STAT_FAULT1 0 |>.wr Reg.PWR_STAT_LINE_UNMON 0) s t) ∧
  (∀ (r : Fin 27) (s : State), s.Inv →
      s.dev.on (Reg.COLREC_DIRTY r) = true →
      s.dev.col.queue.contains r.val = false →
      s.dev.col.store.isSome = true →
      ∃ t, exec (.colStoreDue r) s = .next t ∧ State.Settles [] ({ s.dev with col := { s.dev.col with queue := s.dev.col.queue ++ [r.val] } }) s t) ∧
  (∀ (v : Word) (s : State), s.Inv →
      s.dev.pageLive (0x0B0) = true →
      s.dev.pageInTest (0x0B0) = false →
      ∃ t, exec (.colFlush v) s = .next t ∧ State.Settles [] ((List.range 27).foldl (fun d r => if d.on (Reg.COLREC_DIRTY r) then d.storeRecord r else d) (s.dev.writeWord 0x0B0 0x044 0x1000 (v ||| 0x1000))) s t) ∧
  (∀ (r k : Nat) (c : ColCopy) (s : State), s.Inv →
      s.dev.col.store = some (r, k, c) →
      s.dev.col.queue = [] →
      ∃ t, exec (.colStoreComplete true) s = .next t ∧ State.Settles ([(9, 1)]) (((((((({ s.dev with col := { s.dev.col with store := none, copies := s.dev.col.copies.filter (fun e : Nat × ColCopy => decide (e.1 ≠ 2 * r + k)) ++ [(2 * r + k, c)] } }.wr Reg.COL_STAT_STORING 0).bump Reg.COL_WRITES).wr (Reg.COLREC_CHECK_LO r) (fieldLE c.check 0 4)).wr (Reg.COLREC_CHECK_HI r) (fieldLE c.check 4 4)).wr (Reg.COLREC_GEN r) c.gen).wrB (Reg.COLREC_DIRTY r) (s.dev.record r).changed).setRecord r { s.dev.record r with stored := true })) s t) ∧
  (∀ (r k : Nat) (c : ColCopy) (s : State), s.Inv →
      s.dev.col.store = some (r, k, c) →
      s.dev.col.queue = [] →
      ∃ t, exec (.colStoreComplete false) s = .next t ∧ State.Settles ([(9, 1)]) (({ s.dev with col := { s.dev.col with store := none, copies := s.dev.col.copies.filter (fun e : Nat × ColCopy => decide (e.1 ≠ 2 * r + k)) } }.wr Reg.COL_STAT_STORING 0).wr (Reg.COLREC_DIRTY r) 1) s t) ∧
  (∀ (r : Fin 27) (tt : Int) (s : State), s.Inv →
      s.dev.hubOn = true →
      18 ≤ r.val →
      s.dev.on (Reg.COLREC_VALID r) = true →
      s.dev.on Reg.COL_CTRL_AUTO_RERUN = true →
      s.dev.on (Reg.COLREC_RUNNING r) = false →
      s.dev.on (Reg.COLREC_PENDING r) = false →
      s.dev.recordTemp r = some tt →
      (s.dev.rd Reg.COL_CTRL_RERUN_DEG : Int) < (tt - s.dev.rdS (Reg.COLREC_T_RUN r)).natAbs →
      ∃ t, exec (.rerunCheck r .found) s = .next t ∧ State.Settles ([(9, 3)]) (((s.dev.setRecord r { s.dev.record r with kind := 3 }).wr (Reg.COLREC_RUNNING r) 1).wr (Reg.COLREC_PENDING r) 0) s t) ∧
  (∀ (r : Fin 27) (replicas : List Int) (tt : Int) (s : State), s.Inv →
      (s.dev.record r).kind = 3 →
      ∃ t, exec (.timingRerunComplete r replicas tt) s = .next t ∧ State.Settles [] (s.dev.runDone r { (s.dev.record r).vals with other := (List.range (if r.val = 26 then 12 else 2)).map (s.dev.record r).vals.get ++ replicas } false tt) s t)

/-- Loss of signal and lock, adaptation, equaliser, low power and loopback of the serial lanes.

LOS and LOL declared set their flag and count, cleared they clear it (LOS adapts anew), each with the lane’s event; on a relay lane LINK, the port’s time transfer and the routes follow. ADAPT_DONE is set at the end of adaptation; a LANE_TXEQ word whose taps add up to 63 at most is written, a larger one is a violation. Low power ends loopback and PRBS, its exit begins and ends with READY. A loopback is selected, and adapts anew where near-end serial loopback comes or goes; asleep a selection is a violation. -/
def Obligations.SerialLanes : Prop :=
  (∀ (x : Fin 80) (s : State), s.Inv →
      s.dev.hasLane x = true →
      s.dev.on (Reg.LANE_STAT_LOS x) = false →
      ∃ t, exec (.laneLosDeclare x) s = .next t ∧ State.Settles [] (s.dev.laneStep x fun e => ((e.wr (Reg.LANE_STAT_LOS x) 1).bump (Reg.LANE_CNT_LOS_CNT x)).laneChange x) s t) ∧
  (∀ (x : Fin 80) (s : State), s.Inv →
      s.dev.hasLane x = true →
      s.dev.on (Reg.LANE_STAT_LOS x) = true →
      ∃ t, exec (.laneLosClear x) s = .next t ∧ State.Settles [] (s.dev.laneStep x fun e => ((e.wr (Reg.LANE_STAT_LOS x) 0).wr (Reg.LANE_STAT_ADAPT_DONE x) 0).laneChange x) s t) ∧
  (∀ (x : Fin 80) (s : State), s.Inv →
      s.dev.hasLane x = true →
      s.dev.on (Reg.LANE_STAT_LOS x) = false →
      s.dev.on (Reg.LANE_STAT_LOL x) = false →
      ∃ t, exec (.laneLolDeclare x) s = .next t ∧ State.Settles [] (s.dev.laneStep x fun e => ((e.wr (Reg.LANE_STAT_LOL x) 1).bump (Reg.LANE_CNT_LOL_CNT x)).laneChange x) s t) ∧
  (∀ (x : Fin 80) (s : State), s.Inv →
      s.dev.hasLane x = true →
      s.dev.on (Reg.LANE_STAT_LOS x) = false →
      s.dev.on (Reg.LANE_STAT_LOL x) = true →
      ∃ t, exec (.laneLolClear x) s = .next t ∧ State.Settles [] (s.dev.laneStep x fun e => (e.wr (Reg.LANE_STAT_LOL x) 0).laneChange x) s t) ∧
  (∀ (x : Fin 80) (s : State), s.Inv →
      s.dev.hasLane x = true →
      s.dev.on (Reg.LANE_STAT_LP x) = false →
      ∃ t, exec (.laneAdaptDone x) s = .next t ∧ State.Settles [] (s.dev.wr (Reg.LANE_STAT_ADAPT_DONE x) 1) s t) ∧
  (∀ (x : Fin 80) (v : Word) (s : State), s.Inv →
      s.dev.pageLive (lanePage x) = true →
      s.dev.pageInTest (lanePage x) = false →
      (signed 5 (getBits v 0 5)).natAbs + (signed 5 (getBits v 8 5)).natAbs + getBits v 16 6 + (signed 5 (getBits v 24 5)).natAbs ≤ 63 →
      ∃ t, exec (.laneTxeqWrite x v) s = .next t ∧ State.Settles [] (s.dev.writeWord (lanePage x) (laneOff x + 4) 0 v) s t) ∧
  (∀ (x : Fin 80) (v : Word) (s : State), s.Inv →
      s.dev.pageLive (lanePage x) = true →
      s.dev.pageInTest (lanePage x) = false →
      63 < (signed 5 (getBits v 0 5)).natAbs + (signed 5 (getBits v 8 5)).natAbs + getBits v 16 6 + (signed 5 (getBits v 24 5)).natAbs →
      ∃ t, exec (.laneTxeqWrite x v) s = .next t ∧ State.Settles [] (s.dev.viol (lanePage x)) s t) ∧
  (∀ (x : Fin 80) (s : State), s.Inv →
      s.dev.pageLive (lanePage x) = true →
      s.dev.pageInTest (lanePage x) = false →
      ∃ t, exec (.laneLpEnter x) s = .next t ∧ State.Settles [] (s.dev.laneStep x fun e => (fun d : Dev => (if (decide (64 ≤ x.val) || s.dev.on (Reg.LANE_STAT_LP x)) && !s.dev.on (Reg.LANE_STAT_READY x) then d else d.laneChange x).portLosesLane x) ((fun d : Dev => if x.val < 64 then d else d.setRlane x RelayLane.reset) ((((((((e.wr (Reg.LANE_CTRL_LP x) 1).wr (Reg.LANE_CTRL_LB x) 0).wr (Reg.LANE_STAT_LP x) 1).wr (Reg.LANE_STAT_READY x) 0).wr (Reg.LANE_STAT_ADAPT_DONE x) 0).wr (Reg.PRBS_CTRL_GEN_EN x) 0).wr (Reg.PRBS_CTRL_CHK_EN x) 0).wr (Reg.PRBS_STAT_LOCK x) 0))) s t) ∧
  (∀ (x : Fin 80) (s : State), s.Inv →
      s.dev.pageLive (lanePage x) = true →
      s.dev.pageInTest (lanePage x) = false →
      s.dev.on (Reg.LANE_STAT_LP x) = true →
      s.dev.laneHeld x = false →
      ∃ t, exec (.laneLpExit x) s = .next t ∧ State.Settles [] ((s.dev.wr (Reg.LANE_CTRL_LP x) 0).laneStep x fun e => (fun d : Dev => if x.val < 64 then d.laneChange x else d) ((e.queuesOn x).wr (Reg.LANE_STAT_LP x) 0)) s t) ∧
  (∀ (x : Fin 80) (s : State), s.Inv →
      s.dev.hasLane x = true →
      s.dev.on (Reg.LANE_STAT_LP x) = false →
      s.dev.on (Reg.LANE_STAT_READY x) = false →
      ∃ t, exec (.laneReady x) s = .next t ∧ State.Settles [] (s.dev.laneStep x fun e => ((e.wr (Reg.LANE_STAT_READY x) 1).wr (Reg.LANE_STAT_ADAPT_DONE x) 1).laneChange x) s t) ∧
  (∀ (x : Fin 80) (lb : BitVec 2) (s : State), s.Inv →
      s.dev.pageLive (lanePage x) = true →
      s.dev.pageInTest (lanePage x) = false →
      lb = 0 ∨ (s.dev.on (Reg.LANE_CTRL_LP x) = false ∧ s.dev.on (Reg.LANE_STAT_READY x) = true) →
      ∃ t, exec (.laneLoopbackSet x lb) s = .next t ∧ State.Settles [] (if s.dev.rd (Reg.LANE_CTRL_LB x) = lb.toNat then s.dev else if lb.toNat = 1 ∨ s.dev.rd (Reg.LANE_CTRL_LB x) = 1 then ((s.dev.wr (Reg.LANE_CTRL_LB x) lb.toNat).setEcho x []).wr (Reg.LANE_STAT_ADAPT_DONE x) 0 else (s.dev.wr (Reg.LANE_CTRL_LB x) lb.toNat).setEcho x []) s t) ∧
  (∀ (x : Fin 80) (lb : BitVec 2) (s : State), s.Inv →
      s.dev.pageLive (lanePage x) = true →
      s.dev.pageInTest (lanePage x) = false →
      lb ≠ 0 →
      s.dev.on (Reg.LANE_CTRL_LP x) = true ∨ s.dev.on (Reg.LANE_STAT_READY x) = false →
      ∃ t, exec (.laneLoopbackSet x lb) s = .next t ∧ State.Settles [] (s.dev.viol (lanePage x)) s t)

/-- Relay lane frames and synchronisation, and the PRBS generators and checkers.

A relay lane frame whose SYNC or INFO fails counts in RL_HDR_ERR, and its slots fail; a sound one on a lane without LINK only clears the misses; on one that carries transit its stuffing and block errors are counted and its four slots taken. Two sound heads one lane frame apart, MFAS one more, give the lane synchronisation, and four failures in a row take it, with all that follows; an error window clears the lanes’ errors, E-28.16 above the threshold. PRBS enables and counters act on an awake lane; a change of checker clears LOCK; injection needs the generator, and an injected bit counts where the lane checks its own pattern; a lock sets LOCK, its loss clears it, counts, and raises E-28.25. -/
def Obligations.RelayLanesAndPrbs : Prop :=
  (∀ (p l : Fin 4) (levels : List Nat) (arr : Int) (seen : Nat) (s : State), s.Inv →
      s.dev.hubOn = true →
      (s.dev.rlane (64 + 4 * p.val + l.val)).sync = true →
      s.dev.on (Reg.LANE_STAT_LP (64 + 4 * p.val + l.val)) = false →
      readLaneFrame levels = none →
      ∃ t, exec (.relayLaneFrameReceive p l levels arr seen) s = .next t ∧ State.Settles [] ((fun d : Dev => if d.transitOk (64 + 4 * p.val + l.val) then (List.range 4).foldl (fun (e : Dev) (i : Nat) => e.failedColumn (4 * ((64 + 4 * p.val + l.val) - 64) + i)) d else d) ((((if s.dev.rd (Reg.LANE_CTRL_LB (64 + 4 * p.val + l.val)) = 3 then s.dev.setEcho (64 + 4 * p.val + l.val) levels else s.dev).bump (Reg.RL_HDR_ERR (64 + 4 * p.val + l.val))).setRlane (64 + 4 * p.val + l.val) { (if s.dev.rd (Reg.LANE_CTRL_LB (64 + 4 * p.val + l.val)) = 3 then s.dev.setEcho (64 + 4 * p.val + l.val) levels else s.dev).rlane (64 + 4 * p.val + l.val) with misses := ((if s.dev.rd (Reg.LANE_CTRL_LB (64 + 4 * p.val + l.val)) = 3 then s.dev.setEcho (64 + 4 * p.val + l.val) levels else s.dev).rlane (64 + 4 * p.val + l.val)).misses + 1 }).slotsFail (64 + 4 * p.val + l.val))) s t) ∧
  (∀ (p l : Fin 4) (levels : List Nat) (arr : Int) (seen : Nat) (f : LaneFrame) (s : State), s.Inv →
      s.dev.hubOn = true →
      (s.dev.rlane (64 + 4 * p.val + l.val)).sync = true →
      s.dev.on (Reg.LANE_STAT_LP (64 + 4 * p.val + l.val)) = false →
      s.dev.on (Reg.LANE_STAT_LINK (64 + 4 * p.val + l.val)) = false →
      readLaneFrame levels = some f →
      ∃ t, exec (.relayLaneFrameReceive p l levels arr seen) s = .next t ∧ State.Settles [] ((if s.dev.rd (Reg.LANE_CTRL_LB (64 + 4 * p.val + l.val)) = 3 then s.dev.setEcho (64 + 4 * p.val + l.val) levels else s.dev).setRlane (64 + 4 * p.val + l.val) { (if s.dev.rd (Reg.LANE_CTRL_LB (64 + 4 * p.val + l.val)) = 3 then s.dev.setEcho (64 + 4 * p.val + l.val) levels else s.dev).rlane (64 + 4 * p.val + l.val) with misses := 0 }) s t) ∧
  (∀ (p l : Fin 4) (levels : List Nat) (arr : Int) (seen : Nat) (f : LaneFrame) (s : State), s.Inv →
      s.dev.hubOn = true →
      (s.dev.rlane (64 + 4 * p.val + l.val)).sync = true →
      s.dev.on (Reg.LANE_STAT_LP (64 + 4 * p.val + l.val)) = false →
      s.dev.on (Reg.LANE_STAT_LINK (64 + 4 * p.val + l.val)) = true →
      readLaneFrame levels = some f →
      (((if s.dev.rd (Reg.LANE_CTRL_LB (64 + 4 * p.val + l.val)) = 3 then s.dev.setEcho (64 + 4 * p.val + l.val) levels else s.dev).setRlane (64 + 4 * p.val + l.val) { (if s.dev.rd (Reg.LANE_CTRL_LB (64 + 4 * p.val + l.val)) = 3 then s.dev.setEcho (64 + 4 * p.val + l.val) levels else s.dev).rlane (64 + 4 * p.val + l.val) with misses := 0 }).laneStep (64 + 4 * p.val + l.val) (Dev.arrivalIn (64 + 4 * p.val + l.val) arr)).transitOk (64 + 4 * p.val + l.val) = true →
      l ≠ 0 →
      ∃ t, exec (.relayLaneFrameReceive p l levels arr seen) s = .next t ∧ State.Settles [] ((fun A : Dev => (List.range 4).foldl (fun d k => d.slotIn (4 * ((64 + 4 * p.val + l.val) - 64) + k) ((f.row0[k]?).getD 127) (f.blocks k).1) ((A.bumpBy (Reg.RL_BLK_ERR (64 + 4 * p.val + l.val)) ((((List.range 4).map f.blocks).map (·.2)).sum)).setRlane (64 + 4 * p.val + l.val) { A.rlane (64 + 4 * p.val + l.val) with errors := (A.rlane (64 + 4 * p.val + l.val)).errors + ((((List.range 4).map f.blocks).map (·.2)).sum) })) ((((if s.dev.rd (Reg.LANE_CTRL_LB (64 + 4 * p.val + l.val)) = 3 then s.dev.setEcho (64 + 4 * p.val + l.val) levels else s.dev).setRlane (64 + 4 * p.val + l.val) { (if s.dev.rd (Reg.LANE_CTRL_LB (64 + 4 * p.val + l.val)) = 3 then s.dev.setEcho (64 + 4 * p.val + l.val) levels else s.dev).rlane (64 + 4 * p.val + l.val) with misses := 0 }).laneStep (64 + 4 * p.val + l.val) (Dev.arrivalIn (64 + 4 * p.val + l.val) arr)).bumpBy (Reg.RL_STUFF_ERR (64 + 4 * p.val + l.val)) f.broken.length)) s t) ∧
  (∀ (p l : Fin 4) (first second : List Nat) (s : State), s.Inv →
      s.dev.hubOn = true →
      s.dev.on (Reg.LANE_STAT_LP (64 + 4 * p.val + l.val)) = false →
      headsAgree first second = true →
      ∃ t, exec (.relaySyncFound p ⟨l, first, second⟩) s = .next t ∧ State.Settles [] (s.dev.laneStep (64 + 4 * p.val + l.val) fun e => e.setRlane (64 + 4 * p.val + l.val) { e.rlane (64 + 4 * p.val + l.val) with sync := true, misses := 0 }) s t) ∧
  (∀ (p l : Fin 4) (s : State), s.Inv →
      (s.dev.rlane (64 + 4 * p.val + l.val)).sync = true →
      4 ≤ (s.dev.rlane (64 + 4 * p.val + l.val)).misses →
      ∃ t, exec (.relaySyncLost p l) s = .next t ∧ State.Settles [] (s.dev.laneStep (64 + 4 * p.val + l.val) fun e => e.setRlane (64 + 4 * p.val + l.val) { e.rlane (64 + 4 * p.val + l.val) with sync := false, misses := 0 }) s t) ∧
  (∀ (p : Fin 4) (s : State), s.Inv →
      ∃ t, exec (.relayErrWindowEnd p) s = .next t ∧ State.Settles (if [0, 1, 2, 3].any (fun l => decide (s.dev.rd (Reg.RL_ERR_THR_THRESHOLD p) < (s.dev.rlane (64 + 4 * p.val + l)).errors)) then [(28, 16)] else []) ([0, 1, 2, 3].foldl (fun d l => d.setRlane (64 + 4 * p.val + l) { d.rlane (64 + 4 * p.val + l) with errors := 0 }) s.dev) s t) ∧
  (∀ (i : Fin 80) (v : Word) (s : State), s.Inv →
      s.dev.pageLive (prbsPage i) = true →
      s.dev.pageInTest (prbsPage i) = false →
      s.dev.laneAsleep i = false →
      v &&& 0x600 = 0 →
      ∃ t, exec (.prbsGenEnable i v) s = .next t ∧ State.Settles [] ((fun d : Dev => if s.dev.rd (Reg.PRBS_CTRL_CHK_PAT i) ≠ getBits (v ||| 8) 4 3 ∨ s.dev.on (Reg.PRBS_CTRL_CHK_EN i) ≠ decide (getBits (v ||| 8) 7 1 = 1) then d.wr (Reg.PRBS_STAT_LOCK i) 0 else d) (s.dev.writeWord (prbsPage i) (prbsOff i) 0x600 (v ||| 8))) s t) ∧
  (∀ (i : Fin 80) (v : Word) (s : State), s.Inv →
      s.dev.pageLive (prbsPage i) = true →
      s.dev.pageInTest (prbsPage i) = false →
      s.dev.laneAsleep i = true →
      ∃ t, exec (.prbsGenEnable i v) s = .next t ∧ State.Settles [] (s.dev.viol (prbsPage i)) s t) ∧
  (∀ (i : Fin 80) (v : Word) (s : State), s.Inv →
      s.dev.pageLive (prbsPage i) = true →
      s.dev.pageInTest (prbsPage i) = false →
      s.dev.laneAsleep i = false →
      v &&& 0x3E08 = 0 →
      ∃ t, exec (.prbsChkEnable i v) s = .next t ∧ State.Settles [] ((fun d : Dev => if s.dev.rd (Reg.PRBS_CTRL_CHK_PAT i) ≠ getBits (v ||| 0x80) 4 3 ∨ s.dev.on (Reg.PRBS_CTRL_CHK_EN i) ≠ decide (getBits (v ||| 0x80) 7 1 = 1) then d.wr (Reg.PRBS_STAT_LOCK i) 0 else d) (s.dev.writeWord (prbsPage i) (prbsOff i) 0x600 (v ||| 0x80))) s t) ∧
  (∀ (i : Fin 80) (v : Word) (late : Nat) (s : State), s.Inv →
      s.dev.pageLive (prbsPage i) = true →
      s.dev.pageInTest (prbsPage i) = false →
      s.dev.laneAsleep i = false →
      v &&& 0x3C08 = 0 →
      ∃ t, exec (.prbsCntClr i v late) s = .next t ∧ State.Settles [] (((fun d : Dev => if s.dev.rd (Reg.PRBS_CTRL_CHK_PAT i) ≠ getBits (v) 4 3 ∨ s.dev.on (Reg.PRBS_CTRL_CHK_EN i) ≠ decide (getBits (v) 7 1 = 1) then d.wr (Reg.PRBS_STAT_LOCK i) 0 else d) (s.dev.writeWord (prbsPage i) (prbsOff i) 0x600 (v ||| 0x200))).wr (Reg.PRBS_ERR i) late |>.wr (Reg.PRBS_BITS_LO i) 0 |>.wr (Reg.PRBS_BITS_HI i) 0) s t) ∧
  (∀ (i : Fin 80) (v : Word) (s : State), s.Inv →
      s.dev.pageLive (prbsPage i) = true →
      s.dev.pageInTest (prbsPage i) = false →
      s.dev.laneAsleep i = false →
      v.getLsbD 3 = true →
      v.getLsbD 9 = false →
      ∃ t, exec (.prbsInjOne i v) s = .next t ∧ State.Settles [] ((fun d : Dev => if d.loopsOwn i = true ∧ d.on (Reg.PRBS_STAT_LOCK i) = true then d.bump (Reg.PRBS_ERR i) else d) (((fun d : Dev => if s.dev.rd (Reg.PRBS_CTRL_CHK_PAT i) ≠ getBits (v) 4 3 ∨ s.dev.on (Reg.PRBS_CTRL_CHK_EN i) ≠ decide (getBits (v) 7 1 = 1) then d.wr (Reg.PRBS_STAT_LOCK i) 0 else d) (s.dev.writeWord (prbsPage i) (prbsOff i) 0x600 (v ||| 0x400))).injectOne i)) s t) ∧
  (∀ (i : Fin 80) (v : Word) (s : State), s.Inv →
      s.dev.pageLive (prbsPage i) = true →
      s.dev.pageInTest (prbsPage i) = false →
      v.getLsbD 3 = false →
      ∃ t, exec (.prbsInjOne i v) s = .next t ∧ State.Settles [] (s.dev.viol (prbsPage i)) s t) ∧
  (∀ (i : Fin 80) (v : Word) (s : State), s.Inv →
      s.dev.pageLive (prbsPage i) = true →
      s.dev.pageInTest (prbsPage i) = false →
      s.dev.laneAsleep i = false →
      v.getLsbD 3 = true →
      v &&& 0x600 = 0 →
      ∃ t, exec (.prbsInjRate i v) s = .next t ∧ State.Settles [] ((fun d : Dev => if s.dev.rd (Reg.PRBS_CTRL_CHK_PAT i) ≠ getBits (v) 4 3 ∨ s.dev.on (Reg.PRBS_CTRL_CHK_EN i) ≠ decide (getBits (v) 7 1 = 1) then d.wr (Reg.PRBS_STAT_LOCK i) 0 else d) (s.dev.writeWord (prbsPage i) (prbsOff i) 0x600 (v))) s t) ∧
  (∀ (i : Fin 80) (s : State), s.Inv →
      s.dev.hubOn = true →
      s.dev.on (Reg.PRBS_CTRL_CHK_EN i) = true →
      ∃ t, exec (.prbsLock i) s = .next t ∧ State.Settles [] (s.dev.wr (Reg.PRBS_STAT_LOCK i) 1) s t) ∧
  (∀ (i : Fin 80) (bits errs : Nat) (s : State), s.Inv →
      s.dev.hubOn = true →
      s.dev.on (Reg.PRBS_STAT_LOCK i) = true →
      ∃ t, exec (.prbsLockLost i bits errs) s = .next t ∧ State.Settles ([(28, 25)]) ((((s.dev.bumpBy (Reg.PRBS_ERR i) errs).wr64 (Reg.PRBS_BITS_LO i) (min (s.dev.rd64 (Reg.PRBS_BITS_LO i) + bits) (2 ^ 64 - 1))).wr (Reg.PRBS_STAT_LOCK i) 0).wr (Reg.PRBS_STAT_LOCK_LOST i) 1) s t)

/-- Segments of the relay chain, accesses to other positions, and neighbours.

A segment that fails its CRC is counted on its port and its message is lost; a good one for this device joins its message, which LAST ends: at the head as the reply to the access that waits, elsewhere as an access that is made and answered; one for another position is sent on; a neighbour’s segment shows its position and KEY_ID, and on the head a second head is a CONFLICT with E-28.19, and nothing of the port is used any more. The head’s accesses to another position go out as messages and wait; in D3hot an access is an unsupported request; a reply to a read gives its words, a timeout all ones, counted with E-28.20; a reply that refuses a capture read gives all ones, counted. A window read at its position is answered over the chain. Each open port is sent its neighbour segment. -/
def Obligations.ChainMessages : Prop :=
  (∀ (p : Fin 4) (raw : List Byte) (s : State), s.Inv →
      s.dev.hubOn = true →
      s.dev.portLink p = true →
      raw ≠ [0, 0, 0, 0] →
      segmentOk raw = false →
      ∃ t, exec (.dchSegmentReceive p raw) s = .next t ∧ State.Settles [] ({ s.dev.bump (Reg.RL_DCH_ERR (64 + 4 * p.val)) with relay := { s.dev.relay with inbox := sset (dflt []) s.dev.relay.inbox (inboxKey (readSegment raw)) [], lost := if (readSegment raw).last then s.dev.relay.lost.filter (· ≠ (inboxKey (readSegment raw))) else if s.dev.relay.lost.contains (inboxKey (readSegment raw)) then s.dev.relay.lost else s.dev.relay.lost ++ [(inboxKey (readSegment raw))] } }) s t) ∧
  (∀ (p : Fin 4) (raw : List Byte) (s : State), s.Inv →
      s.dev.hubOn = true →
      s.dev.portLink p = true →
      raw ≠ [0, 0, 0, 0] →
      segmentOk raw = true →
      (readSegment raw).cls = 1 ∨ (readSegment raw).cls = 2 →
      s.dev.on (Reg.RP_STAT_CONFLICT p) = false →
      (readSegment raw).bcast = false →
      s.dev.ownPos = some (readSegment raw).dst →
      (readSegment raw).last = false ∨ (s.dev.isHead = true ∧ s.dev.chainAccess (readSegment raw).src (readSegment raw).seq = none) →
      ∃ t, exec (.dchSegmentReceive p raw) s = .next t ∧ State.Settles [] ({ s.dev with relay := { s.dev.relay with inbox := sset (dflt []) s.dev.relay.inbox (inboxKey (readSegment raw)) (if (readSegment raw).last = true ∨ s.dev.relay.lost.contains (inboxKey (readSegment raw)) = true then [] else sget (dflt []) s.dev.relay.inbox (inboxKey (readSegment raw)) ++ (readSegment raw).data), lost := if (readSegment raw).last then s.dev.relay.lost.filter (· ≠ (inboxKey (readSegment raw))) else s.dev.relay.lost } }) s t) ∧
  (∀ (p : Fin 4) (raw : List Byte) (w : ChainAccess) (s : State), s.Inv →
      s.dev.hubOn = true →
      s.dev.portLink p = true →
      raw ≠ [0, 0, 0, 0] →
      segmentOk raw = true →
      (readSegment raw).cls = 1 ∨ (readSegment raw).cls = 2 →
      s.dev.on (Reg.RP_STAT_CONFLICT p) = false →
      (readSegment raw).bcast = false →
      s.dev.isHead = true →
      (readSegment raw).dst = 0 →
      (readSegment raw).last = true →
      sget (dflt []) s.dev.relay.inbox (inboxKey (readSegment raw)) = [] →
      s.dev.relay.lost.contains (inboxKey (readSegment raw)) = false →
      s.dev.chainAccess (readSegment raw).src (readSegment raw).seq = some w →
      fieldLE (readSegment raw).data 0 1 = 0 →
      ∃ t, exec (.dchSegmentReceive p raw) s = .next t ∧ State.Settles [] ((fun e : Dev => if w.read then { e with readData := ((List.range w.words).map fun k => BitVec.ofNat 32 (fieldLE ((readSegment raw).data.drop 1) (4 * k) 4)).take w.words, readPoisoned := false } else e) { s.dev with relay := { s.dev.relay with inbox := sset (dflt []) s.dev.relay.inbox (inboxKey (readSegment raw)) [], lost := s.dev.relay.lost.filter (· ≠ (inboxKey (readSegment raw))), waiting := s.dev.relay.waiting.filter fun x => x ≠ w } }) s t) ∧
  (∀ (p : Fin 4) (raw : List Byte) (w : ChainAccess) (s : State), s.Inv →
      s.dev.hubOn = true →
      s.dev.portLink p = true →
      raw ≠ [0, 0, 0, 0] →
      segmentOk raw = true →
      (readSegment raw).cls = 1 ∨ (readSegment raw).cls = 2 →
      s.dev.on (Reg.RP_STAT_CONFLICT p) = false →
      (readSegment raw).bcast = false →
      s.dev.isHead = true →
      (readSegment raw).dst = 0 →
      (readSegment raw).last = true →
      sget (dflt []) s.dev.relay.inbox (inboxKey (readSegment raw)) = [] →
      s.dev.relay.lost.contains (inboxKey (readSegment raw)) = false →
      s.dev.chainAccess (readSegment raw).src (readSegment raw).seq = some w →
      fieldLE (readSegment raw).data 0 1 = 1 →
      ∃ t, exec (.dchSegmentReceive p raw) s = .next t ∧ State.Settles [] ({ ({ s.dev with relay := { s.dev.relay with inbox := sset (dflt []) s.dev.relay.inbox (inboxKey (readSegment raw)) [], lost := s.dev.relay.lost.filter (· ≠ (inboxKey (readSegment raw))), waiting := s.dev.relay.waiting.filter fun x => x ≠ w } } : Dev) with readData := List.replicate w.words 0xFFFFFFFF, readPoisoned := false }.bump Reg.MGMT_ERR) s t) ∧
  (∀ (p : Fin 4) (raw : List Byte) (s : State), s.Inv →
      s.dev.hubOn = true →
      s.dev.portLink p = true →
      raw ≠ [0, 0, 0, 0] →
      segmentOk raw = true →
      (readSegment raw).cls = 1 →
      s.dev.on (Reg.RP_STAT_CONFLICT p) = false →
      (readSegment raw).bcast = false →
      s.dev.isHead = false →
      s.dev.ownPos = some (readSegment raw).dst →
      (readSegment raw).last = true →
      sget (dflt []) s.dev.relay.inbox (inboxKey (readSegment raw)) = [] →
      s.dev.relay.lost.contains (inboxKey (readSegment raw)) = false →
      5 ≤ (readSegment raw).data.length →
      ∃ t, exec (.dchSegmentReceive p raw) s = .next t ∧ State.Settles [] (({ s.dev with relay := { s.dev.relay with inbox := sset (dflt []) s.dev.relay.inbox (inboxKey (readSegment raw)) [], lost := s.dev.relay.lost.filter (· ≠ (inboxKey (readSegment raw))) } } : Dev).managed s.bytes p (readSegment raw).src (readSegment raw).seq (readSegment raw).data) s t) ∧
  (∀ (p : Fin 4) (raw : List Byte) (q : Nat) (s : State), s.Inv →
      s.dev.hubOn = true →
      s.dev.portLink p = true →
      raw ≠ [0, 0, 0, 0] →
      segmentOk raw = true →
      (readSegment raw).cls = 1 ∨ (readSegment raw).cls = 2 →
      s.dev.on (Reg.RP_STAT_CONFLICT p) = false →
      (readSegment raw).bcast = false →
      s.dev.ownPos ≠ some (readSegment raw).dst →
      s.dev.portTo (readSegment raw).dst p = some q →
      ∃ t, exec (.dchSegmentReceive p raw) s = .next t ∧ State.Settles [] (s.dev.sendSegment q (readSegment raw)) s t) ∧
  (∀ (p : Fin 4) (raw : List Byte) (s : State), s.Inv →
      s.dev.hubOn = true →
      s.dev.portLink p = true →
      raw ≠ [0, 0, 0, 0] →
      segmentOk raw = true →
      (readSegment raw).cls = 3 →
      s.dev.isHead = true →
      bitAt (fieldBE (readSegment raw).data 9 1) 0 = false ∨ s.dev.on (Reg.RP_STAT_CONFLICT p) = true →
      ∃ t, exec (.dchSegmentReceive p raw) s = .next t ∧ State.Settles [] (((s.dev.wr (Reg.RP_STAT_NEIGH_POS p) (fieldBE (readSegment raw).data 8 1)).wr (Reg.RP_STAT_NEIGH_KNOWN p) 1).setRport p { s.dev.rport p with neigh := fieldLE (readSegment raw).data 0 8 }) s t) ∧
  (∀ (p : Fin 4) (raw : List Byte) (s : State), s.Inv →
      s.dev.hubOn = true →
      s.dev.portLink p = true →
      raw ≠ [0, 0, 0, 0] →
      segmentOk raw = true →
      (readSegment raw).cls = 3 →
      s.dev.isHead = true →
      bitAt (fieldBE (readSegment raw).data 9 1) 0 = true →
      s.dev.on (Reg.RP_STAT_CONFLICT p) = false →
      ∃ t, exec (.dchSegmentReceive p raw) s = .next t ∧ State.Settles ([(28, 19)]) ((((List.range 4).foldl (fun (d : Dev) l => d.slotsFail (64 + 4 * p + l)) ((((s.dev.wr (Reg.RP_STAT_NEIGH_POS p) (fieldBE (readSegment raw).data 8 1)).wr (Reg.RP_STAT_NEIGH_KNOWN p) 1).setRport p { s.dev.rport p with neigh := fieldLE (readSegment raw).data 0 8 }).wr (Reg.RP_STAT_CONFLICT p) 1)).settleTime p).settleRing (((s.dev.wr (Reg.RP_STAT_NEIGH_POS p) (fieldBE (readSegment raw).data 8 1)).wr (Reg.RP_STAT_NEIGH_KNOWN p) 1).setRport p { s.dev.rport p with neigh := fieldLE (readSegment raw).data 0 8 }).routes) s t ∧
      t.dev.on (Reg.RP_STAT_CONFLICT p) = true) ∧
  (∀ (pos : BitVec 6) (read : Bool) (off : BitVec 24) (value : Word) (s : State), s.Inv →
      s.dev.pcieOn = true →
      s.dev.hostGone = false →
      pos ≠ 0 →
      ∃ t, exec (.mgmtAccess pos read off value) s = .next t ∧ State.Settles [] (({ s.dev with relay := { s.dev.relay with waiting := s.dev.relay.waiting ++ [(⟨pos.toNat, s.dev.relay.seq % 256, read, 1⟩ : ChainAccess)] } }).sendMessage 1 pos.toNat (bytesBE 1 (ofBool !read) ++ bytesLE 4 off.toNat ++ if read then [] else bytesLE 4 value.toNat)) s t) ∧
  (∀ (pos : BitVec 6) (seq : Byte) (data : List Word) (w : ChainAccess) (s : State), s.Inv →
      s.dev.chainAccess pos.toNat seq.toNat = some w →
      ∃ t, exec (.mgmtReply pos seq data) s = .next t ∧ State.Settles [] (if w.read then { s.dev with relay := { s.dev.relay with waiting := s.dev.relay.waiting.filter fun x => x ≠ w }, readData := data.take w.words, readPoisoned := false } else { s.dev with relay := { s.dev.relay with waiting := s.dev.relay.waiting.filter fun x => x ≠ w } }) s t) ∧
  (∀ (pos : BitVec 6) (seq : Byte) (w : ChainAccess) (s : State), s.Inv →
      s.dev.chainAccess pos.toNat seq.toNat = some w →
      ∃ t, exec (.mgmtTimeout pos seq) s = .next t ∧ State.Settles ([(28, 20)]) ((if w.read then { s.dev with relay := { s.dev.relay with waiting := s.dev.relay.waiting.filter fun x => x ≠ w }, readData := List.replicate w.words 0xFFFFFFFF, readPoisoned := false } else { s.dev with relay := { s.dev.relay with waiting := s.dev.relay.waiting.filter fun x => x ≠ w } }).bump Reg.MGMT_ERR) s t) ∧
  (∀ (pos : BitVec 6) (off : BitVec 30) (n : BitVec 13) (poisoned : Bool) (seq : Byte) (s : State), s.Inv →
      s.dev.pcieOn = true →
      s.dev.hostGone = false →
      pos ≠ 0 →
      ∃ t, exec (.bulkAccess pos (.read off n poisoned) seq) s = .next t ∧ State.Settles [] (({ s.dev with relay := { s.dev.relay with waiting := s.dev.relay.waiting ++ [(⟨pos.toNat, s.dev.relay.seq % 256, true, ceilDiv n.toNat 4⟩ : ChainAccess)] } }).sendMessage 2 pos.toNat (bytesBE 1 0 ++ bytesLE 4 off.toNat ++ bytesLE 2 n.toNat)) s t) ∧
  (∀ (pos : BitVec 6) (off : BitVec 24) (value : Word) (s : State), s.Inv →
      s.dev.pcieOn = true →
      s.dev.hostGone = true →
      pos ≠ 0 →
      ∃ t, exec (.mgmtAccess pos true off value) s = .next t ∧ State.Settles [] ({ s.dev with readData := [] }) s t) ∧
  (∀ (pos : BitVec 6) (off : BitVec 30) (n : BitVec 13) (poisoned : Bool) (seq : Byte) (s : State), s.Inv →
      s.dev.hubOn = true →
      s.dev.isHead = false →
      s.dev.ownPos = some pos.toNat →
      s.dev.shedActive 1 = false →
      ∃ t, exec (.bulkAccess pos (.read off n poisoned) seq) s = .next t ∧ State.Settles [] ((({ s.dev.winReadAs off.toNat (s.winLook off.toNat n.toNat) poisoned with readData := s.dev.readData, readPoisoned := s.dev.readPoisoned } : Dev).sendNumbered 2 0 seq.toNat (bytesBE 1 0 ++ (s.winLook off.toNat n.toNat).1))) s t) ∧
  (∀ (pos : BitVec 6) (off : BitVec 30) (bs : List Byte) (seq : Byte) (s : State), s.Inv →
      s.dev.pcieOn = true →
      s.dev.hostGone = false →
      pos ≠ 0 →
      ∃ t, exec (.bulkAccess pos (.write off bs) seq) s = .next t ∧ State.Settles [] (s.dev.sendMessage 2 pos.toNat (bytesBE 1 1 ++ bytesLE 4 off.toNat ++ bs)) s t) ∧
  (∀ (s : State), s.Inv →
      s.dev.hubOn = true →
      ∃ t, exec (.neighbourSegmentSend) s = .next t ∧ State.Settles [] (((List.range 4).filter s.dev.portOpen).foldl (fun d p => d.sendSegment p ⟨3, 0, s.dev.ownPos.getD 63, false, true, 0, bytesLE 8 (s.dev.rd64 Reg.KEY_ID_LO) ++ bytesBE 1 (s.dev.ownPos.getD 0xFF) ++ bytesBE 1 (ofBool s.dev.isHead) ++ bytesBE 1 p⟩) s.dev) s t)

/-- Discovery, position assignment, joins and departures of the chain.

The head’s discovery begins position assignment, and REDISCOVER begins it anew with the departed forgotten; elsewhere REDISCOVER is a violation. Assignment that completes gives the positions found breadth first, applies COUNT and R8, sends the completion message and settles the fleet mode, E-28.18. A device that is not the head takes its position and the fleet mode in force from the completion message, MODE_OVERRIDDEN where it sampled another. A device that returns takes its former position; one that departs, with no way to it left, keeps it reserved; each is a change of the chain; of a device that stays only the links change. -/
def Obligations.ChainMembership : Prop :=
  (∀ (s : State), s.Inv →
      s.dev.hubOn = true →
      s.dev.isHead = true →
      (List.range 4).any s.dev.portLink = true →
      s.dev.relay.chain = [] →
      ∃ t, exec (.discoveryStart) s = .next t ∧ State.Settles [] ({ s.dev with relay := { s.dev.relay with assigning := true } }) s t) ∧
  (∀ (v : Word) (s : State), s.Inv →
      s.dev.pageLive (0x380) = true →
      s.dev.pageInTest (0x380) = false →
      s.dev.isHead = true →
      ∃ t, exec (.chainRediscover v) s = .next t ∧ State.Settles [] ({ s.dev.writeWord 0x380 0x044 1 (v ||| 1) with relay := { s.dev.relay with chain := s.dev.relay.chain.filter (fun m => m.present), assigning := true } }) s t) ∧
  (∀ (v : Word) (s : State), s.Inv →
      s.dev.pageLive (0x380) = true →
      s.dev.pageInTest (0x380) = false →
      s.dev.isHead = false →
      ∃ t, exec (.chainRediscover v) s = .next t ∧ State.Settles [] (((s.dev.writeWord 0x380 0x044 1 (v ||| 1)).viol 0x380).oneViol (0x380) (s.dev.hdr (0x380)).viol) s t) ∧
  (∀ (links : List ChainLink) (s : State), s.Inv →
      s.dev.hubOn = true →
      s.dev.isHead = true →
      s.dev.relay.assigning = true →
      ∃ t, exec (.positionAssignComplete links) s = .next t ∧ State.Settles ([(28, 18)]) (((s.dev.assignPositions links).applyCount true).sendCompletion.fleetSettle) s t) ∧
  (∀ (p : Fin 4) (pos : BitVec 6) (large : Bool) (ring : List (Fin 4)) (s : State), s.Inv →
      s.dev.hubOn = true →
      s.dev.isHead = false →
      s.dev.portLink p = true →
      s.dev.otherHead p = false →
      ∃ t, exec (.fleetCompletionMsg p pos large ring) s = .next t ∧ State.Settles [] ((fun e : Dev => (e.settleRing e.routes).fleetSettle) { ((((s.dev.wr Reg.CHAIN_STAT_POS pos.toNat).wr Reg.CHAIN_STAT_ASSIGNED 1).wr Reg.POS_POS pos.toNat).wrB Reg.STRAPS_FLEET_EFF large).wrB Reg.STRAPS_MODE_OVERRIDDEN (s.dev.on Reg.STRAPS_FLEET_MODE != large) with relay := { s.dev.relay with ring := ring.map (·.val) } }) s t) ∧
  (∀ (key : BitVec 64) (links : List ChainLink) (s : State), s.Inv →
      s.dev.chainUp = true →
      s.dev.relay.chain.any (fun m => decide (m.keyId = key.toNat)) = true →
      s.dev.relay.chain.any (fun m => m.keyId = key.toNat && m.present) = false →
      ∃ t, exec (.chainJoin key links) s = .next t ∧ State.Settles [] (s.dev.chainChange true links fun c => c.map fun m => if m.keyId = key.toNat then { m with present := true } else m) s t) ∧
  (∀ (key : BitVec 64) (links : List ChainLink) (p : Nat) (s : State), s.Inv →
      s.dev.chainUp = true →
      s.dev.relay.chain.any (fun m => decide (m.keyId = key.toNat)) = false →
      s.dev.freePos = some p →
      ∃ t, exec (.chainJoin key links) s = .next t ∧ State.Settles [] (s.dev.chainChange true links fun c => c ++ [⟨key.toNat, p, true, []⟩]) s t) ∧
  (∀ (key : BitVec 64) (links : List ChainLink) (s : State), s.Inv →
      s.dev.chainUp = true →
      s.dev.relay.chain.any (fun m => m.keyId = key.toNat && m.present && m.pos ≠ 0) = true →
      (chainFrom (s.dev.usedLinks links) s.dev.ownKey).any (fun e => decide (e.1 = key.toNat)) = false →
      ∃ t, exec (.chainDepart key links) s = .next t ∧ State.Settles [] (s.dev.chainChange false links fun c => c.map fun m => if m.keyId = key.toNat then { m with present := false } else m) s t) ∧
  (∀ (key : BitVec 64) (links : List ChainLink) (s : State), s.Inv →
      s.dev.chainUp = true →
      s.dev.relay.chain.any (fun m => m.keyId = key.toNat && m.present) = true →
      ∃ t, exec (.chainJoin key links) s = .next t ∧ State.Settles [] (s.dev.linksChange links id) s t) ∧
  (∀ (key : BitVec 64) (links : List ChainLink) (s : State), s.Inv →
      s.dev.chainUp = true →
      s.dev.relay.chain.any (fun m => m.keyId = key.toNat && m.present && m.pos ≠ 0) = true →
      (chainFrom (s.dev.usedLinks links) s.dev.ownKey).any (fun e => decide (e.1 = key.toNat)) = true →
      ∃ t, exec (.chainDepart key links) s = .next t ∧ State.Settles [] (s.dev.linksChange links id) s t)

/-- Items of the service queues: arrival, pop, mark, rewind, release and push.

An item that fits joins the waiting ones of an enabled queue, with E-03.00 where a queue of the host was empty; one that does not is counted in Q_DROP with E-03.02. A pop of the best waiting item stores it in the lowest free landing slot, at the address the queue’s landing area gives it and nowhere else, with the poison check pattern in a word of a marked item (the model’s choice which, log 239), holds it under the next SEQ and returns its handle; an empty queue returns EMPTY, or on the head stalls; a stall that expires returns EMPTY. MARK marks the next SEQ; REWIND puts the held items from the mark back; RELEASE frees the held items up to a SEQ. PUSH takes the item described; a disabled queue and a source outside the window end it with results 3 and 4, E-03.04, any other leaves its item taken or dropped with results 1 and 2. A read that stalls takes the item that comes. -/
def Obligations.ServiceQueues : Prop :=
  (∀ (q : Fin 32) (poisoned : Bool) (bytes : List Byte) (s : State), s.Inv →
      s.dev.hubOn = true →
      s.dev.later.all (fun x => decide (x.page ≠ 0x042)) = true →
      s.dev.on (Reg.Q_CFG_EN q) = true →
      s.dev.queueFits q ⟨s.dev.rd (Reg.Q_CFG_PRIO_DEF q), 3, 0, poisoned, s.dev.time, 0, bytes⟩ = true →
      s.dev.on (Reg.Q_STAT_STALLING q) = false →
      ∃ t, exec (.queueItemArrive q poisoned bytes) s = .next t ∧ State.Settles (if (s.dev.qu q).waiting = [] ∧ s.dev.on (Reg.Q_CFG_CONSUMER q) = false then [(3, 0)] else []) (((s.dev).setQu q { (s.dev.qu q) with waiting := (s.dev.qu q).waiting ++ [⟨s.dev.rd (Reg.Q_CFG_PRIO_DEF q), 3, 0, poisoned, s.dev.time, (s.dev.qu q).arrivals, bytes⟩], arrivals := (s.dev.qu q).arrivals + 1 }).showQueue q) s t) ∧
  (∀ (q : Fin 32) (poisoned : Bool) (bytes : List Byte) (s : State), s.Inv →
      s.dev.hubOn = true →
      s.dev.later.all (fun x => decide (x.page ≠ 0x042)) = true →
      s.dev.on (Reg.Q_CFG_EN q) = true →
      s.dev.queueFits q ⟨s.dev.rd (Reg.Q_CFG_PRIO_DEF q), 3, 0, poisoned, s.dev.time, 0, bytes⟩ = false →
      ∃ t, exec (.queueItemArrive q poisoned bytes) s = .next t ∧ State.Settles ([(3, 2)]) (s.dev.bump (Reg.Q_DROP q)) s t) ∧
  (∀ (q : Fin 32) (i : QItem) (k : Nat) (s : State), s.Inv →
      s.dev.pageLive 0x043 = true →
      s.dev.later.all (fun x => decide (x.page ≠ 0x042)) = true →
      s.dev.on (Reg.Q_CFG_EN q) = true →
      s.dev.on (Reg.Q_CFG_CONSUMER q) = false →
      s.dev.on (Reg.Q_STAT_STALLING q) = false →
      bestItem (s.dev.qu q).waiting = some i →
      s.dev.freeSlot q = some k →
      ∃ t, exec (.qPop q) s = .next t ∧ State.Stores ([]) ((fun d : Dev => if i.poisoned = true then (d.poisonWords (markedWords ((Config.winHome + (s.dev.rd (Reg.Q_LAND_OFFSET q) + k * (512 * 2 ^ s.dev.rd (Reg.Q_LAND_SIZE q)))) + 64) i.bytes.length (512 * 2 ^ s.dev.rd (Reg.Q_LAND_SIZE q) - 64) s.dev.fresh)).tick else d) ({ (((s.dev).setQu q { (s.dev.qu q) with waiting := (s.dev.qu q).waiting.filter (fun j => j.order ≠ i.order), held := (s.dev.qu q).held ++ [⟨k, s.dev.rd (Reg.Q_STAT_NEXT_SEQ q), i⟩] }).wr (Reg.Q_STAT_NEXT_SEQ q) (s.dev.rd (Reg.Q_STAT_NEXT_SEQ q) + 1)).showQueue q with readData := [BitVec.ofNat 32 (2 ^ 31 + i.prio * 2 ^ 28 + k * 2 ^ 16 + s.dev.rd (Reg.Q_STAT_NEXT_SEQ q))], readPoisoned := false })) ([(Config.winHome + (s.dev.rd (Reg.Q_LAND_OFFSET q) + k * (512 * 2 ^ s.dev.rd (Reg.Q_LAND_SIZE q))), landing (512 * 2 ^ s.dev.rd (Reg.Q_LAND_SIZE q)) (s.dev.rd (Reg.Q_STAT_NEXT_SEQ q)) i)]) s t ∧
      (i.poisoned = true → i.bytes ≠ [] → i.bytes.length ≤ 512 * 2 ^ s.dev.rd (Reg.Q_LAND_SIZE q) - 64 → t.dev.integ.checks.any (fun e => decide (e.2 = poisonCheck ∧ (Config.winHome + (s.dev.rd (Reg.Q_LAND_OFFSET q) + k * (512 * 2 ^ s.dev.rd (Reg.Q_LAND_SIZE q)))) + 64 < 8 * e.1 + 8 ∧ 8 * e.1 < (Config.winHome + (s.dev.rd (Reg.Q_LAND_OFFSET q) + k * (512 * 2 ^ s.dev.rd (Reg.Q_LAND_SIZE q)))) + 64 + i.bytes.length)) = true)) ∧
  (∀ (q : Fin 32) (s : State), s.Inv →
      s.dev.pageLive 0x043 = true →
      s.dev.later.all (fun x => decide (x.page ≠ 0x042)) = true →
      s.dev.on (Reg.Q_CFG_EN q) = true →
      s.dev.on (Reg.Q_CFG_CONSUMER q) = false →
      (s.dev.qu q).waiting = [] →
      s.dev.on Reg.STRAPS_CHAIN_HEAD = false →
      ∃ t, exec (.qPop q) s = .next t ∧ State.Settles [] ({ s.dev with readData := [1], readPoisoned := false }) s t) ∧
  (∀ (q : Fin 32) (i : QItem) (s : State), s.Inv →
      s.dev.pageLive 0x043 = true →
      s.dev.later.all (fun x => decide (x.page ≠ 0x042)) = true →
      s.dev.on (Reg.Q_CFG_EN q) = true →
      s.dev.on (Reg.Q_CFG_CONSUMER q) = false →
      s.dev.on (Reg.Q_STAT_STALLING q) = false →
      bestItem (s.dev.qu q).waiting = some i →
      s.dev.freeSlot q = none →
      ∃ t, exec (.qPop q) s = .next t ∧ State.Settles ([(3, 3)]) ({ s.dev with readData := [2], readPoisoned := false }) s t) ∧
  (∀ (q : Fin 32) (s : State), s.Inv →
      s.dev.pageLive 0x043 = true →
      s.dev.later.all (fun x => decide (x.page ≠ 0x042)) = true →
      s.dev.on (Reg.Q_CFG_EN q) = true →
      s.dev.on (Reg.Q_CFG_CONSUMER q) = false →
      s.dev.on (Reg.Q_STAT_STALLING q) = false →
      (s.dev.qu q).waiting = [] →
      s.dev.on Reg.STRAPS_CHAIN_HEAD = true →
      s.dev.rd Reg.Q_STALL_STALL_US ≠ 0 →
      ∃ t, exec (.qPop q) s = .next t ∧ State.Settles [] ({ s.dev.wr (Reg.Q_STAT_STALLING q) 1 with readData := [] }) s t) ∧
  (∀ (q : Fin 32) (s : State), s.Inv →
      s.dev.on (Reg.Q_STAT_STALLING q) = true →
      ∃ t, exec (.qPopStallExpire q) s = .next t ∧ State.Settles [] ({ s.dev.wr (Reg.Q_STAT_STALLING q) 0 with readData := [1], readPoisoned := false }) s t) ∧
  (∀ (q : Fin 32) (v : Word) (s : State), s.Inv →
      s.dev.pageLive (0x043) = true →
      s.dev.pageInTest (0x043) = false →
      getBits v 0 3 = 1 →
      s.dev.on (Reg.Q_CFG_CONSUMER q) = false →
      ∃ t, exec (.qMark q v) s = .next t ∧ State.Settles [] ((((s.dev.writeWord 0x043 (0x0C0 + 4 * q.val) 0xFFFF0007 v)).setQu q { (s.dev.qu q) with mark := some (s.dev.rd (Reg.Q_STAT_NEXT_SEQ q)) }).showQueue q) s t) ∧
  (∀ (q : Fin 32) (v : Word) (m : Nat) (s : State), s.Inv →
      s.dev.pageLive (0x043) = true →
      s.dev.pageInTest (0x043) = false →
      getBits v 0 3 = 2 →
      s.dev.on (Reg.Q_CFG_CONSUMER q) = false →
      s.dev.on (Reg.Q_STAT_STALLING q) = false →
      (s.dev.qu q).mark = some m →
      ∃ t, exec (.qRewind q v) s = .next t ∧ State.Settles (if (s.dev.qu q).waiting = [] ∧ ((s.dev.qu q).held.filter fun h => seqFrom m h.seq).foldl (fun w h => insertItem h.item w) (s.dev.qu q).waiting ≠ [] then [(3, 0)] else []) (((((s.dev.writeWord 0x043 (0x0C0 + 4 * q.val) 0xFFFF0007 v)).setQu q { (s.dev.qu q) with held := (s.dev.qu q).held.filter (fun h => !seqFrom m h.seq), waiting := ((s.dev.qu q).held.filter fun h => seqFrom m h.seq).foldl (fun w h => insertItem h.item w) (s.dev.qu q).waiting }).wr (Reg.Q_STAT_NEXT_SEQ q) m).showQueue q) s t) ∧
  (∀ (q : Fin 32) (v : Word) (s : State), s.Inv →
      s.dev.pageLive (0x043) = true →
      s.dev.pageInTest (0x043) = false →
      getBits v 0 3 = 4 →
      s.dev.on (Reg.Q_CFG_CONSUMER q) = false →
      (s.dev.qu q).held.any (fun h => h.seq = getBits v 16 16) = true →
      ∃ t, exec (.qRelease q v) s = .next t ∧ State.Settles [] ((((s.dev.writeWord 0x043 (0x0C0 + 4 * q.val) 0xFFFF0007 v)).setQu q { (s.dev.qu q) with held := (s.dev.qu q).held.filter (fun h => !seqFrom h.seq (getBits v 16 16)), mark := match (s.dev.qu q).mark with | some m => (if ((s.dev.qu q).held.filter fun h => seqFrom h.seq (getBits v 16 16)).any (fun h => h.seq = m) then some ((getBits v 16 16 + 1) % 65536) else some m) | none => none }).showQueue q) s t) ∧
  (∀ (q : Fin 32) (v : Word) (s : State), s.Inv →
      s.dev.pageLive (0x043) = true →
      s.dev.pageInTest (0x043) = false →
      getBits v 0 3 ≠ 4 ∧ getBits v 0 2 ≠ 0 ∨ s.dev.on (Reg.Q_CFG_CONSUMER q) = true ∨ (s.dev.qu q).held.any (fun h => h.seq = getBits v 16 16) = false →
      ∃ t, exec (.qRelease q v) s = .next t ∧ State.Settles ([(3, 5)]) (((s.dev.writeWord 0x043 (0x0C0 + 4 * q.val) 0xFFFF0007 v).viol 0x043).oneViol (0x043) (s.dev.hdr (0x043)).viol) s t) ∧
  (∀ (v : Word) (s : State), s.Inv →
      s.dev.pageLive (0x043) = true →
      s.dev.pageInTest (0x043) = false →
      s.dev.on Reg.Q_PUSH_STAT_BUSY = false →
      ∃ t, exec (.qPush v) s = .next t ∧ State.Settles [] ({ (s.dev.writeWord 0x043 0x2C4 0x100 (v ||| 0x100)).wr Reg.Q_PUSH_STAT_BUSY 1 with push := some ⟨(s.dev.writeWord 0x043 0x2C4 0x100 (v ||| 0x100)).rd Reg.Q_PUSH_QUEUE, (s.dev.writeWord 0x043 0x2C4 0x100 (v ||| 0x100)).rd Reg.Q_PUSH_PRIO, (s.dev.writeWord 0x043 0x2C4 0x100 (v ||| 0x100)).rd Reg.Q_PUSH_LENGTH, s.dev.rd Reg.Q_PUSH_SRC_OFFSET⟩ }) s t) ∧
  (∀ (p : Push) (s : State), s.Inv →
      s.dev.push = some p →
      inWindow p.src p.length = false ∨ (({ s.dev.wr Reg.Q_PUSH_STAT_BUSY 0 with push := none } : Dev).itemBoundary p.queue).on (Reg.Q_CFG_EN p.queue) = false →
      ∃ t, exec (.qPushComplete) s = .next t ∧ (
      let B : Dev := ({ s.dev.wr Reg.Q_PUSH_STAT_BUSY 0 with push := none } : Dev).itemBoundary p.queue
      State.Settles ([(3, 4)]) (B.wr Reg.Q_PUSH_STAT_RESULT (if inWindow p.src p.length then 3 else 4)) s t)) ∧
  (∀ (p : Push) (s : State), s.Inv →
      s.dev.push = some p →
      inWindow p.src p.length = true →
      (({ s.dev.wr Reg.Q_PUSH_STAT_BUSY 0 with push := none } : Dev).itemBoundary p.queue).on (Reg.Q_CFG_EN p.queue) = true →
      ∃ t, exec (.qPushComplete) s = .next t ∧ (
      let B : Dev := ({ s.dev.wr Reg.Q_PUSH_STAT_BUSY 0 with push := none } : Dev).itemBoundary p.queue
      let a : Bool × Dev := B.queueArrive p.queue ⟨p.prio, 2, 0, false, B.time, 0, s.bytes (winAddr p.src) p.length⟩
      State.Stores ([(3, 4)]) ({ a.2.wr Reg.Q_PUSH_STAT_RESULT (if a.1 then 1 else 2) with hbmOut := [] }) (a.2.hbmOut) s t)) ∧
  (∀ (q : Fin 32) (poisoned : Bool) (bytes : List Byte) (s : State), s.Inv →
      s.dev.hubOn = true →
      (s.dev.itemBoundary q).hubOn = true →
      ∃ t, exec (.queueItemArrive q poisoned bytes) s = .next t ∧ (
      let B : Dev := s.dev.itemBoundary q
      let a : Dev := (B.queueArrive q ⟨B.rd (Reg.Q_CFG_PRIO_DEF q), 3, 0, poisoned, B.time, 0, bytes⟩).2
      State.Stores ([]) ({ a with hbmOut := [] }) (a.hbmOut) s t))

/-- The PCIe link, the shared-memory window, digests and collections.

A change of the link shows it, with E-03.06, and one that goes down counts and resets the function; a function reset counts, drops the stalled reads, and leaves D0 with MSI-X at reset; an error that AER logs raises E-03.07, a correctable one counted; the power state and MSI-X’s control bits and entries are written (log 200); a poisoned write counts with E-03.07. WIN_BASE takes the base. In D3hot a window read brings nothing. A read of the window gives the bytes under it where no check byte there was written raw, and zeros while the hub is off; a write of bytes that may all be written stores exactly them, at the base and offset. A recomputed digest shows D and its epoch with E-03.08; COLLECT starts a collection on the head, with the head’s own answer taken, and is a violation elsewhere; a query answers EPOCH, DIGEST_EPOCH and D; a collection that ends publishes its answers with E-03.09. -/
def Obligations.PcieWindowAndAlmanac : Prop :=
  (∀ (up : Bool) (speed : Fin 5) (width : Fin 3) (s : State), s.Inv →
      s.dev.pcieOn = true →
      ∃ t, exec (.pcieLinkChange (if up then .up else .down) speed width) s = .next t ∧ (
      let L : Dev := ((s.dev.wrB Reg.LINK_STAT_UP up).wr Reg.LINK_STAT_SPEED (if up then speed + 1 else 0)).wr Reg.LINK_STAT_WIDTH (if up then 2 ^ width.val else 0)
      State.Settles (if L.word Reg.LINK_STAT_UP.cell = s.dev.word Reg.LINK_STAT_UP.cell then [] else [(3, 6)]) (if s.dev.on Reg.LINK_STAT_UP = true ∧ up = false then ((fun e : Dev => (List.range 32).foldl (fun (d : Dev) (q : Nat) => d.wr (Reg.Q_STAT_STALLING q) 0) ({ e with d3hot := false, ev := { e.ev with msix := Msix.reset } } : Dev)) (L.bump Reg.PCIE_RST_LINK_DOWN)) else L) s t)) ∧
  (∀ (correctable : Bool) (speed : Fin 5) (width : Fin 3) (s : State), s.Inv →
      s.dev.pcieOn = true →
      s.dev.on Reg.LINK_STAT_UP = true →
      ∃ t, exec (.pcieLinkChange (.error correctable) speed width) s = .next t ∧ State.Settles ([(3, 7)]) (if correctable then s.dev.bump Reg.PCIE_ERR_CORR else s.dev) s t) ∧
  (∀ (hot : Bool) (speed : Fin 5) (width : Fin 3) (s : State), s.Inv →
      s.dev.pcieOn = true →
      s.dev.on Reg.LINK_STAT_UP = true →
      ∃ t, exec (.pcieLinkChange (.power hot) speed width) s = .next t ∧ State.Settles [] ({ s.dev with d3hot := hot }) s t) ∧
  (∀ (enable masked : Bool) (speed : Fin 5) (width : Fin 3) (s : State), s.Inv →
      s.dev.pcieOn = true →
      s.dev.on Reg.LINK_STAT_UP = true →
      ∃ t, exec (.pcieLinkChange (.msixControl enable masked) speed width) s = .next t ∧ State.Settles [] ({ s.dev with ev := { s.dev.ev with msix := { s.dev.ev.msix with enable := enable, masked := masked } } }) s t) ∧
  (∀ (k : Fin 2048) (addr : BitVec 64) (data : Word) (masked : Bool) (speed : Fin 5) (width : Fin 3) (s : State), s.Inv →
      s.dev.pcieOn = true →
      s.dev.on Reg.LINK_STAT_UP = true →
      s.dev.d3hot = false →
      ∃ t, exec (.pcieLinkChange (.msixEntry k addr data masked) speed width) s = .next t ∧ State.Settles [] ({ s.dev with ev := { s.dev.ev with msix := { s.dev.ev.msix with table := sset (dflt MsixEntry.reset) s.dev.ev.msix.table k.val ⟨addr, data, masked⟩ } } }) s t) ∧
  (∀ (s : State), s.Inv →
      s.dev.pcieOn = true →
      ∃ t, exec (.pcieFunctionReset) s = .next t ∧ State.Settles [] (((fun e : Dev => (List.range 32).foldl (fun (d : Dev) (q : Nat) => d.wr (Reg.Q_STAT_STALLING q) 0) ({ e with d3hot := false, ev := { e.ev with msix := Msix.reset } } : Dev)) (s.dev.bump Reg.PCIE_RST_FLR))) s t) ∧
  (∀ (s : State), s.Inv →
      s.dev.pcieOn = true →
      ∃ t, exec (.pciePoisonedWrite) s = .next t ∧ State.Settles ([(3, 7)]) (s.dev.bump Reg.PCIE_ERR_POISON_WR) s t) ∧
  (∀ (v : Word) (s : State), s.Inv →
      s.dev.pageLive (0x041) = true →
      s.dev.pageInTest (0x041) = false →
      ∃ t, exec (.winBaseWrite v) s = .next t ∧ State.Settles [] (s.dev.writeWord 0x041 0x040 0 v) s t) ∧
  (∀ (off : BitVec 30) (n : BitVec 13) (poisoned : Bool) (s : State), s.Inv →
      s.dev.hostGone = true →
      ∃ t, exec (.bar2WindowAccess (.read off n poisoned)) s = .next t ∧ State.Settles [] ({ s.dev with readData := [] }) s t) ∧
  (∀ (off : BitVec 30) (n : BitVec 13) (poisoned : Bool) (bytes : List Byte) (s : State), s.Inv →
      s.dev.hubOn = true →
      s.dev.hostGone = false →
      off.toNat + n.toNat ≤ Config.winSize →
      s.dev.integ.checks.all (fun e => decide (s.dev.rd Reg.WIN_BASE_BASE * 65536 + off.toNat + n.toNat ≤ 8 * e.1) || decide (8 * e.1 + 8 ≤ s.dev.rd Reg.WIN_BASE_BASE * 65536 + off.toNat)) = true →
      (List.range n.toNat).map (fun k => if inFirmware (s.dev.rd Reg.WIN_BASE_BASE * 65536 + off.toNat + k) then 0 else s.byte (s.dev.rd Reg.WIN_BASE_BASE * 65536 + off.toNat + k)) = bytes →
      ∃ t, exec (.bar2WindowAccess (.read off n poisoned)) s = .next t ∧ State.Settles [] ({ s.dev with readData := (List.range (ceilDiv bytes.length 4)).map fun k => BitVec.ofNat 32 (fieldLE bytes (4 * k) 4), readPoisoned := poisoned }) s t) ∧
  (∀ (off : BitVec 30) (n : BitVec 13) (poisoned : Bool) (s : State), s.Inv →
      s.dev.hubOn = false →
      s.dev.hostGone = false →
      off.toNat + n.toNat ≤ Config.winSize →
      ∃ t, exec (.bar2WindowAccess (.read off n poisoned)) s = .next t ∧ State.Settles [] ({ s.dev with readData := List.replicate (ceilDiv n.toNat 4) 0, readPoisoned := false }) s t) ∧
  (∀ (off : BitVec 30) (bytes : List Byte) (s : State), s.Inv →
      s.dev.hubOn = true →
      s.dev.hostGone = false →
      bytes ≠ [] →
      (List.range bytes.length).all (fun k => decide (off.toNat + k < Config.winSize) && s.dev.winWritable (s.dev.rd Reg.WIN_BASE_BASE * 65536 + off.toNat + k)) = true →
      ∃ t, exec (.bar2WindowAccess (.write off bytes)) s = .next t ∧ State.Stores ([]) (s.dev) ([(s.dev.rd Reg.WIN_BASE_BASE * 65536 + off.toNat, bytes)]) s t) ∧
  (∀ (s : State), s.Inv →
      s.dev.hubOn = true →
      s.dev.on Reg.ALM_STAT_DIGEST_VALID = false →
      ∃ t, exec (.digestUpdateComplete) s = .next t ∧ State.Settles ([(3, 8)]) ((((s.dev.wrWords Reg.DIGEST_D (digestWords s.dev.digest)).wr64 Reg.DIGEST_EPOCH_LO (s.dev.rd64 Reg.EPOCH_LO)).wr Reg.ALM_STAT_DIGEST_VALID 1).settleMatch) s t) ∧
  (∀ (v : Word) (s : State), s.Inv →
      s.dev.pageLive (0x001) = true →
      s.dev.pageInTest (0x001) = false →
      s.dev.on Reg.STRAPS_CHAIN_HEAD = true →
      s.dev.on Reg.ALM_STAT_COLLECT_BUSY = false →
      ∃ t, exec (.chainCollect v) s = .next t ∧ (
      let W : Dev := (s.dev.writeWord 0x001 0x0E0 1 (v ||| 1)).wr Reg.ALM_STAT_COLLECT_BUSY 1
      State.Settles [] ({ W with collecting := some W.ownAnswer }) s t)) ∧
  (∀ (v : Word) (s : State), s.Inv →
      s.dev.pageLive (0x001) = true →
      s.dev.pageInTest (0x001) = false →
      s.dev.on Reg.STRAPS_CHAIN_HEAD = false →
      ∃ t, exec (.chainCollect v) s = .next t ∧ State.Settles [] (s.dev.viol 0x001) s t) ∧
  (∀ (s : State), s.Inv →
      ∃ t, exec (.collectQuery) s = .next t ∧ State.Settles [] ({ s.dev with readData := s.dev.words Reg.EPOCH_LO.cell 2 ++ s.dev.words Reg.DIGEST_EPOCH_LO.cell 2 ++ s.dev.words (Reg.DIGEST_D 0).cell 16 }) s t) ∧
  (∀ (answers : List CollectAnswer) (s : State), s.Inv →
      s.dev.on Reg.ALM_STAT_COLLECT_BUSY = true →
      ∃ t, exec (.chainCollectComplete answers) s = .next t ∧ State.Settles [] (s.dev.collected answers) s t)

/-- The host’s shed request, the share of best-effort parsing, clock-domain queues and the links of line dies.

The host’s request joins the union of the three requests, which ACTIVE shows. While step 4 is active SHARE moves down by one to SHARE_FLOOR, and up by one to 16 otherwise. HWM_CLEAR sets every high-water mark to its queue’s fill, a free value (log 3). A queue whose writer cannot wait shows OVERFLOW and one whose reader cannot wait UNDERFLOW, with E-00.16, and stands still: a line receive queue fails its engine’s receive path, a line transmit queue puts the courses of its engine in signal fail, a client queue settles its port and a relay queue its lane’s link; a queue of class “both wait” does neither. The loss of a die’s link words fails both its engines. While the hub does not run none of these does anything. -/
def Obligations.SheddingQueuesAndDieLinks : Prop :=
  (∀ (v : Word) (s : State), s.Inv →
      s.dev.pageLive (0x00F) = true →
      s.dev.pageInTest (0x00F) = false →
      s.dev.hubOn = true →
      ∃ t, exec (.shedReqHostWrite v) s = .next t ∧ (
      let a : Dev := (s.dev.writeWord 0x00F 0x04C 0 v).hbmEval
      State.Stores ([]) ({ a with hbmOut := [] }) (a.hbmOut) s t) ∧
      t.dev.rd Reg.ACTIVE_STEP = t.dev.rd Reg.REQ_THERM_STEP ||| t.dev.rd Reg.REQ_HBM_STEP ||| t.dev.rd Reg.REQ_HOST_STEP) ∧
  (∀ (s : State), s.Inv →
      s.dev.hubOn = true →
      s.dev.on ⟨Reg.ACTIVE_STEP.cell, Reg.ACTIVE_STEP.lsb + 3, 1⟩ = true →
      s.dev.rd Reg.PARSE_BE_SHARE_FLOOR < s.dev.rd Reg.PARSE_BE_SHARE →
      ∃ t, exec (.parseBeShareStep) s = .next t ∧ State.Settles [] (s.dev.wr Reg.PARSE_BE_SHARE (s.dev.rd Reg.PARSE_BE_SHARE - 1)) s t) ∧
  (∀ (s : State), s.Inv →
      s.dev.hubOn = true →
      s.dev.on ⟨Reg.ACTIVE_STEP.cell, Reg.ACTIVE_STEP.lsb + 3, 1⟩ = true →
      s.dev.rd Reg.PARSE_BE_SHARE ≤ s.dev.rd Reg.PARSE_BE_SHARE_FLOOR →
      ∃ t, exec (.parseBeShareStep) s = .next t ∧ State.Settles [] (s.dev) s t) ∧
  (∀ (s : State), s.Inv →
      s.dev.hubOn = true →
      s.dev.on ⟨Reg.ACTIVE_STEP.cell, Reg.ACTIVE_STEP.lsb + 3, 1⟩ = false →
      s.dev.rd Reg.PARSE_BE_SHARE < 16 →
      ∃ t, exec (.parseBeShareStep) s = .next t ∧ State.Settles [] (s.dev.wr Reg.PARSE_BE_SHARE (s.dev.rd Reg.PARSE_BE_SHARE + 1)) s t) ∧
  (∀ (v : Word) (s : State), s.Inv →
      s.dev.pageLive (0x00E) = true →
      s.dev.pageInTest (0x00E) = false →
      ∃ t, exec (.xqHwmClear v) s = .next t ∧ State.Settles [] (((List.range 220).foldl (fun (d : Dev) q => d.wr (Reg.LEVEL_HWM q) (d.xqFill q)) (s.dev.writeWord 0x00E 0x3B0 1 (v ||| 1))).tick) s t) ∧
  (∀ (q : Fin 220) (s : State), s.Inv →
      s.dev.hubOn = true →
      q.val < 8 →
      ∃ t, exec (.xqOverflow q) s = .next t ∧ State.Settles ([(0, 16)]) ((fun d : Dev => (d.setRxe (q.val) { d.rxe (q.val) with fault := true }).alFollowPair (q.val)) ({ s.dev.wr (Reg.LEVEL_OVERFLOW q.val) 1 with xqStopped := q.val :: s.dev.xqStopped.filter fun x => x ≠ q.val })) s t) ∧
  (∀ (q : Fin 220) (s : State), s.Inv →
      s.dev.hubOn = true →
      8 ≤ q.val ∧ q.val < 16 →
      ∃ t, exec (.xqOverflow q) s = .next t ∧ State.Settles ([(0, 16)]) (({ s.dev.wr (Reg.LEVEL_UNDERFLOW q.val) 1 with xqStopped := q.val :: s.dev.xqStopped.filter fun x => x ≠ q.val } : Dev).settleCourses) s t) ∧
  (∀ (q : Fin 220) (s : State), s.Inv →
      s.dev.hubOn = true →
      16 ≤ q.val ∧ q.val < 144 →
      ∃ t, exec (.xqOverflow q) s = .next t ∧ (
      let F : Dev := if q.val < 80 then { s.dev.wr (Reg.LEVEL_OVERFLOW q.val) 1 with xqStopped := q.val :: s.dev.xqStopped.filter fun x => x ≠ q.val } else { s.dev.wr (Reg.LEVEL_UNDERFLOW q.val) 1 with xqStopped := q.val :: s.dev.xqStopped.filter fun x => x ≠ q.val }
      State.Settles ([(0, 16)]) (match s.dev.portOfLane ((q.val - 16) % 64) with | some p => Dev.settlePort p F | none => F) s t)) ∧
  (∀ (q : Fin 220) (s : State), s.Inv →
      s.dev.hubOn = true →
      184 ≤ q.val ∧ q.val < 216 →
      ∃ t, exec (.xqOverflow q) s = .next t ∧ State.Settles [] (s.dev.laneStep (64 + (q.val - 184) % 16) fun d => ({ d.wr (if q.val < 200 then Reg.LEVEL_OVERFLOW q.val else Reg.LEVEL_UNDERFLOW q.val) 1 with xqStopped := q.val :: d.xqStopped.filter fun x => x ≠ q.val }).raise 0 16) s t ∧
      t.dev.latched 0 16 = true) ∧
  (∀ (q : Fin 220) (s : State), s.Inv →
      s.dev.hubOn = false →
      ∃ t, exec (.xqOverflow q) s = .next t ∧ State.Settles [] (s.dev) s t) ∧
  (∀ (s : State), s.Inv →
      s.dev.hubOn = false ∨ (s.dev.on ⟨Reg.ACTIVE_STEP.cell, Reg.ACTIVE_STEP.lsb + 3, 1⟩ = false ∧ 16 ≤ s.dev.rd Reg.PARSE_BE_SHARE) →
      ∃ t, exec (.parseBeShareStep) s = .next t ∧ State.Settles [] (s.dev) s t) ∧
  (∀ (k : Fin 4) (s : State), s.Inv →
      s.dev.hubOn = false ∨ s.dev.lineOn (2 * k.val) = false →
      ∃ t, exec (.dieLinkLoss k) s = .next t ∧ State.Settles [] (s.dev) s t) ∧
  (∀ (q : Fin 220) (s : State), s.Inv →
      s.dev.hubOn = true →
      144 ≤ q.val ∧ q.val < 184 ∨ 216 ≤ q.val →
      ∃ t, exec (.xqOverflow q) s = .next t ∧ State.Settles [] (s.dev) s t) ∧
  (∀ (k : Fin 4) (s : State), s.Inv →
      s.dev.hubOn = true →
      s.dev.lineOn (2 * k.val) = true →
      ∃ t, exec (.dieLinkLoss k) s = .next t ∧ State.Settles [] ((fun d : Dev => (d.setRxe (2 * k.val + 1) { d.rxe (2 * k.val + 1) with fault := true }).alFollowPair (2 * k.val + 1)) ((fun d : Dev => (d.setRxe (2 * k.val) { d.rxe (2 * k.val) with fault := true }).alFollowPair (2 * k.val)) ({ s.dev with dieLost := s.dev.dieLost ||| (1 <<< k.val) }))) s t)

/-- The shadow of a page: arming, committing, refusal, discarding, and the boundaries at which values come into force.

ARM takes an OPEN page to ARMED and DISARM takes it back; an operation that the state does not allow, and several operations at once, are ignored and counted. A COMMIT that passes its page’s check makes the page PENDING, raises COMMIT_EPOCH, puts its hub-clock fields in force at once and leaves the others waiting for their boundary, and is journalled with kind 0; one that does not leaves the page OPEN with LAST_REFUSED, counted, with the events of its rule. COMMIT_ALL with one page ARMED does the same with kind 1 and RESULT 1 or 2; with none it is ignored and counted. DISCARD makes the shadow copies of an OPEN page equal to the effective values and is counted otherwise. CLR_VIOL clears the count. A boundary puts in force what waits for it; a PENDING page returns to OPEN. -/
def Obligations.CommitsAndBoundaries : Prop :=
  (∀ (page : BitVec 12) (v : Word) (s : State), s.Inv →
      s.dev.pageLive page.toNat = true →
      page.toNat < 0x400 →
      v &&& 0xFFFFFFF8 = 0 →
      getBits v 1 2 = 0 →
      (s.dev.hdr page.toNat).cstate = .opened →
      ∃ t, exec (.shadowArm page v) s = .next t ∧ State.Settles [] ((s.dev).setHdr page.toNat { s.dev.hdr page.toNat with cstate := .armed }) s t) ∧
  (∀ (page : BitVec 12) (v : Word) (s : State), s.Inv →
      s.dev.pageLive page.toNat = true →
      page.toNat < 0x400 →
      getBits v 1 2 ≠ 0 ∨ (s.dev.hdr page.toNat).cstate = .pendingCommit →
      ∃ t, exec (.shadowArm page v) s = .next t ∧ State.Settles [] (s.dev.viol page.toNat) s t) ∧
  (∀ (page : BitVec 12) (v : Word) (s : State), s.Inv →
      s.dev.pageLive page.toNat = true →
      page.toNat < 0x400 →
      v &&& 0xFFFFFFF8 = 0 →
      getBits v 0 2 = 0 →
      (s.dev.hdr page.toNat).cstate = .armed →
      ∃ t, exec (.shadowDisarm page v) s = .next t ∧ State.Settles [] ((s.dev).setHdr page.toNat { s.dev.hdr page.toNat with cstate := .opened }) s t) ∧
  (∀ (page : BitVec 12) (v : Word) (s : State), s.Inv →
      s.dev.pageLive page.toNat = true →
      page.toNat < 0x400 →
      (s.dev.hdr page.toNat).cstate ≠ .armed →
      ∃ t, exec (.shadowDisarm page v) s = .next t ∧ State.Settles [] (s.dev.viol page.toNat) s t) ∧
  (∀ (page : BitVec 12) (v : Word) (s : State), s.Inv →
      s.dev.pageLive page.toNat = true →
      page.toNat < 0x400 →
      page.toNat < 0x100 ∧ page ≠ 0x00F ∧ page ≠ 0x0B2 →
      s.dev.pageInTest page.toNat = false →
      v &&& 0xFFFFFFF8 = 0 →
      getBits v 0 1 = 0 ∧ getBits v 2 1 = 0 →
      (s.dev.hdr page.toNat).cstate ≠ .pendingCommit →
      s.dev.pageCheck (s.dev.adoptFor [page.toNat] page.toNat) page.toNat = none →
      ∃ t, exec (.shadowCommit page v) s = .next t ∧ (
      let Z : Dev := ({ (((s.dev.diff page.toNat).filter fun x => decide (x.2.bnd = .hub)).foldl (fun (d : Dev) x => d.wr (x.2.at x.1) (s.dev.sh (x.2.at x.1))) ((s.dev).setHdr page.toNat { s.dev.hdr page.toNat with cstate := .pendingCommit, lastRefused := false, epoch := (s.dev.hdr page.toNat).epoch.succ % 2 ^ 32 })) with later := (s.dev.later.filter fun (x : Later) => decide (x.page ≠ page.toNat)) ++ ((s.dev.diff page.toNat).filter fun x => decide (x.2.bnd ≠ .hub)).map fun x => laterOf page.toNat x (s.dev.sh (x.2.at x.1)) } : Dev)
      State.Stores ([]) ({ ((Z).journal page.toNat s.dev.masterCode 0) with hbmOut := [] }) ([(Config.jrnBase + 32 * (Z).rd Reg.JRN_WR_INDEX, (Z).journalEntry page.toNat s.dev.masterCode 0 ((Z).rd64 Reg.EPOCH_LO + 1))]) s t)) ∧
  (∀ (v : Word) (s : State), s.Inv →
      s.dev.pageLive 0x300 = true →
      s.dev.pageInTest 0x300 = false →
      v &&& 0xFFFFFFF8 = 0 →
      getBits v 0 1 = 0 ∧ getBits v 2 1 = 0 →
      (s.dev.hdr 0x300).cstate ≠ .pendingCommit →
      s.dev.pageCheck (s.dev.adoptFor [0x300] 0x300) 0x300 = none →
      ∃ t, exec (.shadowCommit 0x300 v) s = .next t ∧ (
      let B : Dev := ({ (((s.dev.diff 0x300).filter fun x => decide (x.2.bnd = .hub)).foldl (fun (d : Dev) x => d.wr (x.2.at x.1) (s.dev.sh (x.2.at x.1))) ((s.dev).setHdr 0x300 { s.dev.hdr 0x300 with cstate := .pendingCommit, lastRefused := false, epoch := (s.dev.hdr 0x300).epoch.succ % 2 ^ 32 })) with later := (s.dev.later.filter fun (x : Later) => decide (x.page ≠ 0x300)) ++ ((s.dev.diff 0x300).filter fun x => decide (x.2.bnd ≠ .hub)).map fun x => laterOf 0x300 x (s.dev.sh (x.2.at x.1)) } : Dev)
      let Z : Dev := ((((({ B with parse := { B.parse with epochs := B.parse.epochs ++ [⟨(s.dev.rd Reg.EPOCH_STAT_CURRENT + 1) % 65536, B.rd Reg.EPOCH_PARAM_CYC_MAX, B.rd Reg.EPOCH_PARAM_LKE_MAX, B.rd Reg.EPOCH_PARAM_LKW_MAX, B.rd Reg.PASS_LIMIT_CYC_LIMIT, B.rd Reg.EPOCH_PARAM_BANK, B.word Reg.EXC_ACTION_FLOW.cell⟩] } } : Dev)).showEpochs).raise 26 0).retireEpochs 4)
      State.Stores ([]) ({ ((Z).journal 0x300 s.dev.masterCode 0) with hbmOut := [] }) ([(Config.jrnBase + 32 * (Z).rd Reg.JRN_WR_INDEX, (Z).journalEntry 0x300 s.dev.masterCode 0 ((Z).rd64 Reg.EPOCH_LO + 1))]) s t)) ∧
  (∀ (page : BitVec 12) (v : Word) (evs : List (Nat × Nat)) (s : State), s.Inv →
      s.dev.pageLive page.toNat = true →
      page.toNat < 0x400 →
      page ≠ 0x280 →
      s.dev.pageInTest page.toNat = false →
      v &&& 0xFFFFFFF8 = 0 →
      getBits v 0 1 = 0 ∧ getBits v 2 1 = 0 →
      (s.dev.hdr page.toNat).cstate ≠ .pendingCommit →
      s.dev.pageCheck (s.dev.adoptFor [page.toNat] page.toNat) page.toNat = some evs →
      ∃ t, exec (.shadowCommit page v) s = .next t ∧ State.Settles (evs) (((s.dev).setHdr page.toNat { s.dev.hdr page.toNat with cstate := .opened, lastRefused := true }).viol page.toNat) s t) ∧
  (∀ (page : BitVec 12) (v : Word) (s : State), s.Inv →
      s.dev.pageLive page.toNat = true →
      page.toNat < 0x400 →
      (s.dev.hdr page.toNat).cstate = .pendingCommit →
      ∃ t, exec (.shadowCommit page v) s = .next t ∧ State.Settles [] (s.dev.viol page.toNat) s t) ∧
  (∀ (page : BitVec 12) (v : Word) (s : State), s.Inv →
      s.dev.pageLive 0x041 = true →
      page.toNat < 0x041 ∨ (0x041 < page.toNat ∧ page.toNat < 0x100) →
      page ≠ 0x00F ∧ page ≠ 0x0B2 →
      s.dev.pageInTest page.toNat = false →
      s.dev.armed = [page.toNat] →
      s.dev.pageCheck (s.dev.adoptFor [page.toNat] page.toNat) page.toNat = none →
      v &&& 0xFFFFFFFE = 0 →
      ∃ t, exec (.commitAll v) s = .next t ∧ (
      let Z : Dev := ({ (((s.dev.diff page.toNat).filter fun x => decide (x.2.bnd = .hub)).foldl (fun (d : Dev) x => d.wr (x.2.at x.1) (s.dev.sh (x.2.at x.1))) ((s.dev.writeWord 0x041 0x048 1 (v ||| 1)).setHdr page.toNat { s.dev.hdr page.toNat with cstate := .pendingCommit, lastRefused := false, epoch := (s.dev.hdr page.toNat).epoch.succ % 2 ^ 32 })) with later := (s.dev.later.filter fun (x : Later) => decide (x.page ≠ page.toNat)) ++ ((s.dev.diff page.toNat).filter fun x => decide (x.2.bnd ≠ .hub)).map fun x => laterOf page.toNat x (s.dev.sh (x.2.at x.1)) } : Dev)
      State.Stores ([]) ({ (((Z).journal page.toNat s.dev.masterCode 1).wr Reg.COMMIT_ALL_RESULT 1) with hbmOut := [] }) ([(Config.jrnBase + 32 * (Z).rd Reg.JRN_WR_INDEX, (Z).journalEntry page.toNat s.dev.masterCode 1 ((Z).rd64 Reg.EPOCH_LO + 1))]) s t)) ∧
  (∀ (page : BitVec 12) (v : Word) (evs : List (Nat × Nat)) (s : State), s.Inv →
      s.dev.pageLive 0x041 = true →
      page.toNat < 0x041 ∨ (0x041 < page.toNat ∧ page.toNat < 0x100) →
      s.dev.pageInTest page.toNat = false →
      s.dev.armed = [page.toNat] →
      s.dev.pageCheck (s.dev.adoptFor [page.toNat] page.toNat) page.toNat = some evs →
      v &&& 0xFFFFFFFE = 0 →
      ∃ t, exec (.commitAll v) s = .next t ∧ State.Settles (evs) ((((s.dev).setHdr page.toNat { s.dev.hdr page.toNat with cstate := .opened, lastRefused := true }).viol page.toNat).wr Reg.COMMIT_ALL_RESULT 2) s t) ∧
  (∀ (v : Word) (s : State), s.Inv →
      s.dev.pageLive 0x041 = true →
      s.dev.armed = [] →
      v &&& 0xFFFFFFFE = 0 →
      ∃ t, exec (.commitAll v) s = .next t ∧ State.Settles [] (((s.dev.writeWord 0x041 0x048 1 (v ||| 1)).viol 0x041).oneViol (0x041) (s.dev.hdr (0x041)).viol) s t) ∧
  (∀ (page : BitVec 12) (v : Word) (s : State), s.Inv →
      s.dev.pageLive page.toNat = true →
      page.toNat < 0x400 →
      v.getLsbD 0 = false →
      v &&& 0xFFFFFFFC = 0 →
      (s.dev.hdr page.toNat).cstate = .opened →
      ∃ t, exec (.shadowDiscard page v) s = .next t ∧ State.Settles [] ((s.dev.diff page.toNat).foldl (fun d x => d.setShadow x.1 (setBits (sget resetWord d.shadow x.1) x.2.lsb x.2.width (s.dev.rd (x.2.at x.1)))) s.dev) s t) ∧
  (∀ (page : BitVec 12) (v : Word) (s : State), s.Inv →
      s.dev.pageLive page.toNat = true →
      page.toNat < 0x400 →
      v.getLsbD 0 = false →
      (s.dev.hdr page.toNat).cstate ≠ .opened →
      ∃ t, exec (.shadowDiscard page v) s = .next t ∧ State.Settles [] (s.dev.viol page.toNat) s t) ∧
  (∀ (page : BitVec 12) (v : Word) (s : State), s.Inv →
      s.dev.pageLive page.toNat = true →
      page.toNat < 0x400 →
      v &&& 0xFFFFFFFE = 0 →
      ∃ t, exec (.clrViol page v) s = .next t ∧ State.Settles [] ((s.dev).setHdr page.toNat { s.dev.hdr page.toNat with viol := 0 }) s t) ∧
  (∀ (page : BitVec 12) (bnd : Boundary) (s : State), s.Inv →
      page.toNat < 0x100 ∧ page.toNat ∉ [0x042, 0x090, 0x091, 0x092, 0x094] →
      bnd ≠ .hub ∧ bnd ≠ .relight ∧ bnd ≠ .rxFrame →
      ∃ t, exec (.boundaryApply page bnd) s = .next t ∧ State.Settles [] ({ ((s.dev.later.filter fun (x : Later) => decide (x.page = page.toNat) && decide (x.bnd = bnd)).foldl (fun (d : Dev) (x : Later) => d.setWord x.cell ((d.word x.cell &&& ~~~ x.mask) ||| (x.value &&& x.mask))) s.dev) with later := s.dev.later.filter fun (x : Later) => !(decide (x.page = page.toNat) && decide (x.bnd = bnd)) }) s t) ∧
  (∀ (page : BitVec 12) (bnd : Boundary) (s : State), s.Inv →
      bnd = .hub ∨ bnd = .relight ∨ bnd = .rxFrame →
      ∃ t, exec (.boundaryApply page bnd) s = .next t ∧ State.Settles [] (s.dev) s t) ∧
  (∀ (page : BitVec 12) (s : State), s.Inv →
      (s.dev.hdr page.toNat).cstate = .pendingCommit →
      ∃ t, exec (.commitPendingEnd page) s = .next t ∧ State.Settles [] ((s.dev).setHdr page.toNat { s.dev.hdr page.toNat with cstate := .opened }) s t)

/-- A write of a register word.

On a page whose registers act by their access codes alone, a write of a word takes each field by its access code. A write to an unallocated page changes nothing and is counted in DEV.VIOLATION_COUNT. Writes of SHADOW_CTL, CTRL, HWM_CLEAR, EV_FORCE and REQ_HOST with the command’s bit set are the commands of those names. A write command whose page does not answer changes nothing and is counted in DEV.VIOLATION_COUNT, and in D3hot it does not reach the device. While the block of its page is under test its RW and W1C fields are held, and its command bits, and the commands of the CMD table, are refused with BUSY_TEST: counted in the page, BIST_REFUSE.PAGE and COUNT set, E-06.04; FG_RUN too, for the engine’s blocks. -/
def Obligations.RegisterWrites : Prop :=
  (∀ (page off : BitVec 12) (v : Word) (s : State), s.Inv →
      s.dev.pageLive page.toNat = true →
      s.dev.pageInTest page.toNat = false →
      page.toNat ∈ [0x004, 0x011, 0x018, 0x031, 0x032, 0x040, 0x042, 0x080, 0x091, 0x094, 0x0A0, 0x0A1, 0x0B9, 0x240, 0x280, 0x300, 0x341] →
      0x040 ≤ off.toNat →
      tblAt page.toNat (off.toNat / 4 * 4) = none →
      ∃ t, exec (.registerWrite page off v) s = .next t ∧ State.Settles [] (s.dev.writeWord page.toNat (off.toNat / 4 * 4) 0 v) s t) ∧
  (∀ (page off : BitVec 12) (v : Word) (s : State), s.Inv →
      pageAllocated page.toNat = false →
      page.toNat < 0x060 →
      s.dev.d3hot = false →
      ∃ t, exec (.registerWrite page off v) s = .next t ∧ State.Settles [] (s.dev.viol 0x000) s t) ∧
  (∀ (page off : BitVec 12) (v : Word) (s : State), s.Inv → off.toNat / 4 * 4 = 0x020 →
      (v.getLsbD 0 = true → exec (.registerWrite page off v) s = exec (.shadowArm page v) s) ∧
      (v.getLsbD 1 = true → exec (.registerWrite page off v) s = exec (.shadowCommit page v) s) ∧
      (v.getLsbD 2 = true → exec (.registerWrite page off v) s = exec (.shadowDisarm page v) s)) ∧
  (∀ (i : Instr) (p : Nat) (s : State), s.Inv →
      i.page = some p →
      s.dev.pageLive p = false →
      ∃ t, exec (i) s = .next t ∧ State.Settles [] (if s.dev.d3hot then s.dev else s.dev.viol 0x000) s t) ∧
  (∀ (i : Instr) (p : Nat) (h : HeldWrite) (b : Bool) (s : State), s.Inv →
      i.page = some p →
      i.inTest s.dev = some (h, b) →
      s.dev.pageLive p = true →
      s.dev.pageInTest p = true →
      ∃ t, exec (i) s = .next t ∧ State.Settles (if b then [(6, 4)] else []) ((fun (d : Dev) => if b then ((d.viol p).wr Reg.BIST_REFUSE_PAGE p).bump Reg.BIST_REFUSE_COUNT else d) { s.dev with bist := { s.dev.bist with held := s.dev.bist.held ++ [h] } }) s t) ∧
  (∀ (i : Instr) (p : BitVec 8) (s : State), s.Inv →
      i ∈ [.cmdLo p, .cmdFs p, .cmdMs p, .cmdMsW p, .cmdClear p, .cmdRegrid p, .cmdZeroPstat p] →
      s.dev.pageLive 0x280 = true →
      s.dev.pageInTest 0x280 = true →
      ∃ t, exec (i) s = .next t ∧ State.Settles ([(6, 4)]) ((fun (d : Dev) => if s.dev.on Reg.PARALLAX_TBL_INDEX_AUTO_INC then d.wr Reg.PARALLAX_TBL_INDEX_INDEX (p.toNat + 1) else d) (((s.dev.viol 0x280).wr Reg.BIST_REFUSE_PAGE 0x280).bump Reg.BIST_REFUSE_COUNT)) s t) ∧
  (∀ (w : TblWindow) (v : Word) (s : State), s.Inv →
      w ≠ .collim →
      s.dev.pageLive (tblPage w) = true →
      s.dev.pageInTest (tblPage w) = true →
      ∃ t, exec (.tblOpRead w v) s = .next t ∧ State.Settles ([(6, 4)]) ((((({ s.dev with bist := { s.dev.bist with held := s.dev.bist.held ++ [.word (tblPage w) (tblOpOff w) (v &&& 0xFFFFFFFC)] } } : Dev).viol (tblPage w)).wr Reg.BIST_REFUSE_PAGE (tblPage w)).bump Reg.BIST_REFUSE_COUNT).tblAdvance w) s t) ∧
  (∀ (w : TblWindow) (v : Word) (c : Bool) (s : State), s.Inv →
      w ≠ .collim →
      s.dev.pageLive (tblPage w) = true →
      s.dev.pageInTest (tblPage w) = true →
      ∃ t, exec (.tblOpWrite w v c) s = .next t ∧ State.Settles ([(6, 4)]) ((((({ s.dev with bist := { s.dev.bist with held := s.dev.bist.held ++ [.word (tblPage w) (tblOpOff w) (v &&& 0xFFFFFFFC)] } } : Dev).viol (tblPage w)).wr Reg.BIST_REFUSE_PAGE (tblPage w)).bump Reg.BIST_REFUSE_COUNT).tblAdvance w) s t) ∧
  (∀ (n : Fin 8) (v : Word) (s : State), s.Inv →
      s.dev.pageLive 0x0B2 = true →
      ((lineBlocks n).any fun b => s.dev.bist.run.contains b) = true →
      ∃ t, exec (.lcalFgRun n v) s = .next t ∧ State.Settles ([(6, 4)]) ((((((s.dev.writeWord 0x0B2 (0x040 + 4 * n) 2 (v ||| 2)).viol 0x0B2).wr Reg.BIST_REFUSE_PAGE 0x0B2).bump Reg.BIST_REFUSE_COUNT)).oneViol (0x0B2) (s.dev.hdr (0x0B2)).viol) s t) ∧
  (∀ (page off : BitVec 12) (v : Word) (s : State), s.Inv → off.toNat / 4 * 4 = 0x008 →
      (v.getLsbD 0 = true → exec (.registerWrite page off v) s = exec (.clrViol page v) s) ∧
      (v.getLsbD 1 = true → exec (.registerWrite page off v) s = exec (.shadowDiscard page v) s)) ∧
  (∀ (v : Word) (s : State), s.Inv →
      exec (.registerWrite 0x00F 0x04C v) s = exec (.shedReqHostWrite v) s ∧
      (v.getLsbD 0 = true → exec (.registerWrite 0x00E 0x3B0 v) s = exec (.xqHwmClear v) s) ∧
      (v.getLsbD 10 = true → exec (.registerWrite 0x020 0x04C v) s = exec (.evForce v) s))

/-- Reset, power states, sleep and waking.

The release of PERST_N samples the straps, and a booted Finder in FINDER_ONLY begins STARTING at step 2 with E-00.00, the life-cycle state burned in force; assertion with no engine in light returns to FINDER_ONLY, PERST_N’s registers at reset. A sleep request in RUN with every engine dark begins the shutdown BIST; another is counted with E-00.06. The entry’s end shows SLEEP with E-00.00 and E-00.05, and leaves the shutdown record with the failing addresses. In SLEEP the pin, the timer and a host write of SLEEP = 0 wake with their cause and E-02.00; outside it none does anything. A PLL that loses lock is counted with E-01.06, a watchdog restart with E-02.01. A loss of Finder power leaves the reset state with the fuses, the Finder’s store, its candidates and the level of PERST_N. -/
def Obligations.PowerStates : Prop :=
  (∀ (large head : Bool) (s : State), s.Inv →
      s.dev.power.perst = false →
      s.dev.pwr = pwrFinderOnly →
      s.dev.on Reg.FINDER_STAT_BOOTED = true →
      s.dev.on Reg.THERM_STAT_SHUTDOWN = false →
      ∃ t, exec (.perstNRelease large head) s = .next t ∧ State.Settles ([(0, 0)]) ((fun e : Dev => (((((((({ (((e.wr Reg.LC_STAT_STATE e.vault.burned).wr Reg.LC_STAT_PENDING 0).wr Reg.LC_STAT_PEND_TARGET 0) with vault := { e.vault with state := e.vault.burned }, dieLost := 0, power := { e.power with released := false, startAt := e.clock, record := none, consumed := e.power.record } } : Dev).wr Reg.CHAIN_STAT_HEAD (e.rd Reg.STRAPS_CHAIN_HEAD)).wr Reg.POS_POS 0).wr Reg.FINDER_STAT_BIST_REC 0).wr Reg.PWR_STAT_CAUSE 0).wr Reg.PWR_STAT_QUICK 0).wr Reg.PWR_STAT_STEP 2).wr Reg.PWR_STAT_STATE pwrStarting).wr ⟨Reg.PLL_STAT_HUB.cell, 0, 9⟩ 0x1FF) ({ ((((((s.dev.wrB Reg.STRAPS_FLEET_MODE large).wrB Reg.STRAPS_CHAIN_HEAD head).wr Reg.STRAPS_FLEET_SETTLED 0).wr Reg.STRAPS_MODE_OVERRIDDEN 0).wr Reg.STRAPS_FLEET_EFF (if large then 1 else 0)).wrB Reg.CHAIN_STAT_HEAD head) with power := { s.dev.power with perst := true, released := true, xoLost := false } })) s t) ∧
  (∀ (large head : Bool) (s : State), s.Inv →
      s.dev.power.perst = false →
      s.dev.pwr ≠ pwrFinderOnly ∨ s.dev.on Reg.FINDER_STAT_BOOTED = false ∧ s.dev.power.bootFailed = false →
      ∃ t, exec (.perstNRelease large head) s = .next t ∧ State.Settles [] ({ ((((((s.dev.wrB Reg.STRAPS_FLEET_MODE large).wrB Reg.STRAPS_CHAIN_HEAD head).wr Reg.STRAPS_FLEET_SETTLED 0).wr Reg.STRAPS_MODE_OVERRIDDEN 0).wr Reg.STRAPS_FLEET_EFF (if large then 1 else 0)).wrB Reg.CHAIN_STAT_HEAD head) with power := { s.dev.power with perst := true, released := true, xoLost := false } }) s t) ∧
  (∀ (s : State), s.Inv →
      s.dev.power.perst = true →
      s.dev.pwr = pwrFinderOnly →
      ∃ t, exec (.perstNAssert) s = .next t ∧ State.Settles [] ({ s.dev with power := { s.dev.power with perst := false, released := false } }) s t) ∧
  (∀ (s : State), s.Inv →
      s.dev.power.perst = true →
      s.dev.hubOn = true →
      (List.range 8).all (fun n => !s.dev.lightOn n) = true →
      s.dev.on Reg.THERM_STAT_SHUTDOWN = false →
      s.dev.on Reg.BIST_STAT_BUSY = false →
      ∃ t, exec (.perstNAssert) s = .next t ∧ State.Settles ([(0, 0)]) (((((({ (((s.dev.hubCleared finderPage).wr Reg.REQ_THERM_STEP (s.dev.rd Reg.REQ_THERM_STEP)).wr Reg.ACTIVE_STEP (s.dev.rd Reg.REQ_THERM_STEP)) with power := { s.dev.power with perst := false, released := false, resetDue := false, rampers := [], sleepDue := false, afterSleep := false } } : Dev).wr Reg.STRAPS_FLEET_SETTLED 0).wr Reg.STRAPS_MODE_OVERRIDDEN 0).wr Reg.STRAPS_FLEET_EFF (s.dev.rd Reg.STRAPS_FLEET_MODE)).wr Reg.PWR_STAT_STEP 0 |>.wr Reg.PWR_STAT_CAUSE 0 |>.wr Reg.POS_POS 0 |>.wr Reg.PWR_STAT_STATE pwrFinderOnly).wr ⟨Reg.PLL_STAT_HUB.cell, 0, 9⟩ 0x100) s t) ∧
  (∀ (v : Word) (s : State), s.Inv →
      s.dev.pageLive 0x002 = true →
      s.dev.pwr = pwrRun →
      s.dev.power.sleepDue = false →
      (List.range 8).all (fun n => s.dev.txs n = txDark) = true →
      s.dev.on Reg.BIST_STAT_BUSY = false →
      ∃ t, exec (.pwrSleepRequest v) s = .next t ∧ State.Settles [] ({ ((((List.range 76).filter s.dev.blockFused).foldl (fun (d : Dev) b => d.setBlock b { d.block b with result := resRunning, patterns := 0, addr := 0, bit := 0 }) ((s.dev.writeWord 0x002 0x040 1 (v ||| 1)).wr Reg.PWR_CTRL_SLEEP 1)).wr Reg.BIST_STAT_BUSY 1).wr Reg.BIST_STAT_KIND 2 with power := { s.dev.power with sleepDue := true } }.storeDirty) s t ∧
      t.dev.on Reg.PWR_CTRL_SLEEP = true ∧ t.dev.pwr = pwrRun) ∧
  (∀ (v : Word) (s : State), s.Inv →
      s.dev.pageLive (0x002) = true →
      s.dev.pageInTest (0x002) = false →
      s.dev.hubOn = true →
      s.dev.power.sleepDue = false →
      (List.range 8).all (fun n => s.dev.txs n = txDark) = false →
      ∃ t, exec (.pwrSleepRequest v) s = .next t ∧ State.Settles ([(0, 6)]) (((s.dev.writeWord 0x002 0x040 1 (v ||| 1)).viol 0x002).oneViol (0x002) (s.dev.hdr (0x002)).viol) s t) ∧
  (∀ (outcomes : List BlockOutcome) (s : State), s.Inv →
      s.dev.power.sleepDue = true →
      s.dev.pwr = pwrRun →
      getBits (s.dev.ev.group 0).route 11 1 = 0 →
      ∃ t, exec (.sleepEntryComplete outcomes) s = .next t ∧ State.Settles ([(0, 0), (0, 5)]) ((((fun e : Dev => { e with power := { e.power with sleepDue := false, failing := ((List.range 76).filter fun b => decide ((e.block b).result = resFail)).map fun b => (b, (e.block b).addr, (e.block b).bit) } } ) ((fun e : Dev => if e.allPass then { e with power := { e.power with record := some ⟨e.measureWords, e.rd Reg.ARB_COUNT⟩ } }.wr Reg.FINDER_STAT_BIST_REC 1 else e) ((outcomes.foldl (fun (d : Dev) o => d.blockOutcome o) s.dev).bistCut.wr Reg.BIST_STAT_BUSY 0))).abandonDigital.wr Reg.PWR_STAT_STATE pwrSleep).wr ⟨Reg.PLL_STAT_HUB.cell, 0, 9⟩ 0x140) s t) ∧
  (∀ (s : State), s.Inv →
      s.dev.pwr = pwrSleep →
      s.dev.on Reg.FINDER_CTRL_WAKE_PIN = true →
      ∃ t, exec (.wakePin) s = .next t ∧ State.Settles ([(0, 0)]) ((fun e : Dev => (((((((({ (((e.wr Reg.LC_STAT_STATE e.vault.burned).wr Reg.LC_STAT_PENDING 0).wr Reg.LC_STAT_PEND_TARGET 0) with vault := { e.vault with state := e.vault.burned }, dieLost := 0, power := { e.power with released := false, startAt := e.clock, record := none, consumed := e.power.record } } : Dev).wr Reg.CHAIN_STAT_HEAD (e.rd Reg.STRAPS_CHAIN_HEAD)).wr Reg.POS_POS 0).wr Reg.FINDER_STAT_BIST_REC 0).wr Reg.PWR_STAT_CAUSE 0).wr Reg.PWR_STAT_QUICK 0).wr Reg.PWR_STAT_STEP 2).wr Reg.PWR_STAT_STATE pwrStarting).wr ⟨Reg.PLL_STAT_HUB.cell, 0, 9⟩ 0x1FF) (({ (((((((s.dev.wr Reg.WAKE_CAUSE_SOURCE 1).wr Reg.WAKE_CAUSE_GROUP 0).wr Reg.WAKE_CAUSE_ENGINE 0)).raise 2 0).hubCleared sleepKeeps).wr Reg.REQ_THERM_STEP (s.dev.rd Reg.REQ_THERM_STEP)).wr Reg.ACTIVE_STEP (s.dev.rd Reg.REQ_THERM_STEP) with ev := { (((((s.dev.wr Reg.WAKE_CAUSE_SOURCE 1).wr Reg.WAKE_CAUSE_GROUP 0).wr Reg.WAKE_CAUSE_ENGINE 0)).raise 2 0).ev with wakeReq := none }, power := { s.dev.power with afterSleep := true } } : Dev))) s t) ∧
  (∀ (s : State), s.Inv →
      s.dev.pwr ≠ pwrSleep ∨ s.dev.on Reg.FINDER_CTRL_WAKE_PIN = false →
      ∃ t, exec (.wakePin) s = .next t ∧ State.Settles [] (s.dev) s t) ∧
  (∀ (s : State), s.Inv →
      s.dev.pwr = pwrSleep →
      s.dev.on Reg.FINDER_CTRL_WAKE_TMR = true →
      s.dev.rd Reg.WAKE_TIMER_S ≠ 0 →
      ∃ t, exec (.wakeTimerExpire) s = .next t ∧ State.Settles ([(0, 0)]) ((fun e : Dev => (((((((({ (((e.wr Reg.LC_STAT_STATE e.vault.burned).wr Reg.LC_STAT_PENDING 0).wr Reg.LC_STAT_PEND_TARGET 0) with vault := { e.vault with state := e.vault.burned }, dieLost := 0, power := { e.power with released := false, startAt := e.clock, record := none, consumed := e.power.record } } : Dev).wr Reg.CHAIN_STAT_HEAD (e.rd Reg.STRAPS_CHAIN_HEAD)).wr Reg.POS_POS 0).wr Reg.FINDER_STAT_BIST_REC 0).wr Reg.PWR_STAT_CAUSE 0).wr Reg.PWR_STAT_QUICK 0).wr Reg.PWR_STAT_STEP 2).wr Reg.PWR_STAT_STATE pwrStarting).wr ⟨Reg.PLL_STAT_HUB.cell, 0, 9⟩ 0x1FF) (({ (((((((s.dev.wr Reg.WAKE_CAUSE_SOURCE 3).wr Reg.WAKE_CAUSE_GROUP 0).wr Reg.WAKE_CAUSE_ENGINE 0)).raise 2 0).hubCleared sleepKeeps).wr Reg.REQ_THERM_STEP (s.dev.rd Reg.REQ_THERM_STEP)).wr Reg.ACTIVE_STEP (s.dev.rd Reg.REQ_THERM_STEP) with ev := { (((((s.dev.wr Reg.WAKE_CAUSE_SOURCE 3).wr Reg.WAKE_CAUSE_GROUP 0).wr Reg.WAKE_CAUSE_ENGINE 0)).raise 2 0).ev with wakeReq := none }, power := { s.dev.power with afterSleep := true } } : Dev))) s t) ∧
  (∀ (s : State), s.Inv →
      s.dev.pwr ≠ pwrSleep ∨ s.dev.on Reg.FINDER_CTRL_WAKE_TMR = false ∨ s.dev.rd Reg.WAKE_TIMER_S = 0 →
      ∃ t, exec (.wakeTimerExpire) s = .next t ∧ State.Settles [] (s.dev) s t) ∧
  (∀ (v : Word) (s : State), s.Inv →
      s.dev.pageLive (0x002) = true →
      s.dev.pageInTest (0x002) = false →
      s.dev.hubOn = true →
      ∃ t, exec (.wakeHost v) s = .next t ∧ State.Settles [] ((s.dev.writeWord 0x002 0x040 1 (v &&& 0xFFFFFFFE)).wr Reg.PWR_CTRL_SLEEP 0) s t) ∧
  (∀ (v : Word) (s : State), s.Inv →
      s.dev.pageLive (0x002) = true →
      s.dev.pageInTest (0x002) = false →
      s.dev.pwr = pwrSleep →
      ∃ t, exec (.wakeHost v) s = .next t ∧ (
      let V : Dev := (s.dev.writeWord 0x002 0x040 1 (v &&& 0xFFFFFFFE)).wr Reg.PWR_CTRL_SLEEP 0
      State.Settles ([(0, 0)]) ((fun e : Dev => (((((((({ (((e.wr Reg.LC_STAT_STATE e.vault.burned).wr Reg.LC_STAT_PENDING 0).wr Reg.LC_STAT_PEND_TARGET 0) with vault := { e.vault with state := e.vault.burned }, dieLost := 0, power := { e.power with released := false, startAt := e.clock, record := none, consumed := e.power.record } } : Dev).wr Reg.CHAIN_STAT_HEAD (e.rd Reg.STRAPS_CHAIN_HEAD)).wr Reg.POS_POS 0).wr Reg.FINDER_STAT_BIST_REC 0).wr Reg.PWR_STAT_CAUSE 0).wr Reg.PWR_STAT_QUICK 0).wr Reg.PWR_STAT_STEP 2).wr Reg.PWR_STAT_STATE pwrStarting).wr ⟨Reg.PLL_STAT_HUB.cell, 0, 9⟩ 0x1FF) (({ (((((((V.wr Reg.WAKE_CAUSE_SOURCE 2).wr Reg.WAKE_CAUSE_GROUP 0).wr Reg.WAKE_CAUSE_ENGINE 0)).raise 2 0).hubCleared sleepKeeps).wr Reg.REQ_THERM_STEP (V.rd Reg.REQ_THERM_STEP)).wr Reg.ACTIVE_STEP (V.rd Reg.REQ_THERM_STEP) with ev := { (((((V.wr Reg.WAKE_CAUSE_SOURCE 2).wr Reg.WAKE_CAUSE_GROUP 0).wr Reg.WAKE_CAUSE_ENGINE 0)).raise 2 0).ev with wakeReq := none }, power := { s.dev.power with afterSleep := true } } : Dev))) s t) ∧
      t.dev.pwr = pwrStarting ∧ t.dev.latched 2 0 = true) ∧
  (∀ (b : Fin 9) (s : State), s.Inv →
      s.dev.on ⟨Reg.PLL_STAT_HUB.cell, b, 1⟩ = true →
      s.dev.on Reg.BIST_STAT_BUSY = false →
      s.dev.pwr ≠ pwrSleep →
      ∃ t, exec (.clkPllUnlock b) s = .next t ∧ State.Settles ([(1, 6)]) ((fun d : Dev => if b = 0 then (List.range 8).foldl (fun e n => if s.dev.lineOn n then e.engineFault n else e) d else d) ((s.dev.wr ⟨Reg.PLL_STAT_HUB.cell, b, 1⟩ 0).bump Reg.PLL_LOL_CNT)) s t) ∧
  (∀ (s : State), s.Inv →
      s.dev.on Reg.FINDER_STAT_BOOTED = true →
      s.dev.pwr ≠ pwrSleep →
      ∃ t, exec (.finderWatchdog) s = .next t ∧ State.Settles ([(2, 1)]) (s.dev.bump Reg.FINDER_STAT_RESTARTS) s t) ∧
  (∀ (s : State), s.Inv →
      ∃ t, exec (.finderPowerLoss) s = .next t ∧ State.Settles [] ({ Dev.reset with variant := s.dev.variant, clock := s.dev.clock, vault := { s.dev.vault with install := none, quote := none, apply := none }, col := { Collim.reset with copies := s.dev.col.copies }, integ := { Integrity.reset with candidates := s.dev.integ.candidates, hard := s.dev.integ.hard }, power := { Power.reset with perst := s.dev.power.perst, record := s.dev.power.record, failing := s.dev.power.failing }, fresh := s.dev.fresh }) s t)

/-- Booting the Finder and the steps of a start.

The Finder’s boot shows its store, extends MEASURE and loads images 0 and 1 from the slot in use or the other; BOOTED says whether a slot was accepted. Step 2 loads the others, halts with CAUSE 1 where none is accepted or BOOT_EPOCH cannot be stored, and otherwise raises BOOT_EPOCH and goes to step 4 where the start is quick and to step 3 with every block running otherwise. Step 3 ends the blocks’ tests. Step 4 retires the channels whose training fails, halts with CAUSE 2 beyond 16, and shows the usable bandwidth and the capture region’s base. Step 5 restores Collimation and begins the foreground passes; step 6 reaches RUN. Each raises E-00.01. A step too long halts with CAUSE 3 and E-00.02. -/
def Obligations.StartUpSteps : Prop :=
  (∀ (slotA slotB : List (List Byte)) (s : State), s.Inv →
      s.dev.on Reg.FINDER_STAT_BOOTED = false →
      s.dev.power.bootFailed = false →
      s.dev.power.released = false →
      s.dev.pwr ≠ pwrSleep →
      s.dev.vault.slots = [] →
      slotA ≠ [] →
      slotB ≠ [] →
      ∃ t, exec (.finderBoot slotA slotB) s = .next t ∧ (
      let L : Dev × Bool := ((({ s.dev with vault := { s.dev.vault with slots := sset (dflt []) (sset (dflt []) [] 0 slotA) 1 slotB } }.showVault).wr Reg.BOOT_STAT_SLOT s.dev.vault.active).measureFirst).loadSlot [0, 1] [0, 1]
      State.Settles [] ((({ L.1 with power := { L.1.power with bootMeasure := L.1.measureWords, bootFailed := !L.2 } }.wrB Reg.FINDER_STAT_BOOTED L.2).wr Reg.PLL_STAT_FINDER 1)) s t)) ∧
  (∀ (r : StepResult) (s : State), s.Inv →
      s.dev.power.xoLost = false →
      s.dev.pwr = pwrStarting →
      s.dev.rd Reg.PWR_STAT_STEP = 2 →
      ∃ t, exec (.startupStepComplete r) s = .next t ∧ (
      let L : Dev × Bool := (s.dev.wrWords Reg.MEASURE s.dev.power.bootMeasure).loadSlot [2, 3, 4, 5, 6, 7] [0, 1, 2, 3, 4, 5, 6, 7]
      State.Settles (if L.2 = false ∨ r.stored = false then [(0, 0), (0, 2)] else [(0, 1)]) (if L.2 = false ∨ r.stored = false then (fun e : Dev => ((({ ((e.wr Reg.PWR_STAT_CAUSE 1).wr Reg.PWR_STAT_STEP 0) with power := { e.power with sleepDue := false } } : Dev)).abandonDigital.wr Reg.PWR_STAT_STATE pwrHalted).wr ⟨Reg.PLL_STAT_HUB.cell, 0, 9⟩ 0x140) (L.1) else (fun e : Dev => if e.quickStart then (e.wr Reg.PWR_STAT_QUICK 1).wr Reg.PWR_STAT_STEP 4 else ((((List.range 76).filter e.blockFused).foldl (fun (d : Dev) b => d.setBlock b { d.block b with result := resRunning, patterns := 0, addr := 0, bit := 0 }) ((e.wr Reg.PWR_STAT_QUICK 0).wr Reg.PWR_STAT_STEP 3)).wr Reg.BIST_STAT_BUSY 1).wr Reg.BIST_STAT_KIND 1)
        ((fun e : Dev => if lcProvisioned ≤ e.vault.state then e.wr64 Reg.KEY_ID_LO (keyIdOf identityKey) else e) (({ L.1 with vault := { L.1.vault with epoch := (s.dev.vault.epoch + 1) % 65536 } }.wr Reg.BOOT_EPOCH_EPOCH ((s.dev.vault.epoch + 1) % 65536)).wr Reg.ARB_RUN_MIN_SVN L.1.runMinSvn))) s t)) ∧
  (∀ (r : StepResult) (s : State), s.Inv →
      s.dev.power.xoLost = false →
      s.dev.pwr = pwrStarting →
      s.dev.rd Reg.PWR_STAT_STEP = 3 →
      ∃ t, exec (.startupStepComplete r) s = .next t ∧ State.Settles ([(0, 1)]) ((((r.blocks.foldl (fun (d : Dev) o => d.blockOutcome o) s.dev).bistCut.wr Reg.BIST_STAT_BUSY 0).wr Reg.SRAM_SPARES_USED r.spares).wr Reg.PWR_STAT_STEP 4) s t) ∧
  (∀ (r : StepResult) (s : State), s.Inv →
      s.dev.power.xoLost = false →
      s.dev.pwr = pwrStarting →
      s.dev.rd Reg.PWR_STAT_STEP = 4 →
      s.dev.power.afterSleep = false →
      s.dev.on Reg.PPR_CTRL_HARD_NEXT = false →
      s.dev.power.hbmOff = 0 →
      s.dev.integ.candidates = [] →
      popCount 64 r.failed.toNat ≤ 16 →
      ∃ t, exec (.startupStepComplete r) s = .next t ∧ State.Settles ([(0, 1)]) ((({ (((s.dev.wr Reg.PPR_STAT_SOFT 0).wr Reg.RETIRED_LO (r.failed.toNat % 2 ^ 32)).wr Reg.RETIRED_HI (r.failed.toNat / 2 ^ 32)) with power := { s.dev.power with hbmOff := 0 } }.wr Reg.CAP_BASE_BASE (Config.captureBase / 64) |>.wr Reg.HK_MIRROR_BASE (Config.hkMirrorBase / 64) |>.wr Reg.HBM_BUDGET_USABLE (3600 * (64 - popCount 64 r.failed.toNat) / 64))).wr Reg.PWR_STAT_STEP 5) s t) ∧
  (∀ (r : StepResult) (s : State), s.Inv →
      s.dev.power.xoLost = false →
      s.dev.pwr = pwrStarting →
      s.dev.rd Reg.PWR_STAT_STEP = 4 →
      s.dev.power.afterSleep = false →
      s.dev.on Reg.PPR_CTRL_HARD_NEXT = false →
      s.dev.power.hbmOff = 0 →
      s.dev.integ.candidates = [] →
      16 < popCount 64 r.failed.toNat →
      ∃ t, exec (.startupStepComplete r) s = .next t ∧ State.Settles ([(0, 0), (0, 2)]) ((fun e : Dev => ((({ ((e.wr Reg.PWR_STAT_CAUSE 2).wr Reg.PWR_STAT_STEP 0) with power := { e.power with sleepDue := false } } : Dev)).abandonDigital.wr Reg.PWR_STAT_STATE pwrHalted).wr ⟨Reg.PLL_STAT_HUB.cell, 0, 9⟩ 0x140) ({ (((s.dev.wr Reg.PPR_STAT_SOFT 0).wr Reg.RETIRED_LO (r.failed.toNat % 2 ^ 32)).wr Reg.RETIRED_HI (r.failed.toNat / 2 ^ 32)) with power := { s.dev.power with hbmOff := 0 } })) s t) ∧
  (∀ (r : StepResult) (s : State), s.Inv →
      s.dev.power.xoLost = false →
      s.dev.pwr = pwrStarting →
      s.dev.rd Reg.PWR_STAT_STEP = 4 →
      s.dev.power.afterSleep = true →
      popCount 32 (s.dev.rd Reg.RETIRED_LO) + popCount 32 (s.dev.rd Reg.RETIRED_HI) ≤ 16 →
      ∃ t, exec (.startupStepComplete r) s = .next t ∧ State.Settles ([(0, 1)]) ((((s.dev.wr Reg.CAP_BASE_BASE (Config.captureBase / 64)).wr Reg.HK_MIRROR_BASE (Config.hkMirrorBase / 64)).wr Reg.HBM_BUDGET_USABLE (3600 * (64 - (popCount 32 (s.dev.rd Reg.RETIRED_LO) + popCount 32 (s.dev.rd Reg.RETIRED_HI))) / 64)).wr Reg.PWR_STAT_STEP 5) s t) ∧
  (∀ (r : StepResult) (s : State), s.Inv →
      s.dev.power.xoLost = false →
      s.dev.pwr = pwrStarting →
      s.dev.rd Reg.PWR_STAT_STEP = 5 →
      ∃ t, exec (.startupStepComplete r) s = .next t ∧ State.Settles ([(0, 1)]) (((List.range 8).filter s.dev.lineOn).foldl (fun (d : Dev) n => ((d.showMissing n).fgStart n).fgStart (8 + n)) ((((List.range 27).foldl (fun (d : Dev) k => d.restoreRecord r.badCopies k) s.dev).wr Reg.COL_STAT_RESTORED 1).wr Reg.PWR_STAT_STEP 6)) s t) ∧
  (∀ (r : StepResult) (s : State), s.Inv →
      s.dev.power.xoLost = false →
      s.dev.pwr = pwrStarting →
      s.dev.rd Reg.PWR_STAT_STEP = 6 →
      (List.range 16).all (fun k => decide ((s.dev.record k).kind ≠ 1)) = true →
      s.dev.on Reg.FINDER_CTRL_BUNDLE_EN = false →
      ∃ t, exec (.startupStepComplete r) s = .next t ∧ (
      let a : Dev := (((({ ((s.dev.wr Reg.STARTUP_MS_MS (min 65535 ((s.dev.clock - s.dev.power.startAt) / 1000000))).wr Reg.PWR_STAT_STEP 0) with power := { s.dev.power with afterSleep := false, consumed := none } }.powerGo pwrRun).settleModes true).hbmEval).dpllGo dpllFreerun).settleDpll
      State.Stores ([(0, 1)]) ({ a with hbmOut := [] }) (a.hbmOut) s t) ∧
      t.dev.pwr = pwrRun ∧ t.dev.latched 0 0 = true) ∧
  (∀ (r : StepResult) (s : State), s.Inv →
      s.dev.power.xoLost = false →
      s.dev.pwr = pwrRun →
      s.dev.rd Reg.PWR_STAT_STEP = 7 →
      s.dev.vault.apply = none →
      ∃ t, exec (.startupStepComplete r) s = .next t ∧ State.Settles ([(0, 1)]) (s.dev.wr Reg.PWR_STAT_STEP 0) s t) ∧
  (∀ (s : State), s.Inv →
      s.dev.pwr = pwrStarting →
      s.dev.on Reg.BIST_STAT_BUSY = false →
      ∃ t, exec (.startupStepTimeout) s = .next t ∧ State.Settles ([(0, 0), (0, 2)]) ((fun e : Dev => ((({ ((e.wr Reg.PWR_STAT_CAUSE 3).wr Reg.PWR_STAT_STEP 0) with power := { e.power with sleepDue := false } } : Dev)).abandonDigital.wr Reg.PWR_STAT_STATE pwrHalted).wr ⟨Reg.PLL_STAT_HUB.cell, 0, 9⟩ 0x140) (s.dev)) s t)

/-- Temperature samples, the thermal shed request and the shutdown.

A sample takes the readings of the 36 sensors, judges every sensor that has not failed, declares those that fail, enters the others in their dies’ means, and decides on the warning, the throttle, the HBM limits and the shutdown from what is valid. While a reading stands at or above a crossed threshold the request gains one step each STEP_MS, to step 4; once nothing is crossed it loses one each RELEASE_MS. When every engine is dark after a shutdown the device is in THERM_OFF, with E-00.00. SENSOR_RESET puts every failed sensor back in service. -/
def Obligations.ThermalControl : Prop :=
  (∀ (temps : List Int) (s : State), s.Inv →
      s.dev.on Reg.FINDER_STAT_BOOTED = true →
      s.dev.pwr ≠ pwrSleep →
      ∃ t, exec (.thermSample temps) s = .next t ∧ (
      let T : Dev := ((List.range 36).foldl (fun (d : Dev) k => d.wrS (Reg.THERM_T_TEMP k) ((temps[k]?).getD (s.dev.temp k))) s.dev)
      let J : Dev := (List.range 36).foldl (fun (d : Dev) k => if T.sensorOk k then (d.wrS (Reg.THERM_T_TEMP k) (T.temp k)).setSensor k (T.judgeSensor k (T.temp k)) else d.wrS (Reg.THERM_T_TEMP k) (T.temp k)) T
      let a : Dev := Dev.thermDecide ((List.range 36).filter fun k => J.sensorOk k && decide ((J.sensor k).cause ≠ 0)) ((List.range 5).foldl (fun (d : Dev) (k : Nat) => d.takeMean k) (((List.range 36).filter fun k => J.sensorOk k && decide ((J.sensor k).cause ≠ 0)).foldl (fun (d : Dev) k => d.sensorFails k (J.sensor k).cause) J))
      State.Stores ([]) ({ a with hbmOut := [] }) (a.hbmOut) s t)) ∧
  (∀ (temps : List Int) (s : State), s.Inv →
      s.dev.on Reg.FINDER_STAT_BOOTED = false →
      ∃ t, exec (.thermSample temps) s = .next t ∧ State.Settles [] (s.dev) s t) ∧
  (∀ (s : State), s.Inv →
      s.dev.on Reg.THERM_STAT_THROTTLE = true →
      s.dev.controlTemp.any (fun p => decide (4 * (s.dev.rd Reg.THERM_THR_THROTTLE : Int) ≤ p.2)) = true →
      s.dev.on Reg.THERM_STAT_SHUTDOWN = false →
      (popCount 5 (s.dev.rd Reg.REQ_THERM_STEP)) < 4 →
      ∃ t, exec (.thermStepTimer) s = .next t ∧ (
      let a : Dev := (s.dev.wr Reg.REQ_THERM_STEP (2 ^ ((popCount 5 (s.dev.rd Reg.REQ_THERM_STEP)) + 1) - 1)).hbmEval
      State.Stores ([]) ({ a with hbmOut := [] }) (a.hbmOut) s t) ∧
      t.dev.thermSteps = s.dev.thermSteps + 1) ∧
  (∀ (s : State), s.Inv →
      s.dev.thermCrossed = false ∨ s.dev.on Reg.THERM_STAT_SHUTDOWN = true ∨ (popCount 5 (s.dev.rd Reg.REQ_THERM_STEP)) = 4 ∨ s.dev.thermAbove = false →
      ∃ t, exec (.thermStepTimer) s = .next t ∧ State.Settles [] (s.dev) s t) ∧
  (∀ (s : State), s.Inv →
      s.dev.on Reg.THERM_STAT_THROTTLE = false →
      s.dev.rd Reg.THERM_STAT_HBM_LIMIT = 0 →
      s.dev.on Reg.THERM_STAT_SHUTDOWN = false →
      0 < (popCount 5 (s.dev.rd Reg.REQ_THERM_STEP)) →
      ∃ t, exec (.thermReleaseTimer) s = .next t ∧ (
      let a : Dev := (s.dev.wr Reg.REQ_THERM_STEP (2 ^ ((popCount 5 (s.dev.rd Reg.REQ_THERM_STEP)) - 1) - 1)).hbmEval
      State.Stores ([]) ({ a with hbmOut := [] }) (a.hbmOut) s t) ∧
      t.dev.thermSteps = s.dev.thermSteps - 1) ∧
  (∀ (s : State), s.Inv →
      s.dev.on Reg.THERM_STAT_SHUTDOWN = true →
      s.dev.pwr ≠ pwrThermOff →
      (List.range 8).all (fun n => !s.dev.lightOn n) = true →
      ∃ t, exec (.thermOffEnter) s = .next t ∧ State.Settles ([(0, 0)]) ((({ s.dev with power := { s.dev.power with released := false, resetDue := false, sleepDue := false } }.wr Reg.PWR_STAT_STEP 0).abandonDigital.wr Reg.PWR_STAT_STATE pwrThermOff).wr ⟨Reg.PLL_STAT_HUB.cell, 0, 9⟩ 0x100) s t) ∧
  (∀ (s : State), s.Inv →
      s.dev.on Reg.THERM_STAT_SHUTDOWN = false ∨ (List.range 8).any (fun n => s.dev.lightOn n) = true →
      ∃ t, exec (.thermOffEnter) s = .next t ∧ State.Settles [] (s.dev) s t) ∧
  (∀ (v : Word) (s : State), s.Inv →
      s.dev.pageLive (0x010) = true →
      s.dev.pageInTest (0x010) = false →
      s.dev.pwr ≠ pwrSleep →
      ∃ t, exec (.thermSensorReset v) s = .next t ∧ State.Settles [] ((List.range 4).foldl (fun (d : Dev) m => d.settleLimit m) ((List.range 36).foldl (fun (d : Dev) k => if (s.dev.writeWord 0x010 0x048 0x80000000 (v ||| 0x80000000)).on (Reg.THERM_T_FAIL k) then (((d.wr (Reg.THERM_T_FAIL k) 0).wr (Reg.THERM_T_CAUSE k) 0).wr (if k < 32 then ⟨Reg.THERM_FAIL_LO_FAIL.cell, k, 1⟩ else ⟨Reg.THERM_FAIL_HI_FAIL.cell, k - 32, 1⟩) 0).setSensor k Sensor.reset else d) (s.dev.writeWord 0x010 0x048 0x80000000 (v ||| 0x80000000)))) s t)

/-- Errors found in memory, the error log and poisoned data.

A corrected error is counted, logged at LOG_WR, counted in the rate window, and logged among its HBM row’s positions; the sixteenth position makes the row a repair candidate with E-05.04. An uncorrectable one is counted and logged with E-05.01, the row becoming a candidate; a known poison is counted apart; the consumer of a poisoned word is logged with E-05.02. At the window’s end more errors than CE_THR raise E-05.00. A read of LOG_DATA returns the entry and marks it read. CLEAR_CAND empties the candidates. -/
def Obligations.MemoryErrors : Prop :=
  (∀ (m : MemRef) (bit : Fin 72) (s : State), s.Inv →
      s.dev.hubOn = true →
      m.sram = false →
      s.dev.on Reg.MEMI_CTRL_LOG_FREEZE = false →
      s.dev.on (Reg.MLOG_VALID (s.dev.rd Reg.LOG_WR_INDEX)) = false →
      sget (dflt []) s.dev.integ.bits (rowOf m) = [] →
      ∃ t, exec (.memoryReadCe m bit false) s = .next t ∧ State.Settles [] ((fun d : Dev => { d with integ := { s.dev.integ with window := s.dev.integ.window + 1, bits := sset (dflt []) s.dev.integ.bits (rowOf m) [m.addr.toNat * 128 + bit.val] } }) (((s.dev.bump Reg.CE_CNT).setWords (tableCell tableMLOG.id (s.dev.rd Reg.LOG_WR_INDEX) 0) (memEntry m false bit.val 0 (s.dev.time / 65536 / 1000000000))).wr Reg.LOG_WR_INDEX (s.dev.rd Reg.LOG_WR_INDEX + 1))) s t) ∧
  (∀ (m : MemRef) (bit : Fin 72) (s : State), s.Inv →
      s.dev.memoryOn m = true →
      s.dev.on Reg.SCRUB_CTRL_BUSY = true →
      s.dev.on Reg.MEMI_CTRL_LOG_FREEZE = true →
      ∃ t, exec (.memoryReadCe m bit true) s = .next t ∧ State.Settles [] ({ ((s.dev.bump Reg.CE_CNT).bump Reg.SCRUB_CE) with integ := { s.dev.integ with window := s.dev.integ.window + 1 } }) s t) ∧
  (∀ (m : MemRef) (bit : Fin 72) (seen : List Nat) (s : State), s.Inv →
      s.dev.hubOn = true →
      m.sram = false →
      s.dev.on Reg.MEMI_CTRL_LOG_FREEZE = false →
      s.dev.on (Reg.MLOG_VALID (s.dev.rd Reg.LOG_WR_INDEX)) = false →
      sget (dflt []) s.dev.integ.bits (rowOf m) = seen →
      15 ≤ seen.length →
      seen.contains (m.addr.toNat * 128 + bit.val) = false →
      s.dev.integ.candidates.contains (rowOf m) = false →
      s.dev.integ.candidates.length < 256 →
      ∃ t, exec (.memoryReadCe m bit false) s = .next t ∧ State.Settles ([(5, 4)]) (((fun d : Dev => { d with integ := { s.dev.integ with window := s.dev.integ.window + 1, bits := sset (dflt []) s.dev.integ.bits (rowOf m) ((m.addr.toNat * 128 + bit.val) :: seen), candidates := s.dev.integ.candidates ++ [rowOf m] } }) (((s.dev.bump Reg.CE_CNT).setWords (tableCell tableMLOG.id (s.dev.rd Reg.LOG_WR_INDEX) 0) (memEntry m false bit.val 0 (s.dev.time / 65536 / 1000000000))).wr Reg.LOG_WR_INDEX (s.dev.rd Reg.LOG_WR_INDEX + 1))).wr Reg.PPR_STAT_CANDIDATES (s.dev.integ.candidates.length + 1)) s t) ∧
  (∀ (m : MemRef) (bit : Fin 72) (scrub : Bool) (s : State), s.Inv →
      s.dev.memoryOn m = false →
      ∃ t, exec (.memoryReadCe m bit scrub) s = .next t ∧ State.Settles [] (s.dev) s t) ∧
  (∀ (m : MemRef) (s : State), s.Inv →
      s.dev.memoryOn m = true →
      m.sram = true →
      s.dev.on Reg.MEMI_CTRL_LOG_FREEZE = false →
      s.dev.on (Reg.MLOG_VALID (s.dev.rd Reg.LOG_WR_INDEX)) = false →
      ∃ t, exec (.memoryReadUe m false false none) s = .next t ∧ State.Settles ([(5, 1)]) (((s.dev.bump Reg.UE_CNT).setWords (tableCell tableMLOG.id (s.dev.rd Reg.LOG_WR_INDEX) 0) (memEntry m true 127 0 (s.dev.time / 65536 / 1000000000))).wr Reg.LOG_WR_INDEX (s.dev.rd Reg.LOG_WR_INDEX + 1)) s t) ∧
  (∀ (m : MemRef) (s : State), s.Inv →
      s.dev.memoryOn m = true →
      s.dev.on Reg.SCRUB_CTRL_BUSY = false →
      ∃ t, exec (.memoryReadUe m true true none) s = .next t ∧ State.Settles [] (s.dev.bump Reg.POISON_READ) s t) ∧
  (∀ (m : MemRef) (k : BitVec 11) (s : State), s.Inv →
      s.dev.memoryOn m = true →
      s.dev.on Reg.MEMI_CTRL_LOG_FREEZE = false →
      s.dev.on (Reg.MLOG_VALID (s.dev.rd Reg.LOG_WR_INDEX)) = false →
      ∃ t, exec (.memoryReadUe m true false (some (.keyStore k))) s = .next t ∧ State.Settles ([(5, 2), (21, 0)]) (((((s.dev.bump Reg.POISON_READ).bump Reg.POISON_CNT).setWords (tableCell tableMLOG.id (s.dev.rd Reg.LOG_WR_INDEX) 0) (memEntry m true 127 7 (s.dev.time / 65536 / 1000000000))).wr Reg.LOG_WR_INDEX (s.dev.rd Reg.LOG_WR_INDEX + 1)).keyZeroise k.toNat) s t) ∧
  (∀ (s : State), s.Inv →
      ∃ t, exec (.ceRateWindowEnd) s = .next t ∧ State.Settles (if s.dev.rd Reg.MEMI_CTRL_CE_THR < s.dev.integ.window then [(5, 0)] else []) ({ s.dev with integ := { s.dev.integ with window := 0 } }) s t) ∧
  (∀ (s : State), s.Inv →
      s.dev.pageLive (0x080) = true →
      s.dev.pageInTest (0x080) = false →
      ∃ t, exec (.logRead) s = .next t ∧ State.Settles [] ({ (s.dev.wr (Reg.MLOG_READ (s.dev.rd Reg.LOG_INDEX_INDEX)) 1) with readData := [s.dev.word (Reg.MLOG_VALID (s.dev.rd Reg.LOG_INDEX_INDEX)).cell], readPoisoned := false }) s t) ∧
  (∀ (v : Word) (s : State), s.Inv →
      s.dev.pageLive (0x083) = true →
      s.dev.pageInTest (0x083) = false →
      ∃ t, exec (.pprClearCand v) s = .next t ∧ State.Settles [] ({ (s.dev.writeWord 0x083 0x040 2 (v ||| 2)) with integ := { s.dev.integ with candidates := [] } }.wr Reg.PPR_STAT_CANDIDATES 0) s t)

/-- Scrubbing, and the check-bit test mode.

A scrub of a range inside its memory begins with its counters at 0; one beyond it, or while another runs, is counted; with ABORT in the same write it ends at once. Its end shows the units done and those of retired channels skipped with E-05.03, an abort ABORTED too; with no scrub under way neither changes anything. A RATE outside its range makes the write ignored and counted. WRITE writes the test data and check byte raw, to the SRAM array or to the word of HBM at the window’s home; READ_RAW shows what was last written raw, and for a word that was not its data with the check byte that belongs to it. -/
def Obligations.ScrubbingAndTestMode : Prop :=
  (∀ (v : Word) (s : State), s.Inv →
      s.dev.pageLive (0x081) = true →
      s.dev.pageInTest (0x081) = false →
      getBits v 8 5 ≠ 0 ∧ getBits v 8 5 ≠ 31 →
      v.getLsbD 2 = false →
      s.dev.on Reg.SCRUB_CTRL_BUSY = false →
      s.dev.rd Reg.SCRUB_BASE_BASE + s.dev.rd Reg.SCRUB_LEN_UNITS ≤ scrubUnits ((s.dev.writeWord 0x081 0x040 6 (v ||| 2)).on Reg.SCRUB_CTRL_TARGET) →
      ∃ t, exec (.scrubGo v) s = .next t ∧ State.Settles [] (((((((((s.dev.writeWord 0x081 0x040 6 (v ||| 2))).wr Reg.SCRUB_CTRL_BUSY 1).wr Reg.SCRUB_CTRL_ABORTED 0).wr Reg.SCRUB_DONE_UNITS 0).wr Reg.SCRUB_CE 0).wr Reg.SCRUB_UE 0).wr Reg.SCRUB_POISON 0).wr Reg.SCRUB_SKIPPED 0 |>.wr Reg.SCRUB_FIRST_UE_ADDR 0x7FFFFFFF) s t) ∧
  (∀ (v : Word) (s : State), s.Inv →
      s.dev.pageLive (0x081) = true →
      s.dev.pageInTest (0x081) = false →
      getBits v 8 5 ≠ 0 ∧ getBits v 8 5 ≠ 31 →
      v.getLsbD 2 = false →
      s.dev.on Reg.SCRUB_CTRL_BUSY = true ∨ scrubUnits ((s.dev.writeWord 0x081 0x040 6 (v ||| 2)).on Reg.SCRUB_CTRL_TARGET) < s.dev.rd Reg.SCRUB_BASE_BASE + s.dev.rd Reg.SCRUB_LEN_UNITS →
      ∃ t, exec (.scrubGo v) s = .next t ∧ State.Settles [] (((s.dev.writeWord 0x081 0x040 6 (v ||| 2)).viol 0x081).oneViol (0x081) (s.dev.hdr (0x081)).viol) s t) ∧
  (∀ (v : Word) (s : State), s.Inv →
      s.dev.pageLive (0x081) = true →
      s.dev.pageInTest (0x081) = false →
      getBits v 8 5 ≠ 0 ∧ getBits v 8 5 ≠ 31 →
      v.getLsbD 2 = true →
      s.dev.on Reg.SCRUB_CTRL_BUSY = false →
      s.dev.rd Reg.SCRUB_BASE_BASE + s.dev.rd Reg.SCRUB_LEN_UNITS ≤ scrubUnits ((s.dev.writeWord 0x081 0x040 6 (v ||| 2)).on Reg.SCRUB_CTRL_TARGET) →
      ∃ t, exec (.scrubGo v) s = .next t ∧ ∃ n k, n + k ≤ s.dev.rd Reg.SCRUB_LEN_UNITS ∧ ((s.dev.writeWord 0x081 0x040 6 (v ||| 2)).on Reg.SCRUB_CTRL_TARGET = true ∨ s.dev.rd Reg.RETIRED_LO = 0 ∧ s.dev.rd Reg.RETIRED_HI = 0 → k = 0) ∧ State.Settles [(5, 3)] { (((((((((((((s.dev.writeWord 0x081 0x040 6 (v ||| 2))).wr Reg.SCRUB_CTRL_BUSY 1).wr Reg.SCRUB_CTRL_ABORTED 0).wr Reg.SCRUB_DONE_UNITS 0).wr Reg.SCRUB_CE 0).wr Reg.SCRUB_UE 0).wr Reg.SCRUB_POISON 0).wr Reg.SCRUB_SKIPPED 0 |>.wr Reg.SCRUB_FIRST_UE_ADDR 0x7FFFFFFF).wr Reg.SCRUB_CTRL_ABORTED 1).wr Reg.SCRUB_SKIPPED k).wr Reg.SCRUB_CTRL_BUSY 0).wr Reg.SCRUB_DONE_UNITS n) with fresh := t.dev.fresh } s t) ∧
  (∀ (v : Word) (s : State), s.Inv →
      s.dev.pageLive (0x081) = true →
      s.dev.pageInTest (0x081) = false →
      getBits v 8 5 = 0 ∨ getBits v 8 5 = 31 →
      ∃ t, exec (.scrubGo v) s = .next t ∧ State.Settles [] (s.dev.viol 0x081) s t) ∧
  (∀ (v : Word) (s : State), s.Inv →
      s.dev.pageLive (0x081) = true →
      s.dev.pageInTest (0x081) = false →
      getBits v 8 5 ≠ 0 ∧ getBits v 8 5 ≠ 31 →
      v.getLsbD 1 = false →
      s.dev.on Reg.SCRUB_CTRL_BUSY = true →
      ∃ t, exec (.scrubAbort v) s = .next t ∧ ∃ n k, n + k ≤ s.dev.rd Reg.SCRUB_LEN_UNITS ∧ ((s.dev.writeWord 0x081 0x040 6 (v ||| 4)).on Reg.SCRUB_CTRL_TARGET = true ∨ s.dev.rd Reg.RETIRED_LO = 0 ∧ s.dev.rd Reg.RETIRED_HI = 0 → k = 0) ∧ State.Settles [(5, 3)] { ((((((s.dev.writeWord 0x081 0x040 6 (v ||| 4)).wr Reg.SCRUB_CTRL_ABORTED 1).wr Reg.SCRUB_SKIPPED k).wr Reg.SCRUB_CTRL_BUSY 0).wr Reg.SCRUB_DONE_UNITS n)) with fresh := t.dev.fresh } s t) ∧
  (∀ (v : Word) (s : State), s.Inv →
      s.dev.pageLive (0x081) = true →
      s.dev.pageInTest (0x081) = false →
      getBits v 8 5 ≠ 0 ∧ getBits v 8 5 ≠ 31 →
      v.getLsbD 1 = false →
      s.dev.on Reg.SCRUB_CTRL_BUSY = false →
      ∃ t, exec (.scrubAbort v) s = .next t ∧ State.Settles [] ((s.dev.writeWord 0x081 0x040 6 (v ||| 4))) s t) ∧
  (∀ (skipped : Nat) (s : State), s.Inv →
      s.dev.on Reg.SCRUB_CTRL_BUSY = true →
      s.dev.on Reg.SCRUB_CTRL_TARGET = true ∨ s.dev.rd Reg.RETIRED_LO = 0 ∧ s.dev.rd Reg.RETIRED_HI = 0 →
      ∃ t, exec (.scrubComplete skipped) s = .next t ∧ State.Settles ([(5, 3)]) (((s.dev.wr Reg.SCRUB_SKIPPED 0).wr Reg.SCRUB_CTRL_BUSY 0).wr Reg.SCRUB_DONE_UNITS (s.dev.rd Reg.SCRUB_LEN_UNITS)) s t) ∧
  (∀ (skipped : Nat) (s : State), s.Inv →
      s.dev.on Reg.SCRUB_CTRL_BUSY = true →
      s.dev.on Reg.SCRUB_CTRL_TARGET = false →
      s.dev.rd Reg.RETIRED_LO ≠ 0 ∨ s.dev.rd Reg.RETIRED_HI ≠ 0 →
      skipped ≤ s.dev.rd Reg.SCRUB_LEN_UNITS →
      ∃ t, exec (.scrubComplete skipped) s = .next t ∧ State.Settles ([(5, 3)]) (((s.dev.wr Reg.SCRUB_SKIPPED skipped).wr Reg.SCRUB_CTRL_BUSY 0).wr Reg.SCRUB_DONE_UNITS (s.dev.rd Reg.SCRUB_LEN_UNITS - skipped)) s t) ∧
  (∀ (v : Word) (s : State), s.Inv →
      s.dev.pageLive (0x082) = true →
      s.dev.pageInTest (0x082) = false →
      getBits v Reg.TEST_CTRL_TARGET.lsb 1 = 1 →
      v.getLsbD 2 = false →
      ∃ t, exec (.testWriteRaw v) s = .next t ∧ State.Settles [] ((fun d : Dev => { d with integ := { d.integ with scratch := (s.dev.rd Reg.TEST_ADDR_WORD, (s.dev.rd Reg.TEST_DATA_LO + 2 ^ 32 * s.dev.rd Reg.TEST_DATA_HI), s.dev.rd Reg.TEST_CHECK_CHECK) :: d.integ.scratch.filter fun e => decide (e.1 ≠ s.dev.rd Reg.TEST_ADDR_WORD) } }) (s.dev.writeWord 0x082 0x040 6 (v ||| 2))) s t) ∧
  (∀ (v : Word) (s : State), s.Inv →
      s.dev.pageLive (0x082) = true →
      s.dev.pageInTest (0x082) = false →
      getBits v Reg.TEST_CTRL_TARGET.lsb 1 = 0 →
      v.getLsbD 2 = false →
      ∃ t, exec (.testWriteRaw v) s = .next t ∧ (∀ x, t.byte x = overlay s.dev.hbmUsable [(winAddr (8 * s.dev.rd Reg.TEST_ADDR_WORD), bytesLE 8 (s.dev.rd Reg.TEST_DATA_LO + 2 ^ 32 * s.dev.rd Reg.TEST_DATA_HI))] s.byte x) ∧ t.dev.integ.checks = (winAddr (8 * s.dev.rd Reg.TEST_ADDR_WORD) / 8, s.dev.rd Reg.TEST_CHECK_CHECK) :: s.dev.integ.checks.filter (fun e => !touches [(winAddr (8 * s.dev.rd Reg.TEST_ADDR_WORD), bytesLE 8 (s.dev.rd Reg.TEST_DATA_LO + 2 ^ 32 * s.dev.rd Reg.TEST_DATA_HI))] e.1) ∧ t.pending = s.pending) ∧
  (∀ (v : Word) (e : Nat × Nat × Nat) (s : State), s.Inv →
      s.dev.pageLive (0x082) = true →
      s.dev.pageInTest (0x082) = false →
      getBits v Reg.TEST_CTRL_TARGET.lsb 1 = 1 →
      v.getLsbD 1 = false →
      s.dev.integ.scratch.find? (fun e => decide (e.1 = s.dev.rd Reg.TEST_ADDR_WORD)) = some e →
      ∃ t, exec (.testReadRaw v) s = .next t ∧ State.Settles [] ((((s.dev.writeWord 0x082 0x040 6 (v ||| 4)).wr Reg.TEST_DATA_LO (e.2.1 % 2 ^ 32)).wr Reg.TEST_DATA_HI (e.2.1 / 2 ^ 32)).wr Reg.TEST_CHECK_CHECK e.2.2) s t) ∧
  (∀ (v : Word) (e : Nat × Nat) (s : State), s.Inv →
      s.dev.pageLive (0x082) = true →
      s.dev.pageInTest (0x082) = false →
      getBits v Reg.TEST_CTRL_TARGET.lsb 1 = 0 →
      v.getLsbD 1 = false →
      s.dev.integ.checks.find? (fun e => decide (e.1 = winAddr (8 * s.dev.rd Reg.TEST_ADDR_WORD) / 8)) = some e →
      ∃ t, exec (.testReadRaw v) s = .next t ∧ State.Settles [] ((((s.dev.writeWord 0x082 0x040 6 (v ||| 4)).wr Reg.TEST_DATA_LO (ofBytesLE (s.bytes (winAddr (8 * s.dev.rd Reg.TEST_ADDR_WORD)) 8) % 2 ^ 32)).wr Reg.TEST_DATA_HI (ofBytesLE (s.bytes (winAddr (8 * s.dev.rd Reg.TEST_ADDR_WORD)) 8) / 2 ^ 32)).wr Reg.TEST_CHECK_CHECK e.2) s t) ∧
  (∀ (v : Word) (s : State), s.Inv →
      s.dev.pageLive (0x082) = true →
      s.dev.pageInTest (0x082) = false →
      getBits v Reg.TEST_CTRL_TARGET.lsb 1 = 1 →
      v.getLsbD 1 = false →
      s.dev.integ.scratch.find? (fun e => decide (e.1 = s.dev.rd Reg.TEST_ADDR_WORD)) = none →
      ∃ t, exec (.testReadRaw v) s = .next t ∧ State.Settles [] ((((s.dev.writeWord 0x082 0x040 6 (v ||| 4)).wr Reg.TEST_DATA_LO 0).wr Reg.TEST_DATA_HI 0).wr Reg.TEST_CHECK_CHECK (checkOf 0)) s t) ∧
  (∀ (v : Word) (s : State), s.Inv →
      s.dev.pageLive (0x082) = true →
      s.dev.pageInTest (0x082) = false →
      getBits v Reg.TEST_CTRL_TARGET.lsb 1 = 0 →
      v.getLsbD 1 = false →
      s.dev.integ.checks.find? (fun e => decide (e.1 = winAddr (8 * s.dev.rd Reg.TEST_ADDR_WORD) / 8)) = none →
      ∃ t, exec (.testReadRaw v) s = .next t ∧ State.Settles [] ((((s.dev.writeWord 0x082 0x040 6 (v ||| 4)).wr Reg.TEST_DATA_LO (ofBytesLE (s.bytes (winAddr (8 * s.dev.rd Reg.TEST_ADDR_WORD)) 8) % 2 ^ 32)).wr Reg.TEST_DATA_HI (ofBytesLE (s.bytes (winAddr (8 * s.dev.rd Reg.TEST_ADDR_WORD)) 8) / 2 ^ 32)).wr Reg.TEST_CHECK_CHECK (checkOf (ofBytesLE (s.bytes (winAddr (8 * s.dev.rd Reg.TEST_ADDR_WORD)) 8)))) s t)

/-- In-service self-test: acceptance, isolation, results, abort and the end of a run.

GO starts a run of the selected blocks that the fuses enable where every one of them is idle and can be tested in service and no run is under way, and is refused with E-06.06 otherwise; a run of no block is over at once (the model’s choice, log 238). The isolation of the blocks is noted, and their registers read on as they stood then. A block’s end shows its result with E-06.00: a pass; a test that did not reach its target, with E-06.02; a failure, FLAGGED in LARGE mode and UNUSABLE in SMALL, with E-06.01 and E-06.03. ABORT makes the unfinished blocks NOT_TESTED and is counted without a run. The run’s end releases the blocks, and what was held acts. -/
def Obligations.SelfTestRuns : Prop :=
  (∀ (v : Word) (sel : List Nat) (s : State), s.Inv →
      s.dev.pageLive (0x070) = true →
      s.dev.pageInTest (0x070) = false →
      v.getLsbD 1 = false →
      s.dev.bistSelected = sel →
      s.dev.pwr = pwrRun →
      s.dev.on Reg.BIST_STAT_BUSY = false →
      sel.all (fun b => inServiceBlock b && s.dev.blockIdle b) = true →
      ∃ t, exec (.bistGo v) s = .next t ∧ State.Settles [] ((fun d : Dev => { d with bist := { d.bist with run := sel.filter s.dev.blockFused, isolated := false } }) ((((sel.filter s.dev.blockFused).foldl (fun (d : Dev) b => d.setBlock b { d.block b with result := resRunning, patterns := 0, addr := 0, bit := 0 }) (s.dev.writeWord 0x070 0x040 3 (v ||| 1))).wrB Reg.BIST_STAT_BUSY (decide (sel.filter s.dev.blockFused ≠ []))).wr Reg.BIST_STAT_KIND 3)) s t) ∧
  (∀ (v : Word) (s : State), s.Inv →
      s.dev.pageLive (0x070) = true →
      s.dev.pageInTest (0x070) = false →
      v.getLsbD 1 = false →
      s.dev.pwr ≠ pwrRun ∨ s.dev.on Reg.BIST_STAT_BUSY = true ∨ s.dev.bistSelected.any (fun b => !(inServiceBlock b && s.dev.blockIdle b)) = true →
      ∃ t, exec (.bistGo v) s = .next t ∧ State.Settles ([(6, 6)]) (((s.dev.writeWord 0x070 0x040 3 (v ||| 1)).viol 0x070).oneViol (0x070) (s.dev.hdr (0x070)).viol) s t) ∧
  (∀ (s : State), s.Inv →
      s.dev.on Reg.BIST_STAT_BUSY = true →
      s.dev.bist.run ≠ [] →
      s.dev.bist.isolated = false →
      ∃ t, exec (.bistIsolated) s = .next t ∧ State.Settles [] ({ s.dev with bist := { s.dev.bist with isolated := true, shown := s.dev.regs.filter fun e => decide (e.1 < 0x400000) && s.dev.pageInTest (e.1 / 1024) } }) s t) ∧
  (∀ (s : State), s.Inv →
      s.dev.on Reg.BIST_STAT_BUSY = false ∨ s.dev.bist.run = [] ∨ s.dev.bist.isolated = true →
      ∃ t, exec (.bistIsolated) s = .next t ∧ State.Settles [] (s.dev) s t) ∧
  (∀ (b : Fin 76) (patterns addr : Word) (bit : BitVec 7) (s : State), s.Inv →
      (s.dev.block b.val).result = resRunning →
      ∃ t, exec (.bistBlockEnd b true true patterns addr bit) s = .next t ∧ State.Settles ([(6, 0)]) (s.dev.setBlock b { s.dev.block b.val with result := resPass, patterns := patterns.toNat, addr := 0, bit := 0 }) s t) ∧
  (∀ (b : Fin 76) (ok : Bool) (patterns addr : Word) (bit : BitVec 7) (s : State), s.Inv →
      (s.dev.block b.val).result = resRunning →
      ∃ t, exec (.bistBlockEnd b false ok patterns addr bit) s = .next t ∧ State.Settles ([(6, 0), (6, 2)]) (s.dev.setBlock b { s.dev.block b.val with result := resNotTested, patterns := patterns.toNat, addr := 0, bit := 0 }) s t) ∧
  (∀ (b : Fin 76) (patterns addr : Word) (bit : BitVec 7) (s : State), s.Inv →
      (s.dev.block b.val).result = resRunning →
      s.dev.on Reg.STRAPS_FLEET_SETTLED = false ∨ s.dev.on Reg.STRAPS_FLEET_EFF = true →
      ∃ t, exec (.bistBlockEnd b true false patterns addr bit) s = .next t ∧ State.Settles ([(6, 0), (6, 1), (6, 3)]) (s.dev.setBlock b { s.dev.block b.val with result := resFail, patterns := patterns.toNat, addr := addr.toNat, bit := bit.toNat, flagged := true }) s t) ∧
  (∀ (b : Fin 76) (patterns addr : Word) (bit : BitVec 7) (s : State), s.Inv →
      b.val < 8 →
      s.dev.essentialLost = false →
      (s.dev.block b.val).result = resRunning →
      s.dev.on Reg.STRAPS_FLEET_SETTLED = true →
      s.dev.on Reg.STRAPS_FLEET_EFF = false →
      ∃ t, exec (.bistBlockEnd b true false patterns addr bit) s = .next t ∧ State.Settles ([(6, 0), (6, 1), (6, 3)]) (s.dev.setBlock b { s.dev.block b.val with result := resFail, patterns := patterns.toNat, addr := addr.toNat, bit := bit.toNat, unusable := true, flagged := false }) s t) ∧
  (∀ (b : Fin 76) (complete ok : Bool) (patterns addr : Word) (bit : BitVec 7) (s : State), s.Inv →
      (s.dev.block b.val).result ≠ resRunning →
      ∃ t, exec (.bistBlockEnd b complete ok patterns addr bit) s = .next t ∧ State.Settles [] (s.dev) s t) ∧
  (∀ (v : Word) (s : State), s.Inv →
      s.dev.pageLive (0x070) = true →
      s.dev.pageInTest (0x070) = false →
      v.getLsbD 0 = false →
      s.dev.on Reg.BIST_STAT_BUSY = true →
      ∃ t, exec (.bistAbort v) s = .next t ∧ State.Settles (if (List.range 76).any (fun b => decide ((s.dev.block b).result = resRunning)) then [(6, 0), (6, 2)] else []) ((fun d : Dev => (List.range 76).foldl (fun (e : Dev) b => if (d.block b).result = resRunning then e.setBlock b { d.block b with result := resNotTested, addr := 0, bit := 0 } else e) d) (s.dev.writeWord 0x070 0x040 3 (v ||| 2))) s t) ∧
  (∀ (v : Word) (s : State), s.Inv →
      s.dev.pageLive (0x070) = true →
      s.dev.pageInTest (0x070) = false →
      v.getLsbD 0 = false →
      s.dev.on Reg.BIST_STAT_BUSY = false →
      ∃ t, exec (.bistAbort v) s = .next t ∧ State.Settles [] (((s.dev.writeWord 0x070 0x040 3 (v ||| 2)).viol 0x070).oneViol (0x070) (s.dev.hdr (0x070)).viol) s t) ∧
  (∀ (s : State), s.Inv →
      s.dev.bist.run ≠ [] →
      s.dev.bist.run.all (fun b => decide ((s.dev.block b).result ≠ resRunning) && decide (b < 16 ∨ 24 ≤ b)) = true →
      s.dev.bist.held = [] →
      ∃ t, exec (.bistRunEnd) s = .next t ∧ State.Settles [] ((fun d : Dev => { d with bist := { d.bist with run := [], isolated := false, held := [], shown := [] } }) (s.dev.wr Reg.BIST_STAT_BUSY 0)) s t) ∧
  (∀ (s : State), s.Inv →
      s.dev.bist.run ≠ [] →
      s.dev.bist.run.all (fun b => decide ((s.dev.block b).result ≠ resRunning)) = true →
      ∃ t, exec (.bistRunEnd) s = .next t ∧ (
      let R : Dev := s.dev.bist.run.foldl (fun (d : Dev) (b : Nat) => d.blockRestart b) s.dev
      t = s.become (s.dev.bist.held.foldl (fun (d : Dev) (h : HeldWrite) => d.heldActs s.bytes h) { R.wr Reg.BIST_STAT_BUSY 0 with bist := { R.bist with run := [], isolated := false, held := [], shown := [] }, accessor := .held }))) ∧
  (∀ (page off : Nat) (v : Word) (s : State), s.Inv →
      s.dev.bist.run ≠ [] →
      s.dev.bist.run.all (fun b => decide ((s.dev.block b).result ≠ resRunning) && decide (b < 16 ∨ 24 ≤ b)) = true →
      s.dev.bist.held = [.word page off v] →
      page ∈ [0x101, 0x103, 0x10A, 0x2C0] →
      off = 0x048 →
      ∃ t, exec (.bistRunEnd) s = .next t ∧ State.Settles [] ({ (((fun d : Dev => { d with bist := { d.bist with run := [], isolated := false, held := [], shown := [] }, accessor := .held }) (s.dev.wr Reg.BIST_STAT_BUSY 0)).busWrite s.bytes page off v) with accessor := .host }) s t) ∧
  (∀ (s : State), s.Inv →
      s.dev.bist.run = [] ∨ s.dev.bist.run.any (fun b => decide ((s.dev.block b).result = resRunning)) = true →
      ∃ t, exec (.bistRunEnd) s = .next t ∧ State.Settles [] (s.dev) s t)

/-- BIST_OFF, the fleet mode, direct access and JTAG.

BIST_OFF takes the blocks named and those named before; a write that names a reserved one is ignored and counted. A head that has waited without a relay link settles its fleet mode: in SMALL every FLAGGED block becomes UNUSABLE with E-06.03. Direct access, open in BLANK and RETURNED alone, runs its patterns and shows some signature; elsewhere it is counted with E-06.05, and the JTAG instructions that reach the chains and the test engine act as BYPASS with E-06.05; IDCODE shows DEV.IDCODE. -/
def Obligations.BlocksOutOfService : Prop :=
  (∀ (k : Fin 3) (v : Word) (s : State), s.Inv →
      s.dev.pageLive (0x070) = true →
      s.dev.pageInTest (0x070) = false →
      k = 0 →
      v &&& 0xFFFFFF00 = 0 →
      s.dev.essentialLost = false →
      ∃ t, exec (.bistOffWrite k v) s = .next t ∧ State.Settles [] (s.dev.wr (Reg.BIST_OFF_OFF k.val) (s.dev.rd (Reg.BIST_OFF_OFF k.val) ||| v.toNat)) s t) ∧
  (∀ (k : Fin 3) (v : Word) (s : State), s.Inv →
      s.dev.pageLive (0x070) = true →
      s.dev.pageInTest (0x070) = false →
      k = 0 ∧ v &&& 0xFF00 ≠ 0 ∨ k = 2 ∧ v &&& 0xFFFFF000 ≠ 0 →
      ∃ t, exec (.bistOffWrite k v) s = .next t ∧ State.Settles [] (s.dev.viol 0x070) s t) ∧
  (∀ (s : State), s.Inv →
      s.dev.pwr = pwrRun →
      s.dev.on Reg.STRAPS_CHAIN_HEAD = true →
      s.dev.anyRelayLink = false →
      s.dev.on Reg.STRAPS_FLEET_SETTLED = false →
      s.dev.on Reg.STRAPS_FLEET_EFF = true →
      ∃ t, exec (.fleetSettle) s = .next t ∧ State.Settles [] (s.dev.wr Reg.STRAPS_FLEET_SETTLED 1) s t) ∧
  (∀ (s : State), s.Inv →
      s.dev.pwr = pwrRun →
      s.dev.on Reg.STRAPS_CHAIN_HEAD = true →
      s.dev.anyRelayLink = false →
      s.dev.on Reg.STRAPS_FLEET_SETTLED = false →
      s.dev.on Reg.STRAPS_FLEET_EFF = false →
      ∃ t, exec (.fleetSettle) s = .next t ∧ State.Settles [] ((fun e : Dev => (List.range 76).foldl (fun (d : Dev) b => if (d.block b).flagged ∧ ¬ bitAt (d.rd (Reg.BIST_OFF_OFF (b / 32))) (b % 32) then (d.setBlock b { d.block b with unusable := true, flagged := false }).raise 6 3 |>.blockLost b else d) e) (s.dev.wr Reg.STRAPS_FLEET_SETTLED 1)) s t) ∧
  (∀ (s : State), s.Inv →
      s.dev.pwr ≠ pwrRun ∨ s.dev.on Reg.STRAPS_CHAIN_HEAD = false ∨ s.dev.anyRelayLink = true ∨ s.dev.on Reg.STRAPS_FLEET_SETTLED = true →
      ∃ t, exec (.fleetSettle) s = .next t ∧ State.Settles [] (s.dev) s t) ∧
  (∀ (v : Word) (s : State), s.Inv →
      s.dev.pageLive (0x072) = true →
      s.dev.pageInTest (0x072) = false →
      s.dev.directOpen = true →
      getBits v 0 7 < 76 →
      ∃ t, exec (.bistDirectGo v) s = .next t ∧ ∃ w : Nat → Nat, State.Settles [] ((List.range 4).foldl (fun (d : Dev) k => d.wr (Reg.DIR_SIG_SIG k) (w k)) (s.dev.writeWord 0x072 0x040 0x80 (v ||| 0x80))) s t) ∧
  (∀ (v : Word) (s : State), s.Inv →
      s.dev.pageLive (0x072) = true →
      s.dev.pageInTest (0x072) = false →
      s.dev.directOpen = true →
      76 ≤ getBits v 0 7 →
      ∃ t, exec (.bistDirectGo v) s = .next t ∧ State.Settles [] (s.dev.viol 0x072) s t) ∧
  (∀ (v : Word) (s : State), s.Inv →
      s.dev.pageLive (0x072) = true →
      s.dev.pageInTest (0x072) = false →
      s.dev.directOpen = false →
      ∃ t, exec (.bistDirectGo v) s = .next t ∧ State.Settles ([(6, 5)]) (s.dev.viol 0x072) s t) ∧
  (∀ (s : State), s.Inv →
      ∃ t, exec (.jtagInstruction .idcode) s = .next t ∧ State.Settles [] ({ s.dev with readData := [BitVec.ofNat 32 (s.dev.rd Reg.IDCODE_ID)], readPoisoned := false }) s t) ∧
  (∀ (i : JtagInstr) (s : State), s.Inv →
      i = .scan ∨ i = .testEngine →
      ∃ t, exec (.jtagInstruction i) s = .next t ∧ State.Settles (if s.dev.directOpen = true then [] else [(6, 5)]) (s.dev) s t) ∧
  (∀ (i : JtagInstr) (s : State), s.Inv →
      i = .bypass ∨ i = .samplePreload ∨ i = .extest →
      ∃ t, exec (.jtagInstruction i) s = .next t ∧ State.Settles [] (s.dev) s t)

/-- Life-cycle requests, the certificate, installs and the anti-rollback count.

An accepted request for PROVISIONED burns it and shows it pending with E-04.00, one for SCRAPPED also zeroises every key slot; any other is counted with E-04.09. COPY stores the chain at CERT_DST with its length in CERT_LEN; INSTALL takes a chain in BLANK alone. An install begins with BUSY, and shows the first image that fails with its cause; at its end the other slot holds the images and is the next to run, DONE, or FAIL, with E-04.02. The count advances to the lowest SVN running unless the other slot has a lower one, with E-04.03. -/
def Obligations.LifeCycleAndInstalls : Prop :=
  (∀ (v : Word) (s : State), s.Inv →
      s.dev.pageLive (0x000) = true →
      s.dev.pageInTest (0x000) = false →
      getBits v 0 3 = 1 →
      getBits v 16 16 = 0x5A01 →
      s.dev.rd Reg.LC_STAT_STATE = 0 →
      s.dev.on Reg.LC_STAT_PENDING = false →
      s.dev.vault.cert ≠ [] →
      ∃ t, exec (.lcTransitionRequest v) s = .next t ∧ State.Settles ([(4, 0)]) ((fun d : Dev => { d with vault := { d.vault with burned := max s.dev.vault.burned 1 } }) (((s.dev.writeWord 0x000 0x04C 8 (v ||| 8)).wr Reg.LC_STAT_PENDING 1).wr Reg.LC_STAT_PEND_TARGET 1)) s t) ∧
  (∀ (v : Word) (s : State), s.Inv →
      s.dev.pageLive (0x000) = true →
      s.dev.pageInTest (0x000) = false →
      getBits v 0 3 = 4 →
      getBits v 16 16 = 0x5A04 →
      s.dev.on Reg.LC_STAT_PENDING = false →
      ∃ t, exec (.lcTransitionRequest v) s = .next t ∧ State.Settles ([(4, 0)]) (((fun d : Dev => { d with vault := { d.vault with burned := max s.dev.vault.burned 4 } }) (((s.dev.writeWord 0x000 0x04C 8 (v ||| 8)).wr Reg.LC_STAT_PENDING 1).wr Reg.LC_STAT_PEND_TARGET 4)).keyZeroiseAll) s t) ∧
  (∀ (v : Word) (s : State), s.Inv →
      s.dev.pageLive (0x000) = true →
      s.dev.pageInTest (0x000) = false →
      getBits v 16 16 ≠ 0x5A00 + getBits v 0 3 ∨ (getBits v 0 3 ≠ 4 ∧ getBits v 0 3 ≠ s.dev.rd Reg.LC_STAT_STATE + 1) ∨ s.dev.on Reg.LC_STAT_PENDING = true ∨ (getBits v 0 3 = 1 ∧ s.dev.vault.cert = []) →
      ∃ t, exec (.lcTransitionRequest v) s = .next t ∧ State.Settles ([(4, 9)]) ((((s.dev.writeWord 0x000 0x04C 8 (v ||| 8))).viol 0x000).oneViol (0x000) (s.dev.hdr (0x000)).viol) s t) ∧
  (∀ (v : Word) (ok : Bool) (s : State), s.Inv →
      s.dev.pageLive (0x061) = true →
      s.dev.pageInTest (0x061) = false →
      v.getLsbD 1 = false →
      inWindow (s.dev.rd Reg.CERT_DST_OFFSET) s.dev.vault.cert.length = true →
      ∃ t, exec (.certCopy v ok) s = .next t ∧ State.Stores ([]) ((s.dev.writeWord 0x061 0x068 3 (v ||| 1)).wr Reg.CERT_LEN_BYTES s.dev.vault.cert.length) ([(winAddr (s.dev.rd Reg.CERT_DST_OFFSET), s.dev.vault.cert)]) s t) ∧
  (∀ (v : Word) (ok : Bool) (s : State), s.Inv →
      s.dev.pageLive (0x061) = true →
      s.dev.pageInTest (0x061) = false →
      v.getLsbD 1 = false →
      inWindow (s.dev.rd Reg.CERT_DST_OFFSET) s.dev.vault.cert.length = false →
      ∃ t, exec (.certCopy v ok) s = .next t ∧ State.Settles ([(4, 9)]) ((((s.dev.writeWord 0x061 0x068 3 (v ||| 1))).viol 0x061).oneViol (0x061) (s.dev.hdr (0x061)).viol) s t) ∧
  (∀ (v : Word) (s : State), s.Inv →
      s.dev.pageLive (0x061) = true →
      s.dev.pageInTest (0x061) = false →
      v.getLsbD 0 = false →
      s.dev.rd Reg.LC_STAT_STATE = lcBlank →
      0 < s.dev.rd Reg.CERT_LEN_BYTES ∧ s.dev.rd Reg.CERT_LEN_BYTES ≤ 4096 →
      inWindow (s.dev.rd Reg.CERT_DST_OFFSET) (s.dev.rd Reg.CERT_LEN_BYTES) = true →
      ∃ t, exec (.certInstall v true) s = .next t ∧ State.Settles [] ((fun d : Dev => { d with vault := { d.vault with cert := s.bytes (winAddr (s.dev.rd Reg.CERT_DST_OFFSET)) (s.dev.rd Reg.CERT_LEN_BYTES) } }) ((s.dev.writeWord 0x061 0x068 3 (v ||| 2)))) s t) ∧
  (∀ (v : Word) (ok : Bool) (s : State), s.Inv →
      s.dev.pageLive (0x061) = true →
      s.dev.pageInTest (0x061) = false →
      v.getLsbD 0 = false →
      s.dev.rd Reg.LC_STAT_STATE ≠ lcBlank ∨ 4096 < s.dev.rd Reg.CERT_LEN_BYTES ∨ ok = false →
      ∃ t, exec (.certInstall v ok) s = .next t ∧ State.Settles ([(4, 9)]) ((((s.dev.writeWord 0x061 0x068 3 (v ||| 2))).viol 0x061).oneViol (0x061) (s.dev.hdr (0x061)).viol) s t) ∧
  (∀ (v : Word) (s : State), s.Inv →
      s.dev.pageLive (0x060) = true →
      s.dev.pageInTest (0x060) = false →
      s.dev.on Reg.FW_INSTALL_BUSY = false →
      inWindow (s.dev.rd Reg.FW_SRC_OFFSET) (s.dev.rd Reg.FW_LEN_BYTES) = false →
      ∃ t, exec (.fwInstall v) s = .next t ∧ State.Settles [] ((fun d : Dev => { d with vault := { d.vault with install := some none } }) (((s.dev.writeWord 0x060 0x04C 1 (v ||| 1)).wr Reg.FW_INSTALL_BUSY 1).wr Reg.FW_INSTALL_DONE 0 |>.wr Reg.FW_INSTALL_FAIL 0)) s t) ∧
  (∀ (v : Word) (e : List Byte × Nat) (s : State), s.Inv →
      s.dev.pageLive (0x060) = true →
      s.dev.pageInTest (0x060) = false →
      s.dev.on Reg.FW_INSTALL_BUSY = false →
      inWindow (s.dev.rd Reg.FW_SRC_OFFSET) (s.dev.rd Reg.FW_LEN_BYTES) = true →
      s.dev.badImage (splitImages (s.dev.rd Reg.FW_LEN_BYTES / 256 + 1) (s.bytes (winAddr (s.dev.rd Reg.FW_SRC_OFFSET)) (s.dev.rd Reg.FW_LEN_BYTES))) = some e →
      ∃ t, exec (.fwInstall v) s = .next t ∧ State.Settles [] ((fun d : Dev => { d with vault := { d.vault with install := some none } }) (((((s.dev.writeWord 0x060 0x04C 1 (v ||| 1)).wr Reg.BOOT_STAT_FAIL_TYPE (imageType e.1)).wr Reg.BOOT_STAT_FAIL_CAUSE e.2).wr Reg.FW_INSTALL_BUSY 1).wr Reg.FW_INSTALL_DONE 0 |>.wr Reg.FW_INSTALL_FAIL 0)) s t) ∧
  (∀ (v : Word) (s : State), s.Inv →
      s.dev.pageLive (0x060) = true →
      s.dev.pageInTest (0x060) = false →
      s.dev.on Reg.FW_INSTALL_BUSY = true →
      ∃ t, exec (.fwInstall v) s = .next t ∧ State.Settles ([(4, 9)]) ((((s.dev.writeWord 0x060 0x04C 1 (v ||| 1))).viol 0x060).oneViol (0x060) (s.dev.hdr (0x060)).viol) s t) ∧
  (∀ (v : Word) (s : State), s.Inv →
      s.dev.pageLive (0x060) = true →
      s.dev.pageInTest (0x060) = false →
      s.dev.on Reg.FW_INSTALL_BUSY = false →
      inWindow (s.dev.rd Reg.FW_SRC_OFFSET) (s.dev.rd Reg.FW_LEN_BYTES) = true →
      ∃ t, exec (.fwInstall v) s = .next t ∧ (
      let imgs : List (List Byte) := splitImages (s.dev.rd Reg.FW_LEN_BYTES / 256 + 1) (s.bytes (winAddr (s.dev.rd Reg.FW_SRC_OFFSET)) (s.dev.rd Reg.FW_LEN_BYTES))
      State.Settles [] ((fun d : Dev => { d with vault := { d.vault with install := some (if imgs ≠ [] ∧ imgs.all (fun i => imageType i < 8) = true ∧ s.dev.badImage imgs = none then some imgs else none) } }) (((match s.dev.badImage imgs with | some e => ((s.dev.writeWord 0x060 0x04C 1 (v ||| 1)).wr Reg.BOOT_STAT_FAIL_TYPE (imageType e.1)).wr Reg.BOOT_STAT_FAIL_CAUSE e.2 | none => (s.dev.writeWord 0x060 0x04C 1 (v ||| 1))).wr Reg.FW_INSTALL_BUSY 1).wr Reg.FW_INSTALL_DONE 0 |>.wr Reg.FW_INSTALL_FAIL 0)) s t)) ∧
  (∀ (imgs : List (List Byte)) (s : State), s.Inv →
      s.dev.vault.install = some (some imgs) →
      ∃ t, exec (.fwInstallComplete true) s = .next t ∧ State.Settles ([(4, 2)]) ((fun d : Dev => { d with vault := { d.vault with install := none, slots := sset (dflt []) s.dev.vault.slots (1 - s.dev.rd Reg.BOOT_STAT_SLOT) imgs, active := 1 - s.dev.rd Reg.BOOT_STAT_SLOT } }) ((s.dev.wr Reg.FW_INSTALL_DONE 1).wr Reg.FW_INSTALL_BUSY 0)) s t) ∧
  (∀ (back : Bool) (r : Option (List (List Byte))) (s : State), s.Inv →
      s.dev.vault.install = some r →
      r = none ∨ back = false →
      ∃ t, exec (.fwInstallComplete back) s = .next t ∧ State.Settles ([(4, 2)]) ((fun d : Dev => { d with vault := { d.vault with install := none } }) ((s.dev.wr Reg.FW_INSTALL_FAIL 1).wr Reg.FW_INSTALL_BUSY 0)) s t) ∧
  (∀ (v : Word) (s : State), s.Inv →
      s.dev.pageLive (0x060) = true →
      s.dev.pageInTest (0x060) = false →
      s.dev.rd Reg.ARB_COUNT < s.dev.rd Reg.ARB_RUN_MIN_SVN →
      (s.dev.slotImages (1 - s.dev.rd Reg.BOOT_STAT_SLOT)).all (fun i => decide (s.dev.rd Reg.ARB_RUN_MIN_SVN ≤ imageSvn i)) = true →
      ∃ t, exec (.arbAdvance v) s = .next t ∧ State.Settles ([(4, 3)]) ((fun d : Dev => { d with vault := { d.vault with arb := s.dev.rd Reg.ARB_RUN_MIN_SVN } }) ((s.dev.writeWord 0x060 0x048 1 (v ||| 1)).wr Reg.ARB_COUNT (s.dev.rd Reg.ARB_RUN_MIN_SVN))) s t) ∧
  (∀ (v : Word) (s : State), s.Inv →
      s.dev.pageLive (0x060) = true →
      s.dev.pageInTest (0x060) = false →
      s.dev.rd Reg.ARB_RUN_MIN_SVN ≤ s.dev.rd Reg.ARB_COUNT ∨ (s.dev.slotImages (1 - s.dev.rd Reg.BOOT_STAT_SLOT)).any (fun i => decide (imageSvn i < s.dev.rd Reg.ARB_RUN_MIN_SVN)) = true →
      ∃ t, exec (.arbAdvance v) s = .next t ∧ State.Settles ([(4, 3)]) ((((s.dev.writeWord 0x060 0x048 1 (v ||| 1))).viol 0x060).oneViol (0x060) (s.dev.hdr (0x060)).viol) s t)

/-- Configuration bundles, quotes and the front-end memories.

A bundle that R520 accepts is applied, or kept as the stored one; one that it does not is refused with its cause and E-04.06, and a STORE of it is counted with E-04.09. Each record is a write by the bundle loader; a refused one stops the bundle at its number with FAIL and E-04.06; after the last one the bundle’s digest is expected, with DONE and E-04.06. A quote’s fields are captured at GO where the identity key signs and refused with E-04.05 otherwise; at its end it stands signed at ATT_DST, with E-04.04. A front-end memory is read for an engine that is dark and not receiving; its 768 bytes are kept with their validity; a read of FE_DATA returns a word and advances. -/
def Obligations.BundlesQuotesAndFrontEnds : Prop :=
  (∀ (v : Word) (b : BundleRun) (s : State), s.Inv →
      s.dev.pageLive (0x061) = true →
      s.dev.pageInTest (0x061) = false →
      v.getLsbD 1 = false →
      s.dev.on Reg.BUNDLE_CTRL_BUSY = false →
      s.dev.bundleOk (imageAt s.bytes (s.dev.rd Reg.BUNDLE_SRC_OFFSET)) = true →
      bundleOf (imageAt s.bytes (s.dev.rd Reg.BUNDLE_SRC_OFFSET)) = b →
      ∃ t, exec (.bundleApply v) s = .next t ∧ State.Settles [] ((fun d : Dev => { d with vault := { d.vault with apply := some b } }) ((((((s.dev.writeWord 0x061 0x074 3 (v ||| 1))).wr Reg.BUNDLE_CTRL_DONE 0).wr Reg.BUNDLE_CTRL_FAIL 0).wr Reg.BUNDLE_STAT_STOP_REC 0).wr Reg.BUNDLE_CTRL_BUSY 1)) s t) ∧
  (∀ (v : Word) (img : List Byte) (s : State), s.Inv →
      s.dev.pageLive (0x061) = true →
      s.dev.pageInTest (0x061) = false →
      v.getLsbD 1 = false →
      s.dev.on Reg.BUNDLE_CTRL_BUSY = false →
      (imageAt s.bytes (s.dev.rd Reg.BUNDLE_SRC_OFFSET)) = img →
      s.dev.bundleOk img = false →
      ∃ t, exec (.bundleApply v) s = .next t ∧ State.Settles ([(4, 6)]) ((((((((s.dev.writeWord 0x061 0x074 3 (v ||| 1))).wr Reg.BUNDLE_CTRL_DONE 0).wr Reg.BUNDLE_CTRL_FAIL 0).wr Reg.BUNDLE_STAT_STOP_REC 0).wr Reg.BOOT_STAT_FAIL_TYPE (imageType img)).wr Reg.BOOT_STAT_FAIL_CAUSE (s.dev.imageCause img)).wr Reg.BUNDLE_CTRL_FAIL 1) s t) ∧
  (∀ (v : Word) (s : State), s.Inv →
      s.dev.pageLive (0x061) = true →
      s.dev.pageInTest (0x061) = false →
      v.getLsbD 1 = false →
      s.dev.on Reg.BUNDLE_CTRL_BUSY = true →
      ∃ t, exec (.bundleApply v) s = .next t ∧ State.Settles ([(4, 9)]) ((((s.dev.writeWord 0x061 0x074 3 (v ||| 1))).viol 0x061).oneViol (0x061) (s.dev.hdr (0x061)).viol) s t) ∧
  (∀ (v : Word) (s : State), s.Inv →
      s.dev.pageLive (0x061) = true →
      s.dev.pageInTest (0x061) = false →
      v.getLsbD 0 = false →
      s.dev.bundleOk (imageAt s.bytes (s.dev.rd Reg.BUNDLE_SRC_OFFSET)) = true →
      ∃ t, exec (.bundleStore v) s = .next t ∧ State.Settles [] ((fun d : Dev => { d with vault := { d.vault with bundle := (imageAt s.bytes (s.dev.rd Reg.BUNDLE_SRC_OFFSET)) } }) ((s.dev.writeWord 0x061 0x074 3 (v ||| 2)))) s t) ∧
  (∀ (v : Word) (s : State), s.Inv →
      s.dev.pageLive (0x061) = true →
      s.dev.pageInTest (0x061) = false →
      v.getLsbD 0 = false →
      s.dev.bundleOk (imageAt s.bytes (s.dev.rd Reg.BUNDLE_SRC_OFFSET)) = false →
      ∃ t, exec (.bundleStore v) s = .next t ∧ State.Settles ([(4, 9)]) ((((s.dev.writeWord 0x061 0x074 3 (v ||| 2))).viol 0x061).oneViol (0x061) (s.dev.hdr (0x061)).viol) s t) ∧
  (∀ (b : BundleRun) (r : List Byte) (s : State), s.Inv →
      s.dev.hubOn = true →
      s.dev.vault.apply = some b →
      b.records[b.next]? = some r →
      fieldLE r 2 2 = 0x042 →
      fieldLE r 4 2 = 0x040 →
      fieldLE r 8 4 = 7 →
      (s.dev.hdr 0x042).cstate = .opened →
      ∃ t, exec (.bundleRecord) s = .next t ∧ State.Settles [] ((fun d : Dev => { d with vault := { d.vault with apply := some { b with next := b.next + 1 } }, accessor := .host }) (({ s.dev with accessor := .loader } : Dev).busWrite s.bytes (fieldLE r 2 2 % 4096) (fieldLE r 4 2 % 4096 / 4 * 4) (BitVec.ofNat 32 (fieldLE r 8 4)))) s t) ∧
  (∀ (b : BundleRun) (r : List Byte) (s : State), s.Inv →
      s.dev.hubOn = true →
      s.dev.vault.apply = some b →
      b.records[b.next]? = some r →
      ∃ t, exec (.bundleRecord) s = .next t ∧ (
      let W : Dev := ({ s.dev with accessor := .loader } : Dev).busWrite s.bytes (fieldLE r 2 2 % 4096) (fieldLE r 4 2 % 4096 / 4 * 4) (BitVec.ofNat 32 (fieldLE r 8 4))
      t = s.become (if W.refused then W.bundleStop b.next else { W with vault := { W.vault with apply := some { b with next := b.next + 1 } } }))) ∧
  (∀ (b : BundleRun) (r : List Byte) (s : State), s.Inv →
      s.dev.hubOn = true →
      s.dev.vault.apply = some b →
      b.records[b.next]? = some r →
      pageAllocated (fieldLE r 2 2 % 4096) = false →
      fieldLE r 2 2 % 4096 < 0x060 →
      ∃ t, exec (.bundleRecord) s = .next t ∧ State.Settles ([(4, 6)]) ((fun d : Dev => { d with vault := { d.vault with apply := none } }) (((s.dev.viol 0x000).wr Reg.BUNDLE_STAT_STOP_REC b.next).wr Reg.BUNDLE_CTRL_FAIL 1 |>.wr Reg.BUNDLE_CTRL_BUSY 0)) s t) ∧
  (∀ (b : BundleRun) (s : State), s.Inv →
      s.dev.hubOn = true →
      s.dev.vault.apply = some b →
      b.records.length ≤ b.next →
      ∃ t, exec (.bundleComplete) s = .next t ∧ State.Settles ([(4, 6)]) (((fun d : Dev => (((d.wrWords Reg.EXPECT_D (digestWords b.digest)).wr Reg.ALM_CTRL_EXPECT_EN 1).settleMatch.wr Reg.BUNDLE_CTRL_DONE 1).wr Reg.BUNDLE_CTRL_BUSY 0) ({ s.dev with vault := { s.dev.vault with apply := none } }))) s t) ∧
  (∀ (b : BundleRun) (s : State), s.Inv →
      s.dev.vault.apply = some b →
      b.next < b.records.length →
      ∃ t, exec (.bundleComplete) s = .next t ∧ State.Settles [] (s.dev) s t) ∧
  (∀ (v : Word) (s : State), s.Inv →
      s.dev.pageLive (0x061) = true →
      s.dev.pageInTest (0x061) = false →
      s.dev.on Reg.ATT_CTRL_BUSY = false →
      s.dev.rd Reg.LC_STAT_STATE = lcProvisioned ∨ s.dev.rd Reg.LC_STAT_STATE = lcOwned →
      s.dev.on Reg.LC_STAT_PENDING = false →
      ∃ t, exec (.attQuote v) s = .next t ∧ State.Settles [] ((fun d : Dev => { d with vault := { d.vault with quote := some (s.dev.rd Reg.ATT_DST_OFFSET, (s.dev.writeWord 0x061 0x040 1 (v ||| 1)).quoteBytes) } }) ((((s.dev.writeWord 0x061 0x040 1 (v ||| 1)).wr Reg.ATT_CTRL_DONE 0).wr Reg.ATT_CTRL_REFUSED 0).wr Reg.ATT_CTRL_BUSY 1)) s t) ∧
  (∀ (v : Word) (s : State), s.Inv →
      s.dev.pageLive (0x061) = true →
      s.dev.pageInTest (0x061) = false →
      s.dev.on Reg.ATT_CTRL_BUSY = false →
      s.dev.rd Reg.LC_STAT_STATE ≠ lcProvisioned ∧ s.dev.rd Reg.LC_STAT_STATE ≠ lcOwned →
      ∃ t, exec (.attQuote v) s = .next t ∧ State.Settles ([(4, 5)]) ((((s.dev.writeWord 0x061 0x040 1 (v ||| 1)).wr Reg.ATT_CTRL_DONE 0).wr Reg.ATT_CTRL_REFUSED 1).wr Reg.ATT_CTRL_BUSY 0) s t) ∧
  (∀ (v : Word) (s : State), s.Inv →
      s.dev.pageLive (0x061) = true →
      s.dev.pageInTest (0x061) = false →
      s.dev.on Reg.ATT_CTRL_BUSY = true →
      ∃ t, exec (.attQuote v) s = .next t ∧ State.Settles ([(4, 9)]) ((((s.dev.writeWord 0x061 0x040 1 (v ||| 1))).viol 0x061).oneViol (0x061) (s.dev.hdr (0x061)).viol) s t) ∧
  (∀ (dst : Nat) (b : List Byte) (s : State), s.Inv →
      s.dev.vault.quote = some (dst, b) →
      s.dev.rd Reg.LC_STAT_STATE = lcProvisioned ∨ s.dev.rd Reg.LC_STAT_STATE = lcOwned →
      s.dev.on Reg.LC_STAT_PENDING = false →
      inWindow dst 448 = true →
      ∃ t, exec (.attQuoteComplete) s = .next t ∧ State.Stores ([(4, 4)]) ((fun d : Dev => { d with vault := { d.vault with quote := none } }) ((s.dev.wr Reg.ATT_CTRL_BUSY 0).wr Reg.ATT_CTRL_DONE 1)) ([(winAddr dst, b ++ edSign identitySeed b)]) s t) ∧
  (∀ (dst : Nat) (b : List Byte) (s : State), s.Inv →
      s.dev.vault.quote = some (dst, b) →
      s.dev.rd Reg.LC_STAT_STATE ≠ lcProvisioned ∧ s.dev.rd Reg.LC_STAT_STATE ≠ lcOwned →
      ∃ t, exec (.attQuoteComplete) s = .next t ∧ State.Settles ([(4, 5)]) ((fun d : Dev => { d with vault := { d.vault with quote := none } }) ((s.dev.wr Reg.ATT_CTRL_REFUSED 1).wr Reg.ATT_CTRL_BUSY 0)) s t) ∧
  (∀ (v : Word) (s : State), s.Inv →
      s.dev.pageLive (0x062) = true →
      s.dev.pageInTest (0x062) = false →
      s.dev.lineOn ((s.dev.writeWord 0x062 0x040 8 (v ||| 8)).rd Reg.FE_CTRL_ENGINE) = true →
      s.dev.txs ((s.dev.writeWord 0x062 0x040 8 (v ||| 8)).rd Reg.FE_CTRL_ENGINE) = txDark →
      s.dev.on (Reg.RX_CTRL_ENABLE ((s.dev.writeWord 0x062 0x040 8 (v ||| 8)).rd Reg.FE_CTRL_ENGINE)) = false →
      ∃ t, exec (.feRead v) s = .next t ∧ State.Settles [] ((s.dev.writeWord 0x062 0x040 8 (v ||| 8)).setFee ((s.dev.writeWord 0x062 0x040 8 (v ||| 8)).rd Reg.FE_CTRL_ENGINE) { s.dev.fee ((s.dev.writeWord 0x062 0x040 8 (v ||| 8)).rd Reg.FE_CTRL_ENGINE) with busy := true, forHost := true }) s t) ∧
  (∀ (v : Word) (s : State), s.Inv →
      s.dev.pageLive (0x062) = true →
      s.dev.pageInTest (0x062) = false →
      s.dev.lineOn ((s.dev.writeWord 0x062 0x040 8 (v ||| 8)).rd Reg.FE_CTRL_ENGINE) = false ∨ s.dev.txs ((s.dev.writeWord 0x062 0x040 8 (v ||| 8)).rd Reg.FE_CTRL_ENGINE) ≠ txDark ∨ s.dev.on (Reg.RX_CTRL_ENABLE ((s.dev.writeWord 0x062 0x040 8 (v ||| 8)).rd Reg.FE_CTRL_ENGINE)) = true →
      ∃ t, exec (.feRead v) s = .next t ∧ State.Settles ([(4, 9)]) ((((s.dev.writeWord 0x062 0x040 8 (v ||| 8))).viol 0x062).oneViol (0x062) (s.dev.hdr (0x062)).viol) s t) ∧
  (∀ (n : Fin 8) (bytes : List Byte) (s : State), s.Inv →
      (s.dev.fee n).busy = true →
      (s.dev.fee n).forPrep = false →
      (s.dev.fee n).forRx = false →
      ∃ t, exec (.feReadComplete n (some bytes)) s = .next t ∧ State.Settles [] (s.dev.setFee n ⟨bytes, feDataValid bytes, false, false, false, false, false⟩) s t) ∧
  (∀ (n : Fin 8) (data : Option (List Byte)) (s : State), s.Inv →
      (s.dev.fee n).busy = true →
      ∃ t, exec (.feReadComplete n data) s = .next t ∧ (
      let b : List Byte := data.getD []
      let ok : Bool := feDataValid b
      let R : Dev := (s.dev.setFee n ⟨b, ok, data.isNone, false, false, false, false⟩).raiseIf data.isNone 4 7
      let P : Dev := if (s.dev.fee n).forPrep = true then R.feToPrep n ok (fieldLE b 4 1) else R
      State.Settles [] (if (s.dev.fee n).forRx = true then P.feToRx n ok (fieldLE b 4 1) else P) s t)) ∧
  (∀ (n : Fin 8) (s : State), s.Inv →
      (s.dev.fee n).busy = true →
      (s.dev.fee n).forPrep = false →
      (s.dev.fee n).forRx = false →
      ∃ t, exec (.feReadComplete n none) s = .next t ∧ State.Settles ([(4, 7)]) (s.dev.setFee n ⟨[], false, true, false, false, false, false⟩) s t) ∧
  (∀ (s : State), s.Inv →
      s.dev.pageLive (0x062) = true →
      s.dev.pageInTest (0x062) = false →
      s.dev.rd Reg.FE_INDEX_WORD < 192 →
      ∃ t, exec (.feDataRead) s = .next t ∧ State.Settles [] ({ (s.dev.wr Reg.FE_INDEX_WORD (s.dev.rd Reg.FE_INDEX_WORD + 1)) with readData := [BitVec.ofNat 32 (fieldLE (s.dev.fee (s.dev.rd Reg.FE_CTRL_ENGINE)).cache (4 * s.dev.rd Reg.FE_INDEX_WORD) 4)], readPoisoned := false }) s t)

/-- A step runs the command at the front of the queue on the state with the rest of the queue.

For every command and state, a step with the command at the front of the queue is exec of it on the state with the queue’s rest. On an empty queue the block idles (the model’s choice, log 6). -/
def Obligations.StepRunsTheFrontCommand : Prop :=
  (∀ (c : Instr) (cs : List Instr) (s : State), s.pending = c :: cs → step s = exec c { s with pending := cs }) ∧
  (∀ s : State, s.pending = [] → step s = .next s)

/-- The state after reset.

State.reset meets the invariant, its queue is empty and no byte of HBM is listed; each page is OPEN with no violation counted and epoch 0, no latch is set and no source enabled or routed, every engine is DARK and every receiver OFF, the life-cycle state and the part are those of log 40 (the model’s choice); and a sample of the registers read their reset values. -/
def Obligations.ResetState : Prop :=
  State.reset.Inv ∧ State.reset.pending = [] ∧ State.reset.mem = [] ∧
  (∀ page : BitVec 12, (Dev.reset.hdr page.toNat).cstate = .opened ∧ (Dev.reset.hdr page.toNat).viol = 0 ∧ (Dev.reset.hdr page.toNat).epoch = 0) ∧
  (∀ g b : Fin 32, Dev.reset.latched g b = false ∧ (Dev.reset.ev.group g).en = 0 ∧ (Dev.reset.ev.group g).route = 0) ∧
  (∀ n : Fin 8, Dev.reset.rd (Reg.TX_STATE_STATE n) = txDark ∧ Dev.reset.rd (Reg.TX_RAMP_TIME_MS n) = 100 ∧ Dev.reset.rd (Reg.TX_RAMP_FAST_MS n) = 10 ∧
    Dev.reset.rd (Reg.FEC_CTRL_ITER_MAX n) = 16 ∧ Dev.reset.rd (Reg.FEC_CTRL_ITER_FLOOR n) = 8 ∧ Dev.reset.rd (Reg.ALIGN_STAT_STATE n) = alIdle) ∧
  Dev.reset.rd Reg.PWR_STAT_STATE = pwrFinderOnly ∧ Dev.reset.rd Reg.LC_STAT_STATE = 0 ∧ Dev.reset.variant = .sq9812 ∧
  Dev.reset.rd Reg.WIN_BASE_BASE = Dev.reset.rd Reg.WIN_HOME_BASE ∧ Dev.reset.rd Reg.Q_STALL_STALL_US = 40 ∧
  Dev.reset.rd Reg.THERM_THR_WARN = 200 ∧ Dev.reset.rd Reg.THERM_THR_SHUTDOWN = 240 ∧ Dev.reset.rd Reg.MEMI_CTRL_CE_THR = 1000 ∧
  (∀ n : Fin 8, Dev.reset.rd (Reg.ACQ_STAT_STATE n) = acqIdle)

/-- Every command completes and keeps the invariant, and every queue is emptied.

On every state each command answers a next state with the queue as it was; from a state with HBM in canonical form and the model’s own fields at rest that state has them so too, and no byte from the end of usable HBM on changes; every step keeps the invariant; and as many steps as commands wait empty the queue. -/
def Obligations.EveryStepKeepsTheInvariant : Prop :=
  (∀ (c : Instr) (s : State), ∃ t, exec c s = .next t ∧ t.pending = s.pending ∧ (s.Inv → t.Inv) ∧
    ∀ x, t.dev.hbmUsable ≤ x → sget (dflt 0) t.mem x = sget (dflt 0) s.mem x) ∧
  (∀ s t : State, s.Inv → step s = .next t → t.Inv) ∧
  (∀ s : State, s.Inv → ∃ t, Sys2Proof.core.run s.pending.length s = .next t ∧ State.Inv t ∧ State.pending t = [])

/-- A register write and the read after it, field by field by the access codes.

On the pages whose registers act by their access codes alone and whose reads are stored words, a write of any word: an RW field holds the bits written, W1C clears and W1S sets the bits written 1, RO and WO fields stay, an RWA field keeps its effective value while its shadow takes the bits written in an OPEN page and stays in any other. A read then shows every field but WO ones, which read 0, and reserved bits as 0. One violation is counted where a reserved bit was set or a shadow of a page that is not OPEN would have changed, none else. A reserved offset reads 0 and its write is counted. -/
def Obligations.AccessCodesOfFields : Prop :=
  ∀ (page off : BitVec 12) (v : Word) (s : State), s.Inv → s.dev.pageLive page.toNat = true → s.dev.pageInTest page.toNat = false →
      page.toNat ∈ [0x004, 0x011, 0x018, 0x032, 0x040, 0x042, 0x091, 0x094, 0x0A0, 0x0A1, 0x0B9, 0x240, 0x280, 0x341] →
      0x040 ≤ off.toNat → tblAt page.toNat (off.toNat / 4 * 4) = none →
      ∃ t, exec (.registerWrite page off v) s = .next t ∧
      match regAt page.toNat (off.toNat / 4 * 4) with
      | none => t.dev.busRead page.toNat (off.toNat / 4 * 4) = 0 ∧ (t.dev.hdr page.toNat).viol = satAdd 32 (s.dev.hdr page.toNat).viol 1
      | some (_, _, r) =>
        let c := regCell page.toNat (off.toNat / 4 * 4)
        let shown (f : FieldSpec) : Nat := getBits (t.dev.busRead page.toNat (off.toNat / 4 * 4)) f.lsb f.width
        let late := (s.dev.hdr page.toNat).cstate ≠ .opened ∧ ∃ f ∈ r.fields, f.acc = .rwa ∧ s.dev.sh (f.at c) ≠ getBits v f.lsb f.width
        (∀ f ∈ r.fields, match f.acc with
          | .rw => t.dev.rd (f.at c) = getBits v f.lsb f.width ∧ shown f = t.dev.rd (f.at c)
          | .w1c => t.dev.rd (f.at c) = getBits (s.dev.word c &&& ~~~ v) f.lsb f.width ∧ shown f = t.dev.rd (f.at c)
          | .w1s => t.dev.rd (f.at c) = getBits (s.dev.word c ||| v) f.lsb f.width ∧ shown f = t.dev.rd (f.at c)
          | .ro => t.dev.rd (f.at c) = s.dev.rd (f.at c) ∧ shown f = t.dev.rd (f.at c)
          | .wo => shown f = 0
          | .rwa => t.dev.rd (f.at c) = s.dev.rd (f.at c) ∧ shown f = t.dev.rd (f.at c) ∧
              t.dev.sh (f.at c) = if (s.dev.hdr page.toNat).cstate = .opened then getBits v f.lsb f.width else s.dev.sh (f.at c)) ∧
        t.dev.busRead page.toNat (off.toNat / 4 * 4) &&& ~~~ namedBits r.fields = 0 ∧
        (v &&& ~~~ namedBits r.fields ≠ 0 ∨ late → (t.dev.hdr page.toNat).viol = satAdd 32 (s.dev.hdr page.toNat).viol 1) ∧
        (v &&& ~~~ namedBits r.fields = 0 ∧ ¬ late → (t.dev.hdr page.toNat).viol = (s.dev.hdr page.toNat).viol)

/-- Event summaries, enables written, and EV_FORCE.

The summary of a group is 1 while any bit of latch and enable is 1; a write of the enables through page 0x021 makes them those bits and nothing else, so that an enable set over a set latch raises the summary at once. A write of EV_FORCE with GO raises the source of its GROUP and BIT, where a chapter defines it (R452), and increments FORCED. -/
def Obligations.EventSummariesAndForce : Prop :=
  (∀ g : EvGroup, g.summary = true ↔ ∃ b < 32, g.latch.getLsbD b = true ∧ g.en.getLsbD b = true) ∧
  (∀ (g : Fin 32) (v : Word) (s : State), s.Inv →
      s.dev.pageLive 0x021 = true →
      ∃ t, exec (.registerWrite 0x021 (BitVec.ofNat 12 (0x044 + 16 * g)) v) s = .next t ∧ State.Settles [] ({ s.dev with ev := { s.dev.ev with groups := sset (dflt EvGroup.reset) s.dev.ev.groups g { s.dev.ev.group g with en := v } } }) s t ∧
      (∀ b : Fin 32, (s.dev.ev.group g).latch.getLsbD b = true → v.getLsbD b = true → (t.dev.ev.group g).summary = true)) ∧
  (∀ (v : Word) (s : State), s.Inv →
      s.dev.pageLive 0x020 = true →
      ∃ t, exec (.evForce v) s = .next t ∧ State.Settles (if bitAt (definedBits (getBits v 5 5)) (getBits v 0 5) then [(getBits v 5 5, getBits v 0 5)] else []) ((s.dev.writeWord 0x020 0x04C 0x400 (v ||| 0x400)).bump Reg.FORCED) s t)

/-- The data pages of the performance counters.

Data page k shows counters 32k to 32k + 31, VALUE_LO their lower 32 bits and VALUE_HI their upper 16 in bits 15 to 0; its block registers read 0 unless USER_EN bit k is 1; its header always reads, PAGE_ID first; and every write to it, of a header register too, is ignored and counted in its VIOLATION_COUNT. -/
def Obligations.CounterDataPages : Prop :=
  (∀ (k : Fin 256) (j : Fin 32) (off : BitVec 12) (s : State), s.dev.pageLive (0x400 + k.val) = true →
      (s.dev.userPage k = true → s.dev.busRead (0x400 + k.val) (0x040 + 8 * j) = BitVec.ofNat 32 (s.dev.counter (32 * k + j)) ∧
        getBits (s.dev.busRead (0x400 + k.val) (0x044 + 8 * j)) 0 16 = s.dev.counter (32 * k + j) / 2 ^ 32 % 2 ^ 16) ∧
      (s.dev.userPage k = false → 0x040 ≤ off.toNat → s.dev.busRead (0x400 + k.val) off.toNat = 0) ∧
      (off.toNat < 0x040 → s.dev.busRead (0x400 + k.val) off.toNat = s.dev.headerRead (0x400 + k.val) off.toNat) ∧
      s.dev.busRead (0x400 + k.val) 0x000 = pageId (0x400 + k.val)) ∧
  (∀ (k : Fin 256) (off : BitVec 12) (v : Word) (s : State), s.Inv →
      s.dev.pageLive (0x400 + k.val) = true →
      ∃ t, exec (.registerWrite (BitVec.ofNat 12 (0x400 + k.val)) off v) s = .next t ∧ State.Settles [] (s.dev.viol (0x400 + k.val)) s t) ∧
  (∀ (k : Fin 256) (v : Word) (s : State), s.Inv →
      s.dev.pageLive (0x400 + k.val) = true →
      ∃ t, exec (.clrViol (BitVec.ofNat 12 (0x400 + k.val)) v) s = .next t ∧ State.Settles [] (s.dev.viol (0x400 + k.val)) s t) ∧
  (∀ (k : Fin 256) (v : Word) (s : State), s.Inv →
      s.dev.pageLive (0x400 + k.val) = true →
      ∃ t, exec (.shadowArm (BitVec.ofNat 12 (0x400 + k.val)) v) s = .next t ∧ State.Settles [] (s.dev.viol (0x400 + k.val)) s t) ∧
  (∀ (k : Fin 256) (v : Word) (s : State), s.Inv →
      s.dev.pageLive (0x400 + k.val) = true →
      ∃ t, exec (.evLatchClear (.header (BitVec.ofNat 12 (0x400 + k.val))) v) s = .next t ∧ State.Settles [] (s.dev.viol (0x400 + k.val)) s t)

/-- A read of Q_POP on a device other than the head never stalls.

On a device other than the head a read of Q_POP of any queue answers one word and starts no stall: of a queue that the host consumes, EMPTY where no item waits, and a handle where an item waits and a landing slot is free, with no configuration of the queues waiting. -/
def Obligations.PopsBeyondTheHead : Prop :=
  ∀ (q : Fin 32) (s : State), s.Inv → s.dev.on Reg.STRAPS_CHAIN_HEAD = false →
      ∃ t, exec (.qPop q) s = .next t ∧ t.dev.readData.length = 1 ∧ (t.dev.on (Reg.Q_STAT_STALLING q) = true → s.dev.on (Reg.Q_STAT_STALLING q) = true) ∧
      (s.dev.pageLive 0x043 = true → s.dev.on (Reg.Q_CFG_EN q) = true → s.dev.on (Reg.Q_CFG_CONSUMER q) = false →
        s.dev.on (Reg.Q_STAT_STALLING q) = false → s.dev.later.all (fun x => decide (x.page ≠ 0x042)) = true →
        ((s.dev.qu q).waiting = [] → t.dev.readData = [BitVec.ofNat 32 1]) ∧
        (∀ i k, bestItem (s.dev.qu q).waiting = some i → s.dev.freeSlot q = some k →
          t.dev.readData = [BitVec.ofNat 32 (2 ^ 31 + i.prio * 2 ^ 28 + k * 2 ^ 16 + s.dev.rd (Reg.Q_STAT_NEXT_SEQ q))]))

/-- What every queue, shed and capture command leaves in its own registers, whatever else is going on.

An overflow or underflow sets its queue’s flag with E-00.16 and stops the queue; HWM_CLEAR leaves every mark within its queue’s depth; the host’s request stands in REQ_HOST and ACTIVE is the union; SHARE moves one step; a lost die’s engines are faulted. A trigger, by FIRE, by the event or by the time, makes each armed engine that is not busy start its snapshot run at the trigger’s start time and each busy one miss it and stay armed, however many are armed; a time trigger clears TENABLE, and TENABLE stays only where the time is still to come. ARM arms, DISARM ends arming, run and drains; a run starts, and ends with its snapshot; a decimated record and a drain go through the drain’s list. -/
def Obligations.ShedAndCaptureCommandsComplete : Prop :=
  (∀ (q : Fin 220) (s : State), s.Inv →
      s.dev.hubOn = true →
      writerCannotWait q = true →
      ∃ t, exec (.xqOverflow q) s = .next t ∧ t.dev.on (Reg.LEVEL_OVERFLOW q) = true ∧ t.dev.xqStopped.contains q.val = true ∧ t.dev.latched 0 16 = true) ∧
  (∀ (q : Fin 220) (s : State), s.Inv →
      s.dev.hubOn = true →
      readerCannotWait q = true →
      ∃ t, exec (.xqOverflow q) s = .next t ∧ t.dev.on (Reg.LEVEL_UNDERFLOW q) = true ∧ t.dev.xqStopped.contains q.val = true ∧ t.dev.latched 0 16 = true) ∧
  (∀ (v : Word) (s : State), s.Inv →
      s.dev.pageLive (0x00E) = true →
      s.dev.pageInTest (0x00E) = false →
      ∃ t, exec (.xqHwmClear v) s = .next t ∧ ∀ q : Fin 220, t.dev.rd (Reg.LEVEL_HWM q) ≤ xqDepth q) ∧
  (∀ (v : Word) (s : State), s.Inv →
      s.dev.pageLive (0x00F) = true →
      s.dev.pageInTest (0x00F) = false →
      ∃ t, exec (.shedReqHostWrite v) s = .next t ∧ t.dev.rd Reg.REQ_HOST_STEP = getBits v Reg.REQ_HOST_STEP.lsb Reg.REQ_HOST_STEP.width ∧ t.dev.rd Reg.ACTIVE_STEP = t.dev.rd Reg.REQ_THERM_STEP ||| t.dev.rd Reg.REQ_HBM_STEP ||| t.dev.rd Reg.REQ_HOST_STEP) ∧
  (∀ (s : State), s.Inv →
      s.dev.hubOn = true →
      ∃ t, exec (.parseBeShareStep) s = .next t ∧ t.dev.rd Reg.PARSE_BE_SHARE = if s.dev.shedActive 4 then (if s.dev.rd Reg.PARSE_BE_SHARE_FLOOR < s.dev.rd Reg.PARSE_BE_SHARE then s.dev.rd Reg.PARSE_BE_SHARE - 1 else s.dev.rd Reg.PARSE_BE_SHARE) else if s.dev.rd Reg.PARSE_BE_SHARE < 16 then s.dev.rd Reg.PARSE_BE_SHARE + 1 else s.dev.rd Reg.PARSE_BE_SHARE) ∧
  (∀ (k : Fin 4) (s : State), s.Inv →
      s.dev.hubOn = true →
      s.dev.lineOn (2 * k.val) = true →
      ∃ t, exec (.dieLinkLoss k) s = .next t ∧ (t.dev.rxe (2 * k.val)).fault = true ∧ (t.dev.rxe (2 * k.val + 1)).fault = true ∧ t.dev.dieLost.getLsbD k.val = true) ∧
  (∀ (v : Word) (s : State), s.Inv →
      s.dev.pageLive (capPage) = true →
      s.dev.pageInTest (capPage) = false →
      v.getLsbD 3 = false →
      (s.dev.writeWord capPage 0x054 0xC (v ||| 4)).rd Reg.CAP_TRIG_SOURCE = 0 →
      ∃ t, exec (.capFire v) s = .next t ∧ t.dev.on Reg.CAP_TRIG_TENABLE = false ∧ ∀ m : Fin 8, s.dev.on (Reg.RX_CAP_STAT_ARMED m) = true →
        if s.dev.on (Reg.RX_CAP_STAT_BUSY m) = true then t.dev.on (Reg.RX_CAP_STAT_ARMED m) = true ∧ t.dev.on (Reg.RX_CAP_STAT_MISSED m) = true
        else t.dev.on (Reg.RX_CAP_STAT_ARMED m) = false ∧ (s.dev.on (Reg.RX_CAP_CTRL_MODE m) = false → s.dev.shedActive 1 = false → s.dev.rd Reg.CAP_BUF_SIZE_GB ≠ 0 →
          (t.dev.cpe m).run = some ⟨false, s.dev.rd (Reg.RX_CAP_CTRL_DECIM m), 1024 * s.dev.rd (Reg.RX_CAP_CTRL_LENGTH_KI m), s.dev.capSoon, 0, false, 0, 0⟩)) ∧
  (∀ (e : Nat × Nat × Nat) (s : State), s.Inv →
      s.dev.ev.capDue = some e →
      ∃ t, exec (.capEventTrigger) s = .next t ∧ t.dev.ev.capDue = none ∧ ∀ m : Fin 8, s.dev.on (Reg.RX_CAP_STAT_ARMED m) = true →
        if s.dev.on (Reg.RX_CAP_STAT_BUSY m) = true then t.dev.on (Reg.RX_CAP_STAT_ARMED m) = true ∧ t.dev.on (Reg.RX_CAP_STAT_MISSED m) = true
        else t.dev.on (Reg.RX_CAP_STAT_ARMED m) = false ∧ (s.dev.on (Reg.RX_CAP_CTRL_MODE m) = false → s.dev.shedActive 1 = false → s.dev.rd Reg.CAP_BUF_SIZE_GB ≠ 0 →
          (t.dev.cpe m).run = some ⟨false, s.dev.rd (Reg.RX_CAP_CTRL_DECIM m), 1024 * s.dev.rd (Reg.RX_CAP_CTRL_LENGTH_KI m), e.1 + 1000 * 65536, 1 + 4 * e.2.1 + 128 * e.2.2, false, 0, 0⟩)) ∧
  (∀ (s : State), s.Inv →
      s.dev.on Reg.CAP_TRIG_TENABLE = true →
      s.dev.rd Reg.CAP_TRIG_SOURCE = 2 →
      ∃ t, exec (.capTimeTrigger) s = .next t ∧ t.dev.on Reg.CAP_TRIG_TENABLE = false ∧ ∀ m : Fin 8, s.dev.on (Reg.RX_CAP_STAT_ARMED m) = true →
        if s.dev.on (Reg.RX_CAP_STAT_BUSY m) = true then t.dev.on (Reg.RX_CAP_STAT_ARMED m) = true ∧ t.dev.on (Reg.RX_CAP_STAT_MISSED m) = true
        else t.dev.on (Reg.RX_CAP_STAT_ARMED m) = false ∧ (s.dev.on (Reg.RX_CAP_CTRL_MODE m) = false → s.dev.shedActive 1 = false → s.dev.rd Reg.CAP_BUF_SIZE_GB ≠ 0 →
          (t.dev.cpe m).run = some ⟨false, s.dev.rd (Reg.RX_CAP_CTRL_DECIM m), 1024 * s.dev.rd (Reg.RX_CAP_CTRL_LENGTH_KI m), (s.dev.capSec * 1000000000 + s.dev.rd Reg.CAP_TRIG_TIME_LO_NS) * 65536, 2, false, 0, 0⟩)) ∧
  (∀ (v : Word) (s : State), s.Inv →
      s.dev.pageLive (capPage) = true →
      s.dev.pageInTest (capPage) = false →
      v.getLsbD 2 = false →
      ∃ t, exec (.capTenableWrite v) s = .next t ∧ t.dev.on Reg.CAP_TRIG_TENABLE = decide (((s.dev.capSoon : Nat) : Int) ≤ (extendSeconds (s.dev.time / 65536 / 1000000000) (s.dev.rd Reg.CAP_TRIG_TIME_HI_SEC) * 1000000000 + s.dev.rd Reg.CAP_TRIG_TIME_LO_NS) * 65536)) ∧
  (∀ (n : Fin 8) (v : Word) (s : State), s.Inv →
      s.dev.pageLive (linePage n 0x0E) = true →
      s.dev.pageInTest (linePage n 0x0E) = false →
      v.getLsbD 1 = false →
      ∃ t, exec (.capArm n v) s = .next t ∧ t.dev.on (Reg.RX_CAP_STAT_ARMED n) = true) ∧
  (∀ (n : Fin 8) (v : Word) (s : State), s.Inv →
      s.dev.pageLive (linePage n 0x0E) = true →
      s.dev.pageInTest (linePage n 0x0E) = false →
      ∃ t, exec (.capDisarm n v) s = .next t ∧ t.dev.on (Reg.RX_CAP_STAT_ARMED n) = false ∧ t.dev.on (Reg.RX_CAP_STAT_MISSED n) = false ∧ (t.dev.cpe n).run = none ∧ (t.dev.cpe n).drains = []) ∧
  (∀ (n : Fin 8) (late : Nat) (r : CapRun) (s : State), s.Inv →
      (s.dev.cpe n).run = some r →
      r.started = false →
      r.decimated = false →
      s.dev.on (Reg.RX_SAMP_STAT_PLL_LOCK n) = true →
      late * s.dev.rd (Reg.RX_SAMP_STAT_FS_MSPS n) < 65536000 →
      ∃ t, exec (.capStart n late) s = .next t ∧ (t.dev.cpe n).run = some { r with started := true, first := r.startAt + late }) ∧
  (∀ (n : Fin 8) (samples : List Byte) (o : Found) (r : CapRun) (s : State), s.Inv →
      (s.dev.cpe n).run = some r →
      r.started = true →
      r.decimated = false →
      samples.length = 4 * r.length →
      ∃ t, exec (.capSnapshotComplete n samples o) s = .next t ∧ (t.dev.cpe n).run = none) ∧
  (∀ (n : Fin 8) (samples : List Byte) (o : Found) (next : Nat) (r : CapRun) (s : State), s.Inv →
      (s.dev.cpe n).run = some r →
      r.started = true →
      r.decimated = true →
      samples.length = 4 * r.length →
      ∃ t, exec (.capDecimRecordEnd n samples o next) s = .next t ∧ (t.dev.cpe n).drains.length = (s.dev.cpe n).drains.length + 1 ∧ (t.dev.cpe n).drains.dropLast = (s.dev.cpe n).drains) ∧
  (∀ (n : Fin 8) (poisoned : Bool) (r : CapRec) (rest : List CapRec) (s : State), s.Inv →
      (s.dev.cpe n).drains = r :: rest →
      ∃ t, exec (.capDrainComplete n poisoned) s = .next t ∧ (t.dev.cpe n).drains = rest)
end

