-- ==== Sys2Proof/Laws/Bits.lean ====
section
/-!
SUPPORT. The laws of bit fields: what a field reads after it, or a field apart from it, has been set.
-/
namespace Sys2Proof.Machine

theorem testBit_getBits (w : Word) (l k i : Nat) :
    (getBits w l k).testBit i = (decide (i < k) && w.getLsbD (l + i)) := by
  simp [getBits, Nat.testBit_mod_two_pow, Nat.testBit_shiftRight, BitVec.getLsbD]

theorem getLsbD_bitMask (l k i : Nat) (h : i < 32) :
    (bitMask l k).getLsbD i = (decide (l ≤ i) && decide (i - l < k)) := by
  rw [bitMask, BitVec.getLsbD_ofNat, Nat.testBit_shiftLeft, Nat.testBit_two_pow_sub_one]
  simp [h]

theorem getLsbD_setBits (w : Word) (l k v i : Nat) :
    (setBits w l k v).getLsbD i =
      (decide (i < 32) && if l ≤ i ∧ i - l < k then v.testBit (i - l) else w.getLsbD i) := by
  by_cases h : i < 32
  · simp only [setBits, BitVec.getLsbD_or, BitVec.getLsbD_and, BitVec.getLsbD_not, getLsbD_bitMask _ _ _ h, BitVec.getLsbD_ofNat, h,
      decide_true, Bool.true_and, Nat.testBit_shiftLeft, Nat.testBit_mod_two_pow]
    by_cases h1 : l ≤ i <;> by_cases h2 : i - l < k <;> simp [h1, h2]
  · rw [BitVec.getLsbD_of_ge _ _ (by omega)]
    simp [h]

/-- A field reads the value it was set to. -/
theorem getBits_setBits_same (w : Word) (l k v : Nat) (h : l + k ≤ 32) :
    getBits (setBits w l k v) l k = v % 2 ^ k := by
  apply Nat.eq_of_testBit_eq
  intro i
  rw [testBit_getBits, getLsbD_setBits, Nat.testBit_mod_two_pow]
  by_cases hi : i < k
  · have : l + i < 32 := by omega
    simp [hi, this]
  · simp [hi]

/-- A field apart from one that is set reads as before. -/
theorem getBits_setBits_disjoint (w : Word) (l k v l' k' : Nat) (h : l' + k' ≤ l ∨ l + k ≤ l') :
    getBits (setBits w l k v) l' k' = getBits w l' k' := by
  apply Nat.eq_of_testBit_eq
  intro i
  rw [testBit_getBits, testBit_getBits, getLsbD_setBits]
  by_cases hi : i < k'
  · have : ¬ (l ≤ l' + i ∧ l' + i - l < k) := by omega
    simp only [hi, this, if_false, decide_true, Bool.true_and]
    by_cases h32 : l' + i < 32
    · simp [h32]
    · rw [BitVec.getLsbD_of_ge w _ (by omega)]
      simp [h32]
  · simp [hi]

@[simp] theorem ofBool_true : ofBool true = 1 := rfl
@[simp] theorem ofBool_false : ofBool false = 0 := rfl

theorem getBits_lt (w : Word) (l k : Nat) : getBits w l k < 2 ^ k :=
  Nat.mod_lt _ (Nat.two_pow_pos k)

end Sys2Proof.Machine
end

