-- ==== Sys2Proof/Laws/Sparse.lean ====
section
/-!
SUPPORT. The laws of sparse arrays: a read after a write, and that every write keeps the canonical form.
-/
namespace Sys2Proof.Machine

variable {α : Type} {d : Nat → α}

theorem sget_sins (l : List (Nat × α)) (k j : Nat) (v : α) (h : ∀ e ∈ l, e.1 ≠ k) :
    sget d (sins k v l) j = if j = k then v else sget d l j := by
  induction l with
  | nil =>
    by_cases hj : j = k
    · simp [sins, sget, hj]
    · simp [sins, sget, hj, Ne.symm hj]
  | cons e r ih =>
    obtain ⟨a, w⟩ := e
    have ha : a ≠ k := h (a, w) (by simp)
    have ih' := ih fun e he => h e (by simp [he])
    simp only [sins]
    split
    · by_cases hj : j = k
      · simp [sget, hj]
      · simp [sget, hj, Ne.symm hj]
    · by_cases hj : j = k
      · subst hj; simp [sget, ih', ha]
      · simp [sget, ih', hj]

theorem sget_sdel (l : List (Nat × α)) (k j : Nat) :
    sget d (sdel k l) j = if j = k then d k else sget d l j := by
  induction l with
  | nil => simp only [sdel, List.filter_nil, sget]; split <;> simp_all
  | cons e r ih =>
    obtain ⟨a, w⟩ := e
    by_cases ha : a = k
    · have hc : sdel k ((a, w) :: r) = sdel k r := by simp [sdel, ha]
      rw [hc, ih]
      by_cases hj : j = k
      · simp [hj]
      · have hak : ¬ a = j := by omega
        simp [sget, hj, hak]
    · have hc : sdel k ((a, w) :: r) = (a, w) :: sdel k r := by simp [sdel, ha]
      rw [hc, sget, ih]
      by_cases hj : j = k
      · simp [hj, ha]
      · simp [sget, hj]

theorem sdel_ne (l : List (Nat × α)) (k : Nat) : ∀ e ∈ sdel k l, e.1 ≠ k := by
  intro e he
  simpa using (List.mem_filter.mp he).2

/-- A read after a write: the value at its key, and every other key as before. -/
theorem sget_sset [DecidableEq α] (l : List (Nat × α)) (k j : Nat) (v : α) :
    sget d (sset d l k v) j = if j = k then v else sget d l j := by
  unfold sset
  split
  · rename_i h; rw [sget_sdel]; split <;> simp_all
  · rw [sget_sins _ _ _ _ (sdel_ne l k), sget_sdel]; split <;> simp_all

@[simp] theorem sget_sset_same [DecidableEq α] (l : List (Nat × α)) (k : Nat) (v : α) :
    sget d (sset d l k v) k = v := by
  simp [sget_sset]

theorem sget_sset_ne [DecidableEq α] (l : List (Nat × α)) {k j : Nat} (v : α) (h : j ≠ k) :
    sget d (sset d l k v) j = sget d l j := by
  simp [sget_sset, h]

theorem swf_filter [DecidableEq α] (p : Nat × α → Bool) (l : List (Nat × α)) (h : swf d l = true) :
    swf d (l.filter p) = true := by
  induction l with
  | nil => rfl
  | cons e r ih =>
    obtain ⟨a, w⟩ := e
    simp only [swf, Bool.and_eq_true, decide_eq_true_eq, List.all_eq_true] at h
    simp only [List.filter_cons]
    split
    · simp only [swf, Bool.and_eq_true, decide_eq_true_eq, List.all_eq_true]
      exact ⟨⟨h.1.1, fun e he => h.1.2 e (List.mem_filter.mp he).1⟩, ih h.2⟩
    · exact ih h.2

theorem mem_sins {k : Nat} {v : α} (l : List (Nat × α)) {e : Nat × α} (h : e ∈ sins k v l) : e = (k, v) ∨ e ∈ l := by
  induction l with
  | nil => simpa [sins] using h
  | cons x r ih =>
    obtain ⟨a, w⟩ := x
    simp only [sins] at h
    split at h
    · simpa using h
    · rcases List.mem_cons.mp h with h | h
      · simp [h]
      · rcases ih h with h | h <;> simp [h]

theorem swf_sins [DecidableEq α] (l : List (Nat × α)) (k : Nat) (v : α) (hv : v ≠ d k) (hk : ∀ e ∈ l, e.1 ≠ k)
    (h : swf d l = true) : swf d (sins k v l) = true := by
  induction l with
  | nil => simp [sins, swf, hv]
  | cons x r ih =>
    obtain ⟨a, w⟩ := x
    simp only [swf, Bool.and_eq_true, decide_eq_true_eq, List.all_eq_true] at h
    have ha : a ≠ k := hk (a, w) (by simp)
    simp only [sins]
    split
    · rename_i hlt
      simp only [swf, Bool.and_eq_true, decide_eq_true_eq, List.all_eq_true]
      refine ⟨⟨hv, fun e he => ?_⟩, ⟨h.1.1, h.1.2⟩, h.2⟩
      rcases List.mem_cons.mp he with rfl | he
      · exact hlt
      · exact Nat.lt_trans hlt (h.1.2 e he)
    · rename_i hlt
      simp only [swf, Bool.and_eq_true, decide_eq_true_eq, List.all_eq_true]
      refine ⟨⟨h.1.1, fun e he => ?_⟩, ih (fun e he => hk e (by simp [he])) h.2⟩
      rcases mem_sins r he with rfl | he
      · simp only; omega
      · exact h.1.2 e he

/-- A write keeps the canonical form. -/
theorem swf_sset [DecidableEq α] (l : List (Nat × α)) (k : Nat) (v : α) (h : swf d l = true) :
    swf d (sset d l k v) = true := by
  unfold sset
  split
  · exact swf_filter _ l h
  · rename_i hv
    exact swf_sins _ k v hv (sdel_ne l k) (swf_filter _ l h)

end Sys2Proof.Machine
end

