-- ==== Sys2Proof/Laws/Ops.lean ====
section
/-!
SUPPORT. The laws of the shared operations: register words and fields after a write, and what raising an event or counting an access
can change.
-/
namespace Sys2Proof.Machine

/-! ## Words and fields -/

theorem word_setWord (s : Dev) (c j : Nat) (w : Word) :
    (s.setWord c w).word j = if j = c then w else s.word j := by
  simp [Dev.word, Dev.setWord, sget_sset]

@[simp] theorem word_setWord_same (s : Dev) (c : Nat) (w : Word) : (s.setWord c w).word c = w := by
  simp [word_setWord]

theorem word_setWord_ne (s : Dev) {c j : Nat} (w : Word) (h : j ≠ c) : (s.setWord c w).word j = s.word j := by
  simp [word_setWord, h]

theorem word_wr (s : Dev) (f : Field) (v j : Nat) :
    (s.wr f v).word j = if j = f.cell then setBits (s.word f.cell) f.lsb f.width v else s.word j := by
  simp [Dev.wr, word_setWord]

theorem word_wr_ne (s : Dev) (f : Field) (v : Nat) {j : Nat} (h : j ≠ f.cell) : (s.wr f v).word j = s.word j := by
  simp [word_wr, h]

/-- A field reads what was written to it. -/
theorem rd_wr_same (s : Dev) (f : Field) (v : Nat) (h : f.lsb + f.width ≤ 32) : (s.wr f v).rd f = v % 2 ^ f.width := by
  simp [Dev.rd, word_wr, getBits_setBits_same _ _ _ _ h]

/-- A field in another word reads as before. -/
theorem rd_wr_ne (s : Dev) (f g : Field) (v : Nat) (h : g.cell ≠ f.cell) : (s.wr f v).rd g = s.rd g := by
  simp [Dev.rd, word_wr, h]

/-- A field beside the one written reads as before, in the same word too. -/
theorem rd_wr_disjoint (s : Dev) (f g : Field) (v : Nat)
    (h : g.cell ≠ f.cell ∨ g.lsb + g.width ≤ f.lsb ∨ f.lsb + f.width ≤ g.lsb) : (s.wr f v).rd g = s.rd g := by
  by_cases hc : g.cell = f.cell
  · have hd : g.lsb + g.width ≤ f.lsb ∨ f.lsb + f.width ≤ g.lsb := by
      rcases h with h | h
      · exact absurd hc h
      · exact h
    simp only [Dev.rd, word_wr, hc, if_true]
    exact getBits_setBits_disjoint _ _ _ _ _ _ hd
  · exact rd_wr_ne s f g v hc

theorem rd_lt (s : Dev) (f : Field) : s.rd f < 2 ^ f.width :=
  getBits_lt _ _ _

/-! ## The parts of the device beside the registers -/

@[simp] theorem others_others (s : Dev) : s.others.others = s.others := rfl
@[simp] theorem others_setWord (s : Dev) (c : Nat) (w : Word) : (s.setWord c w).others = s.others := rfl
@[simp] theorem others_wr (s : Dev) (f : Field) (v : Nat) : (s.wr f v).others = s.others := rfl
@[simp] theorem others_wrS (s : Dev) (f : Field) (v : Int) : (s.wrS f v).others = s.others := rfl
@[simp] theorem others_wrB (s : Dev) (f : Field) (b : Bool) : (s.wrB f b).others = s.others := rfl
@[simp] theorem others_bumpBy (s : Dev) (f : Field) (a : Nat) : (s.bumpBy f a).others = s.others := rfl
@[simp] theorem others_bump (s : Dev) (f : Field) : (s.bump f).others = s.others := rfl
@[simp] theorem others_wr64 (s : Dev) (f : Field) (v : Nat) : (s.wr64 f v).others = s.others := rfl
@[simp] theorem others_bump64 (s : Dev) (f : Field) (v : Nat) : (s.bump64 f v).others = s.others := rfl
@[simp] theorem others_latchEvent (s : Dev) (g b : Nat) : (s.latchEvent g b).others = s.others := rfl

/-! ## Events: what a group holds after one is raised -/

/-- A message of the MSI-X table leaves the groups. -/
@[simp] theorem groups_message (e : EvState) (k : Nat) : (e.message k).groups = e.groups := by
  simp only [EvState.message]
  split <;> (try split) <;> rfl

/-- A vector's message leaves the groups. -/
@[simp] theorem groups_send (e : EvState) (h : Nat → Nat) (v : Nat) : (e.send h v).groups = e.groups := by
  simp only [EvState.send]
  split <;> simp

@[simp] theorem group_send (e : EvState) (h : Nat → Nat) (v g : Nat) : (e.send h v).group g = e.group g := by
  simp [EvState.group]

@[simp] theorem setup_message (e : EvState) (k : Nat) : (e.message k).msix.setup = e.msix.setup := by
  simp only [EvState.message]
  split <;> (try split) <;> rfl

@[simp] theorem setup_send (e : EvState) (h : Nat → Nat) (v : Nat) : (e.send h v).msix.setup = e.msix.setup := by
  simp only [EvState.send]
  split
  · rfl
  · exact setup_message _ _

/-- Setting a group sends messages at most: the MSI-X table stays. -/
@[simp] theorem setup_setGroup (e : EvState) (h : Nat → Nat) (g : Nat) (x : EvGroup) : (e.setGroup h g x).msix.setup = e.msix.setup := by
  simp only [EvState.setGroup]
  split <;> split <;> (try split) <;> first | exact setup_send _ _ _ | rfl

/-- A group that is set holds its new registers, and every other group its old ones. -/
theorem group_setGroup (e : EvState) (h : Nat → Nat) (g j : Nat) (x : EvGroup) :
    (e.setGroup h g x).group j = if j = g then x else e.group j := by
  have hs : (EvState.group { e with groups := sset (dflt EvGroup.reset) e.groups g x } j) = if j = g then x else e.group j := by
    simp [EvState.group, sget_sset]
  rw [← hs]
  simp only [EvState.setGroup]
  split <;> split <;> (try split) <;> simp [EvState.group]

theorem group_latchEvent (s : Dev) (g b j : Nat) :
    (s.latchEvent g b).ev.group j =
      if j = g then { s.ev.group g with latch := (s.ev.group g).latch ||| (1 <<< b) } else s.ev.group j := by
  simp [Dev.latchEvent, group_setGroup]

/-! ## Kinship

Raising an event or counting an access reaches only OVF cells, event groups and counters: the register words, the other parts and the listed
table entries stay. `Kin` is what such operations keep, and what every other operation carries over from one device to the other. -/

/-- The listed table entries. -/
abbrev Dev.tables (d : Dev) : List (Nat × Word) :=
  d.regs.filter fun e => decide (0x1000000 ≤ e.1)

theorem tables_sdel (l : List (Nat × Word)) (k : Nat) :
    (sdel k l).filter (fun e => decide (0x1000000 ≤ e.1)) = sdel k (l.filter fun e => decide (0x1000000 ≤ e.1)) := by
  simp only [sdel, List.filter_filter]
  congr 1
  funext e
  exact Bool.and_comm _ _

theorem tables_sins_low (l : List (Nat × Word)) {k : Nat} (v : Word) (h : k < 0x1000000) :
    (sins k v l).filter (fun e => decide (0x1000000 ≤ e.1)) = l.filter fun e => decide (0x1000000 ≤ e.1) := by
  have hk : ¬ 0x1000000 ≤ k := by omega
  induction l with
  | nil => simp [sins, hk]
  | cons e r ih =>
    obtain ⟨a, w⟩ := e
    simp only [sins]
    split
    · simp [hk]
    · simp only [List.filter_cons, ih]

theorem tables_sins_high (l : List (Nat × Word)) {k : Nat} (v : Word) (h : 0x1000000 ≤ k) :
    (sins k v l).filter (fun e => decide (0x1000000 ≤ e.1)) = sins k v (l.filter fun e => decide (0x1000000 ≤ e.1)) := by
  induction l with
  | nil => simp [sins, h]
  | cons e r ih =>
    obtain ⟨a, w⟩ := e
    by_cases ha : 0x1000000 ≤ a
    · by_cases hk : k < a
      · simp [sins, hk, ha, h]
      · simp [sins, hk, ha, ih]
    · have hk : ¬ k < a := by omega
      simp [sins, hk, ha, ih]

theorem tables_sdel_low (l : List (Nat × Word)) {k : Nat} (h : k < 0x1000000) :
    (sdel k l).filter (fun e => decide (0x1000000 ≤ e.1)) = l.filter fun e => decide (0x1000000 ≤ e.1) := by
  rw [tables_sdel]
  refine List.filter_eq_self.mpr fun e he => ?_
  have := (List.mem_filter.mp he).2
  simp only [decide_eq_true_eq] at this ⊢
  omega

/-- A register word that is set leaves the listed table entries. -/
theorem tables_setWord_low (s : Dev) {c : Nat} (w : Word) (h : c < 0x1000000) : (s.setWord c w).tables = s.tables := by
  unfold Dev.tables Dev.setWord sset
  dsimp only
  split
  · exact tables_sdel_low _ h
  · rw [tables_sins_low _ _ h, tables_sdel_low _ h]

/-- The same word set in devices that list the same table entries. -/
theorem tables_setWord {d e : Dev} (h : e.tables = d.tables) (c : Nat) (w : Word) : (e.setWord c w).tables = (d.setWord c w).tables := by
  by_cases hc : c < 0x1000000
  · rw [tables_setWord_low _ _ hc, tables_setWord_low _ _ hc, h]
  · have hc : 0x1000000 ≤ c := by omega
    unfold Dev.tables Dev.setWord sset at *
    dsimp only
    split
    · rw [tables_sdel, tables_sdel, h]
    · rw [tables_sins_high _ _ hc, tables_sins_high _ _ hc, tables_sdel, tables_sdel, h]

/-- `e` is like `d`, and lists the same table entries. -/
structure Dev.Kin (evs : List (Nat × Nat)) (d e : Dev) : Prop extends Dev.Like evs d e where
  /-- the listed table entries -/
  tables : e.tables = d.tables

/-- The listed entries of a table are those of a kin device. -/
theorem Dev.Kin.listed {a : List (Nat × Nat)} {d e : Dev} (h : Dev.Kin a d e) (t : TableSpec) : e.listed t = d.listed t := by
  have key (x : Dev) : x.listed t = x.tables.filterMap fun e =>
      if tableCell t.id 0 0 ≤ e.1 ∧ e.1 < tableCell t.id 0x40000 0 ∧ e.1 % 64 = 0 then some ((e.1 - tableCell t.id 0 0) / 64) else none := by
    rw [Dev.listed, Dev.tables, List.filterMap_filter]
    congr 1
    funext e
    by_cases he : 0x1000000 ≤ e.1
    · simp [he]
    · have : ¬ tableCell t.id 0 0 ≤ e.1 := by
        simp only [tableCell]
        omega
      rw [if_neg fun c => this c.1]
      simp [he]
  rw [key, key, h.tables]

theorem Dev.Kin.refl (d : Dev) : Dev.Kin [] d d :=
  ⟨⟨fun _ _ => rfl, rfl, fun _ _ _ _ => by simp, fun _ => rfl, fun _ => rfl, rfl⟩, rfl⟩

theorem sourceOn_others {d e : Dev} (h : e.others = d.others) (g : Nat) : e.sourceOn g = d.sourceOn g := by
  have : e.others.variant = d.others.variant := by rw [h]
  have : e.variant = d.variant := this
  simp [Dev.sourceOn, this]

theorem Dev.Kin.trans {a b : List (Nat × Nat)} {d e f : Dev} (h : Dev.Kin a d e) (k : Dev.Kin b e f) : Dev.Kin (a ++ b) d f where
  words c hc := (k.words c hc).trans (h.words c hc)
  rest := k.rest.trans h.rest
  tables := k.tables.trans h.tables
  events :=
    { latch := fun g b hb hn => by
        rw [k.events.latch g b hb hn, h.events.latch g b hb hn, sourceOn_others h.rest]
        simp only [List.contains_eq_any_beq, List.any_append]
        cases d.sourceOn g <;> simp [Bool.or_assoc]
      en := fun g => (k.events.en g).trans (h.events.en g)
      route := fun g => (k.events.route g).trans (h.events.route g)
      msix := k.events.msix.trans h.events.msix }

/-- What a likeness with no events needs: words, the other parts, and the event groups. -/
theorem Dev.Kin.of_groups {d e : Dev} (hw : ∀ c, ¬ overflowCell c → e.word c = d.word c) (ho : e.others = d.others)
    (hg : ∀ g, e.ev.group g = d.ev.group g) (ht : e.tables = d.tables)
    (hm : e.ev.msix.setup = d.ev.msix.setup := by rfl) : Dev.Kin [] d e :=
  ⟨⟨hw, ho, fun g b _ _ => by simp [Dev.latched, hg], fun g => by simp [hg], fun g => by simp [hg], hm⟩, ht⟩

/-- A write of an OVF bit. -/
theorem Dev.Kin.wr_overflow (d : Dev) {f : Field} (v : Nat) (h : overflowCell f.cell) : Dev.Kin [] d (d.wr f v) :=
  Dev.Kin.of_groups (fun _ hc => word_wr_ne _ _ _ fun e => hc (e ▸ h)) rfl (fun _ => rfl)
    (tables_setWord_low d _ (by simp only [overflowCell, regCell] at h; omega))

/-- A counter's value changed. -/
theorem Dev.Kin.perf (d : Dev) (p : PerfState) : Dev.Kin [] d { d with perf := p } :=
  Dev.Kin.of_groups (fun _ _ => rfl) rfl (fun _ => rfl) rfl

/-- A latch bit of a source set. -/
theorem Dev.Kin.latch (d : Dev) (g b : Nat) (hs : d.sourceOn g = true) : Dev.Kin [(g, b)] d (d.latchEvent g b) := by
  have hgrp (g' : Nat) : ((d.latchEvent g b).ev.group g').en = (d.ev.group g').en ∧
      ((d.latchEvent g b).ev.group g').route = (d.ev.group g').route := by
    rw [group_latchEvent]
    split
    · rename_i h; subst h; exact ⟨rfl, rfl⟩
    · exact ⟨rfl, rfl⟩
  refine ⟨⟨fun _ _ => rfl, rfl, fun g' b' hb _ => ?_, fun g' => (hgrp g').1, fun g' => (hgrp g').2, by simp [Dev.latchEvent]⟩, rfl⟩
  have hbits : (1#32 <<< b).getLsbD b' = decide (b' = b) := by
    simp only [BitVec.getLsbD_shiftLeft, BitVec.getLsbD_one]
    by_cases h : b' = b
    · subst h; simp [hb]
    · by_cases h' : b' < b
      · simp [h', h]
      · simp [h', h, hb]; omega
  by_cases hg : g' = g
  · subst hg
    have hor : (d.latchEvent g' b).latched g' b' = (d.latched g' b' || decide (b' = b)) := by
      rw [← hbits]
      simp only [Dev.latched, group_latchEvent, if_true]
      exact BitVec.getLsbD_or
    rw [hor, hs]
    by_cases hb' : b' = b <;> simp [hb']
  · simp [Dev.latched, group_latchEvent, hg]

/-- E-29.00 alone raised counts as no event: any wrap may raise it. -/
theorem Dev.Kin.latch_wrap (d : Dev) : Dev.Kin [] d (d.latchEvent 29 0) := by
  have h := Dev.Kin.latch d 29 0 (by unfold Dev.sourceOn; split <;> rfl)
  refine ⟨⟨h.words, h.rest, fun g b hb hn => ?_, h.events.en, h.events.route, h.events.msix⟩, h.tables⟩
  rw [h.events.latch g b hb hn]
  have : ¬ (g = 29 ∧ b = 0) := fun e => hn (by rw [e.1, e.2])
  simp [this]

/-- The capture controller's trigger kept. -/
theorem Dev.Kin.captureEdge (d : Dev) (g b : Nat) : Dev.Kin [] d (d.captureEdge g b) := by
  unfold Dev.captureEdge
  split
  · exact Dev.Kin.of_groups (fun _ _ => rfl) rfl (fun _ => rfl) rfl
  · exact Dev.Kin.refl d

theorem Dev.Kin.trans_nil {a : List (Nat × Nat)} {d e f : Dev} (h : Dev.Kin [] d e) (k : Dev.Kin a e f) : Dev.Kin a d f := by
  simpa using Dev.Kin.trans h k

theorem Dev.Kin.trans_nil' {a : List (Nat × Nat)} {d e f : Dev} (h : Dev.Kin a d e) (k : Dev.Kin [] e f) : Dev.Kin a d f := by
  simpa using Dev.Kin.trans h k

/-! ## Performance counters (R465) -/

theorem overflowCell_of_counter {i : Nat} (h : i < 8192) : overflowCell (Reg.OVF_OVF (i / 32)).cell := by
  simp only [overflowCell]
  omega

theorem Dev.Kin.addCounter (d : Dev) {i : Nat} (a : Nat) (h : i < 8192) : Dev.Kin [] d (d.addCounter i a).1 := by
  have hput (d : Dev) (i v : Nat) : Dev.Kin [] d { d with perf := { d.perf with values := sset (dflt 0) d.perf.values i v } } :=
    Dev.Kin.perf d _
  have hset (d : Dev) {i : Nat} (h : i < 8192) : Dev.Kin [] d (d.wr ⟨(Reg.OVF_OVF (i / 32)).cell, i % 32, 1⟩ 1) :=
    Dev.Kin.wr_overflow d 1 (overflowCell_of_counter h)
  simp only [Dev.addCounter]
  split
  · exact hput _ _ _
  · split
    · rename_i hc
      have hi : i + 1 < 8192 := by
        simp only [Bool.and_eq_true, decide_eq_true_eq] at hc
        omega
      split
      · exact (hput _ _ _).trans_nil (hput _ _ _)
      · exact ((hput _ _ _).trans_nil (hput _ _ _)).trans_nil (hset _ hi)
    · exact (hput _ _ _).trans_nil (hset _ h)

theorem counters_lt (d : Dev) {i : Nat} (h : i ∈ d.counters) : i < 8192 := by
  simp only [Dev.counters, List.mem_filterMap] at h
  obtain ⟨e, _, he⟩ := h
  split at he
  · rename_i hc
    simp only [Option.some.injEq] at he
    simp only [tableCell] at hc he
    omega
  · simp at he

theorem Dev.Kin.countWith (d : Dev) (amount : Nat → Option Nat) : Dev.Kin [] d (d.countWith amount).1 := by
  have hfold : ∀ (l : List Nat), (∀ i ∈ l, i < 8192) → ∀ (p : Dev × Bool), Dev.Kin [] d p.1 →
      Dev.Kin [] d (l.foldl (fun p i =>
        if p.1.chainedInto i then p
        else match amount i with
          | none => p
          | some a => let q := p.1.addCounter i a; (q.1, p.2 || q.2)) p).1 := by
    intro l
    induction l with
    | nil => exact fun _ p hp => hp
    | cons i l ih =>
      intro hl p hp
      refine ih (fun j hj => hl j (by simp [hj])) _ ?_
      dsimp only
      split
      · exact hp
      · split
        · exact hp
        · exact hp.trans_nil (Dev.Kin.addCounter _ _ (hl i (by simp)))
  unfold Dev.countWith
  split
  · exact Dev.Kin.refl d
  · exact hfold _ (fun i hi => counters_lt d hi) _ (Dev.Kin.refl d)

theorem Dev.Kin.countEvent (d : Dev) (src : Nat) : Dev.Kin [] d (d.countEvent src).1 :=
  Dev.Kin.countWith d _

theorem Dev.Kin.raiseWrap (d : Dev) : Dev.Kin [] d d.raiseWrap :=
  ((Dev.Kin.latch_wrap d).trans_nil (Dev.Kin.captureEdge _ _ _)).trans_nil (Dev.Kin.countEvent _ _)

/-! ## Raising an event, and counting an access -/

theorem evs_off {g b : Nat} {d e : Dev} (hs : d.sourceOn g = false) (h : Dev.Kin [] d e) : Dev.Kin [(g, b)] d e := by
  refine ⟨⟨h.words, h.rest, fun g' b' hb hn => ?_, h.events.en, h.events.route, h.events.msix⟩, h.tables⟩
  rw [h.events.latch g' b' hb hn]
  by_cases hg : g' = g
  · subst hg; simp [hs]
  · simp [hg]

/-- Raising a source sets its latch bit where the part has the source, and changes nothing else but counters. -/
theorem Dev.Kin.raise (d : Dev) (g b : Nat) : Dev.Kin [(g, b)] d (d.raise g b) := by
  simp only [Dev.raise]
  split
  · rename_i hs
    have h := ((Dev.Kin.latch d g b hs).trans_nil' (Dev.Kin.captureEdge _ g b)).trans_nil' (Dev.Kin.countEvent _ (32 * g + b))
    split
    · exact h.trans_nil' (Dev.Kin.raiseWrap _)
    · exact h
  · rename_i hs
    exact evs_off (by simpa using hs) (Dev.Kin.refl d)

theorem Dev.Kin.raiseIf (d : Dev) (c : Bool) (g b : Nat) : Dev.Kin (if c then [(g, b)] else []) d (d.raiseIf c g b) := by
  cases c
  · exact Dev.Kin.refl d
  · exact Dev.Kin.raise d g b

theorem Dev.Kin.countAccess (d : Dev) (space op priv master addr bytes : Nat) :
    Dev.Kin [] d (d.countAccess space op priv master addr bytes) := by
  simp only [Dev.countAccess]
  split
  · exact (Dev.Kin.countWith _ _).trans_nil (Dev.Kin.raiseWrap _)
  · exact Dev.Kin.countWith _ _

theorem Dev.Kin.access (d : Dev) (op page off : Nat) : Dev.Kin [] d (d.access op page off) := by
  unfold Dev.access
  split
  · exact Dev.Kin.refl d
  · split
    · exact Dev.Kin.refl d
    · exact Dev.Kin.countAccess _ _ _ _ _ _ _

theorem Dev.Kin.endAccess (d : Dev) (page off : Nat) : Dev.Kin [] d (d.endAccess page off) := by
  unfold Dev.endAccess
  split
  · exact Dev.Kin.access _ _ _ _
  · exact Dev.Kin.refl d

/-! ## What is read of a like device -/

theorem Dev.Like.word {a : List (Nat × Nat)} {d e : Dev} (h : Dev.Like a d e) {c : Nat} (hc : ¬ overflowCell c) : e.word c = d.word c :=
  h.words c hc

theorem Dev.Like.rd {a : List (Nat × Nat)} {d e : Dev} (h : Dev.Like a d e) {f : Field} (hc : ¬ overflowCell f.cell) : e.rd f = d.rd f := by
  simp [Dev.rd, h.words _ hc]

theorem Dev.Like.on {a : List (Nat × Nat)} {d e : Dev} (h : Dev.Like a d e) {f : Field} (hc : ¬ overflowCell f.cell) : e.on f = d.on f := by
  simp [Dev.on, h.rd hc]

/-- A part of the device beside registers, events and counters is the same in a like device. -/
theorem Dev.Like.part {α : Type} {a : List (Nat × Nat)} {d e : Dev} (h : Dev.Like a d e) (p : Dev → α) (hp : ∀ x : Dev, p x.others = p x) :
    p e = p d := by
  rw [← hp e, h.rest, hp d]

/-- A word set on both sides. -/
theorem Dev.Kin.setWord {a : List (Nat × Nat)} {d e : Dev} (h : Dev.Kin a d e) (c : Nat) (w : Word) :
    Dev.Kin a (d.setWord c w) (e.setWord c w) where
  words j hj := by rw [word_setWord, word_setWord, h.words j hj]
  rest := h.rest
  events := ⟨h.events.latch, h.events.en, h.events.route, h.events.msix⟩
  tables := tables_setWord h.tables c w

/-- A field written on both sides. -/
theorem Dev.Kin.wr {a : List (Nat × Nat)} {d e : Dev} (h : Dev.Kin a d e) {f : Field} (v : Nat) (hc : ¬ overflowCell f.cell) :
    Dev.Kin a (d.wr f v) (e.wr f v) := by
  unfold Dev.wr
  rw [h.words _ hc]
  exact h.setWord _ _

/-- A part beside registers and events changed alike on both sides. -/
theorem Dev.Kin.map {a : List (Nat × Nat)} {d e : Dev} (h : Dev.Kin a d e) (u : Dev → Dev) (hr : ∀ x, (u x).regs = x.regs)
    (he : ∀ x, (u x).ev = x.ev) (hv : ∀ x, (u x).variant = x.variant) (ho : ∀ x, (u x).others = (u x.others).others) :
    Dev.Kin a (u d) (u e) where
  words j hj := by
    have := h.words j hj
    simpa [Dev.word, hr] using this
  rest := by rw [ho e, ho d, h.rest]
  tables := by
    have := h.tables
    simpa [Dev.tables, hr] using this
  events :=
    { latch := fun g b hb hn => by
        have := h.events.latch g b hb hn
        simpa [Dev.latched, he, Dev.sourceOn, hv] using this
      en := fun g => by simpa [he] using h.events.en g
      route := fun g => by simpa [he] using h.events.route g
      msix := by simpa [he] using h.events.msix }

/-! ## Pages in a like device -/

theorem pwr_cell : ¬ overflowCell Reg.PWR_STAT_STATE.cell := by
  simp only [overflowCell, regCell]
  omega

theorem Dev.Like.pageLive {a : List (Nat × Nat)} {d e : Dev} (h : Dev.Like a d e) (page : Nat) : e.pageLive page = d.pageLive page := by
  have hp : e.pwr = d.pwr := h.rd pwr_cell
  have hx : e.power = d.power := h.part (fun x => x.power) fun _ => rfl
  have hv : e.variant = d.variant := h.part (fun x => x.variant) fun _ => rfl
  have hg : e.hostGone = d.hostGone := h.part (fun x => x.hostGone) fun _ => rfl
  simp [Dev.pageLive, hg, Dev.pageEnabled, Dev.pagePowered, Dev.hubOn, Dev.lineOn, Dev.laneOn, hp, hx, hv]

theorem Dev.Like.pageInTest {a : List (Nat × Nat)} {d e : Dev} (h : Dev.Like a d e) (page : Nat) : e.pageInTest page = d.pageInTest page := by
  have hb : e.bist = d.bist := h.part (fun x => x.bist) fun _ => rfl
  simp [Dev.pageInTest, hb]

/-! ## The end of a command -/

theorem flushed_of_quiet (d : Dev) (ho : d.hbmOut = []) (hi : d.integ.raw = []) (ha : d.accessor = .host) :
    d.flushed = { d with refused := false } := by
  obtain ⟨⟩ := d
  rename_i integ _ _ _ _ _ _ _ _ _ _
  obtain ⟨⟩ := integ
  simp only at ho hi ha
  subst ho; subst hi; subst ha
  simp [Dev.flushed]

/-- A command that stores nothing settles on the device that it takes it to. -/
theorem settles_become {evs : List (Nat × Nat)} {d e : Dev} {s : State} (h : Dev.Like evs d e) (ho : d.hbmOut = [])
    (hi : d.integ.raw = []) (ha : d.accessor = .host) : State.Settles evs d s (s.become e) := by
  have ho' : e.hbmOut = [] := (h.part (fun x => x.hbmOut) fun _ => rfl).trans ho
  have hi' : e.integ.raw = [] := (congrArg Integrity.raw (h.part (fun x => x.integ) fun _ => rfl)).trans hi
  have ha' : e.accessor = .host := (h.part (fun x => x.accessor) fun _ => rfl).trans ha
  refine ⟨by simp [State.become, ho', State.storeAll], by simp [State.become, ho', State.storeAll], ?_⟩
  have hd : (s.become e).dev = { e with refused := false } := by
    simp [State.become, flushed_of_quiet e ho' hi' ha']
  rw [hd]
  refine ⟨h.words, ?_, ⟨h.events.latch, h.events.en, h.events.route, h.events.msix⟩⟩
  show ({ e.others with refused := false } : Dev) = { d.others with refused := false }
  rw [h.rest]

/-- A command that acts as `f` answers a next state, and settles. -/
theorem settles_run {evs : List (Nat × Nat)} {f : Dev → Dev} {d : Dev} {s : State} (hs : s.Inv) (h : Dev.Like evs d (f s.dev))
    (ho : d.hbmOut = s.dev.hbmOut) (hi : d.integ.raw = s.dev.integ.raw) (ha : d.accessor = s.dev.accessor) :
    ∃ t, s.run f = .next t ∧ State.Settles evs d s t :=
  ⟨_, rfl, settles_become h (ho.trans hs.2.1) (hi.trans hs.2.2.1) (ha.trans hs.2.2.2.2)⟩

end Sys2Proof.Machine
end

