-- ==== Sys2Proof/Laws/State.lean ====
section
/-!
SUPPORT. What each basic update leaves of the state: one lemma for each field that it does not touch.
-/
namespace Sys2Proof.Machine

/-! ## `Dev.setWord` -/

@[simp] theorem setWord_shadow (s : Dev) (c : Nat) (w : Word) : (s.setWord c w).shadow = s.shadow := rfl
@[simp] theorem setWord_pages (s : Dev) (c : Nat) (w : Word) : (s.setWord c w).pages = s.pages := rfl
@[simp] theorem setWord_later (s : Dev) (c : Nat) (w : Word) : (s.setWord c w).later = s.later := rfl
@[simp] theorem setWord_ev (s : Dev) (c : Nat) (w : Word) : (s.setWord c w).ev = s.ev := rfl
@[simp] theorem setWord_perf (s : Dev) (c : Nat) (w : Word) : (s.setWord c w).perf = s.perf := rfl
@[simp] theorem setWord_variant (s : Dev) (c : Nat) (w : Word) : (s.setWord c w).variant = s.variant := rfl
@[simp] theorem setWord_clock (s : Dev) (c : Nat) (w : Word) : (s.setWord c w).clock = s.clock := rfl
@[simp] theorem setWord_time (s : Dev) (c : Nat) (w : Word) : (s.setWord c w).time = s.time := rfl
@[simp] theorem setWord_pace (s : Dev) (c : Nat) (w : Word) : (s.setWord c w).pace = s.pace := rfl
@[simp] theorem setWord_tx (s : Dev) (c : Nat) (w : Word) : (s.setWord c w).tx = s.tx := rfl
@[simp] theorem setWord_fe (s : Dev) (c : Nat) (w : Word) : (s.setWord c w).fe = s.fe := rfl
@[simp] theorem setWord_dieLost (s : Dev) (c : Nat) (w : Word) : (s.setWord c w).dieLost = s.dieLost := rfl
@[simp] theorem setWord_rx (s : Dev) (c : Nat) (w : Word) : (s.setWord c w).rx = s.rx := rfl
@[simp] theorem setWord_cap (s : Dev) (c : Nat) (w : Word) : (s.setWord c w).cap = s.cap := rfl
@[simp] theorem setWord_capSec (s : Dev) (c : Nat) (w : Word) : (s.setWord c w).capSec = s.capSec := rfl
@[simp] theorem setWord_capRecs (s : Dev) (c : Nat) (w : Word) : (s.setWord c w).capRecs = s.capRecs := rfl
@[simp] theorem setWord_xqStopped (s : Dev) (c : Nat) (w : Word) : (s.setWord c w).xqStopped = s.xqStopped := rfl
@[simp] theorem setWord_fr (s : Dev) (c : Nat) (w : Word) : (s.setWord c w).fr = s.fr := rfl
@[simp] theorem setWord_crs (s : Dev) (c : Nat) (w : Word) : (s.setWord c w).crs = s.crs := rfl
@[simp] theorem setWord_bridges (s : Dev) (c : Nat) (w : Word) : (s.setWord c w).bridges = s.bridges := rfl
@[simp] theorem setWord_ohSent (s : Dev) (c : Nat) (w : Word) : (s.setWord c w).ohSent = s.ohSent := rfl
@[simp] theorem setWord_colSerial (s : Dev) (c : Nat) (w : Word) : (s.setWord c w).colSerial = s.colSerial := rfl
@[simp] theorem setWord_pairs (s : Dev) (c : Nat) (w : Word) : (s.setWord c w).pairs = s.pairs := rfl
@[simp] theorem setWord_parse (s : Dev) (c : Nat) (w : Word) : (s.setWord c w).parse = s.parse := rfl
@[simp] theorem setWord_sched (s : Dev) (c : Nat) (w : Word) : (s.setWord c w).sched = s.sched := rfl
@[simp] theorem setWord_keys (s : Dev) (c : Nat) (w : Word) : (s.setWord c w).keys = s.keys := rfl
@[simp] theorem setWord_staged (s : Dev) (c : Nat) (w : Word) : (s.setWord c w).staged = s.staged := rfl
@[simp] theorem setWord_invoked (s : Dev) (c : Nat) (w : Word) : (s.setWord c w).invoked = s.invoked := rfl
@[simp] theorem setWord_txCount (s : Dev) (c : Nat) (w : Word) : (s.setWord c w).txCount = s.txCount := rfl
@[simp] theorem setWord_rekeys (s : Dev) (c : Nat) (w : Word) : (s.setWord c w).rekeys = s.rekeys := rfl
@[simp] theorem setWord_droneReqs (s : Dev) (c : Nat) (w : Word) : (s.setWord c w).droneReqs = s.droneReqs := rfl
@[simp] theorem setWord_req (s : Dev) (c : Nat) (w : Word) : (s.setWord c w).req = s.req := rfl
@[simp] theorem setWord_drone (s : Dev) (c : Nat) (w : Word) : (s.setWord c w).drone = s.drone := rfl
@[simp] theorem setWord_sid (s : Dev) (c : Nat) (w : Word) : (s.setWord c w).sid = s.sid := rfl
@[simp] theorem setWord_col (s : Dev) (c : Nat) (w : Word) : (s.setWord c w).col = s.col := rfl
@[simp] theorem setWord_relay (s : Dev) (c : Nat) (w : Word) : (s.setWord c w).relay = s.relay := rfl
@[simp] theorem setWord_queues (s : Dev) (c : Nat) (w : Word) : (s.setWord c w).queues = s.queues := rfl
@[simp] theorem setWord_push (s : Dev) (c : Nat) (w : Word) : (s.setWord c w).push = s.push := rfl
@[simp] theorem setWord_images (s : Dev) (c : Nat) (w : Word) : (s.setWord c w).images = s.images := rfl
@[simp] theorem setWord_answers (s : Dev) (c : Nat) (w : Word) : (s.setWord c w).answers = s.answers := rfl
@[simp] theorem setWord_power (s : Dev) (c : Nat) (w : Word) : (s.setWord c w).power = s.power := rfl
@[simp] theorem setWord_integ (s : Dev) (c : Nat) (w : Word) : (s.setWord c w).integ = s.integ := rfl
@[simp] theorem setWord_bist (s : Dev) (c : Nat) (w : Word) : (s.setWord c w).bist = s.bist := rfl
@[simp] theorem setWord_vault (s : Dev) (c : Nat) (w : Word) : (s.setWord c w).vault = s.vault := rfl
@[simp] theorem setWord_readData (s : Dev) (c : Nat) (w : Word) : (s.setWord c w).readData = s.readData := rfl
@[simp] theorem setWord_readPoisoned (s : Dev) (c : Nat) (w : Word) : (s.setWord c w).readPoisoned = s.readPoisoned := rfl
@[simp] theorem setWord_fresh (s : Dev) (c : Nat) (w : Word) : (s.setWord c w).fresh = s.fresh := rfl
@[simp] theorem setWord_d3hot (s : Dev) (c : Nat) (w : Word) : (s.setWord c w).d3hot = s.d3hot := rfl
@[simp] theorem setWord_collecting (s : Dev) (c : Nat) (w : Word) : (s.setWord c w).collecting = s.collecting := rfl
@[simp] theorem setWord_accessor (s : Dev) (c : Nat) (w : Word) : (s.setWord c w).accessor = s.accessor := rfl
@[simp] theorem setWord_refused (s : Dev) (c : Nat) (w : Word) : (s.setWord c w).refused = s.refused := rfl
@[simp] theorem setWord_hbmOut (s : Dev) (c : Nat) (w : Word) : (s.setWord c w).hbmOut = s.hbmOut := rfl

/-! ## `Dev.wr` -/

@[simp] theorem wr_shadow (s : Dev) (f : Field) (v : Nat) : (s.wr f v).shadow = s.shadow := rfl
@[simp] theorem wr_pages (s : Dev) (f : Field) (v : Nat) : (s.wr f v).pages = s.pages := rfl
@[simp] theorem wr_later (s : Dev) (f : Field) (v : Nat) : (s.wr f v).later = s.later := rfl
@[simp] theorem wr_ev (s : Dev) (f : Field) (v : Nat) : (s.wr f v).ev = s.ev := rfl
@[simp] theorem wr_perf (s : Dev) (f : Field) (v : Nat) : (s.wr f v).perf = s.perf := rfl
@[simp] theorem wr_variant (s : Dev) (f : Field) (v : Nat) : (s.wr f v).variant = s.variant := rfl
@[simp] theorem wr_clock (s : Dev) (f : Field) (v : Nat) : (s.wr f v).clock = s.clock := rfl
@[simp] theorem wr_time (s : Dev) (f : Field) (v : Nat) : (s.wr f v).time = s.time := rfl
@[simp] theorem wr_pace (s : Dev) (f : Field) (v : Nat) : (s.wr f v).pace = s.pace := rfl
@[simp] theorem wr_tx (s : Dev) (f : Field) (v : Nat) : (s.wr f v).tx = s.tx := rfl
@[simp] theorem wr_fe (s : Dev) (f : Field) (v : Nat) : (s.wr f v).fe = s.fe := rfl
@[simp] theorem wr_dieLost (s : Dev) (f : Field) (v : Nat) : (s.wr f v).dieLost = s.dieLost := rfl
@[simp] theorem wr_rx (s : Dev) (f : Field) (v : Nat) : (s.wr f v).rx = s.rx := rfl
@[simp] theorem wr_cap (s : Dev) (f : Field) (v : Nat) : (s.wr f v).cap = s.cap := rfl
@[simp] theorem wr_capSec (s : Dev) (f : Field) (v : Nat) : (s.wr f v).capSec = s.capSec := rfl
@[simp] theorem wr_capRecs (s : Dev) (f : Field) (v : Nat) : (s.wr f v).capRecs = s.capRecs := rfl
@[simp] theorem wr_xqStopped (s : Dev) (f : Field) (v : Nat) : (s.wr f v).xqStopped = s.xqStopped := rfl
@[simp] theorem wr_fr (s : Dev) (f : Field) (v : Nat) : (s.wr f v).fr = s.fr := rfl
@[simp] theorem wr_crs (s : Dev) (f : Field) (v : Nat) : (s.wr f v).crs = s.crs := rfl
@[simp] theorem wr_bridges (s : Dev) (f : Field) (v : Nat) : (s.wr f v).bridges = s.bridges := rfl
@[simp] theorem wr_ohSent (s : Dev) (f : Field) (v : Nat) : (s.wr f v).ohSent = s.ohSent := rfl
@[simp] theorem wr_colSerial (s : Dev) (f : Field) (v : Nat) : (s.wr f v).colSerial = s.colSerial := rfl
@[simp] theorem wr_pairs (s : Dev) (f : Field) (v : Nat) : (s.wr f v).pairs = s.pairs := rfl
@[simp] theorem wr_parse (s : Dev) (f : Field) (v : Nat) : (s.wr f v).parse = s.parse := rfl
@[simp] theorem wr_sched (s : Dev) (f : Field) (v : Nat) : (s.wr f v).sched = s.sched := rfl
@[simp] theorem wr_keys (s : Dev) (f : Field) (v : Nat) : (s.wr f v).keys = s.keys := rfl
@[simp] theorem wr_staged (s : Dev) (f : Field) (v : Nat) : (s.wr f v).staged = s.staged := rfl
@[simp] theorem wr_invoked (s : Dev) (f : Field) (v : Nat) : (s.wr f v).invoked = s.invoked := rfl
@[simp] theorem wr_txCount (s : Dev) (f : Field) (v : Nat) : (s.wr f v).txCount = s.txCount := rfl
@[simp] theorem wr_rekeys (s : Dev) (f : Field) (v : Nat) : (s.wr f v).rekeys = s.rekeys := rfl
@[simp] theorem wr_droneReqs (s : Dev) (f : Field) (v : Nat) : (s.wr f v).droneReqs = s.droneReqs := rfl
@[simp] theorem wr_req (s : Dev) (f : Field) (v : Nat) : (s.wr f v).req = s.req := rfl
@[simp] theorem wr_drone (s : Dev) (f : Field) (v : Nat) : (s.wr f v).drone = s.drone := rfl
@[simp] theorem wr_sid (s : Dev) (f : Field) (v : Nat) : (s.wr f v).sid = s.sid := rfl
@[simp] theorem wr_col (s : Dev) (f : Field) (v : Nat) : (s.wr f v).col = s.col := rfl
@[simp] theorem wr_relay (s : Dev) (f : Field) (v : Nat) : (s.wr f v).relay = s.relay := rfl
@[simp] theorem wr_queues (s : Dev) (f : Field) (v : Nat) : (s.wr f v).queues = s.queues := rfl
@[simp] theorem wr_push (s : Dev) (f : Field) (v : Nat) : (s.wr f v).push = s.push := rfl
@[simp] theorem wr_images (s : Dev) (f : Field) (v : Nat) : (s.wr f v).images = s.images := rfl
@[simp] theorem wr_answers (s : Dev) (f : Field) (v : Nat) : (s.wr f v).answers = s.answers := rfl
@[simp] theorem wr_power (s : Dev) (f : Field) (v : Nat) : (s.wr f v).power = s.power := rfl
@[simp] theorem wr_integ (s : Dev) (f : Field) (v : Nat) : (s.wr f v).integ = s.integ := rfl
@[simp] theorem wr_bist (s : Dev) (f : Field) (v : Nat) : (s.wr f v).bist = s.bist := rfl
@[simp] theorem wr_vault (s : Dev) (f : Field) (v : Nat) : (s.wr f v).vault = s.vault := rfl
@[simp] theorem wr_readData (s : Dev) (f : Field) (v : Nat) : (s.wr f v).readData = s.readData := rfl
@[simp] theorem wr_readPoisoned (s : Dev) (f : Field) (v : Nat) : (s.wr f v).readPoisoned = s.readPoisoned := rfl
@[simp] theorem wr_fresh (s : Dev) (f : Field) (v : Nat) : (s.wr f v).fresh = s.fresh := rfl
@[simp] theorem wr_d3hot (s : Dev) (f : Field) (v : Nat) : (s.wr f v).d3hot = s.d3hot := rfl
@[simp] theorem wr_collecting (s : Dev) (f : Field) (v : Nat) : (s.wr f v).collecting = s.collecting := rfl
@[simp] theorem wr_accessor (s : Dev) (f : Field) (v : Nat) : (s.wr f v).accessor = s.accessor := rfl
@[simp] theorem wr_refused (s : Dev) (f : Field) (v : Nat) : (s.wr f v).refused = s.refused := rfl
@[simp] theorem wr_hbmOut (s : Dev) (f : Field) (v : Nat) : (s.wr f v).hbmOut = s.hbmOut := rfl

/-! ## `Dev.setShadow` -/

@[simp] theorem setShadow_regs (s : Dev) (c : Nat) (w : Word) : (s.setShadow c w).regs = s.regs := rfl
@[simp] theorem setShadow_pages (s : Dev) (c : Nat) (w : Word) : (s.setShadow c w).pages = s.pages := rfl
@[simp] theorem setShadow_later (s : Dev) (c : Nat) (w : Word) : (s.setShadow c w).later = s.later := rfl
@[simp] theorem setShadow_ev (s : Dev) (c : Nat) (w : Word) : (s.setShadow c w).ev = s.ev := rfl
@[simp] theorem setShadow_perf (s : Dev) (c : Nat) (w : Word) : (s.setShadow c w).perf = s.perf := rfl
@[simp] theorem setShadow_variant (s : Dev) (c : Nat) (w : Word) : (s.setShadow c w).variant = s.variant := rfl
@[simp] theorem setShadow_clock (s : Dev) (c : Nat) (w : Word) : (s.setShadow c w).clock = s.clock := rfl
@[simp] theorem setShadow_time (s : Dev) (c : Nat) (w : Word) : (s.setShadow c w).time = s.time := rfl
@[simp] theorem setShadow_pace (s : Dev) (c : Nat) (w : Word) : (s.setShadow c w).pace = s.pace := rfl
@[simp] theorem setShadow_tx (s : Dev) (c : Nat) (w : Word) : (s.setShadow c w).tx = s.tx := rfl
@[simp] theorem setShadow_fe (s : Dev) (c : Nat) (w : Word) : (s.setShadow c w).fe = s.fe := rfl
@[simp] theorem setShadow_dieLost (s : Dev) (c : Nat) (w : Word) : (s.setShadow c w).dieLost = s.dieLost := rfl
@[simp] theorem setShadow_rx (s : Dev) (c : Nat) (w : Word) : (s.setShadow c w).rx = s.rx := rfl
@[simp] theorem setShadow_cap (s : Dev) (c : Nat) (w : Word) : (s.setShadow c w).cap = s.cap := rfl
@[simp] theorem setShadow_capSec (s : Dev) (c : Nat) (w : Word) : (s.setShadow c w).capSec = s.capSec := rfl
@[simp] theorem setShadow_capRecs (s : Dev) (c : Nat) (w : Word) : (s.setShadow c w).capRecs = s.capRecs := rfl
@[simp] theorem setShadow_xqStopped (s : Dev) (c : Nat) (w : Word) : (s.setShadow c w).xqStopped = s.xqStopped := rfl
@[simp] theorem setShadow_fr (s : Dev) (c : Nat) (w : Word) : (s.setShadow c w).fr = s.fr := rfl
@[simp] theorem setShadow_crs (s : Dev) (c : Nat) (w : Word) : (s.setShadow c w).crs = s.crs := rfl
@[simp] theorem setShadow_bridges (s : Dev) (c : Nat) (w : Word) : (s.setShadow c w).bridges = s.bridges := rfl
@[simp] theorem setShadow_ohSent (s : Dev) (c : Nat) (w : Word) : (s.setShadow c w).ohSent = s.ohSent := rfl
@[simp] theorem setShadow_colSerial (s : Dev) (c : Nat) (w : Word) : (s.setShadow c w).colSerial = s.colSerial := rfl
@[simp] theorem setShadow_pairs (s : Dev) (c : Nat) (w : Word) : (s.setShadow c w).pairs = s.pairs := rfl
@[simp] theorem setShadow_parse (s : Dev) (c : Nat) (w : Word) : (s.setShadow c w).parse = s.parse := rfl
@[simp] theorem setShadow_sched (s : Dev) (c : Nat) (w : Word) : (s.setShadow c w).sched = s.sched := rfl
@[simp] theorem setShadow_keys (s : Dev) (c : Nat) (w : Word) : (s.setShadow c w).keys = s.keys := rfl
@[simp] theorem setShadow_staged (s : Dev) (c : Nat) (w : Word) : (s.setShadow c w).staged = s.staged := rfl
@[simp] theorem setShadow_invoked (s : Dev) (c : Nat) (w : Word) : (s.setShadow c w).invoked = s.invoked := rfl
@[simp] theorem setShadow_txCount (s : Dev) (c : Nat) (w : Word) : (s.setShadow c w).txCount = s.txCount := rfl
@[simp] theorem setShadow_rekeys (s : Dev) (c : Nat) (w : Word) : (s.setShadow c w).rekeys = s.rekeys := rfl
@[simp] theorem setShadow_droneReqs (s : Dev) (c : Nat) (w : Word) : (s.setShadow c w).droneReqs = s.droneReqs := rfl
@[simp] theorem setShadow_req (s : Dev) (c : Nat) (w : Word) : (s.setShadow c w).req = s.req := rfl
@[simp] theorem setShadow_drone (s : Dev) (c : Nat) (w : Word) : (s.setShadow c w).drone = s.drone := rfl
@[simp] theorem setShadow_sid (s : Dev) (c : Nat) (w : Word) : (s.setShadow c w).sid = s.sid := rfl
@[simp] theorem setShadow_col (s : Dev) (c : Nat) (w : Word) : (s.setShadow c w).col = s.col := rfl
@[simp] theorem setShadow_relay (s : Dev) (c : Nat) (w : Word) : (s.setShadow c w).relay = s.relay := rfl
@[simp] theorem setShadow_queues (s : Dev) (c : Nat) (w : Word) : (s.setShadow c w).queues = s.queues := rfl
@[simp] theorem setShadow_push (s : Dev) (c : Nat) (w : Word) : (s.setShadow c w).push = s.push := rfl
@[simp] theorem setShadow_images (s : Dev) (c : Nat) (w : Word) : (s.setShadow c w).images = s.images := rfl
@[simp] theorem setShadow_answers (s : Dev) (c : Nat) (w : Word) : (s.setShadow c w).answers = s.answers := rfl
@[simp] theorem setShadow_power (s : Dev) (c : Nat) (w : Word) : (s.setShadow c w).power = s.power := rfl
@[simp] theorem setShadow_integ (s : Dev) (c : Nat) (w : Word) : (s.setShadow c w).integ = s.integ := rfl
@[simp] theorem setShadow_bist (s : Dev) (c : Nat) (w : Word) : (s.setShadow c w).bist = s.bist := rfl
@[simp] theorem setShadow_vault (s : Dev) (c : Nat) (w : Word) : (s.setShadow c w).vault = s.vault := rfl
@[simp] theorem setShadow_readData (s : Dev) (c : Nat) (w : Word) : (s.setShadow c w).readData = s.readData := rfl
@[simp] theorem setShadow_readPoisoned (s : Dev) (c : Nat) (w : Word) : (s.setShadow c w).readPoisoned = s.readPoisoned := rfl
@[simp] theorem setShadow_fresh (s : Dev) (c : Nat) (w : Word) : (s.setShadow c w).fresh = s.fresh := rfl
@[simp] theorem setShadow_d3hot (s : Dev) (c : Nat) (w : Word) : (s.setShadow c w).d3hot = s.d3hot := rfl
@[simp] theorem setShadow_collecting (s : Dev) (c : Nat) (w : Word) : (s.setShadow c w).collecting = s.collecting := rfl
@[simp] theorem setShadow_accessor (s : Dev) (c : Nat) (w : Word) : (s.setShadow c w).accessor = s.accessor := rfl
@[simp] theorem setShadow_refused (s : Dev) (c : Nat) (w : Word) : (s.setShadow c w).refused = s.refused := rfl
@[simp] theorem setShadow_hbmOut (s : Dev) (c : Nat) (w : Word) : (s.setShadow c w).hbmOut = s.hbmOut := rfl

/-! ## `Dev.setHdr` -/

@[simp] theorem setHdr_regs (s : Dev) (p : Nat) (h : PageHdr) : (s.setHdr p h).regs = s.regs := rfl
@[simp] theorem setHdr_shadow (s : Dev) (p : Nat) (h : PageHdr) : (s.setHdr p h).shadow = s.shadow := rfl
@[simp] theorem setHdr_later (s : Dev) (p : Nat) (h : PageHdr) : (s.setHdr p h).later = s.later := rfl
@[simp] theorem setHdr_ev (s : Dev) (p : Nat) (h : PageHdr) : (s.setHdr p h).ev = s.ev := rfl
@[simp] theorem setHdr_perf (s : Dev) (p : Nat) (h : PageHdr) : (s.setHdr p h).perf = s.perf := rfl
@[simp] theorem setHdr_variant (s : Dev) (p : Nat) (h : PageHdr) : (s.setHdr p h).variant = s.variant := rfl
@[simp] theorem setHdr_clock (s : Dev) (p : Nat) (h : PageHdr) : (s.setHdr p h).clock = s.clock := rfl
@[simp] theorem setHdr_time (s : Dev) (p : Nat) (h : PageHdr) : (s.setHdr p h).time = s.time := rfl
@[simp] theorem setHdr_pace (s : Dev) (p : Nat) (h : PageHdr) : (s.setHdr p h).pace = s.pace := rfl
@[simp] theorem setHdr_tx (s : Dev) (p : Nat) (h : PageHdr) : (s.setHdr p h).tx = s.tx := rfl
@[simp] theorem setHdr_fe (s : Dev) (p : Nat) (h : PageHdr) : (s.setHdr p h).fe = s.fe := rfl
@[simp] theorem setHdr_dieLost (s : Dev) (p : Nat) (h : PageHdr) : (s.setHdr p h).dieLost = s.dieLost := rfl
@[simp] theorem setHdr_rx (s : Dev) (p : Nat) (h : PageHdr) : (s.setHdr p h).rx = s.rx := rfl
@[simp] theorem setHdr_cap (s : Dev) (p : Nat) (h : PageHdr) : (s.setHdr p h).cap = s.cap := rfl
@[simp] theorem setHdr_capSec (s : Dev) (p : Nat) (h : PageHdr) : (s.setHdr p h).capSec = s.capSec := rfl
@[simp] theorem setHdr_capRecs (s : Dev) (p : Nat) (h : PageHdr) : (s.setHdr p h).capRecs = s.capRecs := rfl
@[simp] theorem setHdr_xqStopped (s : Dev) (p : Nat) (h : PageHdr) : (s.setHdr p h).xqStopped = s.xqStopped := rfl
@[simp] theorem setHdr_fr (s : Dev) (p : Nat) (h : PageHdr) : (s.setHdr p h).fr = s.fr := rfl
@[simp] theorem setHdr_crs (s : Dev) (p : Nat) (h : PageHdr) : (s.setHdr p h).crs = s.crs := rfl
@[simp] theorem setHdr_bridges (s : Dev) (p : Nat) (h : PageHdr) : (s.setHdr p h).bridges = s.bridges := rfl
@[simp] theorem setHdr_ohSent (s : Dev) (p : Nat) (h : PageHdr) : (s.setHdr p h).ohSent = s.ohSent := rfl
@[simp] theorem setHdr_colSerial (s : Dev) (p : Nat) (h : PageHdr) : (s.setHdr p h).colSerial = s.colSerial := rfl
@[simp] theorem setHdr_pairs (s : Dev) (p : Nat) (h : PageHdr) : (s.setHdr p h).pairs = s.pairs := rfl
@[simp] theorem setHdr_parse (s : Dev) (p : Nat) (h : PageHdr) : (s.setHdr p h).parse = s.parse := rfl
@[simp] theorem setHdr_sched (s : Dev) (p : Nat) (h : PageHdr) : (s.setHdr p h).sched = s.sched := rfl
@[simp] theorem setHdr_keys (s : Dev) (p : Nat) (h : PageHdr) : (s.setHdr p h).keys = s.keys := rfl
@[simp] theorem setHdr_staged (s : Dev) (p : Nat) (h : PageHdr) : (s.setHdr p h).staged = s.staged := rfl
@[simp] theorem setHdr_invoked (s : Dev) (p : Nat) (h : PageHdr) : (s.setHdr p h).invoked = s.invoked := rfl
@[simp] theorem setHdr_txCount (s : Dev) (p : Nat) (h : PageHdr) : (s.setHdr p h).txCount = s.txCount := rfl
@[simp] theorem setHdr_rekeys (s : Dev) (p : Nat) (h : PageHdr) : (s.setHdr p h).rekeys = s.rekeys := rfl
@[simp] theorem setHdr_droneReqs (s : Dev) (p : Nat) (h : PageHdr) : (s.setHdr p h).droneReqs = s.droneReqs := rfl
@[simp] theorem setHdr_req (s : Dev) (p : Nat) (h : PageHdr) : (s.setHdr p h).req = s.req := rfl
@[simp] theorem setHdr_drone (s : Dev) (p : Nat) (h : PageHdr) : (s.setHdr p h).drone = s.drone := rfl
@[simp] theorem setHdr_sid (s : Dev) (p : Nat) (h : PageHdr) : (s.setHdr p h).sid = s.sid := rfl
@[simp] theorem setHdr_col (s : Dev) (p : Nat) (h : PageHdr) : (s.setHdr p h).col = s.col := rfl
@[simp] theorem setHdr_relay (s : Dev) (p : Nat) (h : PageHdr) : (s.setHdr p h).relay = s.relay := rfl
@[simp] theorem setHdr_queues (s : Dev) (p : Nat) (h : PageHdr) : (s.setHdr p h).queues = s.queues := rfl
@[simp] theorem setHdr_push (s : Dev) (p : Nat) (h : PageHdr) : (s.setHdr p h).push = s.push := rfl
@[simp] theorem setHdr_images (s : Dev) (p : Nat) (h : PageHdr) : (s.setHdr p h).images = s.images := rfl
@[simp] theorem setHdr_answers (s : Dev) (p : Nat) (h : PageHdr) : (s.setHdr p h).answers = s.answers := rfl
@[simp] theorem setHdr_power (s : Dev) (p : Nat) (h : PageHdr) : (s.setHdr p h).power = s.power := rfl
@[simp] theorem setHdr_integ (s : Dev) (p : Nat) (h : PageHdr) : (s.setHdr p h).integ = s.integ := rfl
@[simp] theorem setHdr_bist (s : Dev) (p : Nat) (h : PageHdr) : (s.setHdr p h).bist = s.bist := rfl
@[simp] theorem setHdr_vault (s : Dev) (p : Nat) (h : PageHdr) : (s.setHdr p h).vault = s.vault := rfl
@[simp] theorem setHdr_readData (s : Dev) (p : Nat) (h : PageHdr) : (s.setHdr p h).readData = s.readData := rfl
@[simp] theorem setHdr_readPoisoned (s : Dev) (p : Nat) (h : PageHdr) : (s.setHdr p h).readPoisoned = s.readPoisoned := rfl
@[simp] theorem setHdr_fresh (s : Dev) (p : Nat) (h : PageHdr) : (s.setHdr p h).fresh = s.fresh := rfl
@[simp] theorem setHdr_d3hot (s : Dev) (p : Nat) (h : PageHdr) : (s.setHdr p h).d3hot = s.d3hot := rfl
@[simp] theorem setHdr_collecting (s : Dev) (p : Nat) (h : PageHdr) : (s.setHdr p h).collecting = s.collecting := rfl
@[simp] theorem setHdr_accessor (s : Dev) (p : Nat) (h : PageHdr) : (s.setHdr p h).accessor = s.accessor := rfl
@[simp] theorem setHdr_refused (s : Dev) (p : Nat) (h : PageHdr) : (s.setHdr p h).refused = s.refused := rfl
@[simp] theorem setHdr_hbmOut (s : Dev) (p : Nat) (h : PageHdr) : (s.setHdr p h).hbmOut = s.hbmOut := rfl

/-! ## `Dev.viol` -/

@[simp] theorem viol_regs (s : Dev) (p : Nat) : (s.viol p).regs = s.regs := rfl
@[simp] theorem viol_shadow (s : Dev) (p : Nat) : (s.viol p).shadow = s.shadow := rfl
@[simp] theorem viol_later (s : Dev) (p : Nat) : (s.viol p).later = s.later := rfl
@[simp] theorem viol_ev (s : Dev) (p : Nat) : (s.viol p).ev = s.ev := rfl
@[simp] theorem viol_perf (s : Dev) (p : Nat) : (s.viol p).perf = s.perf := rfl
@[simp] theorem viol_variant (s : Dev) (p : Nat) : (s.viol p).variant = s.variant := rfl
@[simp] theorem viol_clock (s : Dev) (p : Nat) : (s.viol p).clock = s.clock := rfl
@[simp] theorem viol_time (s : Dev) (p : Nat) : (s.viol p).time = s.time := rfl
@[simp] theorem viol_pace (s : Dev) (p : Nat) : (s.viol p).pace = s.pace := rfl
@[simp] theorem viol_tx (s : Dev) (p : Nat) : (s.viol p).tx = s.tx := rfl
@[simp] theorem viol_fe (s : Dev) (p : Nat) : (s.viol p).fe = s.fe := rfl
@[simp] theorem viol_dieLost (s : Dev) (p : Nat) : (s.viol p).dieLost = s.dieLost := rfl
@[simp] theorem viol_rx (s : Dev) (p : Nat) : (s.viol p).rx = s.rx := rfl
@[simp] theorem viol_cap (s : Dev) (p : Nat) : (s.viol p).cap = s.cap := rfl
@[simp] theorem viol_capSec (s : Dev) (p : Nat) : (s.viol p).capSec = s.capSec := rfl
@[simp] theorem viol_capRecs (s : Dev) (p : Nat) : (s.viol p).capRecs = s.capRecs := rfl
@[simp] theorem viol_xqStopped (s : Dev) (p : Nat) : (s.viol p).xqStopped = s.xqStopped := rfl
@[simp] theorem viol_fr (s : Dev) (p : Nat) : (s.viol p).fr = s.fr := rfl
@[simp] theorem viol_crs (s : Dev) (p : Nat) : (s.viol p).crs = s.crs := rfl
@[simp] theorem viol_bridges (s : Dev) (p : Nat) : (s.viol p).bridges = s.bridges := rfl
@[simp] theorem viol_ohSent (s : Dev) (p : Nat) : (s.viol p).ohSent = s.ohSent := rfl
@[simp] theorem viol_colSerial (s : Dev) (p : Nat) : (s.viol p).colSerial = s.colSerial := rfl
@[simp] theorem viol_pairs (s : Dev) (p : Nat) : (s.viol p).pairs = s.pairs := rfl
@[simp] theorem viol_parse (s : Dev) (p : Nat) : (s.viol p).parse = s.parse := rfl
@[simp] theorem viol_sched (s : Dev) (p : Nat) : (s.viol p).sched = s.sched := rfl
@[simp] theorem viol_keys (s : Dev) (p : Nat) : (s.viol p).keys = s.keys := rfl
@[simp] theorem viol_staged (s : Dev) (p : Nat) : (s.viol p).staged = s.staged := rfl
@[simp] theorem viol_invoked (s : Dev) (p : Nat) : (s.viol p).invoked = s.invoked := rfl
@[simp] theorem viol_txCount (s : Dev) (p : Nat) : (s.viol p).txCount = s.txCount := rfl
@[simp] theorem viol_rekeys (s : Dev) (p : Nat) : (s.viol p).rekeys = s.rekeys := rfl
@[simp] theorem viol_droneReqs (s : Dev) (p : Nat) : (s.viol p).droneReqs = s.droneReqs := rfl
@[simp] theorem viol_req (s : Dev) (p : Nat) : (s.viol p).req = s.req := rfl
@[simp] theorem viol_drone (s : Dev) (p : Nat) : (s.viol p).drone = s.drone := rfl
@[simp] theorem viol_sid (s : Dev) (p : Nat) : (s.viol p).sid = s.sid := rfl
@[simp] theorem viol_col (s : Dev) (p : Nat) : (s.viol p).col = s.col := rfl
@[simp] theorem viol_relay (s : Dev) (p : Nat) : (s.viol p).relay = s.relay := rfl
@[simp] theorem viol_queues (s : Dev) (p : Nat) : (s.viol p).queues = s.queues := rfl
@[simp] theorem viol_push (s : Dev) (p : Nat) : (s.viol p).push = s.push := rfl
@[simp] theorem viol_images (s : Dev) (p : Nat) : (s.viol p).images = s.images := rfl
@[simp] theorem viol_answers (s : Dev) (p : Nat) : (s.viol p).answers = s.answers := rfl
@[simp] theorem viol_power (s : Dev) (p : Nat) : (s.viol p).power = s.power := rfl
@[simp] theorem viol_integ (s : Dev) (p : Nat) : (s.viol p).integ = s.integ := rfl
@[simp] theorem viol_bist (s : Dev) (p : Nat) : (s.viol p).bist = s.bist := rfl
@[simp] theorem viol_vault (s : Dev) (p : Nat) : (s.viol p).vault = s.vault := rfl
@[simp] theorem viol_readData (s : Dev) (p : Nat) : (s.viol p).readData = s.readData := rfl
@[simp] theorem viol_readPoisoned (s : Dev) (p : Nat) : (s.viol p).readPoisoned = s.readPoisoned := rfl
@[simp] theorem viol_fresh (s : Dev) (p : Nat) : (s.viol p).fresh = s.fresh := rfl
@[simp] theorem viol_d3hot (s : Dev) (p : Nat) : (s.viol p).d3hot = s.d3hot := rfl
@[simp] theorem viol_collecting (s : Dev) (p : Nat) : (s.viol p).collecting = s.collecting := rfl
@[simp] theorem viol_accessor (s : Dev) (p : Nat) : (s.viol p).accessor = s.accessor := rfl
@[simp] theorem viol_hbmOut (s : Dev) (p : Nat) : (s.viol p).hbmOut = s.hbmOut := rfl

/-! ## `Dev.store` -/

@[simp] theorem store_regs (s : Dev) (a : Nat) (bs : List Byte) : (s.store a bs).regs = s.regs := rfl
@[simp] theorem store_shadow (s : Dev) (a : Nat) (bs : List Byte) : (s.store a bs).shadow = s.shadow := rfl
@[simp] theorem store_pages (s : Dev) (a : Nat) (bs : List Byte) : (s.store a bs).pages = s.pages := rfl
@[simp] theorem store_later (s : Dev) (a : Nat) (bs : List Byte) : (s.store a bs).later = s.later := rfl
@[simp] theorem store_ev (s : Dev) (a : Nat) (bs : List Byte) : (s.store a bs).ev = s.ev := rfl
@[simp] theorem store_perf (s : Dev) (a : Nat) (bs : List Byte) : (s.store a bs).perf = s.perf := rfl
@[simp] theorem store_variant (s : Dev) (a : Nat) (bs : List Byte) : (s.store a bs).variant = s.variant := rfl
@[simp] theorem store_clock (s : Dev) (a : Nat) (bs : List Byte) : (s.store a bs).clock = s.clock := rfl
@[simp] theorem store_time (s : Dev) (a : Nat) (bs : List Byte) : (s.store a bs).time = s.time := rfl
@[simp] theorem store_pace (s : Dev) (a : Nat) (bs : List Byte) : (s.store a bs).pace = s.pace := rfl
@[simp] theorem store_tx (s : Dev) (a : Nat) (bs : List Byte) : (s.store a bs).tx = s.tx := rfl
@[simp] theorem store_fe (s : Dev) (a : Nat) (bs : List Byte) : (s.store a bs).fe = s.fe := rfl
@[simp] theorem store_dieLost (s : Dev) (a : Nat) (bs : List Byte) : (s.store a bs).dieLost = s.dieLost := rfl
@[simp] theorem store_rx (s : Dev) (a : Nat) (bs : List Byte) : (s.store a bs).rx = s.rx := rfl
@[simp] theorem store_cap (s : Dev) (a : Nat) (bs : List Byte) : (s.store a bs).cap = s.cap := rfl
@[simp] theorem store_capSec (s : Dev) (a : Nat) (bs : List Byte) : (s.store a bs).capSec = s.capSec := rfl
@[simp] theorem store_capRecs (s : Dev) (a : Nat) (bs : List Byte) : (s.store a bs).capRecs = s.capRecs := rfl
@[simp] theorem store_xqStopped (s : Dev) (a : Nat) (bs : List Byte) : (s.store a bs).xqStopped = s.xqStopped := rfl
@[simp] theorem store_fr (s : Dev) (a : Nat) (bs : List Byte) : (s.store a bs).fr = s.fr := rfl
@[simp] theorem store_crs (s : Dev) (a : Nat) (bs : List Byte) : (s.store a bs).crs = s.crs := rfl
@[simp] theorem store_bridges (s : Dev) (a : Nat) (bs : List Byte) : (s.store a bs).bridges = s.bridges := rfl
@[simp] theorem store_ohSent (s : Dev) (a : Nat) (bs : List Byte) : (s.store a bs).ohSent = s.ohSent := rfl
@[simp] theorem store_colSerial (s : Dev) (a : Nat) (bs : List Byte) : (s.store a bs).colSerial = s.colSerial := rfl
@[simp] theorem store_pairs (s : Dev) (a : Nat) (bs : List Byte) : (s.store a bs).pairs = s.pairs := rfl
@[simp] theorem store_parse (s : Dev) (a : Nat) (bs : List Byte) : (s.store a bs).parse = s.parse := rfl
@[simp] theorem store_sched (s : Dev) (a : Nat) (bs : List Byte) : (s.store a bs).sched = s.sched := rfl
@[simp] theorem store_keys (s : Dev) (a : Nat) (bs : List Byte) : (s.store a bs).keys = s.keys := rfl
@[simp] theorem store_staged (s : Dev) (a : Nat) (bs : List Byte) : (s.store a bs).staged = s.staged := rfl
@[simp] theorem store_invoked (s : Dev) (a : Nat) (bs : List Byte) : (s.store a bs).invoked = s.invoked := rfl
@[simp] theorem store_txCount (s : Dev) (a : Nat) (bs : List Byte) : (s.store a bs).txCount = s.txCount := rfl
@[simp] theorem store_rekeys (s : Dev) (a : Nat) (bs : List Byte) : (s.store a bs).rekeys = s.rekeys := rfl
@[simp] theorem store_droneReqs (s : Dev) (a : Nat) (bs : List Byte) : (s.store a bs).droneReqs = s.droneReqs := rfl
@[simp] theorem store_req (s : Dev) (a : Nat) (bs : List Byte) : (s.store a bs).req = s.req := rfl
@[simp] theorem store_drone (s : Dev) (a : Nat) (bs : List Byte) : (s.store a bs).drone = s.drone := rfl
@[simp] theorem store_sid (s : Dev) (a : Nat) (bs : List Byte) : (s.store a bs).sid = s.sid := rfl
@[simp] theorem store_col (s : Dev) (a : Nat) (bs : List Byte) : (s.store a bs).col = s.col := rfl
@[simp] theorem store_relay (s : Dev) (a : Nat) (bs : List Byte) : (s.store a bs).relay = s.relay := rfl
@[simp] theorem store_queues (s : Dev) (a : Nat) (bs : List Byte) : (s.store a bs).queues = s.queues := rfl
@[simp] theorem store_push (s : Dev) (a : Nat) (bs : List Byte) : (s.store a bs).push = s.push := rfl
@[simp] theorem store_images (s : Dev) (a : Nat) (bs : List Byte) : (s.store a bs).images = s.images := rfl
@[simp] theorem store_answers (s : Dev) (a : Nat) (bs : List Byte) : (s.store a bs).answers = s.answers := rfl
@[simp] theorem store_power (s : Dev) (a : Nat) (bs : List Byte) : (s.store a bs).power = s.power := rfl
@[simp] theorem store_integ (s : Dev) (a : Nat) (bs : List Byte) : (s.store a bs).integ = s.integ := rfl
@[simp] theorem store_bist (s : Dev) (a : Nat) (bs : List Byte) : (s.store a bs).bist = s.bist := rfl
@[simp] theorem store_vault (s : Dev) (a : Nat) (bs : List Byte) : (s.store a bs).vault = s.vault := rfl
@[simp] theorem store_readData (s : Dev) (a : Nat) (bs : List Byte) : (s.store a bs).readData = s.readData := rfl
@[simp] theorem store_readPoisoned (s : Dev) (a : Nat) (bs : List Byte) : (s.store a bs).readPoisoned = s.readPoisoned := rfl
@[simp] theorem store_fresh (s : Dev) (a : Nat) (bs : List Byte) : (s.store a bs).fresh = s.fresh := rfl
@[simp] theorem store_d3hot (s : Dev) (a : Nat) (bs : List Byte) : (s.store a bs).d3hot = s.d3hot := rfl
@[simp] theorem store_collecting (s : Dev) (a : Nat) (bs : List Byte) : (s.store a bs).collecting = s.collecting := rfl
@[simp] theorem store_accessor (s : Dev) (a : Nat) (bs : List Byte) : (s.store a bs).accessor = s.accessor := rfl
@[simp] theorem store_refused (s : Dev) (a : Nat) (bs : List Byte) : (s.store a bs).refused = s.refused := rfl

/-! ## `Dev.tick` -/

@[simp] theorem tick_regs (s : Dev) : (s.tick).regs = s.regs := rfl
@[simp] theorem tick_shadow (s : Dev) : (s.tick).shadow = s.shadow := rfl
@[simp] theorem tick_pages (s : Dev) : (s.tick).pages = s.pages := rfl
@[simp] theorem tick_later (s : Dev) : (s.tick).later = s.later := rfl
@[simp] theorem tick_ev (s : Dev) : (s.tick).ev = s.ev := rfl
@[simp] theorem tick_perf (s : Dev) : (s.tick).perf = s.perf := rfl
@[simp] theorem tick_variant (s : Dev) : (s.tick).variant = s.variant := rfl
@[simp] theorem tick_clock (s : Dev) : (s.tick).clock = s.clock := rfl
@[simp] theorem tick_time (s : Dev) : (s.tick).time = s.time := rfl
@[simp] theorem tick_pace (s : Dev) : (s.tick).pace = s.pace := rfl
@[simp] theorem tick_tx (s : Dev) : (s.tick).tx = s.tx := rfl
@[simp] theorem tick_fe (s : Dev) : (s.tick).fe = s.fe := rfl
@[simp] theorem tick_dieLost (s : Dev) : (s.tick).dieLost = s.dieLost := rfl
@[simp] theorem tick_rx (s : Dev) : (s.tick).rx = s.rx := rfl
@[simp] theorem tick_cap (s : Dev) : (s.tick).cap = s.cap := rfl
@[simp] theorem tick_capSec (s : Dev) : (s.tick).capSec = s.capSec := rfl
@[simp] theorem tick_capRecs (s : Dev) : (s.tick).capRecs = s.capRecs := rfl
@[simp] theorem tick_xqStopped (s : Dev) : (s.tick).xqStopped = s.xqStopped := rfl
@[simp] theorem tick_fr (s : Dev) : (s.tick).fr = s.fr := rfl
@[simp] theorem tick_crs (s : Dev) : (s.tick).crs = s.crs := rfl
@[simp] theorem tick_bridges (s : Dev) : (s.tick).bridges = s.bridges := rfl
@[simp] theorem tick_ohSent (s : Dev) : (s.tick).ohSent = s.ohSent := rfl
@[simp] theorem tick_colSerial (s : Dev) : (s.tick).colSerial = s.colSerial := rfl
@[simp] theorem tick_pairs (s : Dev) : (s.tick).pairs = s.pairs := rfl
@[simp] theorem tick_parse (s : Dev) : (s.tick).parse = s.parse := rfl
@[simp] theorem tick_sched (s : Dev) : (s.tick).sched = s.sched := rfl
@[simp] theorem tick_keys (s : Dev) : (s.tick).keys = s.keys := rfl
@[simp] theorem tick_staged (s : Dev) : (s.tick).staged = s.staged := rfl
@[simp] theorem tick_invoked (s : Dev) : (s.tick).invoked = s.invoked := rfl
@[simp] theorem tick_txCount (s : Dev) : (s.tick).txCount = s.txCount := rfl
@[simp] theorem tick_rekeys (s : Dev) : (s.tick).rekeys = s.rekeys := rfl
@[simp] theorem tick_droneReqs (s : Dev) : (s.tick).droneReqs = s.droneReqs := rfl
@[simp] theorem tick_req (s : Dev) : (s.tick).req = s.req := rfl
@[simp] theorem tick_drone (s : Dev) : (s.tick).drone = s.drone := rfl
@[simp] theorem tick_sid (s : Dev) : (s.tick).sid = s.sid := rfl
@[simp] theorem tick_col (s : Dev) : (s.tick).col = s.col := rfl
@[simp] theorem tick_relay (s : Dev) : (s.tick).relay = s.relay := rfl
@[simp] theorem tick_queues (s : Dev) : (s.tick).queues = s.queues := rfl
@[simp] theorem tick_push (s : Dev) : (s.tick).push = s.push := rfl
@[simp] theorem tick_images (s : Dev) : (s.tick).images = s.images := rfl
@[simp] theorem tick_answers (s : Dev) : (s.tick).answers = s.answers := rfl
@[simp] theorem tick_power (s : Dev) : (s.tick).power = s.power := rfl
@[simp] theorem tick_integ (s : Dev) : (s.tick).integ = s.integ := rfl
@[simp] theorem tick_bist (s : Dev) : (s.tick).bist = s.bist := rfl
@[simp] theorem tick_vault (s : Dev) : (s.tick).vault = s.vault := rfl
@[simp] theorem tick_readData (s : Dev) : (s.tick).readData = s.readData := rfl
@[simp] theorem tick_readPoisoned (s : Dev) : (s.tick).readPoisoned = s.readPoisoned := rfl
@[simp] theorem tick_accessor (s : Dev) : (s.tick).accessor = s.accessor := rfl
@[simp] theorem tick_refused (s : Dev) : (s.tick).refused = s.refused := rfl
@[simp] theorem tick_hbmOut (s : Dev) : (s.tick).hbmOut = s.hbmOut := rfl

/-! ## `Dev.returns` -/

@[simp] theorem returns_regs (s : Dev) (w : Nat) : (s.returns w).regs = s.regs := rfl
@[simp] theorem returns_shadow (s : Dev) (w : Nat) : (s.returns w).shadow = s.shadow := rfl
@[simp] theorem returns_pages (s : Dev) (w : Nat) : (s.returns w).pages = s.pages := rfl
@[simp] theorem returns_later (s : Dev) (w : Nat) : (s.returns w).later = s.later := rfl
@[simp] theorem returns_ev (s : Dev) (w : Nat) : (s.returns w).ev = s.ev := rfl
@[simp] theorem returns_perf (s : Dev) (w : Nat) : (s.returns w).perf = s.perf := rfl
@[simp] theorem returns_variant (s : Dev) (w : Nat) : (s.returns w).variant = s.variant := rfl
@[simp] theorem returns_clock (s : Dev) (w : Nat) : (s.returns w).clock = s.clock := rfl
@[simp] theorem returns_time (s : Dev) (w : Nat) : (s.returns w).time = s.time := rfl
@[simp] theorem returns_pace (s : Dev) (w : Nat) : (s.returns w).pace = s.pace := rfl
@[simp] theorem returns_tx (s : Dev) (w : Nat) : (s.returns w).tx = s.tx := rfl
@[simp] theorem returns_fe (s : Dev) (w : Nat) : (s.returns w).fe = s.fe := rfl
@[simp] theorem returns_dieLost (s : Dev) (w : Nat) : (s.returns w).dieLost = s.dieLost := rfl
@[simp] theorem returns_rx (s : Dev) (w : Nat) : (s.returns w).rx = s.rx := rfl
@[simp] theorem returns_cap (s : Dev) (w : Nat) : (s.returns w).cap = s.cap := rfl
@[simp] theorem returns_capSec (s : Dev) (w : Nat) : (s.returns w).capSec = s.capSec := rfl
@[simp] theorem returns_capRecs (s : Dev) (w : Nat) : (s.returns w).capRecs = s.capRecs := rfl
@[simp] theorem returns_xqStopped (s : Dev) (w : Nat) : (s.returns w).xqStopped = s.xqStopped := rfl
@[simp] theorem returns_fr (s : Dev) (w : Nat) : (s.returns w).fr = s.fr := rfl
@[simp] theorem returns_crs (s : Dev) (w : Nat) : (s.returns w).crs = s.crs := rfl
@[simp] theorem returns_bridges (s : Dev) (w : Nat) : (s.returns w).bridges = s.bridges := rfl
@[simp] theorem returns_ohSent (s : Dev) (w : Nat) : (s.returns w).ohSent = s.ohSent := rfl
@[simp] theorem returns_colSerial (s : Dev) (w : Nat) : (s.returns w).colSerial = s.colSerial := rfl
@[simp] theorem returns_pairs (s : Dev) (w : Nat) : (s.returns w).pairs = s.pairs := rfl
@[simp] theorem returns_parse (s : Dev) (w : Nat) : (s.returns w).parse = s.parse := rfl
@[simp] theorem returns_sched (s : Dev) (w : Nat) : (s.returns w).sched = s.sched := rfl
@[simp] theorem returns_keys (s : Dev) (w : Nat) : (s.returns w).keys = s.keys := rfl
@[simp] theorem returns_staged (s : Dev) (w : Nat) : (s.returns w).staged = s.staged := rfl
@[simp] theorem returns_invoked (s : Dev) (w : Nat) : (s.returns w).invoked = s.invoked := rfl
@[simp] theorem returns_txCount (s : Dev) (w : Nat) : (s.returns w).txCount = s.txCount := rfl
@[simp] theorem returns_rekeys (s : Dev) (w : Nat) : (s.returns w).rekeys = s.rekeys := rfl
@[simp] theorem returns_droneReqs (s : Dev) (w : Nat) : (s.returns w).droneReqs = s.droneReqs := rfl
@[simp] theorem returns_req (s : Dev) (w : Nat) : (s.returns w).req = s.req := rfl
@[simp] theorem returns_drone (s : Dev) (w : Nat) : (s.returns w).drone = s.drone := rfl
@[simp] theorem returns_sid (s : Dev) (w : Nat) : (s.returns w).sid = s.sid := rfl
@[simp] theorem returns_col (s : Dev) (w : Nat) : (s.returns w).col = s.col := rfl
@[simp] theorem returns_relay (s : Dev) (w : Nat) : (s.returns w).relay = s.relay := rfl
@[simp] theorem returns_queues (s : Dev) (w : Nat) : (s.returns w).queues = s.queues := rfl
@[simp] theorem returns_push (s : Dev) (w : Nat) : (s.returns w).push = s.push := rfl
@[simp] theorem returns_images (s : Dev) (w : Nat) : (s.returns w).images = s.images := rfl
@[simp] theorem returns_answers (s : Dev) (w : Nat) : (s.returns w).answers = s.answers := rfl
@[simp] theorem returns_power (s : Dev) (w : Nat) : (s.returns w).power = s.power := rfl
@[simp] theorem returns_integ (s : Dev) (w : Nat) : (s.returns w).integ = s.integ := rfl
@[simp] theorem returns_bist (s : Dev) (w : Nat) : (s.returns w).bist = s.bist := rfl
@[simp] theorem returns_vault (s : Dev) (w : Nat) : (s.returns w).vault = s.vault := rfl
@[simp] theorem returns_fresh (s : Dev) (w : Nat) : (s.returns w).fresh = s.fresh := rfl
@[simp] theorem returns_d3hot (s : Dev) (w : Nat) : (s.returns w).d3hot = s.d3hot := rfl
@[simp] theorem returns_collecting (s : Dev) (w : Nat) : (s.returns w).collecting = s.collecting := rfl
@[simp] theorem returns_accessor (s : Dev) (w : Nat) : (s.returns w).accessor = s.accessor := rfl
@[simp] theorem returns_refused (s : Dev) (w : Nat) : (s.returns w).refused = s.refused := rfl
@[simp] theorem returns_hbmOut (s : Dev) (w : Nat) : (s.returns w).hbmOut = s.hbmOut := rfl

/-! ## The state of the block -/

@[simp] theorem setByte_pending (s : State) (a : Nat) (b : Byte) : (s.setByte a b).pending = s.pending := by
  unfold State.setByte; split <;> rfl

@[simp] theorem setByte_dev (s : State) (a : Nat) (b : Byte) : (s.setByte a b).dev = s.dev := by
  unfold State.setByte; split <;> rfl

@[simp] theorem setBytes_pending (bs : List Byte) (a : Nat) (s : State) : (s.setBytes a bs).pending = s.pending := by
  induction bs generalizing a s with
  | nil => rfl
  | cons b bs ih => simp [State.setBytes, ih]

@[simp] theorem setBytes_dev (bs : List Byte) (a : Nat) (s : State) : (s.setBytes a bs).dev = s.dev := by
  induction bs generalizing a s with
  | nil => rfl
  | cons b bs ih => simp [State.setBytes, ih]

@[simp] theorem storeAll_pending (ws : List (Nat × List Byte)) (s : State) : (s.storeAll ws).pending = s.pending := by
  induction ws generalizing s with
  | nil => rfl
  | cons w ws ih => simp [State.storeAll, ih]

@[simp] theorem storeAll_dev (ws : List (Nat × List Byte)) (s : State) : (s.storeAll ws).dev = s.dev := by
  induction ws generalizing s with
  | nil => rfl
  | cons w ws ih => simp [State.storeAll, ih]

/-- The queue stays: exec never touches it. -/
@[simp] theorem become_pending (d : Dev) (s : State) : (s.become d).pending = s.pending := by
  simp [State.become]

@[simp] theorem become_dev (d : Dev) (s : State) : (s.become d).dev = d.flushed := rfl

end Sys2Proof.Machine
end

