-- ==== Sys2Proof/Laws/Memory.lean ====
section
/-!
SUPPORT. The laws of HBM: what a byte reads as after stores, that every store keeps the canonical form, and what a command that takes the device
to `d` does to the block.
-/
namespace Sys2Proof.Machine

/-! ## The canonical form is kept -/

theorem wf_setByte {s : State} (a : Nat) (b : Byte) (h : Memory.wf s.mem = true) : Memory.wf (s.setByte a b).mem = true := by
  unfold State.setByte
  split
  · exact swf_sset _ _ _ h
  · exact h

theorem wf_setBytes (bs : List Byte) (a : Nat) (s : State) (h : Memory.wf s.mem = true) : Memory.wf (s.setBytes a bs).mem = true := by
  induction bs generalizing a s with
  | nil => exact h
  | cons b bs ih => exact ih _ _ (wf_setByte a b h)

theorem wf_storeAll (ws : List (Nat × List Byte)) (s : State) (h : Memory.wf s.mem = true) : Memory.wf (s.storeAll ws).mem = true := by
  induction ws generalizing s with
  | nil => exact h
  | cons w ws ih => exact ih _ (wf_setBytes _ _ _ h)

/-- Memory keeps its canonical form whatever a command makes of the device. -/
theorem wf_become (d : Dev) (s : State) (h : Memory.wf s.mem = true) : Memory.wf (s.become d).mem = true :=
  wf_storeAll _ { s with dev := d } h

/-! ## Reading after stores -/

theorem byte_setByte (s : State) (a x : Nat) (b : Byte) :
    (s.setByte a b).byte x = if x = a ∧ x < s.dev.hbmUsable then b else s.byte x := by
  unfold State.setByte State.byte
  split <;> rename_i h
  · by_cases hx : x = a
    · subst hx
      simp [h]
    · simp [hx, sget_sset_ne]
  · by_cases hx : x = a
    · subst hx
      simp [h]
    · simp [hx]

theorem byte_setBytes (bs : List Byte) (a x : Nat) (s : State) :
    (s.setBytes a bs).byte x = if a ≤ x ∧ x < a + bs.length ∧ x < s.dev.hbmUsable then (bs[x - a]?).getD 0 else s.byte x := by
  induction bs generalizing a s with
  | nil =>
    have h : ¬ (a ≤ x ∧ x < a + 0 ∧ x < s.dev.hbmUsable) := by omega
    simp only [State.setBytes, List.length_nil, if_neg h]
  | cons b bs ih =>
    simp only [State.setBytes, ih, setByte_dev, List.length_cons, byte_setByte]
    by_cases hu : x < s.dev.hbmUsable
    · by_cases hx : x = a
      · subst hx
        have h : ¬ (x + 1 ≤ x ∧ x < x + 1 + bs.length ∧ x < s.dev.hbmUsable) := by omega
        have h' : x ≤ x ∧ x < x + (bs.length + 1) ∧ x < s.dev.hbmUsable := by omega
        rw [if_neg h, if_pos ⟨rfl, hu⟩, if_pos h']
        simp
      · by_cases hr : a + 1 ≤ x ∧ x < a + 1 + bs.length ∧ x < s.dev.hbmUsable
        · have h' : a ≤ x ∧ x < a + (bs.length + 1) ∧ x < s.dev.hbmUsable := by omega
          rw [if_pos hr, if_pos h']
          obtain ⟨k, hk⟩ : ∃ k, x - a = k + 1 := ⟨x - a - 1, by omega⟩
          have hk' : x - (a + 1) = k := by omega
          rw [hk, hk', List.getElem?_cons_succ]
        · have h' : ¬ (a ≤ x ∧ x < a + (bs.length + 1) ∧ x < s.dev.hbmUsable) := by omega
          rw [if_neg hr, if_neg h', if_neg (by simp [hx])]
    · have h1 : ¬ (a + 1 ≤ x ∧ x < a + 1 + bs.length ∧ x < s.dev.hbmUsable) := by simp [hu]
      have h2 : ¬ (x = a ∧ x < s.dev.hbmUsable) := by simp [hu]
      have h3 : ¬ (a ≤ x ∧ x < a + (bs.length + 1) ∧ x < s.dev.hbmUsable) := by simp [hu]
      rw [if_neg h1, if_neg h2, if_neg h3]

/-- The bytes after a list of stores are the overlay of the stores. -/
theorem byte_storeAll (ws : List (Nat × List Byte)) (s : State) (x : Nat) :
    (s.storeAll ws).byte x = overlay s.dev.hbmUsable ws s.byte x := by
  induction ws generalizing s with
  | nil => rfl
  | cons w ws ih =>
    simp only [State.storeAll, ih, overlay, setBytes_dev]
    congr 1
    funext y
    exact byte_setBytes _ _ _ _

/-! ## The end of a command -/

theorem hbmUsable_flushed (d : Dev) : d.flushed.hbmUsable = d.hbmUsable := rfl

/-- The bytes of HBM after a command that takes the device to `d`, where usable HBM stays. -/
theorem byte_become (d : Dev) (s : State) (h : d.hbmUsable = s.dev.hbmUsable) (x : Nat) :
    (s.become d).byte x = overlay s.dev.hbmUsable d.hbmOut s.byte x := by
  have e : (s.become d).byte x = ((({ s with dev := d } : State).storeAll d.hbmOut)).byte x := by
    simp [State.become, State.byte, hbmUsable_flushed]
  have b : ({ s with dev := d } : State).byte = s.byte := by
    funext y
    simp [State.byte, h]
  rw [e, byte_storeAll, b]
  simp [h]

theorem flushed_atRest (d : Dev) : d.flushed.atRest :=
  ⟨rfl, rfl, rfl, rfl⟩

/-- Whatever a command makes of the device, the block keeps its invariant. -/
theorem inv_become (d : Dev) (s : State) (h : s.Inv) : (s.become d).Inv :=
  ⟨wf_become d s h.1, flushed_atRest d⟩

/-- The check bytes that a command leaves are those it writes raw, and the earlier ones of the words that its stores do not touch. -/
theorem integ_flushed (d : Dev) : d.flushed.integ = d.integ.settled d.hbmOut := by
  have h (w : Nat) : (d.hbmOut.all fun p => !(decide (p.1 < 8 * w + 8) && decide (8 * w < p.1 + p.2.length))) = !touches d.hbmOut w := by
    simp [touches, List.all_eq_not_any_not]
  simp only [Dev.flushed, Integrity.settled, h]

/-- A command whose device is like `d` and that stores what `d` has to store ends as `State.Stores` says. -/
theorem stores_become {evs : List (Nat × Nat)} {d e : Dev} {s : State} (h : Dev.Like evs d e) (hu : e.hbmUsable = s.dev.hbmUsable)
    (ha : d.accessor = .host) : State.Stores evs { d with hbmOut := [] } d.hbmOut s (s.become e) := by
  have ho : e.hbmOut = d.hbmOut := h.part (fun x => x.hbmOut) fun _ => rfl
  have hi' : e.integ = d.integ := h.part (fun x => x.integ) fun _ => rfl
  have ha' : e.accessor = .host := (h.part (fun x => x.accessor) fun _ => rfl).trans ha
  refine ⟨fun x => ?_, become_pending e s, ?_⟩
  · rw [byte_become e s hu, ho]
  · have hc : e.flushed.integ = d.integ.settled d.hbmOut := by
      rw [integ_flushed, hi', ho]
    refine ⟨h.words, ?_, ⟨h.events.latch, h.events.en, h.events.route, h.events.msix⟩⟩
    show ({ e.others with hbmOut := [], refused := false, accessor := .host, integ := e.flushed.integ } : Dev) =
      { d.others with hbmOut := [], refused := false, integ := d.integ.settled d.hbmOut }
    rw [hc, h.rest]
    have hd : d.others = { d.others with accessor := .host } := by
      rw [← ha]
      rfl
    rw [hd]

theorem run_next (f : Dev → Dev) (s : State) : s.run f = .next (s.become (f s.dev)) := rfl

end Sys2Proof.Machine
end

