-- ==== Sys2Proof/Laws/Step.lean ====
section
/-!
SUPPORT. What a command can do to the block as a whole: it takes the device somewhere, and `State.become` does the rest.
-/
namespace Sys2Proof.Machine

theorem bar2_becomes (a : WinAccess) (s : State) : ∃ d, execBar2WindowAccess a s = .next (s.become d) := by
  cases a with
  | read off n p => simp only [execBar2WindowAccess]; split <;> exact ⟨_, rfl⟩
  | write off bytes => exact ⟨_, rfl⟩

/-- Every command answers the state that its device makes of the block; a few leave the block as it is where they have nothing to act on. -/
theorem exec_becomes (c : Instr) (s : State) : exec c s = .next s ∨ ∃ d, exec c s = .next (s.become d) := by
  cases c
  case ucodeLoadComplete => simp only [exec, execUcodeLoadComplete]; (repeat' split) <;> first | exact .inl rfl | exact .inr ⟨_, rfl⟩
  case bulkLoadRecord => simp only [exec, execBulkLoadRecord]; (repeat' split) <;> first | exact .inl rfl | exact .inr ⟨_, rfl⟩
  case reqComplete => simp only [exec, execReqComplete]; (repeat' split) <;> first | exact .inl rfl | exact .inr ⟨_, rfl⟩
  case bulkAccess => simp only [exec, execBulkAccess]; (repeat' split) <;> first | exact .inl rfl | exact .inr (bar2_becomes _ _) | exact .inr ⟨_, rfl⟩
  case bar2WindowAccess a => exact .inr (bar2_becomes a s)
  case qPushComplete => simp only [exec, execQPushComplete]; (repeat' split) <;> first | exact .inl rfl | exact .inr ⟨_, rfl⟩
  all_goals exact .inr ⟨_, rfl⟩

end Sys2Proof.Machine
end

