-- ==== Sys2Proof/Laws/Write.lean ====
section
/-!
SUPPORT. The laws of a register write: what a host write of a page that answers can do beside its own effect.
-/
namespace Sys2Proof.Machine

/-- A violation counted on both sides. -/
theorem Dev.Kin.viol {a : List (Nat × Nat)} {d e : Dev} (h : Dev.Kin a d e) (page : Nat) : Dev.Kin a (d.viol page) (e.viol page) :=
  h.map (Dev.viol page) (fun _ => rfl) (fun _ => rfl) (fun _ => rfl) fun _ => rfl

theorem Dev.Like.hdr {a : List (Nat × Nat)} {d e : Dev} (h : Dev.Like a d e) (page : Nat) : e.hdr page = d.hdr page := by
  have : e.pages = d.pages := h.part (fun x => x.pages) fun _ => rfl
  simp [Dev.hdr, this]

theorem Dev.Like.shadow {a : List (Nat × Nat)} {d e : Dev} (h : Dev.Like a d e) : e.shadow = d.shadow :=
  h.part (fun x => x.shadow) fun _ => rfl

theorem Dev.Kin.takeField {a : List (Nat × Nat)} {d e : Dev} (h : Dev.Kin a d e) (page cell : Nat) (v : Word) (f : FieldSpec)
    (hc : ¬ overflowCell cell) : Dev.Kin a (d.takeField page cell v f) (e.takeField page cell v f) := by
  unfold Dev.takeField
  rw [h.words _ hc, h.toLike.hdr, h.toLike.shadow]
  cases f.acc with
  | rw => exact h.setWord _ _
  | w1c => exact h.setWord _ _
  | w1s => exact h.setWord _ _
  | rwa =>
    dsimp only
    split
    · exact h.map (Dev.setShadow cell _) (fun _ => rfl) (fun _ => rfl) (fun _ => rfl) fun _ => rfl
    · exact h
  | ro => exact h
  | wo => exact h

theorem Dev.Kin.takeFields {a : List (Nat × Nat)} (page cell : Nat) (v : Word) (hc : ¬ overflowCell cell) (fs : List FieldSpec) :
    ∀ {d e : Dev}, Dev.Kin a d e →
      Dev.Kin a (fs.foldl (fun s f => s.takeField page cell v f) d) (fs.foldl (fun s f => s.takeField page cell v f) e) := by
  induction fs with
  | nil => exact fun h => h
  | cons f fs ih => exact fun h => ih (h.takeField page cell v f hc)

/-- The same word written to the same register of like devices. -/
theorem Dev.Kin.writeWord {a : List (Nat × Nat)} {d e : Dev} (h : Dev.Kin a d e) (page off : Nat) (own v : Word)
    (hc : ¬ overflowCell (regCell page off)) : Dev.Kin a (d.writeWord page off own v) (e.writeWord page off own v) := by
  unfold Dev.writeWord
  cases regAt page off with
  | none => exact h.viol page
  | some p =>
    obtain ⟨i, k, r⟩ := p
    dsimp only
    have hs : (fun f => decide (f.acc = Access.rwa) && e.shadowDiffers (regCell page off) v f) =
        fun f => decide (f.acc = Access.rwa) && d.shadowDiffers (regCell page off) v f := by
      funext f
      have hd : e.shadowDiffers (regCell page off) v f = d.shadowDiffers (regCell page off) v f := by
        unfold Dev.shadowDiffers Dev.sh
        rw [h.toLike.shadow]
      rw [hd]
    rw [h.toLike.hdr, hs]
    have ht := h.takeFields page (regCell page off) v hc (r.fields.filter fun f => f.mask &&& own = 0)
    split
    · exact ht.viol page
    · exact ht

/-- The bits of a field of another word put into a word. -/
theorem setBits_getBits (w v : Word) (l k : Nat) : setBits w l k (getBits v l k) = (w &&& ~~~ bitMask l k) ||| (v &&& bitMask l k) := by
  apply BitVec.eq_of_getLsbD_eq
  intro i hi
  rw [getLsbD_setBits]
  simp only [hi, BitVec.getLsbD_or, BitVec.getLsbD_and, BitVec.getLsbD_not, getLsbD_bitMask _ _ _ hi, decide_true, Bool.true_and,
    testBit_getBits]
  by_cases h1 : l ≤ i <;> by_cases h2 : i - l < k <;> simp [h1, h2]

/-- An RW field takes the bits written to it. -/
theorem takeField_rw (s : Dev) (page cell : Nat) (v : Word) (f : FieldSpec) (h : f.acc = .rw) :
    s.takeField page cell v f = s.wr ⟨cell, f.lsb, f.width⟩ (getBits v f.lsb f.width) := by
  simp only [Dev.takeField, h, Dev.wr, setBits_getBits]
  rfl

/-- Like devices with the violations of one write counted once. -/
theorem Dev.Kin.oneViol {a : List (Nat × Nat)} {d e : Dev} (h : Dev.Kin a d e) (page before : Nat) :
    Dev.Kin a (d.oneViol page before) (e.oneViol page before) := by
  unfold Dev.oneViol
  rw [h.toLike.hdr]
  split
  · exact h.map (Dev.setHdr page _) (fun _ => rfl) (fun _ => rfl) (fun _ => rfl) fun _ => rfl
  · exact h

/-- Where a write has counted one violation at most, nothing is left out. -/
theorem oneViol_of_le (d : Dev) {page before : Nat} (h : (d.hdr page).viol ≤ before + 1) : d.oneViol page before = d := by
  unfold Dev.oneViol
  rw [if_neg (by omega)]

/-- A host write of a page that answers and is not under test has its own effect, and counts one violation in its page at most; beside it,
accesses are counted. -/
theorem hostWrite_kin {evs : List (Nat × Nat)} {s d : Dev} {page off : Nat} {own v : Word} {act : Dev → Dev}
    (hl : s.pageLive page = true) (ht : s.pageInTest page = false) (hc : ¬ overflowCell (regCell page off))
    (h : ∀ e, Dev.Kin [] (s.writeWord page off own v) e → Dev.Kin evs d (act e)) :
    Dev.Kin evs (d.oneViol page (s.hdr page).viol) (s.hostWrite page off own v act) := by
  have ha := Dev.Kin.access s 1 page off
  have hl' := (ha.pageLive page).trans hl
  have ht' := (ha.pageInTest page).trans ht
  simp only [Dev.hostWrite, hl', ht', ha.toLike.hdr]
  exact ((h _ (ha.writeWord page off own v hc)).oneViol page _).trans_nil' (Dev.Kin.endAccess _ _ _)

/-- The same where the effect counts one violation at most. -/
theorem hostWrite_kin_of_le {evs : List (Nat × Nat)} {s d : Dev} {page off : Nat} {own v : Word} {act : Dev → Dev}
    (hl : s.pageLive page = true) (ht : s.pageInTest page = false) (hc : ¬ overflowCell (regCell page off))
    (h : ∀ e, Dev.Kin [] (s.writeWord page off own v) e → Dev.Kin evs d (act e)) (hv : (d.hdr page).viol ≤ (s.hdr page).viol + 1) :
    Dev.Kin evs d (s.hostWrite page off own v act) :=
  oneViol_of_le d hv ▸ hostWrite_kin hl ht hc h

/-- A command write of a page that answers and is not under test has its own effect; beside it, accesses are counted. -/
theorem onWrite_kin {evs : List (Nat × Nat)} {s d : Dev} {page off : Nat} {act : Dev → Dev}
    (hl : s.pageLive page = true) (ht : s.pageInTest page = false) (h : ∀ e, Dev.Kin [] s e → Dev.Kin evs d (act e)) :
    Dev.Kin evs d (s.onWrite page off act) := by
  have ha := Dev.Kin.access s 1 page off
  have hl' := (ha.pageLive page).trans hl
  have ht' := (ha.pageInTest page).trans ht
  simp only [Dev.onWrite, hl', ht']
  exact (h _ ha).trans_nil' (Dev.Kin.endAccess _ _ _)

/-- The same for a write that a block under test would hold. -/
theorem onHeldWrite_kin {evs : List (Nat × Nat)} {s d : Dev} {page off : Nat} {w : HeldWrite} {act : Dev → Dev}
    (hl : s.pageLive page = true) (ht : s.pageInTest page = false) (h : ∀ e, Dev.Kin [] s e → Dev.Kin evs d (act e)) :
    Dev.Kin evs d (s.onHeldWrite page off w act) := by
  have ha := Dev.Kin.access s 1 page off
  have hl' := (ha.pageLive page).trans hl
  have ht' := (ha.pageInTest page).trans ht
  simp only [Dev.onHeldWrite, hl', ht']
  exact (h _ ha).trans_nil' (Dev.Kin.endAccess _ _ _)

end Sys2Proof.Machine
end

