-- ==== Sys2Proof/Machine/Pins.lean ====
section
/-!
DEFINITION. The package's digital pins as the board sees them (Table 20.5, R550) and the balls of the lane and line groups (R555).
-/
namespace Sys2Proof.Machine

/-! ## Levels (R550) -/

/-- What TSTATE[2:0] show: the code of Table 12.3, and 0b111 until the Finder has booted (R340, R550). -/
def Dev.tstate (s : Dev) : Nat :=
  if s.on Reg.FINDER_STAT_BOOTED then s.dpll else dpllOff

/-- The open-drain outputs of Table 20.5. -/
inductive DrainPin where
  | event (k : Nat)
  | water (k : Nat)
  | alert
  | thermTrip
  deriving DecidableEq, Repr

/-- Whether an open-drain output is driven low; it is released until the Finder has booted (R440, R458, R489, R550, Table 17.7). -/
def Dev.drivenLow (s : Dev) (p : DrainPin) : Bool :=
  s.on Reg.FINDER_STAT_BOOTED &&
  match p with
  | .event k => s.ev.pinLow k
  | .water k => s.waterLow k
  | .alert => s.alertLow
  | .thermTrip => s.thermTripLow

/-! ## Balls (R554, R555) -/

/-- A ball of the 96 × 96 grid: its row and its column, from 1. -/
structure Ball where
  row : Nat
  col : Nat
  deriving DecidableEq, Repr

/-- The ball of client lane `lane`: its transmit or receive pair, the positive or the negative pin of it. -/
def clientBall (lane : Nat) (transmit positive : Bool) : Ball :=
  ⟨(if positive then 13 else 14) + 2 * (lane % 32),
    match transmit, decide (lane < 32) with
    | true, true => 2
    | true, false => 95
    | false, true => 5
    | false, false => 92⟩

/-- The ball of lane `lane` of relay port `port`. -/
def relayBall (port lane : Nat) (transmit positive : Bool) : Ball :=
  ⟨(if positive then 77 else 78) + 2 * lane,
    let cols := [(2, 5), (8, 11), (95, 92), (89, 86)].getD port (2, 5)
    if transmit then cols.1 else cols.2⟩

/-- The first column of engine `n`'s region. -/
def engineCol (n : Nat) : Nat :=
  24 * (n % 4) + 1

/-- The ball of converter lane `i` of engine `n`, XI, XQ, YI and YQ being 0 to 3. -/
def converterBall (n i : Nat) (transmit positive : Bool) : Ball :=
  ⟨match transmit, decide (n < 4) with
    | true, true => 2
    | true, false => 95
    | false, true => 6
    | false, false => 91,
    engineCol n + (if positive then 2 else 3) + 6 * i⟩

/-- The other four pins of engine `n`: LNn_TAP, LNn_TAP_RTN, LNn_FE_SCL and LNn_FE_SDA. -/
def engineBall (n pin : Nat) : Ball :=
  ⟨if n < 4 then 10 else 87, engineCol n + [2, 3, 10, 11].getD pin 2⟩

end Sys2Proof.Machine
end

