-- ==== Sys2Proof/Tests/Base.lean ====
section
/-!
SUPPORT. The small states that the tests start from: the state after reset with a few registers written.
-/
namespace Sys2Proof.Tests
open Sys2Proof.Machine

/-- The state after reset with its device changed. -/
def after (f : Dev → Dev) : State :=
  { State.reset with dev := f Dev.reset }

/-- The device with fields written, the last of the list first. -/
def put : List (Field × Nat) → Dev → Dev
  | [], d => d
  | (f, v) :: l, d => (put l d).wr f v

/-- The state after reset, in RUN, with fields written. -/
def running (l : List (Field × Nat)) : State :=
  after fun d => put l (d.wr Reg.PWR_STAT_STATE pwrRun)

/-- The same, with another part of the device changed too. -/
def runningWith (l : List (Field × Nat)) (f : Dev → Dev) : State :=
  after fun d => f (put l (d.wr Reg.PWR_STAT_STATE pwrRun))

end Sys2Proof.Tests
end

