-- ==== Sys2Proof/WellFormed.lean ====
section
/-!
DEFINITION. Which commands are well formed: operands within the ranges that the specification gives them, where their types do not say it. The meanings are total
and do not rely on it.
-/
namespace Sys2Proof

/-- A collection answer names one of the 64 positions, and its digest has 64 bytes (R442, R446). -/
def CollectAnswer.wellFormed (a : CollectAnswer) : Bool :=
  a.pos < 64 ∧ a.first.all fun f => decide (f.digest.length = 64)

/-- An access to the window of R429 lies within it and is no longer than a page. -/
def WinAccess.wellFormed : WinAccess → Bool
  | .read off n _ => off.toNat + n.toNat ≤ Config.winSize ∧ n.toNat ≤ 4096
  | .write off bytes => off.toNat + bytes.length ≤ Config.winSize ∧ bytes.length ≤ 4096

/-- LAYER names an IPv4 header, an IPv6 header, or neither (Table 8.5). -/
def ParseInsn.wellFormed : ParseInsn → Bool
  | .layer _ _ ip => ip = 0 ∨ ip = 4 ∨ ip = 6
  | _ => true

/-- Whether a command is well formed. -/
def Instr.wellFormed (i : Instr) : Bool :=
  match i with
  | .registerWrite _ off _ => off.toNat % 4 = 0
  | .perstNRelease .. => true
  | .perstNAssert => true
  | .xqOverflow .. => true
  | .xqHwmClear .. => true
  | .shedReqHostWrite .. => true
  | .parseBeShareStep => true
  | .txEnableWrite .. => true
  | .txDisableWrite .. => true
  | .txFaultClear .. => true
  | .prepComplete .. => true
  | .prepTimeout .. => true
  | .txPllUnlock .. => true
  | .muteFadeComplete .. => true
  | .rampUpComplete .. => true
  | .rampDownComplete .. => true
  | .clipWindowEnd .. => true
  | .txClipClear .. => true
  | .txPdDataWrite .. => true
  | .boundaryApply _ bnd => bnd ≠ .hub
  | .commitPendingEnd .. => true
  | .rxEnableWrite .. => true
  | .rxDisableWrite .. => true
  | .sampPllLock .. => true
  | .sampPllLockTimeout .. => true
  | .sampPllUnlock .. => true
  | .ovrWindowEnd .. => true
  | .rxOvrClear .. => true
  | .trLockSet .. => true
  | .trLockClear .. => true
  | .trHoldEnter .. => true
  | .trHoldResume .. => true
  | .trHoldTimeout .. => true
  | .capFire .. => true
  | .capEventTrigger => true
  | .capTenableWrite .. => true
  | .capTimeTrigger => true
  | .capArm .. => true
  | .capDisarm .. => true
  | .capStart .. => true
  | .capSnapshotComplete .. => true
  | .capDecimRecordEnd .. => true
  | .capDrainComplete .. => true
  | .signalPresent .. => true
  | .signalLos .. => true
  | .freqSearchDone .. => true
  | .acqStateLimit .. => true
  | .cdSearchDone .. => true
  | .eqConverged .. => true
  | .pilotSyncDone .. => true
  | .carrierLocked .. => true
  | .eqDegeneracy .. => true
  | .pilotLoss .. => true
  | .freqOutOfRange .. => true
  | .holdExpired .. => true
  | .backoffExpired .. => true
  | .acqRetry .. => true
  | .acqCntClr .. => true
  | .eqReset .. => true
  | .tapCentroidShift .. => true
  | .dfeAutoSwitch .. => true
  | .cycleSlip .. => true
  | .slipWindowEnd .. => true
  | .crSlipClear .. => true
  | .twinAidFallback .. => true
  | .twinAidResume .. => true
  | .lineArrivalStep .. => true
  | .opmWindowEnd .. => true
  | .codewordDecode _ _ group _ => group.length = 73792
  | .staircaseBlockVerdict .. => true
  | .iterEffStep .. => true
  | .alignPhaseConfirmed .. => true
  | .alignSearchLimit .. => true
  | .alignLoss .. => true
  | .alignRetryExpired .. => true
  | .alignFailClear .. => true
  | .fecSnapTake .. => true
  | .fecSnapClear .. => true
  | .frameTick .. => true
  | .rxFrame .. => true
  | .courseFrameRebuild .. => true
  | .skewMaxExpired .. => true
  | .frCandidatePass .. => true
  | .frCandidateConfirm .. => true
  | .frCandidateFail .. => true
  | .frAmbigResolve .. => true
  | .frHeaderMissOof .. => true
  | .frOofRecover .. => true
  | .lofDeclare .. => true
  | .lofClear .. => true
  | .tblOpRead .. => true
  | .tblOpWrite .. => true
  | .parallaxDecision .. => true
  | .parallaxRelease .. => true
  | .parallaxAcquireEnd .. => true
  | .parallaxLostTimeout .. => true
  | .protHoldoffExpired .. => true
  | .selectorMove .. => true
  | .wtrExpired .. => true
  | .cmdLo .. => true
  | .cmdFs .. => true
  | .cmdMs .. => true
  | .cmdMsW .. => true
  | .cmdClear .. => true
  | .cmdRegrid .. => true
  | .cmdZeroPstat .. => true
  | .clientFrameReceive .. => true
  | .clientLinkChange .. => true
  | .clientErrWindowEnd .. => true
  | .parseStart .. => true
  | .lookupResult _ _ _ _ code _ => code.all ParseInsn.wellFormed
  | .parsePassEnd _ _ _ _ _ _ _ _ code _ => code.all ParseInsn.wellFormed
  | .reorderRelease .. => true
  | .ucodeLoad .. => true
  | .ucodeLoadComplete => true
  | .bulkLoadGo .. => true
  | .bulkLoadRecord => true
  | .bulkLoadComplete => true
  | .cntSnapTake .. => true
  | .cntSnapClear .. => true
  | .flowAdmit .. => true
  | .admitApply => true
  | .remove .. => true
  | .removeComplete => true
  | .zeroFlowCounters .. => true
  | .egressPacketArrive => true
  | .detRelease .. => true
  | .egressPortServe .. => true
  | .keyLoad .. => true
  | .keyErase .. => true
  | .keyZeroise .. => true
  | .keyZeroiseAll .. => true
  | .rekey .. => true
  | .reqTailWrite .. => true
  | .reqTake => true
  | .ringOwnTimeout => true
  | .reqComplete .. => true
  | .droneSend .. => true
  | .beaconDue .. => true
  | .droneBurstStart .. => true
  | .droneBurstComplete .. => true
  | .droneBurstCut .. => true
  | .droneDetect .. => true
  | .afcFreeze .. => true
  | .fingerSyncFound .. => true
  | .fingerAcqTimeout .. => true
  | .fingerHeaderDecoded _ _ header => header.length = 8
  | .fingerBodyEnd .. => true
  | .droneFalseWindowEnd .. => true
  | .beaconVerify => true
  | .nbrAgeExpired .. => true
  | .expMissingTimeout .. => true
  | .refMonitorUpdate .. => true
  | .refActivityLoss .. => true
  | .refAgreeUpdate => true
  | .esmcPduReceive .. => true
  | .esmcTimeout .. => true
  | .dpllLockAchieved => true
  | .dpllLockLost => true
  | .histValidSet => true
  | .holdoverExpire => true
  | .xoCheck .. => true
  | .xoInLoss => true
  | .timeSnap => true
  | .timeSet => true
  | .timeStep => true
  | .timeSlew => true
  | .timeSlewDone => true
  | .timeTod => true
  | .timeAlign => true
  | .timeAlignJump => true
  | .alignComplete => true
  | .ptpEventMessage .. => true
  | .refResetSpan .. => true
  | .refResetDissent .. => true
  | .calPinLoop .. => true
  | .calTxMark .. => true
  | .calRxLoop .. => true
  | .calComplete .. => true
  | .lcalFgRun .. => true
  | .lcalFgComplete .. => true
  | .lcalBgComplete .. => true
  | .lcalSysGo .. => true
  | .lcalSysStepDone .. => true
  | .lcalSysTimeout => true
  | .hkScanStart => true
  | .hkScanEnd .. => true
  | .hkCalRequest .. => true
  | .hkCalComplete .. => true
  | .hkClearFault .. => true
  | .colStoreDue .. => true
  | .colFlush .. => true
  | .colStoreComplete .. => true
  | .rerunCheck .. => true
  | .timingRerunComplete .. => true
  | .laneLosDeclare .. => true
  | .laneLosClear .. => true
  | .laneLolDeclare .. => true
  | .laneLolClear .. => true
  | .laneAdaptDone .. => true
  | .laneTxeqWrite .. => true
  | .laneLpEnter .. => true
  | .laneLpExit .. => true
  | .laneReady .. => true
  | .laneLoopbackSet .. => true
  | .relayLaneFrameReceive _ _ levels _ _ => levels.all fun x => decide (x < 4)
  | .relaySyncFound .. => true
  | .relaySyncLost .. => true
  | .relayErrWindowEnd .. => true
  | .dchSegmentReceive .. => true
  | .mgmtAccess _ _ off _ => off.toNat % 4 = 0
  | .mgmtReply .. => true
  | .mgmtTimeout .. => true
  | .bulkAccess .. => true
  | .neighbourSegmentSend => true
  | .discoveryStart => true
  | .chainRediscover .. => true
  | .positionAssignComplete .. => true
  | .fleetCompletionMsg .. => true
  | .chainJoin .. => true
  | .chainDepart .. => true
  | .prbsGenEnable .. => true
  | .prbsChkEnable .. => true
  | .prbsCntClr .. => true
  | .prbsInjOne .. => true
  | .prbsInjRate .. => true
  | .prbsLock .. => true
  | .prbsLockLost .. => true
  | .pcieLinkChange .. => true
  | .pcieFunctionReset => true
  | .pciePoisonedWrite => true
  | .shadowArm .. => true
  | .shadowCommit .. => true
  | .shadowDisarm .. => true
  | .commitAll .. => true
  | .shadowDiscard .. => true
  | .clrViol .. => true
  | .winBaseWrite .. => true
  | .bar2WindowAccess access => access.wellFormed
  | .queueItemArrive .. => true
  | .qPop .. => true
  | .qPopStallExpire .. => true
  | .qMark .. => true
  | .qRewind .. => true
  | .qRelease .. => true
  | .qPush .. => true
  | .qPushComplete => true
  | .digestUpdateComplete => true
  | .chainCollect .. => true
  | .collectQuery => true
  | .chainCollectComplete answers => answers.all CollectAnswer.wellFormed
  | .evLatchClear .. => true
  | .vecHoldoffExpire .. => true
  | .evForce .. => true
  | .perfValueRead .. => true
  | .perfClearAll .. => true
  | .finderBoot .. => true
  | .finderPowerLoss => true
  | .startupStepComplete r => r.badCopies.all fun x => decide (x < 54)
  | .startupStepTimeout => true
  | .pwrSleepRequest .. => true
  | .sleepEntryComplete .. => true
  | .wakePin => true
  | .wakeHost .. => true
  | .wakeTimerExpire => true
  | .thermSample temps => temps.length = 36
  | .thermStepTimer => true
  | .thermReleaseTimer => true
  | .thermOffEnter => true
  | .thermSensorReset .. => true
  | .clkPllUnlock .. => true
  | .finderWatchdog => true
  | .memoryReadCe .. => true
  | .memoryReadUe .. => true
  | .ceRateWindowEnd => true
  | .logRead => true
  | .scrubGo .. => true
  | .scrubAbort .. => true
  | .scrubComplete .. => true
  | .testWriteRaw .. => true
  | .testReadRaw .. => true
  | .pprClearCand .. => true
  | .bistGo .. => true
  | .bistIsolated => true
  | .bistBlockEnd .. => true
  | .bistRunEnd => true
  | .bistAbort .. => true
  | .bistOffWrite .. => true
  | .fleetSettle => true
  | .bistDirectGo .. => true
  | .lcTransitionRequest .. => true
  | .certCopy .. => true
  | .certInstall .. => true
  | .fwInstall .. => true
  | .fwInstallComplete .. => true
  | .arbAdvance .. => true
  | .bundleApply .. => true
  | .bundleStore .. => true
  | .bundleRecord => true
  | .bundleComplete => true
  | .attQuote .. => true
  | .attQuoteComplete => true
  | .feRead .. => true
  | .feReadComplete _ data => data.all fun b => decide (b.length = 768)
  | .feDataRead => true
  | .eqTapSnap .. => true
  | .eqTapDataRead .. => true
  | .jtagInstruction .. => true
  | .dieLinkLoss .. => true
  | .tref1ppsEdge .. => true

end Sys2Proof
end

