-- ==== Sys2Proof/Tests/Slice0.lean ====
section
/-!
SUPPORT. The model's own tests: worked examples of the specification and of public standards, a command that each check of WellFormed refuses, and for
every statement with hypotheses states and operands that meet them.
-/
set_option maxRecDepth 20000
namespace Sys2Proof.Tests
open Sys2Proof Sys2Proof.Machine

/-! ## Worked examples; each expected value is the specification's -/

/-- PAGE_ID of page 0x168 (chapter 15, after Table 15.12). -/
theorem test_page_id : pageId 0x168 = 0x01600801 := by decide

/-- LINE3 begins at page 0x160 (chapter 0, after R10). -/
theorem test_line_page : linePage 3 0 = 0x160 := by decide

/-- 30 ms into a ramp of 100 ms TX_STATE.LEVEL reads 13,507 (chapter 2, after R60). -/
theorem test_ramp_level : levelAt 30 100 = 13507 := by decide +kernel

/-- The nominal mode has Rs = 195.0013 GBd (chapter 3, after R81). -/
theorem test_symbol_rate : symrateKbd 2 64 650 / 100 = 1950013 := by decide

/-- AUTO takes FRACTIONAL, and RATIO_3_2 where the resampler is unusable (chapter 3, after R81). -/
theorem test_resampling : resampChoice 0 0 640 2 64 650 true = none ∧ resampChoice 0 0 640 2 64 650 false = some 1 ∧ presetFs 1 2 64 650 = 292502 := by
  decide

/-- RX_GD_STATIC of LINE5 with D_head 17,500 ps/nm at 193,400 GHz reads 35,273,732 (chapter 3, after R90). -/
theorem test_group_delay :
    (running [(Reg.RX_MODE_CONST 5, 2), (Reg.RX_MODE_SLOTS_M1 5, 63), (Reg.RX_MODE_ENTROPY 5, 650), (Reg.RX_CD_HEAD_HEAD 5, 17500),
      (Reg.RX_CD_FREQ_CARRIER 5, 193400)]).dev.gdStatic 5 = 35273732 := by decide +kernel

/-- ESNR 17.0 dB and B2B_SNR 22.0 dB give OSNR 30.58 dB in the nominal mode (chapter 4, after R128). -/
theorem test_osnr : osnrOf 1700 220 2 64 650 = some 3058 := by decide +kernel

/-- Seven retired channels: step 1 stops capture and D falls to 3,130 GB/s; ten: steps 1, 2 and 5, and CAP becomes 1,507 (chapter 1, after R27). -/
theorem test_hbm : (let d := (running [(Reg.HBM_BUDGET_USABLE, 3206), (Reg.PAR_LOAD_TERM_GBPS, 1200), (Reg.BE_CAP_CAP_LIMIT, 1600), (Reg.CAP_BUF_SIZE_GB, 4)]).dev
    d.demandFor 0 = 3290 ∧ d.hbmSteps = 1 ∧ d.demandFor 1 = 3130) ∧
    (let d := (running [(Reg.HBM_BUDGET_USABLE, 3037), (Reg.PAR_LOAD_TERM_GBPS, 1200), (Reg.BE_CAP_CAP_LIMIT, 1600), (Reg.CAP_BUF_SIZE_GB, 4)]).dev
    d.hbmSteps = 0x13 ∧ d.capFor 0x13 0x13 = 1507) := by decide +kernel

/-- The IV and the AAD of course 18 with M = 32 (chapter 10, after Table 10.2). -/
theorem test_cipher_iv : cipherIv 0 18 (7 * 2 ^ 48) = [0x00, 0x12, 0, 0, 0, 0x07, 0, 0, 0, 0, 0, 0] ∧
    cipherAad 18 0xA3F 0 32 = [0x00, 0x12, 0, 0, 0, 0, 0x0A, 0x3F, 0, 0x1F, 0, 0, 0, 0, 0, 0] := by decide

/-- Counter 40, chained into 41, wraps to 744 and carries (chapter 16, after R469). -/
theorem test_counter_wrap :
    let d := ((runningWith [(Reg.CNT_CFG_CHAIN 40, 1)] fun d => { d with perf := ⟨[(40, 0xFFFFFFFFFF00), (41, 5)]⟩ }).dev.addCounter 40 1000).1
    d.counter 40 = 744 ∧ d.counter 41 = 6 := by decide

/-- A pop of an item of PRIO 5 into slot 0 under SEQ 10 returns 0xD000000A (chapter 15, after R440). -/
theorem test_pop_handle :
    (((running [(Reg.Q_STAT_NEXT_SEQ 2, 10), (Reg.Q_LAND_SLOTS_M1 2, 3)]).dev.setQu 2 { (Dev.reset.qu 2) with waiting := [⟨5, 0, 0, false, 0, 0, [1]⟩] }).popItem 2 ⟨5, 0, 0, false, 0, 0, [1]⟩).readData =
      [0xD000000A] := by decide

/-- The check values of CRC-32 (IEEE 802.3) and of CRC-16 with start 0xFFFF over the digits 1 to 9, from the public standards (log 4). -/
theorem test_crc : crc32 ((List.range 9).map fun k => BitVec.ofNat 8 (0x31 + k)) = 0xCBF43926 ∧
    crc16 0xFFFF ((List.range 9).map fun k => BitVec.ofNat 8 (0x31 + k)) = 0x29B1 := by decide +kernel

/-- R134's generator m1(x) × m3(x), worked by hand, and the parity of the last information bit: the remainder of x^22. -/
theorem test_bch : bchG = 0x4905B1 ∧ bchParity (List.replicate 725 false ++ [true]) = 0x0905B1 := by decide +kernel

/-- Output bits 4 and 9 of a group are bit 4,613 of codeword 0 and bit 9,226 of codeword 1 (R137). -/
theorem test_interleaver : interleaved 4 = (0, 4613) ∧ interleaved 9 = (1, 9226) := by decide

/-- PRBS7 repeats after 127 bits and not before, and has 64 ones in them (ITU-T O.150, log 202). -/
theorem test_prbs : prbsRun 0 134 1 = prbsRun 0 127 1 ++ (prbsRun 0 127 1).take 7 ∧ (prbsRun 0 127 1).countP id = 64 := by decide +kernel

/-- The balls of CL37 and of LN5_ADC_YI (chapter 20, after R555). -/
theorem test_balls : clientBall 37 true true = ⟨23, 95⟩ ∧ clientBall 37 true false = ⟨24, 95⟩ ∧ clientBall 37 false true = ⟨23, 92⟩ ∧
    clientBall 37 false false = ⟨24, 92⟩ ∧ converterBall 5 2 false true = ⟨91, 39⟩ ∧ converterBall 5 2 false false = ⟨91, 40⟩ := by decide

/-- Until the Finder has booted TSTATE reads 0b111 and no open-drain output is driven (R550). -/
theorem test_pins : State.reset.dev.tstate = 7 ∧ State.reset.dev.drivenLow .alert = false := by decide

/-- AES-256 on the vector of FIPS 197, appendix C.3 (log 4). -/
theorem test_aes : aes256 ((List.range 32).map fun k => BitVec.ofNat 8 k) ((List.range 16).map fun k => BitVec.ofNat 8 (0x11 * k)) =
    [0x8E, 0xA2, 0xB7, 0xCA, 0x51, 0x67, 0x45, 0xBF, 0xEA, 0xFC, 0x49, 0x90, 0x4B, 0x49, 0x60, 0x89] := by decide +kernel

/-- No row of the table gives bits, so no word spells a command. -/
theorem test_no_bits : decodeTableWord 32 0 = none ∧ State.reset.withFetchWord 32 0 = State.reset := by decide

/-- A command at the front of the queue runs, and leaves the queue. -/
theorem test_step : ∃ t, step { running [] with pending := [.registerWrite 0x091 0x040 5, .frameTick []] } = .next t ∧ t.pending = [.frameTick []] :=
  ⟨_, rfl, rfl⟩

/-! ## WellFormed refuses -/

theorem test_wf_register : (Instr.registerWrite 0x091 0x042 0).wellFormed = false := by decide
theorem test_wf_boundary : (Instr.boundaryApply 0x091 .hub).wellFormed = false := by decide
theorem test_wf_insn : (Instr.parsePassEnd 0 0 .found .found .found .found .found .found [.layer (.imm 0) (.imm 20) 5] false).wellFormed = false := by decide
theorem test_wf_lookup : (Instr.lookupResult 0 0 .found .found [.layer (.imm 0) (.imm 20) 5] false).wellFormed = false := by decide
theorem test_wf_group : (Instr.codewordDecode 0 0 [] []).wellFormed = false := by decide
theorem test_wf_header : (Instr.fingerHeaderDecoded 0 0 [1]).wellFormed = false := by decide
theorem test_wf_levels : (Instr.relayLaneFrameReceive 0 0 [4] 0 0).wellFormed = false := by decide
theorem test_wf_mgmt : (Instr.mgmtAccess 0 true 1 0).wellFormed = false := by decide
theorem test_wf_window : (Instr.bar2WindowAccess (.read 0x3FFFFFFF 2 false)).wellFormed = false := by decide
theorem test_wf_collect : (Instr.chainCollectComplete [⟨64, none, none⟩]).wellFormed = false := by decide
theorem test_wf_startup : (Instr.startupStepComplete ⟨true, [], 0, [], [54], 0⟩).wellFormed = false := by decide
theorem test_wf_therm : (Instr.thermSample [300]).wellFormed = false := by decide
theorem test_wf_fe : (Instr.feReadComplete 0 (some [1])).wellFormed = false := by decide

/-! ## Witnesses of the hypotheses -/

/-- States and operands that meet the hypotheses of each clause of TransmitEnableAndDisable. -/
theorem test_witness_TransmitEnableAndDisable :
    (∃ n : Fin 8, ∃ s : State, s.Inv ∧ s.dev.pageLive (linePage n 0) = true ∧ s.dev.pageInTest (linePage n 0) = false ∧ (s.dev.txTwin n = false ∨ n.val % 2 = 0) ∧ s.dev.txFaulty n = false ∧ s.dev.txs n = txDark ∧ (({ s.dev.wr (Reg.TX_CTRL_ENABLE n) 1 with xqStopped := s.dev.xqStopped.filter fun q => !((s.dev.txMembers n).map (8 + ·)).contains q } : Dev).settleCourses).mayPrep n = true) ∧
    (∃ n : Fin 8, ∃ s : State, s.Inv ∧ s.dev.pageLive (linePage n 0) = true ∧ s.dev.pageInTest (linePage n 0) = false ∧ (s.dev.txTwin n = false ∨ n.val % 2 = 0) ∧ s.dev.txFaulty n = false ∧ s.dev.txs n = txDark ∧ (({ s.dev.wr (Reg.TX_CTRL_ENABLE n) 1 with xqStopped := s.dev.xqStopped.filter fun q => !((s.dev.txMembers n).map (8 + ·)).contains q } : Dev).settleCourses).mayPrep n = true) ∧
    (∃ n : Fin 8, ∃ s : State, s.Inv ∧ s.dev.pageLive (linePage n 0) = true ∧ s.dev.pageInTest (linePage n 0) = false ∧ (s.dev.txTwin n = false ∨ n.val % 2 = 0) ∧ s.dev.txFaulty n = false ∧ s.dev.txs n = txDark ∧ (({ s.dev.wr (Reg.TX_CTRL_ENABLE n) 1 with xqStopped := s.dev.xqStopped.filter fun q => !((s.dev.txMembers n).map (8 + ·)).contains q } : Dev).settleCourses).mayPrep n = true) ∧
    (∃ n : Fin 8, ∃ s : State, s.Inv ∧ s.dev.pageLive (linePage n 0) = true ∧ s.dev.pageInTest (linePage n 0) = false ∧ (s.dev.txTwin n = false ∨ n.val % 2 = 0) ∧ s.dev.txFaulty n = false ∧ s.dev.txs n = txDark ∧ (({ s.dev.wr (Reg.TX_CTRL_ENABLE n) 1 with xqStopped := s.dev.xqStopped.filter fun q => !((s.dev.txMembers n).map (8 + ·)).contains q } : Dev).settleCourses).mayPrep n = false) ∧
    (∃ n : Fin 8, ∃ s : State, s.Inv ∧ s.dev.pageLive (linePage n 0) = true ∧ s.dev.pageInTest (linePage n 0) = false ∧ (s.dev.txTwin n = false ∨ n.val % 2 = 0) ∧ s.dev.txFaulty n = false ∧ s.dev.txs n ≠ txDark) ∧
    (∃ n : Fin 8, ∃ s : State, s.Inv ∧ s.dev.pageLive (linePage n 0) = true ∧ s.dev.pageInTest (linePage n 0) = false ∧ (s.dev.txTwin n = false ∨ n.val % 2 = 0) ∧ s.dev.txFaulty n = false ∧ s.dev.txs n ≠ txDark) ∧
    (∃ n : Fin 8, ∃ s : State, s.Inv ∧ s.dev.pageLive (linePage n 0) = true ∧ s.dev.pageInTest (linePage n 0) = false ∧ (s.dev.txTwin n = false ∨ n.val % 2 = 0) ∧ s.dev.txFaulty n = false ∧ s.dev.txs n ≠ txDark) ∧
    (∃ n : Fin 8, ∃ s : State, s.Inv ∧ s.dev.pageLive (linePage n 0) = true ∧ s.dev.pageInTest (linePage n 0) = false ∧ (s.dev.txFaulty n = true ∨ (s.dev.txTwin n = true ∧ n.val % 2 = 1))) ∧
    (∃ n : Fin 8, ∃ s : State, s.Inv ∧ s.dev.pageLive (linePage n 0) = true ∧ s.dev.pageInTest (linePage n 0) = false ∧ (s.dev.txFaulty n = true ∨ (s.dev.txTwin n = true ∧ n.val % 2 = 1))) ∧
    (∃ n : Fin 8, ∃ s : State, s.Inv ∧ s.dev.pageLive (linePage n 0) = true ∧ s.dev.pageInTest (linePage n 0) = false ∧ (s.dev.txTwin n = false ∨ n.val % 2 = 0) ∧ ((s.dev.txMembers n).all fun m => decide (s.dev.txs m ≠ txPrep)) = true) ∧
    (∃ n : Fin 8, ∃ s : State, s.Inv ∧ s.dev.pageLive (linePage n 0) = true ∧ s.dev.pageInTest (linePage n 0) = false ∧ (s.dev.txTwin n = false ∨ n.val % 2 = 0) ∧ ((s.dev.txMembers n).all fun m => decide (s.dev.txs m ≠ txPrep)) = true) ∧
    (∃ n : Fin 8, ∃ s : State, s.Inv ∧ s.dev.pageLive (linePage n 0) = true ∧ s.dev.pageInTest (linePage n 0) = false ∧ (s.dev.txTwin n = false ∨ n.val % 2 = 0) ∧ ((s.dev.txMembers n).all fun m => decide (s.dev.txs m ≠ txPrep)) = true) ∧
    (∃ n : Fin 8, ∃ s : State, s.Inv ∧ s.dev.pageLive (linePage n 0) = true ∧ s.dev.pageInTest (linePage n 0) = false ∧ (s.dev.txTwin n = false ∨ n.val % 2 = 0)) ∧
    (∃ n : Fin 8, ∃ s : State, s.Inv ∧ s.dev.pageLive (linePage n 0) = true ∧ s.dev.pageInTest (linePage n 0) = false ∧ (s.dev.txTwin n = false ∨ n.val % 2 = 0)) ∧
    (∃ n : Fin 8, ∃ s : State, s.Inv ∧ s.dev.pageLive (linePage n 0) = true ∧ s.dev.pageInTest (linePage n 0) = false ∧ s.dev.txTwin n = true ∧ n.val % 2 = 1) ∧
    (∃ n : Fin 8, ∃ v : Word, ∃ s : State, s.Inv ∧ s.dev.pageLive (linePage n 0) = true ∧ s.dev.pageInTest (linePage n 0) = false ∧ (if getBits v 8 24 ≠ 0 then (s.dev.setWord (Reg.TX_FAULT_PLL_UNLOCK n).cell (s.dev.word (Reg.TX_FAULT_PLL_UNLOCK n).cell &&& ~~~ (v &&& 0x37))).viol (linePage n 0) else s.dev.setWord (Reg.TX_FAULT_PLL_UNLOCK n).cell (s.dev.word (Reg.TX_FAULT_PLL_UNLOCK n).cell &&& ~~~ (v &&& 0x37))).mayPrep n = false) ∧
    (∃ n : Fin 8, ∃ v : Word, ∃ s : State, s.Inv ∧ s.dev.pageLive (linePage n 0) = true ∧ s.dev.pageInTest (linePage n 0) = false ∧ (if getBits v 8 24 ≠ 0 then (s.dev.setWord (Reg.TX_FAULT_PLL_UNLOCK n).cell (s.dev.word (Reg.TX_FAULT_PLL_UNLOCK n).cell &&& ~~~ (v &&& 0x37))).viol (linePage n 0) else s.dev.setWord (Reg.TX_FAULT_PLL_UNLOCK n).cell (s.dev.word (Reg.TX_FAULT_PLL_UNLOCK n).cell &&& ~~~ (v &&& 0x37))).mayPrep n = false) ∧
    (∃ n : Fin 8, ∃ v : Word, ∃ s : State, s.Inv ∧ s.dev.pageLive (linePage n 0) = true ∧ s.dev.pageInTest (linePage n 0) = false ∧ (if getBits v 8 24 ≠ 0 then (s.dev.setWord (Reg.TX_FAULT_PLL_UNLOCK n).cell (s.dev.word (Reg.TX_FAULT_PLL_UNLOCK n).cell &&& ~~~ (v &&& 0x37))).viol (linePage n 0) else s.dev.setWord (Reg.TX_FAULT_PLL_UNLOCK n).cell (s.dev.word (Reg.TX_FAULT_PLL_UNLOCK n).cell &&& ~~~ (v &&& 0x37))).mayPrep n = true) ∧
    (∃ n : Fin 8, ∃ v : Word, ∃ s : State, s.Inv ∧ s.dev.pageLive (linePage n 0) = true ∧ s.dev.pageInTest (linePage n 0) = false ∧ (if getBits v 8 24 ≠ 0 then (s.dev.setWord (Reg.TX_FAULT_PLL_UNLOCK n).cell (s.dev.word (Reg.TX_FAULT_PLL_UNLOCK n).cell &&& ~~~ (v &&& 0x37))).viol (linePage n 0) else s.dev.setWord (Reg.TX_FAULT_PLL_UNLOCK n).cell (s.dev.word (Reg.TX_FAULT_PLL_UNLOCK n).cell &&& ~~~ (v &&& 0x37))).mayPrep n = true) :=
  ⟨⟨0, running [(Reg.LCAL_STAT_DAC_VALID 0, 1)], by decide⟩,
    ⟨7, running [(Reg.LCAL_STAT_DAC_VALID 7, 1)], by decide⟩,
    ⟨2, running [(Reg.TX_CTRL_TWIN 2, 1), (Reg.LCAL_STAT_DAC_VALID 2, 1), (Reg.LCAL_STAT_DAC_VALID 3, 1)], by decide⟩,
    ⟨2, runningWith [] fun d => { d with xqStopped := [9, 10] }, by decide⟩,
    ⟨3, running [(Reg.TX_STATE_STATE 3, txRampDown)], by decide⟩,
    ⟨2, running [(Reg.TX_CTRL_TWIN 2, 1), (Reg.TX_STATE_STATE 2, txRampDown), (Reg.TX_STATE_STATE 3, txRampDown)], by decide⟩,
    ⟨2, runningWith [(Reg.TX_STATE_STATE 2, txLit), (Reg.MAP_EN 5, 1)] fun d => { d with xqStopped := [9, 10] }, by decide⟩,
    ⟨3, running [(Reg.TX_CTRL_TWIN 2, 1)], by decide⟩,
    ⟨4, running [(Reg.TX_FAULT_PLL_UNLOCK 4, 1)], by decide⟩,
    ⟨5, running [(Reg.TX_STATE_STATE 5, txLit), (Reg.TX_CTRL_ENABLE 5, 1)], by decide⟩,
    ⟨2, running [(Reg.TX_CTRL_TWIN 2, 1), (Reg.TX_STATE_STATE 2, txLit), (Reg.TX_STATE_STATE 3, txLit), (Reg.TX_CTRL_ENABLE 2, 1)], by decide⟩,
    ⟨1, running [(Reg.TX_CTRL_ENABLE 1, 1)], by decide⟩,
    ⟨5, running [(Reg.TX_STATE_STATE 5, txPrep), (Reg.TX_CTRL_ENABLE 5, 1)], by decide⟩,
    ⟨2, running [(Reg.TX_CTRL_TWIN 2, 1), (Reg.TX_STATE_STATE 2, txPrep), (Reg.TX_STATE_STATE 3, txPrep), (Reg.TX_CTRL_ENABLE 2, 1)], by decide⟩,
    ⟨3, running [(Reg.TX_CTRL_TWIN 2, 1)], by decide⟩,
    ⟨0, 0xFF, running [(Reg.TX_FAULT_PLL_UNLOCK 0, 1)], by decide⟩,
    ⟨7, 0x101, running [(Reg.TX_FAULT_PLL_UNLOCK 7, 1)], by decide⟩,
    ⟨0, 1, running [(Reg.TX_FAULT_PLL_UNLOCK 0, 1), (Reg.TX_CTRL_ENABLE 0, 1), (Reg.LCAL_STAT_DAC_VALID 0, 1)], by decide⟩,
    ⟨3, 1, running [(Reg.TX_CTRL_TWIN 2, 1), (Reg.TX_FAULT_PLL_UNLOCK 3, 1), (Reg.TX_CTRL_ENABLE 2, 1), (Reg.LCAL_STAT_DAC_VALID 2, 1), (Reg.LCAL_STAT_DAC_VALID 3, 1)], by decide⟩⟩

/-- States and operands that meet the hypotheses of each clause of TransmitStateMachineEvents. -/
theorem test_witness_TransmitStateMachineEvents :
    (∃ n : Fin 8, ∃ s : State, s.Inv ∧ ((s.dev.txMembers n).all fun m => decide (s.dev.txs m = txPrep) && !(s.dev.fee m).forPrep) = true ∧ s.dev.power.resetDue = false) ∧
    (∃ n : Fin 8, ∃ s : State, s.Inv ∧ ((s.dev.txMembers n).all fun m => decide (s.dev.txs m = txPrep) && !(s.dev.fee m).forPrep) = true ∧ s.dev.power.resetDue = false) ∧
    (∃ n : Fin 8, ∃ s : State, s.Inv ∧ ((s.dev.txMembers n).all fun m => decide (s.dev.txs m = txPrep) && !(s.dev.fee m).forPrep) = true ∧ s.dev.power.resetDue = true) ∧
    (∃ n : Fin 8, ∃ s : State, s.Inv ∧ ((s.dev.txMembers n).all fun m => decide (s.dev.txs m = txPrep) && !(s.dev.fee m).forPrep) = false) ∧
    (∃ s : State, s.Inv) ∧
    (∃ s : State, s.Inv) ∧
    (∃ n : Fin 8, ∃ s : State, s.Inv ∧ s.dev.txTwin n = true ∧ s.dev.txs (2 * (n.val / 2)) = txRampUp ∧ s.dev.txs (2 * (n.val / 2) + 1) = txRampUp) ∧
    (∃ n : Fin 8, ∃ s : State, s.Inv ∧ s.dev.txTwin n = false ∧ s.dev.txs n = txRampDown ∧ s.dev.on (Reg.TX_CTRL_ENABLE n) = false ∧ s.dev.later = [] ∧ s.dev.power.resetDue = false ∧ s.dev.mayPrep (n.val ^^^ 1) = false ∧ s.dev.on (Reg.COLREC_PENDING n) = false ∧ s.dev.on (Reg.COLREC_PENDING (8 + n)) = false) ∧
    (∃ s : State, s.Inv) ∧
    (∃ s : State, s.Inv) ∧
    (∃ n : Fin 8, ∃ s : State, s.Inv ∧ s.dev.txTwin n = false ∧ s.dev.txs n = txMuted ∧ s.dev.on (Reg.TX_CTRL_ENABLE n) = false ∧ s.dev.later = [] ∧ s.dev.power.resetDue = false ∧ s.dev.mayPrep (n.val ^^^ 1) = false ∧ s.dev.on (Reg.COLREC_PENDING n) = false ∧ s.dev.on (Reg.COLREC_PENDING (8 + n)) = false) ∧
    (∃ s : State, s.Inv) ∧
    (∃ s : State, s.Inv) ∧
    (∃ n : Fin 8, ∃ s : State, s.Inv ∧ s.dev.txTwin n = false ∧ s.dev.txs n = txPrep ∧ s.dev.later = [] ∧ s.dev.power.resetDue = false ∧ s.dev.mayPrep (n.val ^^^ 1) = false ∧ s.dev.on (Reg.COLREC_PENDING n) = false ∧ s.dev.on (Reg.COLREC_PENDING (8 + n)) = false) ∧
    (∃ s : State, s.Inv) ∧
    (∃ n : Fin 8, ∃ s : State, s.Inv ∧ s.dev.txTwin n = false ∧ s.dev.txRamping n = true) ∧
    (∃ n : Fin 8, ∃ s : State, s.Inv ∧ s.dev.txTwin n = false ∧ s.dev.txRamping n = true) ∧
    (∃ n : Fin 8, ∃ s : State, s.Inv ∧ s.dev.txRamping n = true) ∧
    (∃ n : Fin 8, ∃ s : State, s.Inv ∧ s.dev.txs n = txPrep) ∧
    (∃ n : Fin 8, ∃ s : State, s.Inv ∧ (s.dev.txs n = txDark ∨ s.dev.txs n = txMuted)) :=
  ⟨⟨4, running [(Reg.TX_STATE_STATE 4, txPrep), (Reg.TX_PD_CTRL_NL_EN 4, 1), (Reg.TX_PD_STAT_FE_VALID 4, 1)], by decide⟩,
    ⟨3, running [(Reg.TX_CTRL_TWIN 2, 1), (Reg.TX_STATE_STATE 2, txPrep), (Reg.TX_STATE_STATE 3, txPrep)], by decide⟩,
    ⟨4, runningWith [(Reg.TX_STATE_STATE 4, txPrep)] fun d => { d with power := { d.power with resetDue := true } }, by decide⟩,
    ⟨4, running [], by decide⟩,
    ⟨running [(Reg.TX_STATE_STATE 0, txRampUp)], by decide⟩,
    ⟨running [(Reg.TX_STATE_STATE 2, txRampUp), (Reg.TX_STATE_STATE 3, txRampUp), (Reg.TX_CTRL_TWIN 2, 1)], by decide⟩,
    ⟨3, running [(Reg.TX_STATE_STATE 2, txRampUp), (Reg.TX_STATE_STATE 3, txRampUp), (Reg.TX_CTRL_TWIN 2, 1)], by decide⟩,
    ⟨6, running [(Reg.TX_STATE_STATE 6, txRampDown), (Reg.TX_STATE_FAST 6, 1)], by decide⟩,
    ⟨runningWith [(Reg.TX_STATE_STATE 6, txRampDown), (Reg.TX_STATE_FAST 6, 1)] fun d => { d with power := { d.power with resetDue := true, rampers := [6] } }, by decide⟩,
    ⟨running [(Reg.TX_CTRL_TWIN 2, 1), (Reg.TX_STATE_STATE 2, txRampDown), (Reg.TX_STATE_STATE 3, txRampDown)], by decide⟩,
    ⟨1, running [(Reg.TX_STATE_STATE 1, txMuted)], by decide⟩,
    ⟨running [(Reg.TX_CTRL_TWIN 2, 1), (Reg.TX_STATE_STATE 3, txMuted)], by decide⟩,
    ⟨running [], by decide⟩,
    ⟨1, running [(Reg.TX_STATE_STATE 1, txPrep), (Reg.TX_CTRL_ENABLE 1, 1)], by decide⟩,
    ⟨running [(Reg.TX_CTRL_TWIN 2, 1), (Reg.TX_STATE_STATE 2, txPrep), (Reg.TX_STATE_STATE 3, txPrep)], by decide⟩,
    ⟨1, running [(Reg.TX_STATE_STATE 1, txLit), (Reg.TX_CTRL_ENABLE 1, 1)], by decide⟩,
    ⟨1, running [(Reg.TX_STATE_STATE 1, txLit), (Reg.MAP_EN 5, 1)], by decide⟩,
    ⟨3, running [(Reg.TX_CTRL_TWIN 2, 1), (Reg.TX_STATE_STATE 2, txLit), (Reg.TX_STATE_STATE 3, txLit)], by decide⟩,
    ⟨3, running [(Reg.TX_CTRL_TWIN 2, 1), (Reg.TX_STATE_STATE 2, txPrep), (Reg.TX_STATE_STATE 3, txPrep)], by decide⟩,
    ⟨3, running [], by decide⟩⟩

/-- States and operands that meet the hypotheses of each clause of TransmitClippingAndPredistortion. -/
theorem test_witness_TransmitClippingAndPredistortion :
    (∃ s : State, s.Inv) ∧
    (∃ n : Fin 8, ∃ s : State, s.Inv ∧ s.dev.pageLive (linePage n 5) = true ∧ s.dev.pageInTest (linePage n 5) = false) ∧
    (∃ n : Fin 8, ∃ s : State, s.Inv ∧ s.dev.pageLive (linePage n 4) = true ∧ s.dev.pageInTest (linePage n 4) = false ∧ s.dev.rd (Reg.TX_PD_ADDR_INDEX n) < 296) ∧
    (∃ n : Fin 8, ∃ s : State, s.Inv ∧ s.dev.pageLive (linePage n 4) = true ∧ s.dev.pageInTest (linePage n 4) = false ∧ s.dev.rd (Reg.TX_PD_ADDR_INDEX n) < 296) ∧
    (∃ n : Fin 8, ∃ s : State, s.Inv ∧ s.dev.pageLive (linePage n 4) = true ∧ s.dev.pageInTest (linePage n 4) = false ∧ 296 ≤ s.dev.rd (Reg.TX_PD_ADDR_INDEX n)) :=
  ⟨⟨running [], by decide⟩,
    ⟨2, running [(Reg.TX_CLIP_CNT 2, 99)], by decide⟩,
    ⟨2, running [(Reg.TX_PD_ADDR_INDEX 2, 295)], by decide⟩,
    ⟨2, running [], by decide⟩,
    ⟨2, running [(Reg.TX_PD_ADDR_INDEX 2, 296)], by decide⟩⟩

/-- States and operands that meet the hypotheses of each clause of ReceiveEnableAndSampling. -/
theorem test_witness_ReceiveEnableAndSampling :
    (∃ n : Fin 8, ∃ s : State, s.Inv ∧ s.dev.pageLive (linePage n 8) = true ∧ s.dev.pageInTest (linePage n 8) = false ∧ s.dev.acq n = acqIdle ∧ (s.dev.rxe n).pllRun = false ∧ s.dev.mayReceive n = true ∧ s.dev.on (Reg.LCAL_STAT_ADC_VALID n) = true ∧ s.dev.on (Reg.RX_SAMP_STAT_PLL_LOCK n) = false) ∧
    (∃ n : Fin 8, ∃ s : State, s.Inv ∧ s.dev.pageLive (linePage n 8) = true ∧ s.dev.pageInTest (linePage n 8) = false ∧ s.dev.acq n = acqIdle ∧ (s.dev.rxe n).pllRun = false ∧ s.dev.mayReceive n = true ∧ s.dev.on (Reg.LCAL_STAT_ADC_VALID n) = true ∧ s.dev.on (Reg.RX_SAMP_STAT_PLL_LOCK n) = false) ∧
    (∃ n : Fin 8, ∃ s : State, s.Inv ∧ s.dev.pageLive (linePage n 8) = true ∧ s.dev.pageInTest (linePage n 8) = false ∧ s.dev.acq n ≠ acqIdle ∧ s.dev.acq n ≠ acqLocked ∧ (s.dev.cpe n).run = none ∧ (s.dev.cpe n).drains = [] ∧ s.dev.on (Reg.COLREC_PENDING n) = false ∧ s.dev.on (Reg.COLREC_PENDING (8 + n)) = false) ∧
    (∃ n : Fin 8, ∃ s : State, s.Inv ∧ (s.dev.rxe n).pllRun = true ∧ s.dev.on (Reg.RX_SAMP_STAT_PLL_LOCK n) = false ∧ s.dev.acq n = acqWaitSamples ∧ (s.dev.rxe n).present = false) ∧
    (∃ n : Fin 8, ∃ s : State, s.Inv ∧ (s.dev.rxe n).pllRun = true ∧ s.dev.on (Reg.RX_SAMP_STAT_PLL_LOCK n) = false ∧ (s.dev.rxe n).late = false) ∧
    (∃ n : Fin 8, ∃ s : State, s.Inv ∧ s.dev.on (Reg.RX_SAMP_STAT_PLL_LOCK n) = true ∧ s.dev.acq n ≠ acqLocked ∧ (s.dev.cpe n).run = none ∧ (s.dev.cpe n).drains = []) ∧
    (∃ n : Fin 8, ∃ s : State, s.Inv ∧ s.dev.pageLive (linePage n 8) = true ∧ s.dev.pageInTest (linePage n 8) = false) ∧
    (∃ n : Fin 8, ∃ s : State, s.Inv ∧ s.dev.pageLive (linePage n 8) = true ∧ s.dev.pageInTest (linePage n 8) = false) ∧
    (∃ n : Fin 8, ∃ s : State, s.Inv ∧ s.dev.pageLive (linePage n 8) = true ∧ s.dev.pageInTest (linePage n 8) = false) ∧
    (∃ n : Fin 8, ∃ s : State, s.Inv ∧ s.dev.pageLive (linePage n 8) = true ∧ s.dev.pageInTest (linePage n 8) = false) ∧
    (∃ s : State, s.Inv) ∧
    (∃ s : State, s.Inv) ∧
    (∃ n : Fin 8, ∃ s : State, s.Inv ∧ ((s.dev.rxe n).pllRun = false ∨ s.dev.on (Reg.RX_SAMP_STAT_PLL_LOCK n) = true ∨ (s.dev.rxe n).late = true)) ∧
    (∃ s : State, s.Inv) :=
  ⟨⟨4, running [(Reg.LCAL_STAT_ADC_VALID 4, 1)], by decide⟩,
    ⟨7, running [(Reg.LCAL_STAT_ADC_VALID 7, 1), (Reg.RX_RESAMP_MODE 7, 1)], by decide⟩,
    ⟨1, running [(Reg.ACQ_STAT_STATE 1, acqPilot), (Reg.RX_SAMP_STAT_PLL_LOCK 1, 1), (Reg.RX_RESAMP_STAT_TR_LOCK 1, 1)], by decide⟩,
    ⟨2, runningWith [(Reg.ACQ_STAT_STATE 2, acqWaitSamples)] fun d => d.setRxe 2 { d.rxe 2 with pllRun := true, late := true }, by decide⟩,
    ⟨2, runningWith [] fun d => d.setRxe 2 { d.rxe 2 with pllRun := true }, by decide⟩,
    ⟨6, running [(Reg.ACQ_STAT_STATE 6, acqCarrier), (Reg.RX_SAMP_STAT_PLL_LOCK 6, 1), (Reg.RX_RESAMP_STAT_TR_LOCK 6, 1)], by decide⟩,
    ⟨4, running [(Reg.RX_CTRL_ENABLE 4, 1)], by decide⟩,
    ⟨5, running [(Reg.ACQ_STAT_STATE 5, acqLocked)], by decide⟩,
    ⟨4, running [(Reg.ACQ_STAT_STATE 4, acqLocked), (Reg.RX_SAMP_STAT_PLL_LOCK 4, 1)], by decide⟩,
    ⟨5, running [], by decide⟩,
    ⟨runningWith [(Reg.ACQ_STAT_STATE 2, acqWaitSamples)] fun d => d.setRxe 2 { d.rxe 2 with pllRun := true, present := true }, by decide⟩,
    ⟨running [], by decide⟩,
    ⟨2, running [], by decide⟩,
    ⟨running [(Reg.ACQ_STAT_STATE 6, acqLocked), (Reg.RX_SAMP_STAT_PLL_LOCK 6, 1), (Reg.RX_RESAMP_STAT_TR_LOCK 6, 1)], by decide⟩⟩

/-- States and operands that meet the hypotheses of each clause of ReceiveFrontWindowsAndTiming. -/
theorem test_witness_ReceiveFrontWindowsAndTiming :
    (∃ s : State, s.Inv) ∧
    (∃ s : State, s.Inv) ∧
    (∃ n : Fin 8, ∃ s : State, s.Inv ∧ s.dev.pageLive (linePage n 9) = true ∧ s.dev.pageInTest (linePage n 9) = false) ∧
    (∃ n : Fin 8, ∃ s : State, s.Inv ∧ s.dev.on (Reg.RX_SAMP_STAT_PLL_LOCK n) = true ∧ s.dev.on (Reg.RX_RESAMP_STAT_TR_LOCK n) = false ∧ s.dev.acq n = acqTiming) ∧
    (∃ n : Fin 8, ∃ s : State, s.Inv ∧ s.dev.on (Reg.RX_RESAMP_STAT_TR_LOCK n) = true ∧ (s.dev.acq n = acqFreq ∨ s.dev.acq n = acqCd ∨ s.dev.acq n = acqTiming ∨ s.dev.acq n = acqPilot ∨ s.dev.acq n = acqCarrier)) ∧
    (∃ n : Fin 8, ∃ s : State, s.Inv ∧ s.dev.on (Reg.RX_RESAMP_STAT_TR_LOCK n) = true ∧ s.dev.acq n = acqConverge ∧ (s.dev.rxe n).onKept = false) ∧
    (∃ n : Fin 8, ∃ s : State, s.Inv ∧ s.dev.on (Reg.RX_SAMP_STAT_PLL_LOCK n) = true) ∧
    (∃ s : State, s.Inv) ∧
    (∃ n : Fin 8, ∃ s : State, s.Inv ∧ s.dev.on (Reg.RX_RESAMP_STAT_TR_HOLD n) = true ∧ s.dev.on (Reg.RX_RESAMP_STAT_TR_LOCK n) = true ∧ s.dev.acq n = acqConverge ∧ (s.dev.rxe n).onKept = false) ∧
    (∃ s : State, s.Inv) ∧
    (∃ n : Fin 8, ∃ s : State, s.Inv ∧ s.dev.on (Reg.RX_RESAMP_STAT_TR_LOCK n) = true ∧ s.dev.acq n = acqLocked) ∧
    (∃ n : Fin 8, ∃ s : State, s.Inv ∧ s.dev.acq n ≠ acqLocked) ∧
    (∃ n : Fin 8, ∃ s : State, s.Inv ∧ s.dev.acq n ≠ acqLocked) ∧
    (∃ n : Fin 8, ∃ s : State, s.Inv ∧ s.dev.on (Reg.RX_SAMP_STAT_PLL_LOCK n) = false) ∧
    (∃ n : Fin 8, ∃ s : State, s.Inv ∧ s.dev.on (Reg.RX_RESAMP_STAT_TR_HOLD n) = true ∧ s.dev.on (Reg.RX_RESAMP_STAT_TR_LOCK n) = true ∧ s.dev.acq n = acqLocked) ∧
    (∃ n : Fin 8, ∃ s : State, s.Inv ∧ s.dev.acq n ≠ acqLocked) :=
  ⟨⟨running [(Reg.RX_SKIQ_CTRL_IQ_TRACK 0, 1), (Reg.RX_SAMP_STAT_PLL_LOCK 0, 1)], by decide⟩,
    ⟨running [], by decide⟩,
    ⟨0, running [(Reg.RX_OVR_CNT 0, 9)], by decide⟩,
    ⟨1, running [(Reg.RX_SAMP_STAT_PLL_LOCK 1, 1), (Reg.ACQ_STAT_STATE 1, acqTiming)], by decide⟩,
    ⟨1, running [(Reg.RX_RESAMP_STAT_TR_LOCK 1, 1), (Reg.ACQ_STAT_STATE 1, acqPilot)], by decide⟩,
    ⟨1, running [(Reg.RX_RESAMP_STAT_TR_LOCK 1, 1), (Reg.ACQ_STAT_STATE 1, acqConverge)], by decide⟩,
    ⟨3, running [(Reg.RX_SAMP_STAT_PLL_LOCK 3, 1)], by decide⟩,
    ⟨running [(Reg.RX_RESAMP_STAT_TR_HOLD 3, 1)], by decide⟩,
    ⟨1, running [(Reg.RX_RESAMP_STAT_TR_LOCK 1, 1), (Reg.ACQ_STAT_STATE 1, acqConverge), (Reg.RX_RESAMP_STAT_TR_HOLD 1, 1)], by decide⟩,
    ⟨running [(Reg.RX_SAMP_STAT_PLL_LOCK 1, 1), (Reg.ACQ_STAT_STATE 1, acqLocked)], by decide⟩,
    ⟨1, running [(Reg.RX_RESAMP_STAT_TR_LOCK 1, 1), (Reg.ACQ_STAT_STATE 1, acqLocked)], by decide⟩,
    ⟨1, running [(Reg.RX_RESAMP_STAT_TR_LOCK 1, 1), (Reg.ACQ_STAT_STATE 1, acqHold)], by decide⟩,
    ⟨1, running [], by decide⟩,
    ⟨3, running [], by decide⟩,
    ⟨1, running [(Reg.RX_RESAMP_STAT_TR_LOCK 1, 1), (Reg.ACQ_STAT_STATE 1, acqLocked), (Reg.RX_RESAMP_STAT_TR_HOLD 1, 1)], by decide⟩,
    ⟨1, running [(Reg.RX_RESAMP_STAT_TR_LOCK 1, 1), (Reg.ACQ_STAT_STATE 1, acqPilot), (Reg.RX_RESAMP_STAT_TR_HOLD 1, 1)], by decide⟩⟩

/-- States and operands that meet the hypotheses of each clause of AcquisitionSearches. -/
theorem test_witness_AcquisitionSearches :
    (∃ n : Fin 8, ∃ s : State, s.Inv ∧ (s.dev.rxe n).present = false ∧ s.dev.on (Reg.RX_SAMP_STAT_PLL_LOCK n) = true ∧ s.dev.acq n = acqWaitSignal) ∧
    (∃ n : Fin 8, ∃ s : State, s.Inv ∧ (s.dev.rxe n).present = true ∧ s.dev.acq n = acqCarrier ∧ (s.dev.rxe n).onKept = false) ∧
    (∃ n : Fin 8, ∃ o : Int, ∃ s : State, s.Inv ∧ s.dev.acq n = acqFreq ∧ o.natAbs ≤ 52000 ∧ s.dev.on (Reg.RX_CD_SRC n) = false ∧ s.dev.on (Reg.RX_RESAMP_STAT_TR_LOCK n) = false) ∧
    (∃ n : Fin 8, ∃ o : Int, ∃ s : State, s.Inv ∧ s.dev.acq n = acqFreq ∧ 52000 < o.natAbs ∧ (s.dev.rxe n).onKept = false) ∧
    (∃ n : Fin 8, ∃ st : Nat, ∃ cause : Nat, ∃ s : State, s.Inv ∧ (st, cause) ∈ [(acqFreq, 1), (acqTiming, 3), (acqConverge, 4), (acqPilot, 5), (acqCarrier, 7), (acqFast, 9)] ∧ s.dev.acq n = st ∧ (s.dev.rxe n).onKept = false) ∧
    (∃ n : Fin 8, ∃ st : Nat, ∃ cause : Nat, ∃ s : State, s.Inv ∧ (st, cause) ∈ [(acqFreq, 1), (acqTiming, 3), (acqConverge, 4), (acqPilot, 5), (acqCarrier, 7), (acqFast, 9)] ∧ s.dev.acq n = st ∧ (s.dev.rxe n).onKept = false) ∧
    (∃ n : Fin 8, ∃ s : State, s.Inv ∧ s.dev.acq n = acqCd ∧ s.dev.on (Reg.RX_RESAMP_STAT_TR_LOCK n) = false) ∧
    (∃ n : Fin 8, ∃ s : State, s.Inv ∧ s.dev.acq n = acqCd ∧ s.dev.on (Reg.RX_RESAMP_STAT_TR_LOCK n) = false) ∧
    (∃ n : Fin 8, ∃ s : State, s.Inv ∧ s.dev.acq n = acqCd ∧ (s.dev.rxe n).onKept = false) ∧
    (∃ n : Fin 8, ∃ e : BitVec 16, ∃ s : State, s.Inv ∧ s.dev.acq n = acqConverge ∧ 300 < e.toNat) ∧
    (∃ n : Fin 8, ∃ s0 : BitVec 15, ∃ s1 : BitVec 15, ∃ s : State, s.Inv ∧ s.dev.acq n = acqPilot ∧ pilotMatch 32767 (s.dev.rxe n).seedX (s.dev.rxe n).seedY s0.toNat s1.toNat = true) ∧
    (∃ s : State, s.Inv) ∧
    (∃ s : State, s.Inv) ∧
    (∃ n : Fin 8, ∃ st : Nat, ∃ cause : Nat, ∃ s : State, s.Inv ∧ (st, cause) ∈ [(acqFreq, 1), (acqCd, 2), (acqTiming, 3), (acqConverge, 4), (acqPilot, 5), (acqCarrier, 7), (acqFast, 9)] ∧ s.dev.acq n = st ∧ (s.dev.rxe n).present = true) ∧
    (∃ n : Fin 8, ∃ s : State, s.Inv ∧ s.dev.acq n = acqLocked ∧ (s.dev.rxe n).present = true) ∧
    (∃ n : Fin 8, ∃ s : State, s.Inv ∧ ((s.dev.rxe n).present = false ∨ s.dev.acq n < acqFreq ∨ s.dev.acq n = acqHold ∨ s.dev.acq n = acqBackoff ∨ s.dev.acq n = acqFailed)) ∧
    (∃ n : Fin 8, ∃ s : State, s.Inv ∧ ((s.dev.rxe n).present = false ∨ s.dev.acq n < acqFreq ∨ s.dev.acq n = acqHold ∨ s.dev.acq n = acqBackoff ∨ s.dev.acq n = acqFailed)) ∧
    (∃ n : Fin 8, ∃ o : Int, ∃ D : Int, ∃ s : State, s.Inv ∧ s.dev.acq n = acqFreq ∧ o.natAbs ≤ 52000 ∧ s.dev.on (Reg.RX_CD_SRC n) = true ∧ s.dev.on (Reg.ACQ_CTRL_KEEP_CD n) = true ∧ (s.dev.rxe n).keptD = some D) ∧
    (∃ n : Fin 8, ∃ o : Int, ∃ s : State, s.Inv ∧ s.dev.acq n = acqFreq ∧ o.natAbs ≤ 52000 ∧ s.dev.on (Reg.RX_CD_SRC n) = true ∧ (s.dev.on (Reg.ACQ_CTRL_KEEP_CD n) = false ∨ (s.dev.rxe n).keptD = none)) ∧
    (∃ n : Fin 8, ∃ o : Int, ∃ s : State, s.Inv ∧ s.dev.acq n = acqFreq ∧ o.natAbs ≤ 52000 ∧ s.dev.on (Reg.RX_CD_SRC n) = false) ∧
    (∃ n : Fin 8, ∃ st : Nat, ∃ cause : Nat, ∃ s : State, s.Inv ∧ (st, cause) ∈ [(acqFreq, 1), (acqTiming, 3), (acqConverge, 4), (acqPilot, 5), (acqCarrier, 7), (acqFast, 9)] ∧ s.dev.acq n = st) ∧
    (∃ n : Fin 8, ∃ s : State, s.Inv ∧ s.dev.acq n = acqCd) ∧
    (∃ n : Fin 8, ∃ e : BitVec 16, ∃ s : State, s.Inv ∧ acqConverge < s.dev.acq n ∧ s.dev.acq n ≤ acqLocked ∧ 300 < e.toNat) ∧
    (∃ n : Fin 8, ∃ e : BitVec 16, ∃ s : State, s.Inv ∧ (s.dev.acq n < acqConverge ∨ acqLocked < s.dev.acq n ∨ e.toNat ≤ 300)) ∧
    (∃ n : Fin 8, ∃ s0 : BitVec 15, ∃ s1 : BitVec 15, ∃ w : Nat, ∃ s : State, s.Inv ∧ s.dev.acq n = acqPilot ∧ ((w = 0 ∧ pilotMatch 32767 (s.dev.rxe n).seedX (s.dev.rxe n).seedY s0.toNat s1.toNat = true) ∨ (w = 1 ∧ pilotMatch 32767 (s.dev.rxe n).seedX (s.dev.rxe n).seedY s0.toNat s1.toNat = false ∧ pilotMatch 32767 (s.dev.rxe n).seedY (s.dev.rxe n).seedX s0.toNat s1.toNat = true))) ∧
    (∃ n : Fin 8, ∃ s0 : BitVec 15, ∃ s1 : BitVec 15, ∃ s : State, s.Inv ∧ s.dev.acq n = acqPilot ∧ pilotMatch 32767 (s.dev.rxe n).seedX (s.dev.rxe n).seedY s0.toNat s1.toNat = false ∧ pilotMatch 32767 (s.dev.rxe n).seedY (s.dev.rxe n).seedX s0.toNat s1.toNat = false) :=
  ⟨⟨0, running [(Reg.RX_SAMP_STAT_PLL_LOCK 0, 1), (Reg.ACQ_STAT_STATE 0, acqWaitSignal)], by decide⟩,
    ⟨0, runningWith [(Reg.ACQ_STAT_STATE 0, acqCarrier)] fun d => d.setRxe 0 { d.rxe 0 with present := true }, by decide⟩,
    ⟨0, -52000, running [(Reg.ACQ_STAT_STATE 0, acqFreq), (Reg.RX_CD_SRC 0, 0)], by decide⟩,
    ⟨0, -52001, running [(Reg.ACQ_STAT_STATE 0, acqFreq)], by decide⟩,
    ⟨0, acqPilot, 5, running [(Reg.ACQ_STAT_STATE 0, acqPilot)], by decide⟩,
    ⟨0, acqFast, 9, running [(Reg.ACQ_STAT_STATE 0, acqFast)], by decide⟩,
    ⟨0, running [(Reg.ACQ_STAT_STATE 0, acqCd), (Reg.ACQ_CTRL_KEEP_CD 0, 1)], by decide⟩,
    ⟨0, running [(Reg.ACQ_STAT_STATE 0, acqCd), (Reg.ACQ_CTRL_KEEP_CD 0, 0)], by decide⟩,
    ⟨0, running [(Reg.ACQ_STAT_STATE 0, acqCd)], by decide⟩,
    ⟨0, 1234, running [(Reg.ACQ_STAT_STATE 0, acqConverge)], by decide⟩,
    ⟨0, 5, 9, runningWith [(Reg.ACQ_STAT_STATE 0, acqPilot)] fun d => d.setRxe 0 { d.rxe 0 with seedX := 5, seedY := 9 }, by decide⟩,
    ⟨running [(Reg.RX_SAMP_STAT_PLL_LOCK 0, 1), (Reg.ACQ_STAT_STATE 0, acqHold)], by decide⟩,
    ⟨running [], by decide⟩,
    ⟨0, acqCd, 2, runningWith [(Reg.ACQ_STAT_STATE 0, acqCd)] fun d => d.setRxe 0 { d.rxe 0 with present := true, onKept := true, keptFails := 1 }, by decide⟩,
    ⟨0, runningWith [(Reg.ACQ_STAT_STATE 0, acqLocked)] fun d => d.setRxe 0 { d.rxe 0 with present := true }, by decide⟩,
    ⟨0, runningWith [(Reg.ACQ_STAT_STATE 0, acqWaitSignal)] fun d => d.setRxe 0 { d.rxe 0 with present := true }, by decide⟩,
    ⟨0, running [], by decide⟩,
    ⟨0, 5, 77, runningWith [(Reg.ACQ_STAT_STATE 0, acqFreq), (Reg.RX_CD_SRC 0, 1), (Reg.ACQ_CTRL_KEEP_CD 0, 1)] fun d => d.setRxe 0 { d.rxe 0 with keptD := some 77 }, by decide⟩,
    ⟨0, 5, running [(Reg.ACQ_STAT_STATE 0, acqFreq), (Reg.RX_CD_SRC 0, 1)], by decide⟩,
    ⟨0, 5, running [(Reg.ACQ_STAT_STATE 0, acqFreq), (Reg.RX_CD_SRC 0, 0), (Reg.RX_RESAMP_STAT_TR_LOCK 0, 1)], by decide⟩,
    ⟨0, acqPilot, 5, runningWith [(Reg.ACQ_STAT_STATE 0, acqPilot)] fun d => d.setRxe 0 { d.rxe 0 with onKept := true, keptFails := 1 }, by decide⟩,
    ⟨0, running [(Reg.ACQ_STAT_STATE 0, acqCd), (Reg.RX_RESAMP_STAT_TR_LOCK 0, 1)], by decide⟩,
    ⟨0, 301, running [(Reg.ACQ_STAT_STATE 0, acqLocked)], by decide⟩,
    ⟨0, 300, running [(Reg.ACQ_STAT_STATE 0, acqConverge)], by decide⟩,
    ⟨0, 9, 5, 1, runningWith [(Reg.ACQ_STAT_STATE 0, acqPilot)] fun d => d.setRxe 0 { d.rxe 0 with seedX := 5, seedY := 9 }, by decide +kernel⟩,
    ⟨0, 0, 0, runningWith [(Reg.ACQ_STAT_STATE 0, acqPilot)] fun d => d.setRxe 0 { d.rxe 0 with seedX := 5, seedY := 9 }, by decide +kernel⟩⟩

/-- States and operands that meet the hypotheses of each clause of AcquisitionLockAndLosses. -/
theorem test_witness_AcquisitionLockAndLosses :
    (∃ n : Fin 8, ∃ s : State, s.Inv ∧ s.dev.rxTwin n = false ∧ s.dev.acq n = acqCarrier ∧ s.dev.als n = alIdle ∧ s.dev.frs n = frIdle ∧ (s.dev.rxe n).fault = false ∧ s.dev.dieLost.getLsbD (n / 2) = false) ∧
    (∃ n : Fin 8, ∃ s : State, s.Inv ∧ s.dev.rxTwin n = false ∧ s.dev.acq n = acqCarrier ∧ s.dev.als n = alIdle ∧ s.dev.frs n = frIdle ∧ (s.dev.rxe n).fault = false ∧ s.dev.dieLost.getLsbD (n / 2) = false) ∧
    (∃ n : Fin 8, ∃ f : Byte, ∃ s : State, s.Inv ∧ s.dev.rxTwin n = false ∧ s.dev.drone.fingers = [] ∧ (s.dev.als n = alSc ∨ s.dev.als n = alRetry) ∧ s.dev.frs n = frIdle ∧ s.dev.acq n = acqLocked ∧ s.dev.rd (Reg.PILOT_LOSS_THRESHOLD n) < f.toNat) ∧
    (∃ n : Fin 8, ∃ o : Int, ∃ s : State, s.Inv ∧ s.dev.rxTwin n = false ∧ s.dev.drone.fingers = [] ∧ (s.dev.als n = alSc ∨ s.dev.als n = alRetry) ∧ s.dev.frs n = frIdle ∧ s.dev.acq n = acqLocked ∧ 52000 < o.natAbs) ∧
    (∃ n : Fin 8, ∃ s : State, s.Inv ∧ s.dev.rxTwin n = false ∧ s.dev.drone.fingers = [] ∧ (s.dev.als n = alSc ∨ s.dev.als n = alRetry) ∧ s.dev.frs n = frIdle ∧ s.dev.acq n = acqLocked ∧ s.dev.on (Reg.RX_RESAMP_STAT_TR_LOCK n) = true) ∧
    (∃ n : Fin 8, ∃ s : State, s.Inv ∧ acqConverge ≤ s.dev.acq n ∧ s.dev.acq n < acqLocked) ∧
    (∃ n : Fin 8, ∃ s : State, s.Inv ∧ s.dev.acq n = acqHold ∧ (s.dev.rxe n).onKept = false) ∧
    (∃ n : Fin 8, ∃ s : State, s.Inv ∧ s.dev.acq n = acqBackoff ∧ (s.dev.rd (Reg.ACQ_CTRL_MAX_TRIES n) = 0 ∨ s.dev.rd (Reg.ACQ_STAT_TRIES n) < s.dev.rd (Reg.ACQ_CTRL_MAX_TRIES n)) ∧ (s.dev.rxe n).present = false) ∧
    (∃ n : Fin 8, ∃ s : State, s.Inv ∧ s.dev.acq n = acqBackoff ∧ 0 < s.dev.rd (Reg.ACQ_CTRL_MAX_TRIES n) ∧ s.dev.rd (Reg.ACQ_CTRL_MAX_TRIES n) ≤ s.dev.rd (Reg.ACQ_STAT_TRIES n)) ∧
    (∃ n : Fin 8, ∃ v : Word, ∃ s : State, s.Inv ∧ s.dev.pageLive (linePage n 0x14) = true ∧ s.dev.pageInTest (linePage n 0x14) = false ∧ s.dev.acq n = acqFailed ∧ (s.dev.rxe n).present = false ∧ v.getLsbD 11 = false ∧ v.getLsbD 9 = false) ∧
    (∃ n : Fin 8, ∃ v : Word, ∃ s : State, s.Inv ∧ s.dev.pageLive (linePage n 0x14) = true ∧ s.dev.pageInTest (linePage n 0x14) = false ∧ s.dev.acq n = acqFailed ∧ (s.dev.rxe n).present = false ∧ v.getLsbD 11 = false ∧ v.getLsbD 9 = false) ∧
    (∃ n : Fin 8, ∃ v : Word, ∃ s : State, s.Inv ∧ s.dev.pageLive (linePage n 0x14) = true ∧ s.dev.pageInTest (linePage n 0x14) = false ∧ s.dev.acq n ≠ acqFailed ∧ v.getLsbD 11 = false ∧ v.getLsbD 9 = false) ∧
    (∃ n : Fin 8, ∃ v : Word, ∃ s : State, s.Inv ∧ s.dev.pageLive (linePage n 0x14) = true ∧ s.dev.pageInTest (linePage n 0x14) = false ∧ v.getLsbD 10 = false ∧ v.getLsbD 9 = false) ∧
    (∃ n : Fin 8, ∃ s : State, s.Inv ∧ (s.dev.acq n = acqCarrier ∨ s.dev.acq n = acqFast)) ∧
    (∃ n : Fin 8, ∃ s : State, s.Inv ∧ (s.dev.acq n = acqCarrier ∨ s.dev.acq n = acqFast)) ∧
    (∃ n : Fin 8, ∃ s : State, s.Inv ∧ s.dev.acq n = acqLocked) ∧
    (∃ n : Fin 8, ∃ s : State, s.Inv ∧ s.dev.acq n = acqLocked) ∧
    (∃ n : Fin 8, ∃ o : Int, ∃ s : State, s.Inv ∧ s.dev.acq n = acqLocked ∧ 52000 < o.natAbs) ∧
    (∃ n : Fin 8, ∃ s : State, s.Inv ∧ s.dev.acq n = acqLocked) ∧
    (∃ n : Fin 8, ∃ s : State, s.Inv ∧ (s.dev.acq n < acqConverge ∨ acqLocked < s.dev.acq n)) ∧
    (∃ s : State, s.Inv) ∧
    (∃ s : State, s.Inv) ∧
    (∃ n : Fin 8, ∃ s : State, s.Inv ∧ s.dev.acq n = acqBackoff ∧ (s.dev.rd (Reg.ACQ_CTRL_MAX_TRIES n) = 0 ∨ s.dev.rd (Reg.ACQ_STAT_TRIES n) < s.dev.rd (Reg.ACQ_CTRL_MAX_TRIES n))) ∧
    (∃ n : Fin 8, ∃ s : State, s.Inv ∧ s.dev.acq n ≠ acqLocked) :=
  ⟨⟨0, running [(Reg.ACQ_STAT_STATE 0, acqCarrier)], by decide⟩,
    ⟨1, running [(Reg.ACQ_STAT_STATE 1, acqCarrier), (Reg.RX_MODE_CONST 1, 1), (Reg.ALIGN_STAT_TWIN_SKEW 1, 1)], by decide⟩,
    ⟨0, 77, running [(Reg.ACQ_STAT_STATE 0, acqLocked), (Reg.ALIGN_STAT_STATE 0, alSc)], by decide⟩,
    ⟨0, -52001, running [(Reg.ACQ_STAT_STATE 0, acqLocked), (Reg.ALIGN_STAT_STATE 0, alRetry)], by decide⟩,
    ⟨0, running [(Reg.RX_RESAMP_STAT_TR_LOCK 0, 1), (Reg.ACQ_STAT_STATE 0, acqLocked), (Reg.ALIGN_STAT_STATE 0, alSc)], by decide⟩,
    ⟨0, running [(Reg.ACQ_STAT_STATE 0, acqCarrier)], by decide⟩,
    ⟨0, running [(Reg.ACQ_STAT_STATE 0, acqHold)], by decide⟩,
    ⟨0, running [(Reg.ACQ_STAT_STATE 0, acqBackoff), (Reg.ACQ_CTRL_MAX_TRIES 0, 0)], by decide⟩,
    ⟨0, running [(Reg.ACQ_STAT_STATE 0, acqBackoff), (Reg.ACQ_CTRL_MAX_TRIES 0, 3), (Reg.ACQ_STAT_TRIES 0, 3)], by decide⟩,
    ⟨0, 0x3, running [(Reg.ACQ_STAT_STATE 0, acqFailed), (Reg.ACQ_STAT_TRIES 0, 3)], by decide⟩,
    ⟨1, 0x3, running [(Reg.ACQ_STAT_STATE 1, acqFailed)], by decide⟩,
    ⟨0, 0x3, running [], by decide⟩,
    ⟨0, 0x3, running [(Reg.ACQ_FAIL_CNT 0, 3)], by decide⟩,
    ⟨0, running [(Reg.ACQ_STAT_STATE 0, acqFast), (Reg.MAP_EN 5, 1)], by decide⟩,
    ⟨3, running [(Reg.ACQ_STAT_STATE 3, acqCarrier), (Reg.ACQ_CTRL_TWIN 2, 1)], by decide⟩,
    ⟨0, running [(Reg.ACQ_STAT_STATE 0, acqLocked), (Reg.ALIGN_STAT_STATE 0, alAligned), (Reg.FR_STAT_STATE 0, frAligned)], by decide⟩,
    ⟨0, running [(Reg.ACQ_STAT_STATE 0, acqLocked)], by decide⟩,
    ⟨3, -52001, running [(Reg.ACQ_STAT_STATE 2, acqLocked), (Reg.ACQ_STAT_STATE 3, acqLocked), (Reg.ACQ_CTRL_TWIN 2, 1)], by decide⟩,
    ⟨0, running [(Reg.ACQ_STAT_STATE 0, acqLocked), (Reg.MAP_EN 5, 1)], by decide⟩,
    ⟨0, running [], by decide⟩,
    ⟨runningWith [(Reg.ACQ_STAT_STATE 0, acqHold)] fun d => d.setRxe 0 { d.rxe 0 with onKept := true, keptFails := 1 }, by decide⟩,
    ⟨running [], by decide⟩,
    ⟨0, runningWith [(Reg.ACQ_STAT_STATE 0, acqBackoff), (Reg.ACQ_CTRL_MAX_TRIES 0, 0)] fun d => d.setRxe 0 { d.rxe 0 with present := true }, by decide⟩,
    ⟨0, running [], by decide⟩⟩

/-- States and operands that meet the hypotheses of each clause of EqualiserSlipsAndTapReadout. -/
theorem test_witness_EqualiserSlipsAndTapReadout :
    (∃ n : Fin 8, ∃ s : State, s.Inv ∧ s.dev.pageLive (linePage n 0x10) = true ∧ s.dev.pageInTest (linePage n 0x10) = false ∧ s.dev.acq n ≠ acqLocked) ∧
    (∃ s : State, s.Inv) ∧
    (∃ s : State, s.Inv) ∧
    (∃ s : State, s.Inv) ∧
    (∃ s : State, s.Inv) ∧
    (∃ s : State, s.Inv) ∧
    (∃ s : State, s.Inv) ∧
    (∃ n : Fin 8, ∃ s : State, s.Inv ∧ s.dev.pageLive (linePage n 0x12) = true ∧ s.dev.pageInTest (linePage n 0x12) = false) ∧
    (∃ n : Fin 8, ∃ s : State, s.Inv ∧ s.dev.pageLive (linePage n 0x11) = true ∧ s.dev.pageInTest (linePage n 0x11) = false) ∧
    (∃ n : Fin 8, ∃ s : State, s.Inv ∧ s.dev.pageLive (linePage n 0x11) = true) ∧
    (∃ n : Fin 8, ∃ s : State, s.Inv ∧ s.dev.pageLive (linePage n 0x10) = true ∧ s.dev.pageInTest (linePage n 0x10) = false ∧ s.dev.acq n = acqLocked) :=
  ⟨⟨0, running [(Reg.EQ_DEGEN_CNT 0, 3), (Reg.EQ_STAT_CONVERGED 0, 1)], by decide⟩,
    ⟨running [], by decide⟩,
    ⟨running [(Reg.EQ_CTRL_DFE_EN 0, 1), (Reg.EQ_CTRL_DFE_AUTO 0, 1), (Reg.EQ_STAT_DFE_ACTIVE 0, 1)], by decide⟩,
    ⟨running [(Reg.EQ_CTRL_DFE_EN 0, 1), (Reg.EQ_CTRL_DFE_AUTO 0, 1)], by decide⟩,
    ⟨running [(Reg.CR_CTRL_BPS 0, 1)], by decide⟩,
    ⟨running [(Reg.CR_CTRL_BPS 0, 0)], by decide⟩,
    ⟨runningWith [] fun d => d.setRxe 0 { d.rxe 0 with slips := 100000 }, by decide⟩,
    ⟨0, running [(Reg.CR_SLIP_CNT 0, 3)], by decide⟩,
    ⟨0, running [], by decide⟩,
    ⟨0, runningWith [(Reg.EQ_TAP_ADDR_INDEX 0, 5)] fun d => d.setRxe 0 { d.rxe 0 with tapStore := [(5, 77)] }, by decide⟩,
    ⟨0, running [(Reg.ACQ_STAT_STATE 0, acqLocked)], by decide⟩⟩

/-- States and operands that meet the hypotheses of each clause of TwinAidArrivalAndEstimates. -/
theorem test_witness_TwinAidArrivalAndEstimates :
    (∃ n : Fin 8, ∃ s : State, s.Inv ∧ s.dev.on (Reg.CR_STAT_TWIN_AID_ACTIVE n) = true) ∧
    (∃ n : Fin 8, ∃ skew : Int, ∃ s : State, s.Inv ∧ s.dev.rxTwin n = true ∧ s.dev.on (Reg.CR_CTRL_TWIN_AID n) = true ∧ s.dev.on (Reg.CR_CTRL_TWIN_AID (n.val ^^^ 1)) = true ∧ s.dev.acq n = acqLocked ∧ s.dev.acq (n.val ^^^ 1) = acqLocked ∧ skew.natAbs ≤ 1000000) ∧
    (∃ n : Fin 8, ∃ k : Nat, ∃ s : State, s.Inv ∧ s.dev.rxTwin n = false ∧ s.dev.drone.fingers = [] ∧ (s.dev.als n = alSc ∨ s.dev.als n = alRetry) ∧ s.dev.frs n = frIdle ∧ s.dev.acq n = acqLocked ∧ k % (32 * 32767) ≠ 0) ∧
    (∃ n : Fin 8, ∃ s : State, s.Inv ∧ s.dev.on (Reg.RX_RESAMP_STAT_TR_LOCK n) = true ∧ (s.dev.acq n = acqFreq ∨ s.dev.acq n = acqCd ∨ s.dev.acq n = acqTiming ∨ s.dev.acq n = acqPilot ∨ s.dev.acq n = acqCarrier)) ∧
    (∃ s : State, s.Inv) ∧
    (∃ n : Fin 8, ∃ s : State, s.Inv ∧ (s.dev.rxe n).winLocked = false) ∧
    (∃ n : Fin 8, ∃ s : State, s.Inv ∧ (s.dev.rxe n).winLocked = true) ∧
    (∃ n : Fin 8, ∃ s : State, s.Inv ∧ s.dev.acq n = acqLocked) ∧
    (∃ n : Fin 8, ∃ s : State, s.Inv ∧ s.dev.acq n = acqLocked) ∧
    (∃ n : Fin 8, ∃ s : State, s.Inv ∧ s.dev.acq n ≠ acqLocked) ∧
    (∃ n : Fin 8, ∃ s : State, s.Inv ∧ s.dev.on (Reg.RX_RESAMP_STAT_TR_LOCK n) = true ∧ s.dev.acq n = acqLocked) ∧
    (∃ n : Fin 8, ∃ s : State, s.Inv ∧ s.dev.acq n ≠ acqLocked) ∧
    (∃ n : Fin 8, ∃ s : State, s.Inv ∧ s.dev.acq n ≠ acqLocked) ∧
    (∃ n : Fin 8, ∃ s : State, s.Inv ∧ s.dev.on (Reg.CR_STAT_TWIN_AID_ACTIVE n) = false) ∧
    (∃ n : Fin 8, ∃ skew : Int, ∃ s : State, s.Inv ∧ (s.dev.rxTwin n && s.dev.on (Reg.CR_CTRL_TWIN_AID n) && s.dev.on (Reg.CR_CTRL_TWIN_AID (n.val ^^^ 1)) && decide (s.dev.acq n = acqLocked) && decide (s.dev.acq (n.val ^^^ 1) = acqLocked) && decide (skew.natAbs ≤ 1000000)) = false) :=
  ⟨⟨0, running [(Reg.CR_STAT_TWIN_AID_ACTIVE 0, 1)], by decide⟩,
    ⟨3, -1000000, running [(Reg.ACQ_STAT_STATE 2, acqLocked), (Reg.ACQ_STAT_STATE 3, acqLocked), (Reg.ACQ_CTRL_TWIN 2, 1), (Reg.CR_CTRL_TWIN_AID 2, 1), (Reg.CR_CTRL_TWIN_AID 3, 1)], by decide⟩,
    ⟨0, 1, running [(Reg.ACQ_STAT_STATE 0, acqLocked), (Reg.ALIGN_STAT_STATE 0, alSc)], by decide⟩,
    ⟨1, running [(Reg.RX_RESAMP_STAT_TR_LOCK 1, 1), (Reg.ACQ_STAT_STATE 1, acqPilot)], by decide⟩,
    ⟨running [(Reg.ACQ_STAT_STATE 0, acqLocked)], by decide⟩,
    ⟨0, running [(Reg.ACQ_STAT_STATE 0, acqLocked), (Reg.OPM_Q_VALID 0, 1)], by decide⟩,
    ⟨0, runningWith [(Reg.ACQ_STAT_STATE 0, acqLocked)] fun d => d.setRxe 0 { d.rxe 0 with winLocked := true, winCw := 4, winCorr := 6, winIter := 9 }, by decide⟩,
    ⟨0, running [(Reg.ACQ_STAT_STATE 0, acqLocked), (Reg.ALIGN_STAT_STATE 0, alAligned), (Reg.MAP_EN 5, 1)], by decide⟩,
    ⟨0, running [(Reg.ACQ_STAT_STATE 0, acqLocked), (Reg.ALIGN_STAT_STATE 0, alAligned)], by decide⟩,
    ⟨0, running [], by decide⟩,
    ⟨1, running [(Reg.RX_RESAMP_STAT_TR_LOCK 1, 1), (Reg.ACQ_STAT_STATE 1, acqLocked)], by decide⟩,
    ⟨1, running [(Reg.RX_RESAMP_STAT_TR_LOCK 1, 1), (Reg.ACQ_STAT_STATE 1, acqHold)], by decide⟩,
    ⟨1, running [], by decide⟩,
    ⟨0, running [], by decide⟩,
    ⟨3, 5, running [], by decide⟩⟩

/-- States and operands that meet the hypotheses of each clause of CaptureTriggersAndArming. -/
theorem test_witness_CaptureTriggersAndArming :
    (∃ v : Word, ∃ s : State, s.Inv ∧ s.dev.pageLive (capPage) = true ∧ s.dev.pageInTest (capPage) = false ∧ v.getLsbD 3 = false ∧ (s.dev.writeWord capPage 0x054 0xC (v ||| 4)).rd Reg.CAP_TRIG_SOURCE = 0) ∧
    (∃ v : Word, ∃ s : State, s.Inv ∧ s.dev.pageLive (capPage) = true ∧ s.dev.pageInTest (capPage) = false ∧ v.getLsbD 3 = false ∧ (s.dev.writeWord capPage 0x054 0xC (v ||| 4)).rd Reg.CAP_TRIG_SOURCE ≠ 0) ∧
    (∃ v : Word, ∃ s : State, s.Inv ∧ s.dev.pageLive (capPage) = true ∧ s.dev.pageInTest (capPage) = false ∧ v.getLsbD 3 = false ∧ (s.dev.writeWord capPage 0x054 0xC (v ||| 4)).rd Reg.CAP_TRIG_SOURCE ≠ 0) ∧
    (∃ n : Fin 8, ∃ e : Nat × Nat × Nat, ∃ s : State, s.Inv ∧ s.dev.ev.capDue = some e ∧ (∀ m : Fin 8, s.dev.on (Reg.RX_CAP_STAT_ARMED m) = decide (m = n)) ∧ s.dev.on (Reg.RX_CAP_STAT_BUSY n) = false ∧ s.dev.on (Reg.RX_CAP_CTRL_MODE n) = false ∧ s.dev.shedActive 1 = false ∧ s.dev.rd Reg.CAP_BUF_SIZE_GB ≠ 0) ∧
    (∃ v : Word, ∃ s : State, s.Inv ∧ s.dev.pageLive (capPage) = true ∧ s.dev.pageInTest (capPage) = false ∧ v.getLsbD 2 = false ∧ ((s.dev.capSoon : Nat) : Int) ≤ (extendSeconds (s.dev.time / 65536 / 1000000000) (s.dev.rd Reg.CAP_TRIG_TIME_HI_SEC) * 1000000000 + s.dev.rd Reg.CAP_TRIG_TIME_LO_NS) * 65536) ∧
    (∃ v : Word, ∃ s : State, s.Inv ∧ s.dev.pageLive (capPage) = true ∧ s.dev.pageInTest (capPage) = false ∧ v.getLsbD 2 = false ∧ (extendSeconds (s.dev.time / 65536 / 1000000000) (s.dev.rd Reg.CAP_TRIG_TIME_HI_SEC) * 1000000000 + s.dev.rd Reg.CAP_TRIG_TIME_LO_NS) * 65536 < ((s.dev.capSoon : Nat) : Int)) ∧
    (∃ v : Word, ∃ s : State, s.Inv ∧ s.dev.pageLive (capPage) = true ∧ s.dev.pageInTest (capPage) = false ∧ v.getLsbD 2 = false ∧ (extendSeconds (s.dev.time / 65536 / 1000000000) (s.dev.rd Reg.CAP_TRIG_TIME_HI_SEC) * 1000000000 + s.dev.rd Reg.CAP_TRIG_TIME_LO_NS) * 65536 < ((s.dev.capSoon : Nat) : Int)) ∧
    (∃ s : State, s.Inv ∧ s.dev.on Reg.CAP_TRIG_TENABLE = true) ∧
    (∃ s : State, s.Inv ∧ s.dev.on Reg.CAP_TRIG_TENABLE = true) ∧
    (∃ n : Fin 8, ∃ v : Word, ∃ s : State, s.Inv ∧ s.dev.pageLive (linePage n 0x0E) = true ∧ s.dev.pageInTest (linePage n 0x0E) = false ∧ v.getLsbD 1 = false) ∧
    (∃ n : Fin 8, ∃ v : Word, ∃ s : State, s.Inv ∧ s.dev.pageLive (linePage n 0x0E) = true ∧ s.dev.pageInTest (linePage n 0x0E) = false ∧ v.getLsbD 0 = false ∧ (s.dev.cpe n).run = none ∧ (s.dev.cpe n).drains = []) :=
  ⟨⟨0, running [(Reg.RX_CAP_STAT_ARMED 3, 1), (Reg.RX_CAP_CTRL_ARM 3, 1)], by decide⟩,
    ⟨1, running [], by decide⟩,
    ⟨0x80000001, running [], by decide⟩,
    ⟨3, (77, 4, 9), runningWith [(Reg.RX_CAP_STAT_ARMED 3, 1), (Reg.RX_CAP_CTRL_ARM 3, 1), (Reg.CAP_BUF_SIZE_GB, 4), (Reg.RX_CAP_CTRL_LENGTH_KI 3, 2)] fun d => { d with ev := { d.ev with capDue := some (77, 4, 9) } }, by decide⟩,
    ⟨2, running [(Reg.CAP_TRIG_TIME_HI_SEC, 1)], by decide⟩,
    ⟨2, running [], by decide⟩,
    ⟨2, running [(Reg.CAP_TRIG_TIME_HI_SEC, 0xFFFFFFFF)], by decide⟩,
    ⟨running [(Reg.CAP_TRIG_TENABLE, 1), (Reg.CAP_TRIG_SOURCE, 2), (Reg.RX_CAP_STAT_ARMED 3, 1)], by decide⟩,
    ⟨running [(Reg.CAP_TRIG_TENABLE, 1)], by decide⟩,
    ⟨0, 0x10, running [], by decide⟩,
    ⟨0, 0x10, running [(Reg.RX_CAP_STAT_ARMED 0, 1), (Reg.RX_CAP_STAT_MISSED 0, 1)], by decide⟩⟩

/-- States and operands that meet the hypotheses of each clause of CaptureRunsAndDrains. -/
theorem test_witness_CaptureRunsAndDrains :
    (∃ n : Fin 8, ∃ late : Nat, ∃ r : CapRun, ∃ s : State, s.Inv ∧ (s.dev.cpe n).run = some r ∧ r.started = false ∧ r.decimated = false ∧ s.dev.on (Reg.RX_SAMP_STAT_PLL_LOCK n) = true ∧ late * s.dev.rd (Reg.RX_SAMP_STAT_FS_MSPS n) < 65536000) ∧
    (∃ n : Fin 8, ∃ late : Nat, ∃ r : CapRun, ∃ s : State, s.Inv ∧ (s.dev.cpe n).run = some r ∧ r.started = false ∧ r.decimated = true ∧ s.dev.on (Reg.RX_SAMP_STAT_PLL_LOCK n) = true ∧ late * s.dev.rd (Reg.RX_SAMP_STAT_FS_MSPS n) < 65536000 ∧ s.dev.rd Reg.CAP_WR_PTR_PTR + ceilDiv (64 + 4 * r.length) 64 ≤ s.dev.capUnits) ∧
    (∃ n : Fin 8, ∃ samples : List Byte, ∃ r : CapRun, ∃ s : State, s.Inv ∧ (s.dev.cpe n).run = some r ∧ r.started = true ∧ r.decimated = false ∧ samples.length = 4 * r.length ∧ s.dev.rd Reg.CAP_WR_PTR_PTR + ceilDiv (64 + samples.length) 64 ≤ s.dev.capUnits) ∧
    (∃ n : Fin 8, ∃ samples : List Byte, ∃ r : CapRun, ∃ s : State, s.Inv ∧ (s.dev.cpe n).run = some r ∧ r.started = true ∧ r.decimated = true ∧ samples.length = 4 * r.length ∧ s.dev.rd Reg.CAP_WR_PTR_PTR + ceilDiv (64 + 4 * r.length) 64 ≤ s.dev.capUnits) ∧
    (∃ n : Fin 8, ∃ samples : List Byte, ∃ r : CapRun, ∃ s : State, s.Inv ∧ (s.dev.cpe n).run = some r ∧ r.started = true ∧ r.decimated = true ∧ samples.length = 4 * r.length ∧ s.dev.rd Reg.CAP_WR_PTR_PTR + ceilDiv (64 + 4 * r.length) 64 ≤ s.dev.capUnits) ∧
    (∃ n : Fin 8, ∃ r : CapRec, ∃ rest : List CapRec, ∃ s : State, s.Inv ∧ (s.dev.cpe n).drains = r :: rest) :=
  ⟨⟨0, 3, ⟨false, 0, 5, 100, 0, false, 0, 0⟩, runningWith [(Reg.RX_SAMP_STAT_PLL_LOCK 0, 1), (Reg.RX_SAMP_STAT_FS_MSPS 0, 200000)] fun d => d.setCpe 0 ⟨some ⟨false, 0, 5, 100, 0, false, 0, 0⟩, [], 0⟩, by decide⟩,
    ⟨0, 3, ⟨true, 2, 5, 100, 0, false, 0, 0⟩, runningWith [(Reg.RX_SAMP_STAT_PLL_LOCK 0, 1), (Reg.CAP_BUF_SIZE_GB, 4), (Reg.RX_SAMP_STAT_FS_MSPS 0, 200000)] fun d => d.setCpe 0 ⟨some ⟨true, 2, 5, 100, 0, false, 0, 0⟩, [], 0⟩, by decide⟩,
    ⟨0, [1, 2, 3, 4], ⟨false, 0, 1, 100, 0, true, 0, 0⟩, runningWith [(Reg.CAP_BUF_SIZE_GB, 4)] fun d => d.setCpe 0 ⟨some ⟨false, 0, 1, 100, 0, true, 0, 0⟩, [], 0⟩, by decide⟩,
    ⟨0, [1, 2, 3, 4], ⟨true, 2, 1, 100, 0, true, 0, 0⟩, runningWith [(Reg.CAP_BUF_SIZE_GB, 4)] fun d => d.setCpe 0 ⟨some ⟨true, 2, 1, 100, 0, true, 0, 0⟩, [], 0⟩, by decide⟩,
    ⟨0, [1, 2, 3, 4], ⟨true, 2, 1, 100, 0, true, 0, 0⟩, runningWith [(Reg.CAP_BUF_SIZE_GB, 4), (Reg.CAP_BUF_POLICY, 1), (Reg.CAP_RD_PTR_PTR, 2), (Reg.CAP_WR_PTR_PTR, 1)] fun d => d.setCpe 0 ⟨some ⟨true, 2, 1, 100, 0, true, 0, 0⟩, [], 0⟩, by decide⟩,
    ⟨2, ⟨3, 0, false, 0, 16, 5, 320, -4, 0, [1, 2, 3, 4]⟩, [], runningWith [] fun d => d.setCpe 2 ⟨none, [⟨3, 0, false, 0, 16, 5, 320, -4, 0, [1, 2, 3, 4]⟩], 0⟩, by decide⟩⟩

/-- States and operands that meet the hypotheses of each clause of ChordDecoderCounters. -/
theorem test_witness_ChordDecoderCounters :
    (∃ n : Fin 8, ∃ s : State, s.Inv ∧ s.dev.als n = alAligned) ∧
    (∃ n : Fin 8, ∃ s : State, s.Inv ∧ s.dev.als n = alAligned) ∧
    (∃ s : State, s.Inv) ∧
    (∃ s : State, s.Inv) ∧
    (∃ n : Fin 8, ∃ s : State, s.Inv ∧ s.dev.pageLive (linePage n 0x1A) = true ∧ s.dev.pageInTest (linePage n 0x1A) = false) ∧
    (∃ n : Fin 8, ∃ s : State, s.Inv ∧ s.dev.pageLive (linePage n 0x1A) = true ∧ s.dev.pageInTest (linePage n 0x1A) = false) ∧
    (∃ n : Fin 8, ∃ s : State, s.Inv ∧ s.dev.pageLive (linePage n 0x19) = true ∧ s.dev.pageInTest (linePage n 0x19) = false) :=
  ⟨⟨0, running [(Reg.ALIGN_STAT_STATE 0, alAligned), (Reg.FEC_ITER_STAT_ITER_EFF 0, 3)], by decide⟩,
    ⟨0, running [(Reg.ALIGN_STAT_STATE 0, alAligned)], by decide⟩,
    ⟨running [(Reg.FEC_CTRL_ITER_MAX 0, 12), (Reg.FEC_ITER_STAT_ITER_EFF 0, 4)], by decide⟩,
    ⟨running [(Reg.FEC_CTRL_ITER_MAX 0, 12), (Reg.FEC_ITER_STAT_ITER_EFF 0, 12)], by decide⟩,
    ⟨0, running [((Reg.CW_CAPPED 0).run, 4)], by decide⟩,
    ⟨7, running [((Reg.CW_CAPPED 7).run, 4)], by decide⟩,
    ⟨0, running [(Reg.ALIGN_FAIL_CNT 0, 4), (Reg.ALIGN_TIME_LAST_US 0, 7)], by decide⟩⟩

/-- States and operands that meet the hypotheses of each clause of ChordAlignment. -/
theorem test_witness_ChordAlignment :
    (∃ n : Fin 8, ∃ s : State, s.Inv ∧ s.dev.als n = alDm) ∧
    (∃ n : Fin 8, ∃ c : Nat × Nat × Nat, ∃ s : State, s.Inv ∧ s.dev.als n = alDm ∧ s.dev.carriedPhases n = some c) ∧
    (∃ n : Fin 8, ∃ s : State, s.Inv ∧ s.dev.carriedPhases n = none) ∧
    (∃ n : Fin 8, ∃ s : State, s.Inv ∧ s.dev.als n = alCw) ∧
    (∃ n : Fin 8, ∃ s : State, s.Inv ∧ s.dev.als n = alSc ∧ s.dev.frs n = frIdle) ∧
    (∃ n : Fin 8, ∃ st : Nat, ∃ cause : Nat, ∃ s : State, s.Inv ∧ (st, cause) ∈ [(alDm, 1), (alCw, 2), (alSc, 3)] ∧ s.dev.als n = st) ∧
    (∃ n : Fin 8, ∃ st : Nat, ∃ cause : Nat, ∃ s : State, s.Inv ∧ (st, cause) ∈ [(alDm, 1), (alCw, 2), (alSc, 3)] ∧ s.dev.als n = st) ∧
    (∃ n : Fin 8, ∃ s : State, s.Inv ∧ s.dev.als n = alCw ∧ s.dev.rxTwin n = true) ∧
    (∃ n : Fin 8, ∃ s : State, s.Inv ∧ s.dev.als n = alAligned ∧ s.dev.checksLost n = true) ∧
    (∃ n : Fin 8, ∃ s : State, s.Inv ∧ s.dev.als n = alRetry) ∧
    (∃ n : Fin 8, ∃ s : State, s.Inv ∧ s.dev.als n = alRetry) ∧
    (∃ n : Fin 8, ∃ s : State, s.Inv ∧ s.dev.als n = alSc) ∧
    (∃ n : Fin 8, ∃ c : Nat × Nat × Nat, ∃ s : State, s.Inv ∧ s.dev.als n = alSc ∧ s.dev.carriedPhases n = some c) ∧
    (∃ n : Fin 8, ∃ c : Nat × Nat × Nat, ∃ s : State, s.Inv ∧ s.dev.als n = alCw ∧ s.dev.carriedPhases n = some c) ∧
    (∃ n : Fin 8, ∃ s : State, s.Inv ∧ (s.dev.als n = alIdle ∨ s.dev.als n = alAligned ∨ s.dev.als n = alRetry)) ∧
    (∃ n : Fin 8, ∃ s : State, s.Inv ∧ (s.dev.als n = alIdle ∨ s.dev.als n = alAligned ∨ s.dev.als n = alRetry)) ∧
    (∃ n : Fin 8, ∃ w : Bool, ∃ s : State, s.Inv ∧ s.dev.als n = alCw ∧ (w = false ∨ s.dev.rxTwin n = false)) ∧
    (∃ n : Fin 8, ∃ s : State, s.Inv ∧ (s.dev.als n ≠ alAligned ∨ s.dev.checksLost n = false)) ∧
    (∃ n : Fin 8, ∃ s : State, s.Inv ∧ s.dev.als n ≠ alRetry) :=
  ⟨⟨0, running [(Reg.ALIGN_STAT_STATE 0, alDm), (Reg.ALIGN_STAT_TWIN_SKEW 0, 1)], by decide⟩,
    ⟨0, (7, 9, 11), runningWith [(Reg.ALIGN_STAT_STATE 0, alDm), (Reg.ALIGN_STAT_TWIN_SKEW 0, 1)] fun d => d.setRxe 0 { d.rxe 0 with fromFast := true, chord := { (d.rxe 0).chord with kept := some (7, 9, 11) } }, by decide⟩,
    ⟨0, running [(Reg.ALIGN_STAT_STATE 0, alDm)], by decide⟩,
    ⟨0, running [(Reg.ALIGN_STAT_STATE 0, alCw)], by decide⟩,
    ⟨0, running [(Reg.ALIGN_STAT_STATE 0, alSc)], by decide⟩,
    ⟨0, alDm, 1, running [(Reg.ALIGN_STAT_STATE 0, alDm)], by decide⟩,
    ⟨0, alSc, 3, running [(Reg.ALIGN_STAT_STATE 0, alSc)], by decide⟩,
    ⟨1, running [(Reg.ALIGN_STAT_STATE 1, alCw), (Reg.ACQ_CTRL_TWIN 0, 1)], by decide⟩,
    ⟨0, runningWith [(Reg.ALIGN_STAT_STATE 0, alAligned), (Reg.FR_STAT_STATE 0, frSearch), (Reg.FR_STAT_CAND 0, 2)] fun d => d.setRxe 0 { d.rxe 0 with chord := { ChordRx.reset with unsat := List.replicate 256 700 } }, by decide +kernel⟩,
    ⟨0, running [(Reg.ALIGN_STAT_STATE 0, alRetry), (Reg.ALIGN_STAT_TWIN_SKEW 0, 1)], by decide⟩,
    ⟨0, running [(Reg.ALIGN_STAT_STATE 0, alRetry), (Reg.RX_MODE_CONST 0, 2)], by decide⟩,
    ⟨0, running [(Reg.ALIGN_STAT_STATE 0, alSc), (Reg.FR_STAT_STATE 0, frOof)], by decide⟩,
    ⟨0, (7, 9, 11), runningWith [(Reg.ALIGN_STAT_STATE 0, alSc)] fun d => d.setRxe 0 { d.rxe 0 with fromFast := true, chord := { (d.rxe 0).chord with kept := some (7, 9, 11) } }, by decide⟩,
    ⟨0, (7, 9, 11), runningWith [(Reg.ALIGN_STAT_STATE 0, alCw)] fun d => d.setRxe 0 { d.rxe 0 with fromFast := true, chord := { (d.rxe 0).chord with kept := some (7, 9, 11) } }, by decide⟩,
    ⟨0, running [], by decide⟩,
    ⟨0, running [(Reg.ALIGN_STAT_STATE 0, alAligned)], by decide⟩,
    ⟨0, true, running [(Reg.ALIGN_STAT_STATE 0, alCw), (Reg.MAP_EN 5, 1)], by decide⟩,
    ⟨0, running [], by decide⟩,
    ⟨0, running [], by decide⟩⟩

/-- States and operands that meet the hypotheses of each clause of FrameAlignment. -/
theorem test_witness_FrameAlignment :
    (∃ n : Fin 8, ∃ pos : Nat, ∃ m : Nat, ∃ s : State, s.Inv ∧ s.dev.frs n = frSearch ∧ (s.dev.fra n).cands = [] ∧ s.dev.passAt n pos = some m) ∧
    (∃ n : Fin 8, ∃ c : Candidate, ∃ s : State, s.Inv ∧ s.dev.frs n = frConfirm ∧ (s.dev.fra n).cands = [c] ∧ 3 ≤ c.passes) ∧
    (∃ n : Fin 8, ∃ c : Candidate, ∃ s : State, s.Inv ∧ s.dev.frs n = frConfirm ∧ (s.dev.fra n).cands = [c] ∧ (s.dev.rxe n).chord.has (s.dev.dueAt n c) (64 * s.dev.rxSlots n) = true ∧ s.dev.passAt n (s.dev.dueAt n c) ≠ some ((c.mfas + 1) % 256)) ∧
    (∃ n : Fin 8, ∃ c : Candidate, ∃ s : State, s.Inv ∧ s.dev.frs n = frAmbiguous ∧ (s.dev.fra n).cands = [c] ∧ c.confirmed = true ∧ (s.dev.fra n).ambig ≤ c.passes) ∧
    (∃ n : Fin 8, ∃ s : State, s.Inv ∧ s.dev.frs n = frAmbiguous ∧ 2 ≤ (s.dev.fra n).cands.length ∧ (s.dev.fra n).cands.any (fun c => c.confirmed && decide ((s.dev.fra n).ambig ≤ c.passes)) = true) ∧
    (∃ n : Fin 8, ∃ s : State, s.Inv ∧ s.dev.frs n = frAligned ∧ 5 ≤ (s.dev.fra n).misses) ∧
    (∃ n : Fin 8, ∃ s : State, s.Inv ∧ s.dev.frs n = frOof ∧ 2 ≤ (s.dev.fra n).oofGood) ∧
    (∃ n : Fin 8, ∃ s : State, s.Inv ∧ s.dev.frs n = frOof) ∧
    (∃ n : Fin 8, ∃ s : State, s.Inv ∧ s.dev.frs n = frOof) ∧
    (∃ n : Fin 8, ∃ s : State, s.Inv ∧ s.dev.frs n = frAligned) ∧
    (∃ n : Fin 8, ∃ pos : Nat, ∃ m : Nat, ∃ s : State, s.Inv ∧ s.dev.frs n ≠ frIdle ∧ s.dev.frs n ≠ frAligned ∧ s.dev.passAt n pos = some m ∧ ((s.dev.fra n).cands.any fun c => decide (s.dev.dueAt n c = pos)) = true) ∧
    (∃ n : Fin 8, ∃ pos : Nat, ∃ m : Nat, ∃ s : State, s.Inv ∧ s.dev.frs n ≠ frIdle ∧ s.dev.frs n ≠ frAligned ∧ s.dev.passAt n pos = some m ∧ ((s.dev.fra n).cands.any fun c => decide (s.dev.dueAt n c = pos)) = false ∧ ((s.dev.fra n).cands.any fun c => decide (c.pos % frameBits (s.dev.rxSlots n) = pos % frameBits (s.dev.rxSlots n))) = false) ∧
    (∃ n : Fin 8, ∃ pos : Nat, ∃ s : State, s.Inv ∧ (s.dev.frs n = frIdle ∨ s.dev.frs n = frAligned ∨ s.dev.passAt n pos = none)) ∧
    (∃ n : Fin 8, ∃ c : Candidate, ∃ s : State, s.Inv ∧ s.dev.frs n = frConfirm ∧ ((s.dev.fra n).cands.find? fun x => decide (x.pos = c.pos) && decide (3 ≤ x.passes)) = some c ∧ (s.dev.fra n).cands.length ≠ 1) ∧
    (∃ n : Fin 8, ∃ c : Candidate, ∃ s : State, s.Inv ∧ s.dev.frs n = frOof ∧ ((s.dev.fra n).cands.find? fun x => decide (x.pos = c.pos) && decide (3 ≤ x.passes)) = some c ∧ (s.dev.fra n).cands = [c] ∧ (s.dev.fra n).oofGood < 2) ∧
    (∃ n : Fin 8, ∃ c : Candidate, ∃ s : State, s.Inv ∧ s.dev.frs n = frOof ∧ ((s.dev.fra n).cands.find? fun x => decide (x.pos = c.pos) && decide (3 ≤ x.passes)) = some c ∧ (s.dev.fra n).cands = [c] ∧ 2 ≤ (s.dev.fra n).oofGood) ∧
    (∃ n : Fin 8, ∃ c : Candidate, ∃ s : State, s.Inv ∧ ((s.dev.fra n).cands.find? fun x => decide (x.pos = c.pos) && decide (3 ≤ x.passes)) = some c ∧ ((s.dev.frs n = frOof ∧ (s.dev.fra n).cands.length ≠ 1) ∨ (s.dev.frs n ≠ frOof ∧ s.dev.frs n ≠ frConfirm))) ∧
    (∃ n : Fin 8, ∃ pos : Nat, ∃ s : State, s.Inv ∧ ((s.dev.fra n).cands.find? fun c => decide (c.pos = pos) && decide (3 ≤ c.passes)) = none) ∧
    (∃ n : Fin 8, ∃ pos : Nat, ∃ s : State, s.Inv ∧ s.dev.frs n ≠ frIdle ∧ s.dev.frs n ≠ frAligned ∧ ((s.dev.fra n).cands.all fun c => !(decide (c.pos = pos) && (s.dev.rxe n).chord.has (s.dev.dueAt n c) (64 * s.dev.rxSlots n) && decide (s.dev.passAt n (s.dev.dueAt n c) ≠ some ((c.mfas + 1) % 256)))) = false ∧ 2 ≤ ((s.dev.fra n).cands.filter fun c => !(decide (c.pos = pos) && (s.dev.rxe n).chord.has (s.dev.dueAt n c) (64 * s.dev.rxSlots n) && decide (s.dev.passAt n (s.dev.dueAt n c) ≠ some ((c.mfas + 1) % 256)))).length) ∧
    (∃ n : Fin 8, ∃ pos : Nat, ∃ c : Candidate, ∃ s : State, s.Inv ∧ s.dev.frs n ≠ frIdle ∧ s.dev.frs n ≠ frAligned ∧ ((s.dev.fra n).cands.all fun c => !(decide (c.pos = pos) && (s.dev.rxe n).chord.has (s.dev.dueAt n c) (64 * s.dev.rxSlots n) && decide (s.dev.passAt n (s.dev.dueAt n c) ≠ some ((c.mfas + 1) % 256)))) = false ∧ ((s.dev.fra n).cands.filter fun c => !(decide (c.pos = pos) && (s.dev.rxe n).chord.has (s.dev.dueAt n c) (64 * s.dev.rxSlots n) && decide (s.dev.passAt n (s.dev.dueAt n c) ≠ some ((c.mfas + 1) % 256)))) = [c]) ∧
    (∃ n : Fin 8, ∃ pos : Nat, ∃ s : State, s.Inv ∧ s.dev.frs n ≠ frIdle ∧ s.dev.frs n ≠ frAligned ∧ ((s.dev.fra n).cands.all fun c => !(decide (c.pos = pos) && (s.dev.rxe n).chord.has (s.dev.dueAt n c) (64 * s.dev.rxSlots n) && decide (s.dev.passAt n (s.dev.dueAt n c) ≠ some ((c.mfas + 1) % 256)))) = false ∧ ((s.dev.fra n).cands.filter fun c => !(decide (c.pos = pos) && (s.dev.rxe n).chord.has (s.dev.dueAt n c) (64 * s.dev.rxSlots n) && decide (s.dev.passAt n (s.dev.dueAt n c) ≠ some ((c.mfas + 1) % 256)))) = []) ∧
    (∃ n : Fin 8, ∃ pos : Nat, ∃ s : State, s.Inv ∧ (s.dev.frs n = frIdle ∨ s.dev.frs n = frAligned ∨ ((s.dev.fra n).cands.all fun c => !(decide (c.pos = pos) && (s.dev.rxe n).chord.has (s.dev.dueAt n c) (64 * s.dev.rxSlots n) && decide (s.dev.passAt n (s.dev.dueAt n c) ≠ some ((c.mfas + 1) % 256)))) = true)) ∧
    (∃ n : Fin 8, ∃ s : State, s.Inv ∧ s.dev.frs n = frAmbiguous ∧ (s.dev.fra n).cands = []) ∧
    (∃ n : Fin 8, ∃ s : State, s.Inv ∧ (s.dev.frs n ≠ frAmbiguous ∨ ((s.dev.fra n).cands ≠ [] ∧ ((s.dev.fra n).cands.any fun c => c.confirmed && decide ((s.dev.fra n).ambig ≤ c.passes)) = false))) ∧
    (∃ n : Fin 8, ∃ s : State, s.Inv ∧ (s.dev.frs n ≠ frAligned ∨ (s.dev.fra n).misses < 5)) ∧
    (∃ n : Fin 8, ∃ s : State, s.Inv ∧ (s.dev.frs n ≠ frOof ∨ (s.dev.fra n).oofGood < 2)) ∧
    (∃ n : Fin 8, ∃ s : State, s.Inv ∧ s.dev.frs n ≠ frOof) ∧
    (∃ n : Fin 8, ∃ s : State, s.Inv ∧ s.dev.frs n ≠ frAligned) :=
  ⟨⟨0, 7, 200, runningWith [(Reg.FR_STAT_STATE 0, frSearch), (Reg.RX_MODE_SLOTS_M1 0, 0)] fun d => d.setRxe 0 { d.rxe 0 with chord := { ChordRx.reset with base := 7, out := (sealColumn 65535 (fasBytes ++ [200] ++ List.replicate 57 0)).map fun b => (b, 0) } }, by decide +kernel⟩,
    ⟨0, ⟨7, 3, 255, false⟩, runningWith [(Reg.FR_STAT_STATE 0, frConfirm)] fun d => d.setFra 0 { d.fra 0 with cands := [⟨7, 3, 255, false⟩] }, by decide⟩,
    ⟨0, ⟨7, 3, 255, false⟩, runningWith [(Reg.FR_STAT_STATE 0, frConfirm), (Reg.RX_MODE_SLOTS_M1 0, 0)] fun d => (d.setFra 0 { d.fra 0 with cands := [⟨7, 3, 255, false⟩] }).setRxe 0 { d.rxe 0 with chord := { ChordRx.reset with base := 7 + 3 * 33280, out := List.replicate 64 (0, 0) } }, by decide +kernel⟩,
    ⟨0, ⟨7, 3, 255, true⟩, runningWith [(Reg.FR_STAT_STATE 0, frAmbiguous)] fun d => d.setFra 0 { d.fra 0 with cands := [⟨7, 3, 255, true⟩] }, by decide⟩,
    ⟨0, runningWith [(Reg.FR_STAT_STATE 0, frAmbiguous)] fun d => d.setFra 0 { d.fra 0 with cands := [⟨7, 3, 255, true⟩, ⟨9, 3, 255, true⟩] }, by decide⟩,
    ⟨0, runningWith [(Reg.FR_STAT_STATE 0, frAligned)] fun d => d.setFra 0 { d.fra 0 with misses := 5 }, by decide⟩,
    ⟨0, runningWith [(Reg.FR_STAT_STATE 0, frOof)] fun d => d.setFra 0 { d.fra 0 with oofGood := 2, mfas := 255, pos := 77 }, by decide⟩,
    ⟨0, running [(Reg.FR_STAT_STATE 0, frOof)], by decide⟩,
    ⟨0, running [(Reg.FR_STAT_STATE 0, frOof), (Reg.FR_STAT_LOF 0, 1)], by decide⟩,
    ⟨0, running [(Reg.FR_STAT_STATE 0, frAligned), (Reg.FR_STAT_LOF 0, 1)], by decide⟩,
    ⟨0, 33287, 200, runningWith [(Reg.FR_STAT_STATE 0, frConfirm), (Reg.RX_MODE_SLOTS_M1 0, 0)] fun d => (d.setFra 0 { d.fra 0 with cands := [⟨7, 1, 199, false⟩] }).setRxe 0 { d.rxe 0 with chord := { ChordRx.reset with base := 33287, out := (sealColumn 65535 (fasBytes ++ [200] ++ List.replicate 57 0)).map fun b => (b, 0) } }, by decide +kernel⟩,
    ⟨0, 33287, 200, runningWith [(Reg.FR_STAT_STATE 0, frOof), (Reg.RX_MODE_SLOTS_M1 0, 0)] fun d => (d.setFra 0 { d.fra 0 with cands := [⟨9, 1, 199, false⟩] }).setRxe 0 { d.rxe 0 with chord := { ChordRx.reset with base := 33287, out := (sealColumn 65535 (fasBytes ++ [200] ++ List.replicate 57 0)).map fun b => (b, 0) } }, by decide +kernel⟩,
    ⟨0, 7, running [], by decide⟩,
    ⟨0, ⟨7, 3, 255, false⟩, runningWith [(Reg.FR_STAT_STATE 0, frConfirm)] fun d => d.setFra 0 { d.fra 0 with cands := [⟨7, 3, 255, false⟩, ⟨9, 1, 4, false⟩] }, by decide⟩,
    ⟨0, ⟨7, 3, 255, false⟩, runningWith [(Reg.FR_STAT_STATE 0, frOof)] fun d => d.setFra 0 { d.fra 0 with cands := [⟨7, 3, 255, false⟩] }, by decide⟩,
    ⟨0, ⟨7, 3, 255, false⟩, runningWith [(Reg.FR_STAT_STATE 0, frOof)] fun d => d.setFra 0 { d.fra 0 with cands := [⟨7, 3, 255, false⟩], oofGood := 2 }, by decide⟩,
    ⟨0, ⟨7, 3, 255, false⟩, runningWith [(Reg.FR_STAT_STATE 0, frOof)] fun d => d.setFra 0 { d.fra 0 with cands := [⟨7, 3, 255, false⟩, ⟨9, 1, 4, false⟩] }, by decide⟩,
    ⟨0, 7, running [], by decide⟩,
    ⟨0, 7, runningWith [(Reg.FR_STAT_STATE 0, frConfirm), (Reg.RX_MODE_SLOTS_M1 0, 0)] fun d => (d.setFra 0 { d.fra 0 with cands := [⟨7, 3, 255, false⟩, ⟨8, 3, 255, false⟩, ⟨9, 3, 255, false⟩] }).setRxe 0 { d.rxe 0 with chord := { ChordRx.reset with base := 7 + 3 * 33280, out := List.replicate 64 (0, 0) } }, by decide +kernel⟩,
    ⟨0, 7, ⟨8, 3, 255, true⟩, runningWith [(Reg.FR_STAT_STATE 0, frOof), (Reg.RX_MODE_SLOTS_M1 0, 0)] fun d => (d.setFra 0 { d.fra 0 with cands := [⟨7, 3, 255, false⟩, ⟨8, 3, 255, true⟩] }).setRxe 0 { d.rxe 0 with chord := { ChordRx.reset with base := 7 + 3 * 33280, out := List.replicate 64 (0, 0) } }, by decide +kernel⟩,
    ⟨0, 7, runningWith [(Reg.FR_STAT_STATE 0, frAmbiguous), (Reg.RX_MODE_SLOTS_M1 0, 0)] fun d => (d.setFra 0 { d.fra 0 with cands := [⟨7, 3, 255, false⟩] }).setRxe 0 { d.rxe 0 with chord := { ChordRx.reset with base := 7 + 3 * 33280, out := List.replicate 64 (0, 0) } }, by decide +kernel⟩,
    ⟨0, 7, running [], by decide⟩,
    ⟨0, running [(Reg.FR_STAT_STATE 0, frAmbiguous)], by decide⟩,
    ⟨0, running [], by decide⟩,
    ⟨0, running [], by decide⟩,
    ⟨0, running [], by decide⟩,
    ⟨0, running [], by decide⟩,
    ⟨0, running [], by decide⟩⟩

/-- States and operands that meet the hypotheses of each clause of FrameTicksAndCourseFrames. -/
theorem test_witness_FrameTicksAndCourseFrames :
    (∃ s : State, s.Inv ∧ s.dev.hubOn = false) ∧
    (∃ s : State, s.Inv ∧ s.dev.hubOn = true ∧ s.dev.courses = [] ∧ s.dev.remotes = [] ∧ s.dev.enabledPairs = [] ∧ s.dev.bridges = [] ∧ s.dev.col.waiting = [] ∧ (∀ p : Fin 4, s.dev.on (Reg.LANE_STAT_LINK (64 + 4 * p)) = false) ∧ (∀ p : Fin 4, sget (dflt []) s.dev.relay.channel p = [])) ∧
    (∃ s : State, s.Inv ∧ s.dev.hubOn = true ∧ s.dev.courses = [] ∧ s.dev.remotes = [] ∧ s.dev.enabledPairs = [] ∧ s.dev.bridges = [] ∧ s.dev.col.waiting = [] ∧ (∀ p : Fin 4, s.dev.on (Reg.LANE_STAT_LINK (64 + 4 * p)) = false) ∧ (∀ p : Fin 4, sget (dflt []) s.dev.relay.channel p = [])) ∧
    (∃ n : Fin 8, ∃ s : State, s.Inv ∧ s.dev.frs n = frAligned ∧ s.dev.col.waiting = [] ∧ (s.dev.fra n).mfas ≠ 0 ∧ (s.dev.rxe n).chord.has (s.dev.fra n).pos (4160 * s.dev.rxSlots n) = true) ∧
    (∃ n : Fin 8, ∃ s : State, s.Inv ∧ s.dev.frs n = frOof ∧ (s.dev.rxe n).chord.has (s.dev.fra n).pos (4160 * s.dev.rxSlots n) = true) ∧
    (∃ (d : Dev) (k c : Nat) (col : Column), d.rxCourse k = some c ∧ d.rd (rxSlotField k 10 7) ≠ 0 ∧ columnValid (d.rd (Reg.FR_SEED_RX_SEED (k / 64))) col.overhead = true ∧ col.ohMark < 2) ∧
    (∃ c : Fin 512, ∃ serial : BitVec 48, ∃ ms : List Member, ∃ s : State, s.Inv ∧ (List.range (s.dev.rxMembers c)).filterMap (fun j => (s.dev.co c).held.find? fun y => decide (y.serial = serial.toNat) && decide (y.member = j)) = ms ∧ ms.length = s.dev.rxMembers c ∧ (s.dev.rxOn c || s.dev.remoteRx c) = true) ∧
    (∃ c : Fin 512, ∃ serial : BitVec 48, ∃ s : State, s.Inv ∧ ((List.range (s.dev.rxMembers c)).filterMap fun j => (s.dev.co c).held.find? fun y => decide (y.serial = serial.toNat) && decide (y.member = j)).length = s.dev.rxMembers c ∧ (s.dev.rxOn c || s.dev.remoteRx c) = true ∧ s.dev.pairOf c = none) ∧
    (∃ c : Fin 512, ∃ serial : BitVec 48, ∃ s : State, s.Inv ∧ (s.dev.co c).held.any (fun y => decide (y.serial = serial.toNat)) = true ∧ (((s.dev.co c).held.filter fun y => decide (y.serial = serial.toNat)).map (·.member)).dedup.length < s.dev.rxMembers c ∧ (s.dev.co c).loa.bad < 7 ∧ s.dev.pairOf c = none) ∧
    (∃ s : State, s.Inv ∧ s.dev.hubOn = true) ∧
    (∃ n : Fin 8, ∃ s : State, s.Inv ∧ s.dev.frs n = frAligned ∧ (s.dev.rxe n).chord.has (s.dev.fra n).pos (4160 * s.dev.rxSlots n) = true) ∧
    (∃ c : Fin 512, ∃ serial : BitVec 48, ∃ s : State, s.Inv ∧ ((List.range (s.dev.rxMembers c)).filterMap fun j => (s.dev.co c).held.find? fun y => decide (y.serial = serial.toNat) && decide (y.member = j)).length = s.dev.rxMembers c ∧ (s.dev.rxOn c || s.dev.remoteRx c) = true) ∧
    (∃ c : Fin 512, ∃ serial : BitVec 48, ∃ s : State, s.Inv ∧ (s.dev.co c).held.any (fun y => decide (y.serial = serial.toNat)) = true ∧ (((s.dev.co c).held.filter fun y => decide (y.serial = serial.toNat)).map (·.member)).dedup.length < s.dev.rxMembers c) :=
  ⟨⟨State.reset, by decide⟩,
    ⟨running [], by decide⟩,
    ⟨runningWith [] fun d => { d with variant := .sq9806, pace := 65536 * 1280 * 7 + 5, time := 3 }, by decide⟩,
    ⟨0, runningWith [(Reg.FR_STAT_STATE 0, frAligned), (Reg.RX_MODE_SLOTS_M1 0, 0)] fun d => (d.setFra 0 { d.fra 0 with mfas := 9 }).setRxe 0 { d.rxe 0 with chord := { ChordRx.reset with out := List.replicate 4160 (0, 0) } }, by decide +kernel⟩,
    ⟨0, runningWith [(Reg.FR_STAT_STATE 0, frOof), (Reg.RX_MODE_SLOTS_M1 0, 0)] fun d => d.setRxe 0 { d.rxe 0 with chord := { ChordRx.reset with out := List.replicate 4160 (0, 0) } }, by decide +kernel⟩,
    ⟨(running [(rxSlotField 0 0 1, 1), (rxSlotField 0 1 9, 5), (rxSlotField 0 10 7, 1), (Reg.FR_SEED_RX_SEED 0, 0)]).dev, 0, 5, ⟨sealColumn 0 (columnStart 9 2 0 0 5 1 2 77), 0, [], 1⟩, by decide +kernel⟩,
    ⟨5, 77, [⟨77, 0, true, false, 0, [1, 2], [], 90⟩], runningWith [(rxSlotField 7 0 1, 1), (rxSlotField 7 1 9, 5)] fun d => d.setCo 5 { d.co 5 with held := [⟨77, 0, true, false, 0, [1, 2], [], 90⟩] }, by decide⟩,
    ⟨5, 77, runningWith [(rxSlotField 7 0 1, 1), (rxSlotField 7 1 9, 5)] fun d => d.setCo 5 { d.co 5 with held := [⟨77, 0, true, false, 0, [1, 2], [], 90⟩] }, by decide⟩,
    ⟨5, 77, runningWith [(Reg.MAP_EN 5, 1), (Reg.MAP_MEMBERS_M1 5, 1)] fun d => d.setCo 5 { d.co 5 with held := [⟨77, 0, true, false, 0, [1, 2], [], 90⟩] }, by decide⟩,
    ⟨running [], by decide⟩,
    ⟨0, runningWith [(Reg.FR_STAT_STATE 0, frAligned), (Reg.RX_MODE_SLOTS_M1 0, 0)] fun d => (d.setFra 0 { d.fra 0 with mfas := 0 }).setRxe 0 { d.rxe 0 with chord := { ChordRx.reset with out := List.replicate 4160 (0, 0) } }, by decide +kernel⟩,
    ⟨5, 77, runningWith [(rxSlotField 7 0 1, 1), (rxSlotField 7 1 9, 5)] fun d => d.setCo 5 { d.co 5 with held := [⟨77, 0, true, false, 0, [1, 2], [], 90⟩] }, by decide⟩,
    ⟨5, 77, runningWith [(Reg.MAP_EN 5, 1), (Reg.MAP_MEMBERS_M1 5, 1)] fun d => d.setCo 5 { d.co 5 with held := [⟨77, 0, true, false, 0, [1, 2], [], 90⟩], loa := ⟨7, 0⟩ }, by decide⟩⟩

/-- States and operands that meet the hypotheses of each clause of ParallaxDecisionsAndReleases. -/
theorem test_witness_ParallaxDecisionsAndReleases :
    (∃ p : BitVec 8, ∃ d : Nat, ∃ s : State, s.Inv ∧ (s.dev.pr p.toNat).decided = some d ∧ parMerged ≤ s.dev.rd (Reg.PSTAT_STATE p.toNat)) ∧
    (∃ p : BitVec 8, ∃ d : Nat, ∃ s : State, s.Inv ∧ (s.dev.pr p.toNat).decided = some d ∧ parMerged ≤ s.dev.rd (Reg.PSTAT_STATE p.toNat)) ∧
    (∃ p : BitVec 8, ∃ d : Nat, ∃ s : State, s.Inv ∧ (s.dev.pr p.toNat).decided = some d ∧ parMerged ≤ s.dev.rd (Reg.PSTAT_STATE p.toNat) ∧ ((s.dev.pr p.toNat).slots.find? (fun y => y.serial = (d + 1) % 2 ^ 48)).any (fun y => decide ((y.arrived : Int) < s.dev.decisionAt p.toNat ((d + 1) % 2 ^ 48))) = true) ∧
    (∃ p : BitVec 8, ∃ d : Nat, ∃ s : State, s.Inv ∧ (s.dev.pr p.toNat).decided = some d ∧ parMerged ≤ s.dev.rd (Reg.PSTAT_STATE p.toNat) ∧ ((s.dev.pr p.toNat).slots.find? (fun y => y.serial = (d + 1) % 2 ^ 48)).any (fun y => decide ((y.arrived : Int) < s.dev.decisionAt p.toNat ((d + 1) % 2 ^ 48))) = false) ∧
    (∃ p : BitVec 8, ∃ d : Nat, ∃ s : State, s.Inv ∧ (s.dev.pr p.toNat).decided = some d ∧ parMerged ≤ s.dev.rd (Reg.PSTAT_STATE p.toNat) ∧ ((s.dev.pr p.toNat).slots.find? (fun y => y.serial = (d + 1) % 2 ^ 48)).any (fun y => decide ((y.arrived : Int) < s.dev.decisionAt p.toNat ((d + 1) % 2 ^ 48))) = false) ∧
    (∃ p : BitVec 8, ∃ bad : Bool, ∃ n : Nat, ∃ rest : List Decision, ∃ s : State, s.Inv ∧ (s.dev.pr p.toNat).cmds = [] ∧ (s.dev.pr p.toNat).ready = ⟨n, none, bad⟩ :: rest) ∧
    (∃ p : BitVec 8, ∃ n : Nat, ∃ y : Slot, ∃ rest : List Decision, ∃ s : State, s.Inv ∧ (s.dev.pr p.toNat).cmds = [] ∧ (s.dev.pr p.toNat).ready = ⟨n, some y, true⟩ :: rest) ∧
    (∃ p : BitVec 8, ∃ checkFail : Bool, ∃ n : Nat, ∃ y : Slot, ∃ rest : List Decision, ∃ s : State, s.Inv ∧ (s.dev.pr p.toNat).cmds = [] ∧ (s.dev.pr p.toNat).ready = ⟨n, some y, false⟩ :: rest ∧ (checkFail = true → s.dev.on (Reg.CKEY_ENC (s.dev.rd (Reg.PAIR_COURSE_A p.toNat))) = false)) ∧
    (∃ p : BitVec 8, ∃ checkFail : Bool, ∃ n : Nat, ∃ y : Slot, ∃ rest : List Decision, ∃ s : State, s.Inv ∧ (s.dev.pr p.toNat).cmds = [] ∧ (s.dev.pr p.toNat).ready = ⟨n, some y, false⟩ :: rest ∧ (checkFail = true → s.dev.on (Reg.CKEY_ENC (s.dev.rd (Reg.PAIR_COURSE_A p.toNat))) = false)) ∧
    (∃ p : BitVec 8, ∃ n : Nat, ∃ y : Slot, ∃ rest : List Decision, ∃ s : State, s.Inv ∧ (s.dev.pr p.toNat).cmds = [] ∧ (s.dev.pr p.toNat).ready = ⟨n, some y, false⟩ :: rest ∧ s.dev.on (Reg.CKEY_ENC (s.dev.rd (Reg.PAIR_COURSE_A p.toNat))) = true) ∧
    (∃ p : BitVec 8, ∃ f : Bool × Nat × Int, ∃ l : Bool × Nat × Int, ∃ s : State, s.Inv ∧ s.dev.rd (Reg.PSTAT_STATE p.toNat) = parAcquire ∧ (s.dev.pr p.toNat).firsts.head? = some f ∧ (s.dev.pr p.toNat).firsts.getLast? = some l ∧ (s.dev.pr p.toNat).firsts.all (fun e => e.1 = f.1) = true) ∧
    (∃ p : BitVec 8, ∃ s : State, s.Inv ∧ s.dev.rd (Reg.PSTAT_STATE p.toNat) = parLost) :=
  ⟨⟨3, 7, runningWith [(Reg.PSTAT_STATE 3, parMerged)] fun d => d.setPr 3 { d.pr 3 with decided := some 7 }, by decide⟩,
    ⟨3, 7, runningWith [(Reg.PSTAT_STATE 3, parLost)] fun d => d.setPr 3 { d.pr 3 with decided := some 7, slots := [⟨8, 1, true, false, [], 900⟩] }, by decide⟩,
    ⟨3, 7, runningWith [(Reg.PSTAT_STATE 3, parMerged)] fun d => d.setPr 3 { d.pr 3 with decided := some 7, slots := [⟨8, 1, true, false, [], 900⟩], grid := [⟨8, 900 * 65536, 0⟩] }, by decide +kernel⟩,
    ⟨3, 7, runningWith [(Reg.PSTAT_STATE 3, parMerged)] fun d => d.setPr 3 { d.pr 3 with decided := some 7, slots := [⟨8, 1, true, false, [], 9000000000000⟩], grid := [⟨8, 900 * 65536, 0⟩] }, by decide +kernel⟩,
    ⟨3, 7, runningWith [(Reg.PSTAT_STATE 3, parMerged)] fun d => d.setPr 3 { d.pr 3 with decided := some 7 }, by decide +kernel⟩,
    ⟨3, false, 8, [], runningWith [(Reg.PSTAT_STATE 3, parMerged)] fun d => d.setPr 3 { d.pr 3 with ready := [⟨8, none, false⟩] }, by decide⟩,
    ⟨3, 8, ⟨8, 1, true, false, [], 900⟩, [⟨9, none, false⟩], runningWith [(Reg.PSTAT_STATE 3, parMerged)] fun d => d.setPr 3 { d.pr 3 with ready := [⟨8, some ⟨8, 1, true, false, [], 900⟩, true⟩, ⟨9, none, false⟩] }, by decide⟩,
    ⟨3, true, 8, ⟨8, 1, true, false, [1, 2], 900⟩, [], runningWith [(Reg.PSTAT_STATE 3, parMerged)] fun d => d.setPr 3 { d.pr 3 with ready := [⟨8, some ⟨8, 1, true, false, [1, 2], 900⟩, false⟩] }, by decide⟩,
    ⟨3, false, 8, ⟨8, 2, false, false, [1, 2], 900⟩, [], runningWith [(Reg.PSTAT_STATE 3, parMerged)] fun d => d.setPr 3 { d.pr 3 with ready := [⟨8, some ⟨8, 2, false, false, [1, 2], 900⟩, false⟩] }, by decide⟩,
    ⟨3, 8, ⟨8, 1, true, false, [1, 2], 900⟩, [], runningWith [(Reg.PSTAT_STATE 3, parMerged), (Reg.PAIR_COURSE_A 3, 9), (Reg.CKEY_ENC 9, 1)] fun d => d.setPr 3 { d.pr 3 with ready := [⟨8, some ⟨8, 1, true, false, [1, 2], 900⟩, false⟩] }, by decide⟩,
    ⟨3, (true, 8, 900), (true, 9, 2180), runningWith [(Reg.PSTAT_STATE 3, parAcquire)] fun d => d.setPr 3 { d.pr 3 with firsts := [(true, 8, 900), (true, 9, 2180)], slots := [⟨8, 1, true, false, [], 900⟩, ⟨10, 1, true, false, [], 3460⟩] }, by decide⟩,
    ⟨3, runningWith [(Reg.PSTAT_STATE 3, parLost)] fun d => d.setPr 3 { d.pr 3 with decided := some 7 }, by decide⟩⟩

/-- States and operands that meet the hypotheses of each clause of PairCommandsAndSelector. -/
theorem test_witness_PairCommandsAndSelector :
    (∃ s : State, s.Inv ∧ s.dev.pageLive (pairPage) = true ∧ s.dev.pageInTest (pairPage) = false) ∧
    (∃ s : State, s.Inv ∧ s.dev.pageLive (pairPage) = true ∧ s.dev.pageInTest (pairPage) = false) ∧
    (∃ p : BitVec 8, ∃ s : State, s.Inv ∧ s.dev.pageLive (pairPage) = true ∧ s.dev.pageInTest (pairPage) = false ∧ s.dev.pairMode p.toNat ≠ 2 ∧ s.dev.protSf (s.dev.rd (Reg.PAIR_COURSE_A p.toNat)) = false ∧ s.dev.protSd p.toNat (s.dev.rd (Reg.PAIR_COURSE_A p.toNat)) = false ∧ s.dev.protSf (s.dev.rd (Reg.PAIR_COURSE_B p.toNat)) = false ∧ s.dev.protSd p.toNat (s.dev.rd (Reg.PAIR_COURSE_B p.toNat)) = false) ∧
    (∃ p : BitVec 8, ∃ s : State, s.Inv ∧ s.dev.pageLive (pairPage) = true ∧ s.dev.pageInTest (pairPage) = false ∧ s.dev.pairMode p.toNat ≠ 2 ∧ s.dev.protSf (s.dev.rd (Reg.PAIR_COURSE_A p.toNat)) = false ∧ s.dev.protSd p.toNat (s.dev.rd (Reg.PAIR_COURSE_A p.toNat)) = false ∧ s.dev.protSf (s.dev.rd (Reg.PAIR_COURSE_B p.toNat)) = false ∧ s.dev.protSd p.toNat (s.dev.rd (Reg.PAIR_COURSE_B p.toNat)) = false) ∧
    (∃ p : BitVec 8, ∃ s : State, s.Inv ∧ s.dev.pageLive (pairPage) = true ∧ s.dev.pageInTest (pairPage) = false ∧ s.dev.pairMode p.toNat = 2) ∧
    (∃ p : BitVec 8, ∃ s : State, s.Inv ∧ s.dev.pageLive (pairPage) = true ∧ s.dev.pageInTest (pairPage) = false ∧ s.dev.protSd p.toNat (s.dev.rd (Reg.PAIR_COURSE_A p.toNat)) = true) ∧
    (∃ p : BitVec 8, ∃ s : State, s.Inv ∧ s.dev.pageLive (pairPage) = true ∧ s.dev.pageInTest (pairPage) = false ∧ s.dev.pairMode p.toNat ≠ 1) ∧
    (∃ p : BitVec 8, ∃ s : State, s.Inv ∧ s.dev.pageLive (pairPage) = true ∧ s.dev.pageInTest (pairPage) = false ∧ s.dev.pairMode p.toNat = 1) ∧
    (∃ p : BitVec 8, ∃ s : State, s.Inv ∧ (s.dev.pr p.toNat).cmds = [1] ∧ (s.dev.pr p.toNat).ready = []) ∧
    (∃ p : BitVec 8, ∃ s : State, s.Inv ∧ (s.dev.pr p.toNat).cmds = [2] ∧ (s.dev.pr p.toNat).ready = []) ∧
    (∃ p : BitVec 8, ∃ s : State, s.Inv ∧ (s.dev.pr p.toNat).cmds = [3] ∧ (s.dev.pr p.toNat).ready = []) ∧
    (∃ p : BitVec 8, ∃ s : State, s.Inv ∧ (s.dev.pr p.toNat).cmds = [4] ∧ (s.dev.pr p.toNat).ready = []) ∧
    (∃ p : BitVec 8, ∃ s : State, s.Inv ∧ (s.dev.pr p.toNat).cmds = [5] ∧ (s.dev.pr p.toNat).ready = []) ∧
    (∃ p : BitVec 8, ∃ s : State, s.Inv ∧ (s.dev.pr p.toNat).cmds = [6] ∧ (s.dev.pr p.toNat).ready = []) ∧
    (∃ p : BitVec 8, ∃ s : State, s.Inv ∧ (s.dev.pr p.toNat).cmds = [7] ∧ (s.dev.pr p.toNat).ready = []) ∧
    (∃ p : BitVec 8, ∃ s : State, s.Inv ∧ (s.dev.pr p.toNat).ready = []) ∧
    (∃ p : BitVec 8, ∃ s : State, s.Inv ∧ s.dev.pairMode p.toNat = 1 ∧ s.dev.on (Reg.PAIR_EN p.toNat) = true) ∧
    (∃ p : BitVec 8, ∃ s : State, s.Inv ∧ (s.dev.pr p.toNat).cmds = [] ∧ s.dev.pairMode p.toNat = 1 ∧ s.dev.on (Reg.PAIR_EN p.toNat) = true ∧ s.dev.on (Reg.PSTAT_SEL p.toNat) ≠ (s.dev.request p.toNat).toB) ∧
    (∃ p : BitVec 8, ∃ s : State, s.Inv ∧ (s.dev.pr p.toNat).wtr.isSome = true) :=
  ⟨⟨running [(Reg.PAIR_EN 3, 1), (Reg.PAIR_MODE 3, 1), (Reg.PSTAT_MODE_EFF 3, 1), (Reg.PAIR_COURSE_B 3, 7)], by decide⟩,
    ⟨running [(Reg.PARALLAX_TBL_INDEX_AUTO_INC, 1)], by decide⟩,
    ⟨3, running [(Reg.PAIR_EN 3, 1), (Reg.PAIR_MODE 3, 1), (Reg.PSTAT_MODE_EFF 3, 1), (Reg.PAIR_COURSE_B 3, 7)], by decide⟩,
    ⟨3, running [(Reg.PARALLAX_TBL_INDEX_AUTO_INC, 1)], by decide⟩,
    ⟨3, running [(Reg.PSTAT_MODE_EFF 3, 2)], by decide⟩,
    ⟨3, running [(Reg.PAIR_SD_EN 3, 1), (Reg.CRSTAT_SD 0, 1)], by decide⟩,
    ⟨3, running [(Reg.PSTAT_MODE_EFF 3, 2), (Reg.PSTAT_STATE 3, parLost)], by decide⟩,
    ⟨3, running [(Reg.PAIR_EN 3, 1), (Reg.PAIR_MODE 3, 1), (Reg.PSTAT_MODE_EFF 3, 1), (Reg.PAIR_COURSE_B 3, 7)], by decide⟩,
    ⟨3, runningWith [(Reg.PAIR_EN 3, 1), (Reg.PAIR_MODE 3, 1), (Reg.PSTAT_MODE_EFF 3, 1), (Reg.PAIR_COURSE_B 3, 7)] fun d => d.setPr 3 { d.pr 3 with cmds := [1] }, by decide⟩,
    ⟨3, runningWith [(Reg.PAIR_EN 3, 1), (Reg.PAIR_MODE 3, 1), (Reg.PSTAT_MODE_EFF 3, 1), (Reg.PAIR_COURSE_B 3, 7)] fun d => d.setPr 3 { d.pr 3 with cmds := [2] }, by decide⟩,
    ⟨3, runningWith [(Reg.PAIR_EN 3, 1), (Reg.PAIR_MODE 3, 1), (Reg.PSTAT_MODE_EFF 3, 1), (Reg.PAIR_COURSE_B 3, 7)] fun d => d.setPr 3 { d.pr 3 with cmds := [3] }, by decide⟩,
    ⟨3, runningWith [(Reg.PAIR_EN 3, 1), (Reg.PAIR_MODE 3, 1), (Reg.PSTAT_MODE_EFF 3, 1), (Reg.PAIR_COURSE_B 3, 7)] fun d => d.setPr 3 { d.pr 3 with cmds := [4] }, by decide⟩,
    ⟨3, runningWith [(Reg.PAIR_EN 3, 1), (Reg.PAIR_MODE 3, 1), (Reg.PSTAT_MODE_EFF 3, 1), (Reg.PAIR_COURSE_B 3, 7)] fun d => d.setPr 3 { d.pr 3 with cmds := [5] }, by decide⟩,
    ⟨3, runningWith [(Reg.PSTAT_MODE_EFF 3, 2), (Reg.PSTAT_STATE 3, parLost)] fun d => d.setPr 3 { d.pr 3 with cmds := [6] }, by decide⟩,
    ⟨3, runningWith [(Reg.PSTAT_FROM_A 3, 5)] fun d => d.setPr 3 { d.pr 3 with cmds := [7] }, by decide⟩,
    ⟨3, runningWith [(Reg.PAIR_EN 3, 1), (Reg.PAIR_MODE 3, 1), (Reg.PSTAT_MODE_EFF 3, 1), (Reg.PAIR_COURSE_B 3, 7)] fun d => d.setPr 3 { d.pr 3 with cmds := [2, 5] }, by decide⟩,
    ⟨3, runningWith [(Reg.PAIR_EN 3, 1), (Reg.PSTAT_MODE_EFF 3, 1), (Reg.PAIR_COURSE_A 3, 5), (Reg.CRSTAT_SF 5, 1)] fun d => d.setPr 3 { d.pr 3 with sfA := ⟨false, some 9⟩, sdB := ⟨false, some 12⟩ }, by decide⟩,
    ⟨3, runningWith [(Reg.PAIR_EN 3, 1), (Reg.PSTAT_MODE_EFF 3, 1)] fun d => d.setPr 3 { d.pr 3 with fs := true }, by decide⟩,
    ⟨3, runningWith [(Reg.PAIR_EN 3, 1), (Reg.PSTAT_MODE_EFF 3, 1)] fun d => d.setPr 3 { d.pr 3 with wtr := some 4 }, by decide⟩⟩

/-- States and operands that meet the hypotheses of each clause of TableWindowAccesses. -/
theorem test_witness_TableWindowAccesses :
    (∃ w : TblWindow, ∃ v : Word, ∃ ts : TableSpec, ∃ s : State, s.Inv ∧ s.dev.pageLive (tblPage w) = true ∧ s.dev.pageInTest (tblPage w) = false ∧ v.getLsbD 1 = false ∧ tableAt (tblPage w) (s.dev.tblCode w) = some ts ∧ s.dev.rd (tblIndex w) < ts.count) ∧
    (∃ w : TblWindow, ∃ v : Word, ∃ ts : TableSpec, ∃ s : State, s.Inv ∧ s.dev.pageLive (tblPage w) = true ∧ s.dev.pageInTest (tblPage w) = false ∧ v.getLsbD 1 = false ∧ tableAt (tblPage w) (s.dev.tblCode w) = some ts ∧ s.dev.rd (tblIndex w) < ts.count) ∧
    (∃ w : TblWindow, ∃ v : Word, ∃ ts : TableSpec, ∃ s : State, s.Inv ∧ s.dev.pageLive (tblPage w) = true ∧ s.dev.pageInTest (tblPage w) = false ∧ v.getLsbD 1 = false ∧ tableAt (tblPage w) (s.dev.tblCode w) = some ts ∧ s.dev.rd (tblIndex w) < ts.count) ∧
    (∃ w : TblWindow, ∃ v : Word, ∃ ts : TableSpec, ∃ s : State, s.Inv ∧ s.dev.pageLive (tblPage w) = true ∧ s.dev.pageInTest (tblPage w) = false ∧ v.getLsbD 0 = false ∧ w ≠ .collim ∧ tableAt (tblPage w) (s.dev.tblCode w) = some ts ∧ (coveredTables (tblPage w)).any (fun x => x.code = s.dev.tblCode w) = true ∧ s.dev.rd (tblIndex w) < ts.count ∧ ts.banked = false ∧ ts.id ≠ tableCMD.id ∧ ts.words.any (fun fs => fs.any fun f => f.acc = .rwa) = true ∧ (s.dev.hdr ts.page).cstate = .opened ∧ setsReserved ts (s.dev.words (tblData w).1 (tblData w).2) = false) ∧
    (∃ v : Word, ∃ s : State, s.Inv ∧ s.dev.pageLive (0x030) = true ∧ s.dev.pageInTest (0x030) = false ∧ v.getLsbD 0 = false ∧ s.dev.rd Reg.PERF_TBL_SEL_TABLE = 0 ∧ (s.dev.hdr 0x030).cstate = .opened ∧ setsReserved tableCNTCFG (s.dev.words (regCell 0x030 0x050) 4) = false) ∧
    (∃ v : Word, ∃ s : State, s.Inv ∧ s.dev.pageLive (0x030) = true ∧ s.dev.pageInTest (0x030) = false ∧ v.getLsbD 0 = false ∧ s.dev.rd Reg.PERF_TBL_SEL_TABLE = 1 ∧ setsReserved tablePVALUE (s.dev.words (regCell 0x030 0x050) 4) = false) ∧
    (∃ w : TblWindow, ∃ v : Word, ∃ ts : TableSpec, ∃ s : State, s.Inv ∧ s.dev.pageLive (tblPage w) = true ∧ s.dev.pageInTest (tblPage w) = false ∧ v.getLsbD 0 = false ∧ w ≠ .collim ∧ tableAt (tblPage w) (s.dev.tblCode w) = some ts ∧ ts.count ≤ s.dev.rd (tblIndex w)) ∧
    (∃ w : TblWindow, ∃ v : Word, ∃ ts : TableSpec, ∃ s : State, s.Inv ∧ s.dev.pageLive (tblPage w) = true ∧ s.dev.pageInTest (tblPage w) = false ∧ v.getLsbD 0 = false ∧ w ≠ .collim ∧ tableAt (tblPage w) (s.dev.tblCode w) = some ts ∧ ts.count ≤ s.dev.rd (tblIndex w)) :=
  ⟨⟨.relay, 0, tableRTX, running [], by decide⟩,
    ⟨.perf, 0, tablePVALUE, running [(Reg.PERF_TBL_SEL_TABLE, 1), (Reg.PERF_TBL_INDEX_AUTO_INC, 1), (Reg.PERF_TBL_INDEX_INDEX, 8191)], by decide⟩,
    ⟨.collim, 0x100, tableCOLREC, running [], by decide⟩,
    ⟨.sidereal, 0, tableOUT, running [(Reg.SIDEREAL_TBL_SEL_TABLE, 1), (Reg.SIDEREAL_TBL_INDEX_INDEX, 7), (⟨regCell 0x091 0x050, 0, 32⟩, 0x31)], by decide⟩,
    ⟨0, running [(Reg.PERF_TBL_INDEX_AUTO_INC, 1), (⟨regCell 0x030 0x050, 0, 2⟩, 1)], by decide⟩,
    ⟨0, running [(Reg.PERF_TBL_SEL_TABLE, 1), (⟨regCell 0x030 0x050, 0, 32⟩, 0x89ABCDEF), (⟨regCell 0x030 0x054, 0, 32⟩, 0x12)], by decide⟩,
    ⟨.sidereal, 0, tableOUT, running [(Reg.SIDEREAL_TBL_SEL_TABLE, 1), (Reg.SIDEREAL_TBL_INDEX_INDEX, 8)], by decide⟩,
    ⟨.sched, 0, tableCRSCFG, running [(Reg.SCHED_TBL_INDEX_INDEX, 65535), (Reg.SCHED_TBL_SEL_TABLE, 1)], by decide⟩⟩

/-- States and operands that meet the hypotheses of each clause of BulkLoads. -/
theorem test_witness_BulkLoads :
    (∃ s : State, s.Inv ∧ s.dev.pageLive (0x301) = true ∧ s.dev.pageInTest (0x301) = false ∧ s.dev.on Reg.LOAD_CTRL_BUSY = false) ∧
    (∃ l : BulkLoad, ∃ ts : TableSpec, ∃ s : State, s.Inv ∧ s.dev.parse.load = some l ∧ s.dev.on Reg.LOAD_CTRL_ERR = false ∧ l.done < l.count ∧ inWindow (l.src + 160 * l.done) 160 = true ∧ tableAt 0x301 l.table = some ts ∧ ts ∈ [tableEDIT, tablePORTDEFAULT, tableTEMPLATE] ∧ fieldLE (s.bytes (winAddr (l.src + 160 * l.done)) 160) 0 4 % 2 ^ 20 < ts.count ∧ s.dev.bankLive l.bank = false ∧ setsReserved ts ((List.range 36).map fun k => BitVec.ofNat 32 (fieldLE (s.bytes (winAddr (l.src + 160 * l.done)) 160) (4 + 4 * k) 4)) = false) ∧
    (∃ l : BulkLoad, ∃ s : State, s.Inv ∧ s.dev.parse.load = some l ∧ s.dev.on Reg.LOAD_CTRL_ERR = false ∧ l.done < l.count ∧ inWindow (l.src + 160 * l.done) 160 = false) ∧
    (∃ l : BulkLoad, ∃ s : State, s.Inv ∧ s.dev.parse.load = some l ∧ (s.dev.on Reg.LOAD_CTRL_ERR = true ∨ l.count ≤ l.done)) :=
  ⟨⟨running [(Reg.LOAD_COUNT, 3), (Reg.LOAD_CTRL_ERR, 1)], by decide⟩,
    ⟨⟨4, 1, 320, 9, 2, 0⟩, tablePORTDEFAULT, { runningWith [] fun d => { d with parse := { d.parse with load := some ⟨4, 1, 320, 9, 2, 0⟩ } } with mem := [(winAddr 640, 5), (winAddr 644, 7)] }, by decide⟩,
    ⟨⟨4, 1, 0xFFFFFFFF, 9, 2, 0⟩, runningWith [] fun d => { d with parse := { d.parse with load := some ⟨4, 1, 0xFFFFFFFF, 9, 2, 0⟩ } }, by decide⟩,
    ⟨⟨4, 1, 320, 9, 9, 4⟩, runningWith [(Reg.LOAD_CTRL_BUSY, 1)] fun d => { d with parse := { d.parse with load := some ⟨4, 1, 320, 9, 9, 4⟩ } }, by decide⟩⟩

/-- States and operands that meet the hypotheses of each clause of SnapshotsEventsAndCounters. -/
theorem test_witness_SnapshotsEventsAndCounters :
    (∃ page : BitVec 12, ∃ v : Word, ∃ off : Nat, ∃ offs : List Nat, ∃ s : State, s.Inv ∧ s.dev.pageLive (page.toNat) = true ∧ s.dev.pageInTest (page.toNat) = false ∧ snapshotOf page.toNat = some (off, offs) ∧ s.dev.portHidden page.toNat off = false ∧ v.getLsbD 1 = false) ∧
    (∃ page : BitVec 12, ∃ v : Word, ∃ off : Nat, ∃ offs : List Nat, ∃ s : State, s.Inv ∧ s.dev.pageLive (page.toNat) = true ∧ s.dev.pageInTest (page.toNat) = false ∧ snapshotOf page.toNat = some (off, offs) ∧ s.dev.portHidden page.toNat off = false ∧ v.getLsbD 1 = false) ∧
    (∃ page : BitVec 12, ∃ off : Nat, ∃ offs : List Nat, ∃ s : State, s.Inv ∧ s.dev.pageLive (page.toNat) = true ∧ s.dev.pageInTest (page.toNat) = false ∧ snapshotOf page.toNat = some (off, offs) ∧ s.dev.portHidden page.toNat off = false) ∧
    (∃ page : BitVec 12, ∃ off : Nat, ∃ offs : List Nat, ∃ s : State, s.Inv ∧ s.dev.pageLive (page.toNat) = true ∧ s.dev.pageInTest (page.toNat) = false ∧ snapshotOf page.toNat = some (off, offs) ∧ s.dev.portHidden page.toNat off = false) ∧
    (∃ page : BitVec 12, ∃ off : Nat, ∃ offs : List Nat, ∃ s : State, s.Inv ∧ s.dev.pageLive (page.toNat) = true ∧ s.dev.pageInTest (page.toNat) = false ∧ snapshotOf page.toNat = some (off, offs) ∧ s.dev.portHidden page.toNat off = true) ∧
    (∃ s : State, s.Inv ∧ s.dev.pageLive (0x021) = true ∧ s.dev.pageInTest (0x021) = false) ∧
    (∃ page : BitVec 12, ∃ g : Nat, ∃ s : State, s.Inv ∧ s.dev.pageLive page.toNat = true ∧ page.toNat < 0x400 ∧ pageGroup page.toNat = some g) ∧
    (∃ k : Fin 32, ∃ s : State, s.Inv ∧ (sget (dflt VecState.reset) s.dev.ev.vecs k).held = true) ∧
    (∃ k : Fin 32, ∃ s : State, s.Inv ∧ (sget (dflt VecState.reset) s.dev.ev.vecs k).held = true) ∧
    (∃ k : Fin 256, ∃ s : State, s.Inv ∧ s.dev.pageLive (0x400 + k) = true ∧ s.dev.userPage k = true ∧ s.dev.on Reg.PERF_CTRL_FREEZE = true) ∧
    (∃ v : Word, ∃ s : State, s.Inv ∧ s.dev.pageLive (0x030) = true ∧ s.dev.pageInTest (0x030) = false ∧ v &&& ~~~ 3 = 0) :=
  ⟨⟨0x2C5, 0, 0x04C, (List.range 16).map fun k => 0x050 + 4 * k, running [((Reg.RX_RUNT 5).run, 9)], by decide⟩,
    ⟨0x342, 0, 0x040, (List.range 12).map fun k => 0x044 + 4 * k, running [(Reg.DROP_SF.run, 9)], by decide⟩,
    ⟨0x302, 0x040, (List.range 14).map fun k => 0x044 + 4 * k, running [(Reg.EDIT_DROP.run, 9)], by decide⟩,
    ⟨0x0A2, 0x040, (List.range 19).map fun k => 0x044 + 4 * k, running [], by decide⟩,
    ⟨0x2C1, 0x04C, (List.range 16).map fun k => 0x050 + 4 * k, running [(Reg.OCT_CFG_WIDTH 0, 3)], by decide⟩,
    ⟨runningWith [] fun d => { d with ev := { d.ev with groups := [(3, ⟨7, 0, 0⟩)] } }, by decide⟩,
    ⟨0x2C4, 22, runningWith [] fun d => { d with ev := { d.ev with groups := [(22, ⟨7, 4, 0⟩)] } }, by decide⟩,
    ⟨7, runningWith [(Reg.VEC_HOLDOFF_HOLDOFF_US 7, 5)] fun d => { d with ev := { d.ev with vecs := [(7, ⟨true, true, 3⟩)], groups := [(9, ⟨4, 6, 0x27⟩)] } }, by decide⟩,
    ⟨7, runningWith [] fun d => { d with ev := { d.ev with vecs := [(7, ⟨true, true, 3⟩)] } }, by decide⟩,
    ⟨1, runningWith [(Reg.PERF_CTRL_FREEZE, 1), (Reg.USER_EN_EN 0, 2), (Reg.CNT_CFG_CHAIN 36, 1)] fun d => { d with perf := ⟨[(36, 0x123456789AB), (37, 5)]⟩ }, by decide⟩,
    ⟨1, runningWith [(Reg.OVF_OVF 3, 9)] fun d => { d with perf := ⟨[(36, 0x123456789AB), (37, 5)]⟩ }, by decide⟩⟩

/-- States and operands that meet the hypotheses of each clause of ClientPortsAndInlet. -/
theorem test_witness_ClientPortsAndInlet :
    (∃ p : Fin 64, ∃ frame : List Byte, ∃ s : State, s.Inv ∧ s.dev.hubOn = true ∧ s.dev.portUp p = true ∧ 64 ≤ frame.length ∧ frame.length ≤ s.dev.rd (Reg.PORT_CTRL_MAX_FRAME p) ∧ crc32 (frame.take (frame.length - 4)) = fieldLE frame (frame.length - 4) 4 ∧ fieldBE (frame.take (frame.length - 4)) 12 2 ≠ 0x8808 ∧ s.dev.preclassHit (s.dev.portGroup p) (preclassKey p (frame.take (frame.length - 4))) = none ∧ (s.dev.parse.inlet.filter fun e => e.1 = s.dev.inletGroup p && e.2.reserved == false).length < 512) ∧
    (∃ p : Fin 64, ∃ frame : List Byte, ∃ s : State, s.Inv ∧ s.dev.hubOn = true ∧ s.dev.portUp p = true ∧ frame.length < 64) ∧
    (∃ p : Fin 64, ∃ frame : List Byte, ∃ s : State, s.Inv ∧ s.dev.hubOn = true ∧ s.dev.portUp p = true ∧ frame.length < 64) ∧
    (∃ p : Fin 64, ∃ frame : List Byte, ∃ s : State, s.Inv ∧ s.dev.hubOn = true ∧ s.dev.portUp p = true ∧ 64 ≤ frame.length ∧ s.dev.rd (Reg.PORT_CTRL_MAX_FRAME p) < frame.length) ∧
    (∃ p : Fin 64, ∃ frame : List Byte, ∃ s : State, s.Inv ∧ s.dev.hubOn = true ∧ s.dev.portUp p = true ∧ 64 ≤ frame.length ∧ frame.length ≤ s.dev.rd (Reg.PORT_CTRL_MAX_FRAME p) ∧ crc32 (frame.take (frame.length - 4)) ≠ fieldLE frame (frame.length - 4) 4 ∧ s.dev.preclassHit (s.dev.portGroup p) (preclassKey p (frame.take (frame.length - 4))) = none) ∧
    (∃ p : Fin 64, ∃ s : State, s.Inv ∧ s.dev.hubOn = true ∧ s.dev.portExists p = true) ∧
    (∃ p : Fin 64, ∃ s : State, s.Inv ∧ s.dev.hubOn = true ∧ s.dev.portExists p = true) ∧
    (∃ p : Fin 64, ∃ s : State, s.Inv ∧ s.dev.hubOn = true ∧ s.dev.portExists p = true) ∧
    (∃ p : Fin 64, ∃ s : State, s.Inv ∧ s.dev.hubOn = true ∧ s.dev.portExists p = true) ∧
    (∃ g : Fin 16, ∃ e : Nat × Packet, ∃ n : Nat, ∃ s : State, s.Inv ∧ s.dev.nextPacket g = some e ∧ s.dev.freeThread g = some n) :=
  ⟨⟨8, (List.replicate 60 0 ++ bytesLE 4 68323592), running [(Reg.OCT_CFG_WIDTH 8, 2), (Reg.PORT_STAT_LINK_UP 8, 1)], by decide⟩,
    ⟨8, [1, 2], running [(Reg.OCT_CFG_WIDTH 8, 2), (Reg.PORT_STAT_LINK_UP 8, 1)], by decide⟩,
    ⟨8, (List.replicate 20 0 ++ bytesLE 4 265657229), running [(Reg.OCT_CFG_WIDTH 8, 2), (Reg.PORT_STAT_LINK_UP 8, 1)], by decide⟩,
    ⟨8, List.replicate 70 1, running [(Reg.OCT_CFG_WIDTH 8, 2), (Reg.PORT_STAT_LINK_UP 8, 1), (Reg.PORT_CTRL_MAX_FRAME 8, 66)], by decide⟩,
    ⟨8, List.replicate 70 1, running [(Reg.OCT_CFG_WIDTH 8, 2), (Reg.PORT_STAT_LINK_UP 8, 1)], by decide⟩,
    ⟨8, running [(Reg.OCT_CFG_WIDTH 8, 2), (Reg.PORT_CTRL_EN 8, 1)], by decide⟩,
    ⟨8, running [(Reg.OCT_CFG_WIDTH 8, 2), (Reg.PORT_STAT_LOCAL_FAULT 8, 1)], by decide⟩,
    ⟨8, running [(Reg.OCT_CFG_WIDTH 8, 2)], by decide⟩,
    ⟨9, runningWith [(Reg.OCT_CFG_WIDTH 8, 1), (Reg.ERR_THR_THRESHOLD 9, 3)] fun d => { d with parse := { d.parse with fcs := [(9, 3)] } }, by decide⟩,
    ⟨3, (3, ⟨4, true, 0, 5, [1, 2, 3], 7⟩), 36, runningWith [] fun d => { d with parse := { d.parse with inlet := [(3, ⟨4, false, 0, 5, [1], 7⟩), (3, ⟨4, true, 0, 5, [1, 2, 3], 7⟩)], turn := [(3, 9)] } }, by decide⟩⟩

/-- States and operands that meet the hypotheses of each clause of ParseLookupsAndPasses. -/
theorem test_witness_ParseLookupsAndPasses :
    (∃ g : Fin 16, ∃ n : Fin 64, ∃ th : Thread, ∃ s : State, s.Inv ∧ s.dev.thread? g n = some th ∧ th.wait = none ∧ th.ended = none ∧ th.flagged = false ∧ isFragment th.pkt.bytes = false ∧ badLength th.pkt.bytes = false ∧ s.dev.parse.lostBanks.contains (s.dev.epochOf th.pkt.epoch).bank = false ∧ th.passCycles + 1 ≤ (s.dev.epochOf th.pkt.epoch).cycLimit ∧ th.cycles + 1 ≤ (s.dev.epochOf th.pkt.epoch).cycMax ∧ th.exacts < (s.dev.epochOf th.pkt.epoch).lkeMax) ∧
    (∃ g : Fin 16, ∃ n : Fin 64, ∃ th : Thread, ∃ s : State, s.Inv ∧ s.dev.thread? g n = some th ∧ th.wait = none ∧ th.ended = none ∧ th.flagged = false ∧ isFragment th.pkt.bytes = false ∧ badLength th.pkt.bytes = false ∧ s.dev.parse.lostBanks.contains (s.dev.epochOf th.pkt.epoch).bank = false ∧ th.passCycles + 1 ≤ (s.dev.epochOf th.pkt.epoch).cycLimit ∧ th.cycles + 1 ≤ (s.dev.epochOf th.pkt.epoch).cycMax ∧ th.wilds < (s.dev.epochOf th.pkt.epoch).lkwMax) ∧
    (∃ g : Fin 16, ∃ n : Fin 64, ∃ th : Thread, ∃ s : State, s.Inv ∧ s.dev.thread? g n = some th ∧ th.wait = none ∧ th.ended = none ∧ th.flagged = false ∧ isFragment th.pkt.bytes = false ∧ badLength th.pkt.bytes = false ∧ s.dev.parse.lostBanks.contains (s.dev.epochOf th.pkt.epoch).bank = false ∧ th.passCycles + 1 ≤ (s.dev.epochOf th.pkt.epoch).cycLimit ∧ th.cycles + 1 ≤ (s.dev.epochOf th.pkt.epoch).cycMax ∧ (s.dev.epochOf th.pkt.epoch).lkeMax ≤ th.exacts ∧ getBits (s.dev.epochOf th.pkt.epoch).action 16 2 = 0) ∧
    (∃ g : Fin 16, ∃ n : Fin 64, ∃ th : Thread, ∃ s : State, s.Inv ∧ s.dev.thread? g n = some th ∧ getBits (s.dev.epochOf th.pkt.epoch).action 16 2 = 0) ∧
    (∃ g : Fin 16, ∃ n : Fin 64, ∃ r : Fin 16, ∃ v : BitVec 64, ∃ th : Thread, ∃ s : State, s.Inv ∧ s.dev.thread? g n = some th ∧ th.wait = none ∧ th.ended = none ∧ th.flagged = false ∧ isFragment th.pkt.bytes = false ∧ badLength th.pkt.bytes = false ∧ s.dev.parse.lostBanks.contains (s.dev.epochOf th.pkt.epoch).bank = false ∧ th.passCycles + 2 ≤ (s.dev.epochOf th.pkt.epoch).cycLimit ∧ th.cycles + 2 ≤ (s.dev.epochOf th.pkt.epoch).cycMax ∧ Running.reg ⟨th, s.dev.threadRegs th⟩ r = v ∧ getBits (v.truncate 32) 16 2 = 0 ∧ getBits (v.truncate 32) 23 2 = 0) ∧
    (∃ g : Fin 16, ∃ n : Fin 64, ∃ th : Thread, ∃ d : Word, ∃ s : State, s.Inv ∧ s.dev.thread? g n = some th ∧ th.wait = none ∧ th.ended = none ∧ th.flagged = false ∧ isFragment th.pkt.bytes = false ∧ badLength th.pkt.bytes = false ∧ s.dev.parse.lostBanks.contains (s.dev.epochOf th.pkt.epoch).bank = false ∧ th.passCycles + 1 ≤ (s.dev.epochOf th.pkt.epoch).cycLimit ∧ th.cycles + 1 ≤ (s.dev.epochOf th.pkt.epoch).cycMax ∧ th.result = none ∧ s.dev.word (tableCell tablePORTDEFAULT.id ((s.dev.epochOf th.pkt.epoch).bank * 2 ^ 19 + th.pkt.port) 0) = d ∧ getBits d 16 2 = 1 ∧ getBits d 23 2 = 0) ∧
    (∃ g : Fin 16, ∃ n : Fin 64, ∃ th : Thread, ∃ s : State, s.Inv ∧ s.dev.thread? g n = some th ∧ th.wait = none ∧ th.ended = none ∧ th.flagged = false ∧ isFragment th.pkt.bytes = false ∧ badLength th.pkt.bytes = false ∧ s.dev.parse.lostBanks.contains (s.dev.epochOf th.pkt.epoch).bank = false ∧ ((s.dev.epochOf th.pkt.epoch).cycLimit ≤ th.passCycles ∨ (s.dev.epochOf th.pkt.epoch).cycMax ≤ th.cycles) ∧ getBits (s.dev.epochOf th.pkt.epoch).action 16 2 = 2) ∧
    (∃ g : Fin 16, ∃ n : Fin 64, ∃ off : Nat, ∃ count : Fin 8, ∃ th : Thread, ∃ w : Word, ∃ s : State, s.Inv ∧ s.dev.thread? g n = some th ∧ th.wait = none ∧ th.ended = none ∧ th.flagged = false ∧ isFragment th.pkt.bytes = false ∧ badLength th.pkt.bytes = false ∧ s.dev.parse.lostBanks.contains (s.dev.epochOf th.pkt.epoch).bank = false ∧ th.passCycles + 1 ≤ (s.dev.epochOf th.pkt.epoch).cycLimit ∧ th.cycles + 1 ≤ (s.dev.epochOf th.pkt.epoch).cycMax ∧ th.pkt.bytes.length < off + count + 1 ∧ th.outer = false ∧ th.cycles + 9 ≤ (s.dev.epochOf th.pkt.epoch).cycMax ∧ th.wilds < (s.dev.epochOf th.pkt.epoch).lkwMax ∧ s.dev.wildHit 0xFF (outerKey th.pkt.port false true false th.pkt.bytes) th.pkt.epoch = none ∧ s.dev.word (tableCell tablePORTDEFAULT.id ((s.dev.epochOf th.pkt.epoch).bank * 2 ^ 19 + th.pkt.port) 0) = w ∧ getBits w 16 2 = 1 ∧ getBits w 23 2 = 0) ∧
    (∃ g : Fin 16, ∃ n : Fin 64, ∃ th : Thread, ∃ s : State, s.Inv ∧ s.dev.thread? g n = some th ∧ getBits (s.dev.epochOf th.pkt.epoch).action 16 2 = 2) ∧
    (∃ p : Fin 64, ∃ reserved : Bool, ∃ s : State, s.Inv ∧ s.dev.parse.reorder.find? (fun y => decide (y.pkt.port = p.val) && (y.pkt.reserved == reserved) && decide (y.pkt.seq = sget (dflt 0) s.dev.parse.released (seqIndex p reserved))) = none ∧ s.dev.parse.epochs.length ≤ 1) ∧
    (∃ p : Fin 64, ∃ reserved : Bool, ∃ x : Parsed, ∃ f : Nat, ∃ bytes : List Byte, ∃ s : State, s.Inv ∧ s.dev.parse.reorder.find? (fun y => decide (y.pkt.port = p.val) && (y.pkt.reserved == reserved) && decide (y.pkt.seq = sget (dflt 0) s.dev.parse.released (seqIndex p reserved))) = some x ∧ (s.dev.parse.reorder.erase x).find? (fun y => decide (y.pkt.port = p.val) && (y.pkt.reserved == reserved) && decide (y.pkt.seq = x.pkt.seq + 1)) = none ∧ x.exit = .flow f bytes ∧ reserved = true ∧ s.dev.flowReserved f = true ∧ s.dev.on (Reg.FLOW_ING_EN f) = true ∧ s.dev.on (Reg.CSTAT_STARVED (s.dev.rd (Reg.FLOW_ING_COURSE f))) = false ∧ s.dev.parse.epochs.length = 1) :=
  ⟨⟨3, 9, (Thread.start 3 9 ⟨4, true, 0, 5, [1, 2, 3], 7⟩), runningWith [] fun d => { d with parse := { d.parse with threads := [(Thread.start 3 9 ⟨4, true, 0, 5, [1, 2, 3], 7⟩)], epochs := [⟨5, 100, 4, 4, 90, 0, 0x20011⟩] } }, by decide⟩,
    ⟨3, 9, (Thread.start 3 9 ⟨4, true, 0, 5, [1, 2, 3], 7⟩), runningWith [(⟨tableCell tableWILD.id 8 34, 0, 32⟩, 77), (⟨tableCell tableWILD.id 8 32, 0, 32⟩, 0x107)] fun d => { d with parse := { d.parse with threads := [(Thread.start 3 9 ⟨4, true, 0, 5, [1, 2, 3], 7⟩)], epochs := [⟨5, 100, 4, 4, 90, 0, 0x20011⟩] } }, by decide⟩,
    ⟨3, 9, { Thread.start 3 9 ⟨4, true, 0, 5, [1, 2, 3], 7⟩ with exacts := 4 }, runningWith [] fun d => { d with parse := { d.parse with threads := [{ Thread.start 3 9 ⟨4, true, 0, 5, [1, 2, 3], 7⟩ with exacts := 4 }], epochs := [⟨5, 100, 4, 4, 90, 0, 0x11⟩] } }, by decide⟩,
    ⟨3, 9, (Thread.start 3 9 ⟨4, true, 0, 5, [1, 2, 3], 7⟩), runningWith [] fun d => { d with parse := { d.parse with threads := [(Thread.start 3 9 ⟨4, true, 0, 5, [1, 2, 3], 7⟩)], epochs := [⟨5, 100, 4, 4, 90, 0, 0x11⟩] } }, by decide⟩,
    ⟨3, 9, 5, 0x1234, (Thread.start 3 9 ⟨4, true, 0, 5, [1, 2, 3], 7⟩), runningWith [] fun d => { d with parse := { d.parse with threads := [(Thread.start 3 9 ⟨4, true, 0, 5, [1, 2, 3], 7⟩)], regs := [(201, (List.replicate 16 0).set 5 0x1234)], epochs := [⟨5, 100, 4, 4, 90, 0, 0x20011⟩] } }, by decide⟩,
    ⟨3, 9, (Thread.start 3 9 ⟨4, true, 0, 5, [1, 2, 3], 7⟩), 0x10000, runningWith [(⟨tableCell tablePORTDEFAULT.id 4 0, 0, 32⟩, 0x10000)] fun d => { d with parse := { d.parse with threads := [(Thread.start 3 9 ⟨4, true, 0, 5, [1, 2, 3], 7⟩)], epochs := [⟨5, 100, 4, 4, 90, 0, 0x20011⟩] } }, by decide⟩,
    ⟨3, 9, { Thread.start 3 9 ⟨4, true, 0, 5, [1, 2, 3], 7⟩ with passCycles := 90 }, runningWith [] fun d => { d with parse := { d.parse with threads := [{ Thread.start 3 9 ⟨4, true, 0, 5, [1, 2, 3], 7⟩ with passCycles := 90 }], epochs := [⟨5, 100, 4, 4, 90, 0, 0x20011⟩] } }, by decide⟩,
    ⟨3, 9, 1, 7, (Thread.start 3 9 ⟨4, true, 0, 5, [1, 2, 3], 7⟩), 0x10000, runningWith [(⟨tableCell tablePORTDEFAULT.id 4 0, 0, 32⟩, 0x10000)] fun d => { d with parse := { d.parse with threads := [(Thread.start 3 9 ⟨4, true, 0, 5, [1, 2, 3], 7⟩)], epochs := [⟨5, 100, 4, 4, 90, 0, 0x20011⟩] } }, by decide⟩,
    ⟨3, 9, (Thread.start 3 9 ⟨4, true, 0, 5, [1, 2, 3], 7⟩), runningWith [] fun d => { d with parse := { d.parse with threads := [(Thread.start 3 9 ⟨4, true, 0, 5, [1, 2, 3], 7⟩)], epochs := [⟨5, 100, 4, 4, 90, 0, 0x20011⟩] } }, by decide⟩,
    ⟨4, true, running [], by decide⟩,
    ⟨4, true, ⟨⟨4, true, 3, 5, [1, 2, 3], 7⟩, .flow 12 [1, 2, 3]⟩, 12, [1, 2, 3], runningWith [(Reg.FLOW_ADMITTED 12, 1), (Reg.FLOW_CLASS 12, 1), (Reg.FLOW_ING_EN 12, 1)] fun d => { d with parse := { d.parse with reorder := [⟨⟨4, true, 3, 5, [1, 2, 3], 7⟩, .flow 12 [1, 2, 3]⟩], released := [(9, 3)], epochs := [⟨5, 100, 4, 4, 90, 0, 0⟩] } }, by decide⟩⟩

/-- States and operands that meet the hypotheses of each clause of MicrocodeLoads. -/
theorem test_witness_MicrocodeLoads :
    (∃ v : Word, ∃ s : State, s.Inv ∧ s.dev.pageLive (0x303) = true ∧ s.dev.pageInTest (0x303) = false ∧ s.dev.bankLive ((s.dev.writeWord 0x303 0x040 2 (v ||| 2)).rd Reg.UCODE_CTRL_BANK) = false ∧ s.dev.on Reg.UCODE_CTRL_BUSY = false) ∧
    (∃ v : Word, ∃ s : State, s.Inv ∧ s.dev.pageLive (0x303) = true ∧ s.dev.pageInTest (0x303) = false ∧ (s.dev.bankLive ((s.dev.writeWord 0x303 0x040 2 (v ||| 2)).rd Reg.UCODE_CTRL_BANK) = true ∨ s.dev.on Reg.UCODE_CTRL_BUSY = true)) ∧
    (∃ u : Nat × Nat × Nat, ∃ s : State, s.Inv ∧ s.dev.parse.ucode = some u) :=
  ⟨⟨1, running [(Reg.UCODE_LEN_BYTES, 640), (Reg.UCODE_CTRL_VALID_1, 1)], by decide⟩,
    ⟨1, running [(Reg.UCODE_CTRL_BUSY, 1)], by decide⟩,
    ⟨(1, 64, 0), runningWith [(Reg.UCODE_CTRL_BUSY, 1)] fun d => { d with parse := { d.parse with ucode := some (1, 64, 0) } }, by decide⟩⟩

/-- States and operands that meet the hypotheses of each clause of FlowAdmissionAndRemoval. -/
theorem test_witness_FlowAdmissionAndRemoval :
    (∃ v : Word, ∃ cause : Nat, ∃ s : State, s.Inv ∧ s.dev.pageLive (0x340) = true ∧ s.dev.pageInTest (0x340) = false ∧ s.dev.on Reg.ADM_STAT_BUSY = false ∧ ((((s.dev.writeWord 0x340 0x040 4 ((v &&& ~~~ 3) ||| BitVec.ofNat 32 5)).wr Reg.ADM_STAT_FLOW (declOf s.dev.admData).flow).wr Reg.ADM_STAT_RESULT 0).wr Reg.ADM_STAT_CAUSE 0).admitCause (declOf s.dev.admData) = some cause) ∧
    (∃ v : Word, ∃ cause : Nat, ∃ s : State, s.Inv ∧ s.dev.pageLive (0x340) = true ∧ s.dev.pageInTest (0x340) = false ∧ s.dev.on Reg.ADM_STAT_BUSY = false ∧ ((((s.dev.writeWord 0x340 0x040 4 ((v &&& ~~~ 3) ||| BitVec.ofNat 32 5)).wr Reg.ADM_STAT_FLOW (declOf s.dev.admData).flow).wr Reg.ADM_STAT_RESULT 0).wr Reg.ADM_STAT_CAUSE 0).admitCause (declOf s.dev.admData) = some cause) ∧
    (∃ v : Word, ∃ s : State, s.Inv ∧ s.dev.pageLive (0x340) = true ∧ s.dev.pageInTest (0x340) = false ∧ s.dev.on Reg.ADM_STAT_BUSY = false ∧ ((((s.dev.writeWord 0x340 0x040 4 ((v &&& ~~~ 3) ||| BitVec.ofNat 32 5)).wr Reg.ADM_STAT_FLOW (declOf s.dev.admData).flow).wr Reg.ADM_STAT_RESULT 0).wr Reg.ADM_STAT_CAUSE 0).admitCause (declOf s.dev.admData) = none) ∧
    (∃ v : Word, ∃ s : State, s.Inv ∧ s.dev.pageLive (0x340) = true ∧ s.dev.pageInTest (0x340) = false ∧ s.dev.on Reg.ADM_STAT_BUSY = false ∧ ((((s.dev.writeWord 0x340 0x040 4 ((v &&& ~~~ 3) ||| BitVec.ofNat 32 5)).wr Reg.ADM_STAT_FLOW (declOf s.dev.admData).flow).wr Reg.ADM_STAT_RESULT 0).wr Reg.ADM_STAT_CAUSE 0).admitCause (declOf s.dev.admData) = none) ∧
    (∃ a : AdmOp, ∃ s : State, s.Inv ∧ s.dev.sched.adm = some a ∧ a.op = 1) ∧
    (∃ s : State, s.Inv ∧ s.dev.pageLive (0x340) = true ∧ s.dev.pageInTest (0x340) = false ∧ s.dev.on Reg.ADM_STAT_BUSY = false ∧ s.dev.on (Reg.FLOW_ADMITTED (declOf s.dev.admData).flow) = true) ∧
    (∃ a : AdmOp, ∃ s : State, s.Inv ∧ s.dev.sched.adm = some a ∧ a.op = 2 ∧ s.dev.flowQueue (declOf a.words).flow = []) ∧
    (∃ s : State, s.Inv ∧ s.dev.pageLive (0x340) = true ∧ s.dev.pageInTest (0x340) = false ∧ s.dev.on Reg.ADM_STAT_BUSY = false) :=
  ⟨⟨0, 1, running [], by decide⟩,
    ⟨1, 2, running [(⟨(Reg.ADM_DATA 0).cell, 0, 32⟩, 327685), (⟨(Reg.ADM_DATA 1).cell, 0, 32⟩, 131081), (⟨(Reg.ADM_DATA 2).cell, 0, 32⟩, 77), (⟨(Reg.ADM_DATA 3).cell, 0, 32⟩, 1000), (⟨(Reg.ADM_DATA 4).cell, 0, 32⟩, 4457948), (⟨(Reg.ADM_DATA 5).cell, 0, 32⟩, 3000), (⟨(Reg.ADM_DATA 6).cell, 0, 32⟩, 0), (⟨(Reg.ADM_DATA 7).cell, 0, 32⟩, 0)], by decide⟩,
    ⟨0, running [(⟨(Reg.ADM_DATA 0).cell, 0, 32⟩, 2621445), (⟨(Reg.ADM_DATA 1).cell, 0, 32⟩, 0), (⟨(Reg.ADM_DATA 2).cell, 0, 32⟩, 0), (⟨(Reg.ADM_DATA 3).cell, 0, 32⟩, 1000), (⟨(Reg.ADM_DATA 4).cell, 0, 32⟩, 4457948), (⟨(Reg.ADM_DATA 5).cell, 0, 32⟩, 3000), (⟨(Reg.ADM_DATA 6).cell, 0, 32⟩, 3), (⟨(Reg.ADM_DATA 7).cell, 0, 32⟩, 0), (Reg.OCT_CFG_WIDTH 0, 1), (Reg.PORT_CTRL_EN 3, 1)], by decide⟩,
    ⟨0x3, running [(⟨(Reg.ADM_DATA 0).cell, 0, 32⟩, 2621445), (⟨(Reg.ADM_DATA 1).cell, 0, 32⟩, 0), (⟨(Reg.ADM_DATA 2).cell, 0, 32⟩, 0), (⟨(Reg.ADM_DATA 3).cell, 0, 32⟩, 1000), (⟨(Reg.ADM_DATA 4).cell, 0, 32⟩, 4457948), (⟨(Reg.ADM_DATA 5).cell, 0, 32⟩, 3000), (⟨(Reg.ADM_DATA 6).cell, 0, 32⟩, 3), (⟨(Reg.ADM_DATA 7).cell, 0, 32⟩, 0), (Reg.OCT_CFG_WIDTH 0, 1), (Reg.PORT_CTRL_EN 3, 1)], by decide⟩,
    ⟨⟨1, [5, 0, 0, 1000, 1500, 3000, 3, 0], 0⟩, runningWith [(Reg.ADM_STAT_BUSY, 1)] fun d => { d with sched := { d.sched with adm := some ⟨1, [5, 0, 0, 1000, 1500, 3000, 3, 0], 0⟩ } }, by decide⟩,
    ⟨running [(⟨(Reg.ADM_DATA 0).cell, 0, 32⟩, 5), (Reg.FLOW_ADMITTED 5, 1), (Reg.FLOW_CLASS 5, 1), (Reg.FLOW_ING_EN 5, 1), (Reg.FLOW_PRECLASS 5, 70), (Reg.PRECLASS_VALID 70, 1)], by decide⟩,
    ⟨⟨2, [5], 4⟩, runningWith [(Reg.ADM_STAT_BUSY, 1), (Reg.FLOW_ADMITTED 5, 1)] fun d => { d with sched := { d.sched with adm := some ⟨2, [5], 4⟩ } }, by decide⟩,
    ⟨runningWith [(⟨(Reg.ADM_DATA 0).cell, 0, 32⟩, 5), (Reg.FLOW_LATE 5, 9)] fun d => { d with sched := { d.sched with pdv := [(5, 3, 4)] } }, by decide⟩⟩

/-- States and operands that meet the hypotheses of each clause of EgressOfPackets. -/
theorem test_witness_EgressOfPackets :
    (∃ a : Delivered, ∃ r : List Delivered, ∃ s : State, s.Inv ∧ s.dev.sched.arrivals = a :: r ∧ (s.dev.on (Reg.FLOW_ADMITTED a.pkt.flow) = false ∨ s.dev.on (Reg.FLOW_EGR_EN a.pkt.flow) = false)) ∧
    (∃ a : Delivered, ∃ r : List Delivered, ∃ p : Nat, ∃ s : State, s.Inv ∧ s.dev.sched.arrivals = a :: r ∧ s.dev.on (Reg.FLOW_REVOKED a.pkt.flow) = false ∧ s.dev.on (Reg.FLOW_ADMITTED a.pkt.flow) = true ∧ s.dev.on (Reg.FLOW_EGR_EN a.pkt.flow) = true ∧ s.dev.rd (Reg.FLOW_EGR_COURSE a.pkt.flow) = a.course ∧ s.dev.rd (Reg.FLOW_EGR_PORT a.pkt.flow) = p ∧ s.dev.portUp p = true ∧ a.pkt.cls = 1) ∧
    (∃ a : Delivered, ∃ r : List Delivered, ∃ p : Nat, ∃ s : State, s.Inv ∧ s.dev.sched.arrivals = a :: r ∧ s.dev.on (Reg.FLOW_REVOKED a.pkt.flow) = true ∧ s.dev.on (Reg.FLOW_ADMITTED a.pkt.flow) = true ∧ s.dev.on (Reg.FLOW_EGR_EN a.pkt.flow) = true ∧ s.dev.rd (Reg.FLOW_EGR_COURSE a.pkt.flow) = a.course ∧ s.dev.rd (Reg.FLOW_EGR_PORT a.pkt.flow) = p ∧ s.dev.portUp p = true) ∧
    (∃ a : Delivered, ∃ r : List Delivered, ∃ p : Nat, ∃ s : State, s.Inv ∧ s.dev.sched.arrivals = a :: r ∧ s.dev.on (Reg.FLOW_REVOKED a.pkt.flow) = false ∧ s.dev.on (Reg.FLOW_ADMITTED a.pkt.flow) = true ∧ s.dev.on (Reg.FLOW_EGR_EN a.pkt.flow) = true ∧ s.dev.rd (Reg.FLOW_EGR_COURSE a.pkt.flow) = a.course ∧ s.dev.rd (Reg.FLOW_EGR_PORT a.pkt.flow) = p ∧ s.dev.portUp p = true ∧ a.pkt.cls = 2 ∧ 0 ≤ diff32 ((a.pkt.tIn + s.dev.rd (Reg.FLOW_DELIVER_NS a.pkt.flow)) % 2 ^ 32) s.dev.now32 ∧ diff32 ((a.pkt.tIn + s.dev.rd (Reg.FLOW_DELIVER_NS a.pkt.flow)) % 2 ^ 32) s.dev.now32 ≤ 100000) ∧
    (∃ p : Fin 64, ∃ x : Queued, ∃ s : State, s.Inv ∧ firstDue s.dev.now32 (portList s.dev.sched.hold p) = some x) ∧
    (∃ p : Fin 64, ∃ x : Queued, ∃ r : List Queued, ∃ s : State, s.Inv ∧ s.dev.portUp p = true ∧ portList s.dev.sched.det p = x :: r ∧ x.late = true) ∧
    (∃ p : Fin 64, ∃ x : Queued, ∃ r : List Queued, ∃ s : State, s.Inv ∧ s.dev.portUp p = true ∧ portList s.dev.sched.det p = x :: r ∧ x.late = false) ∧
    (∃ p : Fin 64, ∃ x : Queued, ∃ r : List Queued, ∃ s : State, s.Inv ∧ s.dev.portUp p = true ∧ portList s.dev.sched.det p = [] ∧ portList s.dev.sched.bounded p = x :: r ∧ s.dev.mayStart p x = true) :=
  ⟨⟨⟨3, ⟨12, 1, [1, 2, 3], 7, 0, false, false⟩⟩, [], runningWith [] fun d => { d with sched := { d.sched with arrivals := [⟨3, ⟨12, 1, [1, 2, 3], 7, 0, false, false⟩⟩] } }, by decide⟩,
    ⟨⟨3, ⟨12, 1, [1, 2, 3], 7, 0, false, false⟩⟩, [], 8, runningWith [(Reg.OCT_CFG_WIDTH 8, 2), (Reg.PORT_STAT_LINK_UP 8, 1), (Reg.FLOW_ADMITTED 12, 1), (Reg.FLOW_EGR_EN 12, 1), (Reg.FLOW_EGR_COURSE 12, 3), (Reg.FLOW_EGR_PORT 12, 8)] fun d => { d with sched := { d.sched with arrivals := [⟨3, ⟨12, 1, [1, 2, 3], 7, 0, false, false⟩⟩], bounded := [(8, [⟨9, 1, [], 0, 0, false, false⟩])] } }, by decide⟩,
    ⟨⟨3, ⟨12, 1, [1, 2, 3], 7, 0, false, false⟩⟩, [], 8, runningWith [(Reg.OCT_CFG_WIDTH 8, 2), (Reg.PORT_STAT_LINK_UP 8, 1), (Reg.FLOW_REVOKED 12, 1), (Reg.FLOW_ADMITTED 12, 1), (Reg.FLOW_EGR_EN 12, 1), (Reg.FLOW_EGR_COURSE 12, 3), (Reg.FLOW_EGR_PORT 12, 8)] fun d => { d with sched := { d.sched with arrivals := [⟨3, ⟨12, 1, [1, 2, 3], 7, 0, false, false⟩⟩] } }, by decide⟩,
    ⟨⟨3, ⟨12, 2, [1], 7, 0, false, false⟩⟩, [], 8, runningWith [(Reg.OCT_CFG_WIDTH 8, 2), (Reg.PORT_STAT_LINK_UP 8, 1), (Reg.FLOW_ADMITTED 12, 1), (Reg.FLOW_EGR_EN 12, 1), (Reg.FLOW_EGR_COURSE 12, 3), (Reg.FLOW_EGR_PORT 12, 8), (Reg.FLOW_DELIVER_NS 12, 5000)] fun d => { d with sched := { d.sched with arrivals := [⟨3, ⟨12, 2, [1], 7, 0, false, false⟩⟩] } }, by decide⟩,
    ⟨8, ⟨4, 2, [1], 7, 30, false, false⟩, runningWith [] fun d => { d with sched := { d.sched with hold := [(8, [⟨12, 2, [1], 7, 90, false, false⟩, ⟨4, 2, [1], 7, 30, false, false⟩])] } }, by decide⟩,
    ⟨8, ⟨12, 2, [1], 7, 90, false, true⟩, [], runningWith [(Reg.OCT_CFG_WIDTH 8, 2), (Reg.PORT_STAT_LINK_UP 8, 1)] fun d => { d with sched := { d.sched with det := [(8, [⟨12, 2, [1], 7, 90, false, true⟩])] } }, by decide⟩,
    ⟨8, ⟨12, 2, [1], 7, 90, false, false⟩, [], runningWith [(Reg.OCT_CFG_WIDTH 8, 2), (Reg.PORT_STAT_LINK_UP 8, 1)] fun d => { d with sched := { d.sched with pdv := [(12, 3, 9)], det := [(8, [⟨12, 2, [1], 7, 90, false, false⟩])] } }, by decide⟩,
    ⟨8, ⟨12, 1, [1, 2, 3], 7, 0, false, false⟩, [], runningWith [(Reg.OCT_CFG_WIDTH 8, 2), (Reg.PORT_STAT_LINK_UP 8, 1)] fun d => { d with sched := { d.sched with bounded := [(8, [⟨12, 1, [1, 2, 3], 7, 0, false, false⟩])] } }, by decide⟩⟩

/-- States and operands that meet the hypotheses of each clause of KeySlotOperations. -/
theorem test_witness_KeySlotOperations :
    (∃ v : Word, ∃ k : Nat, ∃ s : State, s.Inv ∧ s.dev.pageLive (0x290) = true ∧ s.dev.pageInTest (0x290) = false ∧ v &&& 0xE0000 = 0 ∧ (s.dev.writeWord 0x290 0x060 0xF0000 (v ||| 0x10000)).rd Reg.KEY_CTRL_SLOT = k ∧ s.dev.inService k = false ∧ (s.dev.writeWord 0x290 0x060 0xF0000 (v ||| 0x10000)).rd Reg.KEY_CTRL_ROLE ≠ 3 ∧ s.dev.rd Reg.LC_STAT_STATE ≠ 3) ∧
    (∃ v : Word, ∃ k : Nat, ∃ s : State, s.Inv ∧ s.dev.pageLive (0x290) = true ∧ s.dev.pageInTest (0x290) = false ∧ v &&& 0xE0000 = 0 ∧ (s.dev.writeWord 0x290 0x060 0xF0000 (v ||| 0x10000)).rd Reg.KEY_CTRL_SLOT = k ∧ (s.dev.inService k = true ∨ (s.dev.writeWord 0x290 0x060 0xF0000 (v ||| 0x10000)).rd Reg.KEY_CTRL_ROLE = 3 ∨ s.dev.rd Reg.LC_STAT_STATE = 3)) ∧
    (∃ v : Word, ∃ k : Nat, ∃ s : State, s.Inv ∧ s.dev.pageLive (0x290) = true ∧ s.dev.pageInTest (0x290) = false ∧ v &&& 0xD0000 = 0 ∧ (s.dev.writeWord 0x290 0x060 0xF0000 (v ||| 0x20000)).rd Reg.KEY_CTRL_SLOT = k ∧ s.dev.inService k = false) ∧
    (∃ v : Word, ∃ k : Nat, ∃ s : State, s.Inv ∧ s.dev.pageLive (0x290) = true ∧ s.dev.pageInTest (0x290) = false ∧ v &&& 0xD0000 = 0 ∧ (s.dev.writeWord 0x290 0x060 0xF0000 (v ||| 0x20000)).rd Reg.KEY_CTRL_SLOT = k ∧ s.dev.inService k = true) ∧
    (∃ v : Word, ∃ k : Nat, ∃ s : State, s.Inv ∧ s.dev.pageLive (0x290) = true ∧ s.dev.pageInTest (0x290) = false ∧ v &&& 0xB0000 = 0 ∧ (s.dev.writeWord 0x290 0x060 0xF0000 (v ||| 0x40000)).rd Reg.KEY_CTRL_SLOT = k) ∧
    (∃ v : Word, ∃ s : State, s.Inv ∧ s.dev.pageLive (0x290) = true ∧ s.dev.pageInTest (0x290) = false ∧ v &&& 0x70000 = 0) ∧
    (∃ v : Word, ∃ s : State, s.Inv ∧ s.dev.pageLive (0x290) = true ∧ s.dev.pageInTest (0x290) = false ∧ v &&& 0x70000 = 0) ∧
    (∃ v : Word, ∃ c : Nat, ∃ s : State, s.Inv ∧ s.dev.pageLive (0x291) = true ∧ s.dev.pageInTest (0x291) = false ∧ (s.dev.writeWord 0x291 0x080 0x200 (v ||| 0x200)).rd Reg.REKEY_COURSE = c ∧ s.dev.txReady (s.dev.txSlot c (1 - s.dev.rd (Reg.CSTAT_KS_TX c))) = true) ∧
    (∃ v : Word, ∃ c : Nat, ∃ s : State, s.Inv ∧ s.dev.pageLive (0x291) = true ∧ s.dev.pageInTest (0x291) = false ∧ (s.dev.writeWord 0x291 0x080 0x200 (v ||| 0x200)).rd Reg.REKEY_COURSE = c ∧ s.dev.txReady (s.dev.txSlot c (1 - s.dev.rd (Reg.CSTAT_KS_TX c))) = false) :=
  ⟨⟨5, 5, runningWith [] fun d => { d with staged := [(0, 7)] }, by decide⟩,
    ⟨3, 3, runningWith [] fun d => { d with req := some ⟨none, 128, 4, 3, 0, 0, 4096, 8192, 0, [], [], List.replicate 32 0, 0, false⟩, staged := [(0, 7)] }, by decide⟩,
    ⟨5, 5, runningWith [] fun d => { d with keys := [(5, ⟨2, 0, [1], 3, 9⟩)] }, by decide⟩,
    ⟨3, 3, runningWith [] fun d => { d with req := some ⟨none, 128, 4, 3, 0, 0, 4096, 8192, 0, [], [], List.replicate 32 0, 0, false⟩ }, by decide⟩,
    ⟨3, 3, runningWith [(Reg.MAP_EN 7, 1), (Reg.CKEY_ENC 7, 1), (Reg.CKEY_TX_SLOT0 7, 3)] fun d => { d with req := some ⟨none, 128, 4, 3, 0, 0, 4096, 8192, 0, [], [], List.replicate 32 0, 0, false⟩, keys := [(3, ⟨2, 0, [1], 3, 9⟩)] }, by decide⟩,
    ⟨3, runningWith [(Reg.MAP_EN 7, 1), (Reg.CKEY_ENC 7, 1), (Reg.CKEY_TX_SLOT0 7, 3)] fun d => { d with req := some ⟨none, 128, 4, 3, 0, 0, 4096, 8192, 0, [], [], List.replicate 32 0, 0, false⟩, keys := [(3, ⟨2, 0, [1], 3, 9⟩)] }, by decide⟩,
    ⟨5, runningWith [] fun d => { d with keys := [(4, ⟨1, 2, [], 3, 0⟩), (5, ⟨2, 0, [1], 3, 9⟩)] }, by decide⟩,
    ⟨7, 7, runningWith [(Reg.CKEY_TX_SLOT1 7, 3)] fun d => { d with keys := [(3, ⟨1, 0, [1], 3, 9⟩)] }, by decide⟩,
    ⟨7, 7, running [], by decide⟩⟩

/-- States and operands that meet the hypotheses of each clause of CipherRequests. -/
theorem test_witness_CipherRequests :
    (∃ s : State, s.Inv ∧ s.dev.pageLive (0x292) = true ∧ s.dev.pageInTest (0x292) = false) ∧
    (∃ s : State, s.Inv ∧ s.dev.req = none ∧ s.dev.hubOn = true ∧ s.dev.blockOut 61 = false ∧ s.dev.bist.run.contains 61 = false ∧ s.dev.droneReqs = [] ∧ s.dev.reqWaiting = true ∧ fieldLE (s.bytes (winAddr s.dev.reqEntry) 64) 0 1 % 2 = 1 ∧ (s.dev.hostReq (s.bytes (winAddr s.dev.reqEntry) 64)).early = 0) ∧
    (∃ s : State, s.Inv ∧ s.dev.req = none ∧ s.dev.hubOn = true ∧ s.dev.blockOut 61 = false ∧ s.dev.bist.run.contains 61 = false ∧ s.dev.droneReqs = [] ∧ s.dev.reqWaiting = true ∧ fieldLE (s.bytes (winAddr s.dev.reqEntry) 64) 0 1 % 2 = 1 ∧ (s.dev.hostReq (s.bytes (winAddr s.dev.reqEntry) 64)).early = 0) ∧
    (∃ s : State, s.Inv ∧ s.dev.req = none ∧ s.dev.hubOn = true ∧ s.dev.blockOut 61 = false ∧ s.dev.bist.run.contains 61 = false ∧ s.dev.droneReqs = [] ∧ s.dev.reqWaiting = true ∧ fieldLE (s.bytes (winAddr s.dev.reqEntry) 64) 0 1 % 2 = 1 ∧ (s.dev.hostReq (s.bytes (winAddr s.dev.reqEntry) 64)).early ≠ 0) ∧
    (∃ s : State, s.Inv ∧ s.dev.reqWaiting = true ∧ fieldLE (s.bytes (winAddr s.dev.reqEntry) 1) 0 1 % 2 = 0) ∧
    (∃ poisoned : Bool, ∃ checkFail : Bool, ∃ r : Req, ∃ x : ReqResult, ∃ s : State, s.Inv ∧ s.dev.req = some r ∧ r.drone = none ∧ r.result (if r.early = 0 then s.bytes (winAddr r.src) r.length else []) (if r.early = 0 then s.bytes (winAddr r.aad) r.aadLen else []) poisoned checkFail = x ∧ x.status = 0) ∧
    (∃ poisoned : Bool, ∃ checkFail : Bool, ∃ r : Req, ∃ x : ReqResult, ∃ s : State, s.Inv ∧ s.dev.req = some r ∧ r.drone = none ∧ r.result (if r.early = 0 then s.bytes (winAddr r.src) r.length else []) (if r.early = 0 then s.bytes (winAddr r.aad) r.aadLen else []) poisoned checkFail = x ∧ x.status ≠ 0) ∧
    (∃ poisoned : Bool, ∃ checkFail : Bool, ∃ r : Req, ∃ x : ReqResult, ∃ s : State, s.Inv ∧ s.dev.req = some r ∧ r.drone = none ∧ r.result (if r.early = 0 then s.bytes (winAddr r.src) r.length else []) (if r.early = 0 then s.bytes (winAddr r.aad) r.aadLen else []) poisoned checkFail = x ∧ x.status ≠ 0) ∧
    (∃ poisoned : Bool, ∃ checkFail : Bool, ∃ r : Req, ∃ x : ReqResult, ∃ s : State, s.Inv ∧ s.dev.req = some r ∧ r.drone = none ∧ r.result (if r.early = 0 then s.bytes (winAddr r.src) r.length else []) (if r.early = 0 then s.bytes (winAddr r.aad) r.aadLen else []) poisoned checkFail = x ∧ x.status ≠ 0) ∧
    (∃ poisoned : Bool, ∃ checkFail : Bool, ∃ r : Req, ∃ q : DroneReq, ∃ x : ReqResult, ∃ s : State, s.Inv ∧ s.dev.req = some r ∧ r.drone = some q ∧ r.result q.plain q.header poisoned checkFail = x ∧ x.status = 0) :=
  ⟨⟨running [], by decide⟩,
    ⟨{ runningWith [(Reg.REQ_CTRL_EN, 1), (Reg.REQ_TAIL_INDEX, 2), (Reg.REQ_SIZE_ENTRIES, 8), (Reg.BOOT_EPOCH_EPOCH, 3)] fun d => { d with keys := [(3, ⟨keyReady, roleReq, List.replicate 32 0, 0, 0⟩)] } with mem := [(winAddr 0, 0x31)] }, by decide⟩,
    ⟨{ runningWith [(Reg.REQ_CTRL_EN, 1), (Reg.REQ_TAIL_INDEX, 2), (Reg.REQ_SIZE_ENTRIES, 8), (Reg.BOOT_EPOCH_EPOCH, 3)] fun d => { d with keys := [(3, ⟨keyReady, roleReq, List.replicate 32 0, 0, 0⟩)] } with mem := [(winAddr 0, 0x39)] }, by decide⟩,
    ⟨{ runningWith [(Reg.REQ_CTRL_EN, 1), (Reg.REQ_TAIL_INDEX, 2), (Reg.REQ_SIZE_ENTRIES, 8), (Reg.BOOT_EPOCH_EPOCH, 3)] fun d => { d with keys := [(3, ⟨keyReady, roleReq, List.replicate 32 0, 0, 0⟩)] } with mem := [(winAddr 0, 0x01)] }, by decide⟩,
    ⟨running [(Reg.REQ_CTRL_EN, 1), (Reg.REQ_TAIL_INDEX, 2)], by decide⟩,
    ⟨false, false, ⟨none, 128, 4, 3, 0, 0, 4096, 8192, 0, [], [], List.replicate 32 0, 0, false⟩, ⟨0, [], aesCmac (List.replicate 32 0) []⟩, runningWith [] fun d => { d with req := some ⟨none, 128, 4, 3, 0, 0, 4096, 8192, 0, [], [], List.replicate 32 0, 0, false⟩ }, by decide⟩,
    ⟨true, false, ⟨none, 128, 1, 3, 20, 0, 4096, 8192, 0, [], [], [], 0, false⟩, ⟨6, [], []⟩, runningWith [] fun d => { d with req := some ⟨none, 128, 1, 3, 20, 0, 4096, 8192, 0, [], [], [], 0, false⟩ }, by decide⟩,
    ⟨false, true, ⟨none, 128, 0, 3, 20, 0, 4096, 8192, 0, [], [], [], 0, false⟩, ⟨8, [], []⟩, runningWith [] fun d => { d with req := some ⟨none, 128, 0, 3, 20, 0, 4096, 8192, 0, [], [], [], 0, false⟩ }, by decide⟩,
    ⟨true, false, ⟨none, 128, 1, 3, 20, 0, 4096, 8192, 0, [], [], [], 3, false⟩, ⟨3, [], []⟩, runningWith [] fun d => { d with req := some ⟨none, 128, 1, 3, 20, 0, 4096, 8192, 0, [], [], [], 3, false⟩ }, by decide⟩,
    ⟨false, false, ⟨some ⟨2, [1, 2], [3]⟩, 0, 4, 3, 0, 0, 0, 0, 0, [], [], List.replicate 32 0, 0, false⟩, ⟨2, [1, 2], [3]⟩, ⟨0, [], aesCmac (List.replicate 32 0) [3]⟩, runningWith [] fun d => { d with req := some ⟨some ⟨2, [1, 2], [3]⟩, 0, 4, 3, 0, 0, 0, 0, 0, [], [], List.replicate 32 0, 0, false⟩ }, by decide⟩⟩

/-- States and operands that meet the hypotheses of each clause of DroneSending. -/
theorem test_witness_DroneSending :
    (∃ n : Fin 8, ∃ v : Word, ∃ s : State, s.Inv ∧ s.dev.pageLive (droneTxPage n) = true ∧ s.dev.pageInTest (droneTxPage n) = false ∧ s.dev.droneFollows n = false ∧ s.dev.droneLive = true ∧ s.dev.on (Reg.DR_TX_STAT_BUSY n) = false ∧ (s.dev.writeWord (droneTxPage n) 0x048 0x4000 (v ||| 0x4000)).rd (Reg.DR_TX_CTRL_SEC n) = 0 ∧ (s.dev.writeWord (droneTxPage n) 0x048 0x4000 (v ||| 0x4000)).rd (Reg.DR_TX_CTRL_LENGTH n) ≤ 2048) ∧
    (∃ n : Fin 8, ∃ v : Word, ∃ s : State, s.Inv ∧ s.dev.pageLive (droneTxPage n) = true ∧ s.dev.pageInTest (droneTxPage n) = false ∧ s.dev.droneFollows n = false ∧ s.dev.droneLive = true ∧ s.dev.on (Reg.DR_TX_STAT_BUSY n) = false ∧ (s.dev.writeWord (droneTxPage n) 0x048 0x4000 (v ||| 0x4000)).rd (Reg.DR_TX_CTRL_SEC n) = 1 ∧ (s.dev.writeWord (droneTxPage n) 0x048 0x4000 (v ||| 0x4000)).rd (Reg.DR_TX_CTRL_LENGTH n) ≤ 2020 ∧ s.dev.blockOut 61 = false) ∧
    (∃ n : Fin 8, ∃ s : State, s.Inv ∧ s.dev.pageLive (droneTxPage n) = true ∧ s.dev.pageInTest (droneTxPage n) = false ∧ (s.dev.droneFollows n = true ∨ s.dev.on (Reg.DR_TX_STAT_BUSY n) = true)) ∧
    (∃ n : Fin 8, ∃ s : State, s.Inv ∧ s.dev.hubOn = true ∧ s.dev.lineOn n = true ∧ s.dev.droneLive = true ∧ s.dev.on Reg.DR_CTRL_BCN_EN = true ∧ s.dev.identitySigns = true ∧ s.dev.droneFollows n = false) ∧
    (∃ n : Fin 8, ∃ b : List Byte, ∃ s : State, s.Inv ∧ s.dev.mayBurst n = true ∧ ((s.dev.dtx n).beacon && s.dev.identitySigns) = false ∧ (s.dev.dtx n).waiting = some b) ∧
    (∃ n : Fin 8, ∃ b : List Byte, ∃ s : State, s.Inv ∧ s.dev.mayBurst n = true ∧ ((s.dev.dtx n).beacon && s.dev.identitySigns) = false ∧ (s.dev.dtx n).waiting = some b) ∧
    (∃ n : Fin 8, ∃ s : State, s.Inv ∧ s.dev.mayBurst n = true ∧ (s.dev.dtx n).beacon = true ∧ s.dev.identitySigns = true) ∧
    (∃ n : Fin 8, ∃ bcn : Bool, ∃ b : List Byte × Nat × Nat × Nat × Nat, ∃ s : State, s.Inv ∧ (s.dev.dtx n).sending = some (bcn, b)) ∧
    (∃ n : Fin 8, ∃ bcn : Bool, ∃ b : List Byte × Nat × Nat × Nat × Nat, ∃ s : State, s.Inv ∧ (s.dev.dtx n).sending = some (bcn, b)) ∧
    (∃ n : Fin 8, ∃ bcn : Bool, ∃ b : List Byte × Nat × Nat × Nat × Nat, ∃ s : State, s.Inv ∧ (s.dev.dtx n).sending = some (bcn, b) ∧ s.dev.burstOver n = true) ∧
    (∃ n : Fin 8, ∃ bcn : Bool, ∃ b : List Byte × Nat × Nat × Nat × Nat, ∃ s : State, s.Inv ∧ (s.dev.dtx n).sending = some (bcn, b) ∧ s.dev.burstOver n = true) ∧
    (∃ n : Fin 8, ∃ s : State, s.Inv ∧ (s.dev.mayBurst n = false ∨ (((s.dev.dtx n).beacon && s.dev.identitySigns) = false ∧ (s.dev.dtx n).waiting = none))) ∧
    (∃ n : Fin 8, ∃ s : State, s.Inv ∧ (s.dev.dtx n).sending = none) ∧
    (∃ n : Fin 8, ∃ s : State, s.Inv ∧ (s.dev.dtx n).sending = none ∧ s.dev.droneFollows n = true ∧ s.dev.on (Reg.TX_DRONE_INS_ACTIVE n) = true ∧ s.dev.burstOver n = true) ∧
    (∃ n : Fin 8, ∃ s : State, s.Inv ∧ (s.dev.burstOver n = false ∨ ((s.dev.dtx n).sending = none ∧ (s.dev.droneFollows n = false ∨ s.dev.on (Reg.TX_DRONE_INS_ACTIVE n) = false)))) :=
  ⟨⟨5, 0x2006, runningWith [(Reg.DR_TX_BUF 5 0, 0x04030201), (Reg.DR_TX_BUF 5 1, 0x605)] fun d => d.setDtx 5 { d.dtx 5 with seq := 65535 }, by decide⟩,
    ⟨5, 0x1006, runningWith [(Reg.DR_TX_BUF 5 0, 0x04030201), (Reg.DR_TX_BUF 5 1, 0x605)] fun d => d.setDtx 5 { d.dtx 5 with seq := 4 }, by decide⟩,
    ⟨5, running [(Reg.DR_TX_STAT_BUSY 5, 1)], by decide⟩,
    ⟨5, running [(Reg.DR_CTRL_BCN_EN, 1), (Reg.LC_STAT_STATE, 2)], by decide⟩,
    ⟨5, [16, 0, 0, 1, 0, 9, 3, 3, 7], runningWith [(Reg.TX_STATE_STATE 5, txLit), (Reg.TX_DRONE_INS_EN 5, 1)] fun d => d.setDtx 5 { d.dtx 5 with waiting := some [16, 0, 0, 1, 0, 9, 3, 3, 7] }, by decide⟩,
    ⟨4, [16, 0, 0, 1, 0, 9, 3, 3, 7], runningWith [(Reg.TX_STATE_STATE 4, txLit), (Reg.TX_DRONE_INS_EN 4, 1), (Reg.TX_DRONE_INS_EN 5, 1), (Reg.TX_CTRL_TWIN 4, 1)] fun d => d.setDtx 4 { d.dtx 4 with waiting := some [16, 0, 0, 1, 0, 9, 3, 3, 7] }, by decide⟩,
    ⟨5, runningWith [(Reg.LC_STAT_STATE, 2), (Reg.TX_STATE_STATE 5, txLit), (Reg.TX_DRONE_INS_EN 5, 1)] fun d => d.setDtx 5 { d.dtx 5 with beacon := true, seq := 3 }, by decide⟩,
    ⟨5, true, ([1, 2], 3, 4, 5, 6), runningWith [(Reg.DR_TX_STAT_BUSY 5, 1), (Reg.TX_DRONE_INS_ACTIVE 5, 1)] fun d => d.setDtx 5 { d.dtx 5 with sending := some (true, [1, 2], 3, 4, 5, 6) }, by decide⟩,
    ⟨5, false, ([1, 2], 3, 4, 5, 6), runningWith [(Reg.DR_TX_STAT_BUSY 5, 1), (Reg.TX_DRONE_INS_ACTIVE 5, 1)] fun d => d.setDtx 5 { d.dtx 5 with sending := some (false, [1, 2], 3, 4, 5, 6) }, by decide⟩,
    ⟨5, true, ([1, 2], 3, 4, 5, 6), runningWith [(Reg.DR_TX_STAT_BUSY 5, 1), (Reg.TX_DRONE_INS_EN 5, 0)] fun d => d.setDtx 5 { d.dtx 5 with sending := some (true, [1, 2], 3, 4, 5, 6) }, by decide⟩,
    ⟨5, false, ([1, 2], 3, 4, 5, 6), runningWith [(Reg.DR_TX_STAT_BUSY 5, 1), (Reg.TX_DRONE_INS_EN 5, 0)] fun d => d.setDtx 5 { d.dtx 5 with sending := some (false, [1, 2], 3, 4, 5, 6) }, by decide⟩,
    ⟨5, running [], by decide⟩,
    ⟨5, running [], by decide⟩,
    ⟨5, running [(Reg.TX_CTRL_TWIN 4, 1), (Reg.TX_DRONE_INS_ACTIVE 5, 1)], by decide⟩,
    ⟨5, running [], by decide⟩⟩

/-- States and operands that meet the hypotheses of each clause of DroneFingers. -/
theorem test_witness_DroneFingers :
    (∃ path : Fin 16, ∃ entry : Fin 8, ∃ power : Int, ∃ k : Nat, ∃ s : State, s.Inv ∧ s.dev.hubOn = true ∧ s.dev.pathActive path = true ∧ s.dev.on (Reg.LISTEN_EN (8 * path.val + entry.val)) = true ∧ s.dev.rd Reg.DR_RX_CFG_DET_THR < power ∧ (List.range 4).find? (fun j => (s.dev.finger path j).isNone) = some k) ∧
    (∃ path : Fin 16, ∃ entry : Fin 8, ∃ power : Int, ∃ k : Nat, ∃ s : State, s.Inv ∧ s.dev.hubOn = true ∧ s.dev.pathActive path = true ∧ s.dev.on (Reg.LISTEN_EN (8 * path.val + entry.val)) = true ∧ s.dev.rd Reg.DR_RX_CFG_DET_THR < power ∧ (List.range 4).find? (fun j => (s.dev.finger path j).isNone) = some k) ∧
    (∃ path : Fin 16, ∃ k : Fin 4, ∃ f : Finger, ∃ s : State, s.Inv ∧ s.dev.pathActive path = true ∧ s.dev.finger path k = some f ∧ f.body = false) ∧
    (∃ path : Fin 16, ∃ k : Fin 4, ∃ w : Word, ∃ r : Nat, ∃ f : Finger, ∃ s : State, s.Inv ∧ s.dev.pathActive path = true ∧ s.dev.finger path k = some f ∧ f.body = false ∧ syncRotation w.toNat = some r) ∧
    (∃ s : State, s.Inv ∧ s.dev.hubOn = true) ∧
    (∃ s : State, s.Inv ∧ s.dev.hubOn = true) ∧
    (∃ path : Fin 16, ∃ k : Fin 4, ∃ header : List Byte, ∃ f : Finger, ∃ s : State, s.Inv ∧ s.dev.pathActive path = true ∧ s.dev.finger path k = some f ∧ f.body = true ∧ f.header = [] ∧ crc16 0xFFFF (sliceBytes header 0 6) = fieldBE header 6 2 ∧ fieldBE header 2 2 ≤ 2048) ∧
    (∃ path : Fin 16, ∃ k : Fin 4, ∃ header : List Byte, ∃ f : Finger, ∃ s : State, s.Inv ∧ s.dev.hubOn = true ∧ s.dev.pathActive path = true ∧ s.dev.finger path k = some f ∧ f.body = true ∧ f.header = [] ∧ (crc16 0xFFFF (sliceBytes header 0 6) ≠ fieldBE header 6 2 ∨ 2048 < fieldBE header 2 2)) ∧
    (∃ path : Fin 16, ∃ k : Fin 4, ∃ payload : List Byte, ∃ crc : Word, ∃ f : Finger, ∃ s : State, s.Inv ∧ s.dev.hubOn = true ∧ s.dev.pathActive path = true ∧ s.dev.finger path k = some f ∧ f.body = true ∧ f.header ≠ [] ∧ crc32 (f.header ++ (sliceBytes payload 0 (fieldBE f.header 2 2))) ≠ crc.toNat) ∧
    (∃ path : Fin 16, ∃ k : Fin 4, ∃ payload : List Byte, ∃ crc : Word, ∃ f : Finger, ∃ q : Nat, ∃ s : State, s.Inv ∧ s.dev.hubOn = true ∧ s.dev.pathActive path = true ∧ s.dev.finger path k = some f ∧ f.body = true ∧ f.header ≠ [] ∧ crc32 (f.header ++ (sliceBytes payload 0 (fieldBE f.header 2 2))) = crc.toNat ∧ fieldBE f.header 0 1 % 16 = 0 ∧ s.dev.drone.items = [] ∧ s.dev.rd Reg.DR_CFG_RXQ = q ∧ s.dev.on (Reg.Q_CFG_EN q) = true ∧ s.dev.on (Reg.Q_STAT_STALLING q) = false ∧ s.dev.queueFits q ⟨s.dev.rd (Reg.Q_CFG_PRIO_DEF q), 1, path, false, s.dev.time, 0, droneItem path k f (sliceBytes payload 0 (fieldBE f.header 2 2))⟩ = true) ∧
    (∃ path : Fin 16, ∃ k : Fin 4, ∃ payload : List Byte, ∃ crc : Word, ∃ f : Finger, ∃ s : State, s.Inv ∧ s.dev.hubOn = true ∧ s.dev.pathActive path = true ∧ s.dev.finger path k = some f ∧ f.body = true ∧ f.header ≠ [] ∧ crc32 (f.header ++ (sliceBytes payload 0 (fieldBE f.header 2 2))) = crc.toNat ∧ 2 ≤ fieldBE f.header 0 1 % 16) :=
  ⟨⟨4, 0, 9999, 0, runningWith [(Reg.DR_CTRL_RX_EN, 1), (Reg.ACQ_STAT_STATE 4, acqLocked)] fun d => d.setFinger 4 1 (some ⟨3, 5, 70, false, 150, 6, -40, 0, false, 0, 0, []⟩), by decide⟩,
    ⟨4, 0, 9999, 1, runningWith [(Reg.DR_CTRL_RX_EN, 1), (Reg.ACQ_STAT_STATE 4, acqLocked)] fun d => (d.setFinger 4 1 (some ⟨3, 5, 70, false, 150, 6, -40, 0, false, 0, 0, []⟩)).setFinger 4 1 none |>.setFinger 4 0 (some ⟨3, 5, 70, false, 150, 6, -40, 0, false, 0, 0, []⟩), by decide⟩,
    ⟨4, 1, ⟨3, 5, 70, false, 150, 6, -40, 0, false, 0, 0, []⟩, runningWith [(Reg.DR_CTRL_RX_EN, 1), (Reg.ACQ_STAT_STATE 4, acqLocked)] fun d => d.setFinger 4 1 (some ⟨3, 5, 70, false, 150, 6, -40, 0, false, 0, 0, []⟩), by decide⟩,
    ⟨4, 1, 4061677850, 3, ⟨3, 5, 70, false, 150, 6, -40, 0, false, 0, 0, []⟩, runningWith [(Reg.DR_CTRL_RX_EN, 1), (Reg.ACQ_STAT_STATE 4, acqLocked)] fun d => d.setFinger 4 1 (some ⟨3, 5, 70, false, 150, 6, -40, 0, false, 0, 0, []⟩), by decide⟩,
    ⟨runningWith [(Reg.DR_CTRL_RX_EN, 1), (Reg.ACQ_STAT_STATE 4, acqLocked)] fun d => { (d.setFinger 4 1 (some ⟨3, 5, 70, false, 150, 6, -40, 0, false, 0, 0, []⟩)) with drone := { (d.setFinger 4 1 (some ⟨3, 5, 70, false, 150, 6, -40, 0, false, 0, 0, []⟩)).drone with falses := [(4, 90000)] } }, by decide⟩,
    ⟨runningWith [(Reg.DR_CTRL_RX_EN, 1), (Reg.ACQ_STAT_STATE 4, acqLocked)] fun d => d.setFinger 4 1 (some ⟨3, 5, 70, false, 150, 6, -40, 0, false, 0, 0, []⟩), by decide⟩,
    ⟨4, 1, [16, 0, 0, 2, 0, 9, 235, 221], ⟨3, 5, 70, true, 150, 6, -40, -40, true, 2, 99, []⟩, runningWith [(Reg.DR_CTRL_RX_EN, 1), (Reg.ACQ_STAT_STATE 4, acqLocked)] fun d => d.setFinger 4 1 (some ⟨3, 5, 70, true, 150, 6, -40, -40, true, 2, 99, []⟩), by decide⟩,
    ⟨4, 1, [16, 0, 0, 2, 0, 9, 235, 0], ⟨3, 5, 70, true, 150, 6, -40, -40, true, 2, 99, []⟩, runningWith [(Reg.DR_CTRL_RX_EN, 1), (Reg.ACQ_STAT_STATE 4, acqLocked)] fun d => d.setFinger 4 1 (some ⟨3, 5, 70, true, 150, 6, -40, -40, true, 2, 99, []⟩), by decide⟩,
    ⟨4, 1, [7, 8], 5, ⟨3, 5, 70, true, 150, 6, -40, -40, true, 2, 99, [16, 0, 0, 2, 0, 9, 235, 221]⟩, runningWith [(Reg.DR_CTRL_RX_EN, 1), (Reg.ACQ_STAT_STATE 4, acqLocked)] fun d => d.setFinger 4 1 (some ⟨3, 5, 70, true, 150, 6, -40, -40, true, 2, 99, [16, 0, 0, 2, 0, 9, 235, 221]⟩), by decide⟩,
    ⟨4, 1, [7, 8], 2602493033, ⟨3, 5, 70, true, 150, 6, -40, -40, true, 2, 99, [16, 0, 0, 2, 0, 9, 235, 221]⟩, 3, runningWith [(Reg.DR_CTRL_RX_EN, 1), (Reg.ACQ_STAT_STATE 4, acqLocked), (Reg.DR_CFG_RXQ, 3), (Reg.Q_CFG_EN 3, 1), (Reg.Q_CFG_CAP_KIB 3, 64)] fun d => d.setFinger 4 1 (some ⟨3, 5, 70, true, 150, 6, -40, -40, true, 2, 99, [16, 0, 0, 2, 0, 9, 235, 221]⟩), by decide⟩,
    ⟨4, 1, [7, 8], 4115968713, ⟨3, 5, 70, true, 150, 6, -40, -40, true, 2, 99, [21, 0, 0, 2, 0, 9, 168, 220]⟩, runningWith [(Reg.DR_CTRL_RX_EN, 1), (Reg.ACQ_STAT_STATE 4, acqLocked)] fun d => d.setFinger 4 1 (some ⟨3, 5, 70, true, 150, 6, -40, -40, true, 2, 99, [21, 0, 0, 2, 0, 9, 168, 220]⟩), by decide⟩⟩

/-- States and operands that meet the hypotheses of each clause of BeaconsAndNeighbours. -/
theorem test_witness_BeaconsAndNeighbours :
    (∃ b : Beacon, ∃ r : List Beacon, ∃ s : State, s.Inv ∧ s.dev.hubOn = true ∧ s.dev.on Reg.FINDER_STAT_BOOTED = true ∧ s.dev.drone.beacons = b :: r ∧ b.sound = false) ∧
    (∃ b : Beacon, ∃ r : List Beacon, ∃ m : KeyMark, ∃ s : State, s.Inv ∧ s.dev.hubOn = true ∧ s.dev.on Reg.FINDER_STAT_BOOTED = true ∧ s.dev.drone.beacons = b :: r ∧ b.sound = true ∧ s.dev.drone.keys.find? (fun x => decide (x.key = (sliceBytes b.payload 4 32))) = some m ∧ fieldBE b.payload 56 8 ≤ m.counter ∧ (fieldBE b.payload 56 8 ≠ m.counter ∨ b.path ≠ otherPath m.path ∨ m.clock + oneSecond < b.clock)) ∧
    (∃ b : Beacon, ∃ r : List Beacon, ∃ i : Nat, ∃ s : State, s.Inv ∧ s.dev.hubOn = true ∧ s.dev.on Reg.FINDER_STAT_BOOTED = true ∧ s.dev.drone.beacons = b :: r ∧ b.sound = true ∧ s.dev.drone.keys.find? (fun x => decide (x.key = (sliceBytes b.payload 4 32))) = none ∧ s.dev.nbrOf b.path (keyIdOf (sliceBytes b.payload 4 32)) = none ∧ (List.range 128).find? (fun j => !s.dev.on (Reg.NBR_VALID j)) = some i ∧ s.dev.on (Reg.NBR_EXP_EN (b.path % 8)) = false ∧ (b.path < 8 → s.dev.on (Reg.NBR_EXP_EN b.path) = false) ∧ b.wake = false) ∧
    (∃ i : Fin 128, ∃ s : State, s.Inv ∧ s.dev.hubOn = true ∧ s.dev.on (Reg.NBR_VALID i) = true) ∧
    (∃ n : Fin 8, ∃ s : State, s.Inv ∧ s.dev.hubOn = true ∧ s.dev.on (Reg.NBR_EXP_EN n) = true ∧ s.dev.expHeard n = false ∧ s.dev.on (missingBit n) = false) :=
  ⟨⟨⟨2, 9, 33, 120, -500, false, 0, []⟩, [], runningWith [(Reg.FINDER_STAT_BOOTED, 1)] fun d => { d with drone := { d.drone with beacons := [⟨2, 9, 33, 120, -500, false, 0, []⟩] } }, by decide⟩,
    ⟨⟨2, 9, 33, 120, -500, false, 0, bytesLE 128 0x6ed505eb343ae1f4184d2fc70f902a934fca80248ace9d93b55d511ea7a8fd7d114fddd308355975387ebb75265717c7344748a44a2fb6c077fa11c7fc243500700000000000000000000000000000000000000000000000000000029da598ba148c03aa643e21d77153265730d6f2ad0a8a3622da4b6cebc276a3b21090201⟩, [], ⟨(bytesLE 128 0x6ed505eb343ae1f4184d2fc70f902a934fca80248ace9d93b55d511ea7a8fd7d114fddd308355975387ebb75265717c7344748a44a2fb6c077fa11c7fc243500700000000000000000000000000000000000000000000000000000029da598ba148c03aa643e21d77153265730d6f2ad0a8a3622da4b6cebc276a3b21090201).drop 4 |>.take 32, 8, 2, 0⟩, runningWith [(Reg.FINDER_STAT_BOOTED, 1)] fun d => { d with drone := { d.drone with beacons := [⟨2, 9, 33, 120, -500, false, 0, bytesLE 128 0x6ed505eb343ae1f4184d2fc70f902a934fca80248ace9d93b55d511ea7a8fd7d114fddd308355975387ebb75265717c7344748a44a2fb6c077fa11c7fc243500700000000000000000000000000000000000000000000000000000029da598ba148c03aa643e21d77153265730d6f2ad0a8a3622da4b6cebc276a3b21090201⟩], keys := [⟨(bytesLE 128 0x6ed505eb343ae1f4184d2fc70f902a934fca80248ace9d93b55d511ea7a8fd7d114fddd308355975387ebb75265717c7344748a44a2fb6c077fa11c7fc243500700000000000000000000000000000000000000000000000000000029da598ba148c03aa643e21d77153265730d6f2ad0a8a3622da4b6cebc276a3b21090201).drop 4 |>.take 32, 8, 2, 0⟩] } }, by decide⟩,
    ⟨⟨2, 9, 33, 120, -500, false, 0, bytesLE 128 0x6ed505eb343ae1f4184d2fc70f902a934fca80248ace9d93b55d511ea7a8fd7d114fddd308355975387ebb75265717c7344748a44a2fb6c077fa11c7fc243500700000000000000000000000000000000000000000000000000000029da598ba148c03aa643e21d77153265730d6f2ad0a8a3622da4b6cebc276a3b21090201⟩, [], 0, runningWith [(Reg.FINDER_STAT_BOOTED, 1)] fun d => { d with drone := { d.drone with beacons := [⟨2, 9, 33, 120, -500, false, 0, bytesLE 128 0x6ed505eb343ae1f4184d2fc70f902a934fca80248ace9d93b55d511ea7a8fd7d114fddd308355975387ebb75265717c7344748a44a2fb6c077fa11c7fc243500700000000000000000000000000000000000000000000000000000029da598ba148c03aa643e21d77153265730d6f2ad0a8a3622da4b6cebc276a3b21090201⟩] } }, by decide⟩,
    ⟨9, running [(Reg.NBR_VALID 9, 1), (Reg.NBR_PATH 9, 3)], by decide⟩,
    ⟨9, running [(Reg.NBR_EXP_EN 1, 1)], by decide⟩⟩

/-- States and operands that meet the hypotheses of each clause of ReferencesAndDpll. -/
theorem test_witness_ReferencesAndDpll :
    (∃ s : State, s.Inv ∧ s.dev.hubOn = true) ∧
    (∃ r : Fin 17, ∃ s : State, s.Inv ∧ s.dev.hubOn = true ∧ s.dev.on (Reg.REF_EN r) = true ∧ s.dev.on (Reg.REF_QUALIFIED r) = true) ∧
    (∃ s : State, s.Inv ∧ s.dev.hubOn = true) ∧
    (∃ r : Fin 17, ∃ pdu : List Byte, ∃ ql : Nat, ∃ s : State, s.Inv ∧ s.dev.hubOn = true ∧ s.dev.on (Reg.REF_QL_SRC r) = true ∧ s.dev.serviceQueue (s.dev.rd (Reg.REF_ESMC_Q r)) = true ∧ (s.dev.qu (s.dev.rd (Reg.REF_ESMC_Q r))).waiting = [] ∧ esmcQl pdu = some ql ∧ s.dev.rd (Reg.REF_QL_EFF r) ≠ ql) ∧
    (∃ r : Fin 17, ∃ pdu : List Byte, ∃ s : State, s.Inv ∧ s.dev.hubOn = true ∧ (s.dev.qu (s.dev.rd (Reg.REF_ESMC_Q r))).waiting = [] ∧ (esmcQl pdu = none ∨ esmcQl pdu = some (s.dev.rd (Reg.REF_QL_EFF r)))) ∧
    (∃ r : Fin 17, ∃ pdu : List Byte, ∃ s : State, s.Inv ∧ s.dev.hubOn = true ∧ (s.dev.qu (s.dev.rd (Reg.REF_ESMC_Q r))).waiting = [] ∧ (esmcQl pdu = none ∨ esmcQl pdu = some (s.dev.rd (Reg.REF_QL_EFF r)))) ∧
    (∃ r : Fin 17, ∃ pdu : List Byte, ∃ q : Nat, ∃ s : State, s.Inv ∧ s.dev.hubOn = true ∧ s.dev.on (Reg.REF_QL_SRC r) = true ∧ q = s.dev.rd (Reg.REF_ESMC_Q r) ∧ s.dev.serviceQueue q = true ∧ (s.dev.qu q).waiting ≠ [] ∧ (esmcQl pdu = none ∨ esmcQl pdu = some (s.dev.rd (Reg.REF_QL_EFF r))) ∧ s.dev.on (Reg.Q_STAT_ABOVE q) = false ∧ ({ s.dev.qu q with waiting := [] } : Queue).occupied < s.dev.rd (Reg.Q_WM_HWM_KIB q) * 1024) ∧
    (∃ r : Fin 17, ∃ s : State, s.Inv ∧ s.dev.hubOn = true ∧ s.dev.on (Reg.REF_QL_SRC r) = true ∧ s.dev.rd (Reg.REF_QL_EFF r) ≠ 15) ∧
    (∃ s : State, s.Inv ∧ s.dev.dpll = dpllAcquire ∧ s.dev.dpllReady = true ∧ (s.dev.rdS Reg.DPLL_PHASE_ERROR).natAbs ≤ 10000 ∧ (s.dev.rd Reg.TIME_CTRL_SRC = 0 ∨ (s.dev.rdS Reg.TIME_OFFSET_PS).natAbs ≤ 1000 * s.dev.rd Reg.LOCK_CFG_TIME_TOL_NS)) ∧
    (∃ s : State, s.Inv ∧ s.dev.dpll = dpllLocked ∧ (100000 < (s.dev.rdS Reg.DPLL_PHASE_ERROR).natAbs ∨ (s.dev.rd Reg.TIME_CTRL_SRC ≠ 0 ∧ 4000 * s.dev.rd Reg.LOCK_CFG_TIME_TOL_NS < (s.dev.rdS Reg.TIME_OFFSET_PS).natAbs))) ∧
    (∃ s : State, s.Inv ∧ s.dev.dpll = dpllLocked ∧ (100000 < (s.dev.rdS Reg.DPLL_PHASE_ERROR).natAbs ∨ (s.dev.rd Reg.TIME_CTRL_SRC ≠ 0 ∧ 4000 * s.dev.rd Reg.LOCK_CFG_TIME_TOL_NS < (s.dev.rdS Reg.TIME_OFFSET_PS).natAbs))) ∧
    (∃ s : State, s.Inv ∧ s.dev.dpll = dpllLocked) ∧
    (∃ s : State, s.Inv ∧ s.dev.dpll = dpllHoldover) ∧
    (∃ ppb : Int, ∃ s : State, s.Inv ∧ s.dev.hubOn = true ∧ ppb.natAbs ≤ 20000) ∧
    (∃ ppb : Int, ∃ s : State, s.Inv ∧ s.dev.hubOn = true ∧ 20000 < ppb.natAbs ∧ s.dev.on Reg.XO_STAT_FAIL = false) ∧
    (∃ s : State, s.Inv ∧ s.dev.hubOn = true) ∧
    (∃ v : Word, ∃ s : State, s.Inv ∧ s.dev.pageLive (0x090) = true ∧ s.dev.pageInTest (0x090) = false ∧ v.getLsbD 6 = false ∧ getBits v 0 5 ≤ 16 ∧ s.dev.on (Reg.REF_QUALIFIED (getBits v 0 5)) = false) ∧
    (∃ v : Word, ∃ s : State, s.Inv ∧ s.dev.pageLive (0x090) = true ∧ s.dev.pageInTest (0x090) = false ∧ v.getLsbD 6 = false ∧ getBits v 0 5 ≤ 16 ∧ s.dev.on (Reg.REF_QUALIFIED (getBits v 0 5)) = true) ∧
    (∃ v : Word, ∃ s : State, s.Inv ∧ s.dev.pageLive (0x090) = true ∧ s.dev.pageInTest (0x090) = false ∧ 16 < getBits v 0 5) ∧
    (∃ v : Word, ∃ s : State, s.Inv ∧ s.dev.pageLive (0x090) = true ∧ s.dev.pageInTest (0x090) = false ∧ v.getLsbD 5 = false ∧ getBits v 0 5 ≤ 16) :=
  ⟨⟨running [(Reg.REF_EN 0, 1), (Reg.REF_EN 1, 1), (Reg.REF_QUALIFIED 1, 1), (Reg.DPLL_FREQ_OFFSET, 4)], by decide⟩,
    ⟨1, running [(Reg.REF_EN 1, 1), (Reg.REF_QUALIFIED 1, 1), (Reg.DPLL_STAT_ACTIVE_REF, 1), (Reg.DPLL_STAT_STATE, dpllLocked)], by decide⟩,
    ⟨running [(Reg.REF_EN 0, 1), (Reg.REF_EN 1, 1), (Reg.REF_QUALIFIED 1, 1), (Reg.REF_QUALIFIED 0, 1), (Reg.REF_DISSENT 4, 1)], by decide⟩,
    ⟨16, [0, 0, 0, 0, 0, 0, 0, 0, 0, 0, 0, 0, 0x88, 0x09, 0x0A, 0x00, 0x19, 0xA7, 0, 1, 0x10, 0, 0, 0, 1, 0, 4, 0xB], 7, running [(Reg.REF_QL_SRC 16, 1), (Reg.REF_ESMC_Q 16, 4), (Reg.Q_CFG_EN 4, 1)], by decide⟩,
    ⟨16, [], running [(Reg.REF_QL_SRC 16, 1)], by decide⟩,
    ⟨16, [0, 0, 0, 0, 0, 0, 0, 0, 0, 0, 0, 0, 0x88, 0x09, 0x0A, 0x00, 0x19, 0xA7, 0, 1, 0x10, 0, 0, 0, 1, 0, 4, 0xF], running [(Reg.REF_QL_SRC 16, 1)], by decide⟩,
    ⟨16, [0, 0, 0, 0, 0, 0, 0, 0, 0, 0, 0, 0, 0x88, 0x09, 0x0A, 0x00, 0x19, 0xA7, 0, 1, 0x10, 0, 0, 0, 1, 0, 4, 0xF], 4, runningWith [(Reg.REF_QL_SRC 16, 1), (Reg.REF_QL_EFF 16, 15), (Reg.REF_ESMC_Q 16, 4), (Reg.Q_CFG_EN 4, 1), (Reg.Q_WM_HWM_KIB 4, 9)] fun d => d.setQu 4 { d.qu 4 with waiting := [⟨1, 3, 0, false, 77, 4, [1, 2, 3]⟩] }, by decide⟩,
    ⟨16, running [(Reg.REF_QL_SRC 16, 1), (Reg.REF_QL_EFF 16, 2)], by decide⟩,
    ⟨running [(Reg.DPLL_STAT_STATE, dpllAcquire), (Reg.DPLL_STAT_ACTIVE_REF, 3), (Reg.REF_QL_EFF 3, 2)], by decide⟩,
    ⟨runningWith [(Reg.DPLL_STAT_STATE, dpllLocked), (Reg.DPLL_PHASE_ERROR, 100001)] fun d => { d with sid := { d.sid with hist := List.replicate 90 77 } }, by decide⟩,
    ⟨running [(Reg.DPLL_STAT_STATE, dpllLocked), (Reg.TIME_CTRL_SRC, 2), (Reg.TIME_OFFSET_PS, 0xF0000000)], by decide⟩,
    ⟨running [(Reg.DPLL_STAT_STATE, dpllLocked)], by decide⟩,
    ⟨runningWith [(Reg.DPLL_STAT_STATE, dpllHoldover), (Reg.HO_STAT_ASSISTED, 1)] fun d => { d with clock := 7000000000, sid := { d.sid with hoFreq := -9 } }, by decide⟩,
    ⟨-20000, running [], by decide⟩,
    ⟨-20001, running [(Reg.DPLL_STAT_STATE, dpllHoldover)], by decide⟩,
    ⟨running [(⟨Reg.PLL_STAT_HUB.cell, 0, 8⟩, 0x73)], by decide⟩,
    ⟨3, runningWith [] fun d => d.setRef 3 { d.ref 3 with spanBad := true }, by decide⟩,
    ⟨3, running [(Reg.REF_QUALIFIED 3, 1)], by decide⟩,
    ⟨17, running [], by decide⟩,
    ⟨3, runningWith [(Reg.REF_DISSENT 3, 1)] fun d => d.setAgree 2 3 ⟨[], 3, 0, true⟩, by decide⟩⟩

/-- States and operands that meet the hypotheses of each clause of TimeAndPace. -/
theorem test_witness_TimeAndPace :
    (∃ s : State, s.Inv ∧ s.dev.pageLive (0x092) = true ∧ s.dev.pageInTest (0x092) = false) ∧
    (∃ s : State, s.Inv ∧ s.dev.pageLive (0x092) = true ∧ s.dev.pageInTest (0x092) = false) ∧
    (∃ s : State, s.Inv ∧ s.dev.pageLive (0x092) = true ∧ s.dev.pageInTest (0x092) = false) ∧
    (∃ s : State, s.Inv ∧ s.dev.pageLive (0x092) = true ∧ s.dev.pageInTest (0x092) = false ∧ (s.dev.paceFree = true ∨ (-(2 ^ 63) ≤ s.dev.paceOffset + s.dev.rdS Reg.TIME_ADJ_NS * 65536 ∧ s.dev.paceOffset + s.dev.rdS Reg.TIME_ADJ_NS * 65536 < 2 ^ 63))) ∧
    (∃ s : State, s.Inv ∧ s.dev.pageLive (0x092) = true ∧ s.dev.pageInTest (0x092) = false ∧ (s.dev.paceFree = true ∨ (-(2 ^ 63) ≤ s.dev.paceOffset + s.dev.rdS Reg.TIME_ADJ_NS * 65536 ∧ s.dev.paceOffset + s.dev.rdS Reg.TIME_ADJ_NS * 65536 < 2 ^ 63))) ∧
    (∃ s : State, s.Inv ∧ s.dev.pageLive (0x092) = true ∧ s.dev.pageInTest (0x092) = false ∧ s.dev.paceFree = false ∧ (s.dev.paceOffset + s.dev.rdS Reg.TIME_ADJ_NS * 65536 < -(2 ^ 63) ∨ 2 ^ 63 ≤ s.dev.paceOffset + s.dev.rdS Reg.TIME_ADJ_NS * 65536)) ∧
    (∃ s : State, s.Inv ∧ s.dev.pageLive (0x092) = true ∧ s.dev.pageInTest (0x092) = false) ∧
    (∃ s : State, s.Inv ∧ s.dev.hubOn = true ∧ s.dev.sid.slew = 0) ∧
    (∃ s : State, s.Inv ∧ s.dev.sid.slew ≠ 0) ∧
    (∃ s : State, s.Inv ∧ s.dev.pageLive (0x092) = true ∧ s.dev.pageInTest (0x092) = false ∧ s.dev.rd Reg.TIME_CTRL_SRC = 2) ∧
    (∃ s : State, s.Inv ∧ s.dev.pageLive (0x092) = true ∧ s.dev.pageInTest (0x092) = false ∧ s.dev.rd Reg.TIME_CTRL_SRC ≠ 2) ∧
    (∃ s : State, s.Inv ∧ s.dev.pageLive (0x092) = true ∧ s.dev.pageInTest (0x092) = false) ∧
    (∃ s : State, s.Inv ∧ s.dev.hubOn = true ∧ (s.dev.sid.aligning = true ∨ s.dev.sid.jump = true) ∧ s.dev.pace = s.dev.time) ∧
    (∃ sec : Nat, ∃ s : State, s.Inv ∧ s.dev.hubOn = true ∧ s.dev.rd Reg.TIME_CTRL_SRC = 2 ∧ s.dev.sid.tod = some sec) ∧
    (∃ s : State, s.Inv ∧ s.dev.hubOn = true ∧ s.dev.rd Reg.TIME_CTRL_SRC = 2 ∧ s.dev.sid.tod = none) ∧
    (∃ s : State, s.Inv ∧ s.dev.hubOn = true ∧ s.dev.rd Reg.TIME_CTRL_SRC = 2 ∧ s.dev.sid.tod = none) ∧
    (∃ sync : List Byte, ∃ follow : List Byte, ∃ resp : List Byte, ∃ t1 : Int, ∃ t4 : Int, ∃ s : State, s.Inv ∧ s.dev.hubOn = true ∧ s.dev.on Reg.PTP_CFG_EN = true ∧ s.dev.serviceQueue (s.dev.rd Reg.PTP_CFG_QUEUE) = true ∧ (s.dev.qu (s.dev.rd Reg.PTP_CFG_QUEUE)).waiting = [] ∧ ptpTimes (s.dev.rd Reg.PTP_CFG_DOMAIN) sync follow resp = some (t1, t4) ∧ s.dev.rd Reg.TIME_CTRL_SRC ≠ 1) ∧
    (∃ sync : List Byte, ∃ follow : List Byte, ∃ resp : List Byte, ∃ t1 : Int, ∃ t4 : Int, ∃ s : State, s.Inv ∧ s.dev.hubOn = true ∧ s.dev.on Reg.PTP_CFG_EN = true ∧ s.dev.serviceQueue (s.dev.rd Reg.PTP_CFG_QUEUE) = true ∧ (s.dev.qu (s.dev.rd Reg.PTP_CFG_QUEUE)).waiting = [] ∧ ptpTimes (s.dev.rd Reg.PTP_CFG_DOMAIN) sync follow resp = some (t1, t4) ∧ s.dev.rd Reg.TIME_CTRL_SRC = 1 ∧ s.dev.sid.ptpFirst = false) ∧
    (∃ sync : List Byte, ∃ follow : List Byte, ∃ resp : List Byte, ∃ s : State, s.Inv ∧ s.dev.hubOn = true ∧ s.dev.on Reg.PTP_CFG_EN = true ∧ s.dev.serviceQueue (s.dev.rd Reg.PTP_CFG_QUEUE) = true ∧ (s.dev.qu (s.dev.rd Reg.PTP_CFG_QUEUE)).waiting = [] ∧ ptpTimes (s.dev.rd Reg.PTP_CFG_DOMAIN) sync follow resp = none) :=
  ⟨⟨runningWith [] fun d => { d with time := 281474976710655999999999, clock := 123456 }, by decide⟩,
    ⟨runningWith [(Reg.TIME_SET_SEC_LO, 7), (Reg.TIME_SET_NS, 9)] fun d => { d with time := 281474976710655999999999 }, by decide⟩,
    ⟨runningWith [(Reg.TIME_SET_SEC_LO, 7), (Reg.TX_STATE_STATE 3, 1)] id, by decide⟩,
    ⟨running [(Reg.TIME_ADJ_NS, 0xFFFFFFFF)], by decide⟩,
    ⟨running [(Reg.TIME_ADJ_NS, 0xFFFFFFFF), (Reg.TX_STATE_STATE 3, 1)], by decide⟩,
    ⟨runningWith [(Reg.TIME_ADJ_NS, 1), (Reg.TX_STATE_STATE 3, 1)] fun d => { d with time := 9223372036854775807 }, by decide⟩,
    ⟨running [(Reg.TIME_ADJ_NS, 0xFFFFFF00)], by decide⟩,
    ⟨runningWith [] fun d => { d with sid := { d.sid with slewRest := 655360 } }, by decide⟩,
    ⟨runningWith [] fun d => { d with sid := { d.sid with slew := 655360 } }, by decide⟩,
    ⟨running [(Reg.TIME_CTRL_SRC, 2), (Reg.TIME_SET_SEC_LO, 7)], by decide⟩,
    ⟨running [], by decide⟩,
    ⟨running [], by decide⟩,
    ⟨runningWith [] fun d => { d with time := 99, pace := 99, sid := { d.sid with jump := true } }, by decide⟩,
    ⟨9, runningWith [(Reg.TIME_CTRL_SRC, 2), (Reg.REF_CABLE_PS 0, 3000)] fun d => { d with time := 700000, sid := { d.sid with tod := some 9 } }, by decide⟩,
    ⟨runningWith [(Reg.TIME_CTRL_SRC, 2)] id, by decide⟩,
    ⟨running [(Reg.TIME_CTRL_SRC, 2), (Reg.DPLL_STAT_STATE, dpllLocked), (Reg.REF_QUALIFIED 0, 1), (Reg.REF_EN 0, 1)], by decide⟩,
    ⟨[0, 2, 0, 44, 24] ++ List.replicate 39 0, [], [9, 2, 0, 54, 24] ++ List.replicate 38 0 ++ [1], 0, 65536, running [(Reg.PTP_CFG_EN, 1), (Reg.PTP_CFG_QUEUE, 4), (Reg.Q_CFG_EN 4, 1)], by decide⟩,
    ⟨[0, 2, 0, 44, 24] ++ List.replicate 39 0, [], [9, 2, 0, 54, 24] ++ List.replicate 38 0 ++ [1], 0, 65536, running [(Reg.PTP_CFG_EN, 1), (Reg.PTP_CFG_QUEUE, 4), (Reg.Q_CFG_EN 4, 1), (Reg.TIME_CTRL_SRC, 1)], by decide⟩,
    ⟨[0, 2, 0, 44, 24] ++ List.replicate 39 0, [], [], running [(Reg.PTP_CFG_EN, 1), (Reg.PTP_CFG_QUEUE, 4), (Reg.Q_CFG_EN 4, 1)], by decide⟩⟩

/-- States and operands that meet the hypotheses of each clause of ConverterCalibration. -/
theorem test_witness_ConverterCalibration :
    (∃ n : Fin 8, ∃ s : State, s.Inv ∧ s.dev.pageLive (0x0B2) = true ∧ s.dev.pageInTest (0x0B2) = false ∧ s.dev.lineOn n = true ∧ (lineBlocks n).any s.dev.bist.run.contains = false ∧ [n.val, 8 + n.val].filter s.dev.classIdle ≠ []) ∧
    (∃ n : Fin 8, ∃ s : State, s.Inv ∧ s.dev.pageLive (0x0B2) = true ∧ s.dev.pageInTest (0x0B2) = false ∧ s.dev.lineOn n = true ∧ (lineBlocks n).any s.dev.bist.run.contains = false ∧ [n.val, 8 + n.val].filter s.dev.classIdle ≠ []) ∧
    (∃ n : Fin 8, ∃ s : State, s.Inv ∧ s.dev.pageLive (0x0B2) = true ∧ s.dev.pageInTest (0x0B2) = false ∧ (lineBlocks n).any s.dev.bist.run.contains = false ∧ [n.val, 8 + n.val].filter s.dev.classIdle = []) ∧
    (∃ n : Fin 8, ∃ dac : Bool, ∃ cause : Fin 3, ∃ s : State, s.Inv ∧ (s.dev.record (lineRecord n dac)).kind = 1 ∧ cause ≠ 0) ∧
    (∃ n : Fin 8, ∃ s : State, s.Inv ∧ (s.dev.record n).kind = 1) ∧
    (∃ n : Fin 8, ∃ dac : Bool, ∃ s : State, s.Inv ∧ s.dev.hubOn = true ∧ s.dev.lineOn n = true ∧ (s.dev.record (lineRecord n dac)).kind = 2) ∧
    (∃ n : Fin 8, ∃ dac : Bool, ∃ s : State, s.Inv ∧ s.dev.hubOn = true ∧ s.dev.lineOn n = true ∧ (s.dev.record (lineRecord n dac)).kind = 2) ∧
    (∃ v : Word, ∃ s : State, s.Inv ∧ s.dev.pageLive (0x0B2) = true ∧ s.dev.pageInTest (0x0B2) = false ∧ v.getLsbD 5 = false ∧ s.dev.on Reg.LCAL_SYS_BUSY = false ∧ s.dev.lineOn ((s.dev.writeWord 0x0B2 0x080 0x30 (v ||| 0x10)).rd Reg.LCAL_SYS_ENGINE) = true ∧ s.dev.classIdle (lineRecord ((s.dev.writeWord 0x0B2 0x080 0x30 (v ||| 0x10)).rd Reg.LCAL_SYS_ENGINE) ((s.dev.writeWord 0x0B2 0x080 0x30 (v ||| 0x10)).on Reg.LCAL_SYS_TARGET)) = true) ∧
    (∃ v : Word, ∃ sums : List Int, ∃ x : SysCal, ∃ s : State, s.Inv ∧ s.dev.pageLive (0x0B2) = true ∧ s.dev.pageInTest (0x0B2) = false ∧ v.getLsbD 4 = false ∧ s.dev.col.sysCal = some x ∧ s.dev.rd Reg.LCAL_SYS_STEP < 3 ∧ s.dev.classIdle (lineRecord x.engine x.dac) = true ∧ (x.dac = true ∨ ((List.range 4).map fun k => (sums[k]?).getD 0).any (codeBad (s.dev.rd Reg.LCAL_SYS_STEP)) = false)) ∧
    (∃ s : State, s.Inv ∧ s.dev.on Reg.LCAL_SYS_BUSY = true) ∧
    (∃ s : State, s.Inv ∧ s.dev.pageLive (0x093) = true ∧ s.dev.pageInTest (0x093) = false ∧ s.dev.on Reg.CAL_CTRL_BUSY = false) ∧
    (∃ v : Word, ∃ s : State, s.Inv ∧ s.dev.pageLive (0x093) = true ∧ s.dev.pageInTest (0x093) = false ∧ s.dev.on Reg.CAL_CTRL_BUSY = false ∧ s.dev.dpll = dpllLocked ∧ s.dev.rd Reg.TIME_CTRL_SRC = 2 ∧ s.dev.on (Reg.TX_CTRL_ENABLE ((s.dev.writeWord 0x093 0x040 0x400 ((v &&& ~~~ 3) ||| 0x402)).rd Reg.CAL_CTRL_ENGINE)) = true ∧ s.dev.on (Reg.RX_CTRL_ENABLE ((s.dev.writeWord 0x093 0x040 0x400 ((v &&& ~~~ 3) ||| 0x402)).rd Reg.CAL_CTRL_ENGINE)) = true) ∧
    (∃ v : Word, ∃ s : State, s.Inv ∧ s.dev.pageLive (0x093) = true ∧ s.dev.pageInTest (0x093) = false ∧ s.dev.on Reg.CAL_CTRL_BUSY = false ∧ s.dev.dpll = dpllLocked ∧ s.dev.rd Reg.TIME_CTRL_SRC = 2 ∧ s.dev.on (Reg.TX_CTRL_ENABLE ((s.dev.writeWord 0x093 0x040 0x400 ((v &&& ~~~ 3) ||| 0x403)).rd Reg.CAL_CTRL_ENGINE)) = true ∧ s.dev.on (Reg.RX_CTRL_ENABLE ((s.dev.writeWord 0x093 0x040 0x400 ((v &&& ~~~ 3) ||| 0x403)).rd Reg.CAL_CTRL_ENGINE)) = true) ∧
    (∃ s : State, s.Inv ∧ s.dev.pageLive (0x093) = true ∧ s.dev.pageInTest (0x093) = false ∧ s.dev.on Reg.CAL_CTRL_BUSY = true) ∧
    (∃ measured : Int, ∃ c : Commission, ∃ s : State, s.Inv ∧ s.dev.col.commission = some c ∧ c.op = 3 ∧ (measured - psTo16 (s.dev.rd Reg.CAL_LOOP_PS_PS)).natAbs ≤ calLimit) ∧
    (∃ measured : Int, ∃ c : Commission, ∃ s : State, s.Inv ∧ s.dev.col.commission = some c ∧ c.op = 3 ∧ calLimit < (measured - psTo16 (s.dev.rd Reg.CAL_LOOP_PS_PS)).natAbs) :=
  ⟨⟨3, running [], by decide⟩,
    ⟨3, running [(Reg.TX_STATE_STATE 3, 2)], by decide⟩,
    ⟨3, running [(Reg.TX_STATE_STATE 3, 2), (Reg.RX_CTRL_ENABLE 3, 1)], by decide⟩,
    ⟨3, true, 2, runningWith [(Reg.COLREC_RUNNING 11, 1)] fun d => d.setRecord 11 { d.record 11 with kind := 1 }, by decide⟩,
    ⟨3, runningWith [(Reg.COLREC_RUNNING 3, 1)] fun d => d.setRecord 3 { d.record 3 with kind := 1 }, by decide⟩,
    ⟨3, false, runningWith [(Reg.COLREC_RUNNING 3, 1)] fun d => d.setRecord 3 { d.record 3 with kind := 2 }, by decide⟩,
    ⟨3, false, runningWith [(Reg.COLREC_RUNNING 3, 1), (Reg.LCAL_CTRL_MODE 3, 1)] fun d => d.setRecord 3 { d.record 3 with kind := 2 }, by decide⟩,
    ⟨0xB, running [(Reg.LCAL_SYS_FAIL, 1), (Reg.LCAL_SYS_CAUSE, 3)], by decide⟩,
    ⟨0, [1, 2, 3, 4], ⟨2, false, 7, [], []⟩, runningWith [(Reg.LCAL_SYS_BUSY, 1), (Reg.LCAL_SYS_STEP, 1)] fun d => { d with col := { d.col with sysCal := some ⟨2, false, 7, [], []⟩ } }, by decide⟩,
    ⟨running [(Reg.LCAL_SYS_BUSY, 1), (Reg.LCAL_SYS_STEP, 2)], by decide⟩,
    ⟨running [], by decide⟩,
    ⟨0x4, running [(Reg.DPLL_STAT_STATE, dpllLocked), (Reg.TIME_CTRL_SRC, 2), (Reg.TX_CTRL_ENABLE 1, 1), (Reg.RX_CTRL_ENABLE 1, 1)], by decide⟩,
    ⟨0x4, running [(Reg.DPLL_STAT_STATE, dpllLocked), (Reg.TIME_CTRL_SRC, 2), (Reg.TX_CTRL_ENABLE 1, 1), (Reg.RX_CTRL_ENABLE 1, 1)], by decide⟩,
    ⟨running [(Reg.CAL_CTRL_BUSY, 1)], by decide⟩,
    ⟨90000, ⟨3, 2, 0, 0, 77⟩, runningWith [(Reg.CAL_CTRL_BUSY, 1)] fun d => { d with col := { d.col with commission := some ⟨3, 2, 0, 0, 77⟩ } }, by decide⟩,
    ⟨900000000, ⟨3, 2, 0, 0, 77⟩, runningWith [(Reg.CAL_CTRL_BUSY, 1)] fun d => { d with col := { d.col with commission := some ⟨3, 2, 0, 0, 77⟩ } }, by decide⟩⟩

/-- States and operands that meet the hypotheses of each clause of HousekeepingAndRecordStore. -/
theorem test_witness_HousekeepingAndRecordStore :
    (∃ s : State, s.Inv ∧ s.dev.on Reg.HK_CTRL_EN = true ∧ s.dev.on Reg.FINDER_STAT_BOOTED = true) ∧
    (∃ codes0 : List Nat, ∃ codes1 : List Nat, ∃ ftime : Nat, ∃ s : State, s.Inv ∧ s.dev.col.scan = some ftime ∧ s.dev.col.cals = [] ∧ s.dev.pwr = pwrRun ∧ s.dev.hubOn = true ∧ s.dev.col.behind = false ∧ s.dev.on Reg.HK_STAT_BUSY0 = false ∧ s.dev.on Reg.HK_STAT_BUSY1 = false ∧ s.dev.on Reg.HK_STAT_FAULT0 = false ∧ s.dev.on Reg.HK_STAT_FAULT1 = false ∧ s.dev.rd Reg.HK_EN0_EN = 0 ∧ s.dev.rd Reg.HK_EN1_EN = 0 ∧ ((((codes0[31]?).getD 0 % 65536 : Nat) : Int) - 49152).natAbs ≤ s.dev.rd Reg.HK_PLAUS_REF_TOL_LSB ∧ ((((codes1[31]?).getD 0 % 65536 : Nat) : Int) - 49152).natAbs ≤ s.dev.rd Reg.HK_PLAUS_REF_TOL_LSB ∧ ((((codes0[31]?).getD 0 % 65536 : Nat) : Int) - ((codes1[31]?).getD 0 % 65536 : Nat)).natAbs ≤ s.dev.rd Reg.HK_PLAUS_PLAUS_LSB) ∧
    (∃ v : Word, ∃ s : State, s.Inv ∧ s.dev.pageLive (0x0B8) = true ∧ s.dev.pageInTest (0x0B8) = false ∧ s.dev.hubOn = true ∧ v &&& 0xE0 = 0x20 ∧ s.dev.col.cals = [] ∧ (s.dev.writeWord 0x0B8 0x040 0xE0 (v)).on Reg.HK_CTRL_CAL_MODE = false ∧ s.dev.on Reg.HK_STAT_BUSY0 = false) ∧
    (∃ v : Word, ∃ s : State, s.Inv ∧ s.dev.pageLive (0x0B8) = true ∧ s.dev.pageInTest (0x0B8) = false ∧ s.dev.hubOn = true ∧ v &&& 0xE0 = 0x20 ∧ s.dev.col.cals = [] ∧ (s.dev.writeWord 0x0B8 0x040 0xE0 (v)).on Reg.HK_CTRL_CAL_MODE = false ∧ s.dev.on Reg.HK_STAT_BUSY0 = true) ∧
    (∃ c : HkCal, ∃ s : State, s.Inv ∧ s.dev.hubOn = true ∧ s.dev.col.cals = [c] ∧ c.auto = false) ∧
    (∃ c : HkCal, ∃ s : State, s.Inv ∧ s.dev.hubOn = true ∧ s.dev.col.cals = [c] ∧ c.rerun = false ∧ c.system = false ∧ c.auto = false) ∧
    (∃ v : Word, ∃ s : State, s.Inv ∧ s.dev.pageLive (0x0B8) = true ∧ s.dev.pageInTest (0x0B8) = false ∧ s.dev.hubOn = true ∧ v &&& 0x60 = 0) ∧
    (∃ r : Fin 27, ∃ s : State, s.Inv ∧ s.dev.on (Reg.COLREC_DIRTY r) = true ∧ s.dev.col.queue.contains r.val = false ∧ s.dev.col.store.isSome = true) ∧
    (∃ s : State, s.Inv ∧ s.dev.pageLive (0x0B0) = true ∧ s.dev.pageInTest (0x0B0) = false) ∧
    (∃ r : Nat, ∃ k : Nat, ∃ c : ColCopy, ∃ s : State, s.Inv ∧ s.dev.col.store = some (r, k, c) ∧ s.dev.col.queue = []) ∧
    (∃ r : Nat, ∃ k : Nat, ∃ c : ColCopy, ∃ s : State, s.Inv ∧ s.dev.col.store = some (r, k, c) ∧ s.dev.col.queue = []) ∧
    (∃ r : Fin 27, ∃ tt : Int, ∃ s : State, s.Inv ∧ s.dev.hubOn = true ∧ 18 ≤ r.val ∧ s.dev.on (Reg.COLREC_VALID r) = true ∧ s.dev.on Reg.COL_CTRL_AUTO_RERUN = true ∧ s.dev.on (Reg.COLREC_RUNNING r) = false ∧ s.dev.on (Reg.COLREC_PENDING r) = false ∧ s.dev.recordTemp r = some tt ∧ (s.dev.rd Reg.COL_CTRL_RERUN_DEG : Int) < (tt - s.dev.rdS (Reg.COLREC_T_RUN r)).natAbs) ∧
    (∃ r : Fin 27, ∃ s : State, s.Inv ∧ (s.dev.record r).kind = 3) :=
  ⟨⟨runningWith [(Reg.HK_CTRL_EN, 1), (Reg.FINDER_STAT_BOOTED, 1)] fun d => { d with clock := 5000000, col := { d.col with waiting := [(.scan, 16, ⟨[], [], [], [5]⟩)] } }, by decide⟩,
    ⟨List.replicate 32 49150, List.replicate 32 49160, 77, runningWith [(Reg.HK_EN0_EN, 0), (Reg.HK_EN1_EN, 0), (Reg.HK_WR_PTR_INDEX, 8191), (Reg.HK_STAT_REF_FAULT, 1), (Reg.HK_PLAUS_REF_TOL_LSB, 100), (Reg.HK_PLAUS_PLAUS_LSB, 100)] fun d => { d with col := { d.col with scan := some 77, tried := [1], bad := [(0, 2)] } }, by decide⟩,
    ⟨0x21, running [], by decide⟩,
    ⟨0x21, running [(Reg.HK_STAT_BUSY0, 1)], by decide⟩,
    ⟨⟨1, false, false, false, 0⟩, runningWith [(Reg.HK_STAT_BUSY1, 1)] fun d => { d with col := { d.col with cals := [⟨1, false, false, false, 0⟩] } }, by decide⟩,
    ⟨⟨1, false, false, false, 0⟩, runningWith [(Reg.HK_STAT_BUSY1, 1)] fun d => { d with col := { d.col with cals := [⟨1, false, false, false, 0⟩] } }, by decide⟩,
    ⟨1, running [(Reg.HK_STAT_FAULT1, 1), (Reg.PWR_STAT_LINE_UNMON, 1)], by decide⟩,
    ⟨5, runningWith [(Reg.COLREC_DIRTY 5, 1)] fun d => { d with col := { d.col with queue := [3], store := some (1, 0, ⟨7, [1, 2, 3, 4, 5], ⟨[], [], [], [9]⟩, [1, 2, 3, 4, 5, 6, 7, 8]⟩) } }, by decide⟩,
    ⟨running [(Reg.COLREC_DIRTY 5, 1), (Reg.COLREC_DIRTY 7, 1)], by decide⟩,
    ⟨5, 1, ⟨7, [1, 2, 3, 4, 5], ⟨[], [], [], [9]⟩, [1, 2, 3, 4, 5, 6, 7, 8]⟩, runningWith [(Reg.COLREC_DIRTY 5, 1)] fun d => { d with col := { d.col with store := some (5, 1, ⟨7, [1, 2, 3, 4, 5], ⟨[], [], [], [9]⟩, [1, 2, 3, 4, 5, 6, 7, 8]⟩), copies := [(11, ⟨7, [1, 2, 3, 4, 5], ⟨[], [], [], [9]⟩, [1, 2, 3, 4, 5, 6, 7, 8]⟩), (2, ⟨7, [1, 2, 3, 4, 5], ⟨[], [], [], [9]⟩, [1, 2, 3, 4, 5, 6, 7, 8]⟩)] } }, by decide⟩,
    ⟨5, 1, ⟨7, [1, 2, 3, 4, 5], ⟨[], [], [], [9]⟩, [1, 2, 3, 4, 5, 6, 7, 8]⟩, runningWith [(Reg.COL_STAT_STORING, 1)] fun d => { d with col := { d.col with store := some (5, 1, ⟨7, [1, 2, 3, 4, 5], ⟨[], [], [], [9]⟩, [1, 2, 3, 4, 5, 6, 7, 8]⟩) } }, by decide⟩,
    ⟨20, -900, runningWith [(Reg.COLREC_VALID 20, 1), (Reg.COL_CTRL_AUTO_RERUN, 1)] fun d => { d with power := { d.power with means := (List.range 8).map fun k => (k, ⟨0, 0, 0, some (-900)⟩) } }, by decide⟩,
    ⟨20, runningWith [(Reg.COLREC_RUNNING 20, 1)] fun d => d.setRecord 20 { d.record 20 with kind := 3 }, by decide⟩⟩

/-- States and operands that meet the hypotheses of each clause of SerialLanes. -/
theorem test_witness_SerialLanes :
    (∃ x : Fin 80, ∃ s : State, s.Inv ∧ s.dev.hasLane x = true ∧ s.dev.on (Reg.LANE_STAT_LOS x) = false) ∧
    (∃ x : Fin 80, ∃ s : State, s.Inv ∧ s.dev.hasLane x = true ∧ s.dev.on (Reg.LANE_STAT_LOS x) = false) ∧
    (∃ x : Fin 80, ∃ s : State, s.Inv ∧ s.dev.hasLane x = true ∧ s.dev.on (Reg.LANE_STAT_LOS x) = true) ∧
    (∃ x : Fin 80, ∃ s : State, s.Inv ∧ s.dev.hasLane x = true ∧ s.dev.on (Reg.LANE_STAT_LOS x) = true) ∧
    (∃ x : Fin 80, ∃ s : State, s.Inv ∧ s.dev.hasLane x = true ∧ s.dev.on (Reg.LANE_STAT_LOS x) = false ∧ s.dev.on (Reg.LANE_STAT_LOL x) = false) ∧
    (∃ x : Fin 80, ∃ s : State, s.Inv ∧ s.dev.hasLane x = true ∧ s.dev.on (Reg.LANE_STAT_LOS x) = false ∧ s.dev.on (Reg.LANE_STAT_LOL x) = false) ∧
    (∃ x : Fin 80, ∃ s : State, s.Inv ∧ s.dev.hasLane x = true ∧ s.dev.on (Reg.LANE_STAT_LOS x) = false ∧ s.dev.on (Reg.LANE_STAT_LOL x) = true) ∧
    (∃ x : Fin 80, ∃ s : State, s.Inv ∧ s.dev.hasLane x = true ∧ s.dev.on (Reg.LANE_STAT_LP x) = false) ∧
    (∃ x : Fin 80, ∃ v : Word, ∃ s : State, s.Inv ∧ s.dev.pageLive (lanePage x) = true ∧ s.dev.pageInTest (lanePage x) = false ∧ (signed 5 (getBits v 0 5)).natAbs + (signed 5 (getBits v 8 5)).natAbs + getBits v 16 6 + (signed 5 (getBits v 24 5)).natAbs ≤ 63) ∧
    (∃ x : Fin 80, ∃ v : Word, ∃ s : State, s.Inv ∧ s.dev.pageLive (lanePage x) = true ∧ s.dev.pageInTest (lanePage x) = false ∧ 63 < (signed 5 (getBits v 0 5)).natAbs + (signed 5 (getBits v 8 5)).natAbs + getBits v 16 6 + (signed 5 (getBits v 24 5)).natAbs) ∧
    (∃ x : Fin 80, ∃ s : State, s.Inv ∧ s.dev.pageLive (lanePage x) = true ∧ s.dev.pageInTest (lanePage x) = false) ∧
    (∃ x : Fin 80, ∃ s : State, s.Inv ∧ s.dev.pageLive (lanePage x) = true ∧ s.dev.pageInTest (lanePage x) = false) ∧
    (∃ x : Fin 80, ∃ s : State, s.Inv ∧ s.dev.pageLive (lanePage x) = true ∧ s.dev.pageInTest (lanePage x) = false ∧ s.dev.on (Reg.LANE_STAT_LP x) = true ∧ s.dev.laneHeld x = false) ∧
    (∃ x : Fin 80, ∃ s : State, s.Inv ∧ s.dev.pageLive (lanePage x) = true ∧ s.dev.pageInTest (lanePage x) = false ∧ s.dev.on (Reg.LANE_STAT_LP x) = true ∧ s.dev.laneHeld x = false) ∧
    (∃ x : Fin 80, ∃ s : State, s.Inv ∧ s.dev.hasLane x = true ∧ s.dev.on (Reg.LANE_STAT_LP x) = false ∧ s.dev.on (Reg.LANE_STAT_READY x) = false) ∧
    (∃ x : Fin 80, ∃ lb : BitVec 2, ∃ s : State, s.Inv ∧ s.dev.pageLive (lanePage x) = true ∧ s.dev.pageInTest (lanePage x) = false ∧ (lb = 0 ∨ (s.dev.on (Reg.LANE_CTRL_LP x) = false ∧ s.dev.on (Reg.LANE_STAT_READY x) = true))) ∧
    (∃ x : Fin 80, ∃ lb : BitVec 2, ∃ s : State, s.Inv ∧ s.dev.pageLive (lanePage x) = true ∧ s.dev.pageInTest (lanePage x) = false ∧ (lb = 0 ∨ (s.dev.on (Reg.LANE_CTRL_LP x) = false ∧ s.dev.on (Reg.LANE_STAT_READY x) = true))) ∧
    (∃ x : Fin 80, ∃ lb : BitVec 2, ∃ s : State, s.Inv ∧ s.dev.pageLive (lanePage x) = true ∧ s.dev.pageInTest (lanePage x) = false ∧ lb ≠ 0 ∧ (s.dev.on (Reg.LANE_CTRL_LP x) = true ∨ s.dev.on (Reg.LANE_STAT_READY x) = false)) :=
  ⟨⟨70, runningWith [(Reg.LANE_STAT_LINK 70, 1), (Reg.LANE_STAT_READY 70, 1), (Reg.LANE_STAT_WINDOW_OK 70, 1), (Reg.LANE_STAT_LP 70, 0), (Reg.LANE_STAT_LOS 70, 0)] fun d => d.setRlane 70 ⟨true, 0, 3⟩, by decide⟩,
    ⟨5, running [(Reg.LANE_STAT_LOS 5, 0)], by decide⟩,
    ⟨70, runningWith [(Reg.LANE_STAT_LOS 70, 1), (Reg.LANE_STAT_LP 70, 0)] fun d => d.setRlane 70 ⟨true, 0, 3⟩, by decide⟩,
    ⟨5, running [(Reg.LANE_STAT_LOS 5, 1)], by decide⟩,
    ⟨70, runningWith [(Reg.LANE_STAT_LINK 70, 1), (Reg.LANE_STAT_READY 70, 1), (Reg.LANE_STAT_WINDOW_OK 70, 1), (Reg.LANE_STAT_LP 70, 0), (Reg.LANE_STAT_LOL 70, 0), (Reg.LANE_STAT_LOS 70, 0)] fun d => d.setRlane 70 ⟨true, 0, 3⟩, by decide⟩,
    ⟨5, running [(Reg.LANE_STAT_LOS 5, 0), (Reg.LANE_STAT_LOL 5, 0)], by decide⟩,
    ⟨70, runningWith [(Reg.LANE_STAT_LOL 70, 1), (Reg.LANE_STAT_LOS 70, 0), (Reg.LANE_STAT_LP 70, 0)] fun d => d.setRlane 70 ⟨true, 0, 3⟩, by decide⟩,
    ⟨5, running [(Reg.LANE_STAT_LP 5, 0)], by decide⟩,
    ⟨70, 0x1F2A0003, running [], by decide⟩,
    ⟨5, 0x103F0001, running [], by decide⟩,
    ⟨70, runningWith [(Reg.LANE_STAT_LINK 70, 1), (Reg.LANE_STAT_READY 70, 1), (Reg.LANE_STAT_WINDOW_OK 70, 1), (Reg.LANE_STAT_LP 70, 0)] fun d => d.setRlane 70 ⟨true, 0, 3⟩, by decide⟩,
    ⟨9, running [(Reg.LANE_STAT_LP 9, 0), (Reg.OCT_CFG_WIDTH 8, 2), (Reg.PORT_STAT_ALIGNED 8, 1), (Reg.PORT_STAT_LINK_UP 8, 1)], by decide⟩,
    ⟨70, runningWith [(Reg.LANE_STAT_LP 70, 1)] fun d => { d with xqStopped := [190, 7] }, by decide⟩,
    ⟨9, running [(Reg.LANE_STAT_LP 9, 1)], by decide⟩,
    ⟨5, running [(Reg.LANE_STAT_LP 5, 0), (Reg.LANE_STAT_READY 5, 0)], by decide⟩,
    ⟨5, 1, running [(Reg.LANE_CTRL_LP 5, 0), (Reg.LANE_STAT_READY 5, 1), (Reg.LANE_STAT_ADAPT_DONE 5, 1)], by decide⟩,
    ⟨70, 0, running [(Reg.LANE_CTRL_LB 70, 2)], by decide⟩,
    ⟨5, 1, running [(Reg.LANE_CTRL_LP 5, 1)], by decide⟩⟩

/-- States and operands that meet the hypotheses of each clause of RelayLanesAndPrbs. -/
theorem test_witness_RelayLanesAndPrbs :
    (∃ p : Fin 4, ∃ l : Fin 4, ∃ levels : List Nat, ∃ s : State, s.Inv ∧ s.dev.hubOn = true ∧ (s.dev.rlane (64 + 4 * p.val + l.val)).sync = true ∧ s.dev.on (Reg.LANE_STAT_LP (64 + 4 * p.val + l.val)) = false ∧ readLaneFrame levels = none) ∧
    (∃ p : Fin 4, ∃ l : Fin 4, ∃ levels : List Nat, ∃ f : LaneFrame, ∃ s : State, s.Inv ∧ s.dev.hubOn = true ∧ (s.dev.rlane (64 + 4 * p.val + l.val)).sync = true ∧ s.dev.on (Reg.LANE_STAT_LP (64 + 4 * p.val + l.val)) = false ∧ s.dev.on (Reg.LANE_STAT_LINK (64 + 4 * p.val + l.val)) = false ∧ readLaneFrame levels = some f) ∧
    (∃ p : Fin 4, ∃ l : Fin 4, ∃ levels : List Nat, ∃ arr : Int, ∃ f : LaneFrame, ∃ s : State, s.Inv ∧ s.dev.hubOn = true ∧ (s.dev.rlane (64 + 4 * p.val + l.val)).sync = true ∧ s.dev.on (Reg.LANE_STAT_LP (64 + 4 * p.val + l.val)) = false ∧ s.dev.on (Reg.LANE_STAT_LINK (64 + 4 * p.val + l.val)) = true ∧ readLaneFrame levels = some f ∧ (((if s.dev.rd (Reg.LANE_CTRL_LB (64 + 4 * p.val + l.val)) = 3 then s.dev.setEcho (64 + 4 * p.val + l.val) levels else s.dev).setRlane (64 + 4 * p.val + l.val) { (if s.dev.rd (Reg.LANE_CTRL_LB (64 + 4 * p.val + l.val)) = 3 then s.dev.setEcho (64 + 4 * p.val + l.val) levels else s.dev).rlane (64 + 4 * p.val + l.val) with misses := 0 }).laneStep (64 + 4 * p.val + l.val) (Dev.arrivalIn (64 + 4 * p.val + l.val) arr)).transitOk (64 + 4 * p.val + l.val) = true ∧ l ≠ 0) ∧
    (∃ p : Fin 4, ∃ l : Fin 4, ∃ levels : List Nat, ∃ arr : Int, ∃ f : LaneFrame, ∃ s : State, s.Inv ∧ s.dev.hubOn = true ∧ (s.dev.rlane (64 + 4 * p.val + l.val)).sync = true ∧ s.dev.on (Reg.LANE_STAT_LP (64 + 4 * p.val + l.val)) = false ∧ s.dev.on (Reg.LANE_STAT_LINK (64 + 4 * p.val + l.val)) = true ∧ readLaneFrame levels = some f ∧ (((if s.dev.rd (Reg.LANE_CTRL_LB (64 + 4 * p.val + l.val)) = 3 then s.dev.setEcho (64 + 4 * p.val + l.val) levels else s.dev).setRlane (64 + 4 * p.val + l.val) { (if s.dev.rd (Reg.LANE_CTRL_LB (64 + 4 * p.val + l.val)) = 3 then s.dev.setEcho (64 + 4 * p.val + l.val) levels else s.dev).rlane (64 + 4 * p.val + l.val) with misses := 0 }).laneStep (64 + 4 * p.val + l.val) (Dev.arrivalIn (64 + 4 * p.val + l.val) arr)).transitOk (64 + 4 * p.val + l.val) = true ∧ l ≠ 0) ∧
    (∃ p : Fin 4, ∃ l : Fin 4, ∃ first : List Nat, ∃ second : List Nat, ∃ s : State, s.Inv ∧ s.dev.hubOn = true ∧ s.dev.on (Reg.LANE_STAT_LP (64 + 4 * p.val + l.val)) = false ∧ headsAgree first second = true) ∧
    (∃ p : Fin 4, ∃ l : Fin 4, ∃ s : State, s.Inv ∧ (s.dev.rlane (64 + 4 * p.val + l.val)).sync = true ∧ 4 ≤ (s.dev.rlane (64 + 4 * p.val + l.val)).misses) ∧
    (∃ s : State, s.Inv) ∧
    (∃ s : State, s.Inv) ∧
    (∃ i : Fin 80, ∃ v : Word, ∃ s : State, s.Inv ∧ s.dev.pageLive (prbsPage i) = true ∧ s.dev.pageInTest (prbsPage i) = false ∧ s.dev.laneAsleep i = false ∧ v &&& 0x600 = 0) ∧
    (∃ i : Fin 80, ∃ s : State, s.Inv ∧ s.dev.pageLive (prbsPage i) = true ∧ s.dev.pageInTest (prbsPage i) = false ∧ s.dev.laneAsleep i = true) ∧
    (∃ i : Fin 80, ∃ v : Word, ∃ s : State, s.Inv ∧ s.dev.pageLive (prbsPage i) = true ∧ s.dev.pageInTest (prbsPage i) = false ∧ s.dev.laneAsleep i = false ∧ v &&& 0x3E08 = 0) ∧
    (∃ i : Fin 80, ∃ v : Word, ∃ s : State, s.Inv ∧ s.dev.pageLive (prbsPage i) = true ∧ s.dev.pageInTest (prbsPage i) = false ∧ s.dev.laneAsleep i = false ∧ v &&& 0x3C08 = 0) ∧
    (∃ i : Fin 80, ∃ v : Word, ∃ s : State, s.Inv ∧ s.dev.pageLive (prbsPage i) = true ∧ s.dev.pageInTest (prbsPage i) = false ∧ s.dev.laneAsleep i = false ∧ v.getLsbD 3 = true ∧ v.getLsbD 9 = false) ∧
    (∃ i : Fin 80, ∃ v : Word, ∃ s : State, s.Inv ∧ s.dev.pageLive (prbsPage i) = true ∧ s.dev.pageInTest (prbsPage i) = false ∧ s.dev.laneAsleep i = false ∧ v.getLsbD 3 = true ∧ v.getLsbD 9 = false) ∧
    (∃ i : Fin 80, ∃ v : Word, ∃ s : State, s.Inv ∧ s.dev.pageLive (prbsPage i) = true ∧ s.dev.pageInTest (prbsPage i) = false ∧ v.getLsbD 3 = false) ∧
    (∃ i : Fin 80, ∃ v : Word, ∃ s : State, s.Inv ∧ s.dev.pageLive (prbsPage i) = true ∧ s.dev.pageInTest (prbsPage i) = false ∧ s.dev.laneAsleep i = false ∧ v.getLsbD 3 = true ∧ v &&& 0x600 = 0) ∧
    (∃ i : Fin 80, ∃ s : State, s.Inv ∧ s.dev.hubOn = true ∧ s.dev.on (Reg.PRBS_CTRL_CHK_EN i) = true) ∧
    (∃ i : Fin 80, ∃ s : State, s.Inv ∧ s.dev.hubOn = true ∧ s.dev.on (Reg.PRBS_STAT_LOCK i) = true) :=
  ⟨⟨1, 2, [0, 3], runningWith [(Reg.LANE_STAT_LINK 70, 1), (Reg.LANE_STAT_READY 70, 1), (Reg.LANE_STAT_WINDOW_OK 70, 1), (Reg.LANE_STAT_LP 70, 0)] fun d => d.setRlane 70 ⟨true, 0, 3⟩, by decide⟩,
    ⟨1, 2, (byteLevels (relaySync ++ relayInfo 2 9 [127, 127, 127, 127])), ⟨2, 9, [127, 127, 127, 127], [], []⟩, runningWith [(Reg.LANE_STAT_LP 70, 0)] fun d => d.setRlane 70 ⟨true, 2, 3⟩, by decide⟩,
    ⟨1, 2, (byteLevels (relaySync ++ relayInfo 2 9 [127, 127, 127, 127])), 5, ⟨2, 9, [127, 127, 127, 127], [], []⟩, runningWith [(Reg.LANE_STAT_LINK 70, 1), (Reg.LANE_STAT_READY 70, 1), (Reg.LANE_STAT_WINDOW_OK 70, 1), (Reg.LANE_STAT_LP 70, 0), (Reg.LANE_STAT_LOS 70, 0), (Reg.LANE_STAT_LOL 70, 0)] fun d => d.setRlane 70 ⟨true, 0, 3⟩, by decide⟩,
    ⟨1, 2, (byteLevels (relaySync ++ relayInfo 2 9 [127, 127, 127, 127])), 5, ⟨2, 9, [127, 127, 127, 127], [], []⟩, runningWith [(Reg.LANE_STAT_LINK 70, 1), (Reg.LANE_STAT_READY 70, 1), (Reg.LANE_STAT_WINDOW_OK 70, 1), (Reg.LANE_STAT_LP 70, 0), (Reg.LANE_STAT_LOS 70, 0), (Reg.LANE_STAT_LOL 70, 0), (Reg.LANE_CTRL_LB 70, 3)] fun d => d.setRlane 70 ⟨true, 0, 3⟩, by decide⟩,
    ⟨1, 2, (byteLevels (relaySync ++ relayInfo 2 9 [127, 127, 127, 127])), (byteLevels (relaySync ++ relayInfo 2 10 [127, 127, 127, 127])), running [(Reg.LANE_STAT_LP 70, 0), (Reg.LANE_STAT_LOS 70, 0), (Reg.LANE_STAT_LOL 70, 0)], by decide⟩,
    ⟨1, 2, runningWith [(Reg.LANE_STAT_LINK 70, 1), (Reg.LANE_STAT_READY 70, 1), (Reg.LANE_STAT_WINDOW_OK 70, 1), (Reg.LANE_STAT_LP 70, 0)] fun d => d.setRlane 70 ⟨true, 4, 3⟩, by decide⟩,
    ⟨runningWith [(Reg.LANE_STAT_LINK 70, 1), (Reg.LANE_STAT_READY 70, 1), (Reg.LANE_STAT_WINDOW_OK 70, 1), (Reg.LANE_STAT_LP 70, 0), (Reg.RL_ERR_THR_THRESHOLD 1, 2)] fun d => d.setRlane 70 ⟨true, 0, 3⟩, by decide⟩,
    ⟨running [], by decide⟩,
    ⟨70, 0x13, running [(Reg.LANE_CTRL_LP 70, 0), (Reg.LANE_STAT_READY 70, 1)], by decide⟩,
    ⟨70, running [(Reg.LANE_CTRL_LP 70, 1)], by decide⟩,
    ⟨70, 0x10, running [(Reg.LANE_CTRL_LP 70, 0), (Reg.LANE_STAT_READY 70, 1), (Reg.PRBS_STAT_LOCK 70, 1)], by decide⟩,
    ⟨70, 0x80, running [(Reg.LANE_CTRL_LP 70, 0), (Reg.LANE_STAT_READY 70, 1), (Reg.PRBS_CTRL_CHK_EN 70, 1), (Reg.PRBS_ERR 70, 9), (Reg.PRBS_BITS_HI 70, 9)], by decide⟩,
    ⟨70, 0x88, running [(Reg.LANE_CTRL_LP 70, 0), (Reg.LANE_STAT_READY 70, 1), (Reg.PRBS_CTRL_CHK_EN 70, 1), (Reg.PRBS_STAT_LOCK 70, 1), (Reg.LANE_CTRL_LB 70, 2)], by decide⟩,
    ⟨70, 0x88, running [(Reg.LANE_CTRL_LP 70, 0), (Reg.LANE_STAT_READY 70, 1)], by decide⟩,
    ⟨70, 0x10, running [(Reg.LANE_CTRL_LP 70, 0), (Reg.LANE_STAT_READY 70, 1)], by decide⟩,
    ⟨70, 0x1808, running [(Reg.LANE_CTRL_LP 70, 0), (Reg.LANE_STAT_READY 70, 1)], by decide⟩,
    ⟨70, running [(Reg.PRBS_CTRL_CHK_EN 70, 1)], by decide⟩,
    ⟨70, running [(Reg.PRBS_STAT_LOCK 70, 1), (Reg.PRBS_BITS_LO 70, 0xFFFFFFF0)], by decide⟩⟩

/-- States and operands that meet the hypotheses of each clause of ChainMessages. -/
theorem test_witness_ChainMessages :
    (∃ p : Fin 4, ∃ raw : List Byte, ∃ s : State, s.Inv ∧ s.dev.hubOn = true ∧ s.dev.portLink p = true ∧ raw ≠ [0, 0, 0, 0] ∧ segmentOk raw = false) ∧
    (∃ p : Fin 4, ∃ raw : List Byte, ∃ s : State, s.Inv ∧ s.dev.hubOn = true ∧ s.dev.portLink p = true ∧ raw ≠ [0, 0, 0, 0] ∧ segmentOk raw = false) ∧
    (∃ p : Fin 4, ∃ raw : List Byte, ∃ s : State, s.Inv ∧ s.dev.hubOn = true ∧ s.dev.portLink p = true ∧ raw ≠ [0, 0, 0, 0] ∧ segmentOk raw = true ∧ ((readSegment raw).cls = 1 ∨ (readSegment raw).cls = 2) ∧ s.dev.on (Reg.RP_STAT_CONFLICT p) = false ∧ (readSegment raw).bcast = false ∧ s.dev.ownPos = some (readSegment raw).dst ∧ ((readSegment raw).last = false ∨ (s.dev.isHead = true ∧ s.dev.chainAccess (readSegment raw).src (readSegment raw).seq = none))) ∧
    (∃ p : Fin 4, ∃ raw : List Byte, ∃ s : State, s.Inv ∧ s.dev.hubOn = true ∧ s.dev.portLink p = true ∧ raw ≠ [0, 0, 0, 0] ∧ segmentOk raw = true ∧ ((readSegment raw).cls = 1 ∨ (readSegment raw).cls = 2) ∧ s.dev.on (Reg.RP_STAT_CONFLICT p) = false ∧ (readSegment raw).bcast = false ∧ s.dev.ownPos = some (readSegment raw).dst ∧ ((readSegment raw).last = false ∨ (s.dev.isHead = true ∧ s.dev.chainAccess (readSegment raw).src (readSegment raw).seq = none))) ∧
    (∃ p : Fin 4, ∃ raw : List Byte, ∃ w : ChainAccess, ∃ s : State, s.Inv ∧ s.dev.hubOn = true ∧ s.dev.portLink p = true ∧ raw ≠ [0, 0, 0, 0] ∧ segmentOk raw = true ∧ ((readSegment raw).cls = 1 ∨ (readSegment raw).cls = 2) ∧ s.dev.on (Reg.RP_STAT_CONFLICT p) = false ∧ (readSegment raw).bcast = false ∧ s.dev.isHead = true ∧ (readSegment raw).dst = 0 ∧ (readSegment raw).last = true ∧ sget (dflt []) s.dev.relay.inbox (inboxKey (readSegment raw)) = [] ∧ s.dev.relay.lost.contains (inboxKey (readSegment raw)) = false ∧ s.dev.chainAccess (readSegment raw).src (readSegment raw).seq = some w ∧ fieldLE (readSegment raw).data 0 1 = 0) ∧
    (∃ p : Fin 4, ∃ raw : List Byte, ∃ w : ChainAccess, ∃ s : State, s.Inv ∧ s.dev.hubOn = true ∧ s.dev.portLink p = true ∧ raw ≠ [0, 0, 0, 0] ∧ segmentOk raw = true ∧ ((readSegment raw).cls = 1 ∨ (readSegment raw).cls = 2) ∧ s.dev.on (Reg.RP_STAT_CONFLICT p) = false ∧ (readSegment raw).bcast = false ∧ s.dev.isHead = true ∧ (readSegment raw).dst = 0 ∧ (readSegment raw).last = true ∧ sget (dflt []) s.dev.relay.inbox (inboxKey (readSegment raw)) = [] ∧ s.dev.relay.lost.contains (inboxKey (readSegment raw)) = false ∧ s.dev.chainAccess (readSegment raw).src (readSegment raw).seq = some w ∧ fieldLE (readSegment raw).data 0 1 = 1) ∧
    (∃ p : Fin 4, ∃ raw : List Byte, ∃ s : State, s.Inv ∧ s.dev.hubOn = true ∧ s.dev.portLink p = true ∧ raw ≠ [0, 0, 0, 0] ∧ segmentOk raw = true ∧ (readSegment raw).cls = 1 ∧ s.dev.on (Reg.RP_STAT_CONFLICT p) = false ∧ (readSegment raw).bcast = false ∧ s.dev.isHead = false ∧ s.dev.ownPos = some (readSegment raw).dst ∧ (readSegment raw).last = true ∧ sget (dflt []) s.dev.relay.inbox (inboxKey (readSegment raw)) = [] ∧ s.dev.relay.lost.contains (inboxKey (readSegment raw)) = false ∧ 5 ≤ (readSegment raw).data.length) ∧
    (∃ p : Fin 4, ∃ raw : List Byte, ∃ s : State, s.Inv ∧ s.dev.hubOn = true ∧ s.dev.portLink p = true ∧ raw ≠ [0, 0, 0, 0] ∧ segmentOk raw = true ∧ (readSegment raw).cls = 1 ∧ s.dev.on (Reg.RP_STAT_CONFLICT p) = false ∧ (readSegment raw).bcast = false ∧ s.dev.isHead = false ∧ s.dev.ownPos = some (readSegment raw).dst ∧ (readSegment raw).last = true ∧ sget (dflt []) s.dev.relay.inbox (inboxKey (readSegment raw)) = [] ∧ s.dev.relay.lost.contains (inboxKey (readSegment raw)) = false ∧ 5 ≤ (readSegment raw).data.length) ∧
    (∃ p : Fin 4, ∃ raw : List Byte, ∃ q : Nat, ∃ s : State, s.Inv ∧ s.dev.hubOn = true ∧ s.dev.portLink p = true ∧ raw ≠ [0, 0, 0, 0] ∧ segmentOk raw = true ∧ ((readSegment raw).cls = 1 ∨ (readSegment raw).cls = 2) ∧ s.dev.on (Reg.RP_STAT_CONFLICT p) = false ∧ (readSegment raw).bcast = false ∧ s.dev.ownPos ≠ some (readSegment raw).dst ∧ s.dev.portTo (readSegment raw).dst p = some q) ∧
    (∃ p : Fin 4, ∃ raw : List Byte, ∃ s : State, s.Inv ∧ s.dev.hubOn = true ∧ s.dev.portLink p = true ∧ raw ≠ [0, 0, 0, 0] ∧ segmentOk raw = true ∧ (readSegment raw).cls = 3 ∧ s.dev.isHead = true ∧ (bitAt (fieldBE (readSegment raw).data 9 1) 0 = false ∨ s.dev.on (Reg.RP_STAT_CONFLICT p) = true)) ∧
    (∃ p : Fin 4, ∃ raw : List Byte, ∃ s : State, s.Inv ∧ s.dev.hubOn = true ∧ s.dev.portLink p = true ∧ raw ≠ [0, 0, 0, 0] ∧ segmentOk raw = true ∧ (readSegment raw).cls = 3 ∧ s.dev.isHead = true ∧ (bitAt (fieldBE (readSegment raw).data 9 1) 0 = false ∨ s.dev.on (Reg.RP_STAT_CONFLICT p) = true)) ∧
    (∃ p : Fin 4, ∃ raw : List Byte, ∃ s : State, s.Inv ∧ s.dev.hubOn = true ∧ s.dev.portLink p = true ∧ raw ≠ [0, 0, 0, 0] ∧ segmentOk raw = true ∧ (readSegment raw).cls = 3 ∧ s.dev.isHead = true ∧ bitAt (fieldBE (readSegment raw).data 9 1) 0 = true ∧ s.dev.on (Reg.RP_STAT_CONFLICT p) = false) ∧
    (∃ pos : BitVec 6, ∃ s : State, s.Inv ∧ s.dev.pcieOn = true ∧ s.dev.hostGone = false ∧ pos ≠ 0) ∧
    (∃ pos : BitVec 6, ∃ seq : Byte, ∃ w : ChainAccess, ∃ s : State, s.Inv ∧ s.dev.chainAccess pos.toNat seq.toNat = some w) ∧
    (∃ pos : BitVec 6, ∃ seq : Byte, ∃ w : ChainAccess, ∃ s : State, s.Inv ∧ s.dev.chainAccess pos.toNat seq.toNat = some w) ∧
    (∃ pos : BitVec 6, ∃ seq : Byte, ∃ w : ChainAccess, ∃ s : State, s.Inv ∧ s.dev.chainAccess pos.toNat seq.toNat = some w) ∧
    (∃ pos : BitVec 6, ∃ s : State, s.Inv ∧ s.dev.pcieOn = true ∧ s.dev.hostGone = true ∧ pos ≠ 0) ∧
    (∃ pos : BitVec 6, ∃ s : State, s.Inv ∧ s.dev.hubOn = true ∧ s.dev.isHead = false ∧ s.dev.ownPos = some pos.toNat ∧ s.dev.shedActive 1 = false) ∧
    (∃ s : State, s.Inv ∧ s.dev.hubOn = true) :=
  ⟨⟨2, [1, 2, 3], runningWith [(Reg.LANE_STAT_LINK 72, 1)] fun d => { d with relay := { d.relay with inbox := [(0, [5])] } }, by decide⟩,
    ⟨2, [64, 0, 0, 3, 9], runningWith [(Reg.LANE_STAT_LINK 72, 1)] fun d => { d with relay := { d.relay with inbox := [(16384, [5])] } }, by decide⟩,
    ⟨2, [64, 20, 3, 1, 7, 8, 161, 65, 23, 121], running [(Reg.LANE_STAT_LINK 72, 1), (Reg.STRAPS_CHAIN_HEAD, 1)], by decide⟩,
    ⟨2, [128, 21, 3, 1, 7, 8, 165, 118, 159, 85], running [(Reg.LANE_STAT_LINK 72, 1), (Reg.STRAPS_CHAIN_HEAD, 1)], by decide⟩,
    ⟨2, [64, 21, 3, 4, 0, 7, 8, 9, 10, 59, 75, 106, 4], ⟨5, 3, true, 1⟩, runningWith [(Reg.LANE_STAT_LINK 72, 1), (Reg.STRAPS_CHAIN_HEAD, 1)] fun d => { d with relay := { d.relay with waiting := [⟨5, 3, true, 1⟩] } }, by decide⟩,
    ⟨2, [128, 21, 3, 0, 1, 237, 110, 66, 101], ⟨5, 3, true, 2⟩, runningWith [(Reg.LANE_STAT_LINK 72, 1), (Reg.STRAPS_CHAIN_HEAD, 1)] fun d => { d with relay := { d.relay with waiting := [⟨5, 3, true, 2⟩] } }, by decide⟩,
    ⟨2, [69, 1, 3, 4, 0, 64, 64, 2, 0, 140, 189, 103, 205], running [(Reg.LANE_STAT_LINK 72, 1), (Reg.LANE_STAT_LINK 68, 1), (Reg.STRAPS_CHAIN_HEAD, 0), (Reg.CHAIN_STAT_ASSIGNED, 1), (Reg.CHAIN_STAT_POS, 5)], by decide⟩,
    ⟨2, [69, 1, 3, 8, 1, 64, 64, 2, 0, 9, 0, 0, 0, 246, 67, 107, 244], running [(Reg.LANE_STAT_LINK 72, 1), (Reg.LANE_STAT_LINK 68, 1), (Reg.STRAPS_CHAIN_HEAD, 0), (Reg.CHAIN_STAT_ASSIGNED, 1), (Reg.CHAIN_STAT_POS, 5)], by decide⟩,
    ⟨2, [68, 20, 3, 1, 7, 8, 183, 3, 134, 226], 1, running [(Reg.LANE_STAT_LINK 72, 1), (Reg.LANE_STAT_LINK 68, 1), (Reg.RP_STAT_NEIGH_KNOWN 1, 1), (Reg.RP_STAT_NEIGH_POS 1, 4)], by decide⟩,
    ⟨2, [192, 1, 0, 10, 9, 0, 0, 0, 0, 0, 0, 0, 4, 0, 3, 213, 70, 218, 193], running [(Reg.LANE_STAT_LINK 72, 1), (Reg.STRAPS_CHAIN_HEAD, 1)], by decide⟩,
    ⟨2, [192, 1, 0, 10, 9, 0, 0, 0, 0, 0, 0, 0, 4, 1, 3, 148, 119, 193, 216], running [(Reg.LANE_STAT_LINK 72, 1), (Reg.STRAPS_CHAIN_HEAD, 1), (Reg.RP_STAT_CONFLICT 2, 1)], by decide⟩,
    ⟨2, [192, 1, 0, 10, 9, 0, 0, 0, 0, 0, 0, 0, 4, 1, 3, 148, 119, 193, 216], running [(Reg.LANE_STAT_LINK 72, 1), (Reg.STRAPS_CHAIN_HEAD, 1)], by decide⟩,
    ⟨3, running [(Reg.STRAPS_CHAIN_HEAD, 1), (Reg.LANE_STAT_LINK 68, 1)], by decide⟩,
    ⟨3, 9, ⟨3, 9, true, 1⟩, runningWith [] fun d => { d with relay := { d.relay with waiting := [⟨3, 9, true, 1⟩] } }, by decide⟩,
    ⟨3, 9, ⟨3, 9, false, 1⟩, runningWith [] fun d => { d with relay := { d.relay with waiting := [⟨3, 9, false, 1⟩] } }, by decide⟩,
    ⟨3, 9, ⟨3, 9, true, 2⟩, runningWith [] fun d => { d with relay := { d.relay with waiting := [⟨3, 9, true, 2⟩] } }, by decide⟩,
    ⟨3, runningWith [(Reg.STRAPS_CHAIN_HEAD, 1), (Reg.LANE_STAT_LINK 68, 1)] fun d => { d with d3hot := true }, by decide⟩,
    ⟨5, running [(Reg.LANE_STAT_LINK 68, 1), (Reg.STRAPS_CHAIN_HEAD, 0), (Reg.CHAIN_STAT_ASSIGNED, 1), (Reg.CHAIN_STAT_POS, 5)], by decide⟩,
    ⟨running [(Reg.STRAPS_CHAIN_HEAD, 1), (Reg.LANE_STAT_LINK 68, 1), (Reg.LANE_STAT_LINK 76, 1), (Reg.RP_STAT_CONFLICT 3, 1)], by decide⟩⟩

/-- States and operands that meet the hypotheses of each clause of ChainMembership. -/
theorem test_witness_ChainMembership :
    (∃ s : State, s.Inv ∧ s.dev.hubOn = true ∧ s.dev.isHead = true ∧ (List.range 4).any s.dev.portLink = true ∧ s.dev.relay.chain = []) ∧
    (∃ s : State, s.Inv ∧ s.dev.pageLive (0x380) = true ∧ s.dev.pageInTest (0x380) = false ∧ s.dev.isHead = true) ∧
    (∃ s : State, s.Inv ∧ s.dev.pageLive (0x380) = true ∧ s.dev.pageInTest (0x380) = false ∧ s.dev.isHead = false) ∧
    (∃ s : State, s.Inv ∧ s.dev.hubOn = true ∧ s.dev.isHead = true ∧ s.dev.relay.assigning = true) ∧
    (∃ p : Fin 4, ∃ s : State, s.Inv ∧ s.dev.hubOn = true ∧ s.dev.isHead = false ∧ s.dev.portLink p = true ∧ s.dev.otherHead p = false) ∧
    (∃ key : BitVec 64, ∃ s : State, s.Inv ∧ s.dev.chainUp = true ∧ s.dev.relay.chain.any (fun m => decide (m.keyId = key.toNat)) = true ∧ s.dev.relay.chain.any (fun m => m.keyId = key.toNat && m.present) = false) ∧
    (∃ key : BitVec 64, ∃ p : Nat, ∃ s : State, s.Inv ∧ s.dev.chainUp = true ∧ s.dev.relay.chain.any (fun m => decide (m.keyId = key.toNat)) = false ∧ s.dev.freePos = some p) ∧
    (∃ key : BitVec 64, ∃ links : List ChainLink, ∃ s : State, s.Inv ∧ s.dev.chainUp = true ∧ s.dev.relay.chain.any (fun m => m.keyId = key.toNat && m.present && m.pos ≠ 0) = true ∧ (chainFrom (s.dev.usedLinks links) s.dev.ownKey).any (fun e => decide (e.1 = key.toNat)) = false) ∧
    (∃ key : BitVec 64, ∃ s : State, s.Inv ∧ s.dev.chainUp = true ∧ s.dev.relay.chain.any (fun m => m.keyId = key.toNat && m.present) = true) ∧
    (∃ key : BitVec 64, ∃ links : List ChainLink, ∃ s : State, s.Inv ∧ s.dev.chainUp = true ∧ s.dev.relay.chain.any (fun m => m.keyId = key.toNat && m.present && m.pos ≠ 0) = true ∧ (chainFrom (s.dev.usedLinks links) s.dev.ownKey).any (fun e => decide (e.1 = key.toNat)) = true) :=
  ⟨⟨running [(Reg.STRAPS_CHAIN_HEAD, 1), (Reg.LANE_STAT_LINK 68, 1)], by decide⟩,
    ⟨runningWith [(Reg.STRAPS_CHAIN_HEAD, 1), (Reg.LANE_STAT_LINK 64, 1), (Reg.KEY_ID_LO, 1), (Reg.CHAIN_STAT_ASSIGNED, 1)] fun d => { d with relay := { d.relay with chain := [⟨1, 0, true, []⟩, ⟨7, 1, true, [(0, 1)]⟩, ⟨9, 2, false, []⟩] } }, by decide⟩,
    ⟨running [], by decide⟩,
    ⟨runningWith [(Reg.STRAPS_CHAIN_HEAD, 1), (Reg.LANE_STAT_LINK 64, 1), (Reg.KEY_ID_LO, 1)] fun d => { d with relay := { d.relay with assigning := true } }, by decide⟩,
    ⟨2, running [(Reg.LANE_STAT_LINK 72, 1)], by decide⟩,
    ⟨9, runningWith [(Reg.STRAPS_CHAIN_HEAD, 1), (Reg.LANE_STAT_LINK 64, 1), (Reg.KEY_ID_LO, 1), (Reg.CHAIN_STAT_ASSIGNED, 1)] fun d => { d with relay := { d.relay with chain := [⟨1, 0, true, []⟩, ⟨7, 1, true, [(0, 1)]⟩, ⟨9, 2, false, []⟩] } }, by decide⟩,
    ⟨11, 3, runningWith [(Reg.STRAPS_CHAIN_HEAD, 1), (Reg.LANE_STAT_LINK 64, 1), (Reg.KEY_ID_LO, 1), (Reg.CHAIN_STAT_ASSIGNED, 1)] fun d => { d with relay := { d.relay with chain := [⟨1, 0, true, []⟩, ⟨7, 1, true, [(0, 1)]⟩, ⟨9, 2, false, []⟩] } }, by decide⟩,
    ⟨9, [⟨1, 0, 7, 2⟩], runningWith [(Reg.STRAPS_CHAIN_HEAD, 1), (Reg.LANE_STAT_LINK 64, 1), (Reg.KEY_ID_LO, 1), (Reg.CHAIN_STAT_ASSIGNED, 1)] fun d => { d with relay := { d.relay with chain := [⟨1, 0, true, []⟩, ⟨7, 1, true, [(0, 1)]⟩, ⟨9, 2, true, []⟩] } }, by decide⟩,
    ⟨9, runningWith [(Reg.STRAPS_CHAIN_HEAD, 1), (Reg.LANE_STAT_LINK 64, 1), (Reg.KEY_ID_LO, 1), (Reg.CHAIN_STAT_ASSIGNED, 1)] fun d => { d with relay := { d.relay with chain := [⟨1, 0, true, []⟩, ⟨7, 1, true, [(0, 1)]⟩, ⟨9, 2, true, []⟩] } }, by decide⟩,
    ⟨9, [⟨1, 0, 7, 2⟩, ⟨7, 0, 9, 1⟩], runningWith [(Reg.STRAPS_CHAIN_HEAD, 1), (Reg.LANE_STAT_LINK 64, 1), (Reg.KEY_ID_LO, 1), (Reg.CHAIN_STAT_ASSIGNED, 1)] fun d => { d with relay := { d.relay with chain := [⟨1, 0, true, []⟩, ⟨7, 1, true, [(0, 1)]⟩, ⟨9, 2, true, []⟩] } }, by decide⟩⟩

/-- States and operands that meet the hypotheses of each clause of ServiceQueues. -/
theorem test_witness_ServiceQueues :
    (∃ q : Fin 32, ∃ poisoned : Bool, ∃ bytes : List Byte, ∃ s : State, s.Inv ∧ s.dev.hubOn = true ∧ s.dev.later.all (fun x => decide (x.page ≠ 0x042)) = true ∧ s.dev.on (Reg.Q_CFG_EN q) = true ∧ s.dev.queueFits q ⟨s.dev.rd (Reg.Q_CFG_PRIO_DEF q), 3, 0, poisoned, s.dev.time, 0, bytes⟩ = true ∧ s.dev.on (Reg.Q_STAT_STALLING q) = false) ∧
    (∃ q : Fin 32, ∃ poisoned : Bool, ∃ bytes : List Byte, ∃ s : State, s.Inv ∧ s.dev.hubOn = true ∧ s.dev.later.all (fun x => decide (x.page ≠ 0x042)) = true ∧ s.dev.on (Reg.Q_CFG_EN q) = true ∧ s.dev.queueFits q ⟨s.dev.rd (Reg.Q_CFG_PRIO_DEF q), 3, 0, poisoned, s.dev.time, 0, bytes⟩ = true ∧ s.dev.on (Reg.Q_STAT_STALLING q) = false) ∧
    (∃ q : Fin 32, ∃ poisoned : Bool, ∃ bytes : List Byte, ∃ s : State, s.Inv ∧ s.dev.hubOn = true ∧ s.dev.later.all (fun x => decide (x.page ≠ 0x042)) = true ∧ s.dev.on (Reg.Q_CFG_EN q) = true ∧ s.dev.queueFits q ⟨s.dev.rd (Reg.Q_CFG_PRIO_DEF q), 3, 0, poisoned, s.dev.time, 0, bytes⟩ = false) ∧
    (∃ q : Fin 32, ∃ i : QItem, ∃ k : Nat, ∃ s : State, s.Inv ∧ s.dev.pageLive 0x043 = true ∧ s.dev.later.all (fun x => decide (x.page ≠ 0x042)) = true ∧ s.dev.on (Reg.Q_CFG_EN q) = true ∧ s.dev.on (Reg.Q_CFG_CONSUMER q) = false ∧ s.dev.on (Reg.Q_STAT_STALLING q) = false ∧ bestItem (s.dev.qu q).waiting = some i ∧ s.dev.freeSlot q = some k) ∧
    (∃ q : Fin 32, ∃ i : QItem, ∃ k : Nat, ∃ s : State, s.Inv ∧ s.dev.pageLive 0x043 = true ∧ s.dev.later.all (fun x => decide (x.page ≠ 0x042)) = true ∧ s.dev.on (Reg.Q_CFG_EN q) = true ∧ s.dev.on (Reg.Q_CFG_CONSUMER q) = false ∧ s.dev.on (Reg.Q_STAT_STALLING q) = false ∧ bestItem (s.dev.qu q).waiting = some i ∧ s.dev.freeSlot q = some k) ∧
    (∃ q : Fin 32, ∃ s : State, s.Inv ∧ s.dev.pageLive 0x043 = true ∧ s.dev.later.all (fun x => decide (x.page ≠ 0x042)) = true ∧ s.dev.on (Reg.Q_CFG_EN q) = true ∧ s.dev.on (Reg.Q_CFG_CONSUMER q) = false ∧ (s.dev.qu q).waiting = [] ∧ s.dev.on Reg.STRAPS_CHAIN_HEAD = false) ∧
    (∃ q : Fin 32, ∃ i : QItem, ∃ s : State, s.Inv ∧ s.dev.pageLive 0x043 = true ∧ s.dev.later.all (fun x => decide (x.page ≠ 0x042)) = true ∧ s.dev.on (Reg.Q_CFG_EN q) = true ∧ s.dev.on (Reg.Q_CFG_CONSUMER q) = false ∧ s.dev.on (Reg.Q_STAT_STALLING q) = false ∧ bestItem (s.dev.qu q).waiting = some i ∧ s.dev.freeSlot q = none) ∧
    (∃ q : Fin 32, ∃ s : State, s.Inv ∧ s.dev.pageLive 0x043 = true ∧ s.dev.later.all (fun x => decide (x.page ≠ 0x042)) = true ∧ s.dev.on (Reg.Q_CFG_EN q) = true ∧ s.dev.on (Reg.Q_CFG_CONSUMER q) = false ∧ s.dev.on (Reg.Q_STAT_STALLING q) = false ∧ (s.dev.qu q).waiting = [] ∧ s.dev.on Reg.STRAPS_CHAIN_HEAD = true ∧ s.dev.rd Reg.Q_STALL_STALL_US ≠ 0) ∧
    (∃ q : Fin 32, ∃ s : State, s.Inv ∧ s.dev.on (Reg.Q_STAT_STALLING q) = true) ∧
    (∃ q : Fin 32, ∃ v : Word, ∃ s : State, s.Inv ∧ s.dev.pageLive (0x043) = true ∧ s.dev.pageInTest (0x043) = false ∧ getBits v 0 3 = 1 ∧ s.dev.on (Reg.Q_CFG_CONSUMER q) = false) ∧
    (∃ q : Fin 32, ∃ v : Word, ∃ m : Nat, ∃ s : State, s.Inv ∧ s.dev.pageLive (0x043) = true ∧ s.dev.pageInTest (0x043) = false ∧ getBits v 0 3 = 2 ∧ s.dev.on (Reg.Q_CFG_CONSUMER q) = false ∧ s.dev.on (Reg.Q_STAT_STALLING q) = false ∧ (s.dev.qu q).mark = some m) ∧
    (∃ q : Fin 32, ∃ v : Word, ∃ s : State, s.Inv ∧ s.dev.pageLive (0x043) = true ∧ s.dev.pageInTest (0x043) = false ∧ getBits v 0 3 = 4 ∧ s.dev.on (Reg.Q_CFG_CONSUMER q) = false ∧ (s.dev.qu q).held.any (fun h => h.seq = getBits v 16 16) = true) ∧
    (∃ q : Fin 32, ∃ v : Word, ∃ s : State, s.Inv ∧ s.dev.pageLive (0x043) = true ∧ s.dev.pageInTest (0x043) = false ∧ (getBits v 0 3 ≠ 4 ∧ getBits v 0 2 ≠ 0 ∨ s.dev.on (Reg.Q_CFG_CONSUMER q) = true ∨ (s.dev.qu q).held.any (fun h => h.seq = getBits v 16 16) = false)) ∧
    (∃ s : State, s.Inv ∧ s.dev.pageLive (0x043) = true ∧ s.dev.pageInTest (0x043) = false ∧ s.dev.on Reg.Q_PUSH_STAT_BUSY = false) ∧
    (∃ p : Push, ∃ s : State, s.Inv ∧ s.dev.push = some p ∧ (inWindow p.src p.length = false ∨ (({ s.dev.wr Reg.Q_PUSH_STAT_BUSY 0 with push := none } : Dev).itemBoundary p.queue).on (Reg.Q_CFG_EN p.queue) = false)) ∧
    (∃ p : Push, ∃ s : State, s.Inv ∧ s.dev.push = some p ∧ (inWindow p.src p.length = false ∨ (({ s.dev.wr Reg.Q_PUSH_STAT_BUSY 0 with push := none } : Dev).itemBoundary p.queue).on (Reg.Q_CFG_EN p.queue) = false)) ∧
    (∃ p : Push, ∃ s : State, s.Inv ∧ s.dev.push = some p ∧ inWindow p.src p.length = true ∧ (({ s.dev.wr Reg.Q_PUSH_STAT_BUSY 0 with push := none } : Dev).itemBoundary p.queue).on (Reg.Q_CFG_EN p.queue) = true) ∧
    (∃ p : Push, ∃ s : State, s.Inv ∧ s.dev.push = some p ∧ inWindow p.src p.length = true ∧ (({ s.dev.wr Reg.Q_PUSH_STAT_BUSY 0 with push := none } : Dev).itemBoundary p.queue).on (Reg.Q_CFG_EN p.queue) = true) ∧
    (∃ p : Push, ∃ s : State, s.Inv ∧ s.dev.push = some p ∧ inWindow p.src p.length = true ∧ (({ s.dev.wr Reg.Q_PUSH_STAT_BUSY 0 with push := none } : Dev).itemBoundary p.queue).on (Reg.Q_CFG_EN p.queue) = true) ∧
    (∃ q : Fin 32, ∃ s : State, s.Inv ∧ s.dev.hubOn = true ∧ (s.dev.itemBoundary q).hubOn = true) ∧
    (∃ q : Fin 32, ∃ s : State, s.Inv ∧ s.dev.hubOn = true ∧ (s.dev.itemBoundary q).hubOn = true) :=
  ⟨⟨5, true, [9], runningWith [(Reg.Q_CFG_EN 5, 1), (Reg.Q_CFG_CAP_KIB 5, 4), (Reg.Q_LAND_SLOTS_M1 5, 3), (Reg.Q_LAND_OFFSET 5, 4096)] fun d => d.setQu 5 { d.qu 5 with arrivals := 7 }, by decide⟩,
    ⟨5, false, [9], runningWith [(Reg.Q_CFG_EN 5, 1), (Reg.Q_CFG_CAP_KIB 5, 4), (Reg.Q_LAND_SLOTS_M1 5, 3), (Reg.Q_LAND_OFFSET 5, 4096)] fun d => d.setQu 5 { d.qu 5 with waiting := [⟨1, 3, 0, false, 77, 4, [1, 2, 3]⟩], arrivals := 7 }, by decide⟩,
    ⟨5, true, [9], runningWith [(Reg.Q_CFG_EN 5, 1), (Reg.Q_CFG_CAP_KIB 5, 0), (Reg.Q_LAND_SLOTS_M1 5, 3), (Reg.Q_LAND_OFFSET 5, 4096)] fun d => d.setQu 5 { d.qu 5 with arrivals := 7 }, by decide⟩,
    ⟨5, ⟨3, 3, 0, false, 77, 5, [1, 2, 3]⟩, 1, runningWith [(Reg.Q_CFG_EN 5, 1), (Reg.Q_CFG_CAP_KIB 5, 4), (Reg.Q_LAND_SLOTS_M1 5, 3), (Reg.Q_LAND_OFFSET 5, 4096), (Reg.Q_STAT_NEXT_SEQ 5, 65535)] fun d => d.setQu 5 { d.qu 5 with waiting := [⟨1, 3, 0, false, 77, 4, [1, 2, 3]⟩, ⟨3, 3, 0, false, 77, 5, [1, 2, 3]⟩, ⟨3, 3, 0, false, 77, 6, [1, 2, 3]⟩], held := [⟨0, 9, ⟨1, 3, 0, false, 77, 2, [1, 2, 3]⟩⟩] }, by decide⟩,
    ⟨5, ⟨3, 3, 0, true, 77, 5, [1, 2, 3]⟩, 1, runningWith [(Reg.Q_CFG_EN 5, 1), (Reg.Q_CFG_CAP_KIB 5, 4), (Reg.Q_LAND_SLOTS_M1 5, 3), (Reg.Q_LAND_OFFSET 5, 4096), (Reg.Q_STAT_NEXT_SEQ 5, 65535)] fun d => d.setQu 5 { d.qu 5 with waiting := [⟨1, 3, 0, false, 77, 4, [1, 2, 3]⟩, ⟨3, 3, 0, true, 77, 5, [1, 2, 3]⟩, ⟨3, 3, 0, false, 77, 6, [1, 2, 3]⟩], held := [⟨0, 9, ⟨1, 3, 0, false, 77, 2, [1, 2, 3]⟩⟩] }, by decide⟩,
    ⟨5, runningWith [(Reg.Q_CFG_EN 5, 1), (Reg.Q_CFG_CAP_KIB 5, 4), (Reg.Q_LAND_SLOTS_M1 5, 3), (Reg.Q_LAND_OFFSET 5, 4096)] fun d => d.setQu 5 { d.qu 5 with arrivals := 7 }, by decide⟩,
    ⟨5, ⟨1, 3, 0, false, 77, 4, [1, 2, 3]⟩, runningWith [(Reg.Q_CFG_EN 5, 1), (Reg.Q_CFG_CAP_KIB 5, 4), (Reg.Q_LAND_OFFSET 5, 4096), (Reg.Q_LAND_SLOTS_M1 5, 0)] fun d => d.setQu 5 { d.qu 5 with waiting := [⟨1, 3, 0, false, 77, 4, [1, 2, 3]⟩], held := [⟨0, 9, ⟨1, 3, 0, false, 77, 2, [1, 2, 3]⟩⟩] }, by decide⟩,
    ⟨5, runningWith [(Reg.Q_CFG_EN 5, 1), (Reg.Q_CFG_CAP_KIB 5, 4), (Reg.Q_LAND_SLOTS_M1 5, 3), (Reg.Q_LAND_OFFSET 5, 4096), (Reg.STRAPS_CHAIN_HEAD, 1), (Reg.Q_STALL_STALL_US, 9)] fun d => d.setQu 5 { d.qu 5 with arrivals := 7 }, by decide⟩,
    ⟨5, runningWith [(Reg.Q_CFG_EN 5, 1), (Reg.Q_CFG_CAP_KIB 5, 4), (Reg.Q_LAND_SLOTS_M1 5, 3), (Reg.Q_LAND_OFFSET 5, 4096), (Reg.Q_STAT_STALLING 5, 1)] fun d => d.setQu 5 { d.qu 5 with arrivals := 7 }, by decide⟩,
    ⟨5, 1, runningWith [(Reg.Q_CFG_EN 5, 1), (Reg.Q_CFG_CAP_KIB 5, 4), (Reg.Q_LAND_SLOTS_M1 5, 3), (Reg.Q_LAND_OFFSET 5, 4096), (Reg.Q_STAT_NEXT_SEQ 5, 9)] fun d => d.setQu 5 { d.qu 5 with arrivals := 7 }, by decide⟩,
    ⟨5, 2, 9, runningWith [(Reg.Q_CFG_EN 5, 1), (Reg.Q_CFG_CAP_KIB 5, 4), (Reg.Q_LAND_SLOTS_M1 5, 3), (Reg.Q_LAND_OFFSET 5, 4096), (Reg.Q_STAT_NEXT_SEQ 5, 10)] fun d => d.setQu 5 { d.qu 5 with held := [⟨0, 8, ⟨1, 3, 0, false, 77, 1, [1, 2, 3]⟩⟩, ⟨1, 9, ⟨1, 3, 0, false, 77, 2, [1, 2, 3]⟩⟩], mark := some 9 }, by decide⟩,
    ⟨5, 0x80004, runningWith [(Reg.Q_CFG_EN 5, 1), (Reg.Q_CFG_CAP_KIB 5, 4), (Reg.Q_LAND_SLOTS_M1 5, 3), (Reg.Q_LAND_OFFSET 5, 4096)] fun d => d.setQu 5 { d.qu 5 with held := [⟨0, 8, ⟨1, 3, 0, false, 77, 1, [1, 2, 3]⟩⟩, ⟨1, 9, ⟨1, 3, 0, false, 77, 2, [1, 2, 3]⟩⟩], mark := some 8 }, by decide⟩,
    ⟨5, 0x80004, runningWith [(Reg.Q_CFG_EN 5, 1), (Reg.Q_CFG_CAP_KIB 5, 4), (Reg.Q_LAND_SLOTS_M1 5, 3), (Reg.Q_LAND_OFFSET 5, 4096)] fun d => d.setQu 5 { d.qu 5 with arrivals := 7 }, by decide⟩,
    ⟨running [(Reg.Q_PUSH_LENGTH, 100)], by decide⟩,
    ⟨⟨5, 1, 100, 0xFFFFFFFF⟩, runningWith [(Reg.Q_PUSH_STAT_BUSY, 1)] fun d => { d with push := some ⟨5, 1, 100, 0xFFFFFFFF⟩ }, by decide⟩,
    ⟨⟨5, 1, 100, 0⟩, runningWith [(Reg.Q_PUSH_STAT_BUSY, 1), (Reg.Q_CFG_EN 5, 0)] fun d => { d with push := some ⟨5, 1, 100, 0⟩ }, by decide⟩,
    ⟨⟨5, 1, 2, 0⟩, runningWith [(Reg.Q_CFG_EN 5, 1), (Reg.Q_CFG_CAP_KIB 5, 4), (Reg.Q_LAND_SLOTS_M1 5, 3), (Reg.Q_LAND_OFFSET 5, 4096), (Reg.Q_PUSH_STAT_BUSY, 1)] fun d => { d with push := some ⟨5, 1, 2, 0⟩ }.setQu 5 { d.qu 5 with arrivals := 7 }, by decide⟩,
    ⟨⟨5, 1, 9000, 0⟩, runningWith [(Reg.Q_CFG_EN 5, 1), (Reg.Q_CFG_CAP_KIB 5, 4), (Reg.Q_LAND_SLOTS_M1 5, 3), (Reg.Q_LAND_OFFSET 5, 4096), (Reg.Q_PUSH_STAT_BUSY, 1)] fun d => { d with push := some ⟨5, 1, 9000, 0⟩ }.setQu 5 { d.qu 5 with arrivals := 7 }, by decide⟩,
    ⟨⟨5, 1, 2, 0⟩, runningWith [(Reg.Q_CFG_EN 5, 1), (Reg.Q_CFG_CAP_KIB 5, 4), (Reg.Q_LAND_SLOTS_M1 5, 3), (Reg.Q_LAND_OFFSET 5, 4096), (Reg.Q_PUSH_STAT_BUSY, 1), (Reg.Q_STAT_STALLING 5, 1), (Reg.STRAPS_CHAIN_HEAD, 1), (Reg.Q_LAND_SLOTS_M1 5, 3)] fun d => { d with push := some ⟨5, 1, 2, 0⟩ }.setQu 5 { d.qu 5 with arrivals := 7 }, by decide⟩,
    ⟨5, runningWith [(Reg.Q_CFG_EN 5, 1), (Reg.Q_CFG_CAP_KIB 5, 4), (Reg.Q_LAND_SLOTS_M1 5, 3), (Reg.Q_LAND_OFFSET 5, 4096)] fun d => { d with later := [⟨0x042, (Reg.Q_CFG_CAP_KIB 5).cell, 0xFF, 0, .item⟩] }.setQu 5 { d.qu 5 with arrivals := 7 }, by decide⟩,
    ⟨5, runningWith [(Reg.Q_CFG_EN 5, 1), (Reg.Q_CFG_CAP_KIB 5, 4), (Reg.Q_LAND_SLOTS_M1 5, 3), (Reg.Q_LAND_OFFSET 5, 4096), (Reg.Q_STAT_STALLING 5, 1), (Reg.STRAPS_CHAIN_HEAD, 1), (Reg.Q_LAND_SLOTS_M1 5, 3)] fun d => d.setQu 5 { d.qu 5 with arrivals := 7 }, by decide⟩⟩

/-- States and operands that meet the hypotheses of each clause of PcieWindowAndAlmanac. -/
theorem test_witness_PcieWindowAndAlmanac :
    (∃ s : State, s.Inv ∧ s.dev.pcieOn = true) ∧
    (∃ s : State, s.Inv ∧ s.dev.pcieOn = true) ∧
    (∃ s : State, s.Inv ∧ s.dev.pcieOn = true ∧ s.dev.on Reg.LINK_STAT_UP = true) ∧
    (∃ s : State, s.Inv ∧ s.dev.pcieOn = true ∧ s.dev.on Reg.LINK_STAT_UP = true) ∧
    (∃ s : State, s.Inv ∧ s.dev.pcieOn = true ∧ s.dev.on Reg.LINK_STAT_UP = true ∧ s.dev.d3hot = false) ∧
    (∃ s : State, s.Inv ∧ s.dev.pcieOn = true) ∧
    (∃ s : State, s.Inv ∧ s.dev.pageLive (0x041) = true ∧ s.dev.pageInTest (0x041) = false) ∧
    (∃ s : State, s.Inv ∧ s.dev.hostGone = true) ∧
    (∃ off : BitVec 30, ∃ n : BitVec 13, ∃ bytes : List Byte, ∃ s : State, s.Inv ∧ s.dev.hubOn = true ∧ s.dev.hostGone = false ∧ off.toNat + n.toNat ≤ Config.winSize ∧ s.dev.integ.checks.all (fun e => decide (s.dev.rd Reg.WIN_BASE_BASE * 65536 + off.toNat + n.toNat ≤ 8 * e.1) || decide (8 * e.1 + 8 ≤ s.dev.rd Reg.WIN_BASE_BASE * 65536 + off.toNat)) = true ∧ (List.range n.toNat).map (fun k => if inFirmware (s.dev.rd Reg.WIN_BASE_BASE * 65536 + off.toNat + k) then 0 else s.byte (s.dev.rd Reg.WIN_BASE_BASE * 65536 + off.toNat + k)) = bytes) ∧
    (∃ off : BitVec 30, ∃ n : BitVec 13, ∃ s : State, s.Inv ∧ s.dev.hubOn = false ∧ s.dev.hostGone = false ∧ off.toNat + n.toNat ≤ Config.winSize) ∧
    (∃ off : BitVec 30, ∃ bytes : List Byte, ∃ s : State, s.Inv ∧ s.dev.hubOn = true ∧ s.dev.hostGone = false ∧ bytes ≠ [] ∧ (List.range bytes.length).all (fun k => decide (off.toNat + k < Config.winSize) && s.dev.winWritable (s.dev.rd Reg.WIN_BASE_BASE * 65536 + off.toNat + k)) = true) ∧
    (∃ s : State, s.Inv ∧ s.dev.hubOn = true ∧ s.dev.on Reg.ALM_STAT_DIGEST_VALID = false) ∧
    (∃ s : State, s.Inv ∧ s.dev.pageLive (0x001) = true ∧ s.dev.pageInTest (0x001) = false ∧ s.dev.on Reg.STRAPS_CHAIN_HEAD = true ∧ s.dev.on Reg.ALM_STAT_COLLECT_BUSY = false) ∧
    (∃ s : State, s.Inv ∧ s.dev.pageLive (0x001) = true ∧ s.dev.pageInTest (0x001) = false ∧ s.dev.on Reg.STRAPS_CHAIN_HEAD = false) ∧
    (∃ s : State, s.Inv) ∧
    (∃ s : State, s.Inv ∧ s.dev.on Reg.ALM_STAT_COLLECT_BUSY = true) :=
  ⟨⟨running [(Reg.STRAPS_CHAIN_HEAD, 1)], by decide⟩,
    ⟨runningWith [(Reg.STRAPS_CHAIN_HEAD, 1), (Reg.LINK_STAT_UP, 1), (Reg.Q_STAT_STALLING 3, 1)] fun d => { d with d3hot := true, ev := { d.ev with msix := { d.ev.msix with enable := true } } }, by decide⟩,
    ⟨running [(Reg.STRAPS_CHAIN_HEAD, 1), (Reg.LINK_STAT_UP, 1)], by decide⟩,
    ⟨runningWith [(Reg.STRAPS_CHAIN_HEAD, 1), (Reg.LINK_STAT_UP, 1)] fun d => { d with ev := { d.ev with msix := { d.ev.msix with pending := [3, 4], table := [(4, ⟨0, 0, false⟩)] } } }, by decide⟩,
    ⟨runningWith [(Reg.STRAPS_CHAIN_HEAD, 1), (Reg.LINK_STAT_UP, 1)] fun d => { d with ev := { d.ev with msix := { d.ev.msix with enable := true, pending := [3, 4] } } }, by decide⟩,
    ⟨running [(Reg.STRAPS_CHAIN_HEAD, 1), (Reg.Q_STAT_STALLING 3, 1)], by decide⟩,
    ⟨running [], by decide⟩,
    ⟨runningWith [] fun d => { d with d3hot := true }, by decide⟩,
    ⟨4, 6, [7, 0, 0, 0, 0, 0], { runningWith [] (fun d => { d with integ := { d.integ with checks := [(Config.winHome / 8 + 2, 5)] } }) with mem := [(Config.winHome + 4, 7)] }, by decide⟩,
    ⟨4, 6, after fun d => d.wr Reg.PWR_STAT_STATE pwrSleep, by decide⟩,
    ⟨4, [7, 0, 9], { runningWith [] id with mem := [(Config.winHome + 5, 7)] }, by decide⟩,
    ⟨running [(Reg.ALM_STAT_DIGEST_VALID, 0)], by decide⟩,
    ⟨running [(Reg.STRAPS_CHAIN_HEAD, 1)], by decide⟩,
    ⟨running [], by decide⟩,
    ⟨running [(Reg.EPOCH_LO, 7)], by decide⟩,
    ⟨running [(Reg.ALM_STAT_COLLECT_BUSY, 1)], by decide⟩⟩

/-- States and operands that meet the hypotheses of each clause of SheddingQueuesAndDieLinks. -/
theorem test_witness_SheddingQueuesAndDieLinks :
    (∃ s : State, s.Inv ∧ s.dev.pageLive (0x00F) = true ∧ s.dev.pageInTest (0x00F) = false ∧ s.dev.hubOn = true) ∧
    (∃ s : State, s.Inv ∧ s.dev.hubOn = true ∧ s.dev.on ⟨Reg.ACTIVE_STEP.cell, Reg.ACTIVE_STEP.lsb + 3, 1⟩ = true ∧ s.dev.rd Reg.PARSE_BE_SHARE_FLOOR < s.dev.rd Reg.PARSE_BE_SHARE) ∧
    (∃ s : State, s.Inv ∧ s.dev.hubOn = true ∧ s.dev.on ⟨Reg.ACTIVE_STEP.cell, Reg.ACTIVE_STEP.lsb + 3, 1⟩ = true ∧ s.dev.rd Reg.PARSE_BE_SHARE ≤ s.dev.rd Reg.PARSE_BE_SHARE_FLOOR) ∧
    (∃ s : State, s.Inv ∧ s.dev.hubOn = true ∧ s.dev.on ⟨Reg.ACTIVE_STEP.cell, Reg.ACTIVE_STEP.lsb + 3, 1⟩ = false ∧ s.dev.rd Reg.PARSE_BE_SHARE < 16) ∧
    (∃ s : State, s.Inv ∧ s.dev.pageLive (0x00E) = true ∧ s.dev.pageInTest (0x00E) = false) ∧
    (∃ q : Fin 220, ∃ s : State, s.Inv ∧ s.dev.hubOn = true ∧ q.val < 8) ∧
    (∃ q : Fin 220, ∃ s : State, s.Inv ∧ s.dev.hubOn = true ∧ 8 ≤ q.val ∧ q.val < 16) ∧
    (∃ q : Fin 220, ∃ s : State, s.Inv ∧ s.dev.hubOn = true ∧ 16 ≤ q.val ∧ q.val < 144) ∧
    (∃ q : Fin 220, ∃ s : State, s.Inv ∧ s.dev.hubOn = true ∧ 16 ≤ q.val ∧ q.val < 144) ∧
    (∃ q : Fin 220, ∃ s : State, s.Inv ∧ s.dev.hubOn = true ∧ 184 ≤ q.val ∧ q.val < 216) ∧
    (∃ q : Fin 220, ∃ s : State, s.Inv ∧ s.dev.hubOn = true ∧ 184 ≤ q.val ∧ q.val < 216) ∧
    (∃ s : State, s.Inv ∧ s.dev.hubOn = false) ∧
    (∃ s : State, s.Inv ∧ (s.dev.hubOn = false ∨ (s.dev.on ⟨Reg.ACTIVE_STEP.cell, Reg.ACTIVE_STEP.lsb + 3, 1⟩ = false ∧ 16 ≤ s.dev.rd Reg.PARSE_BE_SHARE))) ∧
    (∃ s : State, s.Inv ∧ (s.dev.hubOn = false ∨ (s.dev.on ⟨Reg.ACTIVE_STEP.cell, Reg.ACTIVE_STEP.lsb + 3, 1⟩ = false ∧ 16 ≤ s.dev.rd Reg.PARSE_BE_SHARE))) ∧
    (∃ k : Fin 4, ∃ s : State, s.Inv ∧ (s.dev.hubOn = false ∨ s.dev.lineOn (2 * k.val) = false)) ∧
    (∃ q : Fin 220, ∃ s : State, s.Inv ∧ s.dev.hubOn = true ∧ (144 ≤ q.val ∧ q.val < 184 ∨ 216 ≤ q.val)) ∧
    (∃ q : Fin 220, ∃ s : State, s.Inv ∧ s.dev.hubOn = true ∧ (144 ≤ q.val ∧ q.val < 184 ∨ 216 ≤ q.val)) ∧
    (∃ k : Fin 4, ∃ s : State, s.Inv ∧ s.dev.hubOn = true ∧ s.dev.lineOn (2 * k.val) = true) :=
  ⟨⟨running [], by decide⟩,
    ⟨running [(Reg.ACTIVE_STEP, 8), (Reg.PARSE_BE_SHARE, 16)], by decide⟩,
    ⟨running [(Reg.ACTIVE_STEP, 8), (Reg.PARSE_BE_SHARE, 4), (Reg.PARSE_BE_SHARE_FLOOR, 4)], by decide⟩,
    ⟨running [(Reg.PARSE_BE_SHARE, 15)], by decide⟩,
    ⟨running [(Reg.LEVEL_HWM 3, 9), (Reg.LEVEL_FILL 3, 4)], by decide⟩,
    ⟨3, running [], by decide⟩,
    ⟨11, running [], by decide⟩,
    ⟨24, running [(Reg.OCT_CFG_WIDTH 8, 2), (Reg.PORT_STAT_LINK_UP 8, 1), (Reg.PORT_STAT_ALIGNED 8, 1), (Reg.PORT_CTRL_EN 8, 1)], by decide⟩,
    ⟨143, running [], by decide⟩,
    ⟨184, running [], by decide⟩,
    ⟨215, running [], by decide⟩,
    ⟨State.reset, by decide⟩,
    ⟨State.reset, by decide⟩,
    ⟨running [(Reg.PARSE_BE_SHARE, 16)], by decide⟩,
    ⟨2, State.reset, by decide⟩,
    ⟨216, running [], by decide⟩,
    ⟨183, running [], by decide⟩,
    ⟨2, running [], by decide⟩⟩

/-- States and operands that meet the hypotheses of each clause of CommitsAndBoundaries. -/
theorem test_witness_CommitsAndBoundaries :
    (∃ page : BitVec 12, ∃ v : Word, ∃ s : State, s.Inv ∧ s.dev.pageLive page.toNat = true ∧ page.toNat < 0x400 ∧ v &&& 0xFFFFFFF8 = 0 ∧ getBits v 1 2 = 0 ∧ (s.dev.hdr page.toNat).cstate = .opened) ∧
    (∃ page : BitVec 12, ∃ v : Word, ∃ s : State, s.Inv ∧ s.dev.pageLive page.toNat = true ∧ page.toNat < 0x400 ∧ (getBits v 1 2 ≠ 0 ∨ (s.dev.hdr page.toNat).cstate = .pendingCommit)) ∧
    (∃ page : BitVec 12, ∃ v : Word, ∃ s : State, s.Inv ∧ s.dev.pageLive page.toNat = true ∧ page.toNat < 0x400 ∧ (getBits v 1 2 ≠ 0 ∨ (s.dev.hdr page.toNat).cstate = .pendingCommit)) ∧
    (∃ page : BitVec 12, ∃ v : Word, ∃ s : State, s.Inv ∧ s.dev.pageLive page.toNat = true ∧ page.toNat < 0x400 ∧ v &&& 0xFFFFFFF8 = 0 ∧ getBits v 0 2 = 0 ∧ (s.dev.hdr page.toNat).cstate = .armed) ∧
    (∃ page : BitVec 12, ∃ s : State, s.Inv ∧ s.dev.pageLive page.toNat = true ∧ page.toNat < 0x400 ∧ (s.dev.hdr page.toNat).cstate ≠ .armed) ∧
    (∃ page : BitVec 12, ∃ v : Word, ∃ s : State, s.Inv ∧ s.dev.pageLive page.toNat = true ∧ page.toNat < 0x400 ∧ page.toNat < 0x100 ∧ page ≠ 0x00F ∧ page ≠ 0x0B2 ∧ s.dev.pageInTest page.toNat = false ∧ v &&& 0xFFFFFFF8 = 0 ∧ getBits v 0 1 = 0 ∧ getBits v 2 1 = 0 ∧ (s.dev.hdr page.toNat).cstate ≠ .pendingCommit ∧ s.dev.pageCheck (s.dev.adoptFor [page.toNat] page.toNat) page.toNat = none) ∧
    (∃ page : BitVec 12, ∃ v : Word, ∃ s : State, s.Inv ∧ s.dev.pageLive page.toNat = true ∧ page.toNat < 0x400 ∧ page.toNat < 0x100 ∧ page ≠ 0x00F ∧ page ≠ 0x0B2 ∧ s.dev.pageInTest page.toNat = false ∧ v &&& 0xFFFFFFF8 = 0 ∧ getBits v 0 1 = 0 ∧ getBits v 2 1 = 0 ∧ (s.dev.hdr page.toNat).cstate ≠ .pendingCommit ∧ s.dev.pageCheck (s.dev.adoptFor [page.toNat] page.toNat) page.toNat = none) ∧
    (∃ v : Word, ∃ s : State, s.Inv ∧ s.dev.pageLive 0x300 = true ∧ s.dev.pageInTest 0x300 = false ∧ v &&& 0xFFFFFFF8 = 0 ∧ getBits v 0 1 = 0 ∧ getBits v 2 1 = 0 ∧ (s.dev.hdr 0x300).cstate ≠ .pendingCommit ∧ s.dev.pageCheck (s.dev.adoptFor [0x300] 0x300) 0x300 = none) ∧
    (∃ page : BitVec 12, ∃ v : Word, ∃ evs : List (Nat × Nat), ∃ s : State, s.Inv ∧ s.dev.pageLive page.toNat = true ∧ page.toNat < 0x400 ∧ page ≠ 0x280 ∧ s.dev.pageInTest page.toNat = false ∧ v &&& 0xFFFFFFF8 = 0 ∧ getBits v 0 1 = 0 ∧ getBits v 2 1 = 0 ∧ (s.dev.hdr page.toNat).cstate ≠ .pendingCommit ∧ s.dev.pageCheck (s.dev.adoptFor [page.toNat] page.toNat) page.toNat = some evs) ∧
    (∃ page : BitVec 12, ∃ s : State, s.Inv ∧ s.dev.pageLive page.toNat = true ∧ page.toNat < 0x400 ∧ (s.dev.hdr page.toNat).cstate = .pendingCommit) ∧
    (∃ page : BitVec 12, ∃ v : Word, ∃ s : State, s.Inv ∧ s.dev.pageLive 0x041 = true ∧ (page.toNat < 0x041 ∨ (0x041 < page.toNat ∧ page.toNat < 0x100)) ∧ page ≠ 0x00F ∧ page ≠ 0x0B2 ∧ s.dev.pageInTest page.toNat = false ∧ s.dev.armed = [page.toNat] ∧ s.dev.pageCheck (s.dev.adoptFor [page.toNat] page.toNat) page.toNat = none ∧ v &&& 0xFFFFFFFE = 0) ∧
    (∃ page : BitVec 12, ∃ v : Word, ∃ evs : List (Nat × Nat), ∃ s : State, s.Inv ∧ s.dev.pageLive 0x041 = true ∧ (page.toNat < 0x041 ∨ (0x041 < page.toNat ∧ page.toNat < 0x100)) ∧ s.dev.pageInTest page.toNat = false ∧ s.dev.armed = [page.toNat] ∧ s.dev.pageCheck (s.dev.adoptFor [page.toNat] page.toNat) page.toNat = some evs ∧ v &&& 0xFFFFFFFE = 0) ∧
    (∃ v : Word, ∃ s : State, s.Inv ∧ s.dev.pageLive 0x041 = true ∧ s.dev.armed = [] ∧ v &&& 0xFFFFFFFE = 0) ∧
    (∃ page : BitVec 12, ∃ v : Word, ∃ s : State, s.Inv ∧ s.dev.pageLive page.toNat = true ∧ page.toNat < 0x400 ∧ v.getLsbD 0 = false ∧ v &&& 0xFFFFFFFC = 0 ∧ (s.dev.hdr page.toNat).cstate = .opened) ∧
    (∃ page : BitVec 12, ∃ v : Word, ∃ s : State, s.Inv ∧ s.dev.pageLive page.toNat = true ∧ page.toNat < 0x400 ∧ v.getLsbD 0 = false ∧ (s.dev.hdr page.toNat).cstate ≠ .opened) ∧
    (∃ page : BitVec 12, ∃ v : Word, ∃ s : State, s.Inv ∧ s.dev.pageLive page.toNat = true ∧ page.toNat < 0x400 ∧ v &&& 0xFFFFFFFE = 0) ∧
    (∃ page : BitVec 12, ∃ bnd : Boundary, ∃ s : State, s.Inv ∧ page.toNat < 0x100 ∧ page.toNat ∉ [0x042, 0x090, 0x091, 0x092, 0x094] ∧ bnd ≠ .hub ∧ bnd ≠ .relight ∧ bnd ≠ .rxFrame) ∧
    (∃ bnd : Boundary, ∃ s : State, s.Inv ∧ (bnd = .hub ∨ bnd = .relight ∨ bnd = .rxFrame)) ∧
    (∃ page : BitVec 12, ∃ s : State, s.Inv ∧ (s.dev.hdr page.toNat).cstate = .pendingCommit) :=
  ⟨⟨0x091, 0, running [], by decide⟩,
    ⟨0x091, 7, running [], by decide⟩,
    ⟨0x091, 1, runningWith [] fun d => d.setHdr 0x091 { d.hdr 0x091 with cstate := .pendingCommit }, by decide⟩,
    ⟨0x091, 4, runningWith [] fun d => d.setHdr 0x091 { d.hdr 0x091 with cstate := .armed }, by decide⟩,
    ⟨0x091, running [], by decide⟩,
    ⟨0x091, 0, runningWith [] fun d => d.setShadow (Reg.REF_CABLE_PS 3).cell (setBits (sget resetWord d.shadow (Reg.REF_CABLE_PS 3).cell) (Reg.REF_CABLE_PS 3).lsb (Reg.REF_CABLE_PS 3).width 77), by decide⟩,
    ⟨0x092, 0, runningWith [] fun d => d, by decide⟩,
    ⟨0, runningWith [(Reg.UCODE_CTRL_VALID_0, 1)] fun d => d.setShadow Reg.EPOCH_PARAM_CYC_MAX.cell (setBits (sget resetWord d.shadow Reg.EPOCH_PARAM_CYC_MAX.cell) Reg.EPOCH_PARAM_CYC_MAX.lsb Reg.EPOCH_PARAM_CYC_MAX.width 100), by decide⟩,
    ⟨0x002, 0, [(0, 6)], runningWith [] fun d => d.setShadow Reg.PWR_RAIL_WIN_PERMIL.cell (setBits (sget resetWord d.shadow Reg.PWR_RAIL_WIN_PERMIL.cell) Reg.PWR_RAIL_WIN_PERMIL.lsb Reg.PWR_RAIL_WIN_PERMIL.width 101), by decide⟩,
    ⟨0x091, runningWith [] fun d => d.setHdr 0x091 { d.hdr 0x091 with cstate := .pendingCommit }, by decide⟩,
    ⟨0x091, 0, runningWith [] fun d => (d.setShadow (Reg.REF_CABLE_PS 3).cell (setBits (sget resetWord d.shadow (Reg.REF_CABLE_PS 3).cell) (Reg.REF_CABLE_PS 3).lsb (Reg.REF_CABLE_PS 3).width 77)).setHdr 0x091 { (d.setShadow (Reg.REF_CABLE_PS 3).cell (setBits (sget resetWord d.shadow (Reg.REF_CABLE_PS 3).cell) (Reg.REF_CABLE_PS 3).lsb (Reg.REF_CABLE_PS 3).width 77)).hdr 0x091 with cstate := .armed }, by decide⟩,
    ⟨0x002, 0, [(0, 6)], runningWith [] fun d => (d.setShadow Reg.PWR_RAIL_WIN_PERMIL.cell (setBits (sget resetWord d.shadow Reg.PWR_RAIL_WIN_PERMIL.cell) Reg.PWR_RAIL_WIN_PERMIL.lsb Reg.PWR_RAIL_WIN_PERMIL.width 101)).setHdr 0x002 { (d.setShadow Reg.PWR_RAIL_WIN_PERMIL.cell (setBits (sget resetWord d.shadow Reg.PWR_RAIL_WIN_PERMIL.cell) Reg.PWR_RAIL_WIN_PERMIL.lsb Reg.PWR_RAIL_WIN_PERMIL.width 101)).hdr 0x002 with cstate := .armed }, by decide⟩,
    ⟨0, running [], by decide⟩,
    ⟨0x091, 0, runningWith [] fun d => d.setShadow (Reg.REF_CABLE_PS 3).cell (setBits (sget resetWord d.shadow (Reg.REF_CABLE_PS 3).cell) (Reg.REF_CABLE_PS 3).lsb (Reg.REF_CABLE_PS 3).width 77), by decide⟩,
    ⟨0x091, 0, runningWith [] fun d => d.setHdr 0x091 { d.hdr 0x091 with cstate := .armed }, by decide⟩,
    ⟨0x091, 0, runningWith [] fun d => d.setHdr 0x091 { d.hdr 0x091 with viol := 9 }, by decide⟩,
    ⟨0x0B0, .txFrame, runningWith [] fun d => { d with later := [⟨0x0B0, 5, 3, 1, .txFrame⟩, ⟨0x0B0, 5, 4, 4, .hub⟩] }, by decide⟩,
    ⟨.relight, running [], by decide⟩,
    ⟨0x091, runningWith [] fun d => d.setHdr 0x091 { d.hdr 0x091 with cstate := .pendingCommit }, by decide⟩⟩

/-- States and operands that meet the hypotheses of each clause of RegisterWrites. -/
theorem test_witness_RegisterWrites :
    (∃ page : BitVec 12, ∃ off : BitVec 12, ∃ s : State, s.Inv ∧ s.dev.pageLive page.toNat = true ∧ s.dev.pageInTest page.toNat = false ∧ page.toNat ∈ [0x004, 0x011, 0x018, 0x031, 0x032, 0x040, 0x042, 0x080, 0x091, 0x094, 0x0A0, 0x0A1, 0x0B9, 0x240, 0x280, 0x300, 0x341] ∧ 0x040 ≤ off.toNat ∧ tblAt page.toNat (off.toNat / 4 * 4) = none) ∧
    (∃ page : BitVec 12, ∃ off : BitVec 12, ∃ s : State, s.Inv ∧ s.dev.pageLive page.toNat = true ∧ s.dev.pageInTest page.toNat = false ∧ page.toNat ∈ [0x004, 0x011, 0x018, 0x031, 0x032, 0x040, 0x042, 0x080, 0x091, 0x094, 0x0A0, 0x0A1, 0x0B9, 0x240, 0x280, 0x300, 0x341] ∧ 0x040 ≤ off.toNat ∧ tblAt page.toNat (off.toNat / 4 * 4) = none) ∧
    (∃ page : BitVec 12, ∃ off : BitVec 12, ∃ s : State, s.Inv ∧ s.dev.pageLive page.toNat = true ∧ s.dev.pageInTest page.toNat = false ∧ page.toNat ∈ [0x004, 0x011, 0x018, 0x031, 0x032, 0x040, 0x042, 0x080, 0x091, 0x094, 0x0A0, 0x0A1, 0x0B9, 0x240, 0x280, 0x300, 0x341] ∧ 0x040 ≤ off.toNat ∧ tblAt page.toNat (off.toNat / 4 * 4) = none) ∧
    (∃ page : BitVec 12, ∃ s : State, s.Inv ∧ pageAllocated page.toNat = false ∧ page.toNat < 0x060 ∧ s.dev.d3hot = false) ∧
    (∃ off : BitVec 12, ∃ s : State, s.Inv ∧ off.toNat / 4 * 4 = 0x020) ∧
    (∃ i : Instr, ∃ p : Nat, ∃ s : State, s.Inv ∧ i.page = some p ∧ s.dev.pageLive p = false) ∧
    (∃ i : Instr, ∃ p : Nat, ∃ s : State, s.Inv ∧ i.page = some p ∧ s.dev.pageLive p = false) ∧
    (∃ i : Instr, ∃ p : Nat, ∃ h : HeldWrite, ∃ b : Bool, ∃ s : State, s.Inv ∧ i.page = some p ∧ i.inTest s.dev = some (h, b) ∧ s.dev.pageLive p = true ∧ s.dev.pageInTest p = true) ∧
    (∃ i : Instr, ∃ p : Nat, ∃ h : HeldWrite, ∃ b : Bool, ∃ s : State, s.Inv ∧ i.page = some p ∧ i.inTest s.dev = some (h, b) ∧ s.dev.pageLive p = true ∧ s.dev.pageInTest p = true) ∧
    (∃ i : Instr, ∃ p : Nat, ∃ h : HeldWrite, ∃ b : Bool, ∃ s : State, s.Inv ∧ i.page = some p ∧ i.inTest s.dev = some (h, b) ∧ s.dev.pageLive p = true ∧ s.dev.pageInTest p = true) ∧
    (∃ i : Instr, ∃ p : BitVec 8, ∃ s : State, s.Inv ∧ i ∈ [.cmdLo p, .cmdFs p, .cmdMs p, .cmdMsW p, .cmdClear p, .cmdRegrid p, .cmdZeroPstat p] ∧ s.dev.pageLive 0x280 = true ∧ s.dev.pageInTest 0x280 = true) ∧
    (∃ w : TblWindow, ∃ s : State, s.Inv ∧ w ≠ .collim ∧ s.dev.pageLive (tblPage w) = true ∧ s.dev.pageInTest (tblPage w) = true) ∧
    (∃ w : TblWindow, ∃ s : State, s.Inv ∧ w ≠ .collim ∧ s.dev.pageLive (tblPage w) = true ∧ s.dev.pageInTest (tblPage w) = true) ∧
    (∃ n : Fin 8, ∃ s : State, s.Inv ∧ s.dev.pageLive 0x0B2 = true ∧ ((lineBlocks n).any fun b => s.dev.bist.run.contains b) = true) ∧
    (∃ off : BitVec 12, ∃ s : State, s.Inv ∧ off.toNat / 4 * 4 = 0x008) ∧
    (∃ s : State, s.Inv) :=
  ⟨⟨0x042, 0x043, running [], by decide⟩,
    ⟨0x300, 0x04A, running [], by decide⟩,
    ⟨0x091, 0xFF0, running [], by decide⟩,
    ⟨0x005, running [], by decide⟩,
    ⟨0x23, State.reset, by decide⟩,
    ⟨.txClipClear 3 9, 0x165, State.reset, by decide⟩,
    ⟨.capFire 0, 0x10F, runningWith [] fun d => { d with d3hot := true }, by decide⟩,
    ⟨.txEnableWrite 3, 0x160, .txEnable 3, false, runningWith [] fun d => { d with bist := { d.bist with run := [3, 11, 19, 27] } }, by decide⟩,
    ⟨.rxOvrClear 3 0x80000007, 0x169, .word 0x169 0x054 7, true, runningWith [] fun d => { d with bist := { d.bist with run := [3, 11, 19, 27] } }, by decide⟩,
    ⟨.laneLpEnter 5, 0x2C5, .word 0x2C5 0x200 1, false, runningWith [] fun d => { d with bist := { d.bist with run := [48] } }, by decide⟩,
    ⟨.cmdFs 7, 7, runningWith [] fun d => { d with bist := { d.bist with run := [65] } }, by decide⟩,
    ⟨.parallax, runningWith [] fun d => { d with bist := { d.bist with run := [65] } }, by decide⟩,
    ⟨.drone, runningWith [] fun d => { d with bist := { d.bist with run := [60] } }, by decide⟩,
    ⟨3, runningWith [] fun d => { d with bist := { d.bist with run := [3, 11, 19, 27] } }, by decide⟩,
    ⟨0xB, State.reset, by decide⟩,
    ⟨running [], by decide⟩⟩

/-- States and operands that meet the hypotheses of each clause of PowerStates. -/
theorem test_witness_PowerStates :
    (∃ s : State, s.Inv ∧ s.dev.power.perst = false ∧ s.dev.pwr = pwrFinderOnly ∧ s.dev.on Reg.FINDER_STAT_BOOTED = true ∧ s.dev.on Reg.THERM_STAT_SHUTDOWN = false) ∧
    (∃ s : State, s.Inv ∧ s.dev.power.perst = false ∧ (s.dev.pwr ≠ pwrFinderOnly ∨ s.dev.on Reg.FINDER_STAT_BOOTED = false ∧ s.dev.power.bootFailed = false)) ∧
    (∃ s : State, s.Inv ∧ s.dev.power.perst = true ∧ s.dev.pwr = pwrFinderOnly) ∧
    (∃ s : State, s.Inv ∧ s.dev.power.perst = true ∧ s.dev.hubOn = true ∧ (List.range 8).all (fun n => !s.dev.lightOn n) = true ∧ s.dev.on Reg.THERM_STAT_SHUTDOWN = false ∧ s.dev.on Reg.BIST_STAT_BUSY = false) ∧
    (∃ s : State, s.Inv ∧ s.dev.pageLive 0x002 = true ∧ s.dev.pwr = pwrRun ∧ s.dev.power.sleepDue = false ∧ (List.range 8).all (fun n => s.dev.txs n = txDark) = true ∧ s.dev.on Reg.BIST_STAT_BUSY = false) ∧
    (∃ s : State, s.Inv ∧ s.dev.pageLive (0x002) = true ∧ s.dev.pageInTest (0x002) = false ∧ s.dev.hubOn = true ∧ s.dev.power.sleepDue = false ∧ (List.range 8).all (fun n => s.dev.txs n = txDark) = false) ∧
    (∃ s : State, s.Inv ∧ s.dev.power.sleepDue = true ∧ s.dev.pwr = pwrRun ∧ getBits (s.dev.ev.group 0).route 11 1 = 0) ∧
    (∃ s : State, s.Inv ∧ s.dev.pwr = pwrSleep ∧ s.dev.on Reg.FINDER_CTRL_WAKE_PIN = true) ∧
    (∃ s : State, s.Inv ∧ (s.dev.pwr ≠ pwrSleep ∨ s.dev.on Reg.FINDER_CTRL_WAKE_PIN = false)) ∧
    (∃ s : State, s.Inv ∧ s.dev.pwr = pwrSleep ∧ s.dev.on Reg.FINDER_CTRL_WAKE_TMR = true ∧ s.dev.rd Reg.WAKE_TIMER_S ≠ 0) ∧
    (∃ s : State, s.Inv ∧ (s.dev.pwr ≠ pwrSleep ∨ s.dev.on Reg.FINDER_CTRL_WAKE_TMR = false ∨ s.dev.rd Reg.WAKE_TIMER_S = 0)) ∧
    (∃ s : State, s.Inv ∧ s.dev.pageLive (0x002) = true ∧ s.dev.pageInTest (0x002) = false ∧ s.dev.hubOn = true) ∧
    (∃ s : State, s.Inv ∧ s.dev.pageLive (0x002) = true ∧ s.dev.pageInTest (0x002) = false ∧ s.dev.pwr = pwrSleep) ∧
    (∃ b : Fin 9, ∃ s : State, s.Inv ∧ s.dev.on ⟨Reg.PLL_STAT_HUB.cell, b, 1⟩ = true ∧ s.dev.on Reg.BIST_STAT_BUSY = false ∧ s.dev.pwr ≠ pwrSleep) ∧
    (∃ b : Fin 9, ∃ s : State, s.Inv ∧ s.dev.on ⟨Reg.PLL_STAT_HUB.cell, b, 1⟩ = true ∧ s.dev.on Reg.BIST_STAT_BUSY = false ∧ s.dev.pwr ≠ pwrSleep) ∧
    (∃ s : State, s.Inv ∧ s.dev.on Reg.FINDER_STAT_BOOTED = true ∧ s.dev.pwr ≠ pwrSleep) ∧
    (∃ s : State, s.Inv) :=
  ⟨⟨after fun d => (fun d : Dev => { d with clock := 99 }) (put [(Reg.FINDER_STAT_BOOTED, 1)] d), by decide⟩,
    ⟨after id, by decide⟩,
    ⟨after fun d => { d with power := { d.power with perst := true, released := true } }, by decide⟩,
    ⟨runningWith [(Reg.FINDER_STAT_BOOTED, 1), (Reg.STRAPS_FLEET_MODE, 1)] fun d => { d with power := { d.power with perst := true } }, by decide⟩,
    ⟨running [], by decide⟩,
    ⟨running [(Reg.TX_STATE_STATE 3, 3)], by decide⟩,
    ⟨runningWith [(Reg.BIST_STAT_BUSY, 1)] fun d => (({ d with power := { d.power with sleepDue := true } }.setBlock 3 { d.block 3 with result := resRunning }).setBlock 4 { d.block 4 with result := resRunning }), by decide⟩,
    ⟨after fun d => put [(Reg.FINDER_CTRL_WAKE_PIN, 1)] (d.wr Reg.PWR_STAT_STATE pwrSleep), by decide⟩,
    ⟨running [(Reg.FINDER_CTRL_WAKE_PIN, 1)], by decide⟩,
    ⟨after fun d => put [(Reg.FINDER_CTRL_WAKE_TMR, 1), (Reg.WAKE_TIMER_S, 60)] (d.wr Reg.PWR_STAT_STATE pwrSleep), by decide⟩,
    ⟨running [], by decide⟩,
    ⟨running [(Reg.PWR_CTRL_SLEEP, 1)], by decide⟩,
    ⟨after fun d => put [(Reg.PWR_CTRL_SLEEP, 1)] (d.wr Reg.PWR_STAT_STATE pwrSleep), by decide⟩,
    ⟨3, running [(⟨Reg.PLL_STAT_HUB.cell, 0, 9⟩, 0x1FF)], by decide⟩,
    ⟨0, running [(⟨Reg.PLL_STAT_HUB.cell, 0, 9⟩, 0x1FF)], by decide⟩,
    ⟨running [(Reg.FINDER_STAT_BOOTED, 1)], by decide⟩,
    ⟨running [(Reg.FINDER_STAT_BOOTED, 1)], by decide⟩⟩

/-- States and operands that meet the hypotheses of each clause of StartUpSteps. -/
theorem test_witness_StartUpSteps :
    (∃ slotA : List (List Byte), ∃ slotB : List (List Byte), ∃ s : State, s.Inv ∧ s.dev.on Reg.FINDER_STAT_BOOTED = false ∧ s.dev.power.bootFailed = false ∧ s.dev.power.released = false ∧ s.dev.pwr ≠ pwrSleep ∧ s.dev.vault.slots = [] ∧ slotA ≠ [] ∧ slotB ≠ []) ∧
    (∃ s : State, s.Inv ∧ s.dev.power.xoLost = false ∧ s.dev.pwr = pwrStarting ∧ s.dev.rd Reg.PWR_STAT_STEP = 2) ∧
    (∃ s : State, s.Inv ∧ s.dev.power.xoLost = false ∧ s.dev.pwr = pwrStarting ∧ s.dev.rd Reg.PWR_STAT_STEP = 3) ∧
    (∃ r : StepResult, ∃ s : State, s.Inv ∧ s.dev.power.xoLost = false ∧ s.dev.pwr = pwrStarting ∧ s.dev.rd Reg.PWR_STAT_STEP = 4 ∧ s.dev.power.afterSleep = false ∧ s.dev.on Reg.PPR_CTRL_HARD_NEXT = false ∧ s.dev.power.hbmOff = 0 ∧ s.dev.integ.candidates = [] ∧ popCount 64 r.failed.toNat ≤ 16) ∧
    (∃ r : StepResult, ∃ s : State, s.Inv ∧ s.dev.power.xoLost = false ∧ s.dev.pwr = pwrStarting ∧ s.dev.rd Reg.PWR_STAT_STEP = 4 ∧ s.dev.power.afterSleep = false ∧ s.dev.on Reg.PPR_CTRL_HARD_NEXT = false ∧ s.dev.power.hbmOff = 0 ∧ s.dev.integ.candidates = [] ∧ 16 < popCount 64 r.failed.toNat) ∧
    (∃ s : State, s.Inv ∧ s.dev.power.xoLost = false ∧ s.dev.pwr = pwrStarting ∧ s.dev.rd Reg.PWR_STAT_STEP = 4 ∧ s.dev.power.afterSleep = true ∧ popCount 32 (s.dev.rd Reg.RETIRED_LO) + popCount 32 (s.dev.rd Reg.RETIRED_HI) ≤ 16) ∧
    (∃ s : State, s.Inv ∧ s.dev.power.xoLost = false ∧ s.dev.pwr = pwrStarting ∧ s.dev.rd Reg.PWR_STAT_STEP = 5) ∧
    (∃ s : State, s.Inv ∧ s.dev.power.xoLost = false ∧ s.dev.pwr = pwrStarting ∧ s.dev.rd Reg.PWR_STAT_STEP = 6 ∧ (List.range 16).all (fun k => decide ((s.dev.record k).kind ≠ 1)) = true ∧ s.dev.on Reg.FINDER_CTRL_BUNDLE_EN = false) ∧
    (∃ s : State, s.Inv ∧ s.dev.power.xoLost = false ∧ s.dev.pwr = pwrRun ∧ s.dev.rd Reg.PWR_STAT_STEP = 7 ∧ s.dev.vault.apply = none) ∧
    (∃ s : State, s.Inv ∧ s.dev.pwr = pwrStarting ∧ s.dev.on Reg.BIST_STAT_BUSY = false) :=
  ⟨⟨[[]], [[]], after id, by decide⟩,
    ⟨after fun d => (fun d : Dev => d) (put [(Reg.PWR_STAT_STATE, pwrStarting), (Reg.PWR_STAT_STEP, 2)] d), by decide⟩,
    ⟨after fun d => (fun d : Dev => (d.setBlock 3 { d.block 3 with result := resRunning }).setBlock 4 { d.block 4 with result := resRunning }) (put [(Reg.PWR_STAT_STATE, pwrStarting), (Reg.PWR_STAT_STEP, 3)] d), by decide⟩,
    ⟨⟨true, [⟨3, true, true, 7, 0, 0⟩, ⟨4, true, false, 7, 9, 1⟩], 0x30, [], [], 5⟩, after fun d => (fun d : Dev => d) (put [(Reg.PWR_STAT_STATE, pwrStarting), (Reg.PWR_STAT_STEP, 4)] d), by decide⟩,
    ⟨⟨true, [], 0x100000000FFFF, [], [], 0⟩, after fun d => (fun d : Dev => d) (put [(Reg.PWR_STAT_STATE, pwrStarting), (Reg.PWR_STAT_STEP, 4)] d), by decide⟩,
    ⟨after fun d => (fun d : Dev => { d with power := { d.power with afterSleep := true } }) (put [(Reg.PWR_STAT_STATE, pwrStarting), (Reg.PWR_STAT_STEP, 4), (Reg.RETIRED_LO, 5)] d), by decide⟩,
    ⟨after fun d => (fun d : Dev => d) (put [(Reg.PWR_STAT_STATE, pwrStarting), (Reg.PWR_STAT_STEP, 5)] d), by decide⟩,
    ⟨after fun d => (fun d : Dev => d) (put [(Reg.PWR_STAT_STATE, pwrStarting), (Reg.PWR_STAT_STEP, 6)] d), by decide⟩,
    ⟨running [(Reg.PWR_STAT_STEP, 7)], by decide⟩,
    ⟨after fun d => (fun d : Dev => d) (put [(Reg.PWR_STAT_STATE, pwrStarting), (Reg.PWR_STAT_STEP, 4)] d), by decide⟩⟩

/-- States and operands that meet the hypotheses of each clause of ThermalControl. -/
theorem test_witness_ThermalControl :
    (∃ s : State, s.Inv ∧ s.dev.on Reg.FINDER_STAT_BOOTED = true ∧ s.dev.pwr ≠ pwrSleep) ∧
    (∃ s : State, s.Inv ∧ s.dev.on Reg.FINDER_STAT_BOOTED = false) ∧
    (∃ s : State, s.Inv ∧ s.dev.on Reg.THERM_STAT_THROTTLE = true ∧ s.dev.controlTemp.any (fun p => decide (4 * (s.dev.rd Reg.THERM_THR_THROTTLE : Int) ≤ p.2)) = true ∧ s.dev.on Reg.THERM_STAT_SHUTDOWN = false ∧ (popCount 5 (s.dev.rd Reg.REQ_THERM_STEP)) < 4) ∧
    (∃ s : State, s.Inv ∧ (s.dev.thermCrossed = false ∨ s.dev.on Reg.THERM_STAT_SHUTDOWN = true ∨ (popCount 5 (s.dev.rd Reg.REQ_THERM_STEP)) = 4 ∨ s.dev.thermAbove = false)) ∧
    (∃ s : State, s.Inv ∧ s.dev.on Reg.THERM_STAT_THROTTLE = false ∧ s.dev.rd Reg.THERM_STAT_HBM_LIMIT = 0 ∧ s.dev.on Reg.THERM_STAT_SHUTDOWN = false ∧ 0 < (popCount 5 (s.dev.rd Reg.REQ_THERM_STEP))) ∧
    (∃ s : State, s.Inv ∧ s.dev.on Reg.THERM_STAT_SHUTDOWN = true ∧ s.dev.pwr ≠ pwrThermOff ∧ (List.range 8).all (fun n => !s.dev.lightOn n) = true) ∧
    (∃ s : State, s.Inv ∧ (s.dev.on Reg.THERM_STAT_SHUTDOWN = false ∨ (List.range 8).any (fun n => s.dev.lightOn n) = true)) ∧
    (∃ s : State, s.Inv ∧ s.dev.pageLive (0x010) = true ∧ s.dev.pageInTest (0x010) = false ∧ s.dev.pwr ≠ pwrSleep) :=
  ⟨⟨running [(Reg.FINDER_STAT_BOOTED, 1)], by decide⟩,
    ⟨running [], by decide⟩,
    ⟨running [(Reg.THERM_STAT_THROTTLE, 1), (Reg.THERM_T_TEMP 14, 900), (Reg.REQ_THERM_STEP, 3)], by decide⟩,
    ⟨running [(Reg.REQ_THERM_STEP, 3)], by decide⟩,
    ⟨running [(Reg.REQ_THERM_STEP, 3)], by decide⟩,
    ⟨running [(Reg.THERM_STAT_SHUTDOWN, 1)], by decide⟩,
    ⟨running [(Reg.THERM_STAT_SHUTDOWN, 1), (Reg.TX_STATE_STATE 3, 4)], by decide⟩,
    ⟨running [(Reg.THERM_T_FAIL 33, 1), (Reg.THERM_T_CAUSE 33, 2), (⟨Reg.THERM_FAIL_HI_FAIL.cell, 1, 1⟩, 1), (Reg.THERM_T_FAIL 3, 1)], by decide⟩⟩

/-- States and operands that meet the hypotheses of each clause of MemoryErrors. -/
theorem test_witness_MemoryErrors :
    (∃ m : MemRef, ∃ s : State, s.Inv ∧ s.dev.hubOn = true ∧ m.sram = false ∧ s.dev.on Reg.MEMI_CTRL_LOG_FREEZE = false ∧ s.dev.on (Reg.MLOG_VALID (s.dev.rd Reg.LOG_WR_INDEX)) = false ∧ sget (dflt []) s.dev.integ.bits (rowOf m) = []) ∧
    (∃ m : MemRef, ∃ s : State, s.Inv ∧ s.dev.memoryOn m = true ∧ s.dev.on Reg.SCRUB_CTRL_BUSY = true ∧ s.dev.on Reg.MEMI_CTRL_LOG_FREEZE = true) ∧
    (∃ m : MemRef, ∃ bit : Fin 72, ∃ seen : List Nat, ∃ s : State, s.Inv ∧ s.dev.hubOn = true ∧ m.sram = false ∧ s.dev.on Reg.MEMI_CTRL_LOG_FREEZE = false ∧ s.dev.on (Reg.MLOG_VALID (s.dev.rd Reg.LOG_WR_INDEX)) = false ∧ sget (dflt []) s.dev.integ.bits (rowOf m) = seen ∧ 15 ≤ seen.length ∧ seen.contains (m.addr.toNat * 128 + bit.val) = false ∧ s.dev.integ.candidates.contains (rowOf m) = false ∧ s.dev.integ.candidates.length < 256) ∧
    (∃ m : MemRef, ∃ s : State, s.Inv ∧ s.dev.memoryOn m = false) ∧
    (∃ m : MemRef, ∃ s : State, s.Inv ∧ s.dev.memoryOn m = true ∧ m.sram = true ∧ s.dev.on Reg.MEMI_CTRL_LOG_FREEZE = false ∧ s.dev.on (Reg.MLOG_VALID (s.dev.rd Reg.LOG_WR_INDEX)) = false) ∧
    (∃ m : MemRef, ∃ s : State, s.Inv ∧ s.dev.memoryOn m = true ∧ s.dev.on Reg.SCRUB_CTRL_BUSY = false) ∧
    (∃ m : MemRef, ∃ s : State, s.Inv ∧ s.dev.memoryOn m = true ∧ s.dev.on Reg.MEMI_CTRL_LOG_FREEZE = false ∧ s.dev.on (Reg.MLOG_VALID (s.dev.rd Reg.LOG_WR_INDEX)) = false) ∧
    (∃ s : State, s.Inv) ∧
    (∃ s : State, s.Inv) ∧
    (∃ s : State, s.Inv ∧ s.dev.pageLive (0x080) = true ∧ s.dev.pageInTest (0x080) = false) ∧
    (∃ s : State, s.Inv ∧ s.dev.pageLive (0x083) = true ∧ s.dev.pageInTest (0x083) = false) :=
  ⟨⟨⟨false, 77, 2, 3, 1, 5, 900⟩, running [(Reg.LOG_WR_INDEX, 1023)], by decide⟩,
    ⟨⟨true, 77, 2, 3, 1, 5, 900⟩, running [(Reg.SCRUB_CTRL_BUSY, 1), (Reg.MEMI_CTRL_LOG_FREEZE, 1)], by decide⟩,
    ⟨⟨false, 77, 2, 3, 1, 5, 900⟩, 71, List.range 15, runningWith [] fun d => { d with integ := { d.integ with bits := [(rowOf ⟨false, 77, 2, 3, 1, 5, 900⟩, List.range 15)], candidates := [4] } }, by decide⟩,
    ⟨⟨false, 77, 2, 3, 1, 5, 900⟩, after id, by decide⟩,
    ⟨⟨true, 77, 2, 3, 1, 5, 900⟩, running [], by decide⟩,
    ⟨⟨true, 77, 2, 3, 1, 5, 900⟩, running [], by decide⟩,
    ⟨⟨true, 77, 2, 3, 1, 5, 900⟩, running [], by decide⟩,
    ⟨runningWith [(Reg.MEMI_CTRL_CE_THR, 3)] fun d => { d with integ := { d.integ with window := 4 } }, by decide⟩,
    ⟨running [], by decide⟩,
    ⟨running [(Reg.LOG_INDEX_INDEX, 7), (Reg.MLOG_VALID 7, 1)], by decide⟩,
    ⟨runningWith [(Reg.PPR_STAT_CANDIDATES, 1)] fun d => { d with integ := { d.integ with candidates := [4] } }, by decide⟩⟩

/-- States and operands that meet the hypotheses of each clause of ScrubbingAndTestMode. -/
theorem test_witness_ScrubbingAndTestMode :
    (∃ v : Word, ∃ s : State, s.Inv ∧ s.dev.pageLive (0x081) = true ∧ s.dev.pageInTest (0x081) = false ∧ getBits v 8 5 ≠ 0 ∧ getBits v 8 5 ≠ 31 ∧ v.getLsbD 2 = false ∧ s.dev.on Reg.SCRUB_CTRL_BUSY = false ∧ s.dev.rd Reg.SCRUB_BASE_BASE + s.dev.rd Reg.SCRUB_LEN_UNITS ≤ scrubUnits ((s.dev.writeWord 0x081 0x040 6 (v ||| 2)).on Reg.SCRUB_CTRL_TARGET)) ∧
    (∃ v : Word, ∃ s : State, s.Inv ∧ s.dev.pageLive (0x081) = true ∧ s.dev.pageInTest (0x081) = false ∧ getBits v 8 5 ≠ 0 ∧ getBits v 8 5 ≠ 31 ∧ v.getLsbD 2 = false ∧ (s.dev.on Reg.SCRUB_CTRL_BUSY = true ∨ scrubUnits ((s.dev.writeWord 0x081 0x040 6 (v ||| 2)).on Reg.SCRUB_CTRL_TARGET) < s.dev.rd Reg.SCRUB_BASE_BASE + s.dev.rd Reg.SCRUB_LEN_UNITS)) ∧
    (∃ v : Word, ∃ s : State, s.Inv ∧ s.dev.pageLive (0x081) = true ∧ s.dev.pageInTest (0x081) = false ∧ getBits v 8 5 ≠ 0 ∧ getBits v 8 5 ≠ 31 ∧ v.getLsbD 2 = false ∧ (s.dev.on Reg.SCRUB_CTRL_BUSY = true ∨ scrubUnits ((s.dev.writeWord 0x081 0x040 6 (v ||| 2)).on Reg.SCRUB_CTRL_TARGET) < s.dev.rd Reg.SCRUB_BASE_BASE + s.dev.rd Reg.SCRUB_LEN_UNITS)) ∧
    (∃ v : Word, ∃ s : State, s.Inv ∧ s.dev.pageLive (0x081) = true ∧ s.dev.pageInTest (0x081) = false ∧ getBits v 8 5 ≠ 0 ∧ getBits v 8 5 ≠ 31 ∧ v.getLsbD 2 = true ∧ s.dev.on Reg.SCRUB_CTRL_BUSY = false ∧ s.dev.rd Reg.SCRUB_BASE_BASE + s.dev.rd Reg.SCRUB_LEN_UNITS ≤ scrubUnits ((s.dev.writeWord 0x081 0x040 6 (v ||| 2)).on Reg.SCRUB_CTRL_TARGET)) ∧
    (∃ v : Word, ∃ s : State, s.Inv ∧ s.dev.pageLive (0x081) = true ∧ s.dev.pageInTest (0x081) = false ∧ (getBits v 8 5 = 0 ∨ getBits v 8 5 = 31)) ∧
    (∃ v : Word, ∃ s : State, s.Inv ∧ s.dev.pageLive (0x081) = true ∧ s.dev.pageInTest (0x081) = false ∧ getBits v 8 5 ≠ 0 ∧ getBits v 8 5 ≠ 31 ∧ v.getLsbD 1 = false ∧ s.dev.on Reg.SCRUB_CTRL_BUSY = true) ∧
    (∃ v : Word, ∃ s : State, s.Inv ∧ s.dev.pageLive (0x081) = true ∧ s.dev.pageInTest (0x081) = false ∧ getBits v 8 5 ≠ 0 ∧ getBits v 8 5 ≠ 31 ∧ v.getLsbD 1 = false ∧ s.dev.on Reg.SCRUB_CTRL_BUSY = false) ∧
    (∃ s : State, s.Inv ∧ s.dev.on Reg.SCRUB_CTRL_BUSY = true ∧ (s.dev.on Reg.SCRUB_CTRL_TARGET = true ∨ s.dev.rd Reg.RETIRED_LO = 0 ∧ s.dev.rd Reg.RETIRED_HI = 0)) ∧
    (∃ s : State, s.Inv ∧ s.dev.on Reg.SCRUB_CTRL_BUSY = true ∧ (s.dev.on Reg.SCRUB_CTRL_TARGET = true ∨ s.dev.rd Reg.RETIRED_LO = 0 ∧ s.dev.rd Reg.RETIRED_HI = 0)) ∧
    (∃ skipped : Nat, ∃ s : State, s.Inv ∧ s.dev.on Reg.SCRUB_CTRL_BUSY = true ∧ s.dev.on Reg.SCRUB_CTRL_TARGET = false ∧ (s.dev.rd Reg.RETIRED_LO ≠ 0 ∨ s.dev.rd Reg.RETIRED_HI ≠ 0) ∧ skipped ≤ s.dev.rd Reg.SCRUB_LEN_UNITS) ∧
    (∃ v : Word, ∃ s : State, s.Inv ∧ s.dev.pageLive (0x082) = true ∧ s.dev.pageInTest (0x082) = false ∧ getBits v Reg.TEST_CTRL_TARGET.lsb 1 = 1 ∧ v.getLsbD 2 = false) ∧
    (∃ v : Word, ∃ s : State, s.Inv ∧ s.dev.pageLive (0x082) = true ∧ s.dev.pageInTest (0x082) = false ∧ getBits v Reg.TEST_CTRL_TARGET.lsb 1 = 0 ∧ v.getLsbD 2 = false) ∧
    (∃ v : Word, ∃ e : Nat × Nat × Nat, ∃ s : State, s.Inv ∧ s.dev.pageLive (0x082) = true ∧ s.dev.pageInTest (0x082) = false ∧ getBits v Reg.TEST_CTRL_TARGET.lsb 1 = 1 ∧ v.getLsbD 1 = false ∧ s.dev.integ.scratch.find? (fun e => decide (e.1 = s.dev.rd Reg.TEST_ADDR_WORD)) = some e) ∧
    (∃ v : Word, ∃ e : Nat × Nat, ∃ s : State, s.Inv ∧ s.dev.pageLive (0x082) = true ∧ s.dev.pageInTest (0x082) = false ∧ getBits v Reg.TEST_CTRL_TARGET.lsb 1 = 0 ∧ v.getLsbD 1 = false ∧ s.dev.integ.checks.find? (fun e => decide (e.1 = winAddr (8 * s.dev.rd Reg.TEST_ADDR_WORD) / 8)) = some e) ∧
    (∃ v : Word, ∃ s : State, s.Inv ∧ s.dev.pageLive (0x082) = true ∧ s.dev.pageInTest (0x082) = false ∧ getBits v Reg.TEST_CTRL_TARGET.lsb 1 = 1 ∧ v.getLsbD 1 = false ∧ s.dev.integ.scratch.find? (fun e => decide (e.1 = s.dev.rd Reg.TEST_ADDR_WORD)) = none) ∧
    (∃ v : Word, ∃ s : State, s.Inv ∧ s.dev.pageLive (0x082) = true ∧ s.dev.pageInTest (0x082) = false ∧ getBits v Reg.TEST_CTRL_TARGET.lsb 1 = 0 ∧ v.getLsbD 1 = false ∧ s.dev.integ.checks.find? (fun e => decide (e.1 = winAddr (8 * s.dev.rd Reg.TEST_ADDR_WORD) / 8)) = none) :=
  ⟨⟨0x100, running [(Reg.SCRUB_BASE_BASE, 4), (Reg.SCRUB_LEN_UNITS, 9), (Reg.SCRUB_CE, 3)], by decide⟩,
    ⟨0x100, running [(Reg.SCRUB_CTRL_BUSY, 1)], by decide⟩,
    ⟨0x100, running [(Reg.SCRUB_BASE_BASE, 0x7FFFFFFF)], by decide⟩,
    ⟨0x104, running [(Reg.SCRUB_BASE_BASE, 4), (Reg.SCRUB_LEN_UNITS, 9), (Reg.SCRUB_CE, 3)], by decide⟩,
    ⟨0x1F00, running [], by decide⟩,
    ⟨0x100, running [(Reg.SCRUB_CTRL_BUSY, 1), (Reg.SCRUB_LEN_UNITS, 9)], by decide⟩,
    ⟨0x100, running [], by decide⟩,
    ⟨running [(Reg.SCRUB_CTRL_BUSY, 1), (Reg.SCRUB_LEN_UNITS, 9)], by decide⟩,
    ⟨running [(Reg.SCRUB_CTRL_BUSY, 1), (Reg.SCRUB_LEN_UNITS, 9), (Reg.RETIRED_LO, 4), (Reg.SCRUB_CTRL_TARGET, 1)], by decide⟩,
    ⟨3, running [(Reg.SCRUB_CTRL_BUSY, 1), (Reg.SCRUB_LEN_UNITS, 9), (Reg.RETIRED_HI, 4)], by decide⟩,
    ⟨1, running [(Reg.TEST_ADDR_WORD, 9), (Reg.TEST_DATA_HI, 7), (Reg.TEST_CHECK_CHECK, 0xFF)], by decide⟩,
    ⟨0, running [(Reg.TEST_ADDR_WORD, 9), (Reg.TEST_DATA_HI, 7), (Reg.TEST_CHECK_CHECK, 0xFF)], by decide⟩,
    ⟨1, (9, 2 ^ 32 + 5, 0xAA), runningWith [(Reg.TEST_ADDR_WORD, 9)] fun d => { d with integ := { d.integ with scratch := [(9, 2 ^ 32 + 5, 0xAA)] } }, by decide⟩,
    ⟨0, (134217737, 0xAA), { runningWith [(Reg.TEST_ADDR_WORD, 9)] (fun d => { d with integ := { d.integ with checks := [(134217737, 0xAA)] } }) with mem := [(Config.winHome + 77, 6)] }, by decide⟩,
    ⟨1, running [(Reg.TEST_ADDR_WORD, 9), (Reg.TEST_DATA_LO, 7)], by decide⟩,
    ⟨0, { runningWith [(Reg.TEST_ADDR_WORD, 9)] id with mem := [(Config.winHome + 77, 6)] }, by decide⟩⟩

/-- States and operands that meet the hypotheses of each clause of SelfTestRuns. -/
theorem test_witness_SelfTestRuns :
    (∃ v : Word, ∃ sel : List Nat, ∃ s : State, s.Inv ∧ s.dev.pageLive (0x070) = true ∧ s.dev.pageInTest (0x070) = false ∧ v.getLsbD 1 = false ∧ s.dev.bistSelected = sel ∧ s.dev.pwr = pwrRun ∧ s.dev.on Reg.BIST_STAT_BUSY = false ∧ sel.all (fun b => inServiceBlock b && s.dev.blockIdle b) = true) ∧
    (∃ v : Word, ∃ sel : List Nat, ∃ s : State, s.Inv ∧ s.dev.pageLive (0x070) = true ∧ s.dev.pageInTest (0x070) = false ∧ v.getLsbD 1 = false ∧ s.dev.bistSelected = sel ∧ s.dev.pwr = pwrRun ∧ s.dev.on Reg.BIST_STAT_BUSY = false ∧ sel.all (fun b => inServiceBlock b && s.dev.blockIdle b) = true) ∧
    (∃ v : Word, ∃ s : State, s.Inv ∧ s.dev.pageLive (0x070) = true ∧ s.dev.pageInTest (0x070) = false ∧ v.getLsbD 1 = false ∧ (s.dev.pwr ≠ pwrRun ∨ s.dev.on Reg.BIST_STAT_BUSY = true ∨ s.dev.bistSelected.any (fun b => !(inServiceBlock b && s.dev.blockIdle b)) = true)) ∧
    (∃ v : Word, ∃ s : State, s.Inv ∧ s.dev.pageLive (0x070) = true ∧ s.dev.pageInTest (0x070) = false ∧ v.getLsbD 1 = false ∧ (s.dev.pwr ≠ pwrRun ∨ s.dev.on Reg.BIST_STAT_BUSY = true ∨ s.dev.bistSelected.any (fun b => !(inServiceBlock b && s.dev.blockIdle b)) = true)) ∧
    (∃ v : Word, ∃ s : State, s.Inv ∧ s.dev.pageLive (0x070) = true ∧ s.dev.pageInTest (0x070) = false ∧ v.getLsbD 1 = false ∧ (s.dev.pwr ≠ pwrRun ∨ s.dev.on Reg.BIST_STAT_BUSY = true ∨ s.dev.bistSelected.any (fun b => !(inServiceBlock b && s.dev.blockIdle b)) = true)) ∧
    (∃ s : State, s.Inv ∧ s.dev.on Reg.BIST_STAT_BUSY = true ∧ s.dev.bist.run ≠ [] ∧ s.dev.bist.isolated = false) ∧
    (∃ s : State, s.Inv ∧ (s.dev.on Reg.BIST_STAT_BUSY = false ∨ s.dev.bist.run = [] ∨ s.dev.bist.isolated = true)) ∧
    (∃ s : State, s.Inv ∧ (s.dev.on Reg.BIST_STAT_BUSY = false ∨ s.dev.bist.run = [] ∨ s.dev.bist.isolated = true)) ∧
    (∃ b : Fin 76, ∃ s : State, s.Inv ∧ (s.dev.block b.val).result = resRunning) ∧
    (∃ b : Fin 76, ∃ s : State, s.Inv ∧ (s.dev.block b.val).result = resRunning ∧ (s.dev.on Reg.STRAPS_FLEET_SETTLED = false ∨ s.dev.on Reg.STRAPS_FLEET_EFF = true)) ∧
    (∃ b : Fin 76, ∃ s : State, s.Inv ∧ b.val < 8 ∧ s.dev.essentialLost = false ∧ (s.dev.block b.val).result = resRunning ∧ s.dev.on Reg.STRAPS_FLEET_SETTLED = true ∧ s.dev.on Reg.STRAPS_FLEET_EFF = false) ∧
    (∃ b : Fin 76, ∃ s : State, s.Inv ∧ (s.dev.block b.val).result ≠ resRunning) ∧
    (∃ v : Word, ∃ s : State, s.Inv ∧ s.dev.pageLive (0x070) = true ∧ s.dev.pageInTest (0x070) = false ∧ v.getLsbD 0 = false ∧ s.dev.on Reg.BIST_STAT_BUSY = true) ∧
    (∃ v : Word, ∃ s : State, s.Inv ∧ s.dev.pageLive (0x070) = true ∧ s.dev.pageInTest (0x070) = false ∧ v.getLsbD 0 = false ∧ s.dev.on Reg.BIST_STAT_BUSY = false) ∧
    (∃ s : State, s.Inv ∧ s.dev.bist.run ≠ [] ∧ (s.dev.bist.run.all (fun b => decide ((s.dev.block b).result ≠ resRunning) && decide (b < 16 ∨ 24 ≤ b)) = true) ∧ s.dev.bist.held = []) ∧
    (∃ s : State, s.Inv ∧ s.dev.bist.run ≠ [] ∧ s.dev.bist.run.all (fun b => decide ((s.dev.block b).result ≠ resRunning)) = true) ∧
    (∃ page : Nat, ∃ off : Nat, ∃ v : Word, ∃ s : State, s.Inv ∧ s.dev.bist.run ≠ [] ∧ (s.dev.bist.run.all (fun b => decide ((s.dev.block b).result ≠ resRunning) && decide (b < 16 ∨ 24 ≤ b)) = true) ∧ s.dev.bist.held = [.word page off v] ∧ page ∈ [0x101, 0x103, 0x10A, 0x2C0] ∧ off = 0x048) ∧
    (∃ s : State, s.Inv ∧ (s.dev.bist.run = [] ∨ s.dev.bist.run.any (fun b => decide ((s.dev.block b).result = resRunning)) = true)) :=
  ⟨⟨0, [3, 61], running [(Reg.BIST_SEL_SEL 0, 8), (Reg.BIST_SEL_SEL 1, 0x20000000)], by decide⟩,
    ⟨0, [], running [], by decide⟩,
    ⟨0, running [(Reg.BIST_SEL_SEL 2, 1)], by decide⟩,
    ⟨0, running [(Reg.BIST_SEL_SEL 0, 8), (Reg.BIST_STAT_BUSY, 1)], by decide⟩,
    ⟨0, running [(Reg.BIST_SEL_SEL 0, 8), (Reg.TX_STATE_STATE 3, 3)], by decide⟩,
    ⟨runningWith [(Reg.BIST_STAT_BUSY, 1), (Reg.TX_RAMP_TIME_MS 0, 9), (Reg.TX_RAMP_TIME_MS 3, 7)] fun d => ({ d with bist := { d.bist with run := [3, 0] } }.setBlock 3 { d.block 3 with result := resRunning }), by decide⟩,
    ⟨running [], by decide⟩,
    ⟨runningWith [(Reg.BIST_STAT_BUSY, 1)] fun d => { d with bist := { d.bist with run := [3], isolated := true } }, by decide⟩,
    ⟨3, runningWith [(Reg.BIST_STAT_BUSY, 1)] fun d => ({ d with bist := { d.bist with run := [3, 9] } }.setBlock 3 { d.block 3 with result := resRunning }), by decide⟩,
    ⟨3, runningWith [(Reg.BIST_STAT_BUSY, 1)] fun d => ({ d with bist := { d.bist with run := [3, 9] } }.setBlock 3 { d.block 3 with result := resRunning }), by decide⟩,
    ⟨3, runningWith [(Reg.STRAPS_FLEET_SETTLED, 1), (Reg.STRAPS_FLEET_EFF, 0), (Reg.BIST_STAT_BUSY, 1)] fun d => ({ d with bist := { d.bist with run := [3, 9] } }.setBlock 3 { d.block 3 with result := resRunning }), by decide⟩,
    ⟨3, running [], by decide⟩,
    ⟨0, runningWith [(Reg.BIST_STAT_BUSY, 1)] fun d => ({ d with bist := { d.bist with run := [3, 9] } }.setBlock 3 { d.block 3 with result := resRunning }), by decide⟩,
    ⟨0, running [], by decide⟩,
    ⟨runningWith [(Reg.BIST_STAT_BUSY, 1)] fun d => { d with bist := { d.bist with run := [3, 9], isolated := true, shown := [(0x40000, 5)] } }, by decide⟩,
    ⟨runningWith [(Reg.BIST_STAT_BUSY, 1)] fun d => { d with bist := { d.bist with run := [17, 0], held := [.txEnable 3, .word 0x101 0x048 0x123] } }, by decide⟩,
    ⟨0x101, 0x048, 0x123, runningWith [(Reg.BIST_STAT_BUSY, 1)] fun d => { d with bist := { d.bist with run := [0], held := [.word 0x101 0x048 0x123] } }, by decide⟩,
    ⟨runningWith [(Reg.BIST_STAT_BUSY, 1)] fun d => ({ d with bist := { d.bist with run := [3, 9] } }.setBlock 3 { d.block 3 with result := resRunning }), by decide⟩⟩

/-- States and operands that meet the hypotheses of each clause of BlocksOutOfService. -/
theorem test_witness_BlocksOutOfService :
    (∃ k : Fin 3, ∃ v : Word, ∃ s : State, s.Inv ∧ s.dev.pageLive (0x070) = true ∧ s.dev.pageInTest (0x070) = false ∧ k = 0 ∧ v &&& 0xFFFFFF00 = 0 ∧ s.dev.essentialLost = false) ∧
    (∃ k : Fin 3, ∃ v : Word, ∃ s : State, s.Inv ∧ s.dev.pageLive (0x070) = true ∧ s.dev.pageInTest (0x070) = false ∧ (k = 0 ∧ v &&& 0xFF00 ≠ 0 ∨ k = 2 ∧ v &&& 0xFFFFF000 ≠ 0)) ∧
    (∃ s : State, s.Inv ∧ s.dev.pwr = pwrRun ∧ s.dev.on Reg.STRAPS_CHAIN_HEAD = true ∧ s.dev.anyRelayLink = false ∧ s.dev.on Reg.STRAPS_FLEET_SETTLED = false ∧ s.dev.on Reg.STRAPS_FLEET_EFF = true) ∧
    (∃ s : State, s.Inv ∧ s.dev.pwr = pwrRun ∧ s.dev.on Reg.STRAPS_CHAIN_HEAD = true ∧ s.dev.anyRelayLink = false ∧ s.dev.on Reg.STRAPS_FLEET_SETTLED = false ∧ s.dev.on Reg.STRAPS_FLEET_EFF = false) ∧
    (∃ s : State, s.Inv ∧ (s.dev.pwr ≠ pwrRun ∨ s.dev.on Reg.STRAPS_CHAIN_HEAD = false ∨ s.dev.anyRelayLink = true ∨ s.dev.on Reg.STRAPS_FLEET_SETTLED = true)) ∧
    (∃ v : Word, ∃ s : State, s.Inv ∧ s.dev.pageLive (0x072) = true ∧ s.dev.pageInTest (0x072) = false ∧ s.dev.directOpen = true ∧ getBits v 0 7 < 76) ∧
    (∃ v : Word, ∃ s : State, s.Inv ∧ s.dev.pageLive (0x072) = true ∧ s.dev.pageInTest (0x072) = false ∧ s.dev.directOpen = true ∧ 76 ≤ getBits v 0 7) ∧
    (∃ s : State, s.Inv ∧ s.dev.pageLive (0x072) = true ∧ s.dev.pageInTest (0x072) = false ∧ s.dev.directOpen = false) ∧
    (∃ s : State, s.Inv) ∧
    (∃ i : JtagInstr, ∃ s : State, s.Inv ∧ (i = .scan ∨ i = .testEngine)) ∧
    (∃ i : JtagInstr, ∃ s : State, s.Inv ∧ (i = .scan ∨ i = .testEngine)) ∧
    (∃ i : JtagInstr, ∃ s : State, s.Inv ∧ (i = .bypass ∨ i = .samplePreload ∨ i = .extest)) :=
  ⟨⟨0, 0x18, running [(Reg.BIST_OFF_OFF 0, 3)], by decide⟩,
    ⟨2, 0x1000, running [], by decide⟩,
    ⟨running [(Reg.STRAPS_CHAIN_HEAD, 1), (Reg.STRAPS_FLEET_EFF, 1)], by decide⟩,
    ⟨runningWith [(Reg.STRAPS_CHAIN_HEAD, 1), (Reg.STRAPS_FLEET_EFF, 0), (Reg.BIST_OFF_OFF 0, 0x10)] fun d => (d.setBlock 3 { d.block 3 with flagged := true }).setBlock 4 { d.block 4 with flagged := true }, by decide⟩,
    ⟨running [], by decide⟩,
    ⟨5, running [], by decide⟩,
    ⟨76, running [], by decide⟩,
    ⟨running [(Reg.LC_STAT_STATE, 2)], by decide⟩,
    ⟨running [], by decide⟩,
    ⟨.scan, running [(Reg.LC_STAT_STATE, 2)], by decide⟩,
    ⟨.testEngine, running [], by decide⟩,
    ⟨.extest, running [], by decide⟩⟩

/-- States and operands that meet the hypotheses of each clause of LifeCycleAndInstalls. -/
theorem test_witness_LifeCycleAndInstalls :
    (∃ v : Word, ∃ s : State, s.Inv ∧ s.dev.pageLive (0x000) = true ∧ s.dev.pageInTest (0x000) = false ∧ getBits v 0 3 = 1 ∧ getBits v 16 16 = 0x5A01 ∧ s.dev.rd Reg.LC_STAT_STATE = 0 ∧ s.dev.on Reg.LC_STAT_PENDING = false ∧ s.dev.vault.cert ≠ []) ∧
    (∃ v : Word, ∃ s : State, s.Inv ∧ s.dev.pageLive (0x000) = true ∧ s.dev.pageInTest (0x000) = false ∧ getBits v 0 3 = 4 ∧ getBits v 16 16 = 0x5A04 ∧ s.dev.on Reg.LC_STAT_PENDING = false) ∧
    (∃ v : Word, ∃ s : State, s.Inv ∧ s.dev.pageLive (0x000) = true ∧ s.dev.pageInTest (0x000) = false ∧ (getBits v 16 16 ≠ 0x5A00 + getBits v 0 3 ∨ (getBits v 0 3 ≠ 4 ∧ getBits v 0 3 ≠ s.dev.rd Reg.LC_STAT_STATE + 1) ∨ s.dev.on Reg.LC_STAT_PENDING = true ∨ (getBits v 0 3 = 1 ∧ s.dev.vault.cert = []))) ∧
    (∃ v : Word, ∃ s : State, s.Inv ∧ s.dev.pageLive (0x000) = true ∧ s.dev.pageInTest (0x000) = false ∧ (getBits v 16 16 ≠ 0x5A00 + getBits v 0 3 ∨ (getBits v 0 3 ≠ 4 ∧ getBits v 0 3 ≠ s.dev.rd Reg.LC_STAT_STATE + 1) ∨ s.dev.on Reg.LC_STAT_PENDING = true ∨ (getBits v 0 3 = 1 ∧ s.dev.vault.cert = []))) ∧
    (∃ v : Word, ∃ s : State, s.Inv ∧ s.dev.pageLive (0x061) = true ∧ s.dev.pageInTest (0x061) = false ∧ v.getLsbD 1 = false ∧ inWindow (s.dev.rd Reg.CERT_DST_OFFSET) s.dev.vault.cert.length = true) ∧
    (∃ v : Word, ∃ s : State, s.Inv ∧ s.dev.pageLive (0x061) = true ∧ s.dev.pageInTest (0x061) = false ∧ v.getLsbD 1 = false ∧ inWindow (s.dev.rd Reg.CERT_DST_OFFSET) s.dev.vault.cert.length = false) ∧
    (∃ v : Word, ∃ s : State, s.Inv ∧ s.dev.pageLive (0x061) = true ∧ s.dev.pageInTest (0x061) = false ∧ v.getLsbD 0 = false ∧ s.dev.rd Reg.LC_STAT_STATE = lcBlank ∧ 0 < s.dev.rd Reg.CERT_LEN_BYTES ∧ s.dev.rd Reg.CERT_LEN_BYTES ≤ 4096 ∧ inWindow (s.dev.rd Reg.CERT_DST_OFFSET) (s.dev.rd Reg.CERT_LEN_BYTES) = true) ∧
    (∃ v : Word, ∃ ok : Bool, ∃ s : State, s.Inv ∧ s.dev.pageLive (0x061) = true ∧ s.dev.pageInTest (0x061) = false ∧ v.getLsbD 0 = false ∧ (s.dev.rd Reg.LC_STAT_STATE ≠ lcBlank ∨ 4096 < s.dev.rd Reg.CERT_LEN_BYTES ∨ ok = false)) ∧
    (∃ s : State, s.Inv ∧ s.dev.pageLive (0x060) = true ∧ s.dev.pageInTest (0x060) = false ∧ s.dev.on Reg.FW_INSTALL_BUSY = false ∧ inWindow (s.dev.rd Reg.FW_SRC_OFFSET) (s.dev.rd Reg.FW_LEN_BYTES) = false) ∧
    (∃ e : List Byte × Nat, ∃ s : State, s.Inv ∧ s.dev.pageLive (0x060) = true ∧ s.dev.pageInTest (0x060) = false ∧ s.dev.on Reg.FW_INSTALL_BUSY = false ∧ inWindow (s.dev.rd Reg.FW_SRC_OFFSET) (s.dev.rd Reg.FW_LEN_BYTES) = true ∧ s.dev.badImage (splitImages (s.dev.rd Reg.FW_LEN_BYTES / 256 + 1) (s.bytes (winAddr (s.dev.rd Reg.FW_SRC_OFFSET)) (s.dev.rd Reg.FW_LEN_BYTES))) = some e) ∧
    (∃ s : State, s.Inv ∧ s.dev.pageLive (0x060) = true ∧ s.dev.pageInTest (0x060) = false ∧ s.dev.on Reg.FW_INSTALL_BUSY = true) ∧
    (∃ s : State, s.Inv ∧ s.dev.pageLive (0x060) = true ∧ s.dev.pageInTest (0x060) = false ∧ s.dev.on Reg.FW_INSTALL_BUSY = false ∧ inWindow (s.dev.rd Reg.FW_SRC_OFFSET) (s.dev.rd Reg.FW_LEN_BYTES) = true) ∧
    (∃ imgs : List (List Byte), ∃ s : State, s.Inv ∧ s.dev.vault.install = some (some imgs)) ∧
    (∃ back : Bool, ∃ r : Option (List (List Byte)), ∃ s : State, s.Inv ∧ s.dev.vault.install = some r ∧ (r = none ∨ back = false)) ∧
    (∃ s : State, s.Inv ∧ s.dev.pageLive (0x060) = true ∧ s.dev.pageInTest (0x060) = false ∧ s.dev.rd Reg.ARB_COUNT < s.dev.rd Reg.ARB_RUN_MIN_SVN ∧ (s.dev.slotImages (1 - s.dev.rd Reg.BOOT_STAT_SLOT)).all (fun i => decide (s.dev.rd Reg.ARB_RUN_MIN_SVN ≤ imageSvn i)) = true) ∧
    (∃ s : State, s.Inv ∧ s.dev.pageLive (0x060) = true ∧ s.dev.pageInTest (0x060) = false ∧ (s.dev.rd Reg.ARB_RUN_MIN_SVN ≤ s.dev.rd Reg.ARB_COUNT ∨ (s.dev.slotImages (1 - s.dev.rd Reg.BOOT_STAT_SLOT)).any (fun i => decide (imageSvn i < s.dev.rd Reg.ARB_RUN_MIN_SVN)) = true)) :=
  ⟨⟨0x5A010001, runningWith [] fun d => { d with vault := { d.vault with cert := [1] } }, by decide⟩,
    ⟨0x5A040004, running [], by decide⟩,
    ⟨0x5A010001, running [], by decide⟩,
    ⟨0x5A030003, running [], by decide⟩,
    ⟨0, runningWith [(Reg.CERT_DST_OFFSET, 64)] fun d => { d with vault := { d.vault with cert := [1, 2, 3] } }, by decide⟩,
    ⟨0, runningWith [(Reg.CERT_DST_OFFSET, 0xFFFFFFFF)] fun d => { d with vault := { d.vault with cert := [1, 2, 3] } }, by decide⟩,
    ⟨0, { runningWith [(Reg.CERT_DST_OFFSET, 64), (Reg.CERT_LEN_BYTES, 3)] id with mem := [(Config.winHome + 65, 7)] }, by decide⟩,
    ⟨0, false, running [], by decide⟩,
    ⟨running [(Reg.FW_SRC_OFFSET, 0xFFFFFFFF), (Reg.FW_LEN_BYTES, 512)], by decide⟩,
    ⟨(List.replicate 256 0, 1), running [(Reg.FW_SRC_OFFSET, 0), (Reg.FW_LEN_BYTES, 256)], by decide⟩,
    ⟨running [(Reg.FW_INSTALL_BUSY, 1)], by decide⟩,
    ⟨running [(Reg.FW_SRC_OFFSET, 0), (Reg.FW_LEN_BYTES, 256)], by decide⟩,
    ⟨[[1], [2]], runningWith [(Reg.FW_INSTALL_BUSY, 1)] fun d => { d with vault := { d.vault with install := some (some [[1], [2]]) } }, by decide⟩,
    ⟨false, some [[1]], runningWith [(Reg.FW_INSTALL_BUSY, 1)] fun d => { d with vault := { d.vault with install := some (some [[1]]) } }, by decide⟩,
    ⟨runningWith [(Reg.ARB_RUN_MIN_SVN, 5)] fun d => { d with vault := { d.vault with slots := [(1, [[0, 0, 0, 0, 0, 0, 5]])] } }, by decide⟩,
    ⟨runningWith [(Reg.ARB_RUN_MIN_SVN, 5)] fun d => { d with vault := { d.vault with slots := [(1, [[0, 0, 0, 0, 0, 0, 4]])] } }, by decide⟩⟩

/-- States and operands that meet the hypotheses of each clause of BundlesQuotesAndFrontEnds. -/
theorem test_witness_BundlesQuotesAndFrontEnds :
    (∃ v : Word, ∃ b : BundleRun, ∃ s : State, s.Inv ∧ s.dev.pageLive (0x061) = true ∧ s.dev.pageInTest (0x061) = false ∧ v.getLsbD 1 = false ∧ s.dev.on Reg.BUNDLE_CTRL_BUSY = false ∧ s.dev.bundleOk (imageAt s.bytes (s.dev.rd Reg.BUNDLE_SRC_OFFSET)) = true ∧ bundleOf (imageAt s.bytes (s.dev.rd Reg.BUNDLE_SRC_OFFSET)) = b) ∧
    (∃ v : Word, ∃ img : List Byte, ∃ s : State, s.Inv ∧ s.dev.pageLive (0x061) = true ∧ s.dev.pageInTest (0x061) = false ∧ v.getLsbD 1 = false ∧ s.dev.on Reg.BUNDLE_CTRL_BUSY = false ∧ (imageAt s.bytes (s.dev.rd Reg.BUNDLE_SRC_OFFSET)) = img ∧ s.dev.bundleOk img = false) ∧
    (∃ v : Word, ∃ s : State, s.Inv ∧ s.dev.pageLive (0x061) = true ∧ s.dev.pageInTest (0x061) = false ∧ v.getLsbD 1 = false ∧ s.dev.on Reg.BUNDLE_CTRL_BUSY = true) ∧
    (∃ v : Word, ∃ s : State, s.Inv ∧ s.dev.pageLive (0x061) = true ∧ s.dev.pageInTest (0x061) = false ∧ v.getLsbD 0 = false ∧ s.dev.bundleOk (imageAt s.bytes (s.dev.rd Reg.BUNDLE_SRC_OFFSET)) = true) ∧
    (∃ v : Word, ∃ s : State, s.Inv ∧ s.dev.pageLive (0x061) = true ∧ s.dev.pageInTest (0x061) = false ∧ v.getLsbD 0 = false ∧ s.dev.bundleOk (imageAt s.bytes (s.dev.rd Reg.BUNDLE_SRC_OFFSET)) = false) ∧
    (∃ b : BundleRun, ∃ r : List Byte, ∃ s : State, s.Inv ∧ s.dev.hubOn = true ∧ s.dev.vault.apply = some b ∧ b.records[b.next]? = some r ∧ fieldLE r 2 2 = 0x042 ∧ fieldLE r 4 2 = 0x040 ∧ fieldLE r 8 4 = 7 ∧ (s.dev.hdr 0x042).cstate = .opened) ∧
    (∃ b : BundleRun, ∃ r : List Byte, ∃ s : State, s.Inv ∧ s.dev.hubOn = true ∧ s.dev.vault.apply = some b ∧ b.records[b.next]? = some r) ∧
    (∃ b : BundleRun, ∃ r : List Byte, ∃ s : State, s.Inv ∧ s.dev.hubOn = true ∧ s.dev.vault.apply = some b ∧ b.records[b.next]? = some r) ∧
    (∃ b : BundleRun, ∃ r : List Byte, ∃ s : State, s.Inv ∧ s.dev.hubOn = true ∧ s.dev.vault.apply = some b ∧ b.records[b.next]? = some r ∧ pageAllocated (fieldLE r 2 2 % 4096) = false ∧ fieldLE r 2 2 % 4096 < 0x060) ∧
    (∃ b : BundleRun, ∃ s : State, s.Inv ∧ s.dev.hubOn = true ∧ s.dev.vault.apply = some b ∧ b.records.length ≤ b.next) ∧
    (∃ b : BundleRun, ∃ s : State, s.Inv ∧ s.dev.vault.apply = some b ∧ b.next < b.records.length) ∧
    (∃ s : State, s.Inv ∧ s.dev.pageLive (0x061) = true ∧ s.dev.pageInTest (0x061) = false ∧ s.dev.on Reg.ATT_CTRL_BUSY = false ∧ (s.dev.rd Reg.LC_STAT_STATE = lcProvisioned ∨ s.dev.rd Reg.LC_STAT_STATE = lcOwned) ∧ s.dev.on Reg.LC_STAT_PENDING = false) ∧
    (∃ s : State, s.Inv ∧ s.dev.pageLive (0x061) = true ∧ s.dev.pageInTest (0x061) = false ∧ s.dev.on Reg.ATT_CTRL_BUSY = false ∧ s.dev.rd Reg.LC_STAT_STATE ≠ lcProvisioned ∧ s.dev.rd Reg.LC_STAT_STATE ≠ lcOwned) ∧
    (∃ s : State, s.Inv ∧ s.dev.pageLive (0x061) = true ∧ s.dev.pageInTest (0x061) = false ∧ s.dev.on Reg.ATT_CTRL_BUSY = true) ∧
    (∃ dst : Nat, ∃ b : List Byte, ∃ s : State, s.Inv ∧ s.dev.vault.quote = some (dst, b) ∧ (s.dev.rd Reg.LC_STAT_STATE = lcProvisioned ∨ s.dev.rd Reg.LC_STAT_STATE = lcOwned) ∧ s.dev.on Reg.LC_STAT_PENDING = false ∧ inWindow dst 448 = true) ∧
    (∃ dst : Nat, ∃ b : List Byte, ∃ s : State, s.Inv ∧ s.dev.vault.quote = some (dst, b) ∧ s.dev.rd Reg.LC_STAT_STATE ≠ lcProvisioned ∧ s.dev.rd Reg.LC_STAT_STATE ≠ lcOwned) ∧
    (∃ v : Word, ∃ s : State, s.Inv ∧ s.dev.pageLive (0x062) = true ∧ s.dev.pageInTest (0x062) = false ∧ s.dev.lineOn ((s.dev.writeWord 0x062 0x040 8 (v ||| 8)).rd Reg.FE_CTRL_ENGINE) = true ∧ s.dev.txs ((s.dev.writeWord 0x062 0x040 8 (v ||| 8)).rd Reg.FE_CTRL_ENGINE) = txDark ∧ s.dev.on (Reg.RX_CTRL_ENABLE ((s.dev.writeWord 0x062 0x040 8 (v ||| 8)).rd Reg.FE_CTRL_ENGINE)) = false) ∧
    (∃ v : Word, ∃ s : State, s.Inv ∧ s.dev.pageLive (0x062) = true ∧ s.dev.pageInTest (0x062) = false ∧ (s.dev.lineOn ((s.dev.writeWord 0x062 0x040 8 (v ||| 8)).rd Reg.FE_CTRL_ENGINE) = false ∨ s.dev.txs ((s.dev.writeWord 0x062 0x040 8 (v ||| 8)).rd Reg.FE_CTRL_ENGINE) ≠ txDark ∨ s.dev.on (Reg.RX_CTRL_ENABLE ((s.dev.writeWord 0x062 0x040 8 (v ||| 8)).rd Reg.FE_CTRL_ENGINE)) = true)) ∧
    (∃ n : Fin 8, ∃ s : State, s.Inv ∧ (s.dev.fee n).busy = true ∧ (s.dev.fee n).forPrep = false ∧ (s.dev.fee n).forRx = false) ∧
    (∃ n : Fin 8, ∃ s : State, s.Inv ∧ (s.dev.fee n).busy = true) ∧
    (∃ s : State, s.Inv ∧ s.dev.pageLive (0x062) = true ∧ s.dev.pageInTest (0x062) = false ∧ s.dev.rd Reg.FE_INDEX_WORD < 192) :=
  ⟨⟨0, ⟨[List.replicate 16 0], 0, List.replicate 64 0⟩, { running [(Reg.OWNER_HASH 0, 3335509373), (Reg.OWNER_HASH 1, 1113828217), (Reg.OWNER_HASH 2, 3897933912), (Reg.OWNER_HASH 3, 3491530428), (Reg.OWNER_HASH 4, 610967846), (Reg.OWNER_HASH 5, 465637407), (Reg.OWNER_HASH 6, 1060317534), (Reg.OWNER_HASH 7, 533125044), (Reg.OWNER_HASH 8, 1474146675), (Reg.OWNER_HASH 9, 4036754771), (Reg.OWNER_HASH 10, 4135142), (Reg.OWNER_HASH 11, 3286183305), (Reg.OWNER_HASH 12, 65615272), (Reg.OWNER_HASH 13, 1516042383), (Reg.OWNER_HASH 14, 3996645656), (Reg.OWNER_HASH 15, 2732435253), (Reg.LC_STAT_STATE, 2), (Reg.BUNDLE_SRC_OFFSET, 64)] with mem := (fun (l : List Byte) => ((List.range l.length).zip l).filterMap fun p => if p.2 = 0 then none else some (Config.winHome + 64 + p.1, p.2)) ([83, 81, 73, 77, 1, 17, 1, 1, 0, 0, 0, 0, 112, 0, 0, 0, 230, 105, 229, 37, 177, 65, 188, 218, 212, 65, 45, 205, 59, 218, 74, 16, 44, 161, 172, 234, 167, 235, 214, 44, 16, 39, 163, 236, 20, 154, 162, 90, 116, 204, 148, 130, 113, 121, 83, 140, 2, 73, 239, 97, 34, 13, 152, 154, 135, 88, 6, 38, 251, 91, 158, 190, 62, 68, 13, 36, 246, 192, 227, 71] ++ List.replicate 112 0 ++ [2, 190, 191, 111, 247, 60, 81, 87, 32, 249, 117, 94, 221, 14, 205, 124, 184, 153, 47, 160, 90, 19, 5, 5, 202, 76, 170, 43, 248, 179, 26, 28, 240, 211, 214, 210, 78, 194, 15, 116, 243, 252, 222, 98, 61, 47, 169, 59, 160, 90, 124, 48, 50, 140, 181, 121, 152, 3, 217, 124, 233, 134, 35, 2, 59, 106, 39, 188, 206, 182, 164, 45, 98, 163, 168, 208, 42, 111, 13, 115, 101, 50, 21, 119, 29, 226, 67, 166, 58, 192, 72, 161, 139, 89, 218, 41] ++ List.replicate 80 0 : List Byte) }, by decide +kernel⟩,
    ⟨0, List.replicate 256 0, running [], by decide⟩,
    ⟨0, running [(Reg.BUNDLE_CTRL_BUSY, 1)], by decide⟩,
    ⟨0, { running [(Reg.OWNER_HASH 0, 3335509373), (Reg.OWNER_HASH 1, 1113828217), (Reg.OWNER_HASH 2, 3897933912), (Reg.OWNER_HASH 3, 3491530428), (Reg.OWNER_HASH 4, 610967846), (Reg.OWNER_HASH 5, 465637407), (Reg.OWNER_HASH 6, 1060317534), (Reg.OWNER_HASH 7, 533125044), (Reg.OWNER_HASH 8, 1474146675), (Reg.OWNER_HASH 9, 4036754771), (Reg.OWNER_HASH 10, 4135142), (Reg.OWNER_HASH 11, 3286183305), (Reg.OWNER_HASH 12, 65615272), (Reg.OWNER_HASH 13, 1516042383), (Reg.OWNER_HASH 14, 3996645656), (Reg.OWNER_HASH 15, 2732435253), (Reg.LC_STAT_STATE, 2), (Reg.BUNDLE_SRC_OFFSET, 64)] with mem := (fun (l : List Byte) => ((List.range l.length).zip l).filterMap fun p => if p.2 = 0 then none else some (Config.winHome + 64 + p.1, p.2)) ([83, 81, 73, 77, 1, 17, 1, 1, 0, 0, 0, 0, 112, 0, 0, 0, 230, 105, 229, 37, 177, 65, 188, 218, 212, 65, 45, 205, 59, 218, 74, 16, 44, 161, 172, 234, 167, 235, 214, 44, 16, 39, 163, 236, 20, 154, 162, 90, 116, 204, 148, 130, 113, 121, 83, 140, 2, 73, 239, 97, 34, 13, 152, 154, 135, 88, 6, 38, 251, 91, 158, 190, 62, 68, 13, 36, 246, 192, 227, 71] ++ List.replicate 112 0 ++ [2, 190, 191, 111, 247, 60, 81, 87, 32, 249, 117, 94, 221, 14, 205, 124, 184, 153, 47, 160, 90, 19, 5, 5, 202, 76, 170, 43, 248, 179, 26, 28, 240, 211, 214, 210, 78, 194, 15, 116, 243, 252, 222, 98, 61, 47, 169, 59, 160, 90, 124, 48, 50, 140, 181, 121, 152, 3, 217, 124, 233, 134, 35, 2, 59, 106, 39, 188, 206, 182, 164, 45, 98, 163, 168, 208, 42, 111, 13, 115, 101, 50, 21, 119, 29, 226, 67, 166, 58, 192, 72, 161, 139, 89, 218, 41] ++ List.replicate 80 0 : List Byte) }, by decide +kernel⟩,
    ⟨0, running [], by decide⟩,
    ⟨⟨[[0, 0, 0x42, 0, 0x40, 0, 0, 0, 7, 0, 0, 0, 0, 0, 0, 0]], 0, List.replicate 64 9⟩, [0, 0, 0x42, 0, 0x40, 0, 0, 0, 7, 0, 0, 0, 0, 0, 0, 0], runningWith [(Reg.BUNDLE_CTRL_BUSY, 1)] fun d => { d with vault := { d.vault with apply := some ⟨[[0, 0, 0x42, 0, 0x40, 0, 0, 0, 7, 0, 0, 0, 0, 0, 0, 0]], 0, List.replicate 64 9⟩ } }, by decide⟩,
    ⟨⟨[[0, 0, 0x42, 0, 0x40, 0, 0, 0, 7, 0, 0, 0, 0, 0, 0, 0]], 0, List.replicate 64 9⟩, [0, 0, 0x42, 0, 0x40, 0, 0, 0, 7, 0, 0, 0, 0, 0, 0, 0], runningWith [(Reg.BUNDLE_CTRL_BUSY, 1)] fun d => { d with vault := { d.vault with apply := some ⟨[[0, 0, 0x42, 0, 0x40, 0, 0, 0, 7, 0, 0, 0, 0, 0, 0, 0]], 0, List.replicate 64 9⟩ } }, by decide⟩,
    ⟨⟨[[0, 0, 5, 0, 0x40, 0, 0, 0, 7, 0, 0, 0, 0, 0, 0, 0]], 0, List.replicate 64 9⟩, [0, 0, 5, 0, 0x40, 0, 0, 0, 7, 0, 0, 0, 0, 0, 0, 0], runningWith [(Reg.BUNDLE_CTRL_BUSY, 1)] fun d => { d with vault := { d.vault with apply := some ⟨[[0, 0, 5, 0, 0x40, 0, 0, 0, 7, 0, 0, 0, 0, 0, 0, 0]], 0, List.replicate 64 9⟩ } }, by decide⟩,
    ⟨⟨[[0, 0, 5, 0, 0x40, 0, 0, 0, 7, 0, 0, 0, 0, 0, 0, 0]], 0, List.replicate 64 9⟩, [0, 0, 5, 0, 0x40, 0, 0, 0, 7, 0, 0, 0, 0, 0, 0, 0], runningWith [(Reg.BUNDLE_CTRL_BUSY, 1)] fun d => { d with vault := { d.vault with apply := some ⟨[[0, 0, 5, 0, 0x40, 0, 0, 0, 7, 0, 0, 0, 0, 0, 0, 0]], 0, List.replicate 64 9⟩ } }, by decide⟩,
    ⟨⟨[[0, 0, 5, 0, 0x40, 0, 0, 0, 7, 0, 0, 0, 0, 0, 0, 0]], 1, List.replicate 64 9⟩, runningWith [(Reg.BUNDLE_CTRL_BUSY, 1)] fun d => { d with vault := { d.vault with apply := some ⟨[[0, 0, 5, 0, 0x40, 0, 0, 0, 7, 0, 0, 0, 0, 0, 0, 0]], 1, List.replicate 64 9⟩ } }, by decide⟩,
    ⟨⟨[[0, 0, 5, 0, 0x40, 0, 0, 0, 7, 0, 0, 0, 0, 0, 0, 0]], 0, List.replicate 64 9⟩, runningWith [(Reg.BUNDLE_CTRL_BUSY, 1)] fun d => { d with vault := { d.vault with apply := some ⟨[[0, 0, 5, 0, 0x40, 0, 0, 0, 7, 0, 0, 0, 0, 0, 0, 0]], 0, List.replicate 64 9⟩ } }, by decide⟩,
    ⟨running [(Reg.LC_STAT_STATE, 2), (Reg.ATT_DST_OFFSET, 64)], by decide⟩,
    ⟨running [], by decide⟩,
    ⟨running [(Reg.ATT_CTRL_BUSY, 1)], by decide⟩,
    ⟨64, [1, 2, 3], runningWith [(Reg.ATT_CTRL_BUSY, 1), (Reg.LC_STAT_STATE, 1)] fun d => { d with vault := { d.vault with quote := some (64, [1, 2, 3]) } }, by decide⟩,
    ⟨64, [1, 2, 3], runningWith [(Reg.ATT_CTRL_BUSY, 1)] fun d => { d with vault := { d.vault with quote := some (64, [1, 2, 3]) } }, by decide⟩,
    ⟨3, running [], by decide⟩,
    ⟨3, running [(Reg.RX_CTRL_ENABLE 3, 1)], by decide⟩,
    ⟨3, runningWith [] fun d => d.setFee 3 { d.fee 3 with busy := true, forHost := true }, by decide⟩,
    ⟨3, runningWith [] fun d => d.setFee 3 { d.fee 3 with busy := true, forPrep := true, forRx := true }, by decide⟩,
    ⟨runningWith [(Reg.FE_INDEX_WORD, 1), (Reg.FE_CTRL_ENGINE, 3)] fun d => d.setFee 3 { d.fee 3 with cache := [0, 0, 0, 0, 7, 8] }, by decide⟩⟩

/-- States and operands that meet the hypotheses of each clause of StepRunsTheFrontCommand. -/
theorem test_witness_StepRunsTheFrontCommand :
    (∃ c : Instr, ∃ cs : List Instr, ∃ s : State, s.pending = c :: cs) ∧
    (∃ s : State, s.pending = []) :=
  ⟨⟨.frameTick [], [.timeTod], { State.reset with pending := [.frameTick [], .timeTod] }, by decide⟩,
    ⟨State.reset, by decide⟩⟩

/-- States and operands that meet the hypotheses of each clause of EveryStepKeepsTheInvariant. -/
theorem test_witness_EveryStepKeepsTheInvariant :
    (∃ s t : State, s.Inv ∧ step s = .next t) ∧
    (∃ s : State, s.Inv) :=
  ⟨⟨State.reset, State.reset, by decide, rfl⟩,
    ⟨running [], by decide⟩⟩

/-- States and operands that meet the hypotheses of each clause of AccessCodesOfFields. -/
theorem test_witness_AccessCodesOfFields :
    (∃ page off : BitVec 12, ∃ s : State, s.Inv ∧ s.dev.pageLive page.toNat = true ∧ s.dev.pageInTest page.toNat = false ∧
    page.toNat ∈ [0x004, 0x011, 0x018, 0x032, 0x040, 0x042, 0x091, 0x094, 0x0A0, 0x0A1, 0x0B9, 0x240, 0x280, 0x341] ∧ 0x040 ≤ off.toNat ∧ tblAt page.toNat (off.toNat / 4 * 4) = none) ∧
    (∃ page off : BitVec 12, ∃ s : State, s.Inv ∧ s.dev.pageLive page.toNat = true ∧ s.dev.pageInTest page.toNat = false ∧
    page.toNat ∈ [0x004, 0x011, 0x018, 0x032, 0x040, 0x042, 0x091, 0x094, 0x0A0, 0x0A1, 0x0B9, 0x240, 0x280, 0x341] ∧ 0x040 ≤ off.toNat ∧ tblAt page.toNat (off.toNat / 4 * 4) = none) ∧
    (∃ page off : BitVec 12, ∃ s : State, s.Inv ∧ s.dev.pageLive page.toNat = true ∧ s.dev.pageInTest page.toNat = false ∧
    page.toNat ∈ [0x004, 0x011, 0x018, 0x032, 0x040, 0x042, 0x091, 0x094, 0x0A0, 0x0A1, 0x0B9, 0x240, 0x280, 0x341] ∧ 0x040 ≤ off.toNat ∧ tblAt page.toNat (off.toNat / 4 * 4) = none) :=
  ⟨⟨0x042, 0x043, running [], by decide⟩,
    ⟨0x091, 0x060, runningWith [] fun d => d.setHdr 0x091 { d.hdr 0x091 with cstate := .armed }, by decide⟩,
    ⟨0x341, 0xFFF, running [], by decide⟩⟩

/-- States and operands that meet the hypotheses of each clause of EventSummariesAndForce. -/
theorem test_witness_EventSummariesAndForce :
    (∃ s : State, s.Inv ∧ s.dev.pageLive 0x021 = true) ∧
    (∃ s : State, s.Inv ∧ s.dev.pageLive 0x020 = true) :=
  ⟨⟨runningWith [] fun d => { d with ev := { d.ev with groups := [(3, ⟨7, 0, 0⟩)] } }, by decide⟩,
    ⟨running [], by decide⟩⟩

/-- States and operands that meet the hypotheses of each clause of CounterDataPages. -/
theorem test_witness_CounterDataPages :
    (∃ k : Fin 256, ∃ s : State, s.dev.pageLive (0x400 + k.val) = true ∧ s.dev.userPage k = true) ∧
    (∃ k : Fin 256, ∃ s : State, s.dev.pageLive (0x400 + k.val) = true ∧ s.dev.userPage k = false) ∧
    (∃ k : Fin 256, ∃ s : State, s.Inv ∧ s.dev.pageLive (0x400 + k.val) = true) ∧
    (∃ k : Fin 256, ∃ s : State, s.Inv ∧ s.dev.pageLive (0x400 + k.val) = true) ∧
    (∃ k : Fin 256, ∃ s : State, s.Inv ∧ s.dev.pageLive (0x400 + k.val) = true) :=
  ⟨⟨1, running [(Reg.USER_EN_EN 0, 2)], by decide⟩,
    ⟨255, running [], by decide⟩,
    ⟨7, running [], by decide⟩,
    ⟨255, running [], by decide⟩,
    ⟨0, running [], by decide⟩⟩

/-- States and operands that meet the hypotheses of each clause of PopsBeyondTheHead. -/
theorem test_witness_PopsBeyondTheHead :
    (∃ q : Fin 32, ∃ s : State, s.Inv ∧ s.dev.on Reg.STRAPS_CHAIN_HEAD = false ∧ s.dev.pageLive 0x043 = true ∧ s.dev.on (Reg.Q_CFG_EN q) = true ∧
    s.dev.on (Reg.Q_CFG_CONSUMER q) = false ∧ s.dev.on (Reg.Q_STAT_STALLING q) = false ∧ s.dev.later.all (fun x => decide (x.page ≠ 0x042)) = true ∧ (s.dev.qu q).waiting = []) ∧
    (∃ q : Fin 32, ∃ s : State, s.Inv ∧ s.dev.on Reg.STRAPS_CHAIN_HEAD = false ∧ s.dev.pageLive 0x043 = true ∧ s.dev.on (Reg.Q_CFG_EN q) = true ∧
    s.dev.on (Reg.Q_CFG_CONSUMER q) = false ∧ s.dev.on (Reg.Q_STAT_STALLING q) = false ∧ s.dev.later.all (fun x => decide (x.page ≠ 0x042)) = true ∧ (bestItem (s.dev.qu q).waiting).isSome = true ∧ (s.dev.freeSlot q).isSome = true) :=
  ⟨⟨5, runningWith [(Reg.Q_CFG_EN 5, 1), (Reg.Q_CFG_CAP_KIB 5, 4), (Reg.Q_LAND_SLOTS_M1 5, 3), (Reg.Q_LAND_OFFSET 5, 4096)] fun d => d.setQu 5 { d.qu 5 with arrivals := 7 }, by decide⟩,
    ⟨5, runningWith [(Reg.Q_CFG_EN 5, 1), (Reg.Q_CFG_CAP_KIB 5, 4), (Reg.Q_LAND_SLOTS_M1 5, 3), (Reg.Q_LAND_OFFSET 5, 4096)] fun d => d.setQu 5 { d.qu 5 with waiting := [⟨1, 3, 0, false, 77, 4, [1, 2, 3]⟩] }, by decide⟩⟩

/-- States and operands that meet the hypotheses of each clause of ShedAndCaptureCommandsComplete. -/
theorem test_witness_ShedAndCaptureCommandsComplete :
    (∃ q : Fin 220, ∃ s : State, s.Inv ∧ s.dev.hubOn = true ∧ writerCannotWait q = true) ∧
    (∃ q : Fin 220, ∃ s : State, s.Inv ∧ s.dev.hubOn = true ∧ writerCannotWait q = true) ∧
    (∃ q : Fin 220, ∃ s : State, s.Inv ∧ s.dev.hubOn = true ∧ readerCannotWait q = true) ∧
    (∃ q : Fin 220, ∃ s : State, s.Inv ∧ s.dev.hubOn = true ∧ readerCannotWait q = true) ∧
    (∃ s : State, s.Inv ∧ s.dev.pageLive (0x00E) = true ∧ s.dev.pageInTest (0x00E) = false) ∧
    (∃ s : State, s.Inv ∧ s.dev.pageLive (0x00F) = true ∧ s.dev.pageInTest (0x00F) = false) ∧
    (∃ s : State, s.Inv ∧ s.dev.hubOn = true) ∧
    (∃ s : State, s.Inv ∧ s.dev.hubOn = true) ∧
    (∃ k : Fin 4, ∃ s : State, s.Inv ∧ s.dev.hubOn = true ∧ s.dev.lineOn (2 * k.val) = true) ∧
    (∃ v : Word, ∃ s : State, s.Inv ∧ s.dev.pageLive (capPage) = true ∧ s.dev.pageInTest (capPage) = false ∧ v.getLsbD 3 = false ∧ (s.dev.writeWord capPage 0x054 0xC (v ||| 4)).rd Reg.CAP_TRIG_SOURCE = 0) ∧
    (∃ e : Nat × Nat × Nat, ∃ s : State, s.Inv ∧ s.dev.ev.capDue = some e) ∧
    (∃ s : State, s.Inv ∧ s.dev.on Reg.CAP_TRIG_TENABLE = true ∧ s.dev.rd Reg.CAP_TRIG_SOURCE = 2) ∧
    (∃ v : Word, ∃ s : State, s.Inv ∧ s.dev.pageLive (capPage) = true ∧ s.dev.pageInTest (capPage) = false ∧ v.getLsbD 2 = false) ∧
    (∃ v : Word, ∃ s : State, s.Inv ∧ s.dev.pageLive (capPage) = true ∧ s.dev.pageInTest (capPage) = false ∧ v.getLsbD 2 = false) ∧
    (∃ n : Fin 8, ∃ v : Word, ∃ s : State, s.Inv ∧ s.dev.pageLive (linePage n 0x0E) = true ∧ s.dev.pageInTest (linePage n 0x0E) = false ∧ v.getLsbD 1 = false) ∧
    (∃ n : Fin 8, ∃ s : State, s.Inv ∧ s.dev.pageLive (linePage n 0x0E) = true ∧ s.dev.pageInTest (linePage n 0x0E) = false) ∧
    (∃ n : Fin 8, ∃ late : Nat, ∃ r : CapRun, ∃ s : State, s.Inv ∧ (s.dev.cpe n).run = some r ∧ r.started = false ∧ r.decimated = false ∧ s.dev.on (Reg.RX_SAMP_STAT_PLL_LOCK n) = true ∧ late * s.dev.rd (Reg.RX_SAMP_STAT_FS_MSPS n) < 65536000) ∧
    (∃ n : Fin 8, ∃ samples : List Byte, ∃ r : CapRun, ∃ s : State, s.Inv ∧ (s.dev.cpe n).run = some r ∧ r.started = true ∧ r.decimated = false ∧ samples.length = 4 * r.length) ∧
    (∃ n : Fin 8, ∃ samples : List Byte, ∃ r : CapRun, ∃ s : State, s.Inv ∧ (s.dev.cpe n).run = some r ∧ r.started = true ∧ r.decimated = true ∧ samples.length = 4 * r.length) ∧
    (∃ n : Fin 8, ∃ r : CapRec, ∃ rest : List CapRec, ∃ s : State, s.Inv ∧ (s.dev.cpe n).drains = r :: rest) :=
  ⟨⟨3, running [], by decide⟩,
    ⟨190, running [], by decide⟩,
    ⟨15, running [], by decide⟩,
    ⟨215, running [], by decide⟩,
    ⟨running [(Reg.LEVEL_HWM 7, 60)], by decide⟩,
    ⟨running [(Reg.REQ_THERM_STEP, 2)], by decide⟩,
    ⟨running [(Reg.ACTIVE_STEP, 8), (Reg.PARSE_BE_SHARE, 16)], by decide⟩,
    ⟨running [(Reg.PARSE_BE_SHARE, 3)], by decide⟩,
    ⟨2, running [], by decide⟩,
    ⟨0, running [(Reg.RX_CAP_STAT_ARMED 3, 1), (Reg.RX_CAP_CTRL_ARM 3, 1), (Reg.CAP_BUF_SIZE_GB, 4), (Reg.RX_CAP_CTRL_LENGTH_KI 3, 2), (Reg.RX_CAP_STAT_ARMED 5, 1), (Reg.RX_CAP_STAT_BUSY 5, 1)], by decide⟩,
    ⟨(77, 4, 9), runningWith [(Reg.RX_CAP_STAT_ARMED 3, 1), (Reg.RX_CAP_CTRL_ARM 3, 1), (Reg.CAP_BUF_SIZE_GB, 4), (Reg.RX_CAP_CTRL_LENGTH_KI 3, 2), (Reg.RX_CAP_STAT_ARMED 5, 1), (Reg.RX_CAP_STAT_BUSY 5, 1)] fun d => { d with ev := { d.ev with capDue := some (77, 4, 9) } }, by decide⟩,
    ⟨running [(Reg.CAP_TRIG_TENABLE, 1), (Reg.CAP_TRIG_SOURCE, 2), (Reg.RX_CAP_STAT_ARMED 3, 1), (Reg.RX_CAP_CTRL_ARM 3, 1), (Reg.CAP_BUF_SIZE_GB, 4), (Reg.RX_CAP_CTRL_LENGTH_KI 3, 2), (Reg.RX_CAP_STAT_ARMED 5, 1), (Reg.RX_CAP_STAT_BUSY 5, 1)], by decide⟩,
    ⟨2, running [], by decide⟩,
    ⟨2, running [(Reg.CAP_TRIG_TIME_HI_SEC, 1)], by decide⟩,
    ⟨4, 0, running [], by decide⟩,
    ⟨0, running [(Reg.RX_CAP_STAT_ARMED 0, 1), (Reg.RX_CAP_STAT_MISSED 0, 1)], by decide⟩,
    ⟨0, 3, ⟨false, 0, 5, 100, 0, false, 0, 0⟩, runningWith [(Reg.RX_SAMP_STAT_PLL_LOCK 0, 1), (Reg.RX_SAMP_STAT_FS_MSPS 0, 200000)] fun d => d.setCpe 0 ⟨some ⟨false, 0, 5, 100, 0, false, 0, 0⟩, [], 0⟩, by decide⟩,
    ⟨0, [1, 2, 3, 4], ⟨false, 0, 1, 100, 0, true, 0, 0⟩, runningWith [(Reg.CAP_BUF_SIZE_GB, 4)] fun d => d.setCpe 0 ⟨some ⟨false, 0, 1, 100, 0, true, 0, 0⟩, [], 0⟩, by decide⟩,
    ⟨0, [1, 2, 3, 4], ⟨true, 2, 1, 100, 0, true, 0, 0⟩, runningWith [(Reg.CAP_BUF_SIZE_GB, 4)] fun d => d.setCpe 0 ⟨some ⟨true, 2, 1, 100, 0, true, 0, 0⟩, [], 0⟩, by decide⟩,
    ⟨2, ⟨3, 0, false, 0, 16, 5, 320, -4, 0, [1, 2, 3, 4]⟩, [], runningWith [] fun d => d.setCpe 2 ⟨none, [⟨3, 0, false, 0, 16, 5, 320, -4, 0, [1, 2, 3, 4]⟩], 0⟩, by decide⟩⟩

end Sys2Proof.Tests
end

section
namespace Sys2Proof.Machine

theorem Dev.Kin.of_words {d e : Dev} (hw : ∀ c, e.word c = d.word c) (ho : e.others = d.others) (ht : e.tables = d.tables)
    (he : e.ev = d.ev := by rfl) : Dev.Kin [] d e :=
  Dev.Kin.of_groups (fun c _ => hw c) ho (fun g => by rw [he]) ht (by rw [he])

theorem tables_wr_low (d : Dev) (f : Field) (v : Nat) (h : f.cell < 0x1000000) : (d.wr f v).tables = d.tables :=
  tables_setWord_low d _ h

theorem Dev.Kin.wr_wr_comm (d : Dev) {f g : Field} (a b : Nat) (hfg : f.cell ≠ g.cell) (hf : f.cell < 0x1000000) (hg : g.cell < 0x1000000) :
    Dev.Kin [] ((d.wr f a).wr g b) ((d.wr g b).wr f a) := by
  refine Dev.Kin.of_words (fun c => ?_) rfl ?_
  · simp only [word_wr, hfg, hfg.symm, if_false]
    by_cases h : c = f.cell
    · rw [if_pos h, if_neg (h ▸ hfg), if_pos h]
    · rw [if_neg h, if_neg h]
  · rw [tables_wr_low _ _ _ hf, tables_wr_low _ _ _ hg, tables_wr_low _ _ _ hg, tables_wr_low _ _ _ hf]

theorem regAt_clipThr (n : Fin 8) :
    regAt (linePage n 5) 0x048 = some (n.val, 0, ⟨0x048, 1, 4, [⟨0, 16, .rw, .hub, 1024, 0, 0⟩, ⟨31, 1, .wo, .hub, 0, 0, 0⟩]⟩) := by
  revert n; decide

/-- The word that TX_CLIP_CLEAR writes: the threshold, and CLEAR. -/
abbrev clipWord (v : BitVec 16) : Word := BitVec.ofNat 32 v.toNat ||| 0x80000000#32

theorem clipWord_clear (v : BitVec 16) : (clipWord v).getLsbD 31 = true := by
  simp [clipWord]

theorem getBits_clipWord (v : BitVec 16) : getBits (clipWord v) 0 16 = v.toNat := by
  have hv := v.isLt
  simp only [getBits, clipWord, BitVec.toNat_or, BitVec.toNat_ofNat, Nat.shiftRight_zero, Nat.or_mod_two_pow]
  rw [Nat.mod_mod_of_dvd _ (by decide), Nat.mod_eq_of_lt hv]
  simp

theorem clipWord_reserved (v : BitVec 16) : clipWord v &&& 0x7FFF0000#32 = 0 := by
  apply BitVec.eq_of_getLsbD_eq
  intro i hi
  simp only [clipWord, BitVec.getLsbD_and, BitVec.getLsbD_or, BitVec.getLsbD_ofNat _ v.toNat]
  rw [← BitVec.getLsbD]
  by_cases h : i < 16
  · have : (0x7FFF0000#32).getLsbD i = false := by interval_cases i <;> rfl
    simp [this]
  · rw [BitVec.getLsbD_of_ge v i (by omega), Bool.and_false, Bool.false_or, ← BitVec.getLsbD_and]
    rfl

/-- A write of TX_CLIP_THR with CLEAR sets the threshold, and no reserved bit. -/
theorem writeWord_clipThr (d : Dev) (n : Fin 8) (v : BitVec 16) :
    d.writeWord (linePage n 5) 0x048 0x80000000 (clipWord v) = d.wr (Reg.TX_CLIP_THR_THRESHOLD n) v.toNat := by
  have hfs : ([⟨0, 16, .rw, .hub, 1024, 0, 0⟩, ⟨31, 1, .wo, .hub, 0, 0, 0⟩] : List FieldSpec).filter (fun f => f.mask &&& 0x80000000 = 0) =
      [⟨0, 16, .rw, .hub, 1024, 0, 0⟩] := by decide
  have hm : ~~~ namedBits [⟨0, 16, .rw, .hub, 1024, 0, 0⟩, ⟨31, 1, .wo, .hub, 0, 0, 0⟩] = 0x7FFF0000#32 := by decide
  have hp : linePage n 5 = 0x105 + 32 * n := by simp only [linePage]; omega
  simp only [Dev.writeWord, regAt_clipThr, hfs, hm, clipWord_reserved]
  simp [takeField_rw, getBits_clipWord, hp]

theorem not_overflowCell_linePage (n : Fin 8) (k off : Nat) : ¬ overflowCell (regCell (linePage n k) off) := by
  simp only [overflowCell, regCell, linePage]
  omega

/-- A write of TX_CLIP_THR with CLEAR sets the threshold and takes the counter to 0 (R56). -/
theorem Dev.Kin.txClipThr {d : Dev} (n : Fin 8) (v : BitVec 16) (hl : d.pageLive (linePage n 5) = true)
    (ht : d.pageInTest (linePage n 5) = false) :
    Dev.Kin [] ((d.wr (Reg.TX_CLIP_CNT n) 0).wr (Reg.TX_CLIP_THR_THRESHOLD n) v.toNat) (d.txClipThr n (clipWord v)) := by
  refine hostWrite_kin_of_le hl ht (not_overflowCell_linePage n 5 0x048) (fun e he => ?_) (Nat.le_succ _)
  rw [writeWord_clipThr] at he
  rw [if_pos (clipWord_clear v)]
  refine (Dev.Kin.wr_wr_comm d _ _ ?_ ?_ ?_).trans_nil (he.wr 0 ?_) <;> simp only [overflowCell, regCell] <;> omega

/-- A coefficient written is the same in like devices. -/
theorem Dev.Kin.pdWrite {d e : Dev} (h : Dev.Kin [] d e) (n : Fin 8) (v : Word) : Dev.Kin [] (d.pdWrite n v) (e.pdWrite n v) := by
  have hc : ¬ overflowCell (Reg.TX_PD_ADDR_INDEX n).cell := by simp only [overflowCell, regCell]; omega
  have ht : e.txe n = d.txe n := by simp only [Dev.txe, h.toLike.part (fun x => x.tx) fun _ => rfl]
  have hs (x : TxEngine) : Dev.Kin [] (d.setTxe n x) (e.setTxe n x) :=
    h.map (Dev.setTxe n x) (fun _ => rfl) (fun _ => rfl) (fun _ => rfl) fun _ => rfl
  simp only [Dev.pdWrite, h.toLike.rd hc, ht]
  refine Dev.Kin.wr ?_ _ hc
  split
  · split
    · exact (hs _).viol _
    · exact hs _
  · exact h.viol _

/-- Beside its own effect a write of TX_PD_DATA counts accesses. -/
theorem settles_txPdDataWrite {n : Fin 8} {v : Word} {s : State} (hs : s.Inv) (hl : s.dev.pageLive (linePage n 4) = true)
    (ht : s.dev.pageInTest (linePage n 4) = false) :
    ∃ t, exec (.txPdDataWrite n v) s = .next t ∧ State.Settles [] (s.dev.pdWrite n v) s t := by
  refine settles_run hs (Dev.Kin.toLike (onHeldWrite_kin hl ht fun e he => he.pdWrite n v)) ?_ ?_ ?_ <;>
    simp only [Dev.pdWrite] <;> split <;> (try split) <;> rfl

/-- A command that takes the device to one like `d`, with nothing to store, settles. -/
theorem settles_next {evs : List (Nat × Nat)} {d e : Dev} {s : State} (hs : s.Inv) (h : Dev.Like evs d e)
    (ho : d.hbmOut = s.dev.hbmOut) (hi : d.integ.raw = s.dev.integ.raw) (ha : d.accessor = s.dev.accessor) :
    ∃ t, (.next (s.become e) : Out) = .next t ∧ State.Settles evs d s t :=
  settles_run (f := fun _ => e) hs h ho hi ha

/-- Settles O3. -/
theorem transmitClippingAndPredistortion : Obligations.TransmitClippingAndPredistortion := by
  unfold Obligations.TransmitClippingAndPredistortion
  refine ⟨fun n clipped s hs => ?_, fun n v s hs hl ht => ?_, fun n v s hs hl ht hi => ?_, fun n v s hs hl ht hi => ?_⟩
  · have h := Dev.Kin.raiseIf (s.dev.bumpBy (Reg.TX_CLIP_CNT n) clipped)
      (decide (clipped > s.dev.rd (Reg.TX_CLIP_THR_THRESHOLD n))) (10 + n) 3
    simp only [decide_eq_true_eq] at h
    exact settles_next hs h.toLike rfl rfl rfl
  · exact settles_run hs (Dev.Kin.txClipThr n v hl ht).toLike rfl rfl rfl
  · have h := settles_txPdDataWrite (v := v) hs hl ht
    simp only [Dev.pdWrite, if_pos hi] at h
    by_cases hr : getBits v 18 14 = 0
    · simpa only [hr, ne_eq, not_true_eq_false, if_false] using h
    · simp only [hr, ne_eq, not_false_eq_true, if_true] at h ⊢
      exact h
  · have h := settles_txPdDataWrite (v := v) hs hl ht
    simpa only [Dev.pdWrite, if_neg (Nat.not_lt.mpr hi)] using h
end Sys2Proof.Machine
end

section
namespace Sys2Proof.Machine

/-! ### Fields that lie apart -/

/-- Two fields of a word share no bit. -/
abbrev FieldSpec.Apart (f g : FieldSpec) : Prop :=
  g.lsb + g.width ≤ f.lsb ∨ f.lsb + f.width ≤ g.lsb

/-- The fields of a register lie within its word, apart from each other. -/
def FieldsApart (fs : List FieldSpec) : Prop :=
  (∀ f ∈ fs, f.lsb + f.width ≤ 32) ∧ fs.Pairwise FieldSpec.Apart

theorem getBits_congr {a b : Word} {l k : Nat} (h : ∀ i < k, a.getLsbD (l + i) = b.getLsbD (l + i)) : getBits a l k = getBits b l k := by
  apply Nat.eq_of_testBit_eq
  intro i
  rw [testBit_getBits, testBit_getBits]
  by_cases hi : i < k
  · rw [h i hi]
  · simp [hi]

/-- The bits of a field within its own mask. -/
theorem mask_own {f : FieldSpec} (hf : f.lsb + f.width ≤ 32) {i : Nat} (hi : i < f.width) : f.mask.getLsbD (f.lsb + i) = true := by
  rw [FieldSpec.mask, getLsbD_bitMask _ _ _ (by omega)]
  simp [hi]

/-- The bits of a field within the mask of one apart from it. -/
theorem mask_apart {f g : FieldSpec} (h : f.Apart g) (hg : g.lsb + g.width ≤ 32) {i : Nat} (hi : i < g.width) :
    f.mask.getLsbD (g.lsb + i) = false := by
  rw [FieldSpec.mask, getLsbD_bitMask _ _ _ (by omega), Bool.and_eq_false_iff]
  simp only [decide_eq_false_iff_not]
  omega

theorem FieldSpec.Apart.symm {f g : FieldSpec} (h : f.Apart g) : g.Apart f :=
  Or.symm h

theorem getLsbD_namedBits (fs : List FieldSpec) (i : Nat) : (namedBits fs).getLsbD i = fs.any fun f => f.mask.getLsbD i := by
  have h (fs : List FieldSpec) (m : Word) : (fs.foldl (fun m f => m ||| f.mask) m).getLsbD i = (m.getLsbD i || fs.any fun f => f.mask.getLsbD i) := by
    induction fs generalizing m with
    | nil => simp
    | cons f fs ih => simp [ih, Bool.or_assoc]
  simpa [namedBits] using h fs 0

theorem FieldsApart.apart {fs : List FieldSpec} (h : FieldsApart fs) {f g : FieldSpec} (hf : f ∈ fs) (hg : g ∈ fs) (hne : f ≠ g) : f.Apart g :=
  haveI : Std.Symm FieldSpec.Apart := ⟨fun _ _ => FieldSpec.Apart.symm⟩
  h.2.forall hf hg hne

/-- A field that can be read is read as the word has it. -/
theorem getBits_readBits {fs : List FieldSpec} (h : FieldsApart fs) {f : FieldSpec} (hf : f ∈ fs) (hw : f.acc ≠ .wo) (w : Word) :
    getBits (w &&& readBits fs) f.lsb f.width = getBits w f.lsb f.width := by
  refine getBits_congr fun i hi => ?_
  have : (readBits fs).getLsbD (f.lsb + i) = true := by
    rw [readBits, getLsbD_namedBits, List.any_eq_true]
    exact ⟨f, List.mem_filter.mpr ⟨hf, by simpa using hw⟩, mask_own (h.1 f hf) hi⟩
  rw [BitVec.getLsbD_and, this, Bool.and_true]

/-- A WO field reads 0. -/
theorem getBits_readBits_wo {fs : List FieldSpec} (h : FieldsApart fs) {f : FieldSpec} (hf : f ∈ fs) (hw : f.acc = .wo) (w : Word) :
    getBits (w &&& readBits fs) f.lsb f.width = 0 := by
  have hz : getBits (0 : Word) f.lsb f.width = 0 := by simp [getBits]
  rw [← hz]
  refine getBits_congr fun i hi => ?_
  have : (readBits fs).getLsbD (f.lsb + i) = false := by
    rw [readBits, getLsbD_namedBits, List.any_eq_false]
    intro g hg
    obtain ⟨hg, hgw⟩ := List.mem_filter.mp hg
    have hne : g ≠ f := fun e => by simp [e, hw] at hgw
    rw [mask_apart (h.apart hg hf hne) (h.1 f hf) hi]
    simp
  rw [BitVec.getLsbD_and, this, Bool.and_false]
  simp

/-- Reserved bits read 0. -/
theorem readBits_reserved (fs : List FieldSpec) (w : Word) : w &&& readBits fs &&& ~~~ namedBits fs = 0 := by
  apply BitVec.eq_of_getLsbD_eq
  intro i hi
  rw [BitVec.getLsbD_and, BitVec.getLsbD_and, BitVec.getLsbD_not, readBits, getLsbD_namedBits, getLsbD_namedBits]
  cases h : fs.any fun f => f.mask.getLsbD i
  · have : (fs.filter fun f => decide (f.acc ≠ .wo)).any (fun f => f.mask.getLsbD i) = false := by
      rw [List.any_eq_false] at h ⊢
      exact fun f hf => h f (List.mem_filter.mp hf).1
    rw [this]
    simp
  · simp

/-! ### A word taken field by field -/

@[simp] theorem takeField_hdr (d : Dev) (page c : Nat) (v : Word) (f : FieldSpec) (p : Nat) : (d.takeField page c v f).hdr p = d.hdr p := by
  unfold Dev.takeField
  cases f.acc <;> dsimp only <;> (try split) <;> rfl

/-- A field apart from the one that is taken stays, in force and in its shadow. -/
theorem takeField_apart (d : Dev) (page c : Nat) (v : Word) {f g : FieldSpec} (h : f.Apart g) (hg : g.lsb + g.width ≤ 32) :
    (d.takeField page c v f).rd (g.at c) = d.rd (g.at c) ∧ (d.takeField page c v f).sh (g.at c) = d.sh (g.at c) := by
  have hm {i : Nat} (hi : i < g.width) : f.mask.getLsbD (g.lsb + i) = false := mask_apart h hg hi
  have hlt {i : Nat} (hi : i < g.width) : g.lsb + i < 32 := by omega
  unfold Dev.takeField
  cases f.acc <;> dsimp only
  case rwa =>
    split
    · refine ⟨rfl, ?_⟩
      simp only [Dev.sh, Dev.setShadow, sget_sset_same]
      exact getBits_congr fun i hi => by simp [-BitVec.getLsbD_eq_getElem, hm hi, hlt hi]
    · exact ⟨rfl, rfl⟩
  case ro => exact ⟨rfl, rfl⟩
  case wo => exact ⟨rfl, rfl⟩
  all_goals
    refine ⟨?_, rfl⟩
    simp only [Dev.rd, word_setWord_same]
    exact getBits_congr fun i hi => by simp [-BitVec.getLsbD_eq_getElem, hm hi, hlt hi]

/-- What a write of `v` to the word at cell `c` of a page makes of a field of it, from device `d` to `e` (Table 0.4). -/
def FieldSpec.Taken (page c : Nat) (v : Word) (d e : Dev) (f : FieldSpec) : Prop :=
  match f.acc with
  | .rw => e.rd (f.at c) = getBits v f.lsb f.width
  | .w1c => e.rd (f.at c) = getBits (d.word c &&& ~~~ v) f.lsb f.width
  | .w1s => e.rd (f.at c) = getBits (d.word c ||| v) f.lsb f.width
  | .ro => e.rd (f.at c) = d.rd (f.at c)
  | .wo => True
  | .rwa => e.rd (f.at c) = d.rd (f.at c) ∧
      e.sh (f.at c) = if (d.hdr page).cstate = .opened then getBits v f.lsb f.width else d.sh (f.at c)

theorem takeField_taken (d : Dev) (page c : Nat) (v : Word) {f : FieldSpec} (hf : f.lsb + f.width ≤ 32) :
    f.Taken page c v d (d.takeField page c v f) := by
  have hm {i : Nat} (hi : i < f.width) : f.mask.getLsbD (f.lsb + i) = true := mask_own hf hi
  have hlt {i : Nat} (hi : i < f.width) : f.lsb + i < 32 := by omega
  unfold FieldSpec.Taken Dev.takeField
  cases f.acc <;> dsimp only
  case rwa =>
    split
    · refine ⟨rfl, ?_⟩
      simp only [Dev.sh, Dev.setShadow, sget_sset_same]
      exact getBits_congr fun i hi => by simp [-BitVec.getLsbD_eq_getElem, hm hi, hlt hi]
    · exact ⟨rfl, rfl⟩
  all_goals
    simp only [Dev.rd, word_setWord_same]
    exact getBits_congr fun i hi => by simp [-BitVec.getLsbD_eq_getElem, hm hi, hlt hi]

/-- A field keeps what was taken where both devices change elsewhere. -/
theorem FieldSpec.Taken.of_same {page c : Nat} {v : Word} {d e d' e' : Dev} {f : FieldSpec} (h : f.Taken page c v d e)
    (hd : d'.rd (f.at c) = d.rd (f.at c)) (hds : d'.sh (f.at c) = d.sh (f.at c)) (hh : d'.hdr page = d.hdr page)
    (he : e'.rd (f.at c) = e.rd (f.at c)) (hes : e'.sh (f.at c) = e.sh (f.at c)) : f.Taken page c v d' e' := by
  have hbit (i : Nat) (hi : i < f.width) : (d'.word c).getLsbD (f.lsb + i) = (d.word c).getLsbD (f.lsb + i) := by
    have := congrArg (Nat.testBit · i) hd
    simpa [Dev.rd, testBit_getBits, hi] using this
  unfold FieldSpec.Taken at h ⊢
  cases hf : f.acc <;> rw [hf] at h <;> dsimp only at h ⊢
  case rw => rw [he, h]
  case ro => rw [he, h, hd]
  case rwa => rw [he, hes, h.1, h.2, hd, hds, hh]; exact ⟨rfl, rfl⟩
  case w1c => rw [he, h]; exact getBits_congr fun i hi => by rw [BitVec.getLsbD_and, BitVec.getLsbD_and, hbit i hi]
  case w1s => rw [he, h]; exact getBits_congr fun i hi => by rw [BitVec.getLsbD_or, BitVec.getLsbD_or, hbit i hi]

/-- The fields of a register taken from a written word. -/
abbrev Dev.takeAll (page c : Nat) (v : Word) (fs : List FieldSpec) (d : Dev) : Dev :=
  fs.foldl (fun d f => d.takeField page c v f) d

theorem takeAll_apart (page c : Nat) (v : Word) {fs : List FieldSpec} {g : FieldSpec} (h : ∀ f ∈ fs, f.Apart g) (hg : g.lsb + g.width ≤ 32) :
    ∀ d : Dev, (d.takeAll page c v fs).rd (g.at c) = d.rd (g.at c) ∧ (d.takeAll page c v fs).sh (g.at c) = d.sh (g.at c) := by
  induction fs with
  | nil => exact fun d => ⟨rfl, rfl⟩
  | cons f fs ih =>
    intro d
    obtain ⟨hr, hs⟩ := takeField_apart d page c v (h f List.mem_cons_self) hg
    obtain ⟨hr', hs'⟩ := ih (fun f hf => h f (List.mem_cons_of_mem _ hf)) (d.takeField page c v f)
    exact ⟨hr'.trans hr, hs'.trans hs⟩

/-- Every field of a register is taken by its access code (Table 0.4). -/
theorem takeAll_taken (page c : Nat) (v : Word) {fs : List FieldSpec} (h : FieldsApart fs) :
    ∀ (d : Dev), ∀ f ∈ fs, f.Taken page c v d (d.takeAll page c v fs) := by
  induction fs with
  | nil => exact fun _ _ hf => absurd hf List.not_mem_nil
  | cons f fs ih =>
    intro d g hg
    obtain ⟨hfit, hap⟩ := h
    obtain ⟨hf, hfs⟩ := List.pairwise_cons.mp hap
    rcases List.mem_cons.mp hg with rfl | hg
    · obtain ⟨hr, hs⟩ := takeAll_apart page c v (fun f hf' => (hf f hf').symm) (hfit g List.mem_cons_self) (d.takeField page c v g)
      exact (takeField_taken d page c v (hfit g List.mem_cons_self)).of_same rfl rfl rfl hr hs
    · obtain ⟨hr, hs⟩ := takeField_apart d page c v (hf g hg) (hfit g (List.mem_cons_of_mem _ hg))
      exact (ih ⟨fun f hf => hfit f (List.mem_cons_of_mem _ hf), hfs⟩ (d.takeField page c v f) g hg).of_same hr.symm hs.symm (by simp) rfl rfl

end Sys2Proof.Machine
end

section
namespace Sys2Proof.Machine

/-! ### A register write of a page that acts by its access codes alone -/

/-- What a read of a page and the count of its violations rest on is the same in both devices. -/
structure Dev.SameView (page : Nat) (d e : Dev) : Prop where
  word : ∀ c, c / 1024 = page → e.word c = d.word c
  shadow : e.shadow = d.shadow
  pages : e.pages = d.pages
  live : e.pageLive page = d.pageLive page
  inTest : e.pageInTest page = d.pageInTest page
  accessor : e.accessor = d.accessor

theorem Dev.SameView.trans {page : Nat} {d e f : Dev} (h : Dev.SameView page d e) (k : Dev.SameView page e f) : Dev.SameView page d f where
  word c hc := (k.word c hc).trans (h.word c hc)
  shadow := k.shadow.trans h.shadow
  pages := k.pages.trans h.pages
  live := k.live.trans h.live
  inTest := k.inTest.trans h.inTest
  accessor := k.accessor.trans h.accessor

theorem Dev.SameView.of_like {page : Nat} {d e : Dev} {a : List (Nat × Nat)} (h : Dev.Like a d e) (hp : page ≠ 0x031) : Dev.SameView page d e where
  word c hc := h.word (by simp only [overflowCell, regCell]; omega)
  shadow := h.shadow
  pages := h.part (fun x => x.pages) fun _ => rfl
  live := h.pageLive page
  inTest := h.pageInTest page
  accessor := h.part (fun x => x.accessor) fun _ => rfl

theorem Dev.SameView.hdr {page : Nat} {d e : Dev} (h : Dev.SameView page d e) (p : Nat) : e.hdr p = d.hdr p := by
  simp only [Dev.hdr, h.pages]

theorem Dev.SameView.rd {page : Nat} {d e : Dev} (h : Dev.SameView page d e) {f : Field} (hf : f.cell / 1024 = page) : e.rd f = d.rd f := by
  simp only [Dev.rd, h.word _ hf]

theorem Dev.SameView.sh {page : Nat} {d e : Dev} (h : Dev.SameView page d e) (f : Field) : e.sh f = d.sh f := by
  simp only [Dev.sh, h.shadow]

/-- The end of a command leaves what a read rests on. -/
theorem Dev.SameView.flushed (page : Nat) {d : Dev} (ha : d.accessor = .host) : Dev.SameView page d d.flushed := by
  refine ⟨fun _ _ => rfl, rfl, rfl, ?_, rfl, ha.symm⟩
  have : d.flushed.hostGone = d.hostGone := by simp [Dev.hostGone, Dev.flushed, ha]
  simp only [Dev.pageLive, this]
  rfl

theorem Dev.SameView.foldl {α : Type} {page : Nat} {f : Dev → α → Dev} (h : ∀ d x, Dev.SameView page d (f d x)) (l : List α) (d : Dev) :
    Dev.SameView page d (l.foldl f d) := by
  induction l generalizing d with
  | nil => exact ⟨fun _ _ => rfl, rfl, rfl, rfl, rfl, rfl⟩
  | cons x l ih => exact (h d x).trans (ih _)

/-- Fingers given up change no page: ABANDONED is counted in its running counter. -/
theorem Dev.SameView.abandonPath (page path : Nat) (hp : page < 4096) (d : Dev) : Dev.SameView page d (d.abandonPath path) := by
  refine Dev.SameView.foldl (fun d k => ?_) _ d
  split
  · have hw (c : Nat) (hc : c / 1024 < 4096) : (d.bumpBy Reg.ABANDONED.run 1).word c = d.word c :=
      word_wr_ne _ _ _ (by simp only [regCell]; omega)
    have hpwr : (d.bumpBy Reg.ABANDONED.run 1).pwr = d.pwr := congrArg (getBits · _ _) (hw _ (by decide))
    refine ⟨fun c hc => hw c (hc ▸ hp), rfl, rfl, ?_, rfl, rfl⟩
    have hh : (d.bumpBy Reg.ABANDONED.run 1).hubOn = d.hubOn := by
      simp only [Dev.hubOn, hpwr]
      rfl
    exact congrArg (fun b => pageAllocated page && d.pageEnabled page && (b || decide (page < 0x020)) && !d.hostGone) hh
  · exact ⟨fun _ _ => rfl, rfl, rfl, rfl, rfl, rfl⟩

/-! ### What a written word leaves -/

/-- A field that is taken reaches its register word and the shadows alone. -/
theorem takeField_shape (d : Dev) (page c : Nat) (v : Word) (f : FieldSpec) :
    ∃ r sh, d.takeField page c v f = { d with regs := r, shadow := sh } ∧ ∀ j ≠ c, sget resetWord r j = d.word j := by
  have hset (w : Word) : ∃ r sh, d.setWord c w = { d with regs := r, shadow := sh } ∧ ∀ j ≠ c, sget resetWord r j = d.word j :=
    ⟨_, _, rfl, fun _ hj => word_setWord_ne d w hj⟩
  have hstay : ∃ r sh, d = { d with regs := r, shadow := sh } ∧ ∀ j ≠ c, sget resetWord r j = d.word j := ⟨_, _, rfl, fun _ _ => rfl⟩
  unfold Dev.takeField
  cases f.acc with
  | rw => exact hset _
  | w1c => exact hset _
  | w1s => exact hset _
  | ro => exact hstay
  | wo => exact hstay
  | rwa =>
    dsimp only
    split
    · exact ⟨_, _, rfl, fun _ _ => rfl⟩
    · exact hstay

theorem takeAll_shape (page c : Nat) (v : Word) (fs : List FieldSpec) (d : Dev) :
    ∃ r sh, d.takeAll page c v fs = { d with regs := r, shadow := sh } ∧ ∀ j ≠ c, sget resetWord r j = d.word j := by
  induction fs generalizing d with
  | nil => exact ⟨_, _, rfl, fun _ _ => rfl⟩
  | cons f fs ih =>
    obtain ⟨r, sh, he, hw⟩ := takeField_shape d page c v f
    obtain ⟨r', sh', he', hw'⟩ := ih (d.takeField page c v f)
    refine ⟨r', sh', he'.trans (by rw [he]), fun j hj => (hw' j hj).trans ?_⟩
    rw [he]
    exact hw j hj

/-- A written word reaches its register word, the shadows and the page headers alone. -/
theorem writeWord_shape (d : Dev) (page off : Nat) (own v : Word) :
    ∃ r sh ps u, d.writeWord page off own v = { d with regs := r, shadow := sh, pages := ps, refused := u } ∧
      ∀ j ≠ regCell page off, sget resetWord r j = d.word j := by
  unfold Dev.writeWord
  dsimp only
  split
  · exact ⟨_, _, _, _, rfl, fun _ _ => rfl⟩
  · rename_i r _
    obtain ⟨r', sh', he, hw⟩ := takeAll_shape page (regCell page off) v (r.fields.filter fun f => f.mask &&& own = 0) d
    rw [Dev.takeAll] at he
    rw [he]
    split
    · exact ⟨_, _, _, _, rfl, hw⟩
    · exact ⟨_, _, _, _, rfl, hw⟩

theorem writeWord_part {α : Type} (p : Dev → α)
    (hp : ∀ (x : Dev) r sh ps u, p { x with regs := r, shadow := sh, pages := ps, refused := u } = p x) (d : Dev) (page off : Nat) (own v : Word) :
    p (d.writeWord page off own v) = p d := by
  obtain ⟨r, sh, ps, u, he, -⟩ := writeWord_shape d page off own v
  rw [he, hp]

/-- A written word leaves every other register word. -/
theorem writeWord_word_ne (d : Dev) {page off j : Nat} (own v : Word) (h : j ≠ regCell page off) :
    (d.writeWord page off own v).word j = d.word j := by
  obtain ⟨r, sh, ps, u, he, hw⟩ := writeWord_shape d page off own v
  rw [he]
  exact hw j h

/-- A written word of another page than PWR leaves which pages answer. -/
theorem pageLive_writeWord (d : Dev) {page off : Nat} (own v : Word) (h : Reg.PWR_STAT_STATE.cell ≠ regCell page off) (p : Nat) :
    (d.writeWord page off own v).pageLive p = d.pageLive p := by
  have hpwr : (d.writeWord page off own v).pwr = d.pwr := congrArg (getBits · _ _) (writeWord_word_ne d own v h)
  have hx := writeWord_part (fun x => x.power) (fun _ _ _ _ _ => rfl) d page off own v
  have hg := writeWord_part Dev.hostGone (fun _ _ _ _ _ => rfl) d page off own v
  have he := writeWord_part (fun x => x.pageEnabled p) (fun _ _ _ _ _ => rfl) d page off own v
  simp only [Dev.pageLive, Dev.pagePowered, Dev.hubOn, hpwr, hx, hg, he]

/-! ### The violations that a write counts -/

@[simp] theorem takeAll_hdr (page c : Nat) (v : Word) (fs : List FieldSpec) (d : Dev) (p : Nat) : (d.takeAll page c v fs).hdr p = d.hdr p := by
  induction fs generalizing d with
  | nil => rfl
  | cons f fs ih => exact (ih _).trans (takeField_hdr d page c v f p)

@[simp] theorem hdr_viol_same (d : Dev) (page : Nat) : ((d.viol page).hdr page) = { d.hdr page with viol := satAdd 32 (d.hdr page).viol 1 } := by
  simp [Dev.viol, Dev.setHdr, Dev.hdr]

theorem satAdd_one_le (w n : Nat) : satAdd w n 1 ≤ n + 1 :=
  Nat.min_le_left _ _

/-- A written word counts one violation of its page at most. -/
theorem viol_writeWord_le (d : Dev) (page off : Nat) (own v : Word) :
    ((d.writeWord page off own v).hdr page).viol ≤ (d.hdr page).viol + 1 := by
  unfold Dev.writeWord
  dsimp only
  split
  · rw [hdr_viol_same]; exact satAdd_one_le _ _
  · split
    · rw [hdr_viol_same, takeAll_hdr]; exact satAdd_one_le _ _
    · rw [takeAll_hdr]; exact Nat.le_succ _

/-- Whether a written word would change a shadow of a page that is not OPEN (R425). -/
def Dev.WriteLate (d : Dev) (page c : Nat) (v : Word) (fs : List FieldSpec) : Prop :=
  (d.hdr page).cstate ≠ .opened ∧ ∃ f ∈ fs, f.acc = .rwa ∧ d.sh (f.at c) ≠ getBits v f.lsb f.width

/-- A word written to a register whose command bits have no effect of their own. -/
theorem writeWord_plain (d : Dev) {page off i k : Nat} {r : RegSpec} (v : Word) (h : regAt page off = some (i, k, r)) :
    (v &&& ~~~ namedBits r.fields ≠ 0 ∨ d.WriteLate page (regCell page off) v r.fields →
      d.writeWord page off 0 v = (d.takeAll page (regCell page off) v r.fields).viol page) ∧
    (v &&& ~~~ namedBits r.fields = 0 ∧ ¬ d.WriteLate page (regCell page off) v r.fields →
      d.writeWord page off 0 v = d.takeAll page (regCell page off) v r.fields) := by
  have hall : (r.fields.filter fun f => f.mask &&& 0 = 0) = r.fields := List.filter_eq_self.mpr fun f _ => by simp
  have hlate : (decide ((d.hdr page).cstate ≠ .opened) && r.fields.any fun f =>
      decide (f.acc = .rwa) && d.shadowDiffers (regCell page off) v f) = true ↔ d.WriteLate page (regCell page off) v r.fields := by
    simp [Dev.WriteLate, Dev.shadowDiffers]
  unfold Dev.writeWord
  rw [h]
  dsimp only
  rw [hall]
  refine ⟨fun hv => if_pos (hv.imp_right hlate.mpr), fun hv => if_neg ?_⟩
  rintro (h | h)
  · exact h hv.1
  · exact hv.2 (hlate.mp h)

/-! ### The pages of AccessCodesOfFields -/

/-- Pages whose registers act by their access codes alone and whose reads are stored words. -/
abbrev codePages : List Nat := [0x004, 0x011, 0x018, 0x032, 0x040, 0x042, 0x091, 0x094, 0x0A0, 0x0A1, 0x0B9, 0x240, 0x280, 0x341]

theorem codePages_fields : ∀ page ∈ codePages, ∀ r ∈ (pageRegs page).2, FieldsApart r.fields := by
  simp only [FieldsApart]
  decide

theorem codePages_lt : ∀ page ∈ codePages, page < 4096 ∧ page ≠ 0x031 := by
  decide

theorem findReg_mem {rs : List RegSpec} {off k : Nat} {r : RegSpec} (h : findReg rs off = some (k, r)) : r ∈ rs := by
  induction rs with
  | nil => simp [findReg] at h
  | cons a rs ih =>
    simp only [findReg] at h
    split at h
    · simp only [Option.some.injEq, Prod.mk.injEq] at h
      exact h.2 ▸ List.mem_cons_self
    · exact List.mem_cons_of_mem _ (ih h)

theorem regAt_mem {page off i k : Nat} {r : RegSpec} (h : regAt page off = some (i, k, r)) : r ∈ (pageRegs page).2 := by
  simp only [regAt, Option.map_eq_some_iff, Prod.mk.injEq, Prod.exists] at h
  obtain ⟨k', r', hf, -, -, rfl⟩ := h
  exact findReg_mem hf

theorem blockWrite_codePages {mem : Nat → Nat → List Byte} {page off : Nat} (v : Word) (d : Dev) (hp : page ∈ codePages)
    (ht : tblAt page off = none) (h : page = 0x0A0 → off ≠ 0x040) : d.blockWrite mem page off v = d.plainWrite page off v := by
  unfold Dev.blockWrite
  rw [ht]
  fin_cases hp <;> simp [Dev.lowWrite, Dev.highWrite, Dev.restWrite, Dev.hostPageWrite, Dev.analogWrite]

theorem blockWrite_drCtrl (mem : Nat → Nat → List Byte) (v : Word) (d : Dev) : d.blockWrite mem 0x0A0 0x040 v = d.drCtrl v :=
  rfl

theorem busRead_codePages {page off : Nat} {d : Dev} (hp : page ∈ codePages) (hl : d.pageLive page = true) (ht : d.pageInTest page = false)
    (ho : 0x040 ≤ off) : d.busRead page off = d.storedRead page off := by
  have ho' : ¬ off < 0x040 := Nat.not_lt.mpr ho
  simp only [Dev.busRead, Dev.asIsolated, hl, ht, ho', Bool.and_false]
  fin_cases hp <;> simp [Dev.lowRead, Dev.highRead]

section Write
variable {mem : Nat → Nat → List Byte} {page off : Nat} {d : Dev} (v : Word) (hp : page ∈ codePages)
  (ho : off < 4096) (hl : d.pageLive page = true) (hi : d.pageInTest page = false)
include hp ho hl hi

theorem plainWrite_view : Dev.SameView page (d.writeWord page off 0 v) (d.plainWrite page off v) := by
  obtain ⟨-, hne⟩ := codePages_lt page hp
  have hc : ¬ overflowCell (regCell page off) := by simp only [overflowCell, regCell]; omega
  exact Dev.SameView.of_like (hostWrite_kin_of_le hl hi hc (fun _ he => he) (viol_writeWord_le d page off 0 v)).toLike hne

theorem blockWrite_view (ht : tblAt page off = none) : Dev.SameView page (d.writeWord page off 0 v) (d.blockWrite mem page off v) := by
  by_cases h : page = 0x0A0 ∧ off = 0x040
  · obtain ⟨rfl, rfl⟩ := h
    rw [blockWrite_drCtrl]
    have hw := plainWrite_view v hp ho hl hi
    unfold Dev.drCtrl
    dsimp only
    split
    · exact hw
    · exact hw.trans (Dev.SameView.foldl (fun d k => Dev.SameView.abandonPath _ k (by decide) d) _ _)
  · rw [blockWrite_codePages v d hp ht fun e he => h ⟨e, he⟩]
    exact plainWrite_view v hp ho hl hi

/-- What a register write of such a page leaves to be read is what its word's fields take. -/
theorem busWrite_view (ht : tblAt page off = none) (hblk : 0x040 ≤ off) :
    Dev.SameView page (d.writeWord page off 0 v) (d.busWrite mem page off v) := by
  have h := blockWrite_view (mem := mem) v hp ho hl hi ht
  unfold Dev.busWrite
  rw [if_neg (Nat.not_lt.mpr hblk), oneViol_of_le]
  · exact h
  · rw [h.hdr]
    exact viol_writeWord_le d page off 0 v

end Write

/-! ### The register write of AccessCodesOfFields -/

/-- What a read of a register with stored bits shows of a field: 0 of a WO field, else the field in force. -/
theorem shown_eq {d : Dev} {page off i k : Nat} {r : RegSpec} (hr : regAt page off = some (i, k, r)) (hfs : FieldsApart r.fields)
    {f : FieldSpec} (hf : f ∈ r.fields) :
    getBits (d.storedRead page off) f.lsb f.width = if f.acc = .wo then 0 else d.rd (f.at (regCell page off)) := by
  simp only [Dev.storedRead, hr]
  split
  · rename_i hw; exact getBits_readBits_wo hfs hf hw _
  · rename_i hw; exact getBits_readBits hfs hf hw _

section View
variable {page off i k : Nat} {r : RegSpec} {v : Word} {d e : Dev} (hv : Dev.SameView page (d.writeWord page off 0 v) e)
  (hr : regAt page off = some (i, k, r))
include hv hr

/-- What a field was taken as stands in force and in its shadow. -/
theorem taken_after (hp : page ∈ codePages) (ho : off < 4096) : ∀ f ∈ r.fields, f.Taken page (regCell page off) v d e := by
  intro f hf
  have hcell : regCell page off / 1024 = page := by simp only [regCell]; omega
  have ht := takeAll_taken page (regCell page off) v (codePages_fields page hp r (regAt_mem hr)) d f hf
  have he (g : Field) (hg : g.cell = regCell page off) : e.rd g = (d.takeAll page (regCell page off) v r.fields).rd g ∧
      e.sh g = (d.takeAll page (regCell page off) v r.fields).sh g := by
    rw [hv.rd (hg ▸ hcell), hv.sh]
    by_cases hc : v &&& ~~~ namedBits r.fields ≠ 0 ∨ d.WriteLate page (regCell page off) v r.fields
    · rw [(writeWord_plain d v hr).1 hc]; exact ⟨rfl, rfl⟩
    · rw [(writeWord_plain d v hr).2 ⟨not_not.mp fun h => hc (.inl h), fun h => hc (.inr h)⟩]; exact ⟨rfl, rfl⟩
  exact ht.of_same rfl rfl rfl (he _ rfl).1 (he _ rfl).2

theorem viol_after :
    (v &&& ~~~ namedBits r.fields ≠ 0 ∨ d.WriteLate page (regCell page off) v r.fields →
      (e.hdr page).viol = satAdd 32 (d.hdr page).viol 1) ∧
    (v &&& ~~~ namedBits r.fields = 0 ∧ ¬ d.WriteLate page (regCell page off) v r.fields →
      (e.hdr page).viol = (d.hdr page).viol) := by
  refine ⟨fun h => ?_, fun h => ?_⟩
  · rw [hv.hdr, (writeWord_plain d v hr).1 h, hdr_viol_same, takeAll_hdr]
  · rw [hv.hdr, (writeWord_plain d v hr).2 h, takeAll_hdr]

end View

section Read
variable {page off : Nat} {v : Word} {d e : Dev} (hp : page ∈ codePages) (ho : off < 4096) (hblk : 0x040 ≤ off)
  (hl : d.pageLive page = true) (hi : d.pageInTest page = false) (hv : Dev.SameView page (d.writeWord page off 0 v) e)
include hp ho hblk hl hi hv

/-- After a write the page reads its stored words. -/
theorem busRead_after : e.busRead page off = e.storedRead page off := by
  have hne : page ≠ 2 := fun e => absurd (e ▸ hp) (by decide)
  refine busRead_codePages hp ?_ ?_ hblk
  · rw [hv.live, pageLive_writeWord, hl]
    simp only [regCell]
    omega
  · rw [hv.inTest, ← hi]
    exact writeWord_part (fun x => x.pageInTest page) (fun _ _ _ _ _ => rfl) d page off 0 v

/-- A write of a reserved offset is counted, and the offset reads 0 (R424). -/
theorem reserved_after (hr : regAt page off = none) :
    e.busRead page off = 0 ∧ (e.hdr page).viol = satAdd 32 (d.hdr page).viol 1 := by
  refine ⟨by rw [busRead_after hp ho hblk hl hi hv, Dev.storedRead, hr], ?_⟩
  rw [hv.hdr, Dev.writeWord, hr, hdr_viol_same]

variable {i k : Nat} {r : RegSpec} (hr : regAt page off = some (i, k, r))
include hr

/-- Reserved bits of a register read 0 (R10). -/
theorem reservedBits_after : e.busRead page off &&& ~~~ namedBits r.fields = 0 := by
  rw [busRead_after hp ho hblk hl hi hv, Dev.storedRead, hr]
  exact readBits_reserved _ _

theorem shown_after {f : FieldSpec} (hf : f ∈ r.fields) :
    getBits (e.busRead page off) f.lsb f.width = if f.acc = .wo then 0 else e.rd (f.at (regCell page off)) := by
  rw [busRead_after hp ho hblk hl hi hv]
  exact shown_eq hr (codePages_fields page hp r (regAt_mem hr)) hf

end Read

/-- Settles O56. -/
theorem accessCodesOfFields : Obligations.AccessCodesOfFields := by
  unfold Obligations.AccessCodesOfFields
  intro page off v s hs hl hi hp hblk ht
  have hoff := off.isLt
  have ho : off.toNat / 4 * 4 < 4096 := by omega
  have hblk : 0x040 ≤ off.toNat / 4 * 4 := by omega
  have hv := busWrite_view (mem := s.bytes) v hp ho hl hi ht hblk
  have ha : (s.dev.writeWord page.toNat (off.toNat / 4 * 4) 0 v).accessor = .host :=
    (writeWord_part (fun x => x.accessor) (fun _ _ _ _ _ => rfl) s.dev _ _ _ _).trans hs.2.2.2.2
  have hv := hv.trans (Dev.SameView.flushed page.toNat (hv.accessor.trans ha))
  refine ⟨_, rfl, ?_⟩
  split
  · rename_i hr
    exact reserved_after hp ho hblk hl hi hv hr
  · rename_i r hr
    dsimp only
    refine ⟨fun f hf => ?_, reservedBits_after hp ho hblk hl hi hv hr, viol_after hv hr⟩
    have hshown := shown_after hp ho hblk hl hi hv hr hf
    have htaken := taken_after hv hr hp ho f hf
    unfold FieldSpec.Taken at htaken
    cases hf : f.acc <;> rw [hf] at hshown htaken
    case rw => exact ⟨htaken, hshown⟩
    case w1c => exact ⟨htaken, hshown⟩
    case w1s => exact ⟨htaken, hshown⟩
    case ro => exact ⟨htaken, hshown⟩
    case wo => exact hshown
    case rwa => exact ⟨htaken.1, hshown, htaken.2⟩

end Sys2Proof.Machine
end

section
namespace Sys2Proof.Machine
open Sys2Proof.Tests

/-! ### What a command that settles leaves to the device -/

/-- A device that a command settles to has nothing left to store. -/
theorem hbmOut_of_settles {evs : List (Nat × Nat)} {d u : Dev} {s : State} (h : State.Settles evs d s (s.become u)) : d.hbmOut = [] :=
  (h.dev.part (fun x => x.hbmOut) fun _ => rfl).symm

theorem pwr_of_settles {evs : List (Nat × Nat)} {d u : Dev} {s : State} (h : State.Settles evs d s (s.become u)) : u.pwr = d.pwr :=
  h.dev.rd pwr_cell

/-! ### A refused access is counted after the value that the same command writes -/

/-- Counter 0 counts the refused accesses of every page, and VALUE is the table selected. -/
def countingRefusals : State :=
  running [(Reg.CNT_CFG_KIND 0, 2), (Reg.CNT_CFG_ACC_OP 0, 4), (Reg.CNT_CFG_PRIV 0, 4), (Reg.CNT_CFG_ADDR_HI 0, 0xFFFFFFFF),
    (Reg.PERF_TBL_SEL_TABLE, 1)]

/-- A reserved bit of TBL_OP makes the write of VALUE a refused access too (R425), and counter 0, set to 0, then counts it. -/
theorem counter_of_refused_tblOp : (countingRefusals.dev.tblOp .perf (0x100 ||| 2#32) false countingRefusals.dev.masterCode).counter 0 = 1 := by
  decide +kernel

theorem counter_become (d : Dev) (s : State) (i : Nat) : (s.become d).dev.counter i = d.counter i :=
  rfl

theorem exec_tblOpWrite (w : TblWindow) (v : Word) (collided : Bool) (s : State) :
    exec (.tblOpWrite w v collided) s = .next (s.become (s.dev.tblOp w (v ||| 2#32) collided s.dev.masterCode)) :=
  rfl

/-- Refutes O18: where the word written to TBL_OP sets a reserved bit, the access is refused and counted as well, and a counter of refused accesses that the
command has just set to the value of TBL_DATA moves on by one (`countingRefusals`). -/
theorem not_tableWindowAccesses : ¬ Obligations.TableWindowAccesses := by
  unfold Obligations.TableWindowAccesses
  rintro ⟨-, -, -, hvalue, -⟩
  obtain ⟨t, ht, -, hcounter⟩ := hvalue 0x100 countingRefusals (by decide) (by decide) (by decide) (by decide) (by decide) (by decide)
  rw [exec_tblOpWrite] at ht
  obtain rfl := Host.Outcome.next.inj ht
  have hzero : (countingRefusals.dev.word (regCell 0x030 0x050)).toNat + 2 ^ 32 * getBits (countingRefusals.dev.word (regCell 0x030 0x054)) 0 16 = 0 := by
    decide
  have hindex : countingRefusals.dev.rd Reg.PERF_TBL_INDEX_INDEX = 0 := by decide
  rw [counter_become, hzero, hindex, counter_of_refused_tblOp] at hcounter
  exact Nat.one_ne_zero hcounter

/-! ### A fleet mode settled over the completion message can store to HBM -/

/-- Line engine 0 is at PILOT with a capture to drain, its block 16 is FLAGGED, and relay lane 8 has LINK. -/
def flaggedWhileDraining : State :=
  runningWith [(Reg.LANE_STAT_LINK 72, 1), (Reg.RX_CTRL_ENABLE 0, 1), (Reg.ACQ_STAT_STATE 0, acqPilot)] fun d =>
    (d.setBlock 16 { d.block 16 with flagged := true }).setCpe 0 ⟨none, [⟨3, 0, false, 0, 16, 5, 320, -4, 0, [1, 2, 3, 4]⟩], 0⟩

/-- The small fleet mode that the message settles makes the FLAGGED block UNUSABLE (R507), which ends the record with bytes to store. -/
theorem completed_stores : (flaggedWhileDraining.dev.completed 5 false []).hbmOut ≠ [] := by
  decide +kernel

/-- What the completion message makes of a device is what its clause writes out. -/
theorem completed_eq (d : Dev) (pos : Nat) (large : Bool) (ring : List Nat) :
    (fun e : Dev => (e.settleRing e.routes).fleetSettle) { ((((d.wr Reg.CHAIN_STAT_POS pos).wr Reg.CHAIN_STAT_ASSIGNED 1).wr Reg.POS_POS pos).wrB
      Reg.STRAPS_FLEET_EFF large).wrB Reg.STRAPS_MODE_OVERRIDDEN (d.on Reg.STRAPS_FLEET_MODE != large) with relay := { d.relay with ring := ring } } =
      d.completed pos large ring := by
  have hmode : (((d.wr Reg.CHAIN_STAT_POS pos).wr Reg.CHAIN_STAT_ASSIGNED 1).wr Reg.POS_POS pos).on Reg.STRAPS_FLEET_MODE = d.on Reg.STRAPS_FLEET_MODE := by
    rw [Dev.on, rd_wr_ne _ _ _ _ (by decide), rd_wr_ne _ _ _ _ (by decide), rd_wr_ne _ _ _ _ (by decide), Dev.on]
  rw [Dev.completed, hmode]
  rfl

theorem exec_fleetCompletionMsg (p : Fin 4) (pos : BitVec 6) (large : Bool) (ring : List (Fin 4)) {s : State} (hu : s.dev.hubOn = true)
    (hh : s.dev.isHead = false) (hl : s.dev.portLink p = true) (ho : s.dev.otherHead p = false) :
    exec (.fleetCompletionMsg p pos large ring) s = .next (s.become (s.dev.completed pos.toNat large (ring.map (·.val)))) := by
  have h : exec (.fleetCompletionMsg p pos large ring) s = execFleetCompletionMsg p pos large ring s := rfl
  simp [h, execFleetCompletionMsg, State.run, hu, hh, hl, ho]

/-- Refutes O38: the completion message settles the fleet mode, and in a small fleet a FLAGGED block of a line engine becomes UNUSABLE, so that a capture
that is draining is cut and stored. The clause of the completion message lets no byte of HBM change (`flaggedWhileDraining`). -/
theorem not_chainMembership : ¬ Obligations.ChainMembership := by
  unfold Obligations.ChainMembership
  rintro ⟨-, -, -, -, hmsg, -⟩
  have hhub : flaggedWhileDraining.dev.hubOn = true := by decide
  have hhead : flaggedWhileDraining.dev.isHead = false := by decide
  have hlink : flaggedWhileDraining.dev.portLink (2 : Fin 4) = true := by decide
  have hother : flaggedWhileDraining.dev.otherHead (2 : Fin 4) = false := by decide
  obtain ⟨t, ht, hset⟩ := hmsg 2 5 false [] flaggedWhileDraining (by decide) hhub hhead hlink hother
  rw [exec_fleetCompletionMsg 2 5 false [] hhub hhead hlink hother] at ht
  obtain rfl := Host.Outcome.next.inj ht
  rw [completed_eq] at hset
  exact completed_stores (hbmOut_of_settles hset)

/-! ### An event of the sleep entry can wake the device -/

/-- Counter 0 counts E-00.00 and stands at its last value; E-29.00, its overflow, is enabled and wakes; the shutdown BIST runs. -/
def wakingOverflow : State :=
  runningWith [(Reg.CNT_CFG_KIND 0, 1), (Reg.CNT_CFG_EVENT 0, 0), (Reg.CNT_CFG_OVF_EV 0, 1)] fun d => { d with
    power := { d.power with sleepDue := true }
    perf := ⟨[(0, 2 ^ 48 - 1)]⟩
    ev := { d.ev with groups := [(29, ⟨0, 1, 0x800⟩)] } }

/-- E-00.00 of the entry overflows the counter, and E-29.00 wakes at once (R478, Table 17.5). -/
theorem sleepEnter_wakes : (wakingOverflow.dev.sleepEnter []).settleWake.pwr = pwrStarting := by
  decide +kernel

/-- A device that shows SLEEP. -/
theorem pwr_of_sleepShown (d : Dev) : ((d.wr Reg.PWR_STAT_STATE pwrSleep).wr ⟨Reg.PLL_STAT_HUB.cell, 0, 9⟩ 0x140).pwr = pwrSleep :=
  (rd_wr_ne _ _ _ _ (by decide)).trans (rd_wr_same _ _ _ (by decide))

theorem exec_sleepEntryComplete (outcomes : List BlockOutcome) {s : State} (hd : s.dev.power.sleepDue = true) (hr : s.dev.pwr = pwrRun) :
    exec (.sleepEntryComplete outcomes) s = .next (s.become (s.dev.sleepEnter outcomes).settleWake) := by
  have h : exec (.sleepEntryComplete outcomes) s = execSleepEntryComplete outcomes s := rfl
  simp [h, execSleepEntryComplete, State.run, hd, hr]

/-- Refutes O44: E-00.00 of the entry into SLEEP can overflow a performance counter whose event E-29.00 has WAKE set, and the device is then in STARTING at
the end of the command; the clause excludes WAKE of group 0 only (`wakingOverflow`). -/
theorem not_powerStates : ¬ Obligations.PowerStates := by
  unfold Obligations.PowerStates
  rintro ⟨-, -, -, -, -, -, hentry, -⟩
  have hdue : wakingOverflow.dev.power.sleepDue = true := by decide
  have hrun : wakingOverflow.dev.pwr = pwrRun := by decide
  obtain ⟨t, ht, hset⟩ := hentry [] wakingOverflow (by decide) hdue hrun (by decide)
  rw [exec_sleepEntryComplete [] hdue hrun] at ht
  obtain rfl := Host.Outcome.next.inj ht
  have hsleep := (pwr_of_settles hset).trans (pwr_of_sleepShown _)
  exact absurd (sleepEnter_wakes.symm.trans hsleep) (by decide)

end Sys2Proof.Machine
end

section
namespace Sys2Proof.Machine
open Sys2Proof.Tests

/-! ### A missed trigger can be the event that the capture controller waits for -/

/-- Engine 0 is armed while a snapshot of it runs, CAP_TRIG names E-10.15, which a missed trigger raises, and that event has just risen. -/
def missedTriggerSelected : State :=
  runningWith [(Reg.CAP_TRIG_SOURCE, 1), (Reg.CAP_TRIG_EV_GROUP, 10), (Reg.CAP_TRIG_EV_BIT, 15), (Reg.RX_CAP_STAT_ARMED 0, 1),
    (Reg.RX_CAP_STAT_BUSY 0, 1)] fun d =>
    { d.setCpe 0 ⟨some ⟨false, 0, 1024, 0, 0, true, 0, 0⟩, [], 0⟩ with ev := { d.ev with capDue := some (0, 10, 15) } }

/-- What the command of the capture controller makes of the device where a rise waits. -/
theorem exec_capEventTrigger {e : Nat × Nat × Nat} {s : State} (he : s.dev.ev.capDue = some e) :
    exec .capEventTrigger s = .next (s.become
      (({ s.dev with ev := { s.dev.ev with capDue := none } } : Dev).capTrigger 1 e.2.1 e.2.2 (e.1 + 1000 * 65536))) := by
  have h : exec .capEventTrigger s = execCapEventTrigger s := rfl
  simp only [h, execCapEventTrigger, State.run, he]

theorem capDue_become (d : Dev) (s : State) : (s.become d).dev.ev.capDue = d.ev.capDue :=
  rfl

/-- The busy engine misses the trigger, and E-10.15 of that miss is the next edge of the selected event (R93, R94). -/
theorem capDue_of_missedTrigger :
    (({ missedTriggerSelected.dev with ev := { missedTriggerSelected.dev.ev with capDue := none } } : Dev).capTrigger 1 10 15
      (1000 * 65536)).ev.capDue = some (0, 10, 15) := by
  decide +kernel

/-- Refutes O60: where CAP_TRIG names the event E-1n.15 of a missed trigger, a busy engine's miss raises that event again, so that a rise waits after the
command as well (`missedTriggerSelected`); the clause of the event trigger says that none does. -/
theorem not_shedAndCaptureCommandsComplete : ¬ Obligations.ShedAndCaptureCommandsComplete := by
  unfold Obligations.ShedAndCaptureCommandsComplete
  rintro ⟨-, -, -, -, -, -, -, hevent, -⟩
  have hdue : missedTriggerSelected.dev.ev.capDue = some (0, 10, 15) := rfl
  obtain ⟨t, ht, hnone, -⟩ := hevent (0, 10, 15) missedTriggerSelected (by decide) hdue
  rw [exec_capEventTrigger hdue] at ht
  obtain rfl := Host.Outcome.next.inj ht
  rw [capDue_become] at hnone
  exact absurd (capDue_of_missedTrigger.symm.trans hnone) (by decide)

end Sys2Proof.Machine
end

section
namespace Sys2Proof.Machine
open Sys2Proof.Tests

/-! ### A write of DR_CTRL can end the work of the Drone's fingers -/

/-- DR_CTRL.RX_EN is 1, and finger 0 of path 0 works on an entry. -/
def receivingFinger : State :=
  runningWith [(Reg.DR_CTRL_RX_EN, 1)] fun d =>
    { d with drone := { d.drone with fingers := [(0, some ⟨0, 0, 0, false, 100, 0, 0, 0, false, 0, 0, []⟩)] } }

theorem exec_registerWrite (page off : BitVec 12) (v : Word) (s : State) :
    exec (.registerWrite page off v) s = .next (s.become (s.dev.busWrite s.bytes page.toNat (off.toNat / 4 * 4) v)) :=
  rfl

/-- RX_EN = 0 written to DR_CTRL frees the finger (R316). -/
theorem fingers_of_drCtrl_off :
    (receivingFinger.dev.busWrite receivingFinger.bytes (0x0A0#12).toNat ((0x040#12).toNat / 4 * 4) 0).drone.fingers = [] := by
  decide +kernel

/-- The access codes alone leave the Drone's hidden state. -/
theorem drone_writeWord (d : Dev) (page off : Nat) (own v : Word) : (d.writeWord page off own v).drone = d.drone :=
  writeWord_part (fun x => x.drone) (fun _ _ _ _ _ => rfl) d page off own v

/-- What a command that settles leaves of the Drone's hidden state. -/
theorem drone_of_settles {evs : List (Nat × Nat)} {d u : Dev} {s : State} (h : State.Settles evs d s (s.become u)) : u.drone = d.drone :=
  h.dev.part (fun x => x.drone) fun _ => rfl

/-- Refutes O43: a write of DR_CTRL, on page 0x0A0, does more than its access codes: RX_EN = 0 abandons the fingers that work, and the clause of the pages
that act by their access codes alone counts that page among them (`receivingFinger`). -/
theorem not_registerWrites : ¬ Obligations.RegisterWrites := by
  unfold Obligations.RegisterWrites
  rintro ⟨hwrite, -⟩
  obtain ⟨t, ht, hset⟩ := hwrite 0x0A0#12 0x040#12 0 receivingFinger (by decide) (by decide) (by decide) (by decide) (by decide) (by decide)
  rw [exec_registerWrite] at ht
  obtain rfl := Host.Outcome.next.inj ht
  have hkept := (drone_of_settles hset).trans (drone_writeWord _ _ _ _ _)
  have hfreed : receivingFinger.dev.drone.fingers = [] := (congrArg Drone.fingers hkept).symm.trans fingers_of_drCtrl_off
  exact absurd hfreed (by decide)

end Sys2Proof.Machine
end

section
namespace Sys2Proof.Machine
open Sys2Proof.Tests

/-! ### A thermal shutdown puts in force what waits for an engine's entry to DARK -/

/-- The hub die's sensors have all failed, engine 0 is in PREP, a value of its relighting page that waits is for RETIRED_LO, and a byte stands in the
last 1.5 GB of usable HBM. The invariant says nothing of the cells that waiting values are for. -/
def retiringShutdown : State :=
  { runningWith ((Reg.FINDER_STAT_BOOTED, 1) :: (Reg.TX_STATE_STATE 0, txPrep) :: (List.range 12).map fun k => (Reg.THERM_T_FAIL k, 1)) fun d =>
      { d with later := [⟨linePage 0 1, Reg.RETIRED_LO.cell, 0xFFFFFFFF, 1, .relight⟩] } with
    mem := [(95000000000, 1)] }

/-- With too few sensors the sample ends in a thermal shutdown (R483, R487), which ends PREP in DARK; the value that waited retires a channel, and the
byte reads 0 (R22, R429). -/
theorem byte_of_retiringShutdown {t : State} (h : exec (.thermSample []) retiringShutdown = .next t) : t.byte 95000000000 = 0 := by
  have he : exec (.thermSample []) retiringShutdown = execThermSample [] retiringShutdown := rfl
  rw [he, execThermSample, State.run] at h
  obtain rfl := Host.Outcome.next.inj h
  decide +kernel

/-- Refutes O46: a sample that ends in a thermal shutdown takes an engine from PREP to DARK, where its waiting values come into force. On a state in which
one of them is for RETIRED_LO, usable HBM shrinks, and a byte that the sample does not store reads 0 after it (`retiringShutdown`); the clause of the sample lets
no byte outside its stores change. -/
theorem not_thermalControl : ¬ Obligations.ThermalControl := by
  unfold Obligations.ThermalControl
  rintro ⟨hsample, -⟩
  obtain ⟨t, ht, hstores⟩ := hsample [] retiringShutdown (by decide) (by decide +kernel) (by decide +kernel)
  have hzero := (byte_of_retiringShutdown ht).symm.trans (hstores.bytes 95000000000)
  exact absurd hzero (by decide +kernel)

end Sys2Proof.Machine
end

section
namespace Sys2Proof.Machine

/-! ### What is read of a kin device -/

theorem not_overflowCell_table (t i w : Nat) : ¬ overflowCell (tableCell t i w) := by
  simp only [overflowCell, regCell, tableCell]
  omega

theorem not_overflowCell_lane (x k : Nat) : ¬ overflowCell (laneCell x + k) := by
  simp only [overflowCell, regCell, laneCell]
  split <;> omega

section Reads
variable {a : List (Nat × Nat)} {d e : Dev} (h : Dev.Kin a d e)
include h

theorem Dev.Kin.rx_eq : e.rx = d.rx := h.toLike.part (fun x => x.rx) fun _ => rfl
theorem Dev.Kin.fr_eq : e.fr = d.fr := h.toLike.part (fun x => x.fr) fun _ => rfl
theorem Dev.Kin.crs_eq : e.crs = d.crs := h.toLike.part (fun x => x.crs) fun _ => rfl
theorem Dev.Kin.pairs_eq : e.pairs = d.pairs := h.toLike.part (fun x => x.pairs) fun _ => rfl
theorem Dev.Kin.col_eq : e.col = d.col := h.toLike.part (fun x => x.col) fun _ => rfl
theorem Dev.Kin.cap_eq : e.cap = d.cap := h.toLike.part (fun x => x.cap) fun _ => rfl
theorem Dev.Kin.bist_eq : e.bist = d.bist := h.toLike.part (fun x => x.bist) fun _ => rfl
theorem Dev.Kin.clock_eq : e.clock = d.clock := h.toLike.part (fun x => x.clock) fun _ => rfl
theorem Dev.Kin.fresh_eq : e.fresh = d.fresh := h.toLike.part (fun x => x.fresh) fun _ => rfl
theorem Dev.Kin.variant_eq : e.variant = d.variant := h.toLike.part (fun x => x.variant) fun _ => rfl
theorem Dev.Kin.capRecs_eq : e.capRecs = d.capRecs := h.toLike.part (fun x => x.capRecs) fun _ => rfl
theorem Dev.Kin.dieLost_eq : e.dieLost = d.dieLost := h.toLike.part (fun x => x.dieLost) fun _ => rfl
theorem Dev.Kin.xqStopped_eq : e.xqStopped = d.xqStopped := h.toLike.part (fun x => x.xqStopped) fun _ => rfl

theorem Dev.Kin.rd_rxSlot (k l w : Nat) : e.rd (rxSlotField k l w) = d.rd (rxSlotField k l w) :=
  h.toLike.rd (not_overflowCell_table _ _ _)

theorem Dev.Kin.on_rxSlot (k l w : Nat) : e.on (rxSlotField k l w) = d.on (rxSlotField k l w) :=
  h.toLike.on (not_overflowCell_table _ _ _)

/-- The slots that have a receive copy are table entries that a kin device lists too. -/
theorem Dev.Kin.rxListed_eq : e.rxListed = d.rxListed := by
  have hlo : 0x1000000 ≤ tableCell tableSLOT.id 524288 0 := (Nat.le_add_right _ _).trans (Nat.le_add_right _ _)
  have key (x : Dev) : x.rxListed = x.tables.filterMap fun e =>
      if tableCell tableSLOT.id 524288 0 ≤ e.1 ∧ e.1 < tableCell tableSLOT.id (524288 + 512) 0 ∧ e.1 % 64 = 0 then
        some ((e.1 - tableCell tableSLOT.id 524288 0) / 64) else none := by
    rw [Dev.rxListed, Dev.tables, List.filterMap_filter]
    refine congrArg (List.filterMap · x.regs) (funext fun e => ?_)
    by_cases he : 0x1000000 ≤ e.1
    · rw [if_pos (decide_eq_true he)]
    · rw [if_neg (c := decide (0x1000000 ≤ e.1) = true) (by rw [decide_eq_true_eq]; exact he)]
      exact if_neg fun c => he (hlo.trans c.1)
  rw [key, key, h.tables]

theorem Dev.Kin.rxSlotsOf_eq (c : Nat) : e.rxSlotsOf c = d.rxSlotsOf c := by
  simp only [Dev.rxSlotsOf, Dev.rxCourse, h.rxListed_eq, h.on_rxSlot, h.rd_rxSlot]

theorem Dev.Kin.slotsOf_eq (c : Nat) : e.slotsOf c = d.slotsOf c := by
  simp (disch := (simp only [overflowCell, regCell, tableCell]; omega)) only [Dev.slotsOf, h.listed, h.toLike.on, h.toLike.rd]

theorem Dev.Kin.rxEngines_eq (c : Nat) : e.rxEngines c = d.rxEngines c := by
  simp only [Dev.rxEngines, Dev.enginesOf, h.rxSlotsOf_eq, h.slotsOf_eq]

theorem Dev.Kin.rxLeadSlot_eq (c : Nat) : e.rxLeadSlot c = d.rxLeadSlot c := by
  simp (disch := (simp only [overflowCell, regCell, tableCell]; omega)) only [Dev.rxLeadSlot, h.rxSlotsOf_eq, h.slotsOf_eq, h.rd_rxSlot, h.toLike.rd]

theorem Dev.Kin.rxTimAct_eq (c : Nat) : e.rxTimAct c = d.rxTimAct c := by
  simp (disch := (simp only [overflowCell, regCell, tableCell]; omega)) only [Dev.rxTimAct, h.rxSlotsOf_eq, h.on_rxSlot, h.toLike.on]

theorem Dev.Kin.leadEngine_eq (c : Nat) : e.leadEngine c = d.leadEngine c := by
  simp only [Dev.leadEngine, h.rxLeadSlot_eq]

theorem Dev.Kin.txInternal_eq (n : Nat) : e.txInternal n = d.txInternal n := by
  simp (disch := (simp only [overflowCell, regCell]; omega)) only [Dev.txInternal, h.xqStopped_eq, h.toLike.rd]

theorem Dev.Kin.ohRx_eq (n : Nat) : e.ohRx n = d.ohRx n :=
  h.toLike.rd (by simp only [overflowCell, regCell]; omega)

/-- The causes of signal fail and signal degrade of a course are those of a kin device. -/
theorem Dev.Kin.sfCause_eq (c : Nat) : e.sfCause c = d.sfCause c := by
  simp (disch := (simp only [overflowCell, regCell, tableCell]; omega)) only [Dev.sfCause, h.rxEngines_eq, Dev.enginesOf, h.slotsOf_eq,
    h.txInternal_eq, h.ohRx_eq, h.rxTimAct_eq, h.leadEngine_eq, h.toLike.on]

theorem Dev.Kin.sdCause_eq (c : Nat) : e.sdCause c = d.sdCause c := by
  simp (disch := (simp only [overflowCell, regCell]; omega)) only [Dev.sdCause, h.rxEngines_eq, h.toLike.on]

theorem Dev.Kin.enabledPairs_eq : e.enabledPairs = d.enabledPairs := by
  simp (disch := (simp only [overflowCell, regCell, tableCell]; omega)) only [Dev.enabledPairs, h.listed, h.toLike.on]

theorem Dev.Kin.pairOf_eq (c : Nat) : e.pairOf c = d.pairOf c := by
  simp (disch := (simp only [overflowCell, regCell, tableCell]; omega)) only [Dev.pairOf, h.enabledPairs_eq, h.toLike.on, h.toLike.rd]

theorem Dev.Kin.pr_eq (p : Nat) : e.pr p = d.pr p := by
  simp only [Dev.pr, h.pairs_eq]

theorem Dev.Kin.pairMode_eq (p : Nat) : e.pairMode p = d.pairMode p :=
  h.toLike.rd (not_overflowCell_table _ _ _)

theorem Dev.Kin.protSf_eq (c : Nat) : e.protSf c = d.protSf c := by
  simp (disch := (simp only [overflowCell, regCell, tableCell]; omega)) only [Dev.protSf, Dev.co, h.crs_eq, h.toLike.on]

theorem Dev.Kin.protSd_eq (p c : Nat) : e.protSd p c = d.protSd p c := by
  simp (disch := (simp only [overflowCell, regCell, tableCell]; omega)) only [Dev.protSd, h.toLike.on]

theorem Dev.Kin.localRequest_eq (p : Nat) : e.localRequest p = d.localRequest p := by
  simp (disch := (simp only [overflowCell, regCell, tableCell]; omega)) only [Dev.localRequest, h.pr_eq, h.toLike.on]

theorem Dev.Kin.remoteOf_eq (p : Nat) : e.remoteOf p = d.remoteOf p := by
  simp (disch := (simp only [overflowCell, regCell, tableCell]; omega)) only [Dev.remoteOf, h.toLike.on, h.toLike.rd, h.toLike.word]

theorem Dev.Kin.request_eq (p : Nat) : e.request p = d.request p := by
  simp only [Dev.request, h.localRequest_eq, h.remoteOf_eq]

theorem Dev.Kin.srBytes_eq (p : Nat) : e.srBytes p = d.srBytes p := by
  simp (disch := (simp only [overflowCell, regCell, tableCell]; omega)) only [Dev.srBytes, h.pairMode_eq, h.request_eq, h.toLike.rd]

end Reads
end Sys2Proof.Machine
end

section
-- One proof after another: elaborated at once, these proofs wait for each other in more threads than the memory holds.
set_option Elab.async false
namespace Sys2Proof.Machine

/-! ### The same operation on kin devices -/

/-- Devices that the same events take from kin devices are kin. -/
theorem Dev.Kin.both {a b : List (Nat × Nat)} {d e d' e' : Dev} (h : Dev.Kin a d e) (hd : Dev.Kin b d d') (he : Dev.Kin b e e') :
    Dev.Kin a d' e' where
  words c hc := by rw [he.words c hc, h.words c hc, hd.words c hc]
  rest := by rw [he.rest, h.rest, hd.rest]
  tables := by rw [he.tables, h.tables, hd.tables]
  events :=
    { latch := fun g k hk hn => by
        rw [he.events.latch g k hk hn, h.events.latch g k hk hn, hd.events.latch g k hk hn, sourceOn_others h.rest, sourceOn_others hd.rest]
        cases d.latched g k <;> cases d.sourceOn g <;> simp [Bool.or_comm]
      en := fun g => by rw [he.events.en, h.events.en, hd.events.en]
      route := fun g => by rw [he.events.route, h.events.route, hd.events.route]
      msix := by rw [he.events.msix, h.events.msix, hd.events.msix] }

theorem Dev.Kin.foldl {a : List (Nat × Nat)} {α : Type} {f g : Dev → α → Dev} {l : List α}
    (hf : ∀ x ∈ l, ∀ d e, Dev.Kin a d e → Dev.Kin a (f d x) (g e x)) {d e : Dev} (h : Dev.Kin a d e) :
    Dev.Kin a (l.foldl f d) (l.foldl g e) := by
  induction l generalizing d e with
  | nil => exact h
  | cons x l ih => exact ih (fun y hy => hf y (List.mem_cons_of_mem _ hy)) (hf x List.mem_cons_self _ _ h)

section Operations
variable {a : List (Nat × Nat)} {d e : Dev} (h : Dev.Kin a d e)
include h

theorem Dev.Kin.raiseBoth (g b : Nat) : Dev.Kin a (d.raise g b) (e.raise g b) :=
  h.both (Dev.Kin.raise d g b) (Dev.Kin.raise e g b)

theorem Dev.Kin.raiseIfBoth {c c' : Bool} (hc : c' = c) (g b : Nat) : Dev.Kin a (d.raiseIf c g b) (e.raiseIf c' g b) :=
  h.both (Dev.Kin.raiseIf d c g b) (by rw [hc]; exact Dev.Kin.raiseIf e c g b)

/-! Fields written on both sides -/

theorem Dev.Kin.write (f : Field) {v w : Nat} (hv : w = v)
    (hc : ¬ overflowCell f.cell := by simp only [overflowCell, regCell, tableCell]; omega) : Dev.Kin a (d.wr f v) (e.wr f w) :=
  hv ▸ h.wr v hc

theorem Dev.Kin.writeB (f : Field) {v w : Bool} (hv : w = v)
    (hc : ¬ overflowCell f.cell := by simp only [overflowCell, regCell, tableCell]; omega) : Dev.Kin a (d.wrB f v) (e.wrB f w) :=
  hv ▸ h.wr _ hc

theorem Dev.Kin.writeS (f : Field) {v w : Int} (hv : w = v)
    (hc : ¬ overflowCell f.cell := by simp only [overflowCell, regCell, tableCell]; omega) : Dev.Kin a (d.wrS f v) (e.wrS f w) :=
  hv ▸ h.wr _ hc

theorem Dev.Kin.bumpBoth (f : Field) (hc : ¬ overflowCell f.cell := by simp only [overflowCell, regCell, tableCell]; omega) :
    Dev.Kin a (d.bump f) (e.bump f) :=
  h.write f (by rw [h.toLike.rd hc]) hc

/-! Hidden state set on both sides -/

theorem Dev.Kin.setRxe (n : Nat) {x y : RxEngine} (hx : y = x) : Dev.Kin a (d.setRxe n x) (e.setRxe n y) :=
  hx ▸ h.map (Dev.setRxe n x) (fun _ => rfl) (fun _ => rfl) (fun _ => rfl) fun _ => rfl

theorem Dev.Kin.setFra (n : Nat) {x y : FrEngine} (hx : y = x) : Dev.Kin a (d.setFra n x) (e.setFra n y) :=
  hx ▸ h.map (Dev.setFra n x) (fun _ => rfl) (fun _ => rfl) (fun _ => rfl) fun _ => rfl

theorem Dev.Kin.setPr (p : Nat) {x y : Pair} (hx : y = x) : Dev.Kin a (d.setPr p x) (e.setPr p y) :=
  hx ▸ h.map (Dev.setPr p x) (fun _ => rfl) (fun _ => rfl) (fun _ => rfl) fun _ => rfl

theorem Dev.Kin.setCpe (n : Nat) {x y : CapEngine} (hx : y = x) : Dev.Kin a (d.setCpe n x) (e.setCpe n y) :=
  hx ▸ h.map (Dev.setCpe n x) (fun _ => rfl) (fun _ => rfl) (fun _ => rfl) fun _ => rfl

theorem Dev.Kin.setForce (r : Nat) {v w : ColVals} (hv : w = v) : Dev.Kin a (d.setForce r v) (e.setForce r w) :=
  hv ▸ h.map (Dev.setForce r v) (fun _ => rfl) (fun _ => rfl) (fun _ => rfl) fun _ => rfl

/-! Courses and pairs (R187, R213 to R217) -/

theorem Dev.Kin.showPair (p : Nat) : Dev.Kin a (d.showPair p) (e.showPair p) := by
  delta Dev.showPair
  extract_lets ca cb mode unprot d1 d2 d3 ca' cb' mode' unprot' e1 e2 e3
  have hca : ca' = ca := h.toLike.rd (not_overflowCell_table _ _ _)
  have hcb : cb' = cb := h.toLike.rd (not_overflowCell_table _ _ _)
  have hmode : mode' = mode := by
    simp (disch := exact not_overflowCell_table _ _ _) only [mode', mode, h.toLike.on, h.toLike.rd, h.pairMode_eq]
  have hunprot : unprot' = unprot := by
    simp (disch := exact not_overflowCell_table _ _ _) only [unprot', unprot, hca, hcb, hmode, h.toLike.on, h.toLike.rd, h.protSf_eq]
  have h1 : Dev.Kin a d1 e1 := h.writeB _ hunprot
  have h2 : Dev.Kin a d2 e2 := (h1.write _ (by rw [h1.request_eq])).write _ (by rw [h1.remoteOf_eq])
  have h3 : Dev.Kin a d3 e3 := (h2.writeB _ (by rw [h2.protSf_eq, hca])).writeB _ (by rw [h2.protSf_eq, hcb])
  rw [h1.pairMode_eq, hca, hcb]
  split_ifs
  · exact (h3.write _ rfl).write _ (h3.srBytes_eq p)
  · exact (h1.write _ rfl).write _ (h1.srBytes_eq p)
  · exact h1

theorem Dev.Kin.wtrRule (p : Nat) (hadA : Bool) : Dev.Kin a (d.wtrRule p hadA) (e.wtrRule p hadA) := by
  delta Dev.wtrRule
  extract_lets x0 x d1 z d2 r y x0' x' e1 z' e2 r' y'
  have hx0 : x0' = x0 := h.pr_eq p
  have hx : x' = x := by
    simp (disch := exact not_overflowCell_table _ _ _) only [x', x, hx0, h.toLike.on, h.clock_eq]
  have h1 : Dev.Kin a d1 e1 := h.setPr p hx
  have h2 : Dev.Kin a d2 e2 := by
    simp only [d2, e2, hx, h1.request_eq, show z' = z from h1.pr_eq p]
    split_ifs
    · exact h1.setPr p rfl
    · exact h1
  have hr : r' = r := h2.request_eq p
  rw [hr]
  split_ifs
  · exact h2.setPr p (by rw [show y' = y from h2.pr_eq p])
  · exact h2

theorem Dev.Kin.evalPair (p : Nat) (hadA : Bool) : Dev.Kin a (d.evalPair p hadA) (e.evalPair p hadA) :=
  (h.wtrRule p hadA).showPair p

theorem Dev.Kin.pairConditions (p : Nat) : Dev.Kin a (d.pairConditions p) (e.pairConditions p) := by
  simp (disch := exact not_overflowCell_table _ _ _) only [Dev.pairConditions, h.pairMode_eq, h.pr_eq,
    h.protSf_eq, h.protSd_eq, h.clock_eq, h.toLike.rd]
  split
  · exact (h.setPr p rfl).evalPair p _
  · exact h.showPair p

theorem Dev.Kin.courseToPairs (c : Nat) : Dev.Kin a (d.courseToPairs c) (e.courseToPairs c) := by
  simp only [Dev.courseToPairs, h.pairOf_eq]
  split
  · exact h.pairConditions _
  · exact h

theorem Dev.Kin.setCrsBit (c : Nat) (f : Field) (ev : Option Nat) {v w : Bool} (hv : w = v) (hc : ¬ overflowCell f.cell) :
    Dev.Kin a (d.setCrsBit c f ev v) (e.setCrsBit c f ev w) := by
  simp only [Dev.setCrsBit, h.toLike.on hc, hv]
  have hw : Dev.Kin a ((d.wrB f v).crsChanged c) ((e.wrB f v).crsChanged c) :=
    (h.writeB f rfl hc).write _ rfl (by simp only [overflowCell, courseBit, regCell]; omega)
  split
  · exact h
  · cases ev with
    | none => exact hw
    | some b => exact hw.raiseBoth 19 b

theorem Dev.Kin.settleCourse (c : Nat) : Dev.Kin a (d.settleCourse c) (e.settleCourse c) := by
  delta Dev.settleCourse
  extract_lets en sf sd d1 d2 en' sf' sd' e1 e2
  have hen : en' = en := by
    simp (disch := exact not_overflowCell_table _ _ _) only [en', en, Dev.rxOn, h.toLike.on, h.rxSlotsOf_eq]
  have hsf : sf' = sf := by simp only [sf', sf, hen, h.sfCause_eq]
  have hsd : sd' = sd := by simp only [sd', sd, hen, h.sdCause_eq]
  have h1 : Dev.Kin a d1 e1 :=
    (h.setCrsBit c _ _ hsf (not_overflowCell_table _ _ _)).setCrsBit c _ _ hsd (not_overflowCell_table _ _ _)
  have h2 : Dev.Kin a d2 e2 :=
    (h1.writeB _ hsf (by simp only [overflowCell, courseBit, regCell]; omega)).writeB _ hsd (by simp only [overflowCell, courseBit, regCell]; omega)
  rw [hsf, hsd, h.toLike.on (not_overflowCell_table _ _ _), h.toLike.on (not_overflowCell_table _ _ _)]
  split
  · exact h
  · exact h2.courseToPairs c

/-- Every course brought up to date on kin devices. -/
theorem Dev.Kin.settleCourses : Dev.Kin a d.settleCourses e.settleCourses := by
  have hl : (e.courses ++ e.rxCourses.filter fun c => !e.on (Reg.MAP_EN c)) = d.courses ++ d.rxCourses.filter fun c => !d.on (Reg.MAP_EN c) := by
    simp (disch := exact not_overflowCell_table _ _ _) only [Dev.courses, Dev.rxCourses, h.listed, h.toLike.on]
    rw [h.rxListed_eq, funext fun k => show e.rxCourse k = d.rxCourse k by simp only [Dev.rxCourse, h.on_rxSlot, h.rd_rxSlot]]
  rw [Dev.settleCourses, Dev.settleCourses, hl]
  exact Dev.Kin.foldl (fun c _ _ _ h => h.settleCourse c) h

/-! Alignment of the receive engines (R149 to R153, R182 to R184) -/

theorem Dev.Kin.fra_eq (n : Nat) : e.fra n = d.fra n := by
  rw [Dev.fra, Dev.fra, h.fr_eq]

theorem Dev.Kin.rxe_eq (n : Nat) : e.rxe n = d.rxe n := by
  rw [Dev.rxe, Dev.rxe, h.rx_eq]

theorem Dev.Kin.frs_eq (n : Nat) : e.frs n = d.frs n :=
  h.toLike.rd (by simp only [overflowCell, regCell]; omega)

theorem Dev.Kin.als_eq (n : Nat) : e.als n = d.als n :=
  h.toLike.rd (by simp only [overflowCell, regCell]; omega)

theorem Dev.Kin.rxTwin_eq (n : Nat) : e.rxTwin n = d.rxTwin n :=
  h.toLike.on (by simp only [overflowCell, regCell]; omega)

theorem Dev.Kin.alMustIdle_eq (n : Nat) : e.alMustIdle n = d.alMustIdle n := by
  have hl (m : Nat) : e.rxLocked m = d.rxLocked m := by
    rw [Dev.rxLocked, Dev.rxLocked, h.rxe_eq, h.dieLost_eq, h.toLike.rd (by simp only [overflowCell, regCell]; omega)]
  simp only [Dev.alMustIdle, h.rxTwin_eq, hl]

theorem Dev.Kin.colPut (w : ColWhen) (r : Nat) (v : ColVals) : Dev.Kin a (d.colPut w r v) (e.colPut w r v) := by
  have hf : e.inForce r = d.inForce r := by rw [Dev.inForce, Dev.inForce, h.col_eq]
  simp only [Dev.colPut, hf]
  split
  · cases w <;> exact (h.setForce r rfl).writeS _ rfl
  · split
    · exact (h.setForce r rfl).map (fun x => { x with sid := { x.sid with
        pinOut := (List.range 8).foldl (fun l k => sset (dflt 0) l k (v.get k)) x.sid.pinOut
        pinIn := (List.range 4).foldl (fun l k => sset (dflt 0) l k (v.get (8 + k))) x.sid.pinIn } })
        (fun _ => rfl) (fun _ => rfl) (fun _ => rfl) fun _ => rfl
    · exact h.setForce r rfl

theorem Dev.Kin.colApply (w : ColWhen) : Dev.Kin a (d.colApply w) (e.colApply w) := by
  simp only [Dev.colApply, h.col_eq]
  exact (Dev.Kin.foldl (fun x _ _ _ h => h.colPut x.1 x.2.1 x.2.2) h).map
    (fun x => { x with col := { x.col with waiting := x.col.waiting.filter fun x => decide (x.1 ≠ w) } })
    (fun _ => rfl) (fun _ => rfl) (fun _ => rfl) fun _ => rfl

theorem Dev.Kin.setCands (n : Nat) (cs : List Candidate) : Dev.Kin a (d.setCands n cs) (e.setCands n cs) :=
  (h.setFra n (by rw [h.fra_eq])).write _ rfl

theorem Dev.Kin.frGo (n st : Nat) : Dev.Kin a (d.frGo n st) (e.frGo n st) := by
  delta Dev.frGo
  extract_lets was d1 d2 d3 x was' e1 e2 e3 y
  have h2 : Dev.Kin a d2 e2 := ((h.write _ rfl).writeB _ rfl).raiseIfBoth (by rw [show was' = was from h.frs_eq n]) _ _
  have h3 : Dev.Kin a d3 e3 := by
    simp only [d3, e3]
    split
    · exact h2
    · exact h2.colApply _
  exact h3.setFra n (by rw [show y = x from h3.fra_eq n])

theorem Dev.Kin.frToIdle (n : Nat) : Dev.Kin a (d.frToIdle n) (e.frToIdle n) := by
  rw [Dev.frToIdle, Dev.frToIdle, h.frs_eq]
  split
  · exact h
  · exact (h.setCands n []).frGo n _

theorem Dev.Kin.frDelivering (n : Nat) : Dev.Kin a (d.frDelivering n) (e.frDelivering n) := by
  rw [Dev.frDelivering, Dev.frDelivering, h.frs_eq]
  split
  · exact ((h.setFra n (by rw [h.fra_eq, h.clock_eq])).setCands n []).frGo n _
  · exact h

theorem Dev.Kin.alGo (n st : Nat) : Dev.Kin a (d.alGo n st) (e.alGo n st) := by
  delta Dev.alGo
  extract_lets was d1 d2 was' e1 e2
  have h1 : Dev.Kin a d1 e1 := (h.write _ rfl).raiseIfBoth (by rw [show was' = was from h.als_eq n]) _ _
  have h2 : Dev.Kin a d2 e2 := by
    simp only [d2, e2]
    split
    · exact h1.write _ rfl
    · exact h1
  split
  · exact h2.frDelivering n
  · exact h2.frToIdle n

theorem Dev.Kin.alFollow (n : Nat) : Dev.Kin a (d.alFollow n) (e.alFollow n) := by
  rw [Dev.alFollow, Dev.alFollow, h.alMustIdle_eq, h.als_eq]
  have hc : Dev.Kin a (d.chordClear n) (e.chordClear n) := by
    simp only [Dev.chordClear, h.rxe_eq]
    exact h.setRxe n rfl
  have hlead : (e.chordClear n).rxLead n = (d.chordClear n).rxLead n := by simp only [Dev.rxLead, hc.rxTwin_eq]
  split_ifs
  · exact h.frToIdle n
  · exact h.alGo n _
  · rw [Dev.alSearch, Dev.alSearch, hlead, hc.toLike.rd (by simp only [overflowCell, regCell]; omega)]
    exact hc.alGo n _
  · exact h

theorem Dev.Kin.alFollowPair (n : Nat) : Dev.Kin a (d.alFollowPair n) (e.alFollowPair n) := by
  rw [Dev.alFollowPair, Dev.alFollowPair, h.rxTwin_eq]
  split
  · exact ((h.alFollow _).alFollow _).settleCourses
  · exact (h.alFollow n).settleCourses

/-- The receive path of an engine declared failed on kin devices (R13, R19). -/
theorem Dev.Kin.engineFault (n : Nat) : Dev.Kin a (d.engineFault n) (e.engineFault n) :=
  (h.setRxe n (by rw [h.rxe_eq])).alFollowPair n

/-! Client ports (R230) -/

theorem Dev.Kin.portLanes_eq (p : Nat) : e.portLanes p = d.portLanes p := by
  rw [Dev.portLanes, Dev.portLanes, h.toLike.rd (by simp only [overflowCell, regCell]; omega)]

theorem Dev.Kin.portExists_eq (p : Nat) : e.portExists p = d.portExists p := by
  simp only [Dev.portExists, Dev.laneOn, h.variant_eq, h.portLanes_eq]

theorem Dev.Kin.portOn_eq (p : Nat) : e.portOn p = d.portOn p := by
  rw [Dev.portOn, Dev.portOn, h.portExists_eq, h.toLike.on (by simp only [overflowCell, regCell]; omega)]

theorem Dev.Kin.portWorks_eq (p : Nat) : e.portWorks p = d.portWorks p := by
  simp (disch := (simp only [overflowCell, regCell]; omega)) only [Dev.portWorks,
    Dev.blockOut, Dev.block, h.bist_eq, h.portLanes_eq, h.xqStopped_eq, h.toLike.rd]

theorem Dev.Kin.setPort (p : Nat) (aligned hiSer lf rf : Bool) : Dev.Kin a (d.setPort p aligned hiSer lf rf) (e.setPort p aligned hiSer lf rf) := by
  delta Dev.setPort
  extract_lets al up changed d1 d2 al' up' changed' e1 e2
  have hal : al' = al := by
    simp (disch := exact not_overflowCell_lane _ _) only [al', al, h.portLanes_eq, h.toLike.on]
  have hup : up' = up := by simp only [up', up, hal, h.portOn_eq, h.portWorks_eq]
  have hchanged : changed' = changed := by
    simp (disch := (simp only [overflowCell, regCell]; omega)) only [changed', changed, hup, h.toLike.on]
  have h1 : Dev.Kin a d1 e1 := ((h.writeB _ hal).writeB _ rfl).writeB _ rfl
  have h2 : Dev.Kin a d2 e2 := ((h1.writeB _ rfl).writeB _ hup).writeB _ (h1.portExists_eq p)
  rw [hchanged]
  split
  · exact h2.raiseBoth _ _
  · exact h2

theorem Dev.Kin.settlePort (p : Nat) : Dev.Kin a (d.settlePort p) (e.settlePort p) := by
  simp (disch := (simp only [overflowCell, regCell]; omega)) only [Dev.settlePort, h.toLike.on]
  exact h.setPort p _ _ _ _

end Operations
end Sys2Proof.Machine
end

section
-- One proof after another: elaborated at once, these proofs wait for each other in more threads than the memory holds.
set_option Elab.async false
namespace Sys2Proof.Machine

/-! ### Shedding on kin devices (R24 to R34, R97) -/

section Shed
variable {a : List (Nat × Nat)} {d e : Dev} (h : Dev.Kin a d e)
include h

theorem Dev.Kin.cpe_eq (n : Nat) : e.cpe n = d.cpe n := by
  rw [Dev.cpe, Dev.cpe, h.cap_eq]

theorem Dev.Kin.capFor_eq (req steps : Nat) : e.capFor req steps = d.capFor req steps := by
  simp (disch := (simp only [overflowCell, regCell]; omega)) only [Dev.capFor, Dev.beFloor, Dev.captureTerm, h.toLike.rd]

theorem Dev.Kin.demandFor_eq (req : Nat) : e.demandFor req = d.demandFor req := by
  simp (disch := (simp only [overflowCell, regCell]; omega)) only [Dev.demandFor, Dev.captureTerm, h.capFor_eq, h.toLike.rd]

theorem Dev.Kin.hbmSteps_eq : e.hbmSteps = d.hbmSteps := by
  simp (disch := (simp only [overflowCell, regCell]; omega)) only [Dev.hbmSteps, h.demandFor_eq, h.toLike.rd]

theorem Dev.Kin.hubOn_eq : e.hubOn = d.hubOn := by
  have hp : e.power = d.power := h.toLike.part (fun x => x.power) fun _ => rfl
  have hs : e.pwr = d.pwr := h.toLike.rd pwr_cell
  simp only [Dev.hubOn, hp, hs]

theorem Dev.Kin.shedActive_eq (step : Nat) : e.shedActive step = d.shedActive step := by
  rw [Dev.shedActive, Dev.shedActive, h.toLike.rd (by simp only [overflowCell, regCell]; omega)]

theorem Dev.Kin.shareStep : Dev.Kin a d.shareStep e.shareStep := by
  have hs : e.rd Reg.PARSE_BE_SHARE = d.rd Reg.PARSE_BE_SHARE := h.toLike.rd (by simp only [overflowCell, regCell]; omega)
  have hf : e.rd Reg.PARSE_BE_SHARE_FLOOR = d.rd Reg.PARSE_BE_SHARE_FLOOR := h.toLike.rd (by simp only [overflowCell, regCell]; omega)
  rw [Dev.shareStep, Dev.shareStep, h.shedActive_eq, hs, hf]
  split_ifs
  · exact h.write _ rfl
  · exact h
  · exact h.write _ rfl
  · exact h

theorem Dev.Kin.showCapBusy (n : Nat) : Dev.Kin a (d.showCapBusy n) (e.showCapBusy n) :=
  h.writeB _ (by rw [h.cpe_eq])

theorem Dev.Kin.capMiss (n : Nat) : Dev.Kin a (d.capMiss n) (e.capMiss n) :=
  (h.bumpBoth _).raiseBoth _ _

theorem Dev.Kin.tick : Dev.Kin a d.tick e.tick :=
  h.map Dev.tick (fun _ => rfl) (fun _ => rfl) (fun _ => rfl) fun _ => rfl

theorem Dev.Kin.store (at_ : Nat) (bs : List Byte) : Dev.Kin a (d.store at_ bs) (e.store at_ bs) :=
  h.map (Dev.store at_ bs) (fun _ => rfl) (fun _ => rfl) (fun _ => rfl) fun _ => rfl

theorem Dev.Kin.poisonWords (ws : List Nat) : Dev.Kin a (d.poisonWords ws) (e.poisonWords ws) :=
  h.map (Dev.poisonWords ws) (fun _ => rfl) (fun _ => rfl) (fun _ => rfl) fun _ => rfl

theorem Dev.Kin.storeCapture (n flags : Nat) (r : CapRec) : Dev.Kin a (d.storeCapture n flags r) (e.storeCapture n flags r) := by
  have hs (at_ : Nat) (bs : List Byte) := h.store at_ bs
  simp only [Dev.storeCapture, Dev.storeMarked, (hs _ _).fresh_eq]
  split
  · exact ((hs _ _).poisonWords _).tick
  · exact hs _ _

theorem Dev.Kin.recordOf_eq (n : Nat) (r : CapRun) (samples : List Byte) (flags : Nat) :
    e.recordOf n r samples flags = d.recordOf n r samples flags := by
  simp (disch := (simp only [overflowCell, regCell]; omega)) only [Dev.recordOf, Dev.rdS, h.cpe_eq, h.toLike.rd]

/-- A record finds its place on both of two kin devices, or on neither (R95). -/
theorem Dev.Kin.placeRecord (n count : Nat) (r : CapRec) :
    (d.placeRecord n count r = none ∧ e.placeRecord n count r = none) ∨
    ∃ c d' e', d.placeRecord n count r = some (c, d') ∧ e.placeRecord n count r = some (c, e') ∧ Dev.Kin a d' e' := by
  delta Dev.placeRecord
  extract_lets u size wr rd wraps need room start d1 kept recs d2 d3 d4 size' wr' rd' wraps' need' room' start' e1 kept' recs' e2 e3 e4
  have hsize : size' = size := by simp (disch := (simp only [overflowCell, regCell]; omega)) only [size', size, Dev.capUnits, h.toLike.rd]
  have hwr : wr' = wr := h.toLike.rd (by simp only [overflowCell, regCell]; omega)
  have hrd : rd' = rd := h.toLike.rd (by simp only [overflowCell, regCell]; omega)
  have hwraps : wraps' = wraps := by simp only [wraps', wraps, hwr, hsize]
  have hneed : need' = need := by simp only [need', need, hwraps, hsize, hwr]
  have hroom : room' = room := by simp only [room', room, hrd, hwr, hsize]
  have hstart : start' = start := by simp only [start', start, hwraps, hwr]
  have h1 : Dev.Kin a d1 e1 := by
    simp only [d1, e1, hwraps, hwr, hsize]
    split
    · exact h.store _ _
    · exact h
  have hrecs : recs' = recs := by simp only [recs', recs, kept', kept, h1.capRecs_eq, hstart, hwraps, hwr, hsize]
  have h2 : Dev.Kin a d2 e2 := by
    simp only [d2, e2, hrecs]
    exact h1.map (fun x => { x with capRecs := recs }) (fun _ => rfl) (fun _ => rfl) (fun _ => rfl) fun _ => rfl
  have h4 : Dev.Kin a d4 e4 := (h2.write _ (by rw [hstart, hsize])).write _ (by rw [hrecs])
  rw [hsize, hwr, hrd, hwraps, hneed, hroom, hstart, h.toLike.on (by simp only [overflowCell, regCell]; omega)]
  split
  · exact .inl ⟨rfl, rfl⟩
  · exact .inr ⟨_, _, _, rfl, rfl, h4⟩

/-- A capture or drain ended short on kin devices (R97). -/
theorem Dev.Kin.capTruncate (n : Nat) : Dev.Kin a (d.capTruncate n) (e.capTruncate n) := by
  delta Dev.capTruncate
  extract_lets x k d1 src d3 put d4 x' k' e1 src' e3 e4
  have hx : x' = x := h.cpe_eq n
  have hk : k' = k := h.fresh_eq
  have h1 : Dev.Kin a d1 e1 := by
    simp only [d1, e1, hx, hk]
    refine Dev.Kin.foldl (fun p _ _ _ h => ?_) h
    exact h.storeCapture n _ _
  have h3 : Dev.Kin a d3 e3 := h1.setCpe n (by rw [show src' = src from h1.cpe_eq n])
  have hput (c : CapRec) {d e : Dev} (h : Dev.Kin a d e) : Dev.Kin a (put c d) (put c e) := by
    have hs := h.storeCapture n c.flags c
    exact hs.setCpe n (by rw [hs.cpe_eq])
  have h4 : Dev.Kin a d4 e4 := by
    simp only [d4, e4, hx, hk, h3.recordOf_eq]
    cases x.run with
    | none => exact h3
    | some r =>
      dsimp only
      split_ifs
      · exact hput _ h3
      · obtain ⟨hd, he⟩ | ⟨c, d', e', hd, he, hc⟩ := h3.placeRecord n _ (d3.recordOf n r (freeSamples k n r.length) (1 + 16))
        · rw [hd, he]
          exact h3.capMiss n
        · rw [hd, he]
          exact hput c hc
      · exact h3
  rw [hx]
  split
  · exact (h4.tick.showCapBusy n).raiseBoth _ _
  · exact h

theorem Dev.Kin.settleShed : Dev.Kin a d.settleShed e.settleShed := by
  delta Dev.settleShed
  extract_lets old new d1 d2 old' new' e1 e2
  have hold : old' = old := h.toLike.rd (by simp only [overflowCell, regCell]; omega)
  have hnew : new' = new := by
    simp (disch := (simp only [overflowCell, regCell]; omega)) only [new', new, h.toLike.rd]
  have h1 : Dev.Kin a d1 e1 := (h.write _ hnew).raiseIfBoth (by rw [hold, hnew]) _ _
  have h2 : Dev.Kin a d2 e2 := by
    simp only [d2, e2, hold, hnew]
    split
    · exact Dev.Kin.foldl (fun n _ _ _ h => h.capTruncate n) h1
    · exact h1
  rw [hold, hnew]
  split
  · exact h2.shareStep
  · exact h2

/-- The HBM check made on kin devices (R26, R33). -/
theorem Dev.Kin.hbmEval : Dev.Kin a d.hbmEval e.hbmEval := by
  have hr (f : Field) (hc : ¬ overflowCell f.cell) : e.rd f = d.rd f := h.toLike.rd hc
  have ht := hr Reg.REQ_THERM_STEP (by simp only [overflowCell, regCell]; omega)
  have hh := hr Reg.REQ_HOST_STEP (by simp only [overflowCell, regCell]; omega)
  have hu := hr Reg.HBM_BUDGET_USABLE (by simp only [overflowCell, regCell]; omega)
  delta Dev.hbmEval
  extract_lets req steps d1 req' steps' e1
  have hreq : req' = req := h.hbmSteps_eq
  have hsteps : steps' = steps := by simp only [steps', steps, ht, hh, hreq]
  have h1 : Dev.Kin a d1 e1 := (h.write _ (by rw [h.capFor_eq, hreq, hsteps])).write _ (by rw [h.demandFor_eq, hreq])
  rw [h.hubOn_eq, hu]
  split
  · exact (h1.write _ hreq).settleShed
  · exact h.settleShed

end Shed
end Sys2Proof.Machine
end

section
namespace Sys2Proof.Machine

/-! ### Operations that store nothing and keep latches -/

/-- From `d` to `e` nothing is stored, no check byte is written, and a latched E-00.16 stays latched. -/
structure Dev.Quiet (d e : Dev) : Prop where
  /-- no store -/
  hbmOut : e.hbmOut = d.hbmOut
  /-- no check byte -/
  integ : e.integ = d.integ
  /-- the agent that acts -/
  accessor : e.accessor = d.accessor
  /-- the latch bit of E-00.16 -/
  latch : d.latched 0 16 = true → e.latched 0 16 = true

theorem Dev.Quiet.refl (d : Dev) : Dev.Quiet d d :=
  ⟨rfl, rfl, rfl, id⟩

section Quiet
variable {d e : Dev} (h : Dev.Quiet d e)
include h

theorem Dev.Quiet.kin {a : List (Nat × Nat)} {f : Dev} (k : Dev.Kin a e f) : Dev.Quiet d f where
  hbmOut := (k.toLike.part (fun x => x.hbmOut) fun _ => rfl).trans h.hbmOut
  integ := (k.toLike.part (fun x => x.integ) fun _ => rfl).trans h.integ
  accessor := (k.toLike.part (fun x => x.accessor) fun _ => rfl).trans h.accessor
  latch hl := by rw [k.events.latch 0 16 (by decide) (by decide), h.latch hl, Bool.true_or]

/-- Parts other than the stores, the check bytes, the accessor and the events may change. -/
theorem Dev.Quiet.map {u : Dev → Dev} (ho : ∀ x, (u x).hbmOut = x.hbmOut) (hi : ∀ x, (u x).integ = x.integ)
    (ha : ∀ x, (u x).accessor = x.accessor) (he : ∀ x, (u x).ev = x.ev) : Dev.Quiet d (u e) where
  hbmOut := (ho e).trans h.hbmOut
  integ := (hi e).trans h.integ
  accessor := (ha e).trans h.accessor
  latch hl := by rw [Dev.latched, he]; exact h.latch hl

theorem Dev.Quiet.wr (f : Field) (v : Nat) : Dev.Quiet d (e.wr f v) :=
  h.map (u := fun x => x.wr f v) (fun _ => rfl) (fun _ => rfl) (fun _ => rfl) fun _ => rfl

theorem Dev.Quiet.raise (g b : Nat) : Dev.Quiet d (e.raise g b) :=
  h.kin (Dev.Kin.raise e g b)

theorem Dev.Quiet.raiseIf (c : Bool) (g b : Nat) : Dev.Quiet d (e.raiseIf c g b) :=
  h.kin (Dev.Kin.raiseIf e c g b)

theorem Dev.Quiet.setRxe (n : Nat) (x : RxEngine) : Dev.Quiet d (e.setRxe n x) :=
  h.map (u := Dev.setRxe n x) (fun _ => rfl) (fun _ => rfl) (fun _ => rfl) fun _ => rfl

theorem Dev.Quiet.setFra (n : Nat) (x : FrEngine) : Dev.Quiet d (e.setFra n x) :=
  h.map (u := Dev.setFra n x) (fun _ => rfl) (fun _ => rfl) (fun _ => rfl) fun _ => rfl

theorem Dev.Quiet.setPr (p : Nat) (x : Pair) : Dev.Quiet d (e.setPr p x) :=
  h.map (u := Dev.setPr p x) (fun _ => rfl) (fun _ => rfl) (fun _ => rfl) fun _ => rfl

theorem Dev.Quiet.setForce (r : Nat) (v : ColVals) : Dev.Quiet d (e.setForce r v) :=
  h.map (u := Dev.setForce r v) (fun _ => rfl) (fun _ => rfl) (fun _ => rfl) fun _ => rfl

theorem Dev.Quiet.sid (x : Sidereal) : Dev.Quiet d { e with sid := x } :=
  h.map (u := fun e => { e with sid := x }) (fun _ => rfl) (fun _ => rfl) (fun _ => rfl) fun _ => rfl

theorem Dev.Quiet.relay (x : Relay) : Dev.Quiet d { e with relay := x } :=
  h.map (u := fun e => { e with relay := x }) (fun _ => rfl) (fun _ => rfl) (fun _ => rfl) fun _ => rfl

theorem Dev.Quiet.foldl {α : Type} {f : Dev → α → Dev} (hf : ∀ {e} x, Dev.Quiet d e → Dev.Quiet d (f e x)) (l : List α) :
    Dev.Quiet d (l.foldl f e) := by
  induction l generalizing e with
  | nil => exact h
  | cons x l ih => exact ih (hf x h)

/-! Courses and pairs -/

theorem Dev.Quiet.showPair (p : Nat) : Dev.Quiet d (e.showPair p) := by
  delta Dev.showPair
  extract_lets ca cb mode unprot d1 d2 d3
  split_ifs
  · exact ((((((h.wr _ _).wr _ _).wr _ _).wr _ _).wr _ _).wr _ _).wr _ _
  · exact ((h.wr _ _).wr _ _).wr _ _
  · exact h.wr _ _

theorem Dev.Quiet.wtrRule (p : Nat) (hadA : Bool) : Dev.Quiet d (e.wtrRule p hadA) := by
  delta Dev.wtrRule
  extract_lets x0 x d1 z d2 r y
  have h2 : Dev.Quiet d d2 := by
    simp only [d2]
    split
    · exact (h.setPr p _).setPr p _
    · exact h.setPr p _
  split
  · exact h2.setPr p _
  · exact h2

theorem Dev.Quiet.courseToPairs (c : Nat) : Dev.Quiet d (e.courseToPairs c) := by
  unfold Dev.courseToPairs
  split
  · rename_i p _
    unfold Dev.pairConditions
    dsimp only
    split
    · exact ((h.setPr p _).wtrRule p _).showPair p
    · exact h.showPair p
  · exact h

theorem Dev.Quiet.setCrsBit (c : Nat) (f : Field) (ev : Option Nat) (v : Bool) : Dev.Quiet d (e.setCrsBit c f ev v) := by
  have hw : Dev.Quiet d ((e.wrB f v).crsChanged c) := (h.wr _ _).wr _ _
  unfold Dev.setCrsBit
  split
  · exact h
  · cases ev with
    | none => exact hw
    | some b => exact hw.raise 19 b

theorem Dev.Quiet.settleCourses : Dev.Quiet d e.settleCourses := by
  refine h.foldl (fun {e} c h => ?_) _
  unfold Dev.settleCourse
  dsimp only
  split
  · exact h
  · exact ((((h.setCrsBit c _ _ _).setCrsBit c _ _ _).wr _ _).wr _ _).courseToPairs c

/-! Alignment of the receive engines -/

theorem Dev.Quiet.colPut (w : ColWhen) (r : Nat) (v : ColVals) : Dev.Quiet d (e.colPut w r v) := by
  unfold Dev.colPut
  dsimp only
  split
  · cases w <;> exact (h.setForce r _).wr _ _
  · split
    · exact (h.setForce r v).sid _
    · exact h.setForce r v

theorem Dev.Quiet.colApply (w : ColWhen) : Dev.Quiet d (e.colApply w) :=
  (h.foldl (fun x h => h.colPut x.1 x.2.1 x.2.2) _).map
    (u := fun x => { x with col := { x.col with waiting := x.col.waiting.filter fun x => decide (x.1 ≠ w) } })
    (fun _ => rfl) (fun _ => rfl) (fun _ => rfl) fun _ => rfl

theorem Dev.Quiet.frGo (n st : Nat) : Dev.Quiet d (e.frGo n st) := by
  unfold Dev.frGo
  dsimp only
  split
  · exact (((h.wr _ _).wr _ _).raiseIf _ _ _).setFra n _
  · exact ((((h.wr _ _).wr _ _).raiseIf _ _ _).colApply _).setFra n _

theorem Dev.Quiet.frToIdle (n : Nat) : Dev.Quiet d (e.frToIdle n) := by
  unfold Dev.frToIdle
  split
  · exact h
  · exact ((h.setFra n _).wr _ _).frGo n _

theorem Dev.Quiet.frDelivering (n : Nat) : Dev.Quiet d (e.frDelivering n) := by
  unfold Dev.frDelivering
  split
  · exact (((h.setFra n _).setFra n _).wr _ _).frGo n _
  · exact h

theorem Dev.Quiet.alGo (n st : Nat) : Dev.Quiet d (e.alGo n st) := by
  delta Dev.alGo
  extract_lets was d1 d2
  have h2 : Dev.Quiet d d2 := by
    simp only [d2]
    split
    · exact ((h.wr _ _).raiseIf _ _ _).wr _ _
    · exact (h.wr _ _).raiseIf _ _ _
  split
  · exact h2.frDelivering n
  · exact h2.frToIdle n

theorem Dev.Quiet.alFollow (n : Nat) : Dev.Quiet d (e.alFollow n) := by
  unfold Dev.alFollow
  split_ifs
  · exact h.frToIdle n
  · exact h.alGo n _
  · exact (h.setRxe n _).alGo n _
  · exact h

theorem Dev.Quiet.engineFault (n : Nat) : Dev.Quiet d (e.engineFault n) := by
  have hf := h.setRxe n { e.rxe n with fault := true }
  unfold Dev.engineFault Dev.alFollowPair
  split
  · exact ((hf.alFollow _).alFollow _).settleCourses
  · exact (hf.alFollow n).settleCourses

/-! Client ports -/

theorem Dev.Quiet.settlePort (p : Nat) : Dev.Quiet d (e.settlePort p) := by
  unfold Dev.settlePort Dev.setPort
  dsimp only
  split
  · exact ((((((h.wr _ _).wr _ _).wr _ _).wr _ _).wr _ _).wr _ _).raise _ _
  · exact (((((h.wr _ _).wr _ _).wr _ _).wr _ _).wr _ _).wr _ _

/-! Relay links (R396, R403, R408, R412) and the DPLL (R337 to R344) -/

theorem Dev.Quiet.laneChange (x : Nat) : Dev.Quiet d (e.laneChange x) := by
  unfold Dev.laneChange
  split
  · exact h.raise _ _
  · exact h.raise _ _

theorem Dev.Quiet.settleRemotes : Dev.Quiet d e.settleRemotes :=
  h.foldl (fun _ h => h.wr _ _) _

theorem Dev.Quiet.slotsFail (x : Nat) : Dev.Quiet d (e.slotsFail x) :=
  (h.foldl (fun _ h => (h.relay _).foldl (fun _ h => h.relay _) _) _).settleRemotes

theorem Dev.Quiet.settleLink (x : Nat) : Dev.Quiet d (e.settleLink x) := by
  delta Dev.settleLink
  extract_lets v d1
  have h1 : Dev.Quiet d d1 := by
    simp only [d1]
    split
    · exact h
    · exact (h.wr _ _).laneChange x
  split_ifs
  · exact h
  · exact h1.settleRemotes
  · exact h1.slotsFail x

theorem Dev.Quiet.setHist (v : Bool) : Dev.Quiet d (e.setHist v) := by
  unfold Dev.setHist
  split
  · exact h
  · exact (h.wr _ _).raise _ _

theorem Dev.Quiet.sidIf (c : Prop) [Decidable c] (x : Sidereal) : Dev.Quiet d (if c then { e with sid := x } else e) := by
  split
  · exact h.sid x
  · exact h

theorem Dev.Quiet.dpllGo (st : Nat) : Dev.Quiet d (e.dpllGo st) := by
  delta Dev.dpllGo
  extract_lets was left1 d1 d2 d3 left4 d4 left5 d5
  have h1 : Dev.Quiet d d1 := h.sidIf _ _
  have h2 : Dev.Quiet d d2 := by
    simp only [d2]
    split
    · exact h1.wr _ _
    · exact h1
  have h3 : Dev.Quiet d d3 := (h2.wr _ _).raiseIf _ _ _
  have h4 : Dev.Quiet d d4 := h3.sidIf _ _
  have h5 : Dev.Quiet d d5 := h4.sidIf _ _
  split
  · exact h5.setHist _
  · exact h5

theorem Dev.Quiet.dpllNext (lost : Bool) : Dev.Quiet d (e.dpllNext lost) := by
  unfold Dev.dpllNext
  dsimp only
  split_ifs <;> simp only [h, h.dpllGo]

theorem Dev.Quiet.showFreq : Dev.Quiet d e.showFreq := by
  unfold Dev.showFreq
  split_ifs
  · exact h
  · exact h.wr _ _
  · exact h.wr _ _
  · exact h

theorem Dev.Quiet.settleDpll : Dev.Quiet d e.settleDpll := by
  unfold Dev.settleDpll
  dsimp only
  split
  · exact h
  · exact ((((((h.wr _ _).raiseIf _ _ _).dpllNext _).dpllNext _).wr _ _).wr _ _).showFreq

theorem Dev.Quiet.settleTime (p : Nat) : Dev.Quiet d (e.settleTime p) := by
  unfold Dev.settleTime
  dsimp only
  split
  · exact h
  · exact ((h.wr _ _).raise _ _).settleDpll

omit h in
/-- What follows a change of a relay lane stores nothing. -/
theorem Dev.Quiet.laneStep {s : Dev} {x : Nat} {f : Dev → Dev} (hf : Dev.Quiet d (f s)) : Dev.Quiet d (s.laneStep x f) := by
  unfold Dev.laneStep
  dsimp only
  split
  · exact hf
  · exact (((hf.settleLink x).settleTime _).wr _ _).raiseIf _ _ _

end Quiet
end Sys2Proof.Machine
end

section
namespace Sys2Proof.Machine

/-! ### The hub's registers under the HBM check (R26, R33) -/

/-- The cells of the register pages below those of the line engines, but for the OVF registers. -/
abbrev hubCell (c : Nat) : Prop :=
  c < regCell 0x100 0 ∧ ¬ overflowCell c

/-- From `d` to `e` the hub's register words outside `except`, the page headers and the agent that acts stay. -/
structure Dev.HubKept (except : List Nat) (d e : Dev) : Prop where
  /-- the register words -/
  words : ∀ c, hubCell c → c ∉ except → e.word c = d.word c
  /-- the page headers -/
  pages : e.pages = d.pages
  /-- the agent that acts -/
  accessor : e.accessor = d.accessor

theorem Dev.HubKept.refl (cs : List Nat) (d : Dev) : Dev.HubKept cs d d :=
  ⟨fun _ _ _ => rfl, rfl, rfl⟩

section Kept
variable {cs : List Nat} {d e : Dev} (h : Dev.HubKept cs d e)
include h

theorem Dev.HubKept.rd {f : Field} (hf : hubCell f.cell) (hn : f.cell ∉ cs) : e.rd f = d.rd f := by
  rw [Dev.rd, Dev.rd, h.words _ hf hn]

theorem Dev.HubKept.kin {a : List (Nat × Nat)} {f : Dev} (k : Dev.Kin a e f) : Dev.HubKept cs d f where
  words c hc hn := (k.words c hc.2).trans (h.words c hc hn)
  pages := (k.toLike.part (fun x => x.pages) fun _ => rfl).trans h.pages
  accessor := (k.toLike.part (fun x => x.accessor) fun _ => rfl).trans h.accessor

theorem Dev.HubKept.map {u : Dev → Dev} (hr : ∀ x, (u x).regs = x.regs) (hp : ∀ x, (u x).pages = x.pages)
    (ha : ∀ x, (u x).accessor = x.accessor) : Dev.HubKept cs d (u e) where
  words c hc hn := by rw [Dev.word, hr]; exact h.words c hc hn
  pages := (hp e).trans h.pages
  accessor := (ha e).trans h.accessor

theorem Dev.HubKept.wr (f : Field) (v : Nat) (hf : ¬ hubCell f.cell ∨ f.cell ∈ cs) : Dev.HubKept cs d (e.wr f v) where
  words c hc hn := by
    have hne : c ≠ f.cell := by
      rintro rfl
      exact hf.elim (· hc) hn
    exact (word_wr_ne _ _ _ hne).trans (h.words c hc hn)
  pages := h.pages
  accessor := h.accessor

theorem Dev.HubKept.foldl {α : Type} {f : Dev → α → Dev} {l : List α}
    (hf : ∀ x ∈ l, ∀ {e}, Dev.HubKept cs d e → Dev.HubKept cs d (f e x)) :
    Dev.HubKept cs d (l.foldl f e) := by
  induction l generalizing e with
  | nil => exact h
  | cons x l ih => exact ih (hf x List.mem_cons_self h) fun y hy => hf y (List.mem_cons_of_mem _ hy)

theorem Dev.HubKept.storeCapture (n flags : Nat) (r : CapRec) : Dev.HubKept cs d (e.storeCapture n flags r) := by
  unfold Dev.storeCapture Dev.storeMarked
  dsimp only
  split
  · exact h.map (u := fun x => ((x.store _ _).poisonWords _).tick) (fun _ => rfl) (fun _ => rfl) fun _ => rfl
  · exact h.map (u := fun x => x.store _ _) (fun _ => rfl) (fun _ => rfl) fun _ => rfl

theorem Dev.HubKept.setCpe (n : Nat) (x : CapEngine) : Dev.HubKept cs d (e.setCpe n x) :=
  h.map (u := Dev.setCpe n x) (fun _ => rfl) (fun _ => rfl) fun _ => rfl

theorem Dev.HubKept.capMiss (n : Nat) : Dev.HubKept cs d (e.capMiss n) :=
  (h.wr _ _ (.inl (by simp only [hubCell, regCell]; omega))).kin (Dev.Kin.raise _ _ _)

theorem Dev.HubKept.placeRecord {n count : Nat} {r c : CapRec} {f : Dev} (hp : e.placeRecord n count r = some (c, f)) : Dev.HubKept cs d f := by
  revert hp
  delta Dev.placeRecord
  extract_lets u size wr rd wraps need room start d1 kept recs d2 d3 d4
  have h1 : Dev.HubKept cs d d1 := by
    simp only [d1]
    split
    · exact h.map (u := fun x => x.store _ _) (fun _ => rfl) (fun _ => rfl) fun _ => rfl
    · exact h
  have h2 : Dev.HubKept cs d d2 := h1.map (u := fun x => { x with capRecs := recs }) (fun _ => rfl) (fun _ => rfl) fun _ => rfl
  have h4 : Dev.HubKept cs d d4 :=
    (h2.wr _ _ (.inl (by simp only [hubCell, regCell]; omega))).wr _ _ (.inl (by simp only [hubCell, regCell]; omega))
  intro hp
  split at hp
  · cases hp
  · simp only [Option.some.injEq, Prod.mk.injEq] at hp
    exact hp.2 ▸ h4

theorem Dev.HubKept.capTruncate (n : Nat) : Dev.HubKept cs d (e.capTruncate n) := by
  delta Dev.capTruncate
  extract_lets x k d1 src d3 put d4
  have h1 : Dev.HubKept cs d d1 := h.foldl fun _ _ _ h => h.storeCapture n _ _
  have h3 : Dev.HubKept cs d d3 := h1.setCpe n _
  have hput (c : CapRec) {f : Dev} (h : Dev.HubKept cs d f) : Dev.HubKept cs d (put c f) := (h.storeCapture n c.flags c).setCpe n _
  have h4 : Dev.HubKept cs d d4 := by
    simp only [d4]
    cases x.run with
    | none => exact h3
    | some r =>
      dsimp only
      split_ifs
      · exact hput _ h3
      · split
        · rename_i hp
          exact hput _ (h3.placeRecord hp)
        · exact h3.capMiss n
      · exact h3
  have hb : ¬ hubCell (Reg.RX_CAP_STAT_BUSY n).cell := by simp only [hubCell, regCell]; omega
  split
  · exact ((h4.map (u := Dev.tick) (fun _ => rfl) (fun _ => rfl) fun _ => rfl).wr _ _ (.inl hb)).kin (Dev.Kin.raise _ _ _)
  · exact h

end Kept

/-- The union of the requests enters ACTIVE and moves PARSE_BE's share; no other register of the hub changes (R31, R33). -/
theorem Dev.hubKept_settleShed (d : Dev) :
    Dev.HubKept [Reg.PARSE_BE_SHARE.cell] (d.wr Reg.ACTIVE_STEP (d.rd Reg.REQ_THERM_STEP ||| d.rd Reg.REQ_HBM_STEP ||| d.rd Reg.REQ_HOST_STEP))
      d.settleShed := by
  delta Dev.settleShed
  extract_lets old new d1 d2
  have h1 : Dev.HubKept [Reg.PARSE_BE_SHARE.cell] (d.wr Reg.ACTIVE_STEP new) d1 := (Dev.HubKept.refl _ _).kin (Dev.Kin.raiseIf _ _ _ _)
  have h2 : Dev.HubKept [Reg.PARSE_BE_SHARE.cell] (d.wr Reg.ACTIVE_STEP new) d2 := by
    simp only [d2]
    split
    · exact h1.foldl fun n _ _ h => h.capTruncate n
    · exact h1
  split
  · unfold Dev.shareStep
    dsimp only
    split_ifs
    · exact h2.wr _ _ (.inr List.mem_cons_self)
    · exact h2
    · exact h2.wr _ _ (.inr List.mem_cons_self)
    · exact h2
  · exact h2

/-- The registers that the HBM check writes. -/
abbrev hbmCells : List Nat :=
  [Reg.PARSE_BE_SHARE.cell, Reg.ACTIVE_STEP.cell, Reg.BE_CAP_CAP.cell, Reg.HBM_BUDGET_DEMAND.cell, Reg.REQ_HBM_STEP.cell]

/-- The HBM check leaves the hub's other registers, the page headers and the agent that acts. -/
theorem Dev.hubKept_hbmEval (d : Dev) : Dev.HubKept hbmCells d d.hbmEval := by
  have hs (x : Dev) (hx : Dev.HubKept hbmCells d x) : Dev.HubKept hbmCells d x.settleShed := by
    have hw := hx.wr Reg.ACTIVE_STEP (x.rd Reg.REQ_THERM_STEP ||| x.rd Reg.REQ_HBM_STEP ||| x.rd Reg.REQ_HOST_STEP) (.inr (by simp [hbmCells]))
    obtain ⟨hwords, hpages, hacc⟩ := Dev.hubKept_settleShed x
    refine ⟨fun c hc hn => ?_, hpages.trans hw.pages, hacc.trans hw.accessor⟩
    exact (hwords c hc fun hm => hn (List.mem_cons.mpr (.inl (List.mem_singleton.mp hm)))).trans (hw.words c hc hn)
  unfold Dev.hbmEval
  dsimp only
  split
  · refine hs _ ((((Dev.HubKept.refl _ d).wr _ _ (.inr ?_)).wr _ _ (.inr ?_)).wr _ _ (.inr ?_)) <;> simp [hbmCells]
  · exact hs d (Dev.HubKept.refl _ d)

/-- After the requests are brought up to date ACTIVE is their union (R33, R34). -/
theorem Dev.settleShed_active (d : Dev) : d.settleShed.rd Reg.ACTIVE_STEP =
    d.settleShed.rd Reg.REQ_THERM_STEP ||| d.settleShed.rd Reg.REQ_HBM_STEP ||| d.settleShed.rd Reg.REQ_HOST_STEP := by
  have h := Dev.hubKept_settleShed d
  have hr (f : Field) (hf : f ∈ [Reg.ACTIVE_STEP, Reg.REQ_THERM_STEP, Reg.REQ_HBM_STEP, Reg.REQ_HOST_STEP]) :
      d.settleShed.rd f = (d.wr Reg.ACTIVE_STEP (d.rd Reg.REQ_THERM_STEP ||| d.rd Reg.REQ_HBM_STEP ||| d.rd Reg.REQ_HOST_STEP)).rd f := by
    simp only [List.mem_cons, List.not_mem_nil, or_false] at hf
    obtain rfl | rfl | rfl | rfl := hf <;>
      exact h.rd (by simp only [hubCell, overflowCell, regCell]; omega) (by simp only [List.mem_singleton, regCell]; omega)
  have hlt : d.rd Reg.REQ_THERM_STEP ||| d.rd Reg.REQ_HBM_STEP ||| d.rd Reg.REQ_HOST_STEP < 2 ^ Reg.ACTIVE_STEP.width :=
    Nat.or_lt_two_pow (Nat.or_lt_two_pow (rd_lt _ _) (rd_lt _ _)) (rd_lt _ _)
  rw [hr _ (by simp), hr _ (by simp), hr _ (by simp), hr _ (by simp), rd_wr_same _ _ _ (by decide), Nat.mod_eq_of_lt hlt,
    rd_wr_ne _ _ _ _ (by decide), rd_wr_ne _ _ _ _ (by decide), rd_wr_ne _ _ _ _ (by decide)]

theorem Dev.hbmEval_active (d : Dev) : d.hbmEval.rd Reg.ACTIVE_STEP =
    d.hbmEval.rd Reg.REQ_THERM_STEP ||| d.hbmEval.rd Reg.REQ_HBM_STEP ||| d.hbmEval.rd Reg.REQ_HOST_STEP := by
  unfold Dev.hbmEval
  split <;> exact Dev.settleShed_active _

end Sys2Proof.Machine
end

section
namespace Sys2Proof.Machine

/-! ### O41: shedding, clock-domain queues and the links of line dies -/

/-- A device function that comes to nothing settles on the device as it stands. -/
theorem settles_idle {f : Dev → Dev} {s : State} (hs : s.Inv) (hf : f s.dev = s.dev) : ∃ t, s.run f = .next t ∧ State.Settles [] s.dev s t :=
  settles_run hs (hf.symm ▸ (Dev.Kin.refl s.dev).toLike) rfl rfl rfl

/-- A command whose device is like a quiet one settles on it. -/
theorem settles_quiet {evs : List (Nat × Nat)} {f : Dev → Dev} {d : Dev} {s : State} (hs : s.Inv) (h : Dev.Like evs d (f s.dev))
    (hq : Dev.Quiet s.dev d) : ∃ t, s.run f = .next t ∧ State.Settles evs d s t :=
  settles_run hs h hq.hbmOut (congrArg Integrity.raw hq.integ) hq.accessor

theorem Dev.Quiet.writeWord (d : Dev) (page off : Nat) (own v : Word) : Dev.Quiet d (d.writeWord page off own v) where
  hbmOut := writeWord_part (fun x => x.hbmOut) (fun _ _ _ _ _ => rfl) d page off own v
  integ := writeWord_part (fun x => x.integ) (fun _ _ _ _ _ => rfl) d page off own v
  accessor := writeWord_part (fun x => x.accessor) (fun _ _ _ _ _ => rfl) d page off own v
  latch := by
    rw [Dev.latched, Dev.latched, writeWord_part (fun x => x.ev) (fun _ _ _ _ _ => rfl) d page off own v]
    exact id

/-! The host's request (R33) -/

theorem reqHost_kin {v : Word} {d : Dev} (hl : d.pageLive shedPage = true) (ht : d.pageInTest shedPage = false) :
    Dev.Kin [] (d.writeWord shedPage 0x04C 0 v).hbmEval (d.reqHost v) := by
  refine hostWrite_kin_of_le hl ht (by simp only [overflowCell, regCell, shedPage]; omega) (fun e he => he.hbmEval) ?_
  rw [Dev.hdr, (Dev.hubKept_hbmEval _).pages]
  exact viol_writeWord_le d shedPage 0x04C 0 v

theorem hbmUsable_reqHost {v : Word} {d : Dev} (hl : d.pageLive shedPage = true) (ht : d.pageInTest shedPage = false) :
    (d.reqHost v).hbmUsable = d.hbmUsable := by
  have hr (f : Field) (hf : f ∈ [Reg.RETIRED_LO, Reg.RETIRED_HI]) : (d.reqHost v).rd f = d.rd f := by
    have hc : hubCell f.cell ∧ f.cell ∉ hbmCells ∧ f.cell ≠ regCell shedPage 0x04C := by
      simp only [List.mem_cons, List.not_mem_nil, or_false] at hf
      obtain rfl | rfl := hf <;> simp only [hubCell, hbmCells, shedPage, overflowCell, regCell, List.mem_cons, List.not_mem_nil] <;> decide
    obtain ⟨hhub, hn, hne⟩ := hc
    calc (d.reqHost v).rd f
      _ = (d.writeWord shedPage 0x04C 0 v).hbmEval.rd f := (reqHost_kin hl ht).toLike.rd hhub.2
      _ = (d.writeWord shedPage 0x04C 0 v).rd f := (Dev.hubKept_hbmEval _).rd hhub hn
      _ = d.rd f := congrArg (getBits · _ _) (writeWord_word_ne d 0 v hne)
  rw [Dev.hbmUsable, Dev.hbmUsable, hr _ (by simp), hr _ (by simp)]

theorem stores_shedReqHostWrite {v : Word} {s : State} (hs : s.Inv) (hl : s.dev.pageLive shedPage = true)
    (ht : s.dev.pageInTest shedPage = false) :
    ∃ t, exec (.shedReqHostWrite v) s = .next t ∧
      (let a : Dev := (s.dev.writeWord shedPage 0x04C 0 v).hbmEval
       State.Stores [] { a with hbmOut := [] } a.hbmOut s t) ∧
      t.dev.rd Reg.ACTIVE_STEP = t.dev.rd Reg.REQ_THERM_STEP ||| t.dev.rd Reg.REQ_HBM_STEP ||| t.dev.rd Reg.REQ_HOST_STEP := by
  obtain ⟨-, -, -, -, hacc⟩ := hs
  have ha : (s.dev.writeWord shedPage 0x04C 0 v).hbmEval.accessor = .host :=
    (Dev.hubKept_hbmEval _).accessor.trans ((Dev.Quiet.writeWord _ _ _ _ _).accessor.trans hacc)
  have hst := stores_become (reqHost_kin (v := v) hl ht).toLike (hbmUsable_reqHost hl ht) ha
  have hr (f : Field) (hf : ¬ overflowCell f.cell) :
      (s.become (s.dev.reqHost v)).dev.rd f = (s.dev.writeWord shedPage 0x04C 0 v).hbmEval.rd f := hst.dev.rd hf
  refine ⟨_, rfl, hst, ?_⟩
  rw [hr _ (by simp only [overflowCell, regCell]; omega), hr _ (by simp only [overflowCell, regCell]; omega),
    hr _ (by simp only [overflowCell, regCell]; omega), hr _ (by simp only [overflowCell, regCell]; omega)]
  exact Dev.hbmEval_active _

/-! The share of best-effort parsing (R31) -/

/-- Step 4 is active where its bit of ACTIVE is set. -/
theorem shedActive_four (d : Dev) : d.shedActive 4 = d.on ⟨Reg.ACTIVE_STEP.cell, Reg.ACTIVE_STEP.lsb + 3, 1⟩ := by
  have h : d.rd ⟨Reg.ACTIVE_STEP.cell, Reg.ACTIVE_STEP.lsb + 3, 1⟩ = d.rd Reg.ACTIVE_STEP / 8 % 2 := by
    simp only [Dev.rd, getBits, Nat.shiftRight_eq_div_pow]
    omega
  rw [Dev.shedActive, Dev.on, h, bitAt, Nat.shiftRight_eq_div_pow]
  congr 1
  simp only [eq_iff_iff]
  omega

theorem settles_shareStep {s : State} {d : Dev} (hs : s.Inv) (hh : s.dev.hubOn = true) (hd : s.dev.shareStep = d) (hq : Dev.Quiet s.dev d) :
    ∃ t, exec .parseBeShareStep s = .next t ∧ State.Settles [] d s t := by
  refine settles_quiet hs ?_ hq
  rw [if_pos hh, hd]
  exact (Dev.Kin.refl d).toLike

/-! The high-water marks (Table 1.7) -/

theorem foldl_hwm_fill {d : Dev} {f : Nat} (hf : d.fresh = f) (l : List Nat) :
    l.foldl (fun (d : Dev) q => d.wr (Reg.LEVEL_HWM q) (d.xqFill q)) d =
      l.foldl (fun (d : Dev) q => d.wr (Reg.LEVEL_HWM q) (Config.freeOf 96 [q, f] % (xqDepth q + 1))) d := by
  induction l generalizing d with
  | nil => rfl
  | cons q l ih =>
    subst hf
    exact ih rfl

/-- The marks that HWM_CLEAR leaves. -/
def Dev.hwmSet (d : Dev) : Dev :=
  (List.range 220).foldl (fun (d : Dev) q => d.wr (Reg.LEVEL_HWM q) (d.xqFill q)) d

theorem Dev.Kin.hwmSet {d e : Dev} (h : Dev.Kin [] d e) :
    Dev.Kin [] d.hwmSet ((List.range 220).foldl (fun (x : Dev) q => x.wr (Reg.LEVEL_HWM q) (e.xqFill q)) e) := by
  rw [Dev.hwmSet, foldl_hwm_fill h.fresh_eq.symm]
  refine Dev.Kin.foldl ?_ h
  intro q hq d' e' h'
  have hq := List.mem_range.mp hq
  refine h'.write _ rfl ?_
  simp only [overflowCell, regCell]
  omega

theorem Dev.hwmSet_kept (d : Dev) : Dev.HubKept ((List.range 220).map fun q => (Reg.LEVEL_HWM q).cell) d d.hwmSet :=
  (Dev.HubKept.refl _ d).foldl fun _ hq _ h => h.wr _ _ (.inr (List.mem_map_of_mem hq))

theorem Dev.Quiet.hwmSet {d e : Dev} (h : Dev.Quiet d e) : Dev.Quiet d e.hwmSet.tick :=
  (h.foldl (fun _ h => h.wr _ _) _).map (u := Dev.tick) (fun _ => rfl) (fun _ => rfl) (fun _ => rfl) fun _ => rfl

theorem hwmClear_kin {v : Word} {d : Dev} (hv : v.getLsbD 0 = true) (hl : d.pageLive xqPage = true) (ht : d.pageInTest xqPage = false) :
    Dev.Kin [] (d.writeWord xqPage 0x3B0 1 v).hwmSet.tick (d.hwmClear v) := by
  refine hostWrite_kin_of_le hl ht (by simp only [overflowCell, regCell, xqPage]; omega) (fun e he => ?_) ?_
  · rw [if_pos hv]
    exact he.hwmSet.tick
  · rw [Dev.hdr, tick_pages, (Dev.hwmSet_kept _).pages]
    exact viol_writeWord_le d xqPage 0x3B0 1 v

/-! Queues that fail (R18, R19) -/

/-- The flag that queue `q` shows (Table 1.5). -/
def xqFlag (q : Nat) : Field :=
  if writerCannotWait q then Reg.LEVEL_OVERFLOW q else Reg.LEVEL_UNDERFLOW q

/-- Queue `q` shows a flag and stands still. -/
def Dev.xqStop (f : Field) (q : Nat) (d : Dev) : Dev :=
  { d.wr f 1 with xqStopped := q :: d.xqStopped.filter fun x => x ≠ q }

theorem xqFlag_writer {q : Nat} (hq : q < 8 ∨ (16 ≤ q ∧ q < 80) ∨ (184 ≤ q ∧ q < 200)) : xqFlag q = Reg.LEVEL_OVERFLOW q :=
  if_pos (decide_eq_true hq)

theorem xqFlag_reader {q : Nat} (hq : ¬ (q < 8 ∨ (16 ≤ q ∧ q < 80) ∨ (184 ≤ q ∧ q < 200))) : xqFlag q = Reg.LEVEL_UNDERFLOW q :=
  if_neg fun h => hq (of_decide_eq_true h)

theorem Dev.Quiet.xqStop {d e : Dev} (h : Dev.Quiet d e) (f : Field) (q : Nat) : Dev.Quiet d (e.xqStop f q) :=
  (h.wr _ _).map (u := fun x => { x with xqStopped := q :: e.xqStopped.filter fun x => x ≠ q })
    (fun _ => rfl) (fun _ => rfl) (fun _ => rfl) fun _ => rfl

/-- The port of a lane is the same after a queue has stopped and E-00.16 is raised. -/
theorem portOfLane_xqStop (q l : Nat) (hq : q < 220) (d : Dev) : ((d.xqStop (xqFlag q) q).raise 0 16).portOfLane l = d.portOfLane l := by
  have hk := Dev.Kin.raise (d.xqStop (xqFlag q) q) 0 16
  have hl (p : Nat) : (d.xqStop (xqFlag q) q).portLanes p = d.portLanes p := by
    have hr : (d.xqStop (xqFlag q) q).rd (Reg.OCT_CFG_WIDTH (8 * (p / 8))) = d.rd (Reg.OCT_CFG_WIDTH (8 * (p / 8))) :=
      rd_wr_ne d _ _ _ (by unfold xqFlag; split <;> simp only [regCell] <;> omega)
    rw [Dev.portLanes, Dev.portLanes, hr]
  have he (p : Nat) : (d.xqStop (xqFlag q) q).portExists p = d.portExists p := by
    rw [Dev.portExists, Dev.portExists, hl]
    rfl
  simp only [Dev.portOfLane, hk.portExists_eq, hk.portLanes_eq, hl, he]

/-- A queue whose writer or reader cannot wait stops with E-00.16, before the failure of what it serves. -/
theorem xqFail_eq {q : Nat} (hq : (writerCannotWait q || readerCannotWait q) = true) (d : Dev) :
    d.xqFail q =
      if q < 8 then ((d.xqStop (xqFlag q) q).raise 0 16).engineFault q
      else if q < 16 then ((d.xqStop (xqFlag q) q).raise 0 16).settleCourses
      else if 16 ≤ q ∧ q < 144 then
        match ((d.xqStop (xqFlag q) q).raise 0 16).portOfLane ((q - 16) % 64) with
        | some p => ((d.xqStop (xqFlag q) q).raise 0 16).settlePort p
        | none => (d.xqStop (xqFlag q) q).raise 0 16
      else (d.xqStop (xqFlag q) q).raise 0 16 := by
  unfold Dev.xqFail
  rw [if_pos hq]
  rfl

theorem cannotWait_iff (q : Nat) : (writerCannotWait q || readerCannotWait q) = true ↔ q < 144 ∨ (184 ≤ q ∧ q < 216) := by
  simp only [writerCannotWait, readerCannotWait, Bool.or_eq_true, decide_eq_true_eq]
  omega

/-- The mark of a refused access is no latch. -/
theorem latched_unrefused (d : Dev) (g b : Nat) : ({ d with refused := false } : Dev).latched g b = d.latched g b := rfl

section Queue
variable {q : Fin 220} {s : State} (hs : s.Inv) (hh : s.dev.hubOn = true)
include hs hh

/-- A queue that carries no relay lane acts on the hub at once. -/
theorem settles_xqFail {evs : List (Nat × Nat)} {d : Dev} (hn : ¬ (184 ≤ q.val ∧ q.val < 216)) (hk : Dev.Like evs d (s.dev.xqFail q))
    (hq : Dev.Quiet s.dev d) : ∃ t, exec (.xqOverflow q) s = .next t ∧ State.Settles evs d s t := by
  refine settles_quiet hs ?_ hq
  rw [if_pos hh, if_neg hn]
  exact hk

/-- A line receive queue that overflows fails its engine's receive path. -/
theorem settles_xqReceive (hq : q.val < 8) :
    ∃ t, exec (.xqOverflow q) s = .next t ∧ State.Settles [(0, 16)] ((s.dev.xqStop (xqFlag q) q).engineFault q) s t := by
  refine settles_xqFail hs hh (by omega) ?_ (((Dev.Quiet.refl _).xqStop _ q).engineFault q)
  rw [xqFail_eq ((cannotWait_iff _).mpr (by omega)), if_pos hq]
  exact ((Dev.Kin.raise (s.dev.xqStop (xqFlag q) q) 0 16).engineFault q).toLike

/-- A line transmit queue that underflows puts the courses of its engine in signal fail. -/
theorem settles_xqTransmit (hq : 8 ≤ q.val ∧ q.val < 16) :
    ∃ t, exec (.xqOverflow q) s = .next t ∧ State.Settles [(0, 16)] (s.dev.xqStop (xqFlag q) q).settleCourses s t := by
  refine settles_xqFail hs hh (by omega) ?_ ((Dev.Quiet.refl _).xqStop _ q).settleCourses
  rw [xqFail_eq ((cannotWait_iff _).mpr (by omega)), if_neg (by omega), if_pos hq.2]
  exact (Dev.Kin.raise (s.dev.xqStop (xqFlag q) q) 0 16).settleCourses.toLike

/-- A client queue that fails settles its port. -/
theorem settles_xqClient (hq : 16 ≤ q.val ∧ q.val < 144) :
    ∃ t, exec (.xqOverflow q) s = .next t ∧ State.Settles [(0, 16)]
      (match s.dev.portOfLane ((q.val - 16) % 64) with
        | some p => (s.dev.xqStop (xqFlag q) q).settlePort p
        | none => s.dev.xqStop (xqFlag q) q) s t := by
  have hr := Dev.Kin.raise (s.dev.xqStop (xqFlag q) q) 0 16
  have hx := (Dev.Quiet.refl s.dev).xqStop (xqFlag q) q
  have he := xqFail_eq ((cannotWait_iff q.val).mpr (by omega)) s.dev
  rw [if_neg (by omega), if_neg (by omega), if_pos hq, portOfLane_xqStop q _ q.isLt] at he
  refine settles_xqFail hs hh (by omega) ?_ ?_
  · rw [he]
    cases s.dev.portOfLane ((q.val - 16) % 64) with
    | none => exact hr.toLike
    | some p => exact (hr.settlePort p).toLike
  · cases s.dev.portOfLane ((q.val - 16) % 64) with
    | none => exact hx
    | some p => exact hx.settlePort p

/-- A relay queue that fails takes its lane's link down, and E-00.16 stands latched. -/
theorem settles_xqRelay (hq : 184 ≤ q.val ∧ q.val < 216) :
    ∃ t, exec (.xqOverflow q) s = .next t ∧
      State.Settles [] (s.dev.laneStep (64 + (q.val - 184) % 16) fun d => (d.xqStop (xqFlag q) q).raise 0 16) s t ∧ t.dev.latched 0 16 = true := by
  have hf : Dev.xqFail q = fun d => (d.xqStop (xqFlag q) q).raise 0 16 := funext fun d => by
    rw [xqFail_eq ((cannotWait_iff _).mpr (by omega)), if_neg (by omega), if_neg (by omega), if_neg (by omega)]
  have hon (d : Dev) : d.sourceOn 0 = true := by
    unfold Dev.sourceOn
    split <;> rfl
  have hlatch : ((s.dev.xqStop (xqFlag q) q).raise 0 16).latched 0 16 = true := by
    rw [(Dev.Kin.raise (s.dev.xqStop (xqFlag q) q) 0 16).events.latch 0 16 (by decide) (by decide), hon]
    exact Bool.or_true _
  have hkeeps : Dev.Quiet ((s.dev.xqStop (xqFlag q) q).raise 0 16)
      (s.dev.laneStep (64 + (q.val - 184) % 16) fun d => (d.xqStop (xqFlag q) q).raise 0 16) := Dev.Quiet.laneStep (Dev.Quiet.refl _)
  have hq' : Dev.Quiet s.dev (s.dev.laneStep (64 + (q.val - 184) % 16) fun d => (d.xqStop (xqFlag q) q).raise 0 16) :=
    Dev.Quiet.laneStep (((Dev.Quiet.refl _).xqStop _ q).raise 0 16)
  obtain ⟨t, ht, hset⟩ : ∃ t, exec (.xqOverflow q) s = .next t ∧
      State.Settles [] (s.dev.laneStep (64 + (q.val - 184) % 16) fun d => (d.xqStop (xqFlag q) q).raise 0 16) s t := by
    refine settles_quiet hs ?_ hq'
    rw [if_pos hh, if_pos hq, hf]
    exact (Dev.Kin.refl _).toLike
  refine ⟨t, ht, hset, ?_⟩
  rw [hset.dev.events.latch 0 16 (by decide) (by decide)]
  rw [latched_unrefused, hkeeps.latch hlatch, Bool.true_or]

end Queue

/-- Settles O41: each command's device is the statement's with the same events raised, since every operation on it treats kin devices alike. -/
theorem sheddingQueuesAndDieLinks : Obligations.SheddingQueuesAndDieLinks := by
  unfold Obligations.SheddingQueuesAndDieLinks
  refine ⟨fun v s hs hl ht _ => stores_shedReqHostWrite hs hl ht, fun s hs hh ha hlt => ?_, fun s hs hh ha hle => ?_, fun s hs hh ha hlt => ?_,
    fun v s hs hl ht => ?_, fun q s hs hh hq => ?_, fun q s hs hh hq => ?_, fun q s hs hh hq => ?_, fun q s hs hh hq => ?_,
    fun q s hs hh => ?_, fun s hs hc => ?_, fun k s hs hc => ?_, fun q s hs hh hq => ?_, fun k s hs hh hk => ?_⟩
  case refine_1 =>
    exact settles_shareStep hs hh (by rw [Dev.shareStep, shedActive_four, if_pos ha, if_pos hlt]) ((Dev.Quiet.refl _).wr _ _)
  case refine_2 =>
    exact settles_shareStep hs hh (by rw [Dev.shareStep, shedActive_four, if_pos ha, if_neg (by omega)]) (Dev.Quiet.refl _)
  case refine_3 =>
    exact settles_shareStep hs hh (by rw [Dev.shareStep, shedActive_four, if_neg (by simp [ha]), if_pos hlt]) ((Dev.Quiet.refl _).wr _ _)
  case refine_4 =>
    have hv : (v ||| 1#32).getLsbD 0 = true := by simp
    exact settles_quiet hs (hwmClear_kin hv hl ht).toLike (Dev.Quiet.writeWord _ _ _ _ _).hwmSet
  case refine_5 =>
    have h := settles_xqReceive hs hh hq
    rw [xqFlag_writer (.inl hq)] at h
    exact h
  case refine_6 =>
    have h := settles_xqTransmit hs hh hq
    rw [xqFlag_reader (by omega)] at h
    exact h
  case refine_7 =>
    have h := settles_xqClient hs hh hq
    dsimp only
    by_cases hc : q.val < 80
    · rw [xqFlag_writer (by omega)] at h
      rw [if_pos hc]
      exact h
    · rw [xqFlag_reader (by omega)] at h
      rw [if_neg hc]
      exact h
  case refine_8 =>
    have h := settles_xqRelay hs hh hq
    have hf : xqFlag q = if q.val < 200 then Reg.LEVEL_OVERFLOW q.val else Reg.LEVEL_UNDERFLOW q.val := by
      split
      · exact xqFlag_writer (by omega)
      · exact xqFlag_reader (by omega)
    rw [hf] at h
    exact h
  case refine_9 =>
    exact settles_idle hs (if_neg (by simp [hh]))
  case refine_10 =>
    refine settles_idle hs ?_
    obtain hh | ⟨ha, hge⟩ := hc
    · exact if_neg (by simp [hh])
    · have hk : s.dev.shareStep = s.dev := by rw [Dev.shareStep, shedActive_four, if_neg (by simp [ha]), if_neg (by omega)]
      rw [hk, ite_self]
  case refine_11 =>
    exact settles_idle hs (if_neg (by rintro ⟨h1, h2⟩; simp [h1, h2] at hc))
  case refine_12 =>
    refine settles_idle hs ?_
    have hk : ¬ (writerCannotWait q || readerCannotWait q) = true := fun h => by
      have := (cannotWait_iff q).mp h
      omega
    rw [if_pos hh, if_neg (by omega), Dev.xqFail, if_neg hk]
  case refine_13 =>
    have hq := ((Dev.Quiet.refl s.dev).map (u := fun d => { d with dieLost := d.dieLost ||| (1 <<< k.val) })
      (fun _ => rfl) (fun _ => rfl) (fun _ => rfl) fun _ => rfl).engineFault (2 * k.val)
    refine settles_quiet hs ?_ (hq.engineFault (2 * k.val + 1))
    rw [if_pos ⟨hh, hk⟩]
    exact (Dev.Kin.refl _).toLike

end Sys2Proof.Machine
end

section
namespace Sys2Proof.Machine
open Sys2Proof.Tests

/-! ### An entry to DARK can change which engine's ramp times its twin partner takes -/

/-- Engines 0 and 1 are a twin pair with unlike ramp times, engine 0 in PREP and engine 1 dark. Of the values that wait for both to be dark, one ends
twin mode and one puts engine 1 in LIT. The invariant says nothing of the cells that waiting values are for. -/
def untwinningPair : State :=
  runningWith [(Reg.TX_CTRL_TWIN 0, 1), (Reg.TX_STATE_STATE 0, txPrep), (Reg.TX_RAMP_TIME_MS 0, 5), (Reg.TX_RAMP_TIME_MS 1, 7)] fun d =>
    { d with later := [⟨linePage 0 1, (Reg.TX_CTRL_TWIN 0).cell, 2, 0, .relight⟩, ⟨linePage 0 1, (Reg.TX_STATE_STATE 1).cell, 7, 3, .relight⟩] }

theorem exec_txDisableWrite (n : Fin 8) (s : State) :
    exec (.txDisableWrite n) s = .next (s.become (s.dev.onHeldWrite (linePage n 0) 0x040 (.txDisable n) (Dev.txDisable n))) :=
  rfl

/-- The command ramps engine 1 down with the ramp time of its lead by then: itself, since twin mode has ended (R64, R65). -/
theorem rampTime_of_txDisableWrite :
    ((untwinningPair.dev.onHeldWrite (linePage 0 0) 0x040 (.txDisable 0) (Dev.txDisable 0)).txe 1).ramp.timeMs = 7 := by
  decide +kernel

/-- What O1's clause of ENABLE = 0 says that the engines of the state machine of engine `n` become: each ramp takes its time from the lead before the write. -/
def Dev.disabledWithOldLead (n : Nat) (s : Dev) : Dev :=
  (s.txMembers n).foldl (fun (d : Dev) m => if d.txs m = txPrep then d.toDark m else if d.txs m = txRampUp ∨ d.txs m = txLit then
    (((d.startRamp m (d.rd (Reg.TX_RAMP_TIME_MS (s.txLead m))) false).wr (Reg.TX_STATE_FAST m) 0).wr (Reg.TX_STATE_STATE m) txRampDown).raise (10 + m) 0
    else d) (s.wr (Reg.TX_CTRL_ENABLE n) 0)

theorem rampTime_of_oldLead : ((untwinningPair.dev.disabledWithOldLead 0).txe 1).ramp.timeMs = 5 := by
  decide +kernel

/-- A command that settles leaves the transmit engines' hidden state as its device has it. -/
theorem txe_of_settles {evs : List (Nat × Nat)} {d u : Dev} {s : State} (h : State.Settles evs d s (s.become u)) (m : Nat) : u.txe m = d.txe m :=
  congrArg (sget (dflt TxEngine.reset) · m) (h.dev.part (fun x => x.tx) fun _ => rfl)

/-- Refutes O1: ENABLE = 0 takes the even engine of a twin pair from PREP to DARK, where waiting values come into force. On a state in which they end twin
mode and light the odd engine, that one then ramps down with its own ramp time; the clause takes the even engine's, which led it before
the write (`untwinningPair`). -/
theorem not_transmitEnableAndDisable : ¬ Obligations.TransmitEnableAndDisable := by
  unfold Obligations.TransmitEnableAndDisable
  rintro ⟨-, -, -, -, -, hdisable, -⟩
  obtain ⟨t, ht, hset⟩ := hdisable 0 untwinningPair (by decide) (by decide) (by decide) (by decide)
  rw [exec_txDisableWrite] at ht
  obtain rfl := Host.Outcome.next.inj ht
  have hlead : ((untwinningPair.dev.onHeldWrite (linePage 0 0) 0x040 (.txDisable 0) (Dev.txDisable 0)).txe 1).ramp.timeMs =
      ((untwinningPair.dev.disabledWithOldLead 0).txe 1).ramp.timeMs := congrArg (fun x => x.ramp.timeMs) (txe_of_settles hset 1)
  rw [rampTime_of_txDisableWrite, rampTime_of_oldLead] at hlead
  exact absurd hlead (by decide)

end Sys2Proof.Machine
end

section
namespace Sys2Proof.Machine

/-! ### The transmit engines on kin devices (R57 to R67) -/

section Transmit
variable {a : List (Nat × Nat)} {d e : Dev} (h : Dev.Kin a d e)
include h

theorem Dev.Kin.tx_eq : e.tx = d.tx := h.toLike.part (fun x => x.tx) fun _ => rfl
theorem Dev.Kin.fe_eq : e.fe = d.fe := h.toLike.part (fun x => x.fe) fun _ => rfl
theorem Dev.Kin.drone_eq : e.drone = d.drone := h.toLike.part (fun x => x.drone) fun _ => rfl
theorem Dev.Kin.power_eq : e.power = d.power := h.toLike.part (fun x => x.power) fun _ => rfl
theorem Dev.Kin.later_eq : e.later = d.later := h.toLike.part (fun x => x.later) fun _ => rfl

theorem Dev.Kin.txe_eq (n : Nat) : e.txe n = d.txe n := by
  rw [Dev.txe, Dev.txe, h.tx_eq]

theorem Dev.Kin.dtx_eq (n : Nat) : e.dtx n = d.dtx n := by
  rw [Dev.dtx, Dev.dtx, h.drone_eq]

theorem Dev.Kin.txTwin_eq (n : Nat) : e.txTwin n = d.txTwin n :=
  h.toLike.on (by simp only [overflowCell, regCell]; omega)

theorem Dev.Kin.txs_eq (n : Nat) : e.txs n = d.txs n :=
  h.toLike.rd (by simp only [overflowCell, regCell]; omega)

theorem Dev.Kin.txPhase_eq (n : Nat) : e.txPhase n = d.txPhase n := by
  simp only [Dev.txPhase, h.txs_eq, h.txe_eq, h.clock_eq]

theorem Dev.Kin.droneFollows_eq (n : Nat) : e.droneFollows n = d.droneFollows n := by
  rw [Dev.droneFollows, Dev.droneFollows, h.txTwin_eq]

theorem Dev.Kin.setTxe (n : Nat) {x y : TxEngine} (hx : y = x) : Dev.Kin a (d.setTxe n x) (e.setTxe n y) :=
  hx ▸ h.map (Dev.setTxe n x) (fun _ => rfl) (fun _ => rfl) (fun _ => rfl) fun _ => rfl

theorem Dev.Kin.setDtx (n : Nat) {x y : DroneTx} (hx : y = x) : Dev.Kin a (d.setDtx n x) (e.setDtx n y) :=
  hx ▸ h.map (Dev.setDtx n x) (fun _ => rfl) (fun _ => rfl) (fun _ => rfl) fun _ => rfl

theorem Dev.Kin.startRamp (n : Nat) {t u : Nat} (ht : u = t) (up : Bool) : Dev.Kin a (d.startRamp n t up) (e.startRamp n u up) := by
  subst ht
  exact h.setTxe n (by rw [h.txPhase_eq, h.txe_eq, h.clock_eq])

theorem Dev.Kin.derivePd (n : Nat) : Dev.Kin a (d.derivePd n) (e.derivePd n) := by
  have hfe : e.fee n = d.fee n := by rw [Dev.fee, Dev.fee, h.fe_eq]
  rw [Dev.derivePd, Dev.derivePd, h.toLike.on (by simp only [overflowCell, regCell]; omega)]
  split
  · exact h
  · exact h.setTxe n (by rw [h.txe_eq, hfe, h.toLike.on (by simp only [overflowCell, regCell]; omega)])

/-- A burst taken off the air on kin devices (R308, R309). -/
theorem Dev.Kin.droneEnd (n : Nat) : Dev.Kin a (d.droneEnd n) (e.droneEnd n) := by
  delta Dev.droneEnd
  extract_lets x d1 y e1
  have h1 : Dev.Kin a d1 e1 := (h.setDtx n (by rw [show y = x from h.dtx_eq n])).write _ rfl
  rw [h1.txTwin_eq]
  split
  · exact h1.write _ rfl
  · exact h1

theorem Dev.Kin.cutBurst (n : Nat) : Dev.Kin a (d.cutBurst n) (e.cutBurst n) := by
  rw [Dev.cutBurst, Dev.cutBurst, h.dtx_eq]
  cases (d.dtx n).sending with
  | none =>
    dsimp only
    rw [h.droneFollows_eq, h.toLike.on (by simp only [overflowCell, regCell]; omega)]
    split
    · exact ((h.write _ rfl).bumpBoth _).raiseBoth 8 10
    · exact h
  | some b =>
    have hc : Dev.Kin a ((d.droneEnd n).bump Reg.TX_CUT.run) ((e.droneEnd n).bump Reg.TX_CUT.run) := (h.droneEnd n).bumpBoth _
    dsimp only
    cases b.1
    · exact ((hc.write _ rfl).write _ rfl).raiseBoth 8 10
    · exact hc.raiseBoth 8 10

end Transmit

/-- The cells that the conditions of PREP are read from, for engine `k` outside twin mode. -/
def prepCells (k : Nat) : List Nat :=
  [(Reg.TX_CTRL_ENABLE k).cell, (Reg.TX_STATE_STATE k).cell, (Reg.TX_FAULT_PLL_UNLOCK k).cell, (Reg.LCAL_STAT_DAC_VALID k).cell,
    (Reg.BIST_OFF_OFF 0).cell]

theorem mayPrep_congr {d e : Dev} {k : Nat} (hk : k < 8) (ht : d.txTwin k = false) (he : e.txTwin k = false)
    (hw : ∀ c ∈ prepCells k, e.word c = d.word c) (hv : e.variant = d.variant) (hl : e.dieLost = d.dieLost) (hb : e.bist = d.bist) :
    e.mayPrep k = d.mayPrep k := by
  have hrd (f : Field) (hf : f.cell ∈ prepCells k) : e.rd f = d.rd f := by rw [Dev.rd, Dev.rd, hw _ hf]
  have hon (f : Field) (hf : f.cell ∈ prepCells k) : e.on f = d.on f := by rw [Dev.on, Dev.on, hrd f hf]
  have hout (b : Nat) (h32 : b / 32 = 0) : e.blockOut b = d.blockOut b := by
    rw [Dev.blockOut, Dev.blockOut, Dev.block, Dev.block, hb, h32, hrd _ (by simp [prepCells])]
  have hline : e.lineOn k = d.lineOn k := by rw [Dev.lineOn, Dev.lineOn, hv]
  have hst : e.txs k = d.txs k := hrd (Reg.TX_STATE_STATE k) (by simp [prepCells])
  simp only [Dev.mayPrep, Dev.txLead, Dev.txFaulty, Dev.txMembers, he, ht, Bool.false_eq_true, if_false, List.any_cons, List.any_nil, List.all_cons,
    List.all_nil, hst, hline, hl, hout k (by omega), hout (24 + k) (by omega), hw (Reg.TX_FAULT_PLL_UNLOCK k).cell (by simp [prepCells]),
    hon (Reg.TX_CTRL_ENABLE k) (by simp [prepCells]), hon (Reg.LCAL_STAT_DAC_VALID k) (by simp [prepCells]),
    hon (Reg.TX_STATE_RELIGHT k) (by simp [prepCells])]

/-! ### What the light of an engine leaves -/

/-- The cells of the courses: from page 0x240 to the tables before those of Collimation. -/
abbrev courseCell (c : Nat) : Prop :=
  regCell 0x240 0 ≤ c ∧ c < tableCell 34 0 0

/-- The cells that a change of the light of engine `n` can reach: its TX_STATE, the pre-distortion and insertion pages of the line engines, the Drone's
transmitters and the courses. -/
abbrev lightCell (n c : Nat) : Prop :=
  c = (Reg.TX_STATE_STATE n).cell ∨ (regCell 0x100 0 ≤ c ∧ c < regCell 0x200 0 ∧ (c / 1024 % 32 = 4 ∨ c / 1024 % 32 = 5)) ∨
  (regCell 0x0A8 0 ≤ c ∧ c < regCell 0x0B0 0) ∨ courseCell c ∨ overflowCell c

/-- From `d` to `e` the light of engine `n` has changed at most, and what hangs on it. -/
structure Dev.LightKept (n : Nat) (d e : Dev) : Prop where
  /-- the register words -/
  words : ∀ c, ¬ lightCell n c → e.word c = d.word c
  /-- the part -/
  variant : e.variant = d.variant
  /-- the line dies -/
  dieLost : e.dieLost = d.dieLost
  /-- the self-test -/
  bist : e.bist = d.bist
  /-- the power unit -/
  power : e.power = d.power
  /-- the waiting values -/
  later : e.later = d.later

theorem Dev.LightKept.refl (n : Nat) (d : Dev) : Dev.LightKept n d d :=
  ⟨fun _ _ => rfl, rfl, rfl, rfl, rfl, rfl⟩

section Light
variable {n : Nat} {d e : Dev} (h : Dev.LightKept n d e)
include h

theorem Dev.LightKept.kin {a : List (Nat × Nat)} {f : Dev} (k : Dev.Kin a e f) : Dev.LightKept n d f where
  words c hc := (k.words c fun ho => hc (.inr (.inr (.inr (.inr ho))))).trans (h.words c hc)
  variant := k.variant_eq.trans h.variant
  dieLost := k.dieLost_eq.trans h.dieLost
  bist := k.bist_eq.trans h.bist
  power := k.power_eq.trans h.power
  later := k.later_eq.trans h.later

theorem Dev.LightKept.wr (f : Field) (v : Nat)
    (hf : lightCell n f.cell := by simp only [lightCell, courseCell, overflowCell, regCell, tableCell]; omega) : Dev.LightKept n d (e.wr f v) where
  words c hc := (word_wr_ne _ _ _ fun he => hc (by rw [he]; exact hf)).trans (h.words c hc)
  variant := h.variant
  dieLost := h.dieLost
  bist := h.bist
  power := h.power
  later := h.later

theorem Dev.LightKept.raise (g b : Nat) : Dev.LightKept n d (e.raise g b) :=
  h.kin (Dev.Kin.raise e g b)

/-- Hidden state of the transmit engines may change. -/
theorem Dev.LightKept.setTxe (m : Nat) (x : TxEngine) : Dev.LightKept n d (e.setTxe m x) :=
  ⟨h.words, h.variant, h.dieLost, h.bist, h.power, h.later⟩

theorem Dev.LightKept.setDtx (m : Nat) (x : DroneTx) : Dev.LightKept n d (e.setDtx m x) :=
  ⟨h.words, h.variant, h.dieLost, h.bist, h.power, h.later⟩

theorem Dev.LightKept.setPr (p : Nat) (x : Pair) : Dev.LightKept n d (e.setPr p x) :=
  ⟨h.words, h.variant, h.dieLost, h.bist, h.power, h.later⟩

theorem Dev.LightKept.startRamp (m t : Nat) (up : Bool) : Dev.LightKept n d (e.startRamp m t up) :=
  h.setTxe m _

theorem Dev.LightKept.derivePd (m : Nat) : Dev.LightKept n d (e.derivePd m) := by
  unfold Dev.derivePd
  split
  · exact h
  · exact h.setTxe m _

theorem Dev.LightKept.foldl {α : Type} {f : Dev → α → Dev} {l : List α}
    (hf : ∀ x ∈ l, ∀ {e}, Dev.LightKept n d e → Dev.LightKept n d (f e x)) : Dev.LightKept n d (l.foldl f e) := by
  induction l generalizing e with
  | nil => exact h
  | cons x l ih => exact ih (hf x List.mem_cons_self h) fun y hy => hf y (List.mem_cons_of_mem _ hy)

theorem Dev.LightKept.droneEnd (m : Nat) (hm : m < 8) : Dev.LightKept n d (e.droneEnd m) := by
  unfold Dev.droneEnd
  dsimp only
  split
  · exact ((h.setDtx m _).wr _ _).wr _ _
  · exact (h.setDtx m _).wr _ _

theorem Dev.LightKept.cutBurst (m : Nat) (hm : m < 8) : Dev.LightKept n d (e.cutBurst m) := by
  unfold Dev.cutBurst
  split
  · split
    · exact ((h.wr _ _).wr _ _).raise 8 10
    · exact h
  · rename_i b _ _
    have hc : Dev.LightKept n d ((e.droneEnd m).bump Reg.TX_CUT.run) := (h.droneEnd m hm).wr _ _
    dsimp only
    cases b
    · exact ((hc.wr _ _).wr _ _).raise 8 10
    · exact hc.raise 8 10

omit h in
theorem listed_lt {t : TableSpec} {k : Nat} (hk : k ∈ d.listed t) : k < 0x40000 := by
  simp only [Dev.listed, List.mem_filterMap] at hk
  obtain ⟨x, -, hx⟩ := hk
  split at hx
  · rename_i hc
    simp only [Option.some.injEq] at hx
    simp only [tableCell] at hc hx
    omega
  · cases hx

theorem Dev.LightKept.showPair (p : Nat) (hp : p < 0x40000) : Dev.LightKept n d (e.showPair p) := by
  have ha : e.rd (Reg.PAIR_COURSE_A p) < 512 := rd_lt _ _
  have hb : e.rd (Reg.PAIR_COURSE_B p) < 512 := rd_lt _ _
  delta Dev.showPair
  extract_lets ca cb mode unprot d1 d2 d3
  have h1 : Dev.LightKept n d d1 := h.wr _ _
  have h3 : Dev.LightKept n d d3 := (((h1.wr _ _).wr _ _).wr _ _).wr _ _
  split_ifs
  · exact (h3.wr _ _).wr _ _
  · exact (h1.wr _ _).wr _ _
  · exact h1

theorem Dev.LightKept.wtrRule (p : Nat) (hadA : Bool) : Dev.LightKept n d (e.wtrRule p hadA) := by
  delta Dev.wtrRule
  extract_lets x0 x d1 z d2 r y
  have h2 : Dev.LightKept n d d2 := by
    simp only [d2]
    split
    · exact (h.setPr p _).setPr p _
    · exact h.setPr p _
  split
  · exact h2.setPr p _
  · exact h2

theorem Dev.LightKept.courseToPairs (c : Nat) : Dev.LightKept n d (e.courseToPairs c) := by
  unfold Dev.courseToPairs
  split
  · rename_i p hp
    have hlt : p < 0x40000 := listed_lt (List.mem_of_mem_filter (List.mem_of_find?_eq_some hp))
    unfold Dev.pairConditions
    dsimp only
    split
    · exact ((h.setPr p _).wtrRule p _).showPair p hlt
    · exact h.showPair p hlt
  · exact h

theorem Dev.LightKept.setCrsBit {c : Nat} (hc : c < 0x40000) (f : Field) (hf : lightCell n f.cell) (ev : Option Nat) (v : Bool) :
    Dev.LightKept n d (e.setCrsBit c f ev v) := by
  have hw : Dev.LightKept n d ((e.wrB f v).crsChanged c) :=
    (h.wr f _ hf).wr _ _ (by simp only [lightCell, courseCell, courseBit, overflowCell, regCell, tableCell]; omega)
  unfold Dev.setCrsBit
  split
  · exact h
  · cases ev with
    | none => exact hw
    | some b => exact hw.raise 19 b

theorem Dev.LightKept.settleCourse {c : Nat} (hc : c < 0x40000) : Dev.LightKept n d (e.settleCourse c) := by
  delta Dev.settleCourse
  extract_lets en sf sd d1 d2
  have hsf : lightCell n (Reg.CRSTAT_SF c).cell := by simp only [lightCell, courseCell, overflowCell, regCell, tableCell]; omega
  have hsd : lightCell n (Reg.CRSTAT_SD c).cell := hsf
  have h1 : Dev.LightKept n d d1 := (h.setCrsBit hc (Reg.CRSTAT_SF c) hsf _ _).setCrsBit hc (Reg.CRSTAT_SD c) hsd _ _
  have h2 : Dev.LightKept n d d2 :=
    (h1.wr _ _ (by simp only [lightCell, courseCell, courseBit, overflowCell, regCell, tableCell]; omega)).wr _ _
      (by simp only [lightCell, courseCell, courseBit, overflowCell, regCell, tableCell]; omega)
  split
  · exact h
  · exact h2.courseToPairs c

/-- Every course brought up to date. -/
theorem Dev.LightKept.settleCourses : Dev.LightKept n d e.settleCourses := by
  refine h.foldl fun c hc _ h => h.settleCourse ?_
  simp only [Dev.courses, Dev.rxCourses, List.mem_append, List.mem_filter, List.mem_dedup, List.mem_filterMap] at hc
  obtain ⟨hc, -⟩ | ⟨⟨k, -, hk⟩, -⟩ := hc
  · exact listed_lt hc
  · have hlt : e.rd (rxSlotField k 1 9) < 512 := rd_lt _ _
    simp only [Dev.rxCourse] at hk
    split at hk
    · obtain rfl := Option.some.inj hk
      omega
    · cases hk

/-! What is read of a device whose light has changed -/

theorem Dev.LightKept.rd {f : Field}
    (hf : ¬ lightCell n f.cell := by simp only [lightCell, courseCell, overflowCell, regCell, tableCell]; omega) : e.rd f = d.rd f := by
  rw [Dev.rd, Dev.rd, h.words _ hf]

theorem Dev.LightKept.on {f : Field}
    (hf : ¬ lightCell n f.cell := by simp only [lightCell, courseCell, overflowCell, regCell, tableCell]; omega) : e.on f = d.on f := by
  rw [Dev.on, Dev.on, h.rd hf]

theorem Dev.LightKept.txTwin_eq {k : Nat} (hk : k < 8) : e.txTwin k = d.txTwin k :=
  h.on (f := Reg.TX_CTRL_TWIN (2 * (k / 2)))

theorem Dev.LightKept.txLead_eq {k : Nat} (hk : k < 8) : e.txLead k = d.txLead k := by
  rw [Dev.txLead, Dev.txLead, h.txTwin_eq hk]

theorem Dev.LightKept.txs_eq {k : Nat} (hk : k < 8) (hn : k ≠ n) : e.txs k = d.txs k :=
  h.rd (f := Reg.TX_STATE_STATE k)

/-- Whether another engine, outside twin mode, may enter PREP does not hang on this one's light. -/
theorem Dev.LightKept.mayPrep_eq {k : Nat} (hk : k < 8) (hn : k ≠ n) (ht : d.txTwin k = false) : e.mayPrep k = d.mayPrep k := by
  refine mayPrep_congr hk ht ((h.txTwin_eq hk).trans ht) (fun c hc => h.words c ?_) h.variant h.dieLost h.bist
  simp only [prepCells, List.mem_cons, List.not_mem_nil, or_false] at hc
  simp only [lightCell, courseCell, overflowCell, regCell, tableCell] at hc ⊢
  omega

end Light
end Sys2Proof.Machine
end

section
namespace Sys2Proof.Machine

/-! ### Steps over the engines of one state machine (R67) -/

theorem txMembers_nodup (s : Dev) (n : Nat) : (s.txMembers n).Nodup := by
  unfold Dev.txMembers
  split <;> simp

theorem txMembers_lt (s : Dev) (n : Fin 8) : ∀ m ∈ s.txMembers n, m < 8 := by
  unfold Dev.txMembers
  split <;> simp only [List.mem_cons, List.not_mem_nil, or_false] <;> omega

/-- Engine `m` in `d` stands where it stood in `s`, under the same lead. -/
abbrev Dev.SameLight (s : Dev) (m : Nat) (d : Dev) : Prop :=
  d.txs m = s.txs m ∧ d.txLead m = s.txLead m

/-- Steps over unlike engines may be replaced by those that act alike on an engine which the steps before have left. -/
theorem foldl_members_congr {s : Dev} {f g : Dev → Nat → Dev} {l : List Nat} (hl : l.Nodup) (h8 : ∀ m ∈ l, m < 8)
    (hfg : ∀ m ∈ l, ∀ d, s.SameLight m d → f d m = g d m) (hg : ∀ m ∈ l, ∀ d, Dev.LightKept m d (g d m)) {d : Dev}
    (hd : ∀ m ∈ l, s.SameLight m d) : l.foldl f d = l.foldl g d := by
  induction l generalizing d with
  | nil => rfl
  | cons m l ih =>
    obtain ⟨hm, hl⟩ := List.nodup_cons.mp hl
    rw [List.foldl_cons, List.foldl_cons, hfg m List.mem_cons_self d (hd m List.mem_cons_self)]
    refine ih hl (fun k hk => h8 k (.tail _ hk)) (fun k hk => hfg k (.tail _ hk)) (fun k hk => hg k (.tail _ hk)) fun k hk => ?_
    have hkept := hg m List.mem_cons_self d
    have hk8 := h8 k (.tail _ hk)
    obtain ⟨hs, hlead⟩ := hd k (.tail _ hk)
    exact ⟨(hkept.txs_eq hk8 fun e => hm (e ▸ hk)).trans hs, (hkept.txLead_eq hk8).trans hlead⟩

/-- The same steps on the engines that `p` selects, with E-1n.00 of each on the right. -/
theorem Dev.Kin.foldl_raise {f : Dev → Nat → Dev} (p : Nat → Bool) {l : List Nat}
    (hf : ∀ m ∈ l, ∀ {a d e}, Dev.Kin a d e → Dev.Kin a (f d m) (f e m)) :
    ∀ {a d e}, Dev.Kin a d e → Dev.Kin (a ++ (l.filter p).map fun m => (10 + m, 0))
      (l.foldl (fun d m => if p m then f d m else d) d) (l.foldl (fun e m => if p m then (f e m).raise (10 + m) 0 else e) e) := by
  induction l with
  | nil =>
    intro a d e h
    simpa using h
  | cons m l ih =>
    intro a d e h
    have ih' := @ih fun k hk => hf k (.tail _ hk)
    cases hp : p m
    · simpa [hp] using ih' h
    · simpa [hp] using ih' ((hf m List.mem_cons_self h).trans (Dev.Kin.raise (f e m) (10 + m) 0))

/-! ### The end of PREP, and of a ramp up (Table 2.6) -/

/-- Engine `m` at the end of PREP under `lead`, before E-1n.00. -/
def Dev.rampUpFrom (lead m : Nat) (d : Dev) : Dev :=
  ((((d.derivePd m).wr (Reg.TX_PD_STAT_LIN_ACTIVE m) (d.rd (Reg.TX_PD_CTRL_LIN_EN m))).wrB (Reg.TX_PD_STAT_NL_ACTIVE m)
    (d.on (Reg.TX_PD_CTRL_NL_EN m) && (d.on (Reg.TX_PD_STAT_FE_VALID m) || d.on (Reg.TX_PD_CTRL_SRC m)))).startRamp m
    (d.rd (Reg.TX_RAMP_TIME_MS lead)) true).wr (Reg.TX_STATE_STATE m) txRampUp

theorem Dev.LightKept.rampUpFrom (lead : Nat) {m : Nat} (hm : m < 8) (d : Dev) : Dev.LightKept m d (d.rampUpFrom lead m) :=
  (((((Dev.LightKept.refl m d).derivePd m).wr _ _).wr _ _).startRamp m _ _).wr _ _ (.inl rfl)

theorem Dev.Kin.rampUpFrom {a : List (Nat × Nat)} {d e : Dev} (h : Dev.Kin a d e) {lead m : Nat} (hm : m < 8) (hlead : lead < 8) :
    Dev.Kin a (d.rampUpFrom lead m) (e.rampUpFrom lead m) := by
  have hr (f : Field) (hf : ¬ overflowCell f.cell) : e.rd f = d.rd f := h.toLike.rd hf
  refine (((((h.derivePd m).write _ ?_).writeB _ ?_).startRamp m ?_ true).write _ rfl)
  · exact hr _ (by simp only [overflowCell, regCell]; omega)
  · simp (disch := (simp only [overflowCell, regCell]; omega)) only [h.toLike.on]
  · exact hr _ (by simp only [overflowCell, regCell]; omega)

/-- A state entered that is neither DARK nor MUTED, with E-1n.00 where it is another one. -/
theorem txGo_raise (d : Dev) (n st : Nat) (hst : ¬ (st = txDark ∨ st = txMuted)) (h : d.txs n ≠ st) :
    d.txGo n st = (d.wr (Reg.TX_STATE_STATE n) st).raise (10 + n) 0 := by
  simp only [Dev.txGo, if_neg hst, h, ne_eq, not_false_eq_true, decide_true, Dev.raiseIf, if_true]

/-- DARK or MUTED entered from another state: E-1n.00, and the burst is cut. -/
theorem txGo_cut (d : Dev) (n st : Nat) (hst : st = txDark ∨ st = txMuted) (h : d.txs n ≠ st) :
    d.txGo n st = ((d.wr (Reg.TX_STATE_STATE n) st).raise (10 + n) 0).cutBurst n := by
  simp only [Dev.txGo, if_pos hst, h, ne_eq, not_false_eq_true, decide_true, Dev.raiseIf, if_true]

end Sys2Proof.Machine
end

section
namespace Sys2Proof.Machine

/-! ### The entry to DARK where nothing waits for it (Table 2.6, R64) -/

theorem mayPrep_disabled {d : Dev} {n : Nat} (ht : d.txTwin n = false) (he : d.on (Reg.TX_CTRL_ENABLE n) = false) : d.mayPrep n = false := by
  have hl : d.txLead n = n := if_neg (by simp [ht])
  rw [Dev.mayPrep, hl, he, Bool.false_and, Bool.false_and]

theorem tryPrep_stays {d : Dev} {n : Nat} (h : d.mayPrep n = false) : d.tryPrep n = d :=
  if_neg (by simp [h])

theorem applyRelight_none {d : Dev} {n : Nat} (ht : d.txTwin n = false) (hl : d.later = []) : d.applyRelight n = d.wr (Reg.TX_STATE_RELIGHT n) 0 := by
  have hno (page : Nat) : d.hasLater page .relight = false := by simp [Dev.hasLater, hl]
  simp [Dev.applyRelight, ht, hno]

theorem settlePending_none {d : Dev} {n : Nat} (ha : d.on (Reg.COLREC_PENDING n) = false) (hd : d.on (Reg.COLREC_PENDING (8 + n)) = false) :
    d.settlePending n = d := by
  simp [Dev.settlePending, ha, hd]

/-- The engines of a pair are engine `n` and its partner. -/
theorem pair_engines : ∀ n : Fin 8, (2 * (n.val / 2) = n ∧ 2 * (n.val / 2) + 1 = n.val ^^^ 1) ∨ (2 * (n.val / 2) = n.val ^^^ 1 ∧ 2 * (n.val / 2) + 1 = n) := by
  decide

theorem partner_pair : ∀ n : Fin 8, n.val ^^^ 1 < 8 ∧ n.val ^^^ 1 ≠ n ∧ (n.val ^^^ 1) / 2 = n.val / 2 := by
  decide

/-- Engine `n` with its light off: the burst cut, no ramp, and its courses brought up to date. -/
def Dev.lightsOut (n : Nat) (s : Dev) : Dev :=
  ((((s.wr (Reg.TX_STATE_STATE n) txDark).cutBurst n).wr (Reg.TX_STATE_FAST n) 0).setTxe n
    { s.txe n with ramp := ⟨0, false, s.clock, 0, 1⟩ }).settleCourses

theorem Dev.LightKept.lightsOut (n : Fin 8) (s : Dev) : Dev.LightKept n s (s.lightsOut n) :=
  (((((Dev.LightKept.refl n s).wr _ _ (.inl rfl)).cutBurst n n.isLt).wr (Reg.TX_STATE_FAST n) _ (.inl rfl)).setTxe n _).settleCourses

theorem Dev.Kin.lightsOut {a : List (Nat × Nat)} {d e : Dev} (h : Dev.Kin a d e) (n : Nat) : Dev.Kin a (d.lightsOut n) (e.lightsOut n) :=
  ((((h.write _ rfl).cutBurst n).write _ rfl).setTxe n (by rw [h.txe_eq, h.clock_eq])).settleCourses

/-- What an engine that goes dark, with ENABLE off and outside twin mode, finds waiting for it: nothing. -/
structure Dev.NothingWaits (s : Dev) (n : Nat) : Prop where
  /-- no twin mode -/
  alone : s.txTwin n = false
  /-- no transmission asked for -/
  disabled : s.on (Reg.TX_CTRL_ENABLE n) = false
  /-- no relighting commit -/
  later : s.later = []
  /-- no partner about to enter PREP -/
  partner : s.mayPrep (n ^^^ 1) = false
  /-- no run of the receive converters' record -/
  adc : s.on (Reg.COLREC_PENDING n) = false
  /-- no run of the transmit converters' record -/
  dac : s.on (Reg.COLREC_PENDING (8 + n)) = false

/-- A change of the light leaves that nothing waits. -/
theorem Dev.NothingWaits.kept {n : Fin 8} {s e : Dev} (h : s.NothingWaits n) (hk : Dev.LightKept n s e) : e.NothingWaits n := by
  obtain ⟨hlt, hne, hpair⟩ := partner_pair n
  have htwin : s.txTwin (n.val ^^^ 1) = false := by rw [Dev.txTwin, hpair]; exact h.alone
  exact ⟨(hk.txTwin_eq n.isLt).trans h.alone, hk.on.trans h.disabled, hk.later.trans h.later, (hk.mayPrep_eq hlt hne htwin).trans h.partner,
    hk.on.trans h.adc, hk.on.trans h.dac⟩

/-- Then the entry to DARK is the light out with E-1n.00, and RELIGHT cleared. -/
theorem toDark_kin {n : Fin 8} {s : Dev} (hs : s.txs n ≠ txDark) (h : s.NothingWaits n) :
    Dev.Kin [(10 + n.val, 0)] ((s.lightsOut n).wr (Reg.TX_STATE_RELIGHT n) 0) (s.toDark n) := by
  delta Dev.toDark
  extract_lets x e1 e2
  have h1 : Dev.Kin [(10 + n.val, 0)] (s.lightsOut n) e1.settleCourses := by
    simp only [e1, txGo_cut s n _ (.inl rfl) hs]
    exact ((((Dev.Kin.raise _ _ _).cutBurst n).write _ rfl).setTxe n rfl).settleCourses
  have hw1 : e1.settleCourses.NothingWaits n := h.kept ((Dev.LightKept.lightsOut n s).kin h1)
  have he2 : e2 = e1.settleCourses.wr (Reg.TX_STATE_RELIGHT n) 0 := applyRelight_none hw1.alone hw1.later
  have hw2 : e2.NothingWaits n := he2 ▸ hw1.kept ((Dev.LightKept.refl n _).wr _ _ (.inl rfl))
  have hprep : (e2.tryPrep (2 * (n.val / 2))).tryPrep (2 * (n.val / 2) + 1) = e2 := by
    have hn : e2.mayPrep n = false := mayPrep_disabled hw2.alone hw2.disabled
    obtain ⟨h0, h1⟩ | ⟨h0, h1⟩ := pair_engines n
    · rw [h1, h0, tryPrep_stays hn, tryPrep_stays hw2.partner]
    · rw [h1, h0, tryPrep_stays hw2.partner, tryPrep_stays hn]
  rw [hprep, settlePending_none hw2.adc hw2.dac, he2]
  exact h1.write _ rfl

/-! ### Operations of the transmit engines that store nothing -/

section Quiet
variable {d e : Dev} (h : Dev.Quiet d e)
include h

theorem Dev.Quiet.setWord (c : Nat) (w : Word) : Dev.Quiet d (e.setWord c w) :=
  h.map (u := fun x => x.setWord c w) (fun _ => rfl) (fun _ => rfl) (fun _ => rfl) fun _ => rfl

theorem Dev.Quiet.setTxe (n : Nat) (x : TxEngine) : Dev.Quiet d (e.setTxe n x) :=
  h.map (u := Dev.setTxe n x) (fun _ => rfl) (fun _ => rfl) (fun _ => rfl) fun _ => rfl

theorem Dev.Quiet.setDtx (n : Nat) (x : DroneTx) : Dev.Quiet d (e.setDtx n x) :=
  h.map (u := Dev.setDtx n x) (fun _ => rfl) (fun _ => rfl) (fun _ => rfl) fun _ => rfl

theorem Dev.Quiet.setFee (n : Nat) (x : FeEngine) : Dev.Quiet d (e.setFee n x) :=
  h.map (u := Dev.setFee n x) (fun _ => rfl) (fun _ => rfl) (fun _ => rfl) fun _ => rfl

theorem Dev.Quiet.setRecord (r : Nat) (x : ColRec) : Dev.Quiet d (e.setRecord r x) :=
  h.map (u := Dev.setRecord r x) (fun _ => rfl) (fun _ => rfl) (fun _ => rfl) fun _ => rfl

theorem Dev.Quiet.droneEnd (n : Nat) : Dev.Quiet d (e.droneEnd n) := by
  unfold Dev.droneEnd
  dsimp only
  split
  · exact ((h.setDtx n _).wr _ _).wr _ _
  · exact (h.setDtx n _).wr _ _

theorem Dev.Quiet.cutBurst (n : Nat) : Dev.Quiet d (e.cutBurst n) := by
  unfold Dev.cutBurst
  split
  · split
    · exact ((h.wr _ _).wr _ _).raise 8 10
    · exact h
  · rename_i b _ _
    have hc : Dev.Quiet d ((e.droneEnd n).bump Reg.TX_CUT.run) := (h.droneEnd n).wr _ _
    dsimp only
    cases b
    · exact ((hc.wr _ _).wr _ _).raise 8 10
    · exact hc.raise 8 10

theorem Dev.Quiet.txGo (n st : Nat) : Dev.Quiet d (e.txGo n st) := by
  unfold Dev.txGo
  dsimp only
  split
  · exact ((h.wr _ _).raiseIf _ _ _).cutBurst n
  · exact (h.wr _ _).raiseIf _ _ _

theorem Dev.Quiet.txFault (n bit : Nat) : Dev.Quiet d (e.txFault n bit) :=
  ((h.wr _ _).wr _ _).wr _ _

theorem Dev.Quiet.derivePd (n : Nat) : Dev.Quiet d (e.derivePd n) := by
  unfold Dev.derivePd
  split
  · exact h
  · exact h.setTxe n _

theorem Dev.Quiet.rampUpFrom (lead m : Nat) : Dev.Quiet d (e.rampUpFrom lead m) :=
  ((((h.derivePd m).wr _ _).wr _ _).setTxe m _).wr _ _

theorem Dev.Quiet.fastDown (n bit : Nat) : Dev.Quiet d (e.fastDown n bit) := by
  have hf := h.txFault n bit
  unfold Dev.fastDown
  dsimp only
  split
  · exact hf
  · exact (((hf.setTxe n _).wr _ _).txGo n _).raise _ _

/-! Waiting values (R64, R428) -/

theorem Dev.Quiet.putWaiting (mine : Later → Bool) : Dev.Quiet d (e.putWaiting mine) :=
  (h.foldl (fun _ h => h.setWord _ _) _).map (u := fun x => { x with later := e.later.filter fun x => !mine x })
    (fun _ => rfl) (fun _ => rfl) (fun _ => rfl) fun _ => rfl

theorem Dev.Quiet.copyWord (c b : Nat) (w : Word) : Dev.Quiet d ((e.setWord c w).setShadow b w) :=
  h.map (u := fun x => (x.setWord c w).setShadow b w) (fun _ => rfl) (fun _ => rfl) (fun _ => rfl) fun _ => rfl

theorem Dev.Quiet.applyTwin (k : Nat) : Dev.Quiet d (e.applyTwin k) := by
  have hp := h.putWaiting fun x => decide (x.page = linePage (2 * k) 0) && decide (x.bnd = .relight)
  unfold Dev.applyTwin
  dsimp only
  split
  · exact ((((hp.copyWord _ _ _).copyWord _ _ _).copyWord _ _ _).setWord _ _).wr _ _
  · exact hp

theorem Dev.Quiet.showRate (n : Nat) : Dev.Quiet d (e.showRate n) :=
  (h.wr _ _).wr _ _

theorem Dev.Quiet.reshowRate (n : Nat) : Dev.Quiet d (e.reshowRate n) := by
  unfold Dev.reshowRate
  split
  · exact h
  · exact h.showRate n

theorem Dev.Quiet.markAbsent : Dev.Quiet d e.markAbsent := by
  refine Dev.Quiet.settleCourses (h.foldl (fun c h => ?_) _)
  split
  · exact h.setCrsBit _ _ _ _
  · exact h

theorem Dev.Quiet.modeInForce (n : Nat) : Dev.Quiet d (e.modeInForce n) :=
  ((h.reshowRate _).reshowRate _).markAbsent

theorem Dev.Quiet.applyRelight (n : Nat) : Dev.Quiet d (e.applyRelight n) := by
  unfold Dev.applyRelight
  dsimp only
  split_ifs
  · exact (((((h.applyTwin _).putWaiting _).putWaiting _).wr _ _).wr _ _).modeInForce n
  · exact h
  · exact ((h.putWaiting _).wr _ _).modeInForce n
  · exact h.wr _ _

/-! The entries to PREP and DARK (Table 2.6) -/

theorem Dev.Quiet.sysLeave (n : Nat) (dac : Bool) : Dev.Quiet d (e.sysLeave n dac) := by
  unfold Dev.sysLeave Dev.sysFail
  split
  · have hc : Dev.Quiet d { e with col := { e.col with sysCal := none } } :=
      h.map (u := fun x => { x with col := { x.col with sysCal := none } }) (fun _ => rfl) (fun _ => rfl) (fun _ => rfl) fun _ => rfl
    exact ((((hc.wr _ _).wr _ _).wr _ _).wr _ _).raise _ _
  · exact h

theorem Dev.Quiet.tryPrep (n : Nat) : Dev.Quiet d (e.tryPrep n) := by
  unfold Dev.tryPrep
  split
  · exact h.foldl (fun m h => (((((h.txGo m _).sysLeave m true).setTxe m _).showRate m).wr _ _).setFee m _) _
  · exact h

theorem Dev.Quiet.showLcal (n : Nat) : Dev.Quiet d (e.showLcal n) :=
  (((h.wr _ _).wr _ _).wr _ _).raiseIf _ _ _

theorem Dev.Quiet.runStart (r kind : Nat) : Dev.Quiet d (e.runStart r kind) :=
  ((h.setRecord r _).wr _ _).wr _ _

theorem Dev.Quiet.lineRun (r : Nat) : Dev.Quiet d (e.lineRun r) := by
  unfold Dev.lineRun
  split_ifs
  · exact ((((h.wr _ _).wr _ _).setRecord r _).runStart r 1).showLcal _
  · exact (h.runStart r 2).showLcal _
  · exact h.wr _ _

theorem Dev.Quiet.settlePending (n : Nat) : Dev.Quiet d (e.settlePending n) := by
  refine h.foldl (fun r h => ?_) _
  split
  · exact (h.lineRun r).raise 9 3
  · exact h

theorem Dev.Quiet.toDark (n : Nat) : Dev.Quiet d (e.toDark n) :=
  (((((((h.txGo n _).wr _ _).setTxe n _).settleCourses).applyRelight n).tryPrep _).tryPrep _).settlePending n

theorem Dev.Quiet.mute (n bit : Nat) : Dev.Quiet d (e.mute n bit) :=
  ((((h.txFault n bit).txGo n _).wr _ _).raise _ _).settleCourses

theorem Dev.Quiet.partnerFault (n : Nat) : Dev.Quiet d (e.partnerFault n) := by
  have hpartner (m : Nat) : Dev.Quiet d (if e.txRamping m then (e.fastDown m 5).raiseLine m 7
      else if e.txs m = txPrep then (((e.txFault m 5).raiseLine m 1).raiseLine m 7).toDark m else e) := by
    split_ifs
    · exact (h.fastDown m 5).raise _ _
    · exact (((h.txFault m 5).raise _ _).raise _ _).toDark m
    · exact h
  unfold Dev.partnerFault
  split
  · exact hpartner _
  · exact h

end Quiet

end Sys2Proof.Machine
end

section
namespace Sys2Proof.Machine

/-! ### A reset that waited (R63, R421) -/

section Quiet
variable {d e : Dev} (h : Dev.Quiet d e)
include h

theorem Dev.Quiet.power (p : Power) : Dev.Quiet d { e with power := p } :=
  h.map (u := fun x => { x with power := p }) (fun _ => rfl) (fun _ => rfl) (fun _ => rfl) fun _ => rfl

theorem Dev.Quiet.abandonDigital : Dev.Quiet d e.abandonDigital := by
  refine h.foldl (fun path h => h.foldl (fun {e} k h => ?_) _) _
  split
  · exact (h.map (u := fun x => { x with drone := { x.drone with fingers := sset (dflt none) x.drone.fingers (4 * path + k) none } })
      (fun _ => rfl) (fun _ => rfl) (fun _ => rfl) fun _ => rfl).wr _ _
  · exact h

theorem Dev.Quiet.powerGo (st : Nat) : Dev.Quiet d (e.powerGo st) := by
  unfold Dev.powerGo
  dsimp only
  split
  · exact ((h.wr _ _).wr _ _).raiseIf _ _ _
  · exact ((h.abandonDigital.wr _ _).wr _ _).raiseIf _ _ _

theorem Dev.Quiet.startUp : Dev.Quiet d e.startUp := by
  have hv : Dev.Quiet d { e with vault := { e.vault with state := e.vault.burned } } :=
    h.map (u := fun x => { x with vault := { x.vault with state := x.vault.burned } }) (fun _ => rfl) (fun _ => rfl) (fun _ => rfl) fun _ => rfl
  have hl : Dev.Quiet d ((e.lcShow.wr Reg.CHAIN_STAT_HEAD (e.lcShow.rd Reg.STRAPS_CHAIN_HEAD)).wr Reg.POS_POS 0) :=
    ((((hv.wr _ _).wr _ _).wr _ _).wr _ _).wr _ _
  have hp := hl.map (u := fun x => { x with dieLost := 0, power := { x.power with released := false, startAt := x.clock, record := none, consumed := x.power.record } })
    (fun _ => rfl) (fun _ => rfl) (fun _ => rfl) fun _ => rfl
  exact ((((hp.wr _ _).wr _ _).wr _ _).wr _ _).powerGo _

theorem Dev.Quiet.halt (cause : Nat) : Dev.Quiet d (e.halt cause) :=
  ((((h.wr _ _).wr _ _).power _).powerGo _).raiseIf _ _ _

theorem Dev.Quiet.tryStart : Dev.Quiet d e.tryStart := by
  unfold Dev.tryStart
  split_ifs
  · exact h.startUp
  · exact h.startUp.halt 1
  · exact h
  · exact h

end Quiet

/-- The device has nothing to store, and the host acts. -/
structure Dev.Unladen (d : Dev) : Prop where
  /-- no store -/
  hbmOut : d.hbmOut = []
  /-- no check byte -/
  raw : d.integ.raw = []
  /-- the agent that acts -/
  accessor : d.accessor = .host

theorem Dev.Unladen.quiet {d e : Dev} (h : d.Unladen) (q : Dev.Quiet d e) : e.Unladen :=
  ⟨q.hbmOut.trans h.hbmOut, (congrArg Integrity.raw q.integ).trans h.raw, q.accessor.trans h.accessor⟩

theorem unladen_of_inv {s : State} (hs : s.Inv) : s.dev.Unladen := by
  obtain ⟨-, ho, hr, -, ha⟩ := hs
  exact ⟨ho, hr, ha⟩

theorem Dev.Unladen.hubCleared {d : Dev} (h : d.Unladen) (keep : Nat → Bool) : (d.hubCleared keep).Unladen := by
  have hout : d.abandonDigital.hbmOut = [] := (Dev.Quiet.refl d).abandonDigital.hbmOut.trans h.hbmOut
  refine ⟨?_, ?_, ?_⟩ <;> simp only [Dev.hubCleared, Dev.wrB, wr_hbmOut, wr_integ, wr_accessor]
  · exact hout
  · rfl
  · rfl

theorem Dev.Unladen.resetNow {d : Dev} (h : d.Unladen) : d.resetNow.Unladen := by
  refine (h.hubCleared finderPage).quiet ?_
  have hk : Dev.Quiet (d.hubCleared finderPage) (d.keepTherm (d.hubCleared finderPage)).unsettle :=
    (((((Dev.Quiet.refl _).wr _ _).wr _ _).wr _ _).wr _ _).wr _ _
  exact (((((hk.power _).wr _ _).wr _ _).wr _ _).powerGo _).tryStart

theorem Dev.Unladen.tryReset {d : Dev} (h : d.Unladen) : d.tryReset.Unladen := by
  have hp (p : Power) : ({ d with power := p } : Dev).Unladen := h.quiet ((Dev.Quiet.refl d).power p)
  unfold Dev.tryReset
  dsimp only
  split_ifs
  · exact (hp _).resetNow
  · exact hp _
  · exact h.resetNow
  · exact h

theorem tryReset_none {d : Dev} (h : d.power.resetDue = false) : d.tryReset = d := by
  simp [Dev.tryReset, h]

/-- A command whose device is like one with nothing to store settles on it. -/
theorem settles_unladen {evs : List (Nat × Nat)} {f : Dev → Dev} {d : Dev} {s : State} (hs : s.Inv) (h : Dev.Like evs d (f s.dev))
    (hd : d.Unladen) : ∃ t, s.run f = .next t ∧ State.Settles evs d s t :=
  settles_run hs h (hd.hbmOut.trans hs.2.1.symm) (hd.raw.trans hs.2.2.1.symm) (hd.accessor.trans hs.2.2.2.2.symm)

/-- A command that takes the device to `d`, as it says, settles on it. -/
theorem settles_exact {f : Dev → Dev} {d : Dev} {s : State} (hs : s.Inv) (h : f s.dev = d) (hd : d.Unladen) :
    ∃ t, s.run f = .next t ∧ State.Settles [] d s t :=
  settles_unladen hs (h ▸ (Dev.Kin.refl d).toLike) hd

end Sys2Proof.Machine
end

section
namespace Sys2Proof.Machine

/-! ### O2: PREP and the ramps (Table 2.6) -/

theorem derivePd_rd (d : Dev) (n : Nat) (f : Field) : (d.derivePd n).rd f = d.rd f := by
  unfold Dev.derivePd
  split <;> rfl

theorem txLead_lt (s : Dev) (n : Fin 8) : s.txLead n < 8 := by
  unfold Dev.txLead
  split <;> omega

theorem startRamp_txs (d : Dev) (m t : Nat) (up : Bool) (k : Nat) : (d.startRamp m t up).txs k = d.txs k := rfl

/-- The step of PREP_COMPLETE on engine `m` (R50, R60). -/
def Dev.prepStep (m : Nat) (d : Dev) : Dev :=
  let e := (d.derivePd m).showPd m
  (e.startRamp m (e.rd (Reg.TX_RAMP_TIME_MS (e.txLead m))) true).txGo m txRampUp

/-- On an engine that is still in PREP under the same lead it starts the ramp, with E-1n.00. -/
theorem prepStep_eq {s d : Dev} {m : Nat} (h8 : m < 8) (hp : s.txs m = txPrep) (hd : s.SameLight m d) :
    d.prepStep m = (d.rampUpFrom (s.txLead m) m).raise (10 + m) 0 := by
  obtain ⟨hs, hlead⟩ := hd
  have hshow : (d.derivePd m).showPd m = ((d.derivePd m).wr (Reg.TX_PD_STAT_LIN_ACTIVE m) (d.rd (Reg.TX_PD_CTRL_LIN_EN m))).wrB
      (Reg.TX_PD_STAT_NL_ACTIVE m) (d.on (Reg.TX_PD_CTRL_NL_EN m) && (d.on (Reg.TX_PD_STAT_FE_VALID m) || d.on (Reg.TX_PD_CTRL_SRC m))) := by
    simp only [Dev.showPd, Dev.on, derivePd_rd]
  have hk : Dev.LightKept m d ((d.derivePd m).showPd m) := (((Dev.LightKept.refl m d).derivePd m).wr _ _).wr _ _
  have hr : ((d.derivePd m).showPd m).rd (Reg.TX_RAMP_TIME_MS (s.txLead m)) = d.rd (Reg.TX_RAMP_TIME_MS (s.txLead m)) := by
    have : s.txLead m < 8 := txLead_lt s ⟨m, h8⟩
    exact hk.rd
  have hst : ((d.derivePd m).showPd m).txs m = txPrep := by
    rw [hshow, Dev.txs, Dev.wrB, rd_wr_ne _ _ _ _ (by simp only [regCell]; omega), rd_wr_ne _ _ _ _ (by simp only [regCell]; omega), derivePd_rd]
    exact hs.trans hp
  unfold Dev.prepStep
  dsimp only
  rw [hk.txLead_eq h8, hlead, hr, txGo_raise _ _ _ (by decide), hshow]
  · rfl
  · rw [startRamp_txs, hst]
    decide

/-- The engines of the state machine of engine `n` at the end of PREP, with E-1n.00 of each. -/
def Dev.rampsUp (n : Nat) (s : Dev) : Dev :=
  (s.txMembers n).foldl (fun d m => (d.rampUpFrom (s.txLead m) m).raise (10 + m) 0) s

theorem txLead_members {s : Dev} {n : Fin 8} {m : Nat} (hm : m ∈ s.txMembers n) : s.txLead m < 8 :=
  txLead_lt s ⟨m, txMembers_lt s n m hm⟩

theorem power_rampsUp (n : Nat) (s : Dev) : (s.rampsUp n).power = s.power := by
  have h (l : List Nat) (d : Dev) : (l.foldl (fun d m => (d.rampUpFrom (s.txLead m) m).raise (10 + m) 0) d).power = d.power := by
    induction l generalizing d with
    | nil => rfl
    | cons m l ih =>
      have hp : (d.rampUpFrom (s.txLead m) m).power = d.power := by
        rw [Dev.rampUpFrom, wr_power]
        unfold Dev.derivePd
        split <;> rfl
      exact (ih _).trans ((Dev.Kin.raise _ _ _).power_eq.trans hp)
  exact h _ s

/-- What PREP_COMPLETE does where every engine of the state machine is ready. -/
theorem prepDone_ready {n : Fin 8} {s : Dev} (h : ((s.txMembers n).all fun m => decide (s.txs m = txPrep) && !(s.fee m).forPrep) = true) :
    s.prepDone n = if s.power.resetDue then (s.txMembers n).foldl (fun d m => d.fastDown m 4) (s.rampsUp n) else s.rampsUp n := by
  have hprep : ∀ m ∈ s.txMembers n, s.txs m = txPrep := fun m hm => by
    have := List.all_eq_true.mp h m hm
    simp only [Bool.and_eq_true, decide_eq_true_eq] at this
    exact this.1
  have hfold := foldl_members_congr (s := s) (d := s) (txMembers_nodup s n) (txMembers_lt s n)
    (fun m hm d hd => prepStep_eq (txMembers_lt s n m hm) (hprep m hm) hd)
    (fun m hm d => (Dev.LightKept.rampUpFrom (s.txLead m) (txMembers_lt s n m hm) d).raise _ _) fun _ _ => ⟨rfl, rfl⟩
  rw [← power_rampsUp n s, Dev.rampsUp, ← hfold, Dev.prepDone, if_pos h]
  rfl

theorem settles_prepComplete {n : Fin 8} {s : State} (hs : s.Inv)
    (h : ((s.dev.txMembers n).all fun m => decide (s.dev.txs m = txPrep) && !(s.dev.fee m).forPrep) = true) (hr : s.dev.power.resetDue = false) :
    ∃ t, exec (.prepComplete n) s = .next t ∧ State.Settles ((s.dev.txMembers n).map fun m => (10 + m, 0))
      ((s.dev.txMembers n).foldl (fun d m => d.rampUpFrom (s.dev.txLead m) m) s.dev) s t := by
  refine settles_quiet hs ?_ ((Dev.Quiet.refl _).foldl (fun m h => h.rampUpFrom _ m) _)
  rw [prepDone_ready h, hr]
  have hk := Dev.Kin.foldl_raise (f := fun d m => d.rampUpFrom (s.dev.txLead m) m) (fun _ => true)
    (fun m hm _ _ _ h => h.rampUpFrom (txMembers_lt s.dev n m hm) (txLead_members hm)) (Dev.Kin.refl s.dev)
  simp only [if_true, List.filter_true, List.nil_append] at hk
  exact hk.toLike

theorem settles_prepComplete_reset {n : Fin 8} {s : State} (hs : s.Inv)
    (h : ((s.dev.txMembers n).all fun m => decide (s.dev.txs m = txPrep) && !(s.dev.fee m).forPrep) = true) (hr : s.dev.power.resetDue = true) :
    ∃ t, exec (.prepComplete n) s = .next t ∧
      State.Settles [] ((s.dev.txMembers n).foldl (fun d m => d.fastDown m 4) (s.dev.rampsUp n)) s t := by
  refine settles_exact hs (by rw [prepDone_ready h, hr, if_pos rfl]) ((unladen_of_inv hs).quiet ?_)
  exact ((Dev.Quiet.refl _).foldl (fun m h => (h.rampUpFrom _ m).raise _ _) _).foldl (fun m h => h.fastDown m 4) _

/-- The end of a ramp up: the engines in RAMP_UP become LIT. -/
theorem settles_rampUpComplete {n : Fin 8} {s : State} (hs : s.Inv) :
    ∃ t, exec (.rampUpComplete n) s = .next t ∧
      State.Settles (((s.dev.txMembers n).filter fun m => decide (s.dev.txs m = txRampUp)).map fun m => (10 + m, 0))
        ((s.dev.txMembers n).foldl (fun (d : Dev) m => if s.dev.txs m = txRampUp then d.wr (Reg.TX_STATE_STATE m) txLit else d) s.dev) s t := by
  have hq : Dev.Quiet s.dev
      ((s.dev.txMembers n).foldl (fun (d : Dev) m => if s.dev.txs m = txRampUp then d.wr (Reg.TX_STATE_STATE m) txLit else d) s.dev) :=
    (Dev.Quiet.refl _).foldl (fun m h => by split <;> [exact h.wr _ _; exact h]) _
  refine settles_quiet (f := fun d => (d.txMembers n).foldl (fun d m => if d.txs m = txRampUp then d.txGo m txLit else d) d) hs ?_ hq
  have hfold := foldl_members_congr (s := s.dev) (d := s.dev) (txMembers_nodup s.dev n) (txMembers_lt s.dev n)
    (f := fun d m => if d.txs m = txRampUp then d.txGo m txLit else d)
    (g := fun d m => if decide (s.dev.txs m = txRampUp) then (d.wr (Reg.TX_STATE_STATE m) txLit).raise (10 + m) 0 else d)
    (fun m _ d ⟨hd, _⟩ => by
      by_cases hm : s.dev.txs m = txRampUp
      · rw [if_pos (hd.trans hm), if_pos (decide_eq_true hm), txGo_raise _ _ _ (by decide) (by rw [hd, hm]; decide)]
      · rw [if_neg (hd ▸ hm), if_neg (by simpa using hm)])
    (fun m _ d => by
      split
      · exact ((Dev.LightKept.refl m d).wr (Reg.TX_STATE_STATE m) _ (.inl rfl)).raise _ _
      · exact Dev.LightKept.refl m d) fun _ _ => ⟨rfl, rfl⟩
  have hk := Dev.Kin.foldl_raise (f := fun d m => d.wr (Reg.TX_STATE_STATE m) txLit) (fun m => decide (s.dev.txs m = txRampUp))
    (fun m hm _ _ _ h => h.write _ rfl (by have := txMembers_lt s.dev n m hm; simp only [overflowCell, regCell]; omega)) (Dev.Kin.refl s.dev)
  simp only [List.nil_append, decide_eq_true_eq] at hk hfold
  rw [hfold]
  exact hk.toLike

/-! ### O2: the entries to DARK and MUTED (R60 to R67) -/

/-- A pending reset does not follow where none is due. -/
theorem lightsOut_power (n : Fin 8) (s : Dev) : ((s.lightsOut n).wr (Reg.TX_STATE_RELIGHT n) 0).power = s.power :=
  (Dev.LightKept.lightsOut n s).power

theorem Dev.Quiet.lightsOut {d e : Dev} (h : Dev.Quiet d e) (n : Nat) : Dev.Quiet d (e.lightsOut n) :=
  ((((h.wr _ _).cutBurst n).wr _ _).setTxe n _).settleCourses

theorem txMembers_alone {s : Dev} {n : Nat} (h : s.txTwin n = false) : s.txMembers n = [n] :=
  if_neg (by simp [h])

/-- The entry to DARK, and the reset that does not follow. -/
theorem toDark_tryReset_kin {n : Fin 8} {s : Dev} (hs : s.txs n ≠ txDark) (h : s.NothingWaits n) (hr : s.power.resetDue = false) :
    Dev.Kin [(10 + n.val, 0)] ((s.lightsOut n).wr (Reg.TX_STATE_RELIGHT n) 0) (s.toDark n).tryReset := by
  have hk := toDark_kin hs h
  rwa [tryReset_none (by rw [hk.power_eq, lightsOut_power, hr])]

/-- A TX_FAULT bit leaves who leads. -/
theorem txTwin_wr_fault (d : Dev) (n m bit v : Nat) (k : Fin 8) : (d.wr ⟨(Reg.TX_FAULT_PLL_UNLOCK n).cell, bit, m⟩ v).txTwin k = d.txTwin k := by
  rw [Dev.txTwin, Dev.on, rd_wr_ne _ _ _ _ (by simp only [regCell]; omega), Dev.txTwin, Dev.on]

theorem txFault_eq (d : Dev) (n : Fin 8) (bit : Nat) :
    d.txFault n bit = ((d.wr ⟨(Reg.TX_FAULT_PLL_UNLOCK n).cell, bit, 1⟩ 1).wr (Reg.TX_CTRL_ENABLE n) 0).wr (Reg.TX_CTRL_ENABLE (d.txLead n)) 0 := by
  rw [Dev.txFault, Dev.txLead, txTwin_wr_fault d n 1 bit 1 n, Dev.txLead]

section Fault
variable {n : Fin 8} {s : Dev} (bit : Nat)

theorem txFault_alone (ht : s.txTwin n = false) :
    s.txFault n bit = ((s.wr ⟨(Reg.TX_FAULT_PLL_UNLOCK n).cell, bit, 1⟩ 1).wr (Reg.TX_CTRL_ENABLE n) 0).wr (Reg.TX_CTRL_ENABLE n) 0 := by
  rw [txFault_eq, show s.txLead n = n from if_neg (by simp [ht])]

/-- A fault leaves the words but for TX_FAULT and TX_CTRL of the engine and of its lead. -/
theorem word_txFault {c : Nat} (hf : c ≠ (Reg.TX_FAULT_PLL_UNLOCK n).cell) (he : c ≠ (Reg.TX_CTRL_ENABLE n).cell)
    (hl : c ≠ (Reg.TX_CTRL_ENABLE (s.txLead n)).cell) : (s.txFault n bit).word c = s.word c := by
  rw [txFault_eq, word_wr_ne _ _ _ hl, word_wr_ne _ _ _ he]
  exact word_wr_ne _ _ _ hf

theorem txs_txFault : (s.txFault n bit).txs n = s.txs n := by
  have := txLead_lt s n
  rw [Dev.txs, Dev.rd, word_txFault bit (by simp only [regCell]; omega) (by simp only [regCell]; omega) (by simp only [regCell]; omega)]
  rfl

theorem txTwin_txFault (k : Fin 8) : (s.txFault n bit).txTwin k = s.txTwin k := by
  have hd (d : Dev) (m : Nat) : (d.wr (Reg.TX_CTRL_ENABLE m) 0).txTwin k = d.txTwin k := by
    rw [Dev.txTwin, Dev.on, rd_wr_disjoint _ _ _ _ (.inr (.inr Nat.le.refl)), Dev.txTwin, Dev.on]
  rw [txFault_eq, hd, hd, txTwin_wr_fault]

/-- An engine alone with a fault set finds no more waiting for it than before, and its ENABLE off. -/
theorem nothingWaits_txFault (ht : s.txTwin n = false) (hl : s.later = []) (hp : s.mayPrep (n.val ^^^ 1) = false)
    (ha : s.on (Reg.COLREC_PENDING n) = false) (hd : s.on (Reg.COLREC_PENDING (8 + n)) = false) : (s.txFault n bit).NothingWaits n := by
  obtain ⟨hlt, hne, hpair⟩ := partner_pair n
  have hlead : s.txLead n = n := if_neg (by simp [ht])
  have htw : s.txTwin (n.val ^^^ 1) = false := by rw [Dev.txTwin, hpair]; exact ht
  have hrec (r : Nat) : (s.txFault n bit).on (Reg.COLREC_PENDING r) = s.on (Reg.COLREC_PENDING r) := by
    rw [Dev.on, Dev.on, Dev.rd, Dev.rd, word_txFault bit] <;> simp only [hlead, regCell, tableCell] <;> omega
  refine ⟨(txTwin_txFault bit n).trans ht, ?_, hl, ?_, (hrec _).trans ha, (hrec _).trans hd⟩
  · rw [txFault_alone bit ht, Dev.on, rd_wr_same _ _ _ (Nat.le_add_left _ _)]
    rfl
  · refine (mayPrep_congr hlt htw ((txTwin_txFault bit ⟨_, hlt⟩).trans htw) (fun c hc => ?_) rfl rfl rfl).trans hp
    simp only [prepCells, List.mem_cons, List.not_mem_nil, or_false, regCell] at hc
    apply word_txFault bit <;> simp only [hlead, regCell] <;> omega

end Fault

theorem txs_ne_of_ramping {n : Nat} {d : Dev} (h : d.txRamping n = true) : d.txs n ≠ txMuted := by
  rcases of_decide_eq_true h with h | h | h <;> rw [h] <;> decide

/-- MUTED entered from light (R62). -/
theorem mute_light {n : Fin 8} {s : Dev} (bit : Nat) (hr : s.txRamping n = true) :
    s.mute n bit = ((((((s.txFault n bit).wr (Reg.TX_STATE_STATE n) txMuted).raise (10 + n) 0).cutBurst n).wr (Reg.TX_STATE_FAST n) 0).raise
      (10 + n) 4).settleCourses := by
  rw [Dev.mute, txGo_cut _ _ _ (.inr rfl)]
  · rfl
  · rw [txs_txFault]
    exact txs_ne_of_ramping hr

/-- MUTED entered from light: E-1n.00 and E-1n.04, and no partner to take along (R62). -/
theorem txPllUnlock_alone {n : Fin 8} {s : Dev} (ht : s.txTwin n = false) (hr : s.txRamping n = true) :
    Dev.Kin [(10 + n.val, 0), (10 + n.val, 4)]
      ((((s.txFault n 0).wr (Reg.TX_STATE_STATE n) txMuted).cutBurst n).wr (Reg.TX_STATE_FAST n) 0).settleCourses (s.txPllUnlock n) := by
  have hk : Dev.Kin [(10 + n.val, 0), (10 + n.val, 4)]
      ((((s.txFault n 0).wr (Reg.TX_STATE_STATE n) txMuted).cutBurst n).wr (Reg.TX_STATE_FAST n) 0).settleCourses (s.mute n 0) := by
    rw [mute_light 0 hr]
    exact ((((Dev.Kin.raise _ (10 + n) 0).cutBurst n).write (Reg.TX_STATE_FAST n) rfl).trans (Dev.Kin.raise _ (10 + n) 4)).settleCourses
  have hkept := ((((Dev.LightKept.refl n.val (s.txFault n 0)).wr (Reg.TX_STATE_STATE n) txMuted (.inl rfl)).cutBurst n n.isLt).wr
    (Reg.TX_STATE_FAST n) 0 (.inl rfl)).settleCourses
  have halone : (s.mute n 0).txTwin n = false := by
    rw [hk.txTwin_eq, hkept.txTwin_eq n.isLt, txTwin_txFault, ht]
  rw [Dev.txPllUnlock, if_pos hr, Dev.partnerFault, halone, if_neg (by decide)]
  exact hk

end Sys2Proof.Machine
end

section
namespace Sys2Proof.Machine

/-! ### O2: the clauses put together -/

/-- A pair of engines both in RAMP_UP becomes LIT. -/
theorem settles_rampUpComplete_twin {n : Fin 8} {s : State} (hs : s.Inv) (ht : s.dev.txTwin n = true)
    (h0 : s.dev.txs (2 * (n.val / 2)) = txRampUp) (h1 : s.dev.txs (2 * (n.val / 2) + 1) = txRampUp) :
    ∃ t, exec (.rampUpComplete n) s = .next t ∧ State.Settles [(10 + 2 * (n.val / 2), 0), (11 + 2 * (n.val / 2), 0)]
      ((s.dev.wr (Reg.TX_STATE_STATE (2 * (n.val / 2))) txLit).wr (Reg.TX_STATE_STATE (2 * (n.val / 2) + 1)) txLit) s t := by
  have hsrc : 11 + 2 * (n.val / 2) = 10 + (2 * (n.val / 2) + 1) := by omega
  have hm : s.dev.txMembers n = [2 * (n.val / 2), 2 * (n.val / 2) + 1] := if_pos ht
  have h := settles_rampUpComplete (n := n) hs
  simp only [hm, List.filter_cons, List.filter_nil, List.map_cons, List.map_nil, List.foldl_cons, List.foldl_nil, h0, h1, decide_true, if_true] at h
  rw [hsrc]
  exact h

theorem exec_rampDownComplete (n : Fin 8) (s : State) : exec (.rampDownComplete n) s = s.run fun d =>
    ((d.txMembers n).foldl (fun (d : Dev) m => if d.txs m = txRampDown then d.toDark m else d) d).tryReset :=
  rfl

theorem exec_prepTimeout (n : Fin 8) (s : State) : exec (.prepTimeout n) s = s.run fun d =>
    (d.txMembers n).foldl (fun (d : Dev) m => if d.txs m = txPrep then d.prepFail m 2 else d) d :=
  rfl

section Dark
variable {n : Fin 8} {s : State} (hs : s.Inv)
include hs

theorem settles_rampDownComplete :
    ∃ t, exec (.rampDownComplete n) s = .next t ∧
      State.Settles [] ((s.dev.txMembers n).foldl (fun (d : Dev) m => if d.txs m = txRampDown then d.toDark m else d) s.dev).tryReset s t := by
  have hq : Dev.Quiet s.dev ((s.dev.txMembers n).foldl (fun (d : Dev) m => if d.txs m = txRampDown then d.toDark m else d) s.dev) :=
    (Dev.Quiet.refl _).foldl (fun m h => by split <;> [exact h.toDark m; exact h]) _
  rw [exec_rampDownComplete]
  exact settles_exact hs rfl ((unladen_of_inv hs).quiet hq).tryReset

theorem settles_rampDownComplete_alone (hst : s.dev.txs n = txRampDown) (hw : s.dev.NothingWaits n) (hr : s.dev.power.resetDue = false) :
    ∃ t, exec (.rampDownComplete n) s = .next t ∧
      State.Settles [(10 + n.val, 0)] ((s.dev.lightsOut n).wr (Reg.TX_STATE_RELIGHT n) 0) s t := by
  rw [exec_rampDownComplete]
  refine settles_quiet hs ?_ (((Dev.Quiet.refl _).lightsOut n).wr _ _)
  rw [txMembers_alone hw.alone, List.foldl_cons, List.foldl_nil, if_pos hst]
  exact (toDark_tryReset_kin (by rw [hst]; decide) hw hr).toLike

theorem settles_muteFadeComplete :
    ∃ t, exec (.muteFadeComplete n) s = .next t ∧
      State.Settles [] (if s.dev.txs n = txMuted then (s.dev.toDark n).tryReset else s.dev) s t := by
  refine settles_exact hs rfl ?_
  split
  · exact ((unladen_of_inv hs).quiet ((Dev.Quiet.refl _).toDark n)).tryReset
  · exact unladen_of_inv hs

theorem settles_muteFadeComplete_alone (hst : s.dev.txs n = txMuted) (hw : s.dev.NothingWaits n) (hr : s.dev.power.resetDue = false) :
    ∃ t, exec (.muteFadeComplete n) s = .next t ∧
      State.Settles [(10 + n.val, 0)] ((s.dev.lightsOut n).wr (Reg.TX_STATE_RELIGHT n) 0) s t := by
  refine settles_quiet hs ?_ (((Dev.Quiet.refl _).lightsOut n).wr _ _)
  rw [if_pos hst]
  exact (toDark_tryReset_kin (by rw [hst]; decide) hw hr).toLike

theorem settles_prepTimeout :
    ∃ t, exec (.prepTimeout n) s = .next t ∧
      State.Settles [] ((s.dev.txMembers n).foldl (fun (d : Dev) m => if d.txs m = txPrep then d.prepFail m 2 else d) s.dev) s t := by
  rw [exec_prepTimeout]
  refine settles_exact hs rfl ((unladen_of_inv hs).quiet ((Dev.Quiet.refl _).foldl (fun m h => ?_) _))
  split
  · exact ((h.txFault m 2).raise _ _).toDark m
  · exact h

/-- Of an engine alone PREP_TIMEOUT raises E-1n.01 and E-1n.00. -/
theorem settles_prepTimeout_alone (hst : s.dev.txs n = txPrep) (ht : s.dev.txTwin n = false) (hw : (s.dev.txFault n 2).NothingWaits n) :
    ∃ t, exec (.prepTimeout n) s = .next t ∧
      State.Settles [(10 + n.val, 1), (10 + n.val, 0)] (((s.dev.txFault n 2).lightsOut n).wr (Reg.TX_STATE_RELIGHT n) 0) s t := by
  have hraise := Dev.Kin.raise (s.dev.txFault n 2) (10 + n) 1
  have hdark : Dev.Kin [(10 + n.val, 0)] ((((s.dev.txFault n 2).raise (10 + n) 1).lightsOut n).wr (Reg.TX_STATE_RELIGHT n) 0)
      (((s.dev.txFault n 2).raise (10 + n) 1).toDark n) := by
    refine toDark_kin ?_ (hw.kept ((Dev.LightKept.refl _ _).raise _ _))
    rw [hraise.txs_eq, txs_txFault, hst]
    decide
  rw [exec_prepTimeout]
  refine settles_quiet hs ?_ ((((Dev.Quiet.refl _).txFault n 2).lightsOut n).wr _ _)
  rw [txMembers_alone ht, List.foldl_cons, List.foldl_nil, if_pos hst]
  exact (((hraise.lightsOut n).write _ rfl).trans hdark).toLike

theorem settles_txPllUnlock : ∃ t, exec (.txPllUnlock n) s = .next t ∧ State.Settles [] (s.dev.txPllUnlock n) s t := by
  refine settles_exact hs rfl ((unladen_of_inv hs).quiet ?_)
  unfold Dev.txPllUnlock
  split_ifs
  · exact ((Dev.Quiet.refl _).mute n 0).partnerFault n
  · exact (((((Dev.Quiet.refl _).raise _ _).txFault n 0).raise _ _).toDark n).partnerFault n
  · exact Dev.Quiet.refl _

end Dark

/-- MUTED entered from light, whatever the twin. -/
theorem txPllUnlock_light {n : Fin 8} {s : Dev} (hr : s.txRamping n = true) :
    s.txPllUnlock n = (((((((s.txFault n 0).wr (Reg.TX_STATE_STATE n) txMuted).raise (10 + n) 0).cutBurst n).wr (Reg.TX_STATE_FAST n) 0).raise
      (10 + n) 4).settleCourses.partnerFault n) := by
  rw [Dev.txPllUnlock, if_pos hr, mute_light 0 hr]

theorem not_txRamping {n : Nat} {s : Dev} (h : s.txs n = txDark ∨ s.txs n = txPrep ∨ s.txs n = txMuted) : s.txRamping n = false := by
  rw [Dev.txRamping, decide_eq_false_iff_not]
  rcases h with h | h | h <;> rw [h] <;> decide

/-- PREP ended by the loss of the PLL. -/
theorem txPllUnlock_prep {n : Fin 8} {s : Dev} (hp : s.txs n = txPrep) :
    s.txPllUnlock n = ((((s.raise (10 + n) 4).txFault n 0).raise (10 + n) 1).toDark n).partnerFault n := by
  rw [Dev.txPllUnlock, not_txRamping (.inr (.inl hp)), if_neg (by decide), if_pos hp]
  rfl

/-- Settles O2: each event's device is the statement's with the same events raised. The statements of the entry to DARK rest on `toDark_kin`: where nothing
waits, the entry is the light out, E-1n.00 and RELIGHT cleared. -/
theorem transmitStateMachineEvents : Obligations.TransmitStateMachineEvents := by
  unfold Obligations.TransmitStateMachineEvents
  refine ⟨fun n s hs h hr => settles_prepComplete hs h hr, fun n s hs h hr => settles_prepComplete_reset hs h hr, fun n s hs h => ?_,
    fun n s hs => settles_rampUpComplete hs, fun n s hs ht h0 h1 => settles_rampUpComplete_twin hs ht h0 h1,
    fun n s hs ht hst he hl hr hp ha hd => settles_rampDownComplete_alone hs hst ⟨ht, he, hl, hp, ha, hd⟩ hr, fun n s hs => settles_rampDownComplete hs,
    fun n s hs ht hst he hl hr hp ha hd => settles_muteFadeComplete_alone hs hst ⟨ht, he, hl, hp, ha, hd⟩ hr, fun n s hs => settles_muteFadeComplete hs,
    fun n s hs ht hst hl _ hp ha hd => ?_, fun n s hs => ?_, fun n s hs ht hr => ?_, fun n s hs hr => ?_, fun n s hs hst => ?_, fun n s hs hst => ?_⟩
  case refine_1 => exact settles_idle hs (if_neg (by simp [h]))
  case refine_2 =>
    have h := settles_prepTimeout_alone hs hst ht (nothingWaits_txFault 2 ht hl hp ha hd)
    rw [txFault_eq] at h
    exact h
  case refine_3 =>
    have h := settles_prepTimeout (n := n) hs
    have hstep : ∀ m ∈ s.dev.txMembers n, ∀ d : Dev, (if d.txs m = txPrep then d.prepFail m 2 else d) =
        if d.txs m = txPrep then ((((d.wr ⟨(Reg.TX_FAULT_PLL_UNLOCK m).cell, 2, 1⟩ 1).wr (Reg.TX_CTRL_ENABLE m) 0).wr
          (Reg.TX_CTRL_ENABLE (d.txLead m)) 0).raise (10 + m) 1).toDark m else d := fun m hm d => by
      rw [Dev.prepFail, txFault_eq d ⟨m, txMembers_lt s.dev n m hm⟩ 2]
      rfl
    rw [List.foldl_ext _ _ _ fun d m hm => hstep m hm d] at h
    exact h
  case refine_4 =>
    have h := txPllUnlock_alone ht hr
    have hq : Dev.Quiet s.dev ((((s.dev.txFault n 0).wr (Reg.TX_STATE_STATE n) txMuted).cutBurst n).wr (Reg.TX_STATE_FAST n) 0).settleCourses :=
      ((((((Dev.Quiet.refl _).txFault n 0).wr _ _).cutBurst n).wr _ _).settleCourses)
    have h := settles_quiet (f := fun s => s.txPllUnlock n) hs h.toLike hq
    rw [txFault_eq] at h
    exact h
  case refine_5 =>
    have h := settles_txPllUnlock (n := n) hs
    rw [txPllUnlock_light hr, txFault_eq] at h
    exact h
  case refine_6 =>
    have h := settles_txPllUnlock (n := n) hs
    have hlead : (s.dev.raise (10 + n) 4).txLead n = s.dev.txLead n := by rw [Dev.txLead, Dev.txLead, (Dev.Kin.raise _ _ _).txTwin_eq]
    rw [txPllUnlock_prep hst, txFault_eq, hlead] at h
    exact h
  case refine_7 =>
    have hp : s.dev.txs n ≠ txPrep := by rcases hst with h | h <;> rw [h] <;> decide
    refine settles_idle hs ?_
    rw [Dev.txPllUnlock, not_txRamping (hst.imp_right .inr), if_neg (by decide), if_neg hp]

end Sys2Proof.Machine
end

section
namespace Sys2Proof.Machine

/-! ### O28: SEND (R310, R311, R319) -/

/-- The device with the word that SEND writes taken by DR_TX_CTRL of engine `n`. -/
def Dev.sendWord (n : Nat) (v : Word) (d : Dev) : Dev :=
  d.writeWord (droneTxPage n) 0x048 0x4000 (v ||| 0x4000)

theorem exec_droneSend (n : Fin 8) (v : Word) (s : State) :
    exec (.droneSend n v) s = s.run fun d => d.hostWrite (droneTxPage n) 0x048 0x4000 (v ||| 0x4000)
      fun d => if (v ||| 0x4000).getLsbD 14 then d.droneSend n else d :=
  rfl

/-- A message of engine `n` may be taken over (R310, R311). -/
structure Dev.MaySend (n : Nat) (d : Dev) : Prop where
  /-- the engine sends bursts of its own -/
  follows : d.droneFollows n = false
  /-- the Drone runs -/
  live : d.droneLive = true
  /-- no message is under way -/
  idle : d.on (Reg.DR_TX_STAT_BUSY n) = false

/-- Header bytes 0 to 5 of the message that engine `n` takes over, with `extra` bytes beside its payload (R308, R319). -/
def Dev.sendHeader (n extra : Nat) (d : Dev) : List Byte :=
  droneHeader 0 (ofBool (d.on (Reg.DR_TX_CTRL_SEC n)) + 2 * d.rd (Reg.DR_TX_CTRL_WAKE n)) (d.rd (Reg.DR_TX_CTRL_LENGTH n) + extra) (d.dtx n).seq

/-- The payload of the message that engine `n` takes over. -/
def Dev.sendData (n : Nat) (d : Dev) : List Byte :=
  d.droneBuf n (d.rd (Reg.DR_TX_CTRL_LENGTH n))

/-- A message without SEC taken over: it waits with its header and payload. -/
def Dev.sendPlain (n : Nat) (d : Dev) : Dev :=
  (d.setDtx n { d.dtx n with seq := ((d.dtx n).seq + 1) % 65536, waiting := some (droneBytes (d.sendHeader n 0) (d.sendData n)) }).wr
    (Reg.DR_TX_STAT_BUSY n) 1

/-- A message with SEC taken over: it becomes a request of the cipher engine. -/
def Dev.sendSealed (n : Nat) (d : Dev) : Dev :=
  { (d.setDtx n { d.dtx n with seq := ((d.dtx n).seq + 1) % 65536, sealing := true }).wr (Reg.DR_TX_STAT_BUSY n) 1 with
    droneReqs := d.droneReqs ++ [⟨n, d.sendHeader n 28, d.sendData n⟩] }

section Send
variable {d : Dev} {n : Nat}

theorem not_ignored (h : d.MaySend n) : ¬ (d.droneFollows n = true ∨ ¬ d.droneLive = true ∨ d.on (Reg.DR_TX_STAT_BUSY n) = true) := by
  simp [h.follows, h.live, h.idle]

theorem droneSend_plain (h : d.MaySend n) (hs : d.on (Reg.DR_TX_CTRL_SEC n) = false) (hl : d.rd (Reg.DR_TX_CTRL_LENGTH n) ≤ 2048) :
    d.droneSend n = d.sendPlain n := by
  simp only [Dev.droneSend, if_neg (not_ignored h), Dev.sendPlain, Dev.sendHeader, Dev.sendData, hs, Bool.false_eq_true, false_and, if_false,
    if_neg (Nat.not_lt.mpr hl), Nat.add_zero]

theorem droneSend_sealed (h : d.MaySend n) (hs : d.on (Reg.DR_TX_CTRL_SEC n) = true) (hl : d.rd (Reg.DR_TX_CTRL_LENGTH n) ≤ 2020)
    (hb : d.blockOut 61 = false) : d.droneSend n = d.sendSealed n := by
  simp only [Dev.droneSend, if_neg (not_ignored h), Dev.sendSealed, Dev.sendHeader, Dev.sendData, hs, hb, Bool.false_eq_true, and_false, if_false,
    if_true, if_neg (Nat.not_lt.mpr hl)]
  rfl

theorem droneSend_ignored (h : d.droneFollows n = true ∨ d.on (Reg.DR_TX_STAT_BUSY n) = true) : d.droneSend n = d.sendIgnored n :=
  if_pos (h.imp_right .inr)

end Send

/-! SEND on kin devices -/

section Kin
variable {a : List (Nat × Nat)} {d e : Dev} (h : Dev.Kin a d e)
include h

theorem Dev.Kin.blockOut_eq (b : Nat) (hb : b < 96) : e.blockOut b = d.blockOut b := by
  rw [Dev.blockOut, Dev.blockOut, Dev.block, Dev.block, h.bist_eq, h.toLike.rd (by simp only [overflowCell, regCell]; omega)]

theorem Dev.Kin.droneLive_eq : e.droneLive = d.droneLive := by
  rw [Dev.droneLive, Dev.droneLive, h.blockOut_eq 60 (by decide), h.bist_eq]

theorem Dev.Kin.maySend {n : Nat} (hm : d.MaySend n) : e.MaySend n :=
  ⟨(h.droneFollows_eq n).trans hm.follows, h.droneLive_eq.trans hm.live,
    (h.toLike.on (by simp only [overflowCell, regCell]; omega)).trans hm.idle⟩

theorem Dev.Kin.sendHeader_eq (n extra : Nat) : e.sendHeader n extra = d.sendHeader n extra := by
  simp (disch := (simp only [overflowCell, regCell]; omega)) only [Dev.sendHeader, h.dtx_eq, h.toLike.on, h.toLike.rd]

theorem Dev.Kin.sendData_eq (n : Nat) : e.sendData n = d.sendData n := by
  simp (disch := (simp only [overflowCell, regCell]; omega)) only [Dev.sendData, Dev.droneBuf, h.toLike.rd]

theorem Dev.Kin.sendPlain (n : Nat) : Dev.Kin a (d.sendPlain n) (e.sendPlain n) :=
  (h.setDtx n (by rw [h.dtx_eq, h.sendHeader_eq, h.sendData_eq])).write _ rfl

theorem Dev.Kin.sendSealed (n : Nat) : Dev.Kin a (d.sendSealed n) (e.sendSealed n) := by
  have hb := (h.setDtx n (x := { d.dtx n with seq := ((d.dtx n).seq + 1) % 65536, sealing := true }) rfl).write (Reg.DR_TX_STAT_BUSY n) (v := 1) rfl
  rw [Dev.sendSealed, Dev.sendSealed, h.dtx_eq, h.sendHeader_eq, h.sendData_eq]
  exact hb.map (fun x => { x with droneReqs := x.droneReqs ++ [⟨n, d.sendHeader n 28, d.sendData n⟩] }) (fun _ => rfl) (fun _ => rfl) (fun _ => rfl)
    fun _ => rfl

end Kin

/-! The word that SEND writes -/

section Word
variable (d : Dev) (n : Fin 8) (v : Word)

theorem sendWord_part {α : Type} (p : Dev → α)
    (hp : ∀ (x : Dev) r sh ps u, p { x with regs := r, shadow := sh, pages := ps, refused := u } = p x) : p (d.sendWord n v) = p d :=
  writeWord_part p hp d _ _ _ _

theorem sendWord_rd {f : Field} (hf : f.cell ≠ (Reg.DR_TX_CTRL_SEND n).cell) : (d.sendWord n v).rd f = d.rd f :=
  congrArg (getBits · _ _) (writeWord_word_ne d _ _ hf)

theorem sendWord_dtx (m : Nat) : (d.sendWord n v).dtx m = d.dtx m :=
  sendWord_part d n v (fun x => x.dtx m) fun _ _ _ _ _ => rfl

theorem sendWord_blockOut (b : Nat) (hb : b < 96) : (d.sendWord n v).blockOut b = d.blockOut b := by
  have hbist := sendWord_part d n v (fun x => x.bist) fun _ _ _ _ _ => rfl
  rw [Dev.blockOut, Dev.blockOut, Dev.block, Dev.block, hbist, sendWord_rd d n v (by simp only [regCell]; omega)]

theorem sendWord_follows : (d.sendWord n v).droneFollows n = d.droneFollows n := by
  rw [Dev.droneFollows, Dev.droneFollows, Dev.txTwin, Dev.txTwin, Dev.on, Dev.on, sendWord_rd d n v (by simp only [regCell]; omega)]

theorem sendWord_busy : (d.sendWord n v).on (Reg.DR_TX_STAT_BUSY n) = d.on (Reg.DR_TX_STAT_BUSY n) := by
  rw [Dev.on, Dev.on, sendWord_rd d n v (by simp only [regCell]; omega)]

theorem sendWord_data : (d.sendWord n v).sendData n = d.droneBuf n ((d.sendWord n v).rd (Reg.DR_TX_CTRL_LENGTH n)) := by
  simp (disch := (simp only [regCell]; omega)) only [Dev.sendData, Dev.droneBuf, sendWord_rd]

theorem sendWord_maySend (h : d.MaySend n) : (d.sendWord n v).MaySend n := by
  have hbist := sendWord_part d n v (fun x => x.bist) fun _ _ _ _ _ => rfl
  refine ⟨(sendWord_follows d n v).trans h.follows, ?_, (sendWord_busy d n v).trans h.idle⟩
  rw [Dev.droneLive, sendWord_blockOut d n v 60 (by decide), hbist]
  exact h.live

end Word

theorem Dev.Quiet.oneViol {d e : Dev} (h : Dev.Quiet d e) (page before : Nat) : Dev.Quiet d (e.oneViol page before) := by
  unfold Dev.oneViol
  split
  · exact h.map (u := Dev.setHdr page _) (fun _ => rfl) (fun _ => rfl) (fun _ => rfl) fun _ => rfl
  · exact h

theorem sec_on {d : Dev} {n k : Nat} (h : d.rd (Reg.DR_TX_CTRL_SEC n) = k) : d.on (Reg.DR_TX_CTRL_SEC n) = decide (k ≠ 0) := by
  rw [Dev.on, h]

theorem sendOwn_send (v : Word) : (v ||| (0x4000 : Word)).getLsbD 14 = true := by
  simp

section Settle
variable {n : Fin 8} {v : Word} {s : State} (hs : s.Inv) (hl : s.dev.pageLive (droneTxPage n) = true)
  (ht : s.dev.pageInTest (droneTxPage n) = false)
include hs hl ht

/-- What SEND makes of a device that takes the message over, where its effect counts no violation. -/
theorem settles_droneSend {d : Dev} (hq : Dev.Quiet (s.dev.sendWord n v) d) (hp : d.pages = (s.dev.sendWord n v).pages)
    (h : ∀ e, Dev.Kin [] (s.dev.sendWord n v) e → Dev.Kin [] d (e.droneSend n)) :
    ∃ t, exec (.droneSend n v) s = .next t ∧ State.Settles [] d s t := by
  have hc : ¬ overflowCell (regCell (droneTxPage n) 0x048) := by simp only [overflowCell, regCell, droneTxPage]; omega
  have hw : Dev.Quiet s.dev (s.dev.sendWord n v) := Dev.Quiet.writeWord _ _ _ _ _
  have hd : d.Unladen := ((unladen_of_inv hs).quiet hw).quiet hq
  rw [exec_droneSend]
  refine settles_unladen hs (hostWrite_kin_of_le hl ht hc (fun e he => ?_) ?_).toLike hd
  · rw [if_pos (sendOwn_send v)]
    exact h e he
  · rw [Dev.hdr, hp]
    exact viol_writeWord_le s.dev _ _ _ _

theorem settles_droneSend_plain (hm : s.dev.MaySend n) (hsec : (s.dev.sendWord n v).rd (Reg.DR_TX_CTRL_SEC n) = 0)
    (hlen : (s.dev.sendWord n v).rd (Reg.DR_TX_CTRL_LENGTH n) ≤ 2048) :
    ∃ t, exec (.droneSend n v) s = .next t ∧ State.Settles [] ((s.dev.sendWord n v).sendPlain n) s t := by
  refine settles_droneSend hs hl ht (((Dev.Quiet.refl _).setDtx n _).wr _ _) rfl fun e he => ?_
  have hc : ¬ overflowCell (Reg.DR_TX_CTRL_SEND n).cell := by simp only [overflowCell, regCell]; omega
  rw [droneSend_plain (he.maySend (sendWord_maySend s.dev n v hm)) (by rw [he.toLike.on (f := Reg.DR_TX_CTRL_SEC n) hc, sec_on hsec]; rfl)
    (by rw [he.toLike.rd (f := Reg.DR_TX_CTRL_LENGTH n) hc]; exact hlen)]
  exact he.sendPlain n

theorem settles_droneSend_sealed (hm : s.dev.MaySend n) (hsec : (s.dev.sendWord n v).rd (Reg.DR_TX_CTRL_SEC n) = 1)
    (hlen : (s.dev.sendWord n v).rd (Reg.DR_TX_CTRL_LENGTH n) ≤ 2020) (hb : s.dev.blockOut 61 = false) :
    ∃ t, exec (.droneSend n v) s = .next t ∧ State.Settles [] ((s.dev.sendWord n v).sendSealed n) s t := by
  have hq : Dev.Quiet (s.dev.sendWord n v) ((s.dev.sendWord n v).sendSealed n) :=
    (((Dev.Quiet.refl _).setDtx n _).wr _ _).map (u := fun x => { x with droneReqs := x.droneReqs ++ [_] }) (fun _ => rfl) (fun _ => rfl)
      (fun _ => rfl) fun _ => rfl
  refine settles_droneSend hs hl ht hq rfl fun e he => ?_
  have hc : ¬ overflowCell (Reg.DR_TX_CTRL_SEND n).cell := by simp only [overflowCell, regCell]; omega
  rw [droneSend_sealed (he.maySend (sendWord_maySend s.dev n v hm)) (by rw [he.toLike.on (f := Reg.DR_TX_CTRL_SEC n) hc, sec_on hsec]; rfl)
    (by rw [he.toLike.rd (f := Reg.DR_TX_CTRL_LENGTH n) hc]; exact hlen) (by rw [he.blockOut_eq 61 (by decide), sendWord_blockOut s.dev n v 61 (by decide), hb])]
  exact he.sendSealed n

theorem settles_droneSend_ignored (h : s.dev.droneFollows n = true ∨ s.dev.on (Reg.DR_TX_STAT_BUSY n) = true) :
    ∃ t, exec (.droneSend n v) s = .next t ∧
      State.Settles [(8, 11)] (((s.dev.sendWord n v).viol (droneTxPage n)).oneViol (droneTxPage n) (s.dev.hdr (droneTxPage n)).viol) s t := by
  have hc : ¬ overflowCell (regCell (droneTxPage n) 0x048) := by simp only [overflowCell, regCell, droneTxPage]; omega
  have hw : Dev.Quiet s.dev (s.dev.sendWord n v) := Dev.Quiet.writeWord _ _ _ _ _
  have hq := (hw.map (u := Dev.viol (droneTxPage n)) (fun _ => rfl) (fun _ => rfl) (fun _ => rfl) fun _ => rfl).oneViol (droneTxPage n)
    (s.dev.hdr (droneTxPage n)).viol
  rw [exec_droneSend]
  refine settles_quiet hs (hostWrite_kin hl ht hc fun e he => ?_).toLike hq
  have he' : Dev.Kin [] (s.dev.sendWord n v) e := he
  have hbusy : e.on (Reg.DR_TX_STAT_BUSY n) = s.dev.on (Reg.DR_TX_STAT_BUSY n) :=
    (he'.toLike.on (by simp only [overflowCell, regCell]; omega)).trans (sendWord_busy s.dev n v)
  have hfol : e.droneFollows n = s.dev.droneFollows n := (he'.droneFollows_eq n).trans (sendWord_follows s.dev n v)
  rw [if_pos (sendOwn_send v), droneSend_ignored (by rw [hbusy, hfol]; exact h)]
  exact (he'.viol (droneTxPage n)).trans (Dev.Kin.raise _ 8 11)

end Settle
end Sys2Proof.Machine
end

section
namespace Sys2Proof.Machine

/-! ### O28: bursts started, ended and cut (R307 to R309, R55) -/

theorem sdel_sins {α : Type} (k : Nat) (v : α) (l : List (Nat × α)) : sdel k (sins k v l) = sdel k l := by
  induction l with
  | nil => simp [sins, sdel]
  | cons e r ih =>
    rw [sins]
    split
    · simp [sdel]
    · simp only [sdel, List.filter_cons] at ih ⊢
      rw [ih]

/-- Of two writes at one key the later stands. -/
theorem sset_sset {α : Type} [DecidableEq α] (d : Nat → α) (l : List (Nat × α)) (k : Nat) (v w : α) : sset d (sset d l k v) k w = sset d l k w := by
  have hdel : sdel k (sset d l k v) = sdel k l := by
    rw [sset]
    split
    · simp [sdel]
    · rw [sdel_sins]
      simp [sdel]
  rw [sset, hdel, sset]

theorem setDtx_setDtx (d : Dev) (n : Nat) (x y : DroneTx) : (d.setDtx n x).setDtx n y = d.setDtx n y := by
  simp only [Dev.setDtx, sset_sset]

theorem dtx_setDtx (d : Dev) (n : Nat) (x : DroneTx) : (d.setDtx n x).dtx n = x :=
  sget_sset_same _ _ _

/-- The insertion of the odd engine of the pair started along with the burst, where its own EN is 1. -/
def Dev.oddInserts (n : Nat) (was x : Dev) : Dev :=
  if was.txTwin n && was.on (Reg.TX_DRONE_INS_EN (n + 1)) then x.wr (Reg.TX_DRONE_INS_ACTIVE (n + 1)) 1 else x

/-- A burst of `bytes` put on the air on the transmitter `t`. -/
def Dev.onAir (t : DroneTx) (beacon : Bool) (bytes : List Byte) (s : Dev) (n : Nat) : DroneTx :=
  { t with
    sending := some (beacon, bytes ++ bytesBE 4 (crc32 bytes), s.rd (Reg.DR_TX_CFG_SUBC n), s.rd (Reg.DR_TX_CFG_CODE n), s.rd (Reg.DR_TX_CFG_DEPTH n),
      s.rd (Reg.DR_TX_RAMP_RAMP_US n))
    symbols := droneSymbols (bytes ++ bytesBE 4 (crc32 bytes)), chips := droneCode (s.rd (Reg.DR_TX_CFG_CODE n)) }

/-- What a burst writes when it starts leaves the mode of the pair and the odd engine's EN as they were. -/
theorem droneStart_eq (n : Fin 8) (beacon : Bool) (bytes : List Byte) (s : Dev) (t : DroneTx) :
    (s.setDtx n t).droneStart n beacon bytes =
      Dev.oddInserts n s (((s.setDtx n (Dev.onAir t beacon bytes s n)).wr (Reg.DR_TX_STAT_SEQ n) (fieldBE bytes 4 2)).wr (Reg.TX_DRONE_INS_ACTIVE n) 1) := by
  have htwin (d : Dev) (v w : Nat) : ((d.wr (Reg.DR_TX_STAT_SEQ n) v).wr (Reg.TX_DRONE_INS_ACTIVE n) w).txTwin n = d.txTwin n := by
    rw [Dev.txTwin, Dev.on, rd_wr_ne _ _ _ _ (by simp only [regCell]; omega), rd_wr_ne _ _ _ _ (by simp only [regCell]; omega), Dev.txTwin, Dev.on]
  have hen (d : Dev) (v w : Nat) :
      ((d.wr (Reg.DR_TX_STAT_SEQ n) v).wr (Reg.TX_DRONE_INS_ACTIVE n) w).on (Reg.TX_DRONE_INS_EN (n + 1)) = d.on (Reg.TX_DRONE_INS_EN (n + 1)) := by
    rw [Dev.on, rd_wr_ne _ _ _ _ (by simp only [regCell]; omega), rd_wr_ne _ _ _ _ (by simp only [regCell]; omega), Dev.on]
  delta Dev.droneStart
  dsimp only
  rw [htwin, hen, setDtx_setDtx, dtx_setDtx]
  simp only [Dev.oddInserts, Bool.and_eq_true]
  rfl

/-- The burst of engine `n` off the air, with the odd engine's insertion in twin mode. -/
theorem droneEnd_eq (n : Fin 8) (s : Dev) :
    s.droneEnd n = (fun x : Dev => if s.txTwin n then x.wr (Reg.TX_DRONE_INS_ACTIVE (2 * (n / 2) + 1)) 0 else x)
      ((s.setDtx n { s.dtx n with sending := none, symbols := [], chips := [] }).wr (Reg.TX_DRONE_INS_ACTIVE n) 0) := by
  have htwin (d : Dev) : (d.wr (Reg.TX_DRONE_INS_ACTIVE n) 0).txTwin n = d.txTwin n := by
    rw [Dev.txTwin, Dev.on, rd_wr_ne _ _ _ _ (by simp only [regCell]; omega), Dev.txTwin, Dev.on]
  delta Dev.droneEnd
  dsimp only
  rw [htwin]
  rfl

/-- The device after the burst has ended. -/
def Dev.burstDone (n : Nat) (beacon : Bool) (s : Dev) : Dev :=
  if beacon then (s.droneEnd n).bump Reg.BCN_SENT.run
  else (((s.droneEnd n).bump Reg.TX_OK.run).wr (Reg.DR_TX_STAT_BUSY n) 0).wr (Reg.DR_TX_STAT_STATUS n) 0

/-- The device after the burst is cut. -/
def Dev.burstLost (n : Nat) (beacon : Bool) (s : Dev) : Dev :=
  if beacon then (s.droneEnd n).bump Reg.TX_CUT.run
  else (((s.droneEnd n).bump Reg.TX_CUT.run).wr (Reg.DR_TX_STAT_BUSY n) 0).wr (Reg.DR_TX_STAT_STATUS n) 1

theorem Dev.Quiet.burstDone {d e : Dev} (h : Dev.Quiet d e) (n : Nat) (beacon : Bool) : Dev.Quiet d (e.burstDone n beacon) := by
  unfold Dev.burstDone
  cases beacon
  · exact (((h.droneEnd n).wr _ _).wr _ _).wr _ _
  · exact (h.droneEnd n).wr _ _

theorem Dev.Quiet.burstLost {d e : Dev} (h : Dev.Quiet d e) (n : Nat) (beacon : Bool) : Dev.Quiet d (e.burstLost n beacon) := by
  unfold Dev.burstLost
  cases beacon
  · exact (((h.droneEnd n).wr _ _).wr _ _).wr _ _
  · exact (h.droneEnd n).wr _ _

theorem Dev.Quiet.oddInserts {d e : Dev} (h : Dev.Quiet d e) (n : Nat) (was : Dev) : Dev.Quiet d (was.oddInserts n e) := by
  unfold Dev.oddInserts
  split
  · exact h.wr _ _
  · exact h

theorem cutBurst_sending {d : Dev} {n : Nat} {beacon : Bool} {b : List Byte × Nat × Nat × Nat × Nat} (h : (d.dtx n).sending = some (beacon, b)) :
    d.cutBurst n = (d.burstLost n beacon).raise 8 10 := by
  rw [Dev.cutBurst, h]
  rfl

theorem cutBurst_odd {d : Dev} {n : Nat} (h : (d.dtx n).sending = none) (hf : d.droneFollows n = true)
    (ha : d.on (Reg.TX_DRONE_INS_ACTIVE n) = true) : d.cutBurst n = ((d.wr (Reg.TX_DRONE_INS_ACTIVE n) 0).bump Reg.TX_CUT.run).raise 8 10 := by
  rw [Dev.cutBurst, h]
  exact if_pos ⟨hf, ha⟩

theorem cutBurst_idle {d : Dev} {n : Nat} (h : (d.dtx n).sending = none)
    (hf : d.droneFollows n = false ∨ d.on (Reg.TX_DRONE_INS_ACTIVE n) = false) : d.cutBurst n = d := by
  rw [Dev.cutBurst, h]
  refine if_neg fun ⟨hfol, hact⟩ => ?_
  rcases hf with hf | hf
  · simp [hfol] at hf
  · simp [hact] at hf

theorem exec_droneBurstStart (n : Fin 8) (s : State) : exec (.droneBurstStart n) s = s.run fun d =>
    if !d.mayBurst n then d
    else if (d.dtx n).beacon && d.identitySigns then
      let t := { d.dtx n with beacon := false, seq := ((d.dtx n).seq + 1) % 65536 }
      ({ d with drone := { d.drone with sentBeacons := d.drone.sentBeacons + 1 } }.setDtx n t).droneStart n true
        (droneBytes (droneHeader 1 0 128 (d.dtx n).seq) (d.beaconPayload n))
    else match (d.dtx n).waiting with
      | some bytes => (d.setDtx n { d.dtx n with waiting := none }).droneStart n false bytes
      | none => d :=
  rfl

theorem exec_droneBurstComplete (n : Fin 8) (s : State) : exec (.droneBurstComplete n) s = s.run fun d =>
    match (d.dtx n).sending with
    | none => d
    | some (beacon, _) => (d.burstDone n beacon).raise 8 9 :=
  rfl

theorem exec_droneBurstCut (n : Fin 8) (s : State) : exec (.droneBurstCut n) s = s.run fun d => if d.burstOver n then d.cutBurst n else d :=
  rfl

section Burst
variable {n : Fin 8} {s : State} (hs : s.Inv)
include hs

theorem settles_beaconDue (h : s.dev.hubOn ∧ s.dev.lineOn n ∧ s.dev.droneLive ∧ s.dev.on Reg.DR_CTRL_BCN_EN ∧ s.dev.identitySigns ∧ ¬ s.dev.droneFollows n) :
    ∃ t, exec (.beaconDue n) s = .next t ∧ State.Settles [] (s.dev.setDtx n { s.dev.dtx n with beacon := true }) s t :=
  settles_exact hs (if_pos h) ((unladen_of_inv hs).quiet ((Dev.Quiet.refl _).setDtx n _))

theorem settles_burstStart_message {b : List Byte} (hm : s.dev.mayBurst n = true) (hb : ((s.dev.dtx n).beacon && s.dev.identitySigns) = false)
    (hw : (s.dev.dtx n).waiting = some b) :
    ∃ t, exec (.droneBurstStart n) s = .next t ∧ State.Settles [] (s.dev.oddInserts n
      (((s.dev.setDtx n (Dev.onAir { s.dev.dtx n with waiting := none } false b s.dev n)).wr (Reg.DR_TX_STAT_SEQ n) (fieldBE b 4 2)).wr
        (Reg.TX_DRONE_INS_ACTIVE n) 1)) s t := by
  rw [exec_droneBurstStart]
  refine settles_exact hs ?_ ((unladen_of_inv hs).quiet (((((Dev.Quiet.refl _).setDtx n _).wr _ _).wr _ _).oddInserts n _))
  rw [hm, hb, hw]
  exact droneStart_eq n false b s.dev _

theorem settles_burstStart_beacon {d : Dev} {b : List Byte} (hm : s.dev.mayBurst n = true) (hb : (s.dev.dtx n).beacon = true)
    (hi : s.dev.identitySigns = true) (hd : { s.dev with drone := { s.dev.drone with sentBeacons := s.dev.drone.sentBeacons + 1 } } = d)
    (hbytes : droneBytes (droneHeader 1 0 128 (s.dev.dtx n).seq) (s.dev.beaconPayload n) = b) :
    ∃ t, exec (.droneBurstStart n) s = .next t ∧ State.Settles [] (d.oddInserts n
      (((d.setDtx n (Dev.onAir { s.dev.dtx n with beacon := false, seq := ((s.dev.dtx n).seq + 1) % 65536 } true b d n)).wr
        (Reg.DR_TX_STAT_SEQ n) (fieldBE b 4 2)).wr (Reg.TX_DRONE_INS_ACTIVE n) 1)) s t := by
  have hq : Dev.Quiet s.dev d := hd ▸ (Dev.Quiet.refl s.dev).map
    (u := fun x => { x with drone := { x.drone with sentBeacons := x.drone.sentBeacons + 1 } }) (fun _ => rfl) (fun _ => rfl) (fun _ => rfl) fun _ => rfl
  rw [exec_droneBurstStart]
  refine settles_exact hs ?_ ((unladen_of_inv hs).quiet ((((hq.setDtx n _).wr _ _).wr _ _).oddInserts n _))
  rw [hm, hb, hi, hd, hbytes]
  exact droneStart_eq n true b d _

theorem settles_burstStart_idle (h : s.dev.mayBurst n = false ∨ ((s.dev.dtx n).beacon && s.dev.identitySigns) = false ∧ (s.dev.dtx n).waiting = none) :
    ∃ t, exec (.droneBurstStart n) s = .next t ∧ State.Settles [] s.dev s t := by
  rw [exec_droneBurstStart]
  refine settles_idle hs ?_
  rcases h with hm | ⟨hb, hw⟩
  · rw [hm]
    rfl
  · rw [hb, hw]
    exact ite_self _

theorem settles_burstComplete {bcn : Bool} {b : List Byte × Nat × Nat × Nat × Nat} (h : (s.dev.dtx n).sending = some (bcn, b)) :
    ∃ t, exec (.droneBurstComplete n) s = .next t ∧ State.Settles [(8, 9)] (s.dev.burstDone n bcn) s t := by
  rw [exec_droneBurstComplete]
  refine settles_quiet hs ?_ ((Dev.Quiet.refl _).burstDone n bcn)
  rw [h]
  exact (Dev.Kin.raise _ 8 9).toLike

theorem settles_burstComplete_idle (h : (s.dev.dtx n).sending = none) :
    ∃ t, exec (.droneBurstComplete n) s = .next t ∧ State.Settles [] s.dev s t := by
  rw [exec_droneBurstComplete]
  refine settles_idle hs ?_
  rw [h]

/-- A cut that takes the burst off the air counts it and raises E-08.10. -/
theorem settles_burstCut {d : Dev} (ho : s.dev.burstOver n = true) (h : s.dev.cutBurst n = d.raise 8 10) (hq : Dev.Quiet s.dev d) :
    ∃ t, exec (.droneBurstCut n) s = .next t ∧ State.Settles [(8, 10)] d s t := by
  rw [exec_droneBurstCut]
  refine settles_quiet hs ?_ hq
  rw [ho, if_pos rfl, h]
  exact (Dev.Kin.raise d 8 10).toLike

theorem settles_burstCut_idle (h : s.dev.burstOver n = false ∨ (s.dev.dtx n).sending = none ∧
      (s.dev.droneFollows n = false ∨ s.dev.on (Reg.TX_DRONE_INS_ACTIVE n) = false)) :
    ∃ t, exec (.droneBurstCut n) s = .next t ∧ State.Settles [] s.dev s t := by
  rw [exec_droneBurstCut]
  refine settles_idle hs ?_
  rcases h with ho | ⟨hn, hf⟩
  · rw [ho]
    rfl
  · rw [cutBurst_idle hn hf, ite_self]

end Burst

/-! The settled SEND in the words of Table 11.4 -/

section Send
variable {d : Dev} {n : Fin 8} {v : Word}

theorem sec_ofBool {k : Nat} (h : (d.sendWord n v).rd (Reg.DR_TX_CTRL_SEC n) = k) (hk : k < 2) :
    (d.sendWord n v).on (Reg.DR_TX_CTRL_SEC n) = decide ((d.sendWord n v).rd (Reg.DR_TX_CTRL_SEC n) = 1) := by
  rw [sec_on h, h]
  interval_cases k <;> rfl

theorem sendWord_header {k : Nat} (extra : Nat) (h : (d.sendWord n v).rd (Reg.DR_TX_CTRL_SEC n) = k) (hk : k < 2) :
    (d.sendWord n v).sendHeader n extra = droneHeader 0 (ofBool (decide ((d.sendWord n v).rd (Reg.DR_TX_CTRL_SEC n) = 1)) +
      2 * (d.sendWord n v).rd (Reg.DR_TX_CTRL_WAKE n)) ((d.sendWord n v).rd (Reg.DR_TX_CTRL_LENGTH n) + extra) (d.dtx n).seq := by
  rw [Dev.sendHeader, sec_ofBool h hk, sendWord_dtx]

end Send

/-- Settles O28: SEND by what it makes of the device with its word written, bursts by what they write at their start, end and cut. -/
theorem droneSending : Obligations.DroneSending := by
  unfold Obligations.DroneSending
  refine ⟨?_, ?_, ?_, ?_, ?_, ?_, ?_, ?_, ?_, ?_, ?_, ?_⟩
  · intro n v s hs hl ht hfollows hlive hidle hsec hlen
    have h := settles_droneSend_plain hs hl ht ⟨hfollows, hlive, hidle⟩ hsec hlen
    rw [Dev.sendPlain, sendWord_header 0 hsec (by decide), sendWord_data, sendWord_dtx] at h
    exact h
  · intro n v s hs hl ht hfollows hlive hidle hsec hlen hout
    have h := settles_droneSend_sealed hs hl ht ⟨hfollows, hlive, hidle⟩ hsec hlen hout
    rw [Dev.sendSealed, sendWord_header 28 hsec (by decide), sendWord_data, sendWord_dtx,
      sendWord_part s.dev n v (fun x => x.droneReqs) fun _ _ _ _ _ => rfl] at h
    exact h
  · exact fun n v s hs hl ht h => settles_droneSend_ignored hs hl ht h
  · exact fun n s hs hhub hline hlive hen hsigns hfollows => settles_beaconDue hs ⟨hhub, hline, hlive, hen, hsigns, by simp [hfollows]⟩
  · exact fun n b s hs hm hb hw => settles_burstStart_message hs hm hb hw
  · exact fun n s hs hm hb hi => settles_burstStart_beacon hs hm hb hi rfl rfl
  · intro n bcn b s hs h
    have hdone := settles_burstComplete hs h
    rw [Dev.burstDone, droneEnd_eq] at hdone
    exact hdone
  · intro n bcn b s hs h ho
    have hcut := settles_burstCut hs ho (cutBurst_sending h) ((Dev.Quiet.refl _).burstLost n bcn)
    rw [Dev.burstLost, droneEnd_eq] at hcut
    exact hcut
  · exact fun n s hs h => settles_burstStart_idle hs h
  · exact fun n s hs h => settles_burstComplete_idle hs h
  · exact fun n s hs h hf ha ho => settles_burstCut hs ho (cutBurst_odd h hf ha) (((Dev.Quiet.refl _).wr _ _).wr _ _)
  · exact fun n s hs h => settles_burstCut_idle hs h

end Sys2Proof.Machine
end

section
namespace Sys2Proof.Machine
open Sys2Proof.Tests

/-! ### O4: ENABLE = 1 ends a system calibration of the engine's own converters -/

/-- The receiver of engine 0 is idle with its ADC calibration valid, and a system calibration of its ADCs is under way. -/
def calibratingReceiver : State :=
  runningWith [(Reg.LCAL_STAT_ADC_VALID 0, 1), (Reg.LCAL_SYS_BUSY, 1), (Reg.LCAL_SYS_STEP, 1)] fun d =>
    { d with col := { d.col with sysCal := some ⟨0, false, 7, [], []⟩ } }

theorem exec_rxEnableWrite (n : Fin 8) (s : State) :
    exec (.rxEnableWrite n) s = .next (s.become (s.dev.onHeldWrite (linePage n 8) 0x040 (.rxEnable n) (Dev.rxEnable n))) :=
  rfl

/-- The converters leave idle, so that the calibration ends (R367). -/
theorem sysCal_of_rxEnableWrite :
    (calibratingReceiver.dev.onHeldWrite (linePage (0 : Fin 8) 8) 0x040 (.rxEnable (0 : Fin 8)) (Dev.rxEnable (0 : Fin 8))).col.sysCal = none := by
  decide +kernel

/-- A command that settles leaves the calibrations as its device has them. -/
theorem sysCal_of_settles {evs : List (Nat × Nat)} {d u : Dev} {s : State} (h : State.Settles evs d s (s.become u)) : u.col.sysCal = d.col.sysCal :=
  congrArg Collim.sysCal (h.dev.part (fun x => x.col) fun _ => rfl)

/-- Refutes O4: ENABLE = 1 makes the converters of the receiver leave idle, which ends a system calibration of them in FAIL (R367). The first clause, on an
idle receiver with a valid calibration, leaves out that a system calibration may be under way (`calibratingReceiver`), and keeps it. -/
theorem not_receiveEnableAndSampling : ¬ Obligations.ReceiveEnableAndSampling := by
  unfold Obligations.ReceiveEnableAndSampling
  rintro ⟨henable, -⟩
  obtain ⟨t, ht, hset⟩ := henable 0 calibratingReceiver (by decide) (by decide) (by decide) (by decide) (by decide) (by decide) (by decide) (by decide)
  rw [exec_rxEnableWrite] at ht
  obtain rfl := Host.Outcome.next.inj ht
  have hkept := (sysCal_of_settles hset).symm.trans sysCal_of_rxEnableWrite
  exact absurd hkept (by decide +kernel)

end Sys2Proof.Machine
end

section
namespace Sys2Proof.Machine

/-! ### Capture runs and drains store nothing but records (R92 to R96) -/

theorem Dev.Quiet.setCpe {d e : Dev} (h : Dev.Quiet d e) (n : Nat) (x : CapEngine) : Dev.Quiet d (e.setCpe n x) :=
  h.map (u := Dev.setCpe n x) (fun _ => rfl) (fun _ => rfl) (fun _ => rfl) fun _ => rfl

theorem Dev.Quiet.showCapBusy {d e : Dev} (h : Dev.Quiet d e) (n : Nat) : Dev.Quiet d (e.showCapBusy n) :=
  h.wr _ _

theorem Dev.Quiet.capMiss {d e : Dev} (h : Dev.Quiet d e) (n : Nat) : Dev.Quiet d (e.capMiss n) :=
  (h.wr _ _).raise _ _

/-- A record of `count` sample instants ends within the capture region where the next one is written. -/
abbrev Dev.RecordFits (count : Nat) (d : Dev) : Prop :=
  d.rd Reg.CAP_WR_PTR_PTR + ceilDiv (64 + 4 * count) 64 ≤ d.capUnits

/-- The place of a record that ends within the region needs no pad. -/
theorem Dev.Quiet.placeRecord {s e : Dev} {n count : Nat} {r c : CapRec} (hf : s.RecordFits count) (h : s.placeRecord n count r = some (c, e)) :
    Dev.Quiet s e := by
  revert h
  delta Dev.placeRecord
  extract_lets u size wr rd wraps need room start d1 kept recs d2 d3 d4
  have hwraps : wraps = false := decide_eq_false (Nat.not_lt.mpr hf)
  have h1 : Dev.Quiet s d1 := by
    rw [show d1 = s from if_neg (by simp [hwraps])]
    exact Dev.Quiet.refl s
  have h2 : Dev.Quiet s d2 := h1.map (u := fun x => { x with capRecs := recs }) (fun _ => rfl) (fun _ => rfl) (fun _ => rfl) fun _ => rfl
  have h4 : Dev.Quiet s d4 := (h2.wr _ _).wr _ _
  intro h
  split at h
  · cases h
  · simp only [Option.some.injEq, Prod.mk.injEq] at h
    exact h.2 ▸ h4

theorem startDecim_placed {s e : Dev} {n first : Nat} {r : CapRun} {c : CapRec}
    (h : s.placeRecord n r.length (s.recordOf n { r with first := first } [] 0) = some (c, e)) :
    s.startDecim n first r = (true, e.setCpe n { e.cpe n with run := some { r with started := true, first := first, place := c.start } }) := by
  generalize hf : @Dev.startDecim = f
  delta Dev.startDecim at hf
  subst hf
  beta_reduce
  rw [h]

theorem startDecim_missed {s : Dev} {n first : Nat} {r : CapRun}
    (h : s.placeRecord n r.length (s.recordOf n { r with first := first } [] 0) = none) :
    s.startDecim n first r = (false, (s.setCpe n { s.cpe n with run := none }).capMiss n) := by
  generalize hf : @Dev.startDecim = f
  delta Dev.startDecim at hf
  subst hf
  beta_reduce
  rw [h]

theorem Dev.Quiet.startDecim {s : Dev} (n first : Nat) {r : CapRun} (hf : s.RecordFits r.length) : Dev.Quiet s (s.startDecim n first r).2 := by
  cases hp : s.placeRecord n r.length (s.recordOf n { r with first := first } [] 0) with
  | none =>
    rw [startDecim_missed hp]
    exact ((Dev.Quiet.refl s).setCpe n _).capMiss n
  | some p =>
    rw [startDecim_placed hp]
    exact (Dev.Quiet.placeRecord hf hp).setCpe n _

theorem queueRecord_placed {s e : Dev} {n : Nat} {r c : CapRec} (h : s.placeRecord n (r.samples.length / 4) r = some (c, e)) :
    s.queueRecord n r = (true, e.setCpe n { e.cpe n with drains := (e.cpe n).drains ++ [c], seq := ((e.cpe n).seq + 1) % 2 ^ 32 }) := by
  generalize hf : @Dev.queueRecord = f
  delta Dev.queueRecord at hf
  subst hf
  beta_reduce
  rw [h]

theorem queueRecord_missed {s : Dev} {n : Nat} {r : CapRec} (h : s.placeRecord n (r.samples.length / 4) r = none) :
    s.queueRecord n r = (false, s.capMiss n) := by
  generalize hf : @Dev.queueRecord = f
  delta Dev.queueRecord at hf
  subst hf
  beta_reduce
  rw [h]

theorem Dev.Quiet.queueRecord {s : Dev} (n : Nat) {r : CapRec} (hf : s.RecordFits (r.samples.length / 4)) : Dev.Quiet s (s.queueRecord n r).2 := by
  cases hp : s.placeRecord n (r.samples.length / 4) r with
  | none =>
    rw [queueRecord_missed hp]
    exact (Dev.Quiet.refl s).capMiss n
  | some p =>
    rw [queueRecord_placed hp]
    exact (Dev.Quiet.placeRecord hf hp).setCpe n _

/-! ### The record of a drain that completes (R96, Table 3.3) -/

theorem length_bytesLE (n v : Nat) : (bytesLE n v).length = n := by
  induction n generalizing v with
  | zero => rfl
  | succ n ih => rw [bytesLE, List.length_cons, ih]

theorem length_capHead (engine flags length : Nat) (r : CapRec) : (capHead engine flags length r).length = 60 := by
  simp only [capHead, timeBytesLE, List.length_append, length_bytesLE, List.length_replicate]

theorem length_capHeader (engine flags : Nat) (r : CapRec) : (capHeader engine flags r).length = 64 := by
  rw [capHeader, List.length_append, length_capHead, length_bytesLE]

/-- The words of a POISONED record's samples that take the poison check pattern (R494, log 239). -/
def Dev.sampleMarks (s : Dev) (r : CapRec) : List Nat :=
  markedWords (capAddr r.start + 64) r.samples.length r.samples.length s.fresh

/-- The marks of a record with the flags `flags` on its samples. -/
def Dev.markSamples (flags : Nat) (ws : List Nat) (s : Dev) : Dev :=
  if bitAt flags 1 then (s.poisonWords ws).tick else s

theorem storeCapture_eq (s : Dev) (n flags : Nat) (r : CapRec) :
    s.storeCapture n flags r = (s.store (capAddr r.start) (capBytes n flags r)).markSamples flags (s.sampleMarks r) := by
  rw [Dev.storeCapture, Dev.storeMarked, List.take_length, length_capHeader]
  rfl

/-- The engine's drain after its oldest record, counted in RECORDS. -/
def Dev.drained (n : Nat) (rest : List CapRec) (s : Dev) : Dev :=
  ((s.setCpe n { s.cpe n with drains := rest }).wr (Reg.RX_CAP_STAT_RECORDS n) (s.rd (Reg.RX_CAP_STAT_RECORDS n) + 1)).wrB (Reg.RX_CAP_STAT_BUSY n)
    ((s.cpe n).run.isSome || decide (rest ≠ []))

theorem cpe_setCpe (s : Dev) (n : Nat) (x : CapEngine) : (s.setCpe n x).cpe n = x :=
  sget_sset_same _ _ _

/-- The marks on a record's samples change neither the engine nor its registers. -/
theorem drained_markSamples (n flags : Nat) (ws : List Nat) (rest : List CapRec) (s : Dev) :
    (s.markSamples flags ws).drained n rest = (s.drained n rest).markSamples flags ws := by
  unfold Dev.markSamples
  split <;> rfl

theorem markSamples_part {α : Type} (p : Dev → α) (flags : Nat) (ws : List Nat) (hp : ∀ x : Dev, p (x.poisonWords ws).tick = p x) (s : Dev) :
    p (s.markSamples flags ws) = p s := by
  unfold Dev.markSamples
  split
  · exact hp s
  · rfl

theorem drained_eq (n : Nat) (rest : List CapRec) (s : Dev) :
    s.drained n rest = ((s.setCpe n { s.cpe n with drains := rest }).wr (Reg.RX_CAP_STAT_RECORDS n) (s.rd (Reg.RX_CAP_STAT_RECORDS n) + 1)).showCapBusy n := by
  have hc (f : Field) (v : Nat) : ((s.setCpe n { s.cpe n with drains := rest }).wr f v).cpe n = { s.cpe n with drains := rest } := cpe_setCpe _ _ _
  rw [Dev.showCapBusy, hc]
  rfl

/-- The device after the oldest record of a drain stands in HBM. -/
def Dev.drainDone (n flags : Nat) (r : CapRec) (rest : List CapRec) (s : Dev) : Dev :=
  (s.drained n rest).markSamples flags (s.sampleMarks r)

theorem exec_capDrainComplete {n : Fin 8} {poisoned : Bool} {r : CapRec} {rest : List CapRec} {s : State} (h : (s.dev.cpe n).drains = r :: rest) :
    exec (.capDrainComplete n poisoned) s = .next (s.become
      (((s.dev.store (capAddr r.start) (capBytes n (poisonedFlag r.flags poisoned) r)).drainDone n (poisonedFlag r.flags poisoned) r rest).raise (10 + n) 14)) := by
  have hx : exec (.capDrainComplete n poisoned) s = execCapDrainComplete n poisoned s := rfl
  rw [hx, execCapDrainComplete, State.run, h]
  dsimp only
  rw [Dev.drainDone, ← drained_markSamples, drained_eq, storeCapture_eq]
  rfl

/-! The words that take the poison check pattern (R494) -/

/-- Every marked word meets the body. -/
theorem markedWords_meet {a n seed w : Nat} (h : w ∈ markedWords a n n seed) : a < 8 * w + 8 ∧ 8 * w < a + n := by
  simp only [markedWords, List.mem_map, List.mem_filter, decide_eq_true_eq] at h
  obtain ⟨k, ⟨-, hk⟩, rfl⟩ := h
  omega

theorem markedWords_ne_nil {a n seed : Nat} (hn : 0 < n) : markedWords a n n seed ≠ [] := by
  have hpos : 0 < ceilDiv n 8 := by unfold ceilDiv; omega
  simp only [markedWords, ne_eq, List.map_eq_nil_iff]
  split
  · obtain ⟨k, hk⟩ := Nat.exists_eq_succ_of_ne_zero hpos.ne'
    rw [hk, List.range_succ_eq_map]
    simp [hn]
  · rename_i hhit
    obtain ⟨k, hk⟩ := List.exists_mem_of_ne_nil _ hhit
    refine List.ne_nil_of_mem (a := k) (List.mem_filter.mpr ⟨hk, decide_eq_true ?_⟩)
    have hk := List.mem_range.mp (List.mem_filter.mp hk).1
    unfold ceilDiv at hk
    omega

theorem bitAt_poisonedFlag (flags : Nat) : bitAt (poisonedFlag flags true) 1 = true := by
  unfold poisonedFlag bitAt
  simp only [Nat.shiftRight_eq_div_pow, Bool.true_and, Bool.not_eq_true', decide_eq_false_iff_not, decide_eq_true_eq]
  split <;> omega

end Sys2Proof.Machine
end

section
namespace Sys2Proof.Machine

/-! ### O11: captures -/

theorem exec_capStart (n : Fin 8) (late : Nat) (s : State) : exec (.capStart n late) s = execCapStart n late s := rfl

theorem exec_capSnapshotComplete (n : Fin 8) (samples : List Byte) (o : Found) (s : State) :
    exec (.capSnapshotComplete n samples o) s = execCapSnapshotComplete n samples o s := rfl

theorem exec_capDecimRecordEnd (n : Fin 8) (samples : List Byte) (o : Found) (next : Nat) (s : State) :
    exec (.capDecimRecordEnd n samples o next) s = execCapDecimRecordEnd n samples o next s := rfl

section Capture
variable {n : Fin 8} {s : State} {r : CapRun} (hs : s.Inv) (hr : (s.dev.cpe n).run = some r)
include hs hr

theorem settles_capStart_snapshot {late : Nat} (hn : r.started = false) (hd : r.decimated = false)
    (hl : s.dev.on (Reg.RX_SAMP_STAT_PLL_LOCK n) = true) (hlate : late * s.dev.rd (Reg.RX_SAMP_STAT_FS_MSPS n) < 65536000) :
    ∃ t, exec (.capStart n late) s = .next t ∧ State.Settles []
      (s.dev.setCpe n { s.dev.cpe n with run := some { r with started := true, first := r.startAt + late } }) s t := by
  rw [exec_capStart, execCapStart]
  refine settles_exact hs ?_ ((unladen_of_inv hs).quiet ((Dev.Quiet.refl _).setCpe n _))
  rw [hr]
  dsimp only
  rw [if_neg (by simp [hn, hl, hlate]), if_neg (by simp [hd])]

theorem settles_capStart_decimated {late : Nat} (hn : r.started = false) (hd : r.decimated = true)
    (hl : s.dev.on (Reg.RX_SAMP_STAT_PLL_LOCK n) = true) (hlate : late * s.dev.rd (Reg.RX_SAMP_STAT_FS_MSPS n) < 65536000)
    (hf : s.dev.RecordFits r.length) :
    ∃ t, exec (.capStart n late) s = .next t ∧ State.Settles [] ((s.dev.startDecim n (r.startAt + late) r).2.showCapBusy n) s t := by
  rw [exec_capStart, execCapStart]
  refine settles_exact hs ?_ ((unladen_of_inv hs).quiet ((Dev.Quiet.startDecim n _ hf).showCapBusy n))
  rw [hr]
  dsimp only
  rw [if_neg (by simp [hn, hl, hlate]), if_pos hd]

theorem settles_capSnapshotComplete {samples : List Byte} {o : Found} (hst : r.started = true) (hd : r.decimated = false)
    (hlen : samples.length = 4 * r.length) (hf : s.dev.RecordFits (samples.length / 4)) :
    ∃ t, exec (.capSnapshotComplete n samples o) s = .next t ∧ State.Settles []
      (((s.dev.setCpe n { s.dev.cpe n with run := none }).queueRecord n (s.dev.recordOf n r samples 16)).2.showCapBusy n) s t := by
  have hq := ((Dev.Quiet.queueRecord (s := s.dev.setCpe n { s.dev.cpe n with run := none }) n (r := s.dev.recordOf n r samples 16) hf)).showCapBusy n
  rw [exec_capSnapshotComplete, execCapSnapshotComplete]
  refine settles_exact hs ?_ (((unladen_of_inv hs).quiet ((Dev.Quiet.refl _).setCpe n _)).quiet hq)
  rw [hr]
  dsimp only
  rw [if_pos ⟨hst, by simp [hd], hlen⟩]

/-- The record that a decimated run completes joins the drain, with LAST where the next one has not started. -/
def Dev.decimDrain (n : Nat) (c : CapRec) (p : Bool × Dev) : Dev :=
  (p.2.setCpe n { p.2.cpe n with drains := (p.2.cpe n).drains ++ [{ c with flags := c.flags + if p.1 then 0 else 16 }] }).showCapBusy n

theorem settles_capDecimRecordEnd {samples : List Byte} {o : Found} {next : Nat} (hst : r.started = true) (hd : r.decimated = true)
    (hlen : samples.length = 4 * r.length) (hf : s.dev.RecordFits r.length) :
    ∃ t, exec (.capDecimRecordEnd n samples o next) s = .next t ∧ State.Settles []
      (Dev.decimDrain n { s.dev.recordOf n r samples 0 with start := r.place }
        ((s.dev.setCpe n { s.dev.cpe n with seq := ((s.dev.cpe n).seq + 1) % 2 ^ 32 }).startDecim n next r)) s t := by
  have hq := Dev.Quiet.startDecim (s := s.dev.setCpe n { s.dev.cpe n with seq := ((s.dev.cpe n).seq + 1) % 2 ^ 32 }) n next hf
  rw [exec_capDecimRecordEnd, execCapDecimRecordEnd]
  refine settles_exact hs ?_ (((unladen_of_inv hs).quiet ((Dev.Quiet.refl _).setCpe n _)).quiet ((hq.setCpe n _).showCapBusy n))
  rw [hr]
  dsimp only
  rw [if_pos ⟨hst, hd, hlen⟩, Dev.decimDrain]
  generalize (s.dev.setCpe n { s.dev.cpe n with seq := ((s.dev.cpe n).seq + 1) % 2 ^ 32 }).startDecim n next r = p
  obtain ⟨started, d⟩ := p
  cases started <;> rfl

end Capture

/-! The drain (R96, R97) -/

theorem sampleMarks_store (a : Nat) (bs : List Byte) (r : CapRec) (s : Dev) : (s.store a bs).sampleMarks r = s.sampleMarks r := by
  rw [Dev.sampleMarks, Dev.sampleMarks, store_fresh]

theorem markSamples_store (flags a : Nat) (bs : List Byte) (ws : List Nat) (s : Dev) :
    (s.store a bs).markSamples flags ws = (s.markSamples flags ws).store a bs := by
  unfold Dev.markSamples
  split <;> rfl

theorem rd_store (a : Nat) (bs : List Byte) (f : Field) (s : Dev) : (s.store a bs).rd f = s.rd f := rfl

theorem cpe_store (n a : Nat) (bs : List Byte) (s : Dev) : (s.store a bs).cpe n = s.cpe n := rfl

theorem setCpe_store (n a : Nat) (bs : List Byte) (x : CapEngine) (s : Dev) : (s.store a bs).setCpe n x = (s.setCpe n x).store a bs := rfl

theorem wr_store (f : Field) (v a : Nat) (bs : List Byte) (s : Dev) : (s.store a bs).wr f v = (s.wr f v).store a bs := rfl

theorem drained_store (n a : Nat) (bs : List Byte) (rest : List CapRec) (s : Dev) : (s.store a bs).drained n rest = (s.drained n rest).store a bs := by
  rw [Dev.drained, cpe_store, rd_store, setCpe_store, wr_store, Dev.wrB, wr_store]
  rfl

theorem drainDone_store (n flags a : Nat) (bs : List Byte) (r : CapRec) (rest : List CapRec) (s : Dev) :
    (s.store a bs).drainDone n flags r rest = (s.drainDone n flags r rest).store a bs := by
  rw [Dev.drainDone, sampleMarks_store, drained_store, markSamples_store, Dev.drainDone]

theorem hbmOut_drainDone (n flags : Nat) (r : CapRec) (rest : List CapRec) (s : Dev) : (s.drainDone n flags r rest).hbmOut = s.hbmOut :=
  markSamples_part (fun x => x.hbmOut) flags _ (fun _ => rfl) _

theorem accessor_drainDone (n flags : Nat) (r : CapRec) (rest : List CapRec) (s : Dev) : (s.drainDone n flags r rest).accessor = s.accessor :=
  markSamples_part (fun x => x.accessor) flags _ (fun _ => rfl) _

theorem Dev.Kin.hbmUsable_eq {a : List (Nat × Nat)} {d e : Dev} (h : Dev.Kin a d e) : e.hbmUsable = d.hbmUsable := by
  rw [Dev.hbmUsable, Dev.hbmUsable, h.toLike.rd (by simp only [overflowCell, regCell]; omega), h.toLike.rd (by simp only [overflowCell, regCell]; omega)]

/-- A drain leaves which channels of HBM are retired. -/
theorem hbmUsable_drainDone (n : Fin 8) (flags : Nat) (r : CapRec) (rest : List CapRec) (s : Dev) :
    (s.drainDone n flags r rest).hbmUsable = s.hbmUsable := by
  have hr (f : Field) (hf : f.cell ≠ (Reg.RX_CAP_STAT_BUSY n).cell) : (s.drained n rest).rd f = s.rd f := by
    rw [Dev.drained, Dev.wrB, rd_wr_ne _ _ _ _ hf, rd_wr_ne _ (Reg.RX_CAP_STAT_RECORDS n) _ _ hf]
    rfl
  refine (markSamples_part Dev.hbmUsable flags _ (fun _ => rfl) _).trans ?_
  rw [Dev.hbmUsable, Dev.hbmUsable, hr _ (by simp only [regCell]; omega), hr _ (by simp only [regCell]; omega)]

theorem hbmOut_store (a : Nat) (bs : List Byte) (s : Dev) : (s.store a bs).hbmOut = s.hbmOut ++ [(a, bs)] := rfl

/-- A store made of a device that had none, and taken away again, leaves it. -/
theorem store_clear {d : Dev} (a : Nat) (bs : List Byte) (h : d.hbmOut = []) : ({ d.store a bs with hbmOut := [] } : Dev) = d := by
  rw [← h]
  rfl

/-- What a POISONED record adds to the check bytes written raw (R494). -/
theorem raw_drainDone {n flags : Nat} (r : CapRec) (rest : List CapRec) (s : Dev) (h : bitAt flags 1 = true) :
    (s.drainDone n flags r rest).integ.raw = s.integ.raw ++ (s.sampleMarks r).map fun w => (w, poisonCheck) := by
  rw [Dev.drainDone, Dev.markSamples, if_pos h]
  rfl

section Drain
variable {n : Fin 8} {s : State} {r : CapRec} {rest : List CapRec} (hs : s.Inv) (hr : (s.dev.cpe n).drains = r :: rest) (poisoned : Bool)
include hs hr

/-- The drain stores the record at its place, and nothing else. -/
theorem stores_capDrainComplete :
    ∃ t, exec (.capDrainComplete n poisoned) s = .next t ∧
      State.Stores [(10 + n.val, 14)] (s.dev.drainDone n (poisonedFlag r.flags poisoned) r rest)
        [(capAddr r.start, capBytes n (poisonedFlag r.flags poisoned) r)] s t ∧
      (poisoned = true → r.samples ≠ [] → t.dev.integ.checks.any (fun e => decide (e.2 = poisonCheck ∧ capAddr r.start + 64 < 8 * e.1 + 8 ∧
        8 * e.1 < capAddr r.start + 64 + r.samples.length)) = true) := by
  obtain ⟨hout, hraw, hacc⟩ := unladen_of_inv hs
  have hk := Dev.Kin.raise ((s.dev.drainDone n (poisonedFlag r.flags poisoned) r rest).store (capAddr r.start)
    (capBytes n (poisonedFlag r.flags poisoned) r)) (10 + n) 14
  have hst := stores_become hk.toLike (s := s) (hk.hbmUsable_eq.trans (hbmUsable_drainDone ..)) ((accessor_drainDone ..).trans hacc)
  rw [store_clear _ _ ((hbmOut_drainDone ..).trans hout), hbmOut_store, hbmOut_drainDone, hout, List.nil_append] at hst
  refine ⟨_, exec_capDrainComplete hr, ?_⟩
  rw [drainDone_store]
  refine ⟨hst, fun hp hne => ?_⟩
  obtain rfl := hp
  have hinteg := hst.dev.part (fun x => x.integ) fun _ => rfl
  rw [hinteg]
  dsimp only [Integrity.settled]
  rw [raw_drainDone r rest s.dev (bitAt_poisonedFlag r.flags), List.any_append, List.any_append, List.any_map, Bool.or_eq_true, Bool.or_eq_true]
  obtain ⟨w, hw⟩ := List.exists_mem_of_ne_nil _ (markedWords_ne_nil (a := capAddr r.start + 64) (seed := s.dev.fresh) (List.length_pos_iff.mpr hne))
  exact .inl (.inr (List.any_eq_true.mpr ⟨w, hw, decide_eq_true ⟨rfl, markedWords_meet hw⟩⟩))

end Drain

/-- Settles O11. -/
theorem captureRunsAndDrains : Obligations.CaptureRunsAndDrains := by
  unfold Obligations.CaptureRunsAndDrains
  refine ⟨fun n late r s hs hr hn hd hl hlate => settles_capStart_snapshot hs hr hn hd hl hlate,
    fun n late r s hs hr hn hd hl hlate hf => settles_capStart_decimated hs hr hn hd hl hlate hf,
    fun n samples o r s hs hr hst hd hlen hf => settles_capSnapshotComplete hs hr hst hd hlen ?_,
    fun n samples o next r s hs hr hst hd hlen hf => settles_capDecimRecordEnd hs hr hst hd hlen hf,
    fun n poisoned r rest s hs hr => stores_capDrainComplete hs hr poisoned⟩
  rw [hlen] at hf ⊢
  rwa [Dev.RecordFits, Nat.mul_div_cancel_left _ (by decide)]

end Sys2Proof.Machine
end

section
namespace Sys2Proof.Machine

/-! ### What an entry to an acquisition state and a loop that stops may write -/

/-- The fields that keep what a tracking loop of engine `n` has last measured. -/
def measuredFields (n : Nat) : List Field :=
  [Reg.RX_RESAMP_STAT_FREQ n, Reg.CR_FREQ_OFFSET n, Reg.PILOT_STAT_ERR_FRAC n, Reg.CR_TWIN_SKEW_SKEW n, Reg.CR_TWIN_SKEW_SKEW (n + 1 - 2 * (n % 2))]

/-- The status bits that fall at the entry to a state of engine `n` (R108, log 169). -/
def enteredFields (n : Nat) : List Field :=
  [Reg.EQ_STAT_CONVERGED n, Reg.PILOT_STAT_MISMATCH n, Reg.PILOT_STAT_SYNC n, Reg.CR_STAT_FREQ_LOCK n, Reg.CR_STAT_PHASE_LOCK n]

section Preserves
variable {P : Dev → Prop} {n : Nat}

theorem ite_preserves (c : Prop) [Decidable c] {x y : Dev} (hy : P x → P y) (hx : P x) : P (if c then y else x) := by
  split
  · exact hy hx
  · exact hx

theorem keepMeasured_preserves {old : Dev} (htaps : ∀ x, P x → P (old.keepTaps n x)) (hwr : ∀ f ∈ measuredFields n, ∀ x v, P x → P (x.wr f v)) {s : Dev}
    (hs : P s) : P (old.keepMeasured n s) := by
  delta Dev.keepMeasured
  extract_lets m s1 s2 s3 s4
  have h1 : P s1 := ite_preserves _ (hwr _ (by simp [measuredFields]) _ _) hs
  have h2 : P s2 := ite_preserves _ (hwr _ (by simp [measuredFields]) _ _) h1
  have h3 : P s3 := ite_preserves _ (hwr _ (by simp [measuredFields]) _ _) h2
  have h4 : P s4 := ite_preserves _ (fun h => hwr _ (by simp [measuredFields, m]) _ _ (hwr _ (by simp [measuredFields]) _ _ h)) h3
  exact htaps _ h4

theorem acqEnter_preserves (hrx : ∀ x y, P x → P (x.setRxe n y)) (hwr : ∀ f ∈ enteredFields n, ∀ x v, P x → P (x.wr f v)) (was st : Nat)
    {s : Dev} (hs : P s) : P (s.acqEnter n was st) := by
  have hreset {x : Dev} (hx : P x) : P (x.resetTaps n) := hwr _ (by simp [enteredFields]) _ _ (hrx _ _ hx)
  delta Dev.acqEnter
  extract_lets r1 x1 s1 c2 x2 s2 x3 s3 s4 s5 s6
  have h1 : P s1 := ite_preserves _ (fun _ => hrx _ _ (hreset hs)) hs
  have hc : P c2 := by
    simp only [c2]
    split
    · exact hreset h1
    · exact hwr _ (by simp [enteredFields]) _ _ h1
  have h2 : P s2 := ite_preserves _ (fun _ => hrx _ _ hc) h1
  have h3 : P s3 := ite_preserves _ (hrx _ _) h2
  have h4 : P s4 := ite_preserves _ (hwr _ (by simp [enteredFields]) _ _) h3
  have h5 : P s5 := ite_preserves _ (hwr _ (by simp [enteredFields]) _ _) h4
  have h6 : P s6 := ite_preserves _ (hwr _ (by simp [enteredFields]) _ _) h5
  split
  · exact h6
  · exact hwr _ (by simp [enteredFields]) _ _ h6

end Preserves

/-- The acquisition state set, with what the entry does and the loops that stop (Table 4.5), where lock is neither won nor lost. -/
def Dev.acqEntered (n was st : Nat) (s : Dev) : Dev :=
  s.keepMeasured n (((s.setRxe n { s.rxe n with lost := (s.rxe n).lost || decide (was = acqLocked) }).wr (Reg.ACQ_STAT_STATE n) st).acqEnter n was st)

theorem acqGo_plain {n was st : Nat} {s : Dev} (h : s.acq n = was) (hw : was ≠ acqLocked) (hst : st ≠ acqLocked) (hf : st ≠ acqFreq) :
    s.acqGo n st = s.acqEntered n was st := by
  delta Dev.acqGo
  extract_lets w r d1 d2 d3
  have hw' : w = was := h
  have h3 : d3 = d2 := if_neg fun c => hf c.1
  rw [if_pos (by simp [hw', hw, hst]), h3]
  simp only [d2, d1, r, hw', Dev.acqEntered]

/-- Two fields share no bit. -/
abbrev Field.Apart (f g : Field) : Prop :=
  g.cell ≠ f.cell ∨ g.lsb + g.width ≤ f.lsb ∨ f.lsb + f.width ≤ g.lsb

theorem rd_keepTaps (old s : Dev) (n : Nat) (g : Field) : (old.keepTaps n s).rd g = s.rd g := by
  unfold Dev.keepTaps
  split <;> rfl

theorem rd_keepMeasured (old s : Dev) {n : Nat} {g : Field} (hg : ∀ f ∈ measuredFields n, f.Apart g) : (old.keepMeasured n s).rd g = s.rd g :=
  keepMeasured_preserves (P := fun x => x.rd g = s.rd g) (fun x h => (rd_keepTaps old x n g).trans h)
    (fun f hf x v h => (rd_wr_disjoint x f g v (hg f hf)).trans h) rfl

theorem rxe_setRxe (s : Dev) (n : Nat) (x : RxEngine) : (s.setRxe n x).rxe n = x :=
  sget_sset_same _ _ _

theorem onKept_keepTaps (old s : Dev) (n : Nat) : ((old.keepTaps n s).rxe n).onKept = (s.rxe n).onKept := by
  unfold Dev.keepTaps
  split
  · rw [rxe_setRxe]
  · rfl

/-- Whether the attempt uses the kept D stays when a loop stops. -/
theorem onKept_keepMeasured (old s : Dev) (n : Nat) : ((old.keepMeasured n s).rxe n).onKept = (s.rxe n).onKept :=
  keepMeasured_preserves (P := fun x => (x.rxe n).onKept = (s.rxe n).onKept) (fun x h => (onKept_keepTaps old x n).trans h) (fun _ _ _ _ h => h) rfl

theorem rd_acqEnter (was st : Nat) (s : Dev) {n : Nat} {g : Field} (hg : ∀ f ∈ enteredFields n, f.Apart g) : (s.acqEnter n was st).rd g = s.rd g :=
  acqEnter_preserves (P := fun x => x.rd g = s.rd g) (fun _ _ h => h) (fun f hf x v h => (rd_wr_disjoint x f g v (hg f hf)).trans h) was st rfl

/-- The state and TR_LOCK of engine `n` lie apart from what a loop that stops writes. -/
theorem measuredFields_apart (n : Nat) : ∀ f ∈ measuredFields n, f.Apart (Reg.ACQ_STAT_STATE n) ∧ f.Apart (Reg.RX_RESAMP_STAT_TR_LOCK n) := by
  simp only [measuredFields, List.forall_mem_cons, List.not_mem_nil, false_implies, implies_true, Field.Apart, regCell]
  refine ⟨⟨?_, ?_⟩, ⟨?_, ?_⟩, ⟨?_, ?_⟩, ⟨?_, ?_⟩, ⟨?_, ?_⟩, trivial⟩ <;> omega

theorem enteredFields_apart (n : Nat) : ∀ f ∈ enteredFields n, f.Apart (Reg.ACQ_STAT_STATE n) ∧ f.Apart (Reg.RX_RESAMP_STAT_TR_LOCK n) := by
  simp only [enteredFields, List.forall_mem_cons, List.not_mem_nil, false_implies, implies_true, Field.Apart, regCell]
  refine ⟨⟨?_, ?_⟩, ⟨?_, ?_⟩, ⟨?_, ?_⟩, ⟨?_, ?_⟩, ⟨?_, ?_⟩, trivial⟩ <;> omega

theorem acq_acqEntered {n was st : Nat} (s : Dev) (hst : st < 16) : (s.acqEntered n was st).acq n = st := by
  rw [Dev.acq, Dev.acqEntered, rd_keepMeasured _ _ fun f hf => (measuredFields_apart n f hf).1, rd_acqEnter _ _ _ fun f hf => (enteredFields_apart n f hf).1,
    rd_wr_same _ _ _ (by simp)]
  exact Nat.mod_eq_of_lt hst

theorem trLock_acqEntered (n was st : Nat) (s : Dev) :
    (s.acqEntered n was st).on (Reg.RX_RESAMP_STAT_TR_LOCK n) = s.on (Reg.RX_RESAMP_STAT_TR_LOCK n) := by
  rw [Dev.on, Dev.acqEntered, rd_keepMeasured _ _ fun f hf => (measuredFields_apart n f hf).2, rd_acqEnter _ _ _ fun f hf => (enteredFields_apart n f hf).2,
    rd_wr_ne _ _ _ _ (by simp only [regCell]; omega)]
  rfl

/-! ### TR_LOCK set and cleared (R83) -/

/-- TR_LOCK at another value, with the timing phase started anew and the loops that stop, before E-1n.09. -/
def Dev.trLockMoved (n : Nat) (v : Bool) (s : Dev) : Dev :=
  s.keepMeasured n (if v then (fun x : Dev => x.setRxe n { x.rxe n with phaseSteps := 0 }) (s.wrB (Reg.RX_RESAMP_STAT_TR_LOCK n) v)
    else s.wrB (Reg.RX_RESAMP_STAT_TR_LOCK n) v)

theorem setTrLock_moved {n : Nat} {v : Bool} {s : Dev} (h : s.on (Reg.RX_RESAMP_STAT_TR_LOCK n) ≠ v) :
    s.setTrLock n v = (s.trLockMoved n v).raise (10 + n) 9 :=
  if_neg h

theorem setTrLock_same {n : Nat} {v : Bool} {s : Dev} (h : s.on (Reg.RX_RESAMP_STAT_TR_LOCK n) = v) : s.setTrLock n v = s :=
  if_pos h

theorem acq_trLockMoved (n : Nat) (v : Bool) (s : Dev) : (s.trLockMoved n v).acq n = s.acq n := by
  have hw : (s.wrB (Reg.RX_RESAMP_STAT_TR_LOCK n) v).rd (Reg.ACQ_STAT_STATE n) = s.rd (Reg.ACQ_STAT_STATE n) :=
    rd_wr_ne _ _ _ _ (by simp only [regCell]; omega)
  rw [Dev.acq, Dev.trLockMoved, rd_keepMeasured _ _ fun f hf => (measuredFields_apart n f hf).1]
  cases v <;> exact hw

theorem trLock_trLockMoved (n : Nat) (v : Bool) (s : Dev) : (s.trLockMoved n v).on (Reg.RX_RESAMP_STAT_TR_LOCK n) = v := by
  have hw : (s.wrB (Reg.RX_RESAMP_STAT_TR_LOCK n) v).rd (Reg.RX_RESAMP_STAT_TR_LOCK n) = ofBool v % 2 ^ 1 := rd_wr_same _ _ _ (by simp)
  rw [Dev.on, Dev.trLockMoved, rd_keepMeasured _ _ fun f hf => (measuredFields_apart n f hf).2]
  cases v
  · exact decide_eq_false (not_not.mpr hw)
  · exact decide_eq_true (by rw [if_pos rfl]; exact hw.trans_ne (by decide))

theorem onKept_trLockMoved (n : Nat) (v : Bool) (s : Dev) : ((s.trLockMoved n v).rxe n).onKept = (s.rxe n).onKept := by
  rw [Dev.trLockMoved, onKept_keepMeasured]
  cases v
  · rfl
  · simp only [if_true, rxe_setRxe]
    rfl

/-! ### The transitions that follow (Table 4.5) -/

/-- A state of engine `n` from which no transition follows at once, by TR_LOCK or whatever it is. -/
def Dev.AcqRests (n : Nat) (s : Dev) : Prop :=
  s.acq n = acqFreq ∨ s.acq n = acqCd ∨ s.acq n = acqPilot ∨ s.acq n = acqCarrier ∨ s.acq n = acqBackoff ∨
  (s.acq n = acqTiming ∧ s.on (Reg.RX_RESAMP_STAT_TR_LOCK n) = false) ∨ (s.acq n = acqConverge ∧ s.on (Reg.RX_RESAMP_STAT_TR_LOCK n) = true)

theorem acqNext_rests {n : Nat} {s : Dev} (h : s.AcqRests n) : s.acqNext n = s := by
  obtain h | h | h | h | h | ⟨h, hl⟩ | ⟨h, hl⟩ := h
  case inr.inr.inr.inr.inr.inl => simp [Dev.acqNext, h, hl]
  case inr.inr.inr.inr.inr.inr => simp [Dev.acqNext, h, hl]
  all_goals simp [Dev.acqNext, h]

theorem acqNext_timing {n : Nat} {s : Dev} (h : s.acq n = acqTiming) (hl : s.on (Reg.RX_RESAMP_STAT_TR_LOCK n) = true) :
    s.acqNext n = s.acqGo n acqConverge := by
  simp [Dev.acqNext, h, hl]

theorem acqNext_converge {n : Nat} {s : Dev} (h : s.acq n = acqConverge) (hl : s.on (Reg.RX_RESAMP_STAT_TR_LOCK n) = false) :
    s.acqNext n = s.acqBackoffFor n 4 := by
  simp [Dev.acqNext, h, hl]

/-- No transition follows in a state of rest. -/
theorem acqSettle_rests {n : Nat} {s : Dev} (h : s.AcqRests n) : s.acqSettle n = s := by
  rw [Dev.acqSettle, acqNext_rests h, acqNext_rests h, acqNext_rests h, acqNext_rests h, acqNext_rests h]

/-- One transition follows where it ends in a state of rest. -/
theorem acqSettle_once {n : Nat} {s : Dev} (h : (s.acqNext n).AcqRests n) : s.acqSettle n = s.acqNext n := by
  rw [Dev.acqSettle, acqNext_rests h, acqNext_rests h, acqNext_rests h, acqNext_rests h]

/-! ### The end of an attempt (R126) -/

/-- An attempt without a kept D that ends with a cause: LAST_FAIL shown and the attempt counted. -/
def Dev.attemptEnds (n cause : Nat) (s : Dev) : Dev :=
  ((((fun x : Dev => x.setRxe n { x.rxe n with onKept := false }) s).wr (Reg.ACQ_STAT_LAST_FAIL n) cause).bump (Reg.ACQ_STAT_TRIES n)).bump
    (Reg.ACQ_FAIL_CNT n)

theorem acqBackoffFor_fresh {n cause : Nat} {s : Dev} (h : (s.rxe n).onKept = false) :
    s.acqBackoffFor n cause = ((s.attemptEnds n cause).acqGo n acqBackoff).raise (10 + n) 17 := by
  simp [Dev.acqBackoffFor, Dev.attemptEnds, h]

theorem acq_attemptEnds (n cause : Nat) (s : Dev) : (s.attemptEnds n cause).acq n = s.acq n := by
  rw [Dev.attemptEnds, Dev.acq, Dev.bump, Dev.bumpBy, rd_wr_ne _ _ _ _ (by simp only [regCell]; omega), Dev.bump, Dev.bumpBy,
    rd_wr_disjoint _ _ _ _ (.inr (.inl (by simp))), rd_wr_disjoint _ _ _ _ (.inr (.inl (by simp)))]
  rfl

end Sys2Proof.Machine
end

section
namespace Sys2Proof.Machine

/-! ### The receive front and the acquisition on kin devices -/

section Receive
variable {a : List (Nat × Nat)} {d e : Dev} (h : Dev.Kin a d e)
include h

theorem Dev.Kin.acq_eq (n : Nat) : e.acq n = d.acq n :=
  h.toLike.rd (by simp only [overflowCell, regCell]; omega)

theorem Dev.Kin.trLock_eq (n : Nat) : e.on (Reg.RX_RESAMP_STAT_TR_LOCK n) = d.on (Reg.RX_RESAMP_STAT_TR_LOCK n) :=
  h.toLike.on (by simp only [overflowCell, regCell]; omega)

theorem Dev.Kin.acqRests {n : Nat} (hd : d.AcqRests n) : e.AcqRests n := by
  rw [Dev.AcqRests, h.acq_eq, h.trLock_eq]
  exact hd

theorem Dev.Kin.tracksClock_eq (n : Nat) : e.tracksClock n = d.tracksClock n := by
  simp (disch := (simp only [overflowCell, regCell]; omega)) only [Dev.tracksClock, h.acq_eq, h.toLike.on]

theorem Dev.Kin.clockOffset_eq (n : Nat) : e.clockOffset n = d.clockOffset n := by
  simp (disch := (simp only [overflowCell, regCell]; omega)) only [Dev.clockOffset, Dev.rdS, h.tracksClock_eq, h.clock_eq, h.fresh_eq, h.toLike.rd]

theorem Dev.Kin.tracksCarrier_eq (n : Nat) : e.tracksCarrier n = d.tracksCarrier n := by
  simp (disch := (simp only [overflowCell, regCell]; omega)) only [Dev.tracksCarrier, h.acq_eq, h.toLike.on]

theorem Dev.Kin.deltaF_eq (n : Nat) : e.deltaF n = d.deltaF n := by
  simp (disch := (simp only [overflowCell, regCell]; omega)) only [Dev.deltaF, Dev.rdS, h.tracksCarrier_eq, h.clock_eq, h.fresh_eq, h.toLike.rd]

theorem Dev.Kin.pilotErrors_eq (n : Nat) : e.pilotErrors n = d.pilotErrors n := by
  simp (disch := (simp only [overflowCell, regCell]; omega)) only [Dev.pilotErrors, h.acq_eq, h.clock_eq, h.fresh_eq, h.toLike.rd]

theorem Dev.Kin.tracksWalkOff_eq (n : Nat) : e.tracksWalkOff n = d.tracksWalkOff n := by
  simp only [Dev.tracksWalkOff, h.rxTwin_eq, h.acq_eq]

theorem Dev.Kin.walkOff_eq (n : Nat) : e.walkOff n = d.walkOff n := by
  simp (disch := (simp only [overflowCell, regCell]; omega)) only [Dev.walkOff, Dev.rdS, h.tracksWalkOff_eq, h.clock_eq, h.fresh_eq, h.toLike.on, h.toLike.rd]

theorem Dev.Kin.tapsAdapt_eq (n : Nat) : e.tapsAdapt n = d.tapsAdapt n := by
  simp (disch := (simp only [overflowCell, regCell]; omega)) only [Dev.tapsAdapt, Dev.tapsHeld, h.acq_eq, h.toLike.on]

theorem Dev.Kin.tapsAtStart_eq (n : Nat) : e.tapsAtStart n = d.tapsAtStart n := by
  simp only [Dev.tapsAtStart, h.rxe_eq, h.tapsAdapt_eq, h.clock_eq]

/-- The measured values kept on kin devices, where the devices before the change are kin too. -/
theorem Dev.Kin.keepMeasured {b : List (Nat × Nat)} {od oe : Dev} (ho : Dev.Kin b od oe) (n : Nat) :
    Dev.Kin a (od.keepMeasured n d) (oe.keepMeasured n e) := by
  delta Dev.keepMeasured
  extract_lets m d1 d2 d3 d4 e1 e2 e3 e4
  have h1 : Dev.Kin a d1 e1 := by
    simp only [d1, e1, ho.tracksClock_eq, h.tracksClock_eq, ho.clockOffset_eq]
    split
    · exact h.writeS _ rfl
    · exact h
  have h2 : Dev.Kin a d2 e2 := by
    simp only [d2, e2, ho.tracksCarrier_eq, h1.tracksCarrier_eq, ho.deltaF_eq]
    split
    · exact h1.writeS _ rfl
    · exact h1
  have h3 : Dev.Kin a d3 e3 := by
    simp only [d3, e3, ho.acq_eq, h2.acq_eq, ho.pilotErrors_eq]
    split
    · exact h2.write _ rfl
    · exact h2
  have h4 : Dev.Kin a d4 e4 := by
    simp only [d4, e4, ho.tracksWalkOff_eq, h3.tracksWalkOff_eq, ho.walkOff_eq]
    split
    · exact (h3.writeS _ rfl).writeS _ rfl
    · exact h3
  rw [Dev.keepTaps, Dev.keepTaps, ho.tapsAdapt_eq, h4.tapsAdapt_eq, h4.rxe_eq, h4.clock_eq, ho.tapsAtStart_eq]
  split
  · exact h4.setRxe n rfl
  · exact h4

theorem Dev.Kin.resetTaps (n : Nat) : Dev.Kin a (d.resetTaps n) (e.resetTaps n) :=
  (h.setRxe n (by rw [h.rxe_eq, h.clock_eq])).write _ rfl

theorem Dev.Kin.acqEnter (n was st : Nat) : Dev.Kin a (d.acqEnter n was st) (e.acqEnter n was st) := by
  delta Dev.acqEnter
  extract_lets r1 x1 s1 c2 x2 s2 x3 s3 s4 s5 s6 r1' x1' s1' c2' x2' s2' x3' s3' s4' s5' s6'
  have hr : Dev.Kin a r1 r1' := h.resetTaps n
  have h1 : Dev.Kin a s1 s1' := by
    simp only [s1, s1', h.rxe_eq]
    split
    · exact hr.setRxe n (by rw [show x1' = x1 from hr.rxe_eq n])
    · exact h
  have hc : Dev.Kin a c2 c2' := by
    simp only [c2, c2']
    split
    · exact h1.resetTaps n
    · exact h1.write _ rfl
  have h2 : Dev.Kin a s2 s2' := by
    simp only [s2, s2']
    split
    · exact hc.setRxe n (by rw [show x2' = x2 from hc.rxe_eq n, hc.clock_eq, hc.toLike.rd (by simp only [overflowCell, regCell]; omega)])
    · exact h1
  have h3 : Dev.Kin a s3 s3' := by
    simp only [s3, s3']
    split
    · exact h2.setRxe n (by rw [show x3' = x3 from h2.rxe_eq n, h2.toLike.rd (by simp only [overflowCell, regCell]; omega),
        h2.toLike.rd (by simp only [overflowCell, regCell]; omega)])
    · exact h2
  have hif {c : Prop} [Decidable c] {x y : Dev} (k : Dev.Kin a x y) (f : Field) (hf : ¬ overflowCell f.cell) :
      Dev.Kin a (if c then x.wr f 0 else x) (if c then y.wr f 0 else y) := by
    split
    · exact k.write _ rfl hf
    · exact k
  have h6 : Dev.Kin a s6 s6' := by
    refine hif (hif (hif h3 _ ?_) _ ?_) _ ?_ <;> simp only [overflowCell, regCell] <;> omega
  split
  · exact h6
  · exact h6.write _ rfl

theorem Dev.Kin.acqEntered (n was st : Nat) : Dev.Kin a (d.acqEntered n was st) (e.acqEntered n was st) :=
  (((h.setRxe n (by rw [h.rxe_eq])).write _ rfl).acqEnter n was st).keepMeasured h n

theorem Dev.Kin.attemptEnds (n cause : Nat) : Dev.Kin a (d.attemptEnds n cause) (e.attemptEnds n cause) :=
  (((h.setRxe n (by rw [h.rxe_eq])).write _ rfl).bumpBoth _).bumpBoth _

theorem Dev.Kin.setIq (n : Nat) (gain phase : Nat → Int) : Dev.Kin a (d.setIq n gain phase) (e.setIq n gain phase) := by
  delta Dev.setIq
  extract_lets d1 clamp was e1 was'
  have h1 : Dev.Kin a d1 e1 := by
    refine Dev.Kin.foldl (fun k _ d e h => ?_) h
    exact (h.writeS (Reg.RX_IQ_EST_GAIN n k) rfl).writeS (Reg.RX_IQ_EST_PHASE n k) rfl
  have hwas : was' = was := h1.toLike.on (by simp only [overflowCell, regCell]; omega)
  exact (h1.writeB _ rfl).raiseIfBoth (by rw [hwas]) _ _

end Receive

/-! ### The receive front and the acquisition store nothing -/

section Quiet
variable {d e : Dev} (h : Dev.Quiet d e)
include h

theorem Dev.Quiet.keepTaps (old : Dev) (n : Nat) : Dev.Quiet d (old.keepTaps n e) := by
  unfold Dev.keepTaps
  split
  · exact h.setRxe n _
  · exact h

theorem Dev.Quiet.keepMeasured (old : Dev) (n : Nat) : Dev.Quiet d (old.keepMeasured n e) :=
  keepMeasured_preserves (fun _ h => h.keepTaps old n) (fun _ _ _ _ h => h.wr _ _) h

theorem Dev.Quiet.acqEnter (n was st : Nat) : Dev.Quiet d (e.acqEnter n was st) :=
  acqEnter_preserves (fun _ _ h => h.setRxe n _) (fun _ _ _ _ h => h.wr _ _) was st h

theorem Dev.Quiet.acqEntered (n was st : Nat) : Dev.Quiet d (e.acqEntered n was st) :=
  (((h.setRxe n _).wr _ _).acqEnter n was st).keepMeasured e n

theorem Dev.Quiet.trLockMoved (n : Nat) (v : Bool) : Dev.Quiet d (e.trLockMoved n v) := by
  refine Dev.Quiet.keepMeasured ?_ e n
  split
  · exact (h.wr _ _).setRxe n _
  · exact h.wr _ _

theorem Dev.Quiet.attemptEnds (n cause : Nat) : Dev.Quiet d (e.attemptEnds n cause) :=
  (((h.setRxe n _).wr _ _).wr _ _).wr _ _

theorem Dev.Quiet.setIq (n : Nat) (gain phase : Nat → Int) : Dev.Quiet d (e.setIq n gain phase) :=
  ((h.foldl (fun _ h => (h.wr _ _).wr _ _) _).wr _ _).raiseIf _ _ _

theorem Dev.Quiet.setTrLock (n : Nat) (v : Bool) : Dev.Quiet d (e.setTrLock n v) := by
  by_cases hv : e.on (Reg.RX_RESAMP_STAT_TR_LOCK n) = v
  · rw [setTrLock_same hv]
    exact h
  · rw [setTrLock_moved hv]
    exact (h.trLockMoved n v).raise _ _

theorem Dev.Quiet.abandonPath (path : Nat) : Dev.Quiet d (e.abandonPath path) := by
  refine h.foldl (fun {e} k h => ?_) _
  split
  · exact (h.map (u := fun x => { x with drone := { x.drone with fingers := sset (dflt none) x.drone.fingers (4 * path + k) none } })
      (fun _ => rfl) (fun _ => rfl) (fun _ => rfl) fun _ => rfl).wr _ _
  · exact h

theorem Dev.Quiet.alFollowPair (n : Nat) : Dev.Quiet d (e.alFollowPair n) := by
  unfold Dev.alFollowPair
  split
  · exact ((h.alFollow _).alFollow _).settleCourses
  · exact (h.alFollow n).settleCourses

theorem Dev.Quiet.lockChanged (n : Nat) (won fast : Bool) : Dev.Quiet d (e.lockChanged n won fast) := by
  refine Dev.Quiet.alFollowPair ?_ n
  cases won
  · exact (((h.setRxe n _).raise _ _).wr _ _).abandonPath n
  · exact (h.setRxe n _).raise _ _

theorem Dev.Quiet.acqGo (n st : Nat) : Dev.Quiet d (e.acqGo n st) := by
  delta Dev.acqGo
  extract_lets w r d1 d2 d3
  have h3 : Dev.Quiet d d3 := by
    have h2 : Dev.Quiet d d2 := (((h.setRxe n _).wr _ _).acqEnter n _ st).keepMeasured e n
    simp only [d3]
    split
    · exact h2.wr _ _
    · exact h2
  split
  · exact h3
  · exact h3.lockChanged n _ _

theorem Dev.Quiet.acqBackoffFor (n cause : Nat) : Dev.Quiet d (e.acqBackoffFor n cause) :=
  (((((h.setRxe n _).wr _ _).wr _ _).wr _ _).acqGo n _).raise _ _

theorem Dev.Quiet.acqLose (n st cause : Nat) : Dev.Quiet d (e.acqLose n st cause) :=
  (((h.wr _ _).wr _ _).acqGo n st).raise _ _

theorem Dev.Quiet.acqNext (n : Nat) : Dev.Quiet d (e.acqNext n) := by
  unfold Dev.acqNext
  dsimp only
  split_ifs
  · exact h.acqGo n _
  · exact h.acqGo n _
  · exact (h.setRxe n _).acqGo n _
  · exact h.acqGo n _
  · exact h.acqBackoffFor n 4
  · exact h.acqGo n _
  · exact h

theorem Dev.Quiet.acqSettle (n : Nat) : Dev.Quiet d (e.acqSettle n) :=
  ((((h.acqNext n).acqNext n).acqNext n).acqNext n).acqNext n

end Quiet

end Sys2Proof.Machine
end

section
namespace Sys2Proof.Machine

/-! ### O5: the overrange window (R77, R80) -/

/-- The IQ estimates of a window taken where they are tracked and samples flow (R80). -/
def Dev.trackIq (n : Nat) (w : FrontWindow) (x : Dev) : Dev :=
  if x.on (Reg.RX_SKIQ_CTRL_IQ_TRACK n) && x.on (Reg.RX_SAMP_STAT_PLL_LOCK n) then
    x.setIq n (fun k => if k = 0 then w.gainX else w.gainY) (fun k => if k = 0 then w.phaseX else w.phaseY)
  else x

theorem Dev.Kin.trackIq {a : List (Nat × Nat)} {d e : Dev} (h : Dev.Kin a d e) (n : Nat) (w : FrontWindow) : Dev.Kin a (d.trackIq n w) (e.trackIq n w) := by
  simp (disch := (simp only [overflowCell, regCell]; omega)) only [Dev.trackIq, h.toLike.on]
  split
  · exact h.setIq n _ _
  · exact h

theorem Dev.Quiet.trackIq {d e : Dev} (h : Dev.Quiet d e) (n : Nat) (w : FrontWindow) : Dev.Quiet d (e.trackIq n w) := by
  unfold Dev.trackIq
  split
  · exact h.setIq n _ _
  · exact h

/-- The overrange samples of a window counted and the lanes' levels shown. -/
def Dev.windowShown (n count : Nat) (r0 r1 r2 r3 : Byte) (s : Dev) : Dev :=
  ((((s.bumpBy (Reg.RX_OVR_CNT n) count).wr (Reg.RX_ADC_LEVEL_RMS n 0) r0.toNat).wr (Reg.RX_ADC_LEVEL_RMS n 1) r1.toNat).wr
    (Reg.RX_ADC_LEVEL_RMS n 2) r2.toNat).wr (Reg.RX_ADC_LEVEL_RMS n 3) r3.toNat

theorem threshold_windowShown (n count : Nat) (r0 r1 r2 r3 : Byte) (s : Dev) :
    (s.windowShown n count r0 r1 r2 r3).rd (Reg.RX_OVR_THR_THRESHOLD n) = s.rd (Reg.RX_OVR_THR_THRESHOLD n) := by
  simp (disch := (simp only [regCell]; omega)) only [Dev.windowShown, Dev.bumpBy, rd_wr_ne]

theorem exec_ovrWindowEnd (n : Fin 8) (w : FrontWindow) (r0 r1 r2 r3 : Byte) (s : State) : exec (.ovrWindowEnd n w r0 r1 r2 r3) s = s.run fun d =>
    ((d.windowShown n w.count r0 r1 r2 r3).raiseIf
      (decide (w.count > (d.windowShown n w.count r0 r1 r2 r3).rd (Reg.RX_OVR_THR_THRESHOLD n))) (10 + n) 13).trackIq n w :=
  rfl

theorem settles_ovrWindowEnd {n : Fin 8} (w : FrontWindow) (r0 r1 r2 r3 : Byte) {s : State} (hs : s.Inv) :
    ∃ t, exec (.ovrWindowEnd n w r0 r1 r2 r3) s = .next t ∧
      State.Settles (if w.count > s.dev.rd (Reg.RX_OVR_THR_THRESHOLD n) then [(10 + n.val, 13)] else [])
        ((s.dev.windowShown n w.count r0 r1 r2 r3).trackIq n w) s t := by
  have hk := (Dev.Kin.raiseIf (s.dev.windowShown n w.count r0 r1 r2 r3) (decide (w.count > s.dev.rd (Reg.RX_OVR_THR_THRESHOLD n))) (10 + n) 13).trackIq n w
  simp only [decide_eq_true_eq] at hk
  rw [exec_ovrWindowEnd]
  refine settles_quiet hs ?_ ((((((Dev.Quiet.refl _).wr _ _).wr _ _).wr _ _).wr _ _).wr _ _ |>.trackIq n w)
  rw [threshold_windowShown]
  exact hk.toLike

theorem exec_rxOvrClear (n : Fin 8) (v : Word) (s : State) : exec (.rxOvrClear n v) s = s.run fun d =>
    d.hostWrite (linePage n 9) 0x054 0x80000000 (v ||| 0x80000000) fun d => if (v ||| 0x80000000).getLsbD 31 then d.wr (Reg.RX_OVR_CNT n) 0 else d :=
  rfl

theorem settles_rxOvrClear {n : Fin 8} (v : Word) {s : State} (hs : s.Inv) (hl : s.dev.pageLive (linePage n 9) = true)
    (ht : s.dev.pageInTest (linePage n 9) = false) :
    ∃ t, exec (.rxOvrClear n v) s = .next t ∧
      State.Settles [] ((s.dev.writeWord (linePage n 9) 0x054 0x80000000 (v ||| 0x80000000)).wr (Reg.RX_OVR_CNT n) 0) s t := by
  have hv : (v ||| (0x80000000 : Word)).getLsbD 31 = true := by simp
  rw [exec_rxOvrClear]
  refine settles_quiet hs (hostWrite_kin_of_le hl ht (not_overflowCell_linePage n 9 0x054) (fun e he => ?_) ?_).toLike ((Dev.Quiet.writeWord ..).wr _ _)
  · rw [if_pos hv]
    exact he.write _ rfl
  · exact viol_writeWord_le s.dev _ _ _ _

/-! ### O5: TR_LOCK and TR_HOLD (R83, R84, Table 4.5) -/

section TrLock
variable {n : Nat} {s : Dev}

theorem acq_moved_raised (v : Bool) : ((s.trLockMoved n v).raise (10 + n) 9).acq n = s.acq n :=
  ((Dev.Kin.raise _ _ _).acq_eq n).trans (acq_trLockMoved n v s)

theorem trLock_moved_raised (v : Bool) : ((s.trLockMoved n v).raise (10 + n) 9).on (Reg.RX_RESAMP_STAT_TR_LOCK n) = v :=
  ((Dev.Kin.raise _ _ _).trLock_eq n).trans (trLock_trLockMoved n v s)

theorem acq_setTrLock (v : Bool) : (s.setTrLock n v).acq n = s.acq n := by
  by_cases h : s.on (Reg.RX_RESAMP_STAT_TR_LOCK n) = v
  · rw [setTrLock_same h]
  · rw [setTrLock_moved h, acq_moved_raised]

/-- TR_LOCK set in TIMING: E-1n.09, and EQ_CONVERGE is entered. -/
theorem setTrLock_timing (hl : s.on (Reg.RX_RESAMP_STAT_TR_LOCK n) = false) (ha : s.acq n = acqTiming) :
    Dev.Kin [(10 + n, 9)] ((s.trLockMoved n true).acqEntered n acqTiming acqConverge) ((s.setTrLock n true).acqSettle n) := by
  have hk := Dev.Kin.raise (s.trLockMoved n true) (10 + n) 9
  have hnext : ((s.trLockMoved n true).raise (10 + n) 9).acqNext n = ((s.trLockMoved n true).raise (10 + n) 9).acqEntered n acqTiming acqConverge := by
    have ha' := (acq_moved_raised (s := s) (n := n) true).trans ha
    rw [acqNext_timing ha' (trLock_moved_raised true), acqGo_plain ha' (by decide) (by decide) (by decide)]
  rw [setTrLock_moved (by simp [hl]), acqSettle_once, hnext]
  · exact hk.acqEntered n _ _
  · rw [hnext]
    exact .inr (.inr (.inr (.inr (.inr (.inr ⟨acq_acqEntered _ (by decide), (trLock_acqEntered _ _ _ _).trans (trLock_moved_raised true)⟩)))))

/-- TR_LOCK cleared in a state that goes on without it: E-1n.09 alone. -/
theorem setTrLock_rests (hl : s.on (Reg.RX_RESAMP_STAT_TR_LOCK n) = true)
    (ha : s.acq n = acqFreq ∨ s.acq n = acqCd ∨ s.acq n = acqTiming ∨ s.acq n = acqPilot ∨ s.acq n = acqCarrier) :
    Dev.Kin [(10 + n, 9)] (s.trLockMoved n false) ((s.setTrLock n false).acqSettle n) := by
  rw [setTrLock_moved (by simp [hl]), acqSettle_rests]
  · exact Dev.Kin.raise _ _ _
  · rw [Dev.AcqRests, acq_moved_raised, trLock_moved_raised]
    tauto

/-- TR_LOCK cleared in EQ_CONVERGE: E-1n.09, and the attempt ends in BACKOFF with cause 4 and E-1n.17. -/
theorem setTrLock_converge (hl : s.on (Reg.RX_RESAMP_STAT_TR_LOCK n) = true) (ha : s.acq n = acqConverge) (hd : (s.rxe n).onKept = false) :
    Dev.Kin [(10 + n, 9), (10 + n, 17)] (((s.trLockMoved n false).attemptEnds n 4).acqEntered n acqConverge acqBackoff)
      ((s.setTrLock n false).acqSettle n) := by
  have hk := Dev.Kin.raise (s.trLockMoved n false) (10 + n) 9
  have ha' := (acq_moved_raised (s := s) (n := n) false).trans ha
  have hkept : (((s.trLockMoved n false).raise (10 + n) 9).rxe n).onKept = false := by
    rw [hk.rxe_eq, onKept_trLockMoved, hd]
  have hnext : ((s.trLockMoved n false).raise (10 + n) 9).acqNext n =
      ((((s.trLockMoved n false).raise (10 + n) 9).attemptEnds n 4).acqEntered n acqConverge acqBackoff).raise (10 + n) 17 := by
    rw [acqNext_converge ha' (trLock_moved_raised false), acqBackoffFor_fresh hkept,
      acqGo_plain ((acq_attemptEnds ..).trans ha') (by decide) (by decide) (by decide)]
  rw [setTrLock_moved (by simp [hl]), acqSettle_once, hnext]
  · exact ((hk.attemptEnds n 4).acqEntered n _ _).trans (Dev.Kin.raise _ _ _)
  · rw [hnext]
    exact .inr (.inr (.inr (.inr (.inl (((Dev.Kin.raise _ _ _).acq_eq n).trans (acq_acqEntered _ (by decide)))))))

theorem trLockLost_unlocked (hl : s.on (Reg.RX_RESAMP_STAT_TR_LOCK n) = true) (ha : s.acq n ≠ acqLocked) :
    s.trLockLost n = (s.setTrLock n false).acqSettle n := by
  have ha' : (s.setTrLock n false).acq n ≠ acqLocked := by rwa [acq_setTrLock]
  rw [Dev.trLockLost, if_pos hl]
  exact if_neg ha'

theorem trLockLost_locked (hl : s.on (Reg.RX_RESAMP_STAT_TR_LOCK n) = true) (ha : s.acq n = acqLocked) :
    s.trLockLost n = (s.setTrLock n false).acqLose n acqTiming 10 := by
  have ha' : (s.setTrLock n false).acq n = acqLocked := by rwa [acq_setTrLock]
  rw [Dev.trLockLost, if_pos hl]
  exact if_pos ha'

theorem trLockLost_off (hl : s.on (Reg.RX_RESAMP_STAT_TR_LOCK n) = false) : s.trLockLost n = s :=
  if_neg (by simp [hl])

end TrLock

/-! ### O5: the clauses put together -/

/-- What the loss of TR_LOCK comes to outside LOCKED. -/
theorem trLockLost_of_ne_locked {n : Nat} {s : Dev} (ha : s.acq n ≠ acqLocked) :
    s.trLockLost n = if s.on (Reg.RX_RESAMP_STAT_TR_LOCK n) then (s.setTrLock n false).acqSettle n else s := by
  split
  case isTrue hl => exact trLockLost_unlocked hl ha
  case isFalse hl => exact trLockLost_off (Bool.eq_false_of_not_eq_true hl)

theorem quiet_trLockLost {n : Nat} {s : Dev} (ha : s.acq n ≠ acqLocked) : Dev.Quiet s (s.trLockLost n) := by
  rw [trLockLost_of_ne_locked ha]
  exact ite_preserves (P := Dev.Quiet s) _ (fun h => (h.setTrLock n false).acqSettle n) (Dev.Quiet.refl _)

theorem quiet_trLockLost_locked {n : Nat} {s : Dev} (hl : s.on (Reg.RX_RESAMP_STAT_TR_LOCK n) = true) (ha : s.acq n = acqLocked) :
    Dev.Quiet s (s.trLockLost n) := by
  rw [trLockLost_locked hl ha]
  exact ((Dev.Quiet.refl _).setTrLock n false).acqLose n _ _

section Commands
variable {n : Fin 8} {s : State} (hs : s.Inv)
include hs

theorem settles_trLockSet_timing {o : Found} (hp : s.dev.on (Reg.RX_SAMP_STAT_PLL_LOCK n) = true) (hl : s.dev.on (Reg.RX_RESAMP_STAT_TR_LOCK n) = false)
    (ha : s.dev.acq n = acqTiming) :
    ∃ t, exec (.trLockSet n o) s = .next t ∧
      State.Settles [(10 + n.val, 9)] ((s.dev.trLockMoved n true).acqEntered n acqTiming acqConverge) s t := by
  refine settles_quiet hs ?_ (((Dev.Quiet.refl _).trLockMoved n true).acqEntered n _ _)
  rw [if_pos hp]
  exact (setTrLock_timing hl ha).toLike

theorem settles_trLockSet {o : Found} :
    ∃ t, exec (.trLockSet n o) s = .next t ∧
      State.Settles [] (if s.dev.on (Reg.RX_SAMP_STAT_PLL_LOCK n) then (s.dev.setTrLock n true).acqSettle n else s.dev) s t :=
  settles_exact hs rfl ((unladen_of_inv hs).quiet
    (ite_preserves (P := Dev.Quiet s.dev) _ (fun h => (h.setTrLock n true).acqSettle n) (Dev.Quiet.refl _)))

/-- TR_LOCK lost settles on whatever is kin to the device that it leaves. -/
theorem settles_trLockClear {evs : List (Nat × Nat)} {d : Dev} (hk : Dev.Kin evs d (s.dev.trLockLost n)) (hq : Dev.Quiet s.dev d) :
    ∃ t, exec (.trLockClear n) s = .next t ∧ State.Settles evs d s t :=
  settles_quiet hs hk.toLike hq

/-- The same at the end of a hold of 100 µs. -/
theorem settles_trHoldTimeout {evs : List (Nat × Nat)} {d : Dev} (hh : s.dev.on (Reg.RX_RESAMP_STAT_TR_HOLD n) = true)
    (hk : Dev.Kin evs d (s.dev.trLockLost n)) (hq : Dev.Quiet s.dev d) :
    ∃ t, exec (.trHoldTimeout n) s = .next t ∧ State.Settles evs d s t := by
  refine settles_quiet hs ?_ hq
  rw [if_pos hh]
  exact hk.toLike

theorem settles_trHoldTimeout_unlocked (ha : s.dev.acq n ≠ acqLocked) :
    ∃ t, exec (.trHoldTimeout n) s = .next t ∧ State.Settles [] (if s.dev.on (Reg.RX_RESAMP_STAT_TR_HOLD n) && s.dev.on (Reg.RX_RESAMP_STAT_TR_LOCK n) then
      (s.dev.setTrLock n false).acqSettle n else s.dev) s t := by
  cases hh : s.dev.on (Reg.RX_RESAMP_STAT_TR_HOLD n) with
  | false => exact settles_idle hs (if_neg (by simp [hh]))
  | true =>
    rw [Bool.true_and, ← trLockLost_of_ne_locked ha]
    exact settles_trHoldTimeout hs hh (Dev.Kin.refl _) (quiet_trLockLost ha)

theorem settles_trLockClear_unlocked (ha : s.dev.acq n ≠ acqLocked) :
    ∃ t, exec (.trLockClear n) s = .next t ∧
      State.Settles [] (if s.dev.on (Reg.RX_RESAMP_STAT_TR_LOCK n) then (s.dev.setTrLock n false).acqSettle n else s.dev) s t := by
  rw [← trLockLost_of_ne_locked ha]
  exact settles_trLockClear hs (Dev.Kin.refl _) (quiet_trLockLost ha)

end Commands

/-- TR_LOCK lost by engine `n` ends the attempt in EQ_CONVERGE, with cause 4. -/
theorem trLockLost_converge {n : Nat} {s : Dev} (hl : s.on (Reg.RX_RESAMP_STAT_TR_LOCK n) = true) (ha : s.acq n = acqConverge)
    (hd : (s.rxe n).onKept = false) :
    Dev.Kin [(10 + n, 9), (10 + n, 17)] (((s.trLockMoved n false).attemptEnds n 4).acqEntered n acqConverge acqBackoff) (s.trLockLost n) := by
  rw [trLockLost_unlocked hl (by rw [ha]; decide)]
  exact setTrLock_converge hl ha hd

/-- Settles O5: what TR_LOCK brings rests on `setTrLock_timing`, `setTrLock_rests` and `setTrLock_converge`, one for each way in which the acquisition
goes on (Table 4.5). -/
theorem receiveFrontWindowsAndTiming : Obligations.ReceiveFrontWindowsAndTiming := by
  unfold Obligations.ReceiveFrontWindowsAndTiming
  refine ⟨fun n count r0 r1 r2 r3 gx px gy py s hs => settles_ovrWindowEnd ⟨count, gx, px, gy, py⟩ r0 r1 r2 r3 hs,
    fun n v s hs hl ht => settles_rxOvrClear v hs hl ht, fun n s hs hp hl ha => settles_trLockSet_timing hs hp hl ha, fun n s hs hl ha => ?clear,
    fun n s hs hl ha hd => ?clearConverge, fun n s hs hp => ?hold, fun n s hs => ?resume, fun n s hs hh hl ha hd => ?timeoutConverge,
    fun n s hs => settles_trLockSet hs, fun n s hs hl ha => ?clearLocked, fun n s hs ha => settles_trLockClear_unlocked hs ha, fun n s hs hp => ?holdNot,
    fun n s hs hh hl ha => ?timeoutLocked, fun n s hs ha => settles_trHoldTimeout_unlocked hs ha⟩
  case clear =>
    have hne : s.dev.acq n ≠ acqLocked := by obtain h | h | h | h | h := ha <;> rw [h] <;> decide
    refine settles_trLockClear hs ?_ ((Dev.Quiet.refl _).trLockMoved n false)
    rw [trLockLost_unlocked hl hne]
    exact setTrLock_rests hl ha
  case clearConverge =>
    exact settles_trLockClear hs (trLockLost_converge hl ha hd) ((((Dev.Quiet.refl _).trLockMoved n false).attemptEnds n 4).acqEntered n _ _)
  case hold => exact settles_exact hs (if_pos hp) ((unladen_of_inv hs).quiet (((Dev.Quiet.refl _).wr _ _).keepMeasured s.dev n))
  case resume => exact settles_exact hs rfl ((unladen_of_inv hs).quiet ((Dev.Quiet.refl _).wr _ _))
  case timeoutConverge =>
    exact settles_trHoldTimeout hs hh (trLockLost_converge hl ha hd) ((((Dev.Quiet.refl _).trLockMoved n false).attemptEnds n 4).acqEntered n _ _)
  case clearLocked =>
    rw [← trLockLost_locked hl ha]
    exact settles_trLockClear hs (Dev.Kin.refl _) (quiet_trLockLost_locked hl ha)
  case holdNot => exact settles_idle hs (if_neg (by simp [hp]))
  case timeoutLocked =>
    rw [← trLockLost_locked hl ha]
    exact settles_trHoldTimeout hs hh (Dev.Kin.refl _) (quiet_trLockLost_locked hl ha)

end Sys2Proof.Machine
end

section
namespace Sys2Proof.Machine
open Sys2Proof.Tests

/-! ### O6: the odd engine of a twin pair starts from its partner's Δf -/

/-- Engines 0 and 1 are a twin pair; engine 0 is LOCKED and shows a Δf of 5, and engine 1 waits for its signal. -/
def partnerLocked : State :=
  running [(Reg.ACQ_CTRL_TWIN 0, 1), (Reg.ACQ_STAT_STATE 0, acqLocked), (Reg.CR_FREQ_OFFSET 0, 5), (Reg.RX_SAMP_STAT_PLL_LOCK 1, 1),
    (Reg.ACQ_STAT_STATE 1, acqWaitSignal)]

/-- The signal that has come to engine `n`, before E-1n.19. -/
def Dev.signalHere (n : Nat) (s : Dev) : Dev :=
  s.setRxe n { s.rxe n with present := true }

theorem exec_signalPresent {n : Fin 8} {s : State} (hp : (s.dev.rxe n).present = false) (hl : s.dev.on (Reg.RX_SAMP_STAT_PLL_LOCK n) = true) :
    exec (.signalPresent n) s = .next (s.become (((s.dev.signalHere n).raise (10 + n) 19).acqSettle n)) := by
  have h : exec (.signalPresent n) s = execSignalPresent n s := rfl
  rw [h, execSignalPresent, State.run, if_neg (by simp [hp, hl])]
  rfl

/-- At its entry to FREQ_SEARCH engine 1 takes the Δf of engine 0 (R118). -/
theorem offset_of_signalPresent :
    (((partnerLocked.dev.signalHere (1 : Fin 8)).raise (10 + (1 : Fin 8)) 19).acqSettle (1 : Fin 8)).rdS (Reg.CR_FREQ_OFFSET (1 : Fin 8)) = 5 := by
  decide +kernel

/-- A command that settles leaves a field of CR_FREQ as its device has it. -/
theorem offset_of_settles {evs : List (Nat × Nat)} {d u : Dev} {s : State} {n : Nat} (h : State.Settles evs d s (s.become u)) :
    u.rdS (Reg.CR_FREQ_OFFSET n) = d.rdS (Reg.CR_FREQ_OFFSET n) :=
  congrArg (signed _) (h.dev.rd (f := Reg.CR_FREQ_OFFSET n) (by simp only [overflowCell, regCell]; omega))

/-- Refutes O6: the odd engine of a twin pair whose partner is LOCKED takes the partner's Δf at its entry to FREQ_SEARCH (R118). The first clause, on a signal
that comes in WAIT_SIGNAL, leaves out twin mode, and keeps the Δf that the engine shows (`partnerLocked`). -/
theorem not_acquisitionSearches : ¬ Obligations.AcquisitionSearches := by
  unfold Obligations.AcquisitionSearches
  rintro ⟨hsignal, -⟩
  have hpresent : (partnerLocked.dev.rxe (1 : Fin 8)).present = false := by decide
  have hlock : partnerLocked.dev.on (Reg.RX_SAMP_STAT_PLL_LOCK (1 : Fin 8)) = true := by decide
  obtain ⟨t, ht, hset⟩ := hsignal 1 partnerLocked (by decide) hpresent hlock (by decide)
  rw [exec_signalPresent hpresent hlock] at ht
  obtain rfl := Host.Outcome.next.inj ht
  have hkept := (offset_of_settles (n := (1 : Fin 8)) hset).symm.trans offset_of_signalPresent
  exact absurd hkept (by decide +kernel)

end Sys2Proof.Machine
end

section
namespace Sys2Proof.Machine

/-! ### Lock won and lost on kin devices (Table 4.5) -/

section Acquisition
variable {a : List (Nat × Nat)} {d e : Dev} (h : Dev.Kin a d e)
include h

theorem Dev.Kin.abandonPath (path : Nat) : Dev.Kin a (d.abandonPath path) (e.abandonPath path) := by
  refine Dev.Kin.foldl (fun k _ d e h => ?_) h
  have hd : e.drone = d.drone := h.toLike.part (fun x => x.drone) fun _ => rfl
  rw [hd]
  split
  · exact (h.map (fun x => { x with drone := { d.drone with fingers := sset (dflt none) d.drone.fingers (4 * path + k) none } })
      (fun _ => rfl) (fun _ => rfl) (fun _ => rfl) fun _ => rfl).bumpBoth Reg.ABANDONED.run
  · exact h

theorem Dev.Kin.rxLead_eq (n : Nat) : e.rxLead n = d.rxLead n := by
  rw [Dev.rxLead, Dev.rxLead, h.rxTwin_eq]

theorem Dev.Kin.rxMode_eq (n : Nat) : e.rxMode n = d.rxMode n := by
  simp (disch := (simp only [overflowCell, regCell]; omega)) only [Dev.rxMode, h.rxLead_eq, h.toLike.rd]

theorem Dev.Kin.takesPartnerF_eq (n : Nat) : e.takesPartnerF n = d.takesPartnerF n := by
  simp only [Dev.takesPartnerF, h.rxTwin_eq, h.acq_eq]

theorem Dev.Kin.mayReceive_eq {n : Nat} (hn : n < 8) : e.mayReceive n = d.mayReceive n := by
  rw [Dev.mayReceive, Dev.mayReceive, h.blockOut_eq _ (by omega), h.blockOut_eq _ (by omega), h.dieLost_eq]

theorem Dev.Kin.symbolsIn_eq (n ns : Nat) : e.symbolsIn n ns = d.symbolsIn n ns := by
  simp only [Dev.symbolsIn, h.rxMode_eq]

theorem Dev.Kin.lockChanged (n : Nat) (won fast : Bool) : Dev.Kin a (d.lockChanged n won fast) (e.lockChanged n won fast) := by
  simp only [Dev.lockChanged, h.rxe_eq, h.clock_eq, h.symbolsIn_eq]
  refine Dev.Kin.alFollowPair ?_ n
  cases won
  · exact (((h.setRxe n rfl).raiseBoth _ _).write _ rfl).abandonPath n
  · exact (h.setRxe n rfl).raiseBoth _ _

theorem Dev.Kin.acqGo (n st : Nat) : Dev.Kin a (d.acqGo n st) (e.acqGo n st) := by
  delta Dev.acqGo
  extract_lets w r d1 d2 d3 w' r' e1 e2 e3
  have hw : w' = w := h.acq_eq n
  have h2 : Dev.Kin a d2 e2 := by
    simp only [d2, e2, d1, e1, r, r', hw]
    exact h.acqEntered n w st
  have h3 : Dev.Kin a d3 e3 := by
    simp only [d3, e3, h2.takesPartnerF_eq, h2.deltaF_eq]
    split
    · exact h2.writeS _ rfl
    · exact h2
  rw [hw]
  split
  · exact h3
  · exact h3.lockChanged n _ _

theorem Dev.Kin.acqBackoffFor (n cause : Nat) : Dev.Kin a (d.acqBackoffFor n cause) (e.acqBackoffFor n cause) := by
  simp only [Dev.acqBackoffFor, h.rxe_eq]
  exact (((((h.setRxe n rfl).write _ rfl).bumpBoth _).bumpBoth _).acqGo n _).raiseBoth _ _

theorem Dev.Kin.acqNext {n : Nat} (hn : n < 8) : Dev.Kin a (d.acqNext n) (e.acqNext n) := by
  simp (disch := (simp only [overflowCell, regCell]; omega)) only [Dev.acqNext, h.acq_eq, h.rxe_eq, h.mayReceive_eq hn, h.clock_eq, h.toLike.on]
  split_ifs
  · exact h.acqGo n _
  · exact h.acqGo n _
  · exact (h.setRxe n rfl).acqGo n _
  · exact h.acqGo n _
  · exact h.acqBackoffFor n 4
  · exact h.acqGo n _
  · exact h

theorem Dev.Kin.acqSettle {n : Nat} (hn : n < 8) : Dev.Kin a (d.acqSettle n) (e.acqSettle n) :=
  ((((h.acqNext hn).acqNext hn).acqNext hn).acqNext hn).acqNext hn

end Acquisition
end Sys2Proof.Machine
end

section
namespace Sys2Proof.Machine

/-! ### What an acquisition leaves of the partner and of the page headers -/

/-- The cells that tell an odd engine whose Δf it starts from (R118): its partner's TWIN and state. -/
abbrev partnerCell (n c : Nat) : Prop :=
  n % 2 = 1 ∧ (c = (Reg.ACQ_CTRL_TWIN (n - 1)).cell ∨ c = (Reg.ACQ_STAT_STATE (n - 1)).cell)

/-- From `d` to `e` the cells by which engine `n` looks at its partner stay, and the page headers. -/
structure Dev.PartnerKept (n : Nat) (d e : Dev) : Prop where
  /-- the register words -/
  words : ∀ c, partnerCell n c → e.word c = d.word c
  /-- the page headers -/
  pages : e.pages = d.pages

theorem Dev.PartnerKept.refl (n : Nat) (d : Dev) : Dev.PartnerKept n d d :=
  ⟨fun _ _ => rfl, rfl⟩

section Kept
variable {n : Nat} {d e : Dev} (h : Dev.PartnerKept n d e) (hn : n < 8)
include h

theorem Dev.PartnerKept.map {u : Dev → Dev} (hr : ∀ x, (u x).regs = x.regs) (hp : ∀ x, (u x).pages = x.pages) : Dev.PartnerKept n d (u e) where
  words c hc := by rw [Dev.word, hr]; exact h.words c hc
  pages := (hp e).trans h.pages

theorem Dev.PartnerKept.setRxe (m : Nat) (x : RxEngine) : Dev.PartnerKept n d (e.setRxe m x) :=
  h.map (u := Dev.setRxe m x) (fun _ => rfl) fun _ => rfl

theorem Dev.PartnerKept.setFra (m : Nat) (x : FrEngine) : Dev.PartnerKept n d (e.setFra m x) :=
  h.map (u := Dev.setFra m x) (fun _ => rfl) fun _ => rfl

theorem Dev.PartnerKept.setPr (p : Nat) (x : Pair) : Dev.PartnerKept n d (e.setPr p x) :=
  h.map (u := Dev.setPr p x) (fun _ => rfl) fun _ => rfl

theorem Dev.PartnerKept.setForce (r : Nat) (v : ColVals) : Dev.PartnerKept n d (e.setForce r v) :=
  h.map (u := Dev.setForce r v) (fun _ => rfl) fun _ => rfl

theorem Dev.PartnerKept.foldl {α : Type} {f : Dev → α → Dev} {l : List α}
    (hf : ∀ x ∈ l, ∀ {e}, Dev.PartnerKept n d e → Dev.PartnerKept n d (f e x)) : Dev.PartnerKept n d (l.foldl f e) := by
  induction l generalizing e with
  | nil => exact h
  | cons x l ih => exact ih (hf x List.mem_cons_self h) fun y hy => hf y (List.mem_cons_of_mem _ hy)

theorem Dev.PartnerKept.kin {a : List (Nat × Nat)} {f : Dev} (k : Dev.Kin a e f) : Dev.PartnerKept n d f where
  words c hc := (k.words c (by simp only [partnerCell, overflowCell, regCell] at hc ⊢; omega)).trans (h.words c hc)
  pages := (k.toLike.part (fun x => x.pages) fun _ => rfl).trans h.pages

theorem Dev.PartnerKept.raise (g b : Nat) : Dev.PartnerKept n d (e.raise g b) :=
  h.kin (Dev.Kin.raise e g b)

theorem Dev.PartnerKept.raiseIf (c : Bool) (g b : Nat) : Dev.PartnerKept n d (e.raiseIf c g b) :=
  h.kin (Dev.Kin.raiseIf e c g b)

theorem Dev.PartnerKept.write (f : Field) (v : Nat) (hf : ¬ partnerCell n f.cell) : Dev.PartnerKept n d (e.wr f v) where
  words c hc := (word_wr_ne _ _ _ fun he => hf (he ▸ hc)).trans (h.words c hc)
  pages := h.pages

include hn

theorem Dev.PartnerKept.wr (f : Field) (v : Nat)
    (hf : n < 8 → ¬ partnerCell n f.cell := by simp only [partnerCell, courseBit, regCell, tableCell]; omega) : Dev.PartnerKept n d (e.wr f v) :=
  h.write f v (hf hn)

/-! Courses and pairs (R187, R213 to R217) -/

theorem Dev.PartnerKept.showPair (p : Nat) : Dev.PartnerKept n d (e.showPair p) := by
  delta Dev.showPair
  extract_lets ca cb mode unprot d1 d2 d3
  have h1 : Dev.PartnerKept n d d1 := h.wr hn _ _
  have h3 : Dev.PartnerKept n d d3 := (((h1.wr hn _ _).wr hn _ _).wr hn _ _).wr hn _ _
  split_ifs
  · exact (h3.wr hn _ _).wr hn _ _
  · exact (h1.wr hn _ _).wr hn _ _
  · exact h1

omit hn in
theorem Dev.PartnerKept.wtrRule (p : Nat) (hadA : Bool) : Dev.PartnerKept n d (e.wtrRule p hadA) := by
  delta Dev.wtrRule
  extract_lets x0 x d1 z d2 r y
  have h1 : Dev.PartnerKept n d d1 := h.setPr p _
  have h2 : Dev.PartnerKept n d d2 := ite_preserves _ (fun h => h.setPr p _) h1
  exact ite_preserves (P := Dev.PartnerKept n d) _ (fun h => h.setPr p _) h2

theorem Dev.PartnerKept.courseToPairs (c : Nat) : Dev.PartnerKept n d (e.courseToPairs c) := by
  unfold Dev.courseToPairs
  split
  · rename_i p _
    unfold Dev.pairConditions
    dsimp only
    split
    · exact ((h.setPr p _).wtrRule p _).showPair hn p
    · exact h.showPair hn p
  · exact h

theorem Dev.PartnerKept.setCrsBit (c : Nat) (f : Field) (hf : ¬ partnerCell n f.cell) (ev : Option Nat) (v : Bool) :
    Dev.PartnerKept n d (e.setCrsBit c f ev v) := by
  have hw : Dev.PartnerKept n d ((e.wrB f v).crsChanged c) := (h.write f _ hf).wr hn _ _
  unfold Dev.setCrsBit
  split
  · exact h
  · cases ev with
    | none => exact hw
    | some b => exact hw.raise 19 b

theorem Dev.PartnerKept.settleCourses : Dev.PartnerKept n d e.settleCourses := by
  refine h.foldl fun c _ {e} h => ?_
  have hc : ¬ partnerCell n (Reg.CRSTAT_SF c).cell := by simp only [partnerCell, regCell, tableCell]; omega
  unfold Dev.settleCourse
  dsimp only
  split
  · exact h
  · exact ((((h.setCrsBit hn c _ hc _ _).setCrsBit hn c (Reg.CRSTAT_SD c) hc _ _).wr hn _ _).wr hn _ _).courseToPairs hn c

/-! Alignment of the receive engines -/

theorem Dev.PartnerKept.colPut (w : ColWhen) (r : Nat) (v : ColVals) : Dev.PartnerKept n d (e.colPut w r v) := by
  unfold Dev.colPut
  dsimp only
  split
  · cases w <;> exact (h.setForce r _).wr hn _ _
  · split
    · exact (h.setForce r v).map (u := fun x => { x with sid := _ }) (fun _ => rfl) fun _ => rfl
    · exact h.setForce r v

theorem Dev.PartnerKept.colApply (w : ColWhen) : Dev.PartnerKept n d (e.colApply w) :=
  (h.foldl fun x _ _ h => h.colPut hn x.1 x.2.1 x.2.2).map
    (u := fun x => { x with col := { x.col with waiting := x.col.waiting.filter fun x => decide (x.1 ≠ w) } }) (fun _ => rfl) fun _ => rfl

theorem Dev.PartnerKept.frGo (m st : Nat) : Dev.PartnerKept n d (e.frGo m st) := by
  unfold Dev.frGo
  dsimp only
  have hr := ((h.wr hn (Reg.FR_STAT_STATE m) st).wr hn (Reg.FR_STAT_SF m) (ofBool (decide (st ≠ frAligned)))).raiseIf
    (decide ((e.frs m = frAligned) ≠ (st = frAligned))) 18 m
  split
  · exact hr.setFra m _
  · exact (hr.colApply hn _).setFra m _

theorem Dev.PartnerKept.frToIdle (m : Nat) : Dev.PartnerKept n d (e.frToIdle m) := by
  unfold Dev.frToIdle
  split
  · exact h
  · exact ((h.setFra m _).wr hn _ _).frGo hn m _

theorem Dev.PartnerKept.frDelivering (m : Nat) : Dev.PartnerKept n d (e.frDelivering m) := by
  unfold Dev.frDelivering
  split
  · exact (((h.setFra m _).setFra m _).wr hn _ _).frGo hn m _
  · exact h

theorem Dev.PartnerKept.alGo (m st : Nat) : Dev.PartnerKept n d (e.alGo m st) := by
  delta Dev.alGo
  extract_lets was d1 d2
  have h1 : Dev.PartnerKept n d d1 := (h.wr hn _ _).raiseIf _ _ _
  have h2 : Dev.PartnerKept n d d2 := ite_preserves _ (fun h => h.wr hn _ _) h1
  split
  · exact h2.frDelivering hn m
  · exact h2.frToIdle hn m

theorem Dev.PartnerKept.alFollow (m : Nat) : Dev.PartnerKept n d (e.alFollow m) := by
  unfold Dev.alFollow
  split_ifs
  · exact h.frToIdle hn m
  · exact h.alGo hn m _
  · exact (h.setRxe m _).alGo hn m _
  · exact h

theorem Dev.PartnerKept.alFollowPair (m : Nat) : Dev.PartnerKept n d (e.alFollowPair m) := by
  unfold Dev.alFollowPair
  split
  · exact ((h.alFollow hn _).alFollow hn _).settleCourses hn
  · exact (h.alFollow hn m).settleCourses hn

/-! The acquisition of engine `n` -/

theorem Dev.PartnerKept.abandonPath (path : Nat) : Dev.PartnerKept n d (e.abandonPath path) := by
  refine h.foldl fun k _ {e} h => ?_
  split
  · exact (h.map (u := fun x => { x with drone := { x.drone with fingers := sset (dflt none) x.drone.fingers (4 * path + k) none } })
      (fun _ => rfl) fun _ => rfl).wr hn Reg.ABANDONED.run _
  · exact h

theorem Dev.PartnerKept.lockChanged (won fast : Bool) : Dev.PartnerKept n d (e.lockChanged n won fast) := by
  refine Dev.PartnerKept.alFollowPair ?_ hn n
  cases won
  · exact (((h.setRxe n _).raise _ _).wr hn _ _).abandonPath hn n
  · exact (h.setRxe n _).raise _ _

omit hn in
theorem Dev.PartnerKept.keepTaps (old : Dev) : Dev.PartnerKept n d (old.keepTaps n e) := by
  unfold Dev.keepTaps
  exact ite_preserves (P := Dev.PartnerKept n d) _ (fun h => h.setRxe n _) h

theorem Dev.PartnerKept.acqEntered (was st : Nat) : Dev.PartnerKept n d (e.acqEntered n was st) := by
  have hm : ∀ f ∈ measuredFields n, ¬ partnerCell n f.cell := by
    simp only [measuredFields, List.forall_mem_cons, List.not_mem_nil, false_implies, implies_true, partnerCell, regCell]
    refine ⟨?_, ?_, ?_, ?_, ?_, trivial⟩ <;> omega
  have he : ∀ f ∈ enteredFields n, ¬ partnerCell n f.cell := by
    simp only [enteredFields, List.forall_mem_cons, List.not_mem_nil, false_implies, implies_true, partnerCell, regCell]
    refine ⟨?_, ?_, ?_, ?_, ?_, trivial⟩ <;> omega
  refine keepMeasured_preserves (fun _ h => h.keepTaps _) (fun f hf _ v h => h.write f v (hm f hf)) ?_
  exact acqEnter_preserves (fun _ _ h => h.setRxe n _) (fun f hf _ v h => h.write f v (he f hf)) was st ((h.setRxe n _).wr hn _ _)

theorem Dev.PartnerKept.acqGo (st : Nat) : Dev.PartnerKept n d (e.acqGo n st) := by
  delta Dev.acqGo
  extract_lets w r d1 d2 d3
  have h2 : Dev.PartnerKept n d d2 := h.acqEntered hn w st
  have h3 : Dev.PartnerKept n d d3 := ite_preserves _ (fun h => h.wr hn _ _) h2
  split
  · exact h3
  · exact h3.lockChanged hn _ _

theorem Dev.PartnerKept.acqBackoffFor (cause : Nat) : Dev.PartnerKept n d (e.acqBackoffFor n cause) :=
  (((((h.setRxe n _).wr hn _ _).wr hn _ _).wr hn _ _).acqGo hn _).raise _ _

theorem Dev.PartnerKept.acqLose (st cause : Nat) : Dev.PartnerKept n d (e.acqLose n st cause) :=
  (((h.wr hn _ _).wr hn _ _).acqGo hn st).raise _ _

theorem Dev.PartnerKept.acqNext : Dev.PartnerKept n d (e.acqNext n) := by
  unfold Dev.acqNext
  dsimp only
  split_ifs
  · exact h.acqGo hn _
  · exact h.acqGo hn _
  · exact (h.setRxe n _).acqGo hn _
  · exact h.acqGo hn _
  · exact h.acqBackoffFor hn 4
  · exact h.acqGo hn _
  · exact h

theorem Dev.PartnerKept.acqSettle : Dev.PartnerKept n d (e.acqSettle n) :=
  ((((h.acqNext hn).acqNext hn).acqNext hn).acqNext hn).acqNext hn

/-- Whose Δf the engine starts from stays. -/
theorem Dev.PartnerKept.takesPartnerF_eq : e.takesPartnerF n = d.takesPartnerF n := by
  by_cases hodd : n % 2 = 1
  · have htwin : e.rxTwin n = d.rxTwin n := by
      have he : 2 * (n / 2) = n - 1 := by omega
      rw [Dev.rxTwin, Dev.rxTwin, Dev.on, Dev.on, Dev.rd, Dev.rd, he, h.words _ ⟨hodd, .inl rfl⟩]
    have hacq : e.acq (n - 1) = d.acq (n - 1) := by
      rw [Dev.acq, Dev.acq, Dev.rd, Dev.rd, h.words _ ⟨hodd, .inr rfl⟩]
    rw [Dev.takesPartnerF, Dev.takesPartnerF, htwin, hacq]
  · simp [Dev.takesPartnerF, hodd]

end Kept
end Sys2Proof.Machine
end

section
namespace Sys2Proof.Machine

/-! ### What an acquisition writes lies apart from the alignment behind it -/

/-- The fields by which the chord and frame aligners of engine `n` go on. -/
def alignFields (n : Nat) : List Field :=
  [Reg.ACQ_CTRL_TWIN (2 * (n / 2)), Reg.ALIGN_STAT_STATE n, Reg.ALIGN_STAT_TWIN_SKEW n, Reg.FR_STAT_STATE n, Reg.RX_MODE_CONST n]

/-- The fields that a step of the acquisition of engine `n` writes beside those of the loops that stop and of the state entered. -/
def acquiredFields (n : Nat) : List Field :=
  [Reg.ACQ_STAT_STATE n, Reg.ACQ_STAT_TRIES n, Reg.ACQ_STAT_LAST_FAIL n, Reg.ACQ_FAIL_CNT n, Reg.ACQ_TIME_LAST_US n, Reg.CR_STAT_PHASE_LOCK n,
    Reg.CR_STAT_TWIN_AID_ACTIVE n, Reg.DEMAP_STAT_SCALE n, Reg.DEMAP_STAT_PRIOR n, Reg.EQ_DEGEN_CNT n]

/-- The fields of `fs` lie in other registers than those of the aligners of engine `n`. -/
def AlignApart (n : Nat) (fs : List Field) : Prop :=
  ∀ f ∈ fs, ∀ g ∈ alignFields n, g.cell ≠ f.cell

theorem alignApart_acquiredFields (n : Nat) : AlignApart n (acquiredFields n) := by
  simp only [AlignApart, acquiredFields, alignFields, List.forall_mem_cons, List.not_mem_nil, false_implies, implies_true, and_true, regCell]
  omega

theorem alignApart_enteredFields {n : Nat} (hn : n < 8) : AlignApart n (enteredFields n) := by
  simp only [AlignApart, enteredFields, alignFields, List.forall_mem_cons, List.not_mem_nil, false_implies, implies_true, and_true, regCell]
  omega

theorem alignApart_measuredFields (n : Nat) : AlignApart n (measuredFields n) := by
  simp only [AlignApart, measuredFields, alignFields, List.forall_mem_cons, List.not_mem_nil, false_implies, implies_true, and_true, regCell]
  and_intros <;> omega

/-- From `d` to `e` the aligners of engine `n`, its Drone fingers and the clock stay. -/
structure Dev.AlignKept (n : Nat) (d e : Dev) : Prop where
  /-- the aligners' fields -/
  fields : ∀ g ∈ alignFields n, e.rd g = d.rd g
  /-- the clock -/
  clock : e.clock = d.clock
  /-- the line dies -/
  dieLost : e.dieLost = d.dieLost
  /-- the Drone channel -/
  drone : e.drone = d.drone

theorem Dev.AlignKept.refl (n : Nat) (d : Dev) : Dev.AlignKept n d d :=
  ⟨fun _ _ => rfl, rfl, rfl, rfl⟩

section AlignKept
variable {n : Nat} {d e : Dev} (h : Dev.AlignKept n d e)
include h

theorem Dev.AlignKept.setRxe (m : Nat) (x : RxEngine) : Dev.AlignKept n d (e.setRxe m x) :=
  ⟨h.fields, h.clock, h.dieLost, h.drone⟩

theorem Dev.AlignKept.wr {fs : List Field} (hfs : AlignApart n fs) {f : Field} (hf : f ∈ fs) (v : Nat) : Dev.AlignKept n d (e.wr f v) :=
  ⟨fun g hg => (rd_wr_ne _ _ _ _ (hfs f hf g hg)).trans (h.fields g hg), h.clock, h.dieLost, h.drone⟩

theorem Dev.AlignKept.acquired (f : Field) (v : Nat) (hf : f ∈ acquiredFields n := by simp [acquiredFields]) : Dev.AlignKept n d (e.wr f v) :=
  h.wr (alignApart_acquiredFields n) hf v

theorem Dev.AlignKept.acqEntered (hn : n < 8) (was st : Nat) : Dev.AlignKept n d (e.acqEntered n was st) := by
  refine keepMeasured_preserves (fun x hx => ?_) (fun f hf _ v h => h.wr (alignApart_measuredFields n) hf v)
    (acqEnter_preserves (fun _ _ h => h.setRxe n _) (fun f hf _ v h => h.wr (alignApart_enteredFields hn) hf v) was st
      ((h.setRxe n _).acquired _ _))
  unfold Dev.keepTaps
  exact ite_preserves (P := Dev.AlignKept n d) _ (fun h => h.setRxe n _) hx

theorem Dev.AlignKept.rxTwin_eq : e.rxTwin n = d.rxTwin n := by
  rw [Dev.rxTwin, Dev.rxTwin, Dev.on, Dev.on, h.fields _ (by simp [alignFields])]

theorem Dev.AlignKept.als_eq : e.als n = d.als n :=
  h.fields _ (by simp [alignFields])

theorem Dev.AlignKept.frs_eq : e.frs n = d.frs n :=
  h.fields _ (by simp [alignFields])

theorem Dev.AlignKept.const_eq : e.rd (Reg.RX_MODE_CONST n) = d.rd (Reg.RX_MODE_CONST n) :=
  h.fields _ (by simp [alignFields])

theorem Dev.AlignKept.twinSkew_eq : e.rd (Reg.ALIGN_STAT_TWIN_SKEW n) = d.rd (Reg.ALIGN_STAT_TWIN_SKEW n) :=
  h.fields _ (by simp [alignFields])

end AlignKept

/-- What comes to a receive engine from outside its acquisition: the fault of its path, and its signal. -/
def RxEngine.outside (x : RxEngine) : Bool × Bool :=
  (x.fault, x.present)

section Outside
variable {n : Nat} {v : Bool × Bool}

theorem outside_setRxe {s : Dev} {x : RxEngine} (hx : x.outside = v) : ((s.setRxe n x).rxe n).outside = v := by
  rw [rxe_setRxe, hx]

theorem outside_keepMeasured (old : Dev) {s : Dev} (hs : (s.rxe n).outside = v) : ((old.keepMeasured n s).rxe n).outside = v := by
  refine keepMeasured_preserves (P := fun x => (x.rxe n).outside = v) (fun x hx => ?_) (fun _ _ _ _ h => h) hs
  unfold Dev.keepTaps
  exact ite_preserves (P := fun x => (x.rxe n).outside = v) _ (fun h => outside_setRxe h) hx

theorem outside_acqEnter (was st : Nat) {s : Dev} (hs : (s.rxe n).outside = v) : ((s.acqEnter n was st).rxe n).outside = v := by
  have hreset {x : Dev} (hx : (x.rxe n).outside = v) : ((x.resetTaps n).rxe n).outside = v := outside_setRxe (s := x) hx
  have hwr (c : Prop) [Decidable c] (f : Field) {x : Dev} (hx : (x.rxe n).outside = v) : ((if c then x.wr f 0 else x).rxe n).outside = v :=
    ite_preserves (P := fun x => (x.rxe n).outside = v) c id hx
  delta Dev.acqEnter
  extract_lets r1 x1 s1 c2 x2 s2 x3 s3 s4 s5 s6
  have h1 : (s1.rxe n).outside = v := ite_preserves (P := fun x => (x.rxe n).outside = v) _ (fun h => outside_setRxe (hreset h)) hs
  have hc : (c2.rxe n).outside = v := by
    simp only [c2]
    split
    · exact hreset h1
    · exact h1
  have h2 : (s2.rxe n).outside = v := ite_preserves (P := fun x => (x.rxe n).outside = v) _ (fun _ => outside_setRxe hc) h1
  have h3 : (s3.rxe n).outside = v := ite_preserves (P := fun x => (x.rxe n).outside = v) _ (fun h => outside_setRxe h) h2
  have h6 : (s6.rxe n).outside = v := hwr _ _ (hwr _ _ (hwr _ _ h3))
  split
  · exact h6
  · exact h6

/-- A step of the acquisition leaves the fault and the signal. -/
theorem outside_acqEntered (was st : Nat) {s : Dev} (hs : (s.rxe n).outside = v) : ((s.acqEntered n was st).rxe n).outside = v :=
  outside_keepMeasured _ (outside_acqEnter _ _ (outside_setRxe (s := s) hs))

end Outside

end Sys2Proof.Machine
end

section
namespace Sys2Proof.Machine

/-! ### The chord aligner outside twin mode after a change of LOCKED (Table 5.5) -/

/-- A field written with the value that it has. -/
theorem Dev.Kin.wr_self (d : Dev) {f : Field} (hf : f.cell < 0x1000000) : Dev.Kin [] (d.wr f (d.rd f)) d := by
  refine Dev.Kin.of_words (fun c => ?_) rfl (tables_wr_low d f _ hf).symm
  have hw : setBits (d.word f.cell) f.lsb f.width (d.rd f) = d.word f.cell := by
    rw [Dev.rd, setBits_getBits]
    apply BitVec.eq_of_getLsbD_eq
    intro i hi
    simp only [BitVec.getLsbD_or, BitVec.getLsbD_and, BitVec.getLsbD_not, hi, decide_true, Bool.true_and]
    cases (d.word f.cell).getLsbD i <;> cases (bitMask f.lsb f.width).getLsbD i <;> rfl
  rw [word_wr, hw]
  split
  · rename_i h
    rw [h]
  · rfl

section Follow
variable {n : Nat} {s : Dev}

theorem frs_wr_align (f : Field) (v : Nat) (hf : f.cell = (Reg.ALIGN_STAT_STATE n).cell) (hn : n < 8) : (s.wr f v).frs n = s.frs n :=
  rd_wr_ne _ _ _ _ (by rw [hf]; simp only [regCell]; omega)

theorem frToIdle_idle (h : s.frs n = frIdle) : s.frToIdle n = s :=
  if_pos h

/-- A move of the chord aligner between states outside ALIGNED, with the frame aligner idle. -/
theorem alGo_outside {st : Nat} (hn : n < 8) (hw : s.als n ≠ alAligned) (hst : st ≠ alAligned) (hf : s.frs n = frIdle) :
    s.alGo n st = if st = alCw then (s.wr (Reg.ALIGN_STAT_STATE n) st).wr (Reg.ALIGN_STAT_TWIN_SKEW n) 0 else s.wr (Reg.ALIGN_STAT_STATE n) st := by
  have hraise : (s.wr (Reg.ALIGN_STAT_STATE n) st).raiseIf (decide ((s.als n = alAligned) ≠ (st = alAligned))) (10 + n) 30 =
      s.wr (Reg.ALIGN_STAT_STATE n) st := by
    rw [decide_eq_false (by simp [hw, hst])]
    rfl
  have h1 : (s.wr (Reg.ALIGN_STAT_STATE n) st).frs n = frIdle := (frs_wr_align _ _ rfl hn).trans hf
  have h2 : ((s.wr (Reg.ALIGN_STAT_STATE n) st).wr (Reg.ALIGN_STAT_TWIN_SKEW n) 0).frs n = frIdle :=
    (frs_wr_align (Reg.ALIGN_STAT_TWIN_SKEW n) 0 rfl hn).trans h1
  rw [Dev.alGo, hraise, if_neg hst]
  split
  · rw [frToIdle_idle h2]
  · rw [frToIdle_idle h1]

/-- Lock won: the search starts from its first state, with the decoder cleared (R150, R152). -/
theorem alFollowPair_won (ht : s.rxTwin n = false) (hl : s.rxLocked n = true) (ha : s.als n = alIdle) :
    s.alFollowPair n = ((s.chordClear n).alGo n (if s.rd (Reg.RX_MODE_CONST n) = 2 then alDm else alCw)).settleCourses := by
  have hlead : (s.chordClear n).rxLead n = n := by
    have ht' : (s.chordClear n).rxTwin n = false := ht
    simp [Dev.rxLead, ht']
  have hfollow : s.alFollow n = (s.chordClear n).alSearch n := by
    simp [Dev.alFollow, Dev.alMustIdle, ht, hl, ha]
  rw [Dev.alFollowPair, if_neg (by simp [ht]), hfollow, Dev.alSearch, hlead]
  rfl

/-- Lock lost while the chord code is searched: the aligner goes to IDLE. -/
theorem alFollowPair_lost (hn : n < 8) (ht : s.rxTwin n = false) (hl : s.acq n ≠ acqLocked) (ha : s.als n = alSc ∨ s.als n = alRetry)
    (hf : s.frs n = frIdle) : s.alFollowPair n = (s.wr (Reg.ALIGN_STAT_STATE n) alIdle).settleCourses := by
  have hne : s.als n ≠ alAligned ∧ s.als n ≠ alIdle := by obtain h | h := ha <;> rw [h] <;> decide
  have hlocked : s.rxLocked n = false := by
    have : s.rd (Reg.ACQ_STAT_STATE n) ≠ acqLocked := hl
    simp [Dev.rxLocked, this]
  have hfollow : s.alFollow n = s.alGo n alIdle := by
    simp [Dev.alFollow, Dev.alMustIdle, ht, hlocked, hne.2]
  rw [Dev.alFollowPair, if_neg (by simp [ht]), hfollow, alGo_outside hn hne.1 (by decide) hf, if_neg (by decide)]

theorem abandonPath_none (h : s.drone.fingers = []) : s.abandonPath n = s := by
  have hstep (l : List Nat) : l.foldl (fun (s : Dev) k =>
      match sget (dflt none) s.drone.fingers (4 * n + k) with
      | some _ =>
        { s with drone := { s.drone with fingers := sset (dflt none) s.drone.fingers (4 * n + k) none } }.bumpBy Reg.ABANDONED.run 1
      | none => s) s = s := by
    induction l with
    | nil => rfl
    | cons k l ih =>
      have hnone : sget (dflt none) s.drone.fingers (4 * n + k) = none := by rw [h]; rfl
      rw [List.foldl_cons, hnone]
      exact ih
  exact hstep _

end Follow

/-! ### Lock won from CARRIER_LOCK (Table 4.5) -/

/-- What ACQ_TIME shows of an acquisition that ends now. -/
def Dev.acqTime (s : Dev) (n : Nat) : Nat :=
  min 16777215 ((s.clock - (s.rxe n).acqStart) / 1000)

/-- The device as LOCKED is entered from CARRIER_LOCK or FAST_REACQ, with the demapper's scale taken (R125, R140). -/
def Dev.carrierReady (n : Nat) (s : Dev) : Dev :=
  (if s.acq n = acqCarrier then
    (((s.wr (Reg.CR_STAT_PHASE_LOCK n) 1).wr (Reg.ACQ_STAT_TRIES n) 0).setRxe n { s.rxe n with keptFails := 0, onKept := false }).wr
      (Reg.ACQ_TIME_LAST_US n) (s.acqTime n)
  else ((s.wr (Reg.CR_STAT_PHASE_LOCK n) 1).wr (Reg.ACQ_STAT_TRIES n) 0).setRxe n { s.rxe n with keptFails := 0, onKept := false }).takeScale n
    (s.rxMode n).1 (s.rxMode n).2.2

section Won
variable {n : Nat} {s : Dev}

/-- A field of other registers than those of the mode and of TWIN leaves the receive mode. -/
theorem rxMode_wr (f : Field) (v : Nat)
    (hf : f.cell ≠ (Reg.ACQ_CTRL_TWIN (2 * (n / 2))).cell ∧ f.cell / 1024 % 32 ≠ 8 := by simp only [regCell]; omega) : (s.wr f v).rxMode n = s.rxMode n := by
  have hr (g : Field) (hg : g.cell / 1024 % 32 = 8) : (s.wr f v).rd g = s.rd g := rd_wr_ne _ _ _ _ fun h => hf.2 (h ▸ hg)
  have hl : (s.wr f v).rxLead n = s.rxLead n := by
    rw [Dev.rxLead, Dev.rxLead, Dev.rxTwin, Dev.rxTwin, Dev.on, Dev.on, rd_wr_ne _ _ _ _ hf.1.symm]
  rw [Dev.rxMode, Dev.rxMode, hl, hr _ (by simp only [regCell]; omega), hr _ (by simp only [regCell]; omega), hr _ (by simp only [regCell]; omega)]

theorem rxMode_setRxe (m : Nat) (x : RxEngine) : (s.setRxe m x).rxMode n = s.rxMode n := rfl

theorem carrierLock_ready (h : s.acq n = acqCarrier ∨ s.acq n = acqFast) : s.carrierLock n = (s.carrierReady n).acqGo n acqLocked := by
  rw [Dev.carrierLock, if_pos h, Dev.carrierReady]
  by_cases hc : s.acq n = acqCarrier
  · simp only [hc, decide_true, if_true]
    rw [rxMode_wr (Reg.ACQ_TIME_LAST_US n), rxMode_setRxe, rxMode_wr (Reg.ACQ_STAT_TRIES n), rxMode_wr (Reg.CR_STAT_PHASE_LOCK n), rxe_setRxe]
    rfl
  · simp only [hc, decide_false, if_false, Bool.false_eq_true]
    rw [rxMode_setRxe, rxMode_wr (Reg.ACQ_STAT_TRIES n), rxMode_wr (Reg.CR_STAT_PHASE_LOCK n)]
    rfl

theorem carrierReady_carrier (h : s.acq n = acqCarrier) : s.carrierReady n =
    ((((s.wr (Reg.CR_STAT_PHASE_LOCK n) 1).wr (Reg.ACQ_STAT_TRIES n) 0).setRxe n { s.rxe n with keptFails := 0, onKept := false }).wr
      (Reg.ACQ_TIME_LAST_US n) (s.acqTime n)).takeScale n (s.rxMode n).1 (s.rxMode n).2.2 := by
  rw [Dev.carrierReady, if_pos h]

/-- The fields that the entry to LOCKED writes. -/
def readyFields (n : Nat) : List Field :=
  [Reg.CR_STAT_PHASE_LOCK n, Reg.ACQ_STAT_TRIES n, Reg.ACQ_TIME_LAST_US n, Reg.DEMAP_STAT_SCALE n, Reg.DEMAP_STAT_PRIOR n]

theorem carrierReady_preserves {P : Dev → Prop} (hrx : ∀ x y, P x → P (x.setRxe n y)) (hwr : ∀ f ∈ readyFields n, ∀ x v, P x → P (x.wr f v))
    (hs : P s) : P (s.carrierReady n) := by
  have hset := hrx _ { s.rxe n with keptFails := 0, onKept := false }
    (hwr (Reg.ACQ_STAT_TRIES n) (by simp [readyFields]) _ 0 (hwr (Reg.CR_STAT_PHASE_LOCK n) (by simp [readyFields]) _ 1 hs))
  have hscale {x : Dev} (hx : P x) : P (x.takeScale n (s.rxMode n).1 (s.rxMode n).2.2) := by
    rw [Dev.takeScale, Dev.wrB]
    exact hwr _ (by simp [readyFields]) _ _ (hwr _ (by simp [readyFields]) _ _ hx)
  rw [Dev.carrierReady]
  split
  · exact hscale (hwr _ (by simp [readyFields]) _ _ hset)
  · exact hscale hset

theorem readyFields_apart (n : Nat) : ∀ f ∈ readyFields n, f.Apart (Reg.ACQ_STAT_STATE n) := by
  simp only [readyFields, List.forall_mem_cons, List.not_mem_nil, false_implies, implies_true, and_true, Field.Apart, regCell]
  omega

theorem readyFields_acquired (n : Nat) : ∀ f ∈ readyFields n, f ∈ acquiredFields n := by
  simp [readyFields, acquiredFields]

theorem acq_carrierReady : (s.carrierReady n).acq n = s.acq n :=
  carrierReady_preserves (P := fun x => x.acq n = s.acq n) (fun _ _ h => h)
    (fun f hf x v h => (rd_wr_disjoint x f _ v (readyFields_apart n f hf)).trans h) rfl

theorem Dev.AlignKept.carrierReady : Dev.AlignKept n s (s.carrierReady n) :=
  carrierReady_preserves (fun _ _ h => h.setRxe n _)
    (fun f hf _ v h => h.acquired f v (readyFields_acquired n f hf)) (Dev.AlignKept.refl n s)

theorem Dev.Quiet.carrierReady {d : Dev} (h : Dev.Quiet d s) : Dev.Quiet d (s.carrierReady n) :=
  carrierReady_preserves (fun _ _ h => h.setRxe n _) (fun _ _ _ _ h => h.wr _ _) h

theorem rxe_wr (x : Dev) (f : Field) (v m : Nat) : (x.wr f v).rxe m = x.rxe m := rfl

theorem outside_carrierReady : ((s.carrierReady n).rxe n).outside = (s.rxe n).outside := by
  rw [Dev.carrierReady, Dev.takeScale, Dev.wrB, rxe_wr, rxe_wr]
  split
  · rw [rxe_wr, rxe_setRxe]
    rfl
  · rw [rxe_setRxe]
    rfl

/-- The engine's own record of a lock won from CARRIER_LOCK at a clock. -/
def Dev.lockNoted (n now : Nat) (s : Dev) : Dev :=
  s.setRxe n { s.rxe n with lockedAt := now, fromFast := false, lost := false }

theorem acqGo_won (h : s.acq n = acqCarrier) : s.acqGo n acqLocked = (s.acqEntered n acqCarrier acqLocked).lockChanged n true false := by
  delta Dev.acqGo
  extract_lets w r d1 d2 d3
  have hw : w = acqCarrier := h
  have h3 : d3 = s.acqEntered n acqCarrier acqLocked := by
    simp only [d3, d2, d1, r, hw]
    exact if_neg fun c => absurd c.1 (by decide)
  rw [hw, h3, if_neg (by decide), decide_eq_true rfl, decide_eq_false (by decide)]

/-- The first state of the search: ALIGN_STAT as the entries of Table 5.5 leave it. -/
theorem alGo_search (hn : n < 8) (ha : s.als n = alIdle) (hf : s.frs n = frIdle) (p : Prop) [Decidable p] :
    Dev.Kin [] ((s.wr (Reg.ALIGN_STAT_STATE n) (if p then alDm else alCw)).wr (Reg.ALIGN_STAT_TWIN_SKEW n)
      (if p then s.rd (Reg.ALIGN_STAT_TWIN_SKEW n) else 0)) (s.alGo n (if p then alDm else alCw)) := by
  have hne : s.als n ≠ alAligned := by rw [ha]; decide
  by_cases hp : p
  · have hskew : s.rd (Reg.ALIGN_STAT_TWIN_SKEW n) = (s.wr (Reg.ALIGN_STAT_STATE n) alDm).rd (Reg.ALIGN_STAT_TWIN_SKEW n) :=
      (rd_wr_disjoint _ _ _ _ (.inr (.inr (by simp)))).symm
    rw [if_pos hp, if_pos hp, alGo_outside hn hne (by decide) hf, if_neg (by decide), hskew]
    exact Dev.Kin.wr_self _ (by simp only [regCell]; omega)
  · rw [if_neg hp, if_neg hp, alGo_outside hn hne (by decide) hf, if_pos rfl]
    exact Dev.Kin.refl _

/-- The engine's own record of a lock won, and the search started, as the registers show it. -/
def Dev.searchStarted (n now const skew : Nat) (s : Dev) : Dev :=
  ((((s.lockNoted n now).chordClear n).wr (Reg.ALIGN_STAT_STATE n) (if const = 2 then alDm else alCw)).wr (Reg.ALIGN_STAT_TWIN_SKEW n)
    (if const = 2 then skew else 0)).settleCourses

/-- Lock won outside twin mode with both aligners idle: E-1n.16, and the chord search starts. -/
theorem lockChanged_won (hn : n < 8) (ht : s.rxTwin n = false) (hl : s.rxLocked n = true) (ha : s.als n = alIdle) (hf : s.frs n = frIdle) :
    Dev.Kin [(10 + n, 16)] (s.searchStarted n s.clock (s.rd (Reg.RX_MODE_CONST n)) (s.rd (Reg.ALIGN_STAT_TWIN_SKEW n))) (s.lockChanged n true false) := by
  have hout : ((s.lockNoted n s.clock).rxe n).outside = (s.rxe n).outside := outside_setRxe rfl
  have hlocked : (s.lockNoted n s.clock).rxLocked n = true := by
    have hfault : ((s.lockNoted n s.clock).rxe n).fault = (s.rxe n).fault := congrArg Prod.fst hout
    rw [Dev.rxLocked, hfault]
    exact hl
  have hk := (Dev.Kin.raise (s.lockNoted n s.clock) (10 + n) 16).alFollowPair n
  rw [alFollowPair_won (s := s.lockNoted n s.clock) ht hlocked ha] at hk
  exact (alGo_search hn (s := (s.lockNoted n s.clock).chordClear n) ha hf (s.rd (Reg.RX_MODE_CONST n) = 2)).settleCourses.trans_nil hk

theorem Dev.Quiet.searchStarted {d : Dev} (h : Dev.Quiet d s) (now const skew : Nat) : Dev.Quiet d (s.searchStarted n now const skew) :=
  ((((h.setRxe n _).setRxe n _).wr _ _).wr _ _).settleCourses

/-- The carrier locked from CARRIER_LOCK outside twin mode. -/
theorem carrierLock_alone (hn : n < 8) (ht : s.rxTwin n = false) (ha : s.acq n = acqCarrier) (hal : s.als n = alIdle) (hf : s.frs n = frIdle)
    (hw : (s.rxe n).fault = false) (hd : s.dieLost.getLsbD (n / 2) = false) :
    Dev.Kin [(10 + n, 16)] (((s.carrierReady n).acqEntered n acqCarrier acqLocked).searchStarted n s.clock (s.rd (Reg.RX_MODE_CONST n))
      (s.rd (Reg.ALIGN_STAT_TWIN_SKEW n))) (s.carrierLock n) := by
  have hkept := (Dev.AlignKept.carrierReady (n := n) (s := s)).acqEntered hn acqCarrier acqLocked
  have hout : (((s.carrierReady n).acqEntered n acqCarrier acqLocked).rxe n).outside = (s.rxe n).outside := outside_acqEntered _ _ outside_carrierReady
  have hacq : ((s.carrierReady n).acqEntered n acqCarrier acqLocked).acq n = acqLocked := acq_acqEntered _ (by decide)
  have hlocked : ((s.carrierReady n).acqEntered n acqCarrier acqLocked).rxLocked n = true := by
    have hfault : (((s.carrierReady n).acqEntered n acqCarrier acqLocked).rxe n).fault = false := (congrArg Prod.fst hout).trans hw
    rw [Dev.rxLocked, ← Dev.acq, hacq, hfault, hkept.dieLost, hd]
    rfl
  have hwon := lockChanged_won hn (hkept.rxTwin_eq.trans ht) hlocked (hkept.als_eq.trans hal) (hkept.frs_eq.trans hf)
  rw [hkept.clock, hkept.const_eq, hkept.twinSkew_eq] at hwon
  rw [carrierLock_ready (.inl ha), acqGo_won (acq_carrierReady.trans ha)]
  exact hwon

end Won

/-! ### Lock lost while the chord code is searched (Table 4.6) -/

/-- Lock lost outside twin mode: the cause shown and counted, the state entered, the twin phase aid off, and the chord aligner in IDLE. -/
def Dev.lockLost (n st cause : Nat) (s : Dev) : Dev :=
  ((((fun x : Dev => x.setRxe n { x.rxe n with fromFast := false, holdAt := s.clock, aid := false, winLocked := false })
    (((s.wr (Reg.ACQ_STAT_LAST_FAIL n) cause).bump (Reg.ACQ_FAIL_CNT n)).acqEntered n acqLocked st)).wr (Reg.CR_STAT_TWIN_AID_ACTIVE n) 0).wr
      (Reg.ALIGN_STAT_STATE n) alIdle).settleCourses

/-- An engine outside twin mode that searches the chord code with no frame found and no Drone finger engaged. -/
structure Dev.SearchesAlone (n : Nat) (s : Dev) : Prop where
  /-- twin mode -/
  twin : s.rxTwin n = false
  /-- the Drone fingers -/
  fingers : s.drone.fingers = []
  /-- the chord aligner -/
  chord : s.als n = alSc ∨ s.als n = alRetry
  /-- the frame aligner -/
  frame : s.frs n = frIdle

theorem Dev.SearchesAlone.kept {n : Nat} {d e : Dev} (h : d.SearchesAlone n) (k : Dev.AlignKept n d e) : e.SearchesAlone n :=
  ⟨k.rxTwin_eq.trans h.twin, (congrArg Drone.fingers k.drone).trans h.fingers, by rw [k.als_eq]; exact h.chord, k.frs_eq.trans h.frame⟩

section Lost
variable {n st cause : Nat} {s : Dev}

theorem acqGo_lost (hn : n < 8) (h : s.acq n = acqLocked) (hst : st ≠ acqLocked) (ht : s.rxTwin n = false) :
    s.acqGo n st = (s.acqEntered n acqLocked st).lockChanged n false false := by
  delta Dev.acqGo
  extract_lets w r d1 d2 d3
  have hw : w = acqLocked := h
  have h2 : d2 = s.acqEntered n acqLocked st := by
    simp only [d2, d1, r, hw]
    rfl
  have h3 : d3 = s.acqEntered n acqLocked st := by
    simp only [d3, h2]
    have htwin := ((Dev.AlignKept.refl n s).acqEntered hn acqLocked st).rxTwin_eq.trans ht
    exact if_neg fun c => by simp [Dev.takesPartnerF, htwin] at c
  rw [hw, h3, if_neg (by simp [hst]), decide_eq_false hst]
  rfl

/-- Lock lost by an engine that searches alone: E-1n.16, and the chord aligner goes to IDLE. -/
theorem lockChanged_lost (hn : n < 8) (ha : s.SearchesAlone n) (hl : s.acq n ≠ acqLocked) :
    Dev.Kin [(10 + n, 16)] ((((fun x : Dev => x.setRxe n { x.rxe n with fromFast := false, holdAt := s.clock, aid := false, winLocked := false }) s).wr
      (Reg.CR_STAT_TWIN_AID_ACTIVE n) 0).wr (Reg.ALIGN_STAT_STATE n) alIdle).settleCourses (s.lockChanged n false false) := by
  have hx : (s.setRxe n { s.rxe n with fromFast := false, holdAt := s.clock, aid := false, winLocked := false }).SearchesAlone n :=
    ⟨ha.twin, ha.fingers, ha.chord, ha.frame⟩
  have hw := hx.kept ((Dev.AlignKept.refl _ _).acquired (Reg.CR_STAT_TWIN_AID_ACTIVE n) 0)
  have hk := (((Dev.Kin.raise (s.setRxe n { s.rxe n with fromFast := false, holdAt := s.clock, aid := false, winLocked := false }) (10 + n) 16).write
    (Reg.CR_STAT_TWIN_AID_ACTIVE n) (rfl : 0 = 0)).abandonPath n).alFollowPair n
  rw [abandonPath_none hw.fingers, alFollowPair_lost hn hw.twin (by rwa [Dev.acq, rd_wr_ne _ _ _ _ (by simp only [regCell]; omega)]) hw.chord hw.frame] at hk
  exact hk

end Lost
end Sys2Proof.Machine
end

section
namespace Sys2Proof.Machine

/-! ### O7: lock lost -/

theorem Dev.Quiet.lockLost {d e : Dev} (h : Dev.Quiet d e) (n st cause : Nat) : Dev.Quiet d (e.lockLost n st cause) :=
  ((((((h.wr _ _).wr _ _).acqEntered n _ _).setRxe n _).wr _ _).wr _ _).settleCourses

theorem Dev.Kin.lockLost {a : List (Nat × Nat)} {d e : Dev} (h : Dev.Kin a d e) (n st cause : Nat) :
    Dev.Kin a (d.lockLost n st cause) (e.lockLost n st cause) := by
  have hx := ((h.write (Reg.ACQ_STAT_LAST_FAIL n) (rfl : cause = cause)).bumpBoth (Reg.ACQ_FAIL_CNT n)).acqEntered n acqLocked st
  exact (((hx.setRxe n (by rw [hx.rxe_eq, h.clock_eq])).write _ rfl).write _ rfl).settleCourses

section Lost
variable {n : Nat} {s : Dev} (hn : n < 8) (ha : s.acq n = acqLocked)

/-- A field of the acquisition that neither the courses nor the aligners write is as the entry to the state leaves it. -/
theorem rd_lockLost (st cause : Nat) {g : Field} (hg : ¬ lightCell n g.cell) (h1 : g.cell ≠ (Reg.ALIGN_STAT_STATE n).cell)
    (h2 : g.cell ≠ (Reg.CR_STAT_TWIN_AID_ACTIVE n).cell) :
    (s.lockLost n st cause).rd g = (((s.wr (Reg.ACQ_STAT_LAST_FAIL n) cause).bump (Reg.ACQ_FAIL_CNT n)).acqEntered n acqLocked st).rd g := by
  rw [Dev.lockLost, (Dev.LightKept.refl n _).settleCourses.rd hg, rd_wr_ne _ _ _ _ h1, rd_wr_ne _ _ _ _ h2]
  rfl

include hn

theorem acq_lockLost {st : Nat} (cause : Nat) (hst : st < 16) : (s.lockLost n st cause).acq n = st := by
  have h := rd_lockLost (n := n) (s := s) st cause (g := Reg.ACQ_STAT_STATE n) (by simp only [lightCell, courseCell, overflowCell, regCell, tableCell]; omega)
    (by simp only [regCell]; omega) (by simp only [regCell]; omega)
  exact h.trans (acq_acqEntered _ hst)

theorem trLock_lockLost (st cause : Nat) : (s.lockLost n st cause).on (Reg.RX_RESAMP_STAT_TR_LOCK n) = s.on (Reg.RX_RESAMP_STAT_TR_LOCK n) := by
  have hwr {x : Dev} {f : Field} {v : Nat} (hf : (Reg.RX_RESAMP_STAT_TR_LOCK n).cell ≠ f.cell) :
      (x.wr f v).on (Reg.RX_RESAMP_STAT_TR_LOCK n) = x.on (Reg.RX_RESAMP_STAT_TR_LOCK n) := congrArg (fun k => decide (k ≠ 0)) (rd_wr_ne _ _ _ _ hf)
  rw [Dev.on, rd_lockLost st cause (by simp only [lightCell, courseCell, overflowCell, regCell, tableCell]; omega) (by simp only [regCell]; omega)
    (by simp only [regCell]; omega), ← Dev.on, trLock_acqEntered, Dev.bump, Dev.bumpBy, hwr (by simp only [regCell]; omega), hwr (by simp only [regCell]; omega)]

include ha

/-- Lock lost by an engine that searches alone: E-1n.16 and E-1n.17 (R126, Table 4.6). -/
theorem acqLose_alone {st : Nat} (cause : Nat) (hs : s.SearchesAlone n) (hst : st < 16) (hne : st ≠ acqLocked) :
    Dev.Kin [(10 + n, 16), (10 + n, 17)] (s.lockLost n st cause) (s.acqLose n st cause) := by
  have hkept := ((Dev.AlignKept.refl n s).acquired (Reg.ACQ_STAT_LAST_FAIL n) cause).acquired (Reg.ACQ_FAIL_CNT n)
    (satAdd 32 ((s.wr (Reg.ACQ_STAT_LAST_FAIL n) cause).rd (Reg.ACQ_FAIL_CNT n)) 1)
  have hlost := hkept.acqEntered hn acqLocked st
  have hacq : ((s.wr (Reg.ACQ_STAT_LAST_FAIL n) cause).bump (Reg.ACQ_FAIL_CNT n)).acq n = acqLocked := by
    rw [Dev.acq, Dev.bump, Dev.bumpBy, rd_wr_ne _ _ _ _ (by simp only [regCell]; omega), rd_wr_disjoint _ _ _ _ (.inr (.inl (by simp)))]
    exact ha
  have hk := lockChanged_lost hn (hs.kept hlost) (by rw [acq_acqEntered _ hst]; exact hne)
  rw [hlost.clock] at hk
  rw [Dev.acqLose, acqGo_lost hn hacq hne (hs.kept hkept).twin]
  exact hk.trans (Dev.Kin.raise _ _ _)

end Lost

/-! ### O7: the degenerate equaliser (R107) -/

/-- The degeneracy counted, and the fingers related anew. -/
def Dev.degenerated (n : Nat) (s : Dev) : Dev :=
  (s.bump (Reg.EQ_DEGEN_CNT n)).setRxe n { s.rxe n with relatedAt := some s.clock }

section Degenerate
variable {n : Nat} {s : Dev}

/-- The same with E-1n.21, as the command leaves it. -/
def Dev.degeneracyTold (n : Nat) (s : Dev) : Dev :=
  ((s.bump (Reg.EQ_DEGEN_CNT n)).raise (10 + n) 21).setRxe n { s.rxe n with relatedAt := some s.clock }

theorem degeneracyTold_kin : Dev.Kin [(10 + n, 21)] (s.degenerated n) (s.degeneracyTold n) :=
  (Dev.Kin.raise _ _ _).setRxe n rfl

theorem acq_degenerated : (s.degenerated n).acq n = s.acq n :=
  rd_wr_ne s _ _ _ (by simp only [regCell]; omega)

theorem acq_degeneracyTold : (s.degeneracyTold n).acq n = s.acq n :=
  (degeneracyTold_kin.acq_eq n).trans acq_degenerated

theorem not_overflowCell_alignFields (n : Nat) : ∀ g ∈ alignFields n, ¬ overflowCell g.cell := by
  simp only [alignFields, List.forall_mem_cons, List.not_mem_nil, false_implies, implies_true, and_true, overflowCell, regCell]
  omega

theorem Dev.AlignKept.degenerated : Dev.AlignKept n s (s.degenerated n) :=
  ((Dev.AlignKept.refl n s).acquired (Reg.EQ_DEGEN_CNT n) _).setRxe n _

theorem Dev.Quiet.degenerated : Dev.Quiet s (s.degenerated n) :=
  ((Dev.Quiet.refl s).wr _ _).setRxe n _

theorem Dev.Quiet.degeneracyTold : Dev.Quiet s (s.degeneracyTold n) :=
  (((Dev.Quiet.refl s).wr _ _).raise _ _).setRxe n _

theorem trLock_degenerated : (s.degenerated n).on (Reg.RX_RESAMP_STAT_TR_LOCK n) = s.on (Reg.RX_RESAMP_STAT_TR_LOCK n) :=
  congrArg (fun k => decide (k ≠ 0)) (rd_wr_ne s _ _ _ (by simp only [regCell]; omega))

/-- The aligners of a kin device stand as those of the device. -/
theorem Dev.AlignKept.kin {a : List (Nat × Nat)} {d e f : Dev} (h : Dev.AlignKept n d e) (k : Dev.Kin a e f) : Dev.AlignKept n d f where
  fields g hg := (k.toLike.rd (not_overflowCell_alignFields n g hg)).trans (h.fields g hg)
  clock := k.clock_eq.trans h.clock
  dieLost := (k.toLike.part (fun x => x.dieLost) fun _ => rfl).trans h.dieLost
  drone := (k.toLike.part (fun x => x.drone) fun _ => rfl).trans h.drone

/-- A degenerate equaliser of an engine that searches alone: lock lost with cause 11, and EQ_CONVERGE holds while timing is recovered. -/
theorem degenerate_alone (hn : n < 8) (hs : s.SearchesAlone n) (ha : s.acq n = acqLocked) (hl : s.on (Reg.RX_RESAMP_STAT_TR_LOCK n) = true) :
    Dev.Kin [(10 + n, 21), (10 + n, 16), (10 + n, 17)] ((s.degenerated n).lockLost n acqConverge 11)
      (((s.degeneracyTold n).acqLose n acqConverge 11).acqSettle n) := by
  have htold : (s.degeneracyTold n).SearchesAlone n := hs.kept (Dev.AlignKept.degenerated.kin degeneracyTold_kin)
  have hlost := ((degeneracyTold_kin (s := s)).lockLost n acqConverge 11).trans
    (acqLose_alone hn (acq_degeneracyTold.trans ha) 11 htold (by decide) (by decide))
  have hrests : ((s.degenerated n).lockLost n acqConverge 11).AcqRests n :=
    .inr (.inr (.inr (.inr (.inr (.inr ⟨acq_lockLost hn 11 (by decide), (trLock_lockLost hn _ _).trans (trLock_degenerated.trans hl)⟩)))))
  rw [acqSettle_rests (hlost.acqRests hrests)]
  exact hlost

/-- EQ_DEGENERACY. -/
def Dev.degeneracy (n : Nat) (s : Dev) : Dev :=
  if s.acq n ≥ acqConverge ∧ s.acq n ≤ acqLocked then
    if (s.degeneracyTold n).acq n = acqLocked then ((s.degeneracyTold n).acqLose n acqConverge 11).acqSettle n else s.degeneracyTold n
  else s

/-- In LOCKED, lock is lost. -/
theorem degeneracy_locked (ha : s.acq n = acqLocked) : s.degeneracy n = ((s.degeneracyTold n).acqLose n acqConverge 11).acqSettle n := by
  rw [Dev.degeneracy, if_pos (by rw [ha]; decide), if_pos (acq_degeneracyTold.trans ha)]

/-- From EQ_CONVERGE on, before LOCKED, nothing else follows. -/
theorem degeneracy_before (h1 : acqConverge ≤ s.acq n) (h2 : s.acq n < acqLocked) : s.degeneracy n = s.degeneracyTold n := by
  rw [Dev.degeneracy, if_pos ⟨h1, h2.le⟩, if_neg (by rw [acq_degeneracyTold]; exact h2.ne)]

end Degenerate

/-! ### O7: a frequency out of range (R115) -/

/-- What FREQ_OUT_OF_RANGE does in LOCKED. -/
theorem freqOut_locked {n : Nat} {o : Int} {s : Dev} (ha : s.acq n = acqLocked) (ho : 52000 < o.natAbs) :
    (if s.acq n = acqLocked ∧ 52000 < o.natAbs then
      if (s.acqLose n acqFreq 13).takesPartnerF n then s.acqLose n acqFreq 13 else (s.acqLose n acqFreq 13).wrS (Reg.CR_FREQ_OFFSET n) o
    else s) =
    if (s.acqLose n acqFreq 13).takesPartnerF n then s.acqLose n acqFreq 13 else (s.acqLose n acqFreq 13).wrS (Reg.CR_FREQ_OFFSET n) o :=
  if_pos ⟨ha, ho⟩

/-! ### O7: BACKOFF, WAIT_SIGNAL and the writes of ACQ_CTRL -/

section Waits
variable {n : Nat} {s : Dev}

/-- No transition follows in WAIT_SIGNAL without a signal. -/
theorem acqSettle_waits (h : s.acq n = acqWaitSignal) (hp : (s.rxe n).present = false) : s.acqSettle n = s := by
  have hnext : s.acqNext n = s := by simp [Dev.acqNext, h, hp]
  rw [Dev.acqSettle, hnext, hnext, hnext, hnext, hnext]

/-- WAIT_SIGNAL entered without a signal. -/
theorem acqGo_waits {was : Nat} (h : s.acq n = was) (hw : was ≠ acqLocked) (hp : (s.rxe n).present = false) :
    (s.acqGo n acqWaitSignal).acqSettle n = s.acqEntered n was acqWaitSignal := by
  have hpresent : ((s.acqEntered n was acqWaitSignal).rxe n).present = false := (congrArg Prod.snd (outside_acqEntered was acqWaitSignal rfl)).trans hp
  rw [acqGo_plain h hw (by decide) (by decide), acqSettle_waits (acq_acqEntered _ (by decide)) hpresent]

theorem backoffEnd_again (h : s.acq n = acqBackoff)
    (ht : s.rd (Reg.ACQ_CTRL_MAX_TRIES n) = 0 ∨ s.rd (Reg.ACQ_STAT_TRIES n) < s.rd (Reg.ACQ_CTRL_MAX_TRIES n)) :
    s.backoffEnd n = (s.acqGo n acqWaitSignal).acqSettle n := by
  rw [Dev.backoffEnd, if_pos h, if_pos ht]

theorem backoffEnd_failed (h : s.acq n = acqBackoff) (h0 : 0 < s.rd (Reg.ACQ_CTRL_MAX_TRIES n))
    (ht : s.rd (Reg.ACQ_CTRL_MAX_TRIES n) ≤ s.rd (Reg.ACQ_STAT_TRIES n)) :
    s.backoffEnd n = (s.acqEntered n acqBackoff acqFailed).raise (10 + n) 18 := by
  rw [Dev.backoffEnd, if_pos h, if_neg (by omega), acqGo_plain h (by decide) (by decide) (by decide)]

/-- What the command bits of a word written to ACQ_CTRL do. -/
def Dev.acqBits (n : Nat) (v : Word) (s : Dev) : Dev :=
  let s := if decide (n % 2 = 1) && v.getLsbD 9 then s.viol (linePage n 0x14) else s
  let s := if v.getLsbD 11 then s.wr (Reg.ACQ_FAIL_CNT n) 0 else s
  if v.getLsbD 10 then s.acqRetry n else s

theorem acqBits_retry {v : Word} (h9 : v.getLsbD 9 = false) (h11 : v.getLsbD 11 = false) : s.acqBits n (v ||| 0x400#32) = s.acqRetry n := by
  have hbit (k : Nat) : (v ||| 0x400#32).getLsbD k = (v.getLsbD k || (0x400#32).getLsbD k) := BitVec.getLsbD_or
  have h10 : (0x400#32).getLsbD 10 = true ∧ (0x400#32).getLsbD 9 = false ∧ (0x400#32).getLsbD 11 = false := by decide
  simp only [Dev.acqBits, hbit, h9, h11, h10, Bool.or_true, Bool.or_false, Bool.and_false, Bool.false_eq_true, if_true, if_false]

theorem acqBits_clear {v : Word} (h9 : v.getLsbD 9 = false) (h10 : v.getLsbD 10 = false) :
    s.acqBits n (v ||| 0x800#32) = s.wr (Reg.ACQ_FAIL_CNT n) 0 := by
  have hbit (k : Nat) : (v ||| 0x800#32).getLsbD k = (v.getLsbD k || (0x800#32).getLsbD k) := BitVec.getLsbD_or
  have h11 : (0x800#32).getLsbD 11 = true ∧ (0x800#32).getLsbD 9 = false ∧ (0x800#32).getLsbD 10 = false := by decide
  simp only [Dev.acqBits, hbit, h9, h10, h11, Bool.or_true, Bool.or_false, Bool.and_false, Bool.false_eq_true, if_true, if_false]

theorem acqRetry_failed (h : s.acq n = acqFailed) (hp : (s.rxe n).present = false) :
    s.acqRetry n = (s.wr (Reg.ACQ_STAT_TRIES n) 0).acqEntered n acqFailed acqWaitSignal := by
  have hacq : (s.wr (Reg.ACQ_STAT_TRIES n) 0).acq n = acqFailed := (rd_wr_disjoint _ _ _ _ (.inr (.inl (by simp)))).trans h
  rw [Dev.acqRetry, if_pos h, acqGo_waits hacq (by decide) hp]

end Waits

/-- The bits of ACQ_CTRL whose effect its command has itself (Table 4.12). -/
abbrev acqOwn (n : Nat) : Word :=
  if n % 2 = 1 then 0xE00 else 0xC00

/-- The device with a word written to ACQ_CTRL, before its command bits act. -/
abbrev Dev.ctrlWritten (n : Nat) (v : Word) (s : Dev) : Dev :=
  s.writeWord (linePage n 0x14) 0x040 (acqOwn n) v

theorem acqCtrl_bits (n : Nat) (v : Word) (s : Dev) : Dev.acqCtrl n v s = s.hostWrite (linePage n 0x14) 0x040 (acqOwn n) v (Dev.acqBits n v) := by
  simp only [Dev.acqCtrl, acqOwn, decide_eq_true_eq]
  rfl

theorem acq_ctrlWritten (n : Nat) (v : Word) (s : Dev) : (s.ctrlWritten n v).acq n = s.acq n :=
  congrArg (getBits · _ _) (writeWord_word_ne s _ _ (by simp only [regCell, linePage]; omega))

theorem rxe_ctrlWritten (n m : Nat) (v : Word) (s : Dev) : (s.ctrlWritten n v).rxe m = s.rxe m :=
  writeWord_part (fun x => x.rxe m) (fun _ _ _ _ _ => rfl) _ _ _ _ _

/-! ### O7: the clauses put together -/

/-- A command that takes the device to one kin to a quiet one settles on the quiet one. -/
theorem settles_kin {evs : List (Nat × Nat)} {f : Dev → Dev} {d e : Dev} {s : State} (hs : s.Inv) (hf : f s.dev = e) (h : Dev.Kin evs d e)
    (hq : Dev.Quiet s.dev d) : ∃ t, s.run f = .next t ∧ State.Settles evs d s t :=
  settles_quiet hs (hf ▸ h.toLike) hq

section Commands
variable {n : Fin 8} {s : State} (hs : s.Inv)
include hs

/-- A write of ACQ_CTRL settles on what its command bits make of the device with the word written. -/
theorem settles_acqCtrl {v : Word} {d : Dev} (hl : s.dev.pageLive (linePage n 0x14) = true) (ht : s.dev.pageInTest (linePage n 0x14) = false)
    (h : ∀ e, Dev.Kin [] (s.dev.ctrlWritten n v) e → Dev.Kin [] d (e.acqBits n v)) (hq : Dev.Quiet (s.dev.ctrlWritten n v) d) :
    ∃ t, s.run (Dev.acqCtrl n v) = .next t ∧ State.Settles [] (d.oneViol (linePage n 0x14) (s.dev.hdr (linePage n 0x14)).viol) s t := by
  have hk := hostWrite_kin hl ht (not_overflowCell_linePage n 0x14 0x040) h
  rw [← acqCtrl_bits] at hk
  exact settles_unladen hs hk.toLike ((((unladen_of_inv hs).quiet (Dev.Quiet.writeWord _ _ _ _ _)).quiet hq).quiet ((Dev.Quiet.refl _).oneViol _ _))

/-- The same where the command bits count no violation. -/
theorem settles_acqCtrl_clean {v : Word} {d : Dev} (hl : s.dev.pageLive (linePage n 0x14) = true) (ht : s.dev.pageInTest (linePage n 0x14) = false)
    (h : ∀ e, Dev.Kin [] (s.dev.ctrlWritten n v) e → Dev.Kin [] d (e.acqBits n v)) (hq : Dev.Quiet (s.dev.ctrlWritten n v) d)
    (hp : Dev.PartnerKept n (s.dev.ctrlWritten n v) d) : ∃ t, s.run (Dev.acqCtrl n v) = .next t ∧ State.Settles [] d s t := by
  have hset := settles_acqCtrl hs hl ht h hq
  have hviol : (d.hdr (linePage n 0x14)).viol ≤ (s.dev.hdr (linePage n 0x14)).viol + 1 := by
    rw [Dev.hdr, hp.pages]
    exact viol_writeWord_le _ _ _ _ _
  rwa [oneViol_of_le _ hviol] at hset

end Commands

/-- Settles O7: an engine that searches alone loses its lock as `Dev.lockLost` says, and one that locks alone starts the chord search; in every other
state the command comes to the loss or the entry that its clause names. -/
theorem acquisitionLockAndLosses : Obligations.AcquisitionLockAndLosses := by
  unfold Obligations.AcquisitionLockAndLosses
  refine ⟨fun n s hs ht ha hal hf hw hd => ?locks, fun n f s hs ht hg hal hf ha hlt => ?pilotAlone, fun n o s hs ht hg hal hf ha ho => ?freqAlone,
    fun n s hs ht hg hal hf ha hl => ?degenerateAlone, fun n s hs h1 h2 => ?degenerateBefore, fun n s hs ha hk => ?holdFresh,
    fun n s hs ha ht hp => ?backoffWaits, fun n s hs ha h0 ht => ?backoffFails, fun n v s hs hl ht ha hp h11 h9 => ?retry,
    fun n v s hs hl ht ha h11 h9 => ?retryElsewhere, fun n v s hs hl ht h10 h9 => ?clear, fun n s hs ha => ?locksAll, fun n f s hs ha => ?pilot,
    fun n o s hs ha ho => ?freq, fun n s hs ha => ?degenerate, fun n s hs ha => ?degenerateElsewhere, fun n s hs => ?hold,
    fun n s hs ha ht => ?backoff, fun n f s hs ha => ?pilotElsewhere⟩
  case locks =>
    have hk := carrierLock_alone n.isLt ht ha hal hf hw hd
    have hq := (((Dev.Quiet.refl s.dev).carrierReady (n := n)).acqEntered n acqCarrier acqLocked).searchStarted (n := n) s.dev.clock (s.dev.rd (Reg.RX_MODE_CONST n))
      (s.dev.rd (Reg.ALIGN_STAT_TWIN_SKEW n))
    rw [carrierReady_carrier ha] at hk hq
    exact settles_quiet hs hk.toLike hq
  case pilotAlone =>
    exact settles_kin hs (if_pos ⟨ha, hlt⟩) ((acqLose_alone n.isLt ha 12 ⟨ht, hg, hal, hf⟩ (by decide) (by decide)).write _ rfl)
      (((Dev.Quiet.refl _).lockLost n acqPilot 12).wr _ _)
  case freqAlone =>
    have hlost := acqLose_alone n.isLt ha (st := acqFreq) 13 ⟨ht, hg, hal, hf⟩ (by decide) (by decide)
    have hpartner : (s.dev.acqLose n acqFreq 13).takesPartnerF n = false := by
      rw [((Dev.PartnerKept.refl n s.dev).acqLose n.isLt acqFreq 13).takesPartnerF_eq n.isLt]
      simp [Dev.takesPartnerF, ht]
    exact settles_kin hs ((freqOut_locked ha ho).trans (if_neg (by simp [hpartner]))) (hlost.writeS _ rfl) (((Dev.Quiet.refl _).lockLost n acqFreq 13).wr _ _)
  case degenerateAlone =>
    exact settles_kin hs (degeneracy_locked ha) (degenerate_alone n.isLt ⟨ht, hg, hal, hf⟩ ha hl) (Dev.Quiet.degenerated.lockLost n acqConverge 11)
  case degenerateBefore =>
    exact settles_kin hs (degeneracy_before h1 h2) degeneracyTold_kin Dev.Quiet.degenerated
  case holdFresh =>
    have hends := acqBackoffFor_fresh (cause := 8) hk
    rw [acqGo_plain ((acq_attemptEnds n 8 s.dev).trans ha) (by decide) (by decide) (by decide)] at hends
    exact settles_kin hs ((if_pos ha).trans hends) (Dev.Kin.raise _ _ _) (((Dev.Quiet.refl _).attemptEnds n 8).acqEntered n acqHold acqBackoff)
  case backoffWaits =>
    exact settles_kin hs ((backoffEnd_again ha ht).trans (acqGo_waits ha (by decide) hp)) (Dev.Kin.refl _) ((Dev.Quiet.refl _).acqEntered n _ _)
  case backoffFails =>
    exact settles_kin hs (backoffEnd_failed ha h0 ht) (Dev.Kin.raise _ _ _) ((Dev.Quiet.refl _).acqEntered n _ _)
  case retry =>
    have hw := ((Dev.Quiet.refl (s.dev.ctrlWritten n (v ||| 0x400))).wr (Reg.ACQ_STAT_TRIES n) 0).acqEntered n acqFailed acqWaitSignal
    have hp' := ((Dev.PartnerKept.refl n (s.dev.ctrlWritten n (v ||| 0x400))).wr n.isLt (Reg.ACQ_STAT_TRIES n) 0).acqEntered n.isLt acqFailed acqWaitSignal
    refine settles_acqCtrl_clean hs hl ht (fun e he => ?_) hw hp'
    rw [acqBits_retry h9 h11, acqRetry_failed ((he.acq_eq n).trans ((acq_ctrlWritten _ _ _).trans ha)) (by rw [he.rxe_eq, rxe_ctrlWritten, hp])]
    exact (he.write _ rfl).acqEntered n _ _
  case retryElsewhere =>
    refine settles_acqCtrl hs hl ht (fun e he => ?_) ((Dev.Quiet.refl _).map (fun _ => rfl) (fun _ => rfl) (fun _ => rfl) fun _ => rfl)
    have hacq : e.acq n ≠ acqFailed := by rwa [he.acq_eq, acq_ctrlWritten]
    rw [acqBits_retry h9 h11, Dev.acqRetry, if_neg hacq]
    exact he.viol _
  case clear =>
    refine settles_acqCtrl_clean hs hl ht (fun e he => ?_) ((Dev.Quiet.refl _).wr _ _) ((Dev.PartnerKept.refl n _).wr n.isLt _ _)
    rw [acqBits_clear h9 h10]
    exact he.write _ rfl
  case locksAll =>
    refine settles_exact hs (carrierLock_ready ha) ((unladen_of_inv hs).quiet ((Dev.Quiet.refl _).carrierReady.acqGo n _))
  case pilot =>
    refine settles_exact hs ?_ ((unladen_of_inv hs).quiet
      (ite_preserves (P := Dev.Quiet s.dev) _ (fun h => (h.acqLose n acqPilot 12).wr _ _) (Dev.Quiet.refl s.dev)))
    exact if_congr (and_iff_right ha) rfl rfl
  case freq =>
    have hpartner := ((Dev.PartnerKept.refl n s.dev).acqLose n.isLt acqFreq 13).takesPartnerF_eq n.isLt
    refine settles_exact hs ((freqOut_locked ha ho).trans (if_congr (by rw [hpartner]) rfl rfl)) ((unladen_of_inv hs).quiet ?_)
    have hlost := (Dev.Quiet.refl s.dev).acqLose n acqFreq 13
    split
    · exact hlost
    · exact hlost.wr _ _
  case degenerate =>
    exact settles_exact hs (degeneracy_locked ha) ((unladen_of_inv hs).quiet ((Dev.Quiet.degeneracyTold.acqLose n acqConverge 11).acqSettle n))
  case degenerateElsewhere =>
    refine settles_idle hs (if_neg ?_)
    omega
  case hold =>
    exact settles_exact hs rfl ((unladen_of_inv hs).quiet
      (ite_preserves (P := Dev.Quiet s.dev) _ (fun h => h.acqBackoffFor n 8) (Dev.Quiet.refl s.dev)))
  case backoff =>
    exact settles_exact hs (backoffEnd_again ha ht) ((unladen_of_inv hs).quiet (((Dev.Quiet.refl _).acqGo n _).acqSettle n))
  case pilotElsewhere => exact settles_idle hs (if_neg fun h => ha h.1)

end Sys2Proof.Machine
end

section
namespace Sys2Proof.Machine

/-! ### O8: the taps on kin devices -/

section Taps
variable {a : List (Nat × Nat)} {d e : Dev} (h : Dev.Kin a d e)
include h

/-- The taps kept where they stop, from one device to two kin ones. -/
theorem Dev.Kin.keepTaps (old : Dev) (n : Nat) : Dev.Kin a (old.keepTaps n d) (old.keepTaps n e) := by
  rw [Dev.keepTaps, Dev.keepTaps, h.tapsAdapt_eq, h.rxe_eq, h.clock_eq]
  split
  · exact h.setRxe n rfl
  · exact h

theorem Dev.Kin.tapClock_eq (n : Nat) : e.tapClock n = d.tapClock n := by
  rw [Dev.tapClock, Dev.tapClock, h.tapsAdapt_eq, h.clock_eq, h.rxe_eq]

theorem Dev.Kin.freeTap_eq (n : Nat) : e.freeTap n = d.freeTap n := by
  funext b t
  rw [Dev.freeTap, Dev.freeTap, h.tapClock_eq, h.rxe_eq]

theorem Dev.Kin.tap_eq (n : Nat) : e.tap n = d.tap n := by
  funext b t
  rw [Dev.tap, Dev.tap, Dev.tapsShifted, Dev.tapsShifted, h.tapsAtStart_eq, h.freeTap_eq, h.tapClock_eq, h.rxe_eq]

theorem Dev.Kin.freeWeight_eq (n : Nat) : e.freeWeight n = d.freeWeight n := by
  funext p j
  rw [Dev.freeWeight, Dev.freeWeight, h.tapClock_eq, h.rxe_eq]

theorem Dev.Kin.tapWord_eq (n : Nat) : e.tapWord n = d.tapWord n := by
  funext i
  rw [Dev.tapWord, Dev.tapWord, h.tap_eq, h.freeWeight_eq, h.rxe_eq, h.toLike.on (by simp only [overflowCell, regCell]; omega)]

end Taps

/-! ### O8: RESET (R106) -/

/-- The equaliser at its initial taps, and its degeneracies cleared. -/
def Dev.eqCleared (n : Nat) (s : Dev) : Dev :=
  (s.resetTaps n).wr (Reg.EQ_DEGEN_CNT n) 0

/-- The effect of RESET. -/
def Dev.eqResets (n : Nat) (s : Dev) : Dev :=
  if (s.eqCleared n).acq n = acqLocked then ((s.eqCleared n).acqGo n acqConverge).acqSettle n else s.eqCleared n

theorem eqCtrl_reset (n : Nat) {v : Word} (hv : v.getLsbD 3 = true) (s : Dev) :
    s.eqCtrl n v = s.keepTaps n (s.hostWrite (linePage n 0x10) 0x040 0x8 v fun s => s.eqResets n) := by
  simp only [Dev.eqCtrl, hv, if_true]
  rfl

/-- The device with a word written to EQ_CTRL, RESET left to its command. -/
abbrev Dev.eqWritten (n : Nat) (v : Word) (s : Dev) : Dev :=
  s.writeWord (linePage n 0x10) 0x040 0x8 v

theorem acq_eqCleared_eqWritten (n : Nat) (v : Word) (s : Dev) : ((s.eqWritten n v).eqCleared n).acq n = s.acq n := by
  have hw : (s.eqWritten n v).acq n = s.acq n := congrArg (getBits · _ _) (writeWord_word_ne s _ _ (by simp only [regCell, linePage]; omega))
  rw [Dev.eqCleared, Dev.resetTaps, Dev.acq, rd_wr_ne _ _ _ _ (by simp only [regCell]; omega), rd_wr_ne _ _ _ _ (by simp only [regCell]; omega)]
  exact hw

theorem Dev.Kin.eqResets {a : List (Nat × Nat)} {d e : Dev} (h : Dev.Kin a d e) {n : Nat} (hn : n < 8) : Dev.Kin a (d.eqResets n) (e.eqResets n) := by
  have hc : Dev.Kin a (d.eqCleared n) (e.eqCleared n) := (h.resetTaps n).write _ rfl
  rw [Dev.eqResets, Dev.eqResets, hc.acq_eq]
  split
  · exact (hc.acqGo n _).acqSettle hn
  · exact hc

theorem Dev.Quiet.eqResets {d e : Dev} (h : Dev.Quiet d e) (n : Nat) : Dev.Quiet d (e.eqResets n) := by
  have hc : Dev.Quiet d (e.eqCleared n) := ((h.setRxe n _).wr _ _).wr _ _
  rw [Dev.eqResets]
  split
  · exact (hc.acqGo n _).acqSettle n
  · exact hc

theorem Dev.PartnerKept.eqResets {n : Nat} (hn : n < 8) (d : Dev) : Dev.PartnerKept n d (d.eqResets n) := by
  have hc : Dev.PartnerKept n d (d.eqCleared n) := (((Dev.PartnerKept.refl n d).setRxe n _).wr hn _ _).wr hn _ _
  rw [Dev.eqResets]
  split
  · exact (hc.acqGo hn _).acqSettle hn
  · exact hc

/-- RESET has its effect on the device with the rest of the word written. -/
theorem settles_eqReset {n : Fin 8} {s : State} (v : Word) (hs : s.Inv) (hl : s.dev.pageLive (linePage n 0x10) = true)
    (ht : s.dev.pageInTest (linePage n 0x10) = false) :
    ∃ t, exec (.eqReset n v) s = .next t ∧ State.Settles [] (s.dev.keepTaps n ((s.dev.eqWritten n (v ||| 8#32)).eqResets n)) s t := by
  have hv : (v ||| 8#32).getLsbD 3 = true := by simp
  have hviol : (((s.dev.eqWritten n (v ||| 8#32)).eqResets n).hdr (linePage n 0x10)).viol ≤ (s.dev.hdr (linePage n 0x10)).viol + 1 := by
    rw [Dev.hdr, (Dev.PartnerKept.eqResets n.isLt _).pages]
    exact viol_writeWord_le _ _ _ _ _
  have hk := (hostWrite_kin_of_le hl ht (not_overflowCell_linePage n 0x10 0x040) (fun e he => he.eqResets n.isLt) hviol).keepTaps s.dev n
  exact settles_kin hs (eqCtrl_reset n hv s.dev) hk (((Dev.Quiet.writeWord ..).eqResets n).keepTaps s.dev n)

/-! ### O8: the decision-feedback stage (R111) -/

section Dfe
variable {n : Nat} {s : Dev}

theorem setDfe_on : s.setDfe n true =
    (if s.on (Reg.EQ_STAT_DFE_ACTIVE n) then s else s.setRxe n { s.rxe n with dfeAt := s.clock }).wr (Reg.EQ_STAT_DFE_ACTIVE n) 1 := by
  cases h : s.on (Reg.EQ_STAT_DFE_ACTIVE n) <;> simp only [Dev.setDfe, h] <;> rfl

theorem rxMode_takeScale (const entropy : Nat) : (s.takeScale n const entropy).rxMode n = s.rxMode n := by
  rw [Dev.takeScale, Dev.wrB, rxMode_wr (Reg.DEMAP_STAT_PRIOR n), rxMode_wr (Reg.DEMAP_STAT_SCALE n)]

/-- The stage switched by an ESNR, as the device shows it. -/
def Dev.dfeFollows (n esnr : Nat) (x : Dev) : Dev :=
  if x.on (Reg.EQ_CTRL_DFE_EN n) && x.on (Reg.EQ_CTRL_DFE_AUTO n) then
    (if 4 * esnr < sMin (x.rxMode n).1 (x.rxMode n).2.2 then x.wr (Reg.EQ_STAT_DFE_ACTIVE n) 0
     else if sMin (x.rxMode n).1 (x.rxMode n).2.2 + 400 ≤ 4 * esnr then
       ((if x.on (Reg.EQ_STAT_DFE_ACTIVE n) then x else x.setRxe n { x.rxe n with dfeAt := x.clock }).wr (Reg.EQ_STAT_DFE_ACTIVE n) 1)
     else x)
  else x.setDfe n (x.on (Reg.EQ_CTRL_DFE_EN n))

theorem dfeSwitch_follows (esnr : Nat) :
    s.dfeSwitch n esnr = ((s.wr (Reg.EQ_STAT_ESNR n) esnr).takeScale n (s.rxMode n).1 (s.rxMode n).2.2).dfeFollows n esnr := by
  have hmode : ((s.wr (Reg.EQ_STAT_ESNR n) esnr).takeScale n (s.rxMode n).1 (s.rxMode n).2.2).rxMode n = s.rxMode n := by
    rw [rxMode_takeScale, rxMode_wr (Reg.EQ_STAT_ESNR n)]
  rw [Dev.dfeFollows, hmode, ← setDfe_on]
  rfl

theorem Dev.Quiet.setDfe {d : Dev} (h : Dev.Quiet d s) (v : Bool) : Dev.Quiet d (s.setDfe n v) :=
  (ite_preserves (P := Dev.Quiet d) _ (fun h => h.setRxe n _) h).wr _ _

theorem Dev.Quiet.dfeSwitch {d : Dev} (h : Dev.Quiet d s) (esnr : Nat) : Dev.Quiet d (s.dfeSwitch n esnr) := by
  delta Dev.dfeSwitch
  extract_lets m r
  have hr : Dev.Quiet d r := ((h.wr _ _).wr _ _).wr _ _
  split_ifs
  · exact hr.setDfe _
  · exact hr.setDfe _
  · exact hr
  · exact hr.setDfe _

end Dfe

/-! ### O8: the cycle-slip counter (R117) and the tap readout (Table 4.10) -/

/-- A cycle slip counted, where they can occur. -/
def Dev.slipCounted (n : Nat) (s : Dev) : Dev :=
  if s.rd (Reg.CR_CTRL_BPS n) = 0 then s else (s.bump (Reg.CR_SLIP_CNT n)).setRxe n { s.rxe n with slips := (s.rxe n).slips + 1 }

theorem Dev.Quiet.slipCounted {n : Nat} {s : Dev} : Dev.Quiet s (s.slipCounted n) := by
  unfold Dev.slipCounted
  split
  · exact Dev.Quiet.refl s
  · exact ((Dev.Quiet.refl s).wr _ _).setRxe n _

/-- The end of a slip window. -/
def Dev.slipWindowEnds (n : Nat) (s : Dev) : Dev :=
  (s.raiseIf (decide ((s.rxe n).slips > s.rd (Reg.CR_SLIP_THR_THRESHOLD n))) (10 + n) 20).setRxe n { s.rxe n with slips := 0 }

theorem slipWindowEnds_kin {n : Nat} {s : Dev} :
    Dev.Kin (if (s.rxe n).slips > s.rd (Reg.CR_SLIP_THR_THRESHOLD n) then [(10 + n, 20)] else []) (s.setRxe n { s.rxe n with slips := 0 })
      (s.slipWindowEnds n) := by
  have hk := Dev.Kin.raiseIf s (decide ((s.rxe n).slips > s.rd (Reg.CR_SLIP_THR_THRESHOLD n))) (10 + n) 20
  simp only [decide_eq_true_eq] at hk
  exact hk.setRxe n rfl

/-- CLEAR takes the counter to 0. -/
theorem settles_crSlipClear {n : Fin 8} (v : Word) {s : State} (hs : s.Inv) (hl : s.dev.pageLive (linePage n 0x12) = true)
    (ht : s.dev.pageInTest (linePage n 0x12) = false) :
    ∃ t, exec (.crSlipClear n v) s = .next t ∧
      State.Settles [] ((s.dev.writeWord (linePage n 0x12) 0x050 0x80000000 (v ||| 0x80000000)).wr (Reg.CR_SLIP_CNT n) 0) s t := by
  have hv : (v ||| 0x80000000#32).getLsbD 31 = true := by simp
  refine settles_quiet hs (hostWrite_kin_of_le hl ht (not_overflowCell_linePage n 0x12 0x050) (fun e he => ?_) ?_).toLike ((Dev.Quiet.writeWord ..).wr _ _)
  · rw [if_pos hv]
    exact he.write _ rfl
  · exact viol_writeWord_le _ _ _ _ _

/-- All taps copied to the readout store. -/
def Dev.tapsTaken (n : Nat) (s : Dev) : Dev :=
  (s.setRxe n { s.rxe n with tapStore := (List.range 660).foldl (fun m i => sset (dflt 0) m i (s.tapWord n i)) [] }).wr (Reg.EQ_TAP_SNAP_READY n) 1

theorem Dev.Kin.tapsTaken {a : List (Nat × Nat)} {d e : Dev} (h : Dev.Kin a d e) (n : Nat) : Dev.Kin a (d.tapsTaken n) (e.tapsTaken n) := by
  rw [Dev.tapsTaken, Dev.tapsTaken, h.tapWord_eq, h.rxe_eq]
  exact (h.setRxe n rfl).write _ rfl

theorem regAt_tapSnap (n : Fin 8) :
    regAt (linePage n 0x11) 0x040 = some (n.val, 0, ⟨0x040, 1, 4, [⟨0, 1, .wo, .hub, 0, 0, 0⟩, ⟨1, 1, .ro, .hub, 0, 0, 0⟩]⟩) := by
  revert n; decide

/-- A write of TAKE alone changes no word: the field is write-only, and READY read-only. -/
theorem writeWord_tapSnap (d : Dev) (n : Fin 8) : d.writeWord (linePage n 0x11) 0x040 1#32 1#32 = d := by
  have hfs : ([⟨0, 1, .wo, .hub, 0, 0, 0⟩, ⟨1, 1, .ro, .hub, 0, 0, 0⟩] : List FieldSpec).filter (fun f => f.mask &&& 1#32 = 0) =
      [⟨1, 1, .ro, .hub, 0, 0, 0⟩] := by decide
  have hm : (1#32 &&& ~~~ namedBits [⟨0, 1, .wo, .hub, 0, 0, 0⟩, ⟨1, 1, .ro, .hub, 0, 0, 0⟩]) = 0 := by decide
  simp only [Dev.writeWord, regAt_tapSnap, hfs, hm]
  simp [Dev.takeField]

theorem tapSnap_kin {n : Fin 8} {s : Dev} (hl : s.pageLive (linePage n 0x11) = true) (ht : s.pageInTest (linePage n 0x11) = false) :
    Dev.Kin [] (s.tapsTaken n) (s.tapSnap n 1#32) := by
  refine hostWrite_kin_of_le hl ht (not_overflowCell_linePage n 0x11 0x040) (fun e he => ?_) (Nat.le_succ _)
  rw [writeWord_tapSnap] at he
  exact he.tapsTaken n

/-- The device with a word read. -/
def Dev.answering (w : Word) (s : Dev) : Dev := { s with readData := [w] }

theorem Dev.Kin.answering {a : List (Nat × Nat)} {d e : Dev} (h : Dev.Kin a d e) (w : Word) : Dev.Kin a (d.answering w) (e.answering w) :=
  h.map (Dev.answering w) (fun _ => rfl) (fun _ => rfl) (fun _ => rfl) fun _ => rfl

/-- The store's word at INDEX, which advances. -/
theorem tapDataRead_kin {n : Fin 8} {s : Dev} (hl : s.pageLive (linePage n 0x11) = true) :
    Dev.Kin [] ((s.answering (sget (dflt 0) (s.rxe n).tapStore (s.rd (Reg.EQ_TAP_ADDR_INDEX n)))).wr (Reg.EQ_TAP_ADDR_INDEX n)
      (s.rd (Reg.EQ_TAP_ADDR_INDEX n) + 1)) (s.tapDataRead n) := by
  have ha := Dev.Kin.access s 0 (linePage n 0x11) 0x048
  have hindex : (s.access 0 (linePage n 0x11) 0x048).rd (Reg.EQ_TAP_ADDR_INDEX n) = s.rd (Reg.EQ_TAP_ADDR_INDEX n) :=
    ha.toLike.rd (by simp only [overflowCell, regCell]; omega)
  have hread : s.tapDataRead n = ((s.access 0 (linePage n 0x11) 0x048).answering (sget (dflt 0) ((s.access 0 (linePage n 0x11) 0x048).rxe n).tapStore
      ((s.access 0 (linePage n 0x11) 0x048).rd (Reg.EQ_TAP_ADDR_INDEX n)))).wr (Reg.EQ_TAP_ADDR_INDEX n)
        ((s.access 0 (linePage n 0x11) 0x048).rd (Reg.EQ_TAP_ADDR_INDEX n) + 1) := if_pos ((ha.pageLive _).trans hl)
  rw [hread, hindex, ha.rxe_eq]
  exact (ha.answering _).write _ rfl

/-! ### O8: the clauses put together -/

/-- Settles O8: each write has its command's effect on the device with the rest of the word written; the others are as the command says. -/
theorem equaliserSlipsAndTapReadout : Obligations.EqualiserSlipsAndTapReadout := by
  unfold Obligations.EqualiserSlipsAndTapReadout
  refine ⟨fun n v s hs hl ht ha => ?reset, fun n s hs => ?shift, fun n e s hs => ?feedback, fun n s hs => ?slip, fun n s hs => ?slipWindow,
    fun n v s hs hl ht => settles_crSlipClear v hs hl ht, fun n s hs hl ht => ?take, fun n s hs hl => ?read, fun n v s hs hl ht ha => ?resetLocked⟩
  case reset =>
    have hset := settles_eqReset v hs hl ht
    rwa [Dev.eqResets, if_neg (by rwa [acq_eqCleared_eqWritten])] at hset
  case shift =>
    exact settles_exact hs rfl ((unladen_of_inv hs).quiet (ite_preserves (P := Dev.Quiet s.dev) _ (fun h => h.setRxe n _) (Dev.Quiet.refl s.dev)))
  case feedback =>
    have hq := (Dev.Quiet.refl s.dev).dfeSwitch (n := n) e.toNat
    rw [dfeSwitch_follows] at hq
    exact settles_exact hs (dfeSwitch_follows e.toNat) ((unladen_of_inv hs).quiet hq)
  case slip =>
    exact settles_exact (f := Dev.slipCounted n) hs rfl ((unladen_of_inv hs).quiet Dev.Quiet.slipCounted)
  case slipWindow =>
    exact settles_kin (f := Dev.slipWindowEnds n) hs rfl slipWindowEnds_kin ((Dev.Quiet.refl _).setRxe n _)
  case take =>
    exact settles_kin hs rfl (tapSnap_kin hl ht) (((Dev.Quiet.refl _).setRxe n _).wr _ _)
  case read =>
    exact settles_kin hs rfl (tapDataRead_kin hl) (((Dev.Quiet.refl s.dev).map (u := Dev.answering _) (fun _ => rfl) (fun _ => rfl) (fun _ => rfl)
      fun _ => rfl).wr _ _)
  case resetLocked =>
    have hset := settles_eqReset v hs hl ht
    rwa [Dev.eqResets, if_pos (by rwa [acq_eqCleared_eqWritten])] at hset

end Sys2Proof.Machine
end

section
namespace Sys2Proof.Machine

/-! ### O9: the end of an estimate window (R127, R155) -/

/-- The estimate of OSNR shown, where there is one (R128). -/
def Dev.osnrShown (n : Nat) (o : Option Int) (s : Dev) : Dev :=
  match o with
  | some d => (s.wrS (Reg.OPM_OSNR_OSNR n) d).wr (Reg.OPM_OSNR_VALID n) 1
  | none => s.wr (Reg.OPM_OSNR_VALID n) 0

/-- The window's ESNR and OSNR shown, for a back-to-back SNR. -/
def Dev.snrShown (n b2b : Nat) (e : Estimates) (s : Dev) : Dev :=
  (s.wr (Reg.EQ_STAT_ESNR n) e.esnr).osnrShown n (osnrOf e.esnr b2b (s.rxMode n).1 (s.rxMode n).2.1 (s.rxMode n).2.2)

/-- The other estimates, the window results and Q shown. -/
def Dev.restShown (n : Nat) (cd : Int) (e : Estimates) (s : Dev) : Dev :=
  (((((((s.wrS (Reg.OPM_CD_CD n) cd).wr (Reg.OPM_CD_VALID n) 1).wr (Reg.OPM_DGD_MEAN n) e.dgdMean).wr (Reg.OPM_DGD_PEAK n) e.dgdPeak).wr
    (Reg.OPM_SOP_MEAN n) e.sopMean).wr (Reg.OPM_SOP_PEAK n) e.sopPeak).publishWindow n).publishQ n

/-- A set published with the next SEQ. -/
def Dev.setPublished (n : Nat) (e : Estimates) (s : Dev) : Dev :=
  ((s.snrShown n (s.rd (Reg.OPM_CTRL_B2B_SNR n)) e).restShown n (s.rdS (Reg.RX_CD_STAT_APPLIED n) + e.residual) e).wr (Reg.OPM_SEQ_SEQ n)
    (s.rd (Reg.OPM_SEQ_SEQ n) + 1)

/-- Every VALID bit cleared. -/
def Dev.setVoid (n : Nat) (s : Dev) : Dev :=
  (((s.wr (Reg.OPM_OSNR_VALID n) 0).wr (Reg.OPM_CD_VALID n) 0).wr (Reg.OPM_Q_VALID n) 0).wr (Reg.WIN_STAT_VALID n) 0

/-- The next window started for an engine's parts, by the state and the levels of a device. -/
def Dev.windowRestarts (n : Nat) (r : RxEngine) (s d : Dev) : Dev :=
  (s.setRxe n { r with
    winLocked := decide (d.acq n = acqLocked), sdSet := d.rd (Reg.SD_SET_BER n), sdClr := d.rd (Reg.SD_CLR_BER n)
    winCw := 0, winIncl := 0, winCorr := 0, winExcl := 0, winCapped := 0, winFailed := 0, winIter := 0 }).settleCourses

/-- The fields of a set but SEQ. -/
def shownFields (n : Nat) : List Field :=
  [Reg.EQ_STAT_ESNR n, Reg.OPM_OSNR_OSNR n, Reg.OPM_OSNR_VALID n, Reg.OPM_CD_CD n, Reg.OPM_CD_VALID n, Reg.OPM_DGD_MEAN n, Reg.OPM_DGD_PEAK n,
    Reg.OPM_SOP_MEAN n, Reg.OPM_SOP_PEAK n, Reg.WIN_CORR_LO n, (Reg.WIN_CORR_LO n).hi, Reg.WIN_BITS_LO n, (Reg.WIN_BITS_LO n).hi, Reg.WIN_BER_BER n,
    Reg.WIN_FAILED n, Reg.WIN_STAT_ITER_AVG n, Reg.WIN_STAT_VALID n, Reg.WIN_STAT_SD n, Reg.OPM_Q_Q n, Reg.OPM_Q_VALID n]

section Shown
variable {n : Nat} {P : Dev → Prop} (hwr : ∀ f ∈ shownFields n, ∀ x v, P x → P (x.wr f v))
include hwr

theorem wr_shown {f : Field} {x : Dev} {v : Nat} (hx : P x) (hf : f ∈ shownFields n := by simp only [shownFields, List.mem_cons, true_or, or_true]) :
    P (x.wr f v) :=
  hwr f hf x v hx

theorem snrShown_preserves (b2b : Nat) (e : Estimates) {s : Dev} (hs : P s) : P (s.snrShown n b2b e) := by
  have h := hwr (Reg.EQ_STAT_ESNR n) List.mem_cons_self s e.esnr hs
  unfold Dev.snrShown Dev.osnrShown
  split
  · exact wr_shown hwr (wr_shown hwr h)
  · exact wr_shown hwr h

theorem setVoid_preserves {s : Dev} (hs : P s) : P (s.setVoid n) :=
  wr_shown hwr (wr_shown hwr (wr_shown hwr (wr_shown hwr hs)))

variable (hraise : ∀ x g b, P x → P (x.raise g b)) (hrx : ∀ x y, P x → P (x.setRxe n y)) (htick : ∀ x, P x → P x.tick)
include hraise

theorem publishWindow_preserves {s : Dev} (hs : P s) : P (s.publishWindow n) := by
  delta Dev.publishWindow
  extract_lets x bits valid ber s1 s2 avg s3
  have h1 : P s1 := wr_shown hwr (wr_shown hwr (wr_shown hwr (wr_shown hwr hs)))
  have h3 : P s3 := wr_shown hwr (wr_shown hwr (wr_shown hwr (wr_shown hwr h1)))
  have hsd (v : Nat) : P ((s3.wr (Reg.WIN_STAT_SD n) v).raise (10 + n) 27) := hraise _ _ _ (wr_shown hwr h3)
  split_ifs
  · exact hsd 1
  · exact hsd 0
  · exact h3
  · exact h3

include hrx htick

theorem publishQ_preserves {s : Dev} (hs : P s) : P (s.publishQ n) := by
  delta Dev.publishQ
  extract_lets q s1 thr x
  have h1 : P s1 := htick _ (wr_shown hwr (wr_shown hwr hs))
  split_ifs
  · exact hraise _ _ _ (hrx _ _ h1)
  · exact hraise _ _ _ (hrx _ _ h1)
  · exact h1
  · exact wr_shown hwr hs

theorem restShown_preserves (cd : Int) (e : Estimates) {s : Dev} (hs : P s) : P (s.restShown n cd e) :=
  publishQ_preserves hwr hraise hrx htick (publishWindow_preserves hwr hraise (wr_shown hwr (hwr _ (by simp only [shownFields, List.mem_cons, true_or, or_true]) _ _
    (wr_shown hwr (wr_shown hwr (wr_shown hwr (wr_shown hwr hs)))))))

end Shown

section Window
variable {n : Nat} {s : Dev}

theorem Dev.Quiet.setPublished (e : Estimates) : Dev.Quiet s (s.setPublished n e) :=
  (restShown_preserves (P := Dev.Quiet s) (fun _ _ _ _ h => h.wr _ _) (fun _ _ _ h => h.raise _ _) (fun _ _ h => h.setRxe n _)
    (fun _ h => h.map (u := Dev.tick) (fun _ => rfl) (fun _ => rfl) (fun _ => rfl) fun _ => rfl) _ e
    (snrShown_preserves (P := Dev.Quiet s) (fun _ _ _ _ h => h.wr _ _) _ e (Dev.Quiet.refl s))).wr _ _

theorem Dev.Quiet.setVoid : Dev.Quiet s (s.setVoid n) :=
  setVoid_preserves (P := Dev.Quiet s) (fun _ _ _ _ h => h.wr _ _) (Dev.Quiet.refl s)

theorem snrShown_none {b2b : Nat} {e : Estimates} (h : osnrOf e.esnr b2b (s.rxMode n).1 (s.rxMode n).2.1 (s.rxMode n).2.2 = none) :
    s.snrShown n b2b e = (s.wr (Reg.EQ_STAT_ESNR n) e.esnr).wr (Reg.OPM_OSNR_VALID n) 0 := by
  rw [Dev.snrShown, h]
  rfl

theorem snrShown_some {b2b : Nat} {e : Estimates} {o : Int} (h : osnrOf e.esnr b2b (s.rxMode n).1 (s.rxMode n).2.1 (s.rxMode n).2.2 = some o) :
    s.snrShown n b2b e = ((s.wr (Reg.EQ_STAT_ESNR n) e.esnr).wrS (Reg.OPM_OSNR_OSNR n) o).wr (Reg.OPM_OSNR_VALID n) 1 := by
  rw [Dev.snrShown, h]
  rfl

theorem rxe_setVoid : (s.setVoid n).rxe n = s.rxe n :=
  rfl

/-- A field in other registers than those of a set. -/
def UnshownField (n : Nat) (g : Field) : Prop :=
  (∀ f ∈ shownFields n, g.cell ≠ f.cell) ∧ ¬ overflowCell g.cell

theorem rd_snrShown (b2b : Nat) (e : Estimates) {g : Field} (hg : UnshownField n g) : (s.snrShown n b2b e).rd g = s.rd g :=
  snrShown_preserves (P := fun x => x.rd g = s.rd g) (fun f hf _ _ h => (rd_wr_ne _ _ _ _ (hg.1 f hf)).trans h) b2b e rfl

theorem rd_restShown (cd : Int) (e : Estimates) {g : Field} (hg : UnshownField n g) : (s.restShown n cd e).rd g = s.rd g :=
  restShown_preserves (P := fun x => x.rd g = s.rd g) (fun f hf _ _ h => (rd_wr_ne _ _ _ _ (hg.1 f hf)).trans h)
    (fun _ _ _ h => ((Dev.Kin.raise _ _ _).toLike.rd hg.2).trans h) (fun _ _ h => h) (fun _ h => h) cd e rfl

/-- The fields that the end of a window reads. -/
def windowFields (n : Nat) : List Field :=
  [Reg.ACQ_STAT_STATE n, Reg.SD_SET_BER n, Reg.SD_CLR_BER n, Reg.RX_CD_STAT_APPLIED n, Reg.OPM_SEQ_SEQ n]

theorem windowFields_unshown (n : Nat) : ∀ g ∈ windowFields n, UnshownField n g := by
  simp only [windowFields, shownFields, UnshownField, List.forall_mem_cons, List.not_mem_nil, false_implies, implies_true, and_true, overflowCell, Field.hi,
    regCell]
  omega

/-- The end of a window by its parts, each from the device before it. -/
theorem opmEnd_parts (e : Estimates) : s.opmEnd n e =
    (fun x : Dev => x.windowRestarts n (x.rxe n) x) ((if (s.rxe n).winLocked then
      (fun x : Dev => x.wr (Reg.OPM_SEQ_SEQ n) (x.rd (Reg.OPM_SEQ_SEQ n) + 1)) ((fun x : Dev => x.restShown n (x.rdS (Reg.RX_CD_STAT_APPLIED n) + e.residual) e)
        (s.snrShown n ((s.wr (Reg.EQ_STAT_ESNR n) e.esnr).rd (Reg.OPM_CTRL_B2B_SNR n)) e))
      else s.setVoid n).raiseIf (decide ((s.rxe n).winCapped * 65536 > s.rd (Reg.CAP_WARN_FRAC n) * (s.rxe n).winCw)) (10 + n) 29) :=
  rfl

/-- The set that the end of a window leaves. -/
def Dev.setLeft (n : Nat) (e : Estimates) (s : Dev) : Dev :=
  if (s.rxe n).winLocked then s.setPublished n e else s.setVoid n

theorem setLeft_published {e : Estimates} (h : (s.rxe n).winLocked = true) : s.setLeft n e = s.setPublished n e :=
  if_pos h

theorem setLeft_void {e : Estimates} (h : (s.rxe n).winLocked = false) : s.setLeft n e = s.setVoid n :=
  if_neg (by simp [h])

theorem opmEnd_eq (e : Estimates) : s.opmEnd n e = (fun x : Dev => x.windowRestarts n (x.rxe n) x) ((s.setLeft n e).raiseIf
    (decide ((s.rxe n).winCapped * 65536 > s.rd (Reg.CAP_WARN_FRAC n) * (s.rxe n).winCw)) (10 + n) 29) := by
  have hb2b : (s.wr (Reg.EQ_STAT_ESNR n) e.esnr).rd (Reg.OPM_CTRL_B2B_SNR n) = s.rd (Reg.OPM_CTRL_B2B_SNR n) :=
    rd_wr_ne _ _ _ _ (by simp only [regCell]; omega)
  have hunshown := windowFields_unshown n
  have hcd (b2b : Nat) : (s.snrShown n b2b e).rdS (Reg.RX_CD_STAT_APPLIED n) = s.rdS (Reg.RX_CD_STAT_APPLIED n) :=
    congrArg (signed 20) (rd_snrShown b2b e (hunshown _ (by simp [windowFields])))
  have hseq (b2b : Nat) (cd : Int) : ((s.snrShown n b2b e).restShown n cd e).rd (Reg.OPM_SEQ_SEQ n) = s.rd (Reg.OPM_SEQ_SEQ n) :=
    (rd_restShown cd e (hunshown _ (by simp [windowFields]))).trans (rd_snrShown b2b e (hunshown _ (by simp [windowFields])))
  rw [opmEnd_parts]
  simp only [hb2b, hcd, hseq, Dev.setLeft, Dev.setPublished]

/-- A set leaves the state and the levels of the next window. -/
theorem rd_setLeft (e : Estimates) {g : Field} (hg : g ∈ windowFields n) (hseq : g.cell ≠ (Reg.OPM_SEQ_SEQ n).cell) : (s.setLeft n e).rd g = s.rd g := by
  have hunshown := windowFields_unshown n g hg
  unfold Dev.setLeft
  split
  · rw [Dev.setPublished, rd_wr_ne _ _ _ _ hseq, rd_restShown _ _ hunshown, rd_snrShown _ _ hunshown]
  · exact setVoid_preserves (P := fun x => x.rd g = s.rd g) (fun f hf _ _ h => (rd_wr_ne _ _ _ _ (hunshown.1 f hf)).trans h) rfl

/-- The end of a window: E-1n.29 above CAP_WARN, and the next window started by the state and the levels of now. -/
theorem opmEnd_kin (e : Estimates) :
    Dev.Kin (if (s.rxe n).winCapped * 65536 > s.rd (Reg.CAP_WARN_FRAC n) * (s.rxe n).winCw then [(10 + n, 29)] else [])
      ((s.setLeft n e).windowRestarts n ((s.setLeft n e).rxe n) s) (s.opmEnd n e) := by
  have hk := Dev.Kin.raiseIf (s.setLeft n e) (decide ((s.rxe n).winCapped * 65536 > s.rd (Reg.CAP_WARN_FRAC n) * (s.rxe n).winCw)) (10 + n) 29
  simp only [decide_eq_true_eq] at hk
  have hrd {g : Field} (hg : g ∈ windowFields n) (hseq : g.cell ≠ (Reg.OPM_SEQ_SEQ n).cell) :=
    (hk.toLike.rd (windowFields_unshown n g hg).2).trans (rd_setLeft (s := s) e hg hseq)
  rw [opmEnd_eq]
  refine (hk.setRxe n ?_).settleCourses
  rw [hk.rxe_eq, Dev.acq, Dev.acq, hrd (by simp [windowFields]) (by simp only [regCell]; omega), hrd (by simp [windowFields]) (by simp only [regCell]; omega),
    hrd (by simp [windowFields]) (by simp only [regCell]; omega)]

theorem Dev.Quiet.setLeft (e : Estimates) : Dev.Quiet s (s.setLeft n e) :=
  ite_preserves (P := Dev.Quiet s) _ (fun _ => Dev.Quiet.setPublished e) Dev.Quiet.setVoid

theorem settles_opmEnd {s : State} (e : Estimates) (hs : s.Inv) : ∃ t, s.run (Dev.opmEnd n e) = .next t ∧
    State.Settles (if (s.dev.rxe n).winCapped * 65536 > s.dev.rd (Reg.CAP_WARN_FRAC n) * (s.dev.rxe n).winCw then [(10 + n, 29)] else [])
      ((s.dev.setLeft n e).windowRestarts n ((s.dev.setLeft n e).rxe n) s.dev) s t :=
  settles_kin hs rfl (opmEnd_kin e) ((Dev.Quiet.setLeft e).setRxe n _).settleCourses

end Window

/-! ### O9: steps of arrival (R563) -/

section Arrival
variable {n k : Nat} {s : Dev}

theorem arrivalStep_locked (ha : s.acq n = acqLocked) : s.arrivalStep n true (decide (k % (32 * 32767) = 0)) k =
    if k = 0 then s else if k % (32 * 32767) ≠ 0 then s.acqLose n acqPilot 12 else if s.als n = alAligned then s.alFail n 5 else s := by
  simp only [Dev.arrivalStep, Bool.not_true, Bool.false_eq_true, if_false, ha, if_true, Bool.not_eq_true', decide_eq_false_iff_not, ne_eq]

theorem arrivalStep_unlocked (ha : s.acq n ≠ acqLocked) (sameGrid : Bool) : s.arrivalStep n true sameGrid k = s := by
  simp only [Dev.arrivalStep, Bool.not_true, Bool.false_eq_true, if_false, if_neg ha]

/-- A step of no whole symbol period within a quarter symbol changes nothing. -/
theorem arrivalStep_none (sameGrid : Bool) : s.arrivalStep n true sameGrid 0 = s := by
  simp only [Dev.arrivalStep, Bool.not_true, Bool.false_eq_true, if_false, if_true, ite_self]

/-- A step beyond a quarter symbol takes TR_LOCK. -/
theorem arrivalStep_beyond (sameGrid : Bool) : s.arrivalStep n false sameGrid k = s.trLockLost n :=
  if_pos rfl

theorem arrivalStep_offGrid (ha : s.acq n = acqLocked) (hk : k % (32 * 32767) ≠ 0) :
    s.arrivalStep n true (decide (k % (32 * 32767) = 0)) k = s.acqLose n acqPilot 12 := by
  rw [arrivalStep_locked ha, if_neg (fun h => hk (by rw [h])), if_pos hk]

theorem Dev.Quiet.alFail {d : Dev} (h : Dev.Quiet d s) (cause : Nat) : Dev.Quiet d (s.alFail n cause) := by
  have hc : Dev.Quiet d ((s.wr (Reg.ALIGN_STAT_LAST_FAIL n) cause).bump (Reg.ALIGN_FAIL_CNT n)) := (h.wr _ _).wr _ _
  exact (ite_preserves (P := Dev.Quiet d) _ (fun _ => hc.alGo n alRetry) ((hc.alGo n alRetry).raise _ _)).settleCourses

theorem Dev.Quiet.arrivalLocked : Dev.Quiet s
    (if k = 0 then s else if k % (32 * 32767) ≠ 0 then s.acqLose n acqPilot 12 else if s.als n = alAligned then s.alFail n 5 else s) := by
  split_ifs
  · exact Dev.Quiet.refl s
  · exact (Dev.Quiet.refl s).acqLose n _ _
  · exact (Dev.Quiet.refl s).alFail 5
  · exact Dev.Quiet.refl s

end Arrival

/-! ### O9: the clauses put together -/

/-- The other engine of the pair. -/
theorem partner_eq (n : Fin 8) : 4 * (n.val / 2) + 1 - n.val = n.val ^^^ 1 := by
  revert n
  decide

/-- The conditions of R119 for the twin phase aid, at a walk-off in ps. -/
def Dev.aidMay (n : Nat) (m : Nat) (skew : Int) (s : Dev) : Bool :=
  s.rxTwin n && s.on (Reg.CR_CTRL_TWIN_AID n) && s.on (Reg.CR_CTRL_TWIN_AID m) &&
    decide (s.acq n = acqLocked) && decide (s.acq m = acqLocked) && decide (skew.natAbs ≤ 1000000)

/-- TWIN_AID_RESUME. -/
def Dev.aidResumes (n m : Nat) (skew : Int) (s : Dev) : Dev :=
  if s.aidMay n m skew then ((s.setRxe n { s.rxe n with aid := true }).wr (Reg.CR_STAT_TWIN_AID_ACTIVE n) 1).wrS (Reg.CR_TWIN_SKEW_SKEW n) skew else s

theorem exec_twinAidResume (n : Fin 8) (skew : Int) (s : State) : exec (.twinAidResume n skew) s = s.run (Dev.aidResumes n (n.val ^^^ 1) skew) := by
  rw [← partner_eq]
  rfl

/-- Settles O9: the window by the set that it leaves and the next one started, a step of arrival by what it takes from the engine, and the twin phase aid
by the conditions of R119. -/
theorem twinAidArrivalAndEstimates : Obligations.TwinAidArrivalAndEstimates := by
  unfold Obligations.TwinAidArrivalAndEstimates
  refine ⟨fun n s hs ha => ?fallback, fun n skew s hs ht h1 h2 ha hm hk => ?resume, fun n k s hs ht hg hal hf ha hk => ?offGridAlone,
    fun n k s hs hl ha => ?beyondRests, fun n s hs => settles_idle hs (arrivalStep_none _), fun n e r a b c d s hs hw => ?windowVoid,
    fun n e r a b c d s hs hw => ?windowLocked, fun n k s hs ha => ?arrival, fun n k s hs ha => settles_idle hs (arrivalStep_unlocked ha _),
    fun n k s hs hl ha => ?beyondLocked, fun n k s hs ha => ?beyond, fun n s hs ha => settles_idle hs (if_neg (by simp [ha])),
    fun n skew s hs hk => ?resumeNot⟩
  case fallback =>
    exact settles_kin hs (if_pos ha) (Dev.Kin.raise _ _ _) (((Dev.Quiet.refl _).setRxe n _).wr _ _)
  case resume =>
    have hmay : s.dev.aidMay n (n.val ^^^ 1) skew = true := by simp [Dev.aidMay, ht, h1, h2, ha, hm, hk]
    rw [exec_twinAidResume]
    exact settles_exact hs (if_pos hmay) ((unladen_of_inv hs).quiet ((((Dev.Quiet.refl _).setRxe n _).wr _ _).wr _ _))
  case offGridAlone =>
    exact settles_kin hs (arrivalStep_offGrid ha hk) (acqLose_alone n.isLt ha 12 ⟨ht, hg, hal, hf⟩ (by decide) (by decide))
      ((Dev.Quiet.refl _).lockLost n acqPilot 12)
  case beyondRests =>
    have hne : s.dev.acq n ≠ acqLocked := by obtain h | h | h | h | h := ha <;> rw [h] <;> decide
    exact settles_kin hs ((arrivalStep_beyond _).trans (trLockLost_unlocked hl hne)) (setTrLock_rests hl ha) ((Dev.Quiet.refl _).trLockMoved n false)
  case windowVoid =>
    have hset := settles_opmEnd (n := n) ⟨e.toNat, r, a.toNat, b.toNat, c.toNat, d.toNat⟩ hs
    rw [setLeft_void hw, rxe_setVoid] at hset
    exact hset
  case windowLocked =>
    have hset := settles_opmEnd (n := n) ⟨e.toNat, r, a.toNat, b.toNat, c.toNat, d.toNat⟩ hs
    rw [setLeft_published hw, Dev.setPublished] at hset
    cases ho : osnrOf e.toNat (s.dev.rd (Reg.OPM_CTRL_B2B_SNR n)) (s.dev.rxMode n).1 (s.dev.rxMode n).2.1 (s.dev.rxMode n).2.2 with
    | none =>
      rw [snrShown_none ho] at hset
      exact hset
    | some o =>
      rw [snrShown_some ho] at hset
      exact hset
  case arrival =>
    exact settles_exact hs (arrivalStep_locked ha) ((unladen_of_inv hs).quiet Dev.Quiet.arrivalLocked)
  case beyondLocked =>
    exact settles_exact hs ((arrivalStep_beyond _).trans (trLockLost_locked hl ha))
      ((unladen_of_inv hs).quiet (((Dev.Quiet.refl _).setTrLock n false).acqLose n _ _))
  case beyond =>
    have hq := quiet_trLockLost ha
    rw [trLockLost_of_ne_locked ha] at hq
    exact settles_exact hs ((arrivalStep_beyond _).trans (trLockLost_of_ne_locked ha)) ((unladen_of_inv hs).quiet hq)
  case resumeNot =>
    rw [exec_twinAidResume]
    exact settles_idle hs (if_neg (by simpa [Dev.aidMay] using hk))

end Sys2Proof.Machine
end

section
namespace Sys2Proof.Machine

/-! ### O12: counters and snapshots of the chord decoder (R154, R562) -/

/-- The running counters lie apart from the OVF cells. -/
theorem not_overflowCell_run (c : Nat) : ¬ overflowCell (c + runOffset) := by
  simp only [overflowCell, regCell, runOffset]
  omega

/-- A snapshot taken and cleared on kin devices. -/
theorem Dev.Kin.snapshot {a : List (Nat × Nat)} {d e : Dev} (h : Dev.Kin a d e) (cells : List Nat) (take clear : Bool) :
    Dev.Kin a (Dev.snapshot cells take clear d) (Dev.snapshot cells take clear e) := by
  delta Dev.snapshot
  extract_lets d1 e1
  have h1 : Dev.Kin a d1 e1 := by
    simp only [d1, e1]
    split
    · exact Dev.Kin.foldl (fun c _ d e h => by rw [h.toLike.word (not_overflowCell_run c)]; exact h.setWord c _) h
    · exact h
  split
  · exact Dev.Kin.foldl (fun c _ d e h => h.setWord (c + runOffset) 0) h1
  · exact h1

/-- What every register word may change in a device, a snapshot may. -/
theorem snapshot_preserves {P : Dev → Prop} (hset : ∀ x c w, P x → P (x.setWord c w)) (cells : List Nat) (take clear : Bool) {s : Dev} (hs : P s) :
    P (Dev.snapshot cells take clear s) := by
  have hfold (f : Dev → Nat → Dev) (hf : ∀ x c, P x → P (f x c)) {x : Dev} (hx : P x) : P (cells.foldl f x) :=
    List.foldlRecOn (motive := P) cells f hx fun x h c _ => hf x c h
  exact ite_preserves _ (hfold _ fun _ _ h => hset _ _ _ h) (ite_preserves _ (hfold _ fun _ _ h => hset _ _ _ h) hs)

theorem Dev.Quiet.snapshot {d e : Dev} (h : Dev.Quiet d e) (cells : List Nat) (take clear : Bool) : Dev.Quiet d (Dev.snapshot cells take clear e) :=
  snapshot_preserves (P := Dev.Quiet d) (fun _ _ _ h => h.setWord _ _) cells take clear h

theorem pages_snapshot (cells : List Nat) (take clear : Bool) (d : Dev) : (Dev.snapshot cells take clear d).pages = d.pages :=
  snapshot_preserves (P := fun x => x.pages = d.pages) (fun _ _ _ h => h) cells take clear rfl

theorem regAt_fecSnap (n : Fin 8) :
    regAt (linePage n 0x1A) 0x040 = some (n.val, 0, ⟨0x040, 1, 4, [⟨0, 1, .wo, .hub, 0, 0, 0⟩, ⟨1, 1, .wo, .hub, 0, 0, 0⟩]⟩) := by
  revert n; decide

theorem regAt_alignTime (n : Fin 8) :
    regAt (linePage n 0x19) 0x048 = some (n.val, 0, ⟨0x048, 1, 4, [⟨0, 16, .ro, .hub, 0, 0, 0⟩, ⟨31, 1, .wo, .hub, 0, 0, 0⟩]⟩) := by
  revert n; decide

/-- A write of TAKE and CLEAR alone changes no word: both fields are write-only. -/
theorem writeWord_fecSnap (d : Dev) (n : Fin 8) {v : Word} (hv : v &&& ~~~ 3#32 = 0) : d.writeWord (linePage n 0x1A) 0x040 3#32 v = d := by
  have hfs : ([⟨0, 1, .wo, .hub, 0, 0, 0⟩, ⟨1, 1, .wo, .hub, 0, 0, 0⟩] : List FieldSpec).filter (fun f => f.mask &&& 3#32 = 0) = [] := by decide
  have hm : namedBits [⟨0, 1, .wo, .hub, 0, 0, 0⟩, ⟨1, 1, .wo, .hub, 0, 0, 0⟩] = 3#32 := by decide
  simp only [Dev.writeWord, regAt_fecSnap, hfs, hm, hv]
  simp

/-- A write of CLEAR alone changes no word: LAST_US is read-only. -/
theorem writeWord_alignTime (d : Dev) (n : Fin 8) : d.writeWord (linePage n 0x19) 0x048 0x80000000#32 0x80000000#32 = d := by
  have hfs : ([⟨0, 16, .ro, .hub, 0, 0, 0⟩, ⟨31, 1, .wo, .hub, 0, 0, 0⟩] : List FieldSpec).filter (fun f => f.mask &&& 0x80000000#32 = 0) =
      [⟨0, 16, .ro, .hub, 0, 0, 0⟩] := by decide
  have hm : (0x80000000#32 &&& ~~~ namedBits [⟨0, 16, .ro, .hub, 0, 0, 0⟩, ⟨31, 1, .wo, .hub, 0, 0, 0⟩]) = 0 := by decide
  simp only [Dev.writeWord, regAt_alignTime, hfs, hm]
  simp [Dev.takeField]

/-- TAKE and CLEAR as given, in the words of `Dev.snapshot`. -/
theorem fecSnap_kin {n : Fin 8} {v : Word} {s : Dev} (hv : v &&& ~~~ 3#32 = 0) (hl : s.pageLive (linePage n 0x1A) = true)
    (ht : s.pageInTest (linePage n 0x1A) = false) :
    Dev.Kin [] (Dev.snapshot (fecCounterCells n) (v.getLsbD 0) (v.getLsbD 1) s) (s.fecSnap n v) := by
  refine hostWrite_kin_of_le hl ht (not_overflowCell_linePage n 0x1A 0x040) (fun e he => ?_) ?_
  · rw [writeWord_fecSnap _ _ hv] at he
    exact he.snapshot _ _ _
  · rw [Dev.hdr, pages_snapshot]
    exact Nat.le_succ _

theorem alignTime_kin {n : Fin 8} {s : Dev} (hl : s.pageLive (linePage n 0x19) = true) (ht : s.pageInTest (linePage n 0x19) = false) :
    Dev.Kin [] (s.wr (Reg.ALIGN_FAIL_CNT n) 0) (s.alignTime n 0x80000000#32) := by
  refine hostWrite_kin_of_le hl ht (not_overflowCell_linePage n 0x19 0x048) (fun e he => ?_) (Nat.le_succ _)
  rw [writeWord_alignTime] at he
  exact he.write _ rfl

theorem settles_fecSnap {n : Fin 8} {v : Word} {s : State} (hs : s.Inv) (hv : v &&& ~~~ 3#32 = 0) (hl : s.dev.pageLive (linePage n 0x1A) = true)
    (ht : s.dev.pageInTest (linePage n 0x1A) = false) :
    ∃ t, s.run (Dev.fecSnap n v) = .next t ∧ State.Settles [] (Dev.snapshot (fecCounterCells n) (v.getLsbD 0) (v.getLsbD 1) s.dev) s t :=
  settles_kin hs rfl (fecSnap_kin hv hl ht) ((Dev.Quiet.refl _).snapshot _ _ _)

/-! ### O12: the iteration limit (R145) -/

theorem iterStep_kin {n : Nat} {s : Dev} :
    Dev.Kin (if s.nextIter n ≠ s.rd (Reg.FEC_ITER_STAT_ITER_EFF n) then [(10 + n, 28)] else [])
      ((s.wr (Reg.FEC_ITER_STAT_ITER_EFF n) (s.nextIter n)).showCapped n) (s.iterStep n) := by
  have hk := Dev.Kin.raiseIf ((s.wr (Reg.FEC_ITER_STAT_ITER_EFF n) (s.nextIter n)).showCapped n)
    (decide (s.nextIter n ≠ s.rd (Reg.FEC_ITER_STAT_ITER_EFF n))) (10 + n) 28
  simp only [decide_eq_true_eq] at hk
  exact hk

/-! ### O12: codewords and staircase blocks (R141, R142, R147) -/

/-- A codeword counted, capped where it is not satisfied. -/
def Dev.wordCounted (n : Nat) (satisfied : Bool) (s : Dev) : Dev :=
  if satisfied then s.bump64 (Reg.CW_TOTAL_LO n).run 1 else (s.bump64 (Reg.CW_TOTAL_LO n).run 1).bumpBy (Reg.CW_CAPPED n).run 1

theorem Dev.Quiet.bump64 {d e : Dev} (h : Dev.Quiet d e) (lo : Field) (k : Nat) : Dev.Quiet d (e.bump64 lo k) :=
  (h.wr _ _).wr _ _

theorem Dev.Quiet.wordCounted {d e : Dev} (h : Dev.Quiet d e) (n : Nat) (satisfied : Bool) : Dev.Quiet d (e.wordCounted n satisfied) :=
  ite_preserves (P := Dev.Quiet d) _ (fun _ => h.bump64 _ _) ((h.bump64 _ _).wr _ _)

theorem rxe_bump64 (s : Dev) (lo : Field) (k m : Nat) : (s.bump64 lo k).rxe m = s.rxe m := rfl

theorem rxe_bumpBy (s : Dev) (f : Field) (k m : Nat) : (s.bumpBy f k).rxe m = s.rxe m := rfl

theorem rxe_wordCounted (n : Nat) (satisfied : Bool) (s : Dev) : (s.wordCounted n satisfied).rxe n = s.rxe n := by
  unfold Dev.wordCounted
  split
  · rw [rxe_bump64]
  · rw [rxe_bumpBy, rxe_bump64]

/-- A decoded codeword counted and taken into the staircase stream, with the bits that came in and the decoder's result. -/
def Dev.wordTaken (n : Nat) (input : List Bool) (r : List Bool × Nat × Bool) (s : Dev) : Dev :=
  let taken := (s.rxe n).chord.takeWord input (r.1.take cwInfo) ((s.wordCounted n r.2.2).gdNow n) ((s.wordCounted n r.2.2).gdBack n)
  (s.wordCounted n r.2.2).setRxe n { s.rxe n with
    winCw := (s.rxe n).winCw + 1, winCapped := (s.rxe n).winCapped + ofBool (!r.2.2), winIter := (s.rxe n).winIter + r.2.1
    chord := { taken with unsat := (innerUnsat input.toArray :: taken.unsat).take 256 } }

/-- The inner decoder's result for a codeword's ratios (R141, R145). -/
def Dev.decoded (n : Nat) (ratios : List Int) (s : Dev) : List Bool × Nat × Bool :=
  innerDecode (s.rd (Reg.FEC_ITER_STAT_ITER_EFF n)) (s.on (Reg.FEC_CTRL_EARLY_STOP n)) ratios

theorem codeword_aligned {n : Nat} {s : Dev} (w : Nat) (group : List SoftBit) (blocks : List (List Int)) (ha : s.als n = alAligned) :
    s.codeword n w group blocks = s.wordTaken n ((s.codewordRatios n w group blocks).map fun x => decide (x < 0))
      (s.decoded n (s.codewordRatios n w group blocks)) := by
  rw [Dev.codeword, if_pos ha, Dev.wordTaken, ← rxe_wordCounted n (s.decoded n (s.codewordRatios n w group blocks)).2.2 s]
  rfl

theorem Dev.Quiet.wordTaken {d e : Dev} (h : Dev.Quiet d e) (n : Nat) (input : List Bool) (r : List Bool × Nat × Bool) : Dev.Quiet d (e.wordTaken n input r) :=
  (h.wordCounted n _).setRxe n _

theorem setRxe_setRxe (s : Dev) (n : Nat) (x y : RxEngine) : (s.setRxe n x).setRxe n y = s.setRxe n y := by
  simp only [Dev.setRxe, sset_sset]

/-- The oldest block of a decoder leaves it (R142, R147, R154): what that counts, with E-1n.26 where it is FAILED. -/
def Dev.oldestLeaves (n : Nat) (x : ChordRx) (s : Dev) : Dev :=
  match x.window with
  | [] => s.setRxe n { s.rxe n with chord := x }
  | b :: rest =>
    let v := x.verdict b rest
    let gone := x.words.filter fun (w : ChordWord) => decide (w.start + cwInfo ≤ (b.index + 1) * blockBits)
    let k := wordCounts (x.gone.getD (⟨b.index - 1, false, List.replicate 374 0⟩, 0)) (b, v) gone
    let c : ChordRx := { x with
      window := rest, gone := some (b, v), words := x.words.filter fun (w : ChordWord) => !decide (w.start + cwInfo ≤ (b.index + 1) * blockBits) }
    let left := ((s.setRxe n { s.rxe n with
      chord := c.deliver (s.rxMode n).2.1 (blockBytes b.rows) v, verdict := v, winFailed := (s.rxe n).winFailed + ofBool (decide (v = 2))
      winExcl := (s.rxe n).winExcl + k.1, winIncl := (s.rxe n).winIncl + k.2.1, winCorr := (s.rxe n).winCorr + k.2.2 }).bumpBy
        (Reg.CW_EXCLUDED n).run k.1).bump64 (Reg.CORR_BITS_LO n).run k.2.2
    if v = 2 then (left.bumpBy (Reg.BLK_FAILED n).run 1).raise (10 + n) 26 else left

theorem blockLeaves_setChord (n : Nat) (x : ChordRx) (s : Dev) : (s.setRxe n { s.rxe n with chord := x }).blockLeaves n = s.oldestLeaves n x := by
  unfold Dev.blockLeaves Dev.oldestLeaves
  rw [rxe_setRxe]
  dsimp only
  cases x.window with
  | nil => rfl
  | cons b rest =>
    simp only [setRxe_setRxe]
    rfl

/-- One step of the window: no whole block, the oldest leaves a full window, or the next block enters too. -/
theorem blockStep_succ (n fuel : Nat) (s : Dev) :
    s.blockStep n (fuel + 1) = if (s.rxe n).chord.fill.length < blockBits then s
      else if s.rd (Reg.FEC_ITER_STAT_WIN n) ≤ (s.rxe n).chord.enter.window.length then s.oldestLeaves n (s.rxe n).chord.enter
      else (s.setRxe n { s.rxe n with chord := (s.rxe n).chord.enter }).blockStep n fuel := by
  rw [← blockLeaves_setChord, Dev.blockStep]
  dsimp only
  rw [rxe_setRxe]
  rfl

theorem Dev.Quiet.oldestLeaves {d e : Dev} (h : Dev.Quiet d e) (n : Nat) (x : ChordRx) : Dev.Quiet d (e.oldestLeaves n x) := by
  unfold Dev.oldestLeaves
  split
  · exact h.setRxe n _
  · refine ite_preserves (P := Dev.Quiet d) _ (fun h => (h.wr _ _).raise _ _) ?_
    exact ((h.setRxe n _).wr _ _).bump64 _ _

theorem Dev.Quiet.blockStep {d e : Dev} (h : Dev.Quiet d e) (n fuel : Nat) : Dev.Quiet d (e.blockStep n fuel) := by
  induction fuel generalizing e with
  | zero => exact h
  | succ fuel ih =>
    rw [blockStep_succ]
    split_ifs
    · exact h
    · exact h.oldestLeaves n _
    · exact ih (h.setRxe n _)

/-! ### O12: the clauses put together -/

/-- Settles O12: a codeword as it is counted and taken, a block by one step of the window, the limit by its step, and the writes by their command bits. -/
theorem chordDecoderCounters : Obligations.ChordDecoderCounters := by
  unfold Obligations.ChordDecoderCounters
  refine ⟨fun n w group blocks s hs ha => ?word, fun n s hs ha => ?block, fun n s hs => ?limit, fun n clear s hs hl ht => ?take,
    fun n s hs hl ht => settles_fecSnap hs (by decide) hl ht, fun n s hs hl ht => ?failClear⟩
  case word =>
    exact settles_exact hs (codeword_aligned w group blocks ha) ((unladen_of_inv hs).quiet ((Dev.Quiet.refl _).wordTaken n _ _))
  case block =>
    have hq := (Dev.Quiet.refl s.dev).blockStep n 16
    rw [blockStep_succ] at hq
    exact settles_exact hs ((if_pos ha).trans (blockStep_succ n 15 s.dev)) ((unladen_of_inv hs).quiet hq)
  case limit =>
    exact settles_kin hs rfl iterStep_kin (((Dev.Quiet.refl _).wr _ _).wr _ _)
  case take =>
    cases clear
    · exact settles_fecSnap hs (v := 1#32) (by decide) hl ht
    · exact settles_fecSnap hs (v := 3#32) (by decide) hl ht
  case failClear =>
    exact settles_kin hs rfl (alignTime_kin hl ht) ((Dev.Quiet.refl _).wr _ _)

end Sys2Proof.Machine
end

section
namespace Sys2Proof.Machine

/-! ### What the frame search starts from (R182) -/

theorem setFra_setFra (s : Dev) (n : Nat) (x y : FrEngine) : (s.setFra n x).setFra n y = s.setFra n y := by
  simp only [Dev.setFra, sset_sset]

theorem fra_setFra (s : Dev) (n : Nat) (x : FrEngine) : (s.setFra n x).fra n = x :=
  sget_sset_same _ _ _

/-- A correction put in force does not touch the frame aligners. -/
theorem colPut_setFra (s : Dev) (n : Nat) (x : FrEngine) (w : ColWhen) (r : Nat) (v : ColVals) :
    (s.setFra n x).colPut w r v = (s.colPut w r v).setFra n x := by
  unfold Dev.colPut
  dsimp only
  split
  · cases w <;> rfl
  · split <;> rfl

theorem colApply_setFra (s : Dev) (n : Nat) (x : FrEngine) (w : ColWhen) : (s.setFra n x).colApply w = (s.colApply w).setFra n x := by
  have hfold : ∀ l : List (ColWhen × Nat × ColVals), ∀ s : Dev, l.foldl (fun s c => s.colPut c.1 c.2.1 c.2.2) (s.setFra n x) =
      (l.foldl (fun s c => s.colPut c.1 c.2.1 c.2.2) s).setFra n x := by
    intro l
    induction l with
    | nil => exact fun _ => rfl
    | cons c l ih =>
      intro s
      rw [List.foldl_cons, colPut_setFra, ih, List.foldl_cons]
  exact congrArg (fun y : Dev => { y with col := { y.col with waiting := y.col.waiting.filter fun c => decide (c.1 ≠ w) } }) (hfold _ s)

theorem raiseIf_false (s : Dev) (g b : Nat) : s.raiseIf false g b = s :=
  rfl

theorem wr_setFra (s : Dev) (n : Nat) (x : FrEngine) (f : Field) (v : Nat) : (s.setFra n x).wr f v = (s.wr f v).setFra n x :=
  rfl

theorem wrB_setFra (s : Dev) (n : Nat) (x : FrEngine) (f : Field) (v : Bool) : (s.setFra n x).wrB f v = (s.wrB f v).setFra n x :=
  rfl

section Frames
variable {n : Nat} {s : Dev}

/-- A move of the frame aligner between states outside ALIGNED: no event, and the corrections that wait for a frame act (Table 13.6). -/
theorem frGo_unaligned {st : Nat} (hw : s.frs n ≠ frAligned) (hst : st ≠ frAligned) (x : FrEngine) :
    (s.setFra n x).frGo n st = (((s.wr (Reg.FR_STAT_STATE n) st).wrB (Reg.FR_STAT_SF n) (decide (st ≠ frAligned))).colApply (ColWhen.frame n)).setFra n
      { x with misses := 0, oofGood := 0 } := by
  have hquiet : decide (((s.setFra n x).frs n = frAligned) ≠ (st = frAligned)) = false :=
    decide_eq_false (by rw [show (s.setFra n x).frs n = s.frs n from rfl]; simp [hw, hst])
  rw [Dev.frGo, hquiet, raiseIf_false, if_neg hst, wr_setFra, wrB_setFra, colApply_setFra, fra_setFra, setFra_setFra]

/-- The frame search started from IDLE (R182). -/
theorem frDelivering_idle (hf : s.frs n = frIdle) :
    s.frDelivering n = ((((s.wr (Reg.FR_STAT_CAND n) 0).wr (Reg.FR_STAT_STATE n) frSearch).wrB (Reg.FR_STAT_SF n) (decide (frSearch ≠ frAligned))).colApply
      (ColWhen.frame n)).setFra n { s.fra n with since := s.clock, cands := [], misses := 0, oofGood := 0 } := by
  have hcand : (s.wr (Reg.FR_STAT_CAND n) 0).frs n ≠ frAligned := by
    rw [Dev.frs, rd_wr_disjoint s _ _ _ (.inr (.inl (by simp))), ← Dev.frs, hf]
    decide
  have hcleared : (s.setFra n { s.fra n with since := s.clock }).setCands n [] =
      (s.wr (Reg.FR_STAT_CAND n) 0).setFra n { s.fra n with since := s.clock, cands := [] } := by
    rw [Dev.setCands, fra_setFra, setFra_setFra]
    rfl
  rw [Dev.frDelivering, if_pos hf, Dev.frToSearch, hcleared, frGo_unaligned hcand (by decide)]

end Frames

end Sys2Proof.Machine
end

section
namespace Sys2Proof.Machine

/-! ### O13: moves of the chord aligner (Table 5.5) -/

section Moves
variable {n : Nat} {s : Dev}

/-- A move between states outside ALIGNED: no event. -/
theorem alGo_unaligned {st : Nat} (hw : s.als n ≠ alAligned) (hst : st ≠ alAligned) :
    s.alGo n st = (if st = alCw then (s.wr (Reg.ALIGN_STAT_STATE n) st).wr (Reg.ALIGN_STAT_TWIN_SKEW n) 0
      else s.wr (Reg.ALIGN_STAT_STATE n) st).frToIdle n := by
  have hquiet : decide ((s.als n = alAligned) ≠ (st = alAligned)) = false := decide_eq_false (by simp [hw, hst])
  rw [Dev.alGo, hquiet, if_neg hst]
  rfl

/-- The entry to ALIGNED: E-1n.30, and the decoder delivers. -/
theorem alGo_enters (hw : s.als n ≠ alAligned) :
    Dev.Kin [(10 + n, 30)] ((s.wr (Reg.ALIGN_STAT_STATE n) alAligned).frDelivering n) (s.alGo n alAligned) := by
  have hraise : decide ((s.als n = alAligned) ≠ (alAligned = alAligned)) = true := decide_eq_true (by simp [hw])
  rw [Dev.alGo, hraise, if_pos rfl]
  exact (Dev.Kin.raise _ _ _).frDelivering n

/-- The departure from ALIGNED to RETRY_WAIT: E-1n.30. -/
theorem alGo_leaves (hw : s.als n = alAligned) :
    Dev.Kin [(10 + n, 30)] ((s.wr (Reg.ALIGN_STAT_STATE n) alRetry).frToIdle n) (s.alGo n alRetry) := by
  have hraise : decide ((s.als n = alAligned) ≠ (alRetry = alAligned)) = true := decide_eq_true (by simp [hw])
  rw [Dev.alGo, hraise, if_neg (by decide)]
  exact (Dev.Kin.raise _ _ _).frToIdle n

/-- A failure counted, with its cause, and RETRY_WAIT entered (R153), before E-1n.30. -/
def Dev.alFailed (n cause : Nat) (s : Dev) : Dev :=
  ((((s.wr (Reg.ALIGN_STAT_LAST_FAIL n) cause).bump (Reg.ALIGN_FAIL_CNT n)).wr (Reg.ALIGN_STAT_STATE n) alRetry).frToIdle n).settleCourses

theorem Dev.Quiet.alFailed {d : Dev} (h : Dev.Quiet d s) (cause : Nat) : Dev.Quiet d (s.alFailed n cause) :=
  ((((h.wr _ _).wr _ _).wr _ _).frToIdle n).settleCourses

/-- Every failure raises E-1n.30 once, from ALIGNED too (R153). -/
theorem alFail_kin (cause : Nat) : Dev.Kin [(10 + n, 30)] (s.alFailed n cause) (s.alFail n cause) := by
  rw [Dev.alFail, Dev.alFailed]
  refine Dev.Kin.settleCourses ?_
  split
  next ha => exact alGo_leaves ha
  next ha =>
    rw [alGo_unaligned ha (by decide), if_neg (by decide)]
    exact Dev.Kin.raise _ _ _

/-! A phase confirmed (R151, R152) -/

/-- The decoder's phases set. -/
def Dev.phased (n : Nat) (p : Nat × Nat × Nat) (s : Dev) : Dev :=
  s.setRxe n { s.rxe n with chord := { (s.rxe n).chord with phases := p } }

theorem alConfirm_dm {phase : Option Nat} {v : Nat} (ha : s.als n = alDm) (hp : (phase <|> (s.carriedPhases n).map (·.1)) = some v) :
    s.alConfirm n phase =
      (((s.phased n (v % 128, (s.rxe n).chord.phases.2)).wr (Reg.ALIGN_STAT_STATE n) alCw).wr (Reg.ALIGN_STAT_TWIN_SKEW n) 0).frToIdle n := by
  have hgo := alGo_unaligned (s := s.phased n (v % 128, (s.rxe n).chord.phases.2)) (n := n) (st := alCw) (ha.trans_ne (by decide)) (by decide)
  rw [if_pos rfl] at hgo
  rw [← hgo, Dev.alConfirm, if_pos ha, hp]
  rfl

theorem alConfirm_cw {phase : Option Nat} {v : Nat} (ha : s.als n = alCw) (hp : (phase <|> (s.carriedPhases n).map (·.2.1)) = some v) :
    s.alConfirm n phase =
      ((s.phased n ((s.rxe n).chord.phases.1, v % 73792, (s.rxe n).chord.phases.2.2)).wr (Reg.ALIGN_STAT_STATE n) alSc).frToIdle n := by
  have hgo := alGo_unaligned (s := s.phased n ((s.rxe n).chord.phases.1, v % 73792, (s.rxe n).chord.phases.2.2)) (n := n) (st := alSc)
    (ha.trans_ne (by decide)) (by decide)
  rw [if_neg (by decide)] at hgo
  rw [← hgo, Dev.alConfirm, if_neg (by rw [ha]; decide), if_pos ha, hp]
  rfl

/-- The decoder started at the next block, at a staircase phase, with ALIGN_TIME and ALIGNED shown (R151, log 174). -/
def Dev.chordStarted (n p : Nat) (s : Dev) : Dev :=
  ((s.setRxe n { s.rxe n with chord := { ChordRx.reset with
    skip := p, phases := ((s.rxe n).chord.phases.1, (s.rxe n).chord.phases.2.1, p), kept := some ((s.rxe n).chord.phases.1, (s.rxe n).chord.phases.2.1, p) } }).wr
      (Reg.ALIGN_TIME_LAST_US n) (min 65535 ((s.clock - (s.rxe n).lockedAt) / 1000))).wr (Reg.ALIGN_STAT_STATE n) alAligned

theorem chordOpen_phased (p : Nat × Nat × Nat) :
    (s.phased n p).chordOpen n = s.setRxe n { s.rxe n with chord := { ChordRx.reset with skip := p.2.2, phases := p, kept := some p } } := by
  simp only [Dev.chordOpen, Dev.phased, rxe_setRxe, setRxe_setRxe]
  rfl

theorem alConfirm_sc {phase : Option Nat} {v : Nat} (ha : s.als n = alSc) (hp : (phase <|> (s.carriedPhases n).map (·.2.2)) = some v) :
    Dev.Kin [(10 + n, 30)] ((s.chordStarted n (v % 139876)).frDelivering n) (s.alConfirm n phase) := by
  have hals : (((s.phased n ((s.rxe n).chord.phases.1, (s.rxe n).chord.phases.2.1, v % 139876)).chordOpen n).wr (Reg.ALIGN_TIME_LAST_US n)
      (min 65535 ((s.clock - (s.rxe n).lockedAt) / 1000))).als n ≠ alAligned := by
    rw [Dev.als, rd_wr_ne _ _ _ _ (by simp only [regCell]; omega), ← Dev.als, show ((s.phased n _).chordOpen n).als n = s.als n from rfl, ha]
    decide
  have hstart : (((s.phased n ((s.rxe n).chord.phases.1, (s.rxe n).chord.phases.2.1, v % 139876)).chordOpen n).wr (Reg.ALIGN_TIME_LAST_US n)
      (min 65535 ((s.clock - (s.rxe n).lockedAt) / 1000))).wr (Reg.ALIGN_STAT_STATE n) alAligned = s.chordStarted n (v % 139876) := by
    rw [chordOpen_phased, Dev.chordStarted]
  have hgo := alGo_enters hals
  rw [hstart] at hgo
  rw [Dev.alConfirm, if_neg (by rw [ha]; decide), if_neg (by rw [ha]; decide), if_pos ha, hp]
  exact hgo

/-- With neither a phase found nor one carried forward nothing changes. -/
theorem alConfirm_none (hc : s.carriedPhases n = none) : s.alConfirm n none = s := by
  simp only [Dev.alConfirm, hc]
  split_ifs <;> rfl

/-- The states that wait for no phase. -/
theorem alConfirm_rests (phase : Option Nat) (ha : s.als n = alIdle ∨ s.als n = alAligned ∨ s.als n = alRetry) : s.alConfirm n phase = s := by
  rw [Dev.alConfirm]
  obtain h | h | h := ha <;> rw [h] <;> rfl

/-! A search at its limit (R152, R153) -/

theorem alLimit_walkOff (ha : s.als n = alCw) (ht : s.rxTwin n = true) : s.alLimit n true = (s.alFail n 4).wr (Reg.ALIGN_STAT_TWIN_SKEW n) 1 :=
  if_pos ⟨ha, rfl, ht⟩

/-- The search that a state runs fails with the state's cause, unless a twin pair walked off. -/
theorem alLimit_cause {st cause : Nat} {walkOff : Bool} (hc : (st, cause) ∈ [(alDm, 1), (alCw, 2), (alSc, 3)]) (ha : s.als n = st)
    (hw : walkOff = false ∨ s.rxTwin n = false) : s.alLimit n walkOff = s.alFail n cause := by
  have hnot : ¬ (s.als n = alCw ∧ walkOff ∧ s.rxTwin n) := by
    rintro ⟨-, hon, htwin⟩
    obtain h | h := hw
    · exact absurd hon (by simp [h])
    · exact absurd htwin (by simp [h])
  rw [Dev.alLimit, if_neg hnot, ha]
  simp only [List.mem_cons, Prod.mk.injEq, List.not_mem_nil, or_false] at hc
  obtain ⟨rfl, rfl⟩ | ⟨rfl, rfl⟩ | ⟨rfl, rfl⟩ := hc <;> rfl

theorem alLimit_rests (walkOff : Bool) (ha : s.als n = alIdle ∨ s.als n = alAligned ∨ s.als n = alRetry) : s.alLimit n walkOff = s := by
  rw [Dev.alLimit]
  obtain h | h | h := ha <;> rw [h] <;> rfl

/-- A retry that expires starts the search from its first state. -/
theorem alSearch_retry (ha : s.als n = alRetry) :
    s.alSearch n = (if s.rd (Reg.RX_MODE_CONST (s.rxLead n)) = 2 then s.wr (Reg.ALIGN_STAT_STATE n) alDm
      else (s.wr (Reg.ALIGN_STAT_STATE n) alCw).wr (Reg.ALIGN_STAT_TWIN_SKEW n) 0).frToIdle n := by
  have hne : s.als n ≠ alAligned := ha.trans_ne (by decide)
  rw [Dev.alSearch]
  split
  · rw [alGo_unaligned hne (by decide), if_neg (by decide)]
  · rw [alGo_unaligned hne (by decide), if_pos rfl]

end Moves

/-! ### O13: the clauses put together -/

section Commands
variable {n : Fin 8} {s : State} (hs : s.Inv)
include hs

/-- DM_SEARCH ends with a phase, found or carried forward. -/
theorem settles_confirm_dm {phase : Option Nat} {v : Nat} (ha : s.dev.als n = alDm) (hp : (phase <|> (s.dev.carriedPhases n).map (·.1)) = some v) :
    ∃ t, exec (.alignPhaseConfirmed ⟨n, phase⟩) s = .next t ∧ State.Settles []
      ((((s.dev.phased n (v % 128, (s.dev.rxe n).chord.phases.2)).wr (Reg.ALIGN_STAT_STATE n) alCw).wr (Reg.ALIGN_STAT_TWIN_SKEW n) 0).frToIdle n) s t :=
  settles_exact hs (alConfirm_dm ha hp) ((unladen_of_inv hs).quiet (((((Dev.Quiet.refl _).setRxe n _).wr _ _).wr _ _).frToIdle n))

/-- CW_SEARCH ends with a phase. -/
theorem settles_confirm_cw {phase : Option Nat} {v : Nat} (ha : s.dev.als n = alCw) (hp : (phase <|> (s.dev.carriedPhases n).map (·.2.1)) = some v) :
    ∃ t, exec (.alignPhaseConfirmed ⟨n, phase⟩) s = .next t ∧ State.Settles []
      (((s.dev.phased n ((s.dev.rxe n).chord.phases.1, v % 73792, (s.dev.rxe n).chord.phases.2.2)).wr (Reg.ALIGN_STAT_STATE n) alSc).frToIdle n) s t :=
  settles_exact hs (alConfirm_cw ha hp) ((unladen_of_inv hs).quiet ((((Dev.Quiet.refl _).setRxe n _).wr _ _).frToIdle n))

/-- SC_SEARCH ends with a phase: the decoder starts to deliver. -/
theorem settles_confirm_sc {phase : Option Nat} {v : Nat} (ha : s.dev.als n = alSc) (hp : (phase <|> (s.dev.carriedPhases n).map (·.2.2)) = some v) :
    ∃ t, exec (.alignPhaseConfirmed ⟨n, phase⟩) s = .next t ∧ State.Settles [(10 + n.val, 30)]
      ((s.dev.chordStarted n (v % 139876)).frDelivering n) s t :=
  settles_kin hs rfl (alConfirm_sc ha hp) (((((Dev.Quiet.refl _).setRxe n _).wr _ _).wr _ _).frDelivering n)

/-- A command that comes to a failure of the alignment. -/
theorem settles_alFail {f : Dev → Dev} {cause : Nat} (hf : f s.dev = s.dev.alFail n cause) :
    ∃ t, s.run f = .next t ∧ State.Settles [(10 + n.val, 30)] (s.dev.alFailed n cause) s t :=
  settles_kin hs hf (alFail_kin cause) ((Dev.Quiet.refl _).alFailed cause)

end Commands

/-- The frame aligner stays as the chord decoder starts. -/
theorem frs_chordStarted {n : Nat} (hn : n < 8) (p : Nat) (s : Dev) : (s.chordStarted n p).frs n = s.frs n := by
  rw [Dev.chordStarted, Dev.frs, rd_wr_ne _ _ _ _ (by simp only [regCell]; omega), rd_wr_ne _ _ _ _ (by simp only [regCell]; omega)]
  rfl

/-- Settles O13: a phase, a limit, a loss and a retry by the move of the aligner that each comes to. -/
theorem chordAlignment : Obligations.ChordAlignment := by
  unfold Obligations.ChordAlignment
  refine ⟨fun n v s hs ha => settles_confirm_dm hs ha rfl, fun n c s hs ha hc => settles_confirm_dm hs ha (by rw [hc]; rfl),
    fun n s hs hc => settles_idle hs (alConfirm_none hc), fun n v s hs ha => settles_confirm_cw hs ha rfl, fun n v s hs ha hf => ?startsIdle,
    fun n st cause s hs hc ha => settles_alFail hs (alLimit_cause hc ha (.inl rfl)), fun n s hs ha ht => ?walkOff,
    fun n s hs ha hl => settles_alFail hs (if_pos ⟨ha, hl⟩), fun n s hs ha => ?retry, fun n v s hs ha => settles_confirm_sc hs ha rfl,
    fun n c s hs ha hc => settles_confirm_sc hs ha (by rw [hc]; rfl), fun n c s hs ha hc => settles_confirm_cw hs ha (by rw [hc]; rfl),
    fun n v s hs ha => settles_idle hs (alConfirm_rests v ha), fun n w s hs ha hw => settles_alFail hs (alLimit_cause (by simp) ha hw),
    fun n w s hs ha => settles_idle hs (alLimit_rests w ha), fun n s hs ha => settles_idle hs (if_neg ?lossNot), fun n s hs ha => settles_idle hs (if_neg ha)⟩
  case startsIdle =>
    have hset := settles_confirm_sc (phase := some v) hs ha rfl
    rw [frDelivering_idle ((frs_chordStarted n.isLt _ _).trans hf)] at hset
    exact hset
  case walkOff =>
    exact settles_kin hs (alLimit_walkOff ha ht) ((alFail_kin 4).write _ rfl) (((Dev.Quiet.refl _).alFailed 4).wr _ _)
  case retry =>
    refine settles_exact hs ((if_pos ha).trans (alSearch_retry ha)) ((unladen_of_inv hs).quiet (Dev.Quiet.frToIdle ?_ n))
    exact ite_preserves (P := Dev.Quiet s.dev) _ (fun _ => (Dev.Quiet.refl _).wr _ _) (((Dev.Quiet.refl _).wr _ _).wr _ _)
  case lossNot =>
    rintro ⟨h, hl⟩
    obtain hne | hno := ha
    · exact hne h
    · exact absurd hl (by simp [hno])

end Sys2Proof.Machine
end

section
namespace Sys2Proof.Machine

/-! ### The frame aligner's candidates and moves (Tables 6.2 and 6.3) -/

theorem setBits_setBits (w : Word) (l k u v : Nat) : setBits (setBits w l k u) l k v = setBits w l k v := by
  apply BitVec.eq_of_getLsbD_eq
  intro i hi
  simp only [getLsbD_setBits, hi, decide_true, Bool.true_and]
  split
  · rfl
  · rfl

/-- Of two writes of one field the later stands. -/
theorem wr_wr_same (s : Dev) (f : Field) (u v : Nat) : (s.wr f u).wr f v = s.wr f v := by
  have hw : ∀ a b : Word, (s.setWord f.cell a).setWord f.cell b = s.setWord f.cell b := fun a b => by
    simp only [Dev.setWord, sset_sset]
  rw [Dev.wr, Dev.wr, word_setWord_same, setBits_setBits, hw, Dev.wr]

section Aligner
variable {n : Nat} {s : Dev}

/-! What the tracked candidates leave -/

theorem setCands_eq (cs : List Candidate) :
    s.setCands n cs = (s.wr (Reg.FR_STAT_CAND n) cs.length).setFra n { s.fra n with cands := cs } :=
  rfl

theorem fra_setCands (cs : List Candidate) : (s.setCands n cs).fra n = { s.fra n with cands := cs } :=
  fra_setFra _ _ _

theorem setCands_setCands (cs ds : List Candidate) : (s.setCands n cs).setCands n ds = s.setCands n ds := by
  rw [setCands_eq, fra_setCands, setCands_eq, wr_setFra, setFra_setFra, wr_wr_same, setCands_eq]

theorem frs_cand (v : Nat) : (s.wr (Reg.FR_STAT_CAND n) v).frs n = s.frs n :=
  rd_wr_disjoint s _ _ _ (.inr (.inl (by simp)))

theorem frs_setCands (cs : List Candidate) : (s.setCands n cs).frs n = s.frs n :=
  frs_cand _

/-- The mode in force is not in the word that shows the candidates. -/
theorem rxSlots_setCands (hn : n < 8) (cs : List Candidate) : (s.setCands n cs).rxSlots n = s.rxSlots n := by
  have hrd : ∀ f : Field, f.cell ≠ (Reg.FR_STAT_CAND n).cell → (s.setCands n cs).rd f = s.rd f := fun f hf => rd_wr_ne s _ f _ hf
  have htwin : (s.setCands n cs).rxTwin n = s.rxTwin n := by
    rw [Dev.rxTwin, Dev.rxTwin, Dev.on, Dev.on, hrd _ (by simp only [regCell]; omega)]
  have hlead : s.rxLead n < 8 := by
    rw [Dev.rxLead]
    split <;> omega
  rw [Dev.rxSlots, Dev.rxSlots, Dev.rxLead, htwin, ← Dev.rxLead, hrd _ (by simp only [regCell]; omega)]

theorem dueAt_setCands (hn : n < 8) (cs : List Candidate) (c : Candidate) : (s.setCands n cs).dueAt n c = s.dueAt n c := by
  rw [Dev.dueAt, Dev.dueAt, rxSlots_setCands hn]

theorem frAlign_setCands (cs : List Candidate) (pos mfas : Nat) (timed : Bool) :
    (s.setCands n cs).frAlign n pos mfas timed = s.frAlign n pos mfas timed := by
  rw [Dev.frAlign, setCands_setCands, Dev.frAlign]

theorem frRecover_good (hf : s.frs n = frOof) (hg : 2 ≤ (s.fra n).oofGood) :
    s.frRecover n = s.frAlign n (s.fra n).pos (s.fra n).mfas false :=
  if_pos ⟨hf, hg⟩

theorem frRecover_setCands (cs : List Candidate) (hf : s.frs n = frOof) (hg : 2 ≤ (s.fra n).oofGood) :
    (s.setCands n cs).frRecover n = s.frRecover n := by
  have hg' : 2 ≤ ((s.setCands n cs).fra n).oofGood := by rwa [fra_setCands]
  rw [frRecover_good ((frs_setCands cs).trans hf) hg', frRecover_good hf hg, frAlign_setCands, fra_setCands]

/-! Moves -/

/-- A move outside ALIGNED that leaves these candidates, as the registers show it. -/
theorem frGo_setCands {st : Nat} (hw : s.frs n ≠ frAligned) (hst : st ≠ frAligned) (cs : List Candidate) :
    (s.setCands n cs).frGo n st =
      ((((s.wr (Reg.FR_STAT_CAND n) cs.length).wr (Reg.FR_STAT_STATE n) st).wrB (Reg.FR_STAT_SF n) (decide (st ≠ frAligned))).colApply
        (ColWhen.frame n)).setFra n { s.fra n with cands := cs, misses := 0, oofGood := 0 } := by
  rw [setCands_eq, frGo_unaligned ((frs_cand _).trans_ne hw) hst]

/-- The entry to ALIGNED: E-18.(n), and no signal fail. -/
theorem frGo_enters (hw : s.frs n ≠ frAligned) :
    Dev.Kin [(18, n)] (((s.wr (Reg.FR_STAT_STATE n) frAligned).wrB (Reg.FR_STAT_SF n) (decide (frAligned ≠ frAligned))).setFra n
      { s.fra n with misses := 0, oofGood := 0 }) (s.frGo n frAligned) := by
  have hraise : decide ((s.frs n = frAligned) ≠ (frAligned = frAligned)) = true := decide_eq_true (by simp [hw])
  have hkin := Dev.Kin.raise ((s.wr (Reg.FR_STAT_STATE n) frAligned).wrB (Reg.FR_STAT_SF n) (decide (frAligned ≠ frAligned))) 18 n
  rw [Dev.frGo, hraise, if_pos rfl]
  exact hkin.setFra n (congrArg (fun x : FrEngine => { x with misses := 0, oofGood := 0 }) (hkin.fra_eq n))

/-- The corrections that wait for a frame leave the aligners. -/
theorem fra_colApply (w : ColWhen) : (s.colApply w).fra n = s.fra n := by
  have hput : ∀ (s : Dev) (w : ColWhen) (r : Nat) (v : ColVals), (s.colPut w r v).fra n = s.fra n := fun s w r v => by
    unfold Dev.colPut
    dsimp only
    split
    · cases w <;> rfl
    · split <;> rfl
  exact List.foldlRecOn (motive := fun x : Dev => x.fra n = s.fra n) _ _ rfl fun x hx c _ => (hput x c.1 c.2.1 c.2.2).trans hx

/-- The departure from ALIGNED to OOF: E-18.(n), signal fail, and the corrections that wait for a frame act. -/
theorem frGo_leaves (hw : s.frs n = frAligned) :
    Dev.Kin [(18, n)] ((((s.wr (Reg.FR_STAT_STATE n) frOof).wr (Reg.FR_STAT_SF n) 1).colApply (ColWhen.frame n)).setFra n
      { s.fra n with misses := 0, oofGood := 0 }) (s.frGo n frOof) := by
  have hraise : decide ((s.frs n = frAligned) ≠ (frOof = frAligned)) = true := decide_eq_true (by simp [hw])
  have hkin := (Dev.Kin.raise ((s.wr (Reg.FR_STAT_STATE n) frOof).wr (Reg.FR_STAT_SF n) 1) 18 n).colApply (ColWhen.frame n)
  have hfra := (hkin.fra_eq n).trans (fra_colApply _)
  rw [Dev.frGo, hraise, if_neg (by decide)]
  exact hkin.setFra n (congrArg (fun x : FrEngine => { x with misses := 0, oofGood := 0 }) hfra)

/-- ALIGNED shown, with the place of the next frame and the count expected in it, and the courses brought up to date (R182), before E-18.(n). -/
def Dev.frPlaced (n pos mfas : Nat) (s : Dev) : Dev :=
  (((s.wr (Reg.FR_STAT_STATE n) frAligned).wrB (Reg.FR_STAT_SF n) (decide (frAligned ≠ frAligned))).setFra n
    { s.fra n with cands := [], pos := pos, mfas := mfas % 256, misses := 0, oofGood := 0 }).settleCourses

theorem frs_bump {f : Field} (h : (Reg.FR_STAT_STATE n).cell ≠ f.cell) : (s.bump f).frs n = s.frs n :=
  rd_wr_ne _ _ _ _ h

theorem frs_alignTime (v : Nat) : (s.wr (Reg.FR_ALIGN_TIME_LAST_US n) v).frs n = s.frs n :=
  rd_wr_ne _ _ _ _ (by simp only [regCell]; omega)

/-- The entry to ALIGNED with the place of its next frame, from what the registers show before it. -/
theorem frGo_placed {pos mfas : Nat} (hw : s.frs n ≠ frAligned) :
    Dev.Kin [(18, n)] (s.frPlaced n pos mfas)
      ((s.setFra n { s.fra n with cands := [], pos := pos, mfas := mfas % 256 }).frGo n frAligned).settleCourses := by
  have hkin := frGo_enters (s := s.setFra n { s.fra n with cands := [], pos := pos, mfas := mfas % 256 }) (n := n) hw
  rw [wr_setFra, wrB_setFra, setFra_setFra, fra_setFra] at hkin
  exact hkin.settleCourses

theorem frAlign_untimed (pos mfas : Nat) (hw : s.frs n ≠ frAligned) :
    Dev.Kin [(18, n)] ((s.wr (Reg.FR_STAT_CAND n) 0).frPlaced n pos mfas) (s.frAlign n pos mfas false) := by
  rw [Dev.frAlign, fra_setCands, setCands_eq, setFra_setFra]
  exact frGo_placed ((frs_cand _).trans_ne hw)

theorem frAlign_timed (pos mfas : Nat) (hw : s.frs n ≠ frAligned) :
    Dev.Kin [(18, n)] (((s.wr (Reg.FR_STAT_CAND n) 0).wr (Reg.FR_ALIGN_TIME_LAST_US n) (min 65535 ((s.clock - (s.fra n).since) / 1000))).frPlaced n pos mfas)
      (s.frAlign n pos mfas true) := by
  rw [Dev.frAlign, fra_setCands, setCands_eq, setFra_setFra, if_pos rfl, fra_setFra, wr_setFra]
  exact frGo_placed (((frs_alignTime _).trans (frs_cand _)).trans_ne hw)

/-! ### What each command comes to -/

/-! A position passes (R180, R182) -/

theorem frPass_rests {pos : Nat} (h : s.frs n = frIdle ∨ s.frs n = frAligned ∨ s.passAt n pos = none) : s.frPass n pos = s := by
  rw [Dev.frPass]
  split
  next => rfl
  next hst =>
    rw [(or_assoc.mpr h).resolve_left hst]

theorem frPass_tracked {pos m : Nat} (hf : s.frs n ≠ frIdle ∧ s.frs n ≠ frAligned) (hp : s.passAt n pos = some m)
    (hd : ((s.fra n).cands.any fun c => decide (s.dueAt n c = pos)) = true) :
    s.frPass n pos = s.setCands n ((s.fra n).cands.map fun c => if s.dueAt n c = pos then
      (if m = (c.mfas + 1) % 256 then { c with passes := c.passes + 1, mfas := m } else ⟨pos, 1, m, false⟩) else c) := by
  rw [Dev.frPass, if_neg (not_or.mpr hf), hp]
  exact if_pos hd

theorem frPass_new {pos m : Nat} (hf : s.frs n ≠ frIdle ∧ s.frs n ≠ frAligned) (hp : s.passAt n pos = some m)
    (hd : ((s.fra n).cands.any fun c => decide (s.dueAt n c = pos)) = false)
    (hm : ((s.fra n).cands.any fun c => decide (c.pos % frameBits (s.rxSlots n) = pos % frameBits (s.rxSlots n))) = false) :
    s.frPass n pos = (fun d : Dev => if s.frs n = frSearch then d.frGo n frConfirm else d)
      (if (s.fra n).cands.length < 8 then s.setCands n ((s.fra n).cands ++ [⟨pos, 1, m, false⟩]) else s) := by
  have hkept : (if (s.fra n).cands.length < 8 then s.setCands n ((s.fra n).cands ++ [⟨pos, 1, m, false⟩]) else s).frs n = s.frs n :=
    ite_preserves (P := fun d => d.frs n = s.frs n) _ (fun _ => frs_setCands _) rfl
  simp only [Dev.frPass, if_neg (not_or.mpr hf), hp, hd, hm, hkept, if_neg Bool.false_ne_true]

/-! A candidate is confirmed (R180, R182) -/

/-- The candidates with those that passed first at `pos` marked confirmed. -/
abbrev confirmedAt (pos : Nat) (cs : List Candidate) : List Candidate :=
  cs.map fun x => if x.pos = pos then { x with confirmed := true } else x

section Confirm
variable {c : Candidate} (hc : ((s.fra n).cands.find? fun x => decide (x.pos = c.pos) && decide (3 ≤ x.passes)) = some c)
include hc

theorem frConfirmAt_first (hf : s.frs n = frConfirm) (hl : (s.fra n).cands.length = 1) :
    s.frConfirmAt n c.pos = s.frAlign n (s.dueAt n c) (c.mfas + 1) true := by
  simp only [Dev.frConfirmAt, hc, hf, hl, if_true, decide_true, frAlign_setCands]

theorem frConfirmAt_beside (hf : s.frs n = frConfirm) (hl : (s.fra n).cands.length ≠ 1) :
    s.frConfirmAt n c.pos = (s.setCands n (confirmedAt c.pos (s.fra n).cands) |> fun d : Dev =>
      d.setFra n { d.fra n with ambig := c.passes + 64 }).frGo n frAmbiguous := by
  simp only [Dev.frConfirmAt, hc, hf, if_true, hl, decide_false, if_neg Bool.false_ne_true]

theorem frConfirmAt_realigns (hf : s.frs n = frOof) (hl : (s.fra n).cands.length = 1) (hg : (s.fra n).oofGood < 2) :
    s.frConfirmAt n c.pos = (s.frAlign n (s.dueAt n c) (c.mfas + 1) false).bump (Reg.FR_REALIGN_CNT n) := by
  simp only [Dev.frConfirmAt, hc, hf, hl, decide_true, and_self, if_true, if_neg (Nat.not_le.mpr hg), frAlign_setCands]
  rfl

theorem frConfirmAt_recovers (hf : s.frs n = frOof) (hl : (s.fra n).cands.length = 1) (hg : 2 ≤ (s.fra n).oofGood) :
    s.frConfirmAt n c.pos = s.frRecover n := by
  simp only [Dev.frConfirmAt, hc, hf, hl, decide_true, and_self, if_true, if_pos hg, frRecover_setCands _ hf hg]
  rfl

theorem frConfirmAt_marks (h : (s.frs n = frOof ∧ (s.fra n).cands.length ≠ 1) ∨ (s.frs n ≠ frOof ∧ s.frs n ≠ frConfirm)) :
    s.frConfirmAt n c.pos = s.setCands n (confirmedAt c.pos (s.fra n).cands) := by
  have hconf : s.frs n ≠ frConfirm := h.elim (fun h => h.1.trans_ne (by decide)) (·.2)
  have hoof : ¬ (s.frs n = frOof ∧ decide ((s.fra n).cands.length = 1) = true) := by
    rintro ⟨hf, hl⟩
    obtain ⟨-, hne⟩ | ⟨hne, -⟩ := h
    · exact hne (of_decide_eq_true hl)
    · exact hne hf
  simp only [Dev.frConfirmAt, hc, if_neg hconf, if_neg hoof]

end Confirm

theorem frConfirmAt_none {pos : Nat} (h : ((s.fra n).cands.find? fun c => decide (c.pos = pos) && decide (3 ≤ c.passes)) = none) :
    s.frConfirmAt n pos = s := by
  rw [Dev.frConfirmAt, h]

/-- The only candidate is found where it passed three times. -/
theorem find_only {c : Candidate} (hc : (s.fra n).cands = [c]) (hp : 3 ≤ c.passes) :
    ((s.fra n).cands.find? fun x => decide (x.pos = c.pos) && decide (3 ≤ x.passes)) = some c := by
  simp [hc, hp]

/-! A candidate fails (R180, R182) -/

/-- A candidate stays where one that passed first at `pos` fails: it passed first elsewhere, the stream has not come to its next pass, or it passes there. -/
abbrev Dev.frStays (s : Dev) (n pos : Nat) (c : Candidate) : Bool :=
  !(decide (c.pos = pos) && (s.rxe n).chord.has (s.dueAt n c) (64 * s.rxSlots n) && decide (s.passAt n (s.dueAt n c) ≠ some ((c.mfas + 1) % 256)))

/-- What the candidates left after a failure make of the aligner (R182). -/
def Dev.frLeft (n : Nat) (s : Dev) : List Candidate → Dev
  | [] => if s.frs n = frConfirm ∨ s.frs n = frAmbiguous then (s.setCands n []).frGo n frSearch else s.setCands n []
  | [c] =>
    if s.frs n = frOof ∧ c.confirmed = true then
      (if 2 ≤ (s.fra n).oofGood then (s.setCands n [c]).frRecover n
      else ((s.setCands n [c]).frAlign n (s.dueAt n c) (c.mfas + 1) false).bump (Reg.FR_REALIGN_CNT n))
    else s.setCands n [c]
  | cs => s.setCands n cs

theorem frLeft_many {cs : List Candidate} (h : 2 ≤ cs.length) : s.frLeft n cs = s.setCands n cs := by
  match cs with
  | _ :: _ :: _ => rfl

theorem frFailAt_rests {pos : Nat} (h : s.frs n = frIdle ∨ s.frs n = frAligned ∨ (s.fra n).cands.all (s.frStays n pos) = true) : s.frFailAt n pos = s :=
  if_pos h

theorem frFailAt_left (hn : n < 8) {pos : Nat} (hf : s.frs n ≠ frIdle ∧ s.frs n ≠ frAligned) (hs : (s.fra n).cands.all (s.frStays n pos) = false) :
    s.frFailAt n pos = s.frLeft n ((s.fra n).cands.filter (s.frStays n pos)) := by
  have hgo : ¬ (s.frs n = frIdle ∨ s.frs n = frAligned ∨ (s.fra n).cands.all (s.frStays n pos) = true) := by
    simp [hf, hs]
  refine (if_neg hgo).trans ?_
  generalize (s.fra n).cands.filter (s.frStays n pos) = cs
  simp only [fra_setCands, frs_setCands, dueAt_setCands hn]
  match cs with
  | [] => rfl
  | [c] => rfl
  | _ :: _ :: _ => rfl

/-! Ambiguity, header misses and LOF (R182 to R184) -/

theorem frResolve_empty (hf : s.frs n = frAmbiguous) (hc : (s.fra n).cands = []) : s.frResolve n = s.frGo n frSearch := by
  simp only [Dev.frResolve, hf, hc, if_true]

theorem frResolve_one {c : Candidate} (hf : s.frs n = frAmbiguous) (hc : (s.fra n).cands = [c]) (hd : c.confirmed = true)
    (ha : (s.fra n).ambig ≤ c.passes) : s.frResolve n = s.frAlign n (s.dueAt n c) (c.mfas + 1) false := by
  simp [Dev.frResolve, hf, hc, hd, ha]

theorem frResolve_many (hf : s.frs n = frAmbiguous) (hl : 2 ≤ (s.fra n).cands.length)
    (hd : (s.fra n).cands.any (fun c => c.confirmed && decide ((s.fra n).ambig ≤ c.passes)) = true) :
    s.frResolve n = ((s.bump (Reg.FR_AMBIG_CNT n)).frToSearch n).raise 18 (8 + n) := by
  simp only [Dev.frResolve, if_pos hf, hd, if_true]
  match (s.fra n).cands, hl with
  | _ :: _ :: _, _ => rfl

theorem frResolve_rests (h : s.frs n ≠ frAmbiguous ∨ ((s.fra n).cands ≠ [] ∧
    ((s.fra n).cands.any fun c => c.confirmed && decide ((s.fra n).ambig ≤ c.passes)) = false)) : s.frResolve n = s := by
  obtain hf | ⟨hc, hd⟩ := h
  · exact if_neg hf
  · simp only [Dev.frResolve, hd, if_neg Bool.false_ne_true]
    match (s.fra n).cands, hc with
    | [_], _ => exact ite_self _
    | _ :: _ :: _, _ => exact ite_self _

/-- LOF is written with the value that it has, or changes with E-18.(n). -/
theorem setLof_kin (hn : n < 8) (v : Bool) :
    Dev.Kin (if s.on (Reg.FR_STAT_LOF n) = v then [] else [(18, n)]) (s.wrB (Reg.FR_STAT_LOF n) v) (s.setLof n v) := by
  rw [Dev.setLof]
  split
  next h =>
    have hrd : s.rd (Reg.FR_STAT_LOF n) = ofBool v := by
      have hlt : s.rd (Reg.FR_STAT_LOF n) < 2 := rd_lt s (Reg.FR_STAT_LOF n)
      rw [← h, Dev.on]
      interval_cases s.rd (Reg.FR_STAT_LOF n) <;> rfl
    have hself := Dev.Kin.wr_self s (f := Reg.FR_STAT_LOF n) (by simp only [regCell]; omega)
    rwa [hrd] at hself
  next => exact Dev.Kin.raise _ _ _

/-! No operation of the aligner stores or speaks for another agent -/

section Quiet
variable {d : Dev} (h : Dev.Quiet d s)
include h

theorem Dev.Quiet.setCands (cs : List Candidate) : Dev.Quiet d (s.setCands n cs) :=
  (h.setFra n _).wr _ _

theorem Dev.Quiet.frPlaced (pos mfas : Nat) : Dev.Quiet d (s.frPlaced n pos mfas) :=
  (((h.wr _ _).wr _ _).setFra n _).settleCourses

theorem Dev.Quiet.frAlign (pos mfas : Nat) : Dev.Quiet d (s.frAlign n pos mfas false) :=
  (((h.setCands _).setFra n _).frGo n _).settleCourses

theorem Dev.Quiet.frRecover : Dev.Quiet d (s.frRecover n) :=
  ite_preserves (P := Dev.Quiet d) _ (fun _ => h.frAlign _ _) h

theorem Dev.Quiet.frLeft (cs : List Candidate) : Dev.Quiet d (s.frLeft n cs) := by
  match cs with
  | [] => exact ite_preserves (P := Dev.Quiet d) _ (fun _ => (h.setCands _).frGo n _) (h.setCands _)
  | [_] =>
    refine ite_preserves (P := Dev.Quiet d) _ (fun _ => ?_) (h.setCands _)
    exact ite_preserves (P := Dev.Quiet d) _ (fun _ => (h.setCands _).frRecover) (((h.setCands _).frAlign _ _).wr _ _)
  | _ :: _ :: _ => exact h.setCands _

end Quiet

end Aligner

/-! ### O14: the clauses put together -/

section Commands
variable {n : Fin 8} {s : State} (hs : s.Inv)
include hs

/-- A command that comes to an entry to ALIGNED without FR_ALIGN_TIME (R182). -/
theorem settles_frAlign {f : Dev → Dev} {pos mfas : Nat} (hw : s.dev.frs n ≠ frAligned) (hf : f s.dev = s.dev.frAlign n pos mfas false) :
    ∃ t, s.run f = .next t ∧ State.Settles [(18, n.val)] ((s.dev.wr (Reg.FR_STAT_CAND n) 0).frPlaced n pos mfas) s t :=
  settles_kin hs hf (frAlign_untimed pos mfas hw) (((Dev.Quiet.refl _).wr _ _).frPlaced _ _)

/-- A command that takes the device to a quiet one. -/
theorem settles_becomes {f : Dev → Dev} {d : Dev} (hf : f s.dev = d) (hq : Dev.Quiet s.dev d) :
    ∃ t, s.run f = .next t ∧ State.Settles [] d s t :=
  settles_kin hs hf (Dev.Kin.refl d) hq

/-- A failure settles on what the candidates left make of the aligner. -/
theorem settles_frFail {pos : Nat} {cs : List Candidate} (hf : s.dev.frs n ≠ frIdle ∧ s.dev.frs n ≠ frAligned)
    (ha : (s.dev.fra n).cands.all (s.dev.frStays n pos) = false) (hc : (s.dev.fra n).cands.filter (s.dev.frStays n pos) = cs) :
    ∃ t, exec (.frCandidateFail n pos) s = .next t ∧ State.Settles [] (s.dev.frLeft n cs) s t :=
  settles_becomes hs ((frFailAt_left n.isLt hf ha).trans (by rw [hc])) ((Dev.Quiet.refl _).frLeft cs)

end Commands

/-- Settles O14: each command by the move of the frame aligner that it comes to. -/
theorem frameAlignment : Obligations.FrameAlignment := by
  unfold Obligations.FrameAlignment
  refine ⟨fun n pos m s hs hf hc hp => ?found, fun n c s hs hf hc hp => ?confirmed, fun n c s hs hf hc hh hm => ?lastFails,
    fun n c s hs hf hc hd ha => settles_frAlign hs (hf.trans_ne (by decide)) (frResolve_one hf hc hd ha), fun n s hs hf hl hd => ?ambiguous,
    fun n s hs hf hm => ?lost, fun n s hs hf hg => settles_frAlign hs (hf.trans_ne (by decide)) (frRecover_good hf hg),
    fun n s hs hf => ?declared, fun n s hs hf => ?cleared,
    fun n pos m s hs hf hp hd => settles_becomes hs (frPass_tracked hf hp hd) ((Dev.Quiet.refl _).setCands _),
    fun n pos m s hs hf hp hd hm => ?new, fun n pos s hs h => settles_idle hs (frPass_rests h),
    fun n c s hs hf hc hl => settles_becomes hs (frConfirmAt_beside hc hf hl) ((((Dev.Quiet.refl _).setCands _).setFra n _).frGo n _),
    fun n c s hs hf hc ho hg => ?realigned,
    fun n c s hs hf hc ho hg => settles_frAlign hs (hf.trans_ne (by decide))
      ((frConfirmAt_recovers hc hf (by rw [ho]; rfl) hg).trans (frRecover_good hf hg)),
    fun n c s hs hc h => settles_becomes hs (frConfirmAt_marks hc h) ((Dev.Quiet.refl _).setCands _),
    fun n pos s hs h => settles_idle hs (frConfirmAt_none h), fun n pos s hs hf ha hl => ?manyLeft, fun n pos c s hs hf ha hc => ?oneLeft,
    fun n pos s hs hf ha hc => ?noneLeft, fun n pos s hs h => settles_idle hs (frFailAt_rests h),
    fun n s hs hf hc => settles_becomes hs (frResolve_empty hf hc) ((Dev.Quiet.refl _).frGo n _),
    fun n s hs h => settles_idle hs (frResolve_rests h), fun n s hs h => settles_idle hs (if_neg fun hm => ?fewMisses),
    fun n s hs h => settles_idle hs (if_neg fun hg => ?fewGood), fun n s hs h => settles_idle hs (if_neg h), fun n s hs h => settles_idle hs (if_neg h)⟩
  case found =>
    have hf' : s.dev.frs n ≠ frIdle ∧ s.dev.frs n ≠ frAligned := by
      rw [hf]
      decide
    have hnew := frPass_new hf' hp (by rw [hc]; rfl) (by rw [hc]; rfl)
    simp only [hf, hc, List.length_nil, List.nil_append, if_true, if_pos (show 0 < 8 by decide)] at hnew
    exact settles_becomes hs (hnew.trans (frGo_setCands hf'.2 (by decide) _)) (((((Dev.Quiet.refl _).wr _ _).wr _ _).wr _ _).colApply _ |>.setFra n _)
  case confirmed =>
    have hkin := frAlign_timed (n := n) (s.dev.dueAt n c) (c.mfas + 1) (hf.trans_ne (by decide))
    exact settles_kin hs (frConfirmAt_first (find_only hc hp) hf (by rw [hc]; rfl)) hkin ((((Dev.Quiet.refl _).wr _ _).wr _ _).frPlaced _ _)
  case lastFails =>
    have hne := hf.trans_ne (show frConfirm ≠ frAligned by decide)
    have hfails : s.dev.frStays n c.pos c = false := by
      simp [hh, hm]
    have hset := settles_frFail (n := n) (pos := c.pos) (cs := []) hs ⟨hf.trans_ne (by decide), hne⟩ (by simp [hc, hfails]) (by simp [hc, hfails])
    rw [Dev.frLeft, if_pos (.inl hf), frGo_setCands hne (by decide)] at hset
    exact hset
  case ambiguous =>
    have hne : (s.dev.bump (Reg.FR_AMBIG_CNT n)).frs n ≠ frAligned :=
      ((frs_bump (by simp only [regCell]; omega)).trans hf).trans_ne (by decide)
    have hkin := Dev.Kin.raise ((s.dev.bump (Reg.FR_AMBIG_CNT n)).frToSearch n) 18 (8 + n)
    have hq : Dev.Quiet s.dev ((s.dev.bump (Reg.FR_AMBIG_CNT n)).frToSearch n) := (((Dev.Quiet.refl _).wr _ _).setCands _).frGo n _
    have hset := settles_kin hs (frResolve_many hf hl hd) hkin hq
    rw [Dev.frToSearch, frGo_setCands hne (by decide)] at hset
    exact hset
  case lost =>
    have hal : (s.dev.bump (Reg.FR_OOF_CNT n)).frs n = frAligned := (frs_bump (by simp only [regCell]; omega)).trans hf
    exact settles_kin hs (if_pos ⟨hf, hm⟩) (frGo_leaves hal).settleCourses
      (((((Dev.Quiet.refl _).wr _ _).wr _ _).wr _ _).colApply _ |>.setFra n _ |>.settleCourses)
  case declared =>
    exact settles_kin hs (if_pos hf) (setLof_kin n.isLt true) ((Dev.Quiet.refl _).wr _ _)
  case cleared =>
    have hset := settles_kin (f := fun d : Dev => if d.frs n = frAligned then d.setLof n false else d) hs (if_pos hf) (setLof_kin n.isLt false)
      ((Dev.Quiet.refl _).wr _ _)
    cases hon : s.dev.on (Reg.FR_STAT_LOF n) <;> rw [hon] at hset <;> exact hset
  case new =>
    refine settles_becomes hs (frPass_new hf hp hd hm) ?_
    have hkept := ite_preserves (P := Dev.Quiet s.dev) ((s.dev.fra n).cands.length < 8)
      (fun _ => (Dev.Quiet.refl _).setCands (n := n) ((s.dev.fra n).cands ++ [⟨pos, 1, m, false⟩])) (Dev.Quiet.refl _)
    exact ite_preserves (P := Dev.Quiet s.dev) _ (fun _ => hkept.frGo n _) hkept
  case realigned =>
    exact settles_kin hs (frConfirmAt_realigns hc hf (by rw [ho]; rfl) hg) ((frAlign_untimed _ _ (hf.trans_ne (by decide))).bumpBoth _)
      ((((Dev.Quiet.refl _).wr _ _).frPlaced _ _).wr _ _)
  case manyLeft =>
    have hset := settles_frFail hs hf ha rfl
    rwa [frLeft_many hl] at hset
  case oneLeft =>
    rw [hc]
    exact settles_frFail hs hf ha hc
  case noneLeft =>
    rw [hc]
    exact settles_frFail hs hf ha hc
  case fewMisses =>
    exact h.elim (· hm.1) (Nat.not_lt.mpr hm.2)
  case fewGood =>
    exact h.elim (· hg.1) (Nat.not_lt.mpr hg.2)

end Sys2Proof.Machine
end

section
namespace Sys2Proof.Machine
open Sys2Proof.Tests

/-! ### O17: a selector that moves remembers the frame delivered last -/

theorem pr_setPr (p : Nat) (x : Pair) (s : Dev) : (s.setPr p x).pr p = x :=
  sget_sset_same _ _ _

theorem pr_showPair (p q : Nat) (s : Dev) : (s.showPair p).pr q = s.pr q := by
  delta Dev.showPair
  extract_lets
  split_ifs <;> rfl

theorem pairBoundary_idle {p : Nat} {s : Dev} (hc : (s.pr p).cmds = []) : s.pairBoundary p = s.setPr p { s.pr p with cmds := [] } := by
  rw [Dev.pairBoundary, hc, List.foldl_nil]

/-- The commands that wait are no part of a pair's requests (R215). -/
theorem request_setPr_cmds (p : Nat) (cs : List Nat) (s : Dev) : (s.setPr p { s.pr p with cmds := cs }).request p = s.request p := by
  have hl : (s.setPr p { s.pr p with cmds := cs }).localRequest p = s.localRequest p := by
    rw [Dev.localRequest, pr_setPr]
    rfl
  rw [Dev.request, hl]
  rfl

section Move
variable {p : Nat} {s : Dev}

/-- A selector that moves keeps the serial of the frame delivered last, so that what it delivers next is later (R219). -/
theorem after_selectorMove (hm : s.pairMode p = 1) (he : s.on (Reg.PAIR_EN p) = true) (hw : s.on (Reg.PSTAT_SEL p) ≠ (s.request p).toB) :
    ((s.selectorMove p).pr p).after = (s.co (s.rd (Reg.PAIR_COURSE_A p))).delivered := by
  rw [Dev.selectorMove, if_pos ⟨he, hm⟩, if_neg hw, pr_showPair]
  refine (congrArg Pair.after ((Dev.Kin.raise _ 20 1).pr_eq p)).trans ?_
  exact congrArg Pair.after (pr_setPr p _ s)

/-- The same at a frame boundary of a pair for which no command waits. -/
theorem after_boundaryMove (hc : (s.pr p).cmds = []) (hm : s.pairMode p = 1) (he : s.on (Reg.PAIR_EN p) = true)
    (hw : s.on (Reg.PSTAT_SEL p) ≠ (s.request p).toB) :
    (((s.pairBoundary p).selectorMove p).pr p).after = (s.co (s.rd (Reg.PAIR_COURSE_A p))).delivered := by
  rw [pairBoundary_idle hc]
  refine after_selectorMove hm he ?_
  rw [request_setPr_cmds]
  exact hw

end Move

/-- What O17's clause of SELECTOR_MOVE says that the device becomes, before E-20.01. -/
def Dev.selectorShown (p : Nat) (s : Dev) : Dev :=
  ((((s.setPr p { s.pr p with cmds := [] }).wrB (Reg.PSTAT_SEL p) (s.request p).toB).bump (Reg.PSTAT_SWITCHES p)).pairChanged p).showPair p

theorem after_selectorShown (p : Nat) (s : Dev) : ((s.selectorShown p).pr p).after = (s.pr p).after := by
  rw [Dev.selectorShown, pr_showPair]
  exact (congrArg Pair.after (pr_setPr p { s.pr p with cmds := [] } s)).trans rfl

/-- Pair 3 runs as 1+1 with its selector on course A, which is course 0, and has delivered the frame of serial 7; its selector has not moved yet, and FS asks
for course B. -/
def switchingPair : State :=
  runningWith [(Reg.PAIR_EN 3, 1), (Reg.PSTAT_MODE_EFF 3, 1)] fun d =>
    (d.setPr 3 { d.pr 3 with fs := true }).setCo 0 { d.co 0 with delivered := some 7 }

theorem exec_selectorMove (p : BitVec 8) (s : State) :
    exec (.selectorMove p) s = .next (s.become ((s.dev.pairBoundary p.toNat).selectorMove p.toNat)) :=
  rfl

/-- A command that settles leaves the pairs' hidden state as its device has it. -/
theorem pr_of_settles {evs : List (Nat × Nat)} {d u : Dev} {s : State} (h : State.Settles evs d s (s.become u)) (p : Nat) : u.pr p = d.pr p :=
  congrArg (sget (dflt Pair.reset) · p) (h.dev.part (fun x => x.pairs) fun _ => rfl)

/-- Refutes O17: a selector that moves keeps the serial of the frame delivered last, since what it delivers next is later than that (R219). The clause of
SELECTOR_MOVE lets nothing but the waiting commands change in the pair's hidden state, and so keeps the serial of an earlier move, or none where the selector
has not moved before (`switchingPair`). -/
theorem not_pairCommandsAndSelector : ¬ Obligations.PairCommandsAndSelector := by
  unfold Obligations.PairCommandsAndSelector
  rintro ⟨-, -, -, -, -, -, -, -, -, -, -, -, -, -, -, -, -, -, -, hmove, -⟩
  have hcmds : (switchingPair.dev.pr (3#8).toNat).cmds = [] := by decide
  have hmode : switchingPair.dev.pairMode (3#8).toNat = 1 := by decide
  have hen : switchingPair.dev.on (Reg.PAIR_EN (3#8).toNat) = true := by decide
  have hsel : switchingPair.dev.on (Reg.PSTAT_SEL (3#8).toNat) ≠ (switchingPair.dev.request (3#8).toNat).toB := by decide
  obtain ⟨t, ht, hset⟩ := hmove 3#8 switchingPair (by decide) hcmds hmode hen hsel
  rw [exec_selectorMove] at ht
  obtain rfl := Host.Outcome.next.inj ht
  have hkept : (switchingPair.dev.co (switchingPair.dev.rd (Reg.PAIR_COURSE_A (3#8).toNat))).delivered =
      (switchingPair.dev.pr (3#8).toNat).after := calc
    _ = _ := (after_boundaryMove hcmds hmode hen hsel).symm
    _ = ((switchingPair.dev.selectorShown (3#8).toNat).pr (3#8).toNat).after := congrArg Pair.after (pr_of_settles hset _)
    _ = _ := after_selectorShown _ _
  exact absurd hkept (by decide)

end Sys2Proof.Machine
end
